-- ==== Sys2Proof/Word.lean ====
section
/-!
DEFINITION. The word types of the model and their plainest arithmetic (R8's conventions: hexadecimal words, bit fields
written [high:low]; 00_scope.md).
-/

namespace Sys2Proof

/-- One byte. -/
abbrev Byte := BitVec 8

/-- A 64-bit register word (R448). -/
abbrev Word := BitVec 64

end Sys2Proof
end

