-- ==== Sys2Proof/Wire.lean ====
section
/-!
DEFINITION. What arrives at the device from outside and what it sends: BXT packets with every field of R203-R206
(08_brixver_transport.md), RoCEv2 packets of R227, Ethernet frames of R286-R304, host and storage messages.
-/

namespace Sys2Proof

/-- The type extensions of R205, one constructor a packet type of R204; `reserved` stands for types 0xC to 0xF. -/
inductive Ext where
  | write (raddr rkey : Nat)
  | send (ssn imm : Nat)
  | readReq (raddr rkey rdLen : Nat)
  | readResp (reqPsn : Nat)
  | atomic (raddr rkey aop opnd0 opnd1 : Nat)
  | atomicResp (result : Nat)
  | ack (cumPsn sackPsn sackMap ceCount echoTs : Nat)
  | nak (code nrReason retryUs nakPsn respEpoch : Nat) (unkConn : Nat)
  | grant (classMask validUs : Nat) (budget : List Nat)
  | ctrl (ctrl srcConn svc group refMsn : Nat)
  | chunk (hdr : List Byte)
  | coord (kind generation nseq group rank opOrStep : Nat)
  | reserved (typ : Nat)
  deriving DecidableEq, Repr

/-- A BXT packet with its IP source and destination, DSCP and CE mark, every base-header field of R203 with the reserved bits it carries, its
extension, IV field, payload and trailer (R202). -/
structure Packet where
  srcIp : Nat := 0
  dstIp : Nat := 0
  dscp : Nat := 0
  ce : Bool := false
  /-- The ECN codepoint is ECT or CE; every packet the device sends is ECT(0) (R202). -/
  ect : Bool := true
  ver : Nat := 1
  ackReq : Bool := false
  enc : Bool := false
  retx : Bool := false
  solicit : Bool := false
  flagsResv : Nat := 0
  epoch : Nat := 0
  dstConn : Nat := 0
  cls : Nat := 0
  hops : Nat := 16
  psn : Nat := 0
  msn : Nat := 0
  msgLen : Nat := 0
  msgOff : Nat := 0
  dstDev : Nat := 0
  srcDev : Nat := 0
  devResv : Nat := 0
  ts : Nat := 0
  pathId : Nat := 0
  hdrResv : Nat := 0
  /-- The IP and UDP fields that a transit packet keeps (R202, R203): source port, IPv6 flow label, IPv4 DF, UDP checksum. -/
  sport : Nat := 0
  flow : Nat := 0
  dontFrag : Bool := false
  udpSum : Nat := 0
  ext : Ext := .reserved 15
  iv : Nat := 0
  payload : List Byte := []
  trailer : List Byte := []
  deriving DecidableEq, Repr

/-- The opcodes of the RoCEv2 subset (R227). `other` stands for every opcode outside it. -/
inductive RoceOp where
  | send (first last : Bool)
  | write (first last : Bool) (raddr rkey len : Nat)
  | readReq (raddr rkey len : Nat)
  | readResp (first last : Bool)
  | ack (syndrome msn : Nat)
  | cnp
  | other
  deriving DecidableEq, Repr

/-- A RoCEv2 packet (R227): destination QP, 24-bit PSN, P_Key, opcode, payload, whether its ICRC is right, its CE mark. -/
structure RocePacket where
  srcIp : Nat
  qp : Nat
  psn : Nat
  pkey : Nat
  ackReq : Bool
  op : RoceOp
  payload : List Byte
  icrcOk : Bool
  ce : Bool
  deriving DecidableEq, Repr

/-- The access paths of R512 and R520, each with its latch of R448: the management connection, BAR2 of physical function 0, the BAR of a physical function of a link, an instance's window. -/
inductive Path where
  | conn
  | pf0
  | pf (link : Nat)
  | inst (vf : Nat)
  deriving DecidableEq, Repr

/-- The organisation-specific TLV of the Rymus family (R295): part number, stepping (major in [7:4], minor in [3:0]), device address, logical index,
replay bit. -/
structure RymusTlv where
  part : Nat
  stepping : Nat
  dev : Nat
  lport : Nat
  replay : Bool
  deriving DecidableEq, Repr

/-- What an LLDPDU says (R295): Chassis ID, Port ID, TTL in seconds and the Rymus TLV where it carries it. -/
structure Lldp where
  chassis : Nat
  portId : Nat
  ttl : Nat
  rymus : Option RymusTlv
  deriving DecidableEq, Repr

/-- The hop shim (R303): kind 0 data, 1 ACK, 2 NAK, 3 START, 4 START_ACK, 5 FILLER. -/
structure Shim where
  ethType : Nat
  kind : Nat
  ackValid : Bool
  resv : Nat
  hsn : Nat
  ackHsn : Nat
  innerType : Nat
  deriving DecidableEq, Repr

/-- What a frame carries. -/
inductive FrameBody where
  | bxt (p : Packet)
  | roce (p : RocePacket)
  | pfc (enable : Nat) (quanta : List Nat)
  | pause
  | lldp (l : Lldp)
  | hop
  | other (data : List Byte)
  deriving DecidableEq, Repr

/-- An Ethernet frame (R276, R287-R293): its length from the destination MAC through the FCS, whether the FCS is good, the corrected and
uncorrectable codewords it touches, MACs, the TCI of its tag, its shim, EtherType, the IP and UDP fields that classification reads, and its
body. -/
structure Frame where
  len : Nat
  fcsOk : Bool
  fecCorr : Nat
  fecBad : Nat
  dstMac : Nat
  srcMac : Nat
  tag : Option Nat
  shim : Option Shim
  ethType : Nat
  dscp : Nat
  ecn : Nat
  proto : Nat
  srcIp : Nat
  dstIp : Nat
  sport : Nat
  dport : Nat
  /-- R202: the IPv6 flow label, the IPv4 DF bit and the UDP checksum. -/
  flow : Nat := 0
  dontFrag : Bool := false
  udpSum : Nat := 0
  body : FrameBody
  deriving DecidableEq, Repr
/-- NVMe/TCP PDUs and the life of their TCP connection (R417; log entry 28): what the device sends, what a target sends. `resp` carries the
command identifier, the Status Field and the result; `outside` stands for every PDU or response outside the subset. -/
inductive NvmeBody where
  | tcpOpen (ip tcpPort : Nat)
  | tcpClose
  | icReq
  | connect (cid qid depth : Nat) (nqn : List Byte)
  | propGet (cid off : Nat)
  | propSet (cid off value : Nat)
  | identify (cid cns nsid : Nat)
  | keepAlive (cid : Nat)
  | read (cid nsid slba blocks : Nat)
  | write (cid nsid slba blocks : Nat)
  | flush (cid nsid : Nat)
  | h2cData (cid ttag off : Nat) (data : List Byte)
  | h2cTerm
  | tcpOpened
  | icResp (maxH2c : Nat) (hdrDigest dataDigest : Bool)
  | resp (cid status result : Nat)
  | r2t (cid ttag off len : Nat)
  | c2hData (cid off : Nat) (data : List Byte)
  | c2hTerm
  | tcpReset
  | outside
  deriving DecidableEq, Repr

/-- A PDU from a target on one of its queues (0 admin), with whether its digests are right. -/
structure NvmePdu where
  queue : Nat
  digestOk : Bool
  body : NvmeBody
  deriving DecidableEq, Repr
/-- A frame received by the management MAC (R503, R505): whether its FCS is good, its length, MACs and EtherType, the `version` and body length of
its header, its body. -/
structure TrayIn where
  fcsOk : Bool
  len : Nat
  dst : Nat
  src : Nat
  ethType : Nat
  version : Nat
  bodyLen : Nat
  body : List Byte
  deriving DecidableEq, Repr

/-- Everything that leaves the device (log entry 4). -/
inductive Output where
  /-- A frame on a logical port (R288, R289, R292). -/
  | frame (port : Nat) (f : Frame)
  /-- The first bytes of a frame that arrived at a logical port, so many of them, for telemetry (R277 code 4). -/
  | mirror (port bytes : Nat) (f : Frame)
  /-- A data write or completion write on a host link (R312, R253). -/
  | hostWrite (link addr st : Nat) (relaxed : Bool) (data : List Byte)
  /-- A read request on a host link (R312). -/
  | hostRead (link addr len : Nat)
  /-- A zero-length flush read on a host link (R253). -/
  | hostFlush (link addr : Nat)
  /-- An MSI-X message (R318). -/
  | msix (link addr data : Nat)
  /-- The completion of an inbound request: 0 with data, 1 Unsupported Request, 2 Completer Abort (R315, R317). -/
  | tlpCpl (link status : Nat) (data : List Byte)
  /-- A flit that the Kilmet link passes to its unit on the other die (R23; log entry 40): direction and the flit. -/
  | flit (dir : Nat) (bytes : List Byte)
  /-- The reset error with which a crossing reset answers the requests held in it: the domain that went down, how many (R449). -/
  | resetError (domain n : Nat)
  /-- The status code of R257 with which a manager's command completes that is no work entry (R52, R53). -/
  | cmdStatus (code : Nat)
  /-- A report to the fabric manager that a group has lost a rank: group, generation, lost rank, the open operations (R117, R143). -/
  | lossReport (group gen lost : Nat) (openOps : List Nat)
  /-- A PDU to a storage target on one of its queues, by a logical port, with its DSCP and traffic class (R417, R418). -/
  | nvme (port dscp tc target queue : Nat) (b : NvmeBody)
  /-- A frame of the management MAC on the tray bus: destination, source, type, `seq`, body (R505). -/
  | tray (dst src typ seq : Nat) (body : List Byte)
  deriving DecidableEq, Repr

end Sys2Proof
end

