-- ==== Sys2Proof/Syntax.lean ====
section
/-!
DEFINITION. The commands and events of the device: one constructor for each row of spec/opcode_table.json, with the operands that say
which unit, ring, packet, frame or message it concerns. The docstrings are the rows' own summaries.
-/

namespace Sys2Proof

/-- What a 256-byte block is read for (R359): an operation, the READ_REQ of a PSN on a connection, or the entry of a count of a ring. -/
inductive BlockReader where
  | op (id : Nat)
  | read (conn psn : Nat)
  | entry (key count : Nat)
  deriving DecidableEq, Repr

/-- A 256-byte block in transfer: what it is read for (R359), and the block number of its source unit (R362, R471). -/
structure BlockUse where
  reader : BlockReader
  source : Nat
  deriving DecidableEq, Repr

/-- The width a host link has changed to, and the lanes of its port that have failed, 16 the spare (R31, R311; log entry 67). -/
structure LinkLanes where
  width : Nat
  failed : List Nat
  deriving DecidableEq, Repr

/-- A request from below a root port (R319): a read, a write of bytes, or an AtomicOp (R333). -/
inductive BelowRequest where
  | read
  | write (data : List Byte)
  | atomic
  deriving DecidableEq, Repr

/-- A command or event of the Rymus 9080. -/
inductive Instr where
  /-- REGISTER_WRITE (R10): A write to a register field that has no row of its own sets the value or is refused and logged. -/
  | registerWrite (path : Path) (link off : Nat) (data : List Byte)
  /-- COUNTER_LOW_HALF_READ (R448): A 32-bit read of a 64-bit counter's low half latches its high half in the access path's latch. -/
  | counterLowHalfRead (path : Path) (link off : Nat)
  /-- REG_ACCESS_TIMEOUT (R516): A register access not answered within 1 ms ends: a read returns all ones, a write is lost, and TIMEOUT is logged. -/
  | regAccessTimeout (path : Path) (link off len : Nat) (write : Bool)
  /-- KILMET_FLIT_RECEIVE (R23): A mainband flit arrives; it is CRC-checked and either passed to its unit or discarded with a NAK. -/
  | kilmetFlitReceive (m d : Nat) (sent got : List Byte) (known : Bool)
  /-- KILMET_NAK (R23): A NAK control flit arrives and the sender replays in order from the named fseq. -/
  | kilmetNak (m d fseq : Nat)
  /-- KILMET_ACK_TIMEOUT (R24): An acknowledgement outstanding for 1 µs makes the sender replay from the oldest unacknowledged flit. -/
  | kilmetAckTimeout (m d : Nat)
  /-- KILMET_ACK_TIMER (R24): After 64 flits or 100 ns the receiver acknowledges in a header or an ACK flit. -/
  | kilmetAckTimer (m d : Nat)
  /-- KILMET_CREDIT (R25): A credit flit grants cumulative buffer space on one channel. -/
  | kilmetCredit (d ch count : Nat)
  /-- KILMET_RETRAIN (R27): A flit replayed 8 times in succession starts a retraining of its module. -/
  | kilmetRetrain (m : Nat)
  /-- KILMET_RETRAIN_DONE (R27): A module retraining ends, mapping in redundant lanes or counting a failure. -/
  | kilmetRetrainDone (m : Nat) (ok : Bool) (g2h h2g : Nat)
  /-- LOAD_FULL (R52): The manager starts a run-time full layout load from staging, refused unless every enabled partition is quiesced. -/
  | loadFull
  /-- LOAD_SLICE (R53): The manager starts a slice reload of one partition's pool shares and recipes. -/
  | loadSlice
  /-- PROGRAM_A (R56): The manager checks the staged full image and writes it to layout slot A. -/
  | programA
  /-- PROGRAM_B (R56): The manager checks the staged full image and writes it to layout slot B. -/
  | programB
  /-- RAISE_FLOOR (R57): The fused layout rollback floor is raised to the running image's level. -/
  | raiseFloor
  /-- ABORT (R55): ABORT stops the running layout command with reason 0x10, or sets done when none runs. -/
  | abort
  /-- LAYOUT_COMMAND_DONE (R52): A running layout command finishes its checks and apply or flash program and sets done or rejected. -/
  | layoutCommandDone (ok : Bool)
  /-- CHUNK (R100): A CHUNK packet arrives; when its message is complete the contribution is checked, matched and folded into its slot. -/
  | chunk (hdr : List Byte) (p : Packet)
  /-- CHUNK_BIND (R108): A chunk waiting for a free fold queue binds to an active unit once a chunk is released. -/
  | chunkBind (op rank bundle chunk : Nat)
  /-- TALLY_SPARE_MAP (R109): The manager maps a spare tally unit in place of a retired one through TAL_SPARE_MAP. -/
  | tallySpareMap (retired spare : Nat)
  /-- SPARE_MAP_DONE (R109): A spare mapping completes after the spare's engine reset and new chunks or blocks may bind to it. -/
  | spareMapDone (res : Nat)
  /-- INSTALL (R113): The fabric manager installs a group generation from the member table into the selected record. -/
  | install
  /-- ACTIVATE (R118): ACTIVATE opens the group's coordination connections by PROBE. -/
  | activate
  /-- ACTIVATE_COMPLETE (R118): ACTIVATE completes when every coordination connection of the device is OPEN, and the group becomes ACTIVE. -/
  | activateComplete (slot : Nat)
  /-- ACTIVATE_TIMEOUT (R118): A coordination connection not OPEN within 1,000 ms refuses ACTIVATE with reason 8. -/
  | activateTimeout (slot : Nat)
  /-- DISSOLVE (R151): DISSOLVE frees a group record and closes its connections, refused while operations are open. -/
  | dissolve
  /-- CHUNK_CONN_TIMEOUT (R118): A chunk connection not OPEN within 1,000 ms of its first PROBE is treated as PEER_LOST of the peer's ranks. -/
  | chunkConnTimeout (conn : Nat)
  /-- START (R125): A START report arrives and is folded up the tree; at the bellwether agreement sends GO and disagreement abandons. -/
  | start (gen nseq group rank op : Nat) (p : Packet)
  /-- GO (R125): A GO notice arrives and the rank begins sending chunks of the operation. -/
  | go (gen nseq group rank op : Nat) (p : Packet)
  /-- DONE (R129): A DONE report arrives; when all ranks are done the bellwether sends COMMIT. -/
  | done (gen nseq group rank op : Nat) (p : Packet)
  /-- REDUCED (R133): A REDUCED report for a bundle arrives; when all have reported the bellwether sends REDUCE_COMMIT in bundle order. -/
  | reduced (gen nseq group rank op : Nat) (p : Packet)
  /-- REDUCE_COMMIT (R133): A REDUCE_COMMIT notice arrives and lets the rank update that bundle. -/
  | reduceCommit (gen nseq group rank op : Nat) (p : Packet)
  /-- PUBLISHED (R135): A PUBLISHED report arrives; for the last bundle the bellwether compares hashes and sends COMMIT. -/
  | published (gen nseq group rank op : Nat) (p : Packet)
  /-- COMMIT (R135): A COMMIT notice arrives; the rank releases retained inputs, records the step and posts OK. -/
  | commit (gen nseq group rank op : Nat) (p : Packet)
  /-- VOID (R138): A VOID notice arrives; the rank stops the attempt, drops its partials, advances chunk-connection epochs and sends VOID_ACK. -/
  | void (gen nseq group rank op : Nat) (p : Packet)
  /-- VOID_ACK (R139): A VOID_ACK report arrives; when all are held the bellwether sends RERUN. -/
  | voidAck (gen nseq group rank op : Nat) (p : Packet)
  /-- RERUN (R139): A RERUN notice arrives and the voided phase runs again from retained inputs or P. -/
  | rerun (gen nseq group rank op : Nat) (p : Packet)
  /-- ABANDON (R142): An ABANDON report or notice arrives and the operation ends at every rank with its cause. -/
  | abandon (gen nseq group rank op : Nat) (p : Packet)
  /-- RECONCILE (R146): RECONCILE reports and the notice settle the furthest reduce commit after a re-form, and held steps complete GROUP_REFORMED. -/
  | reconcile (gen nseq group rank op : Nat) (p : Packet)
  /-- FOLDED (R104): A FOLDED message arrives and the producer releases the slot that held the partial. -/
  | folded (gen nseq group rank op : Nat) (p : Packet)
  /-- LOSS (R143): A loss report reaches the bellwether, which sends every rank into REFORMING and reports to the fabric manager. -/
  | loss (gen nseq group rank op : Nat) (p : Packet)
  /-- COORD_KEEPALIVE (R195): A COORD KEEPALIVE arrives on a coordination connection and only proves the peer alive. -/
  | coordKeepalive (gen nseq group rank op : Nat) (p : Packet)
  /-- COORD_KEEPALIVE_TIMER (R195): While an operation is open, 100 µs without sending on a coordination connection sends a keep-alive. -/
  | coordKeepaliveTimer (conn : Nat)
  /-- STRAGGLE_EXPIRY (R141): The bellwether's budget for an operation expires before commit and it abandons the operation DEADLINE_MISSED. -/
  | straggleExpiry (slot op : Nat)
  /-- REFORM_WAIT_EXPIRY (R143): No next-generation INSTALL within reform_wait_ms ends held operations PEER_LOST and returns the group to ACTIVE. -/
  | reformWaitExpiry (slot : Nat)
  /-- MILL_BLOCK_DONE (R179): All stores of a mill block are acknowledged; its kept values are released and the block is marked done. -/
  | millBlockDone (engine : Nat)
  /-- NORM_SYNC (R164): Pass 1 ends; local norm sums are rounded and a scalar all-reduce starts. -/
  | normSync (op copy bundle : Nat)
  /-- NORM_SYNC_RESULT (R164): The norm scalar all-reduce completes; S24–S27 are written and pass 2 starts. -/
  | normSyncResult (op scope bundle n0 n1 n2 n3 : Nat)
  /-- MILL_SPARE_MAP (R182): The manager maps a spare mill engine through MIL_SPARE_MAP. -/
  | millSpareMap (retired spare : Nat)
  /-- BXT_WRITE (R217): A WRITE packet is judged and its payload placed at raddr plus msg_off after translation. -/
  | bxtWrite (raddr rkey : Nat) (p : Packet)
  /-- BXT_SEND (R217): A SEND packet is placed into the receive entry of its SSN or answered NOT_READY or LENGTH. -/
  | bxtSend (ssn imm : Nat) (p : Packet)
  /-- READ_REQ (R217): A READ_REQ packet makes the responder send READ_RESP packets for the requested bytes. -/
  | readReq (raddr rkey rdLen : Nat) (p : Packet)
  /-- READ_RESP (R218): A READ_RESP is placed locally and marks its bit in the open read. -/
  | readResp (reqPsn : Nat) (p : Packet)
  /-- BXT_ATOMIC (R217): An ATOMIC packet is performed once or answered from the atomic cache, returning ATOMIC_RESP. -/
  | bxtAtomic (raddr rkey aop opnd0 opnd1 : Nat) (p : Packet)
  /-- ATOMIC_RESP (R217): An ATOMIC_RESP completes the requester's atomic with its result. -/
  | atomicResp (result : Nat) (p : Packet)
  /-- ACK (R209): An ACK acknowledges PSNs, updates the congestion window and completes messages covered by done_msn. -/
  | ack (cumPsn sackPsn sackMap ceCount echoTs : Nat) (p : Packet)
  /-- NAK (R219): A NAK is acted on by its code: re-send later, wait, complete the message, or error the connection. -/
  | nak (code nrReason retryUs nakPsn respEpoch unkConn : Nat) (p : Packet)
  /-- GRANT (R268): A GRANT sets the requester's per-class grant rates for the connection from the next cycle. -/
  | grant (classMask validUs : Nat) (budget : List Nat) (p : Packet)
  /-- PROBE (R211): A CTRL PROBE to the connection service creates or re-answers a connection end with PROBE_ACK, or is ignored. -/
  | probe (srcConn svc group : Nat) (p : Packet)
  /-- PROBE_ACK (R211): A PROBE_ACK with matching IDs and epoch moves an ARMED end to OPEN. -/
  | probeAck (srcConn svc group : Nat) (p : Packet)
  /-- KEEPALIVE (R214): A CTRL KEEPALIVE is placed and acknowledged like data. -/
  | keepalive (svc group : Nat) (p : Packet)
  /-- CLOSE (R211): A placed CLOSE completes the end's outstanding work ABORTED, answers CLOSE_ACK and frees the end. -/
  | close (svc group : Nat) (p : Packet)
  /-- CLOSE_ACK (R211): A CLOSE_ACK moves a CLOSING end to FREE. -/
  | closeAck (svc group : Nat) (p : Packet)
  /-- REFUSAL_SEEN (R534): A placed REFUSAL_SEEN releases the REFUSED message entry so done_msn may pass it. -/
  | refusalSeen (svc group refMsn : Nat) (p : Packet)
  /-- ROCE_PACKET (R227): A RoCEv2 packet on a roce connection is handled in order under the supported subset, including CNPs. -/
  | rocePacket (p : RocePacket)
  /-- RETRANSMIT_TIMEOUT (R213): A PSN's retransmit timer expires; the packet is re-sent or, at the limit, the connection errors PEER_LOST or RETRY_EXHAUSTED. -/
  | retransmitTimeout (conn psn : Nat)
  /-- PROBE_RESEND (R211): An ARMED end re-sends its PROBE every 100 µs. -/
  | probeResend (conn : Nat)
  /-- ARM_TIMEOUT (R211): An end ARMED beyond arm_timeout_ms moves to ERROR as PEER_LOST. -/
  | armTimeout (conn : Nat)
  /-- CLOSE_TIMEOUT (R211): 1 ms after CLOSE was sent without CLOSE_ACK a CLOSING end moves to FREE. -/
  | closeTimeout (conn : Nat)
  /-- KEEPALIVE_TIMER (R214): Nothing sent for keepalive_us makes the end send a KEEPALIVE. -/
  | keepaliveTimer (conn : Nat)
  /-- ACK_COALESCE_TIMER (R214): 2 µs after the first unacknowledged placement, or 16 placements, an ACK is sent. -/
  | ackCoalesceTimer (conn : Nat)
  /-- FAULT_HOLD_EXPIRY (R220): A packet held for translation past fault_hold_us is discarded and answered NAK FAULT. -/
  | faultHoldExpiry (i : Nat)
  /-- CONTEXT_FETCH_DONE (R222): A non-resident context arrives from DDR5 and its waiting packets proceed. -/
  | contextFetchDone (conn : Nat)
  /-- CONTEXT_FETCH_TIMEOUT (R222): A context fetch beyond 10 µs answers the waiting packet NAK NOT_READY reason 1. -/
  | contextFetchTimeout (conn : Nat)
  /-- NAK_DELAY_EXPIRY (R219): The delay of a NOT_READY or HELD NAK ends and the packet is re-sent or its timer resumes. -/
  | nakDelayExpiry (conn psn : Nat)
  /-- READ_TIMEOUT (R218): An open read's timer expires and the READ_REQ is re-sent from the first missing byte. -/
  | readTimeout (conn msn : Nat)
  /-- SQ_DOORBELL (R233): A write of sq_tail lets the front end fetch entries up to the new tail. -/
  | sqDoorbell (link vf ring tail : Nat)
  /-- CQ_DOORBELL (R233): A write of cq_head frees completion slots for reservation. -/
  | cqDoorbell (link vf ring head : Nat)
  /-- ARM (R236): Writing arm requests one interrupt at the next completion, or at once if completions are pending. -/
  | arm (link vf ring : Nat)
  /-- PUSH (R234): A whole entry written into a push slot is taken as the entry at sq_tail. -/
  | push (link vf ring : Nat) (entry : List Byte)
  /-- ENTRY_FETCH (R232): The front end fetches and judges owned entries once a completion slot can be reserved. -/
  | entryFetch (key : Nat)
  /-- FETCH_RECHECK_TIMER (R232): A covered slot not yet owned is read again every 10 µs until it is owned. -/
  | fetchRecheckTimer (key : Nat)
  /-- CTL_SQ_DOORBELL (R259): A write of the control-ring tail lets the front end fetch manager entries. -/
  | ctlSqDoorbell (tail : Nat)
  /-- CTL_CQ_DOORBELL (R259): A write of the control completion head frees control completion slots. -/
  | ctlCqDoorbell (head : Nat)
  /-- RING_CREATE (R348): CREATE sets up a ring pair, translating and pinning its pages, or is refused with a reason. -/
  | ringCreate (link vf : Nat)
  /-- RING_STOP (R255): STOP moves a ring pair to STOPPING, stops fetching and completes not-started entries ABORTED. -/
  | ringStop (link vf : Nat)
  /-- RING_STOP_DONE (R255): The last started entry of a stopping ring ends and the ring becomes STOPPED. -/
  | ringStopDone (key : Nat)
  /-- RING_DESTROY (R258): DESTROY returns a STOPPED ring pair to FREE. -/
  | ringDestroy (link vf : Nat)
  /-- FLUSH_COMPLETE (R253): A flush read returns and completions awaiting it are posted, followed by any interrupt. -/
  | flushComplete (n : Nat) (ok : Bool)
  /-- NOP (R238): A NOP entry completes with no effect. -/
  | nop (key count : Nat)
  /-- WRITE (R239): A WRITE entry is admitted and sends its data to the peer's memory. -/
  | write (key count : Nat)
  /-- READ (R239): A READ entry is admitted and requests remote bytes into a local buffer. -/
  | read (key count : Nat)
  /-- SEND (R239): A SEND entry is admitted and sends one message to the peer's receive ring. -/
  | send (key count : Nat)
  /-- ATOMIC (R239): An ATOMIC entry is admitted and sends one remote atomic. -/
  | atomic (key count : Nat)
  /-- RECV (R239): A RECV entry posts a receive buffer for the next SSN of its connection. -/
  | recv (key count : Nat)
  /-- COPY (R241): A COPY entry converts count elements locally between formats. -/
  | copy (key count : Nat)
  /-- COLL (R242): A COLL entry is admitted locally and starts a collective with a START report. -/
  | coll (key count : Nat)
  /-- STEP (R243): A STEP entry checks its plan, descriptors and scalars and starts a training step. -/
  | step (key count : Nat)
  /-- MILL_BIND (R244): MILL_BIND binds a descriptor table to a held rank or twin copy. -/
  | millBind (key count : Nat)
  /-- CONN_CREATE (R245): CONN_CREATE creates a connection end and moves it to ARMED. -/
  | connCreate (key count : Nat)
  /-- CONN_MODIFY (R245): CONN_MODIFY changes a connection, moving it through ARMED when the epoch changes. -/
  | connModify (key count : Nat)
  /-- CONN_CLOSE (R211): CONN_CLOSE moves an OPEN end to CLOSING or an ARMED or ERROR end to FREE. -/
  | connClose (key count : Nat)
  /-- AS_CREATE (R337): AS_CREATE allocates an address-space tag with a root and a key nonce. -/
  | asCreate (key count : Nat)
  /-- AS_DESTROY (R349): AS_DESTROY invalidates and frees an unused tag. -/
  | asDestroy (key count : Nat)
  /-- INVALIDATE (R345): INVALIDATE advances the tag's generation, drops its cache entries and flushes old-generation writes. -/
  | invalidate (key count : Nat)
  /-- INVALIDATE_DRAIN_DONE (R345): No old-generation access remains; held transfers are retried and INVALIDATE completes. -/
  | invalidateDrainDone (tag : Nat)
  /-- RESOLVE (R344): RESOLVE retries held transfers whose faulting address lies in its range. -/
  | resolve (key count : Nat)
  /-- FQ_BIND (R337): FQ_BIND binds the partition's fault and error queues. -/
  | fqBind (key count : Nat)
  /-- QUEUE_ACK (R337): QUEUE_ACK consumes fault and error records up to the given heads. -/
  | queueAck (key count : Nat)
  /-- WALK_DONE (R330): A page walk finishes with a translation or a failure reason. -/
  | walkDone (i : Nat)
  /-- TRANSLATION_HOLD_EXPIRY (R340): A local transfer held on NOT_PRESENT past hold_us completes TRANSLATION_FAULT. -/
  | translationHoldExpiry (i : Nat)
  /-- FAULT_BATCH_TIMER (R342): After batch_us or 64 records the gathered fault and error records are written and one interrupt sent. -/
  | faultBatchTimer (part : Nat)
  /-- DEADLINE_EXPIRY (R262): An admitted operation's budget expires; it is ended and completes DEADLINE_MISSED with a cause. -/
  | deadlineExpiry (op : Nat)
  /-- GRANT_PERIOD_TIMER (R267): Each grant period the device sends a GRANT on every OPEN connection into it. -/
  | grantPeriodTimer
  /-- GRANT_EXPIRY (R268): No GRANT within valid_us drops the grant rate to 0 and counts a missed grant. -/
  | grantExpiry (conn cls : Nat)
  /-- METER_APPLY (R279): APPLY writes the staged CIR, PIR, CBS and PBS to the selected meter and fills its buckets. -/
  | meterApply
  /-- METER_READ (R281): READ copies the selected meter's parameters into the staging registers. -/
  | meterRead
  /-- FRAME_RECEIVE (R287): A received frame is length- and FCS-checked, classified, metered, and delivered, relayed or dropped. -/
  | frameReceive (port : Nat) (f : Frame)
  /-- TRANSIT_AGE_EXPIRY (R299): A transit frame held more than 1 ms is dropped. -/
  | transitAgeExpiry (n : Nat)
  /-- LANE_FAULT (R284): A lane fault takes its logical ports DOWN and starts a SerDes loopback test. -/
  | laneFault (port lane : Nat)
  /-- LOOPBACK_TEST_DONE (R284): The loopback test ends; a failed SerDes is spared and retired, and the logical port retrains. -/
  | loopbackTestDone (port lane : Nat) (pass : Bool)
  /-- PORT_ADMIN_WRITE (R290): Writing admin moves a logical port to TRAINING or DISABLED. -/
  | portAdminWrite (port admin : Nat)
  /-- TRAINING_DONE (R290): A logical port completes training and goes UP, rejoining its port sets. -/
  | trainingDone (port : Nat) (ok : Bool)
  /-- TRAINING_RETRY_TIMER (R290): A failed training attempt waits a doubling back-off and then tries again. -/
  | trainingRetryTimer (port : Nat)
  /-- ALIGNMENT_LOSS (R291): An UP logical port loses alignment or faults, goes DOWN and leaves every port set. -/
  | alignmentLoss (port : Nat)
  /-- DOWN_RETRAIN_TIMER (R290): 10 ms after DOWN the logical port enters TRAINING. -/
  | downRetrainTimer (port : Nat)
  /-- PFC_FRAME (R293): A received PFC frame pauses or releases a traffic class. -/
  | pfcFrame (port enable : Nat) (quanta : List Nat)
  /-- PFC_QUANTA_EXPIRY (R293): A paused traffic class's quanta run out and it may send again. -/
  | pfcQuantaExpiry (port tc : Nat)
  /-- PFC_REFRESH_TIMER (R293): While ingress use stays above xon_kib a PFC frame is repeated every half quantum. -/
  | pfcRefreshTimer (port tc kib : Nat)
  /-- PFC_WATCHDOG (R294): A class paused longer than wd_ms stops honouring pause until quanta 0 arrives. -/
  | pfcWatchdog (port tc : Nat)
  /-- LLDP_TIMER (R295): Every second an LLDP-enabled UP logical port sends an LLDPDU. -/
  | lldpTimer (port : Nat)
  /-- LLDPDU (R295): A neighbour's LLDPDU records its Rymus TLV, device, logical port and next-hop MAC. -/
  | lldpdu (port : Nat) (pdu : Lldp)
  /-- LLDP_TTL_EXPIRY (R295): A neighbour whose TTL lapses is forgotten and hop replay on the link stops. -/
  | lldpTtlExpiry (port : Nat)
  /-- ROUTE_WRITE (R300): HOP_ROUTE_CMD WRITE adds or replaces a relay route entry whole. -/
  | routeWrite
  /-- ROUTE_DELETE (R300): HOP_ROUTE_CMD DELETE removes a relay route entry. -/
  | routeDelete
  /-- ROUTE_READ (R309): HOP_ROUTE_CMD READ returns a destination's port mask in HOP_ROUTE_MASK. -/
  | routeRead
  /-- HOP_START (R302): A hop-replay START frame from the neighbour is answered with START_ACK. -/
  | hopStart (port : Nat)
  /-- HOP_START_ACK (R302): START_ACK completes the exchange and hop replay runs from HSN 0. -/
  | hopStartAck (port : Nat)
  /-- HOP_DATA_FRAME (R304): A shimmed data or FILLER frame is accepted in HSN order or discarded with a NAK. -/
  | hopDataFrame (port : Nat) (shim : Shim) (f : Frame)
  /-- HOP_ACK (R304): A hop ACK releases acknowledged frames from the replay buffer. -/
  | hopAck (port ack : Nat)
  /-- HOP_NAK (R304): A hop NAK makes the sender replay in HSN order from the named HSN. -/
  | hopNak (port hsn : Nat)
  /-- HOP_ACK_TIMEOUT (R304): An acknowledgement outstanding for 4 µs triggers a replay; 8 replays of one HSN take the port DOWN. -/
  | hopAckTimeout (port : Nat)
  /-- HOP_ACK_TIMER (R304): After 64 frames or 0.5 µs the receiver acknowledges in a shim or an ACK frame. -/
  | hopAckTimer (port : Nat)
  /-- WEATHER_REPORT_TIMER (R305): Every report_us the device sends a weather report to the fabric manager. -/
  | weatherReportTimer
  /-- WEATHER_UPDATE (R306): A merged-weather SEND is applied entry by entry to the port-choice levels. -/
  | weatherUpdate (k : Nat) (body : List Byte)
  /-- WEATHER_WINDOW_GO (R306): HOP_WX_CMD go applies the weather update staged in HOP_WX_WINDOW. -/
  | weatherWindowGo
  /-- WEATHER_LEVEL_EXPIRY (R306): A weather level not refreshed within ttl_us returns to 0. -/
  | weatherLevelExpiry (dst : Nat)
  /-- HOST_LINK_UP (R310): A host link reaches L0 at its negotiated speed and width and any fence lifts. -/
  | hostLinkUp (link gen width : Nat)
  /-- HOST_LINK_CHANGE (R311): A link changes width or speed in service and its capacity changes from the next cycle. -/
  | hostLinkChange (link gen : Nat) (width : LinkLanes)
  /-- HOST_LINK_LOSS (R322): A hot reset, secondary bus reset, DL_Down or link loss fences the link and detaches its instances. -/
  | hostLinkLoss (link : Nat)
  /-- PF_FLR (R322): A function level reset of a PF detaches every instance attached through its link. -/
  | pfFlr (link : Nat)
  /-- VF_FLR (R322): A function level reset of a VF detaches its instance. -/
  | vfFlr (link vf : Nat)
  /-- HOST_READ_COMPLETION (R312): A completion for a device read request arrives; an error status fails the operation TARGET_LOST. -/
  | hostReadCompletion (n : Nat) (ok : Bool) (data : List Byte)
  /-- CPL_TIMEOUT (R312): A host read not completed within cpl_timeout_ms fails its operation TARGET_LOST. -/
  | cplTimeout (n : Nat)
  /-- APERTURE_READ (R317): An inbound aperture read is translated and served, or completes Completer Abort. -/
  | apertureRead (link vf off len : Nat)
  /-- APERTURE_WRITE (R317): An inbound aperture write is translated and written, or discarded with an error record. -/
  | apertureWrite (link vf off : Nat) (data : List Byte)
  /-- DOWNSTREAM_REQUEST (R319): A request from a device below a root port is checked against HPT_RP_RID and served or refused. -/
  | downstreamRequest (link rid addr len : Nat) (data : BelowRequest)
  /-- MSIX_UNMASK (R318): Unmasking a vector with its pending bit set sends the MSI-X message. -/
  | msixUnmask (link vf vector : Nat)
  /-- ATTACH (R321): ATTACH with the current token attaches the instance, issuing a new token. -/
  | attach (link vf : Nat)
  /-- DETACH (R322): DETACH from the attached link detaches the instance. -/
  | detach (link vf : Nat)
  /-- RESUME (R320): RESUME posts held completions with held set and makes the instance ATTACHED. -/
  | resume (link vf : Nat)
  /-- DISCARD (R320): DISCARD drops held completions and makes the instance ATTACHED. -/
  | discard (link vf : Nat)
  /-- ATTACH_LOCK_EXPIRY (R321): The 1 s ATTACH lock after eight refusals ends. -/
  | attachLockExpiry (vf : Nat)
  /-- HPT_TOKEN_READ (R321): Reading HPT_TOKEN returns the new token once and then clears it. -/
  | hptTokenRead (link vf : Nat)
  /-- PTN_TOKEN_READ (R391): Reading PTN_TOKEN_READ returns the selected instance's reset token once and then clears it. -/
  | ptnTokenRead
  /-- BLOCK_RESEND (R362): A re-sent 256-byte block reaches its consumer; after the third failure it escalates under R359. -/
  | blockResend (block kind unit : Nat) (op : BlockUse) (ok : Bool)
  /-- HBM_RECAL_TIMER (R357): Every 32 ms an HBM4 channel recalibrates with a short stall. -/
  | hbmRecalTimer (channel : Nat) (delayed : List Nat)
  /-- DDR_RECAL_TIMER (R357): Every 128 ms a DDR5 channel recalibrates with a short stall. -/
  | ddrRecalTimer (channel : Nat) (delayed : List Nat)
  /-- SCRUB_PASS (R372): Scrub reads each word of a tier once per period and corrects or poisons what it finds. -/
  | scrubPass (tier : Nat) (fixed clean bad : List Nat)
  /-- HBM_LANE_REPAIR (R371): A lane with persistent errors is repaired in service, or its channel is FENCED when no spare lane is left. -/
  | hbmLaneRepair (channel : Nat) (spareLeft : Bool)
  /-- LRD_RETIRE (R367): The manager puts an ACTIVE or DEGRADED larder bank into FAILING. -/
  | lrdRetire (bank : Nat)
  /-- BANK_RETIRE_COPY (R367): When no slot is reserved in the pool's top 768 KiB, the failing bank is copied there and becomes RETIRED. -/
  | bankRetireCopy (bank : Nat)
  /-- LRD_SPARE_MAP (R368): The manager maps a free spare to a larder bank and its words are copied. -/
  | lrdSpareMap (bank spare : Nat)
  /-- LARDER_SPARE_SWITCH (R368): The copy ends and the bank switches to the spare in one cycle. -/
  | larderSpareSwitch
  /-- GRANULE_ZEROED (R495): A granule finishes zeroing; when all of a partition's granules are zeroed it becomes LIVE. -/
  | granuleZeroed (tier granule : Nat)
  /-- INST_CREATE (R378): INST_CREATE creates an instance with its allowances and returns the creation token. -/
  | instCreate (key count : Nat)
  /-- INST_MODIFY (R379): INST_MODIFY changes an instance's allowances. -/
  | instModify (key count : Nat)
  /-- INST_QUIESCE (R380): INST_QUIESCE fences an instance and starts its drain. -/
  | instQuiesce (key count : Nat)
  /-- DRAIN_END (R380): The last admitted operation of a fencing instance ends and it becomes QUIESCED. -/
  | drainEnd (vf : Nat)
  /-- DRAIN_TIMEOUT (R380): The drain timeout D passes; remaining operations are ended by a context-level reset and the instance is QUIESCED. -/
  | drainTimeout (vf : Nat)
  /-- INST_RESUME (R383): INST_RESUME returns a QUIESCED instance to LIVE. -/
  | instResume (key count : Nat)
  /-- INST_RESET (R384): INST_RESET stops rings, frees connections, tags, groups and keys, and returns the instance LIVE and NEW with a new token. -/
  | instReset (key count : Nat)
  /-- INST_REMOVE (R385): INST_REMOVE clears an instance, returns its allowances and makes it ABSENT. -/
  | instRemove (key count : Nat)
  /-- INST_TOKEN (R387): INST_TOKEN draws and returns a new attach token, voiding the old one. -/
  | instToken (key count : Nat)
  /-- PTN_QUIESCE (R386): PTN_QUIESCE fences every instance of a partition together and drains them. -/
  | ptnQuiesce (key count : Nat)
  /-- PTN_RESUME (R383): PTN_RESUME returns a QUIESCED partition and its instances to LIVE. -/
  | ptnResume (key count : Nat)
  /-- PTN_RESET (R386): PTN_RESET resets every instance, clears the halt, unbinds queues and makes the partition LIVE. -/
  | ptnReset (key count : Nat)
  /-- KEY_WORD_WRITE (R396): A write to CPH_KEY_LOAD stages one key word, claimed by the writing path. -/
  | keyWordWrite (path : Path) (k w : Nat)
  /-- KEY_STAGE_TIMEOUT (R396): Staged key words untouched for 1 ms are cleared. -/
  | keyStageTimeout
  /-- LOAD (R396): CPH_KEY_CMD LOAD loads the staged key into a FREE slot with its direction and salt, or refuses. -/
  | load (path : Path) (ctrLog2 : Nat)
  /-- WIPE_SLOT (R399): WIPE_SLOT wipes one key slot back to FREE. -/
  | wipeSlot
  /-- WIPE_INSTANCE (R399): WIPE_INSTANCE wipes every slot an instance owns. -/
  | wipeInstance
  /-- WIPE_ALL (R399): WIPE_ALL wipes every tenant and management key slot. -/
  | wipeAll
  /-- CPH_SPARE_MAP (R403): The manager maps a spare cipher core in place of a retired one. -/
  | cphSpareMap (retired spare : Nat)
  /-- ATTEST (R408): ATTEST starts signing an attestation report over the written nonce. -/
  | attest
  /-- ATTEST_DONE (R408): The attestation report is signed, placed in TRU_REPORT and done is set. -/
  | attestDone
  /-- LC_ADVANCE (R411): LC_ADVANCE checks the token, wipes, burns the next life-cycle row and takes a chip reset. -/
  | lcAdvance (ok : Bool)
  /-- LC_SCRAP (R411): LC_SCRAP with confirm 0x5C wipes and moves the device to SCRAPPED. -/
  | lcScrap (confirm : Nat) (ok : Bool)
  /-- REVOKE (R406): REVOKE burns the revocation bit of one firmware or layout key. -/
  | revoke (key : Nat) (ok : Bool)
  /-- RAISE_FW_FLOOR (R405): RAISE_FW_FLOOR sets the firmware floor to the running image's rollback level. -/
  | raiseFwFloor (ok : Bool)
  /-- BURN_POLARITY (R412): BURN_POLARITY burns the present tamper polarity as the power-on polarity, once. -/
  | burnPolarity (ok : Bool)
  /-- TAMPER_CFG_WRITE (R412): A write to TRU_TAMPER_CFG sets enables and polarities, set-only for enables in DEPLOYED. -/
  | tamperCfgWrite (enable polarity : Nat)
  /-- TAMPER_ASSERT (R413): An enabled tamper input passes its filter; the cellar and key slots are wiped, latched and logged, and FAULT_N asserts. -/
  | tamperAssert (input : Nat) (passes : Bool)
  /-- RNG_HEALTH_FAIL (R78): The hardware random source fails a health test and stochastic rounding falls back to nearest even. -/
  | rngHealthFail
  /-- TARGET_CONNECT (R419): CKP_TGT_CMD CONNECT starts the NVMe/TCP connection to a target. -/
  | targetConnect
  /-- TARGET_DISCONNECT (R419): DISCONNECT aborts the target's open streams and returns it to IDLE. -/
  | targetDisconnect
  /-- TARGET_RECONNECT_TIMER (R419): 1 s after FAILED the target connection is attempted again, up to reconnects times. -/
  | targetReconnectTimer (target : Nat)
  /-- NVME_PDU_RECEIVE (R417): An NVMe/TCP PDU from a target is processed, advancing connection setup or a stream's commands. -/
  | nvmePduReceive (target : Nat) (pdu : NvmePdu)
  /-- CKP_CMD_TIMEOUT (R428): A storage command outstanding past cmd_timeout_ms fails the target with reason 10. -/
  | ckpCmdTimeout (target : Nat) (held : Option Nat)
  /-- CKP_KEEPALIVE_TIMER (R431): Every keepalive_s a Keep Alive command is sent to each connected target. -/
  | ckpKeepaliveTimer
  /-- CKP_SAVE (R425): CKP_SAVE streams a memory range or held shard to a target in records. -/
  | ckpSave (key count : Nat)
  /-- CKP_RESTORE (R427): CKP_RESTORE reads and checks records and writes a stream back into device memory. -/
  | ckpRestore (key count : Nat)
  /-- DOMAIN_IDLE_STEP (R434): A domain idle for idle_us steps down one ladder rung toward its floor. -/
  | domainIdleStep (domain : Nat)
  /-- KINDLE (R435): A request held at a sleeping domain's crossing makes the domain climb to LIT. -/
  | kindle (domain : Nat)
  /-- DOMAIN_LIT (R435): A climbing domain reaches LIT and its held requests are released. -/
  | domainLit (domain : Nat)
  /-- PRIV_WAKE (R437): The trust controller wakes a privileged domain on purpose. -/
  | privWake (domain : Nat)
  /-- PRIV_RELEASE (R437): The trust controller releases a privileged domain, which may then step down. -/
  | privRelease (domain : Nat)
  /-- DOMAIN_FLOOR_WRITE (R450): A write to a domain's floor or pinned bit makes it climb if needed. -/
  | domainFloorWrite (domain floor : Nat) (pin : Bool) (idleUs : Nat)
  /-- ENTER_EMBER (R441): PWR_DEV_CMD ENTER_EMBER puts memory in self-refresh, disables ports and steps every domain to EMBER. -/
  | enterEmber
  /-- ENTER_COLD (R441): PWR_DEV_CMD ENTER_COLD takes links down and turns every domain COLD. -/
  | enterCold
  /-- DEVICE_WAKE (R442): The wake input, wake_ms expiry or a tamper brings the device out of device EMBER or COLD. -/
  | deviceWake (cause : Nat) (level : Bool)
  /-- POWER_SAMPLE (R440): Each millisecond of averaged power and temperature adds or removes one sixteenth of throttle. -/
  | powerSample (watts die : Nat) (hbmTemps : List Nat)
  /-- CRYSTAL_FAIL (R444): No crystal edge for 1 µs switches the ember clock to the internal oscillator and leads to a chip reset. -/
  | crystalFail
  /-- WATCHDOG_EXPIRY (R454): A progress watchdog expires; the unit is hung, fenced, reset and its suspects replayed. -/
  | watchdogExpiry (kind unit : Nat) (suspects : List Nat)
  /-- SUSPECT_WINDOW_EXPIRY (R454): A replayed suspect makes no progress within the window, is found guilty and reset. -/
  | suspectWindowExpiry (kind unit : Nat)
  /-- SUSPECT_CLEARED (R454): A replayed suspect makes one unit of progress and is cleared. -/
  | suspectCleared (kind unit : Nat)
  /-- ENGINE_RESET (R454): RST_CMD ENGINE_RESET resets one unit as a hang with every context a suspect. -/
  | engineReset (kind unit : Nat)
  /-- ENGINE_RESET_DONE (R458): A unit's engine reset completes, or misses its bound and the unit is retired. -/
  | engineResetDone (kind unit : Nat) (ok : Bool)
  /-- STEWARD_HEARTBEAT_MISS (R457): A steward core misses its 10 ms heartbeat and is reset or retired. -/
  | stewardHeartbeatMiss (core : Nat)
  /-- CHIP_RESET (R462): RST_CMD CHIP_RESET fences every edge, dumps, resets domains 1–95 and restarts. -/
  | chipReset
  /-- FIRMWARE_READY (R463): The firmware reports ready to the boot watchdog. -/
  | firmwareReady
  /-- BOOT_WATCHDOG_EXPIRY (R463): No firmware ready within 5 s takes a chip reset with cause 6 and marks the slot skip. -/
  | bootWatchdogExpiry
  /-- POWER_CYCLE (R465): RST_CMD POWER_CYCLE flushes the logbook and requests a power cycle from the tray controller. -/
  | powerCycle
  /-- CLEAR_RETIRED (R464): CLEAR_RETIRED empties the reset history and takes a chip reset. -/
  | clearRetired
  /-- DUMP (R466): RST_CMD DUMP takes a crash dump of the units through their debug ports. -/
  | dump
  /-- DUMP_UNIT_TIMEOUT (R466): A unit that does not answer a dump read in 100 µs is recorded NO_RESPONSE. -/
  | dumpUnitTimeout (kind index : Nat)
  /-- LOG_READ (R476): LOG_CMD READ fills LOG_WINDOW with valid records from the cursor. -/
  | logRead
  /-- LOG_CLEAR (R477): LOG_CMD CLEAR writes the clear point and hides every earlier record. -/
  | logClear (summaries : Bool)
  /-- LOG_FLUSH_TIMER (R473): flush_ms after the oldest waiting record a short page is programmed. -/
  | logFlushTimer
  /-- LOG_PAGE_DONE (R473): A logbook page program completes or fails and is rewritten in the next page. -/
  | logPageDone (ok : Bool)
  /-- LOG_RECORD_CLOSE (R474): The open record closes after 1 s or on a different event and becomes eligible for programming. -/
  | logRecordClose
  /-- TEL_SNAPSHOT (R479): TEL_SNAP_CMD go copies every 64-bit counter into the snapshot area. -/
  | telSnapshot
  /-- INJ_UNLOCK (R485): Writing unlock with confirm 0xA7 allows injection in DEPLOYED when the image permits it. -/
  | injUnlock (unlock : Bool) (confirm : Nat)
  /-- INJ_ARM (R486): INJ_CMD ARM arms the selected injection point. -/
  | injArm
  /-- INJ_DISARM (R489): INJ_CMD DISARM disarms the injection point. -/
  | injDisarm
  /-- POWER_ON (R494): RESET_N is released with stable rails and the device boots, verifies firmware and applies the layout. -/
  | powerOn
  /-- RESET_N_ASSERT (R525): RESET_N low resets the whole device, domain 0 included. -/
  | resetNAssert
  /-- RAIL_DEPARTURE (R527): A rail leaves tolerance for 1 µs and the device resets or loses power. -/
  | railDeparture (core : Bool)
  /-- THERMAL_TRIP (R531): A die sensor at 115 °C for 1 ms stops every domain but 0 and 92 and asserts FAULT_N. -/
  | thermalTrip
  /-- CREDENTIAL_CHALLENGE (R497): MGT_CRED_CMD CHALLENGE issues a signed challenge on path 2. -/
  | credentialChallenge
  /-- CREDENTIAL_PROVE (R497): MGT_CRED_CMD PROVE judges the proof in MGT_CRED_PROOF and grants or refuses the role. -/
  | credentialProve
  /-- CREDENTIAL_RELINQUISH (R499): MGT_CRED_CMD RELINQUISH ends the path-2 session. -/
  | credentialRelinquish
  /-- CHALLENGE_REQ (R501): A CHALLENGE_REQ message makes the device send a challenge on the management connection. -/
  | challengeReq (k : Nat)
  /-- PROOF (R498): A PROOF message is judged; a grant also keys the management connection. -/
  | proof (k : Nat) (body : List Byte)
  /-- RESULT_ACKNOWLEDGED (R498): The acknowledgement of RESULT 0 advances the management connection to its encrypted epoch. -/
  | resultAcknowledged (k : Nat)
  /-- REG_READ (R502): A REG_READ message reads a management range in seq order and returns REG_RESP. -/
  | regRead (k seq off len : Nat)
  /-- REG_WRITE (R502): A REG_WRITE message writes a management range in seq order and returns REG_RESP. -/
  | regWrite (k seq off : Nat) (data : List Byte)
  /-- RELINQUISH (R499): A RELINQUISH message ends the session, wiping its slots and closing the connection. -/
  | relinquish (k : Nat)
  /-- SESSION_IDLE_TIMEOUT (R499): No manager access for idle_min ends the session. -/
  | sessionIdleTimeout
  /-- CHALLENGE_EXPIRY (R497): A challenge unanswered for 10 s becomes invalid. -/
  | challengeExpiry (path : Nat)
  /-- PATH_LOCK_EXPIRY (R497): The 10 s lock of a path after three failures ends. -/
  | pathLockExpiry (path : Nat)
  /-- QUERY (R505): A tray QUERY is answered with STATUS and sets tc_mac. -/
  | query (f : TrayIn)
  /-- PC_ACK (R507): A PC_ACK naming a power-cycle request stops its repeats. -/
  | pcAck (f : TrayIn)
  /-- ANNOUNCE_TIMER (R505): Every announce_s the device broadcasts ANNOUNCE. -/
  | announceTimer
  /-- RETIRED_MESSAGE_TIMER (R505): While RETIRED the device broadcasts a RETIRED message every second. -/
  | retiredMessageTimer
  /-- POWER_CYCLE_REQ_TIMER (R507): Every 100 ms a POWER_CYCLE_REQ is sent until acknowledged, logging TIMEOUT after 10 s. -/
  | powerCycleReqTimer
  /-- MGT_BACKOFF_EXPIRY (R503): The collision back-off of a tray frame ends and it is retried, or discarded after 16 attempts. -/
  | mgtBackoffExpiry
  /-- FW_PROGRAM_A (R508): MGT_FW_CMD PROGRAM_A checks the staged firmware and writes it to slot A. -/
  | fwProgramA
  /-- FW_PROGRAM_B (R508): MGT_FW_CMD PROGRAM_B checks the staged firmware and writes it to slot B. -/
  | fwProgramB
  /-- FW_PROGRAM_DONE (R508): A firmware program ends after write and read-back, succeeding or failing with reason 12. -/
  | fwProgramDone (ok : Bool)
  /-- DDR_CHANNEL_FAIL (R371): A DDR5 channel that fails in service is FENCED: its reads are poisoned and its writes dropped and counted. -/
  | ddrChannelFail (channel : Nat)
  /-- RNG_HEALTH_RESTORED (R78): The hardware random source passes its health tests again, stochastic rounding and ENCRYPT key loads resume, and rng_failed clears. -/
  | rngHealthRestored
  /-- KEY_WIPE_DONE (R399): A running key-slot wipe finishes its passes and read-back, and its slots leave WIPING for FREE, or the wipe runs again. -/
  | keyWipeDone (ok : Bool)
  /-- CELLAR_WIPE_DONE (R370): The cellar wipe's read-back ends and the cellar returns from WIPING to READY, or to FAILED. -/
  | cellarWipeDone (ok : Bool)
  /-- INST_RESET_DONE (R384): An accepted INST_RESET or INST_REMOVE finishes within 1 ms, and the instance leaves RESETTING for LIVE or ABSENT. -/
  | instResetDone (vf : Nat)
  /-- PTN_RESET_DONE (R386): A PTN_RESET finishes and the partition becomes LIVE, or it misses its 5 ms bound and a chip reset with cause 5 follows. -/
  | ptnResetDone (part : Nat) (ok : Bool)
  /-- LOG_READ_DONE (R476): A logbook READ finishes, filling LOG_WINDOW and setting LOG_READ_STATUS count, skipped and next, and busy clears. -/
  | logReadDone
  /-- RAIL_RESTORE (R527): After a rail departure, once every rail has held within tolerance for 1 ms with RESET_N high, the device starts again under R494. -/
  | railRestore
  /-- TRAY_COLLISION (R503): A collision on the 10BASE-T1S bus during a frame's transmission is counted and starts a random back-off for that frame. -/
  | trayCollision
  /-- FRAME_TRANSMIT (R265): A resource finishes sending a frame and sends the eligible packet with the smallest virtual-clock stamp, starting that packet's retransmit timer. -/
  | frameTransmit (port : Nat)
  /-- DEVICE_ENTRY_DONE (R441): An accepted ENTER_EMBER or ENTER_COLD finishes stepping the domains, clearing busy and setting done in PWR_DEV_STATUS. -/
  | deviceEntryDone
  deriving DecidableEq, Repr

end Sys2Proof
end

