-- ==== Sys2Proof/Decode.lean ====
section
/-!
DEFINITION. The command a word spells. No row of spec/opcode_table.json gives its command any bits (every row's field list is
empty), so no word spells a command.
-/

namespace Sys2Proof

/-- The command that a word of `nbits` bits spells: none, since the table gives no row any bits. -/
def decodeTableWord (_nbits _w : Nat) : Option Instr := none

end Sys2Proof
end

