-- ==== Sys2Proof/Machine/Table.lean ====
section
/-!
DEFINITION. Sparse tables keyed by a number, in one canonical form (keys strictly rising), and the queue helpers the
blocks share. Every register file, record array and map of the State is one of these.
-/

namespace Sys2Proof.Machine

/-- A sparse table: pairs of key and value, keys strictly rising. -/
abbrev Tbl (α : Type) := List (Nat × α)

/-- The value listed under a key. -/
def Tbl.get? {α : Type} : Tbl α → Nat → Option α
  | [], _ => none
  | (k, v) :: t, q => if k = q then some v else Tbl.get? t q

/-- The value listed under a key, or a default. -/
def Tbl.getD {α : Type} (t : Tbl α) (q : Nat) (d : α) : α := (Tbl.get? t q).getD d

/-- Lists a value under a key, keeping the keys rising. -/
def Tbl.set {α : Type} : Tbl α → Nat → α → Tbl α
  | [], q, v => [(q, v)]
  | (k, w) :: t, q, v =>
    if q < k then (q, v) :: (k, w) :: t
    else if q = k then (k, v) :: t
    else (k, w) :: Tbl.set t q v

/-- Takes a key out. -/
def Tbl.erase {α : Type} : Tbl α → Nat → Tbl α
  | [], _ => []
  | (k, w) :: t, q => if k = q then Tbl.erase t q else (k, w) :: Tbl.erase t q

/-- Changes the value under a key, if it is listed. -/
def Tbl.modify {α : Type} (t : Tbl α) (q : Nat) (f : α → α) : Tbl α :=
  match Tbl.get? t q with
  | some v => Tbl.set t q (f v)
  | none => t

/-- Applies a function to every listed value. -/
def Tbl.mapVals {α : Type} (t : Tbl α) (f : Nat → α → α) : Tbl α :=
  t.map fun p => (p.1, f p.1 p.2)

/-- Keeps the entries that satisfy a test. -/
def Tbl.keep {α : Type} (t : Tbl α) (f : Nat → α → Bool) : Tbl α :=
  t.filter fun p => f p.1 p.2

/-- The values listed. -/
def Tbl.vals {α : Type} (t : Tbl α) : List α := t.map Prod.snd

/-- The least number below `n` that a test accepts. -/
def firstBelow (n : Nat) (p : Nat → Bool) : Option Nat := (List.range n).find? p

/-- The greatest number below `n` that a test accepts. -/
def lastBelow : Nat → (Nat → Bool) → Option Nat
  | 0, _ => none
  | n + 1, p => if p n then some n else lastBelow n p

/-- The keys rise strictly: the canonical form. -/
def Tbl.wf {α : Type} : Tbl α → Bool
  | [] => true
  | [_] => true
  | (k, _) :: (q, w) :: t => decide (k < q) && Tbl.wf ((q, w) :: t)

/-- The sum of a list of numbers. -/
def sumNat (l : List Nat) : Nat := l.foldl (· + ·) 0

/-- Bit `i` of a mask held as a number. -/
def bitAt (m i : Nat) : Bool := m.testBit i

/-- A mask with bit `i` set. -/
def setBit (m i : Nat) : Nat := m ||| (1 <<< i)

/-- A mask with bit `i` cleared. -/
def clearBit (m i : Nat) : Nat := if m.testBit i then m - 2 ^ i else m

/-- Rounds a quotient up. -/
def ceilDiv (a b : Nat) : Nat := (a + b - 1) / b

/-- One as a bit of a register. -/
def b2n (b : Bool) : Nat := if b then 1 else 0

/-- Little-endian bytes of a number (R8: multi-byte fields in memory). -/
def leBytes : Nat → Nat → List Byte
  | 0, _ => []
  | n + 1, v => BitVec.ofNat 8 v :: leBytes n (v / 256)

/-- Big-endian bytes of a number (network order). -/
def beBytes (n v : Nat) : List Byte := (leBytes n v).reverse

/-- The number that little-endian bytes spell. -/
def ofLE : List Byte → Nat
  | [] => 0
  | b :: t => b.toNat + 256 * ofLE t

/-- The number that big-endian bytes spell. -/
def ofBE (l : List Byte) : Nat := ofLE l.reverse

/-- `n` bytes of a list from an offset, short where the list ends. -/
def slice (l : List Byte) (off n : Nat) : List Byte := (l.drop off).take n

/-- A list of bytes padded with zeros to a length. -/
def padTo (n : Nat) (l : List Byte) : List Byte := l ++ List.replicate (n - l.length) 0

end Sys2Proof.Machine
end

