-- ==== Sys2Proof/Machine/Flags.lean ====
section
/-!
DEFINITION. The check codes: CRC-32C of R360 (records, packets, blocks) and the CRC-64 of R97 and R177 (chunks, state hashes).
-/

namespace Sys2Proof.Machine

/-- One bit of a reflected CRC: shifts right and folds the polynomial in. -/
def crcBit (poly c : Nat) : Nat := if c % 2 = 1 then (c / 2) ^^^ poly else c / 2

/-- Eight bits of a reflected CRC. -/
def crcByte (poly c : Nat) (b : Byte) : Nat :=
  crcBit poly (crcBit poly (crcBit poly (crcBit poly (crcBit poly (crcBit poly (crcBit poly (crcBit poly (c ^^^ b.toNat))))))))

/-- A reflected CRC register run over bytes. -/
def crcRun (poly : Nat) : Nat → List Byte → Nat
  | c, [] => c
  | c, b :: t => crcRun poly (crcByte poly c b) t

/-- CRC-32C (R360): polynomial 0x1EDC6F41 reflected, all ones in, all ones out. -/
def crc32c (l : List Byte) : Nat := (crcRun 0x82F63B78 0xFFFFFFFF l) ^^^ 0xFFFFFFFF

/-- CRC-64 with the polynomial 0x42F0_E1EB_A9EA_3693, reflected, all ones in, all ones out (R97). -/
def crc64 (l : List Byte) : Nat := (crcRun 0xC96C5795D7870F42 0xFFFFFFFFFFFFFFFF l) ^^^ 0xFFFFFFFFFFFFFFFF

end Sys2Proof.Machine
end

