-- ==== Sys2Proof/Config.lean ====
section
/-!
DEFINITION. What an implementation fixes and the free values: constants WITHOUT a body, so that no proof can see what they
are and every claim holds whatever they are. Each has a log entry (notes/assumptions).
-/

namespace Sys2Proof.Config

/-- The hardware random source and every other value the spec leaves open after an operation that goes on (R78, R321, R338,
R394, R497): the value drawn at the n-th draw (log entry 3). -/
opaque free : Nat → BitVec 64

/-- A byte of host memory that no read completion has delivered, by place and by the draw (log entry 7). -/
opaque hostByte : Nat → Nat → BitVec 8

/-- Which completer below a host link takes an access to a bus address (R253; log entry 62): a host, an accelerator or a drive. -/
opaque completer : Nat → Nat → Nat

/-- SHA-256 (R35, R36, R405). -/
opaque sha256 : List Byte → List Byte

/-- ECDSA on P-256 with SHA-256 (R36, R405, R497): public key, message, signature. -/
opaque ecdsaVerify : List Byte → List Byte → List Byte → Bool

/-- The device's own signature with its identity key (R408). -/
opaque ecdsaSign : List Byte → List Byte

/-- The public key behind a fused key hash: 0-3 firmware keys F0-F3, 4-7 layout keys L0-L3 (R36, R404, R405). -/
opaque fusedKey : Nat → List Byte

/-- The manager-credential key hashes fused in the Fegen root, offered at a bare start (R48, R496). -/
opaque fusedCredHashes : List (List Byte)

/-- AES-256-GCM encryption (R212, R397): key, 96-bit IV, additional data, plain text; ciphertext and tag. -/
opaque gcmSeal : List Byte → List Byte → List Byte → List Byte → List Byte × List Byte

/-- AES-256-GCM decryption: key, IV, additional data, ciphertext, tag; none where the tag fails. -/
opaque gcmOpen : List Byte → List Byte → List Byte → List Byte → List Byte → Option (List Byte)

/-- Key agreement and derivation of R498: the two keys (device to manager, manager to device) that a challenge and a proof give. -/
opaque deriveKeys : List Byte → List Byte → List Byte × List Byte

/-- The device's own identity values: serial number, identity public key, certificate (R404, R407, R408). -/
opaque identity : Nat → List Byte

/-- What a unit's debug port reads back (R466), by dump and unit: its length in eight-byte words, and each byte. -/
opaque debugLen : Nat → Nat
opaque debugByte : Nat → Nat → BitVec 8

end Sys2Proof.Config
end

