-- ==== Sys2Proof/Machine/Regs.lean ====
section
/-!
DEFINITION. The register map: one name for every register of the management space and of the instance windows
(R511, R517-R520 and the register tables of every chapter), its fields, their access types (R9), ranges (R10, R13) and
reset values. Written from the register tables of spec/.
-/

namespace Sys2Proof.Machine

/-- The blocks of the management space in the order of R470, which numbers them (20_logbook_counters_injection.md). -/
inductive Blk where
  | GLB
  | LAY
  | PWR
  | RST
  | LOG
  | INJ
  | TEL
  | PRT
  | HOP
  | BXT
  | CTX
  | ADM
  | POL
  | KLN
  | HPT
  | WQE
  | XLT
  | DMV
  | LRD
  | HBM
  | DDR
  | TAL
  | CMN
  | MIL
  | CPH
  | TRU
  | CKP
  | MGT
  | PTN
  deriving DecidableEq, Repr

/-- The block number of R470. -/
def Blk.num (b : Blk) : Nat := b.ctorIdx

/-- Every register, by the name its table gives it. A record of several words has one name a word, with the word's offset in it. -/
inductive Reg where
  | GLB_ID
  | LAY_CMD
  | LAY_STATUS
  | LAY_PROGRESS
  | LAY_WIN_BASE
  | LAY_ACTIVE
  | LAY_SOURCE
  | TAL_CFG
  | TAL_POOL
  | TAL_SPARE_MAP
  | TAL_CHECK_FAIL
  | TAL_MISDIRECT
  | TAL_STREAM_OPS
  | TAL_UNIT_STATE
  | TAL_PTN_POOL
  | CMN_CFG
  | CMN_CFG2
  | CMN_GRP_SEL
  | CMN_GRP_ARG0
  | CMN_GRP_ARG1
  | CMN_GRP_ARG2
  | CMN_GRP_ARG3
  | CMN_GRP_CMD
  | CMN_GRP_STATUS
  | CMN_GRP_INFO
  | CMN_GRP_STEP
  | CMN_GRP_KEYS
  | CMN_RERUNS
  | CMN_CHECK_FAILED
  | CMN_DEADLINE
  | CMN_REFORMS
  | CMN_STALE
  | CMN_OP_TIME
  | CMN_FABRIC_PFX_lo
  | CMN_FABRIC_PFX_hi
  | MIL_CFG
  | MIL_SPARE_MAP
  | MIL_RECIPE_SEL
  | MIL_RECIPE_INFO
  | MIL_ELEMS
  | MIL_DDR_ELEMS
  | MIL_NONFINITE
  | MIL_BLOCK_REPLAY
  | MIL_ENG_STATE
  | MIL_PTN_STEP
  | BXT_CFG
  | BXT_TIMER
  | BXT_HOLD
  | BXT_CC
  | BXT_MISS_BUF
  | BXT_RETX
  | BXT_DUP
  | BXT_STALE
  | BXT_EPOCH_DROP
  | BXT_INVALID
  | BXT_DECRYPT_FAIL
  | BXT_HELD
  | BXT_HOLD_EXPIRED
  | BXT_NR_SENT
  | BXT_NR_RCVD
  | BXT_PEER_LOST
  | BXT_CE_RCVD
  | BXT_REFUSED
  | CTX_OCC
  | CTX_HIT
  | CTX_MISS
  | CTX_EVICT
  | CTX_FETCH_NR
  | CTX_PTN
  | WQE_RING_SEL
  | WQE_RING_ARG0
  | WQE_RING_ARG1
  | WQE_RING_ARG2
  | WQE_RING_ARG3
  | WQE_RING_CMD
  | WQE_RING_STATUS
  | WQE_RING_INFO
  | WQE_DB_w0
  | WQE_DB_w4
  | WQE_DB_w8
  | WQE_CTL_DB
  | WQE_DEV_HALT
  | WQE_PTN_HALT
  | WQE_MALFORMED
  | WQE_REFETCH
  | WQE_PUSH_DROP
  | WQE_DB_REFUSED
  | WQE_EVENT_DROP
  | WQE_FLUSH
  | WQE_HALTED
  | ADM_CFG
  | ADM_CLASS_FRAC
  | ADM_GRANT
  | ADM_INFLIGHT
  | ADM_ADMIT
  | ADM_DELAYED
  | ADM_REF_CAPACITY
  | ADM_REF_RATE
  | ADM_REF_POOL
  | ADM_REF_GRANT
  | ADM_MISSED
  | ADM_GRANT_MISSED
  | ADM_GRANT_SENT
  | ADM_GRANT_RCVD
  | ADM_MISS_CAUSE
  | ADM_INST
  | POL_METER_SEL
  | POL_METER_RATE
  | POL_METER_BURST
  | POL_METER_CMD
  | POL_METER_GREEN_lo
  | POL_METER_GREEN_hi
  | POL_METER_YELLOW_lo
  | POL_METER_YELLOW_hi
  | POL_METER_RED_lo
  | POL_METER_RED_hi
  | POL_RED
  | POL_UNCLASSIFIED
  | POL_CLS_DROP
  | POL_MIRROR
  | POL_STEWARD
  | PRT_PORT_STATE
  | PRT_TRANSIT
  | PRT_PFC
  | PRT_LP_w00
  | PRT_LP_w08
  | PRT_LP_w10
  | PRT_LP_w18
  | PRT_RX_FRAMES
  | PRT_RX_BYTES
  | PRT_TX_FRAMES
  | PRT_TX_BYTES
  | PRT_RUNT
  | PRT_OVERSIZE
  | PRT_FCS_ERR
  | PRT_FEC_CORR
  | PRT_FEC_UNCORR
  | PRT_FEC_DISCARD
  | PRT_ADDR_DROP
  | PRT_PFC_RX
  | PRT_PFC_TX
  | PRT_PFC_IGNORED
  | PRT_PFC_WD
  | PRT_PAUSE_DROP
  | HOP_DEV
  | HOP_IP4
  | HOP_IP6_lo
  | HOP_IP6_hi
  | HOP_CFG
  | HOP_WX_CFG
  | HOP_DEFAULT
  | HOP_ROUTE_DST
  | HOP_ROUTE_MASK
  | HOP_ROUTE_CMD
  | HOP_ROUTE_STATUS
  | HOP_WX_CMD
  | HOP_FWD
  | HOP_DROP_NOROUTE
  | HOP_DROP_HOPS
  | HOP_DROP_AGE
  | HOP_DROP_FULL
  | HOP_DROP_DOWN
  | HOP_DROP_OVERSIZE
  | HOP_STOMP
  | HOP_REPLAY
  | HOP_NAK_SENT
  | HOP_SHIM_BAD
  | HOP_LINK_FAIL
  | HOP_ECN_MARK
  | WX_REPORT_SENT
  | WX_IGNORED
  | WX_EXPIRED
  | HPT_INST_STATE
  | HPT_ATTACH_TOKEN
  | HPT_ATTACH_CMD
  | HPT_ATTACH_STATUS
  | HPT_TOKEN
  | HPT_APERTURE
  | HPT_LINK_w00
  | HPT_LINK_w04
  | HPT_LINK_w08
  | HPT_FENCE
  | HPT_WR_DROP
  | HPT_RD_LOST
  | HPT_FLR
  | HPT_UR
  | HPT_CPL_TIMEOUT
  | HPT_RETRAIN
  | HPT_INBOUND_FAULT
  | HPT_ATTACH_REFUSED
  | HPT_RP_RID
  | XLT_CFG
  | XLT_CACHE
  | XLT_LOOKUP
  | XLT_HIT
  | XLT_WALK
  | XLT_FAULT
  | XLT_VIOLATION
  | XLT_FQ_OVERFLOW
  | XLT_EQ_OVERFLOW
  | XLT_HOLD_EXPIRED
  | XLT_INVAL
  | XLT_PIN_LOST
  | XLT_RESOLVE
  | XLT_PTN_CFG
  | XLT_TAG
  | LRD_CFG
  | LRD_SPARE_MAP
  | LRD_RETIRE
  | LRD_SPARE_STATE
  | LRD_CELLAR
  | LRD_SCRUB
  | LRD_BANK
  | LRD_CE
  | LRD_UE
  | LRD_POISON_READ
  | LRD_RW_FORWARD
  | LRD_BLK_RESEND
  | LRD_BLK_ESCALATE
  | LRD_SCRUB_PASS
  | HBM_CFG
  | DDR_CFG
  | HBM_CAP
  | DDR_CAP
  | HBM_STACK
  | DDR_CH
  | HBM_SCRUB
  | DDR_SCRUB
  | HBM_CE
  | HBM_UE
  | HBM_REREAD_OK
  | HBM_POISON_READ
  | HBM_LANE_REPAIR
  | HBM_RECAL
  | HBM_WR_DROP
  | DDR_CE
  | DDR_UE
  | DDR_REREAD_OK
  | DDR_POISON_READ
  | DDR_PPR
  | DDR_RECAL
  | DDR_WR_DROP
  | PTN_PART_w0
  | PTN_PART_w4
  | PTN_PART_w8
  | PTN_PART_wC
  | PTN_TOKEN_SEL
  | PTN_TOKEN_READ
  | PTN_CREATED
  | PTN_QUIESCE
  | PTN_DRAIN_TIMEOUT
  | PTN_CTX_RESET_OPS
  | PTN_FENCE_NAK
  | PTN_FENCE_DROP
  | PTN_RESET_REFUSED
  | PTN_INST_w00
  | PTN_INST_w04
  | PTN_INST_w08
  | PTN_INST_w0C
  | PTN_INST_w10
  | PTN_INST_w14
  | PTN_INST_w18
  | PTN_INST_w1C
  | CPH_CFG
  | CPH_KEY_LOAD
  | CPH_KEY_SALT
  | CPH_KEY_CTL
  | CPH_KEY_CMD
  | CPH_KEY_STATUS
  | CPH_SLOT_SEL
  | CPH_SLOT_INFO
  | CPH_SLOT_CTR
  | CPH_SLOT_FAIL
  | CPH_SPARE_MAP
  | CPH_CORE_STATE
  | CPH_ENC_PKTS
  | CPH_DEC_PKTS
  | CPH_TAG_FAIL
  | CPH_EXHAUSTED
  | CPH_CORE_ERR
  | CPH_WIPES
  | TRU_LC
  | TRU_CMD
  | TRU_STATUS
  | TRU_BOOT
  | TRU_TAMPER_CFG
  | TRU_TAMPER_STATE
  | CKP_CFG
  | CKP_TGT_SEL
  | CKP_TGT_CFG
  | CKP_TGT_NSID
  | CKP_TGT_PORTS
  | CKP_TGT_IP_lo
  | CKP_TGT_IP_hi
  | CKP_TGT_CMD
  | CKP_TGT_STATUS
  | CKP_STREAM_w0
  | CKP_STREAM_w8
  | CKP_REC_WRITTEN
  | CKP_REC_READ
  | CKP_RETRY
  | CKP_DIGEST_ERR
  | CKP_TRAILER_ERR
  | CKP_CONN_FAIL
  | PWR_CFG
  | PWR_STATUS
  | PWR_DEV_CMD
  | PWR_DEV_STATUS
  | PWR_XING_MODE
  | PWR_TICK
  | PWR_EVT_SEL
  | PWR_EVT
  | PWR_DOM
  | PWR_KINDLE
  | PWR_HELD_PRIV
  | PWR_THROTTLE_US
  | PWR_XTAL_FAIL
  | PWR_MERGED
  | RST_WD_FAST
  | RST_WD_SLOW
  | RST_CFG
  | RST_CMD
  | RST_STATUS
  | RST_LAST
  | RST_HIST
  | RST_HANG_LAST
  | RST_DUMP_STATUS
  | RST_CTX_RESETS
  | RST_ENGINE_RESETS
  | RST_PTN_RESETS
  | RST_CHIP_RESETS
  | RST_HANGS
  | RST_GUILTY
  | RST_NOT_REPLAYED
  | RST_RETIRED_UNITS
  | RST_DUMP_NORESP
  | LOG_CFG
  | LOG_STATUS
  | LOG_CURSOR
  | LOG_CMD
  | LOG_READ_STATUS
  | LOG_WRITTEN
  | LOG_REPEATS
  | LOG_DROPPED
  | LOG_TORN
  | LOG_FLASH_ERR
  | INJ_UNLOCK
  | INJ_SEL
  | INJ_CTL
  | INJ_CMD
  | INJ_STATUS
  | INJ_FIRED
  | TEL_SPARE
  | TEL_KLN
  | TEL_SNAP_CMD
  | MGT_CFG
  | MGT_PLCA
  | MGT_MAC
  | MGT_TC_MAC
  | MGT_BOOT
  | MGT_CRED_CMD
  | MGT_CRED_STATUS
  | MGT_FW_CMD
  | MGT_FW_STATUS
  | MGT_TX_FRAMES
  | MGT_RX_FRAMES
  | MGT_COLLISIONS
  | MGT_EXCESS_COLL
  | MGT_TX_DROP
  | MGT_RX_DROP
  | MGT_PROBE_REFUSED
  | MGT_MSG_DROP
  | GLB_BLOCKS
  | GLB_SCRATCH
  | DMV_Q
  | DMV_HOST_RD_BYTES
  | DMV_HOST_WR_BYTES
  | DMV_CHECK_FAIL
  | DMV_REPACK
  | CMN_VOIDS
  | KLN_MOD_w00
  | KLN_MOD_w08
  | KLN_MOD_w10
  | KLN_MOD_w18
  | KLN_MOD_w20
  deriving DecidableEq, Repr

/-- Access types of R9. -/
inductive Acc where
  | RO | RW | W1C | W1S | WO | RC
  deriving DecidableEq, Repr

/-- A field of a register: its register, lowest bit and width. -/
structure Fld where
  reg : Reg
  lo : Nat
  width : Nat
  deriving DecidableEq, Repr

/-- What a write to a field must satisfy and does: its bits, access type, and the values R10 lets it take (none listed: all). -/
structure FieldInfo where
  lo : Nat
  width : Nat
  acc : Acc
  ranges : List (Nat × Nat)
  deriving DecidableEq, Repr

/-- A register's place: its block, the offset of its first copy, the stride and count of each dimension of copies (outermost first), its size in bytes and its fields. Offsets of instance-window registers lie above 0x1000_0000, one MiB an instance. -/
structure RegInfo where
  reg : Reg
  blk : Blk
  off : Nat
  dims : List (Nat × Nat)
  bytes : Nat
  fields : List FieldInfo
  deriving DecidableEq, Repr

namespace F
/-- R16 00: `part_number` of GLB_ID. -/
def GLB_ID_part_number : Fld := ⟨.GLB_ID, 16, 16⟩
/-- R16 00: `stepping_major` of GLB_ID. -/
def GLB_ID_stepping_major : Fld := ⟨.GLB_ID, 12, 4⟩
/-- R16 00: `stepping_minor` of GLB_ID. -/
def GLB_ID_stepping_minor : Fld := ⟨.GLB_ID, 8, 4⟩
/-- R59 02: `op` of LAY_CMD. -/
def LAY_CMD_op : Fld := ⟨.LAY_CMD, 0, 4⟩
/-- R59 02: `busy` of LAY_STATUS. -/
def LAY_STATUS_busy : Fld := ⟨.LAY_STATUS, 0, 1⟩
/-- R59 02: `done` of LAY_STATUS. -/
def LAY_STATUS_done : Fld := ⟨.LAY_STATUS, 1, 1⟩
/-- R59 02: `rejected` of LAY_STATUS. -/
def LAY_STATUS_rejected : Fld := ⟨.LAY_STATUS, 2, 1⟩
/-- R59 02: `reason` of LAY_STATUS. -/
def LAY_STATUS_reason : Fld := ⟨.LAY_STATUS, 8, 8⟩
/-- R59 02: `last_op` of LAY_STATUS. -/
def LAY_STATUS_last_op : Fld := ⟨.LAY_STATUS, 16, 4⟩
/-- R59 02: `permille` of LAY_PROGRESS. -/
def LAY_PROGRESS_permille : Fld := ⟨.LAY_PROGRESS, 0, 10⟩
/-- R59 02: `phase` of LAY_PROGRESS. -/
def LAY_PROGRESS_phase : Fld := ⟨.LAY_PROGRESS, 12, 3⟩
/-- R59 02: `index` of LAY_WIN_BASE. -/
def LAY_WIN_BASE_index : Fld := ⟨.LAY_WIN_BASE, 0, 7⟩
/-- R59 02: `serial` of LAY_ACTIVE. -/
def LAY_ACTIVE_serial : Fld := ⟨.LAY_ACTIVE, 0, 32⟩
/-- R59 02: `src` of LAY_SOURCE. -/
def LAY_SOURCE_src : Fld := ⟨.LAY_SOURCE, 0, 2⟩
/-- R59 02: `rollback_level` of LAY_SOURCE. -/
def LAY_SOURCE_rollback_level : Fld := ⟨.LAY_SOURCE, 8, 8⟩
/-- R59 02: `floor` of LAY_SOURCE. -/
def LAY_SOURCE_floor : Fld := ⟨.LAY_SOURCE, 16, 8⟩
/-- R111 04: `chunk_log2` of TAL_CFG. -/
def TAL_CFG_chunk_log2 : Fld := ⟨.TAL_CFG, 0, 5⟩
/-- R111 04: `stream_rate` of TAL_CFG. -/
def TAL_CFG_stream_rate : Fld := ⟨.TAL_CFG, 12, 8⟩
/-- R111 04: `pool_max` of TAL_POOL. -/
def TAL_POOL_pool_max : Fld := ⟨.TAL_POOL, 0, 12⟩
/-- R111 04: `unreserved_free` of TAL_POOL. -/
def TAL_POOL_unreserved_free : Fld := ⟨.TAL_POOL, 16, 12⟩
/-- R111 04: `retired_unit` of TAL_SPARE_MAP. -/
def TAL_SPARE_MAP_retired_unit : Fld := ⟨.TAL_SPARE_MAP, 0, 6⟩
/-- R111 04: `spare_unit` of TAL_SPARE_MAP. -/
def TAL_SPARE_MAP_spare_unit : Fld := ⟨.TAL_SPARE_MAP, 8, 6⟩
/-- R111 04: `go` of TAL_SPARE_MAP. -/
def TAL_SPARE_MAP_go : Fld := ⟨.TAL_SPARE_MAP, 31, 1⟩
/-- R111 04: `count` of TAL_CHECK_FAIL. -/
def TAL_CHECK_FAIL : Fld := ⟨.TAL_CHECK_FAIL, 0, 64⟩
/-- R111 04: `count` of TAL_MISDIRECT. -/
def TAL_MISDIRECT : Fld := ⟨.TAL_MISDIRECT, 0, 64⟩
/-- R111 04: `count` of TAL_STREAM_OPS. -/
def TAL_STREAM_OPS : Fld := ⟨.TAL_STREAM_OPS, 0, 64⟩
/-- R111 04: `state` of TAL_UNIT_STATE. -/
def TAL_UNIT_STATE_state : Fld := ⟨.TAL_UNIT_STATE, 0, 2⟩
/-- R111 04: `slots_bound` of TAL_UNIT_STATE. -/
def TAL_UNIT_STATE_slots_bound : Fld := ⟨.TAL_UNIT_STATE, 8, 8⟩
/-- R111 04: `share` of TAL_PTN_POOL. -/
def TAL_PTN_POOL_share : Fld := ⟨.TAL_PTN_POOL, 0, 12⟩
/-- R111 04: `used` of TAL_PTN_POOL. -/
def TAL_PTN_POOL_used : Fld := ⟨.TAL_PTN_POOL, 16, 12⟩
/-- R111 04: `borrowed` of TAL_PTN_POOL. -/
def TAL_PTN_POOL_borrowed : Fld := ⟨.TAL_PTN_POOL, 32, 12⟩
/-- R150 05: `algo_default` of CMN_CFG. -/
def CMN_CFG_algo_default : Fld := ⟨.CMN_CFG, 0, 3⟩
/-- R150 05: `straggle_ms` of CMN_CFG. -/
def CMN_CFG_straggle_ms : Fld := ⟨.CMN_CFG, 8, 16⟩
/-- R150 05: `reform_wait_ms` of CMN_CFG2. -/
def CMN_CFG2_reform_wait_ms : Fld := ⟨.CMN_CFG2, 0, 14⟩
/-- R150 05: `direct_max` of CMN_CFG2. -/
def CMN_CFG2_direct_max : Fld := ⟨.CMN_CFG2, 16, 8⟩
/-- R150 05: `slot` of CMN_GRP_SEL. -/
def CMN_GRP_SEL_slot : Fld := ⟨.CMN_GRP_SEL, 0, 12⟩
/-- R150 05: `group_id` of CMN_GRP_ARG0. -/
def CMN_GRP_ARG0_group_id : Fld := ⟨.CMN_GRP_ARG0, 0, 16⟩
/-- R150 05: `generation` of CMN_GRP_ARG0. -/
def CMN_GRP_ARG0_generation : Fld := ⟨.CMN_GRP_ARG0, 16, 16⟩
/-- R150 05: `size` of CMN_GRP_ARG1. -/
def CMN_GRP_ARG1_size : Fld := ⟨.CMN_GRP_ARG1, 0, 17⟩
/-- R150 05: `rank_a` of CMN_GRP_ARG2. -/
def CMN_GRP_ARG2_rank_a : Fld := ⟨.CMN_GRP_ARG2, 0, 16⟩
/-- R150 05: `rank_b` of CMN_GRP_ARG2. -/
def CMN_GRP_ARG2_rank_b : Fld := ⟨.CMN_GRP_ARG2, 16, 16⟩
/-- R150 05: `vf` of CMN_GRP_ARG3. -/
def CMN_GRP_ARG3_vf : Fld := ⟨.CMN_GRP_ARG3, 0, 10⟩
/-- R150 05: `rank_b_valid` of CMN_GRP_ARG3. -/
def CMN_GRP_ARG3_rank_b_valid : Fld := ⟨.CMN_GRP_ARG3, 10, 1⟩
/-- R150 05: `enc` of CMN_GRP_ARG3. -/
def CMN_GRP_ARG3_enc : Fld := ⟨.CMN_GRP_ARG3, 11, 1⟩
/-- R150 05: `op` of CMN_GRP_CMD. -/
def CMN_GRP_CMD_op : Fld := ⟨.CMN_GRP_CMD, 0, 3⟩
/-- R150 05: `busy` of CMN_GRP_STATUS. -/
def CMN_GRP_STATUS_busy : Fld := ⟨.CMN_GRP_STATUS, 0, 1⟩
/-- R150 05: `done` of CMN_GRP_STATUS. -/
def CMN_GRP_STATUS_done : Fld := ⟨.CMN_GRP_STATUS, 1, 1⟩
/-- R150 05: `refused` of CMN_GRP_STATUS. -/
def CMN_GRP_STATUS_refused : Fld := ⟨.CMN_GRP_STATUS, 2, 1⟩
/-- R150 05: `reason` of CMN_GRP_STATUS. -/
def CMN_GRP_STATUS_reason : Fld := ⟨.CMN_GRP_STATUS, 8, 4⟩
/-- R150 05: `state` of CMN_GRP_INFO. -/
def CMN_GRP_INFO_state : Fld := ⟨.CMN_GRP_INFO, 0, 3⟩
/-- R150 05: `ops_open` of CMN_GRP_INFO. -/
def CMN_GRP_INFO_ops_open : Fld := ⟨.CMN_GRP_INFO, 3, 7⟩
/-- R150 05: `group_id` of CMN_GRP_INFO. -/
def CMN_GRP_INFO_group_id : Fld := ⟨.CMN_GRP_INFO, 16, 16⟩
/-- R150 05: `generation` of CMN_GRP_INFO. -/
def CMN_GRP_INFO_generation : Fld := ⟨.CMN_GRP_INFO, 32, 16⟩
/-- R150 05: `last_step` of CMN_GRP_STEP. -/
def CMN_GRP_STEP_last_step : Fld := ⟨.CMN_GRP_STEP, 0, 32⟩
/-- R150 05: `tx_slot` of CMN_GRP_KEYS. -/
def CMN_GRP_KEYS_tx_slot : Fld := ⟨.CMN_GRP_KEYS, 0, 16⟩
/-- R150 05: `rx_slot` of CMN_GRP_KEYS. -/
def CMN_GRP_KEYS_rx_slot : Fld := ⟨.CMN_GRP_KEYS, 16, 16⟩
/-- R150 05: `count` of CMN_RERUNS. -/
def CMN_RERUNS : Fld := ⟨.CMN_RERUNS, 0, 64⟩
/-- R150 05: `count` of CMN_CHECK_FAILED. -/
def CMN_CHECK_FAILED : Fld := ⟨.CMN_CHECK_FAILED, 0, 64⟩
/-- R150 05: `count` of CMN_DEADLINE. -/
def CMN_DEADLINE : Fld := ⟨.CMN_DEADLINE, 0, 64⟩
/-- R150 05: `count` of CMN_REFORMS. -/
def CMN_REFORMS : Fld := ⟨.CMN_REFORMS, 0, 64⟩
/-- R150 05: `count` of CMN_STALE. -/
def CMN_STALE : Fld := ⟨.CMN_STALE, 0, 64⟩
/-- R150 05: `ns` of CMN_OP_TIME. -/
def CMN_OP_TIME_ns : Fld := ⟨.CMN_OP_TIME, 0, 32⟩
/-- R150 05: `pfx` of CMN_FABRIC_PFX_lo. -/
def CMN_FABRIC_PFX_lo_pfx : Fld := ⟨.CMN_FABRIC_PFX_lo, 20, 44⟩
/-- R150 05: `pfx` of CMN_FABRIC_PFX_hi. -/
def CMN_FABRIC_PFX_hi_pfx : Fld := ⟨.CMN_FABRIC_PFX_hi, 0, 64⟩
/-- R184 06: `hash_interval` of MIL_CFG. -/
def MIL_CFG_hash_interval : Fld := ⟨.MIL_CFG, 0, 6⟩
/-- R184 06: `retired_unit` of MIL_SPARE_MAP. -/
def MIL_SPARE_MAP_retired_unit : Fld := ⟨.MIL_SPARE_MAP, 0, 5⟩
/-- R184 06: `spare_unit` of MIL_SPARE_MAP. -/
def MIL_SPARE_MAP_spare_unit : Fld := ⟨.MIL_SPARE_MAP, 8, 5⟩
/-- R184 06: `go` of MIL_SPARE_MAP. -/
def MIL_SPARE_MAP_go : Fld := ⟨.MIL_SPARE_MAP, 31, 1⟩
/-- R184 06: `partition` of MIL_RECIPE_SEL. -/
def MIL_RECIPE_SEL_partition : Fld := ⟨.MIL_RECIPE_SEL, 0, 6⟩
/-- R184 06: `recipe_id` of MIL_RECIPE_SEL. -/
def MIL_RECIPE_SEL_recipe_id : Fld := ⟨.MIL_RECIPE_SEL, 8, 8⟩
/-- R184 06: `present` of MIL_RECIPE_INFO. -/
def MIL_RECIPE_INFO_present : Fld := ⟨.MIL_RECIPE_INFO, 0, 1⟩
/-- R184 06: `two_pass` of MIL_RECIPE_INFO. -/
def MIL_RECIPE_INFO_two_pass : Fld := ⟨.MIL_RECIPE_INFO, 1, 1⟩
/-- R184 06: `step_scope` of MIL_RECIPE_INFO. -/
def MIL_RECIPE_INFO_step_scope : Fld := ⟨.MIL_RECIPE_INFO, 2, 1⟩
/-- R184 06: `step_count` of MIL_RECIPE_INFO. -/
def MIL_RECIPE_INFO_step_count : Fld := ⟨.MIL_RECIPE_INFO, 8, 7⟩
/-- R184 06: `clocks` of MIL_RECIPE_INFO. -/
def MIL_RECIPE_INFO_clocks : Fld := ⟨.MIL_RECIPE_INFO, 16, 8⟩
/-- R184 06: `count` of MIL_ELEMS. -/
def MIL_ELEMS : Fld := ⟨.MIL_ELEMS, 0, 64⟩
/-- R184 06: `count` of MIL_DDR_ELEMS. -/
def MIL_DDR_ELEMS : Fld := ⟨.MIL_DDR_ELEMS, 0, 64⟩
/-- R184 06: `count` of MIL_NONFINITE. -/
def MIL_NONFINITE : Fld := ⟨.MIL_NONFINITE, 0, 64⟩
/-- R184 06: `count` of MIL_BLOCK_REPLAY. -/
def MIL_BLOCK_REPLAY : Fld := ⟨.MIL_BLOCK_REPLAY, 0, 64⟩
/-- R184 06: `state` of MIL_ENG_STATE. -/
def MIL_ENG_STATE_state : Fld := ⟨.MIL_ENG_STATE, 0, 2⟩
/-- R184 06: `partition` of MIL_ENG_STATE. -/
def MIL_ENG_STATE_partition : Fld := ⟨.MIL_ENG_STATE, 8, 6⟩
/-- R184 06: `busy` of MIL_ENG_STATE. -/
def MIL_ENG_STATE_busy : Fld := ⟨.MIL_ENG_STATE, 14, 1⟩
/-- R184 06: `step` of MIL_PTN_STEP. -/
def MIL_PTN_STEP_step : Fld := ⟨.MIL_PTN_STEP, 0, 32⟩
/-- R184 06: `bundle` of MIL_PTN_STEP. -/
def MIL_PTN_STEP_bundle : Fld := ⟨.MIL_PTN_STEP, 32, 16⟩
/-- R184 06: `pass` of MIL_PTN_STEP. -/
def MIL_PTN_STEP_pass : Fld := ⟨.MIL_PTN_STEP, 48, 2⟩
/-- R228 08: `udp_port` of BXT_CFG. -/
def BXT_CFG_udp_port : Fld := ⟨.BXT_CFG, 0, 16⟩
/-- R228 08: `roce_enable` of BXT_CFG. -/
def BXT_CFG_roce_enable : Fld := ⟨.BXT_CFG, 16, 1⟩
/-- R228 08: `max_msg_log2` of BXT_CFG. -/
def BXT_CFG_max_msg_log2 : Fld := ⟨.BXT_CFG, 20, 5⟩
/-- R228 08: `rto_init_us` of BXT_TIMER. -/
def BXT_TIMER_rto_init_us : Fld := ⟨.BXT_TIMER, 0, 10⟩
/-- R228 08: `retry_limit` of BXT_TIMER. -/
def BXT_TIMER_retry_limit : Fld := ⟨.BXT_TIMER, 10, 4⟩
/-- R228 08: `nr_limit` of BXT_TIMER. -/
def BXT_TIMER_nr_limit : Fld := ⟨.BXT_TIMER, 14, 8⟩
/-- R228 08: `fault_hold_us` of BXT_HOLD. -/
def BXT_HOLD_fault_hold_us : Fld := ⟨.BXT_HOLD, 0, 17⟩
/-- R228 08: `cwnd_init_kib` of BXT_CC. -/
def BXT_CC_cwnd_init_kib : Fld := ⟨.BXT_CC, 0, 15⟩
/-- R228 08: `rtt_slack_us` of BXT_CC. -/
def BXT_CC_rtt_slack_us : Fld := ⟨.BXT_CC, 15, 9⟩
/-- R228 08: `g_shift` of BXT_CC. -/
def BXT_CC_g_shift : Fld := ⟨.BXT_CC, 24, 4⟩
/-- R228 08: `used_kib` of BXT_MISS_BUF. -/
def BXT_MISS_BUF_used_kib : Fld := ⟨.BXT_MISS_BUF, 0, 13⟩
/-- R228 08: `peak_kib` of BXT_MISS_BUF. -/
def BXT_MISS_BUF_peak_kib : Fld := ⟨.BXT_MISS_BUF, 16, 13⟩
/-- R228 08: `count` of BXT_RETX. -/
def BXT_RETX : Fld := ⟨.BXT_RETX, 0, 64⟩
/-- R228 08: `count` of BXT_DUP. -/
def BXT_DUP : Fld := ⟨.BXT_DUP, 0, 64⟩
/-- R228 08: `count` of BXT_STALE. -/
def BXT_STALE : Fld := ⟨.BXT_STALE, 0, 64⟩
/-- R228 08: `count` of BXT_EPOCH_DROP. -/
def BXT_EPOCH_DROP : Fld := ⟨.BXT_EPOCH_DROP, 0, 64⟩
/-- R228 08: `count` of BXT_INVALID. -/
def BXT_INVALID : Fld := ⟨.BXT_INVALID, 0, 64⟩
/-- R228 08: `count` of BXT_DECRYPT_FAIL. -/
def BXT_DECRYPT_FAIL : Fld := ⟨.BXT_DECRYPT_FAIL, 0, 64⟩
/-- R228 08: `count` of BXT_HELD. -/
def BXT_HELD : Fld := ⟨.BXT_HELD, 0, 64⟩
/-- R228 08: `count` of BXT_HOLD_EXPIRED. -/
def BXT_HOLD_EXPIRED : Fld := ⟨.BXT_HOLD_EXPIRED, 0, 64⟩
/-- R228 08: `count` of BXT_NR_SENT. -/
def BXT_NR_SENT : Fld := ⟨.BXT_NR_SENT, 0, 64⟩
/-- R228 08: `count` of BXT_NR_RCVD. -/
def BXT_NR_RCVD : Fld := ⟨.BXT_NR_RCVD, 0, 64⟩
/-- R228 08: `count` of BXT_PEER_LOST. -/
def BXT_PEER_LOST : Fld := ⟨.BXT_PEER_LOST, 0, 64⟩
/-- R228 08: `count` of BXT_CE_RCVD. -/
def BXT_CE_RCVD : Fld := ⟨.BXT_CE_RCVD, 0, 64⟩
/-- R228 08: `count` of BXT_REFUSED. -/
def BXT_REFUSED : Fld := ⟨.BXT_REFUSED, 0, 64⟩
/-- R228 08: `resident` of CTX_OCC. -/
def CTX_OCC_resident : Fld := ⟨.CTX_OCC, 0, 15⟩
/-- R228 08: `pinned` of CTX_OCC. -/
def CTX_OCC_pinned : Fld := ⟨.CTX_OCC, 16, 14⟩
/-- R228 08: `count` of CTX_HIT. -/
def CTX_HIT : Fld := ⟨.CTX_HIT, 0, 64⟩
/-- R228 08: `count` of CTX_MISS. -/
def CTX_MISS : Fld := ⟨.CTX_MISS, 0, 64⟩
/-- R228 08: `count` of CTX_EVICT. -/
def CTX_EVICT : Fld := ⟨.CTX_EVICT, 0, 64⟩
/-- R228 08: `count` of CTX_FETCH_NR. -/
def CTX_FETCH_NR : Fld := ⟨.CTX_FETCH_NR, 0, 64⟩
/-- R228 08: `resident` of CTX_PTN. -/
def CTX_PTN_resident : Fld := ⟨.CTX_PTN, 0, 15⟩
/-- R228 08: `pinned` of CTX_PTN. -/
def CTX_PTN_pinned : Fld := ⟨.CTX_PTN, 16, 15⟩
/-- R228 08: `backed` of CTX_PTN. -/
def CTX_PTN_backed : Fld := ⟨.CTX_PTN, 32, 21⟩
/-- R258 09: `ring` of WQE_RING_SEL. -/
def WQE_RING_SEL_ring : Fld := ⟨.WQE_RING_SEL, 0, 12⟩
/-- R258 09: `sq_base` of WQE_RING_ARG0. -/
def WQE_RING_ARG0_sq_base : Fld := ⟨.WQE_RING_ARG0, 0, 64⟩
/-- R258 09: `cq_base` of WQE_RING_ARG1. -/
def WQE_RING_ARG1_cq_base : Fld := ⟨.WQE_RING_ARG1, 0, 64⟩
/-- R258 09: `sq_log2` of WQE_RING_ARG2. -/
def WQE_RING_ARG2_sq_log2 : Fld := ⟨.WQE_RING_ARG2, 0, 5⟩
/-- R258 09: `cq_log2` of WQE_RING_ARG2. -/
def WQE_RING_ARG2_cq_log2 : Fld := ⟨.WQE_RING_ARG2, 5, 5⟩
/-- R258 09: `entry256` of WQE_RING_ARG2. -/
def WQE_RING_ARG2_entry256 : Fld := ⟨.WQE_RING_ARG2, 10, 1⟩
/-- R258 09: `receive` of WQE_RING_ARG2. -/
def WQE_RING_ARG2_receive : Fld := ⟨.WQE_RING_ARG2, 11, 1⟩
/-- R258 09: `tag` of WQE_RING_ARG2. -/
def WQE_RING_ARG2_tag : Fld := ⟨.WQE_RING_ARG2, 12, 12⟩
/-- R258 09: `vector` of WQE_RING_ARG3. -/
def WQE_RING_ARG3_vector : Fld := ⟨.WQE_RING_ARG3, 0, 11⟩
/-- R258 09: `op` of WQE_RING_CMD. -/
def WQE_RING_CMD_op : Fld := ⟨.WQE_RING_CMD, 0, 2⟩
/-- R258 09: `busy` of WQE_RING_STATUS. -/
def WQE_RING_STATUS_busy : Fld := ⟨.WQE_RING_STATUS, 0, 1⟩
/-- R258 09: `done` of WQE_RING_STATUS. -/
def WQE_RING_STATUS_done : Fld := ⟨.WQE_RING_STATUS, 1, 1⟩
/-- R258 09: `refused` of WQE_RING_STATUS. -/
def WQE_RING_STATUS_refused : Fld := ⟨.WQE_RING_STATUS, 2, 1⟩
/-- R258 09: `reason` of WQE_RING_STATUS. -/
def WQE_RING_STATUS_reason : Fld := ⟨.WQE_RING_STATUS, 8, 4⟩
/-- R258 09: `state` of WQE_RING_STATUS. -/
def WQE_RING_STATUS_state : Fld := ⟨.WQE_RING_STATUS, 12, 3⟩
/-- R258 09: `fetched` of WQE_RING_INFO. -/
def WQE_RING_INFO_fetched : Fld := ⟨.WQE_RING_INFO, 0, 32⟩
/-- R258 09: `posted` of WQE_RING_INFO. -/
def WQE_RING_INFO_posted : Fld := ⟨.WQE_RING_INFO, 32, 32⟩
/-- R258 09: `sq_tail` of WQE_DB_w0. -/
def WQE_DB_sq_tail : Fld := ⟨.WQE_DB_w0, 0, 32⟩
/-- R258 09: `cq_head` of WQE_DB_w4. -/
def WQE_DB_cq_head : Fld := ⟨.WQE_DB_w4, 0, 32⟩
/-- R258 09: `arm` of WQE_DB_w8. -/
def WQE_DB_arm : Fld := ⟨.WQE_DB_w8, 0, 1⟩
/-- R259 09: `sq_tail` of WQE_CTL_DB. -/
def WQE_CTL_DB_sq_tail : Fld := ⟨.WQE_CTL_DB, 0, 32⟩
/-- R259 09: `cq_head` of WQE_CTL_DB. -/
def WQE_CTL_DB_cq_head : Fld := ⟨.WQE_CTL_DB, 32, 32⟩
/-- R259 09: `halted` of WQE_DEV_HALT. -/
def WQE_DEV_HALT_halted : Fld := ⟨.WQE_DEV_HALT, 0, 1⟩
/-- R259 09: `reason` of WQE_DEV_HALT. -/
def WQE_DEV_HALT_reason : Fld := ⟨.WQE_DEV_HALT, 1, 3⟩
/-- R259 09: `slot` of WQE_DEV_HALT. -/
def WQE_DEV_HALT_slot : Fld := ⟨.WQE_DEV_HALT, 16, 9⟩
/-- R259 09: `halted` of WQE_PTN_HALT. -/
def WQE_PTN_HALT_halted : Fld := ⟨.WQE_PTN_HALT, 0, 1⟩
/-- R259 09: `reason` of WQE_PTN_HALT. -/
def WQE_PTN_HALT_reason : Fld := ⟨.WQE_PTN_HALT, 1, 3⟩
/-- R259 09: `ring` of WQE_PTN_HALT. -/
def WQE_PTN_HALT_ring : Fld := ⟨.WQE_PTN_HALT, 4, 12⟩
/-- R259 09: `vf` of WQE_PTN_HALT. -/
def WQE_PTN_HALT_vf : Fld := ⟨.WQE_PTN_HALT, 16, 10⟩
/-- R259 09: `slot` of WQE_PTN_HALT. -/
def WQE_PTN_HALT_slot : Fld := ⟨.WQE_PTN_HALT, 32, 16⟩
/-- R259 09: `count` of WQE_MALFORMED. -/
def WQE_MALFORMED : Fld := ⟨.WQE_MALFORMED, 0, 64⟩
/-- R259 09: `count` of WQE_REFETCH. -/
def WQE_REFETCH : Fld := ⟨.WQE_REFETCH, 0, 64⟩
/-- R259 09: `count` of WQE_PUSH_DROP. -/
def WQE_PUSH_DROP : Fld := ⟨.WQE_PUSH_DROP, 0, 64⟩
/-- R259 09: `count` of WQE_DB_REFUSED. -/
def WQE_DB_REFUSED : Fld := ⟨.WQE_DB_REFUSED, 0, 64⟩
/-- R259 09: `count` of WQE_EVENT_DROP. -/
def WQE_EVENT_DROP : Fld := ⟨.WQE_EVENT_DROP, 0, 64⟩
/-- R259 09: `count` of WQE_FLUSH. -/
def WQE_FLUSH : Fld := ⟨.WQE_FLUSH, 0, 64⟩
/-- R259 09: `count` of WQE_HALTED. -/
def WQE_HALTED : Fld := ⟨.WQE_HALTED, 0, 64⟩
/-- R280 10: `mgmt_frac` of ADM_CFG. -/
def ADM_CFG_mgmt_frac : Fld := ⟨.ADM_CFG, 0, 8⟩
/-- R280 10: `frac0` of ADM_CLASS_FRAC. -/
def ADM_CLASS_FRAC_frac0 : Fld := ⟨.ADM_CLASS_FRAC, 0, 8⟩
/-- R280 10: `frac1` of ADM_CLASS_FRAC. -/
def ADM_CLASS_FRAC_frac1 : Fld := ⟨.ADM_CLASS_FRAC, 8, 8⟩
/-- R280 10: `frac2` of ADM_CLASS_FRAC. -/
def ADM_CLASS_FRAC_frac2 : Fld := ⟨.ADM_CLASS_FRAC, 16, 8⟩
/-- R280 10: `frac3` of ADM_CLASS_FRAC. -/
def ADM_CLASS_FRAC_frac3 : Fld := ⟨.ADM_CLASS_FRAC, 24, 8⟩
/-- R280 10: `frac4` of ADM_CLASS_FRAC. -/
def ADM_CLASS_FRAC_frac4 : Fld := ⟨.ADM_CLASS_FRAC, 32, 8⟩
/-- R280 10: `frac5` of ADM_CLASS_FRAC. -/
def ADM_CLASS_FRAC_frac5 : Fld := ⟨.ADM_CLASS_FRAC, 40, 8⟩
/-- R280 10: `period_us` of ADM_GRANT. -/
def ADM_GRANT_period_us : Fld := ⟨.ADM_GRANT, 0, 10⟩
/-- R280 10: `min_units` of ADM_GRANT. -/
def ADM_GRANT_min_units : Fld := ⟨.ADM_GRANT, 10, 16⟩
/-- R280 10: `ops` of ADM_INFLIGHT. -/
def ADM_INFLIGHT_ops : Fld := ⟨.ADM_INFLIGHT, 0, 18⟩
/-- R280 10: `count` of ADM_ADMIT. -/
def ADM_ADMIT : Fld := ⟨.ADM_ADMIT, 0, 64⟩
/-- R280 10: `count` of ADM_DELAYED. -/
def ADM_DELAYED : Fld := ⟨.ADM_DELAYED, 0, 64⟩
/-- R280 10: `count` of ADM_REF_CAPACITY. -/
def ADM_REF_CAPACITY : Fld := ⟨.ADM_REF_CAPACITY, 0, 64⟩
/-- R280 10: `count` of ADM_REF_RATE. -/
def ADM_REF_RATE : Fld := ⟨.ADM_REF_RATE, 0, 64⟩
/-- R280 10: `count` of ADM_REF_POOL. -/
def ADM_REF_POOL : Fld := ⟨.ADM_REF_POOL, 0, 64⟩
/-- R280 10: `count` of ADM_REF_GRANT. -/
def ADM_REF_GRANT : Fld := ⟨.ADM_REF_GRANT, 0, 64⟩
/-- R280 10: `count` of ADM_MISSED. -/
def ADM_MISSED : Fld := ⟨.ADM_MISSED, 0, 64⟩
/-- R280 10: `count` of ADM_GRANT_MISSED. -/
def ADM_GRANT_MISSED : Fld := ⟨.ADM_GRANT_MISSED, 0, 64⟩
/-- R280 10: `count` of ADM_GRANT_SENT. -/
def ADM_GRANT_SENT : Fld := ⟨.ADM_GRANT_SENT, 0, 64⟩
/-- R280 10: `count` of ADM_GRANT_RCVD. -/
def ADM_GRANT_RCVD : Fld := ⟨.ADM_GRANT_RCVD, 0, 64⟩
/-- R280 10: `count` of ADM_MISS_CAUSE. -/
def ADM_MISS_CAUSE : Fld := ⟨.ADM_MISS_CAUSE, 0, 64⟩
/-- R280 10: `tokens` of ADM_INST. -/
def ADM_INST_tokens : Fld := ⟨.ADM_INST, 0, 48⟩
/-- R281 10: `meter` of POL_METER_SEL. -/
def POL_METER_SEL_meter : Fld := ⟨.POL_METER_SEL, 0, 12⟩
/-- R281 10: `cir_mbps` of POL_METER_RATE. -/
def POL_METER_RATE_cir_mbps : Fld := ⟨.POL_METER_RATE, 0, 21⟩
/-- R281 10: `pir_mbps` of POL_METER_RATE. -/
def POL_METER_RATE_pir_mbps : Fld := ⟨.POL_METER_RATE, 32, 21⟩
/-- R281 10: `cbs` of POL_METER_BURST. -/
def POL_METER_BURST_cbs : Fld := ⟨.POL_METER_BURST, 0, 24⟩
/-- R281 10: `pbs` of POL_METER_BURST. -/
def POL_METER_BURST_pbs : Fld := ⟨.POL_METER_BURST, 32, 24⟩
/-- R281 10: `op` of POL_METER_CMD. -/
def POL_METER_CMD_op : Fld := ⟨.POL_METER_CMD, 0, 2⟩
/-- R281 10: `frames` of POL_METER_GREEN_lo. -/
def POL_METER_GREEN_frames : Fld := ⟨.POL_METER_GREEN_lo, 0, 64⟩
/-- R281 10: `bytes` of POL_METER_GREEN_hi. -/
def POL_METER_GREEN_bytes : Fld := ⟨.POL_METER_GREEN_hi, 0, 64⟩
/-- R281 10: `frames` of POL_METER_YELLOW_lo. -/
def POL_METER_YELLOW_frames : Fld := ⟨.POL_METER_YELLOW_lo, 0, 64⟩
/-- R281 10: `bytes` of POL_METER_YELLOW_hi. -/
def POL_METER_YELLOW_bytes : Fld := ⟨.POL_METER_YELLOW_hi, 0, 64⟩
/-- R281 10: `frames` of POL_METER_RED_lo. -/
def POL_METER_RED_frames : Fld := ⟨.POL_METER_RED_lo, 0, 64⟩
/-- R281 10: `bytes` of POL_METER_RED_hi. -/
def POL_METER_RED_bytes : Fld := ⟨.POL_METER_RED_hi, 0, 64⟩
/-- R281 10: `count` of POL_RED. -/
def POL_RED : Fld := ⟨.POL_RED, 0, 64⟩
/-- R281 10: `count` of POL_UNCLASSIFIED. -/
def POL_UNCLASSIFIED : Fld := ⟨.POL_UNCLASSIFIED, 0, 64⟩
/-- R281 10: `count` of POL_CLS_DROP. -/
def POL_CLS_DROP : Fld := ⟨.POL_CLS_DROP, 0, 64⟩
/-- R281 10: `count` of POL_MIRROR. -/
def POL_MIRROR : Fld := ⟨.POL_MIRROR, 0, 64⟩
/-- R281 10: `count` of POL_STEWARD. -/
def POL_STEWARD : Fld := ⟨.POL_STEWARD, 0, 64⟩
/-- R308 11: `retired` of PRT_PORT_STATE. -/
def PRT_PORT_STATE_retired : Fld := ⟨.PRT_PORT_STATE, 0, 9⟩
/-- R308 11: `spare_lane` of PRT_PORT_STATE. -/
def PRT_PORT_STATE_spare_lane : Fld := ⟨.PRT_PORT_STATE, 9, 4⟩
/-- R308 11: `split` of PRT_PORT_STATE. -/
def PRT_PORT_STATE_split : Fld := ⟨.PRT_PORT_STATE, 13, 2⟩
/-- R308 11: `transit_share` of PRT_TRANSIT. -/
def PRT_TRANSIT_transit_share : Fld := ⟨.PRT_TRANSIT, 0, 8⟩
/-- R308 11: `fec_alarm` of PRT_TRANSIT. -/
def PRT_TRANSIT_fec_alarm : Fld := ⟨.PRT_TRANSIT, 8, 16⟩
/-- R308 11: `xoff_kib` of PRT_PFC. -/
def PRT_PFC_xoff_kib : Fld := ⟨.PRT_PFC, 0, 12⟩
/-- R308 11: `xon_kib` of PRT_PFC. -/
def PRT_PFC_xon_kib : Fld := ⟨.PRT_PFC, 12, 12⟩
/-- R308 11: `wd_ms` of PRT_PFC. -/
def PRT_PFC_wd_ms : Fld := ⟨.PRT_PFC, 32, 14⟩
/-- R308 11: `admin` of PRT_LP_w00. -/
def PRT_LP_admin : Fld := ⟨.PRT_LP_w00, 0, 1⟩
/-- R308 11: `media` of PRT_LP_w00. -/
def PRT_LP_media : Fld := ⟨.PRT_LP_w00, 1, 2⟩
/-- R308 11: `hop_replay` of PRT_LP_w00. -/
def PRT_LP_hop_replay : Fld := ⟨.PRT_LP_w00, 3, 1⟩
/-- R308 11: `lldp` of PRT_LP_w00. -/
def PRT_LP_lldp : Fld := ⟨.PRT_LP_w00, 4, 1⟩
/-- R308 11: `tagged` of PRT_LP_w00. -/
def PRT_LP_tagged : Fld := ⟨.PRT_LP_w00, 5, 1⟩
/-- R308 11: `vlan_id` of PRT_LP_w00. -/
def PRT_LP_vlan_id : Fld := ⟨.PRT_LP_w00, 6, 12⟩
/-- R308 11: `max_frame` of PRT_LP_w00. -/
def PRT_LP_max_frame : Fld := ⟨.PRT_LP_w00, 18, 14⟩
/-- R308 11: `mac` of PRT_LP_w08. -/
def PRT_LP_mac : Fld := ⟨.PRT_LP_w08, 0, 48⟩
/-- R308 11: `nh_mac` of PRT_LP_w10. -/
def PRT_LP_nh_mac : Fld := ⟨.PRT_LP_w10, 0, 48⟩
/-- R308 11: `nh_learned` of PRT_LP_w10. -/
def PRT_LP_nh_learned : Fld := ⟨.PRT_LP_w10, 48, 1⟩
/-- R308 11: `state` of PRT_LP_w18. -/
def PRT_LP_state : Fld := ⟨.PRT_LP_w18, 0, 2⟩
/-- R308 11: `replay_on` of PRT_LP_w18. -/
def PRT_LP_replay_on : Fld := ⟨.PRT_LP_w18, 2, 1⟩
/-- R308 11: `permille` of PRT_LP_w18. -/
def PRT_LP_permille : Fld := ⟨.PRT_LP_w18, 3, 10⟩
/-- R308 11: `nbr_rymus` of PRT_LP_w18. -/
def PRT_LP_nbr_rymus : Fld := ⟨.PRT_LP_w18, 13, 1⟩
/-- R308 11: `nbr_dev` of PRT_LP_w18. -/
def PRT_LP_nbr_dev : Fld := ⟨.PRT_LP_w18, 14, 20⟩
/-- R308 11: `nbr_lport` of PRT_LP_w18. -/
def PRT_LP_nbr_lport : Fld := ⟨.PRT_LP_w18, 34, 6⟩
/-- R308 11: `count` of PRT_RX_FRAMES. -/
def PRT_RX_FRAMES : Fld := ⟨.PRT_RX_FRAMES, 0, 64⟩
/-- R308 11: `count` of PRT_RX_BYTES. -/
def PRT_RX_BYTES : Fld := ⟨.PRT_RX_BYTES, 0, 64⟩
/-- R308 11: `count` of PRT_TX_FRAMES. -/
def PRT_TX_FRAMES : Fld := ⟨.PRT_TX_FRAMES, 0, 64⟩
/-- R308 11: `count` of PRT_TX_BYTES. -/
def PRT_TX_BYTES : Fld := ⟨.PRT_TX_BYTES, 0, 64⟩
/-- R308 11: `count` of PRT_RUNT. -/
def PRT_RUNT : Fld := ⟨.PRT_RUNT, 0, 64⟩
/-- R308 11: `count` of PRT_OVERSIZE. -/
def PRT_OVERSIZE : Fld := ⟨.PRT_OVERSIZE, 0, 64⟩
/-- R308 11: `count` of PRT_FCS_ERR. -/
def PRT_FCS_ERR : Fld := ⟨.PRT_FCS_ERR, 0, 64⟩
/-- R308 11: `count` of PRT_FEC_CORR. -/
def PRT_FEC_CORR : Fld := ⟨.PRT_FEC_CORR, 0, 64⟩
/-- R308 11: `count` of PRT_FEC_UNCORR. -/
def PRT_FEC_UNCORR : Fld := ⟨.PRT_FEC_UNCORR, 0, 64⟩
/-- R308 11: `count` of PRT_FEC_DISCARD. -/
def PRT_FEC_DISCARD : Fld := ⟨.PRT_FEC_DISCARD, 0, 64⟩
/-- R308 11: `count` of PRT_ADDR_DROP. -/
def PRT_ADDR_DROP : Fld := ⟨.PRT_ADDR_DROP, 0, 64⟩
/-- R308 11: `count` of PRT_PFC_RX. -/
def PRT_PFC_RX : Fld := ⟨.PRT_PFC_RX, 0, 64⟩
/-- R308 11: `count` of PRT_PFC_TX. -/
def PRT_PFC_TX : Fld := ⟨.PRT_PFC_TX, 0, 64⟩
/-- R308 11: `count` of PRT_PFC_IGNORED. -/
def PRT_PFC_IGNORED : Fld := ⟨.PRT_PFC_IGNORED, 0, 64⟩
/-- R308 11: `count` of PRT_PFC_WD. -/
def PRT_PFC_WD : Fld := ⟨.PRT_PFC_WD, 0, 64⟩
/-- R308 11: `count` of PRT_PAUSE_DROP. -/
def PRT_PAUSE_DROP : Fld := ⟨.PRT_PAUSE_DROP, 0, 64⟩
/-- R309 11: `dev_addr` of HOP_DEV. -/
def HOP_DEV_dev_addr : Fld := ⟨.HOP_DEV, 0, 20⟩
/-- R309 11: `ip4` of HOP_IP4. -/
def HOP_IP4_ip4 : Fld := ⟨.HOP_IP4, 0, 32⟩
/-- R309 11: `ip6` of HOP_IP6_lo. -/
def HOP_IP6_lo_ip6 : Fld := ⟨.HOP_IP6_lo, 0, 64⟩
/-- R309 11: `ip6` of HOP_IP6_hi. -/
def HOP_IP6_hi_ip6 : Fld := ⟨.HOP_IP6_hi, 0, 64⟩
/-- R309 11: `ecn_kib` of HOP_CFG. -/
def HOP_CFG_ecn_kib : Fld := ⟨.HOP_CFG, 0, 12⟩
/-- R309 11: `level_ns` of HOP_CFG. -/
def HOP_CFG_level_ns : Fld := ⟨.HOP_CFG, 12, 14⟩
/-- R309 11: `report_us` of HOP_WX_CFG. -/
def HOP_WX_CFG_report_us : Fld := ⟨.HOP_WX_CFG, 0, 14⟩
/-- R309 11: `ttl_us` of HOP_WX_CFG. -/
def HOP_WX_CFG_ttl_us : Fld := ⟨.HOP_WX_CFG, 14, 17⟩
/-- R309 11: `mask` of HOP_DEFAULT. -/
def HOP_DEFAULT_mask : Fld := ⟨.HOP_DEFAULT, 0, 64⟩
/-- R309 11: `dst` of HOP_ROUTE_DST. -/
def HOP_ROUTE_DST_dst : Fld := ⟨.HOP_ROUTE_DST, 0, 20⟩
/-- R309 11: `mask` of HOP_ROUTE_MASK. -/
def HOP_ROUTE_MASK_mask : Fld := ⟨.HOP_ROUTE_MASK, 0, 64⟩
/-- R309 11: `op` of HOP_ROUTE_CMD. -/
def HOP_ROUTE_CMD_op : Fld := ⟨.HOP_ROUTE_CMD, 0, 2⟩
/-- R309 11: `done` of HOP_ROUTE_STATUS. -/
def HOP_ROUTE_STATUS_done : Fld := ⟨.HOP_ROUTE_STATUS, 0, 1⟩
/-- R309 11: `refused` of HOP_ROUTE_STATUS. -/
def HOP_ROUTE_STATUS_refused : Fld := ⟨.HOP_ROUTE_STATUS, 1, 1⟩
/-- R309 11: `reason` of HOP_ROUTE_STATUS. -/
def HOP_ROUTE_STATUS_reason : Fld := ⟨.HOP_ROUTE_STATUS, 2, 2⟩
/-- R309 11: `entries` of HOP_ROUTE_STATUS. -/
def HOP_ROUTE_STATUS_entries : Fld := ⟨.HOP_ROUTE_STATUS, 4, 28⟩
/-- R309 11: `entries` of HOP_WX_CMD. -/
def HOP_WX_CMD_entries : Fld := ⟨.HOP_WX_CMD, 0, 15⟩
/-- R309 11: `go` of HOP_WX_CMD. -/
def HOP_WX_CMD_go : Fld := ⟨.HOP_WX_CMD, 31, 1⟩
/-- R309 11: `count` of HOP_FWD. -/
def HOP_FWD : Fld := ⟨.HOP_FWD, 0, 64⟩
/-- R309 11: `count` of HOP_DROP_NOROUTE. -/
def HOP_DROP_NOROUTE : Fld := ⟨.HOP_DROP_NOROUTE, 0, 64⟩
/-- R309 11: `count` of HOP_DROP_HOPS. -/
def HOP_DROP_HOPS : Fld := ⟨.HOP_DROP_HOPS, 0, 64⟩
/-- R309 11: `count` of HOP_DROP_AGE. -/
def HOP_DROP_AGE : Fld := ⟨.HOP_DROP_AGE, 0, 64⟩
/-- R309 11: `count` of HOP_DROP_FULL. -/
def HOP_DROP_FULL : Fld := ⟨.HOP_DROP_FULL, 0, 64⟩
/-- R309 11: `count` of HOP_DROP_DOWN. -/
def HOP_DROP_DOWN : Fld := ⟨.HOP_DROP_DOWN, 0, 64⟩
/-- R309 11: `count` of HOP_DROP_OVERSIZE. -/
def HOP_DROP_OVERSIZE : Fld := ⟨.HOP_DROP_OVERSIZE, 0, 64⟩
/-- R309 11: `count` of HOP_STOMP. -/
def HOP_STOMP : Fld := ⟨.HOP_STOMP, 0, 64⟩
/-- R309 11: `count` of HOP_REPLAY. -/
def HOP_REPLAY : Fld := ⟨.HOP_REPLAY, 0, 64⟩
/-- R309 11: `count` of HOP_NAK_SENT. -/
def HOP_NAK_SENT : Fld := ⟨.HOP_NAK_SENT, 0, 64⟩
/-- R309 11: `count` of HOP_SHIM_BAD. -/
def HOP_SHIM_BAD : Fld := ⟨.HOP_SHIM_BAD, 0, 64⟩
/-- R309 11: `count` of HOP_LINK_FAIL. -/
def HOP_LINK_FAIL : Fld := ⟨.HOP_LINK_FAIL, 0, 64⟩
/-- R309 11: `count` of HOP_ECN_MARK. -/
def HOP_ECN_MARK : Fld := ⟨.HOP_ECN_MARK, 0, 64⟩
/-- R309 11: `count` of WX_REPORT_SENT. -/
def WX_REPORT_SENT : Fld := ⟨.WX_REPORT_SENT, 0, 64⟩
/-- R309 11: `count` of WX_IGNORED. -/
def WX_IGNORED : Fld := ⟨.WX_IGNORED, 0, 64⟩
/-- R309 11: `count` of WX_EXPIRED. -/
def WX_EXPIRED : Fld := ⟨.WX_EXPIRED, 0, 64⟩
/-- R326 12: `state` of HPT_INST_STATE. -/
def HPT_INST_STATE_state : Fld := ⟨.HPT_INST_STATE, 0, 2⟩
/-- R326 12: `link` of HPT_INST_STATE. -/
def HPT_INST_STATE_link : Fld := ⟨.HPT_INST_STATE, 2, 4⟩
/-- R326 12: `held_lost` of HPT_INST_STATE. -/
def HPT_INST_STATE_held_lost : Fld := ⟨.HPT_INST_STATE, 6, 1⟩
/-- R326 12: `held_count` of HPT_INST_STATE. -/
def HPT_INST_STATE_held_count : Fld := ⟨.HPT_INST_STATE, 8, 12⟩
/-- R326 12: `token` of HPT_ATTACH_TOKEN. -/
def HPT_ATTACH_TOKEN_token : Fld := ⟨.HPT_ATTACH_TOKEN, 0, 64⟩
/-- R326 12: `op` of HPT_ATTACH_CMD. -/
def HPT_ATTACH_CMD_op : Fld := ⟨.HPT_ATTACH_CMD, 0, 3⟩
/-- R326 12: `done` of HPT_ATTACH_STATUS. -/
def HPT_ATTACH_STATUS_done : Fld := ⟨.HPT_ATTACH_STATUS, 0, 1⟩
/-- R326 12: `refused` of HPT_ATTACH_STATUS. -/
def HPT_ATTACH_STATUS_refused : Fld := ⟨.HPT_ATTACH_STATUS, 1, 1⟩
/-- R326 12: `reason` of HPT_ATTACH_STATUS. -/
def HPT_ATTACH_STATUS_reason : Fld := ⟨.HPT_ATTACH_STATUS, 4, 4⟩
/-- R326 12: `token` of HPT_TOKEN. -/
def HPT_TOKEN_token : Fld := ⟨.HPT_TOKEN, 0, 64⟩
/-- R326 12: `ap_tag` of HPT_APERTURE. -/
def HPT_APERTURE_ap_tag : Fld := ⟨.HPT_APERTURE, 0, 12⟩
/-- R326 12: `ap_enable` of HPT_APERTURE. -/
def HPT_APERTURE_ap_enable : Fld := ⟨.HPT_APERTURE, 12, 1⟩
/-- R326 12: `ap_base` of HPT_APERTURE. -/
def HPT_APERTURE_ap_base : Fld := ⟨.HPT_APERTURE, 34, 30⟩
/-- R327 12: `state` of HPT_LINK_w00. -/
def HPT_LINK_state : Fld := ⟨.HPT_LINK_w00, 0, 2⟩
/-- R327 12: `role` of HPT_LINK_w00. -/
def HPT_LINK_role : Fld := ⟨.HPT_LINK_w00, 2, 1⟩
/-- R327 12: `gen` of HPT_LINK_w00. -/
def HPT_LINK_gen : Fld := ⟨.HPT_LINK_w00, 3, 3⟩
/-- R327 12: `width` of HPT_LINK_w00. -/
def HPT_LINK_width : Fld := ⟨.HPT_LINK_w00, 6, 5⟩
/-- R327 12: `cpl_timeout_ms` of HPT_LINK_w04. -/
def HPT_LINK_cpl_timeout_ms : Fld := ⟨.HPT_LINK_w04, 0, 10⟩
/-- R327 12: `rate_mbs` of HPT_LINK_w08. -/
def HPT_LINK_rate_mbs : Fld := ⟨.HPT_LINK_w08, 0, 18⟩
/-- R327 12: `count` of HPT_FENCE. -/
def HPT_FENCE : Fld := ⟨.HPT_FENCE, 0, 64⟩
/-- R327 12: `count` of HPT_WR_DROP. -/
def HPT_WR_DROP : Fld := ⟨.HPT_WR_DROP, 0, 64⟩
/-- R327 12: `count` of HPT_RD_LOST. -/
def HPT_RD_LOST : Fld := ⟨.HPT_RD_LOST, 0, 64⟩
/-- R327 12: `count` of HPT_FLR. -/
def HPT_FLR : Fld := ⟨.HPT_FLR, 0, 64⟩
/-- R327 12: `count` of HPT_UR. -/
def HPT_UR : Fld := ⟨.HPT_UR, 0, 64⟩
/-- R327 12: `count` of HPT_CPL_TIMEOUT. -/
def HPT_CPL_TIMEOUT : Fld := ⟨.HPT_CPL_TIMEOUT, 0, 64⟩
/-- R327 12: `count` of HPT_RETRAIN. -/
def HPT_RETRAIN : Fld := ⟨.HPT_RETRAIN, 0, 64⟩
/-- R327 12: `count` of HPT_INBOUND_FAULT. -/
def HPT_INBOUND_FAULT : Fld := ⟨.HPT_INBOUND_FAULT, 0, 64⟩
/-- R327 12: `count` of HPT_ATTACH_REFUSED. -/
def HPT_ATTACH_REFUSED : Fld := ⟨.HPT_ATTACH_REFUSED, 0, 64⟩
/-- R327 12: `rid` of HPT_RP_RID. -/
def HPT_RP_RID_rid : Fld := ⟨.HPT_RP_RID, 0, 16⟩
/-- R327 12: `vf` of HPT_RP_RID. -/
def HPT_RP_RID_vf : Fld := ⟨.HPT_RP_RID, 16, 10⟩
/-- R327 12: `tag` of HPT_RP_RID. -/
def HPT_RP_RID_tag : Fld := ⟨.HPT_RP_RID, 26, 12⟩
/-- R327 12: `valid` of HPT_RP_RID. -/
def HPT_RP_RID_valid : Fld := ⟨.HPT_RP_RID, 38, 1⟩
/-- R351 13: `hold_us` of XLT_CFG. -/
def XLT_CFG_hold_us : Fld := ⟨.XLT_CFG, 0, 17⟩
/-- R351 13: `batch_us` of XLT_CFG. -/
def XLT_CFG_batch_us : Fld := ⟨.XLT_CFG, 17, 7⟩
/-- R351 13: `leaf_resident` of XLT_CACHE. -/
def XLT_CACHE_leaf_resident : Fld := ⟨.XLT_CACHE, 0, 17⟩
/-- R351 13: `ptr_resident` of XLT_CACHE. -/
def XLT_CACHE_ptr_resident : Fld := ⟨.XLT_CACHE, 17, 15⟩
/-- R351 13: `walks` of XLT_CACHE. -/
def XLT_CACHE_walks : Fld := ⟨.XLT_CACHE, 32, 7⟩
/-- R351 13: `count` of XLT_LOOKUP. -/
def XLT_LOOKUP : Fld := ⟨.XLT_LOOKUP, 0, 64⟩
/-- R351 13: `count` of XLT_HIT. -/
def XLT_HIT : Fld := ⟨.XLT_HIT, 0, 64⟩
/-- R351 13: `count` of XLT_WALK. -/
def XLT_WALK : Fld := ⟨.XLT_WALK, 0, 64⟩
/-- R351 13: `count` of XLT_FAULT. -/
def XLT_FAULT : Fld := ⟨.XLT_FAULT, 0, 64⟩
/-- R351 13: `count` of XLT_VIOLATION. -/
def XLT_VIOLATION : Fld := ⟨.XLT_VIOLATION, 0, 64⟩
/-- R351 13: `count` of XLT_FQ_OVERFLOW. -/
def XLT_FQ_OVERFLOW : Fld := ⟨.XLT_FQ_OVERFLOW, 0, 64⟩
/-- R351 13: `count` of XLT_EQ_OVERFLOW. -/
def XLT_EQ_OVERFLOW : Fld := ⟨.XLT_EQ_OVERFLOW, 0, 64⟩
/-- R351 13: `count` of XLT_HOLD_EXPIRED. -/
def XLT_HOLD_EXPIRED : Fld := ⟨.XLT_HOLD_EXPIRED, 0, 64⟩
/-- R351 13: `count` of XLT_INVAL. -/
def XLT_INVAL : Fld := ⟨.XLT_INVAL, 0, 64⟩
/-- R351 13: `count` of XLT_PIN_LOST. -/
def XLT_PIN_LOST : Fld := ⟨.XLT_PIN_LOST, 0, 64⟩
/-- R351 13: `count` of XLT_RESOLVE. -/
def XLT_RESOLVE : Fld := ⟨.XLT_RESOLVE, 0, 64⟩
/-- R351 13: `tag_limit` of XLT_PTN_CFG. -/
def XLT_PTN_CFG_tag_limit : Fld := ⟨.XLT_PTN_CFG, 0, 12⟩
/-- R351 13: `tags_held` of XLT_PTN_CFG. -/
def XLT_PTN_CFG_tags_held : Fld := ⟨.XLT_PTN_CFG, 12, 12⟩
/-- R351 13: `q_vf` of XLT_PTN_CFG. -/
def XLT_PTN_CFG_q_vf : Fld := ⟨.XLT_PTN_CFG, 24, 10⟩
/-- R351 13: `q_bound` of XLT_PTN_CFG. -/
def XLT_PTN_CFG_q_bound : Fld := ⟨.XLT_PTN_CFG, 34, 1⟩
/-- R351 13: `overflow` of XLT_PTN_CFG. -/
def XLT_PTN_CFG_overflow : Fld := ⟨.XLT_PTN_CFG, 35, 16⟩
/-- R351 13: `inval_open` of XLT_PTN_CFG. -/
def XLT_PTN_CFG_inval_open : Fld := ⟨.XLT_PTN_CFG, 51, 7⟩
/-- R351 13: `state` of XLT_TAG. -/
def XLT_TAG_state : Fld := ⟨.XLT_TAG, 0, 2⟩
/-- R351 13: `vf` of XLT_TAG. -/
def XLT_TAG_vf : Fld := ⟨.XLT_TAG, 2, 10⟩
/-- R351 13: `partition` of XLT_TAG. -/
def XLT_TAG_partition : Fld := ⟨.XLT_TAG, 12, 6⟩
/-- R351 13: `remote_ok` of XLT_TAG. -/
def XLT_TAG_remote_ok : Fld := ⟨.XLT_TAG, 18, 1⟩
/-- R351 13: `draining` of XLT_TAG. -/
def XLT_TAG_draining : Fld := ⟨.XLT_TAG, 19, 1⟩
/-- R351 13: `generation` of XLT_TAG. -/
def XLT_TAG_generation : Fld := ⟨.XLT_TAG, 20, 16⟩
/-- R351 13: `old_in_use` of XLT_TAG. -/
def XLT_TAG_old_in_use : Fld := ⟨.XLT_TAG, 36, 16⟩
/-- R373 14: `ce_limit` of LRD_CFG. -/
def LRD_CFG_ce_limit : Fld := ⟨.LRD_CFG, 0, 16⟩
/-- R373 14: `scrub_min` of LRD_CFG. -/
def LRD_CFG_scrub_min : Fld := ⟨.LRD_CFG, 16, 11⟩
/-- R373 14: `bank` of LRD_SPARE_MAP. -/
def LRD_SPARE_MAP_bank : Fld := ⟨.LRD_SPARE_MAP, 0, 8⟩
/-- R373 14: `spare` of LRD_SPARE_MAP. -/
def LRD_SPARE_MAP_spare : Fld := ⟨.LRD_SPARE_MAP, 8, 3⟩
/-- R373 14: `go` of LRD_SPARE_MAP. -/
def LRD_SPARE_MAP_go : Fld := ⟨.LRD_SPARE_MAP, 31, 1⟩
/-- R373 14: `bank` of LRD_RETIRE. -/
def LRD_RETIRE_bank : Fld := ⟨.LRD_RETIRE, 0, 8⟩
/-- R373 14: `go` of LRD_RETIRE. -/
def LRD_RETIRE_go : Fld := ⟨.LRD_RETIRE, 31, 1⟩
/-- R373 14: `free` of LRD_SPARE_STATE. -/
def LRD_SPARE_STATE_free : Fld := ⟨.LRD_SPARE_STATE, 0, 8⟩
/-- R373 14: `bad` of LRD_SPARE_STATE. -/
def LRD_SPARE_STATE_bad : Fld := ⟨.LRD_SPARE_STATE, 8, 8⟩
/-- R373 14: `state` of LRD_CELLAR. -/
def LRD_CELLAR_state : Fld := ⟨.LRD_CELLAR, 0, 2⟩
/-- R373 14: `permille` of LRD_CELLAR. -/
def LRD_CELLAR_permille : Fld := ⟨.LRD_CELLAR, 2, 10⟩
/-- R373 14: `wipes` of LRD_CELLAR. -/
def LRD_CELLAR_wipes : Fld := ⟨.LRD_CELLAR, 16, 16⟩
/-- R373 14: `permille` of LRD_SCRUB. -/
def LRD_SCRUB_permille : Fld := ⟨.LRD_SCRUB, 0, 10⟩
/-- R373 14: `kib` of LRD_SCRUB. -/
def LRD_SCRUB_kib : Fld := ⟨.LRD_SCRUB, 32, 18⟩
/-- R373 14: `state` of LRD_BANK. -/
def LRD_BANK_state : Fld := ⟨.LRD_BANK, 0, 3⟩
/-- R373 14: `phys` of LRD_BANK. -/
def LRD_BANK_phys : Fld := ⟨.LRD_BANK, 8, 9⟩
/-- R373 14: `ce_1s` of LRD_BANK. -/
def LRD_BANK_ce_1s : Fld := ⟨.LRD_BANK, 17, 15⟩
/-- R373 14: `count` of LRD_CE. -/
def LRD_CE : Fld := ⟨.LRD_CE, 0, 64⟩
/-- R373 14: `count` of LRD_UE. -/
def LRD_UE : Fld := ⟨.LRD_UE, 0, 64⟩
/-- R373 14: `count` of LRD_POISON_READ. -/
def LRD_POISON_READ : Fld := ⟨.LRD_POISON_READ, 0, 64⟩
/-- R373 14: `count` of LRD_RW_FORWARD. -/
def LRD_RW_FORWARD : Fld := ⟨.LRD_RW_FORWARD, 0, 64⟩
/-- R373 14: `count` of LRD_BLK_RESEND. -/
def LRD_BLK_RESEND : Fld := ⟨.LRD_BLK_RESEND, 0, 64⟩
/-- R373 14: `count` of LRD_BLK_ESCALATE. -/
def LRD_BLK_ESCALATE : Fld := ⟨.LRD_BLK_ESCALATE, 0, 64⟩
/-- R373 14: `count` of LRD_SCRUB_PASS. -/
def LRD_SCRUB_PASS : Fld := ⟨.LRD_SCRUB_PASS, 0, 64⟩
/-- R374 14: `scrub_h` of HBM_CFG. -/
def HBM_CFG_scrub_h : Fld := ⟨.HBM_CFG, 0, 8⟩
/-- R374 14: `scrub_h` of DDR_CFG. -/
def DDR_CFG_scrub_h : Fld := ⟨.DDR_CFG, 0, 8⟩
/-- R374 14: `gib` of HBM_CAP. -/
def HBM_CAP_gib : Fld := ⟨.HBM_CAP, 0, 12⟩
/-- R374 14: `zeroed_free` of HBM_CAP. -/
def HBM_CAP_zeroed_free : Fld := ⟨.HBM_CAP, 16, 12⟩
/-- R374 14: `gib` of DDR_CAP. -/
def DDR_CAP_gib : Fld := ⟨.DDR_CAP, 0, 12⟩
/-- R374 14: `zeroed_free` of DDR_CAP. -/
def DDR_CAP_zeroed_free : Fld := ⟨.DDR_CAP, 16, 12⟩
/-- R374 14: `in_service` of HBM_STACK. -/
def HBM_STACK_in_service : Fld := ⟨.HBM_STACK, 0, 32⟩
/-- R374 14: `temp_c` of HBM_STACK. -/
def HBM_STACK_temp_c : Fld := ⟨.HBM_STACK, 32, 8⟩
/-- R374 14: `hot` of HBM_STACK. -/
def HBM_STACK_hot : Fld := ⟨.HBM_STACK, 40, 1⟩
/-- R374 14: `lanes_repaired` of HBM_STACK. -/
def HBM_STACK_lanes_repaired : Fld := ⟨.HBM_STACK, 41, 6⟩
/-- R374 14: `state` of DDR_CH. -/
def DDR_CH_state : Fld := ⟨.DDR_CH, 0, 2⟩
/-- R374 14: `mrdimm` of DDR_CH. -/
def DDR_CH_mrdimm : Fld := ⟨.DDR_CH, 2, 1⟩
/-- R374 14: `mts` of DDR_CH. -/
def DDR_CH_mts : Fld := ⟨.DDR_CH, 4, 14⟩
/-- R374 14: `gib` of DDR_CH. -/
def DDR_CH_gib : Fld := ⟨.DDR_CH, 18, 9⟩
/-- R374 14: `ranks` of DDR_CH. -/
def DDR_CH_ranks : Fld := ⟨.DDR_CH, 32, 4⟩
/-- R374 14: `permille` of HBM_SCRUB. -/
def HBM_SCRUB_permille : Fld := ⟨.HBM_SCRUB, 0, 10⟩
/-- R374 14: `mib` of HBM_SCRUB. -/
def HBM_SCRUB_mib : Fld := ⟨.HBM_SCRUB, 32, 21⟩
/-- R374 14: `permille` of DDR_SCRUB. -/
def DDR_SCRUB_permille : Fld := ⟨.DDR_SCRUB, 0, 10⟩
/-- R374 14: `mib` of DDR_SCRUB. -/
def DDR_SCRUB_mib : Fld := ⟨.DDR_SCRUB, 32, 21⟩
/-- R374 14: `count` of HBM_CE. -/
def HBM_CE : Fld := ⟨.HBM_CE, 0, 64⟩
/-- R374 14: `count` of HBM_UE. -/
def HBM_UE : Fld := ⟨.HBM_UE, 0, 64⟩
/-- R374 14: `count` of HBM_REREAD_OK. -/
def HBM_REREAD_OK : Fld := ⟨.HBM_REREAD_OK, 0, 64⟩
/-- R374 14: `count` of HBM_POISON_READ. -/
def HBM_POISON_READ : Fld := ⟨.HBM_POISON_READ, 0, 64⟩
/-- R374 14: `count` of HBM_LANE_REPAIR. -/
def HBM_LANE_REPAIR : Fld := ⟨.HBM_LANE_REPAIR, 0, 64⟩
/-- R374 14: `count` of HBM_RECAL. -/
def HBM_RECAL : Fld := ⟨.HBM_RECAL, 0, 64⟩
/-- R374 14: `count` of HBM_WR_DROP. -/
def HBM_WR_DROP : Fld := ⟨.HBM_WR_DROP, 0, 64⟩
/-- R374 14: `count` of DDR_CE. -/
def DDR_CE : Fld := ⟨.DDR_CE, 0, 64⟩
/-- R374 14: `count` of DDR_UE. -/
def DDR_UE : Fld := ⟨.DDR_UE, 0, 64⟩
/-- R374 14: `count` of DDR_REREAD_OK. -/
def DDR_REREAD_OK : Fld := ⟨.DDR_REREAD_OK, 0, 64⟩
/-- R374 14: `count` of DDR_POISON_READ. -/
def DDR_POISON_READ : Fld := ⟨.DDR_POISON_READ, 0, 64⟩
/-- R374 14: `count` of DDR_PPR. -/
def DDR_PPR : Fld := ⟨.DDR_PPR, 0, 64⟩
/-- R374 14: `count` of DDR_RECAL. -/
def DDR_RECAL : Fld := ⟨.DDR_RECAL, 0, 64⟩
/-- R374 14: `count` of DDR_WR_DROP. -/
def DDR_WR_DROP : Fld := ⟨.DDR_WR_DROP, 0, 64⟩
/-- R391 15: `state` of PTN_PART_w0. -/
def PTN_PART_state : Fld := ⟨.PTN_PART_w0, 0, 3⟩
/-- R391 15: `halted` of PTN_PART_w0. -/
def PTN_PART_halted : Fld := ⟨.PTN_PART_w0, 3, 1⟩
/-- R391 15: `instances` of PTN_PART_w0. -/
def PTN_PART_instances : Fld := ⟨.PTN_PART_w0, 4, 11⟩
/-- R391 15: `rings_alloc` of PTN_PART_w4. -/
def PTN_PART_rings_alloc : Fld := ⟨.PTN_PART_w4, 0, 16⟩
/-- R391 15: `pin_alloc` of PTN_PART_w4. -/
def PTN_PART_pin_alloc : Fld := ⟨.PTN_PART_w4, 16, 15⟩
/-- R391 15: `ctx_alloc` of PTN_PART_w8. -/
def PTN_PART_ctx_alloc : Fld := ⟨.PTN_PART_w8, 0, 21⟩
/-- R391 15: `key_alloc` of PTN_PART_wC. -/
def PTN_PART_key_alloc : Fld := ⟨.PTN_PART_wC, 0, 17⟩
/-- R391 15: `vf` of PTN_TOKEN_SEL. -/
def PTN_TOKEN_SEL_vf : Fld := ⟨.PTN_TOKEN_SEL, 0, 10⟩
/-- R391 15: `token` of PTN_TOKEN_READ. -/
def PTN_TOKEN_READ_token : Fld := ⟨.PTN_TOKEN_READ, 0, 64⟩
/-- R391 15: `count` of PTN_CREATED. -/
def PTN_CREATED : Fld := ⟨.PTN_CREATED, 0, 64⟩
/-- R391 15: `count` of PTN_QUIESCE. -/
def PTN_QUIESCE : Fld := ⟨.PTN_QUIESCE, 0, 64⟩
/-- R391 15: `count` of PTN_DRAIN_TIMEOUT. -/
def PTN_DRAIN_TIMEOUT : Fld := ⟨.PTN_DRAIN_TIMEOUT, 0, 64⟩
/-- R391 15: `count` of PTN_CTX_RESET_OPS. -/
def PTN_CTX_RESET_OPS : Fld := ⟨.PTN_CTX_RESET_OPS, 0, 64⟩
/-- R391 15: `count` of PTN_FENCE_NAK. -/
def PTN_FENCE_NAK : Fld := ⟨.PTN_FENCE_NAK, 0, 64⟩
/-- R391 15: `count` of PTN_FENCE_DROP. -/
def PTN_FENCE_DROP : Fld := ⟨.PTN_FENCE_DROP, 0, 64⟩
/-- R391 15: `count` of PTN_RESET_REFUSED. -/
def PTN_RESET_REFUSED : Fld := ⟨.PTN_RESET_REFUSED, 0, 64⟩
/-- R391 15: `state` of PTN_INST_w00. -/
def PTN_INST_state : Fld := ⟨.PTN_INST_w00, 0, 3⟩
/-- R391 15: `partition` of PTN_INST_w00. -/
def PTN_INST_partition : Fld := ⟨.PTN_INST_w00, 3, 6⟩
/-- R391 15: `class_mask` of PTN_INST_w00. -/
def PTN_INST_class_mask : Fld := ⟨.PTN_INST_w00, 9, 7⟩
/-- R391 15: `host_mask` of PTN_INST_w00. -/
def PTN_INST_host_mask : Fld := ⟨.PTN_INST_w00, 16, 4⟩
/-- R391 15: `rings` of PTN_INST_w04. -/
def PTN_INST_rings : Fld := ⟨.PTN_INST_w04, 0, 13⟩
/-- R391 15: `ctx_pin` of PTN_INST_w04. -/
def PTN_INST_ctx_pin : Fld := ⟨.PTN_INST_w04, 13, 15⟩
/-- R391 15: `ctx_backed` of PTN_INST_w08. -/
def PTN_INST_ctx_backed : Fld := ⟨.PTN_INST_w08, 0, 21⟩
/-- R391 15: `key_slots` of PTN_INST_w0C. -/
def PTN_INST_key_slots : Fld := ⟨.PTN_INST_w0C, 0, 17⟩
/-- R391 15: `pool_cap` of PTN_INST_w10. -/
def PTN_INST_pool_cap : Fld := ⟨.PTN_INST_w10, 0, 12⟩
/-- R391 15: `staging_cap` of PTN_INST_w10. -/
def PTN_INST_staging_cap : Fld := ⟨.PTN_INST_w10, 12, 10⟩
/-- R391 15: `wfq_weight` of PTN_INST_w14. -/
def PTN_INST_wfq_weight : Fld := ⟨.PTN_INST_w14, 0, 16⟩
/-- R391 15: `rate_mbps` of PTN_INST_w18. -/
def PTN_INST_rate_mbps : Fld := ⟨.PTN_INST_w18, 0, 24⟩
/-- R391 15: `burst_kib` of PTN_INST_w1C. -/
def PTN_INST_burst_kib : Fld := ⟨.PTN_INST_w1C, 0, 17⟩
/-- R415 16: `egress_cores` of CPH_CFG. -/
def CPH_CFG_egress_cores : Fld := ⟨.CPH_CFG, 0, 4⟩
/-- R415 16: `key_word` of CPH_KEY_LOAD. -/
def CPH_KEY_LOAD_key_word : Fld := ⟨.CPH_KEY_LOAD, 0, 32⟩
/-- R415 16: `salt` of CPH_KEY_SALT. -/
def CPH_KEY_SALT_salt : Fld := ⟨.CPH_KEY_SALT, 0, 32⟩
/-- R415 16: `slot` of CPH_KEY_CTL. -/
def CPH_KEY_CTL_slot : Fld := ⟨.CPH_KEY_CTL, 0, 16⟩
/-- R415 16: `vf` of CPH_KEY_CTL. -/
def CPH_KEY_CTL_vf : Fld := ⟨.CPH_KEY_CTL, 16, 10⟩
/-- R415 16: `dir` of CPH_KEY_CTL. -/
def CPH_KEY_CTL_dir : Fld := ⟨.CPH_KEY_CTL, 26, 1⟩
/-- R415 16: `dev_salt` of CPH_KEY_CTL. -/
def CPH_KEY_CTL_dev_salt : Fld := ⟨.CPH_KEY_CTL, 27, 1⟩
/-- R415 16: `ctr_log2` of CPH_KEY_CMD. -/
def CPH_KEY_CMD_ctr_log2 : Fld := ⟨.CPH_KEY_CMD, 0, 7⟩
/-- R415 16: `op` of CPH_KEY_CMD. -/
def CPH_KEY_CMD_op : Fld := ⟨.CPH_KEY_CMD, 8, 3⟩
/-- R415 16: `busy` of CPH_KEY_STATUS. -/
def CPH_KEY_STATUS_busy : Fld := ⟨.CPH_KEY_STATUS, 0, 1⟩
/-- R415 16: `done` of CPH_KEY_STATUS. -/
def CPH_KEY_STATUS_done : Fld := ⟨.CPH_KEY_STATUS, 1, 1⟩
/-- R415 16: `refused` of CPH_KEY_STATUS. -/
def CPH_KEY_STATUS_refused : Fld := ⟨.CPH_KEY_STATUS, 2, 1⟩
/-- R415 16: `reason` of CPH_KEY_STATUS. -/
def CPH_KEY_STATUS_reason : Fld := ⟨.CPH_KEY_STATUS, 8, 4⟩
/-- R415 16: `staged` of CPH_KEY_STATUS. -/
def CPH_KEY_STATUS_staged : Fld := ⟨.CPH_KEY_STATUS, 12, 8⟩
/-- R415 16: `permille` of CPH_KEY_STATUS. -/
def CPH_KEY_STATUS_permille : Fld := ⟨.CPH_KEY_STATUS, 20, 10⟩
/-- R415 16: `slot` of CPH_SLOT_SEL. -/
def CPH_SLOT_SEL_slot : Fld := ⟨.CPH_SLOT_SEL, 0, 16⟩
/-- R415 16: `state` of CPH_SLOT_INFO. -/
def CPH_SLOT_INFO_state : Fld := ⟨.CPH_SLOT_INFO, 0, 2⟩
/-- R415 16: `dir` of CPH_SLOT_INFO. -/
def CPH_SLOT_INFO_dir : Fld := ⟨.CPH_SLOT_INFO, 2, 1⟩
/-- R415 16: `low` of CPH_SLOT_INFO. -/
def CPH_SLOT_INFO_low : Fld := ⟨.CPH_SLOT_INFO, 3, 1⟩
/-- R415 16: `vf` of CPH_SLOT_INFO. -/
def CPH_SLOT_INFO_vf : Fld := ⟨.CPH_SLOT_INFO, 4, 10⟩
/-- R415 16: `ctr_log2` of CPH_SLOT_INFO. -/
def CPH_SLOT_INFO_ctr_log2 : Fld := ⟨.CPH_SLOT_INFO, 14, 7⟩
/-- R415 16: `dev_salt` of CPH_SLOT_INFO. -/
def CPH_SLOT_INFO_dev_salt : Fld := ⟨.CPH_SLOT_INFO, 21, 1⟩
/-- R415 16: `salt` of CPH_SLOT_INFO. -/
def CPH_SLOT_INFO_salt : Fld := ⟨.CPH_SLOT_INFO, 32, 32⟩
/-- R415 16: `next` of CPH_SLOT_CTR. -/
def CPH_SLOT_CTR_next : Fld := ⟨.CPH_SLOT_CTR, 0, 64⟩
/-- R415 16: `tag_fail` of CPH_SLOT_FAIL. -/
def CPH_SLOT_FAIL_tag_fail : Fld := ⟨.CPH_SLOT_FAIL, 0, 16⟩
/-- R415 16: `retired_unit` of CPH_SPARE_MAP. -/
def CPH_SPARE_MAP_retired_unit : Fld := ⟨.CPH_SPARE_MAP, 0, 5⟩
/-- R415 16: `spare_unit` of CPH_SPARE_MAP. -/
def CPH_SPARE_MAP_spare_unit : Fld := ⟨.CPH_SPARE_MAP, 8, 5⟩
/-- R415 16: `go` of CPH_SPARE_MAP. -/
def CPH_SPARE_MAP_go : Fld := ⟨.CPH_SPARE_MAP, 31, 1⟩
/-- R415 16: `state` of CPH_CORE_STATE. -/
def CPH_CORE_STATE_state : Fld := ⟨.CPH_CORE_STATE, 0, 2⟩
/-- R415 16: `egress` of CPH_CORE_STATE. -/
def CPH_CORE_STATE_egress : Fld := ⟨.CPH_CORE_STATE, 2, 1⟩
/-- R415 16: `count` of CPH_ENC_PKTS. -/
def CPH_ENC_PKTS : Fld := ⟨.CPH_ENC_PKTS, 0, 64⟩
/-- R415 16: `count` of CPH_DEC_PKTS. -/
def CPH_DEC_PKTS : Fld := ⟨.CPH_DEC_PKTS, 0, 64⟩
/-- R415 16: `count` of CPH_TAG_FAIL. -/
def CPH_TAG_FAIL : Fld := ⟨.CPH_TAG_FAIL, 0, 64⟩
/-- R415 16: `count` of CPH_EXHAUSTED. -/
def CPH_EXHAUSTED : Fld := ⟨.CPH_EXHAUSTED, 0, 64⟩
/-- R415 16: `count` of CPH_CORE_ERR. -/
def CPH_CORE_ERR : Fld := ⟨.CPH_CORE_ERR, 0, 64⟩
/-- R415 16: `count` of CPH_WIPES. -/
def CPH_WIPES : Fld := ⟨.CPH_WIPES, 0, 64⟩
/-- R416 16: `state` of TRU_LC. -/
def TRU_LC_state : Fld := ⟨.TRU_LC, 0, 3⟩
/-- R416 16: `returns` of TRU_LC. -/
def TRU_LC_returns : Fld := ⟨.TRU_LC, 3, 2⟩
/-- R416 16: `inj_unlocked` of TRU_LC. -/
def TRU_LC_inj_unlocked : Fld := ⟨.TRU_LC, 5, 1⟩
/-- R416 16: `rng_failed` of TRU_LC. -/
def TRU_LC_rng_failed : Fld := ⟨.TRU_LC, 6, 1⟩
/-- R416 16: `cellar_failed` of TRU_LC. -/
def TRU_LC_cellar_failed : Fld := ⟨.TRU_LC, 7, 1⟩
/-- R416 16: `op` of TRU_CMD. -/
def TRU_CMD_op : Fld := ⟨.TRU_CMD, 0, 4⟩
/-- R416 16: `key` of TRU_CMD. -/
def TRU_CMD_key : Fld := ⟨.TRU_CMD, 4, 3⟩
/-- R416 16: `confirm` of TRU_CMD. -/
def TRU_CMD_confirm : Fld := ⟨.TRU_CMD, 8, 8⟩
/-- R416 16: `busy` of TRU_STATUS. -/
def TRU_STATUS_busy : Fld := ⟨.TRU_STATUS, 0, 1⟩
/-- R416 16: `done` of TRU_STATUS. -/
def TRU_STATUS_done : Fld := ⟨.TRU_STATUS, 1, 1⟩
/-- R416 16: `refused` of TRU_STATUS. -/
def TRU_STATUS_refused : Fld := ⟨.TRU_STATUS, 2, 1⟩
/-- R416 16: `reason` of TRU_STATUS. -/
def TRU_STATUS_reason : Fld := ⟨.TRU_STATUS, 8, 4⟩
/-- R416 16: `fw_reason` of TRU_BOOT. -/
def TRU_BOOT_fw_reason : Fld := ⟨.TRU_BOOT, 0, 4⟩
/-- R416 16: `fw_slot` of TRU_BOOT. -/
def TRU_BOOT_fw_slot : Fld := ⟨.TRU_BOOT, 4, 1⟩
/-- R416 16: `fw_rollback` of TRU_BOOT. -/
def TRU_BOOT_fw_rollback : Fld := ⟨.TRU_BOOT, 8, 8⟩
/-- R416 16: `fw_floor` of TRU_BOOT. -/
def TRU_BOOT_fw_floor : Fld := ⟨.TRU_BOOT, 16, 8⟩
/-- R416 16: `revoked` of TRU_BOOT. -/
def TRU_BOOT_revoked : Fld := ⟨.TRU_BOOT, 24, 8⟩
/-- R416 16: `enable` of TRU_TAMPER_CFG. -/
def TRU_TAMPER_CFG_enable : Fld := ⟨.TRU_TAMPER_CFG, 0, 4⟩
/-- R416 16: `polarity` of TRU_TAMPER_CFG. -/
def TRU_TAMPER_CFG_polarity : Fld := ⟨.TRU_TAMPER_CFG, 4, 4⟩
/-- R416 16: `level` of TRU_TAMPER_STATE. -/
def TRU_TAMPER_STATE_level : Fld := ⟨.TRU_TAMPER_STATE, 0, 4⟩
/-- R416 16: `latched` of TRU_TAMPER_STATE. -/
def TRU_TAMPER_STATE_latched : Fld := ⟨.TRU_TAMPER_STATE, 8, 4⟩
/-- R416 16: `count` of TRU_TAMPER_STATE. -/
def TRU_TAMPER_STATE_count : Fld := ⟨.TRU_TAMPER_STATE, 16, 16⟩
/-- R431 17: `cmd_timeout_ms` of CKP_CFG. -/
def CKP_CFG_cmd_timeout_ms : Fld := ⟨.CKP_CFG, 0, 16⟩
/-- R431 17: `io_retries` of CKP_CFG. -/
def CKP_CFG_io_retries : Fld := ⟨.CKP_CFG, 16, 3⟩
/-- R431 17: `reconnects` of CKP_CFG. -/
def CKP_CFG_reconnects : Fld := ⟨.CKP_CFG, 19, 5⟩
/-- R431 17: `keepalive_s` of CKP_CFG. -/
def CKP_CFG_keepalive_s : Fld := ⟨.CKP_CFG, 24, 8⟩
/-- R431 17: `target` of CKP_TGT_SEL. -/
def CKP_TGT_SEL_target : Fld := ⟨.CKP_TGT_SEL, 0, 6⟩
/-- R431 17: `partition` of CKP_TGT_CFG. -/
def CKP_TGT_CFG_partition : Fld := ⟨.CKP_TGT_CFG, 0, 6⟩
/-- R431 17: `tcp_port` of CKP_TGT_CFG. -/
def CKP_TGT_CFG_tcp_port : Fld := ⟨.CKP_TGT_CFG, 8, 16⟩
/-- R431 17: `io_queues` of CKP_TGT_CFG. -/
def CKP_TGT_CFG_io_queues : Fld := ⟨.CKP_TGT_CFG, 24, 4⟩
/-- R431 17: `q_depth` of CKP_TGT_CFG. -/
def CKP_TGT_CFG_q_depth : Fld := ⟨.CKP_TGT_CFG, 32, 8⟩
/-- R431 17: `nsid` of CKP_TGT_NSID. -/
def CKP_TGT_NSID_nsid : Fld := ⟨.CKP_TGT_NSID, 0, 32⟩
/-- R431 17: `port_mask` of CKP_TGT_PORTS. -/
def CKP_TGT_PORTS_port_mask : Fld := ⟨.CKP_TGT_PORTS, 0, 64⟩
/-- R431 17: `ip` of CKP_TGT_IP_lo. -/
def CKP_TGT_IP_lo_ip : Fld := ⟨.CKP_TGT_IP_lo, 0, 64⟩
/-- R431 17: `ip` of CKP_TGT_IP_hi. -/
def CKP_TGT_IP_hi_ip : Fld := ⟨.CKP_TGT_IP_hi, 0, 64⟩
/-- R431 17: `op` of CKP_TGT_CMD. -/
def CKP_TGT_CMD_op : Fld := ⟨.CKP_TGT_CMD, 0, 2⟩
/-- R431 17: `state` of CKP_TGT_STATUS. -/
def CKP_TGT_STATUS_state : Fld := ⟨.CKP_TGT_STATUS, 0, 2⟩
/-- R431 17: `digests` of CKP_TGT_STATUS. -/
def CKP_TGT_STATUS_digests : Fld := ⟨.CKP_TGT_STATUS, 2, 1⟩
/-- R431 17: `lba4k` of CKP_TGT_STATUS. -/
def CKP_TGT_STATUS_lba4k : Fld := ⟨.CKP_TGT_STATUS, 3, 1⟩
/-- R431 17: `reason` of CKP_TGT_STATUS. -/
def CKP_TGT_STATUS_reason : Fld := ⟨.CKP_TGT_STATUS, 4, 4⟩
/-- R431 17: `streams` of CKP_TGT_STATUS. -/
def CKP_TGT_STATUS_streams : Fld := ⟨.CKP_TGT_STATUS, 8, 8⟩
/-- R431 17: `open` of CKP_STREAM_w0. -/
def CKP_STREAM_open : Fld := ⟨.CKP_STREAM_w0, 0, 1⟩
/-- R431 17: `restore` of CKP_STREAM_w0. -/
def CKP_STREAM_restore : Fld := ⟨.CKP_STREAM_w0, 1, 1⟩
/-- R431 17: `permille` of CKP_STREAM_w0. -/
def CKP_STREAM_permille : Fld := ⟨.CKP_STREAM_w0, 2, 10⟩
/-- R431 17: `vf` of CKP_STREAM_w0. -/
def CKP_STREAM_vf : Fld := ⟨.CKP_STREAM_w0, 12, 10⟩
/-- R431 17: `target` of CKP_STREAM_w0. -/
def CKP_STREAM_target : Fld := ⟨.CKP_STREAM_w0, 22, 6⟩
/-- R431 17: `records` of CKP_STREAM_w8. -/
def CKP_STREAM_records : Fld := ⟨.CKP_STREAM_w8, 0, 32⟩
/-- R431 17: `stream_id` of CKP_STREAM_w8. -/
def CKP_STREAM_stream_id : Fld := ⟨.CKP_STREAM_w8, 32, 32⟩
/-- R431 17: `count` of CKP_REC_WRITTEN. -/
def CKP_REC_WRITTEN : Fld := ⟨.CKP_REC_WRITTEN, 0, 64⟩
/-- R431 17: `count` of CKP_REC_READ. -/
def CKP_REC_READ : Fld := ⟨.CKP_REC_READ, 0, 64⟩
/-- R431 17: `count` of CKP_RETRY. -/
def CKP_RETRY : Fld := ⟨.CKP_RETRY, 0, 64⟩
/-- R431 17: `count` of CKP_DIGEST_ERR. -/
def CKP_DIGEST_ERR : Fld := ⟨.CKP_DIGEST_ERR, 0, 64⟩
/-- R431 17: `count` of CKP_TRAILER_ERR. -/
def CKP_TRAILER_ERR : Fld := ⟨.CKP_TRAILER_ERR, 0, 64⟩
/-- R431 17: `count` of CKP_CONN_FAIL. -/
def CKP_CONN_FAIL : Fld := ⟨.CKP_CONN_FAIL, 0, 64⟩
/-- R451 18: `cap_w` of PWR_CFG. -/
def PWR_CFG_cap_w : Fld := ⟨.PWR_CFG, 0, 10⟩
/-- R451 18: `dev_state` of PWR_STATUS. -/
def PWR_STATUS_dev_state : Fld := ⟨.PWR_STATUS, 0, 3⟩
/-- R451 18: `throttled` of PWR_STATUS. -/
def PWR_STATUS_throttled : Fld := ⟨.PWR_STATUS, 3, 1⟩
/-- R451 18: `power_w` of PWR_STATUS. -/
def PWR_STATUS_power_w : Fld := ⟨.PWR_STATUS, 4, 10⟩
/-- R451 18: `xtal_fail` of PWR_STATUS. -/
def PWR_STATUS_xtal_fail : Fld := ⟨.PWR_STATUS, 14, 1⟩
/-- R451 18: `rc_clock` of PWR_STATUS. -/
def PWR_STATUS_rc_clock : Fld := ⟨.PWR_STATUS, 15, 1⟩
/-- R451 18: `pll_lock` of PWR_STATUS. -/
def PWR_STATUS_pll_lock : Fld := ⟨.PWR_STATUS, 16, 4⟩
/-- R451 18: `op` of PWR_DEV_CMD. -/
def PWR_DEV_CMD_op : Fld := ⟨.PWR_DEV_CMD, 0, 2⟩
/-- R451 18: `wake_ms` of PWR_DEV_CMD. -/
def PWR_DEV_CMD_wake_ms : Fld := ⟨.PWR_DEV_CMD, 4, 20⟩
/-- R451 18: `busy` of PWR_DEV_STATUS. -/
def PWR_DEV_STATUS_busy : Fld := ⟨.PWR_DEV_STATUS, 0, 1⟩
/-- R451 18: `done` of PWR_DEV_STATUS. -/
def PWR_DEV_STATUS_done : Fld := ⟨.PWR_DEV_STATUS, 1, 1⟩
/-- R451 18: `refused` of PWR_DEV_STATUS. -/
def PWR_DEV_STATUS_refused : Fld := ⟨.PWR_DEV_STATUS, 2, 1⟩
/-- R451 18: `reason` of PWR_DEV_STATUS. -/
def PWR_DEV_STATUS_reason : Fld := ⟨.PWR_DEV_STATUS, 4, 4⟩
/-- R451 18: `wake_cause` of PWR_DEV_STATUS. -/
def PWR_DEV_STATUS_wake_cause : Fld := ⟨.PWR_DEV_STATUS, 8, 2⟩
/-- R451 18: `counter_mode` of PWR_XING_MODE. -/
def PWR_XING_MODE_counter_mode : Fld := ⟨.PWR_XING_MODE, 0, 16⟩
/-- R451 18: `ticks` of PWR_TICK. -/
def PWR_TICK_ticks : Fld := ⟨.PWR_TICK, 0, 64⟩
/-- R451 18: `source` of PWR_EVT_SEL. -/
def PWR_EVT_SEL_source : Fld := ⟨.PWR_EVT_SEL, 0, 8⟩
/-- R451 18: `count` of PWR_EVT. -/
def PWR_EVT : Fld := ⟨.PWR_EVT, 0, 64⟩
/-- R451 18: `state` of PWR_DOM. -/
def PWR_DOM_state : Fld := ⟨.PWR_DOM, 0, 3⟩
/-- R451 18: `floor` of PWR_DOM. -/
def PWR_DOM_floor : Fld := ⟨.PWR_DOM, 3, 3⟩
/-- R451 18: `pinned` of PWR_DOM. -/
def PWR_DOM_pinned : Fld := ⟨.PWR_DOM, 6, 1⟩
/-- R451 18: `privileged` of PWR_DOM. -/
def PWR_DOM_privileged : Fld := ⟨.PWR_DOM, 7, 1⟩
/-- R451 18: `idle_us` of PWR_DOM. -/
def PWR_DOM_idle_us : Fld := ⟨.PWR_DOM, 8, 20⟩
/-- R451 18: `kindles` of PWR_DOM. -/
def PWR_DOM_kindles : Fld := ⟨.PWR_DOM, 32, 32⟩
/-- R451 18: `count` of PWR_KINDLE. -/
def PWR_KINDLE : Fld := ⟨.PWR_KINDLE, 0, 64⟩
/-- R451 18: `count` of PWR_HELD_PRIV. -/
def PWR_HELD_PRIV : Fld := ⟨.PWR_HELD_PRIV, 0, 64⟩
/-- R451 18: `count` of PWR_THROTTLE_US. -/
def PWR_THROTTLE_US : Fld := ⟨.PWR_THROTTLE_US, 0, 64⟩
/-- R451 18: `count` of PWR_XTAL_FAIL. -/
def PWR_XTAL_FAIL : Fld := ⟨.PWR_XTAL_FAIL, 0, 64⟩
/-- R451 18: `count` of PWR_MERGED. -/
def PWR_MERGED : Fld := ⟨.PWR_MERGED, 0, 64⟩
/-- R469 19: `tally_ms` of RST_WD_FAST. -/
def RST_WD_FAST_tally_ms : Fld := ⟨.RST_WD_FAST, 0, 10⟩
/-- R469 19: `mill_ms` of RST_WD_FAST. -/
def RST_WD_FAST_mill_ms : Fld := ⟨.RST_WD_FAST, 10, 10⟩
/-- R469 19: `cipher_ms` of RST_WD_FAST. -/
def RST_WD_FAST_cipher_ms : Fld := ⟨.RST_WD_FAST, 20, 10⟩
/-- R469 19: `xlt_ms` of RST_WD_FAST. -/
def RST_WD_FAST_xlt_ms : Fld := ⟨.RST_WD_FAST, 30, 10⟩
/-- R469 19: `dma_ms` of RST_WD_SLOW. -/
def RST_WD_SLOW_dma_ms : Fld := ⟨.RST_WD_SLOW, 0, 14⟩
/-- R469 19: `bxt_ms` of RST_WD_SLOW. -/
def RST_WD_SLOW_bxt_ms : Fld := ⟨.RST_WD_SLOW, 14, 14⟩
/-- R469 19: `ckp_ms` of RST_WD_SLOW. -/
def RST_WD_SLOW_ckp_ms : Fld := ⟨.RST_WD_SLOW, 28, 14⟩
/-- R469 19: `cmn_ms` of RST_WD_SLOW. -/
def RST_WD_SLOW_cmn_ms : Fld := ⟨.RST_WD_SLOW, 42, 14⟩
/-- R469 19: `dump_chip` of RST_CFG. -/
def RST_CFG_dump_chip : Fld := ⟨.RST_CFG, 0, 1⟩
/-- R469 19: `dump_engine` of RST_CFG. -/
def RST_CFG_dump_engine : Fld := ⟨.RST_CFG, 1, 1⟩
/-- R469 19: `op` of RST_CMD. -/
def RST_CMD_op : Fld := ⟨.RST_CMD, 0, 3⟩
/-- R469 19: `kind` of RST_CMD. -/
def RST_CMD_kind : Fld := ⟨.RST_CMD, 4, 3⟩
/-- R469 19: `unit` of RST_CMD. -/
def RST_CMD_unit : Fld := ⟨.RST_CMD, 8, 6⟩
/-- R469 19: `busy` of RST_STATUS. -/
def RST_STATUS_busy : Fld := ⟨.RST_STATUS, 0, 1⟩
/-- R469 19: `done` of RST_STATUS. -/
def RST_STATUS_done : Fld := ⟨.RST_STATUS, 1, 1⟩
/-- R469 19: `refused` of RST_STATUS. -/
def RST_STATUS_refused : Fld := ⟨.RST_STATUS, 2, 1⟩
/-- R469 19: `retired` of RST_STATUS. -/
def RST_STATUS_retired : Fld := ⟨.RST_STATUS, 3, 1⟩
/-- R469 19: `reason` of RST_STATUS. -/
def RST_STATUS_reason : Fld := ⟨.RST_STATUS, 4, 4⟩
/-- R469 19: `cause` of RST_LAST. -/
def RST_LAST_cause : Fld := ⟨.RST_LAST, 0, 8⟩
/-- R469 19: `boot_count` of RST_LAST. -/
def RST_LAST_boot_count : Fld := ⟨.RST_LAST, 32, 32⟩
/-- R469 19: `tick` of RST_HIST. -/
def RST_HIST_tick : Fld := ⟨.RST_HIST, 0, 64⟩
/-- R469 19: `kind` of RST_HANG_LAST. -/
def RST_HANG_LAST_kind : Fld := ⟨.RST_HANG_LAST, 0, 3⟩
/-- R469 19: `unit` of RST_HANG_LAST. -/
def RST_HANG_LAST_unit : Fld := ⟨.RST_HANG_LAST, 8, 6⟩
/-- R469 19: `suspects` of RST_HANG_LAST. -/
def RST_HANG_LAST_suspects : Fld := ⟨.RST_HANG_LAST, 16, 8⟩
/-- R469 19: `guilty` of RST_HANG_LAST. -/
def RST_HANG_LAST_guilty : Fld := ⟨.RST_HANG_LAST, 24, 8⟩
/-- R469 19: `outcome` of RST_HANG_LAST. -/
def RST_HANG_LAST_outcome : Fld := ⟨.RST_HANG_LAST, 32, 2⟩
/-- R469 19: `valid` of RST_DUMP_STATUS. -/
def RST_DUMP_STATUS_valid : Fld := ⟨.RST_DUMP_STATUS, 0, 1⟩
/-- R469 19: `held` of RST_DUMP_STATUS. -/
def RST_DUMP_STATUS_held : Fld := ⟨.RST_DUMP_STATUS, 1, 1⟩
/-- R469 19: `index` of RST_DUMP_STATUS. -/
def RST_DUMP_STATUS_index : Fld := ⟨.RST_DUMP_STATUS, 2, 8⟩
/-- R469 19: `count` of RST_CTX_RESETS. -/
def RST_CTX_RESETS : Fld := ⟨.RST_CTX_RESETS, 0, 64⟩
/-- R469 19: `count` of RST_ENGINE_RESETS. -/
def RST_ENGINE_RESETS : Fld := ⟨.RST_ENGINE_RESETS, 0, 64⟩
/-- R469 19: `count` of RST_PTN_RESETS. -/
def RST_PTN_RESETS : Fld := ⟨.RST_PTN_RESETS, 0, 64⟩
/-- R469 19: `count` of RST_CHIP_RESETS. -/
def RST_CHIP_RESETS : Fld := ⟨.RST_CHIP_RESETS, 0, 64⟩
/-- R469 19: `count` of RST_HANGS. -/
def RST_HANGS : Fld := ⟨.RST_HANGS, 0, 64⟩
/-- R469 19: `count` of RST_GUILTY. -/
def RST_GUILTY : Fld := ⟨.RST_GUILTY, 0, 64⟩
/-- R469 19: `count` of RST_NOT_REPLAYED. -/
def RST_NOT_REPLAYED : Fld := ⟨.RST_NOT_REPLAYED, 0, 64⟩
/-- R469 19: `count` of RST_RETIRED_UNITS. -/
def RST_RETIRED_UNITS : Fld := ⟨.RST_RETIRED_UNITS, 0, 64⟩
/-- R469 19: `count` of RST_DUMP_NORESP. -/
def RST_DUMP_NORESP : Fld := ⟨.RST_DUMP_NORESP, 0, 64⟩
/-- R488 20: `flush_ms` of LOG_CFG. -/
def LOG_CFG_flush_ms : Fld := ⟨.LOG_CFG, 0, 10⟩
/-- R488 20: `newest` of LOG_STATUS. -/
def LOG_STATUS_newest : Fld := ⟨.LOG_STATUS, 0, 21⟩
/-- R488 20: `oldest` of LOG_STATUS. -/
def LOG_STATUS_oldest : Fld := ⟨.LOG_STATUS, 32, 21⟩
/-- R488 20: `stopped` of LOG_STATUS. -/
def LOG_STATUS_stopped : Fld := ⟨.LOG_STATUS, 61, 1⟩
/-- R488 20: `slot` of LOG_CURSOR. -/
def LOG_CURSOR_slot : Fld := ⟨.LOG_CURSOR, 0, 21⟩
/-- R488 20: `area` of LOG_CURSOR. -/
def LOG_CURSOR_area : Fld := ⟨.LOG_CURSOR, 21, 1⟩
/-- R488 20: `op` of LOG_CMD. -/
def LOG_CMD_op : Fld := ⟨.LOG_CMD, 0, 2⟩
/-- R488 20: `summaries` of LOG_CMD. -/
def LOG_CMD_summaries : Fld := ⟨.LOG_CMD, 2, 1⟩
/-- R488 20: `busy` of LOG_READ_STATUS. -/
def LOG_READ_STATUS_busy : Fld := ⟨.LOG_READ_STATUS, 0, 1⟩
/-- R488 20: `count` of LOG_READ_STATUS. -/
def LOG_READ_STATUS_count : Fld := ⟨.LOG_READ_STATUS, 1, 8⟩
/-- R488 20: `next` of LOG_READ_STATUS. -/
def LOG_READ_STATUS_next : Fld := ⟨.LOG_READ_STATUS, 32, 21⟩
/-- R488 20: `skipped` of LOG_READ_STATUS. -/
def LOG_READ_STATUS_skipped : Fld := ⟨.LOG_READ_STATUS, 53, 11⟩
/-- R488 20: `count` of LOG_WRITTEN. -/
def LOG_WRITTEN : Fld := ⟨.LOG_WRITTEN, 0, 64⟩
/-- R488 20: `count` of LOG_REPEATS. -/
def LOG_REPEATS : Fld := ⟨.LOG_REPEATS, 0, 64⟩
/-- R488 20: `count` of LOG_DROPPED. -/
def LOG_DROPPED : Fld := ⟨.LOG_DROPPED, 0, 64⟩
/-- R488 20: `count` of LOG_TORN. -/
def LOG_TORN : Fld := ⟨.LOG_TORN, 0, 64⟩
/-- R488 20: `count` of LOG_FLASH_ERR. -/
def LOG_FLASH_ERR : Fld := ⟨.LOG_FLASH_ERR, 0, 64⟩
/-- R489 20: `unlock` of INJ_UNLOCK. -/
def INJ_UNLOCK_unlock : Fld := ⟨.INJ_UNLOCK, 0, 1⟩
/-- R489 20: `confirm` of INJ_UNLOCK. -/
def INJ_UNLOCK_confirm : Fld := ⟨.INJ_UNLOCK, 8, 8⟩
/-- R489 20: `point` of INJ_SEL. -/
def INJ_SEL_point : Fld := ⟨.INJ_SEL, 0, 16⟩
/-- R489 20: `index` of INJ_SEL. -/
def INJ_SEL_index : Fld := ⟨.INJ_SEL, 16, 8⟩
/-- R489 20: `every` of INJ_CTL. -/
def INJ_CTL_every : Fld := ⟨.INJ_CTL, 0, 16⟩
/-- R489 20: `count` of INJ_CTL. -/
def INJ_CTL_count : Fld := ⟨.INJ_CTL, 16, 16⟩
/-- R489 20: `ptn` of INJ_CTL. -/
def INJ_CTL_ptn : Fld := ⟨.INJ_CTL, 32, 6⟩
/-- R489 20: `ptn_en` of INJ_CTL. -/
def INJ_CTL_ptn_en : Fld := ⟨.INJ_CTL, 38, 1⟩
/-- R489 20: `op` of INJ_CMD. -/
def INJ_CMD_op : Fld := ⟨.INJ_CMD, 0, 2⟩
/-- R489 20: `armed` of INJ_STATUS. -/
def INJ_STATUS_armed : Fld := ⟨.INJ_STATUS, 0, 1⟩
/-- R489 20: `refused` of INJ_STATUS. -/
def INJ_STATUS_refused : Fld := ⟨.INJ_STATUS, 1, 1⟩
/-- R489 20: `reason` of INJ_STATUS. -/
def INJ_STATUS_reason : Fld := ⟨.INJ_STATUS, 2, 4⟩
/-- R489 20: `left` of INJ_STATUS. -/
def INJ_STATUS_left : Fld := ⟨.INJ_STATUS, 16, 16⟩
/-- R489 20: `count` of INJ_FIRED. -/
def INJ_FIRED : Fld := ⟨.INJ_FIRED, 0, 64⟩
/-- R490 20: `built` of TEL_SPARE. -/
def TEL_SPARE_built : Fld := ⟨.TEL_SPARE, 0, 8⟩
/-- R490 20: `active` of TEL_SPARE. -/
def TEL_SPARE_active : Fld := ⟨.TEL_SPARE, 8, 8⟩
/-- R490 20: `spare` of TEL_SPARE. -/
def TEL_SPARE_spare : Fld := ⟨.TEL_SPARE, 16, 8⟩
/-- R490 20: `retired` of TEL_SPARE. -/
def TEL_SPARE_retired : Fld := ⟨.TEL_SPARE, 24, 8⟩
/-- R490 20: `modules` of TEL_KLN. -/
def TEL_KLN_modules : Fld := ⟨.TEL_KLN, 0, 4⟩
/-- R490 20: `retired_mask` of TEL_KLN. -/
def TEL_KLN_retired_mask : Fld := ⟨.TEL_KLN, 4, 8⟩
/-- R490 20: `go` of TEL_SNAP_CMD. -/
def TEL_SNAP_CMD_go : Fld := ⟨.TEL_SNAP_CMD, 0, 1⟩
/-- R510 21: `max_frame` of MGT_CFG. -/
def MGT_CFG_max_frame : Fld := ⟨.MGT_CFG, 0, 14⟩
/-- R510 21: `announce_s` of MGT_CFG. -/
def MGT_CFG_announce_s : Fld := ⟨.MGT_CFG, 14, 6⟩
/-- R510 21: `events` of MGT_CFG. -/
def MGT_CFG_events : Fld := ⟨.MGT_CFG, 20, 1⟩
/-- R510 21: `idle_min` of MGT_CFG. -/
def MGT_CFG_idle_min : Fld := ⟨.MGT_CFG, 21, 11⟩
/-- R510 21: `enable` of MGT_PLCA. -/
def MGT_PLCA_enable : Fld := ⟨.MGT_PLCA, 0, 1⟩
/-- R510 21: `plca_id` of MGT_PLCA. -/
def MGT_PLCA_plca_id : Fld := ⟨.MGT_PLCA, 1, 8⟩
/-- R510 21: `node_count` of MGT_PLCA. -/
def MGT_PLCA_node_count : Fld := ⟨.MGT_PLCA, 9, 8⟩
/-- R510 21: `to_timer` of MGT_PLCA. -/
def MGT_PLCA_to_timer : Fld := ⟨.MGT_PLCA, 17, 8⟩
/-- R510 21: `mac` of MGT_MAC. -/
def MGT_MAC_mac : Fld := ⟨.MGT_MAC, 0, 48⟩
/-- R510 21: `tc_mac` of MGT_TC_MAC. -/
def MGT_TC_MAC_tc_mac : Fld := ⟨.MGT_TC_MAC, 0, 48⟩
/-- R510 21: `mode` of MGT_BOOT. -/
def MGT_BOOT_mode : Fld := ⟨.MGT_BOOT, 0, 2⟩
/-- R510 21: `skip_a` of MGT_BOOT. -/
def MGT_BOOT_skip_a : Fld := ⟨.MGT_BOOT, 2, 1⟩
/-- R510 21: `skip_b` of MGT_BOOT. -/
def MGT_BOOT_skip_b : Fld := ⟨.MGT_BOOT, 3, 1⟩
/-- R510 21: `permille` of MGT_BOOT. -/
def MGT_BOOT_permille : Fld := ⟨.MGT_BOOT, 4, 10⟩
/-- R510 21: `live_upto` of MGT_BOOT. -/
def MGT_BOOT_live_upto : Fld := ⟨.MGT_BOOT, 14, 6⟩
/-- R510 21: `op` of MGT_CRED_CMD. -/
def MGT_CRED_CMD_op : Fld := ⟨.MGT_CRED_CMD, 0, 2⟩
/-- R510 21: `busy` of MGT_CRED_STATUS. -/
def MGT_CRED_STATUS_busy : Fld := ⟨.MGT_CRED_STATUS, 0, 1⟩
/-- R510 21: `granted` of MGT_CRED_STATUS. -/
def MGT_CRED_STATUS_granted : Fld := ⟨.MGT_CRED_STATUS, 1, 1⟩
/-- R510 21: `result` of MGT_CRED_STATUS. -/
def MGT_CRED_STATUS_result : Fld := ⟨.MGT_CRED_STATUS, 2, 3⟩
/-- R510 21: `holder` of MGT_CRED_STATUS. -/
def MGT_CRED_STATUS_holder : Fld := ⟨.MGT_CRED_STATUS, 5, 2⟩
/-- R510 21: `conn` of MGT_CRED_STATUS. -/
def MGT_CRED_STATUS_conn : Fld := ⟨.MGT_CRED_STATUS, 7, 3⟩
/-- R510 21: `op` of MGT_FW_CMD. -/
def MGT_FW_CMD_op : Fld := ⟨.MGT_FW_CMD, 0, 2⟩
/-- R510 21: `busy` of MGT_FW_STATUS. -/
def MGT_FW_STATUS_busy : Fld := ⟨.MGT_FW_STATUS, 0, 1⟩
/-- R510 21: `done` of MGT_FW_STATUS. -/
def MGT_FW_STATUS_done : Fld := ⟨.MGT_FW_STATUS, 1, 1⟩
/-- R510 21: `refused` of MGT_FW_STATUS. -/
def MGT_FW_STATUS_refused : Fld := ⟨.MGT_FW_STATUS, 2, 1⟩
/-- R510 21: `reason` of MGT_FW_STATUS. -/
def MGT_FW_STATUS_reason : Fld := ⟨.MGT_FW_STATUS, 8, 4⟩
/-- R510 21: `permille` of MGT_FW_STATUS. -/
def MGT_FW_STATUS_permille : Fld := ⟨.MGT_FW_STATUS, 12, 10⟩
/-- R510 21: `count` of MGT_TX_FRAMES. -/
def MGT_TX_FRAMES : Fld := ⟨.MGT_TX_FRAMES, 0, 64⟩
/-- R510 21: `count` of MGT_RX_FRAMES. -/
def MGT_RX_FRAMES : Fld := ⟨.MGT_RX_FRAMES, 0, 64⟩
/-- R510 21: `count` of MGT_COLLISIONS. -/
def MGT_COLLISIONS : Fld := ⟨.MGT_COLLISIONS, 0, 64⟩
/-- R510 21: `count` of MGT_EXCESS_COLL. -/
def MGT_EXCESS_COLL : Fld := ⟨.MGT_EXCESS_COLL, 0, 64⟩
/-- R510 21: `count` of MGT_TX_DROP. -/
def MGT_TX_DROP : Fld := ⟨.MGT_TX_DROP, 0, 64⟩
/-- R510 21: `count` of MGT_RX_DROP. -/
def MGT_RX_DROP : Fld := ⟨.MGT_RX_DROP, 0, 64⟩
/-- R510 21: `count` of MGT_PROBE_REFUSED. -/
def MGT_PROBE_REFUSED : Fld := ⟨.MGT_PROBE_REFUSED, 0, 64⟩
/-- R510 21: `count` of MGT_MSG_DROP. -/
def MGT_MSG_DROP : Fld := ⟨.MGT_MSG_DROP, 0, 64⟩
/-- R517 22: `present` of GLB_BLOCKS. -/
def GLB_BLOCKS_present : Fld := ⟨.GLB_BLOCKS, 0, 29⟩
/-- R517 22: `value` of GLB_SCRATCH. -/
def GLB_SCRATCH_value : Fld := ⟨.GLB_SCRATCH, 0, 64⟩
/-- R519 22: `state` of DMV_Q. -/
def DMV_Q_state : Fld := ⟨.DMV_Q, 0, 2⟩
/-- R519 22: `inflight` of DMV_Q. -/
def DMV_Q_inflight : Fld := ⟨.DMV_Q, 2, 12⟩
/-- R519 22: `count` of DMV_HOST_RD_BYTES. -/
def DMV_HOST_RD_BYTES : Fld := ⟨.DMV_HOST_RD_BYTES, 0, 64⟩
/-- R519 22: `count` of DMV_HOST_WR_BYTES. -/
def DMV_HOST_WR_BYTES : Fld := ⟨.DMV_HOST_WR_BYTES, 0, 64⟩
/-- R519 22: `count` of DMV_CHECK_FAIL. -/
def DMV_CHECK_FAIL : Fld := ⟨.DMV_CHECK_FAIL, 0, 64⟩
/-- R519 22: `count` of DMV_REPACK. -/
def DMV_REPACK : Fld := ⟨.DMV_REPACK, 0, 64⟩
/-- R150 05: `count` of CMN_VOIDS. -/
def CMN_VOIDS : Fld := ⟨.CMN_VOIDS, 0, 64⟩
/-- R518 22: `state` of KLN_MOD_w00. -/
def KLN_MOD_state : Fld := ⟨.KLN_MOD_w00, 0, 2⟩
/-- R518 22: `fails_1s` of KLN_MOD_w00. -/
def KLN_MOD_fails_1s : Fld := ⟨.KLN_MOD_w00, 2, 2⟩
/-- R518 22: `rep_g2h` of KLN_MOD_w00. -/
def KLN_MOD_rep_g2h : Fld := ⟨.KLN_MOD_w00, 4, 3⟩
/-- R518 22: `rep_h2g` of KLN_MOD_w00. -/
def KLN_MOD_rep_h2g : Fld := ⟨.KLN_MOD_w00, 7, 3⟩
/-- R518 22: `crc_g2h` of KLN_MOD_w08. -/
def KLN_MOD_crc_g2h : Fld := ⟨.KLN_MOD_w08, 0, 64⟩
/-- R518 22: `crc_h2g` of KLN_MOD_w10. -/
def KLN_MOD_crc_h2g : Fld := ⟨.KLN_MOD_w10, 0, 64⟩
/-- R518 22: `replays` of KLN_MOD_w18. -/
def KLN_MOD_replays : Fld := ⟨.KLN_MOD_w18, 0, 64⟩
/-- R518 22: `retrains` of KLN_MOD_w20. -/
def KLN_MOD_retrains : Fld := ⟨.KLN_MOD_w20, 0, 64⟩
end F

/-- The value of a register after reset where no fuse, flash, layout or training result decides it (the reset column of its table). -/
def Reg.reset0 : Reg → Nat
  | .GLB_ID => 0x9080A000
  | .TAL_CFG => 0x50010
  | .CMN_CFG => 0x3E800
  | .CMN_CFG2 => 0x100064
  | .MIL_CFG => 0x10
  | .BXT_CFG => 0x181BA80
  | .BXT_TIMER => 0x81C08
  | .BXT_HOLD => 0x3E8
  | .BXT_CC => 0x4050080
  | .WQE_RING_ARG2 => 0xC6
  | .ADM_CFG => 0x8
  | .ADM_CLASS_FRAC => 0x203040402010
  | .ADM_GRANT => 0x10032
  | .POL_METER_RATE => 0x186A0000186A00
  | .POL_METER_BURST => 0x10000000100000
  | .PRT_PORT_STATE => 0x1E00
  | .PRT_TRANSIT => 0xA00
  | .PRT_PFC => 0x6400800C00
  | .PRT_LP_w00 => 0x90000018
  | .HOP_DEV => 0xFFFFF
  | .HOP_CFG => 0x1F4100
  | .HOP_WX_CFG => 0xFA0064
  | .HPT_LINK_w04 => 0xA
  | .XLT_CFG => 0x403E8
  | .XLT_PTN_CFG => 0x100
  | .LRD_CFG => 0x3C0040
  | .HBM_CFG => 0x18
  | .DDR_CFG => 0x18
  | .CPH_CFG => 0x8
  | .CPH_KEY_CMD => 0x40
  | .TRU_TAMPER_CFG => 0xF
  | .CKP_CFG => 0x52B1388
  | .CKP_TGT_CFG => 0x2001114400
  | .CKP_TGT_NSID => 0x1
  | .RST_WD_FAST => 0x280A0280A
  | .RST_WD_SLOW => 0x1900640190064
  | .RST_CFG => 0x1
  | .LOG_CFG => 0xA
  | .INJ_CTL => 0x10001
  | .TEL_KLN => 0x8
  | .MGT_CFG => 0x3D06400
  | .MGT_PLCA => 0x4011FE
  | _ => 0

/-- The register table, part 0. -/
def regTable0 : List RegInfo :=
  [⟨.GLB_ID, .GLB, 0x0, [], 4, [⟨16, 16, .RO, []⟩, ⟨12, 4, .RO, []⟩, ⟨8, 4, .RO, []⟩]⟩,
  ⟨.LAY_CMD, .LAY, 0x100000, [], 4, [⟨0, 4, .WO, [(1, 6)]⟩]⟩,
  ⟨.LAY_STATUS, .LAY, 0x100004, [], 4, [⟨0, 1, .RO, []⟩, ⟨1, 1, .W1C, []⟩, ⟨2, 1, .W1C, []⟩, ⟨8, 8, .RO, []⟩, ⟨16, 4, .RO, []⟩]⟩,
  ⟨.LAY_PROGRESS, .LAY, 0x100008, [], 4, [⟨0, 10, .RO, []⟩, ⟨12, 3, .RO, []⟩]⟩,
  ⟨.LAY_WIN_BASE, .LAY, 0x10000C, [], 4, [⟨0, 7, .RW, []⟩]⟩,
  ⟨.LAY_ACTIVE, .LAY, 0x100010, [], 4, [⟨0, 32, .RO, []⟩]⟩,
  ⟨.LAY_SOURCE, .LAY, 0x100014, [], 4, [⟨0, 2, .RO, []⟩, ⟨8, 8, .RO, []⟩, ⟨16, 8, .RO, []⟩]⟩,
  ⟨.TAL_CFG, .TAL, 0x5000000, [], 4, [⟨0, 5, .RW, [(12, 20)]⟩, ⟨12, 8, .RW, [(10, 160)]⟩]⟩,
  ⟨.TAL_POOL, .TAL, 0x5000008, [], 4, [⟨0, 12, .RO, []⟩, ⟨16, 12, .RO, []⟩]⟩,
  ⟨.TAL_SPARE_MAP, .TAL, 0x5000010, [], 4, [⟨0, 6, .WO, [(0, 33)]⟩, ⟨8, 6, .WO, [(0, 33)]⟩, ⟨31, 1, .W1S, []⟩]⟩,
  ⟨.TAL_CHECK_FAIL, .TAL, 0x5000020, [], 8, [⟨0, 64, .RO, []⟩]⟩,
  ⟨.TAL_MISDIRECT, .TAL, 0x5000028, [], 8, [⟨0, 64, .RO, []⟩]⟩,
  ⟨.TAL_STREAM_OPS, .TAL, 0x5000030, [], 8, [⟨0, 64, .RO, []⟩]⟩,
  ⟨.TAL_UNIT_STATE, .TAL, 0x5000100, [(0x4, 34)], 4, [⟨0, 2, .RO, []⟩, ⟨8, 8, .RO, []⟩]⟩,
  ⟨.TAL_PTN_POOL, .TAL, 0x5001000, [(0x8, 64)], 8, [⟨0, 12, .RO, []⟩, ⟨16, 12, .RO, []⟩, ⟨32, 12, .RO, []⟩]⟩,
  ⟨.CMN_CFG, .CMN, 0x5100000, [], 4, [⟨0, 3, .RW, [(0, 4)]⟩, ⟨8, 16, .RW, [(1, 60000)]⟩]⟩,
  ⟨.CMN_CFG2, .CMN, 0x5100004, [], 4, [⟨0, 14, .RW, [(1, 10000)]⟩, ⟨16, 8, .RW, [(2, 255)]⟩]⟩,
  ⟨.CMN_GRP_SEL, .CMN, 0x5100010, [], 4, [⟨0, 12, .RW, []⟩]⟩,
  ⟨.CMN_GRP_ARG0, .CMN, 0x5100014, [], 4, [⟨0, 16, .RW, []⟩, ⟨16, 16, .RW, []⟩]⟩,
  ⟨.CMN_GRP_ARG1, .CMN, 0x5100018, [], 4, [⟨0, 17, .RW, [(1, 65536)]⟩]⟩,
  ⟨.CMN_GRP_ARG2, .CMN, 0x510001C, [], 4, [⟨0, 16, .RW, []⟩, ⟨16, 16, .RW, []⟩]⟩,
  ⟨.CMN_GRP_ARG3, .CMN, 0x5100020, [], 4, [⟨0, 10, .RW, []⟩, ⟨10, 1, .RW, []⟩, ⟨11, 1, .RW, []⟩]⟩,
  ⟨.CMN_GRP_CMD, .CMN, 0x5100024, [], 4, [⟨0, 3, .WO, [(1, 3)]⟩]⟩,
  ⟨.CMN_GRP_STATUS, .CMN, 0x5100028, [], 4, [⟨0, 1, .RO, []⟩, ⟨1, 1, .W1C, []⟩, ⟨2, 1, .W1C, []⟩, ⟨8, 4, .RO, []⟩]⟩,
  ⟨.CMN_GRP_INFO, .CMN, 0x5100030, [], 8, [⟨0, 3, .RO, []⟩, ⟨3, 7, .RO, []⟩, ⟨16, 16, .RO, []⟩, ⟨32, 16, .RO, []⟩]⟩,
  ⟨.CMN_GRP_STEP, .CMN, 0x5100038, [], 4, [⟨0, 32, .RO, []⟩]⟩,
  ⟨.CMN_GRP_KEYS, .CMN, 0x510003C, [], 4, [⟨0, 16, .RW, []⟩, ⟨16, 16, .RW, []⟩]⟩,
  ⟨.CMN_RERUNS, .CMN, 0x5100048, [], 8, [⟨0, 64, .RO, []⟩]⟩,
  ⟨.CMN_CHECK_FAILED, .CMN, 0x5100050, [], 8, [⟨0, 64, .RO, []⟩]⟩,
  ⟨.CMN_DEADLINE, .CMN, 0x5100058, [], 8, [⟨0, 64, .RO, []⟩]⟩,
  ⟨.CMN_REFORMS, .CMN, 0x5100060, [], 8, [⟨0, 64, .RO, []⟩]⟩,
  ⟨.CMN_STALE, .CMN, 0x5100068, [], 8, [⟨0, 64, .RO, []⟩]⟩,
  ⟨.CMN_OP_TIME, .CMN, 0x5100070, [], 4, [⟨0, 32, .RO, []⟩]⟩,
  ⟨.CMN_FABRIC_PFX_lo, .CMN, 0x5100080, [], 8, [⟨20, 44, .RW, []⟩]⟩,
  ⟨.CMN_FABRIC_PFX_hi, .CMN, 0x5100088, [], 8, [⟨0, 64, .RW, []⟩]⟩,
  ⟨.MIL_CFG, .MIL, 0x5200000, [], 4, [⟨0, 6, .RW, [(0, 63)]⟩]⟩,
  ⟨.MIL_SPARE_MAP, .MIL, 0x5200010, [], 4, [⟨0, 5, .WO, [(0, 17)]⟩, ⟨8, 5, .WO, [(0, 17)]⟩, ⟨31, 1, .W1S, []⟩]⟩,
  ⟨.MIL_RECIPE_SEL, .MIL, 0x5200020, [], 4, [⟨0, 6, .RW, []⟩, ⟨8, 8, .RW, [(0, 7), (32, 63)]⟩]⟩,
  ⟨.MIL_RECIPE_INFO, .MIL, 0x5200024, [], 4, [⟨0, 1, .RO, []⟩, ⟨1, 1, .RO, []⟩, ⟨2, 1, .RO, []⟩, ⟨8, 7, .RO, []⟩, ⟨16, 8, .RO, []⟩]⟩,
  ⟨.MIL_ELEMS, .MIL, 0x5200040, [], 8, [⟨0, 64, .RO, []⟩]⟩]

/-- The register table, part 1. -/
def regTable1 : List RegInfo :=
  [⟨.MIL_DDR_ELEMS, .MIL, 0x5200048, [], 8, [⟨0, 64, .RO, []⟩]⟩,
  ⟨.MIL_NONFINITE, .MIL, 0x5200050, [], 8, [⟨0, 64, .RO, []⟩]⟩,
  ⟨.MIL_BLOCK_REPLAY, .MIL, 0x5200058, [], 8, [⟨0, 64, .RO, []⟩]⟩,
  ⟨.MIL_ENG_STATE, .MIL, 0x5200100, [(0x4, 18)], 4, [⟨0, 2, .RO, []⟩, ⟨8, 6, .RO, []⟩, ⟨14, 1, .RO, []⟩]⟩,
  ⟨.MIL_PTN_STEP, .MIL, 0x5201000, [(0x8, 64)], 8, [⟨0, 32, .RO, []⟩, ⟨32, 16, .RO, []⟩, ⟨48, 2, .RO, []⟩]⟩,
  ⟨.BXT_CFG, .BXT, 0x2100000, [], 4, [⟨0, 16, .RW, [(1024, 4790), (4792, 65535)]⟩, ⟨16, 1, .RW, []⟩, ⟨20, 5, .RW, [(16, 30)]⟩]⟩,
  ⟨.BXT_TIMER, .BXT, 0x2100004, [], 4, [⟨0, 10, .RW, [(2, 1000)]⟩, ⟨10, 4, .RW, [(1, 15)]⟩, ⟨14, 8, .RW, [(1, 255)]⟩]⟩,
  ⟨.BXT_HOLD, .BXT, 0x2100008, [], 4, [⟨0, 17, .RW, [(10, 100000)]⟩]⟩,
  ⟨.BXT_CC, .BXT, 0x210000C, [], 4, [⟨0, 15, .RW, [(4, 16384)]⟩, ⟨15, 9, .RW, [(1, 500)]⟩, ⟨24, 4, .RW, [(1, 10)]⟩]⟩,
  ⟨.BXT_MISS_BUF, .BXT, 0x2100010, [], 4, [⟨0, 13, .RO, []⟩, ⟨16, 13, .RO, []⟩]⟩,
  ⟨.BXT_RETX, .BXT, 0x2100100, [], 8, [⟨0, 64, .RO, []⟩]⟩,
  ⟨.BXT_DUP, .BXT, 0x2100108, [], 8, [⟨0, 64, .RO, []⟩]⟩,
  ⟨.BXT_STALE, .BXT, 0x2100110, [], 8, [⟨0, 64, .RO, []⟩]⟩,
  ⟨.BXT_EPOCH_DROP, .BXT, 0x2100118, [], 8, [⟨0, 64, .RO, []⟩]⟩,
  ⟨.BXT_INVALID, .BXT, 0x2100120, [], 8, [⟨0, 64, .RO, []⟩]⟩,
  ⟨.BXT_DECRYPT_FAIL, .BXT, 0x2100128, [], 8, [⟨0, 64, .RO, []⟩]⟩,
  ⟨.BXT_HELD, .BXT, 0x2100130, [], 8, [⟨0, 64, .RO, []⟩]⟩,
  ⟨.BXT_HOLD_EXPIRED, .BXT, 0x2100138, [], 8, [⟨0, 64, .RO, []⟩]⟩,
  ⟨.BXT_NR_SENT, .BXT, 0x2100140, [], 8, [⟨0, 64, .RO, []⟩]⟩,
  ⟨.BXT_NR_RCVD, .BXT, 0x2100148, [], 8, [⟨0, 64, .RO, []⟩]⟩,
  ⟨.BXT_PEER_LOST, .BXT, 0x2100150, [], 8, [⟨0, 64, .RO, []⟩]⟩,
  ⟨.BXT_CE_RCVD, .BXT, 0x2100158, [], 8, [⟨0, 64, .RO, []⟩]⟩,
  ⟨.BXT_REFUSED, .BXT, 0x2100160, [], 8, [⟨0, 64, .RO, []⟩]⟩,
  ⟨.CTX_OCC, .CTX, 0x2200000, [], 4, [⟨0, 15, .RO, []⟩, ⟨16, 14, .RO, []⟩]⟩,
  ⟨.CTX_HIT, .CTX, 0x2200100, [], 8, [⟨0, 64, .RO, []⟩]⟩,
  ⟨.CTX_MISS, .CTX, 0x2200108, [], 8, [⟨0, 64, .RO, []⟩]⟩,
  ⟨.CTX_EVICT, .CTX, 0x2200110, [], 8, [⟨0, 64, .RO, []⟩]⟩,
  ⟨.CTX_FETCH_NR, .CTX, 0x2200118, [], 8, [⟨0, 64, .RO, []⟩]⟩,
  ⟨.CTX_PTN, .CTX, 0x2201000, [(0x8, 64)], 8, [⟨0, 15, .RO, []⟩, ⟨16, 15, .RO, []⟩, ⟨32, 21, .RO, []⟩]⟩,
  ⟨.WQE_RING_SEL, .WQE, 0x10000000, [(0x100000, 1024)], 4, [⟨0, 12, .RW, []⟩]⟩,
  ⟨.WQE_RING_ARG0, .WQE, 0x10000008, [(0x100000, 1024)], 8, [⟨0, 64, .RW, []⟩]⟩,
  ⟨.WQE_RING_ARG1, .WQE, 0x10000010, [(0x100000, 1024)], 8, [⟨0, 64, .RW, []⟩]⟩,
  ⟨.WQE_RING_ARG2, .WQE, 0x10000018, [(0x100000, 1024)], 4, [⟨0, 5, .RW, [(6, 16)]⟩, ⟨5, 5, .RW, [(6, 16)]⟩, ⟨10, 1, .RW, []⟩, ⟨11, 1, .RW, []⟩, ⟨12, 12, .RW, []⟩]⟩,
  ⟨.WQE_RING_ARG3, .WQE, 0x1000001C, [(0x100000, 1024)], 4, [⟨0, 11, .RW, []⟩]⟩,
  ⟨.WQE_RING_CMD, .WQE, 0x10000020, [(0x100000, 1024)], 4, [⟨0, 2, .WO, [(1, 3)]⟩]⟩,
  ⟨.WQE_RING_STATUS, .WQE, 0x10000024, [(0x100000, 1024)], 4, [⟨0, 1, .RO, []⟩, ⟨1, 1, .W1C, []⟩, ⟨2, 1, .W1C, []⟩, ⟨8, 4, .RO, []⟩, ⟨12, 3, .RO, []⟩]⟩,
  ⟨.WQE_RING_INFO, .WQE, 0x10000028, [(0x100000, 1024)], 8, [⟨0, 32, .RO, []⟩, ⟨32, 32, .RO, []⟩]⟩,
  ⟨.WQE_DB_w0, .WQE, 0x10010000, [(0x100000, 1024), (0x10, 4096)], 4, [⟨0, 32, .WO, []⟩]⟩,
  ⟨.WQE_DB_w4, .WQE, 0x10010004, [(0x100000, 1024), (0x10, 4096)], 4, [⟨0, 32, .WO, []⟩]⟩,
  ⟨.WQE_DB_w8, .WQE, 0x10010008, [(0x100000, 1024), (0x10, 4096)], 4, [⟨0, 1, .W1S, []⟩]⟩]

/-- The register table, part 2. -/
def regTable2 : List RegInfo :=
  [⟨.WQE_CTL_DB, .WQE, 0x3100010, [], 8, [⟨0, 32, .WO, []⟩, ⟨32, 32, .WO, []⟩]⟩,
  ⟨.WQE_DEV_HALT, .WQE, 0x3100020, [], 4, [⟨0, 1, .RO, []⟩, ⟨1, 3, .RO, []⟩, ⟨16, 9, .RO, []⟩]⟩,
  ⟨.WQE_PTN_HALT, .WQE, 0x3101000, [(0x8, 64)], 8, [⟨0, 1, .RO, []⟩, ⟨1, 3, .RO, []⟩, ⟨4, 12, .RO, []⟩, ⟨16, 10, .RO, []⟩, ⟨32, 16, .RO, []⟩]⟩,
  ⟨.WQE_MALFORMED, .WQE, 0x3100100, [], 8, [⟨0, 64, .RO, []⟩]⟩,
  ⟨.WQE_REFETCH, .WQE, 0x3100108, [], 8, [⟨0, 64, .RO, []⟩]⟩,
  ⟨.WQE_PUSH_DROP, .WQE, 0x3100110, [], 8, [⟨0, 64, .RO, []⟩]⟩,
  ⟨.WQE_DB_REFUSED, .WQE, 0x3100118, [], 8, [⟨0, 64, .RO, []⟩]⟩,
  ⟨.WQE_EVENT_DROP, .WQE, 0x3100120, [], 8, [⟨0, 64, .RO, []⟩]⟩,
  ⟨.WQE_FLUSH, .WQE, 0x3100128, [], 8, [⟨0, 64, .RO, []⟩]⟩,
  ⟨.WQE_HALTED, .WQE, 0x3100130, [], 8, [⟨0, 64, .RO, []⟩]⟩,
  ⟨.ADM_CFG, .ADM, 0x2300000, [], 4, [⟨0, 8, .RW, [(1, 64)]⟩]⟩,
  ⟨.ADM_CLASS_FRAC, .ADM, 0x2300008, [], 8, [⟨0, 8, .RW, []⟩, ⟨8, 8, .RW, []⟩, ⟨16, 8, .RW, []⟩, ⟨24, 8, .RW, []⟩, ⟨32, 8, .RW, []⟩, ⟨40, 8, .RW, []⟩]⟩,
  ⟨.ADM_GRANT, .ADM, 0x2300010, [], 4, [⟨0, 10, .RW, [(10, 1000)]⟩, ⟨10, 16, .RW, [(1, 65535)]⟩]⟩,
  ⟨.ADM_INFLIGHT, .ADM, 0x2300018, [], 4, [⟨0, 18, .RO, []⟩]⟩,
  ⟨.ADM_ADMIT, .ADM, 0x2300100, [], 8, [⟨0, 64, .RO, []⟩]⟩,
  ⟨.ADM_DELAYED, .ADM, 0x2300108, [], 8, [⟨0, 64, .RO, []⟩]⟩,
  ⟨.ADM_REF_CAPACITY, .ADM, 0x2300110, [], 8, [⟨0, 64, .RO, []⟩]⟩,
  ⟨.ADM_REF_RATE, .ADM, 0x2300118, [], 8, [⟨0, 64, .RO, []⟩]⟩,
  ⟨.ADM_REF_POOL, .ADM, 0x2300120, [], 8, [⟨0, 64, .RO, []⟩]⟩,
  ⟨.ADM_REF_GRANT, .ADM, 0x2300128, [], 8, [⟨0, 64, .RO, []⟩]⟩,
  ⟨.ADM_MISSED, .ADM, 0x2300130, [], 8, [⟨0, 64, .RO, []⟩]⟩,
  ⟨.ADM_GRANT_MISSED, .ADM, 0x2300138, [], 8, [⟨0, 64, .RO, []⟩]⟩,
  ⟨.ADM_GRANT_SENT, .ADM, 0x2300140, [], 8, [⟨0, 64, .RO, []⟩]⟩,
  ⟨.ADM_GRANT_RCVD, .ADM, 0x2300148, [], 8, [⟨0, 64, .RO, []⟩]⟩,
  ⟨.ADM_MISS_CAUSE, .ADM, 0x2300200, [(0x8, 16)], 8, [⟨0, 64, .RO, []⟩]⟩,
  ⟨.ADM_INST, .ADM, 0x2301000, [(0x8, 1024)], 8, [⟨0, 48, .RO, []⟩]⟩,
  ⟨.POL_METER_SEL, .POL, 0x2400000, [], 4, [⟨0, 12, .RW, []⟩]⟩,
  ⟨.POL_METER_RATE, .POL, 0x2400008, [], 8, [⟨0, 21, .RW, [(1, 1600000)]⟩, ⟨32, 21, .RW, [(1, 1600000)]⟩]⟩,
  ⟨.POL_METER_BURST, .POL, 0x2400010, [], 8, [⟨0, 24, .RW, [(9216, 16777215)]⟩, ⟨32, 24, .RW, [(9216, 16777215)]⟩]⟩,
  ⟨.POL_METER_CMD, .POL, 0x2400018, [], 4, [⟨0, 2, .WO, [(1, 2)]⟩]⟩,
  ⟨.POL_METER_GREEN_lo, .POL, 0x2400020, [], 8, [⟨0, 64, .RO, []⟩]⟩,
  ⟨.POL_METER_GREEN_hi, .POL, 0x2400028, [], 8, [⟨0, 64, .RO, []⟩]⟩,
  ⟨.POL_METER_YELLOW_lo, .POL, 0x2400030, [], 8, [⟨0, 64, .RO, []⟩]⟩,
  ⟨.POL_METER_YELLOW_hi, .POL, 0x2400038, [], 8, [⟨0, 64, .RO, []⟩]⟩,
  ⟨.POL_METER_RED_lo, .POL, 0x2400040, [], 8, [⟨0, 64, .RO, []⟩]⟩,
  ⟨.POL_METER_RED_hi, .POL, 0x2400048, [], 8, [⟨0, 64, .RO, []⟩]⟩,
  ⟨.POL_RED, .POL, 0x2400100, [], 8, [⟨0, 64, .RO, []⟩]⟩,
  ⟨.POL_UNCLASSIFIED, .POL, 0x2400108, [], 8, [⟨0, 64, .RO, []⟩]⟩,
  ⟨.POL_CLS_DROP, .POL, 0x2400110, [], 8, [⟨0, 64, .RO, []⟩]⟩,
  ⟨.POL_MIRROR, .POL, 0x2400118, [], 8, [⟨0, 64, .RO, []⟩]⟩]

/-- The register table, part 3. -/
def regTable3 : List RegInfo :=
  [⟨.POL_STEWARD, .POL, 0x2400120, [], 8, [⟨0, 64, .RO, []⟩]⟩,
  ⟨.PRT_PORT_STATE, .PRT, 0x1000000, [(0x100000, 8)], 4, [⟨0, 9, .RO, []⟩, ⟨9, 4, .RO, []⟩, ⟨13, 2, .RO, []⟩]⟩,
  ⟨.PRT_TRANSIT, .PRT, 0x1000008, [(0x100000, 8)], 4, [⟨0, 8, .RW, [(0, 192)]⟩, ⟨8, 16, .RW, [(1, 65535)]⟩]⟩,
  ⟨.PRT_PFC, .PRT, 0x1000010, [(0x100000, 8)], 8, [⟨0, 12, .RW, [(64, 4032)]⟩, ⟨12, 12, .RW, [(32, 4000)]⟩, ⟨32, 14, .RW, [(1, 10000)]⟩]⟩,
  ⟨.PRT_LP_w00, .PRT, 0x1000100, [(0x100000, 8), (0x40, 8)], 4, [⟨0, 1, .RW, []⟩, ⟨1, 2, .RW, [(0, 2)]⟩, ⟨3, 1, .RW, []⟩, ⟨4, 1, .RW, []⟩, ⟨5, 1, .RW, []⟩, ⟨6, 12, .RW, [(0, 4094)]⟩, ⟨18, 14, .RW, [(1518, 9216)]⟩]⟩,
  ⟨.PRT_LP_w08, .PRT, 0x1000108, [(0x100000, 8), (0x40, 8)], 8, [⟨0, 48, .RW, []⟩]⟩,
  ⟨.PRT_LP_w10, .PRT, 0x1000110, [(0x100000, 8), (0x40, 8)], 8, [⟨0, 48, .RW, []⟩, ⟨48, 1, .RO, []⟩]⟩,
  ⟨.PRT_LP_w18, .PRT, 0x1000118, [(0x100000, 8), (0x40, 8)], 8, [⟨0, 2, .RO, []⟩, ⟨2, 1, .RO, []⟩, ⟨3, 10, .RO, []⟩, ⟨13, 1, .RO, []⟩, ⟨14, 20, .RO, []⟩, ⟨34, 6, .RO, []⟩]⟩,
  ⟨.PRT_RX_FRAMES, .PRT, 0x1001000, [(0x100000, 8), (0x100, 8)], 8, [⟨0, 64, .RO, []⟩]⟩,
  ⟨.PRT_RX_BYTES, .PRT, 0x1001008, [(0x100000, 8), (0x100, 8)], 8, [⟨0, 64, .RO, []⟩]⟩,
  ⟨.PRT_TX_FRAMES, .PRT, 0x1001010, [(0x100000, 8), (0x100, 8)], 8, [⟨0, 64, .RO, []⟩]⟩,
  ⟨.PRT_TX_BYTES, .PRT, 0x1001018, [(0x100000, 8), (0x100, 8)], 8, [⟨0, 64, .RO, []⟩]⟩,
  ⟨.PRT_RUNT, .PRT, 0x1001020, [(0x100000, 8), (0x100, 8)], 8, [⟨0, 64, .RO, []⟩]⟩,
  ⟨.PRT_OVERSIZE, .PRT, 0x1001028, [(0x100000, 8), (0x100, 8)], 8, [⟨0, 64, .RO, []⟩]⟩,
  ⟨.PRT_FCS_ERR, .PRT, 0x1001030, [(0x100000, 8), (0x100, 8)], 8, [⟨0, 64, .RO, []⟩]⟩,
  ⟨.PRT_FEC_CORR, .PRT, 0x1001038, [(0x100000, 8), (0x100, 8)], 8, [⟨0, 64, .RO, []⟩]⟩,
  ⟨.PRT_FEC_UNCORR, .PRT, 0x1001040, [(0x100000, 8), (0x100, 8)], 8, [⟨0, 64, .RO, []⟩]⟩,
  ⟨.PRT_FEC_DISCARD, .PRT, 0x1001048, [(0x100000, 8), (0x100, 8)], 8, [⟨0, 64, .RO, []⟩]⟩,
  ⟨.PRT_ADDR_DROP, .PRT, 0x1001050, [(0x100000, 8), (0x100, 8)], 8, [⟨0, 64, .RO, []⟩]⟩,
  ⟨.PRT_PFC_RX, .PRT, 0x1001058, [(0x100000, 8), (0x100, 8)], 8, [⟨0, 64, .RO, []⟩]⟩,
  ⟨.PRT_PFC_TX, .PRT, 0x1001060, [(0x100000, 8), (0x100, 8)], 8, [⟨0, 64, .RO, []⟩]⟩,
  ⟨.PRT_PFC_IGNORED, .PRT, 0x1001068, [(0x100000, 8), (0x100, 8)], 8, [⟨0, 64, .RO, []⟩]⟩,
  ⟨.PRT_PFC_WD, .PRT, 0x1001070, [(0x100000, 8), (0x100, 8)], 8, [⟨0, 64, .RO, []⟩]⟩,
  ⟨.PRT_PAUSE_DROP, .PRT, 0x1001078, [(0x100000, 8), (0x100, 8)], 8, [⟨0, 64, .RO, []⟩]⟩,
  ⟨.HOP_DEV, .HOP, 0x2000000, [], 4, [⟨0, 20, .RW, []⟩]⟩,
  ⟨.HOP_IP4, .HOP, 0x2000004, [], 4, [⟨0, 32, .RW, []⟩]⟩,
  ⟨.HOP_IP6_lo, .HOP, 0x2000010, [], 8, [⟨0, 64, .RW, []⟩]⟩,
  ⟨.HOP_IP6_hi, .HOP, 0x2000018, [], 8, [⟨0, 64, .RW, []⟩]⟩,
  ⟨.HOP_CFG, .HOP, 0x2000020, [], 4, [⟨0, 12, .RW, [(16, 4095)]⟩, ⟨12, 14, .RW, [(0, 10000)]⟩]⟩,
  ⟨.HOP_WX_CFG, .HOP, 0x2000024, [], 4, [⟨0, 14, .RW, [(20, 10000)]⟩, ⟨14, 17, .RW, [(200, 100000)]⟩]⟩,
  ⟨.HOP_DEFAULT, .HOP, 0x2000028, [], 8, [⟨0, 64, .RW, []⟩]⟩,
  ⟨.HOP_ROUTE_DST, .HOP, 0x2000030, [], 4, [⟨0, 20, .RW, []⟩]⟩,
  ⟨.HOP_ROUTE_MASK, .HOP, 0x2000038, [], 8, [⟨0, 64, .RW, []⟩]⟩,
  ⟨.HOP_ROUTE_CMD, .HOP, 0x2000040, [], 4, [⟨0, 2, .WO, [(1, 3)]⟩]⟩,
  ⟨.HOP_ROUTE_STATUS, .HOP, 0x2000044, [], 4, [⟨0, 1, .W1C, []⟩, ⟨1, 1, .W1C, []⟩, ⟨2, 2, .RO, []⟩, ⟨4, 28, .RO, []⟩]⟩,
  ⟨.HOP_WX_CMD, .HOP, 0x2000048, [], 4, [⟨0, 15, .RW, [(1, 14563)]⟩, ⟨31, 1, .W1S, []⟩]⟩,
  ⟨.HOP_FWD, .HOP, 0x2000100, [], 8, [⟨0, 64, .RO, []⟩]⟩,
  ⟨.HOP_DROP_NOROUTE, .HOP, 0x2000108, [], 8, [⟨0, 64, .RO, []⟩]⟩,
  ⟨.HOP_DROP_HOPS, .HOP, 0x2000110, [], 8, [⟨0, 64, .RO, []⟩]⟩,
  ⟨.HOP_DROP_AGE, .HOP, 0x2000118, [], 8, [⟨0, 64, .RO, []⟩]⟩]

/-- The register table, part 4. -/
def regTable4 : List RegInfo :=
  [⟨.HOP_DROP_FULL, .HOP, 0x2000120, [], 8, [⟨0, 64, .RO, []⟩]⟩,
  ⟨.HOP_DROP_DOWN, .HOP, 0x2000128, [], 8, [⟨0, 64, .RO, []⟩]⟩,
  ⟨.HOP_DROP_OVERSIZE, .HOP, 0x2000130, [], 8, [⟨0, 64, .RO, []⟩]⟩,
  ⟨.HOP_STOMP, .HOP, 0x2000138, [], 8, [⟨0, 64, .RO, []⟩]⟩,
  ⟨.HOP_REPLAY, .HOP, 0x2000140, [], 8, [⟨0, 64, .RO, []⟩]⟩,
  ⟨.HOP_NAK_SENT, .HOP, 0x2000148, [], 8, [⟨0, 64, .RO, []⟩]⟩,
  ⟨.HOP_SHIM_BAD, .HOP, 0x2000150, [], 8, [⟨0, 64, .RO, []⟩]⟩,
  ⟨.HOP_LINK_FAIL, .HOP, 0x2000158, [], 8, [⟨0, 64, .RO, []⟩]⟩,
  ⟨.HOP_ECN_MARK, .HOP, 0x2000160, [], 8, [⟨0, 64, .RO, []⟩]⟩,
  ⟨.WX_REPORT_SENT, .HOP, 0x2000168, [], 8, [⟨0, 64, .RO, []⟩]⟩,
  ⟨.WX_IGNORED, .HOP, 0x2000170, [], 8, [⟨0, 64, .RO, []⟩]⟩,
  ⟨.WX_EXPIRED, .HOP, 0x2000178, [], 8, [⟨0, 64, .RO, []⟩]⟩,
  ⟨.HPT_INST_STATE, .HPT, 0x10020000, [(0x100000, 1024)], 4, [⟨0, 2, .RO, []⟩, ⟨2, 4, .RO, []⟩, ⟨6, 1, .RO, []⟩, ⟨8, 12, .RO, []⟩]⟩,
  ⟨.HPT_ATTACH_TOKEN, .HPT, 0x10020008, [(0x100000, 1024)], 8, [⟨0, 64, .WO, []⟩]⟩,
  ⟨.HPT_ATTACH_CMD, .HPT, 0x10020010, [(0x100000, 1024)], 4, [⟨0, 3, .WO, [(1, 4)]⟩]⟩,
  ⟨.HPT_ATTACH_STATUS, .HPT, 0x10020014, [(0x100000, 1024)], 4, [⟨0, 1, .W1C, []⟩, ⟨1, 1, .W1C, []⟩, ⟨4, 4, .RO, []⟩]⟩,
  ⟨.HPT_TOKEN, .HPT, 0x10020018, [(0x100000, 1024)], 8, [⟨0, 64, .RC, []⟩]⟩,
  ⟨.HPT_APERTURE, .HPT, 0x10020020, [(0x100000, 1024)], 8, [⟨0, 12, .RW, []⟩, ⟨12, 1, .RW, []⟩, ⟨34, 30, .RW, []⟩]⟩,
  ⟨.HPT_LINK_w00, .HPT, 0x3000000, [(0x100, 16)], 4, [⟨0, 2, .RO, []⟩, ⟨2, 1, .RO, []⟩, ⟨3, 3, .RO, []⟩, ⟨6, 5, .RO, []⟩]⟩,
  ⟨.HPT_LINK_w04, .HPT, 0x3000004, [(0x100, 16)], 4, [⟨0, 10, .RW, [(1, 1000)]⟩]⟩,
  ⟨.HPT_LINK_w08, .HPT, 0x3000008, [(0x100, 16)], 4, [⟨0, 18, .RO, []⟩]⟩,
  ⟨.HPT_FENCE, .HPT, 0x3001000, [(0x80, 16)], 8, [⟨0, 64, .RO, []⟩]⟩,
  ⟨.HPT_WR_DROP, .HPT, 0x3001008, [(0x80, 16)], 8, [⟨0, 64, .RO, []⟩]⟩,
  ⟨.HPT_RD_LOST, .HPT, 0x3001010, [(0x80, 16)], 8, [⟨0, 64, .RO, []⟩]⟩,
  ⟨.HPT_FLR, .HPT, 0x3001018, [(0x80, 16)], 8, [⟨0, 64, .RO, []⟩]⟩,
  ⟨.HPT_UR, .HPT, 0x3001020, [(0x80, 16)], 8, [⟨0, 64, .RO, []⟩]⟩,
  ⟨.HPT_CPL_TIMEOUT, .HPT, 0x3001028, [(0x80, 16)], 8, [⟨0, 64, .RO, []⟩]⟩,
  ⟨.HPT_RETRAIN, .HPT, 0x3001030, [(0x80, 16)], 8, [⟨0, 64, .RO, []⟩]⟩,
  ⟨.HPT_INBOUND_FAULT, .HPT, 0x3001038, [(0x80, 16)], 8, [⟨0, 64, .RO, []⟩]⟩,
  ⟨.HPT_ATTACH_REFUSED, .HPT, 0x3001040, [(0x80, 16)], 8, [⟨0, 64, .RO, []⟩]⟩,
  ⟨.HPT_RP_RID, .HPT, 0x3004000, [(0x100, 16), (0x8, 32)], 8, [⟨0, 16, .RW, []⟩, ⟨16, 10, .RW, []⟩, ⟨26, 12, .RW, []⟩, ⟨38, 1, .RW, []⟩]⟩,
  ⟨.XLT_CFG, .XLT, 0x3200000, [], 4, [⟨0, 17, .RW, [(10, 100000)]⟩, ⟨17, 7, .RW, [(0, 100)]⟩]⟩,
  ⟨.XLT_CACHE, .XLT, 0x3200008, [], 8, [⟨0, 17, .RO, []⟩, ⟨17, 15, .RO, []⟩, ⟨32, 7, .RO, []⟩]⟩,
  ⟨.XLT_LOOKUP, .XLT, 0x3200100, [], 8, [⟨0, 64, .RO, []⟩]⟩,
  ⟨.XLT_HIT, .XLT, 0x3200108, [], 8, [⟨0, 64, .RO, []⟩]⟩,
  ⟨.XLT_WALK, .XLT, 0x3200110, [], 8, [⟨0, 64, .RO, []⟩]⟩,
  ⟨.XLT_FAULT, .XLT, 0x3200118, [], 8, [⟨0, 64, .RO, []⟩]⟩,
  ⟨.XLT_VIOLATION, .XLT, 0x3200120, [], 8, [⟨0, 64, .RO, []⟩]⟩,
  ⟨.XLT_FQ_OVERFLOW, .XLT, 0x3200128, [], 8, [⟨0, 64, .RO, []⟩]⟩,
  ⟨.XLT_EQ_OVERFLOW, .XLT, 0x3200130, [], 8, [⟨0, 64, .RO, []⟩]⟩]

/-- The register table, part 5. -/
def regTable5 : List RegInfo :=
  [⟨.XLT_HOLD_EXPIRED, .XLT, 0x3200138, [], 8, [⟨0, 64, .RO, []⟩]⟩,
  ⟨.XLT_INVAL, .XLT, 0x3200140, [], 8, [⟨0, 64, .RO, []⟩]⟩,
  ⟨.XLT_PIN_LOST, .XLT, 0x3200148, [], 8, [⟨0, 64, .RO, []⟩]⟩,
  ⟨.XLT_RESOLVE, .XLT, 0x3200150, [], 8, [⟨0, 64, .RO, []⟩]⟩,
  ⟨.XLT_PTN_CFG, .XLT, 0x3201000, [(0x8, 64)], 8, [⟨0, 12, .RW, []⟩, ⟨12, 12, .RO, []⟩, ⟨24, 10, .RO, []⟩, ⟨34, 1, .RO, []⟩, ⟨35, 16, .RO, []⟩, ⟨51, 7, .RO, []⟩]⟩,
  ⟨.XLT_TAG, .XLT, 0x3208000, [(0x8, 4096)], 8, [⟨0, 2, .RO, []⟩, ⟨2, 10, .RO, []⟩, ⟨12, 6, .RO, []⟩, ⟨18, 1, .RO, []⟩, ⟨19, 1, .RO, []⟩, ⟨20, 16, .RO, []⟩, ⟨36, 16, .RO, []⟩]⟩,
  ⟨.LRD_CFG, .LRD, 0x4000000, [], 4, [⟨0, 16, .RW, [(1, 65535)]⟩, ⟨16, 11, .RW, [(1, 1440)]⟩]⟩,
  ⟨.LRD_SPARE_MAP, .LRD, 0x4000010, [], 4, [⟨0, 8, .WO, []⟩, ⟨8, 3, .WO, [(0, 7)]⟩, ⟨31, 1, .W1S, []⟩]⟩,
  ⟨.LRD_RETIRE, .LRD, 0x4000014, [], 4, [⟨0, 8, .WO, []⟩, ⟨31, 1, .W1S, []⟩]⟩,
  ⟨.LRD_SPARE_STATE, .LRD, 0x4000018, [], 4, [⟨0, 8, .RO, []⟩, ⟨8, 8, .RO, []⟩]⟩,
  ⟨.LRD_CELLAR, .LRD, 0x4000020, [], 4, [⟨0, 2, .RO, []⟩, ⟨2, 10, .RO, []⟩, ⟨16, 16, .RO, []⟩]⟩,
  ⟨.LRD_SCRUB, .LRD, 0x4000028, [], 8, [⟨0, 10, .RO, []⟩, ⟨32, 18, .RO, []⟩]⟩,
  ⟨.LRD_BANK, .LRD, 0x4000100, [(0x4, 256)], 4, [⟨0, 3, .RO, []⟩, ⟨8, 9, .RO, []⟩, ⟨17, 15, .RO, []⟩]⟩,
  ⟨.LRD_CE, .LRD, 0x4000200, [], 8, [⟨0, 64, .RO, []⟩]⟩,
  ⟨.LRD_UE, .LRD, 0x4000208, [], 8, [⟨0, 64, .RO, []⟩]⟩,
  ⟨.LRD_POISON_READ, .LRD, 0x4000210, [], 8, [⟨0, 64, .RO, []⟩]⟩,
  ⟨.LRD_RW_FORWARD, .LRD, 0x4000218, [], 8, [⟨0, 64, .RO, []⟩]⟩,
  ⟨.LRD_BLK_RESEND, .LRD, 0x4000220, [], 8, [⟨0, 64, .RO, []⟩]⟩,
  ⟨.LRD_BLK_ESCALATE, .LRD, 0x4000228, [], 8, [⟨0, 64, .RO, []⟩]⟩,
  ⟨.LRD_SCRUB_PASS, .LRD, 0x4000230, [], 8, [⟨0, 64, .RO, []⟩]⟩,
  ⟨.HBM_CFG, .HBM, 0x4100000, [], 4, [⟨0, 8, .RW, [(1, 168)]⟩]⟩,
  ⟨.DDR_CFG, .DDR, 0x4200000, [], 4, [⟨0, 8, .RW, [(1, 168)]⟩]⟩,
  ⟨.HBM_CAP, .HBM, 0x4100008, [], 4, [⟨0, 12, .RO, []⟩, ⟨16, 12, .RO, []⟩]⟩,
  ⟨.DDR_CAP, .DDR, 0x4200008, [], 4, [⟨0, 12, .RO, []⟩, ⟨16, 12, .RO, []⟩]⟩,
  ⟨.HBM_STACK, .HBM, 0x4100010, [(0x8, 4)], 8, [⟨0, 32, .RO, []⟩, ⟨32, 8, .RO, []⟩, ⟨40, 1, .RO, []⟩, ⟨41, 6, .RO, []⟩]⟩,
  ⟨.DDR_CH, .DDR, 0x4200010, [(0x8, 8)], 8, [⟨0, 2, .RO, []⟩, ⟨2, 1, .RO, []⟩, ⟨4, 14, .RO, []⟩, ⟨18, 9, .RO, []⟩, ⟨32, 4, .RO, []⟩]⟩,
  ⟨.HBM_SCRUB, .HBM, 0x4100040, [], 8, [⟨0, 10, .RO, []⟩, ⟨32, 21, .RO, []⟩]⟩,
  ⟨.DDR_SCRUB, .DDR, 0x4200060, [], 8, [⟨0, 10, .RO, []⟩, ⟨32, 21, .RO, []⟩]⟩,
  ⟨.HBM_CE, .HBM, 0x4100100, [], 8, [⟨0, 64, .RO, []⟩]⟩,
  ⟨.HBM_UE, .HBM, 0x4100108, [], 8, [⟨0, 64, .RO, []⟩]⟩,
  ⟨.HBM_REREAD_OK, .HBM, 0x4100110, [], 8, [⟨0, 64, .RO, []⟩]⟩,
  ⟨.HBM_POISON_READ, .HBM, 0x4100118, [], 8, [⟨0, 64, .RO, []⟩]⟩,
  ⟨.HBM_LANE_REPAIR, .HBM, 0x4100120, [], 8, [⟨0, 64, .RO, []⟩]⟩,
  ⟨.HBM_RECAL, .HBM, 0x4100128, [], 8, [⟨0, 64, .RO, []⟩]⟩,
  ⟨.HBM_WR_DROP, .HBM, 0x4100130, [], 8, [⟨0, 64, .RO, []⟩]⟩,
  ⟨.DDR_CE, .DDR, 0x4200100, [], 8, [⟨0, 64, .RO, []⟩]⟩,
  ⟨.DDR_UE, .DDR, 0x4200108, [], 8, [⟨0, 64, .RO, []⟩]⟩,
  ⟨.DDR_REREAD_OK, .DDR, 0x4200110, [], 8, [⟨0, 64, .RO, []⟩]⟩,
  ⟨.DDR_POISON_READ, .DDR, 0x4200118, [], 8, [⟨0, 64, .RO, []⟩]⟩,
  ⟨.DDR_PPR, .DDR, 0x4200120, [], 8, [⟨0, 64, .RO, []⟩]⟩]

/-- The register table, part 6. -/
def regTable6 : List RegInfo :=
  [⟨.DDR_RECAL, .DDR, 0x4200128, [], 8, [⟨0, 64, .RO, []⟩]⟩,
  ⟨.DDR_WR_DROP, .DDR, 0x4200130, [], 8, [⟨0, 64, .RO, []⟩]⟩,
  ⟨.PTN_PART_w0, .PTN, 0x8000000, [(0x10, 64)], 4, [⟨0, 3, .RO, []⟩, ⟨3, 1, .RO, []⟩, ⟨4, 11, .RO, []⟩]⟩,
  ⟨.PTN_PART_w4, .PTN, 0x8000004, [(0x10, 64)], 4, [⟨0, 16, .RO, []⟩, ⟨16, 15, .RO, []⟩]⟩,
  ⟨.PTN_PART_w8, .PTN, 0x8000008, [(0x10, 64)], 4, [⟨0, 21, .RO, []⟩]⟩,
  ⟨.PTN_PART_wC, .PTN, 0x800000C, [(0x10, 64)], 4, [⟨0, 17, .RO, []⟩]⟩,
  ⟨.PTN_TOKEN_SEL, .PTN, 0x8000400, [], 4, [⟨0, 10, .RW, []⟩]⟩,
  ⟨.PTN_TOKEN_READ, .PTN, 0x8000408, [], 8, [⟨0, 64, .RC, []⟩]⟩,
  ⟨.PTN_CREATED, .PTN, 0x8000800, [], 8, [⟨0, 64, .RO, []⟩]⟩,
  ⟨.PTN_QUIESCE, .PTN, 0x8000808, [], 8, [⟨0, 64, .RO, []⟩]⟩,
  ⟨.PTN_DRAIN_TIMEOUT, .PTN, 0x8000810, [], 8, [⟨0, 64, .RO, []⟩]⟩,
  ⟨.PTN_CTX_RESET_OPS, .PTN, 0x8000818, [], 8, [⟨0, 64, .RO, []⟩]⟩,
  ⟨.PTN_FENCE_NAK, .PTN, 0x8000820, [], 8, [⟨0, 64, .RO, []⟩]⟩,
  ⟨.PTN_FENCE_DROP, .PTN, 0x8000828, [], 8, [⟨0, 64, .RO, []⟩]⟩,
  ⟨.PTN_RESET_REFUSED, .PTN, 0x8000830, [], 8, [⟨0, 64, .RO, []⟩]⟩,
  ⟨.PTN_INST_w00, .PTN, 0x8010000, [(0x20, 1024)], 4, [⟨0, 3, .RO, []⟩, ⟨3, 6, .RO, []⟩, ⟨9, 7, .RO, []⟩, ⟨16, 4, .RO, []⟩]⟩,
  ⟨.PTN_INST_w04, .PTN, 0x8010004, [(0x20, 1024)], 4, [⟨0, 13, .RO, []⟩, ⟨13, 15, .RO, []⟩]⟩,
  ⟨.PTN_INST_w08, .PTN, 0x8010008, [(0x20, 1024)], 4, [⟨0, 21, .RO, []⟩]⟩,
  ⟨.PTN_INST_w0C, .PTN, 0x801000C, [(0x20, 1024)], 4, [⟨0, 17, .RO, []⟩]⟩,
  ⟨.PTN_INST_w10, .PTN, 0x8010010, [(0x20, 1024)], 4, [⟨0, 12, .RO, []⟩, ⟨12, 10, .RO, []⟩]⟩,
  ⟨.PTN_INST_w14, .PTN, 0x8010014, [(0x20, 1024)], 4, [⟨0, 16, .RO, []⟩]⟩,
  ⟨.PTN_INST_w18, .PTN, 0x8010018, [(0x20, 1024)], 4, [⟨0, 24, .RO, []⟩]⟩,
  ⟨.PTN_INST_w1C, .PTN, 0x801001C, [(0x20, 1024)], 4, [⟨0, 17, .RO, []⟩]⟩,
  ⟨.CPH_CFG, .CPH, 0x6000000, [], 4, [⟨0, 4, .RW, [(1, 15)]⟩]⟩,
  ⟨.CPH_KEY_LOAD, .CPH, 0x6000010, [(0x4, 8)], 4, [⟨0, 32, .WO, []⟩]⟩,
  ⟨.CPH_KEY_SALT, .CPH, 0x6000030, [], 4, [⟨0, 32, .RW, []⟩]⟩,
  ⟨.CPH_KEY_CTL, .CPH, 0x6000034, [], 4, [⟨0, 16, .RW, []⟩, ⟨16, 10, .RW, []⟩, ⟨26, 1, .RW, []⟩, ⟨27, 1, .RW, []⟩]⟩,
  ⟨.CPH_KEY_CMD, .CPH, 0x6000038, [], 4, [⟨0, 7, .RW, [(20, 64)]⟩, ⟨8, 3, .WO, [(1, 4)]⟩]⟩,
  ⟨.CPH_KEY_STATUS, .CPH, 0x600003C, [], 4, [⟨0, 1, .RO, []⟩, ⟨1, 1, .W1C, []⟩, ⟨2, 1, .W1C, []⟩, ⟨8, 4, .RO, []⟩, ⟨12, 8, .RO, []⟩, ⟨20, 10, .RO, []⟩]⟩,
  ⟨.CPH_SLOT_SEL, .CPH, 0x6000040, [], 4, [⟨0, 16, .RW, []⟩]⟩,
  ⟨.CPH_SLOT_INFO, .CPH, 0x6000048, [], 8, [⟨0, 2, .RO, []⟩, ⟨2, 1, .RO, []⟩, ⟨3, 1, .RO, []⟩, ⟨4, 10, .RO, []⟩, ⟨14, 7, .RO, []⟩, ⟨21, 1, .RO, []⟩, ⟨32, 32, .RO, []⟩]⟩,
  ⟨.CPH_SLOT_CTR, .CPH, 0x6000050, [], 8, [⟨0, 64, .RO, []⟩]⟩,
  ⟨.CPH_SLOT_FAIL, .CPH, 0x6000058, [], 8, [⟨0, 16, .RO, []⟩]⟩,
  ⟨.CPH_SPARE_MAP, .CPH, 0x6000060, [], 4, [⟨0, 5, .WO, [(0, 17)]⟩, ⟨8, 5, .WO, [(0, 17)]⟩, ⟨31, 1, .W1S, []⟩]⟩,
  ⟨.CPH_CORE_STATE, .CPH, 0x6000100, [(0x4, 18)], 4, [⟨0, 2, .RO, []⟩, ⟨2, 1, .RO, []⟩]⟩,
  ⟨.CPH_ENC_PKTS, .CPH, 0x6000200, [], 8, [⟨0, 64, .RO, []⟩]⟩,
  ⟨.CPH_DEC_PKTS, .CPH, 0x6000208, [], 8, [⟨0, 64, .RO, []⟩]⟩,
  ⟨.CPH_TAG_FAIL, .CPH, 0x6000210, [], 8, [⟨0, 64, .RO, []⟩]⟩,
  ⟨.CPH_EXHAUSTED, .CPH, 0x6000218, [], 8, [⟨0, 64, .RO, []⟩]⟩,
  ⟨.CPH_CORE_ERR, .CPH, 0x6000220, [], 8, [⟨0, 64, .RO, []⟩]⟩]

/-- The register table, part 7. -/
def regTable7 : List RegInfo :=
  [⟨.CPH_WIPES, .CPH, 0x6000228, [], 8, [⟨0, 64, .RO, []⟩]⟩,
  ⟨.TRU_LC, .TRU, 0x6100000, [], 4, [⟨0, 3, .RO, []⟩, ⟨3, 2, .RO, []⟩, ⟨5, 1, .RO, []⟩, ⟨6, 1, .RO, []⟩, ⟨7, 1, .RO, []⟩]⟩,
  ⟨.TRU_CMD, .TRU, 0x6100004, [], 4, [⟨0, 4, .WO, [(1, 6)]⟩, ⟨4, 3, .WO, [(0, 7)]⟩, ⟨8, 8, .WO, []⟩]⟩,
  ⟨.TRU_STATUS, .TRU, 0x6100008, [], 4, [⟨0, 1, .RO, []⟩, ⟨1, 1, .W1C, []⟩, ⟨2, 1, .W1C, []⟩, ⟨8, 4, .RO, []⟩]⟩,
  ⟨.TRU_BOOT, .TRU, 0x610000C, [], 4, [⟨0, 4, .RO, []⟩, ⟨4, 1, .RO, []⟩, ⟨8, 8, .RO, []⟩, ⟨16, 8, .RO, []⟩, ⟨24, 8, .RO, []⟩]⟩,
  ⟨.TRU_TAMPER_CFG, .TRU, 0x6100020, [], 4, [⟨0, 4, .RW, []⟩, ⟨4, 4, .RW, []⟩]⟩,
  ⟨.TRU_TAMPER_STATE, .TRU, 0x6100024, [], 4, [⟨0, 4, .RO, []⟩, ⟨8, 4, .W1C, []⟩, ⟨16, 16, .RO, []⟩]⟩,
  ⟨.CKP_CFG, .CKP, 0x6200000, [], 4, [⟨0, 16, .RW, [(100, 60000)]⟩, ⟨16, 3, .RW, []⟩, ⟨19, 5, .RW, []⟩, ⟨24, 8, .RW, [(1, 60)]⟩]⟩,
  ⟨.CKP_TGT_SEL, .CKP, 0x6200010, [], 4, [⟨0, 6, .RW, []⟩]⟩,
  ⟨.CKP_TGT_CFG, .CKP, 0x6200018, [], 8, [⟨0, 6, .RW, []⟩, ⟨8, 16, .RW, [(1, 65535)]⟩, ⟨24, 4, .RW, [(1, 8)]⟩, ⟨32, 8, .RW, [(1, 128)]⟩]⟩,
  ⟨.CKP_TGT_NSID, .CKP, 0x6200020, [], 4, [⟨0, 32, .RW, [(1, 4294967294)]⟩]⟩,
  ⟨.CKP_TGT_PORTS, .CKP, 0x6200028, [], 8, [⟨0, 64, .RW, []⟩]⟩,
  ⟨.CKP_TGT_IP_lo, .CKP, 0x6200030, [], 8, [⟨0, 64, .RW, []⟩]⟩,
  ⟨.CKP_TGT_IP_hi, .CKP, 0x6200038, [], 8, [⟨0, 64, .RW, []⟩]⟩,
  ⟨.CKP_TGT_CMD, .CKP, 0x6200040, [], 4, [⟨0, 2, .WO, [(1, 2)]⟩]⟩,
  ⟨.CKP_TGT_STATUS, .CKP, 0x6200044, [], 4, [⟨0, 2, .RO, []⟩, ⟨2, 1, .RO, []⟩, ⟨3, 1, .RO, []⟩, ⟨4, 4, .RO, []⟩, ⟨8, 8, .RO, []⟩]⟩,
  ⟨.CKP_STREAM_w0, .CKP, 0x6201000, [(0x10, 256)], 4, [⟨0, 1, .RO, []⟩, ⟨1, 1, .RO, []⟩, ⟨2, 10, .RO, []⟩, ⟨12, 10, .RO, []⟩, ⟨22, 6, .RO, []⟩]⟩,
  ⟨.CKP_STREAM_w8, .CKP, 0x6201008, [(0x10, 256)], 8, [⟨0, 32, .RO, []⟩, ⟨32, 32, .RO, []⟩]⟩,
  ⟨.CKP_REC_WRITTEN, .CKP, 0x6200800, [], 8, [⟨0, 64, .RO, []⟩]⟩,
  ⟨.CKP_REC_READ, .CKP, 0x6200808, [], 8, [⟨0, 64, .RO, []⟩]⟩,
  ⟨.CKP_RETRY, .CKP, 0x6200810, [], 8, [⟨0, 64, .RO, []⟩]⟩,
  ⟨.CKP_DIGEST_ERR, .CKP, 0x6200818, [], 8, [⟨0, 64, .RO, []⟩]⟩,
  ⟨.CKP_TRAILER_ERR, .CKP, 0x6200820, [], 8, [⟨0, 64, .RO, []⟩]⟩,
  ⟨.CKP_CONN_FAIL, .CKP, 0x6200828, [], 8, [⟨0, 64, .RO, []⟩]⟩,
  ⟨.PWR_CFG, .PWR, 0x200000, [], 4, [⟨0, 10, .RW, [(300, 700)]⟩]⟩,
  ⟨.PWR_STATUS, .PWR, 0x200004, [], 4, [⟨0, 3, .RO, []⟩, ⟨3, 1, .RO, []⟩, ⟨4, 10, .RO, []⟩, ⟨14, 1, .RO, []⟩, ⟨15, 1, .RO, []⟩, ⟨16, 4, .RO, []⟩]⟩,
  ⟨.PWR_DEV_CMD, .PWR, 0x200008, [], 4, [⟨0, 2, .WO, [(1, 2)]⟩, ⟨4, 20, .RW, [(0, 1000000)]⟩]⟩,
  ⟨.PWR_DEV_STATUS, .PWR, 0x20000C, [], 4, [⟨0, 1, .RO, []⟩, ⟨1, 1, .W1C, []⟩, ⟨2, 1, .W1C, []⟩, ⟨4, 4, .RO, []⟩, ⟨8, 2, .RO, []⟩]⟩,
  ⟨.PWR_XING_MODE, .PWR, 0x200010, [], 4, [⟨0, 16, .RW, []⟩]⟩,
  ⟨.PWR_TICK, .PWR, 0x200018, [], 8, [⟨0, 64, .RO, []⟩]⟩,
  ⟨.PWR_EVT_SEL, .PWR, 0x200100, [(0x4, 16)], 4, [⟨0, 8, .RW, [(0, 16)]⟩]⟩,
  ⟨.PWR_EVT, .PWR, 0x200200, [(0x8, 16)], 8, [⟨0, 64, .RO, []⟩]⟩,
  ⟨.PWR_DOM, .PWR, 0x201000, [(0x8, 96)], 8, [⟨0, 3, .RO, []⟩, ⟨3, 3, .RW, [(0, 4)]⟩, ⟨6, 1, .RW, []⟩, ⟨7, 1, .RO, []⟩, ⟨8, 20, .RW, [(0, 1000000)]⟩, ⟨32, 32, .RO, []⟩]⟩,
  ⟨.PWR_KINDLE, .PWR, 0x200800, [], 8, [⟨0, 64, .RO, []⟩]⟩,
  ⟨.PWR_HELD_PRIV, .PWR, 0x200808, [], 8, [⟨0, 64, .RO, []⟩]⟩,
  ⟨.PWR_THROTTLE_US, .PWR, 0x200810, [], 8, [⟨0, 64, .RO, []⟩]⟩,
  ⟨.PWR_XTAL_FAIL, .PWR, 0x200818, [], 8, [⟨0, 64, .RO, []⟩]⟩,
  ⟨.PWR_MERGED, .PWR, 0x200820, [], 8, [⟨0, 64, .RO, []⟩]⟩,
  ⟨.RST_WD_FAST, .RST, 0x300000, [], 8, [⟨0, 10, .RW, [(1, 1000)]⟩, ⟨10, 10, .RW, [(1, 1000)]⟩, ⟨20, 10, .RW, [(1, 1000)]⟩, ⟨30, 10, .RW, [(1, 1000)]⟩]⟩,
  ⟨.RST_WD_SLOW, .RST, 0x300008, [], 8, [⟨0, 14, .RW, [(10, 10000)]⟩, ⟨14, 14, .RW, [(10, 10000)]⟩, ⟨28, 14, .RW, [(10, 10000)]⟩, ⟨42, 14, .RW, [(10, 10000)]⟩]⟩]

/-- The register table, part 8. -/
def regTable8 : List RegInfo :=
  [⟨.RST_CFG, .RST, 0x300010, [], 4, [⟨0, 1, .RW, []⟩, ⟨1, 1, .RW, []⟩]⟩,
  ⟨.RST_CMD, .RST, 0x300018, [], 4, [⟨0, 3, .WO, [(1, 5)]⟩, ⟨4, 3, .WO, [(0, 4)]⟩, ⟨8, 6, .WO, []⟩]⟩,
  ⟨.RST_STATUS, .RST, 0x30001C, [], 4, [⟨0, 1, .RO, []⟩, ⟨1, 1, .W1C, []⟩, ⟨2, 1, .W1C, []⟩, ⟨3, 1, .RO, []⟩, ⟨4, 4, .RO, []⟩]⟩,
  ⟨.RST_LAST, .RST, 0x300020, [], 8, [⟨0, 8, .RO, []⟩, ⟨32, 32, .RO, []⟩]⟩,
  ⟨.RST_HIST, .RST, 0x300040, [(0x8, 4)], 8, [⟨0, 64, .RO, []⟩]⟩,
  ⟨.RST_HANG_LAST, .RST, 0x300060, [], 8, [⟨0, 3, .RO, []⟩, ⟨8, 6, .RO, []⟩, ⟨16, 8, .RO, []⟩, ⟨24, 8, .RO, []⟩, ⟨32, 2, .RO, []⟩]⟩,
  ⟨.RST_DUMP_STATUS, .RST, 0x300068, [], 4, [⟨0, 1, .RO, []⟩, ⟨1, 1, .RW, []⟩, ⟨2, 8, .RW, [(0, 127)]⟩]⟩,
  ⟨.RST_CTX_RESETS, .RST, 0x300100, [], 8, [⟨0, 64, .RO, []⟩]⟩,
  ⟨.RST_ENGINE_RESETS, .RST, 0x300108, [], 8, [⟨0, 64, .RO, []⟩]⟩,
  ⟨.RST_PTN_RESETS, .RST, 0x300110, [], 8, [⟨0, 64, .RO, []⟩]⟩,
  ⟨.RST_CHIP_RESETS, .RST, 0x300118, [], 8, [⟨0, 64, .RO, []⟩]⟩,
  ⟨.RST_HANGS, .RST, 0x300120, [], 8, [⟨0, 64, .RO, []⟩]⟩,
  ⟨.RST_GUILTY, .RST, 0x300128, [], 8, [⟨0, 64, .RO, []⟩]⟩,
  ⟨.RST_NOT_REPLAYED, .RST, 0x300130, [], 8, [⟨0, 64, .RO, []⟩]⟩,
  ⟨.RST_RETIRED_UNITS, .RST, 0x300138, [], 8, [⟨0, 64, .RO, []⟩]⟩,
  ⟨.RST_DUMP_NORESP, .RST, 0x300140, [], 8, [⟨0, 64, .RO, []⟩]⟩,
  ⟨.LOG_CFG, .LOG, 0x400000, [], 4, [⟨0, 10, .RW, [(1, 1000)]⟩]⟩,
  ⟨.LOG_STATUS, .LOG, 0x400008, [], 8, [⟨0, 21, .RO, []⟩, ⟨32, 21, .RO, []⟩, ⟨61, 1, .RO, []⟩]⟩,
  ⟨.LOG_CURSOR, .LOG, 0x400010, [], 4, [⟨0, 21, .RW, [(0, 1964031)]⟩, ⟨21, 1, .RW, []⟩]⟩,
  ⟨.LOG_CMD, .LOG, 0x400014, [], 4, [⟨0, 2, .WO, [(1, 2)]⟩, ⟨2, 1, .WO, []⟩]⟩,
  ⟨.LOG_READ_STATUS, .LOG, 0x400018, [], 8, [⟨0, 1, .RO, []⟩, ⟨1, 8, .RO, []⟩, ⟨32, 21, .RO, []⟩, ⟨53, 11, .RO, []⟩]⟩,
  ⟨.LOG_WRITTEN, .LOG, 0x400100, [], 8, [⟨0, 64, .RO, []⟩]⟩,
  ⟨.LOG_REPEATS, .LOG, 0x400108, [], 8, [⟨0, 64, .RO, []⟩]⟩,
  ⟨.LOG_DROPPED, .LOG, 0x400110, [], 8, [⟨0, 64, .RO, []⟩]⟩,
  ⟨.LOG_TORN, .LOG, 0x400118, [], 8, [⟨0, 64, .RO, []⟩]⟩,
  ⟨.LOG_FLASH_ERR, .LOG, 0x400120, [], 8, [⟨0, 64, .RO, []⟩]⟩,
  ⟨.INJ_UNLOCK, .INJ, 0x500000, [], 4, [⟨0, 1, .RW, []⟩, ⟨8, 8, .WO, []⟩]⟩,
  ⟨.INJ_SEL, .INJ, 0x500008, [], 4, [⟨0, 16, .RW, []⟩, ⟨16, 8, .RW, []⟩]⟩,
  ⟨.INJ_CTL, .INJ, 0x500010, [], 8, [⟨0, 16, .RW, [(1, 65535)]⟩, ⟨16, 16, .RW, []⟩, ⟨32, 6, .RW, []⟩, ⟨38, 1, .RW, []⟩]⟩,
  ⟨.INJ_CMD, .INJ, 0x500018, [], 4, [⟨0, 2, .WO, [(1, 2)]⟩]⟩,
  ⟨.INJ_STATUS, .INJ, 0x50001C, [], 4, [⟨0, 1, .RO, []⟩, ⟨1, 1, .W1C, []⟩, ⟨2, 4, .RO, []⟩, ⟨16, 16, .RO, []⟩]⟩,
  ⟨.INJ_FIRED, .INJ, 0x500100, [], 8, [⟨0, 64, .RO, []⟩]⟩,
  ⟨.TEL_SPARE, .TEL, 0x600000, [(0x8, 11)], 8, [⟨0, 8, .RO, []⟩, ⟨8, 8, .RO, []⟩, ⟨16, 8, .RO, []⟩, ⟨24, 8, .RO, []⟩]⟩,
  ⟨.TEL_KLN, .TEL, 0x600100, [], 4, [⟨0, 4, .RO, []⟩, ⟨4, 8, .RO, []⟩]⟩,
  ⟨.TEL_SNAP_CMD, .TEL, 0x600200, [], 4, [⟨0, 1, .W1S, []⟩]⟩,
  ⟨.MGT_CFG, .MGT, 0x7000000, [], 4, [⟨0, 14, .RW, [(1518, 9216)]⟩, ⟨14, 6, .RW, [(1, 60)]⟩, ⟨20, 1, .RW, []⟩, ⟨21, 11, .RW, [(0, 1440)]⟩]⟩,
  ⟨.MGT_PLCA, .MGT, 0x7000008, [], 4, [⟨0, 1, .RW, []⟩, ⟨1, 8, .RW, [(0, 255)]⟩, ⟨9, 8, .RW, [(1, 255)]⟩, ⟨17, 8, .RW, [(1, 255)]⟩]⟩,
  ⟨.MGT_MAC, .MGT, 0x7000010, [], 8, [⟨0, 48, .RO, []⟩]⟩,
  ⟨.MGT_TC_MAC, .MGT, 0x7000018, [], 8, [⟨0, 48, .RW, []⟩]⟩,
  ⟨.MGT_BOOT, .MGT, 0x7000020, [], 4, [⟨0, 2, .RO, []⟩, ⟨2, 1, .RO, []⟩, ⟨3, 1, .RO, []⟩, ⟨4, 10, .RO, []⟩, ⟨14, 6, .RO, []⟩]⟩]

/-- The register table, part 9. -/
def regTable9 : List RegInfo :=
  [⟨.MGT_CRED_CMD, .MGT, 0x7000100, [], 4, [⟨0, 2, .WO, [(1, 3)]⟩]⟩,
  ⟨.MGT_CRED_STATUS, .MGT, 0x7000104, [], 4, [⟨0, 1, .RO, []⟩, ⟨1, 1, .RO, []⟩, ⟨2, 3, .RO, []⟩, ⟨5, 2, .RO, []⟩, ⟨7, 3, .RO, []⟩]⟩,
  ⟨.MGT_FW_CMD, .MGT, 0x7000200, [], 4, [⟨0, 2, .WO, [(1, 2)]⟩]⟩,
  ⟨.MGT_FW_STATUS, .MGT, 0x7000204, [], 4, [⟨0, 1, .RO, []⟩, ⟨1, 1, .W1C, []⟩, ⟨2, 1, .W1C, []⟩, ⟨8, 4, .RO, []⟩, ⟨12, 10, .RO, []⟩]⟩,
  ⟨.MGT_TX_FRAMES, .MGT, 0x7000800, [], 8, [⟨0, 64, .RO, []⟩]⟩,
  ⟨.MGT_RX_FRAMES, .MGT, 0x7000808, [], 8, [⟨0, 64, .RO, []⟩]⟩,
  ⟨.MGT_COLLISIONS, .MGT, 0x7000810, [], 8, [⟨0, 64, .RO, []⟩]⟩,
  ⟨.MGT_EXCESS_COLL, .MGT, 0x7000818, [], 8, [⟨0, 64, .RO, []⟩]⟩,
  ⟨.MGT_TX_DROP, .MGT, 0x7000820, [], 8, [⟨0, 64, .RO, []⟩]⟩,
  ⟨.MGT_RX_DROP, .MGT, 0x7000828, [], 8, [⟨0, 64, .RO, []⟩]⟩,
  ⟨.MGT_PROBE_REFUSED, .MGT, 0x7000830, [], 8, [⟨0, 64, .RO, []⟩]⟩,
  ⟨.MGT_MSG_DROP, .MGT, 0x7000838, [], 8, [⟨0, 64, .RO, []⟩]⟩,
  ⟨.GLB_BLOCKS, .GLB, 0x4, [], 4, [⟨0, 29, .RO, []⟩]⟩,
  ⟨.GLB_SCRATCH, .GLB, 0x8, [], 8, [⟨0, 64, .RW, []⟩]⟩,
  ⟨.DMV_Q, .DMV, 0x3300100, [(0x4, 4)], 4, [⟨0, 2, .RO, []⟩, ⟨2, 12, .RO, []⟩]⟩,
  ⟨.DMV_HOST_RD_BYTES, .DMV, 0x3300200, [], 8, [⟨0, 64, .RO, []⟩]⟩,
  ⟨.DMV_HOST_WR_BYTES, .DMV, 0x3300208, [], 8, [⟨0, 64, .RO, []⟩]⟩,
  ⟨.DMV_CHECK_FAIL, .DMV, 0x3300210, [], 8, [⟨0, 64, .RO, []⟩]⟩,
  ⟨.DMV_REPACK, .DMV, 0x3300218, [], 8, [⟨0, 64, .RO, []⟩]⟩,
  ⟨.CMN_VOIDS, .CMN, 0x5100040, [], 8, [⟨0, 64, .RO, []⟩]⟩,
  ⟨.KLN_MOD_w00, .KLN, 0x2500000, [(0x40, 8)], 4, [⟨0, 2, .RO, []⟩, ⟨2, 2, .RO, []⟩, ⟨4, 3, .RO, []⟩, ⟨7, 3, .RO, []⟩]⟩,
  ⟨.KLN_MOD_w08, .KLN, 0x2500008, [(0x40, 8)], 8, [⟨0, 64, .RO, []⟩]⟩,
  ⟨.KLN_MOD_w10, .KLN, 0x2500010, [(0x40, 8)], 8, [⟨0, 64, .RO, []⟩]⟩,
  ⟨.KLN_MOD_w18, .KLN, 0x2500018, [(0x40, 8)], 8, [⟨0, 64, .RO, []⟩]⟩,
  ⟨.KLN_MOD_w20, .KLN, 0x2500020, [(0x40, 8)], 8, [⟨0, 64, .RO, []⟩]⟩]

/-- Every register, in the order of the chapters. -/
def regTable : List RegInfo :=
  regTable0 ++ regTable1 ++ regTable2 ++ regTable3 ++ regTable4 ++ regTable5 ++ regTable6 ++ regTable7 ++ regTable8 ++ regTable9

end Sys2Proof.Machine
end

