-- ==== Sys2Proof/Machine/State.lean ====
section
/-!
DEFINITION. The state of the device as plain data: every register (in one register file), every buffer, queue, table, counter and
mode the spec gives the Rymus 9080, and the queue of waiting commands. The docstring of each field names the rule it comes from and
its reset value; INVENTORY.md lists them all.
-/

namespace Sys2Proof.Machine

/-! ### What every block shares -/

/-- Whether the device runs: R525 (RESET_N low holds every domain), R527 (a rail outside tolerance) and R531 (the thermal trip stops every domain but 0 and 92). -/
inductive Power where
  | run
  | resetHeld
  | railOut
  | tripped
  deriving DecidableEq, Repr

/-- The high half latched by a 32-bit read of a counter's low half (R448): the path, the counter's offset and the value. -/
structure Latch where
  path : Path
  off : Nat
  high : Nat
  deriving DecidableEq, Repr



/-! ### The Kilmet link (01_two_dies_one_step.md) -/

/-- One direction of one module (R23, R24, R27). At the sending end: the next `fseq`, the flits not yet acknowledged with their `fseq`, the
flit the last replay began with and how often it has begun one in succession. At the receiving end: the `fseq` expected, whether it discards
until that flit comes, flits taken since the last acknowledgement. `replay` is the `fseq` of the flit that a running replay sends next. -/
structure KlnDir where
  txSeq : Nat
  replay : Option Nat
  unacked : List (Nat × List Byte)
  replayed : Nat
  times : Nat
  rxSeq : Nat
  discards : Bool
  toAck : Nat
  deriving DecidableEq, Repr

/-- A DIMM as its SPD describes it (R353): type, capacity in GiB, rank count, organisation, the speeds it supports in MT/s. -/
structure Dimm where
  mrdimm : Bool
  gib : Nat
  ranks : Nat
  org : Nat
  speeds : List Nat
  deriving DecidableEq, Repr

/-- What the device is built of beside its registers: units and lanes that the fuses mark defective (R31) and those retired that have no state
register of their own, each resource (R47) and unit; the spares that serve in place of units (R31-R33), each resource, unit and spare; the DIMM of
each DDR5 channel (R353); the DDR5 channels that left service after they were FENCED (R371); the channels that fail training, HBM4 0-127 and DDR5
128-135, and how many failed lanes the training of each HBM4 channel repairs (R357). -/
structure BuiltSt where
  defects : List (Nat × Nat)
  retired : List (Nat × Nat)
  mapped : List (Nat × Nat × Nat)
  dimms : List (Option Dimm)
  ddrOut : List Nat
  trainFails : List Nat
  trainLanes : Tbl Nat
  deriving DecidableEq, Repr

/-- The Kilmet link (R24-R27) beside its registers: directions by module * 2 + direction (0 gate to hearth, 1 hearth to gate); cumulative credits
granted and flits sent on them, by direction * 8 + channel; times of failed retrains of each module; flits of retired modules that wait for room
in the replay buffers of the others, by direction; the partitions that FENCE control flits have fenced, direction * 64 + partition; completions owed
for requests of those, by direction, that wait for credit. -/
structure KlnSt where
  dirs : Tbl KlnDir
  granted : Tbl Nat
  sent : Tbl Nat
  fails : Tbl (List Nat)
  held : List (Nat × List Byte)
  fenced : List Nat
  owed : List (Nat × List Byte)
  deriving DecidableEq, Repr

/-! ### The layout image (02_layout_image.md) -/

/-- One partition-table entry (R37, R38). -/
structure PartDef where
  enabled : Bool
  hostPortMask : Nat
  vfBase : Nat
  vfCount : Nat
  drainMs : Nat
  sliceReload : Bool
  deriving DecidableEq, Repr

/-- A pool-share record (R39). -/
structure PoolShare where
  ctxHot : Nat
  ctxBacked : Nat
  rings : Nat
  poolShare : Nat
  stagingShare : Nat
  hbmShare : Nat
  ddrShare : Nat
  keySlots : Nat
  tallyWeight : Nat
  millWeight : Nat
  classShare : List Nat
  wfqWeight : Nat
  rateMbps : Nat
  burstKib : Nat
  deriving DecidableEq, Repr

/-- A network-port record of the lane map (R41). -/
structure NetPortRec where
  split : Nat
  laneOrder : List Nat
  txPol : Nat
  rxPol : Nat
  deriving DecidableEq, Repr

/-- A host-port record of the lane map (R41, R310). -/
structure HostPortRec where
  role : Nat
  bifurcation : Nat
  maxGen : Nat
  reversal : Bool
  polarity : Nat
  deriving DecidableEq, Repr

/-- An entry of a classification stage: key, mask (ternary stages), and the 8-byte action of R277. -/
structure ClsEntry where
  key : List Byte
  mask : List Byte
  action : List Byte
  deriving DecidableEq, Repr

/-- A classification stage (R42, R276): match kind 0 exact, 1 ternary, 2 longest prefix. -/
structure ClsStage where
  kind : Nat
  keyLen : Nat
  selector : Nat
  entries : List ClsEntry
  deriving DecidableEq, Repr

/-- A recipe record (R43, R160): its identifier and its steps of eight bytes each. -/
structure Recipe where
  id : Nat
  steps : List Nat
  deriving DecidableEq, Repr

/-- A curfew-mapping record (R44): Ethernet traffic class, DSCP, priority flow control. -/
structure CurfewRec where
  tc : Nat
  dscp : Nat
  pfc : Bool
  deriving DecidableEq, Repr

/-- The manager-access section (R45, R46). A prefix is an address and its length. -/
structure MgrAccess where
  flags : Nat
  hashes : List (List Byte)
  prefixes : List (Nat × Nat)
  deriving DecidableEq, Repr

/-- A spare override (R46, R47): resource code of R31, unit, action (0 retire, 1 replace), spare. -/
structure SpareOverride where
  resource : Nat
  unit : Nat
  action : Nat
  spare : Nat
  deriving DecidableEq, Repr

/-- A checked layout image as the device runs it (R34-R47). -/
structure Layout where
  /-- Bytes 0-1599 of the header region, which R408 measures. -/
  header : List Byte
  serial : Nat
  rollback : Nat
  parts : List PartDef
  pools : Tbl PoolShare
  ports : List NetPortRec
  hosts : List HostPortRec
  stages : List ClsStage
  routes : Tbl Nat
  recipes : Tbl (List Recipe)
  curfew : List CurfewRec
  capW : Nat
  domains : List (Nat × Nat)
  access : MgrAccess
  overrides : List SpareOverride
  deriving DecidableEq, Repr

/-- The layout loader (R48-R57). -/
structure LaySt where
  /-- R51: the staging buffer's bytes by offset, 64 MiB; an unlisted byte is 0. -/
  staging : Tbl Byte
  /-- R48, R56: the images in slots A (key 0) and B (key 1); a slot not listed is invalid. -/
  slots : Tbl (List Byte)
  /-- R48-R52: the running full image; none after a bare start. -/
  running : Option Layout
  /-- R48, R56: the slot the running image was loaded from (0 A, 1 B); none otherwise. -/
  fromSlot : Option Nat
  /-- R54: entries whose reset waits for the slice load to end, by operation. -/
  heldResets : List Nat
  /-- R53: the partition of the slice load that runs. -/
  slicePart : Option Nat
  /-- R52: when the running command started. -/
  since : Nat
  deriving DecidableEq, Repr



/-! ### Numbers, tally slots, the commons and the mill (03, 04, 05, 06, 07) -/

/-- An exact value (R70 step 1): a signed dyadic number m * 2^e (with signed zero), an infinity, or NaN. -/
inductive Val where
  | num (neg : Bool) (m : Nat) (e : Int)
  | inf (neg : Bool)
  | nan
  deriving DecidableEq, Repr

/-- One element of a slot's accumulator (R82, R84, R85, R88): the window integer or 64-bit integer, its sticky bit, the decoded value of
the operations that keep one, and what has been contributed. -/
structure Elem where
  a : Int
  s : Bool
  v : Val
  nan : Bool
  pinf : Bool
  ninf : Bool
  pzero : Bool
  nzero : Bool
  /-- A non-zero finite value has been added (R84). -/
  some_ : Bool
  /-- PROD on integers saturated (R91). -/
  sat : Bool
  deriving DecidableEq, Repr

/-- A block of 32 element positions: E_b once it is not empty (R82), and the elements. -/
structure TallyBlk where
  eb : Option Int
  els : List Elem
  deriving DecidableEq, Repr

/-- The 32-byte chunk header (R96). -/
structure ChunkHdr where
  group : Nat
  step : Nat
  bundle : Nat
  chunk : Nat
  stage : Nat
  src : Nat
  elems : Nat
  fmt : Nat
  side : Nat
  redOp : Nat
  partial_ : Bool
  final : Bool
  resv : Nat
  contribM1 : Nat
  check : Nat
  deriving DecidableEq, Repr

/-- A member-table entry (R113). -/
structure Member where
  dev : Nat
  vf : Nat
  tray : Nat
  twin : Nat
  twinValid : Bool
  deriving DecidableEq, Repr

/-- What a START report carries (R125, R206); `states` tells copies that are not TRACKING (log entry 21). A copy's state: bit 0 a bundle that the step
runs is FILLING, bit 1 one is SUSPECT, bit 2 one that the step does not run is FILLING. -/
structure StartF where
  co : Nat
  algo : Nat
  redOp : Nat
  fmtIn : Nat
  fmtOut : Nat
  sides : Nat
  accRnd : Nat
  count : Nat
  status : Nat
  crc : Nat
  bundleStart : Nat
  states : List (Nat × Nat)
  deriving DecidableEq, Repr

/-- The bodies of COORD messages (R206). `scalar` and `scalarRes` are the partial and the result of a tree all-reduce (R122, R164), which
R206 gives no kind of their own (log entry 20); `again` asks a producer to send once more (R106, R190; log entry 20). -/
inductive CBody where
  | start (f : StartF)
  | go (algo : Nat) (states : List (Nat × Nat))
  | done (status cause culprit : Nat)
  | scalar (scope bundle : Nat) (vals : List Nat)
  | reduced (bundle : Nat)
  | reduceCommit (bundle : Nat)
  /-- The reporting rank's own hash, and those of the twin copies on its device and of the ranks whose reports it folds, by copy (R115, R189; log entry
  21). -/
  | published (bundle : Nat) (own : Option Nat) (others : List (Nat × Nat))
  | commit (states : List (Nat × Nat))
  | scalarRes (scope bundle : Nat) (vals : List Nat)
  | void (phase bundle attempt : Nat)
  | voidAck (attempt : Nat)
  | rerun (attempt : Nat)
  | abandon (status cause culprit bundles : Nat)
  /-- R146; `tail` is the model's own byte behind the bundle: bit 0 more reports of this rank follow, bit 1 no bundle of 16 bits says it (log
  entry 56). -/
  | reconcile (bundle tail : Nat)
  | folded (bundle chunk stage : Nat) (again : Bool)
  | keepalive
  | loss (rank : Nat)
  deriving DecidableEq, Repr

/-- A message to a rank this device holds: the group slot, the rank, and a report of a rank, a notice with its `nseq`, a chunk, or FOLDED from
a consumer. -/
inductive CMsg where
  | report (slot rank concerns key : Nat) (b : CBody)
  | notice (slot rank nseq key : Nat) (b : CBody)
  | chunk (slot : Nat) (h : ChunkHdr) (data : List Byte)
  | folded (slot consumer key : Nat) (b : CBody)
  deriving DecidableEq, Repr

/-- Reports of one kind being folded at a rank (R115): from whom (itself or a child), the rank each concerns, its body. -/
structure Gath where
  rank : Nat
  kind : Nat
  key : Nat
  sub : Nat
  got : List (Nat × Nat × CBody)
  deriving DecidableEq, Repr

/-- What the bellwether holds of an operation (R115, R125, R133, R137, R140, R141): its sequence number, the phase and bundle being voided and those
whose failure waits for that to end, re-runs by phase * 65536 + bundle, when it sent GO, bundles all ranks have REDUCED, the next reduce commit, the
last bundle, whether it has ended. -/
structure Bell where
  isStep : Bool
  seq : Nat
  voiding : Option Nat
  failed : List Nat
  runs : Tbl Nat
  goAt : Nat
  reduced : List Nat
  commits : Nat
  last : Nat
  isOver : Bool
  deriving DecidableEq, Repr

/-- A message waiting for a chunk or coordination connection to open (R118). -/
structure Unsent where
  dev : Nat
  svc : Nat
  cls : Nat
  ext : Ext
  data : List Byte
  deriving DecidableEq, Repr

/-- States of a group record (R114). FREE is the absence of a record. -/
inductive GState where
  | installed
  | active
  | voiding
  | reforming
  deriving DecidableEq, Repr

/-- A RECONCILE report at a rank of this device (R115, R146): the rank it is folded at, the rank it comes from, the step, how many bundles that
side saw reduce-committed, whether more of its reports follow. -/
structure Recon where
  at_ : Nat
  from_ : Nat
  key : Nat
  commits : Nat
  more : Bool
  deriving DecidableEq, Repr

/-- A group record (R112-R118, R143-R147). -/
structure Group where
  id : Nat
  gen : Nat
  vf : Nat
  enc : Bool
  txSlot : Nat
  rxSlot : Nat
  members : List Member
  /-- The ranks this device holds. -/
  local_ : List Nat
  state : GState
  /-- An INSTALL waits for its ACTIVATE; it was installed while re-forming; ACTIVATE is running. -/
  fresh : Bool
  reformed : Bool
  activating : Bool
  lastStep : Nat
  /-- R125: operations issued on the group in this generation. -/
  seq : Nat
  /-- R116: the bellwether's next `nseq`; the next each local rank applies; notices held early. -/
  nseq : Nat
  due : Tbl Nat
  early : List (Nat × Nat × Nat × CBody)
  gaths : List Gath
  bells : Tbl Bell
  /-- R142: local endings reported before every START is in, by operation. -/
  ended : Tbl Nat
  lost : List Nat
  /-- R143: when the group entered REFORMING. -/
  since : Nat
  /-- R147: the last uncommitted step and the bundles it updated. -/
  record : Option (Nat × Nat)
  unsent : List Unsent
  /-- States of copies other devices hold, as this device has been told them (rank * 2 + twin, as in START; log entry 21). -/
  copies : Tbl Nat
  /-- R118: devices whose refused PROBE has been logged in this generation. -/
  probeRef : List Nat
  /-- R146: RECONCILE reports being folded here; the ranks of devices that were members before, which are the ones that report. -/
  recon : List Recon
  expect : List Nat
  deriving DecidableEq, Repr

/-- States of an operation of the commons at this device (R136). -/
inductive CPhase where
  | admitted
  | running
  | voiding
  | held
  /-- Abandoned, with bundles that have reduce-committed still to be updated and published (R141, R146). -/
  | closing
  deriving DecidableEq, Repr

/-- Something of an operation still to be done before it reports (R129, R133): kind 0 a fold, 1 a result to write or pass on,
2 a twin copy to receive, 3 flushes; `ag` marks the all-gather of a step. -/
structure Todo where
  rank : Nat
  bundle : Nat
  ag : Bool
  kind : Nat
  chunk : Nat
  src : Nat
  deriving DecidableEq, Repr

/-- A chunk at this device (R97-R108): its rank, bundle and index, the unit it is bound to, the accumulator, contributions folded, the ranks
that have contributed, once for each contribution, the local sources declared for it (R99), the contributions in its arrival area that wait
to be folded, in the order in which they arrived (R100), and whether it has taken a slot of the operation (R102). -/
structure Node where
  rank : Nat
  bundle : Nat
  chunk : Nat
  unit : Option Nat
  blks : List TallyBlk
  contribs : Nat
  seen : List Nat
  locals : Nat
  finished : Bool
  waiting : List (ChunkHdr × List Byte)
  slot : Bool
  deriving DecidableEq, Repr

/-- A chunk sent and not yet reported folded or written (R104): the rank it went to, its header and payload. -/
structure ChunkOut where
  src : Nat
  dst : Nat
  hdr : ChunkHdr
  data : List Byte
  /-- It has been reported folded: its slot is released; it is sent again only where a chunk restarts (R106; log entry 38). -/
  folded : Bool
  deriving DecidableEq, Repr

/-- A bundle of a step's plan (R243). -/
structure PlanRec where
  elems : Nat
  src : List Nat
  dst : List Nat
  dscale : List Nat
  deriving DecidableEq, Repr

/-- A mill descriptor (R152). -/
structure MillDesc where
  recipe : Nat
  momFmt : Nat
  stateRnd : Nat
  flags : Nat
  elems : Nat
  w : Nat
  m1 : Nat
  m2 : Nat
  m3 : Nat
  p : Nat
  pScale : Nat
  g : Nat
  deriving DecidableEq, Repr

/-- A norm accumulator (R163): the sum in units of 2^-320, its infinity and NaN flags. -/
structure Norm where
  sum : Nat
  inf : Bool
  nan : Bool
  deriving DecidableEq, Repr

/-- Where a translated access goes (R332): a device address, or a bus address on a host link. -/
inductive Loc where
  | dev (addr : Nat)
  | host (link addr : Nat)
  deriving DecidableEq, Repr

/-- A block that a mill engine holds, or that waits to run again (R178, R179): operation, copy, bundle, index, whether it is of pass 1; the loaded
values of its state slots; what it stores, and where; the stored state by slot, for the hash (R177); elements, those in DDR5, those counted under
R176, whether R73 marks one; pass 1's norms (R163); the fill chunk whose values it took (R190). -/
structure MillBlk where
  op : Nat
  copy : Nat
  bundle : Nat
  blk : Nat
  pass1 : Bool
  kept : List Byte
  stores : List (List (Loc × Nat) × List Byte)
  slots : Tbl (List Byte)
  elems : Nat
  ddr : Nat
  odd : Nat
  special : Bool
  norms : List Norm
  took : Option ChunkHdr
  deriving DecidableEq, Repr

/-- A job of an operation that met a page that is not present, to be tried again (R340): the gather-in of a bundle, an output with its places
and bytes, the publish values of a rank, a mill block of a copy, a bundle to be copied whole to the FILLING side, a block of one that has come
(R192). -/
inductive CJob where
  | gather (bundle : Nat)
  | output (t : Todo) (parts : List (Nat × List Byte))
  | publish (rank bundle : Nat)
  | block (copy bundle blk : Nat)
  | whole (copy bundle : Nat)
  | placed (copy bundle blk : Nat)
  deriving DecidableEq, Repr

/-- A copy of a shard in a step (R131, R152, R187): the rank whose shard it is and whether it is the twin copy are its key, rank * 2 + twin. -/
structure StepCopy where
  /-- The next bundle to update, and the blocks of it that are done, or dealt to engines. -/
  next : Nat
  done : List Nat
  dealt : List Nat
  /-- Bundles whose pass 1 has run (R167); blocks of pass 1 that are done, or dealt, by bundle * 2^32 + block. -/
  pass1 : List Nat
  p1done : List Nat
  p1dealt : List Nat
  /-- The reduced gradients received: bundle and chunk, FP32 bytes (R134, R169). -/
  g : Tbl (List Byte)
  /-- R163: the accumulators by scope (bundle, or 65536 for the step). -/
  norms : Tbl (List Norm)
  /-- R177: the hash register over the bundles updated; the bytes stored in the bundle under update, by slot * 2^32 + block. -/
  hash : Nat
  stored : Tbl (List Byte)
  /-- R190: loaded values received for a FILLING copy and failures, by bundle * 2^32 + block. -/
  fill : Tbl (ChunkHdr × List Byte)
  fillFails : Tbl Nat
  /-- A bundle was filled in this step (R191). -/
  filled : Bool
  deriving DecidableEq, Repr

/-- An operation of the commons at this device (R119-R147). -/
structure Coll where
  op : Nat
  slot : Nat
  /-- A plain operation's sequence number, or 2^32 + a step's number. -/
  key : Nat
  /-- R125: its sequence number in the group's generation. -/
  seq : Nat
  isStep : Bool
  phase : CPhase
  algo : Nat
  /-- Re-runs performed; by phase * 65536 + bundle (R140); the phase and bundle of the last VOID. -/
  attempt : Nat
  runs : Tbl Nat
  voided : Nat
  goAt : Option Nat
  todo : List Todo
  /-- What has been launched and reported: rank, bundle, all-gather. -/
  launched : List (Nat × Bool)
  reported : List (Nat × Nat × Bool)
  gather : Option Nat
  /-- R130: retained inputs by bundle * 16 + source. -/
  inputs : Tbl (List Byte)
  /-- R138: what has been sent to a rank this device does not yet expect: chunks that arrived before GO. -/
  before : List (ChunkHdr × List Byte)
  nodes : List Node
  /-- R104: what has been sent and not reported folded or written. -/
  outs : List ChunkOut
  /-- R95, R237: the chunk size in force, 2^n bytes. -/
  chunkLog : Nat
  plan : List PlanRec
  descs : Tbl (List MillDesc)
  scalars : List Nat
  copies : Tbl StepCopy
  /-- R132: bundles reduce-committed. -/
  committed : Nat
  /-- R164: S24 to S27 by scope (bundle, or 65536 for the step). -/
  norms : Tbl (List Nat)
  published : List Nat
  /-- R102, R105: units reserved from the share and borrowed; bytes of HBM4 and of staging taken. -/
  own : Nat
  borrowed : Nat
  /-- R102: how many slots were reserved. -/
  slots : Nat
  hbmBytes : Nat
  stagingBytes : Nat
  stuck : List CJob
  /-- R179: mill blocks taken from an engine that hung or was retired, to run again from their kept values. -/
  parked : List MillBlk
  /-- R129, R253: by rank of this device, what it has written over host links since its last flush. -/
  wrote : Tbl (Tbl (Tbl Nat))
  /-- How it ends once its committed bundles are through: status, cause, culprit, bundles. -/
  ending : Option (Nat × Nat × Nat × Nat)
  /-- R141, R142: a member that ended on its own publishes nothing more, so that publish values of others are not awaited. -/
  short : Bool
  deriving DecidableEq, Repr

/-- The commons (R112-R151). -/
structure CmnSt where
  groups : Tbl Group
  colls : List Coll
  /-- MODEL'S OWN: messages between ranks of this device not yet taken. -/
  inbox : List CMsg
  /-- R150: the member-table window, entry by entry. -/
  window : Tbl Nat
  deriving DecidableEq, Repr

/-- A bound descriptor table (R152, R244): group slot, rank, whether it serves the twin copy, tag, table, bundles, and the state of each bundle
that is not TRACKING (1 FILLING, 2 SUSPECT; R188). -/
structure Bind where
  slot : Nat
  rank : Nat
  twin : Bool
  tag : Nat
  table : Nat
  count : Nat
  states : Tbl Nat
  deriving DecidableEq, Repr

/-- The mill (R152-R184): the bound tables; the block each engine holds; the blocks dealt to each partition in the round under way (R178). -/
structure MillSt where
  binds : List Bind
  engines : Tbl MillBlk
  dealt : Tbl Nat
  deriving DecidableEq, Repr


/-! ### Brixver Transport (08_brixver_transport.md) -/

/-- States of a connection end (R211). FREE is the absence of an end. -/
inductive ConnState where
  | armed
  | open_
  | error
  | closing
  deriving DecidableEq, Repr

/-- An open message at the receiver (R209, R534): declared length, bytes placed, the NAK code that refused it, host links written with the last address, the receive entry it took, and what its completion needs to know. -/
structure OpenMsg where
  msn : Nat
  /-- R209: whether a placed packet has fixed `len`. -/
  fixed : Bool
  len : Nat
  placed : Nat
  refused : Option Nat
  wrote : Tbl (Tbl Nat)
  recvOp : Option Nat
  imm : Nat
  ssn : Nat
  isSend : Bool
  solicit : Bool
  /-- All bytes are placed and flushed, or no flush is needed. -/
  complete : Bool
  /-- Bytes of a chunk or other message taken by an engine, by offset. -/
  data : Tbl Byte
  deriving DecidableEq, Repr

/-- A sent packet not yet acknowledged (R213, R219). -/
structure Sent where
  pkt : Packet
  /-- R213: transmissions so far. -/
  tries : Nat
  /-- R219: re-sends after NOT_READY. -/
  nrTries : Nat
  /-- The packet has left the MAC and its timer runs. -/
  timer : Bool
  /-- R219: waiting out the delay of a NOT_READY (1) or HELD (2) NAK; 3 acknowledged and kept to ask again (R534 step 6); 0 none of these. -/
  waiting : Nat
  nrReason : Nat
  /-- R213: when its first transmission started its timers. -/
  since : Nat
  /-- R305: the port it last left by. -/
  port : Nat
  /-- The operation that sent it; none for KEEPALIVE, CLOSE and REFUSAL_SEEN and the commons. -/
  op : Option Nat
  deriving DecidableEq, Repr

/-- An open read at the requester (R218). -/
structure OpenRead where
  psn : Nat
  msn : Nat
  op : Nat
  laddr : Nat
  raddr : Nat
  rkey : Nat
  len : Nat
  /-- Offsets (multiples of the mtu) already placed. -/
  got : List Nat
  deriving DecidableEq, Repr

/-- An atomic outstanding at the requester (R217). -/
structure OpenAtomic where
  psn : Nat
  op : Nat
  deriving DecidableEq, Repr

/-- A RoCEv2 request sent or waiting to be sent (R227): its packet, the PSNs it takes, its operation, whether its acknowledgement ends a
message, its transmissions so far. -/
structure RoceSent where
  pkt : RocePacket
  span : Nat
  op : Option Nat
  last : Bool
  tries : Nat
  timer : Bool
  /-- R265: the bytes of its operation up to its end. -/
  off : Nat := 0
  /-- R213: when its first transmission started its timers. -/
  since : Nat := 0
  deriving DecidableEq, Repr

/-- The RoCEv2 message being received (R227): whether one is open, its receive entry, target, bytes placed, the SEND count, host links
written; and the requests that have come behind a READ whose host data is being read (R312). -/
structure RoceRx where
  active : Bool
  isSend : Bool
  recvOp : Option Nat
  raddr : Nat
  rkey : Nat
  len : Nat
  off : Nat
  ssn : Nat
  wrote : Tbl (Tbl Nat)
  behind : List RocePacket
  deriving DecidableEq, Repr

/-- A connection end (R207, R211, R245). -/
structure Conn where
  state : ConnState
  vf : Nat
  part : Nat
  /-- R205: 0 tenant, 1 management, 2 commons coordination, 3 commons chunk. -/
  svc : Nat
  group : Nat
  /-- The group slot and the peer rank of a commons connection (R118). -/
  slot : Nat
  peerRank : Nat
  peerConn : Nat
  peerIp : Nat
  peerDev : Nat
  epoch : Nat
  spray : Nat
  enc : Bool
  pin : Bool
  roce : Bool
  mtu : Nat
  retryLimit : Nat
  rtoUs : Nat
  armTimeoutMs : Nat
  keepaliveUs : Nat
  txSlot : Nat
  rxSlot : Nat
  recvRing : Nat
  nextPsn : Nat
  nextMsn : Nat
  nextSsn : Nat
  /-- Messages formed and not begun have numbers from 2^32 on until they take their MSN (R207, R262). -/
  nextForm : Nat
  /-- R208: the lowest PSN not yet placed and the set bits above it. -/
  base : Nat
  win : List Nat
  /-- R209: the open-message table, the number of messages ended in order, those ended above it. -/
  msgs : List OpenMsg
  done : Nat
  ended : List Nat
  /-- R217: the atomic cache, newest first. -/
  atomics : List (Nat × Nat)
  /-- R213: sent and unacknowledged, oldest first. -/
  sent : List Sent
  /-- R216, R211: packets formed and held back by the window, the PSN limit or ARMED, with their operation. -/
  queue : List (Packet × Option Nat)
  reads : List OpenRead
  openAtomics : List OpenAtomic
  /-- R219, R534: terminal NAK codes received, by MSN. -/
  refusedMsn : Tbl Nat
  /-- R209: messages sent and not ended, by MSN, with the operation and length. -/
  outMsgs : Tbl (Option Nat × Nat)
  /-- R216: congestion state; alpha in units of 2^-32 (log entry 9). -/
  cwnd : Nat
  srtt : Option Nat
  rtts : List (Nat × Nat)
  alpha : Nat
  lastCut : Nat
  /-- R205, R214: CE marks since the last ACK, placements since it, the newest ts. -/
  ceCount : Nat
  unacked : Nat
  echoTs : Nat
  /-- R208, R210, R220: when the last rate-limited answers were sent. -/
  staleAckAt : Option Nat
  epochNakAt : Tbl Nat
  heldNakAt : Tbl Nat
  /-- R211: status an ERROR end completes new work with. -/
  errStatus : Nat
  /-- R211: CLOSE has been sent. -/
  closeSent : Bool
  /-- R118, R244 and others: an opener that probes (both tenant ends probe). -/
  probes : Bool
  /-- R215, R301: the rotating pointer, the port of spray 0, the path identifier of modes 0 and 1. -/
  rot : Nat
  port : Option Nat
  pathId : Nat
  /-- R227: RNR retries used, NAK outstanding, last CNP. -/
  rnr : Nat
  rnrWait : Bool
  seqNak : Bool
  roceQueue : List RoceSent
  roceSent : List RoceSent
  roceRx : RoceRx
  cnpAt : Option Nat
  deriving DecidableEq, Repr

/-- The transport engine and its context cache (R207-R226). -/
structure BxtSt where
  /-- R207: the connection ends that exist, by connection ID. -/
  conns : Tbl Conn
  /-- R222, R223: resident contexts, most recently used first. -/
  resident : List Nat
  /-- R222: packets waiting for their context, oldest first. -/
  fetching : List Packet
  /-- R222: RoCEv2 packets waiting for their context, oldest first. -/
  roceFetching : List RocePacket
  /-- R213: when each peer device was last heard from. -/
  heard : Tbl Nat
  /-- R219: when a NAK UNKNOWN_CONN was last sent, by source device * 2^20 + ID. -/
  unkNak : Tbl Nat
  deriving DecidableEq, Repr


/-! ### Host links, translation, rings, operations (09, 10, 12, 13, 14, 15) -/

/-- What an access does to memory (R333, R341). -/
inductive AccKind where
  | read
  | write
  | atomic
  deriving DecidableEq, Repr

/-- What waits for a host read or a retried walk: an operation, a ring's next entry, a packet at the responder, a request that the responder has
taken with the places it translated to (R217, R227, R336), an aperture read (R317: the link it came by, its instance, tag, address and length);
`inbound` where nobody waits any more. -/
inductive Waiter where
  | op (id : Nat)
  | ring (key : Nat)
  | packet (p : Packet)
  | served (p : Packet) (locs : List (Loc × Nat))
  | roce (p : RocePacket) (locs : List (Loc × Nat))
  | aperture (link vf tag va n : Nat)
  | inbound
  deriving DecidableEq, Repr

/-- A read request of a host link (R312), whether it has been sent (one that finds 4,096 outstanding on its link waits), and whether the device has
written there since it was issued (R217). -/
structure HostRead where
  link : Nat
  addr : Nat
  len : Nat
  tag : Nat
  gen : Nat
  vf : Nat
  who : Waiter
  sent : Bool
  stale : Bool
  deriving DecidableEq, Repr

/-- A posted write on a host link whose flush has not returned (R253, R336): the access it belongs to. -/
structure Posted where
  link : Nat
  addr : Nat
  tag : Nat
  gen : Nat
  vf : Nat
  op : Option Nat
  /-- MODEL'S OWN: its place in the order of writes and flushes. -/
  seq : Nat
  deriving DecidableEq, Repr

/-- What awaits a flush (R253): an operation, a message at a BXT receiver (connection, MSN), a report of the commons (its key), an invalidation
(its tag, R345). -/
inductive FlushFor where
  | op (id : Nat)
  | msg (conn msn : Nat)
  | coll (key : Nat)
  | inval (tag : Nat)
  deriving DecidableEq, Repr

/-- A flush read (R253): its link and what it stands for, and whether it has been sent (R312). -/
structure Flush where
  link : Nat
  addr : Nat
  who : FlushFor
  seq : Nat
  sent : Bool
  deriving DecidableEq, Repr

/-- The host links (R310-R324). What HPT_LINK shows stands in the register file. -/
structure HptSt where
  /-- R312: outstanding read requests of every link. -/
  reads : List HostRead
  /-- R253, R336: posted writes not yet covered by a flush. -/
  posted : List Posted
  /-- R253: flush reads outstanding. -/
  flushes : List Flush
  /-- MODEL'S OWN: the next place in the order of writes and flushes. -/
  wseq : Nat
  /-- Bytes of host memory as the last read completion delivered them, by link * 2^56 + bus address (log entry 7). -/
  view : Tbl Byte
  deriving DecidableEq, Repr

/-- A cached pointer entry (R335): its tag, the level it stands at, the part of the address that leads to it, and the entry. -/
structure PtrEntry where
  tag : Nat
  level : Nat
  path : Nat
  entry : Nat
  deriving DecidableEq, Repr

/-- A page that an operation has translated (R336): the kind of access, the page, where it lies, and the generation of the lookup (R345). -/
structure PageUse where
  acc : AccKind
  page : Nat
  loc : Loc
  gen : Nat
  deriving DecidableEq, Repr

/-- A cached leaf translation (R335): its tag, generation, page base and size, place, rights. -/
structure Leaf where
  tag : Nat
  base : Nat
  size : Nat
  loc : Loc
  r : Bool
  w : Bool
  a : Bool
  deriving DecidableEq, Repr

/-- A transfer held on NOT_PRESENT (R340, R220), or walking again after a RESOLVE or an INVALIDATE (R344, R345). -/
structure Hold where
  tag : Nat
  va : Nat
  acc : AccKind
  remote : Bool
  who : Waiter
  since : Nat
  /-- The operation (RESOLVE or INVALIDATE) whose retry is walking now; none while merely held. -/
  retry : Option Nat
  deriving DecidableEq, Repr

/-- A fault or error record waiting to be written (R341, R342). -/
structure XRec where
  part : Nat
  err : Bool
  va : Nat
  tag : Nat
  reason : Nat
  acc : AccKind
  remote : Bool
  inbound : Bool
  level : Nat
  vf : Nat
  conn : Nat
  msn : Nat
  psn : Nat
  rkey : Nat
  deriving DecidableEq, Repr

/-- A fault record that is outstanding (R342): the key later faults join it by. -/
structure OpenFault where
  tag : Nat
  page : Nat
  acc : AccKind
  remote : Bool
  deriving DecidableEq, Repr

/-- A partition's bound fault and error queues (R337, R341, R348). -/
structure XQueues where
  vf : Nat
  tag : Nat
  fqBase : Nat
  eqBase : Nat
  vector : Nat
  fqPosted : Nat
  eqPosted : Nat
  fqHead : Nat
  eqHead : Nat
  fqPages : List Loc
  eqPages : List Loc
  deriving DecidableEq, Repr

/-- An invalidation open on a tag (R345): its operation (none for the one AS_DESTROY runs within its own entry), re-keying, whether it has started. -/
structure Inval where
  tag : Nat
  op : Nat
  rekey : Bool
  started : Bool
  destroy : Bool
  deriving DecidableEq, Repr

/-- The translation unit (R328-R349). Tag states, generations and limits stand in XLT_TAG and XLT_PTN_CFG. -/
structure XltSt where
  /-- R337: root table of each live tag: offset and whether it lies in DDR5. -/
  roots : Tbl (Nat × Bool)
  /-- R338: the key nonce of each live tag. -/
  nonces : Tbl Nat
  /-- R335: the cached leaves. -/
  cache : List Leaf
  /-- R340, R220: held transfers. -/
  holds : List Hold
  /-- R342: records gathered and not yet written. -/
  batch : List XRec
  /-- R342: fault records outstanding. -/
  faults : List OpenFault
  /-- R341: the queues of each partition. -/
  queues : Tbl XQueues
  /-- R345: open invalidations, in order. -/
  invals : List Inval
  /-- R335: the cached pointer entries. -/
  ptrs : List PtrEntry
  deriving DecidableEq, Repr

/-- Kinds of a ring (R229). -/
inductive RingKind where
  | work
  | receive
  | control
  deriving DecidableEq, Repr

/-- States of a ring pair (R258). FREE is the absence of a ring. -/
inductive RingState where
  | active
  | stopping
  | stopped
  deriving DecidableEq, Repr

/-- A completion before it is posted (R249-R251). -/
structure Cqe where
  wrId : Nat
  slot : Nat
  status : Nat
  sub : Nat
  special : Bool
  rndFallback : Bool
  remote : Bool
  stream : Bool
  delayed : Bool
  performed : Bool
  held : Bool
  event : Bool
  opcode : Nat
  cinfo : Nat
  result : List Byte
  eta : Nat
  deriving DecidableEq, Repr

/-- A ring pair (R229-R236, R258). -/
structure Ring where
  kind : RingKind
  state : RingState
  sqBase : Nat
  cqBase : Nat
  sqLog : Nat
  cqLog : Nat
  entry256 : Bool
  tag : Nat
  vector : Nat
  /-- R258: entries fetched, modulo 2^32 as registers show it. -/
  fetched : Nat
  /-- R233: tail of the last doorbell. -/
  tail : Nat
  /-- R249: completions posted. -/
  posted : Nat
  /-- R233: completions consumed. -/
  head : Nat
  /-- R236: an interrupt is requested at the next completion. -/
  armed : Bool
  /-- R234: pushed copies by count. -/
  pushed : Tbl (List Byte)
  /-- R348: the pinned translations of the submission and completion rings, by 4 KiB page. -/
  sqPages : List Loc
  cqPages : List Loc
  /-- R233, R252: counts of entries fetched whose completions are not posted. -/
  open_ : List Nat
  /-- R348: the pair lost a pin: its completions are discarded. -/
  pinLost : Bool
  /-- R239, R251: receive entries posted and not yet matched, by SSN (operation ids), and the SSN the next takes. -/
  recvs : Tbl Nat
  nextSsn : Nat
  /-- R232: fetching has stopped at a covered slot not yet owned. -/
  waiting : Bool
  /-- R255: completions of a stopping ring, by count, that wait for those of older entries. -/
  late : Tbl Cqe
  /-- R383: nothing is fetched until the next doorbell or push, after the instance has resumed. -/
  parked : Bool
  /-- R232: entries beyond the tail that the front end may still read in this run, and those past the next count that it has discarded in it. -/
  spec : Nat := 0
  skip : Nat := 0
  /-- R255: owned entries of a stopping ring not yet fetched are being completed. -/
  aborting : Bool := false
  deriving DecidableEq, Repr

/-- An entry fetched and not yet admitted (R232, R247). -/
structure Fetched where
  key : Nat
  count : Nat
  desc : List Byte
  inl : List Byte
  deriving DecidableEq, Repr

/-- How far an admitted operation has come. -/
inductive OpPhase where
  /-- Waiting behind its `fence` (R237). -/
  | fenced
  /-- Reading local data over a host link (R312). -/
  | reading
  /-- Sent or being carried out. -/
  | running
  /-- Ended: issues nothing new, carries sent messages to their ACK (R255, R262). -/
  | ending
  /-- Finished on a stopping ring, waiting for slot order (R255 step 6). -/
  | done
  /-- Done but for its flushes (R253). -/
  | flushing
  deriving DecidableEq, Repr

/-- An operation in flight (R260-R273). -/
structure Op where
  key : Nat
  count : Nat
  vf : Nat
  part : Nat
  opcode : Nat
  cls : Nat
  target : Nat
  tag : Nat
  desc : List Byte
  inl : List Byte
  phase : OpPhase
  /-- R270: nanoseconds of `now` at admission, and the budget's end where the class has one. -/
  admitted : Nat
  deadline : Option Nat
  /-- R102, R262: whether it counts in ADM_INFLIGHT. -/
  inFlight : Bool
  /-- R273: the cause recorded last, and whether it holds the operation now. -/
  cause : Nat
  /-- The completion as it stands so far. -/
  cqe : Cqe
  /-- R218: messages not yet complete, and bytes the complete ones carried. -/
  msgs : List Nat
  bytes : Nat
  /-- R218: the first failed message in MSN order, with its status, `sub` and `remote`. -/
  failAt : Option (Nat × Nat × Nat × Bool)
  /-- R265: for each local port, when its virtual clock starts and ends for this operation, and the bytes it stands for. -/
  vcs : Tbl (Nat × Nat)
  length : Nat
  /-- R265: bytes of its chunks that have been put on the way, of a collective or step. -/
  carried : Nat := 0
  /-- R266: when the wait of its instance's bucket is over: none of its packets leaves before. -/
  start : Nat := 0
  /-- R268, R273: `budget` and `valid_us` of the grant it was admitted at, and whether a grant of 0 has come while packets of it were under way. -/
  grant : Nat × Nat := (0, 0)
  zeroed : Bool := false
  /-- R237: the `fence`, `solicit`, `hold_start`, `allow_stream`, `retain` flags. -/
  flags : Nat
  /-- R253: the last address written, by host link and completer. -/
  wrote : Tbl (Tbl Nat)
  /-- R486: an injected fault made it fail. -/
  injected : Bool
  /-- R336: the pages it has translated, each once. -/
  pages : List PageUse := []
  /-- R340: elements or bytes of its data that have been moved. -/
  moved : Nat := 0
  deriving DecidableEq, Repr

/-- A drain of R380: when it began, its timeout, operations drained and ended by it, the operation that asked (none at an instance where its
partition's did). -/
structure Drain where
  since : Nat
  timeoutNs : Nat
  drained : Nat
  ended : Nat
  op : Option Nat
  deriving DecidableEq, Repr

/-- An MSI-X table entry (R318): address, data, masked, and the steering tag of the ST table it holds (R312). -/
structure MsixEntry where
  addr : Nat
  data : Nat
  masked : Bool
  st : Nat
  deriving DecidableEq, Repr

/-- What an instance holds beside its registers (R320-R324, R377-R387). -/
structure Inst where
  /-- R321: the current attach token. -/
  token : Word
  /-- R324: held completions with the ring each belongs to, oldest first. -/
  held : List (Nat × Cqe)
  /-- R321: times of ATTACH refusals in the last second. -/
  refusals : List Nat
  /-- R321: ATTACH is locked. -/
  locked : Bool
  /-- R318: MSI-X enabled, its table and pending bits. -/
  msixOn : Bool
  msix : Tbl MsixEntry
  pba : List Nat
  /-- R380: the drains in progress. -/
  drains : List Drain
  /-- R384, R385: the reset or removal in progress: its operation and whether it removes. -/
  resetting : Option (Nat × Bool)
  /-- R266: when the bucket was last refilled. -/
  filled : Nat
  /-- R266: the part of a byte that its level then held beyond whole bytes, in 1/8,000. -/
  frac : Nat := 0
  /-- R391: the token drawn by the last PTN_RESET, until it is read. -/
  ptnToken : Word
  /-- R234: bytes written into each push slot since its last entry was taken, by ring and offset. -/
  pushing : Tbl (Tbl Byte) := []
  deriving DecidableEq, Repr

/-- What a partition holds beside its registers (R376, R386). -/
structure Part where
  drains : List Drain
  resetting : Option Nat
  deriving DecidableEq, Repr

/-- The gatekeeper (R264-R268). -/
structure AdmSt where
  /-- R265: virtual clocks by resource, instance and class. -/
  clocks : Tbl Nat
  /-- R268: the grant of each connection and class: units, valid_us, when it runs out. -/
  grants : Tbl (Nat × Nat × Nat)
  /-- R268: when the grant of a connection and class (connection * 8 + class) lets its next packet leave. -/
  pace : Tbl Nat := []
  /-- R268, R269: classes of connections whose next GRANT carries budget 0 (connection * 8 + class). -/
  zeroNext : List Nat
  /-- R267: connections that received packets of a class in the last period (connection * 8 + class). -/
  active : List Nat
  /-- R267: connections and classes (connection * 8 + class) whose floor the reserve did not pay last period. -/
  uncovered : List Nat
  deriving DecidableEq, Repr

/-- A meter (R279): its parameters, its two buckets in bytes, when they were filled, and its counts. -/
structure Meter where
  cir : Nat
  pir : Nat
  cbs : Nat
  pbs : Nat
  tc : Nat
  tp : Nat
  at_ : Nat
  green : Nat × Nat
  yellow : Nat × Nat
  red : Nat × Nat
  deriving DecidableEq, Repr

/-- The memory tiers (R352-R372), beside the cells themselves. -/
structure TierSt where
  /-- R358: poisoned 64-byte words, by device address. -/
  poison : List Nat
  /-- R358: words whose stored data is in error and has not been read since, by device address: 0 correctable, 1 uncorrectable but clean when the
  read is repeated, 2 uncorrectable. -/
  flaws : Tbl Nat
  /-- R354: granules of each partition in order of k, by tier * 64 + partition. -/
  granules : Tbl (List Nat)
  /-- R355: granules being zeroed, tier * 4096 + granule, with the partition each is for (64: none). -/
  zeroing : List (Nat × Nat)
  /-- R366: times of corrected errors of each logical bank in the last second. -/
  ceTimes : Tbl (List Nat)
  /-- R368: the running spare mapping: bank, spare, writes go to both. -/
  mapping : Option (Nat × Nat)
  /-- R367: general banks in FAILING that wait for the pool's top to empty. -/
  retiring : List Nat
  /-- R370: passes of the running cellar wipe; none when none runs. -/
  wipe : Option Nat
  /-- R362: re-sends of each block in transfer, by block. -/
  resends : Tbl Nat
  /-- R361: blocks sent that the consumer has not accepted, by block. -/
  kept : Tbl (List Byte)
  /-- R371: lanes repaired of each HBM4 channel. -/
  lanes : Tbl Nat
  /-- R371: HBM4 channels (0-127) and DDR5 channels (128-135) that are FENCED. -/
  fenced : List Nat
  deriving DecidableEq, Repr


/-! ### Ports, relay and weather (11_ports_relay_weather.md) -/

/-- What seals an encrypted packet when it leaves (R212): the key of its slot, the 96-bit IV, the plain payload. -/
structure Seal where
  key : List Byte
  nonce : List Byte
  plain : List Byte
  deriving DecidableEq, Repr

/-- A frame waiting at a logical port (R265, R299): its port, curfew class, traffic class, virtual-clock stamp, length, packet, whether it is
transit, its tag where it came with one, whether it ends stomped (R297), the connection whose retransmit timer starts when it leaves, when it
was queued, and its RoCEv2 packet where it is one. For an encrypted packet of the
device's own what seals it; the instance it is served for in class 6 (R260), or none. -/
structure Queued where
  port : Nat
  cls : Nat
  tc : Nat
  stamp : Nat
  len : Nat
  pkt : Packet
  transit : Bool
  tag : Option Nat
  stomp : Bool
  conn : Option Nat
  at_ : Nat
  roce : Option RocePacket
  sealing : Option Seal
  vf : Option Nat
  /-- R266: it leaves no sooner. -/
  start : Nat := 0
  deriving DecidableEq, Repr

/-- A frame sent under hop replay and not acknowledged (R303, R304): its HSN; the packet, or the LLDPDU or PFC frame, that it is, or none of these for a
FILLER; how often it has been replayed. -/
structure HopSent where
  hsn : Nat
  frame : Option Queued
  ctl : Option Frame := none
  replays : Nat := 0
  deriving DecidableEq, Repr

/-- What a logical port holds beside its registers. -/
structure LPort where
  /-- R290: failed training attempts in succession, and whether the back-off after one runs. -/
  fails : Nat
  waiting : Bool
  /-- R284: the lane whose SerDes is in its loopback test; when uncorrectable codewords came in the last second, and how many each time. -/
  testing : Option Nat
  fecs : List (Nat × Nat) := []
  /-- R293, R294: paused traffic classes with the end of their quanta and the beginning of the pause; those whose pause is no longer
  honoured; those this device has paused. -/
  paused : Tbl (Nat × Nat)
  deaf : List Nat
  xoff : List Nat
  /-- R265: class 7 frames sent, when and how long. -/
  sent7 : List (Nat × Nat)
  /-- R260: the weighted round-robin of class 6: where each instance's turn ends (key 0: none), and the turn being served. -/
  wrr : Tbl Nat
  wrrAt : Nat
  /-- R295: a neighbour is known; its replay bit. -/
  nbr : Bool
  nbrReplay : Bool
  /-- R302-R304: the next HSN to send, the frames sent and not acknowledged, those to be replayed; the HSN
  expected, the last NAK and its time, frames accepted since the last acknowledgement. -/
  txHsn : Nat
  unacked : List HopSent
  again : List Nat
  rxHsn : Nat
  nak : Option (Nat × Nat)
  toAck : Nat
  /-- R305: of this interval: the largest egress queue, its integral in byte nanoseconds up to a time, bytes sent, BXT packets received and
  CE-marked, the sum and number of RTTs of ACKs. -/
  wxPeak : Nat
  wxInt : Nat
  wxAt : Nat
  wxTx : Nat
  wxRx : Nat
  wxCe : Nat
  wxRtt : Nat
  wxAcks : Nat
  deriving DecidableEq, Repr

/-- Weather (R305, R306): the next report's `seq`, when the interval began, and the staged bytes of HOP_WX_WINDOW. -/
structure WxSt where
  seq : Nat
  since : Nat
  window : Tbl Byte
  deriving DecidableEq, Repr


/-! ### Cipher complex and Fegen root (16_cipher_and_trust.md) -/

/-- States of a key slot (R392). FREE is the absence of a slot. -/
inductive SlotState where
  | loaded
  | retired
  | wiping
  deriving DecidableEq, Repr

/-- A key slot (R392-R397). -/
structure KeySlot where
  state : SlotState
  key : List Byte
  decrypt : Bool
  salt : Nat
  devSalt : Bool
  next : Nat
  ctrLog2 : Nat
  vf : Nat
  low : Bool
  tagFail : Nat
  deriving DecidableEq, Repr

/-- What a wipe of the key-slot store covers (R399): a slot, an instance's slots, everything, or a management connection's two slots (R499). -/
inductive WipeOf where
  | slot (n : Nat)
  | inst (vf : Nat)
  | all
  | mgt (k : Nat)
  deriving DecidableEq, Repr

/-- A wipe that runs (R399): what it covers, whether CPH_KEY_CMD started it, whether a tamper input or a life-cycle change did, read-backs that
have failed. -/
structure KeyWipe where
  what : WipeOf
  cmd : Bool
  urgent : Bool
  fails : Nat
  deriving DecidableEq, Repr

/-- The cipher complex (R392-R403): staged key words, the path that claims them, when they were last written; running wipes, oldest first;
whether the store has failed a wipe for good (R399); times of each core's mismatches in the last second (R403). -/
structure CphSt where
  words : Tbl Nat
  claim : Option Path
  touched : Nat
  wipes : List KeyWipe
  failed : Bool
  coreErrs : Tbl (List Nat)
  deriving DecidableEq, Repr

/-- The Fegen root (R404-R413) beside its registers: nonce and token windows, the last report, the fused tamper polarity once burnt, the
nonce an ATTEST signs. -/
structure TruSt where
  nonce : Tbl Byte
  token : Tbl Byte
  report : List Byte
  fusedPolarity : Option Nat
  attesting : Option (List Byte)
  deriving DecidableEq, Repr


/-! ### Checkpoint streaming (17_checkpoint_streaming.md) -/

/-- What a storage command does: connection setup, Keep Alive, and the Write, Read and Flush of streams (R417, R425, R427). -/
inductive CkpKind where
  | setup
  | keepAlive
  | write
  | read
  | flush
  deriving DecidableEq, Repr

/-- A storage command of a stream to be issued, or to be issued again (R425, R428): its record, the bytes of the record it moves, attempts so
far. -/
structure CkpJob where
  kind : CkpKind
  record : Nat
  off : Nat
  len : Nat
  tries : Nat
  deriving DecidableEq, Repr

/-- A storage command outstanding (R428): its queue, identifier, stream slot (256 for none), what it moves, the bytes received. -/
structure CkpCmd where
  queue : Nat
  cid : Nat
  stream : Nat
  job : CkpJob
  got : List Byte
  deriving DecidableEq, Repr

/-- A stream (R420-R430) in its slot: its operation, instance and partition, target and queue, direction, record size Z, depth, first block,
staging bytes, places in order and their length, header, source bytes once read. -/
structure CkpStream where
  op : Nat
  vf : Nat
  part : Nat
  tag : Nat
  target : Nat
  queue : Nat
  restore : Bool
  z : Nat
  depth : Nat
  slba : Nat
  staging : Nat
  places : List (Nat × Nat)
  dataLen : Nat
  header : List Byte
  streamId : Nat
  keySlot : Option Nat
  /-- R426: group slot, copy, bundles held until the source has been read; none without `hold`. -/
  hold : Option (Nat × Nat × Nat × Nat)
  /-- The target is READY and the stream runs; its source has been read. -/
  started : Bool
  loaded : Bool
  data : List Byte
  /-- Records begun, records completed, commands to issue, records in flight: a save's bytes with the Writes still out, a restore's bytes read
  and not yet written. -/
  next : Nat
  done : Nat
  jobs : List CkpJob
  recs : Tbl (List Byte × Nat)
  /-- R424, R427: the salt of a restore's record 0; attempts at reading each record; the CRC-64 register over the data written, and the
  header's CRC-64. -/
  salt : Option Nat
  reads : Tbl Nat
  crc : Nat
  wantCrc : Nat
  /-- The Flush of a save is out. -/
  flushing : Bool
  /-- R430: the entry has completed; the slot is kept for its commands. -/
  isOver : Bool
  deriving DecidableEq, Repr

/-- A target connection beside the registers (R419): the queue being set up and how far, reconnects made, MAXH2CDATA, data digests in use, the
namespace's capacity in blocks, the logical port of each queue's TCP connection, the rotating pointer of R301, the next command identifier,
commands outstanding. -/
structure CkpTgt where
  queue : Nat
  stage : Nat
  attempts : Nat
  maxH2c : Nat
  digests : Bool
  blocks : Nat
  ports : Tbl Nat
  rot : Nat
  nextCid : Nat
  cmds : List CkpCmd
  deriving DecidableEq, Repr

/-- The checkpoint engine (R417-R431) beside its registers: the targets' NQN bytes (target * 256 + offset), connections, streams by slot. -/
structure CkpSt where
  nqn : Tbl Byte
  tgts : Tbl CkpTgt
  streams : Tbl CkpStream
  deriving DecidableEq, Repr



/-! ### The ember domain: power ladder and pins (18_ember_power_clocks.md, 23_package_and_electrical.md) -/

/-- The power controller beside its registers (R433-R442): domains that climb to LIT; privileged domains the trust controller holds LIT; the
sixteenths of throttle (R440); the entry of device EMBER (3) or COLD (4) under way; the device state entered. -/
structure PwrSt where
  climbing : List Nat
  /-- R434, R435, R437, R449: requests held at the crossing of each domain. -/
  held : Tbl Nat
  woken : List Nat
  gate : Nat
  entry : Option Nat
  asleep : Option Nat
  deriving DecidableEq, Repr

/-- The sideband pins that hold a level (R523): FAULT_N driven low, WAKE high. The levels of TAMPER stand in TRU_TAMPER_STATE, RESET_N in
`power`. -/
structure PinSt where
  fault : Bool
  wake : Bool
  deriving DecidableEq, Repr




/-! ### Hangs, resets and recovery (19_hangs_resets_recovery.md) -/

/-- A replay (R454): kind (in the order of R452) and number of the unit that hung, the unit that replays, whether RST_CMD asked, whether an engine
reset runs, the suspect being judged, those to come (operations by number, for the transport connections), suspects in all and guilty ones. -/
structure Replay where
  kind : Nat
  unit : Nat
  on : Nat
  manager : Bool
  resetting : Bool
  judging : Option Nat
  todo : List Nat
  suspects : Nat
  guilty : Nat
  /-- Chunks and mill blocks of suspects that wait to be judged: operation, rank or copy, bundle, chunk or block. -/
  parked : List (Nat × Nat × Nat × Nat)
  /-- R486: the watchdog's expiry was injected. -/
  injected : Bool
  deriving DecidableEq, Repr

/-- A unit record of a crash dump (R467). -/
structure DumpUnit where
  kind : Nat
  index : Nat
  status : Nat
  domain : Nat
  tick : Nat
  data : List Byte
  deriving DecidableEq, Repr

/-- The last crash dump (R466, R467): trigger, cause, boot count, tick count, when it was taken, its unit records, its summary slot. -/
structure DumpRun where
  trigger : Nat
  cause : Nat
  boot : Nat
  tick : Nat
  since : Nat
  units : List DumpUnit
  slot : Nat
  deriving DecidableEq, Repr

/-- The reset controller beside its registers (R452-R467). -/
structure RstSt where
  replays : List Replay
  /-- R457, by kind * 64 + unit: times of hangs, when the unit last returned to service, times of re-sends exhausted (R362). -/
  hangs : Tbl (List Nat)
  back : Tbl Nat
  exhaust : Tbl (List Nat)
  /-- R457: DMA quarters out of service; steward cores' times of resets, and cores retired. -/
  dead : List Nat
  cores : Tbl (List Nat)
  coresGone : List Nat
  /-- R463: the boot watchdog runs. -/
  booting : Bool
  dump : Option DumpRun
  deriving DecidableEq, Repr


/-! ### The logbook, the injection network and telemetry (20_logbook_counters_injection.md) -/

/-- The events of R471. -/
inductive Ev where
  | writeRefused | stateChange | commandDone | commandRefused | corrected | uncorrectable | resendExhausted | timeout
  | hang | retired | spareMapped | reset | threshold | tamper | lifecycle | injection | dumpSummary | recordsLost
  | shareReduced | halt | checkFail
  deriving DecidableEq, Repr

/-- A logbook record (R470). Its `domain`, `index`, `boot` and `tick` say where and when; `detail` and `subject` are the two parts of `arg`. -/
structure LogRec where
  blk : Blk
  ev : Ev
  domain : Nat
  index : Nat
  boot : Nat
  tick : Nat
  detail : Nat
  subject : Nat
  rep : Nat
  severity : Nat
  injected : Bool
  deriving DecidableEq, Repr

/-- What a programmed slot of the record ring holds (R472, R473, R476): a record, an empty slot that padded a page, or a torn slot. -/
inductive FlashSlot where
  | record (r : LogRec)
  | pad
  | torn
  deriving DecidableEq, Repr

/-- A page program under way (R473): the records, the page's first slot. -/
structure PageProgram where
  recs : List LogRec
  slot : Nat
  deriving DecidableEq, Repr

/-- A LOG_CMD under way (R476, R477). -/
inductive LogRun where
  | read (slot : Nat) (summaries : Bool)
  deriving DecidableEq, Repr

/-- The logbook (R470-R477). -/
structure LogSt where
  /-- R473: the staging buffer of 2,048 records, oldest first. -/
  staged : List LogRec
  /-- R474: whether the newest staged record is still open. -/
  isOpen : Bool
  /-- R475: records dropped since room was last found. -/
  lost : Nat
  /-- R473: the page being programmed; its records lie at the head of `staged`. -/
  page : Option PageProgram
  /-- R472: the slot the next page begins at. -/
  nextSlot : Nat
  /-- R472: the record ring. -/
  flash : Tbl FlashSlot
  /-- R472: the boot count held in block 0; none on a blank flash. -/
  bootCount : Option Nat
  /-- R477: the first visible slot after the clear point, counted without wrap. -/
  clearPoint : Nat
  /-- R473: failures of each block. -/
  fails : Tbl Nat
  /-- R473: blocks marked bad. -/
  bad : List Nat
  /-- R472: crash-dump summaries by summary slot. -/
  summaries : Tbl (List Byte)
  /-- R472: the next summary slot. -/
  nextSummary : Nat
  /-- R477: the first summary slot still visible. -/
  summaryClear : Nat
  /-- R476: what LOG_WINDOW shows. -/
  window : List Byte
  /-- R476: the running command. -/
  run : Option LogRun
  deriving DecidableEq, Repr

/-- The armed injection point (R486): the point, unit and controls taken at ARM, and the matching events examined since the last firing. -/
structure InjPoint where
  point : Nat
  index : Nat
  every : Nat
  forever : Bool
  ptn : Option Nat
  seen : Nat
  deriving DecidableEq, Repr


/-! ### Boot and tray management (21_boot_and_management.md) -/

/-- The session that holds the manager role (R499): its management connection k, or none for path 2; that connection's epoch; the last manager
access; the next REG `seq` and the REG messages held early (R502). -/
structure Session where
  conn : Option Nat
  epoch : Nat
  last : Nat
  seq : Nat
  held : Tbl (Nat × List Byte)
  deriving DecidableEq, Repr

/-- A challenge outstanding on a path (R497): its 256 bytes, when it was issued. -/
structure Challenge where
  bytes : List Byte
  since : Nat
  deriving DecidableEq, Repr

/-- A tray frame waiting at the management MAC (R504, R505): its queue, destination, type, `seq`, body and failed attempts. -/
structure TrayFrame where
  queue : Nat
  dst : Nat
  typ : Nat
  seq : Nat
  body : List Byte
  tries : Nat
  deriving DecidableEq, Repr

/-- A power-cycle request that is being repeated (R507): its body byte, when it began, the `seq` of each request sent, whether TIMEOUT has been
logged. -/
structure CycleReq where
  why : Nat
  since : Nat
  seqs : List Nat
  late : Bool
  deriving DecidableEq, Repr

/-- The management block beside its registers. -/
structure MgtSt where
  session : Option Session
  /-- R497: by path, 0-7 the management connections, 8 path 2: the challenge, times of failures within 10 s, whether it is locked. -/
  challenges : Tbl Challenge
  failures : Tbl (List Nat)
  locked : List Nat
  /-- R498: grants whose RESULT has not been acknowledged: connection k and the RESULT's MSN. -/
  granting : Tbl Nat
  /-- R510: the proof window and the challenge window of path 2. -/
  proof : Tbl Byte
  chal : List Byte
  /-- R504: frames waiting, the frame in transmission and whether it backs off from a collision (R503), the `seq` of the next message (R505). -/
  tray : List TrayFrame
  sending : Option TrayFrame
  backoff : Bool
  traySeq : Nat
  cycle : Option CycleReq
  /-- R491, R492, R508: firmware slots A (0) and B (1) that hold an image; the slot whose firmware runs; its header; the program that runs. -/
  fw : Tbl (List Byte)
  fwRun : Option Nat
  fwHdr : List Byte
  fwProg : Option (Nat × List Byte)
  deriving DecidableEq, Repr


/-- Why a step stops the machine. -/
inductive Fault where
  /-- An operand names a unit, port, bank, partition or other part that the spec says does not exist (R2, R31, R282, R310). Raised by every meaning whose operand is a number of a unit. SAFE: no run of the hardware delivers such an event. -/
  | noSuchUnit
  deriving DecidableEq, Repr

/-- Why a command has no meaning. -/
inductive Refusal where
  /-- The command's meaning has not been written yet. Raised by Dispatch only. SAFE. -/
  | notModelled (mnemonic : String)
  deriving DecidableEq, Repr

/-- The whole state of the device. -/
structure State where
  /-- MODEL'S OWN: the commands waiting, first in first out (log entry 2); reset empty. -/
  pending : List Instr
  /-- MODEL'S OWN: how many free values have been drawn; the next is Config.free of it (log entry 3); reset 0 DESIGN CHOICE; no statement rests on its value. -/
  fresh : Nat
  /-- MODEL'S OWN: everything that has left the device, oldest first (log entry 4); reset empty. -/
  outbox : List Output
  /-- PWR_TICK, ember clocks since power-on (R451, 18); 64 bits; reset 0 at power-on. -/
  ticks : Nat
  /-- MODEL'S OWN: time in nanoseconds, against which the rules stated in time are read (log entry 1); reset 0 DESIGN CHOICE. -/
  now : Nat
  /-- R525, R527, R531 (23): whether the device runs; reset run (State.reset is the device right after reset). -/
  power : Power
  /-- R9, R511, R517-R520 (00, 22) and the register tables: every register whose value differs from its reset value, by register and copy; reset empty, so each register holds its reset value (Reg.resetAt). -/
  regs : Tbl Word
  /-- R448 (18): the high-half latches, one a path; reset empty. -/
  latches : List Latch
  /-- R23-R27 (01): sequence numbers, replay buffers and credits of the Kilmet modules; reset empty (sequence numbers 0; credits for 512 flits on each channel, DESIGN CHOICE log entry 40). -/
  kln : KlnSt
  /-- R34-R57 (02): staging buffer, flash slots A and B, running image, slice load; reset: bare start, blank flash (DESIGN CHOICE log entry 5), staging 0 (DESIGN CHOICE log entry 6). -/
  lay : LaySt
  /-- R31, R47, R353 (01, 14): defective units and lanes, units retired without a state register, spares that serve for units, the DIMMs; reset: no defect, none retired, eight
  MRDIMMs of 256 GiB (DESIGN CHOICE log entry 5). -/
  built : BuiltSt
  /-- R112-R151 (04, 05): group records, operations of the commons with their chunks and slots, the member-table window; reset empty (every record FREE). -/
  cmn : CmnSt
  /-- R152-R190 (06, 07): bound tables and copy states, engines' blocks; reset empty. -/
  mill : MillSt
  /-- R202-R227 (08): connection ends, context-cache residency, packets waiting for a context, times of answers; reset empty (every end FREE). -/
  bxt : BxtSt
  /-- R352-R355, R363 (14): the bytes of HBM4, DDR5, larder and the control ring's memory, by device address (hbmBase, ddrBase, larderBase, ctlBase), addresses rising, no zero byte listed; an unlisted byte reads 0 (R355 zeroing); reset empty. -/
  mem : List Host.Cell
  /-- R352-R372 (14): poison, granules, zeroing, bank and spare work, cellar wipe, block re-sends; reset empty. -/
  tier : TierSt
  /-- R312, R253 (12, 09): outstanding reads, posted writes, flushes, delivered host bytes; reset empty. -/
  hpt : HptSt
  /-- R328-R349 (13): roots, nonces, cache, holds, records, queues, invalidations; reset empty. -/
  xlt : XltSt
  /-- R229-R236 (09): the ring pairs by instance * 4096 + local number; a ring not listed is FREE; reset empty. -/
  rings : Tbl Ring
  /-- R232 (09): entries fetched and not yet admitted, oldest first; reset empty. -/
  fetched : List Fetched
  /-- R260 (10): operations in flight, by the number the model gives them; reset empty. -/
  ops : Tbl Op
  /-- MODEL'S OWN: the next operation's number; reset 0. -/
  nextOp : Nat
  /-- R320, R377 (12, 15): what instances that are not ABSENT hold beside their registers; reset empty. -/
  insts : Tbl Inst
  /-- R376, R386 (15): drains and resets of partitions; reset empty. -/
  parts : Tbl Part
  /-- R264-R269 (10): virtual clocks, grants; reset empty (clocks 0). -/
  adm : AdmSt
  /-- R279 (10): meters; an unlisted meter has the reset parameters of POL_METER_RATE and POL_METER_BURST and full buckets (log entry 8); reset empty. -/
  meters : Tbl Meter
  /-- R265, R299 (10, 11): packets queued at the logical ports, in order of arrival; reset empty. -/
  egress : List Queued
  /-- R284, R290-R305 (11): training, pause, hop replay and measurements of each logical port; reset empty (nothing of any). -/
  lports : Tbl LPort
  /-- R43, R300 (02, 11): the relay table, port mask by destination; reset empty (from layout). -/
  routes : Tbl Nat
  /-- R306 (11): weather levels of each destination (64 levels of 4 bits) and when they were refreshed; reset empty (all levels 0). -/
  wx : Tbl (Nat × Nat)
  /-- R305, R306 (11): the report counter and the update window; reset 0, window 0 (R511: memory windows read 0 DESIGN CHOICE log entry 6). -/
  wxs : WxSt
  /-- R392 (16): the tenant key slots that are not FREE, 65,536; reset empty (all FREE). -/
  slots : Tbl KeySlot
  /-- R392, R498 (16, 21): the 16 management slots that are loaded; reset empty. -/
  mslots : Tbl KeySlot
  /-- R396, R399, R403 (16): staged key words and their claim, running wipes, core mismatches; reset empty. -/
  cph : CphSt
  /-- R404, R408, R412 (16): nonce, token and report windows (read 0, DESIGN CHOICE log entry 6), fused polarity unburnt (DESIGN CHOICE log entry 5), no ATTEST; reset so. -/
  tru : TruSt
  /-- R417-R431 (17): NQNs, target connections, streams; reset empty (every target IDLE, NQN zeros DESIGN CHOICE log entry 6). -/
  ckp : CkpSt
  /-- R433-R442 (18): climbs, wakes held, throttle, device entry; reset nothing climbs or is held, no throttle, not asleep (R451: every domain LIT). -/
  pwr : PwrSt
  /-- R523 (23): FAULT_N and WAKE; reset FAULT_N high-impedance, WAKE low (an input: DESIGN CHOICE log entry 31). -/
  pins : PinSt
  /-- R452-R467 (19): replays, histories of units, boot watchdog, last dump; reset none, the boot watchdog stopped (DESIGN CHOICE log entry 5). -/
  rst : RstSt
  /-- R470-R477 (20): staging, ring, summaries, clear point, boot count and window of the logbook; reset empty (a blank flash, DESIGN CHOICE log entry 5). -/
  log : LogSt
  /-- R486 (20): the armed injection point; reset none. -/
  inj : Option InjPoint
  /-- R479 (20): the snapshot area TEL_SNAP_WINDOW shows; reset empty (reads 0). -/
  snap : List Word
  /-- R496-R508 (21): session, challenges, tray queues, power-cycle request, firmware slots; reset: no session, nothing outstanding, blank flash and no firmware header (DESIGN CHOICE log entry 5). -/
  mgt : MgtSt
  /-- MODEL'S OWN: register writes refused so far, by which REG_RESP knows status 2 (R502); reset 0 DESIGN CHOICE log entry 2; no statement rests on its value. -/
  wrefused : Nat
  deriving DecidableEq, Repr

/-- The credits of the link's channels at reset, DESIGN CHOICE (log entry 40): room for 512 flits on each channel of each direction. -/
def klnCredits : Tbl Nat := [0, 1, 2, 3, 4, 5, 6, 8, 9, 10, 11, 12, 13, 14].map fun k => (k, 512)

/-- The machine right after reset. -/
def State.reset : State where
  pending := []
  fresh := 0
  outbox := []
  ticks := 0
  now := 0
  power := .run
  regs := []
  latches := []
  kln := ⟨[], klnCredits, [], [], [], [], []⟩
  lay := ⟨[], [], none, none, [], none, 0⟩
  built := ⟨[], [], [], List.replicate 8 (some ⟨true, 256, 2, 0, [8000, 8800]⟩), [], [], []⟩
  cmn := ⟨[], [], [], []⟩
  mill := ⟨[], [], []⟩
  bxt := ⟨[], [], [], [], [], []⟩
  mem := []
  tier := ⟨[], [], [], [], [], none, [], none, [], [], [], []⟩
  hpt := ⟨[], [], [], 0, []⟩
  xlt := ⟨[], [], [], [], [], [], [], [], []⟩
  rings := []
  fetched := []
  ops := []
  nextOp := 0
  insts := []
  parts := []
  adm := ⟨[], [], [], [], [], []⟩
  meters := []
  egress := []
  lports := []
  routes := []
  wx := []
  wxs := ⟨0, 0, []⟩
  slots := []
  mslots := []
  cph := ⟨[], none, 0, [], false, []⟩
  tru := ⟨[], [], [], none, none⟩
  ckp := ⟨[], [], []⟩
  pwr := ⟨[], [], [], 0, none, none⟩
  pins := ⟨false, false⟩
  rst := ⟨[], [], [], [], [], [], [], false, none⟩
  log := ⟨[], false, 0, none, 0, [], some 1, 0, [], [], [], 0, 0, [], none⟩
  inj := none
  snap := []
  mgt := ⟨none, [], [], [], [], [], [], [], none, false, 0, none, [], none, [], none⟩
  wrefused := 0

end Sys2Proof.Machine
end

