-- ==== Sys2Proof/Machine/Ops.lean ====
section
/-!
DEFINITION. The named operations every meaning is written over: registers and their fields, free values, the clock, device memory,
the logbook (R470-R475), event counters (R446, R478), injection (R486).
-/

namespace Sys2Proof.Machine

/-! ### Registers -/

/-- The key of a register's copy in the register file. -/
def Reg.key (r : Reg) (i : Nat) : Nat := i * 512 + r.ctorIdx

/-- TEL_SPARE after start-up (R31, R480): built, active, spare and retired counts of the resources in the row order of R31; a count that the 8-bit field cannot
hold stands at 255, and row 3, for which R31 gives no numbers, begins at 0 (log entry 10). -/
def spareRow : Nat → Nat × Nat × Nat
  | 0 => (9, 8, 1)
  | 1 => (17, 16, 1)
  | 2 => (68, 64, 4)
  | 3 => (0, 0, 0)
  | 4 => (255, 255, 8)
  | 5 => (34, 32, 2)
  | 6 => (18, 16, 2)
  | 7 => (18, 16, 2)
  | 8 => (36, 32, 4)
  | 9 => (18, 16, 2)
  | 10 => (2, 1, 1)
  | _ => (0, 0, 0)

/-- The reset value of a register's copy: the reset column of its table; where a fuse, training or flash decides it, the value that
log entry 5 or log entry 10 names. -/
def Reg.resetAt (r : Reg) (i : Nat) : Word :=
  match r with
  | .TAL_UNIT_STATE => if 32 ≤ i then 1 else 0
  | .MIL_ENG_STATE => if 16 ≤ i then 1 else 0
  | .CPH_CORE_STATE => if 16 ≤ i then 1 else if i < 8 then 4 else 0
  | .LRD_BANK => BitVec.ofNat 64 (i * 256)
  | .LRD_SPARE_STATE => 0xFF
  | .TEL_SPARE => BitVec.ofNat 64 ((spareRow i).1 + 256 * (spareRow i).2.1 + 65536 * (spareRow i).2.2)
  | .TAL_POOL => 0x08000800
  | .HBM_CAP => 256
  | .DDR_CAP => 2048
  | .HBM_STACK => 0xFFFFFFFF
  | .DDR_CH => 5
  | .PWR_CFG => 700
  | .RST_LAST => 0x100000000
  | .PWR_DOM => if i = 66 ∨ i = 84 ∨ i = 91 then 0x80 else 0
  | _ => BitVec.ofNat 64 r.reset0

/-- The value of a register's copy. -/
def State.reg (s : State) (r : Reg) (i : Nat) : Word := (Tbl.get? s.regs (r.key i)).getD (r.resetAt i)

/-- Sets a register's copy. -/
def State.setReg (s : State) (r : Reg) (i : Nat) (v : Word) : State := { s with regs := Tbl.set s.regs (r.key i) v }

/-- Bits [lo + w - 1 : lo] of a number. -/
def bitsOf (v lo w : Nat) : Nat := v / 2 ^ lo % 2 ^ w

/-- A number with bits [lo + w - 1 : lo] replaced. -/
def putBits (v lo w x : Nat) : Nat := v % 2 ^ lo + x % 2 ^ w * 2 ^ lo + v / 2 ^ (lo + w) * 2 ^ (lo + w)

/-- Reads a field of a register's copy. -/
def State.rd (s : State) (f : Fld) (i : Nat := 0) : Nat := bitsOf (s.reg f.reg i).toNat f.lo f.width

/-- Writes a field of a register's copy. -/
def State.wr (s : State) (f : Fld) (v : Nat) (i : Nat := 0) : State :=
  s.setReg f.reg i (BitVec.ofNat 64 (putBits (s.reg f.reg i).toNat f.lo f.width v))

/-- Adds to a counter field, which wraps at its width. -/
def State.bump (s : State) (f : Fld) (n : Nat := 1) (i : Nat := 0) : State := s.wr f (s.rd f i + n) i

/-- Adds one to a saturating counter field. -/
def State.bumpSat (s : State) (f : Fld) (i : Nat := 0) : State :=
  s.wr f (min (2 ^ f.width - 1) (s.rd f i + 1)) i

/-- Takes away from a count field, not below 0. -/
def State.lower (s : State) (f : Fld) (n : Nat := 1) (i : Nat := 0) : State := s.wr f (s.rd f i - n) i

/-! ### Running, output, free values -/

/-- The state with the queue of commands that it had before a command changed it. -/
def State.requeue (s : State) (q : List Instr) : State := { s with pending := q }

/-- An event reaches the device only while it runs (R525, R527, R531); otherwise nothing happens. The queue of waiting commands is not the
device's to change (log entry 2). -/
def act (s : State) (f : State → State) : Host.Outcome State Fault Refusal :=
  .next (if s.power = .run then (f s).requeue s.pending else s)

/-- The same with the operand check: a unit the spec says does not exist stops the machine. -/
def actOn (ok : Bool) (s : State) (f : State → State) : Host.Outcome State Fault Refusal :=
  if ok then act s f else .fault .noSuchUnit

/-- Work of domains 0 and 92, which a thermal trip does not stop (R531). -/
def actOn0 (s : State) (f : State → State) : Host.Outcome State Fault Refusal :=
  .next (if s.power = .run ∨ s.power = .tripped then (f s).requeue s.pending else s)

/-- Something leaves the device. -/
def State.emit (s : State) (o : Output) : State := { s with outbox := s.outbox ++ [o] }

/-- Draws a free value (log entry 3). -/
def State.draw (s : State) : Word × State := (Config.free s.fresh, { s with fresh := s.fresh + 1 })

/-- Draws a 64-bit token, never 0 (R321). -/
def State.drawToken (s : State) : Word × State :=
  let v := Config.free s.fresh
  (if v = 0 then 1 else v, { s with fresh := s.fresh + 1 })

/-- Draws a 20-bit key nonce, never 0 (R338). -/
def State.drawNonce (s : State) : Nat × State :=
  ((Config.free s.fresh).toNat % (2 ^ 20 - 1) + 1, { s with fresh := s.fresh + 1 })

/-- Draws a number below `n`. -/
def State.drawBelow (s : State) (n : Nat) : Nat × State :=
  ((Config.free s.fresh).toNat % n, { s with fresh := s.fresh + 1 })

/-- Nanoseconds in a microsecond, a millisecond, a second. -/
abbrev us : Nat := 1000
abbrev ms : Nat := 1000000
abbrev sec : Nat := 1000000000

/-! ### Device memory (R352-R355) -/

/-- Where each tier stands in the one space of device addresses the model keeps its cells in (log entry 11). -/
abbrev hbmBase : Nat := 0
abbrev ddrBase : Nat := 2 ^ 40
abbrev larderBase : Nat := 2 ^ 44
abbrev ctlBase : Nat := 2 ^ 45
abbrev ctlCqBase : Nat := 2 ^ 45 + 0x10000

/-- The canonical form of memory: addresses rising and no zero byte listed. -/
def Memory.wf (m : List Host.Cell) : Bool := Tbl.wf m && m.all fun c => c.2 != 0

/-- One byte of memory; an unlisted byte reads 0. -/
def Memory.get (m : List Host.Cell) (a : Nat) : Byte := (Tbl.get? m a).getD 0

/-- Stores one byte, keeping the canonical form. -/
def Memory.put (m : List Host.Cell) (a : Nat) (b : Byte) : List Host.Cell :=
  if b = 0 then Tbl.erase m a else Tbl.set m a b

/-- Stores bytes from an address on. -/
def Memory.write (m : List Host.Cell) (a : Nat) : List Byte → List Host.Cell
  | [] => m
  | b :: t => Memory.write (Memory.put m a b) (a + 1) t

/-- Reads `n` bytes from an address on. -/
def Memory.read (m : List Host.Cell) (a n : Nat) : List Byte := (List.range n).map fun k => Memory.get m (a + k)

/-- Takes every byte of a range back to 0 (R355). -/
def Memory.clear (m : List Host.Cell) (lo n : Nat) : List Host.Cell := m.filter fun c => !(decide (lo ≤ c.1) && decide (c.1 < lo + n))

/-- Whether a 64-byte word lies wholly in a range. -/
def wordIn (a n w : Nat) : Bool := decide (a ≤ w) && decide (w + 64 ≤ a + n)

/-- Stores bytes in device memory; a write of a whole 64-byte word clears its poison (R358). -/
def State.memWrite (s : State) (a : Nat) (data : List Byte) : State :=
  { s with
    mem := Memory.write s.mem a data
    tier := { s.tier with
      poison := s.tier.poison.filter fun w => !wordIn a data.length w
      flaws := s.tier.flaws.filter fun q => !wordIn a data.length q.1 } }

/-- A range of device memory becomes zero, and its words lose their poison and their errors. -/
def State.zeroRange (s : State) (a n : Nat) : State :=
  { s with
    mem := Memory.clear s.mem a n
    tier := { s.tier with
      poison := s.tier.poison.filter fun w => !wordIn a n w
      flaws := s.tier.flaws.filter fun q => !wordIn a n q.1 } }

/-- Reads device memory. -/
def State.memRead (s : State) (a n : Nat) : List Byte := Memory.read s.mem a n

/-- Whether a range of device memory holds a poisoned word (R358, R359). -/
def State.poisoned (s : State) (a n : Nat) : Bool := s.tier.poison.any fun w => decide (w < a + n) && decide (a < w + 64)

/-! ### Event counters and injection -/

/-- Counts an event of a source of R478 in every PWR_EVT counter that selects it (R446). -/
def State.evt (s : State) (src : Nat) : State :=
  (List.range 16).foldl (fun s n => if s.rd F.PWR_EVT_SEL_source n = src then s.bump F.PWR_EVT 1 n else s) s

/-! ### The logbook (R470-R475) -/

/-- The event code of R471. -/
def Ev.code (e : Ev) : Nat := e.ctorIdx + 1

/-- The default severity of R471. -/
def Ev.severity : Ev → Nat
  | .writeRefused => 2
  | .stateChange => 1
  | .commandDone => 0
  | .commandRefused => 2
  | .corrected => 0
  | .uncorrectable => 3
  | .resendExhausted => 3
  | .timeout => 2
  | .hang => 3
  | .retired => 3
  | .spareMapped => 1
  | .reset => 2
  | .threshold => 2
  | .tamper => 4
  | .lifecycle => 4
  | .injection => 2
  | .dumpSummary => 3
  | .recordsLost => 3
  | .shareReduced => 2
  | .halt => 3
  | .checkFail => 3

/-- The power domain that a block's record names (R470, from the contents column of R432; log entry 12). -/
def Blk.domain (b : Blk) (i : Nat) : Nat :=
  match b with
  | .GLB => 95
  | .LAY => 95
  | .PWR => 0
  | .RST => 0
  | .LOG => 0
  | .INJ => 0
  | .TEL => 31
  | .PRT => 9 + min 7 (i / 8)
  | .HOP => 17
  | .BXT => 19
  | .CTX => 23
  | .ADM => 27
  | .POL => 29
  | .KLN => if i < 4 then 32 else 33
  | .HPT => 39 + min 3 (i / 4)
  | .WQE => 43
  | .XLT => 44
  | .DMV => 46 + min 3 i
  | .LRD => if i < 16 then 65 else 50 + min 14 ((i - 16) / 16)
  | .HBM => 67 + min 3 i
  | .DDR => if i < 4 then 71 else 72
  | .TAL => if i < 9 then 73 else if i < 18 then 74 else if i < 26 then 75 else 76
  | .CMN => 77
  | .MIL => if i < 5 then 78 else if i < 10 then 79 else if i < 14 then 80 else 81
  | .CPH => if i < 9 then 82 else 83
  | .TRU => 90
  | .CKP => 85
  | .MGT => 92
  | .PTN => 95

/-- The 32 bytes of a record with its CRC-32C (R470). -/
def LogRec.bytes (r : LogRec) : List Byte :=
  let b := leBytes 1 r.ev.code ++ leBytes 1 r.blk.num ++ leBytes 1 r.domain ++ leBytes 1 r.index ++ leBytes 4 r.boot ++ leBytes 8 r.tick
    ++ leBytes 7 r.subject ++ leBytes 1 r.detail ++ leBytes 2 r.rep ++ leBytes 1 (r.severity + 8 * b2n r.injected) ++ leBytes 1 0
  b ++ leBytes 4 (crc32c b)

/-- Record slots of the ring and of a block (R472). -/
abbrev logSlots : Nat := 1964032

/-- The block a record slot lies in (R472). -/
def slotBlock (slot : Nat) : Nat := 1 + slot / 2048

/-- The first slot of the next good block, at or after a slot (R473), looking at most at every block once. -/
def nextGood (bad : List Nat) : Nat → Nat → Nat
  | 0, slot => slot
  | n + 1, slot => if bad.contains (slotBlock slot) then nextGood bad n ((slot / 2048 + 1) * 2048 % logSlots) else slot

/-- Records that wait, are closed, and are not being programmed (R473, R474). -/
def LogSt.closedWaiting (l : LogSt) : Nat :=
  l.staged.length - b2n l.isOpen - (match l.page with | some p => p.recs.length | none => 0)

/-- Starts programming a page of up to 8 closed records, if none is being programmed (R473). -/
def State.startPage (s : State) : State :=
  let l := s.log
  if l.page.isSome ∨ s.rd F.LOG_STATUS_stopped = 1 ∨ l.closedWaiting = 0 then s
  else { s with log := { l with page := some ⟨l.staged.take (min 8 l.closedWaiting), l.nextSlot⟩ } }

/-- Starts a page as soon as 8 records wait (R473). -/
def State.pageIfFull (s : State) : State := if 8 ≤ s.log.closedWaiting then s.startPage else s

/-- The k-th good slot from a slot on. -/
def slotAfter (bad : List Nat) : Nat → Nat → Nat
  | 0, slot => nextGood bad 959 slot
  | k + 1, slot => slotAfter bad k ((nextGood bad 959 slot + 1) % logSlots)

/-- The slot that the k-th staged record counts as (R476). -/
def LogSt.stagedSlot (l : LogSt) (k : Nat) : Nat :=
  if l.bad.isEmpty then (l.nextSlot + k) % logSlots else slotAfter l.bad k l.nextSlot

/-- Whether no record is visible. -/
def LogSt.bare (l : LogSt) : Bool :=
  l.staged.isEmpty && l.flash.all fun q => match q.2 with
    | .record _ => false
    | _ => true

/-- Stages a record that finds room (R473, R475): the last 64 of the 2,048 slots take only severity 3 and 4. -/
def State.stageRec (s : State) (r : LogRec) : State :=
  let n := s.log.staged.length
  if n < 1984 ∨ (n < 2048 ∧ 3 ≤ r.severity) then
    let slot := s.log.stagedSlot n
    let s := if s.log.bare then s.wr F.LOG_STATUS_oldest slot else s
    let s := { s with log := { s.log with staged := s.log.staged ++ [r], isOpen := true } }
    (s.bump F.LOG_WRITTEN).wr F.LOG_STATUS_newest slot
  else
    let s := { s with log := { s.log with lost := s.log.lost + 1 } }
    s.bump F.LOG_DROPPED

/-- A tray message goes to its queue at the management MAC; a full queue drops it (R504, R505). An idle MAC starts sending it. -/
def State.trayPut (s : State) (queue dst typ : Nat) (body : List Byte) : State :=
  let f : TrayFrame := ⟨queue, dst, typ, s.mgt.traySeq, body, 0⟩
  let s := { s with mgt := { s.mgt with traySeq := (s.mgt.traySeq + 1) % 65536 } }
  if s.mgt.sending.isNone then { s with mgt := { s.mgt with sending := some f } }
  else if 16 ≤ (s.mgt.tray.filter fun g => g.queue == queue).length then s.bump F.MGT_TX_DROP
  else { s with mgt := { s.mgt with tray := s.mgt.tray ++ [f] } }

/-- The broadcast address. -/
abbrev macAll : Nat := 0xFFFFFFFFFFFF

/-- Where an EVENT goes: the tray controller, or broadcast while it is unknown (R505). -/
def State.trayDst (s : State) : Nat := if s.rd F.MGT_TC_MAC_tc_mac = 0 then macAll else s.rd F.MGT_TC_MAC_tc_mac

/-- A record of severity 3 or 4 is told on the tray bus while `events` is 1 (R505). -/
def State.trayEvent (s : State) (r : LogRec) : State :=
  if 3 ≤ r.severity ∧ s.rd F.MGT_CFG_events = 1 then s.trayPut 1 s.trayDst 3 r.bytes else s

/-- Ticks of the ember clock in one second (R443: 12.5 MHz). -/
abbrev tickSecond : Nat := 12500000

/-- A record of this moment. -/
def State.mkRec (s : State) (b : Blk) (e : Ev) (detail subject index sev : Nat) (inj : Bool) : LogRec :=
  { blk := b, ev := e, domain := b.domain index, index := index % 256, boot := s.rd F.RST_LAST_boot_count, tick := s.ticks,
    detail := detail % 256, subject := subject % 2 ^ 56, rep := 0, severity := sev, injected := inj }

/-- Whether an event merges with the open record (R474). -/
def sameEvent (o r : LogRec) : Bool :=
  o.blk == r.blk && o.ev == r.ev && o.domain == r.domain && o.index == r.index && o.detail == r.detail && o.subject == r.subject

/-- Logs a record: merges it with the open one, or closes that one and stages it, telling first of records lost (R474, R475). -/
def State.logRec (s : State) (r : LogRec) : State :=
  match s.log.isOpen, s.log.staged.getLast? with
  | true, some o =>
    if sameEvent o r ∧ r.tick ≤ o.tick + tickSecond then
      ({ s with log := { s.log with staged := s.log.staged.dropLast ++ [{ o with rep := min 65535 (o.rep + 1) }] } }).bump F.LOG_REPEATS
    else fresh s
  | _, _ => fresh s
where
  fresh (s : State) : State :=
    let s := if 0 < s.log.lost ∧ s.log.staged.length < 2047 then
        let n := s.log.lost
        let r0 := s.mkRec .LOG .recordsLost (s.rd F.LOG_STATUS_stopped) n 0 3 false
        (({ s with log := { s.log with lost := 0 } }).stageRec r0).trayEvent r0
      else s
    ((s.stageRec r).trayEvent r).pageIfFull

/-- Logs an event of a block: `detail`, `subject`, the unit index, at the default severity (R471). -/
def State.logEv (s : State) (b : Blk) (e : Ev) (detail subject : Nat) (index : Nat := 0) (inj : Bool := false) : State :=
  s.logRec (s.mkRec b e detail subject index e.severity inj)

/-- Logs a refused command with its reason and subject (R471). -/
def State.logRefused (s : State) (b : Blk) (reason subject : Nat) : State := s.logEv b .commandRefused reason subject

/-- Logs a completed command with its `op` and subject (R471). -/
def State.logDone (s : State) (b : Blk) (op subject : Nat) : State := s.logEv b .commandDone op subject

/-- A CHECK_FAIL entry (R98, R471): the three records of its parts are staged together or dropped together; no two of them are equal. -/
def State.logCheckFail (s : State) (b : Blk) (checker index : Nat) (subjects : List Nat) : State :=
  if s.log.staged.length + 3 ≤ 2048 then (subjects.zipIdx).foldl (fun s q => s.logEv b .checkFail (q.2 + 4 * checker) q.1 index) s
  else ({ s with log := { s.log with lost := s.log.lost + 3 } }).bump F.LOG_DROPPED 3

/-! ### Injection (R486) -/

/-- Injection points whose `index` names a unit (R484). -/
def pointHasIndex (p : Nat) : Bool := p == 0x0301 || p == 0x0701 || p == 0x0D01 || p == 0x1902

/-- A detector examines an event: whether the armed point fires on it, and the state after (R486). `status` is the status the injected
failure gives, for the INJECTION record; the partition is 64 where the event concerns none. -/
def State.inject (s : State) (point index part status : Nat) : Bool × State :=
  match s.inj with
  | none => (false, s)
  | some p =>
    if p.point = point ∧ (pointHasIndex point = false ∨ p.index = index) ∧ (p.ptn = none ∨ p.ptn = some part) then
      if p.seen + 1 < p.every then (false, { s with inj := some { p with seen := p.seen + 1 } })
      else
        let left := s.rd F.INJ_STATUS_left - 1
        let s := if p.forever then { s with inj := some { p with seen := 0 } }
          else if left = 0 then (({ s with inj := none }).wr F.INJ_STATUS_armed 0).wr F.INJ_STATUS_left 0
          else ({ s with inj := some { p with seen := 0 } }).wr F.INJ_STATUS_left left
        (true, (s.bump F.INJ_FIRED).logEv .INJ .injection status point 0 true)
    else (false, s)

/-- A list of numbers with one more, in ascending order. -/
def insertNat (x : Nat) : List Nat → List Nat
  | [] => [x]
  | y :: t => if x ≤ y then x :: y :: t else y :: insertNat x t

/-! ### Partitions and instances -/

/-- Codes of the states of instances and partitions in PTN_INST and PTN_PART (R391). -/
abbrev instAbsent : Nat := 0
abbrev instLive : Nat := 1
abbrev instFencing : Nat := 2
abbrev instQuiesced : Nat := 3
abbrev instResetting : Nat := 4
abbrev ptnDisabled : Nat := 0
abbrev ptnLive : Nat := 1
abbrev ptnFencing : Nat := 2
abbrev ptnQuiesced : Nat := 3
abbrev ptnResetting : Nat := 4

/-- The running layout's entry of a partition. -/
def State.partDef (s : State) (p : Nat) : Option PartDef := s.lay.running.bind fun l => l.parts[p]?

/-- Whether the running image enables a partition (R375). -/
def State.enabled (s : State) (p : Nat) : Bool := (s.partDef p).any (·.enabled)

/-- The pool shares of a partition (R39). -/
def State.shares (s : State) (p : Nat) : PoolShare :=
  (s.lay.running.bind fun l => Tbl.get? l.pools p).getD ⟨0, 0, 0, 0, 0, 0, 0, 0, 1, 1, [0, 0, 0, 0, 0, 0], 1, 1, 4⟩

/-- An instance's weight: its own, or its partition's default (R378). -/
def State.weight (s : State) (vf p : Nat) : Nat :=
  let w := s.rd F.PTN_INST_wfq_weight vf
  if w = 0 then (s.shares p).wfqWeight else w

/-- The partition whose range holds an instance (R377); none where no enabled partition's does. -/
def State.partOf (s : State) (vf : Nat) : Option Nat :=
  (List.range 64).find? fun p => match s.partDef p with
    | some d => d.enabled && decide (d.vfBase ≤ vf) && decide (vf < d.vfBase + d.vfCount)
    | none => false

/-- The instances of a partition that are not ABSENT. -/
def State.instsOf (s : State) (p : Nat) : List Nat :=
  match s.partDef p with
  | some d => (List.range d.vfCount).filterMap fun k => if s.rd F.PTN_INST_state (d.vfBase + k) = 0 then none else some (d.vfBase + k)
  | none => []

/-- An instance's record; the empty one where it is ABSENT. -/
def State.inst (s : State) (vf : Nat) : Inst := Tbl.getD s.insts vf ⟨0, [], [], false, false, [], [], [], none, 0, 0, 0, []⟩

/-- Changes an instance's record. -/
def State.setInst (s : State) (vf : Nat) (i : Inst) : State := { s with insts := Tbl.set s.insts vf i }

/-- Whether an instance or its partition is fenced, quiesced or resetting (R382). -/
def State.fencedInst (s : State) (vf p : Nat) : Bool :=
  decide (2 ≤ s.rd F.PTN_INST_state vf) || decide (2 ≤ s.rd F.PTN_PART_state p)

/-- Attachment states of HPT_INST_STATE (R320, R326). -/
abbrev attNew : Nat := 0
abbrev attAttached : Nat := 1
abbrev attDetached : Nat := 2
abbrev attPaused : Nat := 3

/-- Whether an instance is ATTACHED. -/
def State.attached (s : State) (vf : Nat) : Bool := s.rd F.HPT_INST_STATE_state vf == attAttached

/-- Whether a host link is UP (R327). -/
def State.linkUp (s : State) (x : Nat) : Bool := s.rd F.HPT_LINK_state x == 2

/-- Links exist as their port's bifurcation creates them (R310); a bare start has link 0 alone (R48). -/
def State.linkExists (s : State) (x : Nat) : Bool :=
  match s.lay.running with
  | none => x == 0
  | some l => match l.hosts[x / 4]? with
    | some h => decide (x < 16) && decide (x % 4 < (if h.bifurcation = 0 then 1 else if h.bifurcation = 1 then 2 else 4))
    | none => false

/-- Whether a link's port is a root port (R319). -/
def State.isRoot (s : State) (x : Nat) : Bool :=
  match s.lay.running with
  | none => false
  | some l => (l.hosts[x / 4]?).any (·.role == 1)

/-- Logical ports exist as their port's split creates them (R282); none after a bare start. -/
def State.lportExists (s : State) (p : Nat) : Bool :=
  match s.lay.running with
  | none => false
  | some l => match l.ports[p / 8]? with
    | some r => decide (p < 64) && decide (p % 8 < 2 ^ r.split)
    | none => false

end Sys2Proof.Machine
end

