-- ==== Sys2Proof/Machine/Manager.lean ====
section
/-!
DEFINITION. Who may act as the manager (R1, R493, R496, R499, R512, R515): the session that holds the role, the path it holds it by, and what that path
reaches. A row that is the manager's takes effect through `asManager` alone.
-/

namespace Sys2Proof.Machine

/-- Path 2 among the credential paths (R496): 0-7 are the management connections. -/
abbrev mgtPath2 : Nat := 8

/-- Whether path 2 may be used (R496): under bit 0 of the manager-access flags, in bare start and in RECOVERY. -/
def State.path2Open (s : State) : Bool :=
  s.rd F.MGT_BOOT_mode == 2 || (match s.lay.running with
    | none => true
    | some l => l.access.flags % 2 == 1)

/-- Whether path 2 holds the role, and which management connection does (R499). -/
def State.pf0Holds (s : State) : Bool := s.mgt.session.any fun z => z.conn.isNone
def State.connHolds (s : State) (k : Nat) : Bool := s.mgt.session.any fun z => z.conn == some k

/-- Whether a path is the one whose session holds the role and reaches the management space now (R1, R512): path 1 the whole space; path 2 while link 0
is up and the path is open, in RECOVERY only what R493 lists (`inRecovery`). -/
def State.managesBy (s : State) (path : Path) (inRecovery : Bool) : Bool :=
  match path with
  | .conn => s.mgt.session.any fun z => z.conn.isSome
  | .pf0 => s.pf0Holds && s.linkUp 0 && s.path2Open && (s.rd F.MGT_BOOT_mode != 2 || inRecovery)
  | _ => false

/-- Whether a session holds the role by a path that reaches the row's register (R1, R515: only the session's holder writes). -/
def State.manages (s : State) (inRecovery : Bool) : Bool := s.managesBy .conn inRecovery || s.managesBy .pf0 inRecovery

/-- A manager access (R499): the session's idle time begins anew. -/
def State.touchSession (s : State) : State :=
  match s.mgt.session with
  | some z => { s with mgt := { s.mgt with session := some { z with last := s.now } } }
  | none => s

/-- A row of the manager's: an access of the session's holder. Without one no access reaches the register, and nothing happens (R1). -/
def asManager (inRecovery : Bool) (f : State → State) (s : State) : State := if s.manages inRecovery then f s.touchSession else s

/-- The same where the row names the path that writes. -/
def asManagerBy (path : Path) (inRecovery : Bool) (f : State → State) (s : State) : State :=
  if s.managesBy path inRecovery then f s.touchSession else s

end Sys2Proof.Machine
end

