-- ==== Sys2Proof/Machine/Operands.lean ====
section
/-!
DEFINITION. The operand forms: status codes of R257, reasons of R339, the fields of a work-entry descriptor (R237-R245), the bytes of a
completion (R249).
-/

namespace Sys2Proof.Machine

/-- x is older than y in serial arithmetic of `b` bits (R207). -/
def serialOlder (b x y : Nat) : Bool :=
  let d := (y + 2 ^ b - x % 2 ^ b) % 2 ^ b
  d != 0 && decide (d < 2 ^ (b - 1))

/-! ### Status codes (R257) -/
namespace Status
abbrev ok : Nat := 0x00
abbrev aborted : Nat := 0x01
abbrev refusedCapacity : Nat := 0x02
abbrev refusedRate : Nat := 0x03
abbrev refusedPool : Nat := 0x04
abbrev refusedGrant : Nat := 0x05
abbrev deadlineMissed : Nat := 0x06
abbrev peerLost : Nat := 0x07
abbrev targetLost : Nat := 0x08
abbrev accessLocal : Nat := 0x09
abbrev accessRemote : Nat := 0x0A
abbrev translationFault : Nat := 0x0B
abbrev retryExhausted : Nat := 0x0C
abbrev checkFailed : Nat := 0x0D
abbrev stepVoid : Nat := 0x0E
abbrev contextReset : Nat := 0x0F
abbrev fencedOrMalformed : Nat := 0x10
abbrev lengthExceeded : Nat := 0x11
abbrev keyExhausted : Nat := 0x12
abbrev formatUnsupported : Nat := 0x13
abbrev recipeFault : Nat := 0x14
abbrev notReadyExhausted : Nat := 0x15
abbrev staleEpoch : Nat := 0x16
abbrev groupReformed : Nat := 0x17
abbrev twinDiverged : Nat := 0x18
abbrev storageError : Nat := 0x19
abbrev detached : Nat := 0x1A
abbrev quiesceRequired : Nat := 0x1B
abbrev lifecycleDenied : Nat := 0x1C
abbrev injected : Nat := 0x1D
abbrev halted : Nat := 0x1E
abbrev streamingFallback : Nat := 0x1F
end Status

/-! ### Reasons of R339 -/
namespace XReason
abbrev notPresent : Nat := 1
abbrev noRead : Nat := 2
abbrev noWrite : Nat := 3
abbrev noAtomic : Nat := 4
abbrev malformedPte : Nat := 5
abbrev outOfShare : Nat := 6
abbrev linkDenied : Nat := 7
abbrev addrRange : Nat := 8
abbrev tagForeign : Nat := 9
abbrev staleNonce : Nat := 10
abbrev remoteDisabled : Nat := 11
end XReason

/-! ### Descriptors (R237) -/

/-- A little-endian field of a byte list: `n` bytes from an offset. -/
def fieldLE (b : List Byte) (off n : Nat) : Nat := ofLE (slice b off n)

/-- A big-endian field of a byte list. -/
def fieldBE (b : List Byte) (off n : Nat) : Nat := ofBE (slice b off n)

/-- Whether every byte of a range is 0. -/
def zeroBytes (b : List Byte) (off n : Nat) : Bool := (slice b off n).all (· == 0)

/-- The common header of a descriptor. -/
structure DescHdr where
  opcode : Nat
  flags : Nat
  cls : Nat
  chunkLog2 : Nat
  inlineLen : Nat
  target : Nat
  tag : Nat
  wrId : Nat
  deriving DecidableEq, Repr

/-- Reads the common header (R237). -/
def descHdr (d : List Byte) : DescHdr :=
  { opcode := fieldLE d 0 1, flags := fieldLE d 1 1, cls := fieldLE d 2 1 % 8, chunkLog2 := fieldLE d 2 1 / 8,
    inlineLen := fieldLE d 3 1, target := fieldLE d 4 4 % 2 ^ 20, tag := fieldLE d 4 4 / 2 ^ 20, wrId := fieldLE d 8 8 }

/-- The ownership bit of an entry: bit 7 of its last byte (R230). -/
def phaseOf (d : List Byte) : Bool := ((d.getLast?).getD 0).toNat / 128 == 1

/-- The ownership bit that a count takes in a ring of 2^log entries (R231). -/
def phaseAt (count log : Nat) : Bool := count % 2 ^ 32 / 2 ^ log % 2 == 0

/-- A descriptor with its ownership bit taken out, so that the last byte can be tested as reserved. -/
def unphased (d : List Byte) : List Byte := d.dropLast ++ [BitVec.ofNat 8 (((d.getLast?).getD 0).toNat % 128)]

/-! ### Format words (R241) -/

/-- The format word of an entry: formats in and out, side fields, accumulation, rounding, saturation. -/
structure Fmtw where
  fmtIn : Nat
  sideIn : Nat
  fmtOut : Nat
  sideOut : Nat
  accFmt : Nat
  rnd : Nat
  sat : Nat
  resv : Nat
  deriving DecidableEq, Repr

/-- Reads a 3-byte format word. -/
def fmtwOf (v : Nat) : Fmtw :=
  { fmtIn := bitsOf v 0 5, sideIn := bitsOf v 5 3, fmtOut := bitsOf v 8 5, sideOut := bitsOf v 13 3, accFmt := bitsOf v 16 5,
    rnd := bitsOf v 21 1, sat := bitsOf v 22 1, resv := bitsOf v 23 1 }

/-! ### Completions (R249) -/

/-- An empty completion of an entry. -/
def cqe0 (h : DescHdr) (slot : Nat) : Cqe :=
  { wrId := h.wrId, slot := slot, status := 0, sub := 0, special := false, rndFallback := false, remote := false, stream := false,
    delayed := false, performed := false, held := false, event := false, opcode := h.opcode, cinfo := 0, result := [], eta := 0 }

/-- The 32 bytes of a completion with its ownership bit (R249). -/
def Cqe.bytes (c : Cqe) (phase : Bool) : List Byte :=
  leBytes 8 c.wrId ++ leBytes 2 c.slot ++ leBytes 1 c.status ++ leBytes 1 c.sub
    ++ leBytes 1 (b2n c.special + 2 * b2n c.rndFallback + 4 * b2n c.remote + 8 * b2n c.stream + 16 * b2n c.delayed + 32 * b2n c.performed
      + 64 * b2n c.held + 128 * b2n c.event)
    ++ leBytes 1 c.opcode ++ leBytes 1 c.cinfo ++ leBytes 1 0 ++ padTo 12 (c.result.take 12)
    ++ leBytes 3 (if c.delayed then min 0xFFFFFF c.eta else 0) ++ leBytes 1 (128 * b2n phase)

end Sys2Proof.Machine
end

