-- ==== Sys2Proof/Machine/Access.lean ====
section
/-!
DEFINITION. Address translation (R328-R343), the memory accesses made under it with the errors they meet (R358, R359, R362), and the host links they
go through (R312, R253, R318).
-/

namespace Sys2Proof.Machine

/-! ### Where a partition's memory lies (R332, R354) -/

/-- The device address of a partition's offset into its share of a tier (0 HBM4, 1 DDR5): its k-th granule. -/
def State.shareAddr (s : State) (part tier off : Nat) : Option Nat :=
  match (Tbl.getD s.tier.granules (tier * 64 + part) [])[off / 2 ^ 30]? with
  | some g => some ((if tier = 0 then hbmBase else ddrBase) + g * 2 ^ 30 + off % 2 ^ 30)
  | none => none

/-- The share of a tier in bytes (R39). -/
def State.shareBytes (s : State) (part tier : Nat) : Nat :=
  (if tier = 0 then (s.shares part).hbmShare else (s.shares part).ddrShare) * 2 ^ 30

/-! ### Channels out of service (R371) -/

/-- The channels of a tier in service, in ascending order (R352). -/
def State.chansOf (s : State) (tier : Nat) : List Nat :=
  if tier = 0 then (List.range 128).filter fun c => bitAt (s.rd F.HBM_STACK_in_service (c / 32)) (c % 32)
  else ((List.range 8).filter fun c => s.rd F.DDR_CH_state c == 1 || s.rd F.DDR_CH_state c == 3).map (128 + ·)

/-- The channel a device address falls in, of those in service: HBM4 0-127, DDR5 128-135 (R352); none in the larder. -/
def chanOf (s : State) (a : Nat) : Option Nat :=
  if a < ddrBase then (let l := s.chansOf 0; l[(a - hbmBase) / 256 % max 1 l.length]?)
  else if a < larderBase then (let l := s.chansOf 1; l[(a - ddrBase) / 256 % max 1 l.length]?)
  else none

/-- Whether an address lies in a FENCED channel. -/
def State.chanFenced (s : State) (a : Nat) : Bool :=
  match chanOf s a with
  | some c => s.tier.fenced.contains c
  | none => false

/-- Writes one piece of device memory that does not cross a 256-byte block: dropped and counted where its channel is FENCED. -/
def State.devWrite1 (s : State) (a : Nat) (data : List Byte) : State :=
  if s.chanFenced a then (if a < ddrBase then s.bump F.HBM_WR_DROP else s.bump F.DDR_WR_DROP) else s.memWrite a data

/-- The pieces of a range that lie in one block of `b` bytes each: offset from the start and length. -/
def blocksOf (b a n : Nat) : List (Nat × Nat) :=
  if n = 0 then [] else
  (List.range ((a + n - 1) / b - a / b + 1)).map fun k =>
    let lo := max a ((a / b + k) * b)
    let hi := min (a + n) ((a / b + k + 1) * b)
    (lo - a, hi - lo)

/-- Writes device memory (R358, R371). -/
def State.devWrite (s : State) (a : Nat) (data : List Byte) : State :=
  if s.tier.fenced.isEmpty then s.memWrite a data
  else (blocksOf 256 a data.length).foldl (fun s p => s.devWrite1 (a + p.1) (slice data p.1 p.2)) s

/-- Whether a read of a device range meets poison or a FENCED channel (R358, R371). -/
def State.devBad (s : State) (a n : Nat) : Bool :=
  s.poisoned a n || (!s.tier.fenced.isEmpty && (blocksOf 256 a n).any fun p => s.chanFenced (a + p.1))

/-! ### Walks -/

/-- How a lookup ends: `detached` and `lost` are no failures of the walk (R324, R332), which gave a place. -/
inductive XRes where
  | go (l : Loc)
  | absent (level : Nat)
  | viol (reason level : Nat)
  | detached (l : Loc)
  | lost (l : Loc)
  deriving DecidableEq, Repr

/-- The size of a leaf page at a level (R329). -/
def pageSize (level : Nat) : Nat := if level = 1 then 2 ^ 30 else if level = 2 then 2 ^ 21 else 2 ^ 12

/-- The structure rules of R330 for one entry; true where it keeps them. -/
def pteShape (level e : Nat) : Bool :=
  let leaf := bitsOf e 1 1 == 1
  let target := bitsOf e 6 2
  (if level = 0 then !leaf else if level = 3 then leaf else true)
    && (level == 3 || bitsOf e 5 1 == 0)
    && target != 3 && (leaf || target != 2)
    && (target == 2 || bitsOf e 8 4 == 0)
    && (!leaf || level == 3 || bitsOf e 12 44 * 4096 % pageSize level == 0)
    && bitsOf e 56 8 == 0

/-- The target rules of R332 for a page or table of `size` bytes: the reason it fails with, if any. -/
def State.pteTarget (s : State) (part vf e size : Nat) : Option Nat :=
  let target := bitsOf e 6 2
  let addr := bitsOf e 12 44 * 4096
  if target = 2 then
    let x := bitsOf e 8 4
    if !s.linkExists x then some XReason.linkDenied
    else if s.isRoot x then
      (if (s.partDef part).any fun d => d.hostPortMask.testBit (x / 4) then none else some XReason.linkDenied)
    else if s.rd F.HPT_INST_STATE_state vf ≠ attNew ∧ s.rd F.HPT_INST_STATE_link vf = x then none
    else some XReason.linkDenied
  else if addr + size ≤ s.shareBytes part target then none else some XReason.outOfShare

/-- Reads the table entry at an offset of a partition's share. -/
def State.readPte (s : State) (part tier off : Nat) : Nat :=
  match s.shareAddr part tier off with
  | some a => ofLE (s.memRead a 8)
  | none => 0

/-- The 16 entries of a 64 KiB group agree (R331): the entry at the walked index is `e`, its table at `tab`. -/
def State.groupOk (s : State) (part tier tab idx : Nat) : Bool :=
  let first := idx / 16 * 16
  let e0 := s.readPte part tier (tab + 8 * first)
  bitsOf e0 12 44 % 16 == 0 && (List.range 16).all fun k =>
    let e := s.readPte part tier (tab + 8 * (first + k))
    bitsOf e 0 1 == 1 && bitsOf e 5 1 == 1 && pteShape 3 e && bitsOf e 2 3 == bitsOf e0 2 3 && bitsOf e 6 2 == bitsOf e0 6 2
      && bitsOf e 8 4 == bitsOf e0 8 4 && bitsOf e 12 44 == bitsOf e0 12 44 + k

/-- The leaf a well-formed leaf entry gives. -/
def State.mkLeaf (s : State) (part tag va e size : Nat) : Leaf :=
  let target := bitsOf e 6 2
  let addr := bitsOf e 12 44 * 4096
  let addr := if size = 2 ^ 16 then addr / 2 ^ 16 * 2 ^ 16 else addr
  { tag := tag, base := va / size * size, size := size,
    loc := if target = 2 then .host (bitsOf e 8 4) addr else .dev ((s.shareAddr part target addr).getD 0),
    r := bitsOf e 2 1 == 1, w := bitsOf e 3 1 == 1, a := bitsOf e 4 1 == 1 }

/-- The walk from a level on (R330): a leaf, or the reason and level it fails with. `old` is the cached pointer entry of a level, where one is
used in place of the table's. -/
def State.walkFrom (s : State) (part vf tag va : Nat) (old : Nat → Option Nat) : List Nat → Nat → Nat → Except (Nat × Nat) Leaf
  | [], _, _ => .error (XReason.malformedPte, 3)
  | level :: rest, tier, tab =>
    let idx := va / 2 ^ (39 - 9 * level) % 512
    let e := (old level).getD (s.readPte part tier (tab + 8 * idx))
    if bitsOf e 0 1 = 0 then .error (XReason.notPresent, level)
    else if !pteShape level e then .error (XReason.malformedPte, level)
    else if level = 3 ∧ bitsOf e 5 1 = 1 ∧ !s.groupOk part tier tab idx then .error (XReason.malformedPte, level)
    else
      let leaf := bitsOf e 1 1 = 1
      let size := if level = 3 ∧ bitsOf e 5 1 = 1 then 2 ^ 16 else if leaf then pageSize level else 4096
      let e' := if size = 2 ^ 16 then s.readPte part tier (tab + 8 * (idx / 16 * 16)) else e
      match s.pteTarget part vf e' size with
      | some r => .error (r, level)
      | none =>
        if leaf then .ok (s.mkLeaf part tag va e size)
        else s.walkFrom part vf tag va old rest (bitsOf e 6 2) (bitsOf e 12 44 * 4096)

/-- A whole walk of a tag's tables. -/
def State.walkBy (s : State) (part vf tag va : Nat) (old : Nat → Option Nat) : Except (Nat × Nat) Leaf :=
  match Tbl.get? s.xlt.roots tag with
  | some (root, ddr) => s.walkFrom part vf tag va old [0, 1, 2, 3] (b2n ddr) root
  | none => .error (XReason.tagForeign, 0)

/-- A walk that reads every entry afresh. -/
def State.walk (s : State) (part vf tag va : Nat) : Except (Nat × Nat) Leaf := s.walkBy part vf tag va fun _ => none

/-- The pointer entry cached for a level of an address (R335). -/
def State.cachedPtr (s : State) (tag va level : Nat) : Option Nat :=
  (s.xlt.ptrs.find? fun p => p.tag == tag && p.level == level && p.path == va / 2 ^ (39 - 9 * level)).map (·.entry)

/-- The pointer entries that a walk passes, each of which has kept every check (R330-R332). -/
def State.passed (s : State) (part vf tag va : Nat) (old : Nat → Option Nat) : List Nat → Nat → Nat → List PtrEntry
  | [], _, _ => []
  | level :: rest, tier, tab =>
    let e := (old level).getD (s.readPte part tier (tab + 8 * (va / 2 ^ (39 - 9 * level) % 512)))
    if bitsOf e 0 1 = 0 ∨ !pteShape level e ∨ bitsOf e 1 1 = 1 ∨ (s.pteTarget part vf e 4096).isSome then []
    else ⟨tag, level, va / 2 ^ (39 - 9 * level), e⟩ :: s.passed part vf tag va old rest (bitsOf e 6 2) (bitsOf e 12 44 * 4096)

/-- Puts the pointer entries of a walk into the cache of 16,384, the oldest leaving (R335). -/
def State.cachePtrs (s : State) (part vf tag va : Nat) (old : Nat → Option Nat) : State :=
  match Tbl.get? s.xlt.roots tag with
  | some (root, ddr) =>
    let new := s.passed part vf tag va old [0, 1, 2] (b2n ddr) root
    let same := fun (p q : PtrEntry) => p.tag == q.tag && p.level == q.level && p.path == q.path
    let l := (new ++ s.xlt.ptrs.filter fun p => !new.any (same p)).take 16384
    if l = s.xlt.ptrs then s else ({ s with xlt := { s.xlt with ptrs := l } }).wr F.XLT_CACHE_ptr_resident l.length
  | none => s

/-- The right an access needs of a leaf (R333): the reason where it lacks it. -/
def leafRight (l : Leaf) : AccKind → Option Nat
  | .read => if l.r then none else some XReason.noRead
  | .write => if l.w then none else some XReason.noWrite
  | .atomic => if l.a then none else some XReason.noAtomic

/-- The place that a leaf gives an address. -/
def Leaf.place (l : Leaf) (va : Nat) : Loc :=
  match l.loc with
  | .dev a => .dev (a + (va - l.base))
  | .host x a => .host x (a + (va - l.base))

/-- The level at which a leaf of its size stands (R329). -/
def Leaf.level (l : Leaf) : Nat := if l.size = 2 ^ 30 then 1 else if l.size = 2 ^ 21 then 2 else 3

/-- The access a leaf gives at an address, with the link rules of R332 and R323 that are not walk failures. -/
def State.leafGo (s : State) (vf va : Nat) (l : Leaf) : XRes :=
  match l.loc with
  | .dev _ => .go (l.place va)
  | .host x _ =>
    if !s.isRoot x ∧ 2 ≤ s.rd F.HPT_INST_STATE_state vf then .detached (l.place va)
    else if !s.linkUp x then .lost (l.place va)
    else .go (l.place va)

/-- Puts a leaf into the translation cache, evicting the oldest beyond 65,536 (R335). -/
def State.cacheLeaf (s : State) (l : Leaf) : State :=
  let c := (l :: s.xlt.cache.filter fun k => !(k.tag == l.tag && k.base == l.base && k.size == l.size)).take 65536
  ({ s with xlt := { s.xlt with cache := c } }).wr F.XLT_CACHE_leaf_resident c.length

/-- Ends a lookup on a walk's outcome: rights, then the place; a good leaf is cached. -/
def State.endWalk (s : State) (vf va : Nat) (acc : AccKind) : Except (Nat × Nat) Leaf → XRes × State
  | .error (r, level) => (if r = XReason.notPresent then .absent level else .viol r level, s)
  | .ok l =>
    let s := s.cacheLeaf l
    match leafRight l acc with
    | some r => (.viol r l.level, s)
    | none => (s.leafGo vf va l, s)

/-- Whether a walk gives just this leaf. -/
def walkGives : Except (Nat × Nat) Leaf → Leaf → Bool
  | .ok k, l => k == l
  | .error _, _ => false

/-- Whether two walks end alike. -/
def sameWalk : Except (Nat × Nat) Leaf → Except (Nat × Nat) Leaf → Bool
  | .ok k, w => walkGives w k
  | .error e, .error f => e == f
  | .error _, .ok _ => false

/-- The entries that a walk uses: the tables' own, or cached pointer entries, which may be older; where the two lead to different ends and no
INVALIDATE has completed, the hardware may use either, and the model draws which (R335, log entry 18). -/
def State.walkPick (s : State) (part vf tag va : Nat) : (Nat → Option Nat) × State :=
  if sameWalk (s.walkBy part vf tag va (s.cachedPtr tag va)) (s.walk part vf tag va) then (fun _ => none, s)
  else
    let (v, s) := s.draw
    (if v.toNat % 2 = 0 then s.cachedPtr tag va else fun _ => none, s)

/-- A walk, with the walker's injection point (R484); the pointer entries it passed are cached. -/
def State.walkNow (s : State) (part vf tag va : Nat) (acc : AccKind) : XRes × State :=
  let s := s.bump F.XLT_WALK
  let (hit, s) := s.inject 0x1001 0 part Status.translationFault
  if hit then (.absent 3, s)
  else match s.walkPick part vf tag va with
  | (old, s) => (s.cachePtrs part vf tag va old).endWalk vf va acc (s.walkBy part vf tag va old)

/-- A lookup of one address (R335): a cache hit, or a walk. Where the tables have changed under a cached leaf and no INVALIDATE has
completed, the hardware may use either; the model draws which (log entry 18). -/
def State.lookup (s : State) (part vf tag va : Nat) (acc : AccKind) : XRes × State :=
  let s := s.bump F.XLT_LOOKUP
  if 2 ^ 48 ≤ va then (.viol XReason.addrRange 0, s)
  else match s.xlt.cache.find? fun l => l.tag == tag && decide (l.base ≤ va) && decide (va < l.base + l.size) with
  | none => s.walkNow part vf tag va acc
  | some l =>
    let s := s.bump F.XLT_HIT
    let old : XRes := match leafRight l acc with
      | some r => .viol r l.level
      | none => s.leafGo vf va l
    if walkGives (s.walk part vf tag va) l then (old, s)
    else
      let (v, s) := s.draw
      if v.toNat % 2 = 0 then (old, s) else s.walkNow part vf tag va acc

/-- Whether a tag is live and an instance's own (R328). -/
def State.ownsTag (s : State) (vf tag : Nat) : Bool :=
  tag != 0 && s.rd F.XLT_TAG_state tag == 1 && s.rd F.XLT_TAG_vf tag == vf

/-- Why a range of addresses cannot be used now; `detached` and `lost` name the host link. -/
inductive Stop where
  | absent (va level : Nat)
  | viol (va reason level : Nat)
  | detached (link : Nat)
  | lost (link : Nat)
  deriving DecidableEq, Repr

/-- The host link of a place. -/
def Loc.link : Loc → Nat
  | .dev _ => 0
  | .host x _ => x

/-- The place that a walk gave, where it gave one: a link that is down, or an instance DETACHED, is no failure of the walk (R332). -/
def XRes.place? : XRes → Option Loc
  | .go l => some l
  | .detached l => some l
  | .lost l => some l
  | _ => none

/-- The stop that a lookup of an address which gave no usable place stands for. -/
def XRes.stop (va : Nat) : XRes → Stop
  | .absent lv => .absent va lv
  | .viol r lv => .viol va r lv
  | .detached l => .detached l.link
  | .lost l => .lost l.link
  | .go l => .lost l.link

/-- The places of a range's pages by a way of looking them up, whatever their links' state; none where a walk fails. -/
def pinPages (look : Nat → State → XRes × State) : List Nat → State → Option (List Loc) × State
  | [], s => (some [], s)
  | va :: t, s =>
    match look va s with
    | (r, s) => match r.place?, pinPages look t s with
      | some l, (some ls, s) => (some (l :: ls), s)
      | some _, (none, s) => (none, s)
      | none, _ => (none, s)

/-- Looks up a list of pages of a range, in order, up to the first that cannot be used. -/
def State.lookupPages (s : State) (part vf tag va : Nat) (acc : AccKind) : List (Nat × Nat) → Except Stop (List (Loc × Nat)) × State
  | [] => (.ok [], s)
  | (off, n) :: t =>
    match s.lookup part vf tag (va + off) acc with
    | (.go l, s) =>
      match s.lookupPages part vf tag va acc t with
      | (.ok ls, s) => (.ok ((l, n) :: ls), s)
      | (.error e, s) => (.error e, s)
    | (r, s) => (.error (r.stop (va + off)), s)

/-- Translates a range page by page (R336): every page's place and length, or the first stop. -/
def State.lookupRange (s : State) (part vf tag va n : Nat) (acc : AccKind) : Except Stop (List (Loc × Nat)) × State :=
  if s.ownsTag vf tag then s.lookupPages part vf tag va acc (blocksOf 4096 va n)
  else (.error (.viol va XReason.tagForeign 0), s)

/-- The generation a tag's accesses carry now (R345). -/
def State.gen (s : State) (tag : Nat) : Nat := s.rd F.XLT_TAG_generation tag

/-- The place at an offset of a page, and the page's place from one of its addresses. -/
def Loc.shift (l : Loc) (up down : Nat) : Loc :=
  match l with
  | .dev b => .dev (b + up - down)
  | .host x b => .host x (b + up - down)

/-- The pages of a list, each in place of those an operation has translated already (R336: each page is translated once, when it is first
touched). A page translated before the tag's generation advanced is looked up again (R345), unless the access under it is already under way
(`begun`). -/
def State.lookupUsed (s : State) (part vf tag va : Nat) (acc : AccKind) (op : Nat) (begun : Bool) : List (Nat × Nat) → Except Stop (List (Loc × Nat)) × State
  | [] => (.ok [], s)
  | (off, n) :: t =>
    let a := va + off
    let known := fun (u : PageUse) => u.acc == acc && u.page == a / 4096
    let used := ((Tbl.get? s.ops op).bind fun o => o.pages.find? fun u => known u && (begun || u.gen == s.gen tag)).map (·.loc)
    let rest := fun (l : Loc) (s : State) => match s.lookupUsed part vf tag va acc op begun t with
      | (.ok ls, s) => (.ok ((l.shift (a % 4096) 0, n) :: ls), s)
      | (.error e, s) => (.error e, s)
    match used with
    | some l => rest l s
    | none =>
      match s.lookup part vf tag a acc with
      | (.go l, s) =>
        let base := l.shift 0 (a % 4096)
        rest base { s with ops := Tbl.modify s.ops op fun o =>
          { o with pages := (o.pages.filter fun u => !known u) ++ [⟨acc, a / 4096, base, s.gen tag⟩] } }
      | (r, s) => (.error (r.stop a), s)

/-- A range of an operation, each page of which it translates once (R336). -/
def State.lookupFor (s : State) (op part vf tag va n : Nat) (acc : AccKind) (begun : Bool) : Except Stop (List (Loc × Nat)) × State :=
  if s.ownsTag vf tag then s.lookupUsed part vf tag va acc op begun (blocksOf 4096 va n)
  else (.error (.viol va XReason.tagForeign 0), s)

/-! ### Bytes at translated places -/

/-- The key of a host byte in the view of delivered bytes. -/
def hostKey (link addr : Nat) : Nat := link * 2 ^ 56 + addr

/-- A byte of host memory: what the last read completion delivered, else a free byte (log entry 7). -/
def State.hostByte (s : State) (link addr : Nat) : Byte :=
  match Tbl.get? s.hpt.view (hostKey link addr) with
  | some b => b
  | none => Config.hostByte (hostKey link addr) s.fresh

/-- The bytes at a list of places. -/
def State.readLocs (s : State) : List (Loc × Nat) → List Byte
  | [] => []
  | (.dev a, n) :: t => s.memRead a n ++ s.readLocs t
  | (.host x a, n) :: t => (List.range n).map (fun k => s.hostByte x (a + k)) ++ s.readLocs t

/-- Whether any device place of a list reads poisoned data (R359). -/
def State.locsBad (s : State) (l : List (Loc × Nat)) : Bool :=
  l.any fun p => match p.1 with
    | .dev a => s.devBad a p.2
    | .host _ _ => false

/-! ### Errors in stored data (R358, R366) -/

/-- The tier a device address lies in: 0 HBM4, 1 DDR5, 2 the larder (R352). -/
def tierOf (a : Nat) : Nat := if a < ddrBase then 0 else if a < larderBase then 1 else 2

/-- GiB in service of a tier. -/
def State.tierGib (s : State) (tier : Nat) : Nat := if tier = 0 then s.rd F.HBM_CAP_gib else s.rd F.DDR_CAP_gib

/-- A bank's state changes, with its record (R366). -/
def State.setBank (s : State) (b st : Nat) : State := (s.wr F.LRD_BANK_state st b).logEv .LRD .stateChange st b b

/-- The logical bank of a larder offset (R364). -/
def bankOf (off : Nat) : Nat :=
  if off < 0x0B400000 then 16 + off / 64 % 240
  else if off < 0x0B800000 then (off - 0x0B400000) / 64 % 16
  else (off - 0x0B800000) / 64 % 16

/-- The logical bank of a larder word the model keeps poisoned. -/
def bankOfAddr (a : Nat) : Nat := bankOf (a - larderBase)

/-- A corrected error in a larder bank (R366): more than `ce_limit` of them within a second degrade it. -/
def State.bankCe (s : State) (b : Nat) : State :=
  let recent := ((Tbl.getD s.tier.ceTimes b []).filter fun t => decide (s.now < t + sec)) ++ [s.now]
  let s := { s with tier := { s.tier with ceTimes := Tbl.set s.tier.ceTimes b recent } }
  let s := s.wr F.LRD_BANK_ce_1s (min 32767 recent.length) b
  if s.rd F.LRD_CFG_ce_limit < recent.length ∧ s.rd F.LRD_BANK_state b = 0 then
    (s.setBank b 1).logEv .LRD .threshold 2 b b
  else s

/-- The base of a tier's device addresses and its counters: corrected, uncorrectable, clean repeats (the larder counts none). -/
def tierBase (t : Nat) : Nat := if t = 0 then hbmBase else if t = 1 then ddrBase else larderBase
def tierBlk (t : Nat) : Blk := if t = 0 then .HBM else if t = 1 then .DDR else .LRD
def ceFld (t : Nat) : Fld := if t = 0 then F.HBM_CE else if t = 1 then F.DDR_CE else F.LRD_CE
def ueFld (t : Nat) : Fld := if t = 0 then F.HBM_UE else if t = 1 then F.DDR_UE else F.LRD_UE
def poisonFld (t : Nat) : Fld := if t = 0 then F.HBM_POISON_READ else if t = 1 then F.DDR_POISON_READ else F.LRD_POISON_READ

/-- A corrected error of a tier at an offset (R358). -/
def State.corrected (s : State) (t off : Nat) (inj : Bool := false) : State :=
  let s := ((s.bump (ceFld t)).evt (if t = 2 then 10 else 11 + t)).logEv (tierBlk t) .corrected t off 0 inj
  if t = 2 then s.bankCe (bankOf off) else s

/-- An uncorrectable error whose repeats fail poisons its word (R358). -/
def State.poisonAt (s : State) (t off : Nat) (inj : Bool := false) : State :=
  let w := tierBase t + off / 64 * 64
  let s := (s.bump (ueFld t)).logEv (tierBlk t) .uncorrectable t off 0 inj
  { s with tier := { s.tier with poison := if s.tier.poison.contains w then s.tier.poison else s.tier.poison ++ [w] } }

/-- An uncorrectable error that reads clean when it is repeated (R358). -/
def State.transientAt (s : State) (t : Nat) : State :=
  let s := s.bump (ueFld t)
  if t = 0 then s.bump F.HBM_REREAD_OK else if t = 1 then s.bump F.DDR_REREAD_OK else s

/-- A read meets a word whose stored data is in error (R358). Corrected data is written back in DDR5 and the larder, not in HBM4. -/
def State.eccWord (s : State) (q : Nat × Nat) : State :=
  let t := tierOf q.1
  let off := q.1 - tierBase t
  let read : State := { s with tier := { s.tier with flaws := Tbl.erase s.tier.flaws q.1 } }
  if q.2 = 0 then (if t = 0 then s else read).corrected t off
  else if q.2 = 1 then read.transientAt t
  else read.poisonAt t off

/-- A read of a device range meets the words of it that are in error. -/
def State.eccFind (s : State) (a n : Nat) : State :=
  (s.tier.flaws.filter fun q => decide (q.1 < a + n) && decide (a < q.1 + 64)).foldl State.eccWord s

/-- The 64-byte words of a tier. -/
def State.tierWords (s : State) (t : Nat) : Nat := if t = 2 then 0x0C000000 / 64 else s.tierGib t * 2 ^ 24

/-- The injection points of a tier's ECC (R484): a corrected error, and an uncorrectable one whose repeats fail, at an offset, or at a free word of the
tier. Whether the uncorrectable one entered, and the state after. -/
def State.eccPoint (s : State) (t part : Nat) (off : Option Nat) : Bool × State :=
  let at_ := fun (s : State) => match off with
    | some o => (o, s)
    | none => let (w, s) := s.drawBelow (s.tierWords t); (64 * w, s)
  let (c, s) := s.inject (if t = 0 then 0x1301 else if t = 1 then 0x1401 else 0x1201) 0 part Status.ok
  let s := if c then (let (o, s) := at_ s; s.corrected t o true) else s
  let (u, s) := s.inject (if t = 0 then 0x1302 else if t = 1 then 0x1402 else 0x1202) 0 part Status.checkFailed
  (u, if u then (let (o, s) := at_ s; s.poisonAt t o true) else s)

/-- A read of a device range goes through the tier's ECC (R358). Whether an injected failure entered, and the state after. -/
def State.eccRead (s : State) (part a n : Nat) : Bool × State := (s.eccFind a n).eccPoint (tierOf a) part (some (a - tierBase (tierOf a)))

/-- A tally unit reads the partial of a slot from the larder (R359): whether the word it reads is poisoned, or an injected failure made it so. The words
that the slots take in the pool are not laid out, and which one it reads is free (log entry 3). -/
def State.slotRead (s : State) (part : Nat) : Bool × Bool × State :=
  let (hit, s) := s.eccPoint 2 part none
  let pool := fun (w : Nat) => decide (larderBase ≤ w) && decide (w < larderBase + 0x08000000)
  if hit then (true, true, s.bump F.LRD_POISON_READ)
  else if !s.tier.poison.any pool && !s.tier.flaws.any (fun q => pool q.1) then (false, false, s)
  else
    let (w, s) := s.drawBelow (0x08000000 / 64)
    let s := s.eccFind (larderBase + 64 * w) 64
    if s.poisoned (larderBase + 64 * w) 64 then (true, false, s.bump F.LRD_POISON_READ) else (false, false, s)

/-- A block's three re-sends have failed (R362): counted, and logged with its source unit and the address it came from. -/
def State.blkExhausted (s : State) (src addr : Nat) (inj : Bool) : State :=
  (s.bump F.LRD_BLK_ESCALATE).logEv .LRD .resendExhausted src addr 0 inj

/-- The block check at a consumer (R362, R484): an injected CRC failure is answered by re-sends, of which three may fail; true where all have. -/
def State.blkCheck (s : State) (part src addr : Nat) : Nat → Bool × State
  | 0 => (true, s.blkExhausted src addr true)
  | n + 1 =>
    let (f, s) := s.inject 0x1101 0 part Status.checkFailed
    if !f then (false, s)
    else if n = 0 then (true, s.blkExhausted src addr true)
    else ((s.bump F.LRD_BLK_RESEND).evt 13).blkCheck part src addr n

/-- A read of translated places for a consumer (R358, R359, R362): whether it fails its checks, with its counts. `op` is the operation an
injected failure is marked on (R486). -/
def State.badFor (s : State) (part : Nat) (op : Option Nat) (l : List (Loc × Nat)) : Bool × State :=
  let devs := l.filterMap fun p => match p.1 with
    | .dev a => some (a, p.2)
    | .host _ _ => none
  let (hit, s) := devs.foldl (fun (q : Bool × State) (d : Nat × Nat) =>
    let (h, s) := q.2.eccRead part d.1 d.2
    (q.1 || h, s)) (false, s)
  let (crc, s) := match devs with
    | [] => (false, s)
    | d :: _ => s.blkCheck part (tierBlk (tierOf d.1)).num (d.1 - tierBase (tierOf d.1)) 4
  let s := devs.foldl (fun (s : State) (d : Nat × Nat) =>
    if s.devBad d.1 d.2 then s.bump (poisonFld (tierOf d.1))
    else s) s
  let s := match op with
    | some id => if hit || crc then { s with ops := Tbl.modify s.ops id fun o => { o with injected := true } } else s
    | none => s
  (crc || s.locsBad l, s)

/-- The host places of a list. -/
def hostLocs (l : List (Loc × Nat)) : List (Nat × Nat × Nat) :=
  l.filterMap fun p => match p.1 with
    | .host x a => some (x, a, p.2)
    | .dev _ => none

/-- Non-posted requests outstanding on a link (R312). -/
def State.nonPosted (s : State) (x : Nat) : Nat :=
  (s.hpt.reads.filter fun r => r.link == x && r.sent).length + (s.hpt.flushes.filter fun f => f.link == x && f.sent).length

/-- The non-posted requests that a link may have outstanding (R312). -/
abbrev maxNonPosted : Nat := 4096

/-- Issues the read requests that a list of host places needs, for a waiter; one that finds no room on its link waits (R312). -/
def State.issueReads (s : State) (who : Waiter) (vf tag : Nat) (l : List (Nat × Nat × Nat)) : State :=
  l.foldl (fun s p =>
    let go := decide (s.nonPosted p.1 < maxNonPosted)
    let r : HostRead := ⟨p.1, p.2.1, p.2.2, tag, s.gen tag, vf, who, go, false⟩
    let s := { s with hpt := { s.hpt with reads := s.hpt.reads ++ [r] } }
    if go then s.emit (.hostRead p.1 p.2.1 p.2.2) else s) s

/-- A request of a link has ended: the oldest flush or read that waits for room is sent (R312). -/
def State.issueWaiting (s : State) (x : Nat) : State :=
  if maxNonPosted ≤ s.nonPosted x then s
  else match s.hpt.flushes.findIdx? fun f => f.link == x && !f.sent with
  | some i => match s.hpt.flushes[i]? with
    | some f => State.emit { s with hpt := { s.hpt with flushes := s.hpt.flushes.set i { f with sent := true } } } (.hostFlush x f.addr)
    | none => s
  | none => match s.hpt.reads.findIdx? fun r => r.link == x && !r.sent with
    | some i => match s.hpt.reads[i]? with
      | some r => State.emit { s with hpt := { s.hpt with reads := s.hpt.reads.set i { r with sent := true } } } (.hostRead x r.addr r.len)
      | none => s
    | none => s

/-- Whether a waiter still has reads outstanding. -/
def State.readsOf (s : State) (w : Waiter) : Bool := s.hpt.reads.any fun r => r.who == w

/-- The steering tag of a vector: the ST table's, which the MSI-X table holds (R312). -/
def State.steering (s : State) (vf vector : Nat) : Nat := ((Tbl.get? (s.inst vf).msix vector).map (·.st)).getD 0

/-- The steering tag of an operation's data: that of its ring's vector. -/
def State.opSteering (s : State) (op : Option Nat) : Nat :=
  match (op.bind (Tbl.get? s.ops)).bind fun o => (Tbl.get? s.rings o.key).map fun r => (o.vf, r.vector) with
  | some (vf, v) => s.steering vf v
  | none => 0

/-- Marks a read whose bytes a write changes. -/
def HostRead.wrote (x a n : Nat) (r : HostRead) : HostRead :=
  { r with stale := r.stale || (r.link == x && decide (r.addr < a + n) && decide (a < r.addr + r.len)) }

/-- A posted write on a host link (R312), remembered until a later flush on the link has returned (R253, R336): data relaxed in order, all else
not. A link that is down takes none, and it is counted (R323). -/
def State.postWrite (s : State) (x a tag vf : Nat) (op : Option Nat) (st : Nat) (relaxed : Bool) (data : List Byte) : State :=
  if !s.linkUp x then s.bump F.HPT_WR_DROP 1 x
  else
    let w : Posted := ⟨x, a, tag, s.gen tag, vf, op, s.hpt.wseq⟩
    State.emit { s with hpt := { s.hpt with posted := s.hpt.posted ++ [w], wseq := s.hpt.wseq + 1,
                                            reads := s.hpt.reads.map (HostRead.wrote x a data.length) } } (.hostWrite x a st relaxed data)

/-- Writes bytes at a list of places: device memory, or posted writes on host links, remembered for the flush of R253 under an
operation's number. -/
def State.writeLocs (s : State) (vf tag : Nat) (op : Option Nat) : List (Loc × Nat) → List Byte → State
  | [], _ => s
  | (.dev a, n) :: t, d => (s.devWrite a (d.take n)).writeLocs vf tag op t (d.drop n)
  | (.host x a, n) :: t, d =>
    ((s.postWrite x a tag vf op (s.opSteering op) true (d.take n)).bump F.DMV_HOST_WR_BYTES n).writeLocs vf tag op t (d.drop n)

/-- The last address a list of places writes on each link, for each completer written (R253). -/
def lastWrites (l : List (Loc × Nat)) (w : Tbl (Tbl Nat)) : Tbl (Tbl Nat) :=
  (hostLocs l).foldl (fun w p => Tbl.set w p.1 (Tbl.set (Tbl.getD w p.1 []) (Config.completer p.1 p.2.1) p.2.1)) w

/-- Two records of last writes together, the second the later. -/
def joinWrites (a b : Tbl (Tbl Nat)) : Tbl (Tbl Nat) :=
  b.foldl (fun t q => Tbl.set t q.1 (q.2.foldl (fun u w => Tbl.set u w.1 w.2) (Tbl.getD t q.1 []))) a

/-- Issues a flush read on a link (R253). -/
def State.flushLink (s : State) (link addr : Nat) (who : FlushFor) : State :=
  let go := decide (s.nonPosted link < maxNonPosted)
  let f : Flush := ⟨link, addr, who, s.hpt.wseq, go⟩
  let s := { s with hpt := { s.hpt with flushes := s.hpt.flushes ++ [f], wseq := s.hpt.wseq + 1 } }
  (if go then s.emit (.hostFlush link addr) else s).bump F.WQE_FLUSH

/-- Issues the flush reads of every link written, one for each completer (R253). -/
def State.flushLinks (s : State) (links : Tbl (Tbl Nat)) (who : FlushFor) : State :=
  links.foldl (fun s p => p.2.foldl (fun s q => s.flushLink p.1 q.2 who) s) s

/-! ### Interrupts (R318) -/

/-- Sends the interrupt of a vector of an instance: its MSI-X message, or its pending bit where it is masked; consumed where MSI-X is
disabled. -/
def State.interrupt (s : State) (vf vector : Nat) : State :=
  let i := s.inst vf
  if !i.msixOn then s
  else match Tbl.get? i.msix vector with
  | some e =>
    if e.masked then s.setInst vf { i with pba := if i.pba.contains vector then i.pba else i.pba ++ [vector] }
    else s.emit (.msix (s.rd F.HPT_INST_STATE_link vf) e.addr e.data)
  | none => s.setInst vf { i with pba := if i.pba.contains vector then i.pba else i.pba ++ [vector] }

/-! ### Fault and error records (R341-R343) -/

/-- The 32 bytes of a record with its ownership bit (R341). -/
def XRec.bytes (r : XRec) (phase : Bool) : List Byte :=
  leBytes 8 r.va ++ leBytes 2 (r.tag % 4096 + 4096 * r.reason)
    ++ leBytes 1 ((match r.acc with | .read => 0 | .write => 1 | .atomic => 2) + 4 * b2n r.remote + 8 * b2n r.inbound)
    ++ leBytes 1 r.level ++ leBytes 2 r.vf ++ leBytes 3 r.conn ++ leBytes 1 0 ++ leBytes 4 r.msn ++ leBytes 4 r.psn ++ leBytes 4 r.rkey
    ++ leBytes 1 0 ++ leBytes 1 (128 * b2n phase)

/-- Loses a record whose queue is full or unbound (R343). -/
def State.loseRec (s : State) (r : XRec) : State :=
  (s.bump (if r.err then F.XLT_EQ_OVERFLOW else F.XLT_FQ_OVERFLOW)).bumpSat F.XLT_PTN_CFG_overflow r.part

/-- Writes one record into its queue (R341, R343). -/
def State.writeRec (s : State) (r : XRec) : State :=
  match Tbl.get? s.xlt.queues r.part with
  | none => s.loseRec r
  | some q =>
    let posted := if r.err then q.eqPosted else q.fqPosted
    let head := if r.err then q.eqHead else q.fqHead
    if 4096 ≤ posted - head then s.loseRec r
    else
      let off := posted % 4096 * 32
      let page := (if r.err then q.eqPages else q.fqPages)[off / 4096]?
      let data := r.bytes (phaseAt posted 12)
      let s := match page with
        | some (.dev a) => s.devWrite (a + off % 4096) data
        | some (.host x a) => s.postWrite x (a + off % 4096) q.tag q.vf none (s.steering q.vf q.vector) false data
        | none => s
      let q := if r.err then { q with eqPosted := posted + 1 } else { q with fqPosted := posted + 1 }
      { s with xlt := { s.xlt with queues := Tbl.set s.xlt.queues r.part q } }

/-- Writes every record gathered for a partition, then one interrupt on the queues' vector (R342). -/
def State.writeBatch (s : State) (part : Nat) : State :=
  let mine := s.xlt.batch.filter fun r => r.part == part
  if mine.isEmpty then s
  else
    let s := { s with xlt := { s.xlt with batch := s.xlt.batch.filter fun r => r.part != part } }
    let s := mine.foldl State.writeRec s
    match Tbl.get? s.xlt.queues part with
    | some q => s.interrupt q.vf q.vector
    | none => s

/-- Gathers a record; it is sent at once when 64 are gathered or `batch_us` is 0 (R342). -/
def State.gatherRec (s : State) (r : XRec) : State :=
  let s := { s with xlt := { s.xlt with batch := s.xlt.batch ++ [r] } }
  if s.rd F.XLT_CFG_batch_us = 0 ∨ 64 ≤ (s.xlt.batch.filter fun k => k.part == r.part).length then s.writeBatch r.part else s

/-- Raises a NOT_PRESENT fault: joins an outstanding record of the same key, one of whose transfers still waits, or writes its
own (R342). -/
def State.raiseFault (s : State) (r : XRec) : State :=
  let s := (s.bump F.XLT_FAULT).evt 7
  let k : OpenFault := ⟨r.tag, r.va / 4096, r.acc, r.remote⟩
  let same := fun (h : Hold) => (⟨h.tag, h.va / 4096, h.acc, h.remote⟩ : OpenFault) == k
  if s.xlt.faults.contains k && s.xlt.holds.any same then s
  else ({ s with xlt := { s.xlt with faults := s.xlt.faults.filter (· != k) ++ [k] } }).gatherRec r

/-- Raises a violation's error record (R339). -/
def State.raiseViolation (s : State) (r : XRec) : State := (s.bump F.XLT_VIOLATION).gatherRec { r with err := true }

/-- A record of a local access (R341). -/
def localRec (part vf tag va reason level : Nat) (acc : AccKind) : XRec :=
  { part := part, err := false, va := va, tag := tag, reason := reason, acc := acc, remote := false, inbound := false, level := level,
    vf := vf, conn := 0, msn := 0, psn := 0, rkey := 0 }

/-- Holds a transfer on NOT_PRESENT (R340, R220). -/
def State.hold (s : State) (tag va : Nat) (acc : AccKind) (remote : Bool) (who : Waiter) : State :=
  { s with xlt := { s.xlt with holds := s.xlt.holds ++ [⟨tag, va, acc, remote, who, s.now, none⟩] } }

end Sys2Proof.Machine
end

