-- ==== Sys2Proof/Machine/Complete.lean ====
section
/-!
DEFINITION. Completions: reserving, posting and holding them (R231, R235, R236, R249-R253, R324), and how an operation ends.
-/

namespace Sys2Proof.Machine

/-- The key of the manager's control ring, beside the instances' rings (R259). -/
abbrev ctlKey : Nat := 4194304

/-- The instance a ring belongs to. -/
def ringVf (key : Nat) : Nat := key / 4096

/-- The control ring pair (R259): 512 entries of 64 bytes in device memory, 512 completions; it always exists. -/
def ctlRing0 : Ring :=
  { kind := .control, state := .active, sqBase := ctlBase, cqBase := ctlCqBase, sqLog := 9, cqLog := 9, entry256 := false, tag := 0,
    vector := 0, fetched := 0, tail := 0, posted := 0, head := 0, armed := false, pushed := [],
    sqPages := (List.range 8).map fun k => .dev (ctlBase + 4096 * k), cqPages := (List.range 4).map fun k => .dev (ctlCqBase + 4096 * k),
    open_ := [], pinLost := false, recvs := [], nextSsn := 0, waiting := false, late := [], parked := false }

/-- A ring pair, where it exists. -/
def State.ring? (s : State) (key : Nat) : Option Ring :=
  if key = ctlKey then some ((Tbl.get? s.rings key).getD ctlRing0) else Tbl.get? s.rings key

/-- Sets a ring pair. -/
def State.setRing (s : State) (key : Nat) (r : Ring) : State := { s with rings := Tbl.set s.rings key r }

/-- Changes a ring pair where it exists. -/
def State.modRing (s : State) (key : Nat) (f : Ring → Ring) : State :=
  match s.ring? key with
  | some r => s.setRing key (f r)
  | none => s

/-- The difference of two 32-bit counts (R231). -/
def cdiff (a b : Nat) : Nat := (a + 2 ^ 32 - b % 2 ^ 32) % 2 ^ 32

/-- Completions of a ring that stand in its instance's held store (R324). -/
def State.heldOf (s : State) (key : Nat) : Nat := ((s.inst (ringVf key)).held.filter fun h => h.1 == key).length

/-- Completion slots free for reservation, counted from `cq_head` (R235). -/
def State.cqFree (s : State) (key : Nat) (r : Ring) : Nat :=
  2 ^ r.cqLog - (cdiff r.posted r.head + r.open_.length + s.heldOf key)

/-- Writes a completion's bytes at an offset of a ring's pinned pages (R348), in host memory with the steering tag of the ring's vector (R312). -/
def State.ringWrite (s : State) (key : Nat) (r : Ring) (off : Nat) (data : List Byte) : State :=
  match r.cqPages[off / 4096]? with
  | some (.dev a) => s.devWrite (a + off % 4096) data
  | some (.host x a) =>
    (s.postWrite x (a + off % 4096) r.tag (ringVf key) none (s.steering (ringVf key) r.vector) false data).bump F.DMV_HOST_WR_BYTES data.length
  | none => s

/-- Writes a completion into its ring and sends the interrupt that `arm` asked for (R231, R236, R253). -/
def State.postNow (s : State) (key : Nat) (c : Cqe) : State :=
  match s.ring? key with
  | none => s
  | some r =>
    let off := r.posted % 2 ^ r.cqLog * 32
    let s := s.ringWrite key r off (c.bytes (phaseAt r.posted r.cqLog))
    let r := { r with posted := (r.posted + 1) % 2 ^ 32 }
    if r.armed then
      ((s.setRing key { r with armed := false }).wr F.WQE_DB_arm 0 key).interrupt (ringVf key) r.vector
    else s.setRing key r

/-- Puts a completion into the instance's held store of 2,048 (R324). -/
def State.holdCqe (s : State) (key : Nat) (c : Cqe) : State :=
  let vf := ringVf key
  let i := s.inst vf
  if i.held.length < 2048 then
    (s.setInst vf { i with held := i.held ++ [(key, { c with held := true })] }).wr F.HPT_INST_STATE_held_count (i.held.length + 1) vf
  else s.wr F.HPT_INST_STATE_held_lost 1 vf

/-- Posts a completion: discarded where the ring lost a pin (R348), held while the instance is DETACHED or PAUSED (R324), else written. -/
def State.postCqe (s : State) (key : Nat) (c : Cqe) : State :=
  let s := if c.status = Status.halted then s.bump F.WQE_HALTED else s
  let s := if c.status = Status.keyExhausted then s.bump F.CPH_EXHAUSTED else s
  match s.ring? key with
  | none => s
  | some r =>
    if r.pinLost then s.bump F.WQE_EVENT_DROP
    else if key ≠ ctlKey ∧ 2 ≤ s.rd F.HPT_INST_STATE_state (ringVf key) then s.holdCqe key c
    else s.postNow key c

/-- The completion of an entry is posted: its reservation is used (R235). -/
def State.useSlot (s : State) (key count : Nat) (c : Cqe) : State :=
  (s.modRing key fun r => { r with open_ := r.open_.filter (· != count), late := Tbl.erase r.late count }).postCqe key c

/-- An operation's record. -/
def State.op? (s : State) (id : Nat) : Option Op := Tbl.get? s.ops id

/-- Sets an operation's record. -/
def State.setOp (s : State) (id : Nat) (o : Op) : State := { s with ops := Tbl.set s.ops id o }

/-- Changes an operation's record where it is in flight. -/
def State.modOp (s : State) (id : Nat) (f : Op → Op) : State := { s with ops := Tbl.modify s.ops id f }

/-- The status a completion shows: INJECTED where an injected fault made the operation fail (R486), STREAMING_FALLBACK in place of OK
where it streamed (R249). -/
def shownStatus (o : Op) : Nat :=
  if o.injected ∧ o.cqe.status ≠ Status.ok then Status.injected
  else if o.cqe.status = Status.ok ∧ o.cqe.stream then Status.streamingFallback else o.cqe.status

/-- The completion of an operation as it is posted: the bytes of a WRITE, READ or SEND, however it ended (R251), and the status it shows. -/
def Op.shown (o : Op) : Cqe :=
  { o.cqe with status := shownStatus o, result := if 2 ≤ o.opcode ∧ o.opcode ≤ 4 then leBytes 4 o.bytes else o.cqe.result }

/-- The operation leaves the device and its completion is posted (R252, R273, R380 counts). -/
def State.retireOp (s : State) (id : Nat) (o : Op) : State :=
  let s := { s with ops := Tbl.erase s.ops id, xlt := { s.xlt with holds := s.xlt.holds.filter fun h => h.who != Waiter.op id } }
  let s := if o.inFlight then s.lower F.ADM_INFLIGHT_ops else s
  let s := if o.cqe.status = Status.deadlineMissed then
      ((s.bump F.ADM_MISSED).bump F.ADM_MISS_CAUSE 1 o.cqe.sub).evt 9 else s
  let i := s.inst o.vf
  let s := if i.drains.isEmpty ∨ o.opcode = 6 then s
    else s.setInst o.vf { i with drains := i.drains.map fun (d : Drain) => { d with drained := d.drained + 1 } }
  s.useSlot o.key o.count o.shown

/-- On a stopping ring, posts what is finished while it belongs to the oldest outstanding entry (R255 step 6); at most `fuel` of them. -/
def State.postInOrder (s : State) (key : Nat) : Nat → State
  | 0 => s
  | fuel + 1 =>
    match s.ring? key with
    | some r =>
      match r.open_ with
      | c :: _ =>
        match Tbl.get? r.late c with
        | some e => (s.useSlot key c e).postInOrder key fuel
        | none =>
          match s.ops.find? fun p => p.2.key == key && p.2.count == c && p.2.phase == .done with
          | some (id, o) => (s.retireOp id o).postInOrder key fuel
          | none => s
      | [] => s
    | none => s

/-- A fetched entry completes without ever being admitted: its reservation is used by this completion, in slot order on a stopping
ring. -/
def State.completeEntry (s : State) (key count : Nat) (c : Cqe) : State :=
  match s.ring? key with
  | some r =>
    if r.state = .stopping then
      (s.setRing key { r with late := Tbl.set r.late count c }).postInOrder key (r.open_.length + 1)
    else s.useSlot key count c
  | none => s.useSlot key count c

/-- An operation is over and its flushes have returned: its completion is posted, in slot order on a stopping ring. -/
def State.postOp (s : State) (id : Nat) : State :=
  match s.op? id with
  | none => s
  | some o =>
    match s.ring? o.key with
    | some r =>
      if r.state = .stopping then (s.setOp id { o with phase := .done }).postInOrder o.key (r.open_.length + 1)
      else s.retireOp id o
    | none => s.retireOp id o

/-- Ends an operation with a status and `sub`: flushes what it wrote through host links first (R253), then posts. A status already set,
by the event that made it end earlier, stands. -/
def State.endOp (s : State) (id status sub : Nat) : State :=
  match s.op? id with
  | none => s
  | some o =>
    let o := if o.phase = .ending ∨ o.phase = .flushing ∨ o.phase = .done then o
      else { o with cqe := { o.cqe with status := status, sub := sub } }
    if o.phase = .flushing ∨ o.phase = .done then s
    else if o.wrote.isEmpty then (s.setOp id o).postOp id
    else (s.setOp id { o with phase := .flushing }).flushLinks o.wrote (.op id)

/-- Ends an operation at once, awaiting no flush (R323, R381, R213). -/
def State.killOp (s : State) (id status sub : Nat) : State :=
  match s.op? id with
  | none => s
  | some o => (s.setOp id { o with cqe := { o.cqe with status := status, sub := sub } }).postOp id

/-- The RESOLVE entries none of whose retries is left (R344): those that remained have walked again, or their transfers have gone. -/
def State.resolvesOver (s : State) : List Nat :=
  (s.ops.filter fun p => p.2.opcode == 0x53 && p.2.phase == .running && !s.xlt.holds.any fun h => h.retry == some p.1).map Prod.fst

/-- They complete. -/
def State.resolvesDone (s : State) : State := s.resolvesOver.foldl (fun s id => (s.bump F.XLT_RESOLVE).endOp id Status.ok 0) s

/-- Whether an operation has a status that stands: it is ending, or waits for its flushes. -/
def Op.isOver (o : Op) : Bool := o.phase == .ending || o.phase == .flushing || o.phase == .done

/-- Marks a failure as `remote` with a NAK code, to be ended by the caller (R219, R250); an operation whose status stands is left. -/
def State.markRemote (s : State) (id code : Nat) : State :=
  s.modOp id fun o => if o.isOver then o else { o with cqe := { o.cqe with remote := true, sub := code } }

/-- Records a cause of R273 on an operation; the last one stands. -/
def State.recordCause (s : State) (id cause : Nat) : State := s.modOp id fun o => { o with cause := cause }

/-- A local stop of an operation's translation (R339, R340, R324, R332): held, or ended. -/
def State.stopOp (s : State) (id : Nat) (o : Op) (acc : AccKind) : Stop → State
  | .absent va level =>
    ((s.raiseFault (localRec o.part o.vf o.tag va XReason.notPresent level acc)).hold o.tag va acc false (.op id)).recordCause id 5
  | .viol va reason level =>
    (s.raiseViolation (localRec o.part o.vf o.tag va reason level acc)).endOp id Status.accessLocal 0
  | .detached _ => s.endOp id Status.detached 0
  | .lost _ => s.killOp id Status.targetLost 0

end Sys2Proof.Machine
end

