-- ==== Sys2Proof/Machine/CkpBase.lean ====
section
/-!
DEFINITION. What ends a checkpoint stream (R428-R430): its completion with the result of R429, and its slot, which is kept for the commands
still outstanding.
-/

namespace Sys2Proof.Machine

/-- The result bytes of a checkpoint completion (R429). -/
def ckpResult (records reason sf : Nat) (bad : Option Nat) : List Byte :=
  leBytes 4 records ++ leBytes 1 reason ++ [0] ++ leBytes 2 sf ++ leBytes 4 (bad.getD 0xFFFFFFFF)

/-- A stream by its slot. -/
def State.stream? (s : State) (n : Nat) : Option CkpStream := Tbl.get? s.ckp.streams n

/-- Sets a stream. -/
def State.setStream (s : State) (n : Nat) (t : CkpStream) : State := { s with ckp := { s.ckp with streams := Tbl.set s.ckp.streams n t } }

/-- Changes a stream. -/
def State.modStream (s : State) (n : Nat) (f : CkpStream → CkpStream) : State :=
  { s with ckp := { s.ckp with streams := Tbl.modify s.ckp.streams n f } }

/-- A target's connection, before any CONNECT. -/
def ckpTgt0 : CkpTgt := ⟨0, 0, 0, 0, false, 0, [], 0, 0, []⟩

/-- A target's connection. -/
def State.tgt (s : State) (t : Nat) : CkpTgt := Tbl.getD s.ckp.tgts t ckpTgt0

/-- Sets a target's connection. -/
def State.setTgt (s : State) (t : Nat) (k : CkpTgt) : State := { s with ckp := { s.ckp with tgts := Tbl.set s.ckp.tgts t k } }

/-- Changes a target's connection. -/
def State.modTgt (s : State) (t : Nat) (f : CkpTgt → CkpTgt) : State := s.setTgt t (f (s.tgt t))

/-- Shows a stream in CKP_STREAM: `records` and the share of its records done. -/
def State.showStream (s : State) (n : Nat) : State :=
  match s.stream? n with
  | none => s
  | some t =>
    let total := max 1 (ceilDiv (256 + t.dataLen) (t.z - 64))
    (s.wr F.CKP_STREAM_records t.done n).wr F.CKP_STREAM_permille (min 1000 (1000 * t.done / total)) n

/-- Frees the slot and the staging of a stream whose entry has completed, once none of its commands is out (R430). -/
def State.releaseStream (s : State) (n : Nat) : State :=
  match s.stream? n with
  | none => s
  | some t =>
    if !t.isOver ∨ (s.tgt t.target).cmds.any (fun c => c.stream == n) then s
    else
      let s := { s with ckp := { s.ckp with streams := Tbl.erase s.ckp.streams n } }
      ((s.setReg .CKP_STREAM_w0 n 0).setReg .CKP_STREAM_w8 n 0).lower F.CKP_TGT_STATUS_streams 1 t.target

/-- A stream's entry completes: nothing new is issued or read; Writes in flight complete from staging, Reads are discarded on arrival (R430).
`kill` posts it at once, without the flushes of R253 (R381). -/
def State.endStream (s : State) (n status reason sf : Nat) (bad : Option Nat) (kill : Bool := false) : State :=
  match s.stream? n with
  | none => s
  | some t =>
    if t.isOver then s
    else
      let s := s.setStream n { t with isOver := true, jobs := [] }
      let s := { s with
        xlt := { s.xlt with holds := s.xlt.holds.filter fun h => h.who != Waiter.op t.op }
        hpt := { s.hpt with reads := s.hpt.reads.map fun (r : HostRead) => if r.who == Waiter.op t.op then { r with who := .inbound } else r } }
      let s := s.modOp t.op fun o => { o with cqe := { o.cqe with result := ckpResult t.done reason sf bad } }
      (if kill then s.killOp t.op status 0 else s.endOp t.op status 0).releaseStream n

/-- The stream slot of an operation. -/
def State.streamOf (s : State) (op : Nat) : Option Nat := (s.ckp.streams.find? fun q => q.2.op == op && !q.2.isOver).map Prod.fst

end Sys2Proof.Machine
end

