-- ==== Sys2Proof/Machine/Units.lean ====
section
/-!
DEFINITION. Units and their spares (R31-R33, R480): which spare serves for which unit, retiring a unit, the counts of TEL_SPARE, host lanes, ways of
the context cache, the direction of cipher cores (R401).
-/

namespace Sys2Proof.Machine

/-- Resources of R31 that have a unit state and a mapping register: codes 5 tally units, 6 mill engines, 7 cipher cores. -/
def unitField : Nat → Option Fld
  | 5 => some F.TAL_UNIT_STATE_state
  | 6 => some F.MIL_ENG_STATE_state
  | 7 => some F.CPH_CORE_STATE_state
  | _ => none

/-- Units built of a resource with unit states (R31). -/
def unitsBuilt (res : Nat) : Nat := if res = 5 then 34 else 18

/-- The fields of a resource's mapping register: retired unit, spare, `go`. -/
def spareMapFields (res : Nat) : Fld × Fld × Fld :=
  if res = 5 then (F.TAL_SPARE_MAP_retired_unit, F.TAL_SPARE_MAP_spare_unit, F.TAL_SPARE_MAP_go)
  else if res = 6 then (F.MIL_SPARE_MAP_retired_unit, F.MIL_SPARE_MAP_spare_unit, F.MIL_SPARE_MAP_go)
  else (F.CPH_SPARE_MAP_retired_unit, F.CPH_SPARE_MAP_spare_unit, F.CPH_SPARE_MAP_go)

/-- The block of a resource of R31. -/
def resBlock : Nat → Blk
  | 0 => .PRT | 1 => .HPT | 2 => .KLN | 3 => .HBM | 4 => .LRD | 5 => .TAL | 6 => .MIL | 7 => .CPH | 8 => .MGT | 9 => .CTX | _ => .MGT

/-- The counts of a resource in TEL_SPARE change; every change is logged (R480). -/
def State.spareCounts (s : State) (res active spare retired : Nat) : State :=
  let s := ((s.wr F.TEL_SPARE_active active res).wr F.TEL_SPARE_spare spare res).wr F.TEL_SPARE_retired retired res
  s.logEv .TEL .stateChange 0 res

/-- A unit leaves service for good, with its counts and its record (R31, R33): `wasSpare` where it was a spare. DESIGN CHOICE (log entry 10): the
rows of lanes, whose counts R490 gives once and R31 per port, per module or per channel, count the lanes of every port, module or channel
together, from the figures of one. -/
def State.countRetired (s : State) (res unit : Nat) (wasSpare : Bool) : State :=
  let a := s.rd F.TEL_SPARE_active res
  let p := s.rd F.TEL_SPARE_spare res
  let s := s.spareCounts res (if wasSpare then a else a - 1) (if wasSpare then p - 1 else p) (min 255 (s.rd F.TEL_SPARE_retired res + 1))
  s.logEv (resBlock res) .retired res unit unit

/-- Assigns the active cipher cores to their directions: the first `egress_cores` of them, in ascending order, to egress (R401; log entry 25). -/
def State.assignEgress (s : State) : State :=
  let act := (List.range 18).filter fun c => s.rd F.CPH_CORE_STATE_state c == 0
  let out := act.take (s.rd F.CPH_CFG_egress_cores)
  (List.range 18).foldl (fun s c => s.wr F.CPH_CORE_STATE_egress (b2n (out.contains c)) c) s

/-- A spare enters service in place of a unit, with its counts and its record (R33). -/
def State.countMapped (s : State) (res unit spare : Nat) : State :=
  let s := s.spareCounts res (min 255 (s.rd F.TEL_SPARE_active res + 1)) (s.rd F.TEL_SPARE_spare res - 1) (s.rd F.TEL_SPARE_retired res)
  s.logEv (resBlock res) .spareMapped res (spare % 256 * 256 + unit % 256) unit

/-- The active count of R2 of a resource with unit states. -/
def activeFigure : Nat → Nat
  | 5 => 32 | 6 => 16 | 7 => 16 | _ => 0

/-! ### Which spare serves for which unit (R31-R33) -/

/-- The spare that serves in a unit's place. -/
def State.servedBy (s : State) (res unit : Nat) : Option Nat := (s.built.mapped.find? fun q => q.1 == res && q.2.1 == unit).map fun q => q.2.2

/-- A spare serves in a unit's place from now on, and no other does. -/
def State.noteMapped (s : State) (res unit spare : Nat) : State :=
  { s with built := { s.built with mapped := (s.built.mapped.filter fun q => !(q.1 == res && q.2.1 == unit)) ++ [(res, unit, spare)] } }

/-- A unit that leaves service serves no longer in another's place. -/
def State.unmap (s : State) (res unit : Nat) : State :=
  { s with built := { s.built with mapped := s.built.mapped.filter fun q => !(q.1 == res && q.2.2 == unit) } }

/-- Units of a resource with unit states that serve now, or will once they have been reset. -/
def State.unitsActive (s : State) (res : Nat) (f : Fld) : Nat :=
  ((List.range (unitsBuilt res)).filter fun u => s.rd f u == 0 || s.rd f u == 3).length

/-- A spare of a resource with unit states enters service in a unit's place (R31, R33). -/
def State.enterSpare (s : State) (res : Nat) (f : Fld) (unit spare : Nat) : State :=
  let s := ((s.wr f 0 spare).noteMapped res unit spare).countMapped res unit spare
  if res = 7 then s.assignEgress else s

/-- At a start the lowest-numbered healthy spares of a resource with unit states serve in place of its lowest-numbered retired units, until the
active count is the figure of R2 (R31; log entry 10). -/
def State.mapUnits (s : State) (res : Nat) (f : Fld) : State :=
  let n := unitsBuilt res
  let spares := (List.range n).filter fun u => s.rd f u == 1 && !s.built.defects.contains (res, u)
  let short := activeFigure res - s.unitsActive res f
  let gone := (List.range n).filter fun u => s.rd f u == 2 && (s.servedBy res u).isNone
  ((spares.take short).zip gone).foldl (fun (s : State) q => s.enterSpare res f q.2 q.1) s

/-- Whether a unit of a resource that has no unit states is built as a spare: the last of its port, set or kind (log entry 5). -/
def builtSpare (res unit : Nat) : Bool :=
  match res with
  | 1 => unit % 17 == 16
  | 8 => decide (32 ≤ unit)
  | 9 => decide (16 ≤ unit % 18)
  | _ => false

/-- The spares that may serve in a unit's place: a host lane's is of its own port, a way's of its own set (R31). -/
def sparesOf (res unit : Nat) : List Nat :=
  match res with
  | 1 => [unit / 17 * 17 + 16]
  | 8 => [32, 33, 34, 35]
  | 9 => [unit / 18 * 18 + 16, unit / 18 * 18 + 17]
  | _ => []

/-- Whether a unit of a resource without unit states is neither retired nor marked defective by the fuses (R31). -/
def State.unitSound (s : State) (res unit : Nat) : Bool := !s.built.retired.contains (res, unit) && !s.built.defects.contains (res, unit)

/-- Whether a unit of such a resource serves: one of the active ones, or a spare that has been mapped in, and sound. -/
def State.unitServes (s : State) (res unit : Nat) : Bool :=
  s.unitSound res unit && (!builtSpare res unit || s.built.mapped.any fun q => q.1 == res && q.2.2 == unit)

/-- Whether a unit of such a resource is out of service with nothing in its place. -/
def State.unitMissing (s : State) (res unit : Nat) : Bool :=
  !builtSpare res unit && !s.unitSound res unit && (s.servedBy res unit).isNone

/-- The first free and sound spare for a unit of such a resource. -/
def State.freeSpare (s : State) (res unit : Nat) : Option Nat := (sparesOf res unit).find? fun k => s.unitSound res k && !s.unitServes res k

/-- A spare of such a resource enters service. -/
def State.mapOne (s : State) (res unit spare : Nat) : State := (s.noteMapped res unit spare).countMapped res unit spare

/-- At a start a free spare serves in place of each retired unit of a resource without unit states, with a record for each (R31, R33). -/
def State.mapCounted (s : State) (res : Nat) : State :=
  let gone := ((s.built.retired.filter fun q => q.1 == res).map Prod.snd).eraseDups
  gone.foldl (fun (s : State) u => match s.freeSpare res u with
    | some k => if s.unitMissing res u then s.mapOne res u k else s
    | none => s) s

/-- Retires a unit of a resource that has no unit states (R31), once. -/
def State.retireCounted (s : State) (res unit : Nat) (wasSpare : Bool) : State :=
  if s.built.retired.contains (res, unit) then s
  else State.countRetired { s with built := { s.built with retired := s.built.retired ++ [(res, unit)] } } res unit wasSpare

/-- The same with its part as active or spare read from the state; one that served in another's place does so no longer. -/
def State.retireSound (s : State) (res unit : Nat) : State := (s.unmap res unit).retireCounted res unit (!s.unitServes res unit)

/-- Retires a unit that has a unit state. -/
def State.retireUnit (s : State) (res unit : Nat) : State :=
  match unitField res with
  | none => s
  | some f =>
    if s.rd f unit = 2 then s
    else
      let s1 := (((s.wr f 2 unit).unmap res unit).logEv (resBlock res) .stateChange 2 unit unit).countRetired res unit (s.rd f unit == 1)
      if res = 7 then s1.assignEgress else s1

/-! ### Host lanes (R31, R310, R311) -/

/-- Whether a lane of a host port serves, itself or through the port's spare lane. -/
def State.hostLaneServes (s : State) (n k : Nat) : Bool :=
  s.unitServes 1 (17 * n + k) || (s.servedBy 1 (17 * n + k)).any fun x => s.unitServes 1 x

/-- A lane of a host port fails: it is retired, and the port's spare lane serves in its place where it is free and sound. -/
def State.hostLaneFails (s : State) (n k : Nat) : State :=
  let u := 17 * n + k
  if s.built.retired.contains (1, u) then s
  else
    let old := (s.built.mapped.find? fun q => q.1 == 1 && q.2.2 == u).map fun q => q.2.1
    let s := s.retireSound 1 u
    let want := if builtSpare 1 u then old.getD u else u
    match s.freeSpare 1 want with
    | some x => if s.unitMissing 1 want then s.mapOne 1 want x else s
    | none => s

/-! ### Context-cache ways and firmware images (R31) -/

/-- Ways of a set of the context cache that serve. -/
def State.ctxWays (s : State) (set : Nat) : Nat := ((List.range 18).filter fun w => s.unitServes 9 (set * 18 + w)).length

end Sys2Proof.Machine
end

