-- ==== Sys2Proof/Machine/Egress.lean ====
section
/-!
DEFINITION. Sending on the fabric: port choice (R215, R296, R301), encryption and trailers (R202, R212, R397), the window of R216 and the
PSN limit of R207, the queues of the logical ports (R265).
-/

namespace Sys2Proof

open Machine

/-- The type code of R204. -/
def Ext.typ : Ext → Nat
  | .write .. => 0 | .send .. => 1 | .readReq .. => 2 | .readResp .. => 3 | .atomic .. => 4 | .atomicResp .. => 5 | .ack .. => 6
  | .nak .. => 7 | .grant .. => 8 | .ctrl .. => 9 | .chunk .. => 10 | .coord .. => 11 | .reserved t => t

/-- The extension's bytes (R205). -/
def Ext.bytes : Ext → List Byte
  | .write ra rk => leBytes 8 ra ++ leBytes 4 rk
  | .send ssn imm => leBytes 4 ssn ++ leBytes 4 imm
  | .readReq ra rk n => leBytes 8 ra ++ leBytes 4 rk ++ leBytes 4 n
  | .readResp p => leBytes 4 p
  | .atomic ra rk op a b => leBytes 8 ra ++ leBytes 4 rk ++ leBytes 1 op ++ leBytes 3 0 ++ leBytes 8 a ++ leBytes 8 b
  | .atomicResp r => leBytes 8 r
  | .ack cum sp sm ce ts => leBytes 4 cum ++ leBytes 4 sp ++ leBytes 8 sm ++ leBytes 2 ce ++ leBytes 2 0 ++ leBytes 4 ts
  | .nak code nr us psn ep unk =>
    if code = 7 then leBytes 1 7 ++ leBytes 3 unk ++ leBytes 4 psn ++ leBytes 4 0
    else leBytes 1 code ++ leBytes 1 nr ++ leBytes 2 us ++ leBytes 4 psn ++ leBytes 2 ep ++ leBytes 1 (us / 65536) ++ leBytes 1 0
  | .grant m v b => leBytes 1 m ++ leBytes 1 0 ++ leBytes 2 v ++ (b.map fun x => leBytes 4 x).flatten ++ leBytes 4 0
  | .ctrl c sc svc g rm => leBytes 1 c ++ leBytes 3 sc ++ leBytes 1 svc ++ leBytes 1 0 ++ leBytes 2 g ++ leBytes 4 rm
  | .chunk h => h
  | .coord k gen n g r o => leBytes 1 k ++ leBytes 1 0 ++ leBytes 2 gen ++ leBytes 4 n ++ leBytes 2 g ++ leBytes 2 r ++ leBytes 4 o
  | .reserved _ => []

/-- The base header's 40 bytes with `hops` taken as 0 (R203, R212, R298). -/
def Packet.hdrBytes (p : Packet) : List Byte :=
  leBytes 1 (p.ver * 16 + p.ext.typ) ++ leBytes 1 (b2n p.ackReq + 2 * b2n p.enc + 4 * b2n p.retx + 8 * b2n p.solicit + 16 * p.flagsResv)
    ++ leBytes 2 p.epoch ++ leBytes 3 p.dstConn ++ leBytes 1 p.cls ++ leBytes 4 p.psn ++ leBytes 4 p.msn ++ leBytes 4 p.msgLen
    ++ leBytes 4 p.msgOff ++ leBytes 4 (p.dstDev + 2 ^ 20 * (p.devResv % 4096)) ++ leBytes 4 (p.srcDev + 2 ^ 20 * (p.devResv / 4096))
    ++ leBytes 4 p.ts ++ leBytes 2 p.pathId ++ leBytes 2 p.hdrResv

/-- The trailer of a clear packet (R202). -/
def Packet.crcTrailer (p : Packet) : List Byte := leBytes 4 (crc32c (p.hdrBytes ++ p.ext.bytes ++ p.payload)) ++ List.replicate 12 0

/-- The additional authenticated data of R212. -/
def Packet.aad (p : Packet) : List Byte := p.hdrBytes ++ p.ext.bytes ++ beBytes 8 p.iv

/-- Whether a packet's type takes a PSN (R207). -/
def Ext.takesPsn : Ext → Bool
  | .write .. => true | .send .. => true | .readReq .. => true | .atomic .. => true | .chunk .. => true | .coord .. => true
  | .ctrl c .. => c == 3 || c == 4 || c == 6
  | _ => false

/-- Step 2: the rules of R203 that end "Discarded, no reply". -/
def Packet.wellFormed (p : Packet) : Bool := p.ver == 1 && decide (p.ext.typ < 12) && p.flagsResv == 0 && p.devResv == 0 && p.hdrResv == 0

/-- Whether a packet belongs to a message: every type that takes a PSN but CTRL (R207). -/
def Ext.inMessage : Ext → Bool
  | .write .. => true | .send .. => true | .readReq .. => true | .atomic .. => true | .chunk .. => true | .coord .. => true
  | _ => false

/-- A NAK STALE_EPOCH: it comes from an end whose epoch is newer, and is judged by its `resp_epoch` in place of its epoch (R210; DEDUCED, log
entry 46). -/
def Ext.isStaleNak : Ext → Bool
  | .nak 4 _ _ _ _ _ => true
  | _ => false

/-- Whether an extension is that of a READ_REQ. -/
def Ext.isRead : Ext → Bool
  | .readReq .. => true
  | _ => false

end Sys2Proof

namespace Sys2Proof.Machine

/-! ### Operations of the commons by their number -/

/-- The key of a step of a number: plain operations have their sequence number for theirs, so that the two never meet (R125). -/
abbrev stepKey (n : Nat) : Nat := 2 ^ 32 + n

/-- The number that messages and records give an operation: a step's own, or the sequence number of a plain operation (R96, R205). -/
def Coll.num (c : Coll) : Nat := c.key % 2 ^ 32

/-- The operation of a group by its key, or by its sequence number, which START and GO name it by (R125, R128). -/
def State.collFor (s : State) (slot key : Nat) : Option Coll :=
  s.cmn.colls.find? fun c => c.slot == slot && (c.key == key || c.seq == key)

/-- The operation of a group that a chunk, FOLDED or an expiry names by its number (R96): neither says whether it is a step's, and the step is taken
where one of each has the number (DESIGN CHOICE, log entry 20). -/
def State.opKey (s : State) (slot n : Nat) : Nat :=
  if s.cmn.colls.any fun c => c.slot == slot && c.key == stepKey n then stepKey n else n

/-! ### Ports -/

/-- PRT_LP `state` of R290. -/
abbrev lpDisabled : Nat := 0
abbrev lpTraining : Nat := 1
abbrev lpUp : Nat := 2
abbrev lpDown : Nat := 3

/-- Whether a logical port is UP. -/
def State.portUp (s : State) (p : Nat) : Bool := s.lportExists p && s.rd F.PRT_LP_state p == lpUp

/-- A logical port's rate in bytes per nanosecond (R282). -/
def State.portRate (s : State) (p : Nat) : Nat :=
  match s.lay.running.bind fun l => l.ports[p / 8]? with
  | some r => 200 / 2 ^ r.split
  | none => 200

/-- The port set of a destination: its relay entry, or HOP_DEFAULT (R215, R296). -/
def State.routeMask (s : State) (dst : Nat) : Nat := (Tbl.get? s.routes dst).getD (s.rd F.HOP_DEFAULT_mask)

/-- The logical ports of a mask, in index order. -/
def maskPorts (m : Nat) : List Nat := (List.range 64).filter fun j => m.testBit j

/-- The Ethernet traffic class of a curfew class (R292). -/
def State.trafficClass (s : State) (cls : Nat) : Nat :=
  ((s.lay.running.bind fun l => l.curfew[cls]?).map (·.tc)).getD 0

/-- The bytes of a packet on the wire from the MAC header to the FCS, untagged over IPv6 (R202). -/
def pktBytes (p : Packet) : Nat :=
  18 + (if p.dstIp / 2 ^ 32 = 0xFFFF then 20 else 40) + 8 + 40 + p.payload.length + 16 + (if p.enc then 8 else 0) +
  (match p.ext with
    | .write .. => 12 | .send .. => 8 | .readReq .. => 16 | .readResp .. => 4 | .atomic .. => 32 | .atomicResp .. => 8 | .ack .. => 24
    | .nak .. => 12 | .grant .. => 32 | .ctrl .. => 12 | .chunk .. => 32 | .coord .. => 16 | .reserved .. => 0)

/-- Bytes queued on a port in a traffic class and in class 7 (R301). -/
def State.queuedBytes (s : State) (port tc : Nat) : Nat :=
  sumNat ((s.egress.filter fun q => q.port == port && (q.tc == tc || q.cls == 7)).map (·.len))

/-- The weather level of a port towards a destination's entry; the default route's entry is 0xF_FFFF (R306). -/
def State.wxLevel (s : State) (dst port : Nat) : Nat :=
  let e := if (Tbl.get? s.routes dst).isSome then dst else 0xFFFFF
  bitsOf (Tbl.getD s.wx e (0, 0)).1 (4 * port) 4

/-- A port's cost in 1/200 ns (R301). -/
def State.portCost (s : State) (dst tc port : Nat) : Nat :=
  s.queuedBytes port tc * (200 / max 1 (s.portRate port)) + s.wxLevel dst port * s.rd F.HOP_CFG_level_ns * 200

/-- The least-cost port of a list, on a tie the first at or after a pointer in index order (R301). -/
def State.cheapest (s : State) (dst tc ptr : Nat) (ports : List Nat) : Option Nat :=
  let rot := (ports.filter fun j => decide (ptr % 64 ≤ j)) ++ (ports.filter fun j => decide (j < ptr % 64))
  rot.foldl (fun best j => match best with
    | none => some j
    | some b => if s.portCost dst tc j < s.portCost dst tc b then some j else some b) none

/-- Chooses a port among the usable ones of a set (R301): those at level 15 only when every one is. -/
def State.choosePort (s : State) (dst tc ptr : Nat) (ports : List Nat) : Option Nat :=
  let ok := ports.filter fun j => s.wxLevel dst j != 15
  s.cheapest dst tc ptr (if ok.isEmpty then ports else ok)

/-- The UP ports of a destination's set. -/
def State.upPorts (s : State) (dst : Nat) : List Nat := (maskPorts (s.routeMask dst)).filter fun j => s.portUp j

/-! ### Headers, trailers, keys -/

/-- The largest counter a slot issues (R397). -/
def KeySlot.last (k : KeySlot) : Nat := 2 ^ k.ctrLog2 - 1

/-- Draws a counter from an ENCRYPT slot of a store: the counter and the slot after (R397); none where it is not LOADED. -/
def drawCtr (k : KeySlot) : Option (Nat × KeySlot) :=
  if k.state = .loaded ∧ !k.decrypt then
    let c := k.next
    let k := { k with next := k.next + 1, low := k.low || decide (7 * 2 ^ k.ctrLog2 / 8 ≤ k.next + 1) }
    some (c, if c = k.last then { k with state := .retired } else k)
  else none

/-- A key slot named by a connection: management connections (svc 1) use the management slots. -/
def State.slotOf (s : State) (svc n : Nat) : Option KeySlot := if svc = 1 then Tbl.get? s.mslots n else Tbl.get? s.slots n

/-- Sets a key slot. -/
def State.setSlot (s : State) (svc n : Nat) (k : KeySlot) : State :=
  if svc = 1 then { s with mslots := Tbl.set s.mslots n k } else { s with slots := Tbl.set s.slots n k }

/-- A core's check fails (R403): counted; the third mismatch of one core within a second retires it. Which core served the packet is free. -/
def State.coreMismatch (s : State) : State :=
  let s := s.bump F.CPH_CORE_ERR
  let act := (List.range 18).filter fun c => s.rd F.CPH_CORE_STATE_state c == 0
  let (i, s) := s.drawBelow (max 1 act.length)
  match act[i]? with
  | none => s
  | some c =>
    let times := ((Tbl.getD s.cph.coreErrs c []).filter fun t => decide (s.now < t + sec)) ++ [s.now]
    let s := { s with cph := { s.cph with coreErrs := Tbl.set s.cph.coreErrs c times } }
    if 3 ≤ times.length then (s.bump F.RST_RETIRED_UNITS).retireUnit 7 c else s

/-- A core's self-check examines a packet (R403, R484): how often it is processed again, at most 54 times (three mismatches of each core). -/
def State.coreChecks (s : State) (part : Nat) : Nat → Nat × State
  | 0 => (0, s)
  | n + 1 =>
    let (f, s) := s.inject 0x1801 0 part Status.ok
    if !f then (0, s)
    else
      let (m, s) := s.coreMismatch.coreChecks part n
      (m + 1, s)

/-- Draws counters, passing over `m` of them (R397, R403). -/
def drawCtrs (k : KeySlot) : Nat → Option (Nat × KeySlot)
  | 0 => drawCtr k
  | m + 1 => (drawCtr k).bind fun q => drawCtrs q.2 m

/-- Draws the counter of a packet that is to be encrypted (R202, R212), with what seals it when it leaves. None where the slot cannot give
a counter (KEY_EXHAUSTED). -/
def State.seal (s : State) (svc slot : Nat) (p : Packet) : Option (Packet × Option Seal × State) :=
  if !p.enc then some (p, none, s)
  else match s.slotOf svc slot with
  | none => none
  | some k =>
    let (m, s) := s.coreChecks (if svc = 1 then 64 else s.rd F.PTN_INST_partition k.vf) 54
    match drawCtrs k m with
    | none => none
    | some (c, k') =>
      let s := (s.setSlot svc slot k').bump F.CPH_ENC_PKTS
      let s := if k'.low ∧ !k.low then s.logEv .CPH .threshold 0 slot else s
      let s := if k'.state = .retired then s.logEv .CPH .stateChange 2 slot else s
      some ({ p with iv := c }, some ⟨k.key, beBytes 4 k.salt ++ beBytes 8 c, p.payload⟩, s)

/-- A queued packet of the device's own as it leaves the MAC: its transmit time in `ts` (R203), then the CRC-32C trailer, or encryption and
tag (R202, R212). -/
def Queued.depart (q : Queued) (now : Nat) : Queued :=
  if q.transit || q.roce.isSome then q
  else
    let p := { q.pkt with ts := now % 2 ^ 32 }
    match q.sealing with
    | none => { q with pkt := { p with trailer := p.crcTrailer } }
    | some x => match Config.gcmSeal x.key x.nonce p.aad x.plain with
      | (ct, tag) => { q with pkt := { p with payload := ct, trailer := tag } }

/-! ### Connections -/

/-- A connection end, where it exists. -/
def State.conn? (s : State) (c : Nat) : Option Conn := Tbl.get? s.bxt.conns c

/-- Sets a connection end. -/
def State.setConn (s : State) (c : Nat) (k : Conn) : State := { s with bxt := { s.bxt with conns := Tbl.set s.bxt.conns c k } }

/-- Changes a connection end where it exists. -/
def State.modConn (s : State) (c : Nat) (f : Conn → Conn) : State :=
  match s.conn? c with
  | some k => s.setConn c (f k)
  | none => s

/-- The device's own fabric address. -/
def State.devAddr (s : State) : Nat := s.rd F.HOP_DEV_dev_addr

/-- The device's own address of the family of a peer's (R202, R309): an IPv4-mapped peer takes HOP_IP4. -/
def State.ownIp (s : State) (peer : Nat) : Nat :=
  if peer / 2 ^ 32 = 0xFFFF then 0xFFFF * 2 ^ 32 + s.rd F.HOP_IP4_ip4 else s.rd F.HOP_IP6_hi_ip6 * 2 ^ 64 + s.rd F.HOP_IP6_lo_ip6

/-- The DSCP of a curfew class (R44, R202). -/
def State.dscp (s : State) (cls : Nat) : Nat := ((s.lay.running.bind fun l => l.curfew[cls]?).map (·.dscp)).getD 0

/-- A packet of a connection with its base header filled in (R203). -/
def State.mkPkt (s : State) (k : Conn) (ext : Ext) (cls psn msn msgLen msgOff : Nat) (payload : List Byte) : Packet :=
  { ver := 1, epoch := k.epoch, dstConn := k.peerConn, cls := cls, hops := 16, psn := psn, msn := msn, msgLen := msgLen, msgOff := msgOff,
    srcIp := s.ownIp k.peerIp, dstIp := k.peerIp, dscp := s.dscp cls, dstDev := k.peerDev, srcDev := s.devAddr, ts := s.now % 2 ^ 32, pathId := k.pathId, ext := ext, enc := k.enc, payload := payload }

/-- Chooses the port of a packet of a connection and advances its pointer (R301). With `spray` 0 the choice stands while the port is in the set; what an
end sends before it is OPEN settles none. -/
def State.connPort (s : State) (c : Nat) (k : Conn) (cls : Nat) : Option Nat × State :=
  let up := s.upPorts k.peerDev
  let fixed := match k.port with
    | some p => if up.contains p ∧ k.spray = 0 then some p else none
    | none => none
  match fixed with
  | some p => (some p, s)
  | none =>
    match s.choosePort k.peerDev (s.trafficClass cls) k.rot up with
    | some p => (some p, s.modConn c fun k => { k with rot := (p + 1) % 64, port := if k.state = .armed then k.port else some p })
    | none => (none, s)

/-- A connection with `spray` 0 enters OPEN: its port is chosen (R301), in the traffic class of class 0 (DESIGN CHOICE, log entry 73: the rule weighs a
packet's class, and no packet is at hand). -/
def State.settlePort (s : State) (c : Nat) : State :=
  match s.conn? c with
  | some k => if k.spray = 0 then (s.connPort c { k with port := none } 0).2 else s
  | none => s

/-- A logical port of which nothing is held yet. -/
def lport0 : LPort :=
  { fails := 0, waiting := false, testing := none, paused := [], deaf := [], xoff := [], sent7 := [], nbr := false, nbrReplay := false,
    txHsn := 0, unacked := [], again := [], rxHsn := 0, nak := none, toAck := 0, wxPeak := 0, wxInt := 0, wxAt := 0, wxTx := 0,
    wxRx := 0, wxCe := 0, wxRtt := 0, wxAcks := 0, wrr := [], wrrAt := 0 }

/-- What a logical port holds, and changing it. -/
def State.lport (s : State) (p : Nat) : LPort := Tbl.getD s.lports p lport0
def State.modLport (s : State) (p : Nat) (f : LPort → LPort) : State := { s with lports := Tbl.set s.lports p (f (s.lport p)) }

/-- Bytes queued at a port. -/
def State.portQueue (s : State) (p : Nat) : Nat := sumNat ((s.egress.filter fun q => q.port == p).map (·.len))

/-- The egress queue of a port is about to change: its integral runs up to now (R305). -/
def State.measure (s : State) (p : Nat) : State :=
  let n := s.portQueue p
  s.modLport p fun l => { l with wxInt := l.wxInt + n * (s.now - l.wxAt), wxAt := s.now }

/-- Puts a frame in a port's queue: an ECT packet behind more than `ecn_kib` of its traffic class is marked CE (R299). -/
def State.pushFrame (s : State) (q : Queued) : State :=
  let s := s.measure q.port
  let behind := sumNat ((s.egress.filter fun x => x.port == q.port && x.tc == q.tc).map (·.len))
  let mark := q.pkt.ect && decide (s.rd F.HOP_CFG_ecn_kib * 1024 < behind)
  let s := if mark then s.bump F.HOP_ECN_MARK else s
  let q := if mark then { q with pkt := { q.pkt with ce := true }, roce := q.roce.map fun r => { r with ce := true } } else q
  let s := { s with egress := s.egress ++ [q] }
  let n := s.portQueue q.port
  s.modLport q.port fun l => { l with wxPeak := max l.wxPeak n }

/-- The class a packet of the device's own is served in: a READ_RESP or ATOMIC_RESP travels in class 7, although it carries its request's class
for Ethernet queueing (R261). -/
def Packet.served (p : Packet) : Nat :=
  match p.ext with
  | .readResp .. => 7
  | .atomicResp .. => 7
  | _ => p.cls

/-- Queues a sealed packet of the device's own at a port (R265). -/
def State.enqueue (s : State) (port stamp start : Nat) (p : Packet) (conn vf : Option Nat) (x : Option Seal) : State :=
  s.pushFrame { port := port, cls := Packet.served p, tc := s.trafficClass p.cls, stamp := stamp, len := pktBytes p, pkt := p, transit := false,
                tag := none, stomp := false, conn := conn, at_ := s.now, roce := none, sealing := x, vf := vf, start := start }

/-- The instance a packet of a connection is served for: its operation's, or a tenant connection's own. -/
def State.servedFor (s : State) (k : Conn) (op : Option Nat) : Option Nat :=
  match op.bind s.op? with
  | some o => some o.vf
  | none => if k.svc = 0 then some k.vf else none

/-- Changes the sent packet of a PSN. -/
def Conn.modSent (k : Conn) (psn : Nat) (f : Sent → Sent) : Conn :=
  { k with sent := k.sent.map fun x => if x.pkt.psn == psn then f x else x }

/-- A packet's retransmit timer starts: as it leaves the MAC by a port (R213), or, where it leaves by none (R215, R291), at once. -/
def State.runTimer (s : State) (c psn : Nat) (port : Option Nat) : State :=
  s.modConn c fun k => k.modSent psn fun x =>
    { x with timer := x.waiting != 1 && x.waiting != 2, port := port.getD x.port, since := if x.tries = 0 then s.now else x.since }

/-- The retransmit timer of a RoCEv2 request starts (R213, R227). -/
def State.runRoceTimer (s : State) (c psn : Nat) : State :=
  s.modConn c fun k => { k with roceSent := k.roceSent.map fun x => if x.pkt.psn == psn then { x with timer := true, since := if x.tries = 0 then s.now else x.since } else x }

/-- The timer of a queued packet starts, which leaves by a port, or is dropped where its port goes DOWN (R213, R291). -/
def State.timerOf (s : State) (q : Queued) (port : Option Nat) : State :=
  match q.conn with
  | none => s
  | some c => if q.roce.isSome then s.runRoceTimer c q.pkt.psn else s.runTimer c q.pkt.psn port

/-- The bytes of its operation that lie up to the end of a packet: for a WRITE or a READ counted from the operation's own remote address, since
each of its messages has one (R218, R265); an ATOMIC's one packet carries it whole. -/
def opReach (o : Op) (p : Packet) : Nat :=
  let base := fieldLE o.desc 24 8
  match p.ext with
  | .write ra _ => (ra + 2 ^ 64 - base) % 2 ^ 64 + p.msgOff + p.payload.length
  | .readReq ra _ n => (ra + 2 ^ 64 - base) % 2 ^ 64 + p.msgOff + n
  | .atomic .. => o.length
  | _ => p.msgOff + p.payload.length

/-- The stamp of a packet on a port: the value of its operation's virtual clock there at which its bytes finish, in proportion to the way from
the clock's start to its end (R265). -/
def opStamp (o : Op) (port reach now : Nat) : Nat :=
  match Tbl.get? o.vcs port with
  | some (a, b) => a + (b - a) * reach / max 1 o.length
  | none => now

/-- The collective or step of a group to which a chunk belongs (R96). -/
def State.chunkOp (s : State) (slot : Nat) (hdr : List Byte) : Option Nat :=
  (s.collFor slot (s.opKey slot (fieldLE hdr 2 4))).map (·.op)

/-- Counts the bytes of a chunk's packet for its operation's clocks as it is first sent (R265). -/
def State.carry (s : State) (k : Conn) (p : Packet) : State :=
  match p.ext with
  | .chunk h => if p.retx then s else (match s.chunkOp k.slot h with
    | some id => s.modOp id fun o => { o with carried := o.carried + p.payload.length }
    | none => s)
  | _ => s

/-- The operation that a packet of a connection is sent for: a chunk's, or the one it is given. -/
def State.opFor (s : State) (k : Conn) (op : Option Nat) (p : Packet) : Option Op :=
  match p.ext with
  | .chunk h => (s.chunkOp k.slot h).bind s.op?
  | _ => op.bind s.op?

/-- The bytes of its operation that lie up to the end of a packet as it is sent: a chunk's are counted in the order of sending. -/
def sentReach (o : Op) (p : Packet) : Nat :=
  match p.ext with
  | .chunk _ => min o.carried o.length
  | _ => opReach o p

/-- The stamp of a packet of a connection, sent for an operation, for a chunk's, or for none (R265). -/
def State.stampOf (s : State) (k : Conn) (op : Option Nat) (p : Packet) (port : Nat) : Nat :=
  match s.opFor k op p with
  | some o => opStamp o port (sentReach o p) s.now
  | none => s.now

/-- Sends one packet of a connection, for an operation or for none: path entropy, counter, port, stamp, queue. Where no port of its set is UP it
is not sent, and its timer runs (R215). Answers false where the key slot gives no counter. -/
def State.sendPkt (s : State) (c : Nat) (k : Conn) (p : Packet) (timer : Bool) (op : Option Nat) : Bool × State :=
  let (pid, s) := if k.spray = 2 then s.drawBelow 65536 else (k.pathId, s)
  let p := { p with pathId := pid }
  match s.seal k.svc k.txSlot p with
  | none => (false, s)
  | some (p, x, s) =>
    match s.connPort c k p.cls with
    | (some port, s) =>
      let s := s.carry k p
      (true, s.enqueue port (s.stampOf k op p port) (((s.opFor k op p).map (·.start)).getD 0) p (if timer then some c else none) (s.servedFor k op) x)
    | (none, s) => (true, if timer then s.runTimer c p.psn none else s)

/-- Sends an answer of a connection in class 7, which takes no PSN (R207, R261). -/
def State.sendCtl (s : State) (c : Nat) (k : Conn) (ext : Ext) (psn msn : Nat) : State :=
  (s.sendPkt c k (s.mkPkt k ext 7 psn msn 0 0 []) false none).2

/-- Payload bytes sent and not acknowledged (R216). -/
def Conn.inFlight (k : Conn) : Nat := sumNat (k.sent.map fun x => if x.waiting = 3 then 0 else x.pkt.payload.length)

/-- PSNs from the oldest unacknowledged one to the next (R207). -/
def Conn.outstanding (k : Conn) : Nat :=
  match k.sent.find? fun x => x.waiting != 3 with
  | some x => cdiff k.nextPsn x.pkt.psn
  | none => 0

/-- The place in the order of service of a packet that waits for the window of its connection (R265): its stamp on the connection's port, or,
where each packet draws its own, the least of its operation's stamps. -/
def State.outKey (s : State) (k : Conn) (x : Packet × Option Nat) : Nat × Nat :=
  if 7 ≤ x.1.cls then (0, 0)
  else if x.1.cls = 6 then (2, 0)
  else match x.2.bind s.op? with
    | some o =>
      let stamps := o.vcs.map fun v => opStamp o v.1 (opReach o x.1) s.now
      (1, match (if k.spray = 0 then k.port else none), stamps with
        | some p, _ => opStamp o p (opReach o x.1) s.now
        | none, t :: rest => rest.foldl min t
        | none, [] => s.now)
    | none => (1, s.now)

/-- The index of the packet a connection releases next: the first of the least in the order of service; where all belong to one operation
they go in the order they were formed. -/
def State.nextOut (s : State) (k : Conn) : Nat :=
  match k.queue with
  | [] => 0
  | x :: rest =>
    if rest.all fun y => y.2 == x.2 then 0
    else (k.queue.zipIdx.foldl (fun (best : (Nat × Nat) × Nat) y =>
      let q := s.outKey k y.1
      if q.1 < best.1.1 ∨ (q.1 = best.1.1 ∧ q.2 < best.1.2) then (q, y.2) else best) (s.outKey k x, 0)).2

/-- Whether a message has begun: one that has not has a number from 2^32 on (R207). -/
def msgBegun (msn : Nat) : Bool := decide (msn < 2 ^ 32)

/-- Whether one message of an operation comes before another: those not begun, which take their MSN later, after those that have (R207, R218). -/
def msnOlder (x y : Nat) : Bool := if msgBegun x then !msgBegun y || serialOlder 32 x y else !msgBegun y && decide (x < y)

/-- A message takes the next MSN, and a SEND the next SSN, when its first packet is released (R207): the numbers of R207 are the next to send, so a
message that is dropped before it begins leaves no gap at the peer (R209, R262; DEDUCED, log entry 72). -/
def Conn.numberMsg (k : Conn) (p : Packet) : Conn :=
  let isSend := match p.ext with
    | .send .. => true
    | _ => false
  let m := k.nextMsn
  { k with
    nextMsn := (m + 1) % 2 ^ 32
    nextSsn := if isSend then (k.nextSsn + 1) % 2 ^ 32 else k.nextSsn
    queue := k.queue.map fun q => if q.1.ext.inMessage && q.1.msn == p.msn then
        ({ q.1 with msn := m, ext := match q.1.ext with
          | .send _ imm => .send k.nextSsn imm
          | e => e }, q.2)
      else q
    outMsgs := match Tbl.get? k.outMsgs p.msn with
      | some x => Tbl.set (Tbl.erase k.outMsgs p.msn) m x
      | none => k.outMsgs
    reads := k.reads.map fun r => if r.msn == p.msn then { r with msn := m } else r }

/-- What else names a message by its number follows: its operation, and the grant whose RESULT it is (R498). -/
def State.renumber (s : State) (c old new : Nat) (op : Option Nat) : State :=
  let s := match op with
    | some id => s.modOp id fun o => { o with msgs := o.msgs.map fun m => if m == old then new else m }
    | none => s
  { s with mgt := { s.mgt with granting := s.mgt.granting.map fun g => if 0xFFFF8 + g.1 = c ∧ g.2 = old then (g.1, new) else g } }

/-- A connection's next packet in the order of service, its message numbered. -/
def State.numbered (s : State) (c : Nat) (k : Conn) (p : Packet) (op : Option Nat) : State :=
  if p.ext.inMessage && !msgBegun p.msn then (s.setConn c (k.numberMsg p)).renumber c p.msn k.nextMsn op else s

/-- Whether a connection's window holds it below the reserved rate an operation was admitted at (R273 code 2): a window in each smoothed RTT, against
the bytes its clocks stand for in the time they span. -/
def windowBelow (k : Conn) (o : Op) : Bool :=
  let span := o.vcs.foldl (fun m v => max m (v.2.2 - v.2.1)) 0
  decide (k.cwnd * span < o.length * k.srtt.getD (10 * us))

/-- Releases packets formed for a connection while it is OPEN, the window has room (or nothing is in flight) and fewer than 8,192 PSNs
are outstanding (R207, R216); each takes its PSN. A slot that gives no counter ends the operation KEY_EXHAUSTED (R212). -/
def State.pump (s : State) (c : Nat) : Nat → State
  | 0 => s
  | fuel + 1 =>
    match s.conn? c with
    | none => s
    | some k =>
      let n := s.nextOut k
      match k.queue[n]? with
      | none => s
      | some (p, op) =>
        if (k.state = .open_ ∨ k.state = .closing) ∧ k.outstanding < 8192 ∧ (k.inFlight = 0 ∨ k.inFlight + p.payload.length ≤ k.cwnd) then
          let sn := s.numbered c k p op
          let kn := (sn.conn? c).getD k
          let p := ((kn.queue[n]?).map Prod.fst).getD p
          let rest := kn.queue.eraseIdx n
          let psn := k.nextPsn
          let p := { p with psn := psn, epoch := k.epoch, dstConn := k.peerConn }
          let k1 := { kn with queue := rest, nextPsn := (psn + 1) % 2 ^ 32,
                              sent := k.sent ++ [⟨p, 0, 0, false, 0, 0, s.now, 64, op⟩],
                              reads := kn.reads.map fun r => if p.ext.isRead && r.msn == p.msn then { r with psn := psn } else r,
                              openAtomics := k.openAtomics.map fun a => if some a.op == op then { a with psn := psn } else a }
          let s1 := sn.setConn c k1
          match s1.sendPkt c k1 p true op with
          | (true, s2) => s2.pump c fuel
          | (false, _) =>
            let s2 := s.setConn c { k with queue := k.queue.filter fun x => x.2 != op, outMsgs := Tbl.keep k.outMsgs fun m q => msgBegun m || q.1 != op }
            match op with
            | some id => (s2.endOp id Status.keyExhausted 0).pump c fuel
            | none => (s2.modConn c fun k => { k with errStatus := Status.keyExhausted }).pump c fuel
        else if k.state = .open_ then
          match op with
          | some id => if (s.op? id).any (windowBelow k) then s.recordCause id 2 else s
          | none => s
        else s

/-- Queues packets on a connection for an operation and releases what may go. -/
def State.queuePkts (s : State) (c : Nat) (ps : List Packet) (op : Option Nat) : State :=
  match s.conn? c with
  | none => s
  | some k =>
    let k := { k with queue := k.queue ++ ps.map fun p => (p, op) }
    (s.setConn c k).pump c k.queue.length

/-- Cuts a payload into pieces of an mtu: offsets and bytes; one empty piece for an empty payload. -/
def cutPayload (mtu : Nat) (data : List Byte) : List (Nat × List Byte) :=
  if data.isEmpty then [(0, [])]
  else (List.range (ceilDiv data.length mtu)).map fun k => (k * mtu, slice data (k * mtu) mtu)

/-- The packets of one message of a connection (R202, R209). -/
def State.msgPkts (s : State) (k : Conn) (cls msn : Nat) (ext : Ext) (solicit : Bool) (data : List Byte) : List Packet :=
  (cutPayload k.mtu data).map fun p =>
    { s.mkPkt k ext cls 0 msn data.length p.1 p.2 with solicit := solicit }

/-- Opens a message at the requester: its number until it takes its MSN, remembered with the operation it belongs to (R207, R209). -/
def State.openMsg (s : State) (c : Nat) (op : Option Nat) (len : Nat) : Nat × State :=
  match s.conn? c with
  | none => (0, s)
  | some k => (k.nextForm, s.setConn c { k with nextForm := k.nextForm + 1, outMsgs := Tbl.set k.outMsgs k.nextForm (op, len) })

/-- Sends one message (WRITE, SEND, CHUNK, COORD, CTRL that is placed) on a connection. -/
def State.sendMsg (s : State) (c cls : Nat) (ext : Ext) (solicit : Bool) (data : List Byte) (op : Option Nat) : State :=
  match s.openMsg c op data.length with
  | (msn, s) =>
    match s.conn? c with
    | none => s
    | some k => s.queuePkts c (s.msgPkts k cls msn ext solicit data) op

end Sys2Proof.Machine
end

