-- ==== Sys2Proof/Machine/Conns.lean ====
section
/-!
DEFINITION. Connection ends and their contexts: creation, probing, errors, epoch advances, freeing (R207, R211, R213, R224, R225), the
context cache (R222, R223) and the answers an end sends (R209, R214, R219).
-/

namespace Sys2Proof.Machine

/-! ### Contexts (R222-R224) -/

/-- The set of the context cache that a connection maps to (R222). -/
def ctxSet (c : Nat) : Nat := c % 1024

/-- The partition of a connection, 64 for one of the manager's (R500: it counts against no partition). -/
def State.connPart (s : State) (c : Nat) : Nat := ((s.conn? c).map (·.part)).getD 64

/-- Connection ends that an instance holds, and those it has pinned (R118, R378). -/
def State.connsOfInst (s : State) (vf : Nat) : Nat := (s.bxt.conns.filter fun p => p.2.vf == vf && p.2.svc != 1).length
def State.pinsOfInst (s : State) (vf : Nat) : Nat := (s.bxt.conns.filter fun p => p.2.vf == vf && p.2.svc != 1 && p.2.pin).length

/-- Pins in the set of a connection (R224). -/
def State.pinsInSet (s : State) (c : Nat) : Nat := (s.bxt.conns.filter fun p => ctxSet p.1 == ctxSet c && p.2.pin).length

/-- A packet held in the miss buffer for a connection (R220). -/
def heldFor (c : Nat) (h : Hold) : Bool :=
  match h.who with
  | .packet p => p.dstConn == c
  | _ => false

/-- Whether a waiter is a packet of a connection. -/
def waitsFor (c : Nat) : Waiter → Bool
  | .packet p => p.dstConn == c
  | .served p _ => p.dstConn == c
  | .roce p _ => p.qp == c
  | _ => false

/-- Whether a context may be evicted (R223). -/
def State.evictable (s : State) (c : Nat) : Bool :=
  match s.conn? c with
  | none => true
  | some k => !k.pin && k.win.isEmpty && k.msgs.isEmpty && !k.roceRx.active && k.roceRx.behind.isEmpty && !s.hpt.reads.any (fun r => waitsFor c r.who) && k.sent.isEmpty && k.roceSent.isEmpty
    && !s.xlt.holds.any (heldFor c)

/-- Sets the occupancy a change of residency shows in CTX_OCC and CTX_PTN (R228). -/
def State.showCtx (s : State) (p : Nat) : State :=
  let s := s.wr F.CTX_OCC_resident s.bxt.resident.length
  let s := s.wr F.CTX_OCC_pinned (s.bxt.conns.filter fun q => q.2.pin).length
  if p < 64 then
    let mine := s.bxt.conns.filter fun q => q.2.part == p && q.2.svc != 1
    let s := s.wr F.CTX_PTN_resident (s.bxt.resident.filter fun c => s.connPart c == p).length p
    let s := s.wr F.CTX_PTN_pinned (mine.filter fun q => q.2.pin).length p
    s.wr F.CTX_PTN_backed mine.length p
  else s

/-- The context that makes room in a full set (R223): none where no way is eligible. -/
def State.victim (s : State) (c : Nat) : Option Nat :=
  let ok := (s.bxt.resident.filter fun r => ctxSet r == ctxSet c && s.evictable r).reverse
  match ok.find? fun r => decide ((s.shares (s.connPart r)).ctxHot < s.rd F.CTX_PTN_resident (s.connPart r)) with
  | some r => some r
  | none => ok.head?

/-- Makes a context resident, evicting one where the ways of its set that serve are full (R31); false where no way is eligible (R223). -/
def State.bringIn (s : State) (c : Nat) : Bool × State :=
  if s.bxt.resident.contains c then (true, s)
  else
    let add := fun s : State => State.showCtx { s with bxt := { s.bxt with resident := c :: s.bxt.resident } } (s.connPart c)
    if (s.bxt.resident.filter fun r => ctxSet r == ctxSet c).length < s.ctxWays (ctxSet c) then (true, add s)
    else match s.victim c with
    | some r =>
      let s := { s with bxt := { s.bxt with resident := s.bxt.resident.filter (· != r) } }
      (true, add ((s.bump F.CTX_EVICT).showCtx (s.connPart r)))
    | none => (false, s)

/-- The most recent use of a resident context (R223). -/
def State.usedCtx (s : State) (c : Nat) : State :=
  { s with bxt := { s.bxt with resident := c :: s.bxt.resident.filter (· != c) } }

/-- Whether a new end, or a pin of one, may be had by an instance of a partition (R224, R245, R378). -/
def State.mayBack (s : State) (vf p : Nat) : Bool :=
  decide (s.connsOfInst vf < s.rd F.PTN_INST_ctx_backed vf) && decide (s.rd F.CTX_PTN_backed p < (s.shares p).ctxBacked)

/-- Whether a pin may be had (R224). -/
def State.mayPin (s : State) (vf p c : Nat) : Bool :=
  decide (s.pinsOfInst vf < s.rd F.PTN_INST_ctx_pin vf) && decide (s.rd F.CTX_PTN_pinned p < (s.shares p).ctxHot)
    && decide (s.pinsInSet c < 12)

/-! ### Ends -/

/-- A context with nothing sent or received in it (R207, R216). -/
def State.newConn (s : State) (vf part svc mtu : Nat) : Conn :=
  { state := .armed, vf := vf, part := part, svc := svc, group := 0, slot := 0, peerRank := 0, peerConn := 0, peerIp := 0, peerDev := 0,
    epoch := 0, spray := 2, enc := false, pin := false, roce := false, mtu := mtu, retryLimit := s.rd F.BXT_TIMER_retry_limit,
    rtoUs := s.rd F.BXT_TIMER_rto_init_us, armTimeoutMs := 1000, keepaliveUs := 0, txSlot := 0, rxSlot := 0, recvRing := 0xFFFF,
    nextPsn := 0, nextMsn := 0, nextSsn := 0, nextForm := 2 ^ 32, base := 0, win := [], msgs := [], done := 0, ended := [], atomics := [], sent := [],
    queue := [], reads := [], openAtomics := [], refusedMsn := [], outMsgs := [],
    cwnd := max mtu (min (s.rd F.BXT_CC_cwnd_init_kib * 1024) (min (2 ^ 24) (8192 * mtu))),
    srtt := none, rtts := [], alpha := 0, lastCut := s.now, ceCount := 0, unacked := 0, echoTs := 0, staleAckAt := none,
    epochNakAt := [], heldNakAt := [], errStatus := 0, closeSent := false, probes := true, rot := 0, port := none, pathId := 0,
    rnr := 0, rnrWait := false, seqNak := false, roceQueue := [], roceSent := [],
    roceRx := ⟨false, false, none, 0, 0, 0, 0, 0, [], []⟩, cnpAt := none }

/-- Adds an end, resident where a way can be had, and draws the path of modes 0 and 1 (R215, R222). -/
def State.addConn (s : State) (c : Nat) (k : Conn) : State :=
  let (pid, s) := s.drawBelow 65536
  let s := s.setConn c { k with pathId := pid }
  let s := (s.bringIn c).2
  s.showCtx k.part

/-- Sends an end's PROBE: to the peer's own ID on a tenant connection, to the connection service otherwise (R211, R118). It is in the
clear at the connection service, which holds no key. -/
def State.sendProbe (s : State) (c : Nat) (k : Conn) : State :=
  let p := s.mkPkt k (.ctrl 1 c k.svc k.group 0) 7 0 0 0 0 []
  let p := if k.svc = 0 then p else { p with dstConn := 0, enc := false }
  (s.sendPkt c k p false none).2

/-- Bytes in the 4 MiB miss buffer (R220). -/
def State.missBytes (s : State) : Nat :=
  sumNat (s.xlt.holds.map fun h => if h.remote then (match h.who with | .packet p => pktBytes p | _ => 0) else 0)

/-- Shows the miss buffer's use (R228). -/
def State.showMiss (s : State) : State :=
  let u := ceilDiv s.missBytes 1024
  (s.wr F.BXT_MISS_BUF_used_kib u).wr F.BXT_MISS_BUF_peak_kib (max u (s.rd F.BXT_MISS_BUF_peak_kib))

/-- Drops the packets held for a connection, with no reply (R220, R225). -/
def State.dropHolds (s : State) (c : Nat) : State :=
  State.showMiss { s with
    xlt := { s.xlt with holds := s.xlt.holds.filter fun h => !heldFor c h }
    hpt := { s.hpt with reads := s.hpt.reads.map fun r => if waitsFor c r.who then { r with who := .inbound } else r } }

/-- Operations that use a connection: its work entries and its receive entries (R213, R211, R226). -/
def State.opsOfConn (s : State) (c : Nat) : List Nat :=
  (s.ops.filter fun p => decide (2 ≤ p.2.opcode) && decide (p.2.opcode ≤ 6) && p.2.target == c).map Prod.fst

/-- What a RECV that a message has taken shows and flushes, however it ends (R251, R253): the message's length, immediate data and number, and the host
links that it wrote. -/
def State.showRecv (s : State) (c id : Nat) : State :=
  let show_ := fun (s : State) (len imm ssn : Nat) (w : Tbl (Tbl Nat)) => s.modOp id fun o =>
    { o with wrote := joinWrites o.wrote w, cqe := { o.cqe with result := leBytes 4 len ++ leBytes 4 imm ++ leBytes 4 ssn } }
  match s.conn? c with
  | none => s
  | some k => match k.msgs.find? fun m => m.recvOp == some id with
    | some m => show_ s m.len m.imm m.ssn m.wrote
    | none => if k.roceRx.recvOp = some id then show_ s k.roceRx.off 0 k.roceRx.ssn k.roceRx.wrote else s

/-- Whether an operation has a packet on a connection that is sent and not acknowledged, or waits to be sent. -/
def Conn.carries (k : Conn) (id : Nat) : Bool :=
  (k.sent.any fun x => x.op == some id && x.waiting != 3) || (k.queue.any fun x => x.2 == some id)
    || (k.roceSent.any fun x => x.op == some id) || k.roceQueue.any fun x => x.op == some id

/-- Ends every operation of a connection with a status at once. -/
def State.endOpsOfConn (s : State) (c status sub : Nat) (remote : Bool) : State :=
  (s.opsOfConn c).foldl (fun s id =>
    let s := if remote then s.markRemote id sub else s
    (s.showRecv c id).endOp id status sub) s

/-- Forgets everything an end has sent and not had acknowledged. -/
def Conn.clearSent (k : Conn) : Conn :=
  { k with sent := [], queue := [], reads := [], openAtomics := [], outMsgs := [], refusedMsn := [], roceQueue := [], roceSent := [],
           rnrWait := false }

/-- Moves an end to ERROR: its outstanding operations complete with the status, and new work will (R211, R213). Where a NAK brought it about
their completions carry `remote` and its code (R219, R250). -/
def State.errorEnd (s : State) (c status code : Nat) : State :=
  match s.conn? c with
  | none => s
  | some k =>
    let s := s.setConn c { k.clearSent with state := .error, errStatus := status }
    s.endOpsOfConn c status code (code != 0)

/-- Moves an end to ERROR with no NAK received. -/
def State.errorConn (s : State) (c status : Nat) : State := s.errorEnd c status 0

/-- Frees an end, with no packet sent; its operations complete with a status where one is given (R211, R384). -/
def State.freeConn (s : State) (c : Nat) (status : Option Nat) : State :=
  match s.conn? c with
  | none => s
  | some k =>
    let s := match status with
      | some st => s.endOpsOfConn c st 0 false
      | none => s
    let s := s.dropHolds c
    let s := { s with
      bxt := { s.bxt with conns := Tbl.erase s.bxt.conns c, resident := s.bxt.resident.filter (· != c) }
      adm := { s.adm with grants := Tbl.keep s.adm.grants fun q _ => q / 8 != c, pace := Tbl.keep s.adm.pace fun q _ => q / 8 != c } }
    s.showCtx k.part

/-- An epoch advance at one end (R225). -/
def State.advanceEpoch (s : State) (c : Nat) : State :=
  match (s.dropHolds c).conn? c with
  | none => s
  | some k =>
    (s.dropHolds c).setConn c { k.clearSent with
      epoch := (k.epoch + 1) % 2 ^ 16, nextPsn := 0, nextMsn := 0, nextSsn := 0, base := 0, win := [], msgs := [], done := 0, ended := [],
      atomics := [], unacked := 0 }

/-! ### Answers -/

/-- The base `msn` of an ACK: every message up to it has ended (R209). -/
def Conn.doneMsn (k : Conn) : Nat := (k.done + 2 ^ 32 - 1) % 2 ^ 32

/-- The `sack_map` from `base` on (R205). -/
def Conn.sackMap (k : Conn) : Nat :=
  k.win.foldl (fun m p => if cdiff p k.base < 64 then setBit m (cdiff p k.base) else m) 0

/-- Sends an ACK (R205, R214). -/
def State.sendAck (s : State) (c : Nat) : State :=
  match s.conn? c with
  | none => s
  | some k =>
    (s.setConn c { k with unacked := 0, ceCount := 0 }).sendCtl c k
      (.ack k.base k.base k.sackMap (min k.ceCount 65535) k.echoTs) 0 k.doneMsn

/-- Sends a NAK of a connection (R219): code, reason, delay in microseconds, for a packet. -/
def State.sendNak (s : State) (c : Nat) (k : Conn) (p : Packet) (code reason delay : Nat) : State :=
  let s := if code = 1 then s.bump F.BXT_NR_SENT else s
  s.sendCtl c k (.nak code reason delay p.psn (if code = 4 then k.epoch else 0) 0) 0 p.msn

/-- Sends a packet that belongs to no end, in the clear, to a device (R219, R500). -/
def State.sendLoose (s : State) (p : Packet) : State :=
  let (pid, s) := s.drawBelow 65536
  let p := { p with srcIp := s.ownIp p.dstIp, dscp := s.dscp p.cls, srcDev := s.devAddr, pathId := pid, enc := false }
  match s.choosePort p.dstDev (s.trafficClass p.cls) 0 (s.upPorts p.dstDev) with
  | some port => s.enqueue port s.now 0 p none none none
  | none => s

/-- Answers a packet for a FREE end, at most once in 10 us for its source and ID (R211, R219). -/
def State.sendUnknown (s : State) (p : Packet) : State :=
  let key := p.srcDev * 2 ^ 20 + p.dstConn
  match Tbl.get? s.bxt.unkNak key with
  | some t => if s.now < t + 10 * us then s else go s key
  | none => go s key
where
  go (s : State) (key : Nat) : State :=
    let s := { s with bxt := { s.bxt with unkNak := Tbl.set s.bxt.unkNak key s.now } }
    s.sendLoose { dstIp := p.srcIp, dstDev := p.srcDev, cls := 7, ext := .nak 7 0 0 p.psn 0 p.dstConn }

/-! ### The window at the receiver (R208, R209) -/

/-- Advances `base` past the set bits that follow it. -/
def slideBase : Nat → Nat → List Nat → Nat × List Nat
  | 0, b, w => (b, w)
  | n + 1, b, w => if w.contains b then slideBase n ((b + 1) % 2 ^ 32) (w.filter (· != b)) else (b, w)

/-- Sets a window bit (R208). -/
def Conn.setBit (k : Conn) (p : Nat) : Conn :=
  let w := p :: k.win
  let (b, w) := slideBase (w.length + 1) k.base w
  { k with base := b, win := w }

/-- Whether a PSN lies in the window with its bit clear. -/
def Conn.isNew (k : Conn) (p : Nat) : Bool := decide (cdiff p k.base < 8192) && !k.win.contains p

/-- Consumes a packet's PSN: its bit is set and it counts as placed; an ACK follows at once after 16 such packets or on `ack_req`
(R208, R214). -/
def State.takePsn (s : State) (c : Nat) (p : Packet) : State :=
  match s.conn? c with
  | none => s
  | some k =>
    let k := { k.setBit p.psn with unacked := k.unacked + 1, echoTs := p.ts }
    let s := s.setConn c k
    if p.ackReq ∨ 16 ≤ k.unacked then s.sendAck c else s

/-- Raises `done_msn` past every message that has ended (R209). -/
def slideDone : Nat → Nat → List Nat → Nat × List Nat
  | 0, d, e => (d, e)
  | n + 1, d, e => if e.contains d then slideDone n ((d + 1) % 2 ^ 32) (e.filter (· != d)) else (d, e)

/-- A message has ended at the receiver: its entry leaves the table, `done_msn` rises and an ACK tells it (R209, R534). -/
def State.endMsg (s : State) (c msn : Nat) : State :=
  match s.conn? c with
  | none => s
  | some k =>
    let e := msn :: k.ended
    let (d, e) := slideDone (e.length + 1) k.done e
    (s.setConn c { k with msgs := k.msgs.filter fun m => m.msn != msn, done := d, ended := e }).sendAck c

/-- Whether an MSN has ended at the receiver (R203). -/
def Conn.msnEnded (k : Conn) (msn : Nat) : Bool := serialOlder 32 msn k.done || k.ended.contains msn

end Sys2Proof.Machine
end

