-- ==== Sys2Proof/Machine/BxtRx.lean ====
section
/-!
DEFINITION. The receiving end of Brixver Transport: judging a packet (R203, R208, R210, R212), refusing a message (R534), placing writes
and sends, serving reads and atomics (R217), holds (R220), violations (R221), completion at the receiver (R209).
-/

namespace Sys2Proof.Machine

/-! ### NAK codes (R219) -/
namespace Nak
abbrev notReady : Nat := 1
abbrev held : Nat := 2
abbrev access : Nat := 3
abbrev staleEpoch : Nat := 4
abbrev invalid : Nat := 5
abbrev length : Nat := 6
abbrev unknownConn : Nat := 7
abbrev fault : Nat := 8
end Nak

/-! ### Judging (R203) -/

/-- Step 1: the trailer or the tag (R202, R212, R394). A packet whose `enc` is not its connection's breaks it too. Answers the packet with
its clear payload. -/
def State.openPkt (s : State) (p : Packet) : Option Packet × State :=
  match p.enc, s.conn? p.dstConn with
  | true, some k =>
    if !k.enc then (none, s.bump F.BXT_INVALID)
    else match s.slotOf k.svc k.rxSlot with
    | none => (none, ((s.bump F.CPH_TAG_FAIL).bump F.BXT_DECRYPT_FAIL).evt 16)
    | some sl =>
      if sl.state = .wiping then (none, ((s.bump F.CPH_TAG_FAIL).bump F.BXT_DECRYPT_FAIL).evt 16) else
      let (_, s) := s.coreChecks k.part 54
      let salt := if sl.devSalt then 0x80000000 + p.srcDev else sl.salt
      let (hit, s) := s.inject 0x0902 0 k.part 0
      match (if hit then none else Config.gcmOpen sl.key (beBytes 4 salt ++ beBytes 8 p.iv) p.aad p.payload p.trailer) with
      | some d => (some { p with payload := d }, s.bump F.CPH_DEC_PKTS)
      | none =>
        (none, ((s.setSlot k.svc k.rxSlot { sl with tagFail := min 65535 (sl.tagFail + 1) }).bump F.CPH_TAG_FAIL).bump F.BXT_DECRYPT_FAIL |>.evt 16)
  | true, none => (some p, s)
  | false, k =>
    if p.trailer = p.crcTrailer ∧ !k.any (·.enc) then (some p, s) else (none, s.bump F.BXT_INVALID)

/-- Marks the peer device as heard from (R213). -/
def State.hear (s : State) (dev : Nat) : State := { s with bxt := { s.bxt with heard := Tbl.set s.bxt.heard dev s.now } }

/-- An open message of a connection. -/
def Conn.msg? (k : Conn) (msn : Nat) : Option OpenMsg := k.msgs.find? fun m => m.msn == msn

/-- Sets an open message. -/
def Conn.setMsg (k : Conn) (m : OpenMsg) : Conn :=
  { k with msgs := if (k.msg? m.msn).isSome then k.msgs.map (fun x => if x.msn == m.msn then m else x) else k.msgs ++ [m] }

/-- A message of which nothing is placed yet. -/
def newMsg (p : Packet) : OpenMsg :=
  { msn := p.msn, fixed := false, len := p.msgLen, placed := 0, refused := none, wrote := [], recvOp := none,
    imm := (match p.ext with | .send _ i => i | _ => 0), ssn := (match p.ext with | .send n _ => n | _ => 0),
    isSend := (match p.ext with | .send .. => true | _ => false), solicit := p.solicit, complete := false, data := [] }

/-- How judging ends: disposed of, or to be taken as new on its connection. -/
inductive Verdict where
  | gone
  | take (c : Nat) (k : Conn) (p : Packet)
  deriving DecidableEq, Repr

/-- A packet of a chunk connection (R210). -/
def Conn.isChunk (k : Conn) : Bool := k.svc == 3

/-- An older or newer epoch (R210). -/
def State.wrongEpoch (s : State) (c : Nat) (k : Conn) (p : Packet) : State :=
  let s := s.bump F.BXT_EPOCH_DROP
  if p.ext.takesPsn ∧ !k.isChunk ∧ serialOlder 16 p.epoch k.epoch then
    match Tbl.get? k.epochNakAt p.epoch with
    | some t => if s.now < t + 100 * us then s else answer s
    | none => answer s
  else s
where
  answer (s : State) : State :=
    (s.modConn c fun k => { k with epochNakAt := Tbl.set k.epochNakAt p.epoch s.now }).sendNak c k p Nak.staleEpoch 0 0

/-- Step 5: a later packet of a refused message (R534 step 2). -/
def State.refusedAgain (s : State) (c : Nat) (k : Conn) (p : Packet) (code : Nat) : State :=
  let s := s.bump F.BXT_REFUSED
  let s := if k.isNew p.psn then s.takePsn c p else s
  match s.conn? c with
  | some k => s.sendNak c k p code 0 0
  | none => s

/-- A stale packet (R208): discarded and answered with an ACK, at most one in 10 us. -/
def State.stale (s : State) (c : Nat) (k : Conn) : State :=
  let s := s.bump F.BXT_STALE
  match k.staleAckAt with
  | some t => if s.now < t + 10 * us then s else (s.modConn c fun k => { k with staleAckAt := some s.now }).sendAck c
  | none => (s.modConn c fun k => { k with staleAckAt := some s.now }).sendAck c

/-- Whether an end may send answers that carry data: OPEN only (R211). -/
def Conn.serves (k : Conn) : Bool := k.state == .open_

/-- The ATOMIC_RESP of a request, in its class (R217, R261). -/
def State.sendAtomicResp (s : State) (c : Nat) (k : Conn) (p : Packet) (result : Nat) : State :=
  (s.sendPkt c k (s.mkPkt k (.atomicResp result) p.cls p.psn p.msn 0 0 []) false none).2

/-- A duplicate ATOMIC is answered from the atomic cache (R217). -/
def State.atomicAgain (s : State) (c : Nat) (k : Conn) (p : Packet) : State :=
  match p.ext with
  | .atomic .. => match (if k.serves then k.atomics.find? fun a => a.1 == p.psn else none) with
    | some a => s.sendAtomicResp c k p a.2
    | none => s
  | _ => s

/-- The held copy of a packet, if it is held (R220). -/
def State.heldCopy (s : State) (c : Nat) (p : Packet) : Option Hold :=
  s.xlt.holds.find? fun h => h.remote && (match h.who with | .packet q => q.dstConn == c && q.psn == p.psn && q.epoch == p.epoch | _ => false)

/-- A copy of a held packet: answered HELD, at most once in 100 us (R220). -/
def State.heldAgain (s : State) (c : Nat) (k : Conn) (p : Packet) (h : Hold) : State :=
  let left := max 1 (ceilDiv (h.since + s.rd F.BXT_HOLD_fault_hold_us * us - s.now) us)
  match Tbl.get? k.heldNakAt p.psn with
  | some t => if s.now < t + 100 * us then s else answer s left
  | none => answer s left
where
  answer (s : State) (left : Nat) : State :=
    (s.modConn c fun k => { k with heldNakAt := Tbl.set k.heldNakAt p.psn s.now }).sendNak c k p Nak.held 0 left

/-- Whether the data that a packet's copy waits for is being read (R217): an ATOMIC takes its bit when it is performed (R208). -/
def State.beingServed (s : State) (c : Nat) (p : Packet) : Bool :=
  s.hpt.reads.any fun r => match r.who with
    | .served q _ => q.dstConn == c && q.psn == p.psn && q.epoch == p.epoch
    | _ => false

/-- Step 6: the window of R208, for a packet that takes a PSN. A copy of an ATOMIC that is being performed is discarded (DEDUCED, log entry 72). -/
def State.judgeWindow (s : State) (c : Nat) (k : Conn) (p : Packet) : Verdict × State :=
  let (hit, s) := s.inject 0x0901 0 k.part 0
  if hit then (.gone, s)
  else if serialOlder 32 p.psn k.base then (.gone, (s.atomicAgain c k p).stale c k)
  else if 8192 ≤ cdiff p.psn k.base then (.gone, s.bump F.BXT_INVALID)
  else if k.win.contains p.psn then
    (.gone, ((((s.atomicAgain c k p).bump F.BXT_DUP).evt 3).modConn c fun k => { k with echoTs := p.ts }).sendAck c)
  else match s.heldCopy c p with
  | some h => (.gone, s.heldAgain c k p h)
  | none => if s.beingServed c p then (.gone, s) else (.take c k p, s)

/-- A CE-marked packet counts, duplicates too (R216). -/
def State.markCe (s : State) (c : Nat) (p : Packet) : State :=
  if p.ce then (s.bump F.BXT_CE_RCVD).modConn c fun k => { k with ceCount := k.ceCount + 1 } else s

/-- Notes that a class of a connection has received (R267). -/
def State.noteClass (s : State) (c cls : Nat) : State :=
  let key := c * 8 + cls
  if s.adm.active.contains key then s else { s with adm := { s.adm with active := s.adm.active ++ [key] } }

/-- An arrival whose context is not to be had in time (R222): NOT_READY, reason 1, 10 us. -/
def State.fetchLate (s : State) (c : Nat) (k : Conn) (p : Packet) : State := (s.bump F.CTX_FETCH_NR).sendNak c k p Nak.notReady 1 10

/-- The bytes of a RoCEv2 frame, untagged: MACs, IP, UDP, BTH, RETH or AETH, payload, ICRC, FCS. -/
def roceBytes (p : RocePacket) (v4 : Bool) : Nat :=
  18 + (if v4 then 20 else 40) + 8 + 12 + p.payload.length + 4 +
  (match p.op with
    | .write first _ _ _ _ => if first then 16 else 0
    | .readReq .. => 16
    | .readResp first last => if first || last then 4 else 0
    | .ack .. => 4
    | .cnp => 16
    | _ => 0)

/-- Bytes in the 2 MiB fetch buffer (R222). -/
def State.fetchBytes (s : State) : Nat :=
  sumNat (s.bxt.fetching.map pktBytes) + sumNat (s.bxt.roceFetching.map fun p => roceBytes p false)

/-- The context of an arrival: true where it is resident; else the packet waits for it, or is answered NOT_READY (R222). -/
def State.needCtx (s : State) (c : Nat) (k : Conn) (p : Packet) : Bool × State :=
  if s.bxt.resident.contains c then (true, (s.bump F.CTX_HIT).usedCtx c)
  else
    let s := s.bump F.CTX_MISS
    if s.fetchBytes + pktBytes p ≤ 2 ^ 21 then
      (false, { s with bxt := { s.bxt with fetching := s.bxt.fetching ++ [p] } })
    else (false, s.fetchLate c k p)

/-- Steps 4 to 6 on an end whose context is at hand. -/
def State.judgeOn (s : State) (c : Nat) (k : Conn) (p : Packet) : Verdict × State :=
  if p.epoch ≠ k.epoch ∧ !p.ext.isStaleNak then (.gone, s.wrongEpoch c k p)
  else if k.state = .armed then (.gone, s)
  else
    let s := (s.markCe c p).noteClass c p.cls
    match s.conn? c with
    | none => (.gone, s)
    | some k =>
      if !p.ext.takesPsn then (.take c k p, s)
      else match (if p.ext.inMessage then (k.msg? p.msn).bind (·.refused) else none) with
      | some code => (.gone, s.refusedAgain c k p code)
      | none => s.judgeWindow c k p

/-- Judges an arriving packet (R203): steps 1 to 3, then the end it names. -/
def State.judge (s : State) (p : Packet) : Verdict × State :=
  match s.openPkt p with
  | (none, s) => (.gone, s)
  | (some p, s) =>
    if !p.wellFormed then (.gone, s.bump F.BXT_INVALID)
    else
      let s := s.hear p.srcDev
      match s.conn? p.dstConn with
      | none => (.gone, (s.bump F.BXT_INVALID).sendUnknown p)
      | some k =>
        match s.needCtx p.dstConn k p with
        | (true, s) => s.judgeOn p.dstConn k p
        | (false, s) => (.gone, s)

/-! ### Refusing a message (R534) -/

/-- The receive ring of a connection (R245). -/
def Conn.recvKey (k : Conn) : Option Nat := if k.recvRing = 0xFFFF then none else some (k.vf * 4096 + k.recvRing)

/-- Takes the receive entry of an SSN off its ring. -/
def State.takeRecv (s : State) (k : Conn) (ssn : Nat) : Option Nat × State :=
  match k.recvKey.bind fun r => (s.ring? r).map fun g => (r, g) with
  | some (r, g) =>
    match Tbl.get? g.recvs ssn with
    | some id => (some id, s.setRing r { g with recvs := Tbl.erase g.recvs ssn })
    | none => (none, s)
  | none => (none, s)

/-- A RECV completes with its message's length, immediate data and number (R251). -/
def State.endRecv (s : State) (id st len imm ssn : Nat) : State :=
  (s.modOp id fun o => { o with cqe := { o.cqe with result := leBytes 4 len ++ leBytes 4 imm ++ leBytes 4 ssn } }).endOp id st 0

/-- A terminal NAK: the packet's PSN is consumed, its message becomes REFUSED where it has not ended, a SEND's receive entry completes
LENGTH_EXCEEDED, and the NAK carries the message's MSN (R534 steps 1 and 2, R217). -/
def State.refuse (s : State) (c : Nat) (p : Packet) (code : Nat) : State :=
  let s := s.takePsn c p
  match s.conn? c with
  | none => s
  | some k =>
    let s := s.sendNak c k p code 0 0
    if k.msnEnded p.msn then s
    else
      let m := (k.msg? p.msn).getD (newMsg p)
      let (id, s) := if m.isSend then (match m.recvOp with | some id => (some id, s) | none => s.takeRecv k m.ssn) else (none, s)
      let s := s.modConn c fun k => k.setMsg { m with refused := some code, recvOp := none }
      match id with
      | some id => (s.modOp id fun o => { o with wrote := joinWrites o.wrote m.wrote }).endRecv id Status.lengthExceeded m.len m.imm m.ssn
      | none => s

/-! ### Translation for a remote request (R338, R221) -/

/-- The rkey checks of R338, in their order: the reason of the first that fails. -/
def State.rkeyBad (s : State) (k : Conn) (rkey : Nat) : Option Nat :=
  let tag := rkey / 2 ^ 20
  if tag = 0 ∨ s.rd F.XLT_TAG_state tag = 0 ∨ s.rd F.XLT_TAG_vf tag ≠ k.vf then some XReason.tagForeign
  else if Tbl.getD s.xlt.nonces tag 0 ≠ rkey % 2 ^ 20 then some XReason.staleNonce
  else if s.rd F.XLT_TAG_remote_ok tag = 0 then some XReason.remoteDisabled
  else none

/-- Translates a remote request's range; an empty range needs no access. -/
def State.remoteRange (s : State) (k : Conn) (rkey va n : Nat) (acc : AccKind) : Except Stop (List (Loc × Nat)) × State :=
  match s.rkeyBad k rkey with
  | some r => (.error (.viol va r 0), s)
  | none => s.lookupRange k.part k.vf (rkey / 2 ^ 20) va n acc

/-- A record of a remote access (R341): the tag's owner, connection, MSN, PSN and key. -/
def State.remoteRec (s : State) (c : Nat) (k : Conn) (p : Packet) (tag rkey va reason level : Nat) (acc : AccKind) : XRec :=
  { part := k.part, err := false, va := va, tag := tag, reason := reason, acc := acc, remote := true, inbound := false, level := level,
    vf := if s.rd F.XLT_TAG_state tag = 0 then k.vf else s.rd F.XLT_TAG_vf tag, conn := c, msn := p.msn, psn := p.psn, rkey := rkey }

/-- Time left of the oldest hold, in microseconds, 1 to 1,000 (R219, R220). -/
def State.oldestHoldUs (s : State) : Nat :=
  match (s.xlt.holds.filter (·.remote)).map (·.since) with
  | t :: rest => max 1 (min 1000 (ceilDiv (rest.foldl min t + s.rd F.BXT_HOLD_fault_hold_us * us - s.now) us))
  | [] => 1

/-- Holds a packet in the miss buffer and answers HELD, or answers NOT_READY where there is no room (R220). A packet that faults again on
its retry keeps its hold. -/
def State.holdPacket (s : State) (c : Nat) (k : Conn) (p : Packet) (since : Option Nat) (r : XRec) : State :=
  match since with
  | some t =>
    let s := s.raiseFault r
    let h : Hold := ⟨r.tag, r.va, r.acc, true, .packet p, t, none⟩
    State.showMiss { s with xlt := { s.xlt with holds := s.xlt.holds ++ [h] } }
  | none =>
    if 2 ^ 22 < s.missBytes + pktBytes p then s.sendNak c k p Nak.notReady 0 s.oldestHoldUs
    else
      let s := ((s.raiseFault r).hold r.tag r.va r.acc true (.packet p)).bump F.BXT_HELD
      let s := s.showMiss.modConn c fun k => { k with heldNakAt := Tbl.set k.heldNakAt p.psn s.now }
      s.sendNak c k p Nak.held 0 (s.rd F.BXT_HOLD_fault_hold_us)

/-- What becomes of a request whose translation stops (R220, R221). A request that meets a lost link or a detached instance is dropped
with no reply, so that its sender's timers run out. -/
def State.stopPacket (s : State) (c : Nat) (k : Conn) (p : Packet) (since : Option Nat) (tag rkey : Nat) (acc : AccKind) : Stop → State
  | .absent va level => s.holdPacket c k p since (s.remoteRec c k p tag rkey va XReason.notPresent level acc)
  | .viol va reason level => (s.raiseViolation (s.remoteRec c k p tag rkey va reason level acc)).refuse c p Nak.access
  | .detached _ => s
  | .lost _ => s

/-! ### Messages at the receiver (R209) -/

/-- The completion of a receive event (R249, R251): it answers no entry. -/
def eventCqe (result : List Byte) : Cqe :=
  { wrId := 0, slot := 0, status := 0, sub := 0, special := false, rndFallback := false, remote := false, stream := false,
    delayed := false, performed := false, held := false, event := true, opcode := 0, cinfo := 0, result := result, eta := 0 }

/-- Posts a receive event (R251): bytes and MSN, where a completion slot is free (R235). -/
def State.receiveEvent (s : State) (k : Conn) (m : OpenMsg) : State :=
  match k.recvKey.bind fun r => (s.ring? r).map fun g => (r, g) with
  | none => s
  | some (r, g) =>
    if s.cqFree r g = 0 then s.bump F.WQE_EVENT_DROP
    else s.postCqe r (eventCqe (leBytes 4 m.len ++ leBytes 4 0 ++ leBytes 4 m.msn))

/-- A complete message has become visible: its receive entry or event is posted and the message ends (R209). -/
def State.showMsg (s : State) (c msn : Nat) : State :=
  match s.conn? c with
  | none => s
  | some k =>
    match k.msg? msn with
    | none => s
    | some m =>
      let s := match m.recvOp with
        | some id => s.endRecv id Status.ok m.len m.imm m.ssn
        | none => if m.solicit ∧ !m.isSend then s.receiveEvent k m else s
      s.endMsg c msn

/-- A message whose bytes are all placed: it flushes each host link it wrote first (R209 step 1, R253). -/
def State.finishMsg (s : State) (c : Nat) (m : OpenMsg) : State :=
  if m.wrote.isEmpty then s.showMsg c m.msn
  else s.flushLinks m.wrote (.msg c m.msn)

/-- A packet of a message is placed: its bit, its bytes, and the message's completion (R208, R209). -/
def State.placed (s : State) (c : Nat) (p : Packet) (m : OpenMsg) (locs : List (Loc × Nat)) : State :=
  let m := { m with fixed := true, len := p.msgLen, placed := m.placed + p.payload.length, wrote := lastWrites locs m.wrote,
                    solicit := m.solicit || p.solicit }
  let m := { m with complete := m.placed == m.len }
  let s := (s.modConn c fun k => k.setMsg m).takePsn c p
  if m.complete then s.finishMsg c m else s

/-- Step 7 of R203 and the table of R209: the open message of a packet, or none where it was answered. -/
def State.msgFor (s : State) (c : Nat) (k : Conn) (p : Packet) : Option OpenMsg × State :=
  let old := k.msg? p.msn
  if 2 ^ 30 < p.msgLen ∨ p.msgLen < p.msgOff + p.payload.length ∨ k.msnEnded p.msn ∨
      old.any (fun m => m.complete || (m.fixed && m.len != p.msgLen)) then
    (none, (s.bump F.BXT_INVALID).refuse c p Nak.invalid)
  else match old with
  | some m => (some m, s)
  | none =>
    if k.svc = 0 ∧ s.fencedInst k.vf k.part then (none, (s.bump F.PTN_FENCE_NAK).sendNak c k p Nak.notReady 4 100)
    else if 64 ≤ (k.msgs.filter fun m => !m.complete).length then (none, s.sendNak c k p Nak.notReady 3 10)
    else
      let m := newMsg p
      (some m, s.modConn c fun k => k.setMsg m)

/-! ### Placing each type (R217) -/

/-- A WRITE packet: its payload goes to `raddr` + `msg_off` under `rkey`. -/
def State.placeWrite (s : State) (c : Nat) (k : Conn) (p : Packet) (m : OpenMsg) (since : Option Nat) (raddr rkey : Nat) : State :=
  let tag := rkey / 2 ^ 20
  match s.remoteRange k rkey (raddr + p.msgOff) p.payload.length .write with
  | (.ok locs, s) => (s.writeLocs k.vf tag none locs p.payload).placed c p m locs
  | (.error e, s) => s.stopPacket c k p since tag rkey .write e

/-- A SEND packet: into the receive entry of its SSN. -/
def State.placeSend (s : State) (c : Nat) (k : Conn) (p : Packet) (m : OpenMsg) (since : Option Nat) (ssn : Nat) : State :=
  let (id, s) := match m.recvOp with
    | some id => (some id, s)
    | none => s.takeRecv k ssn
  match id.bind fun i => (s.op? i).map fun o => (i, o) with
  | none =>
    let (d, s) := s.drawBelow 1000
    s.sendNak c k p Nak.notReady 2 (d + 1)
  | some (id, o) =>
    let m := { m with recvOp := some id }
    let s := s.modConn c fun k => k.setMsg m
    if fieldLE o.desc 24 4 < p.msgLen then s.refuse c p Nak.length
    else match s.lookupRange k.part k.vf o.tag (fieldLE o.desc 16 8 + p.msgOff) p.payload.length .write with
    | (.ok locs, s) => (s.writeLocs k.vf o.tag none locs p.payload).placed c p m locs
    | (.error e, s) => s.stopPacket c k p since o.tag 0 .write e

/-- The READ_RESP packets of a request (R217), in the class of the request (R261). -/
def State.sendReadResp (s : State) (c : Nat) (k : Conn) (p : Packet) (data : List Byte) : State :=
  (cutPayload k.mtu data).foldl (fun s q =>
    (s.sendPkt c k (s.mkPkt k (.readResp p.psn) p.cls 0 p.msn p.msgLen (p.msgOff + q.1) q.2) false none).2) s

/-- A READ_REQ is answered with what its places hold (R217); its message ends. -/
def State.serveRead (s : State) (c : Nat) (k : Conn) (p : Packet) (locs : List (Loc × Nat)) : State :=
  (if k.serves then s.sendReadResp c k p (s.readLocs locs) else s).endMsg c p.msn

/-- A READ_REQ: host pages are read first (R312), poisoned data refuses it (R359). -/
def State.placeRead (s : State) (c : Nat) (k : Conn) (p : Packet) (since : Option Nat) (raddr rkey n : Nat) : State :=
  let tag := rkey / 2 ^ 20
  match s.remoteRange k rkey (raddr + p.msgOff) n .read with
  | (.error e, s) => s.stopPacket c k p since tag rkey .read e
  | (.ok locs, s) =>
    match s.badFor k.part none locs with
    | (true, s) => s.refuse c p Nak.invalid
    | (false, s) =>
      let s := s.takePsn c p
      let hosts := hostLocs locs
      if hosts.isEmpty then s.serveRead c k p locs else s.issueReads (.served p locs) k.vf tag hosts

/-- The new value of an atomic (R205): fetch-add, compare-swap, swap. -/
def atomicValue (aop old a b : Nat) : Nat :=
  if aop = 0 then (old + a) % 2 ^ 64 else if aop = 1 then (if old = a then b else old) else a

/-- An ATOMIC is performed at its place, once: its result is kept among the last 16 and answered, and its bit is set (R208, R217). -/
def State.performAtomic (s : State) (c : Nat) (k : Conn) (p : Packet) (m : OpenMsg) (tag aop a b : Nat) (locs : List (Loc × Nat)) : State :=
  let old := ofLE (s.readLocs locs)
  let s := s.writeLocs k.vf tag none locs (leBytes 8 (atomicValue aop old a b))
  let s := s.modConn c fun k => { k with atomics := ((p.psn, old) :: k.atomics).take 16 }
  let m := { m with fixed := true, complete := true, wrote := lastWrites locs m.wrote }
  let s := (s.modConn c fun k => k.setMsg m).takePsn c p
  let s := if k.serves then s.sendAtomicResp c k p old else s
  s.finishMsg c m

/-- An ATOMIC (R217): performed at once in device memory; a host word is read first, and the ATOMIC is performed when its value comes. -/
def State.placeAtomic (s : State) (c : Nat) (k : Conn) (p : Packet) (m : OpenMsg) (since : Option Nat) (raddr rkey aop a b : Nat) : State :=
  let tag := rkey / 2 ^ 20
  if 2 < aop ∨ raddr % 8 ≠ 0 then s.refuse c p Nak.invalid
  else match s.remoteRange k rkey raddr 8 .atomic with
  | (.error e, s) => s.stopPacket c k p since tag rkey .atomic e
  | (.ok locs, s) =>
    match s.badFor k.part none locs with
    | (true, s) => s.refuse c p Nak.invalid
    | (false, s) =>
      let hosts := hostLocs locs
      if hosts.isEmpty then s.performAtomic c k p m tag aop a b locs else s.issueReads (.served p locs) k.vf tag hosts

/-- The host data of a request at the responder has come (R217). `stale` says that the device has written to the word of an ATOMIC since its read was
issued: it is read again, so that the operation is atomic against the device's own accesses. -/
def State.serve (s : State) (p : Packet) (locs : List (Loc × Nat)) (stale : Bool) : State :=
  let c := p.dstConn
  match s.conn? c with
  | none => s
  | some k => match p.ext with
    | .readReq .. => s.serveRead c k p locs
    | .atomic _ rkey aop a b =>
      if stale then s.issueReads (.served p locs) k.vf (rkey / 2 ^ 20) (hostLocs locs)
      else s.performAtomic c k p ((k.msg? p.msn).getD (newMsg p)) (rkey / 2 ^ 20) aop a b locs
    | _ => s

/-- Places a packet that the window takes, or one whose translation is tried again. Types that the commons takes are not placed here. -/
def State.placePkt (s : State) (c : Nat) (p : Packet) (since : Option Nat) : State :=
  match s.conn? c with
  | none => s
  | some k =>
    match (k.msg? p.msn).bind (·.refused) with
    | some code => s.refusedAgain c k p code
    | none =>
      match s.msgFor c k p with
      | (none, s) => s
      | (some m, s) =>
        match p.ext with
        | .write ra rk => s.placeWrite c k p m since ra rk
        | .send ssn _ => s.placeSend c k p m since ssn
        | .readReq ra rk n => if k.serves then s.placeRead c k p since ra rk n else s
        | .atomic ra rk aop a b => if k.serves then s.placeAtomic c k p m since ra rk aop a b else s
        | _ => s

/-- Takes a packet of a message that goes to an engine (CHUNK, COORD, a management SEND) into its open message: the message's bytes once they
are all here. -/
def State.takeMsgBytes (s : State) (c : Nat) (k : Conn) (p : Packet) : Option (List Byte) × State :=
  match s.msgFor c k p with
  | (none, s) => (none, s)
  | (some m, s) =>
    let data := (List.range p.payload.length).foldl (fun d i => Tbl.set d (p.msgOff + i) (p.payload.getD i 0)) m.data
    let m := { m with data := data }
    let whole := m.placed + p.payload.length == p.msgLen
    let s := s.placed c p m []
    (if whole then some ((List.range p.msgLen).map fun i => Tbl.getD data i 0) else none, s)

end Sys2Proof.Machine
end

