-- ==== Sys2Proof/Machine/BxtTx.lean ====
section
/-!
DEFINITION. The sending end of Brixver Transport: acknowledgement and the congestion window (R209, R216), NAKs (R219, R534), read and
atomic responses (R217, R218), retransmission and its outcomes (R213), closing (R211).
-/

namespace Sys2Proof.Machine

/-! ### The end of messages and operations at the requester (R209, R218) -/

/-- An operation all of whose messages have been sent and have ended completes with the first failure among them in MSN order, or OK (R218). -/
def State.finishMsgs (s : State) (id : Nat) : State :=
  match s.op? id with
  | none => s
  | some o =>
    if o.msgs.isEmpty ∧ !(o.opcode = 2 ∧ o.moved < o.length) then
      match o.failAt with
      | some (_, st, sub, remote) => (if remote then s.markRemote id sub else s).endOp id st sub
      | none => s.endOp id Status.ok 0
    else s

/-- A message of an operation has completed; its bytes count where it succeeded (R251). -/
def State.msgOk (s : State) (id msn len : Nat) : State :=
  (s.modOp id fun o => { o with msgs := o.msgs.filter (· != msn), bytes := o.bytes + len }).finishMsgs id

/-- Keeps the failure that stands first in MSN order. -/
def firstFail (o : Op) (msn st sub : Nat) (remote : Bool) : Op :=
  match o.failAt with
  | some (m, _, _, _) => if msnOlder msn m then { o with failAt := some (msn, st, sub, remote) } else o
  | none => { o with failAt := some (msn, st, sub, remote) }

/-- A message fails at the requester: nothing more of it is sent, and its operation takes the status (R219, R534 step 3). -/
def State.msgFail (s : State) (c msn st sub : Nat) (remote : Bool) : State :=
  match s.conn? c with
  | none => s
  | some k =>
    let op := (Tbl.get? k.outMsgs msn).bind (·.1)
    let s := s.setConn c { k with
      queue := k.queue.filter fun q => !(q.1.ext.inMessage && q.1.msn == msn)
      reads := k.reads.filter fun r => r.msn != msn
      openAtomics := k.openAtomics.filter fun a => some a.op != op
      outMsgs := Tbl.modify k.outMsgs msn fun q => (none, q.2) }
    match op with
    | some id => (s.modOp id fun o => firstFail { o with msgs := o.msgs.filter (· != msn) } msn st sub remote).finishMsgs id
    | none => s

/-- A CLOSING end of a RoCEv2 connection is FREE once its outstanding work has ended (R211, R227: it has no CLOSE). -/
def State.tryCloseRoce (s : State) (c : Nat) (k : Conn) : State :=
  if k.state = .closing ∧ ((s.opsOfConn c).filter fun id => (s.op? id).any (·.opcode != 6)).isEmpty then s.freeConn c (some Status.aborted)
  else s

/-- A CLOSING end sends CLOSE once its outstanding work has ended (R211). -/
def State.tryClose (s : State) (c : Nat) : State :=
  match s.conn? c with
  | none => s
  | some k =>
    if k.roce then s.tryCloseRoce c k
    else if k.state = .closing ∧ !k.closeSent ∧ k.queue.isEmpty ∧ (k.sent.filter fun x => x.waiting != 3).isEmpty ∧
        ((s.opsOfConn c).filter fun id => (s.op? id).any (·.opcode != 6)).isEmpty then
      let s := s.setConn c { k with closeSent := true }
      s.queuePkts c [s.mkPkt k (.ctrl 4 0 k.svc (if 2 ≤ k.svc then k.group else 0) 0) 7 0 0 0 0 []] none
    else s

/-! ### ACK (R209, R216) -/

/-- Whether an ACK covers a PSN (R205). -/
def ackCovers (cum sp sm psn : Nat) : Bool := serialOlder 32 psn cum || (decide (cdiff psn sp < 64) && bitAt sm (cdiff psn sp))

/-- The weight of an ACK's CE marks: `alpha` moves towards c/k by one part in 2^g (R216), in units of 2^-32. -/
def alphaStep (alpha x g : Nat) : Nat := if alpha ≤ x then alpha + (x - alpha) / 2 ^ g else alpha - (alpha - x) / 2 ^ g

/-- Keeps a window in its range (R216). -/
def clampCwnd (mtu w : Nat) : Nat := max mtu (min w (min (2 ^ 24) (8192 * mtu)))

/-- The update of R216 on an ACK that newly acknowledges `n` packets of `bytes` payload bytes. `x` is c/k in units of 2^-32. -/
def ackWindow (k : Conn) (now rtt slackUs g x ce bytes : Nat) : Conn :=
  let rtts := (k.rtts.filter fun r => decide (now ≤ r.1 + 10 * ms)) ++ [(now, rtt)]
  let base := rtts.foldl (fun b r => min b r.2) rtt
  let srtt := match k.srtt with
    | none => rtt
    | some v => if v ≤ rtt then v + (rtt - v) / 8 else v - (v - rtt) / 8
  let alpha := alphaStep k.alpha x g
  let k := { k with rtts := rtts, srtt := some srtt, alpha := alpha }
  if 0 < ce ∧ srtt < now - k.lastCut then
    { k with cwnd := clampCwnd k.mtu (k.cwnd - k.cwnd * alpha / 2 ^ 33), lastCut := now }
  else if base + slackUs * us < rtt ∧ srtt < now - k.lastCut then
    { k with cwnd := clampCwnd k.mtu (k.cwnd * 7 / 8), lastCut := now }
  else { k with cwnd := clampCwnd k.mtu (k.cwnd + k.mtu * bytes / max 1 k.cwnd) }

/-- The highest-PSN packet of each message that has not ended stays to ask again (R534 step 6); every other covered packet leaves. -/
def keepTail (k : Conn) (doneMsn : Nat) (cov : Nat → Bool) : List Sent :=
  k.sent.filterMap fun x =>
    if !cov x.pkt.psn then some x
    else if x.pkt.ext.inMessage && (Tbl.get? k.outMsgs x.pkt.msn).isSome && serialOlder 32 doneMsn x.pkt.msn
        && !k.sent.any (fun y => y.pkt.ext.inMessage && y.pkt.msn == x.pkt.msn && serialOlder 32 x.pkt.psn y.pkt.psn)
        && !k.queue.any (fun q => q.1.ext.inMessage && q.1.msn == x.pkt.msn) then
      some { x with waiting := 3 }
    else none

/-- Messages that `done_msn` covers have ended: WRITE, SEND and CHUNK complete OK (R209), and what a READ that was wound down had sent is over
(R255, R262). -/
def State.coverMsgs (s : State) (c doneMsn : Nat) : State :=
  match s.conn? c with
  | none => s
  | some k =>
    let ends := fun (m : Nat) => msgBegun m && !serialOlder 32 doneMsn m
    let cov := k.outMsgs.filter fun q => ends q.1
    let s := s.setConn c { k with
      outMsgs := Tbl.keep k.outMsgs fun m _ => !ends m
      refusedMsn := Tbl.keep k.refusedMsn fun m _ => serialOlder 32 doneMsn m
      sent := k.sent.filter fun x => !(x.waiting == 3 && !serialOlder 32 doneMsn x.pkt.msn) }
    cov.foldl (fun s q => match q.2.1 with
      | some id => match s.op? id with
        | some o => if o.opcode = 2 ∨ o.opcode = 4 ∨ (o.opcode = 3 ∧ o.phase = .ending) then s.msgOk id q.1 q.2.2 else s
        | none => s
      | none => s) s

/-- An ACK's RTT counts for each port by which a packet it newly acknowledges left (R305). -/
def State.noteRtt (s : State) (news : List Sent) (rtt : Nat) : State :=
  ((List.range 64).filter fun j => news.any fun x => x.port == j).foldl (fun s j =>
    s.modLport j fun l => { l with wxRtt := l.wxRtt + rtt, wxAcks := l.wxAcks + 1 }) s

/-- An ACK on a connection (R209, R216). -/
def State.onAck (s : State) (c : Nat) (k : Conn) (p : Packet) (cum sp sm ce ts : Nat) : State :=
  let cov := ackCovers cum sp sm
  let news := k.sent.filter fun x => cov x.pkt.psn && x.waiting != 3
  let bytes := sumNat (news.map fun x => x.pkt.payload.length)
  let (free, s) := if news.isEmpty then s.drawBelow (2 ^ 32 + 1) else (0, s)
  let x := if news.isEmpty then free else ce * 2 ^ 32 / news.length
  let rtt := (s.now % 2 ^ 32 + 2 ^ 32 - ts % 2 ^ 32) % 2 ^ 32
  let k := ackWindow k s.now rtt (s.rd F.BXT_CC_rtt_slack_us) (s.rd F.BXT_CC_g_shift) x ce bytes
  let s := (s.setConn c { k with sent := keepTail k p.msn cov }).noteRtt news rtt
  let s := s.coverMsgs c p.msn
  (s.pump c (((s.conn? c).map fun k => k.queue.length).getD 0)).tryClose c

/-! ### NAK (R219, R534) -/

/-- The status that a terminal NAK gives its message (R219). -/
def nakStatus (code : Nat) : Nat :=
  if code = 6 then Status.lengthExceeded else if code = 8 then Status.translationFault else Status.accessRemote

/-- A sent packet by its PSN. -/
def Conn.sent? (k : Conn) (psn : Nat) : Option Sent := k.sent.find? fun x => x.pkt.psn == psn

/-- Records a cause of R273 on the operation that sent a packet. -/
def State.causeOf (s : State) (x : Sent) (cause : Nat) : State :=
  match x.op with
  | some id => s.recordCause id cause
  | none => s

/-- NOT_READY (R219): the packet waits out its delay, or after `nr_limit` re-sends its message completes NOT_READY_EXHAUSTED. -/
def State.onNotReady (s : State) (c : Nat) (k : Conn) (psn reason : Nat) : State :=
  let s := s.bump F.BXT_NR_RCVD
  let reason := if 4 < reason then 0 else reason
  match k.sent? psn with
  | none => s
  | some x =>
    if x.waiting = 1 then s
    else if s.rd F.BXT_TIMER_nr_limit ≤ x.nrTries then
      (s.setConn c { k with sent := k.sent.filter fun y => y.pkt.psn != psn }).msgFail c x.pkt.msn Status.notReadyExhausted reason true
    else (s.setConn c (k.modSent psn fun x => { x with waiting := 1, timer := false, nrReason := reason })).causeOf x 4

/-- A terminal NAK (R534 steps 3 and 4): its PSN counts as acknowledged; the first for a message completes it and sends REFUSAL_SEEN. -/
def State.onTerminal (s : State) (c : Nat) (k : Conn) (p : Packet) (code psn : Nat) : State :=
  let k := { k with sent := k.sent.filter fun y => y.pkt.psn != psn }
  let s := s.setConn c k
  if (Tbl.get? k.outMsgs p.msn).isNone ∨ (Tbl.get? k.refusedMsn p.msn).isSome then s
  else
    let s := s.setConn c { k with refusedMsn := Tbl.set k.refusedMsn p.msn code }
    let s := s.msgFail c p.msn (nakStatus code) code true
    match s.conn? c with
    | some k => s.queuePkts c [s.mkPkt k (.ctrl 6 0 k.svc (if 2 ≤ k.svc then k.group else 0) p.msn) 7 0 0 0 0 []] none
    | none => s

/-- A NAK of codes 1 to 6 and 8 on a connection (R219). -/
def State.onNak (s : State) (c : Nat) (k : Conn) (p : Packet) (code reason psn respEpoch : Nat) : State :=
  let s :=
    if code = Nak.notReady then s.onNotReady c k psn reason
    else if code = Nak.held then
      let s := s.setConn c (k.modSent psn fun x => if x.waiting = 3 then x else { x with waiting := 2, timer := false })
      (match k.sent? psn with | some x => s.causeOf x 4 | none => s)
    else if code = Nak.staleEpoch then
      (if serialOlder 16 k.epoch respEpoch then s.errorEnd c Status.staleEpoch code else s)
    else if code = 3 ∨ code = 5 ∨ code = 6 ∨ code = 8 then s.onTerminal c k p code psn
    else s
  s.tryClose c

/-! ### Responses (R217, R218) -/

/-- A local stop at the requester of a response that is being placed (R218, R339, R323). -/
def State.stopResp (s : State) (c : Nat) (p : Packet) (r : OpenRead) (o : Op) (since : Option Nat) : Stop → State
  | .absent va level =>
    let s := s.raiseFault (localRec o.part o.vf o.tag va XReason.notPresent level .write)
    let h : Hold := ⟨o.tag, va, .write, false, .packet p, since.getD s.now, none⟩
    ({ s with xlt := { s.xlt with holds := s.xlt.holds ++ [h] } }).recordCause r.op 5
  | .viol va reason level =>
    (s.raiseViolation (localRec o.part o.vf o.tag va reason level .write)).msgFail c r.msn Status.accessLocal 0 false
  | .detached _ => s.msgFail c r.msn Status.detached 0 false
  | .lost _ => s.killOp r.op Status.targetLost 0

/-- Whether every piece of a read segment has been placed. -/
def readWhole (mtu len : Nat) (got : List Nat) : Bool := decide (ceilDiv len mtu ≤ got.length)

/-- A READ_RESP (R218): placed once for each piece of its open read; others are discarded. -/
def State.onReadResp (s : State) (c : Nat) (p : Packet) (reqPsn : Nat) (since : Option Nat) : State :=
  match s.conn? c with
  | none => s
  | some k =>
    match k.reads.find? fun r => r.psn == reqPsn with
    | none => s
    | some r =>
      match s.op? r.op with
      | none => s
      | some o =>
        if p.msgOff % k.mtu ≠ 0 ∨ r.len < p.msgOff + p.payload.length ∨ r.got.contains p.msgOff then s
        else match s.lookupRange o.part o.vf o.tag (r.laddr + p.msgOff) p.payload.length .write with
        | (.error e, s) => s.stopResp c p r o since e
        | (.ok locs, s) =>
          let s := (s.writeLocs o.vf o.tag (some r.op) locs p.payload).modOp r.op fun o =>
            { o with wrote := lastWrites locs o.wrote, bytes := o.bytes + p.payload.length }
          let got := p.msgOff :: r.got
          if readWhole k.mtu r.len got then
            ((s.modConn c fun k => { k with reads := k.reads.filter fun x => x.msn != r.msn }).msgOk r.op r.msn 0).tryClose c
          else s.modConn c fun k => { k with reads := k.reads.map fun x => if x.psn == reqPsn then { x with got := got } else x }

/-- An ATOMIC_RESP (R217): its result completes the atomic. -/
def State.onAtomicResp (s : State) (c : Nat) (k : Conn) (psn result : Nat) : State :=
  match k.openAtomics.find? fun a => a.psn == psn with
  | none => s
  | some a =>
    let s := s.setConn c { k with openAtomics := k.openAtomics.filter fun b => b.psn != psn }
    let s := s.modOp a.op fun o => { o with msgs := [], cqe := { o.cqe with performed := true, result := leBytes 8 result } }
    (s.finishMsgs a.op).tryClose c

/-! ### Timers (R213) -/

/-- Sends a sent packet again: a fresh counter, maybe another path, `retx` set (R212, R213). -/
def State.resend (s : State) (c : Nat) (k : Conn) (x : Sent) (ackReq : Bool) : State :=
  let p := { x.pkt with retx := true, ackReq := ackReq }
  let s := s.setConn c (k.modSent p.psn fun x => { x with timer := false, waiting := if x.waiting = 3 then 3 else 0 })
  match s.sendPkt c k p true x.op with
  | (true, s) => s
  | (false, s) => match x.op with
    | some id => s.endOp id Status.keyExhausted 0
    | none => s

/-- The cut of R216 on a retransmit timer's expiry. -/
def timeoutWindow (k : Conn) (now : Nat) : Conn :=
  if (k.srtt.getD (10 * us)) < now - k.lastCut then { k with cwnd := clampCwnd k.mtu (max k.mtu (k.cwnd / 2)), lastCut := now } else k

/-- Every connection to a silent peer moves to ERROR, PEER_LOST (R213). Answers the connections it took there. -/
def State.peerLost (s : State) (dev : Nat) : List Nat × State :=
  let cs := (s.bxt.conns.filter fun q => q.2.peerDev == dev && q.2.state != .error).map Prod.fst
  (cs, cs.foldl (fun s c => s.errorConn c Status.peerLost) (s.bump F.BXT_PEER_LOST))

/-- Whether the peer device has been heard from since a moment (R213). -/
def State.heardSince (s : State) (dev t : Nat) : Bool := (Tbl.get? s.bxt.heard dev).any fun h => decide (t ≤ h)

/-- Whether an acknowledged last packet of a message has nothing to ask yet: other sent PSNs of the message are not acknowledged
(R534 step 6). -/
def Conn.asksLater (k : Conn) (x : Sent) : Bool :=
  x.waiting == 3 && k.sent.any fun y => y.waiting != 3 && y.pkt.ext.inMessage && y.pkt.msn == x.pkt.msn

/-- The retransmit timer of a PSN expires (R213): sent again, or the connection fails. Answers the connections that moved to ERROR. -/
def State.retransmit (s : State) (c psn : Nat) : List Nat × State :=
  match s.conn? c with
  | none => ([], s)
  | some k =>
    match k.sent? psn with
    | none => ([], s)
    | some x =>
      if !x.timer ∨ x.waiting = 1 ∨ x.waiting = 2 ∨ k.asksLater x then ([], s)
      else
        let k := timeoutWindow k s.now
        let s := s.setConn c k
        if x.tries < k.retryLimit then
          let k := k.modSent psn fun x => { x with tries := x.tries + 1 }
          let s := match x.op with
            | some id => if 1 ≤ x.tries then s.recordCause id 1 else s
            | none => s
          ([], (((s.setConn c k).bump F.BXT_RETX).evt 2).resend c k x (x.waiting == 3))
        else if s.heardSince k.peerDev x.since then ([c], s.errorConn c Status.retryExhausted)
        else s.peerLost k.peerDev

/-- The delay of a NOT_READY or HELD NAK ends (R219): the packet goes again, or its timer resumes. -/
def State.nakDelayOver (s : State) (c psn : Nat) : State :=
  match s.conn? c with
  | none => s
  | some k =>
    match k.sent? psn with
    | none => s
    | some x =>
      if x.waiting = 1 then
        let k := k.modSent psn fun x => { x with nrTries := x.nrTries + 1, waiting := 0 }
        (s.setConn c k).resend c k x false
      else if x.waiting = 2 then s.setConn c (k.modSent psn fun x => { x with waiting := 0, timer := true })
      else s

/-- A read's timer expires: the request goes again from the first missing byte, as a message of its own (R218). -/
def State.readAgain (s : State) (c msn : Nat) : State :=
  match s.conn? c with
  | none => s
  | some k =>
    match k.reads.find? fun r => r.msn == msn with
    | none => s
    | some r =>
      let first := (firstBelow (ceilDiv r.len k.mtu) fun i => !r.got.contains (i * k.mtu)).getD 0 * k.mtu
      let n := k.nextForm
      let q := { s.mkPkt k (.readReq r.raddr r.rkey (r.len - first)) (((s.op? r.op).map (·.cls)).getD 7) 0 n r.len first [] with retx := true }
      let s := s.setConn c { k with
        nextForm := n + 1, outMsgs := Tbl.set k.outMsgs n (some r.op, 0)
        reads := k.reads.map fun x => if x.msn == msn then { x with msn := n } else x }
      let s := s.modOp r.op fun o => { o with msgs := o.msgs.map fun m => if m == msn then n else m }
      s.queuePkts c [q] (some r.op)

/-- Moves an ARMED end to OPEN and sends what waited for it (R211). -/
def State.openConn (s : State) (c : Nat) : State :=
  match s.conn? c with
  | some k => if k.state = .armed then ((s.setConn c { k with state := .open_ }).settlePort c).pump c k.queue.length else s
  | none => s

end Sys2Proof.Machine
end

