-- ==== Sys2Proof/Machine/Formats.lean ====
section
/-!
DEFINITION. Number formats (03_number_formats.md): exact values, decoding, the two rounding modes, overflow, MX blocks, the exact arithmetic
that the tally units and the mill round from.
-/

namespace Sys2Proof.Machine

/-! ### Exact values (R70 step 1) -/

/-- +0. -/
abbrev Val.zero : Val := .num false 0 0

/-- An integer as an exact value. -/
def Val.ofInt (i : Int) : Val := .num (decide (i < 0)) i.natAbs 0

/-- Whether a value is NaN, an infinity, a zero. -/
def Val.isNan : Val → Bool
  | .nan => true
  | _ => false
def Val.isInf : Val → Bool
  | .inf _ => true
  | _ => false
def Val.isZero : Val → Bool
  | .num _ m _ => m == 0
  | _ => false

/-- The sign of a value. -/
def Val.neg? : Val → Bool
  | .num s _ _ => s
  | .inf s => s
  | .nan => false

/-- floor(log2 |v|) of a finite value that is not zero. -/
def Val.log2? : Val → Option Int
  | .num _ m e => if m = 0 then none else some (Nat.log2 m + e)
  | _ => none

/-- A signed numerator at an exponent no greater than the value's own. -/
def Val.at? (v : Val) (e0 : Int) : Int :=
  match v with
  | .num s m e => (if s then -1 else 1) * ((m * 2 ^ (e - e0).toNat : Nat) : Int)
  | _ => 0

/-- The exponent of a finite value. -/
def Val.expo : Val → Int
  | .num _ _ e => e
  | _ => 0

/-! ### Formats (R62, R63) -/

/-- A floating-point format: exponent and fraction bits, bias, and its specials: 0 infinities and NaN, 1 the one NaN of FP8-E4M3, 2 none. -/
structure FpFmt where
  ebits : Nat
  mbits : Nat
  bias : Nat
  kind : Nat
  deriving DecidableEq, Repr

abbrev fp64 : FpFmt := ⟨11, 52, 1023, 0⟩
abbrev fp32 : FpFmt := ⟨8, 23, 127, 0⟩
abbrev fp16 : FpFmt := ⟨5, 10, 15, 0⟩
abbrev bf16 : FpFmt := ⟨8, 7, 127, 0⟩
abbrev e4m3 : FpFmt := ⟨4, 3, 7, 1⟩
abbrev e5m2 : FpFmt := ⟨5, 2, 15, 0⟩
abbrev e3m2 : FpFmt := ⟨3, 2, 3, 2⟩
abbrev e2m3 : FpFmt := ⟨2, 3, 1, 2⟩
abbrev e2m1 : FpFmt := ⟨2, 1, 1, 2⟩

/-- The bits of an element. -/
def FpFmt.width (f : FpFmt) : Nat := 1 + f.ebits + f.mbits

/-- The exponent of the last place of the subnormals. -/
def FpFmt.emin (f : FpFmt) : Int := 1 - f.bias - f.mbits

/-- A scalar element format: floating point or two's complement. -/
inductive ElFmt where
  | fp (f : FpFmt)
  | int (bits : Nat)
  deriving DecidableEq, Repr

/-- The scalar transfer formats 0x00-0x08, 0x0D-0x0F (R62, R63). -/
def elFmt : Nat → Option ElFmt
  | 0 => some (.fp fp64) | 1 => some (.fp fp32) | 2 => some (.fp fp16) | 3 => some (.fp bf16) | 4 => some (.fp e4m3)
  | 5 => some (.fp e5m2) | 6 => some (.fp e3m2) | 7 => some (.fp e2m3) | 8 => some (.fp e2m1) | 13 => some (.int 32)
  | 14 => some (.int 8) | 15 => some (.int 4) | _ => none

/-- Whether a code is an MX format (R66), an integer format (R63), a floating-point format. -/
def isMx (c : Nat) : Bool := decide (9 ≤ c) && decide (c ≤ 12)
def isInt (c : Nat) : Bool := decide (13 ≤ c) && decide (c ≤ 15)

/-- The element format of an MX format and its `kind` (R66). MXINT8 is INT8 times 2^-6. -/
def mxEl (c kind : Nat) : ElFmt :=
  match c, kind with
  | 9, 0 => .fp e4m3
  | 9, _ => .fp e5m2
  | 10, 0 => .fp e3m2
  | 10, _ => .fp e2m3
  | 11, _ => .fp e2m1
  | _, _ => .int 8

/-- The bits of an element format. -/
def ElFmt.width : ElFmt → Nat
  | .fp f => f.width
  | .int b => b

/-- The bits of one element of a transfer format, its scale apart. -/
def fmtWidth (c kind : Nat) : Nat :=
  if isMx c then (mxEl c kind).width else match elFmt c with
    | some f => f.width
    | none => 8

/-- The packing unit of a format (R61, R65, R66). -/
def packUnit (c : Nat) : Nat :=
  if isMx c then 32 else if c = 6 ∨ c = 7 then 4 else if c = 8 ∨ c = 15 then 2 else 1

/-- Bytes of `n` elements without their scales, bytes of their scales, and bytes interleaved (R65, R67). -/
def elemBytes (c n : Nat) : Nat := ceilDiv (n * fmtWidth c 0) 8
def scaleBytes (c n : Nat) : Nat := if isMx c then ceilDiv n 32 else 0
def wireBytes (c n : Nat) : Nat := elemBytes c n + scaleBytes c n

/-! ### Decoding (R62, R63, R64) -/

/-- Decodes a floating-point element. -/
def FpFmt.decode (f : FpFmt) (x : Nat) : Val :=
  let s := bitsOf x (f.ebits + f.mbits) 1 == 1
  let ex := bitsOf x f.mbits f.ebits
  let fr := bitsOf x 0 f.mbits
  if f.kind = 0 ∧ ex = 2 ^ f.ebits - 1 then (if fr = 0 then .inf s else .nan)
  else if f.kind = 1 ∧ ex = 2 ^ f.ebits - 1 ∧ fr = 2 ^ f.mbits - 1 then .nan
  else if ex = 0 then .num s fr f.emin
  else .num s (2 ^ f.mbits + fr) (f.emin + ex - 1)

/-- A two's-complement number of `b` bits. -/
def signed (b x : Nat) : Int := if x % 2 ^ b < 2 ^ (b - 1) then (x % 2 ^ b : Nat) else ((x % 2 ^ b : Nat) : Int) - (2 ^ b : Nat)

/-- Decodes an element. -/
def ElFmt.decode : ElFmt → Nat → Val
  | .fp f, x => f.decode x
  | .int b, x => .ofInt (signed b x)

/-! ### Rounding (R74, R75) -/

/-- A rounding: to nearest even, or stochastic with a 16-bit random number. -/
abbrev Rnd := Option Nat

/-- The magnitude m * 2^e in units of 2^u, rounded. -/
def roundAt (r : Rnd) (m : Nat) (e u : Int) : Nat :=
  if u ≤ e then m * 2 ^ (e - u).toNat
  else
    let k := (u - e).toNat
    let q := m / 2 ^ k
    let left := m % 2 ^ k
    match r with
    | none => if 2 ^ k < 2 * left ∨ (2 * left = 2 ^ k ∧ q % 2 = 1) then q + 1 else q
    | some d => if d < left * 65536 / 2 ^ k then q + 1 else q

/-- What writing an element did (R73): wrote NaN, wrote an infinity, saturated or wrote NaN as zero. -/
structure Wrote where
  nan : Bool
  inf : Bool
  lost : Bool
  deriving DecidableEq, Repr

/-- An ordinary write. -/
abbrev Wrote.plain : Wrote := ⟨false, false, false⟩

/-- The code of the largest finite magnitude, of the canonical NaN, of infinity (R62, R64). -/
def FpFmt.maxCode (f : FpFmt) : Nat :=
  if f.kind = 0 then (2 ^ f.ebits - 1) * 2 ^ f.mbits - 1 else if f.kind = 1 then 2 ^ (f.ebits + f.mbits) - 2 else 2 ^ (f.ebits + f.mbits) - 1
def FpFmt.nanCode (f : FpFmt) : Nat := if f.kind = 1 then 2 ^ (f.ebits + f.mbits) - 1 else (2 ^ f.ebits - 1) * 2 ^ f.mbits + 2 ^ (f.mbits - 1)
def FpFmt.infCode (f : FpFmt) : Nat := (2 ^ f.ebits - 1) * 2 ^ f.mbits

/-- The code of a magnitude that does not overflow: `q` units of 2^u. -/
def FpFmt.pack (f : FpFmt) (q : Nat) (u : Int) : Nat :=
  if q < 2 ^ f.mbits then q else (u - f.emin).toNat * 2 ^ f.mbits + q

/-- Encodes an exact value in a floating-point format (R70, R71). -/
def FpFmt.encode (f : FpFmt) (sat : Bool) (r : Rnd) (v : Val) : Nat × Wrote :=
  let sg := fun (s : Bool) => if s then 2 ^ (f.ebits + f.mbits) else 0
  let big := fun (s : Bool) => (sg s + f.maxCode, (⟨false, false, true⟩ : Wrote))
  match v with
  | .nan => if f.kind = 2 then (0, ⟨false, false, true⟩) else (f.nanCode, ⟨true, false, false⟩)
  | .inf s =>
    if f.kind = 0 then (sg s + f.infCode, ⟨false, true, false⟩)
    else if f.kind = 1 ∧ !sat then (f.nanCode, ⟨true, false, false⟩)
    else big s
  | .num s m e =>
    if m = 0 then (sg s, .plain)
    else
      let u := max (Nat.log2 m + e - f.mbits) f.emin
      let code := f.pack (roundAt r m e u) u
      if f.maxCode < code then
        if f.kind = 2 ∨ sat then big s
        else if f.kind = 1 then (f.nanCode, ⟨true, false, false⟩)
        else (sg s + f.infCode, ⟨false, true, false⟩)
      else (sg s + code, .plain)

/-- Encodes an exact value in two's complement (R72, R71). -/
def encodeInt (b : Nat) (r : Rnd) (v : Val) : Nat × Wrote :=
  let lost : Wrote := ⟨false, false, true⟩
  match v with
  | .nan => (0, lost)
  | .inf s => (if s then 2 ^ (b - 1) else 2 ^ (b - 1) - 1, lost)
  | .num s m e =>
    let q := roundAt r m e 0
    if s then (if 2 ^ (b - 1) < q then (2 ^ (b - 1), lost) else ((2 ^ b - q) % 2 ^ b, .plain))
    else if 2 ^ (b - 1) - 1 < q then (2 ^ (b - 1) - 1, lost) else (q, .plain)

/-- Encodes an element. -/
def ElFmt.encode (f : ElFmt) (sat : Bool) (r : Rnd) (v : Val) : Nat × Wrote :=
  match f with
  | .fp f => f.encode sat r v
  | .int b => encodeInt b r v

/-! ### Packing (R65) -/

/-- The `i`-th element of `w` bits in a packed run of bytes. -/
def unpack1 (w i : Nat) (d : List Byte) : Nat := fieldLE d (w * i / 8) ((w + 14) / 8) / 2 ^ (w * i % 8) % 2 ^ w

/-- Packs elements of `w` bits, the first lowest. -/
def packCodes (w : Nat) (l : List Nat) : List Byte := leBytes (ceilDiv (w * l.length) 8) (l.foldr (fun c n => c % 2 ^ w + 2 ^ w * n) 0)

/-! ### MX blocks (R66-R69) -/

/-- 2^k times a value. -/
def Val.scale (v : Val) (k : Int) : Val :=
  match v with
  | .num s m e => .num s m (e + k)
  | v => v

/-- Decodes an element of an MX block under its scale byte (R68). -/
def mxDecode (c kind scale x : Nat) : Val :=
  if scale = 255 then .nan else ((mxEl c kind).decode x).scale ((scale : Int) - 127 - (if c = 12 then 6 else 0))

/-- emax of R69 step 3. -/
def mxEmax (c kind : Nat) : Int :=
  match c, kind with
  | 9, 0 => 8
  | 9, _ => 15
  | 10, 0 => 4
  | 10, _ => 2
  | 11, _ => 2
  | _, _ => 0

/-- Encodes a block of values (R69, R86): the scale byte, the element codes, what each write did. `r i` is the rounding of element i. -/
def mxEncode (c kind : Nat) (r : Nat → Rnd) (vs : List Val) : Nat × List (Nat × Wrote) :=
  if vs.any fun v => v.isNan || v.isInf then (255, vs.map fun _ => (0, ⟨true, false, false⟩))
  else
    match (vs.filterMap Val.log2?).max? with
    | none => (0, vs.map fun _ => (0, .plain))
    | some l =>
      let x := max (-127) (min 127 (l - mxEmax c kind))
      ((x + 127).toNat, vs.mapIdx fun i v => (mxEl c kind).encode true (r i) (v.scale ((if c = 12 then 6 else 0) - x)))

/-! ### Whole runs of elements -/

/-- Decodes `n` elements of a transfer format from their wire form (MX blocks interleaved, R67, R95). -/
def decodeRun (c kind n : Nat) (d : List Byte) : List Val :=
  if isMx c then
    let w := (mxEl c kind).width
    let blk := 1 + 4 * w
    (List.range n).map fun i => mxDecode c kind (fieldLE d (i / 32 * blk) 1) (unpack1 w (i % 32) (slice d (i / 32 * blk + 1) (4 * w)))
  else match elFmt c with
    | some f => (List.range n).map fun i => f.decode (unpack1 f.width i d)
    | none => List.replicate n .nan

/-- Cuts a list into pieces of 32. -/
def blocks32 {α : Type} (l : List α) : List (List α) := (List.range (ceilDiv l.length 32)).map fun k => (l.drop (32 * k)).take 32

/-- Encodes values in a transfer format's wire form, and says what each write did. -/
def encodeRun (c kind : Nat) (sat : Bool) (r : Nat → Rnd) (vs : List Val) : List Byte × List Wrote :=
  if isMx c then
    let w := (mxEl c kind).width
    let bs := (blocks32 vs).mapIdx fun k b => mxEncode c kind (fun i => r (32 * k + i)) b
    ((bs.map fun b => leBytes 1 b.1 ++ packCodes w (b.2.map Prod.fst)).flatten, (bs.map fun b => b.2.map Prod.snd).flatten)
  else match elFmt c with
    | some f =>
      let es := vs.mapIdx fun i v => f.encode sat (r i) v
      (packCodes f.width (es.map Prod.fst), es.map Prod.snd)
    | none => ([], [])

/-- Joins split elements and scales into the interleaved wire form (R67). -/
def joinMx (c : Nat) (el sc : List Byte) : List Byte :=
  let b := elemBytes c 32
  (sc.mapIdx fun k x => x :: slice el (k * b) b).flatten

/-- Splits the interleaved wire form into elements and scales (R67). -/
def splitMx (c : Nat) (d : List Byte) : List Byte × List Byte :=
  let b := 1 + elemBytes c 32
  let ks := List.range (d.length / b)
  ((ks.map fun k => slice d (k * b + 1) (b - 1)).flatten, ks.map fun k => d.getD (k * b) 0)

/-- Whether an element's write is one that `special` reports (R73): `hadNan` and `hadInf` say what its input held. -/
def Wrote.special (w : Wrote) (hadNan hadInf : Bool) : Bool := w.lost || (w.nan && !hadNan) || (w.inf && !hadInf)

/-! ### Exact arithmetic -/

/-- The exact sum; a sum of opposite numbers is +0, as is a sum of zeros of different sign (IEEE 754, round to nearest). -/
def Val.add (a b : Val) : Val :=
  match a, b with
  | .nan, _ => .nan
  | _, .nan => .nan
  | .inf s, .inf t => if s = t then .inf s else .nan
  | .inf s, _ => .inf s
  | _, .inf s => .inf s
  | .num s m e, .num t n f =>
    if m = 0 ∧ n = 0 then .num (s && t) 0 0
    else
      let g := min e f
      let x := (Val.num s m e).at? g + (Val.num t n f).at? g
      .num (decide (x < 0)) x.natAbs g

/-- The value with its sign turned. -/
def Val.negate : Val → Val
  | .num s m e => .num (!s) m e
  | .inf s => .inf (!s)
  | .nan => .nan

/-- The exact product. -/
def Val.mul (a b : Val) : Val :=
  match a, b with
  | .nan, _ => .nan
  | _, .nan => .nan
  | .inf s, .inf t => .inf (s != t)
  | .inf s, .num t n _ => if n = 0 then .nan else .inf (s != t)
  | .num s m _, .inf t => if m = 0 then .nan else .inf (s != t)
  | .num s m e, .num t n f => .num (s != t) (m * n) (e + f)

/-- A quotient, exact or with a last bit that stands for what is left, so that it rounds as the exact one does. -/
def Val.div (a b : Val) : Val :=
  match a, b with
  | .nan, _ => .nan
  | _, .nan => .nan
  | .inf _, .inf _ => .nan
  | .inf s, .num t _ _ => .inf (s != t)
  | .num s _ _, .inf t => .num (s != t) 0 0
  | .num s m e, .num t n f =>
    if n = 0 then (if m = 0 then .nan else .inf (s != t))
    else
      let k := 100 + Nat.log2 n
      let q := m * 2 ^ k / n
      .num (s != t) (2 * q + (if m * 2 ^ k % n = 0 then 0 else 1)) (e - f - k - 1)

/-- The integer square root, bit by bit. -/
def isqrtGo (n : Nat) : Nat → Nat → Nat
  | 0, r => r
  | k + 1, r => isqrtGo n k (if (r + 2 ^ k) * (r + 2 ^ k) ≤ n then r + 2 ^ k else r)
def isqrt (n : Nat) : Nat := isqrtGo n (Nat.log2 n / 2 + 1) 0

/-- A square root, with the same last bit; -0 gives -0, a negative number NaN (R158). -/
def Val.sqrt (a : Val) : Val :=
  match a with
  | .nan => .nan
  | .inf s => if s then .nan else .inf false
  | .num s m e =>
    if m = 0 then .num s 0 0
    else if s then .nan
    else
      let odd := e % 2 = 1
      let m := (if odd then 2 * m else m) * 2 ^ 200
      let r := isqrt m
      .num false (2 * r + (if r * r = m then 0 else 1)) ((if odd then e - 1 else e) / 2 - 101)

/-- A reciprocal square root, with the same last bit (R158). -/
def Val.rsqrt (a : Val) : Val :=
  match a with
  | .nan => .nan
  | .inf s => if s then .nan else .num false 0 0
  | .num s m e =>
    if m = 0 then .inf false
    else if s then .nan
    else
      let odd := e % 2 = 1
      let m := if odd then 2 * m else m
      let e := if odd then e - 1 else e
      let k := 200 + Nat.log2 m
      let r := isqrt (2 ^ (2 * k) / m)
      .num false (2 * r + (if r * r * m = 2 ^ (2 * k) then 0 else 1)) (-(e / 2) - k - 1)

/-- Whether a <= b, with -0 below +0; false where one is NaN. -/
def Val.le (a b : Val) : Bool :=
  match a, b with
  | .nan, _ => false
  | _, .nan => false
  | .inf s, .inf t => s || !t
  | .inf s, _ => s
  | _, .inf t => !t
  | .num s m e, .num t n f =>
    let g := min e f
    let x := (Val.num s m e).at? g
    let y := (Val.num t n f).at? g
    decide (x < y) || (decide (x = y) && (m != 0 || s || !t))

/-- The greater and the lesser value (R90, R158): NaN if either is NaN, +0 greater than -0. -/
def Val.max (a b : Val) : Val := if a.isNan || b.isNan then .nan else if a.le b then b else a
def Val.min (a b : Val) : Val := if a.isNan || b.isNan then .nan else if a.le b then a else b

/-- A value rounded to nearest even in a floating-point format, overflow to infinity (R81, R91, R161). -/
def FpFmt.round (f : FpFmt) (v : Val) : Val := f.decode (f.encode false none v).1

end Sys2Proof.Machine
end

