-- ==== Sys2Proof/Machine/MillOps.lean ====
section
/-!
DEFINITION. The recipe machine of the mill (06_mill_optimizer.md): steps and recipes (R155-R160, R170-R174), the lanes of a block (R158, R161,
R162), the keyed generator (R77), norms (R163, R164), the scalar table (R165), descriptors (R152).
-/

namespace Sys2Proof.Machine

/-! ### Steps (R157) -/

/-- The fields of a recipe step. -/
structure RStep where
  op : Nat
  dst : Nat
  a : Nat
  b : Nat
  c : Nat
  cfmt : Nat
  cside : Nat
  crnd : Nat
  csat : Nat
  cond : Nat
  acc : Nat
  scope : Nat
  resv : Nat
  deriving DecidableEq, Repr

/-- Reads a step's 64 bits. -/
def rstep (w : Nat) : RStep :=
  { op := bitsOf w 58 6, dst := bitsOf w 52 6, a := bitsOf w 46 6, b := bitsOf w 40 6, c := bitsOf w 34 6, cfmt := bitsOf w 29 5,
    cside := bitsOf w 26 3, crnd := bitsOf w 24 2, csat := bitsOf w 22 2, cond := bitsOf w 19 3, acc := bitsOf w 17 2, scope := bitsOf w 16 1,
    resv := bitsOf w 0 16 }

/-- Sources an opcode reads (R158). -/
def RStep.nsrc (s : RStep) : Nat :=
  if s.op = 4 ∨ s.op = 0x0C ∨ s.op = 0x0D then 3
  else if s.op = 1 ∨ s.op = 2 ∨ s.op = 3 ∨ s.op = 5 ∨ s.op = 8 ∨ s.op = 9 then 2
  else if s.op = 0x10 then 0 else 1

/-- The sources a step uses. -/
def RStep.srcs (s : RStep) : List Nat := [s.a, s.b, s.c].take s.nsrc

/-- Clocks of an opcode per 512 elements (R158). -/
def RStep.cost (s : RStep) : Nat :=
  if s.op = 5 ∨ s.op = 6 then 4 else if s.op = 7 then 2 else if s.op = 0x10 then 0 else 1

/-- Operand codes (R155). -/
def isTemp (x : Nat) : Bool := decide (8 ≤ x) && decide (x ≤ 15)
def isScalar (x : Nat) : Bool := decide (0x20 ≤ x)
def isStateSlot (x : Nat) : Bool := decide (2 ≤ x) && decide (x ≤ 5)

/-- A step that is never scalar-only (R159). -/
def RStep.perElement (s : RStep) : Bool := s.op == 0x0F || s.op == 0x10 || isStateSlot s.dst || s.dst == 6

/-- Which steps of a pass are scalar-only (R159); `sc` holds the temporaries last written by such steps. -/
def scalarOnly : List Nat → List RStep → List Bool
  | _, [] => []
  | sc, s :: t =>
    let yes := !s.perElement && s.srcs.all fun x => isScalar x || sc.contains x
    yes :: scalarOnly (if isTemp s.dst then (if yes then s.dst :: sc else sc.filter (· != s.dst)) else sc) t

/-! ### Built-in recipes (R170-R174) -/

/-- A step from its operation, destination and sources. -/
def mkStep (op dst a : Nat) (b c : Nat := 0) (cond acc scope crnd csat : Nat := 0) : RStep :=
  { op := op, dst := dst, a := a, b := b, c := c, cfmt := 0, cside := 0, crnd := crnd, csat := csat, cond := cond, acc := acc, scope := scope,
    resv := 0 }

/-- The operands of R155 by name. -/
abbrev oG : Nat := 1
abbrev oW : Nat := 2
abbrev oM1 : Nat := 3
abbrev oM2 : Nat := 4
abbrev oP : Nat := 6
abbrev oT (k : Nat) : Nat := 8 + k
abbrev oS (k : Nat) : Nat := 0x20 + k

/-- The steps that the built-in recipes use, by name. -/
def rSub (d a b : Nat) : RStep := mkStep 2 d a b
def rMul (d a b : Nat) : RStep := mkStep 3 d a b
def rFma (d a b c : Nat) : RStep := mkStep 4 d a b c
def rDiv (d a b : Nat) : RStep := mkStep 5 d a b
def rSqrt (d a : Nat) : RStep := mkStep 6 d a
def rRsqrt (d a : Nat) : RStep := mkStep 7 d a
def rMin (d a b : Nat) : RStep := mkStep 9 d a b
def rSign (d a : Nat) : RStep := mkStep 0x0B d a
def rSelect (cond d a b c : Nat) : RStep := mkStep 0x0D d a b c cond
def rCastP : RStep := { mkStep 0x0E oP oW with crnd := 2, csat := 2 }
def rAcc (acc a : Nat) : RStep := { mkStep 0x0F 0 a with acc := acc }
def rSync (scope : Nat) : RStep := { mkStep 0x10 0 0 with scope := scope }

/-- AdamW on a gradient operand (R172, R174). -/
def adamW (g : Nat) : List RStep :=
  [rMul (oT 0) g (oS 8), rFma oM1 oM1 (oS 1) (oT 0), rMul (oT 1) g g, rMul (oT 1) (oT 1) (oS 9), rFma oM2 oM2 (oS 2) (oT 1), rSqrt (oT 2) oM2,
    rFma (oT 2) (oT 2) (oS 7) (oS 3), rMul (oT 3) oM1 (oS 6), rDiv (oT 3) (oT 3) (oT 2), rFma (oT 3) oW (oS 4) (oT 3), rSub (oT 5) (oS 15) (oS 0),
    rFma oW (oT 3) (oT 5) oW, rCastP]

/-- The built-in recipes. -/
def builtin : Nat → Option (List RStep)
  | 0 => some [rFma (oT 0) oW (oS 4) oG, rSub (oT 5) (oS 15) (oS 0), rFma oW (oT 0) (oT 5) oW, rCastP]
  | 1 => some [rFma (oT 0) oW (oS 4) oG, rMul (oT 1) (oT 0) (oS 11), rFma oM1 oM1 (oS 10) (oT 1), rSub (oT 5) (oS 15) (oS 0),
      rFma oW oM1 (oT 5) oW, rCastP]
  | 2 => some [rFma (oT 0) oW (oS 4) oG, rMul (oT 1) (oT 0) (oS 11), rFma oM1 oM1 (oS 10) (oT 1), rSub (oT 5) (oS 15) (oS 0),
      rFma (oT 2) oM1 (oS 10) (oT 0), rFma oW (oT 2) (oT 5) oW, rCastP]
  | 3 => some [rFma (oT 6) oW (oS 4) oG, rMul (oT 0) (oT 6) (oS 8), rFma oM1 oM1 (oS 1) (oT 0), rMul (oT 1) (oT 6) (oT 6),
      rMul (oT 1) (oT 1) (oS 9), rFma oM2 oM2 (oS 2) (oT 1), rSqrt (oT 2) oM2, rFma (oT 2) (oT 2) (oS 7) (oS 3), rMul (oT 3) oM1 (oS 6),
      rDiv (oT 3) (oT 3) (oT 2), rSub (oT 5) (oS 15) (oS 0), rFma oW (oT 3) (oT 5) oW, rCastP]
  | 4 => some (adamW oG)
  | 5 => some ([rMul (oT 0) oG (oS 8), rFma (oT 0) oM1 (oS 1) (oT 0), rMul (oT 1) oG oG, rMul (oT 1) (oT 1) (oS 9), rFma (oT 1) oM2 (oS 2) (oT 1),
        rSqrt (oT 2) (oT 1), rFma (oT 2) (oT 2) (oS 7) (oS 3), rMul (oT 3) (oT 0) (oS 6), rDiv (oT 3) (oT 3) (oT 2),
        rFma (oT 3) oW (oS 4) (oT 3), rAcc 0 oW, rAcc 1 (oT 3), rSync 0]
      ++ [rMul (oT 0) oG (oS 8), rFma oM1 oM1 (oS 1) (oT 0), rMul (oT 1) oG oG, rMul (oT 1) (oT 1) (oS 9), rFma oM2 oM2 (oS 2) (oT 1),
        rSqrt (oT 2) oM2, rFma (oT 2) (oT 2) (oS 7) (oS 3), rMul (oT 3) oM1 (oS 6), rDiv (oT 3) (oT 3) (oT 2), rFma (oT 3) oW (oS 4) (oT 3)]
      ++ [rSqrt (oT 5) (oS 24), rRsqrt (oT 4) (oS 25), rMul (oT 4) (oT 5) (oT 4), rSelect 0 (oT 4) (oS 24) (oT 4) (oS 14),
        rSelect 0 (oT 4) (oS 25) (oT 4) (oS 14), rMin (oT 4) (oT 4) (oS 13), rMul (oT 4) (oT 4) (oS 0), rSub (oT 4) (oS 15) (oT 4),
        rFma oW (oT 3) (oT 4) oW, rCastP])
  | 6 => some [rMul (oT 0) oG (oS 8), rFma (oT 0) oM1 (oS 1) (oT 0), rSign (oT 0) (oT 0), rFma (oT 0) oW (oS 4) (oT 0), rSub (oT 5) (oS 15) (oS 0),
      rFma oW (oT 0) (oT 5) oW, rMul (oT 1) oG (oS 9), rFma oM1 oM1 (oS 2) (oT 1), rCastP]
  | 7 => some ([rAcc 0 oG, rSync 1, rRsqrt (oT 7) (oS 24), rMul (oT 7) (oT 7) (oS 12), rMin (oT 7) (oT 7) (oS 14), rMul (oT 6) oG (oT 7)]
      ++ adamW (oT 6))
  | _ => none

/-- The recipe a partition has under an identifier: built in, or loaded (R43, R170). -/
def State.recipe? (s : State) (part id : Nat) : Option (List RStep) :=
  if id < 8 then builtin id
  else if id < 0x20 then none
  else match s.lay.running.bind fun l => Tbl.get? l.recipes part with
    | some rs => (rs.find? fun r => r.id == id).map fun r => r.steps.map rstep
    | none => none

/-! ### Passes -/

/-- The steps with their numbers. -/
def numbered (r : List RStep) : List (Nat × RStep) := r.mapIdx fun i s => (i, s)

/-- The first pass of a two-pass recipe, the last pass, and the NORM_SYNC between them (R160, R164). -/
def pass1Of (r : List RStep) : List (Nat × RStep) := if r.any (·.op == 0x10) then (numbered r).takeWhile fun q => q.2.op != 0x10 else []
def lastPass (r : List RStep) : List (Nat × RStep) :=
  if r.any (·.op == 0x10) then ((numbered r).dropWhile fun q => q.2.op != 0x10).drop 1 else numbered r
def syncOf (r : List RStep) : Option Nat := (r.find? (·.op == 0x10)).map (·.scope)

/-- Whether a recipe uses, and whether it writes, an operand. -/
def usesSlot (r : List RStep) (x : Nat) : Bool := r.any fun s => s.dst == x || s.srcs.contains x
def writesSlot (r : List RStep) (x : Nat) : Bool := r.any fun s => s.dst == x
def readsSlot (r : List RStep) (x : Nat) : Bool := r.any fun s => s.srcs.contains x

/-- The number of the last step that writes a slot (R156). -/
def lastWriter (l : List (Nat × RStep)) (x : Nat) : Nat := ((l.filter fun q => q.2.dst == x).getLast?.map Prod.fst).getD 0

/-- Clocks of a recipe in all passes: scalar-only steps cost none (R158, R159). -/
def recipeClocks (r : List RStep) : Nat :=
  let go := fun (l : List RStep) => sumNat (List.zipWith (fun (s : RStep) b => if b then 0 else s.cost) l (scalarOnly [] l))
  go ((pass1Of r).map Prod.snd) + go ((lastPass r).map Prod.snd)

/-! ### The loader's checks (R44, R157, R160) -/

/-- Operand codes that may be read, and written. -/
def readable (x : Nat) : Bool := (decide (1 ≤ x) && decide (x ≤ 5)) || isTemp x || isScalar x
def writable (x : Nat) : Bool := isStateSlot x || x == 6 || isTemp x

/-- Every temporary a pass reads was written earlier in it (R160 case 3). -/
def tempsOk : List Nat → List RStep → Bool
  | _, [] => true
  | w, s :: t => (s.srcs.all fun x => !isTemp x || w.contains x) && tempsOk (if isTemp s.dst then s.dst :: w else w) t

/-- No temporary of a pass is written by a scalar-only and by another step (R160 case 4). -/
def tempsPure (l : List RStep) : Bool :=
  let z := l.zip (scalarOnly [] l)
  z.all fun p => !isTemp p.1.dst || z.all fun q => q.1.dst != p.1.dst || q.2 == p.2

/-- The fields of one step (R157, R160 cases 1, 2, 9). -/
def RStep.ok (s : RStep) : Bool :=
  let cast := s.op == 0x0E
  let toTemp := cast && isTemp s.dst
  decide (1 ≤ s.op) && decide (s.op ≤ 0x10) && s.resv == 0
    && s.srcs.all readable && (([s.a, s.b, s.c].drop s.nsrc).all (· == 0))
    && (if s.op == 0x0F || s.op == 0x10 then s.dst == 0 else writable s.dst && (s.dst != 6 || cast))
    && (toTemp || (s.cfmt == 0 && s.cside == 0)) && (cast || (s.crnd == 0 && s.csat == 0)) && s.crnd != 3 && s.csat != 3
    && (!toTemp || (decide (s.cfmt < 16) && !bitAt s.cside 2 && (isMx s.cfmt || s.cside == 0)
      && (!(s.cfmt == 11 || s.cfmt == 12) || !bitAt s.cside 0)))
    && (if s.op == 0x0D then decide (s.cond ≤ 6) else s.cond == 0) && (s.op == 0x0F || s.acc == 0) && (s.op == 0x10 || s.scope == 0)

/-- Whether the loader accepts a recipe (R44, R160). -/
def recipeOk (r : List RStep) : Bool :=
  let syncs := (r.filter (·.op == 0x10)).length
  let p1 := (pass1Of r).map Prod.snd
  let p2 := (lastPass r).map Prod.snd
  r.all RStep.ok && decide (syncs ≤ 1) && (r.getLast?.map (·.op)) != some 0x10
    && tempsOk [] p1 && tempsOk [] p2 && tempsPure p1 && tempsPure p2
    && p1.all (fun s => !(isStateSlot s.dst || s.dst == 6)) && (r.filter (·.dst == 6)).length == 1
    && (syncs == 0 || p2.all (·.op != 0x0F))

/-! ### Arithmetic (R158, R161) -/

/-- Whether `cond` of SELECT holds for a value (R157); of a NaN only `cond` 3 does. -/
def condHolds (cond : Nat) (a : Val) : Bool :=
  match a with
  | .nan => cond == 3
  | _ =>
    let pos := !a.neg? && !a.isZero
    let neg := a.neg? && !a.isZero
    match cond with
    | 0 => pos
    | 1 => !neg
    | 2 => a.isZero
    | 3 => !a.isZero
    | 4 => neg
    | 5 => neg || a.isZero
    | _ => !a.isInf

/-- The magnitude of a value. -/
def Val.abs : Val → Val
  | .num _ m e => .num false m e
  | .inf _ => .inf false
  | .nan => .nan

/-- SIGN of R158. -/
def Val.sign (a : Val) : Val := if a.isNan then .nan else if a.isZero then a else .ofInt (if a.neg? then -1 else 1)

/-- One arithmetic step on one lane, opcodes 0x01-0x0D. -/
def RStep.apply (s : RStep) (a b c : Val) : Val :=
  if s.op = 0x0D then (if condHolds s.cond a then b else c)
  else fp32.round (match s.op with
    | 1 => a.add b
    | 2 => a.add b.negate
    | 3 => a.mul b
    | 4 => (a.mul b).add c
    | 5 => a.div b
    | 6 => a.sqrt
    | 7 => a.rsqrt
    | 8 => a.max b
    | 9 => a.min b
    | 0x0A => a.abs
    | 0x0B => a.sign
    | _ => (a.max b).min c)

/-- The keyed generator of R77. -/
def keyed (seed step index s : Nat) : Nat :=
  let m := fun (x : Nat) => x % 2 ^ 64
  let x := m ((seed ^^^ m (step * 0x9E3779B97F4A7C15)) + (index * 64 + s))
  let x := m ((x ^^^ (x / 2 ^ 30)) * 0xBF58476D1CE4E5B9)
  let x := m ((x ^^^ (x / 2 ^ 27)) * 0x94D049BB133111EB)
  (x ^^^ (x / 2 ^ 31)) % 65536

/-! ### Norms (R163, R164) -/

/-- An empty accumulator. -/
def Norm.zero : Norm := ⟨0, false, false⟩

/-- Adds a square. -/
def Norm.add (n : Norm) (v : Val) : Norm :=
  match v with
  | .nan => { n with nan := true }
  | .inf _ => { n with inf := true }
  | .num _ m e => { n with sum := n.sum + m * m * 2 ^ (2 * e + 320).toNat }

/-- Two accumulators added, as the blocks of a slice add theirs. -/
def Norm.join (n m : Norm) : Norm := ⟨n.sum + m.sum, n.inf || m.inf, n.nan || m.nan⟩

/-- The local sum rounded to binary64, as bits (R164 step 1). -/
def Norm.bits (n : Norm) : Nat :=
  (fp64.encode false none (if n.nan then .nan else if n.inf then .inf false else .num false n.sum (-320))).1

/-! ### Running a block of a pass -/

/-- What the lanes of a block need: scalars S0-S31, seed, step, bundle, the position of the first element, the operation's `fmt_out`, `kind`,
`rnd` and `sat`. -/
structure MillEnv where
  scal : List Val
  seed : Nat
  step : Nat
  bundle : Nat
  first : Nat
  fmt : Nat
  kind : Nat
  rnd : Nat
  sat : Bool
  deriving DecidableEq, Repr

/-- The lanes of a block: slots and temporaries by code, the encoded P and, for each element, what its write did and whether the value cast was
a NaN, the norms, whether a CAST to a temporary was an event of R73. -/
structure Lanes where
  n : Nat
  slots : Tbl (List Val)
  p : List Byte
  wrote : List (Wrote × Bool)
  norms : List Norm
  special : Bool
  deriving DecidableEq, Repr

/-- An operand's lanes. -/
def Lanes.read (l : Lanes) (env : MillEnv) (x : Nat) : List Val :=
  if isScalar x then List.replicate l.n (env.scal.getD (x - 0x20) .zero) else Tbl.getD l.slots x (List.replicate l.n .zero)

/-- The random numbers of a step's roundings (R77, R162); a scalar-only step takes the index of element 0. -/
def MillEnv.rnds (env : MillEnv) (mode no : Nat) (scalar : Bool) : Nat → Rnd :=
  let mode := if mode = 2 then env.rnd else mode
  fun i => if mode = 0 then none else some (keyed env.seed env.step (env.bundle * 2 ^ 40 + (if scalar then 0 else env.first + i)) no)

/-- Whether an encoding of values had an event of R73: the input of an element is the value that the conversion received. -/
def anySpecial (vs : List Val) (ws : List Wrote) : Bool := (vs.zip ws).any fun q => q.2.special q.1.isNan q.1.isInf

/-- One step on a block. R158 gives CAST a result for P and for temporaries; one to W or a moment, whose `cfmt` is 0 by R160, leaves the value as it
is, which R61's code 0 holds exactly (DESIGN CHOICE, log entry 71). -/
def Lanes.step (l : Lanes) (env : MillEnv) (no : Nat) (s : RStep) (scalar : Bool) : Lanes :=
  let a := l.read env s.a
  if s.op = 0x0F then
    { l with norms := l.norms.mapIdx fun i q => if i = s.acc then a.foldl Norm.add q else q }
  else if s.op = 0x10 then l
  else if s.op = 0x0E then
    let sat := if s.csat = 2 then env.sat else s.csat == 1
    let r := env.rnds s.crnd no scalar
    if s.dst = 6 then
      let e := encodeRun env.fmt env.kind sat r a
      { l with p := e.1, wrote := e.2.zip (a.map Val.isNan) }
    else
      let e := encodeRun s.cfmt (s.cside % 2) sat r a
      { l with slots := Tbl.set l.slots s.dst ((decodeRun s.cfmt (s.cside % 2) a.length e.1).map fp32.round),
               special := l.special || anySpecial a e.2 }
  else
    let b := l.read env s.b
    let c := l.read env s.c
    { l with slots := Tbl.set l.slots s.dst (List.zipWith (fun (x : Val) (yz : Val × Val) => s.apply x yz.1 yz.2) a (b.zip c)) }

/-- A pass on a block: the scalar-only steps first, in program order, then the others (R159). -/
def Lanes.pass (l : Lanes) (env : MillEnv) (steps : List (Nat × RStep)) : Lanes :=
  let z := steps.zip (scalarOnly [] (steps.map Prod.snd))
  let l := (z.filter fun q => q.2).foldl (fun l q => l.step env q.1.1 q.1.2 true) l
  (z.filter fun q => !q.2).foldl (fun l q => l.step env q.1.1 q.1.2 false) l

/-! ### The scalar table (R165) -/

/-- b^t in binary64, by square-and-multiply from the most significant bit down. -/
def powBits (b : Val) : Nat → Nat → Val → Val
  | 0, _, r => r
  | k + 1, t, r =>
    let r := fp64.round (r.mul r)
    powBits b k t (if t.testBit k then fp64.round (r.mul b) else r)

/-- S5 as an integer from 1 to 16,777,216. -/
def stepCount (v : Val) : Option Nat :=
  match v with
  | .num false m e =>
    let x := if 0 ≤ e then m * 2 ^ e.toNat else m / 2 ^ (-e).toNat
    let whole := if 0 ≤ e then true else m % 2 ^ (-e).toNat == 0
    if whole ∧ 1 ≤ x ∧ x ≤ 16777216 then some x else none
  | _ => none

/-- The scalar table of a step, as FP32 patterns; none where S5 is no step count. -/
def scalarTable (rec : List Byte) : Option (List Nat) :=
  let w := fun k => fieldLE rec (4 * k) 4
  let v := fun k => fp32.decode (w k)
  let one := Val.ofInt 1
  match stepCount (v 5) with
  | none => none
  | some t =>
    let pow := fun b => powBits b (Nat.log2 t + 1) t one
    let d1 := fp64.round (one.add (pow (v 1)).negate)
    let d2 := fp64.round (one.add (pow (v 2)).negate)
    let enc := fun (x : Val) => (fp32.encode false none x).1
    some ((List.range 32).map fun k => match k with
      | 6 => enc (fp64.round (one.div d1))
      | 7 => enc (fp64.round (one.div (fp64.round d2.sqrt)))
      | 8 => enc (one.add (v 1).negate)
      | 9 => enc (one.add (v 2).negate)
      | 14 => 0x3F800000
      | 15 => 0
      | 24 => 0
      | 25 => 0
      | 26 => 0
      | 27 => 0
      | 30 => 0
      | 31 => 0
      | _ => w k)

/-- The seed of a record. -/
def seedOf (scal : List Nat) : Nat := scal.getD 29 0 * 2 ^ 32 + scal.getD 28 0

/-! ### Descriptors (R152) -/

/-- Reads a 64-byte descriptor. -/
def millDesc (b : List Byte) : MillDesc :=
  { recipe := fieldLE b 0 1, momFmt := fieldLE b 1 1, stateRnd := fieldLE b 2 1, flags := fieldLE b 3 1, elems := fieldLE b 4 4,
    w := fieldLE b 8 8, m1 := fieldLE b 16 8, m2 := fieldLE b 24 8, m3 := fieldLE b 32 8, p := fieldLE b 40 8, pScale := fieldLE b 48 8,
    g := fieldLE b 56 8 }

/-- Whether a descriptor breaks R152 for a step of `fmt_out` and its `split`. -/
def MillDesc.bad (d : MillDesc) (r : Option (List RStep)) (fmtOut : Nat) (split : Bool) : Bool :=
  match r with
  | none => true
  | some r =>
    let need := fun (x a : Nat) => if usesSlot r x then a == 0 || a % 256 != 0 else a != 0
    let must := fun (yes : Bool) (a : Nat) => if yes then a == 0 || a % 256 != 0 else a != 0
    decide (1 < d.momFmt) || decide (1 < d.stateRnd) || d.flags != 1 || d.elems == 0 || d.w == 0 || d.w % 256 != 0
      || need 3 d.m1 || need 4 d.m2 || need 5 d.m3 || d.p == 0 || d.p % 256 != 0 || must (isMx fmtOut && split) d.pScale
      || must (syncOf r == some 1) d.g

end Sys2Proof.Machine
end

