-- ==== Sys2Proof/Machine/Tally.lean ====
section
/-!
DEFINITION. Tally units (04_tally_units.md): the operations and their accumulators (R80-R93), hand-off formats (R94), slot sizes and the
reduction pool (R95, R101-R105), units (R108).
-/

namespace Sys2Proof.Machine

/-! ### Field checks (R61, R89) -/

/-- The format fields of a typed operation that R61 refuses, but for its element count. -/
def Fmtw.bad (f : Fmtw) : Bool :=
  let side := fun c sd => bitAt sd 2 || (sd != 0 && !isMx c) || (bitAt sd 0 && (c == 11 || c == 12))
  decide (16 ≤ f.fmtIn) || decide (16 ≤ f.fmtOut) || !(f.accFmt == 0 || f.accFmt == 0x1E || f.accFmt == 0x1F)
    || (f.accFmt == 0x1E && !(decide (2 ≤ f.fmtIn) && decide (f.fmtIn ≤ 8)))
    || (f.accFmt != 0 && isInt f.fmtIn) || side f.fmtIn f.sideIn || side f.fmtOut f.sideOut || f.resv != 0

/-- Whether an element count breaks the packing units (R61). -/
def Fmtw.badCount (f : Fmtw) (n : Nat) : Bool := n % packUnit f.fmtIn != 0 || n % packUnit f.fmtOut != 0

/-- The cases of R89. -/
def reduceBad (f : Fmtw) (red partSel postScale : Nat) : Bool :=
  let e := bitsOf postScale 23 8
  red == 7 || (red != 0 && f.accFmt != 0)
    || ((red == 4 || red == 5 || red == 6) && (!isInt f.fmtIn || f.fmtOut != f.fmtIn))
    || (postScale != 0x3F800000 && red != 0)
    || e == 0 || e == 255
    || partSel == 3 || (partSel != 0 && (f.fmtIn == 0 || isInt f.fmtIn)) || (partSel == 1 && f.fmtIn == 1)
    || (f.accFmt == 0x1E && partSel == 2)

/-! ### Accumulators (R80-R92) -/

/-- What a slot accumulates: operation, input format, accumulation format. -/
structure RedKind where
  red : Nat
  fmtIn : Nat
  acc : Nat
  deriving DecidableEq, Repr

/-- Tally-wide accumulation (R80). -/
def RedKind.wide (k : RedKind) : Bool := k.red == 0 && !isInt k.fmtIn && k.acc != 0x1E

/-- Bytes of one element in a slot (R88). -/
def RedKind.elemBytes (k : RedKind) : Nat := if k.wide then 14 else if k.red = 0 ∧ !isInt k.fmtIn then 4 else 8

/-- An element to which nothing has been contributed. -/
def Elem.empty : Elem := ⟨0, false, .zero, false, false, false, false, false, false, false⟩

/-- Whether an element has had a contribution. -/
def Elem.touched (e : Elem) : Bool := e.nan || e.pinf || e.ninf || e.pzero || e.nzero || e.some_

/-- An empty accumulator of `n` elements. -/
def emptyAcc (n : Nat) : List TallyBlk := (blocks32 (List.replicate n Elem.empty)).map fun l => ⟨none, l⟩

/-- Records what kind of value an element was given (R84). -/
def Elem.note (e : Elem) (v : Val) : Elem :=
  match v with
  | .nan => { e with nan := true }
  | .inf s => if s then { e with ninf := true } else { e with pinf := true }
  | .num s m _ => if m ≠ 0 then { e with some_ := true } else if s then { e with nzero := true } else { e with pzero := true }

/-- Raises a window by `d` places (R82). -/
def Elem.shift (e : Elem) (d : Nat) : Elem := { e with a := e.a / (2 ^ d : Nat), s := e.s || e.a % (2 ^ d : Nat) != 0 }

/-- Adds a finite value to a window whose block exponent is `eb` (R82). -/
def Elem.addAt (e : Elem) (eb : Int) (v : Val) : Elem :=
  match v with
  | .num s m ex =>
    let x : Int := (if s then -1 else 1) * (m : Int)
    let k := ex - (eb - 78)
    if 0 ≤ k then { e with a := e.a + x * ((2 ^ k.toNat : Nat) : Int) }
    else { e with a := e.a + x / ((2 ^ (-k).toNat : Nat) : Int), s := e.s || x % ((2 ^ (-k).toNat : Nat) : Int) != 0 }
  | _ => e

/-- One contribution to a block of a tally-wide slot (R82, R84). -/
def TallyBlk.foldWide (b : TallyBlk) (vs : List Val) : TallyBlk :=
  let els := List.zipWith Elem.note b.els vs
  match (vs.filterMap Val.log2?).max? with
  | none => { b with els := els }
  | some e =>
    let eb := b.eb.getD e
    let els := if eb < e then els.map fun x => x.shift (e - eb).toNat else els
    let eb := max eb e
    ⟨some eb, List.zipWith (fun x v => x.addAt eb v) els vs⟩

/-- Keeps a 64-bit number in its range (R91). -/
def clamp64 (x : Int) : Int := max (-(2 ^ 63)) (min (2 ^ 63 - 1) x)

/-- A value that is an integer, as one. -/
def Val.toInt (v : Val) : Int := v.at? 0

/-- The 64-bit pattern of an integer. -/
def pattern64 (x : Int) : Nat := (x % (2 ^ 64 : Nat)).toNat

/-- One contribution to one element of a slot that is not tally-wide (R81, R85, R90-R92). The first contribution is taken as it is, so that a sum of
-0 alone in FP32-accumulate stays -0; R81 does not say what a slot starts from (DESIGN CHOICE, log entry 71). -/
def Elem.fold1 (k : RedKind) (e : Elem) (v : Val) : Elem :=
  let t := e.touched
  let e' := e.note v
  if isInt k.fmtIn then
    let x := v.toInt
    match k.red with
    | 0 => { e' with a := e.a + x }
    | 1 => { e' with a := if t then max e.a x else x }
    | 2 => { e' with a := if t then min e.a x else x }
    | 3 => let y := e.a * x
      if t then { e' with a := clamp64 y, sat := e.sat || clamp64 y != y } else { e' with a := x }
    | 4 => { e' with a := if t then signed 64 (pattern64 e.a &&& pattern64 x) else x }
    | 5 => { e' with a := if t then signed 64 (pattern64 e.a ||| pattern64 x) else x }
    | _ => { e' with a := if t then signed 64 (pattern64 e.a ^^^ pattern64 x) else x }
  else
    match k.red with
    | 0 => { e' with v := if t then fp32.round (e.v.add v) else v }
    | 1 => { e' with v := if t then e.v.max v else v }
    | 2 => { e' with v := if t then e.v.min v else v }
    | _ => { e' with v := if t then fp64.round (e.v.mul v) else v }

/-- One contribution to a slot (R100). -/
def foldAcc (k : RedKind) (bs : List TallyBlk) (vs : List Val) : List TallyBlk :=
  List.zipWith (fun b l => if k.wide then b.foldWide l else { b with els := List.zipWith (Elem.fold1 k) b.els l }) bs (blocks32 vs)

/-- The unrounded value of an element (R83, R84). -/
def Elem.value (k : RedKind) (eb : Option Int) (e : Elem) : Val :=
  if isInt k.fmtIn then .ofInt e.a
  else if !k.wide then e.v
  else if e.nan ∨ (e.pinf ∧ e.ninf) then .nan
  else if e.pinf then .inf false
  else if e.ninf then .inf true
  else if e.some_ then
    let x := 2 * e.a + (if e.s then 1 else 0)
    if x = 0 then .zero else .num (decide (x < 0)) x.natAbs (eb.getD 0 - 79)
  else .num (e.nzero && !e.pzero) 0 0

/-- The unrounded values of a slot. -/
def accValues (k : RedKind) (bs : List TallyBlk) : List Val := (bs.map fun b => b.els.map (Elem.value k b.eb)).flatten

/-- Whether writing a slot's values out is an event of R73: the input of an element is every contribution to it. -/
def accSpecial (bs : List TallyBlk) (ws : List Wrote) : Bool :=
  let els := (bs.map (·.els)).flatten
  (List.zipWith (fun (e : Elem) (w : Wrote) => w.special e.nan (e.pinf || e.ninf) || e.sat) els ws).any id

/-! ### Hand-offs (R94) -/

/-- The wire format of a partial: a transfer code, or 0x1D for 64-bit integers. -/
def handoff (k : RedKind) (partSel : Nat) : Nat :=
  if isInt k.fmtIn then (if k.red = 0 ∨ k.red = 3 then 0x1D else k.fmtIn) else if partSel = 1 then 1 else if partSel = 2 then 0 else k.fmtIn

/-- Bytes on the wire of `n` elements of a transfer code or of 0x1D. -/
def codeBytes (c n : Nat) : Nat := if c = 0x1D then 8 * n else wireBytes c n

/-- Decodes a chunk's payload. -/
def decodeChunk (c kind n : Nat) (d : List Byte) : List Val :=
  if c = 0x1D then (List.range n).map fun i => .ofInt (signed 64 (unpack1 64 i d)) else decodeRun c kind n d

/-- Encodes a chunk's payload. -/
def encodeChunk (c kind : Nat) (sat : Bool) (r : Nat → Rnd) (vs : List Val) : List Byte × List Wrote :=
  if c = 0x1D then (let es := vs.map fun v => encodeInt 64 none v; (packCodes 64 (es.map Prod.fst), es.map Prod.snd))
  else encodeRun c kind sat r vs

/-- Multiplies a slot's values by `post_scale` exactly (R93). -/
def postScaled (red scale : Nat) (vs : List Val) : List Val :=
  if red = 0 ∧ scale ≠ 0x3F800000 then vs.map fun v => v.mul (fp32.decode scale) else vs

/-! ### Rounding with the hardware random source (R76, R78) -/

/-- The roundings of `n` elements under `rnd`: to nearest even, or from fresh random numbers; where the source has failed, to nearest even. -/
def State.roundings (s : State) (rnd n : Nat) : (Nat → Rnd) × State :=
  if rnd = 0 ∨ s.rd F.TRU_LC_rng_failed = 1 then (fun _ => none, s)
  else (fun i => some ((Config.free (s.fresh + i)).toNat % 65536), { s with fresh := s.fresh + n })

/-! ### Chunks and slots (R95, R101) -/

/-- Elements of a full chunk of `c` bytes in a format (R95). -/
def chunkCap (fmtIn c : Nat) : Nat := 32 * (c / max 1 (wireBytes fmtIn 32))

/-- The arrival area and the accumulator of one slot in bytes (R101). -/
def slotBytes (k : RedKind) (partSel c : Nat) : Nat × Nat :=
  let cap := chunkCap k.fmtIn c
  (max (wireBytes k.fmtIn cap) (codeBytes (handoff k partSel) cap), cap * k.elemBytes)

/-- The units of 64 KiB that one slot takes (R101). -/
def slotUnits (k : RedKind) (partSel c : Nat) : Nat :=
  let b := slotBytes k partSel c
  ceilDiv (b.1 + b.2) 65536

/-! ### The pool (R102-R105) -/

/-- Units that the operations of an instance hold. -/
def State.poolHeld (s : State) (vf : Nat) : Nat :=
  sumNat (s.cmn.colls.map fun c => if (Tbl.get? s.ops c.op).any (fun o => o.vf == vf) then c.own + c.borrowed else 0)

/-- Shows what is free of the unreserved remainder (R102): the pool's maximum less what every partition has as its share, or holds of a share
since reduced, less what is borrowed. -/
def State.showPool (s : State) : State :=
  let held := sumNat ((List.range 64).map fun p =>
    max (s.rd F.TAL_PTN_POOL_share p) (s.rd F.TAL_PTN_POOL_used p) + s.rd F.TAL_PTN_POOL_borrowed p)
  s.wr F.TAL_POOL_unreserved_free (s.rd F.TAL_POOL_pool_max - held)

/-- Reserves units: the partition's unused share first, then the unreserved remainder, all or none, within the instance's `pool_cap` (R102). -/
def State.reservePool (s : State) (vf p units : Nat) : Option ((Nat × Nat) × State) :=
  let cap := s.rd F.PTN_INST_pool_cap vf
  let own := min units (s.rd F.TAL_PTN_POOL_share p - s.rd F.TAL_PTN_POOL_used p)
  let need := units - own
  if (cap ≠ 0 ∧ cap < s.poolHeld vf + units) ∨ s.rd F.TAL_POOL_unreserved_free < need then none
  else
    let s := (s.bump F.TAL_PTN_POOL_used own p).bump F.TAL_PTN_POOL_borrowed need p
    some ((own, need), s.showPool)

/-- Returns units (R104). -/
def State.releasePool (s : State) (p own borrowed : Nat) : State :=
  ((s.lower F.TAL_PTN_POOL_used own p).lower F.TAL_PTN_POOL_borrowed borrowed p).showPool

/-- Bytes of a partition's HBM4 share and staging share taken by operations that retain inputs or run streamed (R105, R130, R169). -/
def State.hbmTaken (s : State) (p : Nat) : Nat :=
  sumNat (s.cmn.colls.map fun c => if (Tbl.get? s.ops c.op).any (fun o => o.part == p) then c.hbmBytes else 0)
def State.stagingTaken (s : State) (p : Nat) : Nat :=
  sumNat (s.cmn.colls.map fun c => if (Tbl.get? s.ops c.op).any (fun o => o.part == p) then c.stagingBytes else 0)
    + sumNat (s.ckp.streams.map fun q => if q.2.part = p then q.2.staging else 0)

/-- Bytes of staging that an instance's operations may still take (R105, R378). -/
def State.stagingFree (s : State) (vf p : Nat) : Nat :=
  let cap := s.rd F.PTN_INST_staging_cap vf * 65536
  let mine := sumNat (s.cmn.colls.map fun c => if (Tbl.get? s.ops c.op).any (fun o => o.vf == vf) then c.stagingBytes else 0)
    + sumNat (s.ckp.streams.map fun q => if q.2.vf = vf then q.2.staging else 0)
  let share := (s.shares p).stagingShare * 65536 - s.stagingTaken p
  if cap = 0 then share else min share (cap - mine)

/-! ### Units (R108, R111) -/

/-- Unit states of TAL_UNIT_STATE, MIL_ENG_STATE and CPH_CORE_STATE. -/
abbrev unitActive : Nat := 0
abbrev unitSpare : Nat := 1
abbrev unitRetired : Nat := 2
abbrev unitResetting : Nat := 3

/-- The active tally units in ascending order. -/
def State.activeTally (s : State) : List Nat := (List.range 34).filter fun u => s.rd F.TAL_UNIT_STATE_state u == unitActive

/-- The unit a chunk binds to: the first with a free fold queue, from its index round (R108). -/
def State.bindUnit (s : State) (group bundle chunk : Nat) : Option Nat :=
  let us := s.activeTally
  let k := (group + bundle * 37 + chunk) % max 1 us.length
  (us.drop k ++ us.take k).find? fun u => decide (s.rd F.TAL_UNIT_STATE_slots_bound u < 255)

end Sys2Proof.Machine
end

