-- ==== Sys2Proof/Machine/Schedule.lean ====
section
/-!
DEFINITION. Who sends what to whom (05_commons_collectives.md): shards (R120), chunks (R95), the algorithms of R121-R124 as trees of each
shard, the notice tree (R115), the chunk header (R96) and the bodies of COORD messages (R206).
-/

namespace Sys2Proof.Machine

/-! ### Shards and chunks -/

/-- Rank r's shard of `count` elements: its first element and the one past its last (R120). -/
def shard (r n count : Nat) : Nat × Nat :=
  let b := ceilDiv count 32
  (min count (32 * (r * b / n)), min count (32 * ((r + 1) * b / n)))

/-- The chunks of one run of elements: offset and length. -/
def cutRun (cap m : Nat) : List (Nat × Nat) := (List.range (ceilDiv m cap)).map fun i => (i * cap, min cap (m - i * cap))

/-- A chunk of a flow: the shard (or destination rank) it belongs to, its first element, its elements. -/
structure ChunkAt where
  shard : Nat
  first : Nat
  elems : Nat
  deriving DecidableEq, Repr

/-- The chunks of a flow in index order: each shard's own (R87, R95, R131), or for ALL_TO_ALL each destination's segment. -/
def chunksOf (co n count cap : Nat) : List ChunkAt :=
  let cap := max 32 cap
  if co = 5 then ((List.range n).map fun j => (cutRun cap (count / n)).map fun p => ⟨j, p.1, p.2⟩).flatten
  else ((List.range n).map fun k => let s := shard k n count; (cutRun cap (s.2 - s.1)).map fun p => ⟨k, s.1 + p.1, p.2⟩).flatten

/-! ### Algorithms (R121-R124) -/

/-- A transfer of a shard: sender, receiver, stage. -/
structure Edge where
  src : Nat
  dst : Nat
  stage : Nat
  deriving DecidableEq, Repr

/-- The trays of a group in order of first rank, each with its ranks ascending. -/
def traysOf (trays : List Nat) : List (List Nat) :=
  trays.eraseDups.map fun t => (List.range trays.length).filter fun r => trays.getD r 0 == t

/-- Whether a group spans two or more trays of the same number, two or more, of ranks (R123 step 3). -/
def evenTrays (trays : List Nat) : Bool :=
  let g := traysOf trays
  decide (2 ≤ g.length) && g.all fun t => decide (2 ≤ t.length) && t.length == (g.headD []).length

/-- Whether every tray holds the same number of ranks, as two-level needs. -/
def sameTrays (trays : List Nat) : Bool := let g := traysOf trays; g.all fun t => t.length == (g.headD []).length

/-- Halving-doubling towards the member at position `tgt` (R124). With `whole` every member past the largest power of two first sends its whole
input, `tgt` too, and `tgt`'s shard ends at the member that took its input; otherwise it ends at `tgt` (R131). -/
def hdEdges (mem : List Nat) (tgt s0 : Nat) (whole : Bool) : List Edge :=
  let n := mem.length
  let lg := Nat.log2 n
  let p := 2 ^ lg
  let at_ := fun i => mem.getD i 0
  let pre := if p < n then (List.range (n - p)).filterMap fun i => if p + i = tgt ∧ !whole then none else some ⟨at_ (p + i), at_ i, s0⟩ else []
  let s1 := if p < n then s0 + 1 else s0
  let v := tgt % p
  let body := ((List.range lg).map fun b => (List.range p).filterMap fun u =>
    let x := u ^^^ v
    if x % 2 ^ b = 0 ∧ x.testBit b then some (Edge.mk (at_ u) (at_ (u ^^^ 2 ^ b)) (s1 + b)) else none).flatten
  pre ++ body ++ (if p ≤ tgt ∧ !whole then [⟨at_ v, at_ tgt, s1 + lg⟩] else [])

/-- The reduction of shard k (R124): 1 ring, 2 halving-doubling, 3 two-level, 4 direct. In stage s of the ring rank r sends shard r - s, stages counted
from 0; where a rank's own shard must end at the rank, as R121 has it of a reduce-scatter and R131 of a step, they count from 1 (`own`; DESIGN
CHOICE, log entry 57). -/
def rsEdges (algo n : Nat) (trays : List Nat) (k : Nat) (whole own : Bool) : List Edge :=
  match algo with
  | 1 => (List.range (n - 1)).map fun j => ⟨(k + j + b2n own) % n, (k + j + 1 + b2n own) % n, j⟩
  | 2 => hdEdges (List.range n) k 0 whole
  | 3 =>
    let g := traysOf trays
    let t := (g.findIdx? fun l => l.contains k).getD 0
    let i := ((g.getD t []).findIdx? (· == k)).getD 0
    (g.map fun l => l.filterMap fun r => if r = l.getD i 0 then none else some (Edge.mk r (l.getD i 0) 0)).flatten
      ++ hdEdges (g.map fun l => l.getD i 0) t 1 whole
  | _ => (List.range n).filterMap fun r => if r = k then none else some ⟨r, k, 0⟩

/-- The stages of a list of edges. -/
def topOf (es : List Edge) : Nat := es.foldl (fun m e => max m (e.stage + 1)) 0

/-- A flow: what moves, by which algorithm, over which ranks. `co` is that of R121 (a step's phases are 1 and 2); `base` is the first stage of
its copies. -/
structure Flow where
  co : Nat
  algo : Nat
  n : Nat
  trays : List Nat
  root : Nat
  count : Nat
  cap : Nat
  step : Bool
  deriving DecidableEq, Repr

/-- Whether the flow reduces. -/
def Flow.reduces (f : Flow) : Bool := f.co == 0 || f.co == 1 || f.co == 4

/-- The chunks of a flow. -/
def Flow.chunks (f : Flow) : List ChunkAt := chunksOf f.co f.n f.count f.cap

/-- The edges of a shard towards its owner (R124). A plain reduction under halving-doubling ends at rank r - p for a rank r of p or more; a
step's final fold takes place at the rank itself (R131). -/
def Flow.edges (f : Flow) (k : Nat) : List Edge := rsEdges f.algo f.n f.trays k (f.reduces && !f.step) (f.step || !(f.co == 0 || f.co == 4))

/-- The reduction edges of a shard; none where the flow does not reduce. -/
def Flow.rs (f : Flow) (k : Nat) : List Edge := if f.reduces then f.edges k else []

/-- The rank that makes a shard's result: the end of its reduction, or the shard's own rank. -/
def Flow.owner (f : Flow) (k : Nat) : Nat := (((f.rs k).map (·.dst)).find? fun d => !(f.rs k).any fun e => e.src == d).getD k

/-- The stage after a shard's reduction. -/
def Flow.top (f : Flow) (k : Nat) : Nat := topOf (f.edges k)

/-- The copies of a shard's result (R121, R124): the reduction's edges reversed, the ring onward, REDUCE's hand to the root, a reduce-scatter's
return to a rank that did not fold its own shard; BROADCAST starts with the root's hand to the owner, and a step's all-gather follows the stage
of its twin copies. -/
def Flow.copies (f : Flow) (k : Nat) : List Edge :=
  let es := f.edges k
  let top := topOf es
  let base := if f.co = 0 then top else if f.co = 3 then 1 else if f.step then top + 1 else 0
  let o := f.owner k
  let back := if f.algo = 1 then (List.range (f.n - 1)).map fun j => (⟨(o + j) % f.n, (o + j + 1) % f.n, base + j⟩ : Edge)
    else es.map fun e => ⟨e.dst, e.src, base + top - 1 - e.stage⟩
  if f.co = 0 ∨ f.co = 2 then back
  else if f.co = 3 then (if f.root = k then [] else [⟨f.root, k, 0⟩]) ++ back
  else if f.co = 4 ∧ f.root ≠ f.owner k then [⟨f.owner k, f.root, top⟩]
  else if f.co = 1 ∧ k ≠ f.owner k then [⟨f.owner k, k, top⟩]
  else []

/-- Sources of a rank's fold of a shard. -/
def Flow.sources (f : Flow) (k r : Nat) : List Nat := ((f.rs k).filter fun e => e.dst == r).map (·.src)

/-- Where a rank's partial of a shard goes. -/
def Flow.next (f : Flow) (k r : Nat) : Option Edge := (f.rs k).find? fun e => e.src == r

/-- Whether a rank takes part in a shard's reduction. -/
def Flow.takesPart (f : Flow) (k r : Nat) : Bool := f.reduces && (r == f.owner k || (f.next k r).isSome)

/-- Whether a rank writes a shard to its output (R121). -/
def Flow.writes (f : Flow) (k r : Nat) : Bool := match f.co with | 1 => r == k | 4 => r == f.root | _ => true

/-- The ranks a chunk from a rank at a stage may be for. -/
def Flow.dests (f : Flow) (c : ChunkAt) (final : Bool) (src stage : Nat) : List Nat :=
  if f.co = 5 then (if stage = 0 then [c.shard] else [])
  else ((if final then f.copies c.shard else f.rs c.shard).filter fun e => e.src == src && e.stage == stage).map (·.dst)

/-- The algorithm of an operation (R123); 0 stands for the notice tree. `algo_default` is taken as it stands, two-level on uneven trays too, where
a rank without a partner in another tray has none to exchange with; R123 sets no condition there (DESIGN CHOICE, log entry 57). -/
def State.chooseAlgo (s : State) (co algo : Nat) (trays : List Nat) : Nat :=
  if algo ≠ 0 then algo
  else if co = 5 then 4
  else if co = 6 ∨ co = 7 then 0
  else if s.rd F.CMN_CFG_algo_default ≠ 0 then s.rd F.CMN_CFG_algo_default
  else if trays.length ≤ s.rd F.CMN_CFG2_direct_max then 4
  else if evenTrays trays then 3 else 2

/-! ### The notice tree (R115) -/

/-- The parent of a rank, and its children. -/
def parentRank (r : Nat) : Nat := (r - 1) / 16
def childRanks (n r : Nat) : List Nat := (List.range 16).filterMap fun i => if 16 * r + i + 1 < n then some (16 * r + i + 1) else none

/-- The edge by which what concerns a rank reaches a rank of this device: the child on the way, and the parent. -/
def edgeUp (locals : List Nat) : Nat → Nat → Option (Nat × Nat)
  | 0, _ => none
  | fuel + 1, r => if r = 0 then none else if locals.contains (parentRank r) then some (r, parentRank r) else edgeUp locals fuel (parentRank r)

/-! ### The chunk header (R96) -/

/-- Bytes 0 to 23. -/
def ChunkHdr.head (h : ChunkHdr) : List Byte :=
  leBytes 2 h.group ++ leBytes 4 h.step ++ leBytes 2 h.bundle ++ leBytes 4 h.chunk ++ leBytes 2 h.stage ++ leBytes 2 h.src ++ leBytes 4 h.elems
    ++ leBytes 1 (h.fmt % 32 + 32 * h.side) ++ leBytes 1 (h.redOp % 8 + 8 * b2n h.partial_ + 16 * b2n h.final + 32 * h.resv)
    ++ leBytes 2 h.contribM1

/-- The whole header. -/
def ChunkHdr.bytes (h : ChunkHdr) : List Byte := h.head ++ leBytes 8 h.check

/-- A header with its `check` over the payload (R96, R97). -/
def ChunkHdr.seal (h : ChunkHdr) (data : List Byte) : ChunkHdr := { h with check := crc64 (h.head ++ data) }

/-- Whether a chunk's check holds (R97). -/
def ChunkHdr.good (h : ChunkHdr) (data : List Byte) : Bool := h.check == crc64 (h.head ++ data)

/-- Reads a header. -/
def chunkHdr (b : List Byte) : ChunkHdr :=
  { group := fieldLE b 0 2, step := fieldLE b 2 4, bundle := fieldLE b 6 2, chunk := fieldLE b 8 4, stage := fieldLE b 12 2, src := fieldLE b 14 2,
    elems := fieldLE b 16 4, fmt := fieldLE b 20 1 % 32, side := fieldLE b 20 1 / 32, redOp := fieldLE b 21 1 % 8,
    partial_ := bitAt (fieldLE b 21 1) 3, final := bitAt (fieldLE b 21 1) 4, resv := fieldLE b 21 1 / 32, contribM1 := fieldLE b 22 2,
    check := fieldLE b 24 8 }

/-! ### COORD bodies (R206) -/

/-- Kinds of COORD messages. -/
def CBody.kind : CBody → Nat
  | .start .. => 1 | .go .. => 2 | .done .. => 3 | .scalar .. => 3 | .reduced .. => 4 | .reduceCommit .. => 5 | .published .. => 6
  | .commit .. => 7 | .scalarRes .. => 7 | .void .. => 8 | .voidAck .. => 9 | .rerun .. => 10 | .abandon .. => 11 | .reconcile .. => 12
  | .folded .. => 13 | .keepalive => 14 | .loss .. => 15

/-- States of copies as they ride behind a body: rank, and twin and state in a byte (log entry 21). -/
def stateBytes (l : List (Nat × Nat)) : List Byte := (l.map fun q => leBytes 2 (q.1 / 2) ++ leBytes 1 (q.1 % 2 * 8 + q.2)).flatten
def statesOf (b : List Byte) : List (Nat × Nat) :=
  (List.range (b.length / 3)).map fun i => (fieldLE b (3 * i) 2 * 2 + fieldLE b (3 * i + 2) 1 / 8 % 2, fieldLE b (3 * i + 2) 1 % 8)

/-- Hashes of copies as they ride behind PUBLISHED: the copy's rank, 1 for its primary or 2 for its twin, the hash (log entry 21). -/
def hashBytes (l : List (Nat × Nat)) : List Byte := (l.map fun q => leBytes 2 (q.1 / 2) ++ leBytes 1 (1 + q.1 % 2) ++ leBytes 8 q.2).flatten
def hashesOf (b : List Byte) : List (Nat × Nat) :=
  (List.range (b.length / 11)).map fun i => (fieldLE b (11 * i) 2 * 2 + b2n (fieldLE b (11 * i + 2) 1 == 2), fieldLE b (11 * i + 3) 8)

/-- The body's bytes. -/
def CBody.bytes : CBody → List Byte
  | .start f => leBytes 1 f.co ++ leBytes 1 f.algo ++ leBytes 1 f.redOp ++ leBytes 1 f.fmtIn ++ leBytes 1 f.fmtOut ++ leBytes 1 f.sides
      ++ leBytes 1 f.accRnd ++ leBytes 4 f.count ++ leBytes 1 f.status ++ leBytes 4 f.crc ++ leBytes 2 f.bundleStart ++ stateBytes f.states
  | .go a l => leBytes 1 a ++ stateBytes l
  | .done st c r => leBytes 1 st ++ leBytes 1 c ++ leBytes 2 r
  | .scalar sc b v => leBytes 1 0 ++ leBytes 1 0 ++ leBytes 2 sc ++ leBytes 2 b ++ (v.map (leBytes 8)).flatten
  | .reduced b => leBytes 2 b
  | .reduceCommit b => leBytes 2 b
  | .published b own l => leBytes 2 b ++ leBytes 1 (b2n own.isSome) ++ leBytes 8 (own.getD 0) ++ hashBytes l
  | .commit l => if l.isEmpty then [] else leBytes 1 0 ++ stateBytes l
  | .scalarRes sc b v => leBytes 1 1 ++ leBytes 2 sc ++ leBytes 2 b ++ (v.map (leBytes 8)).flatten
  | .void p b a => leBytes 1 p ++ leBytes 2 b ++ leBytes 1 a
  | .voidAck a => leBytes 1 a
  | .rerun a => leBytes 1 a
  | .abandon st c r b => leBytes 1 st ++ leBytes 1 c ++ leBytes 2 r ++ leBytes 2 b
  | .reconcile b t => leBytes 2 b ++ (if t = 0 then [] else leBytes 1 t)
  | .folded b c st again => leBytes 2 b ++ leBytes 4 c ++ leBytes 2 st ++ (if again then leBytes 1 1 else [])
  | .keepalive => []
  | .loss r => leBytes 2 r

/-- RECONCILE of a rank that saw so many bundles reduce-committed: the highest of them, or the mark that there is none (R146). -/
def CBody.reconUp (commits : Nat) (more : Bool) : CBody := .reconcile ((commits + 65535) % 65536) (b2n more + 2 * b2n (commits == 0))

/-- RECONCILE of the bellwether: U, with a mark where it is 65,536. -/
def CBody.reconDown (u : Nat) : CBody := .reconcile (u % 65536) (2 * b2n (u == 65536))

/-- How many bundles a report says were reduce-committed, and U of a notice. -/
def reconCommits (b tail : Nat) : Nat := if bitAt tail 1 then 0 else b + 1
def reconU (b tail : Nat) : Nat := if bitAt tail 1 then 65536 else b

/-- Values of eight bytes from an offset on. -/
def vals8 (b : List Byte) (off : Nat) : List Nat := (List.range ((b.length - off) / 8)).map fun i => fieldLE b (off + 8 * i) 8

/-- Reads a body of a kind; none where the kind is reserved. A COMMIT whose body begins with 1 is the result of a tree
all-reduce. -/
def cbody (kind : Nat) (b : List Byte) : Option CBody :=
  let u1 := fun o => fieldLE b o 1
  let u2 := fun o => fieldLE b o 2
  match kind with
  | 1 => some (.start ⟨u1 0, u1 1, u1 2, u1 3, u1 4, u1 5, u1 6, fieldLE b 7 4, u1 11, fieldLE b 12 4, u2 16, statesOf (b.drop 18)⟩)
  | 2 => some (.go (u1 0) (statesOf (b.drop 1)))
  | 3 => some (if 4 < b.length then .scalar (u2 2) (u2 4) (vals8 b 6) else .done (u1 0) (u1 1) (u2 2))
  | 4 => some (.reduced (u2 0))
  | 5 => some (.reduceCommit (u2 0))
  | 6 => some (.published (u2 0) (if u1 2 = 0 then none else some (fieldLE b 3 8)) (hashesOf (b.drop 11)))
  | 7 => some (if u1 0 = 1 then .scalarRes (u2 1) (u2 3) (vals8 b 5) else .commit (statesOf (b.drop 1)))
  | 8 => some (.void (u1 0) (u2 1) (u1 3))
  | 9 => some (.voidAck (u1 0))
  | 10 => some (.rerun (u1 0))
  | 11 => some (.abandon (u1 0) (u1 1) (u2 2) (u2 4))
  | 12 => some (.reconcile (u2 0) (if 2 < b.length then u1 2 else 0))
  | 13 => some (.folded (u2 0) (fieldLE b 2 4) (u2 6) (decide (8 < b.length)))
  | 14 => some .keepalive
  | 15 => some (.loss (u2 0))
  | _ => none

end Sys2Proof.Machine
end

