-- ==== Sys2Proof/Machine/CmnBase.lean ====
section
/-!
DEFINITION. What the rest of the device asks of the commons (05_commons_collectives.md): group records, connections of R118, reports and
notices on their way (R115-R117), the loss of a rank (R143), ending an operation locally (R142).
-/

namespace Sys2Proof.Machine

/-! ### Records -/

/-- A group record by slot, and by group ID. -/
def State.group? (s : State) (slot : Nat) : Option Group := Tbl.get? s.cmn.groups slot
def State.groupById (s : State) (id : Nat) : Option (Nat × Group) := s.cmn.groups.find? fun q => q.2.id == id

/-- Sets a group record. -/
def State.setGroup (s : State) (slot : Nat) (g : Group) : State := { s with cmn := { s.cmn with groups := Tbl.set s.cmn.groups slot g } }

/-- Changes a group record. -/
def State.modGroup (s : State) (slot : Nat) (f : Group → Group) : State :=
  match s.group? slot with
  | some g => s.setGroup slot (f g)
  | none => s

/-- The number of ranks; a member; the ranks a device holds. -/
def Group.n (g : Group) : Nat := g.members.length
def Group.member (g : Group) (r : Nat) : Member := g.members.getD r ⟨0, 0, 0, 0, false⟩
def Group.ranksOf (g : Group) (dev : Nat) : List Nat := (List.range g.n).filter fun r => (g.member r).dev == dev

/-- An operation of the commons, by its number in `ops`. -/
def State.coll? (s : State) (op : Nat) : Option Coll := s.cmn.colls.find? fun c => c.op == op

/-- Sets an operation. -/
def State.setColl (s : State) (c : Coll) : State :=
  { s with cmn := { s.cmn with colls := s.cmn.colls.map fun x => if x.op == c.op then c else x } }

/-- Changes an operation. -/
def State.modColl (s : State) (op : Nat) (f : Coll → Coll) : State :=
  { s with cmn := { s.cmn with colls := s.cmn.colls.map fun x => if x.op == op then f x else x } }

/-- Whether a step of a number is open at this device or at its bellwether. -/
def State.stepOpen (s : State) (slot : Nat) (g : Group) (n : Nat) : Bool :=
  s.cmn.colls.any (fun c => c.slot == slot && c.key == stepKey n) || (Tbl.get? g.bells (stepKey n)).any fun b => !b.isOver

/-- The key that a COORD message means by its `op_or_step`: START, GO and DONE give a sequence number, the messages of steps alone a step; a body that
either may have means the step where one of that number is open (R128, R205; DESIGN CHOICE, log entry 20). -/
def State.wireKey (s : State) (slot : Nat) (g : Group) (n : Nat) : CBody → Nat
  | .start .. => n | .go .. => n | .done .. => n
  | .reduced .. => stepKey n | .reduceCommit .. => stepKey n | .published .. => stepKey n | .reconcile .. => stepKey n
  | .scalar sc _ _ => if sc = 0 then n else stepKey n
  | .scalarRes sc _ _ => if sc = 0 then n else stepKey n
  | .abandon _ cause _ _ =>
    if cause = 1 ∨ cause = 3 ∨ g.gaths.any (fun a => a.kind == 1 && a.key == n && !a.got.isEmpty) then n else if s.stepOpen slot g n then stepKey n else n
  | .commit .. => if s.stepOpen slot g n then stepKey n else n
  | .void .. => if s.stepOpen slot g n then stepKey n else n
  | .voidAck .. => if s.stepOpen slot g n then stepKey n else n
  | .rerun .. => if s.stepOpen slot g n then stepKey n else n
  | .folded .. => n | .keepalive => n | .loss .. => n

/-- Open operations of a group (R151). -/
def State.opsOpen (s : State) (slot : Nat) : Nat :=
  (s.cmn.colls.filter fun c => c.slot == slot).length

/-- A message for a rank of this device. -/
def State.inboxAdd (s : State) (m : CMsg) : State := { s with cmn := { s.cmn with inbox := s.cmn.inbox ++ [m] } }

/-! ### Connections (R118) -/

/-- The address the prefix forms with a device address. -/
def State.fabricIp (s : State) (dev : Nat) : Nat :=
  s.rd F.CMN_FABRIC_PFX_hi_pfx * 2 ^ 64 + s.rd F.CMN_FABRIC_PFX_lo_pfx * 2 ^ 20 + dev

/-- Whether a prefix has been written. -/
def State.hasPrefix (s : State) : Bool := s.rd F.CMN_FABRIC_PFX_hi_pfx != 0 || s.rd F.CMN_FABRIC_PFX_lo_pfx != 0

/-- The mtu of the commons: 8,192 where every logical port admits that payload with a tag and a shim, else 4,096. -/
def State.cmnMtu (s : State) : Nat :=
  if (List.range 64).all fun p => !s.lportExists p || decide (8366 ≤ s.rd F.PRT_LP_max_frame p) then 8192 else 4096

/-- The connections of a group record in its generation. -/
def State.cmnConns (s : State) (slot : Nat) : List (Nat × Conn) :=
  match s.group? slot with
  | some g => s.bxt.conns.filter fun q => decide (2 ≤ q.2.svc) && q.2.slot == slot && q.2.group == g.id
  | none => []

/-- The highest free connection ID below 0xF_FFF8. -/
def State.freeConnId (s : State) : Option Nat := lastBelow 0xFFFF8 fun c => c != 0 && (s.conn? c).isNone

/-- Creates an end of a commons connection, ARMED; none where an ID, the allowance or a pin cannot be had. -/
def State.cmnEnd (s : State) (slot : Nat) (g : Group) (svc dev : Nat) : Option (Nat × State) :=
  let p := s.rd F.PTN_INST_partition g.vf
  match s.freeConnId with
  | none => none
  | some c =>
    if !s.mayBack g.vf p || (svc == 2 && !s.mayPin g.vf p c) then none
    else
      let k := s.newConn g.vf p svc s.cmnMtu
      let k := { k with group := g.id, slot := slot, peerDev := dev, peerIp := s.fabricIp dev, epoch := g.gen, spray := 2, enc := g.enc,
                        pin := svc == 2, txSlot := g.txSlot, rxSlot := g.rxSlot }
      some (c, s.addConn c k)

/-- Opens a commons connection: an end, ARMED, that probes. -/
def State.cmnOpen (s : State) (slot : Nat) (g : Group) (svc dev : Nat) : Option (Nat × State) :=
  match s.cmnEnd slot g svc dev with
  | none => none
  | some (c, s) => match s.conn? c with
    | some k => some (c, s.sendProbe c k)
    | none => none

/-- The OPEN connection of a group to a device. -/
def State.cmnTo (s : State) (slot svc dev : Nat) : Option Nat :=
  ((s.cmnConns slot).find? fun q => q.2.svc == svc && q.2.peerDev == dev && q.2.state == .open_).map Prod.fst

/-- Reports a lost rank, the generation and the open operations to the fabric manager (R117, R143). -/
def State.reportLoss (s : State) (slot rank : Nat) : State :=
  match s.group? slot with
  | none => s
  | some g => s.emit (.lossReport g.id g.gen rank ((s.cmn.colls.filter fun c => c.slot == slot).map Coll.num))

/-- A rank of a group is lost as this device sees it (R117, R143): reported up, or, where it is the bellwether,
to the fabric manager, and the group re-forms here. -/
def State.seeLoss (s : State) (slot : Nat) (ranks : List Nat) : State :=
  match s.group? slot with
  | none => s
  | some g =>
    let new := ranks.filter fun r => !g.lost.contains r && !g.local_.contains r
    let s := s.setGroup slot { g with lost := g.lost ++ new }
    match g.local_ with
    | me :: _ => new.foldl (fun s r =>
        if r = 0 then (s.reportLoss slot 0).inboxAdd (.notice slot me 0 0 (.loss 0)) else (if g.local_.contains 0 then s.reportLoss slot r else s).inboxAdd (.report slot me me 0 (.loss r))) s
    | [] => s

/-- Sends a message of a group to a device on a connection of a service: at once where it is OPEN, else once it has opened. A chunk connection
is opened when first due, by whichever end has something due first: the end with the lower `dev_addr` need not know of it, and R118 settles
PROBEs from both ends (DEDUCED, log entry 57). Where it cannot be had its peer counts as lost. -/
def State.cmnSend (s : State) (slot svc dev cls : Nat) (ext : Ext) (data : List Byte) : State :=
  match s.cmnTo slot svc dev with
  | some c => s.sendMsg c cls ext false data none
  | none =>
    match s.group? slot with
    | none => s
    | some g =>
      let s := s.setGroup slot { g with unsent := g.unsent ++ [⟨dev, svc, cls, ext, data⟩] }
      if svc = 2 ∨ (s.cmnConns slot).any (fun q => q.2.svc == svc && q.2.peerDev == dev && q.2.state == .armed) then s
      else match s.cmnOpen slot g svc dev with
      | some (_, s) => s
      | none => s.seeLoss slot (g.ranksOf dev)

/-- Sends what waited for a connection that has opened. -/
def State.cmnFlushUnsent (s : State) (slot svc dev : Nat) : State :=
  match s.group? slot with
  | none => s
  | some g =>
    let mine := g.unsent.filter fun u => u.svc == svc && u.dev == dev
    let s := s.setGroup slot { g with unsent := g.unsent.filter fun u => !(u.svc == svc && u.dev == dev) }
    mine.foldl (fun s u => s.cmnSend slot svc dev u.cls u.ext u.data) s

/-! ### Reports and notices (R115-R117) -/

/-- A COORD message to a rank: taken here where this device holds it, else sent on the coordination connection, or, where the rank is not a
neighbour in the tree, on the chunk connection (R117). -/
def State.coordTo (s : State) (slot rank concerns nseq key : Nat) (b : CBody) (notice tree : Bool) : State :=
  match s.group? slot with
  | none => s
  | some g =>
    if g.local_.contains rank then
      s.inboxAdd (if notice then .notice slot rank nseq key b else .report slot rank concerns key b)
    else
      s.cmnSend slot (if tree then 2 else 3) (g.member rank).dev 0
        (.coord b.kind g.gen nseq g.id (if notice then rank else concerns) (key % 2 ^ 32)) b.bytes

/-- A rank's report goes to its parent, or straight to the bellwether where the parent is lost (R117). -/
def State.reportUp (s : State) (slot rank concerns key : Nat) (b : CBody) : State :=
  match s.group? slot with
  | none => s
  | some g =>
    if rank = 0 then s
    else if g.lost.contains (parentRank rank) then s.coordTo slot 0 concerns 0 key b false false
    else s.coordTo slot (parentRank rank) concerns 0 key b false true

/-- A rank of this device reports. -/
def State.ownReport (s : State) (slot rank key : Nat) (b : CBody) : State := s.inboxAdd (.report slot rank rank key b)

/-- The bellwether sends a notice (R116): the next `nseq`, beginning at 1. -/
def State.notify (s : State) (slot key : Nat) (b : CBody) : State :=
  match s.group? slot with
  | none => s
  | some g => (s.setGroup slot { g with nseq := g.nseq + 1 }).inboxAdd (.notice slot 0 g.nseq key b)

/-! ### Copies (R186, R188) -/

/-- The twin copies this device holds for a group: ranks whose twin's device it is. -/
def State.twinsHeld (s : State) (g : Group) : List Nat :=
  (List.range g.n).filter fun r => (g.member r).twinValid && (g.member (g.member r).twin).dev == s.devAddr && !g.local_.contains r

/-- The copies this device holds, as rank * 2 + twin. -/
def State.copiesHeld (s : State) (g : Group) : List Nat := g.local_.map (· * 2) ++ (s.twinsHeld g).map (· * 2 + 1)

/-- The table bound to a copy (R152). -/
def State.bind? (s : State) (slot copy : Nat) : Option Bind :=
  s.mill.binds.find? fun b => b.slot == slot && b.rank == copy / 2 && b.twin == (copy % 2 == 1)

/-- Changes the table bound to a copy. -/
def State.modBind (s : State) (slot copy : Nat) (f : Bind → Bind) : State :=
  { s with mill := { s.mill with
      binds := s.mill.binds.map fun b => if b.slot == slot && b.rank == copy / 2 && b.twin == (copy % 2 == 1) then f b else b } }

/-- The state of a bundle of a copy, and the worst of a copy: 0 TRACKING, 1 FILLING, 2 SUSPECT (R188). -/
def Bind.stateOf (b : Bind) (bundle : Nat) : Nat := Tbl.getD b.states bundle 0
def Bind.worst (b : Bind) : Nat := b.states.foldl (fun m q => max m q.2) 0

/-- `twin_state` of a completion (R188): the worst state of the copies held, or 3 where none of them has a twin. -/
def State.twinState (s : State) (slot : Nat) : Nat :=
  match s.group? slot with
  | none => 3
  | some g =>
    let mine := s.copiesHeld g
    if mine.all fun c => !(g.member (c / 2)).twinValid then 3 else mine.foldl (fun m c => max m (((s.bind? slot c).map Bind.worst).getD 0)) 0

/-- Puts bundles of a copy into a state and logs the change (R188); state 0 takes them out of the list. -/
def State.setCopy (s : State) (slot copy st : Nat) (bundles : List Nat) : State :=
  match s.bind? slot copy with
  | none => s
  | some b =>
    let new := bundles.filter fun x => b.stateOf x != st
    if new.isEmpty then s
    else (s.modBind slot copy fun b => { b with states := new.foldl (fun t x => if st = 0 then Tbl.erase t x else Tbl.set t x st) b.states }).logEv
      .MIL .stateChange st (copy / 2)

/-! ### The end of an operation -/

/-- Lets go of the units of an operation's chunks. -/
def State.unbindNodes (s : State) (l : List Node) : State :=
  l.foldl (fun s n => match n.unit with
    | some u => s.lower F.TAL_UNIT_STATE_slots_bound 1 u
    | none => s) s

/-- The key of a block within a copy. -/
def blkKey (b blk : Nat) : Nat := b * 2 ^ 32 + blk

/-- The first bundle a step runs in full (R119, R243). -/
def State.firstBundle (s : State) (c : Coll) : Nat := ((s.op? c.op).map fun o => fieldLE o.desc 36 2).getD 0

/-- Blocks of 32 elements in a copy's slice of a bundle (R120, R178). -/
def Coll.blocksIn (c : Coll) (n copy b : Nat) : Nat :=
  let q := shard (copy / 2) n (((c.plan[b]?).map (·.elems)).getD 0)
  ceilDiv (q.2 - q.1) 32

/-- A block of the last pass is stored and marked done (R156, R176, R179); one of pass 1 adds its norms (R163). -/
def State.commitBlock (s : State) (m : MillBlk) : State :=
  match s.op? m.op with
  | none => s
  | some o =>
    let onCopy := fun (s : State) (f : StepCopy → StepCopy) => s.modColl m.op fun c => { c with copies := Tbl.modify c.copies m.copy f }
    let s := if m.special then s.modOp m.op fun o => { o with cqe := { o.cqe with special := true } } else s
    if m.pass1 then onCopy s fun k =>
      { k with p1done := blkKey m.bundle m.blk :: k.p1done,
               norms := Tbl.set k.norms m.bundle (List.zipWith Norm.join (Tbl.getD k.norms m.bundle (List.replicate 4 Norm.zero)) m.norms) }
    else
      let s := m.stores.foldl (fun s q => s.writeLocs o.vf o.tag none q.1 q.2) s
      let s := ((s.bump F.MIL_ELEMS m.elems).bump F.MIL_DDR_ELEMS m.ddr).bump F.MIL_NONFINITE m.odd
      onCopy s fun k => { k with done := k.done ++ [m.blk], fill := Tbl.erase k.fill (blkKey m.bundle m.blk),
                                 stored := m.slots.foldl (fun t z => Tbl.set t (blkKey z.1 m.blk) z.2) k.stored }

/-- The blocks of an operation that have begun finish their stores, so that every element is wholly updated or untouched; those that have not
leave the engines (R180). A bundle all of whose blocks are then done counts as updated. -/
def State.freeEngines (s : State) (op : Nat) : State :=
  let mine := s.mill.engines.filter fun e => e.2.op == op
  let late := ((s.coll? op).map (·.parked)).getD []
  let s := mine.foldl (fun s e =>
    (({ s with mill := { s.mill with engines := Tbl.erase s.mill.engines e.1 } }).wr F.MIL_ENG_STATE_busy 0 e.1).commitBlock e.2) s
  let s := late.foldl (fun s m => s.commitBlock m) s
  s.modColl op fun c =>
    let n := ((s.group? c.slot).map Group.n).getD 0
    { c with parked := [], copies := Tbl.mapVals c.copies fun copy k =>
        if !k.done.isEmpty ∧ k.done.length = c.blocksIn n copy k.next then { k with next := k.next + 1, done := [], dealt := [] } else k }

/-- No engine works for a partition any more: MIL_PTN_STEP `pass` reads idle (R184). -/
def State.millIdle (s : State) (p : Nat) : State :=
  if s.mill.engines.any fun e => (s.op? e.2.op).map (·.part) == some p then s else s.wr F.MIL_PTN_STEP_pass 0 p

/-- An operation leaves the commons: its chunks leave the tally units, its slots return to the pool (R104, R107). -/
def State.dropColl (s : State) (c : Coll) : State :=
  let p := ((s.op? c.op).map (·.part)).getD 0
  let s := (s.unbindNodes c.nodes).freeEngines c.op
  let s := if c.isStep then s.millIdle p else s
  let s := s.releasePool p c.own c.borrowed
  { s with cmn := { s.cmn with colls := s.cmn.colls.filter fun x => x.op != c.op } }

/-- The status an operation shows when it ends: OK is TARGET_LOST where a publish write was dropped (R324). -/
def State.collStatus (s : State) (id status : Nat) : Nat :=
  if status = Status.ok ∧ ((s.op? id).map (·.cqe.status)) = some Status.targetLost then Status.targetLost else status

/-- Counts an ending in the registers of R150. -/
def State.countEnding (s : State) (status : Nat) : State :=
  if status = Status.checkFailed then s.bump F.CMN_CHECK_FAILED else if status = Status.deadlineMissed then s.bump F.CMN_DEADLINE else s

/-- An operation of the commons completes (R127, R251). -/
def State.endColl (s : State) (c : Coll) (status sub cause culprit bundles : Nat) : State :=
  let tw := s.twinState c.slot
  let s := s.countEnding status
  let s := s.dropColl c
  let s := if !c.isStep ∨ c.phase = .admitted then s
    else s.modGroup c.slot fun g =>
      let g := { g with gaths := g.gaths.filter fun a => a.kind == 1 || a.key != c.key }
      if status = Status.ok ∨ status = Status.twinDiverged then { g with lastStep := c.num, record := none } else { g with record := some (c.num, bundles) }
  let s := s.modOp c.op fun o =>
    { o with wrote := c.wrote.foldl (fun t q => joinWrites t q.2) [], cqe := { o.cqe with cinfo := cause + 8 * min 2 c.attempt + 32 * tw, result := leBytes 2 culprit ++ leBytes 4 bundles } }
  let s := match c.goAt, (s.op? c.op).map fun o => bitAt o.flags 3 with
    | some t, some true => s.wr F.CMN_OP_TIME_ns (min (2 ^ 32 - 1) (s.now - t))
    | _, _ => s
  s.endOp c.op (s.collStatus c.op status) sub

/-- Whole bundles that every copy of a step here has updated. -/
def Coll.bundlesDone (c : Coll) : Nat := (c.copies.map fun q => q.2.next).foldl min c.plan.length

/-- A step that ends here on its own leaves each copy of which it has updated a part, or has yet to update what is reduce-committed, FILLING from
the first bundle that is not wholly updated on, to the end of the bound table (R180, R194). -/
def State.spoilCopies (s : State) (c : Coll) : State :=
  c.copies.foldl (fun s q =>
    let first := s.firstBundle c
    let count := ((s.bind? c.slot q.1).map (·.count)).getD 0
    if c.plan.length ≤ q.2.next ∨ (q.2.done.isEmpty ∧ q.2.next ≤ first ∧ c.committed ≤ q.2.next) then s
    else s.setCopy c.slot q.1 1 ((List.range count).filter fun b => decide (q.2.next ≤ b))) s

/-- An operation ends at this device alone (R142): its mill blocks that have begun finish (R180), every rank here reports ABANDON, and it completes
with its own status. One the commons does not hold yet just ends. -/
def State.endLocally (s : State) (id status sub : Nat) : State :=
  let s := s.freeEngines id
  match s.coll? id with
  | none => s.endOp id status sub
  | some c =>
    let s := (((s.group? c.slot).map (·.local_)).getD []).foldl (fun s r =>
      s.ownReport c.slot r (if c.phase = .admitted then c.seq else c.key) (.abandon Status.aborted 2 r 0)) s
    let s := if c.isStep then s.spoilCopies c else s
    s.endColl c status sub 0 0 (if c.isStep then c.bundlesDone else 0)

end Sys2Proof.Machine
end

