-- ==== Sys2Proof/Machine/WorkQueue.lean ====
section
/-!
DEFINITION. Work queues (09_work_queues.md): the access gate of an instance window (R315), doorbells and pushes (R233, R234, R236),
fetching and judging entries (R230-R238, R246), halts (R247, R248), ring commands (R255, R258), flushes (R253).
-/

namespace Sys2Proof.Machine

/-! ### The instance window (R315) -/

/-- An access refused with Unsupported Request and counted (R315): a read of a number of bytes returns all ones, a posted write nothing. -/
def State.unsupported (s : State) (link : Nat) (read : Option Nat) : State :=
  let s := s.bump F.HPT_UR 1 link
  match read with
  | some n => s.emit (.tlpCpl link 1 (List.replicate n 0xFF))
  | none => s

/-- Whether an instance's partition is enabled and names a link's port (R315). -/
def State.portNamed (s : State) (link vf : Nat) : Bool :=
  match s.partOf vf with
  | some p => (s.partDef p).any fun d => d.hostPortMask.testBit (link / 4)
  | none => false

/-- Whether an instance's BARs answer on a link at all: the link is an endpoint's (R313, R315). -/
def State.barAnswers (s : State) (link vf : Nat) : Bool := !s.isRoot link && s.portNamed link vf

/-- Whether an instance is attached through a link: ATTACHED, or PAUSED after a re-attachment (R315, R320). -/
def State.onLink (s : State) (link vf : Nat) : Bool :=
  (s.rd F.HPT_INST_STATE_state vf == attAttached || s.rd F.HPT_INST_STATE_state vf == attPaused) && s.rd F.HPT_INST_STATE_link vf == link

/-- An access to an instance window that answers only on the attached link (R315): a read of a number of bytes, or a write. A link that is not up
carries none (R323). -/
def winAct (link vf : Nat) (read : Option Nat) (s : State) (f : State → State) : Host.Outcome State Fault Refusal :=
  actOn (decide (link < 16) && decide (vf < 1024)) s fun s =>
    if !s.linkUp link then s
    else if s.barAnswers link vf && s.onLink link vf then f s else s.unsupported link read

/-! ### Doorbells (R233, R236) -/

/-- A register write refused under R10 and logged (R471). -/
def State.refuseWrite (s : State) (b : Blk) (off : Nat) (index : Nat := 0) : State :=
  State.logEv { s with wrefused := s.wrefused + 1 } b .writeRefused 0 off index

/-- Whether fetching has halted for a ring's partition, or for the device (R247, R248). -/
def State.halted (s : State) (key : Nat) : Bool :=
  s.rd F.WQE_DEV_HALT_halted == 1
    || (key != ctlKey && s.rd F.WQE_PTN_HALT_halted (s.rd F.PTN_INST_partition (ringVf key)) == 1)

/-- The count of the oldest entry of a ring not yet completed (R233). -/
def Ring.oldest (r : Ring) : Nat := r.open_.foldl (fun a c => if cdiff r.fetched a < cdiff r.fetched c then c else a) r.fetched

/-- A new submission tail: ignored behind the one held, refused beyond the ring (R233); ignored and counted on a ring that is stopping,
counted during a halt (R247, R255). -/
def State.ringTail (s : State) (key tail off : Nat) : State :=
  match s.ring? key with
  | none => s.bump F.WQE_DB_REFUSED
  | some r =>
    if r.state ≠ .active then s.bump F.WQE_DB_REFUSED
    else
      let s := if s.halted key then s.bump F.WQE_DB_REFUSED else s
      if tail = r.tail then s.setRing key { r with parked := false }
      else if !serialOlder 32 r.tail tail then s
      else if serialOlder 32 r.oldest tail ∧ 2 ^ r.sqLog < cdiff tail r.oldest then (s.bump F.WQE_DB_REFUSED).refuseWrite .WQE off
      else s.setRing key { r with tail := tail, parked := false }

/-- A doorbell part other than the tail: none where the pair is not ACTIVE, which ignores and counts it (R255); counted during a halt (R247). -/
def State.ringBell (s : State) (key : Nat) : Option Ring × State :=
  match s.ring? key with
  | none => (none, s.bump F.WQE_DB_REFUSED)
  | some r =>
    if r.state ≠ .active then (none, s.bump F.WQE_DB_REFUSED)
    else (some r, if s.halted key then s.bump F.WQE_DB_REFUSED else s)

/-- A new completion head: ignored behind the one held, refused beyond the completion count (R233). -/
def State.ringHead (s : State) (key head off : Nat) : State :=
  match s.ringBell key with
  | (none, s) => s
  | (some r, s) =>
    if !serialOlder 32 r.head head then s
    else if serialOlder 32 r.posted head then (s.bump F.WQE_DB_REFUSED).refuseWrite .WQE off
    else s.setRing key { r with head := head }

/-- `arm` (R236): one interrupt at the next completion, or at once where completions are pending. -/
def State.ringArm (s : State) (key : Nat) : State :=
  match s.ringBell key with
  | (none, s) => s
  | (some r, s) =>
    if r.posted ≠ r.head then s.interrupt (ringVf key) r.vector
    else (s.setRing key { r with armed := true }).wr F.WQE_DB_arm 1 key

/-- The offset of a ring's doorbell in its window. -/
def dbOff (ring part : Nat) : Nat := 0x10000 + 16 * ring + part

/-- A write of `sq_tail` (R233). -/
def execSqDoorbell (link vf ring tail : Nat) (s : State) : Host.Outcome State Fault Refusal :=
  winAct link vf none s fun s => s.ringTail (vf * 4096 + ring % 4096) (tail % 2 ^ 32) (dbOff ring 0)

/-- A write of `cq_head` (R233). -/
def execCqDoorbell (link vf ring head : Nat) (s : State) : Host.Outcome State Fault Refusal :=
  winAct link vf none s fun s => s.ringHead (vf * 4096 + ring % 4096) (head % 2 ^ 32) (dbOff ring 4)

/-- A write of `arm` (R236). -/
def execArm (link vf ring : Nat) (s : State) : Host.Outcome State Fault Refusal :=
  winAct link vf none s fun s => s.ringArm (vf * 4096 + ring % 4096)

/-- A write of the control-ring tail (R259). -/
def execCtlSqDoorbell (tail : Nat) (s : State) : Host.Outcome State Fault Refusal :=
  act s (asManager false fun s => s.ringTail ctlKey (tail % 2 ^ 32) 0x10)

/-- A write of the control completion head (R259). -/
def execCtlCqDoorbell (head : Nat) (s : State) : Host.Outcome State Fault Refusal :=
  act s (asManager false fun s => s.ringHead ctlKey (head % 2 ^ 32) 0x10)

/-- A push (R234): the entry is taken at `sq_tail`, or dropped where its `phase` is not current or the ring is not ACTIVE. -/
def State.pushEntry (s : State) (key : Nat) (e : List Byte) : State :=
  match s.ring? key with
  | none => s.bump F.WQE_PUSH_DROP
  | some r =>
    if r.state ≠ .active ∨ phaseOf e ≠ phaseAt r.tail r.sqLog then s.bump F.WQE_PUSH_DROP
    else
      let s := if s.halted key then s.bump F.WQE_DB_REFUSED else s
      s.setRing key { r with pushed := Tbl.set r.pushed r.tail e, tail := (r.tail + 1) % 2 ^ 32, parked := false }

/-- Bytes written into a push slot (R234): they gather until the entry's last byte is written, and the entry is then taken; one of which another
byte was never written is no whole entry and is dropped (log entry 64). -/
def State.pushBytes (s : State) (vf ring at_ : Nat) (data : List Byte) : State :=
  let key := vf * 4096 + ring
  let size := if (s.ring? key).any (!·.entry256) then 64 else 256
  let i := s.inst vf
  let old := Tbl.getD i.pushing ring []
  let buf := (data.zipIdx.filter fun b => decide (at_ + b.2 < size)).foldl (fun t b => Tbl.set t (at_ + b.2) b.1) old
  if at_ < size ∧ size ≤ at_ + data.length then
    let s := s.setInst vf { i with pushing := Tbl.erase i.pushing ring }
    if buf.length = size then s.pushEntry key (Tbl.vals buf) else s.bump F.WQE_PUSH_DROP
  else s.setInst vf { i with pushing := Tbl.set i.pushing ring buf }

/-- A whole entry written into a push slot (R234): 256 bytes, of which a 64-byte ring uses the first 64. -/
def execPush (link vf ring : Nat) (entry : List Byte) (s : State) : Host.Outcome State Fault Refusal :=
  winAct link vf none s fun s =>
    if 1024 ≤ ring then s.bump F.HPT_UR 1 link
    else
      let key := vf * 4096 + ring
      let size := if (s.ring? key).any (·.entry256) then 256 else 64
      s.pushEntry key (padTo size (entry.take size))

/-! ### Judging (R237-R246) -/

/-- Whether an opcode exists (R238, and the chapters it names). -/
def opcodeKnown (o : Nat) : Bool :=
  (decide (1 ≤ o) && decide (o ≤ 7)) || (decide (0x10 ≤ o) && decide (o ≤ 0x12)) || (decide (0x20 ≤ o) && decide (o ≤ 0x22))
    || o == 0x40 || o == 0x41 || (decide (0x50 ≤ o) && decide (o ≤ 0x55)) || (decide (0x60 ≤ o) && decide (o ≤ 0x69))

/-- Whether a ring kind accepts an opcode (R238, R337, R388, R420). -/
def opcodeOn (o : Nat) : RingKind → Bool
  | .control => o == 1 || decide (0x60 ≤ o)
  | .receive => o == 6
  | .work => o != 6 && decide (o < 0x60)

/-- The flag bits an opcode uses (R237). -/
def flagsUsed (o : Nat) : Nat :=
  if o = 2 ∨ o = 4 then 0b000111 else if o = 0x10 ∨ o = 0x11 then 0b111001 else 0b000001

/-- The reserved body bytes of R238-R245 are 0. -/
def bodyZero (o : Nat) (d : List Byte) : Bool :=
  if o = 1 ∨ o = 0x22 then zeroBytes d 16 47
  else if o = 2 then zeroBytes d 40 23
  else if o = 3 then zeroBytes d 40 23
  else if o = 4 then zeroBytes d 24 12 && zeroBytes d 44 19
  else if o = 5 then zeroBytes d 29 3 && zeroBytes d 48 15
  else if o = 6 then zeroBytes d 28 35
  else if o = 7 then fieldLE d 54 1 / 128 == 0 && zeroBytes d 55 8
  else if o = 0x10 then fieldLE d 54 1 / 128 == 0 && fieldLE d 55 1 / 128 == 0 && fieldLE d 58 1 / 128 == 0
  else if o = 0x11 then fieldLE d 42 1 / 128 == 0 && fieldLE d 43 1 % 16 == 0 && fieldLE d 43 1 / 128 == 0
    && fieldLE d 44 1 % 8 == 0 && fieldLE d 44 1 / 128 == 0 && zeroBytes d 49 14
  else if o = 0x12 then fieldLE d 28 1 / 4 == 0 && zeroBytes d 29 34
  else if o = 0x20 ∨ o = 0x21 then zeroBytes d 58 5
  else true

/-- Reserved header bits of R237: flags the opcode does not use, `chunk_log2` outside COLL and STEP, byte 3 where it has no meaning. -/
def headerZero (h : DescHdr) : Bool :=
  (h.flags &&& (0xFF - flagsUsed h.opcode)) == 0
    && (h.opcode == 0x10 || h.opcode == 0x11 || h.chunkLog2 == 0)
    && (h.opcode == 2 || h.opcode == 4 || h.opcode == 0x10 || h.opcode == 0x11 || h.inlineLen == 0)

/-- The inline rules of R240; true where they are kept. -/
def inlineOk (h : DescHdr) (d : List Byte) (entry256 : Bool) : Bool :=
  let moves := h.opcode == 2 || h.opcode == 4
  if bitAt h.flags 2 then
    entry256 && moves && decide (h.inlineLen ≤ 192) && fieldLE d 36 4 == h.inlineLen && fieldLE d 16 8 == 0
  else !moves || h.inlineLen == 0

/-- The reason an entry is malformed, if it is: the first of 1, 4, 2, 3 that applies (R246). -/
def malformed (r : Ring) (d : List Byte) : Option Nat :=
  let h := descHdr d
  if !opcodeKnown h.opcode then some 1
  else if !opcodeOn h.opcode r.kind then some 4
  else if !headerZero h then some 2
  else if !inlineOk h d r.entry256 then some 3
  else none

/-- What a CONN_MODIFY shows however it ends: the epoch in force of its connection (R251). -/
def State.epochShown (s : State) (key : Nat) (h : DescHdr) : List Byte :=
  match (if h.opcode = 0x21 then s.conn? h.target else none) with
  | some k => if k.vf = ringVf key ∧ k.svc = 0 then leBytes 2 k.epoch else []
  | none => []

/-- The completion, as it begins, of the entry of a count (R249, R251). -/
def State.cqeFor (s : State) (key count : Nat) (r : Ring) (d : List Byte) : Cqe :=
  { cqe0 (descHdr d) (count % 2 ^ r.sqLog) with result := s.epochShown key (descHdr d) }

/-! ### Halts (R247, R248) -/

/-- Completes fetched entries HALTED (R247, R248). -/
def State.haltFetched (s : State) (mine : Nat → Bool) : State :=
  let out := s.fetched.filter fun f => mine f.key
  let s := { s with fetched := s.fetched.filter fun f => !mine f.key }
  out.foldl (fun s f =>
    match s.ring? f.key with
    | some r => s.completeEntry f.key f.count { s.cqeFor f.key f.count r f.desc with status := Status.halted }
    | none => s) s

/-- A malformed entry: its completion with the reason, and the halt of its partition, or of the device on the control ring. -/
def State.malformedEntry (s : State) (key : Nat) (r : Ring) (count : Nat) (d : List Byte) (reason : Nat) : State :=
  let slot := count % 2 ^ r.sqLog
  let s := s.bump F.WQE_MALFORMED
  let s := s.completeEntry key count
    { cqe0 (descHdr d) slot with status := Status.fencedOrMalformed, sub := 2, result := leBytes 1 reason }
  if key = ctlKey then
    let s := ((s.wr F.WQE_DEV_HALT_halted 1).wr F.WQE_DEV_HALT_reason reason).wr F.WQE_DEV_HALT_slot slot
    (s.logEv .WQE .halt reason (2 ^ 44 + slot)).haltFetched fun _ => true
  else
    let vf := ringVf key
    let p := s.rd F.PTN_INST_partition vf
    let s := (((((s.wr F.WQE_PTN_HALT_halted 1 p).wr F.WQE_PTN_HALT_reason reason p).wr F.WQE_PTN_HALT_ring (key % 4096) p).wr
      F.WQE_PTN_HALT_vf vf p).wr F.WQE_PTN_HALT_slot slot p).wr F.PTN_PART_halted 1 p
    let s := s.logEv .WQE .halt reason (p * 2 ^ 38 + vf * 2 ^ 28 + key % 4096 * 2 ^ 16 + slot)
    s.haltFetched fun k => k != ctlKey && s.rd F.PTN_INST_partition (ringVf k) == p

/-! ### Fetching (R232, R235) -/

/-- The entry size of a ring in bytes. -/
def Ring.esz (r : Ring) : Nat := if r.entry256 then 256 else 64

/-- What reading an entry gives. -/
inductive EntryRead where
  | bytes (e : List Byte)
  | poison
  | wait (link addr : Nat)
  | nowhere
  deriving DecidableEq, Repr

/-- Reads the entry of a count: its pushed copy, or its ring slot (R234); a slot in host memory is read over its link (R312). -/
def State.readEntry (s : State) (r : Ring) (count : Nat) : EntryRead :=
  match Tbl.get? r.pushed count with
  | some e => .bytes e
  | none =>
    let off := count % 2 ^ r.sqLog * r.esz
    match r.sqPages[off / 4096]? with
    | some (.dev a) => if s.devBad (a + off % 4096) r.esz then .poison else .bytes (s.memRead (a + off % 4096) r.esz)
    | some (.host x a) =>
      if (Tbl.get? s.hpt.view (hostKey x (a + off % 4096))).isSome then
        .bytes ((List.range r.esz).map fun k => s.hostByte x (a + off % 4096 + k))
      else .wait x (a + off % 4096)
    | none => .nowhere

/-- Forgets the delivered bytes of a host slot, so that a later lap reads it afresh. -/
def State.forgetEntry (s : State) (r : Ring) (count : Nat) : State :=
  let off := count % 2 ^ r.sqLog * r.esz
  match r.sqPages[off / 4096]? with
  | some (.host x a) =>
    let lo := hostKey x (a + off % 4096)
    { s with hpt := { s.hpt with view := Tbl.keep s.hpt.view fun q _ => !(decide (lo ≤ q) && decide (q < lo + r.esz)) } }
  | _ => s

/-- Takes an owned entry: reserves its completion, judges it, and keeps it for admission (R235, R246, R257). -/
def State.takeEntry (s : State) (key : Nat) (r : Ring) (e : List Byte) : State :=
  let count := r.fetched
  let d := e.drop (e.length - 64)
  let s := s.setRing key { r with
    fetched := (count + 1) % 2 ^ 32, pushed := Tbl.erase r.pushed count, open_ := r.open_ ++ [count], waiting := false }
  match malformed r d with
  | some reason => s.malformedEntry key r count d reason
  | none => { s with fetched := s.fetched ++ [⟨key, count, d, if r.entry256 then e.take 192 else []⟩] }

/-- Reading the slot of a count meets the errors of its words (R358). -/
def State.eccEntry (s : State) (r : Ring) (count : Nat) : State :=
  let off := count % 2 ^ r.sqLog * r.esz
  match r.sqPages[off / 4096]? with
  | some (.dev a) => if s.tier.flaws.isEmpty then s else s.eccFind (a + off % 4096) r.esz
  | _ => s

/-- The completion of an entry that cannot be read (R359): CHECK_FAILED, `wr_id` 0, its slot. -/
def State.lostEntry (s : State) (key count : Nat) (r : Ring) : State :=
  s.completeEntry key count { eventCqe [] with event := false, slot := count % 2 ^ r.sqLog, status := Status.checkFailed }

/-- A poisoned entry (R359) is passed, and completes so. -/
def State.poisonEntry (s : State) (key : Nat) (r : Ring) : State :=
  let count := r.fetched
  let s := match r.sqPages[count % 2 ^ r.sqLog * r.esz / 4096]? with
    | some (.dev a) => s.bump (poisonFld (tierOf a))
    | _ => s
  let s := s.setRing key { r with fetched := (count + 1) % 2 ^ 32, open_ := r.open_ ++ [count], waiting := false }
  s.lostEntry key count r

/-- Whether the front end may fetch from a ring now: ACTIVE, no halt, no fence, the instance LIVE and ATTACHED (R320), and a doorbell
since it resumed (R383). -/
def State.mayFetch (s : State) (key : Nat) (r : Ring) : Bool :=
  r.state == .active && !r.pinLost && !r.parked && !s.halted key &&
    (key == ctlKey || (s.attached (ringVf key) && !s.fencedInst (ringVf key) (s.rd F.PTN_INST_partition (ringVf key)) && s.rd F.PTN_INST_state (ringVf key) == instLive))

/-- Fetches entries a doorbell covers, then reads as many beyond the tail as the ring's `spec` still allows (R232): an owned one is taken, one that is
not is discarded and counted, and so are those behind it that are not owned; one behind it that is waits until its count comes. A slot in host memory
is read over its link, and the loop goes on when it has come. `n` bounds the loop. -/
def State.fetchLoop (s : State) (key : Nat) : Nat → State
  | 0 => s
  | n + 1 =>
    match s.ring? key with
    | none => s
    | some r =>
      let covered := serialOlder 32 r.fetched r.tail
      if !s.mayFetch key r ∨ s.cqFree key r = 0 ∨ (!covered ∧ r.spec = 0) then s
      else
        let count := (r.fetched + r.skip) % 2 ^ 32
        let pass := { r with spec := r.spec - 1, skip := r.skip + 1 }
        let s := s.eccEntry r count
        match s.readEntry r count with
        | .nowhere => s
        | .wait x a =>
          if s.readsOf (.ring key) ∨ !s.linkUp x then s
          else s.issueReads (.ring key) (ringVf key) r.tag [(x, a, r.esz)]
        | .poison => if covered then (s.poisonEntry key r).fetchLoop key n else (s.setRing key pass).fetchLoop key n
        | .bytes e =>
          let own := phaseOf e == phaseAt count r.sqLog
          let s := s.forgetEntry r count
          if own ∧ r.skip = 0 then (s.takeEntry key (if covered then r else { r with spec := r.spec - 1 }) e).fetchLoop key n
          else if covered then (s.bump F.WQE_REFETCH).setRing key { r with waiting := true }
          else ((if own then s else s.bump F.WQE_REFETCH).setRing key pass).fetchLoop key n

/-- One run of the front end over a ring: entries a doorbell covers and, where there are any, up to 8 beyond the tail (R232). -/
def State.fetchRing (s : State) (key : Nat) : State :=
  match s.ring? key with
  | none => s
  | some r =>
    let n := cdiff r.tail r.fetched
    if serialOlder 32 r.fetched r.tail then (s.setRing key { r with spec := 8, skip := 0 }).fetchLoop key (n + 9)
    else if 0 < r.spec then s.fetchLoop key 9 else s

/-- The front end fetches and judges a ring's owned entries (R232). -/
def execEntryFetch (key : Nat) (s : State) : Host.Outcome State Fault Refusal :=
  act s fun s => s.fetchRing key

/-- A covered slot not yet owned is read again (R232). -/
def execFetchRecheckTimer (key : Nat) (s : State) : Host.Outcome State Fault Refusal :=
  act s fun s => if (s.ring? key).any (·.waiting) then s.fetchRing key else s

/-! ### Ring commands (R255, R258, R348) -/

/-- The outcome registers of a ring command (R258): done, or refused with a reason. -/
def State.ringResult (s : State) (vf reason : Nat) : State :=
  let s := (s.wr F.WQE_RING_STATUS_done (b2n (reason == 0)) vf).wr F.WQE_RING_STATUS_refused (b2n (reason != 0)) vf
  s.wr F.WQE_RING_STATUS_reason reason vf

/-- Rings an instance holds. -/
def State.ringsOf (s : State) (vf : Nat) : Nat := (s.rings.filter fun q => ringVf q.1 == vf && q.1 != ctlKey).length

/-- The addresses of a range's pages. -/
def pageVas (base bytes : Nat) : List Nat := (blocksOf 4096 base bytes).map fun p => base + p.1

/-- The pages of a ring, translated and pinned (R348). -/
def State.pinRange (s : State) (vf part tag base bytes : Nat) (acc : AccKind) : Option (List Loc) × State :=
  if s.ownsTag vf tag then pinPages (fun va s => s.lookup part vf tag va acc) (pageVas base bytes) s else (none, s)

/-- CREATE (R258, R348): the refusal that comes first in the order 6, 4, 3, 2, 1, or the new pair. -/
def State.ringCreate (s : State) (vf : Nat) : State :=
  let ring := s.rd F.WQE_RING_SEL_ring vf
  let key := vf * 4096 + ring
  let sqLog := s.rd F.WQE_RING_ARG2_sq_log2 vf
  let cqLog := s.rd F.WQE_RING_ARG2_cq_log2 vf
  let e256 := s.rd F.WQE_RING_ARG2_entry256 vf == 1
  let rcv := s.rd F.WQE_RING_ARG2_receive vf == 1
  let tag := s.rd F.WQE_RING_ARG2_tag vf
  let sq := s.rd F.WQE_RING_ARG0_sq_base vf
  let cq := s.rd F.WQE_RING_ARG1_cq_base vf
  let part := s.rd F.PTN_INST_partition vf
  let esz := if e256 then 256 else 64
  if sqLog < 6 ∨ 16 < sqLog ∨ cqLog < 6 ∨ 16 < cqLog ∨ (rcv ∧ e256) then s.ringResult vf 4
  else if sq % 4096 ≠ 0 ∨ cq % 4096 ≠ 0 then s.ringResult vf 3
  else match s.pinRange vf part tag sq (2 ^ sqLog * esz) .read with
  | (none, s) => s.ringResult vf 3
  | (some sp, s) =>
    match s.pinRange vf part tag cq (2 ^ cqLog * 32) .write with
    | (none, s) => s.ringResult vf 3
    | (some cp, s) =>
      if (s.ring? key).isSome then s.ringResult vf 2
      else if s.rd F.PTN_INST_rings vf ≤ s.ringsOf vf then s.ringResult vf 1
      else
        let r : Ring :=
          { kind := if rcv then .receive else .work, state := .active, sqBase := sq, cqBase := cq, sqLog := sqLog,
            cqLog := cqLog, entry256 := e256, tag := tag, vector := s.rd F.WQE_RING_ARG3_vector vf, fetched := 0, tail := 0, posted := 0,
            head := 0, armed := false, pushed := [], sqPages := sp, cqPages := cp, open_ := [], pinLost := false, recvs := [],
            nextSsn := 0, waiting := false, late := [], parked := false }
        (s.setRing key r).ringResult vf 0

/-- CREATE written to WQE_RING_CMD (R348). -/
def execRingCreate (link vf : Nat) (s : State) : Host.Outcome State Fault Refusal :=
  winAct link vf none s fun s => s.ringCreate vf

/-- Completes entries fetched and not admitted of a ring with a status. -/
def State.dropFetched (s : State) (mine : Nat → Bool) (status sub : Nat) : State :=
  let out := s.fetched.filter fun f => mine f.key
  let s := { s with fetched := s.fetched.filter fun f => !mine f.key }
  out.foldl (fun s f =>
    match s.ring? f.key with
    | some r => s.completeEntry f.key f.count { s.cqeFor f.key f.count r f.desc with status := status, sub := sub }
    | none => s) s

/-- Owned entries not yet fetched complete ABORTED in slot order while a completion slot is free (R255 step 2). One in host memory is read over its
link first, and `aborting` stands until that is over. -/
def State.abortOwned (s : State) (key : Nat) : Nat → State
  | 0 => s.modRing key fun r => { r with aborting := false }
  | n + 1 =>
    match s.ring? key with
    | none => s
    | some r =>
      let endAbort := fun (s : State) => s.modRing key fun r => { r with aborting := false }
      if s.cqFree key r = 0 then endAbort s
      else match s.readEntry r r.fetched with
      | .bytes e =>
        if phaseOf e = phaseAt r.fetched r.sqLog then
          let count := r.fetched
          let s := (s.forgetEntry r count).setRing key
            { r with fetched := (count + 1) % 2 ^ 32, pushed := Tbl.erase r.pushed count, open_ := r.open_ ++ [count] }
          (s.completeEntry key count { s.cqeFor key count r (e.drop (e.length - 64)) with status := Status.aborted }).abortOwned
            key n
        else endAbort (s.forgetEntry r r.fetched)
      | .wait x a =>
        if !s.linkUp x then endAbort s
        else if s.readsOf (.ring key) then s
        else s.issueReads (.ring key) (ringVf key) r.tag [(x, a, r.esz)]
      | _ => endAbort s

/-- A ring's slot has been read over its host link: fetching goes on, or, on a stopping ring, the completing of owned entries. -/
def State.ringData (s : State) (key : Nat) : State :=
  match s.ring? key with
  | some r => if r.aborting then s.abortOwned key (2 ^ r.sqLog) else s.fetchRing key
  | none => s

/-- A started operation that is told to end (R255 steps 3 and 5, R262): it issues nothing new; messages of which nothing has been sent are
dropped; where nothing of it is under way any more it ends now, else when its messages have. One that waits for its flushes has not completed, and
takes the status too. -/
def State.windDown (s : State) (id status sub : Nat) : State :=
  match s.op? id with
  | none => s
  | some o =>
    if o.phase = .ending ∨ o.phase = .done then s
    else if o.phase = .flushing then s.setOp id { o with cqe := { o.cqe with status := status, sub := sub } }
    else if o.opcode = 0x10 ∨ o.opcode = 0x11 then s.endLocally id status sub
    else if o.opcode = 0x40 ∨ o.opcode = 0x41 then
      match s.streamOf id with
      | some n => s.endStream n status 0 0 none
      | none => s
    else
      let s := match s.conn? o.target with
        | some k =>
          if 2 ≤ o.opcode ∧ o.opcode ≤ 5 then
            s.setConn o.target { k with
              queue := k.queue.filter fun q => !(q.2 == some id) || msgBegun q.1.msn
              roceQueue := if k.roceSent.any fun x => x.op == some id then k.roceQueue else k.roceQueue.filter fun x => x.op != some id
              reads := k.reads.filter fun r => r.op != id || k.roceSent.any fun x => x.op == some id
              openAtomics := k.openAtomics.filter fun a => a.op != id || decide (a.psn < 2 ^ 32)
              outMsgs := Tbl.keep k.outMsgs fun m q => q.1 != some id || msgBegun m }
          else s
        | none => s
      let left := match s.conn? o.target with
        | some k => if k.roce then (if k.roceSent.any fun x => x.op == some id then o.msgs else []) else if o.opcode ≤ 4 then o.msgs.filter msgBegun else if o.opcode = 5 then
            (if k.openAtomics.any (fun a => a.op == id) then o.msgs else []) else []
        | none => []
      let s := { s with
        xlt := { s.xlt with holds := s.xlt.holds.filter fun h => h.who != Waiter.op id }
        hpt := { s.hpt with reads := s.hpt.reads.map fun (r : HostRead) => if r.who == Waiter.op id then { r with who := .inbound } else r } }
      let s := if o.opcode = 6 then s.showRecv o.target id else s
      let o := { (s.op? id).getD o with msgs := left, moved := o.length, cqe := { ((s.op? id).getD o).cqe with status := status, sub := sub } }
      if left.isEmpty then (s.setOp id o).endOp id status sub
      else s.setOp id { o with phase := .ending }

/-- Moves a ring that is stopping, and has nothing outstanding, to STOPPED (R255 step 7). -/
def State.ringStopped (s : State) (key : Nat) : State :=
  match s.ring? key with
  | some r => if r.state = .stopping ∧ r.open_.isEmpty ∧ !r.aborting then s.setRing key { r with state := .stopped } else s
  | none => s

/-- Entries posted to a ring in counts that lie in it. -/
def State.opsOfRing (s : State) (key : Nat) : List Nat := (s.ops.filter fun p => p.2.key == key).map Prod.fst

/-- STOP (R255): nothing more is fetched; entries not started complete ABORTED; started ones are wound down. -/
def State.ringStop (s : State) (key : Nat) : State :=
  match s.ring? key with
  | none => s
  | some r =>
    if r.state ≠ .active then s
    else
      let s := s.modRing key fun r => { r with state := .stopping, recvs := [], waiting := false, aborting := true }
      let s := s.dropFetched (· == key) Status.aborted 0
      let s := s.abortOwned key (2 ^ r.sqLog)
      (s.opsOfRing key).foldl (fun s id => s.windDown id Status.aborted 0) s

/-- The last started entry of a stopping ring has ended (R255). -/
def execRingStopDone (key : Nat) (s : State) : Host.Outcome State Fault Refusal :=
  act s fun s => s.ringStopped key

/-- Whether an open connection names a receive ring (R258). -/
def State.recvNamed (s : State) (key : Nat) : Bool := s.bxt.conns.any fun q => q.2.recvKey == some key

/-- DESTROY (R258): a STOPPED pair becomes FREE; a RECEIVE ring that a connection names is refused. -/
def State.ringDestroy (s : State) (vf : Nat) : State :=
  let key := vf * 4096 + s.rd F.WQE_RING_SEL_ring vf
  match s.ring? key with
  | none => s.ringResult vf 5
  | some r =>
    if r.state ≠ .stopped ∨ s.recvNamed key then s.ringResult vf 5
    else (State.ringResult { s with rings := Tbl.erase s.rings key } vf 0).wr F.WQE_DB_arm 0 key

/-- DESTROY written to WQE_RING_CMD (R258). -/
def execRingDestroy (link vf : Nat) (s : State) : Host.Outcome State Fault Refusal :=
  winAct link vf none s fun s => s.ringDestroy vf

end Sys2Proof.Machine
end

