-- ==== Sys2Proof/Machine/Admission.lean ====
section
/-!
DEFINITION. The gatekeeper (10_gatekeeper_admission.md): resources and reserved rates (R263, R264), virtual clocks (R265), token buckets
(R266), the admission test (R270, R271), and how a fetched entry becomes an operation.
-/

namespace Sys2Proof.Machine

/-- The budget of a class in nanoseconds (R260); classes 6 and 7 have none. -/
def classBudget : Nat → Option Nat
  | 0 => some (20 * us)
  | 1 => some (100 * us)
  | 2 => some ms
  | 3 => some (10 * ms)
  | 4 => some (100 * ms)
  | 5 => some sec
  | _ => none

/-! ### Rates (R264) -/

/-- The sum of the weights of a partition's instances. -/
def State.weightSum (s : State) (p : Nat) : Nat := sumNat ((s.instsOf p).map fun v => s.weight v p)

/-- Whether an instance may use a class (R378); a mask of 0 names all of 0 to 6. -/
def State.classAllowed (s : State) (vf cls : Nat) : Bool :=
  let m := s.rd F.PTN_INST_class_mask vf % 128
  m == 0 || bitAt m cls

/-- The ADM_CLASS_FRAC field of a class. -/
def State.classFrac (s : State) (cls : Nat) : Nat :=
  match cls with
  | 0 => s.rd F.ADM_CLASS_FRAC_frac0
  | 1 => s.rd F.ADM_CLASS_FRAC_frac1
  | 2 => s.rd F.ADM_CLASS_FRAC_frac2
  | 3 => s.rd F.ADM_CLASS_FRAC_frac3
  | 4 => s.rd F.ADM_CLASS_FRAC_frac4
  | 5 => s.rd F.ADM_CLASS_FRAC_frac5
  | _ => 0

/-- A rate in bytes per second as a fraction. -/
structure Rate where
  num : Nat
  den : Nat
  deriving DecidableEq, Repr

/-- The reserved rate of an instance in a class on a resource of raw capacity `cap` bytes per second (R264). -/
def State.rho (s : State) (vf p cls cap : Nat) : Rate :=
  if s.classAllowed vf cls then
    ⟨cap * (256 - s.rd F.ADM_CFG_mgmt_frac) * s.classFrac cls * ((s.shares p).classShare.getD cls 0) * s.weight vf p,
      256 * 256 * 256 * max 1 (s.weightSum p)⟩
  else ⟨0, 1⟩

/-- Nanoseconds that `n` bytes take at a rate, rounded up. -/
def Rate.ns (r : Rate) (n : Nat) : Nat := ceilDiv (n * 1000000000 * r.den) (max 1 r.num)

/-- Raw capacity of a logical port and of a host link, in bytes per second (R264, R282, R311). -/
def State.portCap (s : State) (j : Nat) : Nat := s.portRate j * 1000000000
def State.linkCap (s : State) (x : Nat) : Nat := s.rd F.HPT_LINK_rate_mbs x * 1000000

/-- The rate of a grant that stands, in bytes per second (R268): 64 × `budget` in half of `valid_us`. -/
def State.grantRate (s : State) (c cls : Nat) : Rate :=
  match Tbl.get? s.adm.grants (c * 8 + cls) with
  | some (b, v, _) => ⟨64 * b * 2 * 1000000, max 1 v⟩
  | none => ⟨0, 1⟩

/-! ### Charges (R263) -/

/-- Resources: logical ports 0 to 63, host links 64 + 2 × link + direction (0 to the host, 1 from it), grants 4096 + connection. -/
abbrev resPort (j : Nat) : Nat := j
abbrev resLink (x dir : Nat) : Nat := 64 + 2 * x + dir
abbrev resGrant (c : Nat) : Nat := 4096 + c

/-- The key of a virtual clock. -/
def vcKey (res vf cls : Nat) : Nat := (res * 1024 + vf) * 8 + cls

/-- What an entry asks of the gatekeeper: bytes on each port and on each link direction, bytes of each grant, the bytes its bucket is
charged, the connection's `srtt` and `rto` in nanoseconds, its mtu; `noPort` where its port set is empty (R263). -/
structure Charge where
  ports : List (Nat × Nat)
  links : List (Nat × Nat × Nat)
  grants : List (Nat × Nat)
  tokens : Nat
  srtt : Nat
  rto : Nat
  mtu : Nat
  noPort : Bool
  deriving DecidableEq, Repr

/-- Nothing asked. -/
def Charge.none : Charge := ⟨[], [], [], 0, 0, 0, 0, false⟩

/-- Spreads bytes over the UP ports of a connection's set in proportion to their rates, or charges the one port of `spray` 0 (R263). -/
def State.spread (s : State) (k : Conn) (cls n : Nat) : List (Nat × Nat) :=
  let up := s.upPorts k.peerDev
  if k.spray = 0 then
    match (match k.port with
      | some p => if up.contains p then some p else Option.none
      | Option.none => Option.none) with
    | some p => [(p, n)]
    | Option.none => match s.choosePort k.peerDev (s.trafficClass cls) k.rot up with
      | some p => [(p, n)]
      | Option.none => []
  else
    let total := max 1 (sumNat (up.map s.portRate))
    up.map fun j => (j, ceilDiv (n * s.portRate j) total)

/-- Bytes of a local range that lie on each host link, as its tables stand (R263). -/
def State.linkBytes (s : State) (part vf tag va n : Nat) : Tbl Nat :=
  if s.ownsTag vf tag then
    (blocksOf 4096 va n).foldl (fun t p => match s.walk part vf tag (va + p.1) with
      | .ok l => (match l.loc with
        | .host x _ => Tbl.set t x (Tbl.getD t x 0 + p.2)
        | .dev _ => t)
      | .error _ => t) []
  else []

/-- The links of a local buffer in one direction, as a charge. -/
def State.linkCharge (s : State) (vf p tag va n dir : Nat) : List (Nat × Nat × Nat) :=
  (s.linkBytes p vf tag va n).map fun q => (q.1, dir, q.2)

/-- The charge of a connection operation: bytes on its port set, its grant where its entry uses one, however few its bytes, its host links in one
direction (R263). A RoCEv2 connection has no grant. -/
def State.connCharge (s : State) (c : Nat) (k : Conn) (cls wire : Nat) (grant : Option Nat) (tokens : Nat) (links : List (Nat × Nat × Nat)) :
    Charge :=
  { ports := s.spread k cls wire, links := links, grants := if k.roce then [] else (grant.map fun n => (c, n)).toList, tokens := tokens,
    srtt := k.srtt.getD (10 * us), rto := k.rtoUs * us, mtu := k.mtu, noPort := s.routeMask k.peerDev == 0 }

/-! ### Token buckets (R266) -/

/-- The rate of an instance's bucket in Mb/s and its burst in bytes. -/
def State.bucketRate (s : State) (vf p : Nat) : Nat :=
  let r := s.rd F.PTN_INST_rate_mbps vf
  if r = 0 then (s.shares p).rateMbps else r
def State.bucketBurst (s : State) (vf p : Nat) : Nat :=
  let b := s.rd F.PTN_INST_burst_kib vf
  (if b = 0 then (s.shares p).burstKib else b) * 1024

/-- The bucket's level as it is held: 48 bits signed. -/
def tokensOf (v : Nat) : Int := if v < 2 ^ 47 then (v : Int) else (v : Int) - 2 ^ 48

/-- A level as ADM_INST holds it, saturating at -2^47. -/
def tokensTo (k : Int) : Nat := ((max k (-(2 ^ 47))) % (2 ^ 48 : Int)).toNat

/-- The level now in 1/8,000 of a byte, what 1 Mb/s gives in a nanosecond: what it was, filled at the rate since then, never above the burst. -/
def State.bucketFine (s : State) (vf p : Nat) : Int :=
  min (8000 * s.bucketBurst vf p : Int)
    (8000 * tokensOf (s.rd F.ADM_INST_tokens vf) + ((s.inst vf).frac : Int) + ((s.bucketRate vf p * (s.now - (s.inst vf).filled) : Nat) : Int))

/-- The level now in whole bytes, and what it holds beyond them. -/
def State.bucketNow (s : State) (vf p : Nat) : Int := s.bucketFine vf p / 8000
def State.bucketFrac (s : State) (vf p : Nat) : Nat := (s.bucketFine vf p % 8000).toNat

/-- Sets the level as of now, in whole bytes and 1/8,000 of one. -/
def State.setBucket (s : State) (vf : Nat) (k : Int) (frac : Nat := 0) : State :=
  (s.setInst vf { s.inst vf with filled := s.now, frac := frac }).wr F.ADM_INST_tokens (tokensTo k) vf

/-- The wait before `n` bytes may start (R266), in nanoseconds. -/
def State.bucketWait (s : State) (vf p n : Nat) : Nat :=
  ceilDiv (8000 * (n : Int) - s.bucketFine vf p).toNat (max 1 (s.bucketRate vf p))

/-! ### The test (R270) -/

/-- An admission: whether it is delayed, its `eta`, the span of its virtual clock on each port, and when its bucket lets it start (R266). -/
structure Admitted where
  delayed : Bool
  eta : Nat
  vcs : Tbl (Nat × Nat)
  start : Nat
  deriving DecidableEq, Repr

/-- The admission of an entry that waits for nothing. -/
def Admitted.free : Admitted := ⟨false, 0, [], 0⟩

/-- One resource's clock: its key, when the operation's bytes start and finish on it. -/
structure Clock where
  res : Nat
  old : Nat
  start : Nat
  fin : Nat
  deriving DecidableEq, Repr

/-- The clocks of a list of resources with their rates; the first whose rate is 0 stops it. -/
def State.clocksOf (s : State) (vf cls w : Nat) : List (Nat × Rate × Nat) → Option (List Clock)
  | [] => some []
  | (res, r, n) :: t =>
    if r.num = 0 then none
    else
      let vc := Tbl.getD s.adm.clocks (vcKey res vf cls) 0
      let a := max (s.now + w) vc
      (s.clocksOf vf cls w t).map fun l => ⟨res, vc, a, a + r.ns n⟩ :: l

/-- Counts a refusal at the initiator (R274), whichever rule refuses the entry. -/
def State.countRefusal (s : State) (st : Nat) : State :=
  if st = Status.refusedRate then (s.bump F.ADM_REF_RATE).evt 8
  else if st = Status.refusedPool then (s.bump F.ADM_REF_POOL).evt 8
  else if st = Status.refusedGrant then (s.bump F.ADM_REF_GRANT).evt 8
  else if st = Status.refusedCapacity then (s.bump F.ADM_REF_CAPACITY).evt 8
  else s

/-- Whether all 131,072 places of operations in flight are taken (R270). -/
def State.flightFull (s : State) : Bool := s.rd F.ADM_INFLIGHT_ops == 131072

/-- A reserved rate on a logical port that serves transit (R299): the part `transit_share` leaves. -/
def State.portRho (s : State) (vf p cls j : Nat) : Rate :=
  let r := s.rho vf p cls (s.portCap j)
  ⟨r.num * (256 - s.rd F.PRT_TRANSIT_transit_share (j / 8)), r.den * 256⟩

/-- The local resources of a charge with their rates. -/
def State.localRes (s : State) (vf p cls : Nat) (ch : Charge) : List (Nat × Rate × Nat) :=
  (ch.ports.map fun q => (resPort q.1, s.portRho vf p cls q.1, q.2))
    ++ ch.links.map fun q => (resLink q.1 q.2.1, s.rho vf p cls (s.linkCap q.1), q.2.2)

/-- The time one largest packet takes on every local resource (R265, R270). -/
def State.lambda (s : State) (ch : Charge) : Nat :=
  sumNat (ch.ports.map fun q => ceilDiv (ch.mtu * 1000000000) (max 1 (s.portCap q.1)))
    + sumNat (ch.links.map fun q => ceilDiv (4096 * 1000000000) (max 1 (s.linkCap q.1)))

/-- The admission test of R270, after its pool reservation. -/
def State.gateIn (s : State) (vf p cls : Nat) (ch : Charge) : Except Nat Admitted × State :=
  if s.flightFull ∨ ch.noPort then (.error Status.refusedCapacity, s)
  else if 7 ≤ cls then (.ok .free, s)
  else
      let w := s.bucketWait vf p ch.tokens
      let k := s.bucketNow vf p - ch.tokens
      let frac := s.bucketFrac vf p
      if cls = 6 then (.ok ⟨false, 0, ch.ports.map fun q => (q.1, (s.now + w, s.now + w)), s.now + w⟩, s.setBucket vf k frac)
      else
        let budget := (classBudget cls).getD 0
        if budget < w + ch.srtt + ch.rto then (.error Status.refusedRate, s)
        else match s.clocksOf vf cls w (s.localRes vf p cls ch) with
        | none => (.error Status.refusedCapacity, s)
        | some loc =>
          match s.clocksOf vf cls w (ch.grants.map fun q => (resGrant q.1, s.grantRate q.1 cls, q.2)) with
          | none => (.error Status.refusedGrant, s)
          | some gr =>
            let lam := s.lambda ch
            let finish := fun (l : List Clock) => l.foldl (fun m c => max m c.fin) (s.now + w) - s.now + lam + ch.srtt
            if budget < finish loc + ch.rto then (.error Status.refusedCapacity, s)
            else if budget < finish (loc ++ gr) + ch.rto then (.error Status.refusedGrant, s)
            else
              let all := loc ++ gr
              let s := { s with adm := { s.adm with clocks := all.foldl (fun t (c : Clock) => Tbl.set t (vcKey c.res vf cls) c.fin) s.adm.clocks } }
              let delayed := decide (0 < w) || all.any fun c => decide (s.now < c.old)
              let s := if delayed then s.bump F.ADM_DELAYED else s
              (.ok ⟨delayed, min 0xFFFFFF (ceilDiv (finish all) 100),
                (all.filter fun c => decide (c.res < 64)).map fun c => (c.res, (c.start, c.fin)), s.now + w⟩, s.setBucket vf k frac)

/-! ### Frames that no port may send (R288) -/

/-- The largest frame of a connection before any tag or shim: its mtu with the longest headers its packets with payload have. -/
def Conn.largestFrame (k : Conn) : Nat :=
  let ip := if k.peerIp / 2 ^ 32 = 0xFFFF then 20 else 40
  if k.roce then 18 + ip + 8 + 12 + 16 + k.mtu + 4
  else 18 + ip + 8 + 40 + (if k.svc = 3 then 32 else 12) + k.mtu + 16 + (if k.enc then 8 else 0)

/-- Whether a frame, with the tag and the shim it takes on each port, is within `max_frame` on every port of a destination's set. -/
def State.frameFits (s : State) (dev len : Nat) : Bool :=
  (maskPorts (s.routeMask dev)).all fun j =>
    !s.lportExists j || decide (len + 4 * s.rd F.PRT_LP_tagged j + 8 * s.rd F.PRT_LP_replay_on j ≤ s.rd F.PRT_LP_max_frame j)

/-! ### From entry to operation -/

/-- The fetched entry of a ring and count with an opcode. -/
def State.fetched? (s : State) (key count opcode : Nat) : Option Fetched :=
  s.fetched.find? fun f => f.key == key && f.count == count && fieldLE f.desc 0 1 == opcode

/-- Takes a fetched entry off the list. -/
def State.unfetch (s : State) (f : Fetched) : State :=
  { s with fetched := s.fetched.filter fun g => !(g.key == f.key && g.count == f.count) }

/-- The completion of an entry as it begins. -/
def State.cqeOf (s : State) (f : Fetched) : Cqe :=
  { cqe0 (descHdr f.desc) (match s.ring? f.key with | some r => f.count % 2 ^ r.sqLog | none => 0) with result := s.epochShown f.key (descHdr f.desc) }

/-- An entry completes without becoming an operation: refused, and counted so; admitted and done at once (R263, R280); or ended by another rule. -/
def State.endEntry (s : State) (f : Fetched) (st sub : Nat) (result : List Byte := []) : State :=
  let c := s.cqeOf f
  let s := s.countRefusal st
  let s := if st = Status.ok then s.bump F.ADM_ADMIT else s
  s.completeEntry f.key f.count { c with status := st, sub := sub, result := if result.isEmpty then c.result else result }

/-- `rnd` of an entry that converts or reduces: COPY, COLL or STEP (R60, R241-R243). -/
def rndOf (opcode : Nat) (d : List Byte) : Nat :=
  if opcode = 7 ∨ opcode = 0x10 then (fmtwOf (fieldLE d 52 3)).rnd else if opcode = 0x11 then (fmtwOf (fieldLE d 40 3)).rnd else 0

/-- An entry is admitted and becomes an operation in flight (R270, R280): its record under a new number. One admitted while the random source has
failed carries `rnd_fallback` (R78). -/
def State.newOp (s : State) (f : Fetched) (a : Admitted) (phase : OpPhase) (length : Nat) : Nat × State :=
  let s := (s.bump F.ADM_ADMIT).bump F.ADM_INFLIGHT_ops
  let h := descHdr f.desc
  let vf := ringVf f.key
  let c := s.cqeOf f
  let o : Op :=
    { key := f.key, count := f.count, vf := vf, part := s.rd F.PTN_INST_partition vf, opcode := h.opcode, cls := h.cls, target := h.target,
      tag := h.tag, desc := f.desc, inl := f.inl, phase := phase, admitted := s.now,
      deadline := if f.key = ctlKey then none else (classBudget h.cls).map fun b => s.now + b, inFlight := true, cause := 0,
      cqe := { c with delayed := a.delayed, eta := a.eta,
                      rndFallback := c.rndFallback || (rndOf h.opcode f.desc == 1 && s.rd F.TRU_LC_rng_failed == 1) }, msgs := [], bytes := 0, failAt := none, vcs := a.vcs, length := length,
      flags := h.flags, wrote := [], injected := false, start := a.start,
      grant := match Tbl.get? s.adm.grants (h.target * 8 + h.cls) with
        | some (b, v, _) => if 2 ≤ h.opcode ∧ h.opcode ≤ 5 then (b, v) else (0, 0)
        | none => (0, 0) }
  (s.nextOp, { s with ops := Tbl.set s.ops s.nextOp o, nextOp := s.nextOp + 1 })

/-- Whether the entry of a ring and count that carries `fence` may start (R215, R237): a connection operation once `done_msn` covers every
earlier message of its connection, any other once every earlier entry of its ring has completed. -/
def State.fenceClear (s : State) (f : Fetched) : Bool :=
  let h := descHdr f.desc
  if !bitAt h.flags 0 then true
  else if 2 ≤ h.opcode ∧ h.opcode ≤ 5 then
    match s.conn? h.target with
    | some k =>
      k.outMsgs.isEmpty && k.queue.isEmpty
        && !(s.ops.any fun p => p.2.target == h.target && decide (2 ≤ p.2.opcode) && decide (p.2.opcode ≤ 5)
          && (p.2.phase == .reading || ((p.2.opcode == 2 || p.2.opcode == 4) && decide (p.2.moved < p.2.length))))
        && !(s.fetched.any fun g => g.key == f.key && (descHdr g.desc).target == h.target && serialOlder 32 g.count f.count)
    | none => true
  else match s.ring? f.key with
  | some r => r.open_.all fun c => !serialOlder 32 c f.count
  | none => true

/-- The entries whose own test of R270 comes later: those of connections, COPY, and those of the commons. -/
def judgedLater (opcode : Nat) : Bool := (decide (2 ≤ opcode) && decide (opcode ≤ 5)) || opcode == 7 || opcode == 0x10 || opcode == 0x11

/-- Takes the entry of a ring and count with an opcode and carries it out: nothing where no such entry waits or its fence has not cleared; PARTITION_FENCED
where its instance is fenced (R256, R382); FORMAT_UNSUPPORTED where a reserved bit of the body is set (R245, R257; log entry 45). An entry that R263 admits without any resource test meets
the first test of R270 here. -/
def State.runEntry (s : State) (key count opcode : Nat) (f : State → Fetched → DescHdr → State) : State :=
  match s.fetched? key count opcode with
  | none => s
  | some e =>
    if !s.fenceClear e then s
    else
      let s := s.unfetch e
      if key ≠ ctlKey ∧ s.fencedInst (ringVf key) (s.rd F.PTN_INST_partition (ringVf key)) then s.endEntry e Status.fencedOrMalformed 1
      else if (key = ctlKey ∨ (descHdr e.desc).cls ≠ 7) ∧ !bodyZero opcode e.desc then s.endEntry e Status.formatUnsupported 0
      else if !judgedLater opcode ∧ s.flightFull then s.endEntry e Status.refusedCapacity 0
      else f s e (descHdr e.desc)

/-- The row of an opcode. -/
def onEntry (key count opcode : Nat) (s : State) (f : State → Fetched → DescHdr → State) : Host.Outcome State Fault Refusal :=
  act s fun s => s.runEntry key count opcode f

/-- The checks every tenant entry meets (R237): class 7, and its tag, which is the instance's, or 0 where the entry has no local address. -/
def State.tenantOk (s : State) (vf : Nat) (h : DescHdr) (needsTag : Bool) : Bool :=
  h.cls != 7 && (s.ownsTag vf h.tag || (!needsTag && h.tag == 0))

/-- The tenant connection of an instance that an entry names (R237). -/
def State.ownConn (s : State) (vf c : Nat) : Option Conn :=
  match s.conn? c with
  | some k => if k.vf = vf ∧ k.svc = 0 then some k else none
  | none => none

end Sys2Proof.Machine
end

