-- ==== Sys2Proof/Machine/Collect.lean ====
section
/-!
DEFINITION. The chunks of collective operations (04_tally_units.md, 05_commons_collectives.md): gather-in, sending, folding and handing off
(R94-R100, R124), results written and passed on (R97, R121, R122), FOLDED (R104), what a rank reports (R129, R133, R135), and the COLL entry
(R119-R126, R242).
-/

namespace Sys2Proof.Machine

/-! ### The fields of an entry (R119, R242, R243) -/

/-- The collective fields of a COLL or STEP entry. -/
structure CP where
  co : Nat
  algo : Nat
  fw : Fmtw
  red : Nat
  partSel : Nat
  maxReruns : Nat
  post : Nat
  root : Nat
  count : Nat
  inA : Nat
  outA : Nat
  inS : Nat
  outS : Nat
  step : Nat
  bStart : Nat
  bundles : Nat
  deriving DecidableEq, Repr

/-- Reads them from a descriptor. -/
def cpOf (d : List Byte) : CP :=
  if fieldLE d 0 1 = 0x11 then
    { co := 8, algo := bitsOf (fieldLE d 43 1) 4 3, fw := fmtwOf (fieldLE d 40 3), red := 0, partSel := bitsOf (fieldLE d 44 1) 3 2,
      maxReruns := bitsOf (fieldLE d 44 1) 5 2, post := fieldLE d 45 4, root := 0, count := 0, inA := 0, outA := 0, inS := 0, outS := 0,
      step := fieldLE d 32 4, bStart := fieldLE d 36 2, bundles := fieldLE d 38 2 + 1 }
  else
    { co := fieldLE d 55 1 % 16, algo := bitsOf (fieldLE d 55 1) 4 3, fw := fmtwOf (fieldLE d 52 3), red := bitsOf (fieldLE d 58 1) 0 3,
      partSel := bitsOf (fieldLE d 58 1) 3 2, maxReruns := bitsOf (fieldLE d 58 1) 5 2, post := fieldLE d 59 4, root := fieldLE d 56 2,
      count := fieldLE d 48 4, inA := fieldLE d 16 8, outA := fieldLE d 24 8, inS := fieldLE d 32 8, outS := fieldLE d 40 8,
      step := 0, bStart := 0, bundles := 1 }

/-- What its slots accumulate. -/
def CP.kind (p : CP) : RedKind := ⟨p.red, p.fw.fmtIn, p.fw.accFmt⟩

/-- The MX element kind of a side field. -/
def sideKind (c side : Nat) : Nat := if isMx c then side % 2 else 0

/-- The wire format and kind of what a rank's result travels in: `fmt_out` after a reduction and for publish values, `fmt_in` where nothing is
reduced (R122). -/
def CP.resFmt (p : CP) (ag : Bool) : Nat × Nat :=
  if ag ∨ p.co = 0 ∨ p.co = 1 ∨ p.co = 4 then (p.fw.fmtOut, sideKind p.fw.fmtOut p.fw.sideOut) else (p.fw.fmtIn, sideKind p.fw.fmtIn p.fw.sideIn)

/-- An operation of the commons with all it rests on: its record, its entry's operation, its group, its fields. -/
structure COp where
  c : Coll
  o : Op
  g : Group
  p : CP
  deriving DecidableEq, Repr

/-- Looks an operation up. -/
def State.cop? (s : State) (id : Nat) : Option COp :=
  match s.coll? id, s.op? id with
  | some c, some o => match s.group? c.slot with
    | some g => some ⟨c, o, g, cpOf o.desc⟩
    | none => none
  | _, _ => none

/-- Elements of a bundle, or of a plain operation; a BARRIER has none, whatever its `count` says (R121; DEDUCED, log entry 48). -/
def COp.elems (x : COp) (b : Nat) : Nat :=
  if x.c.isStep then ((x.c.plan[b]?).map (·.elems)).getD 0 else if x.p.co = 6 then 0 else x.p.count

/-- The flow of a plain operation, or of one phase of a bundle (R121, R131, R132). -/
def COp.flow (x : COp) (b : Nat) (ag : Bool) : Flow :=
  { co := if x.c.isStep then (if ag then 2 else 1) else x.p.co, algo := x.c.algo, n := x.g.n, trays := x.g.members.map (·.tray), root := x.p.root,
    count := x.elems b, cap := chunkCap x.p.fw.fmtIn (2 ^ x.c.chunkLog), step := x.c.isStep }

/-- The first rank this device holds. -/
def Group.me (g : Group) : Nat := g.local_.headD 0

/-- The chunk of an index. -/
def Flow.chunk? (f : Flow) (i : Nat) : Option ChunkAt := f.chunks[i]?

/-! ### Stops of local accesses -/

/-- A local access of an operation cannot go on (R340, R323, R332): held with its job, or the operation ends here. -/
def State.stopColl (s : State) (id : Nat) (o : Op) (job : CJob) (acc : AccKind) : Stop → State
  | .absent va level =>
    (((s.raiseFault (localRec o.part o.vf o.tag va XReason.notPresent level acc)).hold o.tag va acc false (.op id)).recordCause id 5).modColl id
      fun c => { c with stuck := c.stuck ++ [job] }
  | .viol va reason level =>
    (s.raiseViolation (localRec o.part o.vf o.tag va reason level acc)).endLocally id Status.accessLocal 0
  | .detached _ => s.endLocally id Status.detached 0
  | .lost _ => s.endLocally id Status.targetLost 0

/-- Translates several ranges, in order. -/
def State.lookupParts (s : State) (o : Op) (acc : AccKind) : List (Nat × Nat) → Except Stop (List (List (Loc × Nat))) × State
  | [] => (.ok [], s)
  | (va, n) :: t =>
    match s.lookupRange o.part o.vf o.tag va n acc with
    | (.error e, s) => (.error e, s)
    | (.ok l, s) => match s.lookupParts o acc t with
      | (.ok ls, s) => (.ok (l :: ls), s)
      | (.error e, s) => (.error e, s)

/-- Marks `special` on an operation's completion (R73). -/
def State.markSpecial (s : State) (id : Nat) (yes : Bool) : State :=
  if yes then s.modOp id fun o => { o with cqe := { o.cqe with special := true } } else s

/-- Draws the roundings of an operation (R76, R78): to nearest even, with `rnd_fallback` marked, where the source has failed, and from then on to
the operation's end; so does one that was admitted while the source was failed. -/
def State.opRoundings (s : State) (id rnd n : Nat) : (Nat → Rnd) × State :=
  let s := if rnd = 1 ∧ s.rd F.TRU_LC_rng_failed = 1 then s.modOp id fun o => { o with cqe := { o.cqe with rndFallback := true } } else s
  if (s.op? id).any (·.cqe.rndFallback) then (fun _ => none, s) else s.roundings rnd n

/-! ### Sending (R96, R104, R118) -/

/-- A chunk header of an operation. -/
def COp.hdr (x : COp) (b chunk stage src elems fmt kind : Nat) (partial_ final : Bool) (contribs : Nat) (data : List Byte) : ChunkHdr :=
  (ChunkHdr.mk x.g.id x.c.num b chunk stage src elems fmt kind x.p.red partial_ final 0 (min 65535 (contribs - 1)) 0).seal data

/-- Puts a chunk on its way to a rank: to this device itself, or on the chunk connection in the operation's class. -/
def State.putChunk (s : State) (slot cls dst : Nat) (h : ChunkHdr) (data : List Byte) : State :=
  match s.group? slot with
  | none => s
  | some g =>
    if g.local_.contains dst then s.inboxAdd (.chunk slot h data)
    else s.cmnSend slot 3 (g.member dst).dev cls (.chunk h.bytes) data

/-- Sends a chunk and keeps it until it is reported folded or written (R104). -/
def State.sendChunk (s : State) (id src dst : Nat) (h : ChunkHdr) (data : List Byte) : State :=
  match s.cop? id with
  | none => s
  | some x => (s.modColl id fun c => { c with outs := c.outs ++ [⟨src, dst, h, data, false⟩] }).putChunk x.c.slot x.o.cls dst h data

/-- Tells a producer that its chunk was folded or written (R128); `again` asks for it once more (R106). -/
def State.sendFolded (s : State) (slot key consumer producer : Nat) (h : ChunkHdr) (again : Bool) : State :=
  match s.group? slot with
  | none => s
  | some g =>
    let b : CBody := .folded h.bundle h.chunk h.stage again
    if g.local_.contains producer then s.inboxAdd (.folded slot consumer key b)
    else s.cmnSend slot 3 (g.member producer).dev 0 (.coord b.kind g.gen 0 g.id consumer (key % 2 ^ 32)) b.bytes

/-- Whether every rank of this device has published the bundles below a number. -/
def State.publishedTo (s : State) (c : Coll) (u : Nat) : Bool :=
  (((s.group? c.slot).map (·.local_)).getD []).all fun r => (List.range u).all fun b => c.reported.contains (r, b, true)

/-- Whether a copy's bundles of a step hold a step-scope pass (R168): its updates wait for the one all-reduce of the step. -/
def State.stepScope (s : State) (c : Coll) (copy : Nat) : Bool :=
  let part := ((s.op? c.op).map (·.part)).getD 0
  ((Tbl.getD c.descs copy []).drop (s.firstBundle c)).any fun d => ((s.recipe? part d.recipe).bind syncOf) == some 1

/-- Whether what a rank awaits of a shard comes from a rank, or passes through it (R121, R124). -/
def Flow.comesBy (f : Flow) (k gone : Nat) : Nat → Nat → Bool
  | 0, r => r == gone
  | fuel + 1, r => r == gone || match (f.copies k).find? fun e => e.dst == r with
    | some e => f.comesBy k gone fuel e.src
    | none => false

/-- Whether the bundles below a number are published as far as a member that has ended on its own lets them be (R141, R142): this device's publish
values have gone out, and nothing is still to be written or passed on but what comes by that member. -/
def COp.publishedBut (x : COp) (u gone : Nat) : Bool :=
  x.g.local_.all (fun r => (List.range u).all fun b => x.c.published.contains (r * 65536 + b))
    && x.c.todo.all (fun t => !t.ag || decide (u ≤ t.bundle) || (t.kind == 1 &&
      let f := x.flow t.bundle true
      f.comesBy (((f.chunk? t.chunk).map (·.shard)).getD 0) gone f.n t.rank))

/-- Whether the bundles that an abandoned step must finish are done here (R141, R142, R146): all updated, and, after a missed budget or the end of a
member, published too; what a member that has ended on its own makes impossible is not waited for. A step-scope recipe whose last bundle has not
been reduced cannot update any, since its all-reduce never runs (DEDUCED, log entry 49). -/
def State.closed (s : State) (x : COp) (cause culprit u : Nat) : Bool :=
  let c := x.c
  let stopped := fun (copy : Nat) => s.stepScope c copy && decide (u < c.plan.length) && (Tbl.get? c.norms 65536).isNone
  c.copies.all (fun q => decide (u ≤ q.2.next) || stopped q.1)
    && (!(cause == 4 || cause == 2) || c.short || c.copies.any (fun q => stopped q.1)
      || (if cause = 4 then s.publishedTo c u else x.publishedBut u culprit))

/-- The end of an operation whose committed bundles are done here (R141, R146). -/
def State.finishClosing (s : State) (id : Nat) : State :=
  match s.cop? id with
  | none => s
  | some x =>
    match x.c.ending with
    | some (st, cause, culprit, u) =>
      if x.c.phase = .closing ∧ s.closed x cause culprit u then
        s.endColl x.c st (if st = Status.deadlineMissed then 9 else 0) cause culprit u
      else s
    | none => s

/-! ### Reports (R129, R133, R135, R137) -/

/-- A failed check is reported up at once (R137): a plain operation's as DONE with its kind (R128), a step's naming the phase and the bundle (log
entry 20); an operation that only finishes its committed bundles has no attempt left and ends. -/
def State.reportFailure (s : State) (x : COp) (b : Nat) (ag : Bool) : State :=
  if x.c.phase = .closing then (match x.c.ending with
    | some (st, cause, culprit, _) => s.endColl x.c st 0 cause culprit x.c.bundlesDone
    | none => s)
  else if x.c.isStep then s.ownReport x.c.slot x.g.me x.c.key (.void (b2n ag) b (Tbl.getD x.c.runs (b2n ag * 65536 + b) 0))
  else s.ownReport x.c.slot x.g.me x.c.key (.done Status.checkFailed 0 x.g.me)

/-- The key under which a rank's flushes for a phase return. -/
def flushKey (id b rank : Nat) (ag : Bool) : Nat := ((id * 65536 + b) * 65536 + rank) * 2 + b2n ag

/-- The state hash that a rank's primary has after the last bundle (R177). -/
def hashOf (c : StepCopy) : Nat := c.hash ^^^ 0xFFFFFFFFFFFFFFFF

/-- Whether a step is a hash step (R177, R191): by its number, or since a bundle is filled in it, here or as GO told it of another device. -/
def State.hashStep (s : State) (x : COp) : Bool :=
  let n := s.rd F.MIL_CFG_hash_interval
  (n != 0 && x.p.step % n == 0) || x.g.copies.any (fun q => bitAt q.2 0) || x.c.copies.any (fun q => q.2.filled)

/-- The hashes that a rank's PUBLISHED of a bundle carries (R135, R177, R189): with the last bundle of a hash step its primary's, and from the first
rank of the device those of the twin copies; of copies that are TRACKING throughout. -/
def State.hashesFor (s : State) (x : COp) (rank b : Nat) : Option Nat × List (Nat × Nat) :=
  let good := fun (copy : Nat) => ((s.bind? x.c.slot copy).map Bind.worst).getD 0 == 0
  if b + 1 = x.p.bundles ∧ s.hashStep x then
    (if good (rank * 2) then (Tbl.get? x.c.copies (rank * 2)).map hashOf else none,
      if rank = x.g.me then x.c.copies.filterMap fun q => if q.1 % 2 = 1 ∧ good q.1 then some (q.1, hashOf q.2) else none else [])
  else (none, [])

/-- A rank reports a phase of a bundle, once. -/
def State.reportPhase (s : State) (x : COp) (rank b : Nat) (ag : Bool) : State :=
  if x.c.reported.contains (rank, b, ag) then s
  else
    let s := s.modColl x.c.op fun c => { c with reported := (rank, b, ag) :: c.reported }
    if !x.c.isStep then s.ownReport x.c.slot rank x.c.key (.done 0 0 0)
    else if ag then
      let h := s.hashesFor x rank b
      (s.ownReport x.c.slot rank x.c.key (.published b h.1 h.2)).finishClosing x.c.op
    else s.ownReport x.c.slot rank x.c.key (.reduced b)

/-- Whether a copy has a bundle below `bundle_start` that is still to be copied whole (R192). -/
def State.copying (s : State) (x : COp) (copy : Nat) : Bool :=
  (((s.bind? x.c.slot copy).map (·.states)).getD []).any fun q => q.2 == 1 && decide (q.1 < x.p.bStart) && decide (q.1 < x.p.bundles)

/-- Looks whether a rank has finished a phase of a bundle: everything due is done, each partial it produced is folded, its flushes are back;
starts the flushes, or reports (R129, R133). The last bundle waits for the twin copies here too, which the step's commit is to find updated, filled,
copied and compared (R187, R189, R190, R192; DEDUCED, log entry 61). -/
def State.checkPhase (s : State) (id rank b : Nat) (ag : Bool) : State :=
  match s.cop? id with
  | none => s
  | some x =>
    let c := x.c
    if c.phase ≠ .running ∧ c.phase ≠ .closing then s
    else if !c.launched.contains (b, ag) then s
    else if ag ∧ b + 1 = x.p.bundles ∧ c.copies.any (fun q => decide (q.2.next ≤ b) || s.copying x q.1) then s
    else if c.todo.any fun t => t.rank == rank && t.bundle == b && t.ag == ag then s
    else if !ag ∧ c.outs.any fun u => u.src == rank && u.hdr.bundle == b && u.hdr.partial_ && !u.folded then s
    else
      let wrote := Tbl.getD c.wrote rank []
      if (c.isStep ∧ !ag) ∨ wrote.isEmpty then s.reportPhase x rank b ag
      else
        let s := s.modColl id fun c => { c with todo := c.todo ++ [⟨rank, b, ag, 3, 0, 0⟩], wrote := Tbl.erase c.wrote rank }
        s.flushLinks wrote (.coll (flushKey id b rank ag))

/-- Something of an operation is done. -/
def State.finishTodo (s : State) (id : Nat) (t : Todo) : State :=
  ((s.modColl id fun c => { c with todo := c.todo.filter (· != t) }).checkPhase id t.rank t.bundle t.ag).finishClosing id

/-! ### Results: written and passed on (R97, R121, R122) -/

/-- The sum of the shards of the ranks of this device before a rank. -/
def COp.before (x : COp) (rank : Nat) : Nat :=
  sumNat ((x.g.local_.takeWhile (· != rank)).map fun r => let q := shard r x.g.n x.p.count; q.2 - q.1)

/-- Which of this device's ranks a rank is: 0 or 1. -/
def COp.index (x : COp) (rank : Nat) : Nat := (x.g.local_.takeWhile (· != rank)).length

/-- Where a chunk of a result goes: base address, scale address, element position. -/
def COp.places (x : COp) (rank b : Nat) (ag : Bool) (ch : ChunkAt) (src : Nat) : List (Nat × Nat × Nat) :=
  if ag then
    (if rank = x.g.me then
      match x.c.plan[b]? with
      | some q => (List.range q.dst.length).map fun i => (q.dst.getD i 0, q.dscale.getD i 0, ch.first)
      | none => []
     else [])
  else if x.p.co = 1 then [(x.p.outA, x.p.outS, x.before rank + (ch.first - (shard rank x.g.n x.p.count).1))]
  else if x.p.co = 5 then [(x.p.outA, x.p.outS, x.index rank * x.p.count + x.p.count / x.g.n * src + ch.first)]
  else [(x.p.outA, x.p.outS, ch.first)]

/-- The addresses and bytes of a result in memory: MX blocks interleaved or split (R65, R67). -/
def memParts (c : Nat) (split : Bool) (data : List Byte) (pl : Nat × Nat × Nat) : List (Nat × List Byte) :=
  if isMx c ∧ split then
    let q := splitMx c data
    [(pl.1 + elemBytes c pl.2.2, q.1), (pl.2.1 + scaleBytes c pl.2.2, q.2)]
  else [(pl.1 + wireBytes c pl.2.2, data)]

/-- Notes what a rank has written over host links since its last flush (R129, R253). -/
def State.noteWrites (s : State) (id rank : Nat) (ls : List (List (Loc × Nat))) : State :=
  s.modColl id fun c =>
    let w := ls.foldl (fun w l => lastWrites l w) (Tbl.getD c.wrote rank [])
    if w.isEmpty then c else { c with wrote := Tbl.set c.wrote rank w }

/-- What each page of data to be written gives: its lookup, its address and its bytes. -/
def State.publishPages (s : State) (o : Op) : List (Nat × List Byte) → List (XRes × Nat × List Byte) × State
  | [] => ([], s)
  | (va, d) :: t =>
    let q := (blocksOf 4096 va d.length).foldl (fun (q : List (XRes × Nat × List Byte) × State) p =>
      let r := q.2.lookup o.part o.vf o.tag (va + p.1) .write
      (q.1 ++ [(r.1, va + p.1, slice d p.1 p.2)], r.2)) ([], s)
    let r := q.2.publishPages o t
    (q.1 ++ r.1, r.2)

/-- A publish that meets a lost link, or an instance that is not attached: its writes to that link are dropped and counted there, and the rest is
written. The rank reports PUBLISHED all the same, and its own completion is TARGET_LOST (R324). A page that is absent, or is not to be written, stops
the publish first. -/
def State.publishLost (s : State) (id : Nat) (t : Todo) (o : Op) (parts : List (Nat × List Byte)) : State :=
  match s.publishPages o parts with
  | (ps, s) =>
    match ps.find? fun q => q.1.place?.isNone with
    | some q => s.stopColl id o (.output t parts) .write (q.1.stop q.2.1)
    | none =>
      let s := ps.foldl (fun (s : State) q => match q.1 with
        | .go l => (s.writeLocs o.vf o.tag (some id) [(l, q.2.2.length)] q.2.2).noteWrites id t.rank [[(l, q.2.2.length)]]
        | .detached l => s.bump F.HPT_WR_DROP 1 l.link
        | .lost l => s.bump F.HPT_WR_DROP 1 l.link
        | _ => s) s
      (s.modOp id fun o => { o with cqe := { o.cqe with status := Status.targetLost } }).finishTodo id t

/-- Writes a result, or holds the job on an absent page. -/
def State.writeParts (s : State) (id : Nat) (t : Todo) (parts : List (Nat × List Byte)) : State :=
  match s.op? id with
  | none => s
  | some o =>
    match s.lookupParts o .write (parts.map fun q => (q.1, q.2.length)) with
    | (.error (.detached x), s) => if t.ag then s.publishLost id t o parts else s.stopColl id o (.output t parts) .write (.detached x)
    | (.error (.lost x), s) => if t.ag then s.publishLost id t o parts else s.stopColl id o (.output t parts) .write (.lost x)
    | (.error e, s) => s.stopColl id o (.output t parts) .write e
    | (.ok ls, s) =>
      let s := (ls.zip (parts.map Prod.snd)).foldl (fun s q => s.writeLocs o.vf o.tag (some id) q.1 q.2) s
      (s.noteWrites id t.rank ls).finishTodo id t

/-- An element's code with a NaN in its canonical form (R64). -/
def ElFmt.canon : ElFmt → Nat → Nat
  | .fp f, x => if (f.decode x).isNan then f.nanCode else x
  | .int _, x => x

/-- What is written of data that no conversion changes: every NaN in its canonical code (R64). The elements of an MX block stand under the scale they
came with, which R69 would set anew only where values are encoded (DEDUCED, log entry 71). -/
def canonRun (c kind n : Nat) (d : List Byte) : List Byte :=
  if isMx c then
    let el := mxEl c kind
    let size := 1 + 4 * el.width
    ((List.range (ceilDiv n 32)).map fun k =>
      let b := slice d (k * size) size
      b.take 1 ++ packCodes el.width ((List.range 32).map fun i => el.canon (unpack1 el.width i (b.drop 1)))).flatten
  else match elFmt c with
    | some el => packCodes el.width ((List.range n).map fun i => el.canon (unpack1 el.width i d))
    | none => d

/-- A result reaches a rank that awaits it: it is passed on unchanged along the copies of its shard (R97, R124), converted where nothing was
reduced (R122), and written. -/
def State.deliver (s : State) (id rank b : Nat) (ag : Bool) (h : ChunkHdr) (data : List Byte) : State :=
  match s.cop? id with
  | none => s
  | some x =>
    let f := x.flow b ag
    match f.chunk? h.chunk with
    | none => s
    | some ch =>
      let t : Todo := ⟨rank, b, ag, 1, h.chunk, if f.co = 5 then h.src else 0⟩
      if !x.c.todo.contains t then s
      else
        let onward := if f.co = 5 then [] else ((f.copies ch.shard).filter fun e => e.src == rank).map (·.dst)
        let s := onward.foldl (fun s r => s.sendChunk id rank r h data) s
        let pl := if f.co = 5 ∨ f.writes ch.shard rank then x.places rank b ag ch h.src else []
        if pl.isEmpty then s.finishTodo id t
        else
          let fw := x.p.fw
          let out := (fw.fmtOut, sideKind fw.fmtOut fw.sideOut)
          let now := x.p.resFmt ag
          let (data, s) :=
            if out = now then (canonRun now.1 now.2 ch.elems data, s)
            else
              let vs := decodeRun now.1 now.2 ch.elems data
              let (r, s) := s.opRoundings id fw.rnd ch.elems
              let e := encodeRun out.1 out.2 (fw.sat == 1) r vs
              let sp := (vs.zip e.2).any fun q => q.2.special q.1.isNan q.1.isInf
              (e.1, s.markSpecial id sp)
          let s := if isMx out.1 ∧ bitAt fw.sideOut 1 then s.bump F.DMV_REPACK (ceilDiv ch.elems 32 * pl.length) else s
          s.writeParts id t ((pl.map (memParts out.1 (bitAt fw.sideOut 1) data)).flatten)

/-! ### Folding (R94, R98-R100) -/

/-- A chunk of an operation at a rank. -/
def Coll.node? (c : Coll) (rank b chunk : Nat) : Option Node := c.nodes.find? fun n => n.rank == rank && n.bundle == b && n.chunk == chunk

/-- Sets a chunk's record. -/
def State.setNode (s : State) (id : Nat) (n : Node) : State :=
  s.modColl id fun c =>
    { c with nodes := c.nodes.map fun m => if m.rank == n.rank && m.bundle == n.bundle && m.chunk == n.chunk then n else m }

/-- Bytes of the reduced gradient of a copy's chunk: its key among those of the copy. -/
def gKey (b chunk : Nat) : Nat := b * 2 ^ 32 + chunk

/-- Keeps a reduced gradient for a copy (R131, R134). -/
def State.keepG (s : State) (id copy b chunk : Nat) (data : List Byte) : State :=
  s.modColl id fun c => { c with copies := Tbl.modify c.copies copy fun k => { k with g := Tbl.set k.g (gKey b chunk) data } }

/-- Where the reduced gradient of a copy's chunk goes in memory: the buffer at `g_addr` of a step-scope recipe (R169); none where it stays in
larder staging. -/
def COp.gParts (x : COp) (copy b : Nat) (ch : ChunkAt) (data : List Byte) : List (Nat × List Byte) :=
  match (Tbl.getD x.c.descs copy [])[b]? with
  | some d => if d.g = 0 then [] else [(d.g + 4 * (ch.first - (shard ch.shard x.g.n (x.elems b)).1), data)]
  | none => []

/-- A reduced gradient is kept for a copy and, under a step-scope recipe, written to its buffer, which ends the piece of work `t` (R169). -/
def State.placeG (s : State) (x : COp) (t : Todo) (copy : Nat) (ch : ChunkAt) (data : List Byte) : State :=
  let s := s.keepG x.c.op copy t.bundle t.chunk data
  let parts := x.gParts copy t.bundle ch data
  if parts.isEmpty then s.finishTodo x.c.op t else s.writeParts x.c.op t parts

/-- The owner's last fold (R83, R86, R93, R131): the result of a plain operation, or a step's gradient in FP32, which goes to the twin too. -/
def State.finishOwner (s : State) (x : COp) (n : Node) (ch : ChunkAt) : State :=
  let id := x.c.op
  let f := x.flow n.bundle false
  let fw := x.p.fw
  let vs := postScaled x.p.red x.p.post (accValues x.p.kind n.blks)
  let (r, s) := s.opRoundings id fw.rnd ch.elems
  let fk := if x.c.isStep then (1, 0) else (fw.fmtOut, sideKind fw.fmtOut fw.sideOut)
  let e := encodeRun fk.1 fk.2 (fw.sat == 1) r vs
  let s := s.markSpecial id (accSpecial n.blks e.2)
  let h := x.hdr n.bundle n.chunk (f.top ch.shard) n.rank ch.elems fk.1 fk.2 false true n.contribs e.1
  let t : Todo := ⟨n.rank, n.bundle, false, 0, n.chunk, 0⟩
  if x.c.isStep then
    let m := x.g.member n.rank
    let s := if m.twinValid then s.sendChunk id n.rank m.twin h e.1 else s
    s.placeG x t (n.rank * 2) ch e.1
  else (s.deliver id n.rank n.bundle false h e.1).finishTodo id t

/-- A rank's partial goes on in its hand-off format (R94). -/
def State.finishPartial (s : State) (x : COp) (n : Node) (ch : ChunkAt) (e : Edge) : State :=
  let id := x.c.op
  let fw := x.p.fw
  let code := handoff x.p.kind x.p.partSel
  let kind := sideKind code fw.sideIn
  let (r, s) := s.opRoundings id fw.rnd ch.elems
  let q := encodeChunk code kind (fw.sat == 1) r (accValues x.p.kind n.blks)
  let s := s.markSpecial id (accSpecial n.blks q.2)
  s.sendChunk id n.rank e.dst (x.hdr n.bundle n.chunk e.stage n.rank ch.elems code kind true false n.contribs q.1) q.1

/-- A chunk that has folded everything due leaves its unit and hands its result on. -/
def State.closeNode (s : State) (id : Nat) (n : Node) : State :=
  match s.cop? id with
  | none => s
  | some x =>
    let f := x.flow n.bundle false
    match f.chunk? n.chunk with
    | none => s
    | some ch =>
      if n.finished ∨ n.seen.length < (f.sources ch.shard n.rank).length + n.locals then s
      else
        let s := s.unbindNodes [n]
        let s := s.setNode id { n with finished := true, unit := none }
        match f.next ch.shard n.rank with
        | some e => (s.finishPartial x n ch e).finishTodo id ⟨n.rank, n.bundle, false, 0, n.chunk, 0⟩
        | none => s.finishOwner x n ch

/-- The DMA mover or tally unit reports a failed check (R98): the records of the slot's, or the mover's, chunk with the rank that the header
carries, the counter, the report up. -/
def State.checkFailed (s : State) (x : COp) (blk : Blk) (checker unit b chunk stage src : Nat) (ag : Bool) : State :=
  let s := if checker ≤ 1 then (s.bump F.TAL_CHECK_FAIL).evt 6 else s.bump F.DMV_CHECK_FAIL
  let s := s.logCheckFail blk checker unit [x.g.id * 2 ^ 32 + x.c.num, b * 2 ^ 32 + chunk, stage * 65536 + src]
  s.reportFailure x b ag

/-- The stage in which a rank contributes to a chunk's slot: that of its edge, or of the first edge to the slot. -/
def Flow.stageTo (f : Flow) (shard rank src : Nat) : Nat :=
  let es := (f.rs shard).filter fun e => e.dst == rank
  (((es.find? fun e => e.src == src).orElse fun _ => es.head?).map (·.stage)).getD 0

/-- A contribution at the slot of its chunk: the check first (R98, with the injection points of R484), then the match (R99: one from each peer,
one for each local source), then the fold, which reads the slot: a poisoned word of it fails the chunk's check (R359). One whose length is not the chunk's, or that is marked final, matches no slot either and is discarded and
counted as R99's others are, which does not name these two (DESIGN CHOICE, log entry 71). More than the 65,536 contributions of R61, which the device cannot count at admission where peers
fold sources of their own, end the operation here (DESIGN CHOICE, log entry 58). -/
def State.offer (s : State) (id : Nat) (n : Node) (h : ChunkHdr) (data : List Byte) : State :=
  match s.cop? id, n.unit with
  | some x, some u =>
    let f := x.flow n.bundle false
    match f.chunk? n.chunk with
    | none => s
    | some ch =>
      let (bad1, s) := s.inject 0x1501 0 x.o.part Status.checkFailed
      let (bad2, s) := s.inject 0x1502 0 x.o.part Status.checkFailed
      if bad1 ∨ bad2 ∨ !h.good data then
        let s := if bad1 ∨ bad2 then s.modOp id fun o => { o with injected := true } else s
        s.checkFailed x .TAL (if bad1 ∨ !h.good data then 0 else 1) u n.bundle n.chunk (f.stageTo ch.shard n.rank h.src) h.src false
      else
        let own := h.src == n.rank
        let code := if h.partial_ then handoff x.p.kind x.p.partSel else x.p.fw.fmtIn
        let kind := sideKind code x.p.fw.sideIn
        let fits := own || (f.rs ch.shard).any fun e => e.src == h.src && e.dst == n.rank && e.stage == h.stage
        if !fits ∨ h.group ≠ x.g.id ∨ h.redOp ≠ x.p.red ∨ h.fmt ≠ code ∨ h.side ≠ kind ∨ h.elems ≠ ch.elems ∨ h.final ∨ n.finished
            ∨ (if own then n.locals else 1) ≤ n.seen.count h.src ∨ data.length ≠ codeBytes code ch.elems then s.bump F.TAL_MISDIRECT
        else if 65536 < n.contribs + h.contribM1 + 1 then s.endLocally id Status.formatUnsupported 0
        else match (if n.seen.isEmpty then (false, false, s) else s.slotRead x.o.part) with
        | (true, hit, s) =>
          let s := if hit then s.modOp id fun o => { o with injected := true } else s
          s.checkFailed x .TAL 0 u n.bundle n.chunk (f.stageTo ch.shard n.rank h.src) h.src false
        | (false, _, s) =>
          let n := { n with blks := foldAcc x.p.kind n.blks (decodeChunk code kind ch.elems data), contribs := n.contribs + h.contribM1 + 1,
                            seen := n.seen ++ [h.src] }
          let s := s.setNode id n
          (if own then s else s.sendFolded x.c.slot x.c.key n.rank h.src h false).closeNode id n
  | _, _ => s

/-- The wire bytes of a chunk of a gathered input. -/
def COp.inputAt (x : COp) (b src first elems : Nat) : List Byte :=
  slice (Tbl.getD x.c.inputs (b * 16 + src) []) (wireBytes x.p.fw.fmtIn first) (wireBytes x.p.fw.fmtIn elems)

/-- Inputs that a rank of this device folds itself: a plain operation's own, a step's local sources at the first rank (log entry 22). -/
def COp.localSrcs (x : COp) (rank b : Nat) : List Nat :=
  if x.c.isStep then (if rank = x.g.me then List.range (((x.c.plan[b]?).map (·.src.length)).getD 0) else []) else [0]

/-- The local contributions to a chunk as gather-in put them into the larder, each with its check (R97). -/
def COp.localChunks (x : COp) (rank b i : Nat) (ch : ChunkAt) : List (ChunkHdr × List Byte) :=
  let fmt := x.p.fw.fmtIn
  (x.localSrcs rank b).map fun k =>
    let data := x.inputAt b k ch.first ch.elems
    (x.hdr b i 0 rank ch.elems fmt (sideKind fmt x.p.fw.sideIn) false false 1 data, data)

/-- A chunk takes a slot and enters a unit, which folds what is in its arrival area. -/
def State.enterUnit (s : State) (id rank b chunk u : Nat) : State :=
  let node := fun (s : State) => (s.coll? id).bind fun c => c.node? rank b chunk
  match node s with
  | none => s
  | some n =>
    if n.finished ∨ n.unit.isSome then s
    else
      let s := (s.bump F.TAL_UNIT_STATE_slots_bound 1 u).setNode id { n with unit := some u, waiting := [], slot := true }
      let s := n.waiting.foldl (fun s q => match node s with
        | some n => s.offer id n q.1 q.2
        | none => s) s
      match node s with
      | some n => s.closeNode id n
      | none => s

/-- Whether a chunk's slot is still reserved (R104): it folds, or its result has yet to be reported folded or written. A step's gradient is
through with its reduce commit. -/
def Coll.slotHeld (c : Coll) (n : Node) : Bool :=
  n.slot && (!n.finished || (!(c.isStep && c.launched.contains (n.bundle, true)) &&
    (c.outs.any (fun u => !u.folded && u.src == n.rank && u.hdr.src == n.rank && u.hdr.bundle == n.bundle && u.hdr.chunk == n.chunk)
      || c.stuck.any fun j => match j with
        | .output t _ => t.rank == n.rank && t.bundle == n.bundle && t.chunk == n.chunk && !t.ag
        | _ => false)))

/-- Whether the operation has a slot free for a chunk (R102, R104). The reservation itself stands until the operation ends (R138; DEDUCED, log
entry 59). -/
def Coll.slotFree (c : Coll) (n : Node) : Bool := n.slot || decide ((c.nodes.filter c.slotHeld).length < c.slots)

/-- Binds a chunk that waits for a slot or a unit (R104, R108); one whose operation waits to be judged is left (R454). -/
def State.bindChunk (s : State) (id rank b chunk : Nat) : State :=
  match s.cop? id with
  | none => s
  | some x =>
    if s.rst.replays.any fun r => r.kind == 0 && r.parked.contains (id, rank, b, chunk) then s
    else match x.c.node? rank b chunk, s.bindUnit x.g.id b chunk with
    | some n, some u => if x.c.slotFree n then s.enterUnit id rank b chunk u else s
    | _, _ => s

/-- The chunks of an operation that wait for a slot bind in order while there are any (R104). -/
def State.bindWaiting (s : State) (id : Nat) : State :=
  match s.coll? id with
  | none => s
  | some c => (c.nodes.filter fun n => n.unit.isNone && !n.finished).foldl (fun s n => s.bindChunk id n.rank n.bundle n.chunk) s

/-! ### Launching a flow (R121, R124, R131) -/

/-- One chunk of a reduction at a rank: an original input sent as it is (R94), or a chunk to fold. A rank without a local source of its own, as a
plan may leave it, contributes +0 in every element; the spec does not say what it sends (DESIGN CHOICE, log entry 58). A rank with several
local sources sends one contribution, which R99 declares for each peer, also under direct (DEDUCED, log entry 22). -/
def State.launchRs (s : State) (id rank b i : Nat) (ch : ChunkAt) : State :=
  match s.cop? id with
  | none => s
  | some x =>
    let f := x.flow b false
    let srcs := x.localSrcs rank b
    let fmt := x.p.fw.fmtIn
    let kind := sideKind fmt x.p.fw.sideIn
    match f.next ch.shard rank, f.sources ch.shard rank, decide (srcs.length ≤ 1) with
    | some e, [], true =>
      let data := match srcs with
        | k :: _ => x.inputAt b k ch.first ch.elems
        | [] => (encodeRun fmt kind false (fun _ => none) (List.replicate ch.elems .zero)).1
      s.sendChunk id rank e.dst (x.hdr b i e.stage rank ch.elems fmt kind false false 1 data) data
    | _, _, _ =>
      let mine := fun (q : ChunkHdr × List Byte) => q.1.bundle == b && q.1.chunk == i && !q.1.final &&
        (f.rs ch.shard).any fun e => e.src == q.1.src && e.dst == rank && e.stage == q.1.stage
      let n : Node := ⟨rank, b, i, none, emptyAcc ch.elems, 0, [], srcs.length, false, x.c.before.filter mine ++ x.localChunks rank b i ch, false⟩
      (s.modColl id fun c => { c with nodes := c.nodes ++ [n], before := c.before.filter fun q => !mine q }).bindChunk id rank b i

/-- The things a rank has to do in a flow before it reports. -/
def COp.dueOf (x : COp) (rank b : Nat) (ag : Bool) : List Todo :=
  let f := x.flow b ag
  (f.chunks.mapIdx fun i ch =>
    let leaf := (f.next ch.shard rank).isSome && (f.sources ch.shard rank).isEmpty && decide ((x.localSrcs rank b).length ≤ 1)
    let fold := if f.takesPart ch.shard rank && !leaf then [(⟨rank, b, ag, 0, i, 0⟩ : Todo)] else []
    let holder := if f.co = 3 then rank == x.p.root && x.p.root == ch.shard else f.co != 5 && rank == f.owner ch.shard
    let res :=
      if f.co = 5 then (if ch.shard = rank then (List.range f.n).map fun r => (⟨rank, b, ag, 1, i, r⟩ : Todo) else [])
      else if x.c.isStep && !ag then []
      else if holder || (f.copies ch.shard).any (fun e => e.dst == rank) then [⟨rank, b, ag, 1, i, 0⟩] else []
    let twins := if x.c.isStep && !ag && rank == x.g.me then
        (x.c.copies.filter fun q => q.1 % 2 == 1 && q.1 / 2 == ch.shard).map fun q => (⟨rank, b, ag, 2, i, q.1 / 2⟩ : Todo) else []
    fold ++ res ++ twins).flatten

/-- One chunk of a plain operation's result that no reduction makes: the shard's owner, the root, or a segment's sender holds it as its input
(R121, R122). -/
def State.launchOwn (s : State) (id rank i : Nat) (ch : ChunkAt) : State :=
  match s.cop? id with
  | none => s
  | some x =>
    let f := x.flow 0 false
    let fmt := x.p.fw.fmtIn
    let kind := sideKind fmt x.p.fw.sideIn
    let go := fun (s : State) (first : Nat) (dst : Nat) =>
      let data := x.inputAt 0 0 first ch.elems
      let h := x.hdr 0 i 0 rank ch.elems fmt kind false true 1 data
      if dst = rank then s.deliver id rank 0 false h data else s.sendChunk id rank dst h data
    if f.co = 2 ∧ rank = ch.shard then go s (x.before rank + (ch.first - (shard rank x.g.n x.p.count).1)) rank
    else if f.co = 3 ∧ rank = x.p.root then go s ch.first ch.shard
    else if f.co = 5 then go s (x.index rank * x.p.count + ch.shard * (x.p.count / x.g.n) + ch.first) ch.shard
    else s

/-- Launches a plain operation, or the reduce-scatter of a bundle, from its gathered inputs. -/
def State.launch (s : State) (id b : Nat) : State :=
  match s.cop? id with
  | none => s
  | some x =>
    let f := x.flow b false
    let ranks := x.g.local_
    let s := s.modColl id fun c =>
      { c with launched := (b, false) :: c.launched, todo := c.todo ++ (ranks.map fun r => x.dueOf r b false).flatten }
    let s := ranks.foldl (fun s r => (f.chunks.zipIdx).foldl (fun s q =>
      if f.reduces then (if f.takesPart q.1.shard r then s.launchRs id r b q.2 q.1 else s) else s.launchOwn id r q.2 q.1) s) s
    let held := ((s.coll? id).map (·.before)).getD [] |>.filter fun q => q.1.bundle == b
    let s := s.modColl id fun c => { c with before := c.before.filter fun q => q.1.bundle != b }
    let s := held.foldl (fun s q => s.inboxAdd (.chunk x.c.slot q.1 q.2)) s
    ranks.foldl (fun s r => s.checkPhase id r b false) s

/-! ### Gather-in -/

/-- The inputs of a plain operation or of a bundle: source, address, scale address, elements. -/
def COp.sources (x : COp) (b : Nat) : List (Nat × Nat × Nat × Nat) :=
  if x.c.isStep then
    match x.c.plan[b]? with
    | some q => q.src.mapIdx fun i a => (i, a, 0, q.elems)
    | none => []
  else
    let own := fun n => [(0, x.p.inA, x.p.inS, n)]
    match x.p.co with
    | 2 => own (sumNat (x.g.local_.map fun r => let q := shard r x.g.n x.p.count; q.2 - q.1))
    | 3 => if x.g.local_.contains x.p.root then own x.p.count else []
    | 5 => own (x.p.count * x.g.local_.length)
    | 6 => []
    | _ => own x.p.count

/-- The ranges an input takes in memory. -/
def COp.inRanges (x : COp) (q : Nat × Nat × Nat × Nat) : List (Nat × Nat) :=
  let c := x.p.fw.fmtIn
  if isMx c ∧ bitAt x.p.fw.sideIn 1 then [(q.2.1, elemBytes c q.2.2.2), (q.2.2.1, scaleBytes c q.2.2.2)] else [(q.2.1, wireBytes c q.2.2.2)]

/-- The wire form of an input read from its ranges. -/
def COp.joined (x : COp) : List (List Byte) → List Byte
  | [el, sc] => joinMx x.p.fw.fmtIn el sc
  | l => l.flatten

/-- What follows a finished gather-in: the launch, or for a SCALAR_ALL_REDUCE the rank's own values on their way up (R122). -/
def State.gathered (s : State) (id b : Nat) : State :=
  match s.cop? id with
  | none => s
  | some x =>
    if x.p.co = 7 then
      let s := s.modColl id fun c => { c with launched := (0, false) :: c.launched }
      let vals := (decodeRun x.p.fw.fmtIn 0 x.p.count (x.inputAt 0 0 0 x.p.count)).map fun v =>
        if isInt x.p.fw.fmtIn then pattern64 v.toInt else (fp64.encode false none v).1
      x.g.local_.foldl (fun s r => s.ownReport x.c.slot r x.c.key (.scalar 0 0 vals)) s
    else s.launch id b

/-- Gathers a bundle's inputs into the larder: held on an absent page, ended on a violation, CHECK_FAILED where they are poisoned (R359), read
over their host links first (R312). Inputs already kept by `retain` are used as they are (R130). -/
def State.gatherIn (s : State) (id b : Nat) (ready : Bool) : State :=
  match s.cop? id with
  | none => s
  | some x =>
    let srcs := x.sources b
    if srcs.all fun q => (Tbl.get? x.c.inputs (b * 16 + q.1)).isSome then (s.modColl id fun c => { c with gather := none }).gathered id b
    else match s.lookupParts x.o .read (srcs.map x.inRanges).flatten with
    | (.error e, s) => (s.modColl id fun c => { c with gather := some b }).stopColl id x.o (.gather b) .read e
    | (.ok ls, s) =>
      match s.badFor x.o.part (some id) ls.flatten with
      | (true, s) => s.endLocally id Status.checkFailed 0
      | (false, s) => if !ready ∧ !(hostLocs ls.flatten).isEmpty then
        (s.modColl id fun c => { c with gather := some b }).issueReads (.op id) x.o.vf x.o.tag (hostLocs ls.flatten)
      else
        let per := if isMx x.p.fw.fmtIn ∧ bitAt x.p.fw.sideIn 1 then 2 else 1
        let got := ls.map s.readLocs
        let s := if per = 2 then s.bump F.DMV_REPACK (sumNat (srcs.map fun q => ceilDiv q.2.2.2 32)) else s
        let s := s.modColl id fun c => { c with gather := none, inputs := (srcs.zipIdx).foldl (fun t q =>
          Tbl.set t (b * 16 + q.1.1) (x.joined ((got.drop (per * q.2)).take per))) c.inputs }
        s.gathered id b

/-- Bytes of staging that the reduced gradients of a bundle take on this device (R169): those of recipes without a step-scope pass. -/
def COp.gBytes (x : COp) (b : Nat) : Nat :=
  sumNat (x.c.copies.map fun q =>
    match (Tbl.getD x.c.descs q.1 [])[b]? with
    | some d => if d.g ≠ 0 then 0 else let r := shard (q.1 / 2) x.g.n (x.elems b); 4 * (r.2 - r.1)
    | none => 0)

/-- Starts the next gather-in that may run: the lowest bundle not yet launched, when staging can hold its gradients (R135 event 3, R169). -/
def State.gatherNext (s : State) (id : Nat) : State :=
  match s.cop? id with
  | none => s
  | some x =>
    if x.c.phase ≠ .running ∨ x.c.gather.isSome then s
    else
      let due := (List.range x.p.bundles).find? fun b => decide (x.p.bStart ≤ b) && decide (x.c.committed ≤ b) && !x.c.launched.contains (b, false)
      match due with
      | none => s
      | some b =>
        let need := x.gBytes b
        if s.stagingFree x.o.vf x.o.part < need then s
        else (s.modColl id fun c => { c with stagingBytes := c.stagingBytes + need }).gatherIn id b false

/-- Launches what follows, one bundle after the other, as far as gather-in goes without waiting; `n` bounds the bundles. -/
def State.gatherAll (s : State) (id : Nat) : Nat → State
  | 0 => s
  | n + 1 =>
    let before := (s.coll? id).map fun c => c.launched.length
    let s := s.gatherNext id
    if before = (s.coll? id).map fun c => c.launched.length then s else s.gatherAll id n

end Sys2Proof.Machine
end

