-- ==== Sys2Proof/Machine/CollStart.lean ====
section
/-!
DEFINITION. How an operation of the commons begins: its admission (R102, R105, R119, R125, R263), its START report, the COLL entry (R242), and
what GO and RERUN set going at a rank (R125, R139).
-/

namespace Sys2Proof.Machine

/-! ### START (R125, R206) -/

/-- The START body of an entry. -/
def CP.startF (p : CP) (count st crc : Nat) (states : List (Nat × Nat)) : StartF :=
  { co := p.co, algo := p.algo, redOp := p.red, fmtIn := p.fw.fmtIn, fmtOut := p.fw.fmtOut, sides := p.fw.sideIn + 16 * p.fw.sideOut,
    accRnd := p.fw.accFmt + 32 * p.fw.rnd, count := count, status := st, crc := crc, bundleStart := p.bStart, states := states }

/-- What a START tells of a copy in a step of so many bundles (R188, R191; log entry 21). -/
def Bind.told (b : Bind) (bundles : Nat) : Nat :=
  b2n (b.states.any fun q => q.2 == 1 && decide (q.1 < bundles)) + 2 * b2n (b.states.any fun q => q.2 == 2)
    + 4 * b2n (b.states.any fun q => q.2 == 1 && decide (bundles ≤ q.1))

/-- The copies of this device that are not TRACKING, with what START tells of them. -/
def State.copyStates (s : State) (slot : Nat) (g : Group) (bundles : Nat) : List (Nat × Nat) :=
  (s.copiesHeld g).filterMap fun c => match (s.bind? slot c).map fun b => b.told bundles with
    | some 0 => none
    | some w => some (c, w)
    | none => none

/-- Every rank of this device reports START, which names the operation by its sequence number (R125). -/
def State.reportStart (s : State) (slot : Nat) (g : Group) (key : Nat) (f : StartF) : State :=
  g.local_.foldl (fun s r => s.ownReport slot r key (.start { f with states := if r = g.me then f.states else [] })) s

/-! ### What the gatekeeper is asked for (R263) -/

/-- Bytes that this device's ranks send to a device in a flow, with their headers left out (R263). -/
def COp.sendBytes (x : COp) (b : Nat) (ag : Bool) : Tbl Nat :=
  let f := x.flow b ag
  let code := handoff x.p.kind x.p.partSel
  let res := x.p.resFmt ag
  f.chunks.foldl (fun t ch =>
    let add := fun (t : Tbl Nat) (e : Edge) (n : Nat) =>
      if x.g.local_.contains e.src ∧ !x.g.local_.contains e.dst then
        let d := (x.g.member e.dst).dev
        Tbl.set t d (Tbl.getD t d 0 + n)
      else t
    let t := if f.co = 5 then x.g.local_.foldl (fun t r => add t ⟨r, ch.shard, 0⟩ (wireBytes x.p.fw.fmtIn ch.elems)) t else t
    let t := (f.rs ch.shard).foldl (fun t e =>
      add t e (if (f.sources ch.shard e.src).isEmpty then wireBytes x.p.fw.fmtIn ch.elems else codeBytes code ch.elems)) t
    (f.copies ch.shard).foldl (fun t e => add t e (wireBytes res.1 ch.elems)) t) []

/-- Adds up tables of numbers. -/
def addTbl (t u : Tbl Nat) : Tbl Nat := u.foldl (fun t q => Tbl.set t q.1 (Tbl.getD t q.1 0 + q.2)) t

/-- The ranges in memory that this device's ranks write: what R121 gives each, at the places of R242 and R243. -/
def COp.outRanges (x : COp) : List (Nat × Nat) :=
  let c := x.p.fw.fmtOut
  let at_ := fun (a sc n : Nat) => if isMx c ∧ bitAt x.p.fw.sideOut 1 then [(a, elemBytes c n), (sc, scaleBytes c n)] else [(a, wireBytes c n)]
  if x.c.isStep then (x.c.plan.map fun q => ((q.dst.zip q.dscale).map fun d => at_ d.1 d.2 q.elems).flatten).flatten
  else match x.p.co with
    | 1 => at_ x.p.outA x.p.outS (sumNat (x.g.local_.map fun r => let q := shard r x.g.n x.p.count; q.2 - q.1))
    | 4 => if x.g.local_.contains x.p.root then at_ x.p.outA x.p.outS x.p.count else []
    | 5 => at_ x.p.outA x.p.outS (x.p.count * x.g.local_.length)
    | 6 => []
    | _ => at_ x.p.outA x.p.outS x.p.count

/-- The charge of an operation: the bytes of every bundle on the ports of the group's chunk connections, their grants, the host links of
gather-in and publish (R263). A peer to which no connection stands yet has no grant to charge (log entry 23). -/
def State.collCharge (s : State) (x : COp) : Charge :=
  let bs := List.range x.p.bundles
  let sent := bs.foldl (fun t b => addTbl (if x.p.bStart ≤ b then addTbl t (x.sendBytes b false) else t) (if x.c.isStep then x.sendBytes b true else [])) []
  let k0 := { s.newConn x.g.vf x.o.part 3 s.cmnMtu with spray := 2 }
  let ports := sent.foldl (fun t q => addTbl t (s.spread { k0 with peerDev := q.1 } x.o.cls q.2)) []
  let grants := sent.filterMap fun q => (s.cmnTo x.c.slot 3 q.1).map fun c => (c, q.2)
  let ins := (bs.map fun b => if x.p.bStart ≤ b then ((x.sources b).map x.inRanges).flatten else []).flatten
  let outs := x.outRanges
  let link : List (Nat × Nat) → Nat → List (Nat × Nat × Nat) := fun l dir =>
    (l.foldl (fun t q => addTbl t (s.linkBytes x.o.part x.o.vf x.o.tag q.1 q.2)) []).map fun q => (q.1, dir, q.2)
  { ports := ports, links := link ins 1 ++ link outs 0, grants := grants, tokens := sumNat (sent.map Prod.snd), srtt := 0, rto := 0,
    mtu := s.cmnMtu, noPort := sent.any fun q => s.routeMask q.1 == 0 }

/-! ### Admission (R102, R105, R130) -/

/-- The slots an entry asks for (R237, R102). -/
def slotsAsked (h : DescHdr) : Nat := if h.inlineLen = 0 then 16 else h.inlineLen + 1

/-- Whether an output range overlaps an input range (R130), of any bundle of a step. -/
def COp.overlaps (x : COp) : Bool :=
  let ins := ((List.range x.p.bundles).map fun b => ((x.sources b).map x.inRanges).flatten).flatten
  ins.any fun i => x.outRanges.any fun q => decide (i.1 < q.1 + q.2) && decide (q.1 < i.1 + i.2)

/-- Whether an operation keeps device copies of its inputs. -/
def COp.retains (x : COp) : Bool := bitAt x.o.flags 5 || x.overlaps

/-- Reserves what an operation needs before it runs: its device copies, its pool slots or, with `allow_stream`, HBM4 and staging; none where
it cannot (REFUSED_POOL). -/
def State.reserveColl (s : State) (x : COp) (slots : Nat) : Option (Coll × State) :=
  let p := x.o.part
  let keep := if x.retains then sumNat ((List.range x.p.bundles).map fun b =>
      if x.p.bStart ≤ b then sumNat ((x.sources b).map fun q => wireBytes x.p.fw.fmtIn q.2.2.2) else 0) else 0
  if s.shareBytes p 0 < s.hbmTaken p + keep then none
  else
    let c := { x.c with hbmBytes := keep }
    if x.p.co = 6 ∨ x.p.co = 7 then some (c, s)
    else
      let units := slots * slotUnits x.p.kind x.p.partSel (2 ^ c.chunkLog)
      match s.reservePool x.o.vf p units with
      | some ((own, bor), s) => some ({ c with own := own, borrowed := bor, slots := slots }, s)
      | none =>
        let sb := slotBytes x.p.kind x.p.partSel (2 ^ c.chunkLog)
        if !bitAt x.o.flags 4 ∨ s.shareBytes p 0 < s.hbmTaken p + keep + slots * sb.2 ∨ s.stagingFree x.o.vf p < slots * sb.1 then none
        else some ({ c with slots := slots, hbmBytes := keep + slots * sb.2, stagingBytes := slots * sb.1 }, s)

/-- An entry of the commons completes without becoming an operation: with `cmn_cause` and `twin_state` (R127, R188). -/
def State.endCmn (s : State) (f : Fetched) (slot st sub cause : Nat) : State :=
  let c := s.cqeOf f
  ((s.countEnding st).countRefusal st).completeEntry f.key f.count { c with status := st, sub := sub, cinfo := cause + 32 * s.twinState slot }

/-- Whether the chunks of an operation fit the frames of every port that its connections may use (R288). -/
def State.chunksFit (s : State) (x : COp) : Bool :=
  (x.g.members.map (·.dev)).all fun d => d == s.devAddr || (match (s.cmnTo x.c.slot 3 d).bind s.conn? with
    | some k => s.frameFits d k.largestFrame
    | none => s.frameFits d ({ s.newConn x.g.vf x.o.part 3 s.cmnMtu with peerIp := s.fabricIp d, enc := x.g.enc }).largestFrame)

/-- An operation of the commons is admitted: its record among the operations in flight and among those of the commons, with what was reserved for
it; its START (R125, R273, R280). -/
def State.openColl (s : State) (f : Fetched) (x : COp) (c : Coll) (a : Admitted) (count crc : Nat) : State :=
  let q := s.newOp f a .running (s.collCharge x).tokens
  let streams := c.own = 0 ∧ c.borrowed = 0 ∧ x.p.co ≠ 6 ∧ x.p.co ≠ 7
  let s := if streams then ((q.2.bump F.TAL_STREAM_OPS).modOp q.1 fun o => { o with cqe := { o.cqe with stream := true } }).recordCause q.1 7 else q.2
  let s := { s with cmn := { s.cmn with colls := s.cmn.colls ++ [{ c with op := q.1 }] } }
  s.reportStart x.c.slot x.g x.c.seq (x.p.startF count 0 crc (if x.c.isStep then s.copyStates x.c.slot x.g x.p.bundles else []))

/-- Admits an operation of the commons: the reservation, the test of R270, its record, its START. A refusal is reported in START and
completes the entry here (R125, R126). -/
def State.admitColl (s : State) (f : Fetched) (h : DescHdr) (x : COp) (count crc : Nat) : State :=
  let refuse := fun (s : State) st => (s.reportStart x.c.slot x.g x.c.seq (x.p.startF count st crc [])).endCmn f x.c.slot st 0 0
  if s.flightFull then refuse s Status.refusedCapacity
  else if !s.chunksFit x then refuse s Status.lengthExceeded
  else match s.reserveColl x (slotsAsked h) with
  | none => refuse s Status.refusedPool
  | some (c, s) =>
    match s.gateIn x.o.vf x.o.part x.o.cls (s.collCharge x) with
    | (.error st, s) => refuse (s.releasePool x.o.part c.own c.borrowed) st
    | (.ok a, s) => s.openColl f x c a count crc

/-! ### The group an entry names -/

/-- Whether an entry of the commons waits: its group is VOIDING (R114). -/
def State.groupHolds (s : State) (f : Fetched) : Bool :=
  match s.groupById ((descHdr f.desc).target % 65536) with
  | some (_, g) => g.state == .voiding && g.vf == ringVf f.key
  | none => false

/-- The chunk size of an entry: none where it is out of range (R237). -/
def State.chunkLogOf (s : State) (h : DescHdr) : Option Nat :=
  if h.chunkLog2 = 0 then some (s.rd F.TAL_CFG_chunk_log2) else if 12 ≤ h.chunkLog2 ∧ h.chunkLog2 ≤ 20 then some h.chunkLog2 else none

/-- An operation's record before it is admitted. -/
def coll0 (slot key seq : Nat) (isStep : Bool) (algo chunkLog : Nat) : Coll :=
  { op := 0, slot := slot, key := key, seq := seq, isStep := isStep, phase := .admitted, algo := algo, attempt := 0, runs := [], voided := 0, goAt := none, todo := [],
    launched := [], reported := [], gather := none, inputs := [], before := [], nodes := [], outs := [], chunkLog := chunkLog, plan := [],
    descs := [], scalars := [], copies := [], committed := 0, norms := [], published := [], own := 0, borrowed := 0, slots := 0, hbmBytes := 0,
    stagingBytes := 0, stuck := [], parked := [], wrote := [], ending := none, short := false }

/-- An operation as it would be from an entry. -/
def State.copOf (s : State) (f : Fetched) (h : DescHdr) (g : Group) (c : Coll) : COp :=
  let vf := ringVf f.key
  { c := c, g := g, p := cpOf f.desc,
    o := { key := f.key, count := f.count, vf := vf, part := s.rd F.PTN_INST_partition vf, opcode := h.opcode, cls := h.cls, target := h.target,
           tag := h.tag, desc := f.desc, inl := [], phase := .running, admitted := s.now, deadline := none, inFlight := false, cause := 0,
           cqe := s.cqeOf f, msgs := [], bytes := 0, failAt := none, vcs := [], length := 0, flags := h.flags, wrote := [], injected := false } }

/-- Whether an entry of the commons has local addresses that its tag must cover: a BARRIER with tag 0 has none (R122, R237; DEDUCED, log
entry 48). -/
def needsTag (opcode : Nat) (f : Fetched) (h : DescHdr) : Bool :=
  !(opcode == 0x10 && fieldLE f.desc 55 1 % 16 == 6 && h.tag == 0)

/-- Carries out an entry of the commons once it may start: the group must be bound to the issuing instance (R112) and ACTIVE (R114), with fewer
than 64 operations open (R151); a fenced instance's entry is refused (R382). A tag that is not the instance's, and class 0 (R261), are refused. Every refusal
on a bound ACTIVE group takes a sequence number and is reported in START, so that the others are abandoned (R125, R126). -/
def onGroup (key count opcode : Nat) (s : State) (k : State → Fetched → DescHdr → Nat → Group → State) : Host.Outcome State Fault Refusal :=
  act s fun s =>
    match s.fetched? key count opcode with
    | none => s
    | some f =>
      let h := descHdr f.desc
      if !s.fenceClear f ∨ s.groupHolds f then s
      else
        let s := s.unfetch f
        let vf := ringVf key
        match s.groupById (h.target % 65536) with
        | none => s.endEntry f Status.accessLocal 0
        | some (slot, g) =>
          let tagOk := s.tenantOk vf h (needsTag opcode f h)
          if g.vf ≠ vf ∨ 65536 ≤ h.target ∨ (!tagOk ∧ g.state ≠ .active) then s.endEntry f Status.accessLocal 0
          else if g.state ≠ .active then s.endCmn f slot Status.groupReformed 0 0
          else
            let fenced := s.fencedInst vf (s.rd F.PTN_INST_partition vf)
            let full := decide (64 ≤ s.opsOpen slot)
            let p := cpOf f.desc
            let s := s.setGroup slot { g with seq := g.seq + 1 }
            let refuse := fun st sub => (s.reportStart slot g g.seq (p.startF p.count st 0 [])).endCmn f slot st sub 0
            if !tagOk then refuse Status.accessLocal 0
            else if fenced then refuse Status.fencedOrMalformed 1
            else if h.cls = 0 ∨ !bodyZero opcode f.desc then refuse Status.formatUnsupported 0
            else if full then refuse Status.refusedCapacity 0
            else k s f h slot g

/-! ### COLL (R119, R242) -/

/-- The field rules of a plain operation (R61, R89, R119, R121, R122). Two-level fixed by the entry is refused where the trays hold unequal numbers
of ranks, whose same positions R124 could not pair; the spec does not say what it does there (DESIGN CHOICE, log entry 57). -/
def CP.badPlain (p : CP) (g : Group) (chunkLog : Option Nat) : Bool :=
  let trays := g.members.map (·.tray)
  decide (8 ≤ p.co) || decide (5 ≤ p.algo) || p.maxReruns == 3 || chunkLog.isNone
    || ((p.co == 3 || p.co == 4) && decide (g.n ≤ p.root))
    || (p.co == 5 && (decide (1 ≤ p.algo) && decide (p.algo ≤ 3)))
    || (p.co == 5 && p.count % (32 * g.n) != 0)
    || (p.co == 7 && (p.count == 0 || decide (8 < p.count) || !(p.fw.fmtIn == 0 || p.fw.fmtIn == 1 || p.fw.fmtIn == 13)))
    || (p.algo == 3 && decide (p.co < 6) && !sameTrays trays)
    || (p.co != 6 && (p.fw.bad || p.fw.badCount p.count))
    || (!bitAt p.fw.sideIn 1 && p.inS != 0) || (!bitAt p.fw.sideOut 1 && p.outS != 0)
    || ((p.co == 0 || p.co == 1 || p.co == 4 || p.co == 7) && reduceBad p.fw p.red p.partSel p.post)

/-- COLL: the fields, then admission, then START. -/
def State.collStart (s : State) (f : Fetched) (h : DescHdr) (slot : Nat) (g : Group) : State :=
  let p := cpOf f.desc
  let log := s.chunkLogOf h
  if p.badPlain g log then (s.reportStart slot g g.seq (p.startF p.count Status.formatUnsupported 0 [])).endCmn f slot Status.formatUnsupported 0 0
  else
    let algo := s.chooseAlgo p.co p.algo (g.members.map (·.tray))
    s.admitColl f h (s.copOf f h g (coll0 slot g.seq g.seq false algo (log.getD 16))) p.count 0

end Sys2Proof.Machine
end

