-- ==== Sys2Proof/Machine/StepRun.lean ====
section
/-!
DEFINITION. Training steps (05_commons_collectives.md, 06_mill_optimizer.md, 07_laying_out_a_job.md): the STEP and MILL_BIND entries (R152,
R165, R193, R243, R244), the blocks of the mill (R156, R178-R181), norms (R163-R168), state hashes (R177), filling (R190-R192), publishing
(R132, R134, R147).
-/

namespace Sys2Proof.Machine

/-! ### MILL_BIND (R244, R188) -/

/-- Whether a device holds a rank, or the twin copy of a rank (R186). -/
def State.holdsCopy (s : State) (g : Group) (rank : Nat) (twin : Bool) : Bool :=
  if twin then (s.twinsHeld g).contains rank else g.local_.contains rank

/-- MILL_BIND: the table of a rank or of a twin copy held, all its bundles TRACKING or, with `fill`, FILLING. -/
def State.millBind (s : State) (f : Fetched) (h : DescHdr) : State :=
  let d := f.desc
  let rank := fieldLE d 24 2
  let twin := bitAt (fieldLE d 28 1) 0
  let fill := bitAt (fieldLE d 28 1) 1
  match s.groupById (h.target % 65536) with
  | none => s.endEntry f Status.accessLocal 0
  | some (slot, g) =>
    if g.vf ≠ ringVf f.key ∨ 65536 ≤ h.target ∨ !s.tenantOk (ringVf f.key) h true ∨ !s.holdsCopy g rank twin then
      s.endEntry f Status.accessLocal 0
    else if s.cmn.colls.any fun c => c.slot == slot && c.isStep then s.endEntry f Status.quiesceRequired 0
    else
      let count := fieldLE d 26 2 + 1
      let copy := rank * 2 + b2n twin
      let st := b2n fill
      let moved := (List.range count).any fun k => (((s.bind? slot copy).map fun b => b.stateOf k).getD 0) != st
      let b : Bind := ⟨slot, rank, twin, h.tag, fieldLE d 16 8, count, if fill then (List.range count).map fun k => (k, 1) else []⟩
      let s := { s with mill := { s.mill with binds := (s.mill.binds.filter fun (k : Bind) => !(k.slot == slot && k.rank == rank && k.twin == twin)) ++ [b] } }
      let s := if moved then s.logEv .MIL .stateChange st rank else s
      s.endEntry f Status.ok 0

/-- MILL_BIND. -/
def execMillBind (key count : Nat) (s : State) : Host.Outcome State Fault Refusal :=
  onEntry key count 0x12 s fun s f h => s.millBind f h

/-! ### STEP: its memory operands and checks (R152, R165, R193, R243) -/

/-- How reading a memory operand at admission ends. -/
inductive OperandRead where
  | bytes (b : List Byte)
  | stop (e : Stop)
  | poison
  | misplaced
  | reading
  deriving DecidableEq, Repr

/-- Whether a range lies in HBM4 alone. -/
def inHbm (l : List (Loc × Nat)) : Bool := l.all fun q => match q.1 with
  | .dev a => decide (a < ddrBase)
  | .host _ _ => false

/-- Reads an operand of an entry, in HBM4 alone where `hbm` is set: device memory at once; host pages over their link first, for the ring (R312), from the bytes delivered
then. -/
def State.readOperand (s : State) (key tag va n : Nat) (hbm : Bool) : OperandRead × State :=
  let vf := ringVf key
  match s.lookupRange (s.rd F.PTN_INST_partition vf) vf tag va n .read with
  | (.error e, s) => (.stop e, s)
  | (.ok ls, s) =>
    if hbm ∧ !inHbm ls then (.misplaced, s)
    else match s.badFor (s.rd F.PTN_INST_partition vf) none ls with
    | (true, s) => (.poison, s)
    | (false, s) =>
      let hosts := hostLocs ls
      if hosts.all fun q => (Tbl.get? s.hpt.view (hostKey q.1 q.2.1)).isSome then (.bytes (s.readLocs ls), s)
      else if s.readsOf (.ring key) then (.reading, s)
      else (.reading, s.issueReads (.ring key) vf tag hosts)

/-- Reads several operands of an entry, in order. -/
def State.readOperands (s : State) (key : Nat) (hbm : Bool) : List (Nat × Nat × Nat) → Except OperandRead (List (List Byte)) × State
  | [] => (.ok [], s)
  | (tag, va, n) :: t =>
    match s.readOperand key tag va n hbm with
    | (.bytes b, s) => match s.readOperands key hbm t with
      | (.ok bs, s) => (.ok (b :: bs), s)
      | (.error e, s) => (.error e, s)
    | (e, s) => (.error e, s)

/-- A record of the plan (R243); none where it is broken. -/
def planRec (b : List Byte) : Option PlanRec :=
  let src := fieldLE b 0 1
  let dst := fieldLE b 1 1
  if 8 < src ∨ 8 < dst ∨ !zeroBytes b 2 2 ∨ !zeroBytes b 8 56 then none
  else some ⟨fieldLE b 4 4, (List.range src).map fun i => fieldLE b (64 + 8 * i) 8, (List.range dst).map fun i => fieldLE b (128 + 8 * i) 8,
    (List.range dst).map fun i => fieldLE b (192 + 8 * i) 8⟩

/-- Splits a list of options: all of them, or none. -/
def allSome {α : Type} : List (Option α) → Option (List α)
  | [] => some []
  | none :: _ => none
  | some a :: t => (allSome t).map (a :: ·)

/-- The field rules of a step that complete FORMAT_UNSUPPORTED before its memory is read (R61, R89, R119, R243). -/
def CP.badStep (p : CP) (g : Group) (chunkLog : Option Nat) : Bool :=
  decide (5 ≤ p.algo) || p.maxReruns == 3 || chunkLog.isNone || bitAt p.fw.sideIn 1 || p.fw.bad || reduceBad p.fw 0 p.partSel p.post
    || (p.algo == 3 && !sameTrays (g.members.map (·.tray)))

/-- A bundle of a step breaks R61 by its element count or by the contributions it would add. How many local sources other ranks fold is not known
here at admission: each other rank counts as one, beside this device's own sources; what partials carry beyond that is judged as they are
folded (DESIGN CHOICE, log entry 58). -/
def CP.badBundle (p : CP) (g : Group) (q : PlanRec) : Bool := p.fw.badCount q.elems || decide (65536 < g.n - 1 + q.src.length)

/-- R193: a copy that is FILLING or SUSPECT and has no other copy. Whether the other copy, which lies on another device, is TRACKING the bellwether
judges by the STARTs (log entry 61). -/
def State.noFillSource (s : State) (slot : Nat) (g : Group) (copy : Nat) : Bool :=
  ((s.bind? slot copy).map Bind.worst).getD 0 != 0 && !(g.member (copy / 2)).twinValid

/-- The step's plan, tables and scalar record obey R152, R165, R193, R243; the descriptors by copy and the scalar table where they do. -/
def State.stepTables (s : State) (x : COp) (plan : List PlanRec) (tables : List (Nat × List Byte)) (scal : List Byte) :
    Option (Tbl (List MillDesc) × List Nat) :=
  let descs := tables.map fun q => (q.1, (List.range x.p.bundles).map fun b => millDesc (slice q.2 (64 * b) 64))
  let bad := descs.any fun q => (q.2.zip plan).any fun r =>
    r.1.bad (s.recipe? x.o.part r.1.recipe) x.p.fw.fmtOut (bitAt x.p.fw.sideOut 1) || r.1.elems != r.2.elems
  let copies := s.copiesHeld x.g
  if bad ∨ tables.length ≠ copies.length ∨ copies.any (fun c => s.noFillSource x.c.slot x.g c) then none
  else (scalarTable scal).map fun t => (descs.foldl (fun d q => Tbl.set d q.1 q.2) [], t)

/-- A step number and first bundle that the group's record allows (R135, R147). A device that has run no step of the group, as a replacement has not
(R200), has no record that a first bundle could differ from. -/
def Group.stepOk (g : Group) (step bStart : Nat) : Bool :=
  decide (g.lastStep < step) && (match g.record with
    | some (n, u) => if n = step then bStart == u else bStart == 0
    | none => bStart == 0 || g.lastStep == 0)

/-- A copy at the start of a step. -/
def copy0 (bStart : Nat) : StepCopy :=
  { next := bStart, done := [], dealt := [], pass1 := [], p1done := [], p1dealt := [], g := [], norms := [], hash := 0xFFFFFFFFFFFFFFFF, stored := [],
    fill := [], fillFails := [], filled := false }

/-- The tables to read for a step: every copy held, by its bound table; none where one is missing, too short or not in place. -/
def State.tablesOf (s : State) (x : COp) : Option (List (Nat × Nat × Nat)) :=
  allSome ((s.copiesHeld x.g).map fun c => match s.bind? x.c.slot c with
    | some b => if x.p.bundles ≤ b.count ∧ b.table % 4096 = 0 then some (c, b.tag, b.table) else none
    | none => none)

/-- Puts an entry back to be looked at again. -/
def State.refetch (s : State) (f : Fetched) : State := { s with fetched := f :: s.fetched }

/-- A step that is started: it reads its plan, tables and scalar record, then asks to be admitted. While host reads are out, or a page is not
present, the entry waits: whether it does. -/
def State.stepStart (s : State) (f : Fetched) (h : DescHdr) (slot : Nat) (g : Group) : Bool × State :=
  let p := cpOf f.desc
  let refuse := fun (s : State) st crc => (false, (s.reportStart slot g g.seq (p.startF p.bundles st crc [])).endCmn f slot st 0 0)
  let log := s.chunkLogOf h
  if p.badStep g log then refuse s Status.formatUnsupported 0
  else
    let x := s.copOf f h g (coll0 slot (stepKey p.step) g.seq true (s.chooseAlgo 8 p.algo (g.members.map (·.tray))) (log.getD 16))
    match s.tablesOf x with
    | none => refuse s Status.recipeFault 0
    | some tabs =>
      let wait := fun (s : State) => (true, (s.setGroup slot g).refetch f)
      let stop := fun (s : State) (e : OperandRead) => match e with
        | .poison => refuse s Status.checkFailed 0
        | .misplaced => refuse s Status.recipeFault 0
        | .stop (.absent va lv) =>
          let s := s.raiseFault (localRec x.o.part x.o.vf h.tag va XReason.notPresent lv .read)
          wait (if s.xlt.holds.any (fun k => k.who == .ring f.key && k.va == va) then s else s.hold h.tag va .read false (.ring f.key))
        | .stop (.viol va r lv) => refuse (s.raiseViolation (localRec x.o.part x.o.vf h.tag va r lv .read)) Status.accessLocal 0
        | .stop (.detached _) => refuse s Status.detached 0
        | .stop (.lost _) => refuse s Status.targetLost 0
        | _ => wait s
      match s.readOperands f.key false [(h.tag, fieldLE f.desc 16 8, 256 * p.bundles), (h.tag, fieldLE f.desc 24 8, 128)] with
      | (.error e, s) => stop s e
      | (.ok bs, s) =>
        match s.readOperands f.key true (tabs.map fun q => (q.2.1, q.2.2, 64 * p.bundles)) with
        | (.error e, s) => stop s e
        | (.ok ts, s) =>
          let planB := bs.headD []
          let scalB := bs.getD 1 []
          let crc := crc32c scalB
          match allSome ((List.range p.bundles).map fun b => planRec (slice planB (256 * b) 256)) with
          | none => refuse s Status.recipeFault crc
          | some plan =>
            if fieldLE f.desc 16 8 % 4096 ≠ 0 then refuse s Status.recipeFault crc
            else if plan.any (p.badBundle g) then refuse s Status.formatUnsupported crc
            else match s.stepTables x plan ((tabs.map Prod.fst).zip ts) scalB with
            | none => refuse s Status.recipeFault crc
            | some (descs, scal) =>
              if !g.stepOk p.step p.bStart then
                (false, (s.reportStart slot g g.seq (p.startF p.bundles Status.aborted crc [])).endCmn f slot Status.aborted 0 3)
              else
                let c := { x.c with plan := plan, descs := descs, scalars := scal, committed := p.bStart,
                                    copies := (s.copiesHeld g).foldl (fun t k => Tbl.set t k (copy0 p.bStart)) [] }
                (false, s.admitColl f h { x with c := c } p.bundles crc)

/-- Forgets the bytes that host reads have delivered for a range, so that a later entry reads it afresh. -/
def State.forgetRange (s : State) (part vf tag va n : Nat) : State :=
  let keys := (blocksOf 4096 va n).filterMap fun q => match s.walk part vf tag (va + q.1) with
    | .ok l => (match s.leafGo vf (va + q.1) l with
      | .go (.host x a) => some (hostKey x a, q.2)
      | _ => none)
    | .error _ => none
  { s with hpt := { s.hpt with view := Tbl.keep s.hpt.view fun k _ => !keys.any fun q => decide (q.1 ≤ k) && decide (k < q.1 + q.2) } }

/-- STEP: once its entry has been used, what was read for it over host links is forgotten. -/
def State.stepEntry (s : State) (f : Fetched) (h : DescHdr) (slot : Nat) (g : Group) : State :=
  match s.stepStart f h slot g with
  | (true, s) => s
  | (false, s) =>
    let vf := ringVf f.key
    let p := s.rd F.PTN_INST_partition vf
    (s.forgetRange p vf h.tag (fieldLE f.desc 16 8) (256 * (cpOf f.desc).bundles)).forgetRange p vf h.tag (fieldLE f.desc 24 8) 128

/-! ### Blocks of the mill (R156, R178) -/

/-- A copy's slice of a bundle. -/
def COp.sliceOf (x : COp) (copy b : Nat) : Nat × Nat := shard (copy / 2) x.g.n (x.elems b)

/-- The descriptor and the recipe of a copy's bundle. -/
def COp.desc? (x : COp) (copy b : Nat) : Option MillDesc := (Tbl.getD x.c.descs copy [])[b]?
def State.recipeOf (s : State) (x : COp) (copy b : Nat) : List RStep :=
  ((x.desc? copy b).bind fun d => s.recipe? x.o.part d.recipe).getD []

/-- Blocks of 32 elements in a slice. -/
def COp.blocksIn (x : COp) (copy b : Nat) : Nat := let q := x.sliceOf copy b; ceilDiv (q.2 - q.1) 32

/-- The scope key of a recipe's norms: its bundle, or 65536 for the step. -/
def scopeKey (sync : Option Nat) (b : Nat) : Nat := if sync = some 1 then 65536 else b

/-- The bundles of a copy with a step-scope pass in this step (R168). -/
def State.scopeBundles (s : State) (x : COp) (copy : Nat) : List Nat :=
  (List.range x.p.bundles).filter fun b => decide (x.p.bStart ≤ b) && syncOf (s.recipeOf x copy b) == some 1

/-- Whether the last pass of a copy's next bundle may run (R132, R164, R167, R168): after its own pass 1 and all-reduce, and in a step with a
step-scope pass after those of the step, whichever recipe the bundle itself names. -/
def State.mayUpdate (s : State) (x : COp) (copy : Nat) (k : StepCopy) : Bool :=
  (x.c.phase == .running || x.c.phase == .closing) && decide (k.next < x.p.bundles) && decide (k.next < x.c.committed)
    && (syncOf (s.recipeOf x copy k.next) != some 0 || ((Tbl.get? x.c.norms k.next).isSome && k.pass1.contains k.next))
    && (!s.stepScope x.c copy || ((Tbl.get? x.c.norms 65536).isSome && (s.scopeBundles x copy).all fun b => k.pass1.contains b))

/-- Whether a bundle of a copy is FILLING. -/
def State.filling (s : State) (slot copy b : Nat) : Bool := ((s.bind? slot copy).map fun k => k.stateOf b) == some 1

/-- Whether a checkpoint stream with `hold` has still to read a bundle of a copy (R426). -/
def State.heldByStream (s : State) (slot copy b : Nat) : Bool :=
  s.ckp.streams.any fun q => !q.2.isOver && !q.2.loaded && (match q.2.hold with
    | some (g, c, lo, n) => g == slot && c == copy && decide (lo ≤ b) && decide (b < lo + n)
    | none => false)

/-- The next block of a copy's last pass that may be dealt: not done, not dealt; a FILLING bundle's once its loaded values have come (R190). -/
def State.nextBlock (s : State) (x : COp) (copy : Nat) (k : StepCopy) : Option Nat :=
  if s.mayUpdate x copy k ∧ !s.heldByStream x.c.slot copy k.next then
    let fill := s.filling x.c.slot copy k.next
    (List.range (x.blocksIn copy k.next)).find? fun i =>
      !k.done.contains i && !k.dealt.contains i && (!fill || (Tbl.get? k.fill (blkKey k.next i)).isSome)
  else none

/-- The next block of pass 1 that may be dealt: of the lowest bundle that is reduce-committed and has blocks to deal (R167, R168). -/
def State.nextPass1 (s : State) (x : COp) (copy : Nat) (k : StepCopy) : Option (Nat × Nat) :=
  if x.c.phase = .running ∨ x.c.phase = .closing then
    (List.range (min x.c.committed x.p.bundles)).findSome? fun b =>
      if b < x.p.bStart ∨ k.pass1.contains b ∨ (syncOf (s.recipeOf x copy b)).isNone then none
      else ((List.range (x.blocksIn copy b)).find? fun i => !k.p1dealt.contains (blkKey b i)).map fun i => (b, i)
  else none

/-- A block that an engine may take: partition, operation, copy, bundle, index, whether of pass 1; what an engine held of it before (R179). -/
structure ReadyBlk where
  part : Nat
  op : Nat
  copy : Nat
  bundle : Nat
  blk : Nat
  pass1 : Bool
  again : Option MillBlk
  deriving DecidableEq, Repr

/-- What a copy has ready: a block of the last pass before one of pass 1. -/
def State.readyOf (s : State) (x : COp) (copy : Nat) (k : StepCopy) : Option ReadyBlk :=
  match s.nextBlock x copy k with
  | some i => some ⟨x.o.part, x.c.op, copy, k.next, i, false, none⟩
  | none => (s.nextPass1 x copy k).map fun q => ⟨x.o.part, x.c.op, copy, q.1, q.2, true, none⟩

/-- Blocks taken from an engine that no judgement keeps: they run again first (R179, R454). -/
def State.readyAgain (s : State) (x : COp) : List ReadyBlk :=
  (x.c.parked.filter fun m => !s.rst.replays.any fun r => r.kind == 1 && r.parked.contains (m.op, m.copy, m.bundle, m.blk)).map fun m =>
    ⟨x.o.part, m.op, m.copy, m.bundle, m.blk, m.pass1, some m⟩

/-- Every block that may be dealt now. -/
def State.readyBlocks (s : State) : List ReadyBlk :=
  (s.cmn.colls.map fun c => match s.cop? c.op with
    | some x => if c.isStep then s.readyAgain x ++ c.copies.filterMap fun q => s.readyOf x q.1 q.2 else []
    | none => []).flatten

/-- Weighted round-robin among partitions (R178): in a round each takes up to its `mill_weight` of blocks; where all that have any ready have had
theirs, a new round begins. The block chosen, and whether a round began. -/
def State.fairest (s : State) (l : List ReadyBlk) : Option (ReadyBlk × Bool) :=
  match l.find? fun q => decide (Tbl.getD s.mill.dealt q.part 0 < max 1 (s.shares q.part).millWeight) with
  | some q => some (q, false)
  | none => l.head?.map fun q => (q, true)

/-- Changes a copy of an operation. -/
def State.modCopy (s : State) (id copy : Nat) (f : StepCopy → StepCopy) : State :=
  s.modColl id fun c => { c with copies := Tbl.modify c.copies copy f }

/-- The first active engine without a block; one that replays takes no other (R454). -/
def State.idleEngine (s : State) : Option Nat :=
  (List.range 18).find? fun e => s.rd F.MIL_ENG_STATE_state e == unitActive && (Tbl.get? s.mill.engines e).isNone
    && !s.rst.replays.any fun r => r.kind == 1 && r.on == e && r.judging.isSome

/-- Charges the steps that wait for a checkpoint stream to have read a bundle (R426, R273 cause 7). -/
def State.chargeHeld (s : State) : State :=
  s.cmn.colls.foldl (fun (s : State) (c : Coll) => match s.cop? c.op with
    | some x => if c.isStep ∧ c.copies.any (fun q => s.mayUpdate x q.1 q.2 && s.heldByStream c.slot q.1 q.2.next) then s.recordCause c.op 7 else s
    | none => s) s

/-- An engine lets go of its block. -/
def State.freeEngine (s : State) (e : Nat) : State :=
  ({ s with mill := { s.mill with engines := Tbl.erase s.mill.engines e } }).wr F.MIL_ENG_STATE_busy 0 e

/-- Bytes of one element of a moment. -/
def MillDesc.momBytes (d : MillDesc) : Nat := if d.momFmt = 0 then 4 else 2

/-- The state slots in memory that `use` picks: code, address of element i, bytes of an element. -/
def MillDesc.slotsOf (d : MillDesc) (use : Nat → Bool) (i : Nat) : List (Nat × Nat × Nat) :=
  [(2, d.w + 4 * i, 4), (3, d.m1 + d.momBytes * i, d.momBytes), (4, d.m2 + d.momBytes * i, d.momBytes), (5, d.m3 + d.momBytes * i, d.momBytes)].filter
    fun q => use q.1

/-- The lanes of a slot's stored bytes. -/
def MillDesc.decodeSlot (d : MillDesc) (code n : Nat) (bytes : List Byte) : List Val :=
  decodeRun (if code = 2 ∨ d.momFmt = 0 then 1 else 3) 0 n bytes

/-- The gradient bytes of a slice of a copy, in element order. -/
def COp.gSlice (x : COp) (copy b : Nat) (k : StepCopy) : List Byte :=
  ((((x.flow b false).chunks.zipIdx).filter fun q => q.1.shard == copy / 2).map fun q => Tbl.getD k.g (gKey b q.2) []).flatten

/-- The environment of a block. -/
def COp.env (x : COp) (b first : Nat) (norms : List Nat) : MillEnv :=
  let base := (x.c.scalars.take 24) ++ (norms ++ List.replicate (4 - norms.length) 0) ++ x.c.scalars.drop 28
  { scal := base.map fp32.decode, seed := seedOf x.c.scalars, step := x.p.step, bundle := b, first := first, fmt := x.p.fw.fmtOut,
    kind := sideKind x.p.fw.fmtOut x.p.fw.sideOut, rnd := x.p.fw.rnd, sat := x.p.fw.sat == 1 }

/-- Lanes loaded with their slots. -/
def loadLanes (d : MillDesc) (n : Nat) (g : List Byte) (slots : List (Nat × List Byte)) : Lanes :=
  { n := n, slots := slots.foldl (fun t q => Tbl.set t q.1 (d.decodeSlot q.1 n q.2)) [(1, decodeRun 1 0 n g)], p := [], wrote := [],
    norms := List.replicate 4 Norm.zero, special := false }

/-- What the last pass stores for a slot: W unchanged, a moment in `mom_fmt` under `state_rnd` (R156); and whether that is an event of R73. -/
def MillDesc.storeBytes (d : MillDesc) (env : MillEnv) (steps : List (Nat × RStep)) (code : Nat) (vs : List Val) : List Byte × Bool :=
  let e := if code = 2 ∨ d.momFmt = 0 then encodeRun 1 0 false (fun _ => none) vs
    else encodeRun 3 0 false (env.rnds d.stateRnd (lastWriter steps code) false) vs
  (e.1, anySpecial vs e.2)

/-- The rank, device and header mark of the other copy, to send loaded values to (R190). -/
def COp.otherRank (x : COp) (copy : Nat) : Nat := if copy % 2 = 0 then (x.g.member (copy / 2)).twin else copy / 2

/-- Whether this copy feeds the other one: it is TRACKING, the other, held elsewhere, has bundles of the step FILLING (R190, R192). -/
def State.feeds (s : State) (x : COp) (copy : Nat) : Bool :=
  (x.g.member (copy / 2)).twinValid && ((s.bind? x.c.slot copy).map Bind.worst) == some 0 && bitAt (Tbl.getD x.g.copies (copy ^^^ 1) 0) 0

/-- The stage that marks loaded values for the other copy (R190): 0xFFFF to the twin, 0xFFFD to the primary; one less where P stands behind them, for
a bundle that is copied whole (R192; log entry 20). -/
def fillStage (copy : Nat) (whole : Bool) : Nat := 0xFFFF - 2 * (copy % 2) - b2n whole

/-- Sends loaded values of a block to the FILLING side (R190, R192). -/
def State.sendFill (s : State) (x : COp) (copy b blk n : Nat) (whole : Bool) (data : List Byte) : State :=
  let src := if copy % 2 = 0 then copy / 2 else (x.g.member (copy / 2)).twin
  s.sendChunk x.c.op src (x.otherRank copy) (x.hdr b blk (fillStage copy whole) src n 1 0 false false 1 data) data

/-- Elements of a block whose W lies in DDR5. R184 does not say which slot decides for an element whose slots lie in different tiers; W's page does
(DESIGN CHOICE, log entry 71). -/
def ddrElems (l : List (Loc × Nat)) : Nat :=
  sumNat (l.map fun q => match q.1 with
    | .dev a => if ddrBase ≤ a ∧ a < larderBase then q.2 / 4 else 0
    | .host _ _ => 0)

/-- Slots as ranges of n elements. -/
def slotRanges (n : Nat) (l : List (Nat × Nat × Nat)) : List (Nat × Nat) := l.map fun q => (q.2.1, q.2.2 * n)

/-- The ranges of P of n elements from element i on. -/
def COp.pRanges (x : COp) (d : MillDesc) (i n : Nat) : List (Nat × Nat) :=
  let c := x.p.fw.fmtOut
  if isMx c ∧ bitAt x.p.fw.sideOut 1 then [(d.p + elemBytes c i, elemBytes c n), (d.pScale + scaleBytes c i, scaleBytes c n)]
  else [(d.p + wireBytes c i, wireBytes c n)]

/-- The range of G that a pass reads: the buffer of a step-scope recipe (R156, R169); none where G is in larder staging, or not read. -/
def MillDesc.gRange (d : MillDesc) (r : List RStep) (i n : Nat) : List (Nat × Nat) := if d.g = 0 ∨ !readsSlot r 1 then [] else [(d.g + 4 * i, 4 * n)]

/-- How an engine that takes a block fares: an access stops (R181), a value is poisoned (R359), or it holds the block. -/
inductive BlockLoad where
  | stop (acc : AccKind) (e : Stop)
  | poison
  | held (m : MillBlk)
  deriving DecidableEq, Repr

/-- Writes pieces of bytes at translated ranges for an operation. -/
def State.writeAll (s : State) (o : Op) : List (List (Loc × Nat) × List Byte) → State
  | [] => s
  | (l, d) :: t => (s.writeLocs o.vf o.tag none l d).writeAll o t

/-- An engine loads a block of a copy and runs the pass on it (R156, R161, R175, R176, R179): of the state slots it loads those that the pass reads; the
loaded values are kept and what it stores stands by until the stores are acknowledged. A FILLING bundle takes the values sent to it; a TRACKING copy sends its own to the FILLING side (R190). -/
def State.loadBlock (s : State) (x : COp) (copy b blk : Nat) (pass1 : Bool) (k : StepCopy) (d : MillDesc) : BlockLoad × State :=
  let r := s.recipeOf x copy b
  let q := x.sliceOf copy b
  let i := 32 * blk
  let n := min 32 (q.2 - q.1 - i)
  let steps := if pass1 then pass1Of r else lastPass r
  let ops := steps.map Prod.snd
  let slots := d.slotsOf (readsSlot ops) i
  let dsts := d.slotsOf (writesSlot ops) i
  let gr := d.gRange ops i n
  match s.lookupParts x.o .read (gr ++ slotRanges n slots) with
  | (.error e, s) => (.stop .read e, s)
  | (.ok rl, s) => match s.lookupParts x.o .write (if pass1 then [] else slotRanges n dsts ++ x.pRanges d i n) with
    | (.error e, s) => (.stop .write e, s)
    | (.ok wl, s) =>
      let fill := if s.filling x.c.slot copy b ∧ !pass1 then Tbl.get? k.fill (blkKey b blk) else none
      let (gl, sl) := (rl.take gr.length, rl.drop gr.length)
      match s.badFor x.o.part none (if fill.isNone then rl.flatten else gl.flatten) with
      | (true, s) => (.poison, s)
      | (false, s) =>
        let own := (sl.map s.readLocs).flatten
        let raw := (fill.map Prod.snd).getD own
        let g := if gr.isEmpty then slice (x.gSlice copy b k) (4 * i) (4 * n) else (gl.map s.readLocs).flatten
        let s := if s.feeds x copy ∧ !pass1 then s.sendFill x copy b blk n false own else s
        let loaded := (slots.foldl (fun (acc : List (Nat × List Byte) × List Byte) z =>
          (acc.1 ++ [(z.1, acc.2.take (z.2.2 * n))], acc.2.drop (z.2.2 * n))) ([], raw)).1
        let env := x.env b i (if pass1 then [] else Tbl.getD x.c.norms (scopeKey (syncOf r) b) [])
        let l := (loadLanes d n g loaded).pass env steps
        let made := if pass1 then [] else dsts.map fun z => (z.1, d.storeBytes env steps z.1 (Tbl.getD l.slots z.1 []))
        let stores := made.map fun z => (z.1, z.2.1)
        let ofW := ((slots.zip sl ++ dsts.zip wl).find? fun z => z.1.1 == 2).map Prod.snd
        let pBytes := if pass1 then [] else if isMx env.fmt ∧ bitAt x.p.fw.sideOut 1 then let m := splitMx env.fmt l.p; [m.1, m.2] else [l.p]
        (.held { op := x.c.op, copy := copy, bundle := b, blk := blk, pass1 := pass1, kept := raw, stores := wl.zip (stores.map Prod.snd ++ pBytes),
                 slots := stores, elems := n, ddr := ddrElems (ofW.getD []),
                 odd := (l.wrote.filter fun w => w.1.nan || w.1.inf || (w.1.lost && !w.2)).length,
                 special := l.special || made.any (fun z => z.2.2) || l.wrote.any fun w => w.1.nan || w.1.inf || w.1.lost, norms := l.norms, took := fill.map Prod.fst }, s)

/-- An engine holds a block (R178, R184). -/
def State.giveEngine (s : State) (e p : Nat) (m : MillBlk) : State :=
  let s := { s with mill := { s.mill with engines := Tbl.set s.mill.engines e m, dealt := Tbl.set s.mill.dealt p (Tbl.getD s.mill.dealt p 0 + 1) } }
  let s := (s.wr F.MIL_ENG_STATE_busy 1 e).wr F.MIL_ENG_STATE_partition p e
  let key := ((s.coll? m.op).map Coll.num).getD 0
  ((s.wr F.MIL_PTN_STEP_step key p).wr F.MIL_PTN_STEP_bundle m.bundle p).wr F.MIL_PTN_STEP_pass (if m.pass1 then 1 else 3) p

/-- An engine takes a block: one that ran before from its kept values; else it is loaded, and where an access stops its operation is held or ends
(R181). -/
def State.takeBlock (s : State) (e : Nat) (q : ReadyBlk) : State :=
  match q.again with
  | some m => (s.modColl q.op fun c => { c with parked := c.parked.filter (· != m) }).giveEngine e q.part m
  | none =>
    let s := s.modCopy q.op q.copy fun k =>
      if q.pass1 then { k with p1dealt := blkKey q.bundle q.blk :: k.p1dealt } else { k with dealt := k.dealt ++ [q.blk] }
    match s.cop? q.op with
    | none => s
    | some x => match Tbl.get? x.c.copies q.copy, x.desc? q.copy q.bundle with
      | some k, some d => match s.loadBlock x q.copy q.bundle q.blk q.pass1 k d with
        | (.held m, s) => s.giveEngine e q.part m
        | (.stop acc st, s) => s.stopColl q.op x.o (.block q.copy q.bundle q.blk) acc st
        | (.poison, s) => s.endLocally q.op Status.checkFailed 0
      | _, _ => s

/-! ### Publishing (R132, R134, R147) -/

/-- Reads a rank's publish values of a bundle and sends them on their way; held on an absent page, CHECK_FAILED where they are poisoned
(R359). -/
def State.publish (s : State) (id rank b : Nat) : State :=
  match s.cop? id with
  | none => s
  | some x =>
    match x.desc? (rank * 2) b with
    | none => s
    | some d =>
      let q := x.sliceOf (rank * 2) b
      let n := q.2 - q.1
      let c := x.p.fw.fmtOut
      let kind := sideKind c x.p.fw.sideOut
      let split := isMx c && bitAt x.p.fw.sideOut 1
      let rg := if split then [(d.p, elemBytes c n), (d.pScale, scaleBytes c n)] else [(d.p, wireBytes c n)]
      match s.lookupParts x.o .read rg with
      | (.error e, s) => s.stopColl id x.o (.publish rank b) .read e
      | (.ok ls, s) =>
        match s.badFor x.o.part (some id) ls.flatten with
        | (true, s) => s.endLocally id Status.checkFailed 0
        | (false, s) =>
          let got := ls.map s.readLocs
          let s := if split then s.bump F.DMV_REPACK (ceilDiv n 32) else s
          let wire := match got with
            | [el, sc] => joinMx c el sc
            | l => l.flatten
          let s := s.modColl id fun c => { c with published := (rank * 65536 + b) :: c.published.filter (· != rank * 65536 + b) }
          let f := x.flow b true
          (f.chunks.zipIdx).foldl (fun s z =>
            if z.1.shard = rank then
              let data := slice wire (wireBytes c (z.1.first - q.1)) (wireBytes c z.1.elems)
              s.deliver id rank b true (x.hdr b z.2 (f.top rank + 1) rank z.1.elems c kind false true 1 data) data
            else s) s

/-- The all-gather of a bundle begins at this device: what its ranks await; publish values that arrived early are taken. -/
def State.launchAg (s : State) (id b : Nat) : State :=
  match s.cop? id with
  | none => s
  | some x =>
    if x.c.launched.contains (b, true) then s
    else
      let s := s.modColl id fun c =>
        { c with launched := (b, true) :: c.launched, todo := c.todo ++ (x.g.local_.map fun r => x.dueOf r b true).flatten }
      let held := x.c.before.filter fun q => q.1.bundle == b && q.1.final
      let s := s.modColl id fun c => { c with before := c.before.filter fun q => !(q.1.bundle == b && q.1.final) }
      let s := held.foldl (fun s q => s.inboxAdd (.chunk x.c.slot q.1 q.2)) s
      x.g.local_.foldl (fun s r => s.checkPhase id r b true) s

/-! ### A bundle is updated (R132, R177, R190) -/

/-- The bytes a bundle's last pass stored, in the order of R177. -/
def StepCopy.storedRun (k : StepCopy) : List Byte := (k.stored.map Prod.snd).flatten

/-- Every rank of this device looks whether it has published the last bundle (R135, R187, R192). -/
def State.checkLast (s : State) (id : Nat) : State :=
  match s.cop? id with
  | none => s
  | some x => x.g.local_.foldl (fun s r => s.checkPhase id r (x.p.bundles - 1) true) s

/-- Every block of a copy's bundle is done: the hash takes its stores, its gradient goes, a FILLING bundle is TRACKING; the primary publishes. -/
def State.bundleDone (s : State) (id copy b : Nat) : State :=
  match s.cop? id with
  | none => s
  | some x =>
    match Tbl.get? x.c.copies copy with
    | none => s
    | some k =>
      if k.next ≠ b ∨ k.done.length < x.blocksIn copy b then s
      else
        let filled := s.filling x.c.slot copy b
        let q := x.sliceOf copy b
        let gb := if ((x.desc? copy b).map (·.g)).getD 0 = 0 then 4 * (q.2 - q.1) else 0
        let k' := { k with next := b + 1, done := [], dealt := [], g := Tbl.keep k.g (fun i _ => i / 2 ^ 32 != b),
                           hash := crcRun 0xC96C5795D7870F42 k.hash k.storedRun, stored := [], filled := k.filled || filled }
        let s := s.modColl id fun c => { c with copies := Tbl.set c.copies copy k', stagingBytes := c.stagingBytes - gb }
        let s := if filled then s.setCopy x.c.slot copy 0 [b] else s
        let s := if copy % 2 = 0 then s.publish id (copy / 2) b else s
        let s := if b + 1 = x.p.bundles then s.checkLast id else s
        (s.gatherAll id (x.p.bundles + 1)).finishClosing id

/-- A copy whose slice of its next bundle is empty, as where a bundle has fewer blocks than ranks (R120), and that may update it: operation, copy,
bundle. -/
def State.emptyDue (s : State) : Option (Nat × Nat × Nat) :=
  s.cmn.colls.findSome? fun c => if !c.isStep then none else (s.cop? c.op).bind fun x => c.copies.findSome? fun q =>
    if s.mayUpdate x q.1 q.2 ∧ x.blocksIn q.1 q.2.next = 0 ∧ !s.heldByStream c.slot q.1 q.2.next then some (c.op, q.1, q.2.next) else none

/-- Empty slices are updated with nothing to do (R132, R167); `n` bounds them. -/
def State.passEmpty (s : State) : Nat → State
  | 0 => s
  | n + 1 => match s.emptyDue with
    | some (id, copy, b) => (s.bundleDone id copy b).passEmpty n
    | none => s

/-- Deals blocks to idle engines while there are any (R178); `n` bounds them. -/
def State.dealBlocks (s : State) : Nat → State
  | 0 => s.chargeHeld
  | n + 1 =>
    match s.idleEngine, s.fairest s.readyBlocks with
    | some e, some (q, anew) =>
      let s := if anew then { s with mill := { s.mill with dealt := [] } } else s
      (s.takeBlock e q).dealBlocks n
    | _, _ => s.chargeHeld

/-- The mill goes on with what may be updated now. -/
def State.deal (s : State) (n : Nat) : State := (s.passEmpty 1000000).dealBlocks n

/-- The rank of this device that a copy's messages name: its own, or the one whose device holds the twin copy. -/
def COp.rankOf (x : COp) (copy : Nat) : Nat := if copy % 2 = 0 then copy / 2 else (x.g.member (copy / 2)).twin

/-- The stores of a mill engine's block are acknowledged (R179): they stand, the block is done, its kept values are released, and the TRACKING side
of a fill is told (R190). -/
def State.blockDone (s : State) (e : Nat) : State :=
  match Tbl.get? s.mill.engines e with
  | none => s
  | some m =>
    let s := s.freeEngine e
    match s.cop? m.op with
    | none => s.deal 18
    | some x =>
      let s := (s.millIdle x.o.part).commitBlock m
      let s := match m.took with
        | some h => s.sendFolded x.c.slot x.c.key (x.rankOf m.copy) h.src h false
        | none => s
      (if m.pass1 then s else s.bundleDone m.op m.copy m.bundle).deal 18

/-! ### Norms (R163-R168) -/

/-- Whether a rank of this device answers for a copy's norms: its primary, or, after a promotion, the twin copy that stands in for it (R164, R199). A
twin adds nothing. -/
def COp.sums (x : COp) (copy : Nat) : Bool := copy % 2 == 0 || x.g.local_.contains (copy / 2)

/-- The sums of a copy go up once they are whole: a bundle's, or with step scope those of every such bundle together (R164, R168). -/
def State.reportNorms (s : State) (x : COp) (copy b sc : Nat) (k : StepCopy) : State :=
  let none4 := List.replicate 4 Norm.zero
  if sc = 0 then s.ownReport x.c.slot (copy / 2) x.c.key (.scalar 1 b ((Tbl.getD k.norms b none4).map Norm.bits))
  else
    let bs := s.scopeBundles x copy
    if bs.all fun b => k.pass1.contains b then
      s.ownReport x.c.slot (copy / 2) x.c.key
        (.scalar 2 0 ((bs.foldl (fun acc b => List.zipWith Norm.join acc (Tbl.getD k.norms b none4)) none4).map Norm.bits))
    else s

/-- NORM_SYNC ends pass 1 of a copy's bundle, all of whose blocks are done (R164 steps 1 to 3). -/
def State.normSync (s : State) (id copy b : Nat) : State :=
  match s.cop? id with
  | none => s
  | some x =>
    match Tbl.get? x.c.copies copy, syncOf (s.recipeOf x copy b) with
    | some k, some sc =>
      if x.c.phase ≠ .running ∧ x.c.phase ≠ .closing ∨ k.pass1.contains b ∨ b < x.p.bStart ∨ x.p.bundles ≤ b then s
      else if x.c.committed ≤ b ∨ (List.range (x.blocksIn copy b)).any fun i => !k.p1done.contains (blkKey b i) then s
      else
        let k := { k with pass1 := b :: k.pass1 }
        let s := s.modColl id fun c => { c with copies := Tbl.set c.copies copy k }
        let p := x.o.part
        let s := ((s.wr F.MIL_PTN_STEP_step x.p.step p).wr F.MIL_PTN_STEP_bundle b p).wr F.MIL_PTN_STEP_pass 2 p
        if x.sums copy then s.reportNorms x copy b sc k else s
    | _, _ => s

/-- The results reach S24-S27, rounded to FP32 (R164 step 4), and the last pass may run; those that are then NaN or infinite are counted (R176). -/
def State.normResult (s : State) (id scope b : Nat) (vals : List Nat) : State :=
  match s.coll? id with
  | none => s
  | some c =>
    let key := if scope = 1 then 65536 else b
    if (Tbl.get? c.norms key).isSome then s
    else
      let es := (vals.take 4).map fun v => fp32.encode false none (fp64.decode v)
      let odd := (es.filter fun e => e.2.nan || e.2.inf).length
      let s := (s.bump F.MIL_NONFINITE odd).markSpecial id (0 < odd)
      (s.modColl id fun c => { c with norms := Tbl.set c.norms key (es.map Prod.fst) }).deal 18

/-! ### Filling (R190, R192) -/

/-- The ranges of a block that is copied whole: the state slots, then P (R192). -/
def COp.wholeRanges (x : COp) (d : MillDesc) (r : List RStep) (i n : Nat) : List (Nat × Nat) :=
  slotRanges n (d.slotsOf (fun z => z == 2 || usesSlot r z) i) ++ x.pRanges d i n

/-- Sends one block of a bundle that the FILLING side copies whole (R192): state and P. One sent already is left; an absent page holds the rest of
the bundle (R340), poison ends the step here (R359). -/
def State.sendWholeBlk (s : State) (id copy b blk : Nat) : State :=
  match s.cop? id with
  | none => s
  | some x =>
    let sent := x.c.outs.any fun u => u.dst == x.otherRank copy && u.hdr.bundle == b && u.hdr.chunk == blk && u.hdr.stage == fillStage copy true
    match (if sent ∨ x.c.stuck.contains (.whole copy b) then none else x.desc? copy b) with
    | none => s
    | some d =>
      let q := x.sliceOf copy b
      let i := 32 * blk
      let n := min 32 (q.2 - q.1 - i)
      match s.lookupParts x.o .read (x.wholeRanges d (s.recipeOf x copy b) i n) with
      | (.error e, s) => s.stopColl id x.o (.whole copy b) .read e
      | (.ok ls, s) =>
        match s.badFor x.o.part none ls.flatten with
        | (true, s) => s.endLocally id Status.checkFailed 0
        | (false, s) => s.sendFill x copy b blk n true (ls.map s.readLocs).flatten

/-- Sends a bundle below `bundle_start` to the FILLING side, whole (R192). -/
def State.sendWhole (s : State) (x : COp) (copy b : Nat) : State :=
  (List.range (x.blocksIn copy b)).foldl (fun s blk => s.sendWholeBlk x.c.op copy b blk) s

/-- Publishes a rank's bundle below `bundle_start` again (R147, R192): once a FILLING primary has been copied, and once the FILLING twin copy has
acknowledged all that it copies whole. -/
def State.republish (s : State) (id rank b : Nat) : State :=
  match s.cop? id with
  | none => s
  | some x =>
    let got := (x.c.outs.filter fun u => u.src == rank && u.hdr.stage == fillStage (rank * 2) true && u.hdr.bundle == b && u.folded).length
    if s.filling x.c.slot (rank * 2) b ∨ (s.feeds x (rank * 2) ∧ got < x.blocksIn (rank * 2) b) then s else s.publish id rank b

/-- A block of a bundle copied whole is stored from the values kept for it; once all are, the bundle is TRACKING and may be published (R192). An
absent page holds it (R340). -/
def State.placeWhole (s : State) (id copy b blk : Nat) : State :=
  match s.cop? id with
  | none => s
  | some x =>
    match x.desc? copy b, (Tbl.get? x.c.copies copy).bind fun k => Tbl.get? k.fill (blkKey b blk) with
    | some d, some (h, data) =>
      let q := x.sliceOf copy b
      let i := 32 * blk
      let all := x.wholeRanges d (s.recipeOf x copy b) i (min 32 (q.2 - q.1 - i))
      match s.lookupParts x.o .write all with
      | (.error e, s) => s.stopColl id x.o (.placed copy b blk) .write e
      | (.ok ls, s) =>
        let cut := (all.foldl (fun (acc : List (List Byte) × List Byte) z => (acc.1 ++ [acc.2.take z.2], acc.2.drop z.2)) ([], data)).1
        let s := (s.writeAll x.o (ls.zip cut)).sendFolded x.c.slot x.c.key (x.rankOf copy) h.src h false
        let s := s.modCopy id copy fun k =>
          { k with filled := true, fill := Tbl.erase k.fill (blkKey b blk), fillFails := Tbl.set k.fillFails (2 ^ 64 + blkKey b blk) 0 }
        let got := ((s.coll? id).bind fun c => Tbl.get? c.copies copy).map fun k => (k.fillFails.filter fun z => z.1 / 2 ^ 32 == 2 ^ 32 + b).length
        if got = some (x.blocksIn copy b) then
          let s := s.setCopy x.c.slot copy 0 [b]
          (if copy % 2 = 0 then s.publish id (copy / 2) b else s).checkLast id
        else s
    | _, _ => s

/-- A fill has failed for the third time (R190): the copy is SUSPECT. The step goes on with it from its own loads, stores and publish values, which
R190 does not say (DESIGN CHOICE, log entry 71), and tells the other side that none of what it has sent is still needed. -/
def State.failFill (s : State) (x : COp) (copy : Nat) (k : StepCopy) : State :=
  let id := x.c.op
  let all := ((s.bind? x.c.slot copy).map fun b => (b.states.filter fun q => q.2 == 1).map Prod.fst).getD []
  let s := (s.setCopy x.c.slot copy 2 all).modCopy id copy fun k => { k with fill := [] }
  let s := k.fill.foldl (fun s q => s.sendFolded x.c.slot x.c.key (x.rankOf copy) q.2.1.src q.2.1 false) s
  let again := all.filter fun b => copy % 2 == 0 && decide (b < x.p.bStart) && decide (b < x.p.bundles)
  ((again.foldl (fun s b => s.publish id (copy / 2) b) s).checkLast id).deal 18

/-- Loaded values arrive for a copy of this device (R190): checked, asked for again twice, SUSPECT at the third failure; a bundle that is not
FILLING needs none of them. -/
def State.takeFill (s : State) (x : COp) (h : ChunkHdr) (data : List Byte) : State :=
  let copy? := if 0xFFFE ≤ h.stage then some (h.src * 2 + 1) else (x.g.local_.find? fun r => (x.g.member r).twin == h.src).map (· * 2)
  match copy?.bind fun c => (Tbl.get? x.c.copies c).map fun k => (c, k) with
  | none => s.bump F.TAL_MISDIRECT
  | some (copy, k) =>
    let me := x.rankOf copy
    let key := blkKey h.bundle h.chunk
    if !h.good data then
      let n := Tbl.getD k.fillFails key 0 + 1
      let s := (s.bump F.DMV_CHECK_FAIL).logCheckFail .DMV 2 0 [x.g.id * 2 ^ 32 + x.c.num, h.bundle * 2 ^ 32 + h.chunk, h.stage * 65536 + h.src]
      let s := s.modCopy x.c.op copy fun k => { k with fillFails := Tbl.set k.fillFails key n }
      if n < 3 then s.sendFolded x.c.slot x.c.key me h.src h true
      else (s.sendFolded x.c.slot x.c.key me h.src h false).failFill x copy k
    else if !s.filling x.c.slot copy h.bundle then s.sendFolded x.c.slot x.c.key me h.src h false
    else
      let s := s.modCopy x.c.op copy fun k => { k with fill := Tbl.set k.fill key (h, data) }
      if h.stage % 2 = 0 then s.placeWhole x.c.op copy h.bundle h.chunk else s.deal 18

/-! ### GO, and work that waited (R125, R135, R147, R340) -/

/-- A rank's operation runs: gather-in, and for a step the bundles below `bundle_start` published again (R147), with what a FILLING copy needs of
them first (R192). -/
def State.startRun (s : State) (id : Nat) : State :=
  match s.cop? id with
  | none => s
  | some x =>
    let s := s.gatherAll id (x.p.bundles + 1)
    if !x.c.isStep then s
    else (List.range (min x.p.bStart x.p.bundles)).foldl (fun s b =>
      let s := s.launchAg id b
      let s := x.c.copies.foldl (fun s q => if s.feeds x q.1 then s.sendWhole x q.1 b else s) s
      x.g.local_.foldl (fun s r => s.republish id r b) s) s

/-- Takes up again what an operation had to leave because a page was absent (R340, R344), or what its host reads have brought. -/
def State.resumeColl (s : State) (id : Nat) (ready : Bool) : State :=
  match s.coll? id with
  | none => s
  | some c =>
    let jobs := if ready then (match c.gather with | some b => [CJob.gather b] | none => []) else c.stuck
    let s := if ready then s else s.modColl id fun c => { c with stuck := [] }
    let s := jobs.foldl (fun s j => match j with
      | .gather b => s.gatherIn id b ready
      | .output t parts => s.writeParts id t parts
      | .publish r b => s.publish id r b
      | .block copy b blk => s.modCopy id copy fun k =>
          if k.p1dealt.contains (blkKey b blk) && !k.p1done.contains (blkKey b blk) then { k with p1dealt := k.p1dealt.filter (· != blkKey b blk) }
          else { k with dealt := k.dealt.filter (· != blk) }
      | .whole copy b => (match s.cop? id with
          | some x => s.sendWhole x copy b
          | none => s)
      | .placed copy b blk => s.placeWhole id copy b blk) s
    (s.gatherAll id 65537).deal 18

end Sys2Proof.Machine
end

