-- ==== Sys2Proof/Machine/Ckp.lean ====
section
/-!
DEFINITION. Checkpoint streaming (17_checkpoint_streaming.md): target connections (R417-R419), the CKP_SAVE and CKP_RESTORE entries (R420,
R421), records (R422-R424), saving and restoring (R425-R427), failures (R428). TCP itself is a byte stream that opens and resets (log entry 28).
-/

namespace Sys2Proof.Machine

/-! ### Sending (R417, R418) -/

/-- States of CKP_TGT_STATUS (R431). -/
abbrev tgtIdle : Nat := 0
abbrev tgtConnecting : Nat := 1
abbrev tgtReady : Nat := 2
abbrev tgtFailed : Nat := 3

/-- The state of a target. -/
def State.tgtState (s : State) (t : Nat) : Nat := s.rd F.CKP_TGT_STATUS_state t

/-- The logical port of a queue's TCP connection (R418): chosen once under R301, again when it leaves the UP ports of the target's mask. -/
def State.tgtPort (s : State) (t q : Nat) : Option Nat × State :=
  let k := s.tgt t
  let up := (maskPorts (s.rd F.CKP_TGT_PORTS_port_mask t)).filter s.portUp
  match Tbl.get? k.ports q with
  | some p => if up.contains p then (some p, s) else choose k up
  | none => choose k up
where
  choose (k : CkpTgt) (up : List Nat) : Option Nat × State :=
    match s.choosePort (2 ^ 20) (s.trafficClass 6) k.rot up with
    | some p => (some p, s.setTgt t { k with ports := Tbl.set k.ports q p, rot := (p + 1) % 64 })
    | none => (none, s)

/-- Sends a PDU on a target's queue in curfew class 6; with no usable port nothing leaves (log entry 28). -/
def State.nvmeSend (s : State) (t q : Nat) (b : NvmeBody) : State :=
  match s.tgtPort t q with
  | (some p, s) => s.emit (.nvme p (s.dscp 6) (s.trafficClass 6) t q b)
  | (none, s) => s

/-- The block size of a target's namespace. -/
def State.blockSize (s : State) (t : Nat) : Nat := if s.rd F.CKP_TGT_STATUS_lba4k t = 1 then 4096 else 512

/-- The NQN of a target, without its padding. -/
def State.nqn (s : State) (t : Nat) : List Byte :=
  ((List.range 256).map fun i => Tbl.getD s.ckp.nqn (t * 256 + i) 0).takeWhile (· != 0)

/-- Puts a command on a queue and notes it as outstanding. -/
def State.nvmeCmd (s : State) (t q stream : Nat) (j : CkpJob) (body : Nat → NvmeBody) : State :=
  let k := s.tgt t
  let cid := k.nextCid
  (s.setTgt t { k with nextCid := (cid + 1) % 65536, cmds := k.cmds ++ [⟨q, cid, stream, j, []⟩] }).nvmeSend t q (body cid)

/-! ### Connections to targets (R417, R419) -/

/-- The command of the present stage of connection setup: Connect, then on the admin queue Property Get and Set, and Identify (R417; log entry
28). -/
def State.setupCmd (s : State) (t tries : Nat) : State :=
  let k := s.tgt t
  let j : CkpJob := ⟨.setup, k.stage, 0, 0, tries⟩
  let go := s.nvmeCmd t k.queue 256 j
  match k.stage with
  | 2 => go fun c => .connect c k.queue (s.rd F.CKP_TGT_CFG_q_depth t) (s.nqn t)
  | 3 => go fun c => .propGet c 0
  | 4 => go fun c => .propSet c 0x14 0x00460001
  | 5 => go fun c => .propGet c 0x1C
  | 6 => go fun c => .identify c 1 0
  | _ => go fun c => .identify c 0 (s.rd F.CKP_TGT_NSID_nsid t)

/-- Begins the TCP connection of a queue. -/
def State.openQueue (s : State) (t q : Nat) : State :=
  (s.modTgt t fun k => { k with queue := q, stage := 0 }).nvmeSend t q
    (.tcpOpen (s.rd F.CKP_TGT_IP_hi_ip t * 2 ^ 64 + s.rd F.CKP_TGT_IP_lo_ip t) (s.rd F.CKP_TGT_CFG_tcp_port t))

/-- Begins to connect a target. -/
def State.connectTgt (s : State) (t attempts : Nat) : State :=
  let s := s.setTgt t { ckpTgt0 with attempts := attempts, rot := (s.tgt t).rot }
  (((s.wr F.CKP_TGT_STATUS_state tgtConnecting t).wr F.CKP_TGT_STATUS_digests 0 t).wr F.CKP_TGT_STATUS_lba4k 0 t).openQueue t 0

/-- Closes the TCP connections of a target. -/
def State.closeQueues (s : State) (t : Nat) : State :=
  (s.tgt t).ports.foldl (fun (s : State) (q : Nat × Nat) => s.nvmeSend t q.1 .tcpClose) s

/-- Ends what a target's connection carries: its streams complete with a status and reason, its commands are gone. -/
def State.dropStreams (s : State) (t status reason : Nat) : State :=
  let mine := s.ckp.streams.filter fun q => q.2.target == t
  let s := mine.foldl (fun (s : State) (q : Nat × CkpStream) => s.endStream q.1 status reason 0 (q.2.recs.map Prod.fst).head?) s
  let s := s.modTgt t fun k => { k with cmds := [] }
  mine.foldl (fun (s : State) (q : Nat × CkpStream) => s.releaseStream q.1) s

/-- The target connection ends FAILED with a reason (R419, R428). -/
def State.failTgt (s : State) (t reason : Nat) : State :=
  let s := if reason = 3 then s.nvmeSend t 0 .h2cTerm else s
  let s := (s.closeQueues t).dropStreams t Status.storageError reason
  ((s.wr F.CKP_TGT_STATUS_state tgtFailed t).wr F.CKP_TGT_STATUS_reason reason t).bump F.CKP_CONN_FAIL

/-- CONNECT (R419, R431): refused without a port mask, and where the target is CONNECTING or READY (R10). -/
def State.tgtConnect (s : State) : State :=
  let t := s.rd F.CKP_TGT_SEL_target
  let st := s.tgtState t
  if s.rd F.CKP_TGT_PORTS_port_mask t = 0 ∨ st = tgtConnecting ∨ st = tgtReady then s.refuseWrite .CKP 0x40
  else s.connectTgt t 0

/-- DISCONNECT (R419): open streams complete ABORTED, then the connection ends. -/
def State.tgtDisconnect (s : State) : State :=
  let t := s.rd F.CKP_TGT_SEL_target
  let s := (s.dropStreams t Status.aborted 0).closeQueues t
  (s.setTgt t { ckpTgt0 with rot := (s.tgt t).rot }).wr F.CKP_TGT_STATUS_state tgtIdle t

/-- TARGET_CONNECT. -/
def execTargetConnect (s : State) : Host.Outcome State Fault Refusal := act s (asManager false State.tgtConnect)

/-- TARGET_DISCONNECT. -/
def execTargetDisconnect (s : State) : Host.Outcome State Fault Refusal := act s (asManager false fun s => s.tgtDisconnect.deal 18)

/-- 1 s after FAILED the connection is attempted again, up to `reconnects` times (R419). -/
def State.tgtReconnect (s : State) (t : Nat) : State :=
  let n := (s.tgt t).attempts
  if s.tgtState t = tgtFailed ∧ n < s.rd F.CKP_CFG_reconnects then s.connectTgt t (n + 1) else s

/-- TARGET_RECONNECT_TIMER. -/
def execTargetReconnectTimer (target : Nat) (s : State) : Host.Outcome State Fault Refusal :=
  actOn (decide (target < 64)) s fun s => (s.tgtReconnect target).deal 18

/-! ### Records (R422-R424) -/

/-- Records of a stream: header and data packed into payloads of Z - 64 bytes (R422). -/
def CkpStream.total (t : CkpStream) : Nat := ceilDiv (256 + t.dataLen) (t.z - 64)

/-- Payload bytes that record k carries. -/
def CkpStream.valid (t : CkpStream) (k : Nat) : Nat := min (t.z - 64) (256 + t.dataLen - k * (t.z - 64))

/-- The first 32 bytes of a trailer (R423). -/
def CkpStream.trailer (t : CkpStream) (k ctr salt : Nat) : List Byte :=
  leBytes 4 t.streamId ++ leBytes 4 k ++ leBytes 4 (t.valid k) ++ leBytes 8 ctr ++ leBytes 4 salt ++ List.replicate 8 0

/-- Forms record k of a save (R422-R424): none where the ENCRYPT slot gives no counter. -/
def State.formRecord (s : State) (t : CkpStream) (k : Nat) : Option (List Byte × State) :=
  let payload := padTo (t.z - 64) (slice (t.header ++ t.data) (k * (t.z - 64)) (t.z - 64))
  match t.keySlot with
  | none =>
    let tr := t.trailer k 0 0
    some (payload ++ tr ++ leBytes 4 (crc32c (payload ++ tr)) ++ List.replicate 28 0, s)
  | some n =>
    match Tbl.get? s.slots n with
    | none => none
    | some ks =>
      if ks.vf ≠ t.vf then none
      else
        let (m, s) := s.coreChecks t.part 54
        match drawCtrs ks m with
        | none => none
        | some (c, ks') =>
          let tr := t.trailer k c ks.salt
          let (ct, tag) := Config.gcmSeal ks.key (beBytes 4 ks.salt ++ beBytes 8 c) tr payload
          let s := (s.setSlot 0 n ks').bump F.CPH_ENC_PKTS
          let s := if ks'.low ∧ !ks.low then s.logEv .CPH .threshold 0 n else s
          let s := if ks'.state = .retired then s.logEv .CPH .stateChange 2 n else s
          some (ct ++ tr ++ tag ++ List.replicate 16 0, s)

/-- How a record of a restore is judged. -/
inductive RecordJudged where
  | good (payload : List Byte) (salt : Nat)
  | bad (reason : Nat)
  deriving DecidableEq, Repr

/-- A tag failure at the DECRYPT slot of a restore (R398). -/
def State.ckpTagFail (s : State) (n : Nat) : State :=
  let s := match Tbl.get? s.slots n with
    | some ks => s.setSlot 0 n { ks with tagFail := min 65535 (ks.tagFail + 1) }
    | none => s
  (s.bump F.CPH_TAG_FAIL).bump F.CKP_TRAILER_ERR

/-- Checks a record that has been read (R424, R427): its clear payload and its salt, or the reason of R428. -/
def State.judgeRecord (s : State) (t : CkpStream) (k : Nat) (b : List Byte) : RecordJudged × State :=
  let payload := b.take (t.z - 64)
  let tr := b.drop (t.z - 64)
  let salt := fieldLE tr 20 4
  let err := (RecordJudged.bad 5, s.bump F.CKP_TRAILER_ERR)
  if fieldLE tr 0 4 ≠ t.streamId ∨ fieldLE tr 4 4 ≠ k ∨ fieldLE tr 8 4 ≠ t.valid k ∨ t.salt.any (· != salt) then err
  else if k = 0 ∧ t.keySlot.isSome ≠ (salt != 0) then (.bad 7, s)
  else match t.keySlot with
  | none =>
    if fieldLE tr 32 4 = crc32c (payload ++ tr.take 32) then (.good (payload.take (t.valid k)) salt, s) else err
  | some n =>
    match (Tbl.get? s.slots n).filter fun ks => ks.vf == t.vf && ks.decrypt && ks.state != .wiping with
    | none => (.bad 6, s.ckpTagFail n)
    | some ks =>
      let (_, s) := s.coreChecks t.part 54
      match Config.gcmOpen ks.key (beBytes 4 salt ++ beBytes 8 (fieldLE tr 12 8)) (tr.take 32) payload (slice tr 32 16) with
      | none => (.bad 6, s.ckpTagFail n)
      | some d =>
        if k = 0 ∧ fieldLE d 22 4 ≠ salt then (.bad 5, s.bump F.CKP_TRAILER_ERR)
        else (.good (d.take (t.valid k)) salt, s.bump F.CPH_DEC_PKTS)

/-- Whether the stream header is valid and agrees with the entry and the table (R423, R427). -/
def CkpStream.headerOk (t : CkpStream) (h : List Byte) : Bool :=
  h.take 9 == t.header.take 9 && fieldLE h 9 1 % 2 == fieldLE t.header 9 1 % 2 && decide (fieldLE h 9 1 < 4)
    && slice h 10 4 == slice t.header 10 4 && slice h 26 12 == slice t.header 26 12 && zeroBytes h 46 210

/-- The part of a list of places that lies `off` bytes in and is `n` bytes long. -/
def cutPlaces : List (Nat × Nat) → Nat → Nat → List (Nat × Nat)
  | [], _, _ => []
  | (a, l) :: t, off, n =>
    if n = 0 then [] else if l ≤ off then cutPlaces t (off - l) n else (a + off, min n (l - off)) :: cutPlaces t 0 (n - (l - off))

/-! ### Streams run (R425-R427) -/

/-- A translation of a stream's access stops (R339, R340): held, or the stream ends. -/
def State.stopStream (s : State) (n : Nat) (t : CkpStream) (o : Op) (acc : AccKind) (bad : Option Nat) : Stop → State
  | .absent va level => s.stopOp t.op o acc (.absent va level)
  | .viol va reason level =>
    (s.raiseViolation (localRec o.part o.vf o.tag va reason level acc)).endStream n Status.accessLocal 0 0 bad
  | .detached _ => s.endStream n Status.detached 0 0 bad
  | .lost _ => s.endStream n Status.targetLost 0 0 bad true

/-- Room for one more command on a stream's queue. -/
def State.queueRoom (s : State) (t : CkpStream) : Bool :=
  decide (((s.tgt t.target).cmds.filter fun c => c.queue == t.queue).length < s.rd F.CKP_TGT_CFG_q_depth t.target)

/-- Issues a storage command of a stream. -/
def State.issueJob (s : State) (n : Nat) (t : CkpStream) (j : CkpJob) : State :=
  let bs := s.blockSize t.target
  let lba := t.slba + (j.record * t.z + j.off) / bs
  let ns := s.rd F.CKP_TGT_NSID_nsid t.target
  s.nvmeCmd t.target t.queue n j fun c => match j.kind with
    | .write => .write c ns lba (j.len / bs)
    | .read => .read c ns lba (j.len / bs)
    | _ => .flush c ns

/-- The Writes of a record: each of at most MAXH2CDATA (R425), in whole blocks. -/
def State.writeJobs (s : State) (t : CkpStream) (k : Nat) : List CkpJob :=
  let bs := s.blockSize t.target
  (cutRun (max bs ((s.tgt t.target).maxH2c / bs * bs)) t.z).map fun q => ⟨.write, k, q.1, q.2, 0⟩

/-- Begins records, at most `depth` in flight, issues commands while the queue has room, and at the end of a save its Flush. -/
def State.pumpStream (s : State) (n : Nat) : Nat → State
  | 0 => s
  | fuel + 1 =>
    match s.stream? n with
    | none => s
    | some t =>
      if t.isOver ∨ !t.started ∨ !t.loaded then s
      else match t.jobs with
      | j :: rest => if s.queueRoom t then ((s.setStream n { t with jobs := rest }).issueJob n t j).pumpStream n fuel else s
      | [] =>
        if t.recs.length < t.depth ∧ t.next < t.total then
          if t.restore then
            (s.setStream n { t with next := t.next + 1, recs := Tbl.set t.recs t.next ([], 0), jobs := [⟨.read, t.next, 0, t.z, 0⟩] }).pumpStream n fuel
          else match s.formRecord t t.next with
          | none => s.endStream n Status.keyExhausted 0 0 (some t.next)
          | some (b, s) =>
            let js := s.writeJobs t t.next
            (s.setStream n { t with next := t.next + 1, recs := Tbl.set t.recs t.next (b, js.length), jobs := js }).pumpStream n fuel
        else if !t.restore ∧ t.done = t.total ∧ !t.flushing then
          (s.setStream n { t with flushing := true, jobs := [⟨.flush, 0, 0, 0, 0⟩] }).pumpStream n fuel
        else s

/-- Runs a stream on as far as it goes. -/
def State.runStream (s : State) (n : Nat) : State := (s.pumpStream n 1000000).showStream n

/-- Reads the whole source of a save through translation (R425, R333; log entry 29): host pages over their link first. What a STEP waited for
under R426 then runs. -/
def State.loadSource (s : State) (n : Nat) (ready : Bool) : State :=
  match s.stream? n with
  | none => s
  | some t =>
    match s.op? t.op with
    | none => s
    | some o =>
      match s.lookupParts o .read t.places with
      | (.error e, s) => s.stopStream n t o .read none e
      | (.ok ls, s) =>
        match s.badFor t.part (some t.op) ls.flatten with
        | (true, s) => s.endStream n Status.checkFailed 0 0 none
        | (false, s) =>
          let hosts := hostLocs ls.flatten
          if !ready ∧ !hosts.isEmpty then s.issueReads (.op t.op) o.vf o.tag hosts
          else
            let data := (ls.map s.readLocs).flatten
            let salt := match t.keySlot with
              | some k => ((Tbl.get? s.slots k).map (·.salt)).getD 0
              | none => 0
            let hdr := t.header.take 22 ++ leBytes 4 salt ++ slice t.header 26 12 ++ leBytes 8 (crc64 data) ++ slice t.header 46 210
            ((s.setStream n { t with loaded := true, data := data, header := hdr }).runStream n).deal 18

/-- The stream's target is READY: it runs, unless its blocks pass the namespace's end (R421). -/
def State.startStream (s : State) (n : Nat) : State :=
  match s.stream? n with
  | none => s
  | some t =>
    if (s.tgt t.target).blocks < t.slba + t.total * t.z / s.blockSize t.target then s.endStream n Status.storageError 8 0 none
    else
      let s := s.setStream n { t with started := true }
      if t.restore then s.runStream n else s.loadSource n false

/-- Records that have been read are checked and written to memory in order of k (R427). -/
def State.takeRecords (s : State) (n : Nat) : Nat → State
  | 0 => s
  | fuel + 1 =>
    match s.stream? n with
    | none => s
    | some t =>
      let k := t.done
      match Tbl.get? t.recs k, s.op? t.op with
      | some (b, 1), some o =>
        if t.isOver then s
        else match s.judgeRecord t k b with
        | (.bad r, s) =>
          let tries := Tbl.getD t.reads k 0
          if r ≠ 7 ∧ tries < s.rd F.CKP_CFG_io_retries then
            ((s.bump F.CKP_RETRY).setStream n { t with reads := Tbl.set t.reads k (tries + 1), recs := Tbl.set t.recs k ([], 0),
                                                       jobs := t.jobs ++ [⟨.read, k, 0, t.z, 0⟩] })
          else s.endStream n Status.storageError r 0 (some k)
        | (.good p salt, s) =>
          if k = 0 ∧ !t.headerOk p then s.endStream n Status.storageError 7 0 (some 0)
          else
            let data := if k = 0 then p.drop 256 else p
            let off := if k = 0 then 0 else k * (t.z - 64) - 256
            match s.lookupParts o .write (cutPlaces t.places off data.length) with
            | (.error e, s) => s.stopStream n t o .write (some k) e
            | (.ok ls, s) =>
              let locs := ls.flatten
              let s := (s.writeLocs o.vf o.tag (some t.op) locs data).modOp t.op fun o => { o with wrote := lastWrites locs o.wrote }
              let t' := { t with done := k + 1, salt := some salt, recs := Tbl.erase t.recs k, crc := crcRun 0xC96C5795D7870F42 t.crc data,
                                 wantCrc := if k = 0 then fieldLE p 38 8 else t.wantCrc }
              let s := (s.setStream n t').bump F.CKP_REC_READ
              if t'.done < t.total then s.takeRecords n fuel
              else if t'.crc ^^^ 0xFFFFFFFFFFFFFFFF = t'.wantCrc then s.endStream n Status.ok 0 0 none
              else s.endStream n Status.storageError 7 0 none
      | _, _ => s

/-- A stream's operation goes on after a hold or a host read. -/
def State.resumeStream (s : State) (op : Nat) (ready : Bool) : State :=
  match s.streamOf op with
  | none => s
  | some n =>
    match s.stream? n with
    | none => s
    | some t =>
      if !t.started then s
      else if t.restore then (s.takeRecords n 16).runStream n
      else if t.loaded then s else s.loadSource n ready

/-! ### What targets send (R417, R428) -/

/-- Takes a command off the outstanding list. -/
def State.dropCmd (s : State) (t : Nat) (c : CkpCmd) : State :=
  s.modTgt t fun k => { k with cmds := k.cmds.filter fun x => !(x.queue == c.queue && x.cid == c.cid) }

/-- A command of a stream has failed: issued again up to `io_retries` times where that may help, else the stream ends (R428). -/
def State.cmdFailed (s : State) (c : CkpCmd) (reason sf : Nat) (again : Bool) : State :=
  match s.stream? c.stream with
  | none => s
  | some t =>
    if t.isOver then s.releaseStream c.stream
    else if again ∧ c.job.tries < s.rd F.CKP_CFG_io_retries then
      ((s.bump F.CKP_RETRY).setStream c.stream { t with jobs := t.jobs ++ [{ c.job with tries := c.job.tries + 1 }] }).runStream c.stream
    else s.endStream c.stream Status.storageError reason sf (if c.job.kind = .flush then none else some c.job.record)

/-- A Write has completed: once every Write of its record has, the record is saved (R425). -/
def State.writeDone (s : State) (c : CkpCmd) : State :=
  match s.stream? c.stream with
  | none => s
  | some t =>
    let s := match Tbl.get? t.recs c.job.record with
      | some (b, left) =>
        if left ≤ 1 then
          (s.setStream c.stream { t with recs := Tbl.erase t.recs c.job.record, done := t.done + 1 }).bump F.CKP_REC_WRITTEN
        else s.setStream c.stream { t with recs := Tbl.set t.recs c.job.record (b, left - 1) }
      | none => s
    (s.runStream c.stream).releaseStream c.stream

/-- A Read has completed with its data; a stream that is over discards it (R430). -/
def State.readDone (s : State) (c : CkpCmd) : State :=
  match s.stream? c.stream with
  | none => s
  | some t =>
    if t.isOver then s.releaseStream c.stream
    else ((s.setStream c.stream { t with recs := Tbl.set t.recs c.job.record (c.got, 1) }).takeRecords c.stream 16).runStream c.stream

/-- The Identify data of a namespace (log entry 28): its capacity in blocks and its block size; none where R417 does not support it. -/
def nsOf (d : List Byte) : Option (Nat × Nat) :=
  let lbaf := fieldLE d (128 + 4 * (fieldLE d 26 1 % 16)) 4
  let ds := lbaf / 2 ^ 16 % 256
  if lbaf % 65536 ≠ 0 ∨ fieldLE d 29 1 % 8 ≠ 0 ∨ !(ds == 9 || ds == 12) then none else some (fieldLE d 0 8, ds)

/-- Every queue is set up (R419): the target is READY and the streams that waited run. -/
def State.becomeReady (s : State) (t : Nat) : State :=
  let s := (s.modTgt t fun k => { k with stage := 8, attempts := 0 }).wr F.CKP_TGT_STATUS_state tgtReady t
  (s.ckp.streams.filter fun q => q.2.target == t && !q.2.isOver).foldl (fun (s : State) (q : Nat × CkpStream) => s.startStream q.1) s

/-- A setup command has succeeded: the next stage, the next queue, or READY. -/
def State.setupDone (s : State) (t : Nat) (c : CkpCmd) (result : Nat) : State :=
  let k := s.tgt t
  let next := fun (s : State) => if k.queue < s.rd F.CKP_TGT_CFG_io_queues t then s.openQueue t (k.queue + 1) else s.becomeReady t
  let stage := fun (s : State) n => (s.modTgt t fun k => { k with stage := n }).setupCmd t 0
  match k.stage with
  | 2 => if k.queue = 0 then stage s 3 else next s
  | 3 => stage s 4
  | 4 => stage s 5
  | 5 => if result % 2 = 1 then stage s 6 else s.setupCmd t 0
  | 6 => stage s 7
  | 7 => match nsOf c.got with
    | some (n, ds) => next ((s.modTgt t fun k => { k with blocks := n }).wr F.CKP_TGT_STATUS_lba4k (b2n (ds == 12)) t)
    | none => s.failTgt t 11
  | _ => s

/-- A Capsule Response (R417, R428). Bit 14 of the Status Field is Do Not Retry (log entry 28). -/
def State.onResp (s : State) (t : Nat) (c : CkpCmd) (status result : Nat) : State :=
  let s := s.dropCmd t c
  if status ≠ 0 then
    match c.job.kind with
    | .setup => s.failTgt t 11
    | .keepAlive => s.failTgt t 10
    | _ => s.cmdFailed c 2 status (!bitAt status 14)
  else match c.job.kind with
  | .setup => s.setupDone t c result
  | .keepAlive => s
  | .write => s.writeDone c
  | .read => if c.got.length = c.job.len then s.readDone c else s.failTgt t 3
  | .flush => (s.endStream c.stream Status.ok 0 0 none).releaseStream c.stream

/-- A Ready to Transfer (R417): the Write's data goes in H2CData; one outside its Write ends the connection. -/
def State.onR2t (s : State) (t : Nat) (c : CkpCmd) (ttag off len : Nat) : State :=
  match s.stream? c.stream with
  | none => s.failTgt t 3
  | some st =>
    if c.job.kind ≠ .write ∨ c.job.len < off + len then s.failTgt t 3
    else s.nvmeSend t c.queue (.h2cData c.cid ttag off (slice (Tbl.getD st.recs c.job.record ([], 0)).1 (c.job.off + off) len))

/-- Read data arrives in order; data a command did not ask for ends the connection. -/
def State.onC2h (s : State) (t : Nat) (c : CkpCmd) (off : Nat) (data : List Byte) : State :=
  let want := match c.job.kind with
    | .read => c.job.len
    | .setup => 4096
    | _ => 0
  if off ≠ c.got.length ∨ want < off + data.length then s.failTgt t 3
  else s.modTgt t fun k => { k with cmds := k.cmds.map fun x => if x.queue = c.queue ∧ x.cid = c.cid then { x with got := x.got ++ data } else x }

/-- A digest fails (R428 reason 4): the command is issued again up to `io_retries` times. -/
def State.onBadDigest (s : State) (t : Nat) (c : Option CkpCmd) (injected : Bool) : State :=
  let s := s.bump F.CKP_DIGEST_ERR
  match c with
  | none => s
  | some c =>
    let s := s.dropCmd t c
    match c.job.kind with
    | .setup => if c.job.tries < s.rd F.CKP_CFG_io_retries then (s.bump F.CKP_RETRY).setupCmd t (c.job.tries + 1) else s.failTgt t 4
    | .keepAlive => s
    | _ =>
      let s := if injected ∧ s.rd F.CKP_CFG_io_retries ≤ c.job.tries then
          (match (s.stream? c.stream).map (·.op) with
            | some id => s.modOp id fun o => { o with injected := true }
            | none => s)
        else s
      s.cmdFailed c 4 0 true

/-- The command identifier that a body carries. -/
def nvmeCid : NvmeBody → Option Nat
  | .resp c _ _ => some c
  | .r2t c _ _ _ => some c
  | .c2hData c _ _ => some c
  | _ => none

/-- A PDU of a target, or what becomes of its TCP connection (R417, R428). A response to a command that is not outstanding is dropped. -/
def State.onNvme (s : State) (t : Nat) (p : NvmePdu) : State :=
  let st := s.tgtState t
  let k := s.tgt t
  if st ≠ tgtConnecting ∧ st ≠ tgtReady then s
  else
    let c := (nvmeCid p.body).bind fun id => k.cmds.find? fun x => x.queue == p.queue && x.cid == id
    let isData : Bool := match p.body with
      | .c2hData _ _ _ => true
      | _ => false
    let (hit, s) := if isData ∧ k.digests ∧ p.digestOk then s.inject 0x1A01 0 (s.rd F.CKP_TGT_CFG_partition t) Status.storageError else (false, s)
    if !p.digestOk ∨ hit then s.onBadDigest t c hit
    else match p.body with
    | .tcpOpened => if st = tgtConnecting ∧ p.queue = k.queue ∧ k.stage = 0 then (s.modTgt t fun k => { k with stage := 1 }).nvmeSend t p.queue .icReq else s
    | .icResp maxH2c hd dd =>
      if st = tgtConnecting ∧ p.queue = k.queue ∧ k.stage = 1 then
        if maxH2c < 4096 then s.failTgt t 11
        else
          let m := if k.queue = 0 then maxH2c else min k.maxH2c maxH2c
          let s := s.wr F.CKP_TGT_STATUS_digests (b2n (hd || dd)) t
          (s.modTgt t fun k => { k with stage := 2, maxH2c := m, digests := dd }).setupCmd t 0
      else s.failTgt t 3
    | .resp _ status result => match c with
      | some c => s.onResp t c status result
      | none => s
    | .r2t _ ttag off len => match c with
      | some c => s.onR2t t c ttag off len
      | none => s
    | .c2hData _ off data => match c with
      | some c => s.onC2h t c off data
      | none => s
    | .tcpReset => s.failTgt t 1
    | _ => s.failTgt t 3

/-- NVME_PDU_RECEIVE. -/
def execNvmePduReceive (target : Nat) (pdu : NvmePdu) (s : State) : Host.Outcome State Fault Refusal :=
  actOn (decide (target < 64)) s fun s => (s.onNvme target pdu).deal 18

/-! ### Timers (R419, R428, R431) -/

/-- A storage command, or a TCP connection being set up, is outstanding beyond `cmd_timeout_ms`: the target fails with reason 10. With `held`, the
wait of that stream for its target to become READY has lasted that long: it completes with reason 9 (R419). -/
def State.ckpTimeout (s : State) (t : Nat) (held : Option Nat) : State :=
  let st := s.tgtState t
  match held with
  | some n => match s.stream? n with
    | some k => if k.target = t ∧ !k.started ∧ st = tgtConnecting then s.endStream n Status.storageError 9 0 none else s
    | none => s
  | none => if st = tgtConnecting ∨ (st = tgtReady ∧ !(s.tgt t).cmds.isEmpty) then s.failTgt t 10 else s

/-- CKP_CMD_TIMEOUT. -/
def execCkpCmdTimeout (target : Nat) (held : Option Nat) (s : State) : Host.Outcome State Fault Refusal :=
  actOn (decide (target < 64)) s fun s => (s.ckpTimeout target held).deal 18

/-- Every `keepalive_s` a Keep Alive goes to each READY target; one whose last is still outstanding has lost it (R428 reason 10). -/
def State.keepAlive (s : State) (t : Nat) : State :=
  if s.tgtState t ≠ tgtReady then s
  else if (s.tgt t).cmds.any fun c => c.job.kind == .keepAlive then s.failTgt t 10
  else s.nvmeCmd t 0 256 ⟨.keepAlive, 0, 0, 0, 0⟩ fun c => NvmeBody.keepAlive c

/-- CKP_KEEPALIVE_TIMER. -/
def execCkpKeepaliveTimer (s : State) : Host.Outcome State Fault Refusal :=
  act s fun s => ((List.range 64).foldl State.keepAlive s).deal 18

/-! ### The entries (R420, R421) -/

/-- The body of a checkpoint entry (R420). -/
structure CkpBody where
  addr : Nat
  length : Nat
  slba : Nat
  streamId : Nat
  table : Bool
  twin : Bool
  hold : Bool
  flagsResv : Nat
  recSel : Nat
  depth : Nat
  slot : Nat
  group : Nat
  rank : Nat
  bStart : Nat
  bCount : Nat
  deriving DecidableEq, Repr

/-- Reads the body of a checkpoint entry. -/
def ckpBody (d : List Byte) : CkpBody :=
  let k := fieldLE d 44 1
  let r := fieldLE d 45 1
  { addr := fieldLE d 16 8, length := fieldLE d 24 8, slba := fieldLE d 32 8, streamId := fieldLE d 40 4, table := bitAt k 0, twin := bitAt k 1,
    hold := bitAt k 2, flagsResv := k / 8, recSel := r % 16, depth := r / 16, slot := fieldLE d 46 2, group := fieldLE d 48 2,
    rank := fieldLE d 50 2, bStart := fieldLE d 52 2, bCount := fieldLE d 54 2 + 1 }

/-- The record size and the depth selected (R420). -/
def CkpBody.z (b : CkpBody) : Nat := if b.recSel = 0 then 2 ^ 20 else 2 ^ (15 + b.recSel)
def CkpBody.inFlight (b : CkpBody) : Nat := if b.depth = 0 then 8 else b.depth

/-- The first row of R421: a reserved value or a field out of range, or a class other than 6 (R418). -/
def CkpBody.bad (b : CkpBody) (h : DescHdr) (d : List Byte) : Bool :=
  h.cls != 6 || decide (64 ≤ h.target) || b.streamId == 0 || b.flagsResv != 0 || decide (8 ≤ b.recSel) || !zeroBytes d 56 7
    || (if b.table then b.length != 0 || decide (65536 < b.bStart + b.bCount) else b.length == 0 || decide (2 ^ 40 < b.length) || b.twin || b.hold)

/-- The second row of R421: the target, tag, slot, group, rank or twin copy is not the instance's, or the slot's direction is wrong. -/
def State.ckpOwned (s : State) (vf : Nat) (b : CkpBody) (h : DescHdr) (restore : Bool) : Bool :=
  s.ownsTag vf h.tag && s.rd F.CKP_TGT_CFG_partition h.target == s.rd F.PTN_INST_partition vf
    && (b.slot == 0xFFFF || (match Tbl.get? s.slots b.slot with
      | some k => k.vf == vf && k.decrypt == restore && k.state != .wiping
      | none => false))
    && (!b.table || (match s.groupById b.group with
      | some (_, g) => g.vf == vf && s.holdsCopy g b.rank b.twin
      | none => false))

/-- The places of a stream's data in order (R422): the range, or of each bundle the slice of W and of the moments used. -/
def tablePlaces (g : Group) (rank : Nat) (ds : List (MillDesc × List RStep)) : List (Nat × Nat) :=
  (ds.map fun q =>
    let sl := shard rank g.n q.1.elems
    (q.1.slotsOf (fun z => z == 2 || usesSlot q.2 z) 0).map fun z => (z.2.1, z.2.2 * (sl.2 - sl.1))).flatten

/-- The stream header as it stands at admission (R423), without salt and CRC-64. -/
def ckpHeader (b : CkpBody) (momFmt recipe step dataLen : Nat) : List Byte :=
  leBytes 4 0x54534B43 ++ leBytes 2 1 ++ leBytes 1 (b2n b.table) ++ leBytes 1 momFmt ++ leBytes 1 recipe
    ++ leBytes 1 (b2n (b.slot != 0xFFFF) + 2 * b2n b.twin) ++ leBytes 2 b.bStart ++ leBytes 2 (b.bCount - 1) ++ leBytes 2 b.group ++ leBytes 2 b.rank
    ++ leBytes 4 step ++ leBytes 4 0 ++ leBytes 4 b.streamId ++ leBytes 8 dataLen ++ leBytes 8 0 ++ List.replicate 210 0

/-- Admission from the fourth row of R421 on, with the places and the header's fields at hand: the stream takes a slot and runs, or waits for its
target (R419). -/
def State.openStream (s : State) (f : Fetched) (h : DescHdr) (b : CkpBody) (restore : Bool) (grp : Option (Nat × Group))
    (places : List (Nat × Nat)) (momFmt recipe : Nat) : State :=
  let vf := ringVf f.key
  let p := s.rd F.PTN_INST_partition vf
  let staging := b.inFlight * b.z
  let dataLen := sumNat (places.map Prod.snd)
  let refuse := fun (s : State) st reason => s.endEntry f st 0 (ckpResult 0 reason 0 none)
  let st := s.tgtState h.target
  if (match grp with
      | some (slot, _) => s.cmn.colls.any fun c => c.slot == slot && c.isStep
      | none => false) then refuse s Status.quiesceRequired 0
  else if s.stagingFree vf p < staging then refuse s Status.refusedPool 0
  else match (List.range 256).find? fun n => (s.stream? n).isNone with
  | none => refuse s Status.refusedCapacity 0
  | some n =>
    if st = tgtReady ∧ (s.tgt h.target).blocks < b.slba + ceilDiv (256 + dataLen) (b.z - 64) * b.z / s.blockSize h.target then
      refuse s Status.storageError 8
    else if st ≠ tgtReady ∧ st ≠ tgtConnecting then refuse s Status.storageError 9
    else
      let step := ((grp.map fun q => q.2.lastStep).getD 0)
      match s.newOp f .free .running dataLen with
      | (id, s) =>
        let t : CkpStream :=
          { op := id, vf := vf, part := p, tag := h.tag, target := h.target, queue := 1 + n % max 1 (s.rd F.CKP_TGT_CFG_io_queues h.target),
            restore := restore, z := b.z, depth := b.inFlight, slba := b.slba, staging := staging, places := places, dataLen := dataLen,
            header := ckpHeader b momFmt recipe step dataLen, streamId := b.streamId, keySlot := if b.slot = 0xFFFF then none else some b.slot,
            hold := if b.hold ∧ !restore then grp.map fun q => (q.1, b.rank * 2 + b2n b.twin, b.bStart, b.bCount) else none,
            started := false, loaded := restore, data := [], next := 0, done := 0, jobs := [], recs := [], salt := none, reads := [],
            crc := 0xFFFFFFFFFFFFFFFF, wantCrc := 0, flushing := false, isOver := false }
        let s := s.setStream n t
        let s := ((s.wr F.CKP_STREAM_open 1 n).wr F.CKP_STREAM_restore (b2n restore) n).wr F.CKP_STREAM_vf vf n
        let s := ((s.wr F.CKP_STREAM_target h.target n).wr F.CKP_STREAM_stream_id b.streamId n).bump F.CKP_TGT_STATUS_streams 1 h.target
        if st = tgtReady then s.startStream n else s

/-- A checkpoint entry: its fields, what it names, its table (R421). The entry waits while the table's page is not present. -/
def State.ckpEntry (s : State) (f : Fetched) (h : DescHdr) (restore : Bool) : State :=
  let vf := ringVf f.key
  let p := s.rd F.PTN_INST_partition vf
  let b := ckpBody f.desc
  let refuse := fun (s : State) st => s.endEntry f st 0 (ckpResult 0 0 0 none)
  if b.bad h f.desc then refuse s Status.formatUnsupported
  else if !s.ckpOwned vf b h restore then refuse s Status.accessLocal
  else if !b.table then s.openStream f h b restore none [(b.addr, b.length)] 0 0
  else match s.groupById b.group with
  | none => refuse s Status.accessLocal
  | some (slot, g) =>
    if b.addr % 4096 ≠ 0 then refuse s Status.recipeFault
    else match s.readOperand f.key h.tag (b.addr + 64 * b.bStart) (64 * b.bCount) true with
    | (.bytes t, s) =>
      let ds := ((List.range b.bCount).map fun i => millDesc (slice t (64 * i) 64)).map fun d => (d, s.recipe? p d.recipe)
      if ds.any fun q => q.1.bad q.2 1 false && q.1.bad q.2 9 true then refuse s Status.recipeFault
      else
        let ds := ds.map fun q => (q.1, q.2.getD [])
        match ds with
        | q :: _ => s.openStream f h b restore (some (slot, g)) (tablePlaces g b.rank ds) q.1.momFmt q.1.recipe
        | [] => s
    | (.poison, s) => refuse s Status.checkFailed
    | (.misplaced, s) => refuse s Status.recipeFault
    | (.stop (.absent va lv), s) =>
      let s := s.raiseFault (localRec p vf h.tag va XReason.notPresent lv .read)
      (if s.xlt.holds.any (fun k => k.who == .ring f.key && k.va == va) then s else s.hold h.tag va .read false (.ring f.key)).refetch f
    | (.stop (.viol va r lv), s) => refuse (s.raiseViolation (localRec p vf h.tag va r lv .read)) Status.accessLocal
    | (.stop (.detached _), s) => refuse s Status.detached
    | (.stop (.lost _), s) => refuse s Status.targetLost
    | (.reading, s) => s.refetch f

/-- CKP_SAVE. -/
def execCkpSave (key count : Nat) (s : State) : Host.Outcome State Fault Refusal :=
  onEntry key count 0x40 s fun s f h => s.ckpEntry f h false

/-- CKP_RESTORE. -/
def execCkpRestore (key count : Nat) (s : State) : Host.Outcome State Fault Refusal :=
  onEntry key count 0x41 s fun s f h => s.ckpEntry f h true

end Sys2Proof.Machine
end

