-- ==== Sys2Proof/Machine/Commons.lean ====
section
/-!
DEFINITION. Groups and agreement (05_commons_collectives.md): the notice tree (R115-R117), the bellwether (R125, R126, R129, R133, R135-R144), what
notices do at a rank, chunks that arrive (R97-R99), re-forming (R145-R147), the group commands (R112, R113, R118, R150, R151).
-/

namespace Sys2Proof.Machine

/-! ### Chunks and FOLDED at this device (R97-R99, R104) -/

/-- The slot that a contribution reaches whose check fails and whose header names none: the first of the group that still folds. R98 has the
unit know it; the packets of a chunk say nothing of it but the header (DESIGN CHOICE, log entry 60). -/
def State.slotReached (s : State) (slot : Nat) : Option (COp × Node) :=
  (s.cmn.colls.filter fun c => c.slot == slot && (c.phase == .running || c.phase == .closing)).findSome? fun c =>
    match s.cop? c.op, c.nodes.find? fun n => n.unit.isSome with
    | some x, some n => some (x, n)
    | _, _ => none

/-- A chunk that matches nothing here: the check is judged first and its failure reported against the slot reached (R98); one that passes is
discarded and counted (R99). -/
def State.misdirected (s : State) (slot : Nat) (h : ChunkHdr) (data : List Byte) : State :=
  match (if h.good data then none else s.slotReached slot) with
  | some (x, n) =>
    let f := x.flow n.bundle false
    let shard := ((f.chunk? n.chunk).map (·.shard)).getD 0
    s.checkFailed x .TAL 0 (n.unit.getD 0) n.bundle n.chunk (f.stageTo shard n.rank h.src) h.src false
  | none => s.bump F.TAL_MISDIRECT

/-- A result's chunk that has arrived: verified by the DMA mover before it is written (R97), then written and passed on, and reported. -/
def State.takeFinal (s : State) (x : COp) (h : ChunkHdr) (data : List Byte) (ag : Bool) : State :=
  let f := x.flow h.bundle ag
  let src := if f.co = 5 then h.src else 0
  match f.chunk? h.chunk, x.g.local_.find? fun r => x.c.todo.contains ⟨r, h.bundle, ag, 1, h.chunk, src⟩ with
  | some ch, some r =>
    let res := x.p.resFmt ag
    if !h.good data then s.checkFailed x .DMV 2 0 h.bundle h.chunk h.stage h.src ag
    else if h.fmt ≠ res.1 ∨ h.side ≠ res.2 ∨ h.elems ≠ ch.elems ∨ data.length ≠ wireBytes res.1 ch.elems then s.bump F.TAL_MISDIRECT
    else
      let from_ := if f.co = 5 then h.src else (((f.copies ch.shard).find? fun e => e.dst == r).map (·.src)).getD h.src
      (s.deliver x.c.op r h.bundle ag h data).sendFolded x.c.slot x.c.key r from_ h false
  | _, _ => s.misdirected x.c.slot h data

/-- A twin copy's reduced gradient has arrived (R131). -/
def State.takeTwin (s : State) (x : COp) (h : ChunkHdr) (data : List Byte) (ch : ChunkAt) : State :=
  let t : Todo := ⟨x.g.me, h.bundle, false, 2, h.chunk, ch.shard⟩
  if !x.c.todo.contains t then s.misdirected x.c.slot h data
  else if !h.good data then s.checkFailed x .DMV 2 0 h.bundle h.chunk h.stage h.src false
  else
    (s.placeG x t (ch.shard * 2 + 1) ch data).sendFolded x.c.slot x.c.key (x.g.member ch.shard).twin h.src h false

/-- A chunk waits for its phase to begin here (R125, R139). -/
def State.keepEarly (s : State) (id : Nat) (h : ChunkHdr) (data : List Byte) : State :=
  s.modColl id fun c => { c with before := c.before ++ [(h, data)] }

/-- A contribution reaches the slot of its chunk, or waits with it for a unit (R99, R108). -/
def State.takeContribution (s : State) (x : COp) (h : ChunkHdr) (data : List Byte) : State :=
  let f := x.flow h.bundle false
  match (f.chunk? h.chunk).bind fun ch => (f.rs ch.shard).find? fun e => e.src == h.src && e.stage == h.stage with
  | none => s.misdirected x.c.slot h data
  | some e =>
    match x.c.node? e.dst h.bundle h.chunk with
    | none => s.misdirected x.c.slot h data
    | some n =>
      if n.finished then
        if h.good data then s.bump F.TAL_MISDIRECT
        else s.checkFailed x .TAL 0 0 n.bundle n.chunk e.stage h.src false
      else if n.unit.isNone then s.setNode x.c.op { n with waiting := n.waiting ++ [(h, data)] }
      else s.offer x.c.op n h data

/-- Whether an operation runs a phase of a bundle: a contribution to one that it never runs matches no slot (R99). -/
def COp.runs (x : COp) (b : Nat) (ag : Bool) : Bool := decide (b < x.p.bundles) && (ag || decide (x.p.bStart ≤ b))

/-- A whole chunk has arrived for a group (R97-R99). One of a phase that has not begun here waits for it; where its check fails and a slot of the group
is folding, that slot is the one it reached, for the header that names the phase is damaged as likely as not (R98; log entry 60). -/
def State.takeChunk (s : State) (slot : Nat) (h : ChunkHdr) (data : List Byte) : State :=
  match (s.collFor slot (s.opKey slot h.step)).bind fun c => s.cop? c.op with
  | none => s.misdirected slot h data
  | some x =>
    let id := x.c.op
    if h.group ≠ x.g.id then s.misdirected slot h data
    else if x.c.phase = .admitted ∨ x.c.phase = .voiding then s.keepEarly id h data
    else if x.c.phase = .held then s
    else if x.c.isStep ∧ 0xFFFC ≤ h.stage then s.takeFill x h data
    else
      let rs := x.flow h.bundle false
      match rs.chunk? h.chunk with
      | none => s.misdirected slot h data
      | some ch =>
        let twin := x.c.isStep && h.final && h.stage == rs.top ch.shard
        let ag := x.c.isStep && h.final && !twin
        if !x.c.launched.contains (h.bundle, ag) then
          (if !x.runs h.bundle ag ∨ (!h.good data ∧ (s.slotReached slot).isSome) then s.misdirected slot h data else s.keepEarly id h data)
        else if twin then s.takeTwin x h data ch
        else if h.final then s.takeFinal x h data ag
        else s.takeContribution x h data

/-- FOLDED: the producer lets go of the chunk, whose slot serves the next, or sends it again (R104, R106). The last block that a FILLING twin copies
whole lets the bundle be published (R192). -/
def State.takeFolded (s : State) (slot consumer key : Nat) (bundle chunk stage : Nat) (again : Bool) : State :=
  match (s.collFor slot key).bind fun c => s.cop? c.op with
  | none => s
  | some x =>
    let is := fun (u : ChunkOut) => u.dst == consumer && u.hdr.bundle == bundle && u.hdr.chunk == chunk && u.hdr.stage == stage
    match x.c.outs.find? is with
    | none => s
    | some u =>
      if again then s.putChunk slot x.o.cls u.dst u.hdr u.data
      else
        let s := s.modColl x.c.op fun c => { c with outs := c.outs.map fun v => if is v then { v with folded := true } else v }
        let s := if u.hdr.partial_ then s.checkPhase x.c.op u.src bundle false else s
        let s := if u.hdr.stage = fillStage 0 true ∧ x.c.isStep ∧ !u.folded ∧ !x.c.published.contains (u.src * 65536 + bundle) then
            s.republish x.c.op u.src bundle else s
        s.bindWaiting x.c.op

/-! ### The bellwether -/

/-- Changes the bellwether's record of an operation. -/
def State.modBell (s : State) (slot key : Nat) (f : Bell → Bell) : State :=
  s.modGroup slot fun g => { g with bells := Tbl.modify g.bells key f }

/-- The fields of START on which every rank must agree. -/
def StartF.agreed (f : StartF) : StartF := { f with status := 0, states := [] }

/-- How much a START weighs when reports are folded (R126): a refusal before a disagreement, which ABORTED stands for, before an admission. -/
def StartF.weight (f : StartF) : Nat := if f.status = 0 then 0 else if f.status = Status.aborted then 1 else 2

/-- Folds two STARTs (R115, R125, R126; log entry 20): the weightier stands; two admissions that disagree are a disagreement, however the
bellwether's own fields read. -/
def foldStart (acc q : Nat × CBody) : Nat × CBody :=
  match acc.2, q.2 with
  | .start a, .start b =>
    let st := a.states ++ b.states
    if a.weight < b.weight then (q.1, .start { b with states := st })
    else if a.weight = 0 ∧ b.agreed ≠ a.agreed then (q.1, .start { a with status := Status.aborted, states := st })
    else (acc.1, .start { a with states := st })
  | _, _ => acc

/-- Abandons an operation at every rank. -/
def State.bellAbandon (s : State) (slot key status cause culprit : Nat) : State :=
  match s.group? slot with
  | none => s
  | some g =>
    let u := ((Tbl.get? g.bells key).map (·.commits)).getD 0
    ((s.modBell slot key fun b => { b with isOver := true }).modGroup slot fun g => { g with ended := Tbl.erase g.ended key }).notify slot key
      (.abandon status cause culprit u)

/-- The ranks one of whose copies is not TRACKING while the other is not either, as the STARTs tell (R193): no device sees both at its own admission
(DEDUCED, log entry 61). -/
def Group.unfillable (g : Group) (states : List (Nat × Nat)) : List Nat :=
  let bad := fun (c : Nat) => states.any fun q => q.1 == c && q.2 != 0
  (List.range g.n).filter fun r => (bad (r * 2) && (bad (r * 2 + 1) || !(g.member r).twinValid))

/-- Every START is in (R125, R126): GO with the chosen algorithm, or the operation is abandoned. Each rank that has no copy to fill from is told so by
an ABANDON of its own with RECIPE_FAULT, which only the holders of its copies that are not TRACKING heed (R193; log entry 61). -/
def State.bellStart (s : State) (slot seq culprit : Nat) (body : CBody) : State :=
  match s.group? slot, body with
  | some g, .start f =>
    let key := ((s.collFor slot seq).map (·.key)).getD seq
    let b : Bell := { isStep := f.co == 8, seq := seq, voiding := none, failed := [], runs := [], goAt := s.now, reduced := [], commits := f.bundleStart,
                      last := f.count - 1, isOver := false }
    let drop := fun (cause who : Nat) =>
      (s.setGroup slot { g with bells := Tbl.set g.bells seq { b with isOver := true } }).bellAbandon slot seq Status.aborted cause who
    if f.status = Status.aborted then drop 3 culprit
    else if f.status ≠ 0 then drop 1 culprit
    else match g.unfillable f.states with
    | r :: rs =>
      (((r :: rs).foldl (fun (s : State) r => s.notify slot seq (.abandon Status.recipeFault 1 r 0))
        (s.setGroup slot { g with bells := Tbl.set g.bells seq { b with isOver := true } }))).bellAbandon slot seq Status.aborted 1 r
    | [] => match Tbl.get? g.ended seq with
    | some r => drop 2 r
    | none => (s.setGroup slot { g with bells := Tbl.set g.bells key b }).notify slot seq
        (.go (s.chooseAlgo f.co f.algo (g.members.map (·.tray))) f.states)
  | _, _ => s

/-- Sends the reduce commits that are due, in ascending bundle order (R133); `n` bounds them. -/
def State.bellReduce (s : State) (slot key : Nat) : Nat → State
  | 0 => s
  | n + 1 =>
    match (s.group? slot).bind fun g => Tbl.get? g.bells key with
    | none => s
    | some b =>
      if !b.isOver ∧ b.reduced.contains b.commits then
        let s := s.modBell slot key fun b => { b with commits := b.commits + 1 }
        (s.notify slot key (.reduceCommit b.commits)).bellReduce slot key n
      else s

/-- Compares the hashes of a hash step (R189): copies that diverge and what they become: 1 FILLING, or 2 SUSPECT for the copy that the step filled, as
GO told its state at the start. A copy that is not TRACKING sends no hash, and an absent hash is logged. -/
def State.compareHashes (s : State) (slot key : Nat) (hashes : List (Nat × Nat)) : List (Nat × Nat) × State :=
  match s.group? slot with
  | none => ([], s)
  | some g =>
    let every := s.rd F.MIL_CFG_hash_interval
    let any := !hashes.isEmpty || (every != 0 && key % 2 ^ 32 % every == 0) || g.copies.any fun q => bitAt q.2 0
    (List.range g.n).foldl (fun (acc : List (Nat × Nat) × State) r =>
      if !(g.member r).twinValid then acc
      else match Tbl.get? hashes (r * 2), Tbl.get? hashes (r * 2 + 1) with
      | some a, some b =>
        if a = b then acc
        else if Tbl.getD g.copies (r * 2) 0 = 0 ∧ Tbl.getD g.copies (r * 2 + 1) 0 = 0 then (acc.1 ++ [(r * 2 + 1, 1)], acc.2)
        else (acc.1 ++ [(r * 2 + b2n (Tbl.getD g.copies (r * 2) 0 == 0), 2)], acc.2)
      | _, _ => if any then (acc.1, acc.2.logEv .CMN .threshold 0 (g.id * 2 ^ 32 + r)) else acc) ([], s)

/-- All ranks have PUBLISHED a bundle: after the last the step commits (R135, R189). -/
def State.bellPublished (s : State) (slot key bundle : Nat) (hashes : List (Nat × Nat)) : State :=
  match (s.group? slot).bind fun g => Tbl.get? g.bells key with
  | none => s
  | some b =>
    if b.isOver then s.bump F.CMN_STALE
    else if bundle ≠ b.last then s
    else
      let (div, s) := s.compareHashes slot key hashes
      (s.modBell slot key fun b => { b with isOver := true }).notify slot key (.commit div)

/-- VOID of a phase of a bundle (phase * 65536 + bundle), or the end of an operation whose runs of it are used up (R137, R140). -/
def State.bellVoid (s : State) (slot key what : Nat) : State :=
  match (s.group? slot).bind fun g => Tbl.get? g.bells key with
  | none => s
  | some b =>
    let used := Tbl.getD b.runs what 0
    let limit := ((s.collFor slot key).bind fun c => (s.cop? c.op).map (·.p.maxReruns)).getD 2
    if limit ≤ used then s.bellAbandon slot key (if limit = 0 then Status.stepVoid else Status.checkFailed) 0 0
    else
      (s.modBell slot key fun b => { b with voiding := some what, runs := Tbl.set b.runs what (used + 1),
                                            reduced := if what < 65536 then b.reduced.filter (· != what) else b.reduced }).notify slot key
        (.void (what / 65536) (what % 65536) used)

/-- A check failure reaches the bellwether (R137, R140, R144). Each phase of each bundle has attempts of its own (R140): a failure of another one than
the one being voided waits for its RERUN, for VOID_ACK and RERUN name none (DEDUCED, log entry 71). -/
def State.bellFailure (s : State) (slot key phase bundle attempt : Nat) : State :=
  let what := phase * 65536 + bundle
  match (s.group? slot).bind fun g => (Tbl.get? g.bells key).map fun b => (g, b) with
  | none => s.bump F.CMN_STALE
  | some (g, b) =>
    if b.isOver ∨ g.state = .reforming ∨ b.voiding = some what ∨ b.failed.contains what ∨ attempt ≠ Tbl.getD b.runs what 0 then s.bump F.CMN_STALE
    else if b.voiding.isSome then s.modBell slot key fun b => { b with failed := b.failed ++ [what] }
    else s.bellVoid slot key what

/-- Every VOID_ACK is in (R139): RERUN, and then the VOID that waited for it. -/
def State.bellRerun (s : State) (slot key : Nat) : State :=
  match (s.group? slot).bind fun g => Tbl.get? g.bells key with
  | none => s
  | some b =>
    match (if b.isOver then none else b.voiding) with
    | none => s
    | some what =>
      let s := (s.modBell slot key fun b => { b with voiding := none, failed := b.failed.drop 1 }).notify slot key (.rerun (Tbl.getD b.runs what 0))
      match b.failed with
      | next :: _ => s.bellVoid slot key next
      | [] => s

/-- A local ending after the operation was abandoned: a report that comes late (R144), passed on where ranks still finish bundles. -/
def State.bellLate (s : State) (slot key culprit : Nat) : State :=
  let s := s.bump F.CMN_STALE
  if s.cmn.colls.any fun c => c.slot == slot && c.key == key && c.phase == .closing then
    s.notify slot key (.abandon Status.aborted 2 culprit 0)
  else s

/-- Whether STARTs of an operation are being folded at a rank: it has begun anew, whatever stands of an earlier run. -/
def Group.starting (g : Group) (rank key : Nat) : Bool := g.gaths.any fun a => a.kind == 1 && a.rank == rank && a.key == key && !a.got.isEmpty

/-- A rank ended on its own (R142): abandonment, once every START is in. After a missed budget the others are told, so that none waits for its
publish values (log entry 49). -/
def State.bellEnded (s : State) (slot key culprit : Nat) : State :=
  match s.group? slot with
  | none => s
  | some g =>
    match (if g.starting 0 key then none else g.bells.find? fun q => q.1 == key || q.2.seq == key) with
    | some q => if q.2.isOver then s.bellLate slot q.1 culprit else s.bellAbandon slot q.1 Status.aborted 2 culprit
    | none => s.setGroup slot { g with ended := Tbl.set g.ended key culprit }

/-- An ABANDON report on its way up (R142) stays behind the START that it ends, which is still being folded here. -/
def State.endedUp (s : State) (slot rank concerns key culprit : Nat) : State :=
  match s.group? slot with
  | none => s
  | some g =>
    if g.starting rank key then s.setGroup slot { g with ended := Tbl.set g.ended key culprit }
    else s.reportUp slot rank concerns key (.abandon Status.aborted 2 culprit 0)

/-- A START goes up, and with it the ending that waited for it. -/
def State.reportStartUp (s : State) (slot rank concerns key : Nat) (b : CBody) : State :=
  let s := s.reportUp slot rank concerns key b
  match (s.group? slot).bind fun g => (Tbl.get? g.ended key).map fun r => (g, r) with
  | some (g, r) => (s.setGroup slot { g with ended := Tbl.erase g.ended key }).reportUp slot rank rank key (.abandon Status.aborted 2 r 0)
  | none => s

/-- A loss reaches the bellwether (R143, R144): it is reported to the fabric manager, and every rank re-forms. A rank already known as lost
is not reported again. -/
def State.bellLoss (s : State) (slot rank : Nat) : State :=
  match s.group? slot with
  | none => s
  | some g =>
    let s := if g.lost.contains rank then s else (s.setGroup slot { g with lost := g.lost ++ [rank] }).reportLoss slot rank
    if g.state = .reforming then s else s.notify slot 0 (.loss rank)

/-- The ranks below a rank whose RECONCILE reaches it: of each child that reports, its own, which covers the ranks below it; a child on a device
that is new to the group passes on what it gets. -/
def reconFrom (n : Nat) (expect : List Nat) : Nat → Nat → List Nat
  | 0, _ => []
  | fuel + 1, r => ((childRanks n r).map fun c => if expect.contains c then [c] else reconFrom n expect fuel c).flatten

/-- The RECONCILE reports that the ranks of this device send or fold (R146): one for each held step in ascending order; a rank that holds none
says so, for step 0, so that none is waited for in vain (log entry 56). -/
def reconBodies (l : List (Nat × Nat)) : List (Nat × CBody) :=
  if l.isEmpty then [(stepKey 0, .reconUp 0 false)] else l.mapIdx fun i q => (q.1, .reconUp q.2 (decide (i + 1 < l.length)))

/-- The highest of what each step's reports say, by step in ascending order. -/
def reconFold (l : List Recon) : List (Nat × Nat) :=
  let keys := ((l.filter fun r => r.key != stepKey 0).map (·.key)).eraseDups.foldr insertNat []
  keys.map fun k => (k, (l.filter fun r => r.key == k).foldl (fun m r => max m r.commits) 0)

/-- A RECONCILE report at a rank (R115, R146): folded until the rank itself and every rank below that reports have reported, then sent up; the
bellwether sends the highest U down, step by step. On a device that is new to the group it is passed on as it is; a bellwether there awaits every
rank it does not hold (log entry 56). -/
def State.takeRecon (s : State) (slot rank concerns key b tail : Nat) : State :=
  match s.group? slot with
  | none => s
  | some g =>
    if g.expect.isEmpty ∧ rank ≠ 0 then s.reportUp slot rank concerns key (.reconcile b tail)
    else
      let from_ := if g.expect.isEmpty then (List.range g.n).filter fun r => !g.local_.contains r else g.expect
      let recon := g.recon ++ [⟨rank, concerns, key, reconCommits b tail, bitAt tail 0⟩]
      let here := recon.filter fun r => r.at_ == rank
      let due := (if from_.contains rank then [rank] else []) ++ reconFrom g.n from_ 5 rank
      if due.all fun d => here.any fun r => r.from_ == d && !r.more then
        let s := s.setGroup slot { g with recon := recon.filter fun r => r.at_ != rank }
        let all := reconFold here
        if rank = 0 then all.foldl (fun s q => s.notify slot q.1 (.reconDown q.2)) s
        else (reconBodies all).foldl (fun s q => s.reportUp slot rank rank q.1 q.2) s
      else s.setGroup slot { g with recon := recon }

/-! ### Folding reports up the tree (R115) -/

/-- Values of a tree all-reduce folded in ascending rank order (R122, R164): this node's own first; partials in FP64, or 64-bit integers. -/
def foldScalars (k : RedKind) (n : Nat) (vals : List (List Nat)) : List TallyBlk :=
  vals.foldl (fun a v => foldAcc k a (v.map fun x => if isInt k.fmtIn then .ofInt (signed 64 x) else fp64.decode x)) (emptyAcc n)

/-- What is folded in a tree all-reduce: the operation's own reduction, or the SUM of FP64 norms (R164). -/
def State.scalarKind (s : State) (slot key scope : Nat) : RedKind :=
  if scope ≠ 0 then ⟨0, 0, 0⟩ else ((s.collFor slot key).bind fun c => (s.cop? c.op).map (·.p.kind)).getD ⟨0, 0, 0⟩

/-- The partial or, at the bellwether, the result of a tree all-reduce (R122): the partial in FP64 or as a 64-bit integer; the result rounded once
to `fmt_out` after `post_scale`. A node whose partial or result holds an event of R73, or saturates (R91), marks its own completion (R94). -/
def State.scalarUp (s : State) (slot rank key scope bundle : Nat) (vals : List (List Nat)) : State :=
  let k := s.scalarKind slot key scope
  let n := (vals.headD []).length
  let blks := foldScalars k n vals
  let vs := accValues k blks
  let x := if scope = 0 then (s.collFor slot key).bind fun c => s.cop? c.op else none
  if rank ≠ 0 then
    let out := vs.map fun v => if isInt k.fmtIn then (pattern64 v.toInt, Wrote.plain) else fp64.encode false none v
    let s := match x with
      | some x => s.markSpecial x.c.op (accSpecial blks (out.map Prod.snd))
      | none => s
    s.reportUp slot rank rank key (.scalar scope bundle (out.map Prod.fst))
  else match x with
  | none => s.notify slot key (.scalarRes scope bundle (vs.map fun v => (fp64.encode false none v).1))
  | some x =>
    let fk := (x.p.fw.fmtOut, sideKind x.p.fw.fmtOut x.p.fw.sideOut)
    let (r, s) := s.opRoundings x.c.op x.p.fw.rnd n
    let e := encodeRun fk.1 fk.2 (x.p.fw.sat == 1) r (postScaled x.p.red x.p.post vs)
    let s := s.markSpecial x.c.op (accSpecial blks e.2)
    let w := padTo (8 * n) e.1
    s.notify slot key (.scalarRes 0 0 ((List.range n).map fun i => fieldLE w (8 * i) 8))

/-- The sub-key under which reports of one kind are folded. -/
def CBody.sub : CBody → Nat
  | .reduced b => b
  | .published b _ _ => b
  | .scalar sc b _ => sc * 65536 + b
  | _ => 0

/-- The hashes that PUBLISHED reports of a rank's children and its own carry, folded for the rank (R115, R189). -/
def foldHashes (rank : Nat) (got : List (Nat × Nat × CBody)) : Option Nat × List (Nat × Nat) :=
  got.foldl (fun acc q => match q.2.2 with
    | .published _ own l =>
      if q.1 = rank then (own, acc.2 ++ l)
      else (acc.1, acc.2 ++ (match own with | some h => [(q.2.1 * 2, h)] | none => []) ++ l)
    | _ => acc) (none, [])

/-- Everything of a kind has been reported to a rank: it goes up, or decides at the bellwether. -/
def State.gathDone (s : State) (slot rank key : Nat) (a : Gath) : State :=
  let mine := ((a.got.find? fun q => q.1 == rank).map (·.2.2)).getD .keepalive
  let body := fun (s : State) (b : CBody) => if rank = 0 then s else s.reportUp slot rank rank key b
  match mine with
  | .start _ =>
    let r := a.got.foldl (fun acc q => foldStart acc (q.2.1, q.2.2)) (rank, match mine with | .start f => .start { f with states := [] } | m => m)
    if rank = 0 then s.bellStart slot key r.1 r.2 else s.reportStartUp slot rank r.1 key r.2
  | .scalar sc b _ =>
    s.scalarUp slot rank key sc b (a.got.map fun q => match q.2.2 with
      | .scalar _ _ v => v
      | _ => [])
  | .reduced b =>
    if rank ≠ 0 then body s mine
    else if ((s.group? slot).bind fun g => Tbl.get? g.bells key).all (·.isOver) then s.bump F.CMN_STALE
    else (s.modBell slot key fun k => { k with reduced := b :: k.reduced }).bellReduce slot key 65537
  | .published b _ _ =>
    let h := foldHashes rank a.got
    if rank ≠ 0 then body s (.published b h.1 h.2)
    else s.bellPublished slot key b ((match h.1 with | some x => [(0, x)] | none => []) ++ h.2)
  | .voidAck _ => if rank ≠ 0 then body s mine else s.bellRerun slot key
  | .done _ _ _ =>
    if rank ≠ 0 then body s mine
    else match (s.group? slot).bind fun g => Tbl.get? g.bells key with
      | some b => if b.isOver then s.bump F.CMN_STALE else (s.modBell slot key fun b => { b with isOver := true }).notify slot key (.commit [])
      | none => s.bump F.CMN_STALE
  | _ => s

/-- Whether reports being folded belong to the phase that a void names. -/
def Gath.ofVoid (g : Gath) (rank key : Nat) (a : Gath) : Bool :=
  let phase := a.sub / 65536
  let b := a.sub % 65536
  g.rank == rank && g.key == key && (g.kind == 3 && g.sub == 0 || (g.kind == 4 && phase == 0 && g.sub == b) || (g.kind == 6 && phase == 1 && g.sub == b))

/-- A child that acknowledges a void no longer counts as having reported the voided phase (R137). -/
def dropVoided (gs : List Gath) (rank key child : Nat) (a : Gath) : List Gath :=
  gs.map fun (g : Gath) => if g.ofVoid rank key a then { g with got := g.got.filter fun q => q.1 != child } else g

/-- Adds a report of a kind that is folded; passes it on when the rank itself and every child have reported (R115). -/
def State.addReport (s : State) (slot rank child concerns key : Nat) (b : CBody) : State :=
  match s.group? slot with
  | none => s
  | some g =>
    let is := fun (a : Gath) => a.rank == rank && a.kind == b.kind && a.key == key && (b.kind == 9 || a.sub == b.sub)
    let old := (g.gaths.find? is).getD ⟨rank, b.kind, key, b.sub, []⟩
    if old.got.any fun q => q.1 == child then s.bump F.CMN_STALE
    else
      let ins := fun (l : List (Nat × Nat × CBody)) =>
        let q := (child, concerns, b)
        (l.takeWhile fun p => p.1 < child) ++ [q] ++ l.dropWhile fun p => p.1 < child
      let a := { old with got := ins old.got }
      let rest := g.gaths.filter fun k => !is k
      let gone := if b.kind = 9 then (rest.filter fun k => k.ofVoid rank key a && k.got.any fun q => q.1 == child).length else 0
      let rest := if b.kind = 9 then dropVoided rest rank key child a else rest
      let s := s.bump F.CMN_STALE gone
      let due := rank :: childRanks g.n rank
      if due.all fun r => a.got.any fun q => q.1 == r then (s.setGroup slot { g with gaths := rest }).gathDone slot rank key a
      else s.setGroup slot { g with gaths := rest ++ [a] }

/-- Whether an operation is new to this device: its entry has not come, and this device has not answered for it. -/
def State.newHere (s : State) (slot : Nat) (g : Group) (seq : Nat) : Bool :=
  !s.cmn.colls.any (fun c => c.slot == slot && c.seq == seq)
    && !g.gaths.any (fun a => a.kind == 1 && a.key == seq && a.got.any fun q => g.local_.contains q.2.1)
    && decide (g.seq ≤ seq)

/-- A fenced rank answers the START of a new operation with its refusal, PARTITION_FENCED (R382); the operation counts as issued here
(DEDUCED, log entry 47). -/
def State.fencedStart (s : State) (slot rank key : Nat) (b : CBody) : State :=
  match b, s.group? slot with
  | .start f, some g =>
    if !g.local_.contains rank ∧ s.newHere slot g key ∧ s.fencedInst g.vf (s.rd F.PTN_INST_partition g.vf) then
      let g := { g with seq := key + 1 }
      (s.setGroup slot g).reportStart slot g key { f with status := Status.fencedOrMalformed, states := [] }
    else s
  | _, _ => s

/-- A report reaches a rank of this device: failures, endings and losses, of which one body holds only one (R206), go straight up; the rest is folded
(R115). What a step's ranks report after GO counts only while the step runs here, so that nothing of an earlier run of its number does (R133, R135,
R147): GO has passed every rank on the way, and follows every START. -/
def State.takeReport (s : State) (slot rank concerns key : Nat) (b : CBody) : State :=
  match s.group? slot with
  | none => s
  | some g =>
    match b with
    | .void p bd a => if rank = 0 then s.bellFailure slot key p bd a else s.reportUp slot rank concerns key b
    | .abandon _ _ c _ => if rank = 0 then s.bellEnded slot key c else s.endedUp slot rank concerns key c
    | .loss r => if rank = 0 then s.bellLoss slot r else s.reportUp slot rank concerns key b
    | .reconcile bd t => s.takeRecon slot rank concerns key bd t
    | .done st _ c =>
      if st = 0 then folded g b
      else if rank ≠ 0 then s.reportUp slot rank concerns key b
      else if st = Status.checkFailed then s.bellFailure slot key 0 0 (((Tbl.get? g.bells key).map fun b => Tbl.getD b.runs 0 0).getD 0)
      else s.bellEnded slot key c
    | _ => if g.state = .active then (folded g b).fencedStart slot concerns key b else folded g b
where
  folded (g : Group) (b : CBody) : State :=
    if g.state = .reforming ∨ (2 ^ 32 ≤ key ∧ !s.cmn.colls.any fun c => c.slot == slot && c.key == key && c.phase != .admitted) then s.bump F.CMN_STALE
    else if concerns = rank then s.addReport slot rank rank concerns key b
    else match edgeUp g.local_ 8 concerns with
    | some (child, parent) => if parent = rank then s.addReport slot rank child concerns key b else s.addReport slot rank concerns concerns key b
    | none => s.addReport slot rank concerns concerns key b

/-! ### Void (R138, R139) -/

/-- Whether a sent chunk belongs to the voided phase of an operation. -/
def ofAttempt (c : Coll) (phase bundle : Nat) (h : ChunkHdr) : Bool :=
  if c.isStep then h.bundle == bundle && decide (h.stage < 0xFFFC) && (if phase = 0 then !h.final || h.fmt == 1 && !c.launched.contains (bundle, true) else h.final && c.launched.contains (bundle, true))
  else true

/-- Takes the voided attempt of an operation apart here (R138 steps 1 to 3): its chunks leave the tally units, what was sent and awaited of it is
forgotten; inputs that were not retained are read again (R130). -/
def State.dropAttempt (s : State) (x : COp) (phase bundle : Nat) : State :=
  let gone := fun b => if x.c.isStep then b == bundle else true
  let ag := x.c.isStep && phase == 1
  let s := if ag then s else s.unbindNodes (x.c.nodes.filter fun n => gone n.bundle)
  s.modColl x.c.op fun c =>
    { c with
      phase := .voiding
      voided := phase * 65536 + bundle
      published := if ag then c.published.filter (· % 65536 != bundle) else c.published
      nodes := if ag then c.nodes else c.nodes.filter fun n => !gone n.bundle
      outs := c.outs.filter fun u => !ofAttempt c phase bundle u.hdr
      before := c.before.filter fun q => !ofAttempt c phase bundle q.1
      todo := c.todo.filter fun t => !(gone t.bundle && t.ag == ag)
      launched := c.launched.filter fun q => !(gone q.1 && q.2 == ag)
      reported := c.reported.filter fun q => !(gone q.2.1 && q.2.2 == ag)
      stuck := c.stuck.filter fun j => match j with
        | .gather b => ag || !gone b
        | .output t _ => !(gone t.bundle && t.ag == ag)
        | _ => true
      gather := if ag then c.gather else none
      stagingBytes := if ag then c.stagingBytes else c.stagingBytes - (if c.isStep && c.launched.contains (bundle, false) then x.gBytes bundle else 0)
      inputs := if ag || x.retains then c.inputs else Tbl.keep c.inputs fun k _ => !gone (k / 16)
      copies := if ag then c.copies else Tbl.mapVals c.copies fun _ k => { k with g := Tbl.keep k.g fun i _ => i / 2 ^ 32 != bundle } }

/-- Advances the epoch of the group's chunk connections at this end (R138 step 4), and sends again what of other attempts was under way on
them. -/
def State.advanceChunks (s : State) (slot : Nat) : State :=
  let s := ((s.cmnConns slot).filter fun q => q.2.svc == 3).foldl (fun s q => if q.2.state = .open_ then s.advanceEpoch q.1 else s) s
  let mine := (s.cmn.colls.filter fun c => c.slot == slot).map fun c => (c, ((s.op? c.op).map (·.cls)).getD 0)
  mine.foldl (fun s q => (q.1.outs.filter fun u => !u.folded).foldl (fun s u => s.putChunk slot q.2 u.dst u.hdr u.data) s) s

/-- VOID at this device (R114, R138). -/
def State.onVoid (s : State) (slot key phase bundle attempt : Nat) : State :=
  let s := s.bump F.CMN_VOIDS
  let x? := (s.collFor slot key).bind fun c => s.cop? c.op
  let ofIt := fun (h : ChunkHdr) => match x? with
    | some x => ofAttempt x.c phase bundle h
    | none => true
  let s := { s with cmn := { s.cmn with inbox := s.cmn.inbox.filter fun m => match m with
      | .chunk sl h _ => !(sl == slot && s.opKey slot h.step == key && ofIt h)
      | _ => true } }
  let s := match x? with
    | some x => s.dropAttempt x phase bundle
    | none => s
  let s := (s.modGroup slot fun g => { g with
      state := if g.state = .reforming then g.state else .voiding
      gaths := (g.local_.foldl (fun gs r => gs.filter fun a => !(a.rank == r && a.key == key && a.kind == 9)) g.gaths)
        ++ g.local_.map fun r => ⟨r, 9, key, phase * 65536 + bundle, []⟩ }).advanceChunks slot
  match s.group? slot with
  | some g => g.local_.foldl (fun s r => s.ownReport slot r key (.voidAck attempt)) s
  | none => s

/-- RERUN at this device (R139): the voided phase runs again, from the inputs or from P. -/
def State.onRerun (s : State) (slot key attempt : Nat) : State :=
  match (s.collFor slot key).bind fun c => s.cop? c.op with
  | none => s.modGroup slot fun g => if g.state = .voiding then { g with state := .active } else g
  | some x =>
    let s := (s.bump F.CMN_RERUNS).modColl x.c.op fun c =>
      { c with phase := if c.ending.isSome then .closing else .running, attempt := c.attempt + 1, runs := Tbl.set c.runs c.voided attempt }
    let others := s.cmn.colls.any fun c => c.slot == slot && c.phase == .voiding
    let s := if others then s else s.modGroup slot fun g => if g.state = .voiding then { g with state := .active } else g
    let s := s.gatherAll x.c.op (x.p.bundles + 1)
    let due := (List.range x.p.bundles).filter fun b => x.c.isStep && (decide (b < x.c.committed)) && !x.c.launched.contains (b, true)
    let s := due.foldl (fun s b =>
      let s := s.launchAg x.c.op b
      x.g.local_.foldl (fun s r => match (s.coll? x.c.op).bind fun c => Tbl.get? c.copies (r * 2) with
        | some k => if b < x.p.bStart then s.republish x.c.op r b else if b < k.next then s.publish x.c.op r b else s
        | none => s) s) s
    match s.coll? x.c.op with
    | some c =>
      let early := c.before
      let s := s.modColl x.c.op fun c => { c with before := [] }
      early.foldl (fun s q => s.inboxAdd (.chunk slot q.1 q.2)) s
    | none => s

/-! ### What the other notices do (R129, R132, R135, R141-R146) -/

/-- GO at this device. What came before it stands in the arrival areas ahead of the local inputs (R100). -/
def State.onGo (s : State) (slot seq algo : Nat) (states : List (Nat × Nat)) : State :=
  match s.collFor slot seq with
  | none => s
  | some c =>
    if c.phase ≠ .admitted then s
    else
      let s := if c.isStep then s.modGroup slot fun g => { g with copies := states.foldl (fun t q => Tbl.set t q.1 q.2) [] } else s
      let s := (s.modColl c.op fun c => { c with phase := .running, algo := algo, goAt := some s.now }).startRun c.op
      let early := ((s.coll? c.op).map (·.before)).getD []
      early.foldl (fun s q => s.inboxAdd (.chunk slot q.1 q.2)) (s.modColl c.op fun c => { c with before := [] })

/-- COMMIT at this device (R129, R135, R189): copies that diverged change state; the completion is OK, or TWIN_DIVERGED on the device of a copy that
did. Where two copies of a device diverge in one step `culprit_rank` is the lower rank, which R189 does not say (DESIGN CHOICE, log entry 71). -/
def State.onCommit (s : State) (slot key : Nat) (div : List (Nat × Nat)) : State :=
  match s.collFor slot key with
  | none => s
  | some c =>
    let mine := div.filter fun q => (s.bind? slot q.1).isSome && c.isStep
    let s := mine.foldl (fun s q => s.setCopy slot q.1 q.2 (List.range (((s.bind? slot q.1).map (·.count)).getD 0))) s
    match mine with
    | q :: _ => s.endColl c Status.twinDiverged 0 0 (q.1 / 2) c.plan.length
    | [] => s.endColl c Status.ok 0 0 0 (if c.isStep then c.plan.length else 0)

/-- Whether this device holds a copy of a rank that is not TRACKING: a step refused for it ends RECIPE_FAULT here (R193). -/
def State.refusedFill (s : State) (c : Coll) (culprit : Nat) : Bool :=
  c.isStep && c.phase == .admitted && (((s.group? c.slot).map fun g => s.copiesHeld g).getD []).any fun k =>
    k / 2 == culprit && ((s.bind? c.slot k).map Bind.worst).getD 0 != 0

/-- ABANDON at this device (R126, R140-R142): the operation ends with the group's status; a step's committed bundles are first updated and
published. A rank refused for the state of its copies ends RECIPE_FAULT (R193). -/
def State.onAbandon (s : State) (slot key status cause culprit bundles : Nat) : State :=
  match s.collFor slot key with
  | none => s
  | some c =>
    if status = Status.recipeFault then (if s.refusedFill c culprit then s.endColl c Status.recipeFault 0 0 0 0 else s)
    else if c.phase = .closing then (s.modColl c.op fun c => { c with short := true }).finishClosing c.op
    else if c.isStep ∧ c.phase ≠ .admitted ∧ !(s.cop? c.op).any fun x => s.closed x cause culprit bundles then
      let s := s.modColl c.op fun c =>
        { c with phase := .closing, committed := max c.committed bundles, ending := some (status, cause, culprit, bundles) }
      let s := (List.range bundles).foldl (fun s b => s.launchAg c.op b) s
      (s.deal 18).finishClosing c.op
    else s.endColl c status (if status = Status.deadlineMissed then 9 else 0) cause culprit (if c.isStep ∧ c.phase ≠ .admitted then bundles else 0)

/-- After a step or an operation leaves VOIDING by its end, the group is ACTIVE again (R114). -/
def State.settleGroup (s : State) (slot : Nat) : State :=
  if s.cmn.colls.any fun c => c.slot == slot && c.phase == .voiding then s
  else s.modGroup slot fun g => if g.state = .voiding then { g with state := .active } else g

/-- LOSS at this device (R143): the group re-forms; open operations are held. -/
def State.onLoss (s : State) (slot rank : Nat) : State :=
  let s := s.modGroup slot fun g =>
    { g with state := .reforming, since := s.now, lost := if g.lost.contains rank then g.lost else g.lost ++ [rank] }
  (s.cmn.colls.filter fun c => c.slot == slot).foldl (fun s c => s.modColl c.op fun c => { c with phase := .held }) s

/-- The sums that a held step still waits for are reported anew in the new generation, whose members fold none of the old (R146, R199). -/
def State.renewNorms (s : State) (id : Nat) : State :=
  match s.cop? id with
  | none => s
  | some x => (x.c.copies.filter fun q => x.sums q.1).foldl (fun s q =>
      let s := (q.2.pass1.filter fun b => syncOf (s.recipeOf x q.1 b) == some 0 && (Tbl.get? x.c.norms b).isNone).foldl
        (fun s b => s.reportNorms x q.1 b 0 q.2) s
      if (s.scopeBundles x q.1).isEmpty ∨ (Tbl.get? x.c.norms 65536).isSome then s else s.reportNorms x q.1 0 1 q.2) s

/-- RECONCILE at this device (R146): the step's bundles below U are updated from the kept gradients, then it completes GROUP_REFORMED. -/
def State.onReconcile (s : State) (slot key u : Nat) : State :=
  (s.cmn.colls.filter fun c => c.slot == slot && c.isStep && c.key == key && c.phase == .held).foldl (fun s c =>
    let s := s.modColl c.op fun c => { c with phase := .closing, committed := u, ending := some (Status.groupReformed, 0, 0, u) }
    ((s.renewNorms c.op).deal 18).finishClosing c.op) s

/-- The results of a tree all-reduce reach this device: written out (R122), or taken into S24-S27 (R164). -/
def State.onScalarRes (s : State) (slot key scope bundle : Nat) (vals : List Nat) : State :=
  match s.collFor slot key with
  | none => s
  | some c =>
    if scope ≠ 0 then s.normResult c.op (scope - 1) bundle vals
    else match s.cop? c.op with
    | none => s
    | some x =>
      let fk := x.p.fw.fmtOut
      let data := ((vals.map (leBytes 8)).flatten).take (wireBytes fk x.p.count)
      x.g.local_.foldl (fun s r =>
        let t : Todo := ⟨r, 0, false, 1, 0, 0⟩
        let s := s.modColl c.op fun c => { c with todo := c.todo ++ [t] }
        s.writeParts c.op t (memParts fk (bitAt x.p.fw.sideOut 1) data (x.p.outA, x.p.outS, 0))) s

/-- A notice takes effect at this device. -/
def State.onNotice (s : State) (slot key : Nat) (b : CBody) : State :=
  match b with
  | .go a l => s.onGo slot key a l
  | .reduceCommit bd =>
    (match s.collFor slot key with
      | some c => ((s.modColl c.op fun c => { c with committed := max c.committed (bd + 1) }).launchAg c.op bd).deal 18
      | none => s)
  | .commit l => s.onCommit slot key l
  | .scalarRes sc bd v => s.onScalarRes slot key sc bd v
  | .void p bd a => s.onVoid slot key p bd a
  | .rerun a => s.onRerun slot key a
  | .abandon st c r u => (s.onAbandon slot key st c r u).settleGroup slot
  | .loss r => s.onLoss slot r
  | .reconcile b t => s.onReconcile slot key (reconU b t)
  | _ => s

/-- The ranks a notice goes on to from a rank: its children, and in place of a lost child the children below it (R115, R117, R143). -/
def noticeTo (n : Nat) (lost : List Nat) : Nat → Nat → List Nat
  | 0, r => [r]
  | fuel + 1, r => if lost.contains r then ((childRanks n r).map (noticeTo n lost fuel)).flatten else [r]

/-- A notice reaches a rank: applied in `nseq` order, once for the device, and passed to the rank's children (R115, R116), past those that are
lost, as the notice of a loss itself says (R143; the bellwether reaches them as R117 has their reports reach it; DEDUCED, log entry 24); an
early one is held. `n` bounds the run of held notices that become due. -/
def State.takeNotice (s : State) (slot rank nseq key : Nat) (b : CBody) : Nat → State
  | 0 => s
  | n + 1 =>
    match s.group? slot with
    | none => s
    | some g =>
      let due := Tbl.getD g.due rank 1
      if nseq < due then s
      else if due < nseq then s.setGroup slot { g with early := g.early ++ [(rank, nseq, key, b)] }
      else
        let s := s.setGroup slot { g with due := Tbl.set g.due rank (due + 1) }
        let lost := match b with
          | .loss r => r :: g.lost
          | _ => g.lost
        let s := (childRanks g.n rank).foldl (fun s c => (noticeTo g.n lost 5 c).foldl (fun s d => s.coordTo slot d rank nseq key b true (d == c)) s) s
        let s := if rank = g.me then s.onNotice slot key b else s
        match (s.group? slot).bind fun g => (g.early.find? fun q => q.1 == rank && q.2.1 == due + 1).map fun q => (g, q) with
        | some (g, q) =>
          (s.setGroup slot { g with early := g.early.filter (· != q) }).takeNotice slot rank (due + 1) q.2.2.1 q.2.2.2 n
        | none => s

/-! ### Running the messages between ranks -/

/-- Takes one message. A notice without a number is this device's own: it has seen the loss of the bellwether, reports it to the fabric manager
and re-forms (R114, R117, R143; DEDUCED, log entry 24). -/
def State.takeMsg (s : State) (m : CMsg) : State :=
  match m with
  | .report slot rank concerns key b => s.takeReport slot rank concerns key b
  | .notice slot rank nseq key b => if nseq = 0 then s.onNotice slot key b else s.takeNotice slot rank nseq key b 65536
  | .chunk slot h data => s.takeChunk slot h data
  | .folded slot consumer key b => (match b with
      | .folded bd c st again => s.takeFolded slot consumer key bd c st again
      | _ => s)

/-- Takes every message between ranks of this device, oldest first, those that arise on the way too; `fuel` bounds them. -/
def State.runInbox (s : State) : Nat → State
  | 0 => s
  | fuel + 1 =>
    match s.cmn.inbox with
    | [] => s
    | m :: rest => (State.takeMsg { s with cmn := { s.cmn with inbox := rest } } m).runInbox fuel

/-- A commons connection whose key slot gave no counter (R212): every operation open on its group ends here KEY_EXHAUSTED. -/
def State.endKeyless (s : State) : State :=
  (s.bxt.conns.filter fun q => decide (2 ≤ q.2.svc) && q.2.state == .open_ && q.2.errStatus == Status.keyExhausted).foldl (fun s q =>
    let s := s.modConn q.1 fun k => { k with errStatus := 0 }
    (s.cmn.colls.filter fun c => c.slot == q.2.slot).foldl (fun s c => s.endLocally c.op Status.keyExhausted 0) s) s

/-- Bundles that wait for staging are gathered in, operation by operation, once another has freed it (R169). -/
def State.gatherWaiting (s : State) : State :=
  (s.cmn.colls.filter fun c => c.isStep && c.phase == .running).foldl (fun s c => s.gatherAll c.op 65537) s

/-- The messages between ranks are taken, keyless operations end, the mill goes on. -/
def State.cmnTurn (s : State) : State := (((s.runInbox 1000000).endKeyless).runInbox 1000000).deal 18

/-- The commons settles, and RESOLVE entries whose retries are over complete (R344). -/
def State.cmnRun (s : State) : State := (s.cmnTurn.gatherWaiting.cmnTurn).resolvesDone

/-! ### Group commands (R113, R118, R150, R151) -/

/-- The outcome of a group command. -/
def State.grpResult (s : State) (reason : Nat) : State :=
  let s := (s.wr F.CMN_GRP_STATUS_done (b2n (reason == 0))).wr F.CMN_GRP_STATUS_refused (b2n (reason != 0))
  (s.wr F.CMN_GRP_STATUS_reason reason).wr F.CMN_GRP_STATUS_busy 0

/-- A group command while one is running (R150, CMN_GRP_STATUS): it failed, for reason 7; the one that is running goes on. -/
def State.grpBusy (s : State) : State :=
  ((s.wr F.CMN_GRP_STATUS_done 0).wr F.CMN_GRP_STATUS_refused 1).wr F.CMN_GRP_STATUS_reason 7

/-- A member-table entry from the window (R113), and whether its reserved bit is clear. -/
def memberOf (v : Nat) : Member :=
  { dev := bitsOf v 0 20, vf := bitsOf v 20 10, tray := bitsOf v 30 16, twin := bitsOf v 46 16, twinValid := bitAt v 62 }

/-- The member table breaks R113 or R186. -/
def badTable (ms : List Member) (raw : List Nat) : Bool :=
  let n := ms.length
  let m := fun r => ms.getD r ⟨0, 0, 0, 0, false⟩
  let devs := (ms.map (·.dev)).eraseDups
  raw.any (fun v => bitAt v 63)
    || ms.any (fun q => decide (n ≤ q.twin) || (q.twinValid && ((m q.twin).dev == q.dev || (m q.twin).tray != q.tray)))
    || devs.any fun d =>
      let rs := (List.range n).filter fun r => (m r).dev == d
      decide (2 < rs.length)
        || (match rs with
          | [a, b] => !((m a).twin == b || (m b).twin == a)
          | _ => false)
        || decide (2 < ((List.range n).filter fun r => (m r).twinValid && (m (m r).twin).dev == d).length)

/-- Whether the slots of CMN_GRP_KEYS serve a group with `enc` (R118, R150 reason 9). -/
def State.keysOk (s : State) (vf tx rx : Nat) : Bool :=
  (match Tbl.get? s.slots tx with
    | some k => k.state == .loaded && k.vf == vf && !k.decrypt && k.devSalt
    | none => false)
  && (match Tbl.get? s.slots rx with
    | some k => k.state == .loaded && k.vf == vf && k.decrypt && k.devSalt
    | none => false)

/-- The tables bound for a rank that this device no longer holds but has the twin copy of, as the device that promoted it does once a replacement
joins, serve that twin copy, states and all (R200). -/
def State.turnBinds (s : State) (slot : Nat) : State :=
  match s.group? slot with
  | none => s
  | some g =>
    let turns := fun (b : Bind) => b.slot == slot && !b.twin && !g.local_.contains b.rank && (s.twinsHeld g).contains b.rank
    let binds := s.mill.binds.filter fun b => !(b.slot == slot && b.twin && s.mill.binds.any fun q => turns q && q.rank == b.rank)
    { s with mill := { s.mill with binds := binds.map fun b => if turns b then { b with twin := true } else b } }

/-- INSTALL (R113, R145, R150): the reason it is refused with, or the record. Two reasons the spec leaves to choose (DESIGN CHOICE, log entry 71): 5
where an own rank's table entry names another `vf` than CMN_GRP_ARG3, which R113 lists under 4 and R150 under 5; 6 where the slot holds a record of
another group. -/
def State.install (s : State) : State :=
  let slot := s.rd F.CMN_GRP_SEL_slot
  let id := s.rd F.CMN_GRP_ARG0_group_id
  let gen := s.rd F.CMN_GRP_ARG0_generation
  let n := s.rd F.CMN_GRP_ARG1_size
  let vf := s.rd F.CMN_GRP_ARG3_vf
  let a := s.rd F.CMN_GRP_ARG2_rank_a
  let b := s.rd F.CMN_GRP_ARG2_rank_b
  let two := s.rd F.CMN_GRP_ARG3_rank_b_valid == 1
  let enc := s.rd F.CMN_GRP_ARG3_enc == 1
  let tx := s.rd F.CMN_GRP_KEYS_tx_slot
  let rx := s.rd F.CMN_GRP_KEYS_rx_slot
  let old : Option Group := s.group? slot
  let raw := (List.range n).map fun i => Tbl.getD s.cmn.window i 0
  let ms : List Member := raw.map memberOf
  let own := if two then [a, b] else [a]
  let early : Option Nat := match old with
    | some g =>
      if g.id ≠ id then some 6 else if gen ≠ (g.gen + 1) % 65536 then some 2
      else if g.state = GState.installed then some 6 else if g.state = GState.active ∧ s.opsOpen slot ≠ 0 then some 3 else none
    | none => none
  if s.rd F.CMN_GRP_STATUS_busy = 1 then s.grpBusy
  else if s.cmn.groups.any fun q => q.1 != slot && q.2.id == id then s.grpResult 1
  else match early with
  | some r => s.grpResult r
  | none =>
    if n = 0 ∨ 65536 < n ∨ badTable ms raw then s.grpResult 4
    else if own.any (fun r => decide (n ≤ r) || (ms.getD r ⟨0, 0, 0, 0, false⟩).dev != s.devAddr || (ms.getD r ⟨0, 0, 0, 0, false⟩).vf != vf)
        ∨ (two ∧ a = b) ∨ ((List.range n).filter fun r => (ms.getD r ⟨0, 0, 0, 0, false⟩).dev == s.devAddr).length ≠ own.length then s.grpResult 5
    else if enc ∧ !s.keysOk vf tx rx then s.grpResult 9
    else
      let reformed : Bool := match old with
        | some g => g.state == GState.reforming || g.state == GState.voiding
        | none => false
      let survivors : List Nat := match old with
        | some g => ((List.range g.n).filter fun r => !g.lost.contains r).map fun r => (g.member r).dev
        | none => ms.map (·.dev)
      let s := if reformed then (s.cmn.colls.filter fun c => c.slot == slot).foldl (fun (s : State) (c : Coll) => s.modColl c.op fun c =>
        { c with phase := .held, seq := stepKey c.num }) s else s
      let g : Group :=
        { id := id, gen := gen, vf := vf, enc := enc, txSlot := tx, rxSlot := rx, members := ms, local_ := if two ∧ b < a then [b, a] else own,
          state := if reformed then .reforming else .installed, fresh := true, reformed := old.isSome, activating := false,
          lastStep := (old.map (·.lastStep)).getD 0, seq := 0, nseq := 1, due := [], early := [], gaths := [], bells := [], ended := [], lost := [],
          since := (old.map (·.since)).getD 0, record := old.bind (·.record), unsent := [], copies := (old.map (·.copies)).getD [], probeRef := [], recon := [],
          expect := if old.isSome then (List.range n).filter fun r => survivors.contains (ms.getD r ⟨0, 0, 0, 0, false⟩).dev else [] }
      (((s.setGroup slot g).turnBinds slot).bump F.CMN_REFORMS).grpResult 0

/-- Closes the connections of a record that are not of a generation (R118). -/
def State.closeCmn (s : State) (slot : Nat) (keep : Option Nat) : State :=
  ((s.cmnConns slot).filter fun q => some q.2.epoch != keep || q.2.svc == 3).foldl (fun s q =>
    match q.2.state with
    | .open_ => (s.setConn q.1 { q.2 with state := .closing }).tryClose q.1
    | .closing => s
    | _ => s.freeConn q.1 none) s

/-- The devices this device's ranks reach their parents on: one connection for each edge that leaves the device (R118). -/
def State.parentEdges (s : State) (g : Group) : List Nat :=
  g.local_.filterMap fun r => if r = 0 then none else
    let d := (g.member (parentRank r)).dev
    if d = s.devAddr then none else some d

/-- Every edge of the notice tree at this device: the device at its other end. -/
def State.treeEdges (s : State) (g : Group) : List Nat :=
  s.parentEdges g ++ (g.local_.map fun r => ((childRanks g.n r).map fun c => (g.member c).dev).filter (· != s.devAddr)).flatten

/-- Opens the coordination connections to the parents; none where one cannot be had. -/
def State.openParents (s : State) (slot : Nat) (g : Group) : List Nat → Option State
  | [] => some s
  | d :: t => match s.cmnOpen slot g 2 d with
    | some (_, s) => s.openParents slot g t
    | none => none

/-- ACTIVATE (R118, R150): refused for want of a prefix or of a connection, else the PROBEs go out and the command runs. -/
def State.activate (s : State) : State :=
  let slot := s.rd F.CMN_GRP_SEL_slot
  if s.rd F.CMN_GRP_STATUS_busy = 1 then s.grpBusy
  else match s.group? slot with
  | none => s.grpResult 6
  | some g =>
    if !g.fresh then s.grpResult 6
    else if 2 ≤ g.n ∧ !s.hasPrefix then s.grpResult 8
    else
      let s1 := s.closeCmn slot (some g.gen)
      match s1.openParents slot g (s1.parentEdges g) with
      | none => s.grpResult 8
      | some s => ((s.setGroup slot { g with activating := true }).wr F.CMN_GRP_STATUS_busy 1).wr F.CMN_GRP_STATUS_done 0 |>.wr F.CMN_GRP_STATUS_refused 0

/-- Whether every coordination connection of the device for a group is OPEN. -/
def State.coordOpen (s : State) (slot : Nat) (g : Group) : Bool :=
  let es := s.treeEdges g
  es.all fun d => decide ((es.filter (· == d)).length ≤
    ((s.cmnConns slot).filter fun q => q.2.svc == 2 && q.2.peerDev == d && q.2.epoch == g.gen && q.2.state == .open_).length)

/-- What a re-formed group's held operations do once it is ACTIVE (R146): plain operations end; each rank of a held step sends RECONCILE. -/
def State.afterReform (s : State) (slot : Nat) (g : Group) : State :=
  let held := s.cmn.colls.filter fun c => c.slot == slot && c.phase == .held
  let s := (held.filter fun c => !c.isStep).foldl (fun s c => s.endColl c Status.groupReformed 0 0 0 0) s
  let steps := ((held.filter fun c => c.isStep).map (·.key)).foldr insertNat []
  let mine := reconBodies (steps.map fun k => (k, ((held.find? fun c => c.isStep && c.key == k).map (·.committed)).getD 0))
  g.local_.foldl (fun s r => mine.foldl (fun s q => s.ownReport slot r q.1 q.2) s) s

/-- ACTIVATE completes (R118): every coordination connection is OPEN. -/
def State.activateDone (s : State) (slot : Nat) : State :=
  match s.group? slot with
  | none => s
  | some g =>
    if !g.activating ∨ !s.coordOpen slot g then s
    else
      let s := (s.setGroup slot { g with state := .active, fresh := false, activating := false, reformed := false }).grpResult 0
      if g.reformed then s.afterReform slot g else s

/-- ACTIVATE runs out of time (R118): refused, the record stays INSTALLED. -/
def State.activateTimeout (s : State) (slot : Nat) : State :=
  match s.group? slot with
  | none => s
  | some g => if g.activating ∧ !s.coordOpen slot g then ((s.setGroup slot { g with activating := false }).closeCmn slot none).grpResult 8 else s

/-- Frees a group record with its connections and bindings (R114, R151). -/
def State.dissolveGroup (s : State) (slot : Nat) : State :=
  let s := s.closeCmn slot none
  { s with cmn := { s.cmn with groups := Tbl.erase s.cmn.groups slot }, mill := { s.mill with binds := s.mill.binds.filter fun b => b.slot != slot } }

/-- DISSOLVE (R151). -/
def State.dissolve (s : State) : State :=
  let slot := s.rd F.CMN_GRP_SEL_slot
  if s.rd F.CMN_GRP_STATUS_busy = 1 then s.grpBusy
  else match s.group? slot with
  | none => s.grpResult 6
  | some _ => if s.opsOpen slot ≠ 0 then s.grpResult 3 else (s.dissolveGroup slot).grpResult 0

/-- INSTALL written to CMN_GRP_CMD. -/
def execInstall (s : State) : Host.Outcome State Fault Refusal := act s (asManager false fun s => s.install)

/-- ACTIVATE written to CMN_GRP_CMD. -/
def execActivate (s : State) : Host.Outcome State Fault Refusal := act s (asManager false fun s => s.activate)

/-- ACTIVATE_COMPLETE. -/
def execActivateComplete (slot : Nat) (s : State) : Host.Outcome State Fault Refusal := act s fun s => (s.activateDone slot).cmnRun

/-- ACTIVATE_TIMEOUT. -/
def execActivateTimeout (slot : Nat) (s : State) : Host.Outcome State Fault Refusal := act s fun s => s.activateTimeout slot

/-- DISSOLVE written to CMN_GRP_CMD. -/
def execDissolve (s : State) : Host.Outcome State Fault Refusal := act s (asManager false fun s => s.dissolve)

/-! ### Timers (R118, R141, R143, R195) -/

/-- A chunk connection that has not opened in 1,000 ms (R118): its peer's ranks are lost. -/
def State.chunkConnTimeout (s : State) (c : Nat) : State :=
  match s.conn? c with
  | some k =>
    if k.svc = 3 ∧ k.state = .armed then
      match s.group? k.slot with
      | some g => ((s.freeConn c none).seeLoss k.slot (g.ranksOf k.peerDev)).cmnRun
      | none => s.freeConn c none
    else s
  | none => s

/-- CHUNK_CONN_TIMEOUT. -/
def execChunkConnTimeout (conn : Nat) (s : State) : Host.Outcome State Fault Refusal := act s fun s => s.chunkConnTimeout conn

/-- 100 µs without sending on a coordination connection while an operation is open on its group (R195). -/
def State.keepCoord (s : State) (c : Nat) : State :=
  match s.conn? c with
  | some k =>
    if k.svc = 2 ∧ k.state = .open_ ∧ s.opsOpen k.slot ≠ 0 then
      match s.group? k.slot with
      | some g => s.sendMsg c 0 (.coord 14 g.gen 0 g.id g.me 0) false [] none
      | none => s
    else s
  | none => s

/-- COORD_KEEPALIVE_TIMER. -/
def execCoordKeepaliveTimer (conn : Nat) (s : State) : Host.Outcome State Fault Refusal := act s fun s => s.keepCoord conn

/-- The lowest rank whose report is missing at the bellwether: itself or a child that has not reported all that others have reported; itself where
nothing is being folded (R141). -/
def State.missingRank (s : State) (slot key : Nat) : Nat :=
  match s.group? slot with
  | none => 0
  | some g =>
    let open_ := g.gaths.filter fun a => a.rank == 0 && a.key == key
    ((0 :: childRanks g.n 0).find? fun r => open_.any fun a => !a.got.any fun q => q.1 == r).getD 0

/-- The budget of an operation at the bellwether has run out before its commit (R141). -/
def State.straggle (s : State) (slot key : Nat) : State :=
  match (s.group? slot).bind fun g => (Tbl.get? g.bells key).map fun b => (g, b) with
  | some (g, b) =>
    if b.isOver ∨ g.state = .reforming then s
    else (s.bellAbandon slot key Status.deadlineMissed 4 (s.missingRank slot key)).cmnRun
  | none => s

/-- STRAGGLE_EXPIRY: a group slot and an operation's number. -/
def execStraggleExpiry (slot op : Nat) (s : State) : Host.Outcome State Fault Refusal := act s fun s => s.straggle slot (s.opKey slot op)

/-- No INSTALL of the next generation has come in time (R143 step 4). -/
def State.reformExpired (s : State) (slot : Nat) : State :=
  match s.group? slot with
  | none => s
  | some g =>
    if g.state ≠ .reforming ∨ g.fresh then s
    else
      let r := g.lost.foldl min (g.lost.headD 0)
      let held := s.cmn.colls.filter fun c => c.slot == slot && c.phase == .held
      let s := s.setGroup slot { g with state := .active, lost := [] }
      held.foldl (fun s c => s.endColl c Status.peerLost 0 5 r (if c.isStep then c.bundlesDone else 0)) s

/-- REFORM_WAIT_EXPIRY. -/
def execReformWaitExpiry (slot : Nat) (s : State) : Host.Outcome State Fault Refusal := act s fun s => s.reformExpired slot

/-- A chunk that waits for a free fold queue binds once one is free (R108). -/
def execChunkBind (op rank bundle chunk : Nat) (s : State) : Host.Outcome State Fault Refusal :=
  act s fun s => (s.bindChunk op rank bundle chunk).cmnRun

end Sys2Proof.Machine
end

