-- ==== Sys2Proof/Machine/Spares.lean ====
section
/-!
DEFINITION. The mapping registers (R32): a spare is mapped in a retired unit's place in service (R109, R182, R403).
-/

namespace Sys2Proof.Machine

/-- A write of a mapping register (R109, R182, R403): refused where the unit is not retired, where the spare is no healthy spare, where another
spare serves in the unit's place already or the active count is that of R2, for a spare is never capacity beyond it (R2, R32), and while a mapping
still runs, which goes on undisturbed (R515). -/
def State.mapSpare (s : State) (res unit spare : Nat) : State :=
  match unitField res with
  | none => s
  | some f =>
    let (fu, fs, fg) := spareMapFields res
    let n := unitsBuilt res
    let off := if res = 7 then 0x60 else 0x10
    if s.rd fg = 1 ∨ n ≤ unit ∨ n ≤ spare ∨ s.rd f unit ≠ 2 ∨ s.rd f spare ≠ 1 ∨ s.built.defects.contains (res, spare)
        ∨ (s.servedBy res unit).isSome ∨ activeFigure res ≤ s.unitsActive res f then s.refuseWrite (resBlock res) off
    else
      let s := ((s.wr fu unit).wr fs spare).wr fg 1
      (s.wr f 3 spare).logEv (resBlock res) .stateChange 3 spare spare

/-- The engine reset of a spare has ended: it serves in the retired unit's place (R109, R401). -/
def State.spareMapped (s : State) (res : Nat) : State :=
  match unitField res with
  | none => s
  | some f =>
    let (fu, fs, fg) := spareMapFields res
    if s.rd fg = 0 then s
    else
      let unit := s.rd fu
      let spare := s.rd fs
      let s := ((s.wr f 0 spare).wr fg 0).noteMapped res unit spare
      let s := if res = 7 then s.assignEgress else s
      (s.logEv (resBlock res) .stateChange 0 spare spare).countMapped res unit spare

/-- TALLY_SPARE_MAP: a write of TAL_SPARE_MAP with `go` (R109). -/
def execTallySpareMap (retired spare : Nat) (s : State) : Host.Outcome State Fault Refusal := act s (asManager false fun s => s.mapSpare 5 retired spare)

/-- MILL_SPARE_MAP: a write of MIL_SPARE_MAP with `go` (R182). -/
def execMillSpareMap (retired spare : Nat) (s : State) : Host.Outcome State Fault Refusal := act s (asManager false fun s => s.mapSpare 6 retired spare)

/-- CPH_SPARE_MAP: a write of CPH_SPARE_MAP with `go` (R403). -/
def execCphSpareMap (retired spare : Nat) (s : State) : Host.Outcome State Fault Refusal := act s (asManager false fun s => s.mapSpare 7 retired spare)

end Sys2Proof.Machine
end

