-- ==== Sys2Proof/Machine/CmnRows.lean ====
section
/-!
DEFINITION. The rows of the commons, the tally and the mill whose messages settle at once: COLL, STEP, MILL_BLOCK_DONE, NORM_SYNC and its
result, SPARE_MAP_DONE.
-/

namespace Sys2Proof.Machine

/-- COLL. -/
def execColl (key count : Nat) (s : State) : Host.Outcome State Fault Refusal :=
  onGroup key count 0x10 s fun s f h slot g => (s.collStart f h slot g).cmnRun

/-- STEP. -/
def execStep (key count : Nat) (s : State) : Host.Outcome State Fault Refusal :=
  onGroup key count 0x11 s fun s f h slot g => (s.stepEntry f h slot g).cmnRun

/-- MILL_BLOCK_DONE. -/
def execMillBlockDone (engine : Nat) (s : State) : Host.Outcome State Fault Refusal :=
  actOn (decide (engine < 18)) s fun s => (s.blockDone engine).cmnRun

/-- NORM_SYNC. -/
def execNormSync (op copy bundle : Nat) (s : State) : Host.Outcome State Fault Refusal :=
  act s fun s => (s.normSync op copy bundle).cmnRun

/-- NORM_SYNC_RESULT: the four binary64 results of an operation's scope. -/
def execNormSyncResult (op scope bundle n0 n1 n2 n3 : Nat) (s : State) : Host.Outcome State Fault Refusal :=
  act s fun s => (s.normResult op scope bundle [n0, n1, n2, n3]).cmnRun

/-- SPARE_MAP_DONE: the resource's code in R31. A mill engine that has joined takes blocks at once. -/
def execSpareMapDone (res : Nat) (s : State) : Host.Outcome State Fault Refusal :=
  act s fun s => ((s.spareMapped res).deal 18).cmnRun

end Sys2Proof.Machine
end

