-- ==== Sys2Proof/Machine/Roce.lean ====
section
/-!
DEFINITION. The RoCEv2-compatible subset (R227): requests in order on one path, go-back, RNR retries, congestion notification.
-/

namespace Sys2Proof.Machine

/-! ### Acknowledge syndromes (InfiniBand's, PRESUMED, log entry 14: the spec names them and gives no codes) -/

abbrev synAck : Nat := 0x1F
abbrev synRnr : Nat := 0x21
abbrev synSeq : Nat := 0x60
abbrev synInvalid : Nat := 0x61
abbrev synAccess : Nat := 0x62

/-! ### Sending -/

/-- The request that a RoCEv2 packet of a connection is, with its operation; none for acknowledgements, CNPs and what answers no entry. -/
def State.roceReq (s : State) (k : Conn) (p : RocePacket) : Option (RoceSent × Op) :=
  (k.roceSent.find? fun x => x.pkt.psn == p.psn).bind fun x => (x.op.bind s.op?).map fun o => (x, o)

/-- The curfew class of a RoCEv2 packet of a connection: its operation's, else 7. -/
def State.roceClass (s : State) (k : Conn) (p : RocePacket) : Nat :=
  match s.roceReq k p with
  | some (_, o) => o.cls
  | none => 7

/-- The stamp of a RoCEv2 packet on a port: its operation's clock there at the end of its bytes (R265). -/
def State.roceStamp (s : State) (k : Conn) (p : RocePacket) (port : Nat) : Nat :=
  match s.roceReq k p with
  | some (x, o) => opStamp o port x.off s.now
  | none => s.now

/-- Queues a RoCEv2 packet at the connection's one port; where that is not UP its timer runs (R215). -/
def State.sendRocePkt (s : State) (c : Nat) (k : Conn) (p : RocePacket) (timer : Bool) : State :=
  let cls := s.roceClass k p
  match s.connPort c { k with spray := 0 } cls with
  | (some port, s) =>
    s.pushFrame { port := port, cls := cls, tc := s.trafficClass cls, stamp := s.roceStamp k p port, len := roceBytes p (k.peerIp / 2 ^ 32 == 0xFFFF),
                  pkt := { srcIp := p.srcIp, dstIp := k.peerIp, dscp := s.dscp cls, psn := p.psn }, transit := false, tag := none,
                  stomp := false, conn := if timer then some c else none, at_ := s.now, roce := some p, sealing := none,
                  vf := some k.vf, start := ((s.roceReq k p).map (·.2.start)).getD 0 }
  | (none, s) => if timer then s.runRoceTimer c p.psn else s

/-- A RoCEv2 packet of a connection. -/
def State.roceOf (s : State) (k : Conn) (psn : Nat) (ackReq : Bool) (op : RoceOp) (data : List Byte) : RocePacket :=
  { srcIp := s.ownIp k.peerIp, qp := k.peerConn, psn := psn % 2 ^ 24, pkey := 0xFFFF, ackReq := ackReq, op := op, payload := data,
    icrcOk := true, ce := false }

/-- Payload bytes of RoCEv2 packets sent and not acknowledged. -/
def Conn.roceInFlight (k : Conn) : Nat := sumNat (k.roceSent.map fun x => x.pkt.payload.length)

/-- Whether a request is an RDMA READ. -/
def RoceSent.isRead (x : RoceSent) : Bool :=
  match x.pkt.op with
  | .readReq .. => true
  | _ => false

/-- Releases queued requests in order while the window has room (R216, R227), no RNR wait holds them and, for a READ, fewer than 16 are
outstanding. -/
def State.rocePump (s : State) (c : Nat) : Nat → State
  | 0 => s
  | n + 1 =>
    match s.conn? c with
    | none => s
    | some k =>
      match k.roceQueue with
      | [] => s
      | x :: rest =>
        if !k.rnrWait ∧ (k.state = .open_ ∨ k.state = .closing) ∧
            (k.roceInFlight = 0 ∨ k.roceInFlight + x.pkt.payload.length ≤ k.cwnd) ∧
            (!x.isRead ∨ (k.roceSent.filter RoceSent.isRead).length < 16) then
          let p := { x.pkt with psn := k.nextPsn % 2 ^ 24 }
          let k := { k with roceQueue := rest, nextPsn := (k.nextPsn + x.span) % 2 ^ 24, roceSent := k.roceSent ++ [{ x with pkt := p }],
                            reads := k.reads.map fun r => if some r.op == x.op && r.psn == 2 ^ 32 then { r with psn := p.psn } else r }
          ((s.setConn c k).sendRocePkt c k p true).rocePump c n
        else s

/-- Queues requests and releases what may go. -/
def State.roceQueuePkts (s : State) (c : Nat) (l : List RoceSent) : State :=
  match s.conn? c with
  | none => s
  | some k => (s.setConn c { k with roceQueue := k.roceQueue ++ l }).rocePump c (k.roceQueue.length + l.length)

/-- The packets of a SEND or WRITE message (R227): First, Middle, Last, or Only. -/
def State.roceMsg (s : State) (k : Conn) (id : Nat) (write : Option (Nat × Nat)) (data : List Byte) : List RoceSent :=
  let pieces := cutPayload k.mtu data
  pieces.map fun q =>
    let first := q.1 == 0
    let last := decide (data.length ≤ q.1 + k.mtu)
    let op := match write with
      | some (ra, rk) => RoceOp.write first last ra rk data.length
      | none => RoceOp.send first last
    ⟨s.roceOf k 0 last op q.2, 1, some id, last, 0, false, q.1 + q.2.length, 0⟩

/-- Sends everything not acknowledged again, in order, from a PSN on (R227: go back). -/
def State.goBack (s : State) (c psn : Nat) (retx : Bool) : State :=
  match s.conn? c with
  | none => s
  | some k =>
    let again := k.roceSent.filter fun x => !serialOlder 24 x.pkt.psn psn
    let s := s.setConn c { k with
      rnrWait := false
      roceSent := k.roceSent.map fun x => if serialOlder 24 x.pkt.psn psn then x else { x with tries := x.tries + b2n retx, timer := false } }
    again.foldl (fun s x => (if retx then (s.bump F.BXT_RETX).evt 2 else s).sendRocePkt c k x.pkt true) s

/-! ### The requester -/

/-- A positive acknowledgement up to a PSN: messages end, the window grows (R216). -/
def State.roceAcked (s : State) (c : Nat) (k : Conn) (psn : Nat) : State :=
  let cov := fun (x : RoceSent) => !serialOlder 24 psn ((x.pkt.psn + x.span - 1) % 2 ^ 24)
  let done := k.roceSent.filter cov
  let bytes := sumNat (done.map fun x => x.pkt.payload.length)
  let s := s.setConn c { k with
    roceSent := k.roceSent.filter fun x => !cov x
    rnr := 0
    cwnd := clampCwnd k.mtu (k.cwnd + k.mtu * bytes / max 1 k.cwnd) }
  let s := done.foldl (fun s x => match x.op with
    | some id => if x.last && !x.isRead then s.msgOk id 0 (((s.op? id).map (·.length)).getD 0) else s
    | none => s) s
  (s.rocePump c 4096).tryClose c

/-- Ends the operation of the oldest unacknowledged request with a status (R227). -/
def State.roceFail (s : State) (c : Nat) (k : Conn) (psn st : Nat) : State :=
  match k.roceSent.find? fun x => x.pkt.psn == psn with
  | none => s
  | some x =>
    let s := s.setConn c { k with
      roceSent := k.roceSent.filter fun y => y.op != x.op
      roceQueue := k.roceQueue.filter fun y => y.op != x.op
      reads := k.reads.filter fun r => some r.op != x.op }
    let s := match x.op with
      | some id => (s.markRemote id 0).endOp id st 0
      | none => s
    s.rocePump c 4096

/-- An Acknowledge (R227). -/
def State.onRoceAck (s : State) (c : Nat) (k : Conn) (psn syn : Nat) : State :=
  if syn < 0x20 then s.roceAcked c k psn
  else
    let s := s.roceAcked c k ((psn + 2 ^ 24 - 1) % 2 ^ 24)
    match s.conn? c with
    | none => s
    | some k =>
      if syn < 0x40 then
        match k.roceSent.find? fun x => x.pkt.psn == psn with
        | some x => (match x.op with
            | some id => s.recordCause id 4
            | none => s).setConn c { k with rnrWait := true }
        | none => s
      else if syn = synSeq then s.goBack c psn true
      else s.roceFail c k psn Status.accessRemote

/-- A RoCEv2 READ response (R218, R227): placed in order at the local buffer. -/
def State.onRoceResp (s : State) (c : Nat) (k : Conn) (p : RocePacket) : State :=
  match k.reads.find? fun r => !serialOlder 24 p.psn r.psn && decide ((p.psn + 2 ^ 24 - r.psn) % 2 ^ 24 < max 1 (ceilDiv r.len k.mtu)) with
  | none => s
  | some r =>
    let i := (p.psn + 2 ^ 24 - r.psn) % 2 ^ 24
    match s.op? r.op with
    | none => s
    | some o =>
      if i ≠ r.got.length then s
      else match s.lookupRange o.part o.vf o.tag (r.laddr + i * k.mtu) p.payload.length .write with
      | (.error (.absent va level), s) => (s.raiseFault (localRec o.part o.vf o.tag va XReason.notPresent level .write)).recordCause r.op 5
      | (.error (.viol va reason level), s) =>
        (s.raiseViolation (localRec o.part o.vf o.tag va reason level .write)).endOp r.op Status.accessLocal 0
      | (.error (.detached _), s) => s.endOp r.op Status.detached 0
      | (.error (.lost _), s) => s.killOp r.op Status.targetLost 0
      | (.ok locs, s) =>
        let s := (s.writeLocs o.vf o.tag (some r.op) locs p.payload).modOp r.op fun o =>
          { o with wrote := lastWrites locs o.wrote, bytes := o.bytes + p.payload.length }
        if readWhole k.mtu r.len (i :: r.got) then
          (((s.modConn c fun k => { k with
            reads := k.reads.filter fun x => x.op != r.op
            roceSent := k.roceSent.filter fun x => x.op != some r.op }).msgOk r.op 0 0).rocePump c 4096).tryClose c
        else s.modConn c fun k => { k with reads := k.reads.map fun x => if x.op == r.op then { x with got := i :: x.got } else x }

/-- A received CNP cuts the window as CE marks do (R216, R227), and the connection's operations record what held them (R263). A CNP carries no
count of marked packets: the part c/k that moves `alpha` is free (log entry 9). -/
def State.onCnp (s : State) (c : Nat) (k : Conn) : State :=
  let (x, s) := s.drawBelow (2 ^ 32 + 1)
  let alpha := alphaStep k.alpha x (s.rd F.BXT_CC_g_shift)
  if (k.srtt.getD (10 * us)) < s.now - k.lastCut then
    let s := s.setConn c { k with alpha := alpha, cwnd := clampCwnd k.mtu (k.cwnd - k.cwnd * alpha / 2 ^ 33), lastCut := s.now }
    (s.opsOfConn c).foldl (fun s id => s.recordCause id 2) s
  else s.setConn c { k with alpha := alpha }

/-! ### The responder -/

/-- Sends an Acknowledge. -/
def State.sendRoceAck (s : State) (c : Nat) (k : Conn) (psn syn : Nat) : State :=
  s.sendRocePkt c k (s.roceOf k psn false (.ack syn k.done) []) false

/-- Sends a CNP on a CE mark, at most one in 50 us (R227). -/
def State.sendCnp (s : State) (c : Nat) (k : Conn) : State :=
  match k.cnpAt with
  | some t => if s.now < t + 50 * us then s else go s
  | none => go s
where
  go (s : State) : State :=
    (s.modConn c fun k => { k with cnpAt := some s.now }).sendRocePkt c k (s.roceOf k 0 false .cnp []) false

/-- A request that cannot be placed now: RNR NAK for a missing entry or a translation miss, Remote Access Error for a violation. -/
def State.roceStop (s : State) (c : Nat) (k : Conn) (p : RocePacket) (tag rkey : Nat) (acc : AccKind) : Stop → State
  | .absent va level =>
    let r := s.remoteRec c k { psn := p.psn } tag rkey va XReason.notPresent level acc
    (s.raiseFault r).sendRoceAck c k p.psn synRnr
  | .viol va reason level =>
    (s.raiseViolation (s.remoteRec c k { psn := p.psn } tag rkey va reason level acc)).sendRoceAck c k p.psn synAccess
  | .detached _ => s
  | .lost _ => s

/-- Takes the expected PSN. -/
def Conn.roceNext (k : Conn) (n : Nat) : Conn := { k with base := (k.base + n) % 2 ^ 24, seqNak := false }

/-- A piece of a message is placed at the responder; the last one completes it, after its flushes (R253). -/
def State.rocePlaced (s : State) (c : Nat) (p : RocePacket) (x : RoceRx) (locs : List (Loc × Nat)) (last : Bool) : State :=
  let x := { x with off := x.off + p.payload.length, wrote := lastWrites locs x.wrote, active := !last }
  let s := s.modConn c fun k => { k.roceNext 1 with
    roceRx := if last then { x with ssn := x.ssn + b2n x.isSend, recvOp := none, wrote := [], off := 0 } else x
    done := if last then (k.done + 1) % 2 ^ 24 else k.done }
  if !last then (match s.conn? c with | some k => if p.ackReq then s.sendRoceAck c k p.psn synAck else s | none => s)
  else
    let s := match x.recvOp with
      | some id => (s.modOp id fun o => { o with wrote := x.wrote }).endRecv id Status.ok x.off 0 x.ssn
      | none => s
    if x.wrote.isEmpty then (match s.conn? c with | some k => s.sendRoceAck c k p.psn synAck | none => s)
    else s.flushLinks x.wrote (.msg c p.psn)

/-- A WRITE piece. -/
def State.roceWrite (s : State) (c : Nat) (k : Conn) (p : RocePacket) (first last : Bool) (raddr rkey len : Nat) : State :=
  let x := if first then { k.roceRx with active := true, isSend := false, recvOp := none, raddr := raddr, rkey := rkey, len := len, off := 0,
                                         wrote := [] } else k.roceRx
  if x.isSend ∨ !x.active ∨ x.len < x.off + p.payload.length then s.sendRoceAck c k p.psn synInvalid
  else match s.remoteRange k x.rkey (x.raddr + x.off) p.payload.length .write with
  | (.ok locs, s) => (s.writeLocs k.vf (x.rkey / 2 ^ 20) none locs p.payload).rocePlaced c p x locs last
  | (.error e, s) => s.roceStop c k p (x.rkey / 2 ^ 20) x.rkey .write e

/-- A SEND piece. -/
def State.roceSend (s : State) (c : Nat) (k : Conn) (p : RocePacket) (first last : Bool) : State :=
  let x := k.roceRx
  let (id, s) := if first then s.takeRecv k x.ssn else (x.recvOp, s)
  match id.bind fun i => (s.op? i).map fun o => (i, o) with
  | none =>
    if first then s.sendRoceAck c k p.psn synRnr else s.sendRoceAck c k p.psn synInvalid
  | some (id, o) =>
    let x := if first then { x with active := true, isSend := true, recvOp := some id, off := 0, wrote := [] } else x
    if fieldLE o.desc 24 4 < x.off + p.payload.length then
      ((s.modConn c fun k => { k with roceRx := { x with active := false, recvOp := none, ssn := x.ssn + 1 } }).endRecv id
        Status.lengthExceeded (x.off + p.payload.length) 0 x.ssn).sendRoceAck c k p.psn synInvalid
    else match s.lookupRange k.part k.vf o.tag (fieldLE o.desc 16 8 + x.off) p.payload.length .write with
    | (.ok locs, s) => (s.writeLocs k.vf o.tag none locs p.payload).rocePlaced c p x locs last
    | (.error e, s) =>
      let s := if first then (match k.recvKey with
        | some r => s.modRing r fun g => { g with recvs := Tbl.set g.recvs x.ssn id }
        | none => s) else s
      s.roceStop c k p o.tag 0 .write e

/-- The READ response packets of a request (R227). -/
def State.sendRoceResp (s : State) (c : Nat) (k : Conn) (p : RocePacket) (locs : List (Loc × Nat)) : State :=
  let data := s.readLocs locs
  (cutPayload k.mtu data).foldl (fun s q =>
    s.sendRocePkt c k (s.roceOf k (p.psn + q.1 / k.mtu) false
      (.readResp (q.1 == 0) (decide (data.length ≤ q.1 + k.mtu))) q.2) false) s

/-- A READ request: a miss gets RNR NAK. Data on a host link is read first, and what comes behind the request waits for it, so that the answers go in
order (R227, R312). -/
def State.roceRead (s : State) (c : Nat) (k : Conn) (p : RocePacket) (raddr rkey len : Nat) : State :=
  match s.remoteRange k rkey raddr len .read with
  | (.error e, s) => s.roceStop c k p (rkey / 2 ^ 20) rkey .read e
  | (.ok locs, s) =>
    match s.badFor k.part none locs with
    | (true, s) => s.sendRoceAck c k p.psn synInvalid
    | (false, s) =>
      let hosts := hostLocs locs
      let s := if p.psn = k.base then
          s.modConn c fun k => { k.roceNext (max 1 (ceilDiv len k.mtu)) with done := (k.done + 1) % 2 ^ 24 }
        else s
      if hosts.isEmpty then s.sendRoceResp c k p locs else s.issueReads (.roce p locs) k.vf (rkey / 2 ^ 20) hosts

/-- The context of a RoCEv2 arrival: true where it is resident; else the packet waits for it, or is dropped, since NOT_READY does not apply to
such a connection (R222, R227). -/
def State.needRoceCtx (s : State) (p : RocePacket) : Bool × State :=
  if s.bxt.resident.contains p.qp then (true, (s.bump F.CTX_HIT).usedCtx p.qp)
  else
    let s := s.bump F.CTX_MISS
    if s.fetchBytes + roceBytes p false ≤ 2 ^ 21 then (false, { s with bxt := { s.bxt with roceFetching := s.bxt.roceFetching ++ [p] } })
    else (false, s)

/-- A RoCEv2 packet on an end whose context is at hand (R227). -/
def State.takeRoce (s : State) (p : RocePacket) : State :=
  match s.conn? p.qp with
  | none => s.bump F.BXT_INVALID
  | some k =>
    if !k.roce ∨ !p.icrcOk ∨ p.pkey ≠ 0xFFFF ∨ p.op = .other ∨ k.state = .error then s.bump F.BXT_INVALID
    else
      let s := if p.ce then (s.bump F.BXT_CE_RCVD).sendCnp p.qp k else s
      let s := s.hear k.peerDev
      match p.op with
      | .ack syn _ => s.onRoceAck p.qp k p.psn syn
      | .cnp => s.onCnp p.qp k
      | .readResp .. => s.onRoceResp p.qp k p
      | .other => s
      | op =>
        if s.hpt.reads.any fun r => waitsFor p.qp r.who then
          s.modConn p.qp fun k => { k with roceRx := { k.roceRx with behind := k.roceRx.behind ++ [p] } }
        else if serialOlder 24 p.psn k.base then
          match op with
          | .readReq ra rk n => s.roceRead p.qp k p ra rk n
          | _ => s.sendRoceAck p.qp k ((k.base + 2 ^ 24 - 1) % 2 ^ 24) synAck
        else if p.psn ≠ k.base then
          if k.seqNak then s
          else (s.modConn p.qp fun k => { k with seqNak := true }).sendRoceAck p.qp k k.base synSeq
        else match op with
        | .write f l ra rk n => s.roceWrite p.qp k p f l ra rk n
        | .send f l => s.roceSend p.qp k p f l
        | .readReq ra rk n => s.roceRead p.qp k p ra rk n
        | _ => s

/-- What came behind a READ whose host data is no longer awaited is taken, as far as the next READ that waits (R227). -/
def State.takeBehind (s : State) (c : Nat) : State :=
  match s.conn? c with
  | none => s
  | some k => k.roceRx.behind.foldl State.takeRoce (s.modConn c fun k => { k with roceRx := { k.roceRx with behind := [] } })

/-- The host data of a READ has come: it is answered, and what came behind it is taken (R227). -/
def State.roceServed (s : State) (p : RocePacket) (locs : List (Loc × Nat)) : State :=
  match s.conn? p.qp with
  | none => s
  | some k => (s.sendRoceResp p.qp k p locs).takeBehind p.qp

/-- A RoCEv2 packet arrives (R222, R227). -/
def State.rxRoce (s : State) (p : RocePacket) : State :=
  if (s.conn? p.qp).any (·.roce) then
    match s.needRoceCtx p with
    | (true, s) => s.takeRoce p
    | (false, s) => s
  else s.bump F.BXT_INVALID

/-- The RNR wait ends and the request goes again; the RNR retry count is 7, unlimited (R227: no entry sets another). -/
def State.rnrOver (s : State) (c : Nat) : State :=
  match s.conn? c with
  | none => s
  | some k =>
    match k.rnrWait, k.roceSent with
    | true, x :: _ => (s.setConn c { k with rnr := k.rnr + 1 }).goBack c x.pkt.psn false
    | _, _ => s

/-- A RoCEv2 retransmit timer expires (R213, R227): go back, or the connection fails. -/
def State.roceTimeout (s : State) (c : Nat) (k : Conn) : List Nat × State :=
  match k.roceSent with
  | [] => ([], s)
  | x :: _ =>
    if !x.timer then ([], s)
    else
      let s := s.setConn c (timeoutWindow k s.now)
      if x.tries < k.retryLimit then ([], s.goBack c x.pkt.psn true)
      else if s.heardSince k.peerDev x.since then ([c], s.errorConn c Status.retryExhausted)
      else s.peerLost k.peerDev

/-- An ACK or NAK of a flushed RoCEv2 message. -/
def State.roceFlushed (s : State) (c psn : Nat) : State :=
  match s.conn? c with
  | some k => s.sendRoceAck c k psn synAck
  | none => s

end Sys2Proof.Machine
end

