-- ==== Sys2Proof/Machine/Rings.lean ====
section
/-!
DEFINITION. The rows that end operations of every kind: RING_STOP (R255, R258), FLUSH_COMPLETE (R253), DEADLINE_EXPIRY (R262, R273).
-/

namespace Sys2Proof.Machine

/-- STOP on the selected ring (R255, R258): refused with reason 5 where it is FREE or STOPPED. -/
def State.stopCmd (s : State) (vf : Nat) : State :=
  let key := vf * 4096 + s.rd F.WQE_RING_SEL_ring vf
  match s.ring? key with
  | none => s.ringResult vf 5
  | some r => if r.state = .stopped then s.ringResult vf 5 else ((s.ringStop key).ringResult vf 0).cmnRun

/-- STOP written to WQE_RING_CMD. -/
def execRingStop (link vf : Nat) (s : State) : Host.Outcome State Fault Refusal :=
  winAct link vf none s fun s => s.stopCmd vf

/-- The bundle phase that a flush of the commons stands for. -/
def flushTodo (key : Nat) : Nat × Todo :=
  (key / 2 ^ 33, ⟨key / 2 % 65536, key / 2 ^ 17 % 65536, key % 2 == 1, 3, 0, 0⟩)

/-- What follows a flush read that has returned, or failed (R312), once no other flush for the same is out. -/
def State.flushed (s : State) (who : FlushFor) (ok : Bool) : State :=
  match who with
  | .op id => (if ok then s else s.modOp id fun o =>
      if o.cqe.status = Status.ok then { o with cqe := { o.cqe with status := Status.targetLost, sub := 0 } } else o).postOp id
  | .msg c msn =>
    if (s.conn? c).any (·.roce) then (if ok then s.roceFlushed c msn else s)
    else if ok then s.showMsg c msn
    else (match (s.conn? c).bind fun k => (k.msg? msn).bind (·.recvOp) with
      | some id => ((s.showRecv c id).modConn c fun k => { k with msgs := k.msgs.map fun m => if m.msn == msn then { m with recvOp := none } else m }).killOp id
          Status.targetLost 0
      | none => s)
  | .coll key =>
    let q := flushTodo key
    if ok then s.finishTodo q.1 q.2 else s.endLocally q.1 Status.targetLost 0
  | .inval _ => s

/-- A flush read returns, the `n`th that is out: every write before it on its link has reached its target (R253). A failure counts for
what it stands for (R312). -/
def State.flushDone (s : State) (n : Nat) (ok : Bool) : State :=
  match s.hpt.flushes[n]? with
  | none => s
  | some f =>
    if !f.sent then s
    else
      let rest := s.hpt.flushes.take n ++ s.hpt.flushes.drop (n + 1)
      let s := { s with hpt := { s.hpt with
        flushes := rest
        posted := s.hpt.posted.filter fun w => !(w.link == f.link && decide (w.seq < f.seq)) } }
      let s := if !ok then
          let s := { s with hpt := { s.hpt with flushes := s.hpt.flushes.filter fun g => g.who != f.who } }
          s.flushed f.who false
        else if rest.any fun g => g.who == f.who then s else s.flushed f.who true
      s.issueWaiting f.link

/-- FLUSH_COMPLETE. -/
def execFlushComplete (n : Nat) (ok : Bool) (s : State) : Host.Outcome State Fault Refusal :=
  act s fun s => (s.flushDone n ok).cmnRun

/-- Whether a hold keeps an operation's own data from being moved, or a READ response of it from being placed (R273 code 5). -/
def holdsOp (k : Option Conn) (id : Nat) (h : Hold) : Bool :=
  match h.who with
  | .op i => i == id
  | .packet p => match p.ext with
    | .readResp req => k.any fun k => k.reads.any fun r => r.op == id && r.psn == req
    | _ => false
  | _ => false

/-- The cause that holds an operation now (R273), the first of these where several do (DESIGN CHOICE, log entry 73): a translation fault, a grant of 0, the
responder's NOT_READY, HELD or RNR, and, unless a grant of 0 came while its packets were under way, a second retransmission, its window. -/
def State.heldBy (s : State) (id : Nat) (o : Op) : Option Nat :=
  let k := s.conn? o.target
  let any := fun (f : Conn → Bool) => decide (2 ≤ o.opcode) && decide (o.opcode ≤ 5) && k.any f
  if s.xlt.holds.any (holdsOp k id) then some 5
  else if any fun k => k.carries id && (Tbl.get? s.adm.grants (o.target * 8 + o.cls)).any (·.1 == 0) then some 3
  else if any fun k => (k.sent.any fun x => x.op == some id && (x.waiting == 1 || x.waiting == 2)) || (k.rnrWait && k.carries id) then some 4
  else if o.zeroed then none
  else if any fun k => k.sent.any fun x => x.op == some id && decide (2 ≤ x.tries) && x.waiting == 0 then some 1
  else if any fun k => windowBelow k o && ((k.queue.any fun x => x.2 == some id) || k.roceQueue.any fun x => x.op == some id) then some 2
  else none

/-- The cause byte of a DEADLINE_MISSED completion (R273): what holds the operation at its expiry, else the last cause recorded, else 15. Where a red drop at
the far side held it up it is 3 (R274). -/
def State.missCause (s : State) (id : Nat) (o : Op) : Nat :=
  match s.heldBy id o with
  | some c => c
  | none => if o.zeroed then 3 else if o.cause = 0 then 15 else o.cause

/-- The budget of an operation runs out (R262): it is wound down and completes DEADLINE_MISSED with its cause; one that waits for its
flushes is held by its host link. The bellwether measures collectives and steps (R141). -/
def State.missDeadline (s : State) (id : Nat) : State :=
  match s.op? id with
  | none => s
  | some o =>
    if o.deadline.isNone ∨ o.opcode = 0x10 ∨ o.opcode = 0x11 then s
    else if o.phase = .flushing then s.modOp id fun o => { o with cqe := { o.cqe with status := Status.deadlineMissed, sub := 6 } }
    else s.windDown id Status.deadlineMissed (s.missCause id o)

/-- DEADLINE_EXPIRY. -/
def execDeadlineExpiry (op : Nat) (s : State) : Host.Outcome State Fault Refusal :=
  act s fun s => s.missDeadline op

end Sys2Proof.Machine
end

