-- ==== Sys2Proof/Machine/Hosts.lean ====
section
/-!
DEFINITION. Host ports (12_host_ports.md): links, functions, fences and detachment (R310, R311, R313, R314, R322-R325), attachment and tokens (R320, R321), the
aperture and requests from below a root port (R317, R319), MSI-X (R318).
-/

namespace Sys2Proof.Machine

/-! ### Links (R310, R311) -/

/-- C_r of a link in MB/s (R310). -/
def linkRate (gen width : Nat) : Nat :=
  (if gen = 7 then 242000 else if gen = 6 then 121000 else 59000) * width / 16

/-- The widest a link can be: its port's bifurcation (R310); a bare start has one x16 link. -/
def State.linkWidth (s : State) (x : Nat) : Nat :=
  match s.lay.running.bind fun l => l.hosts[x / 4]? with
  | some h => if h.bifurcation = 0 then 16 else if h.bifurcation = 1 then 8 else 4
  | none => 16

/-- The fastest a link can be: `max_gen`. -/
def State.linkGen (s : State) (x : Nat) : Nat :=
  if s.rd F.MGT_BOOT_mode = 2 then 5 else ((s.lay.running.bind fun l => l.hosts[x / 4]?).map (·.maxGen)).getD 7

/-- Whether a link has lanes for a width: of its own lanes (R310), those of one aligned group, every one of which serves (R31). Which lanes a link that
is narrower than it could be uses, the spec does not say (log entry 67). -/
def State.lanesFor (s : State) (x width : Nat) : Bool :=
  let w := s.linkWidth x
  (List.range (w / width)).any fun g => (List.range width).all fun k => s.hostLaneServes (x / 4) (w * (x % 4) + width * g + k)

/-- Whether a link can train at a speed and width. -/
def State.linkFits (s : State) (x gen width : Nat) : Bool :=
  s.linkExists x && decide (5 ≤ gen) && decide (gen ≤ s.linkGen x) && (width == 4 || width == 8 || width == 16) && decide (width ≤ s.linkWidth x)
    && s.lanesFor x width

/-- Shows a link's speed, width and rate. -/
def State.showLink (s : State) (x gen width : Nat) : State :=
  ((s.wr F.HPT_LINK_gen gen x).wr F.HPT_LINK_width width x).wr F.HPT_LINK_rate_mbs (if gen = 0 then 0 else linkRate gen width) x

/-- A link changes state; every change is logged. -/
def State.setLink (s : State) (x st : Nat) : State := (s.wr F.HPT_LINK_state st x).logEv .HPT .stateChange st x x

/-- A link reaches L0: any fence lifts (R323). -/
def State.linkUpNow (s : State) (x gen width : Nat) : State := (s.showLink x gen width).setLink x 2

/-- HOST_LINK_UP: a link, its speed (5, 6, 7) and width. -/
def execHostLinkUp (link gen width : Nat) (s : State) : Host.Outcome State Fault Refusal :=
  actOn (s.linkFits link gen width) s fun s => if s.linkUp link then s else s.linkUpNow link gen width

/-! ### Functions (R15, R313, R314) -/

/-- The PCI vendor ID and device ID that a function's configuration space presents, hard-wired (R15): a physical function on every endpoint link that
exists (R313), and with a layout running the virtual functions (R48, R314). None where there is no such function. -/
def State.functionId (s : State) (p : Path) : Option (Nat × Nat) :=
  match p with
  | .conn => none
  | .pf0 => if s.isRoot 0 then none else some (0x1F3B, 0x9080)
  | .pf x => if s.linkExists x && !s.isRoot x then some (0x1F3B, 0x9080) else none
  | .inst vf => if s.lay.running.isSome ∧ vf < 1024 then some (0x1F3B, 0x9081) else none

/-- The SR-IOV capability of every physical function (R314): TotalVFs, First VF Offset and VF Stride. -/
def sriov : Nat × Nat × Nat := (1024, 1, 1)

/-- The virtual function, by its number on a physical function, that an instance is (R314): the routing ID that lies First VF Offset and its strides
beyond the physical function's. -/
def vfNumber (vf : Nat) : Nat := sriov.2.1 + sriov.2.2 * vf

/-! ### Reads that fail, fences and detachment (R312, R322, R323) -/

/-- An operation fails with a status at once; one of the commons ends locally (R142). -/
def State.failOp (s : State) (id status : Nat) : State :=
  match s.coll? id with
  | some _ => s.endLocally id status 0
  | none => match s.streamOf id with
    | some n => s.endStream n status 0 0 none true
    | none => s.killOp id status 0

/-- An operation fails TARGET_LOST at once. -/
def State.loseOp (s : State) (id : Nat) : State := s.failOp id Status.targetLost

/-- A waiter's host read has failed (R312): its operation is TARGET_LOST; an aperture read completes with Completer Abort; a request of the
fabric is dropped: a READ_REQ's message ends, so that `done_msn` may pass it, an ATOMIC has not been performed (R208), and behind a READ of RoCEv2 the
requests that waited go on (R227). A ring's entry is read again later. -/
def State.failWaiter (s : State) (w : Waiter) : State :=
  match w with
  | .op id => s.loseOp id
  | .packet _ => s
  | .served p _ => if p.ext.isRead then s.endMsg p.dstConn p.msn else s
  | .roce p _ => s.takeBehind p.qp
  | .aperture link _ _ _ _ => s.emit (.tlpCpl link 2 [])
  | .ring key => s.modRing key fun r => { r with aborting := false }
  | .inbound => s

/-- Read requests that will never complete: their waiters fail, and what else they wait for is forgotten. -/
def State.failReads (s : State) (mine : HostRead → Bool) : State :=
  let gone := s.hpt.reads.filter mine
  let who := (gone.map (·.who)).eraseDups
  let s := { s with hpt := { s.hpt with reads := s.hpt.reads.filter fun r => !mine r && !who.contains r.who } }
  who.foldl State.failWaiter s

/-- Whether a packet's message waits on a link for a flush. -/
def flushGone (s : State) (mine : Nat → Nat → Bool) (f : Flush) : Bool :=
  match f.who with
  | .op id => mine f.link (((s.op? id).map (·.vf)).getD 0)
  | .msg c _ => mine f.link (((s.conn? c).map (·.vf)).getD 0)
  | .coll key => mine f.link (((s.op? (flushTodo key).1).map (·.vf)).getD 0)
  | .inval tag => mine f.link (s.rd F.XLT_TAG_vf tag)

/-- Of the writes that a fence finds unacknowledged some had not yet been sent and are dropped, each counted (R323). The model has no queue of writes
before the link: how many of them is free (log entry 68). -/
def State.dropUnsent (s : State) (ws : List Posted) : State :=
  match ws with
  | [] => s
  | w :: _ => match s.drawBelow (ws.length + 1) with
    | (n, s) => s.bump F.HPT_WR_DROP n w.link

/-- Requests that wait for room on a link are sent (R312): at most as many as are counted. -/
def State.issueMore (s : State) (x : Nat) : Nat → State
  | 0 => s
  | n + 1 => (s.issueWaiting x).issueMore x n

/-- The steps of a fence for the reads, writes and flushes that a test of link and instance picks (R323): reads and their operations are lost, and
so is every operation with a write or flush the fence has not seen complete. -/
def State.fenceWork (s : State) (mine : Nat → Nat → Bool) : State :=
  let reads := s.hpt.reads.filter fun r => mine r.link r.vf && r.sent
  let s := reads.foldl (fun s r => s.bump F.HPT_RD_LOST 1 r.link) s
  let s := s.dropUnsent (s.hpt.posted.filter fun w => mine w.link w.vf)
  let s := s.failReads fun r => mine r.link r.vf
  let ids := ((s.hpt.posted.filter fun w => mine w.link w.vf).filterMap (·.op)).eraseDups
  let s := ids.foldl State.loseOp s
  let whos := ((s.hpt.flushes.filter (flushGone s mine)).map (·.who)).eraseDups
  let s := { s with hpt := { s.hpt with
    flushes := s.hpt.flushes.filter fun f => !whos.contains f.who
    posted := s.hpt.posted.filter fun w => !mine w.link w.vf } }
  whos.foldl (fun s w => match w with
    | .op id => s.killOp id Status.targetLost 0
    | .inval _ => s.flushed w true
    | _ => s.flushed w false) s

/-- An instance is detached (R322): its front end stops; its completions go to the held store from now on. -/
def State.detach (s : State) (vf : Nat) : State :=
  if s.rd F.HPT_INST_STATE_state vf = attAttached ∨ s.rd F.HPT_INST_STATE_state vf = attPaused then
    (s.wr F.HPT_INST_STATE_state attDetached vf).logEv .HPT .stateChange attDetached vf
  else s

/-- Instances attached through a link. -/
def State.attachedTo (s : State) (x : Nat) : List Nat :=
  (s.insts.map Prod.fst).filter fun v => s.onLink x v

/-- Instances bound to a root link by HPT_RP_RID (R319). -/
def State.boundTo (s : State) (x : Nat) : List Nat :=
  ((List.range 32).filterMap fun j =>
    if s.rd F.HPT_RP_RID_valid (32 * x + j) = 1 then some (s.rd F.HPT_RP_RID_vf (32 * x + j)) else none).eraseDups

/-- A link is lost (R322, R323): it is fenced, what waited on it is lost, and the instances attached through it (on a root link those bound
through HPT_RP_RID, R319) are detached. -/
def State.linkLoss (s : State) (x : Nat) : State :=
  if !s.linkUp x then s
  else
    let vfs := if s.isRoot x then s.boundTo x else s.attachedTo x
    let s := ((s.showLink x 0 0).setLink x 3).bump F.HPT_FENCE 1 x
    let s := vfs.foldl State.detach s
    s.fenceWork fun l _ => l == x

/-- An instance is detached without a fence (R322, R323): the same steps for it alone, on its link. -/
def State.detachAlone (s : State) (vf : Nat) : State :=
  if s.rd F.HPT_INST_STATE_state vf = attAttached ∨ s.rd F.HPT_INST_STATE_state vf = attPaused then
    let x := s.rd F.HPT_INST_STATE_link vf
    let s := (s.detach vf).fenceWork fun l v => l == x && v == vf
    s.issueMore x (s.hpt.reads.length + s.hpt.flushes.length)
  else s

/-- Whether an operation has a read, a write or a flush under way on a link. -/
def State.usesLink (s : State) (x id : Nat) : Bool :=
  (s.hpt.reads.any fun r => r.link == x && r.who == .op id) || (s.hpt.posted.any fun w => w.link == x && w.op == some id)
    || s.hpt.flushes.any fun f => f.link == x && (match f.who with
      | .op i => i == id
      | .coll key => (flushTodo key).1 == id
      | _ => false)

/-- A function level reset returns the function with default configuration: MSI-X disabled, its table and pending bits empty (R322, R318). -/
def State.clearMsix (s : State) (vf : Nat) : State :=
  match Tbl.get? s.insts vf with
  | some i => s.setInst vf { i with msixOn := false, msix := [], pba := [] }
  | none => s

/-- Whether the configuration of an instance's function is the one that a link's host wrote: the instance was last attached there, or never (log
entry 41). -/
def State.configuredBy (s : State) (x vf : Nat) : Bool :=
  s.rd F.HPT_INST_STATE_state vf == attNew || s.rd F.HPT_INST_STATE_link vf == x

/-- A function level reset of a PF, which resets its VFs too (R322). -/
def State.pfFlr (s : State) (x : Nat) : State :=
  let s := (s.attachedTo x).foldl State.detachAlone (s.bump F.HPT_FLR 1 x)
  ((s.insts.map Prod.fst).filter fun v => s.configuredBy x v).foldl State.clearMsix s

/-- A function level reset of a VF (R322). -/
def State.vfFlr (s : State) (x vf : Nat) : State :=
  let s := s.bump F.HPT_FLR 1 x
  let s := if s.onLink x vf then s.detachAlone vf else s
  if s.configuredBy x vf then s.clearMsix vf else s

/-! ### Attachment (R320, R321) -/

/-- Ends an attach command. -/
def State.attachResult (s : State) (vf reason : Nat) : State :=
  ((s.wr F.HPT_ATTACH_STATUS_done (b2n (reason == 0)) vf).wr F.HPT_ATTACH_STATUS_refused (b2n (reason != 0)) vf).wr
    F.HPT_ATTACH_STATUS_reason reason vf

/-- A refused ATTACH: counted; the eighth within a second locks ATTACH, which is logged (R321). -/
def State.refuseAttach (s : State) (link vf reason : Nat) : State :=
  let s := (s.attachResult vf reason).bump F.HPT_ATTACH_REFUSED 1 link
  if reason = 2 then s
  else
    let i := s.inst vf
    let times := (i.refusals.filter fun t => decide (s.now < t + sec)) ++ [s.now]
    let lock := decide (8 ≤ times.length)
    let s := s.setInst vf { i with refusals := if lock then [] else times, locked := i.locked || lock }
    if lock then s.logRefused .HPT 2 vf else s

/-- Whether an instance may be attached through a link's port: its `host_mask`, or its partition's (R378). -/
def State.portAllowed (s : State) (link vf : Nat) : Bool :=
  let m := s.rd F.PTN_INST_host_mask vf
  m == 0 || m.testBit (link / 4)

/-- ATTACH (R320, R321). -/
def State.attach (s : State) (link vf : Nat) : State :=
  let st := s.rd F.HPT_INST_STATE_state vf
  if (s.inst vf).locked then s.refuseAttach link vf 2
  else if !s.portAllowed link vf then s.refuseAttach link vf 3
  else if (s.rd F.HPT_ATTACH_TOKEN_token vf) ≠ (s.inst vf).token.toNat then s.refuseAttach link vf 1
  else if st = attAttached ∨ st = attPaused then s.refuseAttach link vf 4
  else
    let (t, s) := s.drawToken
    let s := s.setInst vf { s.inst vf with token := t }
    let s := (s.wr F.HPT_TOKEN_token t.toNat vf).wr F.HPT_INST_STATE_link link vf
    let st2 := if st = attNew then attAttached else attPaused
    ((s.wr F.HPT_INST_STATE_state st2 vf).logEv .HPT .stateChange st2 vf).attachResult vf 0

/-- An access to the attach registers of an instance that is not ABSENT, on a link that is up (R315, R325, R377). -/
def attAct (link vf : Nat) (s : State) (f : State → State) : Host.Outcome State Fault Refusal :=
  actOn (decide (link < 16) && decide (vf < 1024)) s fun s =>
    if !s.linkUp link then s
    else if s.barAnswers link vf && s.rd F.PTN_INST_state vf != instAbsent then f s else s.unsupported link none

/-- ATTACH. -/
def execAttach (link vf : Nat) (s : State) : Host.Outcome State Fault Refusal := attAct link vf s fun s => s.attach link vf

/-- A DETACH, RESUME or DISCARD refused, and counted (R321, R327). -/
def State.refuseCmd (s : State) (link vf reason : Nat) : State := (s.attachResult vf reason).bump F.HPT_ATTACH_REFUSED 1 link

/-- DETACH (R322). -/
def State.detachCmd (s : State) (link vf : Nat) : State :=
  let st := s.rd F.HPT_INST_STATE_state vf
  if st ≠ attAttached ∧ st ≠ attPaused then s.refuseCmd link vf 4
  else if s.rd F.HPT_INST_STATE_link vf ≠ link then s.refuseCmd link vf 5
  else (s.detachAlone vf).attachResult vf 0

/-- DETACH. -/
def execDetach (link vf : Nat) (s : State) : Host.Outcome State Fault Refusal := attAct link vf s fun s => s.detachCmd link vf

/-- The rings that have held completions. -/
def heldRings (i : Inst) : List Nat := (i.held.map Prod.fst).eraseDups

/-- Posts held completions in the order they were held, then the interrupts that their rings had asked for (R320, R325). -/
def State.postHeld (s : State) (vf : Nat) : State :=
  let i := s.inst vf
  let armed := (heldRings i).filter fun k => (s.ring? k).any (·.armed)
  let s := armed.foldl (fun s k => s.modRing k fun r => { r with armed := false }) s
  let s := (s.setInst vf { i with held := [] }).wr F.HPT_INST_STATE_held_count 0 vf
  let s := i.held.foldl (fun s h => if (s.ring? h.1).any (fun r => !r.pinLost) then s.postNow h.1 h.2 else s.bump F.WQE_EVENT_DROP) s
  armed.foldl (fun s k => match s.ring? k with
    | some r => (s.wr F.WQE_DB_arm 0 k).interrupt vf r.vector
    | none => s) s

/-- RESUME and DISCARD, in PAUSED only (R320). -/
def State.leavePaused (s : State) (link vf : Nat) (keep : Bool) : State :=
  if s.rd F.HPT_INST_STATE_state vf ≠ attPaused then s.refuseCmd link vf 4
  else if s.rd F.HPT_INST_STATE_link vf ≠ link then s.refuseCmd link vf 5
  else
    let s := ((s.wr F.HPT_INST_STATE_state attAttached vf).logEv .HPT .stateChange attAttached vf).wr F.HPT_INST_STATE_held_lost 0 vf
    let s := if keep then s.postHeld vf
      else (s.setInst vf { s.inst vf with held := [] }).wr F.HPT_INST_STATE_held_count 0 vf
    s.attachResult vf 0

/-- RESUME. -/
def execResume (link vf : Nat) (s : State) : Host.Outcome State Fault Refusal := attAct link vf s fun s => s.leavePaused link vf true

/-- DISCARD. -/
def execDiscard (link vf : Nat) (s : State) : Host.Outcome State Fault Refusal := attAct link vf s fun s => s.leavePaused link vf false

/-- ATTACH_LOCK_EXPIRY. -/
def execAttachLockExpiry (vf : Nat) (s : State) : Host.Outcome State Fault Refusal :=
  actOn (decide (vf < 1024)) s fun s => match Tbl.get? s.insts vf with
    | some i => s.setInst vf { i with locked := false, refusals := [] }
    | none => s

/-- Reading HPT_TOKEN: the new token, once (R321). -/
def State.readToken (s : State) (vf : Nat) : Nat × State := (s.rd F.HPT_TOKEN_token vf, s.wr F.HPT_TOKEN_token 0 vf)

/-- HPT_TOKEN_READ: on the attached link. -/
def execHptTokenRead (link vf : Nat) (s : State) : Host.Outcome State Fault Refusal :=
  winAct link vf (some 8) s fun s => let (t, s) := s.readToken vf; s.emit (.tlpCpl link 0 (leBytes 8 t))

/-- Reading PTN_TOKEN_READ: the token that the last PTN_RESET drew for the selected instance, once (R391). -/
def State.readPtnToken (s : State) : Nat × State :=
  let vf := s.rd F.PTN_TOKEN_SEL_vf
  match Tbl.get? s.insts vf with
  | some i => (i.ptnToken.toNat, s.setInst vf { i with ptnToken := 0 })
  | none => (0, s)

/-- PTN_TOKEN_READ. -/
def execPtnTokenRead (s : State) : Host.Outcome State Fault Refusal :=
  act s (asManager false fun s => let (t, s) := s.readPtnToken; s.emit (.tlpCpl 0 0 (leBytes 8 t)))

/-! ### Requests from outside (R317, R319) -/

/-- The record of an inbound access (R317, R341). -/
def inboundRec (part vf tag va reason level : Nat) (acc : AccKind) : XRec :=
  { localRec part vf tag va reason level acc with err := true, inbound := true }

/-- An inbound access fails (R317): an error record, the count; a read completes with Completer Abort. A host page whose link does not carry it now, or
whose instance is DETACHED, is no failure of the walk (R332): the read is aborted all the same, a write is dropped and counted on that link. -/
def State.inboundFail (s : State) (link part vf tag : Nat) (acc : AccKind) (e : Stop) : State :=
  let fails := fun (a r lv : Nat) => (s.bump F.HPT_INBOUND_FAULT 1 link).raiseViolation (inboundRec part vf tag a r lv acc)
  let drops := fun (x : Nat) => if acc = .write then s.bump F.HPT_WR_DROP 1 x else s
  let s := match e with
    | .absent a lv => fails a XReason.notPresent lv
    | .viol a r lv => fails a r lv
    | .detached x => drops x
    | .lost x => drops x
  match acc with
  | .read => s.emit (.tlpCpl link 2 [])
  | _ => s

/-- Whether places lie below a root port. -/
def State.belowRoot (s : State) (locs : List (Loc × Nat)) : Bool := (hostLocs locs).any fun p => s.isRoot p.1

/-- A read under a tag (R317): served, host pages through a read of their own; poisoned data completes with Completer Abort (R359). A request from
below a root port is never routed to a device below one (R319). -/
def State.inboundRead (s : State) (link part vf tag va n : Nat) : State :=
  let root := s.isRoot link
  match s.lookupRange part vf tag va n .read with
  | (.error e, s) => s.inboundFail link part vf tag .read e
  | (.ok locs, s) =>
    if root && s.belowRoot locs then s.unsupported link (some 0)
    else match s.badFor part none locs with
    | (true, s) => s.emit (.tlpCpl link 2 [])
    | (false, s) =>
      let hosts := hostLocs locs
      if hosts.isEmpty then s.emit (.tlpCpl link 0 (s.readLocs locs))
      else s.issueReads (.aperture link vf tag va n) vf tag hosts

/-- The host pages of an inbound read have come. -/
def State.inboundReady (s : State) (link part vf tag va n : Nat) : State :=
  match s.lookupRange part vf tag va n .read with
  | (.error e, s) => s.inboundFail link part vf tag .read e
  | (.ok locs, s) =>
    match s.badFor part none locs with
    | (true, s) => s.emit (.tlpCpl link 2 [])
    | (false, s) => s.emit (.tlpCpl link 0 (s.readLocs locs))

/-- A write under a tag (R317): written, or discarded with its record. -/
def State.inboundWrite (s : State) (link part vf tag va : Nat) (data : List Byte) : State :=
  let root := s.isRoot link
  match s.lookupRange part vf tag va data.length .write with
  | (.error e, s) => s.inboundFail link part vf tag .write e
  | (.ok locs, s) => if root && s.belowRoot locs then s.unsupported link none else s.writeLocs vf tag none locs data

/-- An aperture access that the window lets through (R315, R317, R382): the device virtual address, or none where it is refused. -/
def State.aperture (s : State) (link vf off : Nat) : Option Nat :=
  let p := (s.partOf vf).getD 64
  if s.barAnswers link vf && s.onLink link vf && !s.fencedInst vf p && s.rd F.HPT_APERTURE_ap_enable vf == 1 && decide (off < 2 ^ 34) then
    some (s.rd F.HPT_APERTURE_ap_base vf * 2 ^ 34 + off)
  else none

/-- APERTURE_READ: a link, an instance, an offset and a length. -/
def execApertureRead (link vf off len : Nat) (s : State) : Host.Outcome State Fault Refusal :=
  actOn (decide (link < 16) && decide (vf < 1024)) s fun s => if !s.linkUp link then s else match s.aperture link vf off with
    | some va => s.inboundRead link ((s.partOf vf).getD 64) vf (s.rd F.HPT_APERTURE_ap_tag vf) va len
    | none => s.unsupported link (some len)

/-- APERTURE_WRITE. A write under a fence is discarded and counted (R382). -/
def execApertureWrite (link vf off : Nat) (data : List Byte) (s : State) : Host.Outcome State Fault Refusal :=
  actOn (decide (link < 16) && decide (vf < 1024)) s fun s => if !s.linkUp link then s else match s.aperture link vf off with
    | some va => s.inboundWrite link ((s.partOf vf).getD 64) vf (s.rd F.HPT_APERTURE_ap_tag vf) va data
    | none => s.unsupported link none

/-- The entry of HPT_RP_RID that a requester ID matches on a link (R319). -/
def State.ridEntry (s : State) (link rid : Nat) : Option (Nat × Nat) :=
  ((List.range 32).find? fun j => s.rd F.HPT_RP_RID_valid (32 * link + j) == 1 && s.rd F.HPT_RP_RID_rid (32 * link + j) == rid).map fun j =>
    (s.rd F.HPT_RP_RID_vf (32 * link + j), s.rd F.HPT_RP_RID_tag (32 * link + j))

/-- A request from below a root port (R319, R317), of a length where it reads; an AtomicOp is not supported (R333). -/
def State.downstream (s : State) (link rid addr len : Nat) (data : BelowRequest) : State :=
  let answer := match data with
    | .write _ => none
    | _ => some 0
  match s.ridEntry link rid with
  | none => (s.unsupported link answer).logRefused .HPT 0 rid
  | some (vf, tag) =>
    let p := (s.partOf vf).getD 64
    if s.fencedInst vf p then s.unsupported link answer
    else match data with
    | .write d => s.inboundWrite link p vf tag addr d
    | .read => s.inboundRead link p vf tag addr len
    | .atomic => s.unsupported link answer

/-- DOWNSTREAM_REQUEST: a root link, a requester ID, an address, the length of a read, and the request. -/
def execDownstreamRequest (link rid addr len : Nat) (data : BelowRequest) (s : State) : Host.Outcome State Fault Refusal :=
  actOn (decide (link < 16) && s.isRoot link) s fun s => if s.linkUp link then s.downstream link rid addr len data else s

/-! ### MSI-X (R318) -/

/-- Unmasking a vector: the message goes where its pending bit is set. -/
def State.msixUnmask (s : State) (vf vector : Nat) : State :=
  let i := s.inst vf
  match Tbl.get? i.msix vector with
  | none => s
  | some e =>
    let s := s.setInst vf { i with msix := Tbl.set i.msix vector { e with masked := false }, pba := i.pba.filter (· != vector) }
    if i.pba.contains vector ∧ i.msixOn then s.emit (.msix (s.rd F.HPT_INST_STATE_link vf) e.addr e.data) else s

/-- MSIX_UNMASK. -/
def execMsixUnmask (link vf vector : Nat) (s : State) : Host.Outcome State Fault Refusal :=
  winAct link vf none s fun s => s.msixUnmask vf vector

end Sys2Proof.Machine
end

