-- ==== Sys2Proof/Machine/BxtCtl.lean ====
section
/-!
DEFINITION. Brixver Transport's control traffic: the connection service and PROBE (R211, R118, R500), KEEPALIVE, CLOSE and REFUSAL_SEEN
(R214, R211, R534), NAK UNKNOWN_CONN (R213), CHUNK and COORD messages (R100, R206), GRANT (R267-R269), the timers of R211-R222.
-/

namespace Sys2Proof.Machine

/-! ### The connection service (R211, R118, R500) -/

/-- Answers a PROBE from an end (R211). -/
def State.probeAck (s : State) (c : Nat) (k : Conn) : State := s.sendCtl c k (.ctrl 2 c k.svc k.group 0) 0 0

/-- An end that a PROBE has already created: its peer, service, group and epoch are the PROBE's. -/
def State.probed (s : State) (p : Packet) (src svc group : Nat) : Option (Nat × Conn) :=
  s.bxt.conns.find? fun q => q.2.svc == svc && q.2.group == group && q.2.peerDev == p.srcDev && q.2.peerConn == src && q.2.epoch == p.epoch
    && q.2.state == .open_

/-- Whether an address lies in a prefix of R46. -/
def inPrefix (ip : Nat) (q : Nat × Nat) : Bool := ip / 2 ^ (128 - q.2) == q.1 / 2 ^ (128 - q.2)

/-- The source prefixes the running image lists (R46); none after a bare start. -/
def State.mgtPrefixes (s : State) : List (Nat × Nat) := (s.lay.running.map fun l => l.access.prefixes).getD []

/-- The first of the eight management connection IDs (R500). -/
abbrev mgtConnBase : Nat := 0xFFFF8

/-- A PROBE of a management connection (R500). -/
def State.probeMgt (s : State) (p : Packet) (src : Nat) : State :=
  match s.probed p src 1 0 with
  | some (c, k) => s.probeAck c k
  | none =>
    match firstBelow 8 fun k => (s.conn? (mgtConnBase + k)).isNone with
    | some i =>
      if s.mgtPrefixes.any (inPrefix p.srcIp) then
        let c := mgtConnBase + i
        let k := { s.newConn 0 64 1 4096 with
          state := .open_, peerConn := src, peerIp := p.srcIp, peerDev := p.srcDev, epoch := p.epoch, spray := 2, pin := true,
          keepaliveUs := 1000, txSlot := 2 * i, rxSlot := 2 * i + 1 }
        let s := s.addConn c k
        s.probeAck c k
      else s.bump F.MGT_PROBE_REFUSED
    | none => s.bump F.MGT_PROBE_REFUSED

/-- A PROBE of the commons that is ignored for want of an ID, an allowance or a pin (R118): logged once for each opening device. -/
def State.probeShort (s : State) (slot : Nat) (g : Group) (dev : Nat) : State :=
  let s := s.bump F.BXT_INVALID
  if g.probeRef.contains dev then s
  else (s.setGroup slot { g with probeRef := g.probeRef ++ [dev] }).logRefused .CMN 8 g.id

/-- Whether a group record takes PROBEs (R118): INSTALLED or ACTIVE. A record of the next generation that waits for its ACTIVATE takes them too,
although it shows REFORMING (R145): its peers' connections could not open otherwise (DEDUCED, log entry 57). -/
def Group.takesProbe (g : Group) : Bool := g.fresh || g.state == .installed || g.state == .active

/-- This device's own end of a chunk connection that still probes the peer. -/
def State.ownChunkEnd (s : State) (slot dev : Nat) : Option Nat :=
  ((s.cmnConns slot).find? fun q => q.2.svc == 3 && q.2.peerDev == dev && q.2.state == .armed).map Prod.fst

/-- Creates the end that a PROBE of the commons asks for. -/
def State.probeCreate (s : State) (slot : Nat) (g : Group) (p : Packet) (src svc : Nat) : State :=
  match s.cmnEnd slot g svc p.srcDev with
  | none => s.probeShort slot g p.srcDev
  | some (c, s) =>
    let s := s.modConn c fun k => { k with state := .open_, peerConn := src, probes := false }
    match s.conn? c with
    | some k => (s.probeAck c k).cmnFlushUnsent slot svc p.srcDev
    | none => s

/-- A PROBE of a coordination or chunk connection (R118). -/
def State.probeCmn (s : State) (p : Packet) (src svc group : Nat) : State :=
  match s.probed p src svc group with
  | some (c, k) => s.probeAck c k
  | none =>
    match s.groupById group with
    | none => s.bump F.BXT_INVALID
    | some (slot, g) =>
      if g.gen ≠ p.epoch ∨ !g.takesProbe ∨ !(g.members.any fun m => m.dev == p.srcDev) then s.bump F.BXT_INVALID
      else match (if svc = 3 then s.ownChunkEnd slot p.srcDev else none) with
      | some mine => if p.srcDev < s.devAddr then (s.freeConn mine none).probeCreate slot g p src svc else s
      | none => s.probeCreate slot g p src svc

/-- A packet to `dst_conn` 0 that is a PROBE (R203, R211). It is in the clear. -/
def State.probeService (s : State) (p : Packet) (src svc group : Nat) : State :=
  if p.enc ∨ svc = 0 ∨ 3 < svc then s.bump F.BXT_INVALID
  else if svc = 1 then s.probeMgt p src else s.probeCmn p src svc group

/-- A PROBE to a tenant connection's end (R211): it opens an ARMED end and is answered; an OPEN end answers again. One of another epoch is
counted as any packet of it is (R210). -/
def State.probeEnd (s : State) (p : Packet) (src svc : Nat) (c : Nat) (k : Conn) : State :=
  if k.epoch ≠ p.epoch then s.bump F.BXT_EPOCH_DROP
  else if k.svc = svc ∧ k.peerConn = src ∧ k.peerDev = p.srcDev ∧ !k.roce then
    if k.state = .armed then
      let s := s.openConn c
      (match s.conn? c with | some k => s.probeAck c k | none => s)
    else if k.state = .open_ then s.probeAck c k
    else s
  else s

/-- A PROBE (R211): judged by steps 1 to 3 of R203. -/
def State.onProbe (s : State) (p : Packet) (src svc group : Nat) : State :=
  match s.openPkt p with
  | (none, s) => s
  | (some p, s) =>
    if !p.wellFormed then s.bump F.BXT_INVALID
    else
      let s := s.hear p.srcDev
      if p.dstConn = 0 then s.probeService p src svc group
      else match s.conn? p.dstConn with
      | none => (s.bump F.BXT_INVALID).sendUnknown p
      | some k =>
        match s.needCtx p.dstConn k p with
        | (true, s) => s.probeEnd p src svc p.dstConn k
        | (false, s) => s

/-- A PROBE_ACK (R211): an ARMED end whose peer, service, group and epoch are those of the answer opens; an opener through the connection
service learns its peer's ID from it. One of another epoch is counted (R210). -/
def State.probeAcked (s : State) (p : Packet) (src svc group : Nat) (c : Nat) (k : Conn) : State :=
  if k.epoch ≠ p.epoch then s.bump F.BXT_EPOCH_DROP
  else if k.state = .armed ∧ k.svc = svc ∧ k.group = group ∧ k.peerDev = p.srcDev ∧ (2 ≤ svc ∨ k.peerConn = src) then
    let s := s.modConn c fun k => { k with peerConn := src }
    let s := s.openConn c
    if 2 ≤ svc then s.cmnFlushUnsent k.slot svc k.peerDev else s
  else s

/-- An arriving PROBE_ACK, judged by steps 1 to 3 of R203. -/
def State.onProbeAck (s : State) (p : Packet) (src svc group : Nat) : State :=
  match s.openPkt p with
  | (none, s) => s
  | (some p, s) =>
    if !p.wellFormed then s.bump F.BXT_INVALID
    else
      let s := s.hear p.srcDev
      match s.conn? p.dstConn with
      | none => (s.bump F.BXT_INVALID).sendUnknown p
      | some k =>
        match s.needCtx p.dstConn k p with
        | (true, s) => s.probeAcked p src svc group p.dstConn k
        | (false, s) => s

/-! ### KEEPALIVE, CLOSE, REFUSAL_SEEN (R211, R214, R534) -/

/-- A CLOSE that an OPEN or CLOSING end places (R211): acknowledged; every operation of the end's own completes ABORTED; CLOSE_ACK; FREE. -/
def State.onClose (s : State) (c : Nat) (k : Conn) (p : Packet) : State :=
  let s := (s.takePsn c p).sendAck c
  if k.state = .open_ ∨ k.state = .closing then
    let s := s.endOpsOfConn c Status.aborted 0 false
    let s := (match s.conn? c with | some k => s.sendCtl c k (.ctrl 5 0 k.svc (if 2 ≤ k.svc then k.group else 0) 0) 0 0 | none => s)
    s.freeConn c none
  else s

/-- A CLOSE_ACK (R211). -/
def State.onCloseAck (s : State) (c : Nat) (k : Conn) : State :=
  if k.state = .closing ∧ k.closeSent then s.freeConn c (some Status.aborted) else s

/-- A placed REFUSAL_SEEN (R534): the refused message's entry is released. -/
def State.onRefusalSeen (s : State) (c : Nat) (k : Conn) (p : Packet) (msn : Nat) : State :=
  let s := s.takePsn c p
  if (k.msg? msn).any (·.refused.isSome) then s.endMsg c msn else s

/-- A CTRL packet that the judge has let through: PROBE and PROBE_ACK are not judged so, and reserved codes break R203. -/
def State.takeCtrl (s : State) (c : Nat) (k : Conn) (p : Packet) (ctrl msn : Nat) : State :=
  if ctrl = 3 then s.takePsn c p
  else if ctrl = 4 then s.onClose c k p
  else if ctrl = 5 then s.onCloseAck c k
  else if ctrl = 6 then s.onRefusalSeen c k p msn
  else s.bump F.BXT_INVALID

/-! ### Lost connections -/

/-- What the commons makes of connections of its own that have moved to ERROR: the peer's ranks are lost (R143, R213). -/
def State.lostCmn (s : State) (cs : List Nat) : State :=
  cs.foldl (fun s c => match s.conn? c with
    | some k => if 2 ≤ k.svc then
        (match s.group? k.slot with
         | some g => if g.id = k.group then s.seeLoss k.slot (g.ranksOf k.peerDev) else s
         | none => s) else s
    | none => s) s

/-- A NAK UNKNOWN_CONN (R213, R219): the connections it took to ERROR. -/
def State.onUnknown (s : State) (p : Packet) (psn unk : Nat) : List Nat × State :=
  let hits := (s.bxt.conns.filter fun q => q.2.peerDev == p.srcDev && q.2.peerConn == unk && !q.2.roce
    && (q.2.state == .open_ || q.2.state == .closing) && (q.2.sent? psn).isSome).map Prod.fst
  (hits, hits.foldl (fun s c => s.errorEnd c Status.peerLost Nak.unknownConn) s)

/-- An arriving NAK UNKNOWN_CONN, in the clear to the connection service. -/
def State.rxUnknown (s : State) (p : Packet) (psn unk : Nat) : List Nat × State :=
  match s.openPkt p with
  | (none, s) => ([], s)
  | (some p, s) =>
    if !p.wellFormed then ([], s.bump F.BXT_INVALID) else (s.hear p.srcDev).onUnknown p psn unk

/-! ### CHUNK and COORD (R100, R206) -/

/-- Whether a chunk's payload has the length its header states (R96, R483); the blocks of a fill or of a bundle copied whole (R190, R192) state none. -/
def chunkLenOk (h : ChunkHdr) (d : List Byte) : Bool := decide (0xFFFC ≤ h.stage) || d.length == codeBytes h.fmt h.elems

/-- A CHUNK packet on its connection: the whole chunk goes to the commons (R100). Only a chunk connection carries CHUNK; elsewhere it is
discarded. A chunk of a wrong length is discarded, counted and logged (R483), but one whose `check` fails is R98's. -/
def State.takeChunkPkt (s : State) (c : Nat) (k : Conn) (p : Packet) (hdr : List Byte) : State :=
  if k.svc ≠ 3 then s.bump F.BXT_INVALID
  else match s.takeMsgBytes c k p with
  | (some d, s) =>
    let h := chunkHdr hdr
    if chunkLenOk h d ∨ !h.good d then s.inboxAdd (.chunk k.slot h d) else (s.bump F.TAL_MISDIRECT).logRefused .TAL 0 h.group
  | (none, s) => s

/-- Whether a COORD body has a length its kind allows (R206, R483), with the tails of log entries 20 and 21. -/
def coordLenOk (kind n : Nat) : Bool :=
  match kind with
  | 1 => decide (18 ≤ n) && (n - 18) % 3 == 0
  | 2 => decide (1 ≤ n) && (n - 1) % 3 == 0
  | 3 => n == 4 || (decide (6 ≤ n) && (n - 6) % 8 == 0)
  | 4 => n == 2 | 5 => n == 2 | 6 => decide (11 ≤ n) && (n - 11) % 11 == 0
  | 7 => n == 0 || (n - 1) % 3 == 0 || (decide (5 ≤ n) && (n - 5) % 8 == 0)
  | 8 => n == 4 | 9 => n == 1 | 10 => n == 1 | 11 => n == 6 | 12 => n == 2 || n == 3 | 13 => n == 8 || n == 9 | 14 => n == 0 | 15 => n == 2
  | _ => false

/-- A COORD body for the record of its generation (R116, R206): a notice carries a number, FOLDED the consumer's rank, a report the rank it
concerns. -/
def State.takeCoord (s : State) (slot : Nat) (g : Group) (nseq rank key : Nat) (b : CBody) : State :=
  match b with
  | .keepalive => s
  | .folded .. => s.inboxAdd (.folded slot rank (s.opKey slot key) b)
  | _ =>
    let key := s.wireKey slot g key b
    if nseq ≠ 0 then s.inboxAdd (.notice slot rank nseq key b)
    else
      let up := match edgeUp g.local_ 8 rank with
        | some (_, parent) => parent
        | none => 0
      s.inboxAdd (.report slot up rank key b)

/-- A COORD message (R206): a reserved kind, or one on a connection of another service, is discarded and counted; a message of another
generation is dropped and counted (R116); one of a wrong length is discarded, counted and logged (R483). -/
def State.takeCoordPkt (s : State) (c : Nat) (k : Conn) (p : Packet) (kind gen nseq group rank key : Nat) : State :=
  if k.svc < 2 ∨ kind = 0 ∨ 15 < kind then s.bump F.BXT_INVALID
  else match s.takeMsgBytes c k p with
  | (none, s) => s
  | (some d, s) =>
    if !coordLenOk kind d.length then (s.bump F.CMN_STALE).logRefused .CMN 0 group
    else match s.group? k.slot, cbody kind d with
    | some g, some b => if g.id = group ∧ g.gen = gen then s.takeCoord k.slot g nseq rank key b else s.bump F.CMN_STALE
    | _, _ => s.bump F.CMN_STALE

/-! ### GRANT at the requester (R268) -/

/-- The grant of a connection and class has become so many units in so many microseconds: its operations in flight that were admitted at a higher
rate record cause 3 (R273). A grant of 0 while one has packets under way is the sign of a red drop (R269, R274). -/
def State.causeGrant (s : State) (c cls units validUs : Nat) : State :=
  (s.opsOfConn c).foldl (fun s id =>
    let under := units == 0 && (s.conn? c).any fun k => k.carries id
    s.modOp id fun o =>
      if o.cls = cls ∧ (units = 0 ∨ units * o.grant.2 < o.grant.1 * validUs) then { o with cause := 3, zeroed := o.zeroed || under } else o) s

/-- Stores one class's budget. -/
def State.storeGrant (s : State) (c cls units validUs : Nat) : State :=
  let key := c * 8 + cls
  let s := { s with adm := { s.adm with grants := Tbl.set s.adm.grants key (units, validUs, s.now + validUs * us) } }
  let s := if units = 0 then s.bump F.ADM_GRANT_MISSED else s
  s.causeGrant c cls units validUs

/-- A GRANT on a connection (R268): each class of its mask. -/
def State.onGrant (s : State) (c : Nat) (k : Conn) (mask validUs : Nat) (budget : List Nat) : State :=
  if k.state ≠ .open_ ∨ k.roce then s
  else
    let s := s.bump F.ADM_GRANT_RCVD
    (List.range 6).foldl (fun s cls => if mask.testBit cls then s.storeGrant c cls (budget.getD cls 0) validUs else s) s

/-- No GRANT came within `valid_us` (R268): the rate of the class falls to 0, with those of the connection's classes that the same GRANT
carried, and one missed GRANT is counted. A rate that has run out keeps `valid_us` 0. -/
def State.grantExpired (s : State) (c cls : Nat) : State :=
  match Tbl.get? s.adm.grants (c * 8 + cls) with
  | some (_, v, t) =>
    if v = 0 then s
    else
      let ks := (List.range 6).filter fun k => (Tbl.get? s.adm.grants (c * 8 + k)).any fun g => g.2.2 == t && g.2.1 != 0
      ks.foldl (fun s k => ({ s with adm := { s.adm with grants := Tbl.set s.adm.grants (c * 8 + k) (0, 0, t) } }).causeGrant c k 0 0)
        (s.bump F.ADM_GRANT_MISSED)
  | none => s

end Sys2Proof.Machine
end

