-- ==== Sys2Proof/Machine/Grants.lean ====
section
/-!
DEFINITION. The grants a device sends (R267, R269), and the timers of a connection end (R211-R214, R218, R219, R222).
-/

namespace Sys2Proof.Machine

/-! ### Grants (R267) -/

/-- Receive capacity in bytes a microsecond: the rates of the logical ports that are UP. -/
def State.rxBytesUs (s : State) : Nat := sumNat (((List.range 64).filter fun j => s.portUp j).map fun j => s.portRate j * 1000)

/-- R(p, c) in bytes a period. -/
def State.grantPool (s : State) (p cls : Nat) : Nat :=
  s.rxBytesUs * (256 - s.rd F.ADM_CFG_mgmt_frac) * s.classFrac cls * ((s.shares p).classShare.getD cls 0) * s.rd F.ADM_GRANT_period_us
    / (256 * 256 * 256)

/-- The OPEN connections that carry grants. -/
def State.grantConns (s : State) : List (Nat × Conn) := s.bxt.conns.filter fun q => q.2.state == .open_ && !q.2.roce

/-- Whether a connection received packets of a class in the last period. -/
def State.wasActive (s : State) (c cls : Nat) : Bool := s.adm.active.contains (c * 8 + cls)

/-- An active connection's budget in 64-byte units: its instance's part of the fifteen sixteenths that the reserve of the floors leaves,
divided equally (log entry 27). -/
def State.activeBudget (s : State) (p cls vf : Nat) (conns : List (Nat × Conn)) : Nat :=
  let pool := s.grantPool p cls
  let mine := (conns.filter fun q => q.2.vf == vf && s.wasActive q.1 cls).length
  (pool - pool / 16) * s.weight vf p / max 1 (s.weightSum p) / max 1 mine / 64

/-- Idle connections of a partition in a class: first those not covered last time, then the others. -/
def State.idleConns (s : State) (cls : Nat) (conns : List (Nat × Conn)) : List Nat :=
  let idle := (conns.filter fun q => !s.wasActive q.1 cls).map Prod.fst
  let owed := fun c => s.adm.uncovered.contains (c * 8 + cls)
  idle.filter owed ++ idle.filter fun c => !owed c

/-- How many floors the reserve of R(p, c)/16 pays. -/
def State.floorsPaid (s : State) (p cls : Nat) : Nat := s.grantPool p cls / 16 / 64 / max 1 (s.rd F.ADM_GRANT_min_units)

/-- The budget of a connection in a class this period. -/
def State.budgetOf (s : State) (c : Nat) (k : Conn) (cls : Nat) : Nat :=
  if 64 ≤ k.part ∨ s.adm.zeroNext.contains (c * 8 + cls) then 0
  else
    let mine := s.grantConns.filter fun q => q.2.part == k.part
    if s.wasActive c cls then min (2 ^ 32 - 1) (s.activeBudget k.part cls k.vf mine)
    else if ((s.idleConns cls mine).take (s.floorsPaid k.part cls)).contains c then s.rd F.ADM_GRANT_min_units else 0

/-- Connections and classes whose floor this period does not pay. -/
def State.uncoveredNow (s : State) : List Nat :=
  ((List.range 64).map fun p =>
    let mine := s.grantConns.filter fun q => q.2.part == p
    if mine.isEmpty then [] else
    ((List.range 6).map fun cls => ((s.idleConns cls mine).drop (s.floorsPaid p cls)).map fun c => c * 8 + cls).flatten).flatten

/-- The grant period ends (R267): one GRANT on every OPEN connection, with all six budgets. -/
def State.grantPeriod (s : State) : State :=
  let conns := s.grantConns
  let budgets := conns.map fun q => (q, (List.range 6).map fun cls => s.budgetOf q.1 q.2 cls)
  let left := s.uncoveredNow
  let s := budgets.foldl (fun s b =>
    (s.sendCtl b.1.1 b.1.2 (.grant 63 (2 * s.rd F.ADM_GRANT_period_us) b.2) 0 0).bump F.ADM_GRANT_SENT) s
  { s with adm := { s.adm with active := [], zeroNext := [], uncovered := left } }

/-- GRANT_PERIOD_TIMER. -/
def execGrantPeriodTimer (s : State) : Host.Outcome State Fault Refusal := act s State.grantPeriod

/-- GRANT_EXPIRY: a connection and a class. -/
def execGrantExpiry (conn cls : Nat) (s : State) : Host.Outcome State Fault Refusal :=
  act s fun s => s.grantExpired conn cls

/-! ### Timers of an end -/

/-- PROBE_RESEND (R211). -/
def execProbeResend (conn : Nat) (s : State) : Host.Outcome State Fault Refusal :=
  act s fun s => match s.conn? conn with
    | some k => if k.state = .armed ∧ !k.roce then s.sendProbe conn k else s
    | none => s

/-- CLOSE_TIMEOUT (R211). -/
def execCloseTimeout (conn : Nat) (s : State) : Host.Outcome State Fault Refusal :=
  act s fun s => match s.conn? conn with
    | some k => if k.state = .closing ∧ k.closeSent then s.freeConn conn (some Status.aborted) else s
    | none => s

/-- KEEPALIVE_TIMER (R214): an OPEN end with a keep-alive interval sends KEEPALIVE, which takes a PSN. -/
def execKeepaliveTimer (conn : Nat) (s : State) : Host.Outcome State Fault Refusal :=
  act s fun s => match s.conn? conn with
    | some k =>
      if k.state = .open_ ∧ !k.roce ∧ k.keepaliveUs ≠ 0 ∧ k.svc < 2 then s.queuePkts conn [s.mkPkt k (.ctrl 3 0 k.svc 0 0) 7 0 0 0 0 []] none
      else s
    | none => s

/-- ACK_COALESCE_TIMER (R214). -/
def execAckCoalesceTimer (conn : Nat) (s : State) : Host.Outcome State Fault Refusal :=
  act s fun s => match s.conn? conn with
    | some k => if 0 < k.unacked then s.sendAck conn else s
    | none => s

/-- NAK_DELAY_EXPIRY (R219); on a RoCEv2 connection its RNR delay (R227). -/
def execNakDelayExpiry (conn psn : Nat) (s : State) : Host.Outcome State Fault Refusal :=
  act s fun s => match s.conn? conn with
    | some k => if k.roce then s.rnrOver conn else s.nakDelayOver conn psn
    | none => s

/-- READ_TIMEOUT (R218): the open read of an MSN. -/
def execReadTimeout (conn msn : Nat) (s : State) : Host.Outcome State Fault Refusal := act s fun s => s.readAgain conn msn

/-- The wait for a context exceeds 10 us (R222): its packets are answered NOT_READY, RoCEv2 ones dropped (R227); those for an end that has become
FREE meanwhile are answered UNKNOWN_CONN (R211). -/
def State.fetchTimeout (s : State) (c : Nat) : State :=
  let mine := s.bxt.fetching.filter fun p => p.dstConn == c
  let s := { s with bxt := { s.bxt with
    fetching := s.bxt.fetching.filter fun p => p.dstConn != c, roceFetching := s.bxt.roceFetching.filter fun p => p.qp != c } }
  match s.conn? c with
  | some k => mine.foldl (fun s p => s.fetchLate c k p) s
  | none => mine.foldl (fun s p => (s.bump F.BXT_INVALID).sendUnknown p) s

/-- CONTEXT_FETCH_TIMEOUT. -/
def execContextFetchTimeout (conn : Nat) (s : State) : Host.Outcome State Fault Refusal := act s fun s => s.fetchTimeout conn

end Sys2Proof.Machine
end

