-- ==== Sys2Proof/Machine/Police.lean ====
section
/-!
DEFINITION. Classification and policing (R276-R279, R281): the stages of the layout image over an arriving frame, the two-rate meters.
-/

namespace Sys2Proof.Machine

/-! ### Keys (R276) -/

/-- What classification has set so far: class, partition, meter (R277 code 3). -/
abbrev ClsSet := Option (Nat × Nat × Nat)

/-- The packet a frame carries, where it is BXT. -/
def bxtOf (f : Frame) : Option Packet :=
  match f.body with
  | .bxt p => some p
  | _ => none

/-- Whether a frame carries IP, by its EtherType. -/
def frameIp (f : Frame) : Bool := f.ethType == 0x0800 || f.ethType == 0x86DD

/-- One field of a key in network byte order; zeros where the frame does not carry it. -/
def keyField (port : Nat) (f : Frame) (set : ClsSet) (bit : Nat) : List Byte :=
  let ip := frameIp f
  let b := bxtOf f
  match bit with
  | 0 => beBytes 1 port
  | 1 => beBytes 6 f.dstMac
  | 2 => beBytes 6 f.srcMac
  | 3 => beBytes 2 (f.tag.getD 0)
  | 4 => beBytes 2 f.ethType
  | 5 => beBytes 1 (if ip then f.dscp * 4 + f.ecn else 0)
  | 6 => beBytes 1 (if ip then f.proto else 0)
  | 7 => beBytes 16 (if ip then f.srcIp else 0)
  | 8 => beBytes 16 (if ip then f.dstIp else 0)
  | 9 => beBytes 2 (if ip then f.sport else 0)
  | 10 => beBytes 2 (if ip then f.dport else 0)
  | 11 => match b with
    | some p => p.hdrBytes.take 2
    | none => [0, 0]
  | 12 => beBytes 3 ((b.map (·.dstConn)).getD 0)
  | 13 => beBytes 1 ((b.map fun p => p.cls + 8 * p.hops).getD 0)
  | 14 => beBytes 3 ((b.map (·.srcDev)).getD 0)
  | 15 => beBytes 3 ((b.map (·.dstDev)).getD 0)
  | 16 => beBytes 3 (match f.body with | .roce r => r.qp | _ => 0)
  | 17 => match set with
    | some (c, p, m) => beBytes 1 c ++ beBytes 1 p ++ beBytes 2 m
    | none => [0, 0, 0, 0]
  | _ => []

/-- The key of a stage: the selected fields in ascending bit order. -/
def stageKey (port : Nat) (f : Frame) (set : ClsSet) (selector : Nat) : List Byte :=
  ((List.range 18).filter fun b => selector.testBit b).flatMap fun b => keyField port f set b

/-! ### Matching (R277) -/

/-- A key matches an entry's bits under a mask. -/
def maskMatch : List Byte → List Byte → List Byte → Bool
  | [], _, _ => true
  | k :: t, e, m => ((k ^^^ e.headD 0) &&& m.headD 0) == 0 && maskMatch t (e.drop 1) (m.drop 1)

/-- The first `n` bits of two keys agree. -/
def prefixMatch : Nat → List Byte → List Byte → Bool
  | _, [], _ => true
  | n, k :: t, e =>
    if n = 0 then true
    else if 8 ≤ n then k == e.headD 0 && prefixMatch (n - 8) t (e.drop 1)
    else (k ^^^ e.headD 0).toNat / 2 ^ (8 - n) == 0

/-- The prefix length of an entry (R277 byte 7). -/
def ClsEntry.prefixLen (e : ClsEntry) : Nat := fieldLE e.action 7 1

/-- The entry of a stage that a key matches: exact, ternary (lowest first), longest prefix (lowest on a tie). -/
def ClsStage.find (st : ClsStage) (key : List Byte) : Option ClsEntry :=
  if st.kind = 0 then st.entries.find? fun e => key == e.key.take st.keyLen
  else if st.kind = 1 then st.entries.find? fun e => maskMatch key e.key e.mask
  else (st.entries.filter fun e => prefixMatch e.prefixLen key e.key).foldl (fun best e => match best with
    | none => some e
    | some b => if b.prefixLen < e.prefixLen then some e else some b) none

/-- How classification of a frame ends. -/
inductive ClsEnd where
  | pass (set : ClsSet)
  | drop
  | steward
  deriving DecidableEq, Repr

/-- Runs the stages from one on; a go-to names a later stage (R42), so 16 stages suffice. Code 3 sets nothing for transit (R296); code 4 gives telemetry
the first 128 bytes. -/
def State.classify (s : State) (port : Nat) (f : Frame) (transit : Bool) (stages : List ClsStage) : Nat → Nat → ClsSet → ClsEnd × State
  | 0, _, set => (.pass set, s)
  | fuel + 1, i, set =>
    match stages[i]? with
    | none => (.pass set, s)
    | some st =>
      match st.find (stageKey port f set st.selector) with
      | none => s.classify port f transit stages fuel (i + 1) set
      | some e =>
        let code := fieldLE e.action 0 1
        let stop := fieldLE e.action 6 1 % 2 == 1
        if code = 2 then (.drop, s.bump F.POL_CLS_DROP)
        else if code = 5 then (.steward, s.bump F.POL_STEWARD)
        else
          let s := if code = 4 then (s.bump F.POL_MIRROR).emit (.mirror port (min 128 f.len) f) else s
          let set := if code = 3 ∧ !transit then some (fieldLE e.action 2 1 % 8, fieldLE e.action 3 1, fieldLE e.action 4 2) else set
          if stop then (.pass set, s)
          else s.classify port f transit stages fuel (if code = 1 then max (i + 1) (fieldLE e.action 1 1) else i + 1) set

/-- Classifies a frame under the running image; none of the stages runs after a bare start. -/
def State.classifyFrame (s : State) (port : Nat) (f : Frame) (transit : Bool) : ClsEnd × State :=
  s.classify port f transit ((s.lay.running.map (·.stages)).getD []) 16 0 none

/-! ### Meters (R279) -/

/-- Bucket levels are kept in millionths of a bit times a thousand: 8,000 units a byte, one unit a nanosecond at 1 Mb/s. -/
abbrev meterUnit : Nat := 8000

/-- The meter of a number; one not yet set has the reset parameters and full buckets (log entry 8). -/
def State.meter (s : State) (m : Nat) : Meter :=
  (Tbl.get? s.meters m).getD ⟨1600000, 1600000, 1048576, 1048576, 1048576 * meterUnit, 1048576 * meterUnit, s.now, (0, 0), (0, 0), (0, 0)⟩

/-- Both buckets filled up to now. -/
def Meter.fill (m : Meter) (now : Nat) : Meter :=
  let dt := now - m.at_
  { m with tc := min (m.cbs * meterUnit) (m.tc + m.cir * dt), tp := min (m.pbs * meterUnit) (m.tp + m.pir * dt), at_ := now }

/-- Colours of a frame. -/
inductive Colour where
  | green
  | yellow
  | red
  deriving DecidableEq, Repr

/-- One frame more of a colour. -/
def addFrame (c : Nat × Nat) (len : Nat) : Nat × Nat := ((c.1 + 1) % 2 ^ 64, (c.2 + len) % 2 ^ 64)

/-- The colour-blind two-rate meter of RFC 2698 on a frame; `exempt` frames count as green whatever the buckets hold. -/
def Meter.take (m : Meter) (len : Nat) (exempt : Bool) : Colour × Meter :=
  let n := len * meterUnit
  if exempt then (.green, { m with green := addFrame m.green len })
  else if m.tp < n then (.red, { m with red := addFrame m.red len })
  else if m.tc < n then (.yellow, { m with tp := m.tp - n, yellow := addFrame m.yellow len })
  else (.green, { m with tp := m.tp - n, tc := m.tc - n, green := addFrame m.green len })

/-- Frames that are green on every meter: ACK, NAK, GRANT and CTRL packets (R278). -/
def greenFrame (f : Frame) : Bool :=
  match bxtOf f with
  | some p => match p.ext with
    | .ack .. => true
    | .nak .. => true
    | .grant .. => true
    | .ctrl .. => true
    | _ => false
  | none => false

/-- Meters a frame for this device (R278, R279): its colour. -/
def State.meterFrame (s : State) (m : Nat) (f : Frame) : Colour × State :=
  let (c, m') := ((s.meter m).fill s.now).take f.len (greenFrame f)
  (c, { s with meters := Tbl.set s.meters m m' })

/-- A red drop (R279, R269): counted, and the packet's connection and class are granted nothing next. -/
def State.redDrop (s : State) (f : Frame) : State :=
  let s := s.bump F.POL_RED
  match bxtOf f with
  | some p =>
    let key := p.dstConn * 8 + p.cls
    if s.adm.zeroNext.contains key then s else { s with adm := { s.adm with zeroNext := s.adm.zeroNext ++ [key] } }
  | none => s

/-- A frame with its ECN set to CE where it is ECT, which the packet it carries shows too. -/
def frameCe (f : Frame) : Frame :=
  if f.ecn = 0 then f
  else { f with
    ecn := 3
    body := match f.body with
      | .bxt p => .bxt { p with ce := true }
      | .roce p => .roce { p with ce := true }
      | b => b }

/-- Whether a frame is a BXT or RoCEv2 packet. -/
def isTransport (f : Frame) : Bool :=
  match f.body with
  | .bxt _ => true
  | .roce _ => true
  | _ => false

/-- A frame for this device after its last stage (R278, R279): the frame that passes, if it does. -/
def State.police (s : State) (f : Frame) (set : ClsSet) : Option Frame × State :=
  match set with
  | some (_, _, m) =>
    if m = 0xFFFF then (some f, s)
    else match s.meterFrame m f with
    | (.green, s) => (some f, s)
    | (.yellow, s) => (some (frameCe f), s)
    | (.red, s) => (none, s.redDrop f)
  | none => if isTransport f then (some f, s) else (none, s.bump F.POL_UNCLASSIFIED)

/-! ### POL_METER_CMD -/

/-- APPLY: all four staged parameters in one cycle, both buckets full; refused where CIR is above PIR (R279, R281). -/
def State.meterApply (s : State) : State :=
  let cir := s.rd F.POL_METER_RATE_cir_mbps
  let pir := s.rd F.POL_METER_RATE_pir_mbps
  if pir < cir then s.refuseWrite .POL 0x18
  else
    let n := s.rd F.POL_METER_SEL_meter
    let cbs := s.rd F.POL_METER_BURST_cbs
    let pbs := s.rd F.POL_METER_BURST_pbs
    let m := { s.meter n with cir := cir, pir := pir, cbs := cbs, pbs := pbs, tc := cbs * meterUnit, tp := pbs * meterUnit, at_ := s.now }
    { s with meters := Tbl.set s.meters n m }

/-- READ: the selected meter's parameters into the staging registers (R281). -/
def State.meterRead (s : State) : State :=
  let m := s.meter (s.rd F.POL_METER_SEL_meter)
  (((s.wr F.POL_METER_RATE_cir_mbps m.cir).wr F.POL_METER_RATE_pir_mbps m.pir).wr F.POL_METER_BURST_cbs m.cbs).wr F.POL_METER_BURST_pbs m.pbs

/-- METER_APPLY. -/
def execMeterApply (s : State) : Host.Outcome State Fault Refusal := act s (asManager false State.meterApply)

/-- METER_READ. -/
def execMeterRead (s : State) : Host.Outcome State Fault Refusal := act s (asManager false State.meterRead)

end Sys2Proof.Machine
end

