-- ==== Sys2Proof/Machine/Ports.lean ====
section
/-!
DEFINITION. Logical ports (R282-R295): link states, training, lane faults and the spare SerDes, flow control, LLDP, hop replay's exchange and
control frames (R302-R304).
-/

namespace Sys2Proof.Machine

/-! ### Frames the device sends -/

/-- A control frame of a logical port: 64 bytes (R288, R303), with the port's MAC. -/
def State.ctlFrame (s : State) (p : Nat) (dst ethType : Nat) (shim : Option Shim) (body : FrameBody) : Frame :=
  { len := 64, fcsOk := true, fecCorr := 0, fecBad := 0, dstMac := dst, srcMac := s.rd F.PRT_LP_mac p, tag := none, shim := shim,
    ethType := ethType, dscp := 0, ecn := 0, proto := 0, srcIp := 0, dstIp := 0, sport := 0, dport := 0, body := body }

/-- A frame leaves by a port: counted (R308) and measured (R305). -/
def State.sendFrame (s : State) (p : Nat) (f : Frame) : State :=
  let s := ((s.bump F.PRT_TX_FRAMES 1 p).bump F.PRT_TX_BYTES f.len p).modLport p fun l => { l with wxTx := l.wxTx + f.len }
  s.emit (.frame p f)

/-- The multicast address of MAC control frames and that of LLDP (R289, R293). -/
abbrev pfcMac : Nat := 0x0180C2000001
abbrev lldpMac : Nat := 0x0180C200000E

/-- The shim a data or FILLER frame takes on a port where replay runs. -/
def State.dataShim (s : State) (p kind hsn inner : Nat) : Option Shim :=
  if s.rd F.PRT_LP_replay_on p = 1 then some ⟨0x88B6, kind, true, 0, hsn, ((s.lport p).rxHsn + 4095) % 4096, inner⟩ else none

/-- The length a frame has in the replay buffer. -/
def HopSent.len (x : HopSent) : Nat :=
  match x.frame with
  | some q => q.len + 8
  | none => 64

/-- Whether the replay buffer of a port and the limit of 2,048 HSNs leave room for a new frame (R304). -/
def State.replayRoom (s : State) (p len : Nat) : Bool :=
  let l := s.lport p
  let sharers := ((List.range 8).filter fun k => s.rd F.PRT_LP_replay_on (p / 8 * 8 + k) == 1).length
  s.rd F.PRT_LP_replay_on p == 0
    || (decide (l.unacked.length < 2048) && decide (sumNat (l.unacked.map HopSent.len) + len + 8 ≤ 2 ^ 21 / max 1 sharers))

/-- A frame takes the next HSN of a port where replay runs and is kept until it is acknowledged (R304); its shim carries an acknowledgement. -/
def State.keepSent (s : State) (p : Nat) (frame : Option Queued) (ctl : Option Frame) : State :=
  if s.rd F.PRT_LP_replay_on p = 1 then
    s.modLport p fun l => { l with
      txHsn := (l.txHsn + 1) % 4096, toAck := 0, unacked := l.unacked ++ [{ hsn := l.txHsn, frame := frame, ctl := ctl }] }
  else s

/-- Sends a frame of the port itself, an LLDPDU or a PFC frame: with the shim of a data frame where replay runs, as every frame carries it then (R303),
and not at all where the replay buffer has no room (R304). -/
def State.sendOwn (s : State) (p dst ethType : Nat) (body : FrameBody) (counted : State → State) : State :=
  if !s.replayRoom p 56 then s
  else
    let f := match s.dataShim p 0 (s.lport p).txHsn ethType with
      | some h => s.ctlFrame p dst 0x88B6 (some h) body
      | none => s.ctlFrame p dst ethType none body
    counted ((s.keepSent p none (some f)).sendFrame p f)

/-- Sends a PFC frame for one traffic class (R293). -/
def State.sendPfc (s : State) (p tc quanta : Nat) : State :=
  s.sendOwn p pfcMac 0x8808 (.pfc (1 <<< tc) ((List.range 8).map fun i => if i = tc then quanta else 0)) fun s => s.bump F.PRT_PFC_TX 1 p

/-- Sends an LLDPDU (R295). -/
def State.sendLldp (s : State) (p : Nat) : State :=
  s.sendOwn p lldpMac 0x88CC
    (.lldp ⟨s.rd F.PRT_LP_mac p, p, 4, some ⟨s.rd F.GLB_ID_part_number, s.rd F.GLB_ID_stepping_major * 16 + s.rd F.GLB_ID_stepping_minor, s.devAddr, p,
      s.rd F.PRT_LP_hop_replay p == 1⟩⟩) id

/-- Sends a control frame of hop replay (R303). -/
def State.sendHop (s : State) (p kind hsn : Nat) : State :=
  let l := s.lport p
  let on := s.rd F.PRT_LP_replay_on p == 1
  let ack := (l.rxHsn + 4095) % 4096
  let s := s.modLport p fun l => { l with toAck := 0 }
  s.sendFrame p (s.ctlFrame p (s.rd F.PRT_LP_nh_mac p) 0x88B6 (some ⟨0x88B6, kind, on, 0, hsn, if on then ack else 0, 0⟩) .hop)

/-! ### Hop replay: start and stop (R302) -/

/-- Replay stops and its buffer is discarded. -/
def State.stopReplay (s : State) (p : Nat) : State :=
  (s.wr F.PRT_LP_replay_on 0 p).modLport p fun l =>
    { l with txHsn := 0, unacked := [], again := [], rxHsn := 0, nak := none, toAck := 0 }

/-- Replay runs from HSN 0. -/
def State.startReplay (s : State) (p : Nat) : State := (s.stopReplay p).wr F.PRT_LP_replay_on 1 p

/-- Whether replay may run on a port: its `hop_replay`, and a neighbour that sets the replay bit (R302). -/
def State.replayOk (s : State) (p : Nat) : Bool :=
  s.portUp p && s.rd F.PRT_LP_hop_replay p == 1 && (s.lport p).nbr && (s.lport p).nbrReplay

/-! ### Link states (R290, R291) -/

/-- A logical port changes state; every change is logged. -/
def State.setLp (s : State) (p st : Nat) : State := (s.wr F.PRT_LP_state st p).logEv .PRT .stateChange st p p

/-- A logical port leaves UP, or is disabled: nothing is placed on it; what was queued for it is dropped and counted, and a packet of
the device's own is left to its timer (R291, R213); replay, pause and the
neighbour are forgotten. -/
def State.portOut (s : State) (p st : Nat) : State :=
  let gone := s.egress.filter fun q => q.port == p
  let n := gone.length
  let s := (s.measure p).stopReplay p
  let s := gone.foldl (fun s q => s.timerOf q none) { s with egress := s.egress.filter fun q => q.port != p }
  let s := (s.bump F.HOP_DROP_DOWN n).modLport p fun l =>
    { l with fails := 0, waiting := false, fecs := [], paused := [], deaf := [], xoff := [], nbr := false, nbrReplay := false }
  let s := s.wr F.PRT_LP_permille 0 p
  let s := (((s.wr F.PRT_LP_nbr_rymus 0 p).wr F.PRT_LP_nbr_dev 0 p).wr F.PRT_LP_nbr_lport 0 p)
  s.setLp p st

/-- `admin` is written (R290). -/
def State.portAdmin (s : State) (p admin : Nat) : State :=
  let s := s.wr F.PRT_LP_admin admin p
  if admin = 1 ∧ s.rd F.PRT_LP_state p = lpDisabled then s.setLp p lpTraining
  else if admin = 0 ∧ s.rd F.PRT_LP_state p ≠ lpDisabled then s.portOut p lpDisabled
  else s

/-- A write to `admin` of a logical port the split does not create is refused under R10 (R308). -/
def State.portAdminWrite (s : State) (p admin : Nat) : State :=
  if s.lportExists p ∧ admin < 2 then s.portAdmin p admin else s.refuseWrite .PRT (0x100 + 0x40 * (p % 8)) p

/-- PORT_ADMIN_WRITE. -/
def execPortAdminWrite (port admin : Nat) (s : State) : Host.Outcome State Fault Refusal :=
  actOn (decide (port < 64)) s (asManager false fun s => s.portAdminWrite port admin)

/-- The logical port of a port that uses a lane (R282). -/
def State.laneOwner (s : State) (n lane : Nat) : Nat :=
  let k := ((s.lay.running.bind fun l => l.ports[n]?).map (·.split)).getD 0
  8 * n + lane * 2 ^ k / 8

/-- The SerDes that serves a lane now: the spare where it is mapped there (R283), else that of `lane_order`. -/
def State.serdesOf (s : State) (n lane : Nat) : Nat :=
  let order := ((s.lay.running.bind fun l => l.ports[n]?).map (·.laneOrder)).getD []
  if s.rd F.PRT_PORT_STATE_spare_lane n = lane then order.getD 8 8 else order.getD lane lane

/-- Whether a port's spare SerDes, the ninth of its lane order, is free, in service and not marked defective by the fuses (R31, R41). -/
def State.netSpareFree (s : State) (n : Nat) : Bool :=
  s.rd F.PRT_PORT_STATE_spare_lane n == 15 && !(s.rd F.PRT_PORT_STATE_retired n).testBit (s.serdesOf n 8) && !s.built.defects.contains (0, 9 * n + s.serdesOf n 8)

/-- Whether a SerDes in service stands behind every lane of a logical port (R31, R284). -/
def State.portServed (s : State) (p : Nat) : Bool :=
  (List.range 8).all fun lane => s.laneOwner (p / 8) lane != p || !(s.rd F.PRT_PORT_STATE_retired (p / 8)).testBit (s.serdesOf (p / 8) lane)

/-- An attempt at training ends (R290): UP, with its LLDPDU, or a logged failure and a back-off, as always where a lane has no SerDes (R31). -/
def State.trained (s : State) (p : Nat) (ok : Bool) : State :=
  if s.rd F.PRT_LP_state p ≠ lpTraining ∨ (s.lport p).waiting then s
  else if ok && s.portServed p then
    let s := ((s.modLport p fun l => { l with fails := 0, waiting := false, wxAt := s.now }).wr F.PRT_LP_permille 1000 p).setLp p lpUp
    if s.rd F.PRT_LP_lldp p = 1 then s.sendLldp p else s
  else
    (s.modLport p fun l => { l with fails := l.fails + 1, waiting := true }).logEv .PRT .timeout 0 p p

/-- TRAINING_DONE. -/
def execTrainingDone (port : Nat) (ok : Bool) (s : State) : Host.Outcome State Fault Refusal :=
  actOn (s.lportExists port) s fun s => s.trained port ok

/-- TRAINING_RETRY_TIMER: the back-off of a failed attempt ends and another begins. -/
def execTrainingRetryTimer (port : Nat) (s : State) : Host.Outcome State Fault Refusal :=
  actOn (s.lportExists port) s fun s => s.modLport port fun l => { l with waiting := false }

/-- ALIGNMENT_LOSS (R290, R291). -/
def execAlignmentLoss (port : Nat) (s : State) : Host.Outcome State Fault Refusal :=
  actOn (s.lportExists port) s fun s => if s.portUp port then s.portOut port lpDown else s

/-- DOWN_RETRAIN_TIMER (R290): not while a lane of the port is in its loopback test, nor where no SerDes serves one (R284). -/
def State.downRetrain (s : State) (p : Nat) : State :=
  if s.rd F.PRT_LP_state p = lpDown ∧ (s.lport p).testing.isNone then s.setLp p lpTraining else s

/-- DOWN_RETRAIN_TIMER. -/
def execDownRetrainTimer (port : Nat) (s : State) : Host.Outcome State Fault Refusal :=
  actOn (s.lportExists port) s fun s => s.downRetrain port

/-! ### Lane faults (R284) -/

/-- Operations in flight whose connection sends by a logical port: the one it has settled on, or any of its set (R215, R273). -/
def State.opsOverPort (s : State) (p : Nat) : List Nat :=
  (s.bxt.conns.filter fun q => if q.2.spray = 0 then q.2.port == some p else (s.upPorts q.2.peerDev).contains p).flatMap fun q => s.opsOfConn q.1

/-- A lane fault in UP: its logical port goes DOWN and the SerDes is tested. What used the lane records cause 8 (R273). -/
def State.laneFault (s : State) (n lane : Nat) : State :=
  let p := s.laneOwner n lane
  if s.portUp p then
    let s := (s.opsOverPort p).foldl (fun (s : State) id => s.recordCause id 8) s
    (s.portOut p lpDown).modLport p fun l => { l with testing := some lane }
  else s

/-- Uncorrectable codewords on a logical port, so many: more than `fec_alarm` in one second on one lane are a lane fault (R284). Whether they fall on
one lane, and on which, is free. -/
def State.fecAlarm (s : State) (p n : Nat) : State :=
  let times := ((s.lport p).fecs.filter fun q => decide (s.now < q.1 + sec)) ++ [(s.now, n)]
  let s := s.modLport p fun l => { l with fecs := times }
  if sumNat (times.map Prod.snd) ≤ s.rd F.PRT_TRANSIT_fec_alarm (p / 8) then s
  else
    let lanes := (List.range 8).filter fun lane => s.laneOwner (p / 8) lane == p
    let (d, s) := s.drawBelow (lanes.length + 1)
    match lanes[d]? with
    | some lane => s.laneFault (p / 8) lane
    | none => s

/-- LANE_FAULT: a port and one of its eight lanes. -/
def execLaneFault (port lane : Nat) (s : State) : Host.Outcome State Fault Refusal :=
  actOn (decide (port < 8) && decide (lane < 8) && s.lay.running.isSome) s fun s => s.laneFault port lane

/-- Retires a SerDes of a port (R284, R33). -/
def State.retireSerdes (s : State) (n serdes : Nat) (wasSpare : Bool) : State :=
  (s.wr F.PRT_PORT_STATE_retired (setBit (s.rd F.PRT_PORT_STATE_retired n) serdes) n).countRetired 0 (9 * n + serdes) wasSpare

/-- The loopback test ends (R284): a failed SerDes is retired, the spare mapped in its place where it is free and healthy; a passed one marks the
fault as external. The port trains again unless no SerDes serves its lane. -/
def State.loopbackDone (s : State) (n lane : Nat) (pass : Bool) : State :=
  let p := s.laneOwner n lane
  if (s.lport p).testing ≠ some lane then s
  else
    let s := s.modLport p fun l => { l with testing := none }
    if pass then (s.logEv .PRT .timeout 1 p p).downRetrain p
    else
      let bad := s.serdesOf n lane
      let s := s.retireSerdes n bad (s.rd F.PRT_PORT_STATE_spare_lane n == lane)
      if s.netSpareFree n then ((s.wr F.PRT_PORT_STATE_spare_lane lane n).countMapped 0 (9 * n + lane) (s.serdesOf n 8)).downRetrain p
      else s.modLport p fun l => { l with testing := some 8 }

/-- LOOPBACK_TEST_DONE. -/
def execLoopbackTestDone (port lane : Nat) (pass : Bool) (s : State) : Host.Outcome State Fault Refusal :=
  actOn (decide (port < 8) && decide (lane < 8) && s.lay.running.isSome) s fun s => s.loopbackDone port lane pass

/-! ### Flow control (R293, R294) -/

/-- Whether a traffic class uses priority flow control (R44). -/
def State.pfcClass (s : State) (tc : Nat) : Bool := ((s.lay.running.map (·.curfew)).getD []).any fun r => r.tc == tc && r.pfc

/-- One class of a received PFC frame: 512-bit quanta at the port's rate, rounded up to a nanosecond. -/
def State.pfcOne (s : State) (p tc quanta : Nat) : State :=
  if !s.pfcClass tc then s
  else if quanta = 0 then s.modLport p fun l => { l with paused := Tbl.erase l.paused tc, deaf := l.deaf.filter (· != tc) }
  else if (s.lport p).deaf.contains tc then s
  else
    let until_ := s.now + ceilDiv (quanta * 64) (max 1 (s.portRate p))
    s.modLport p fun l => { l with paused := Tbl.set l.paused tc (until_, ((Tbl.get? l.paused tc).map (·.2)).getD s.now) }

/-- A PFC frame on a port: one that names only classes without flow control is dropped and counted. -/
def State.pfcFrame (s : State) (p enable : Nat) (quanta : List Nat) : State :=
  let tcs := (List.range 8).filter fun i => enable.testBit i
  if tcs.any s.pfcClass then tcs.foldl (fun s tc => s.pfcOne p tc (quanta.getD tc 0)) ((s.bump F.PRT_PFC_RX 1 p).evt 15)
  else s.bump F.PRT_PFC_IGNORED 1 p

/-- PFC_FRAME: the class-enable vector and the eight quanta. -/
def execPfcFrame (port enable : Nat) (quanta : List Nat) (s : State) : Host.Outcome State Fault Refusal :=
  actOn (s.lportExists port) s fun s => if s.portUp port then s.pfcFrame port enable quanta else s

/-- PFC_QUANTA_EXPIRY. -/
def execPfcQuantaExpiry (port tc : Nat) (s : State) : Host.Outcome State Fault Refusal :=
  actOn (s.lportExists port && decide (tc < 8)) s fun s => s.modLport port fun l => { l with paused := Tbl.erase l.paused tc }

/-- The use of a port's ingress buffer by a traffic class, in KiB, meets its thresholds (R293): XOFF above `xoff_kib`, repeated while above
`xon_kib`, and quanta 0 once it has fallen there. -/
def State.pfcRefresh (s : State) (p tc kib : Nat) : State :=
  if !s.pfcClass tc ∨ !s.portUp p then s
  else
    let sent := (s.lport p).xoff.contains tc
    if s.rd F.PRT_PFC_xoff_kib (p / 8) < kib ∨ (sent ∧ s.rd F.PRT_PFC_xon_kib (p / 8) < kib) then
      (s.modLport p fun l => { l with xoff := if sent then l.xoff else l.xoff ++ [tc] }).sendPfc p tc 0xFFFF
    else if sent ∧ kib ≤ s.rd F.PRT_PFC_xon_kib (p / 8) then
      (s.modLport p fun l => { l with xoff := l.xoff.filter (· != tc) }).sendPfc p tc 0
    else s

/-- PFC_REFRESH_TIMER: a traffic class of a port, with its use of the ingress buffer in KiB. -/
def execPfcRefreshTimer (port tc kib : Nat) (s : State) : Host.Outcome State Fault Refusal :=
  actOn (s.lportExists port && decide (tc < 8)) s fun s => s.pfcRefresh port tc kib

/-- PFC_WATCHDOG (R294). -/
def State.pfcWatchdog (s : State) (p tc : Nat) : State :=
  if (Tbl.get? (s.lport p).paused tc).isNone then s
  else
    ((s.modLport p fun l => { l with paused := Tbl.erase l.paused tc, deaf := l.deaf ++ [tc] }).bump F.PRT_PFC_WD 1 p).logEv .PRT .timeout 2 p p

/-- PFC_WATCHDOG. -/
def execPfcWatchdog (port tc : Nat) (s : State) : Host.Outcome State Fault Refusal :=
  actOn (s.lportExists port && decide (tc < 8)) s fun s => s.pfcWatchdog port tc

/-! ### LLDP (R295) -/

/-- LLDP_TIMER. -/
def execLldpTimer (port : Nat) (s : State) : Host.Outcome State Fault Refusal :=
  actOn (s.lportExists port) s fun s => if s.portUp port ∧ s.rd F.PRT_LP_lldp port = 1 then s.sendLldp port else s

/-- A neighbour's LLDPDU: its Rymus TLV, and the next-hop MAC unless the manager has written one. Where replay may now run, START is sent
(R302). -/
def State.lldpdu (s : State) (p : Nat) (d : Lldp) : State :=
  if d.ttl = 0 then forget s p
  else
    let s := s.modLport p fun l => { l with nbr := true, nbrReplay := (d.rymus.map (·.replay)).getD false }
    let s := match d.rymus with
      | some t => ((s.wr F.PRT_LP_nbr_rymus 1 p).wr F.PRT_LP_nbr_dev t.dev p).wr F.PRT_LP_nbr_lport t.lport p
      | none => ((s.wr F.PRT_LP_nbr_rymus 0 p).wr F.PRT_LP_nbr_dev 0 p).wr F.PRT_LP_nbr_lport 0 p
    let s := if s.rd F.PRT_LP_nh_mac p = 0 ∨ s.rd F.PRT_LP_nh_learned p = 1 then
        (s.wr F.PRT_LP_nh_mac d.chassis p).wr F.PRT_LP_nh_learned 1 p else s
    if s.replayOk p then (if s.rd F.PRT_LP_replay_on p = 1 then s else s.sendHop p 3 0)
    else if s.rd F.PRT_LP_replay_on p = 1 then s.stopReplay p else s
where
  /-- The neighbour is forgotten and replay stops. -/
  forget (s : State) (p : Nat) : State :=
    let s := (s.stopReplay p).modLport p fun l => { l with nbr := false, nbrReplay := false }
    ((s.wr F.PRT_LP_nbr_rymus 0 p).wr F.PRT_LP_nbr_dev 0 p).wr F.PRT_LP_nbr_lport 0 p

/-- LLDPDU. -/
def execLldpdu (port : Nat) (pdu : Lldp) (s : State) : Host.Outcome State Fault Refusal :=
  actOn (s.lportExists port) s fun s => if s.portUp port then s.lldpdu port pdu else s

/-- LLDP_TTL_EXPIRY. -/
def execLldpTtlExpiry (port : Nat) (s : State) : Host.Outcome State Fault Refusal :=
  actOn (s.lportExists port) s fun s => State.lldpdu.forget s port

/-! ### Hop replay: the exchange, acknowledgements, replays (R302, R304) -/

/-- HOP_START: answered, and replay runs from HSN 0, where it may. -/
def State.hopStart (s : State) (p : Nat) : State := if s.replayOk p then (s.startReplay p).sendHop p 4 0 else s

/-- HOP_START. -/
def execHopStart (port : Nat) (s : State) : Host.Outcome State Fault Refusal :=
  actOn (s.lportExists port) s fun s => s.hopStart port

/-- START_ACK completes the exchange. -/
def State.hopStartAck (s : State) (p : Nat) : State :=
  if s.replayOk p ∧ s.rd F.PRT_LP_replay_on p = 0 then s.startReplay p else s

/-- HOP_START_ACK. -/
def execHopStartAck (port : Nat) (s : State) : Host.Outcome State Fault Refusal :=
  actOn (s.lportExists port) s fun s => s.hopStartAck port

/-- HSN x lies at or before y (serial, 12 bits). -/
def hsnUpTo (x y : Nat) : Bool := decide ((y + 4096 - x % 4096) % 4096 < 2048)

/-- An acknowledgement releases frames up to an HSN. -/
def State.hopAck (s : State) (p ack : Nat) : State :=
  let l := s.lport p
  let left := l.unacked.filter fun x => !hsnUpTo x.hsn ack
  s.modLport p fun l => { l with unacked := left, again := l.again.filter fun h => !hsnUpTo h ack }

/-- HOP_ACK. -/
def execHopAck (port ack : Nat) (s : State) : Host.Outcome State Fault Refusal :=
  actOn (s.lportExists port) s fun s => if s.rd F.PRT_LP_replay_on port = 1 then s.hopAck port ack else s

/-- Replays everything from an HSN on; where one of them has been replayed 8 times already the port goes DOWN (R304). -/
def State.hopReplay (s : State) (p hsn : Nat) : State :=
  let l := s.lport p
  let from_ := l.unacked.filter fun x => !(hsnUpTo x.hsn hsn && x.hsn != hsn)
  if from_.isEmpty then s
  else if from_.any fun x => decide (8 ≤ x.replays) then (s.bump F.HOP_LINK_FAIL).portOut p lpDown
  else
    let s := (s.modLport p fun l => { l with again := from_.map (·.hsn) }).bump F.HOP_REPLAY from_.length
    from_.foldl (fun s _ => s.evt 4) s

/-- HOP_NAK: the HSN expected; those before it have arrived. -/
def execHopNak (port hsn : Nat) (s : State) : Host.Outcome State Fault Refusal :=
  actOn (s.lportExists port) s fun s =>
    if s.rd F.PRT_LP_replay_on port = 1 then (s.hopAck port ((hsn + 4095) % 4096)).hopReplay port hsn else s

/-- HOP_ACK_TIMEOUT: from the oldest unacknowledged frame. -/
def State.hopTimeout (s : State) (p : Nat) : State :=
  match (s.lport p).unacked with
  | x :: _ => s.hopReplay p x.hsn
  | [] => s

/-- HOP_ACK_TIMEOUT. -/
def execHopAckTimeout (port : Nat) (s : State) : Host.Outcome State Fault Refusal :=
  actOn (s.lportExists port) s fun s => if s.rd F.PRT_LP_replay_on port = 1 then s.hopTimeout port else s

/-- HOP_ACK_TIMER: an ACK frame, when nothing else has carried the acknowledgement. -/
def execHopAckTimer (port : Nat) (s : State) : Host.Outcome State Fault Refusal :=
  actOn (s.lportExists port) s fun s => if s.rd F.PRT_LP_replay_on port = 1 ∧ 0 < (s.lport port).toAck then s.sendHop port 1 0 else s

end Sys2Proof.Machine
end

