-- ==== Sys2Proof/Machine/Relay.lean ====
section
/-!
DEFINITION. The relay and the ports' data path: transit (R296-R299), transmission (R265, R288, R292, R299, R304), reception (R286-R289, R303,
R304), routes (R300), weather (R305, R306).
-/

namespace Sys2Proof.Machine

/-! ### Routes (R300) -/

/-- Ends a route command. -/
def State.routeResult (s : State) (reason : Nat) : State :=
  let s := ((s.wr F.HOP_ROUTE_STATUS_done (b2n (reason == 0))).wr F.HOP_ROUTE_STATUS_refused (b2n (reason != 0))).wr
    F.HOP_ROUTE_STATUS_reason reason
  let s := s.wr F.HOP_ROUTE_STATUS_entries s.routes.length
  if reason = 0 then s else s.logRefused .HOP reason (s.rd F.HOP_ROUTE_DST_dst)

/-- Whether a mask is non-zero and names only logical ports that exist (R43). -/
def State.routeMaskOk (s : State) (m : Nat) : Bool := m != 0 && (maskPorts m).all s.lportExists

/-- WRITE: one entry whole. -/
def State.routeWrite (s : State) : State :=
  let d := s.rd F.HOP_ROUTE_DST_dst
  let m := s.rd F.HOP_ROUTE_MASK_mask
  if d = s.devAddr then s.routeResult 2
  else if !s.routeMaskOk m then s.routeResult 1
  else if (Tbl.get? s.routes d).isNone ∧ 65536 ≤ s.routes.length then s.routeResult 3
  else ({ s with routes := Tbl.set s.routes d m }).routeResult 0

/-- DELETE. -/
def State.routeDelete (s : State) : State :=
  let d := s.rd F.HOP_ROUTE_DST_dst
  if (Tbl.get? s.routes d).isNone then s.routeResult 1 else ({ s with routes := Tbl.erase s.routes d }).routeResult 0

/-- READ. -/
def State.routeRead (s : State) : State :=
  match Tbl.get? s.routes (s.rd F.HOP_ROUTE_DST_dst) with
  | some m => (s.wr F.HOP_ROUTE_MASK_mask m).routeResult 0
  | none => s.routeResult 1

/-- ROUTE_WRITE. -/
def execRouteWrite (s : State) : Host.Outcome State Fault Refusal := act s (asManager false State.routeWrite)

/-- ROUTE_DELETE. -/
def execRouteDelete (s : State) : Host.Outcome State Fault Refusal := act s (asManager false State.routeDelete)

/-- ROUTE_READ. -/
def execRouteRead (s : State) : Host.Outcome State Fault Refusal := act s (asManager false State.routeRead)

/-! ### Transit (R296-R299) -/

/-- Bytes of transit frames held, all in all and for one port (R299). -/
def State.transitBytes (s : State) (port : Option Nat) : Nat :=
  sumNat ((s.egress.filter fun q => q.transit && (port.isNone || port == some q.port)).map (·.len))

/-- A received frame's traffic class (R292). -/
def State.frameClass (s : State) (f : Frame) : Nat :=
  match f.tag with
  | some t => t / 8192 % 8
  | none => (((s.lay.running.map (·.curfew)).getD []).find? (fun r => r.dscp == f.dscp)).map (·.tc) |>.getD 0

/-- The key of a port's transit clock in a class (R299). -/
def transitKey (port cls : Nat) : Nat := 2 ^ 40 + port * 8 + cls

/-- The stamp of a transit frame on its port, where the port reserves a share for transit (R299, R265). -/
def State.transitStamp (s : State) (port cls len : Nat) : Nat × State :=
  let share := s.rd F.PRT_TRANSIT_transit_share (port / 8)
  if share = 0 ∨ 6 ≤ cls then (s.now, s)
  else
    let r : Rate := ⟨s.portCap port * (256 - s.rd F.ADM_CFG_mgmt_frac) * s.classFrac cls * share, 256 * 256 * 256⟩
    let fin := max s.now (Tbl.getD s.adm.clocks (transitKey port cls) 0) + r.ns len
    (fin, { s with adm := { s.adm with clocks := Tbl.set s.adm.clocks (transitKey port cls) fin } })

/-- The length a frame has on a port, with the hop shim where replay runs there (R287, R303). -/
def State.lenOn (s : State) (p len : Nat) : Nat := len + 8 * s.rd F.PRT_LP_replay_on p

/-- Steps 2 to 6 of R296 for a transit packet that classification has let through. -/
def State.transit (s : State) (ingress : Nat) (f : Frame) (p : Packet) (stomp : Bool) : State :=
  if s.devAddr = 0xFFFFF then s
  else if p.hops = 0 then s.bump F.HOP_DROP_HOPS
  else
    let ports := (s.upPorts p.dstDev).filter (· != ingress)
    if ports.any fun j => decide (s.rd F.PRT_LP_max_frame j < s.lenOn j f.len) then s.bump F.HOP_DROP_OVERSIZE
    else
      let tc := s.frameClass f
      match s.choosePort p.dstDev tc p.pathId ports with
      | none => s.bump F.HOP_DROP_NOROUTE
      | some port =>
        if 2 ^ 25 < s.transitBytes none + f.len ∨ 2 ^ 22 < s.transitBytes (some port) + f.len then s.bump F.HOP_DROP_FULL
        else
          let (stamp, s) := s.transitStamp port p.cls f.len
          let p := { p with hops := p.hops - 1 }
          let s := if stomp then s.bump F.HOP_STOMP else s
          (s.pushFrame { port := port, cls := p.cls, tc := tc, stamp := stamp, len := f.len, pkt := p, transit := true, tag := f.tag,
                         stomp := stomp, conn := none, at_ := s.now, roce := none, sealing := none, vf := none }).bump F.HOP_FWD

/-- TRANSIT_AGE_EXPIRY: the n-th waiting frame, where it is transit (R299). -/
def State.transitAged (s : State) (n : Nat) : State :=
  match s.egress[n]? with
  | some q => if q.transit then ({ s.measure q.port with egress := s.egress.eraseIdx n }).bump F.HOP_DROP_AGE else s
  | none => s

/-- TRANSIT_AGE_EXPIRY. -/
def execTransitAgeExpiry (n : Nat) (s : State) : Host.Outcome State Fault Refusal := act s fun s => s.transitAged n

/-! ### Transmission (R265, R288, R292, R293, R299, R304) -/

/-- Whether a traffic class of a port is paused now. -/
def State.paused (s : State) (p tc : Nat) : Bool :=
  match Tbl.get? (s.lport p).paused tc with
  | some (t, _) => decide (s.now < t)
  | none => false

/-- Whether class 7 may send a frame now: within `mgmt_frac` of the port's rate over 10 us (R265); a frame longer than that goes alone. -/
def State.mgmtRoom (s : State) (p len : Nat) : Bool :=
  let used := sumNat (((s.lport p).sent7.filter fun q => decide (s.now < q.1 + 10 * us)).map Prod.snd)
  used == 0 || decide ((used + len) * 256 ≤ s.rd F.ADM_CFG_mgmt_frac * s.portRate p * 10 * us)

/-- The connection and class whose grant paces a waiting packet (R268): one of classes 0-5 that takes a PSN, on a connection that has a grant. -/
def State.pacedBy (s : State) (q : Queued) : Option (Nat × Nat) :=
  if 6 ≤ q.cls then none
  else q.conn.bind fun c => if (Tbl.get? s.adm.grants (c * 8 + q.cls)).isSome then some (c, q.cls) else none

/-- Whether a packet waits for its connection's grant of its class: the grant has fallen to 0 (R268, R269), or its rate lets none leave yet. -/
def State.grantHeld (s : State) (q : Queued) : Bool :=
  match s.pacedBy q with
  | some (c, cls) => (s.grantRate c cls).num == 0 || decide (s.now < Tbl.getD s.adm.pace (c * 8 + cls) 0)
  | none => false

/-- The bytes of a packet that its grant is charged (R263): its payload, or 64 for an ATOMIC. -/
def grantBytes (p : Packet) : Nat :=
  match p.ext with
  | .atomic .. => 64
  | _ => p.payload.length

/-- A packet leaves at its grant's rate (R268): the next one of the connection and class waits for its bytes. -/
def State.paceOut (s : State) (q : Queued) : State :=
  match s.pacedBy q with
  | some (c, cls) =>
    let at_ := max s.now (Tbl.getD s.adm.pace (c * 8 + cls) 0) + (s.grantRate c cls).ns (grantBytes q.pkt)
    { s with adm := { s.adm with pace := Tbl.set s.adm.pace (c * 8 + cls) at_ } }
  | none => s

/-- The weight of a class 6 frame: its instance's (R260, R378), or 1. -/
def State.wrrWeight (s : State) (q : Queued) : Nat :=
  match q.vf with
  | some v => max 1 (s.weight v (s.rd F.PTN_INST_partition v))
  | none => 1

/-- Where the turn of a class 6 frame begins (R260): behind its instance's last one, and not before the turn being served. The bytes an
instance has sent, divided by its weight, are what the turns are ordered by (DESIGN CHOICE, log entry 50). -/
def State.wrrStart (s : State) (q : Queued) : Nat :=
  let l := s.lport q.port
  max l.wrrAt (Tbl.getD l.wrr ((q.vf.map (· + 1)).getD 0) 0)

/-- A class 6 frame has its turn. -/
def State.wrrServed (s : State) (q : Queued) : State :=
  let a := s.wrrStart q
  let w := s.wrrWeight q
  s.modLport q.port fun l => { l with wrrAt := a, wrr := Tbl.set l.wrr ((q.vf.map (· + 1)).getD 0) (a + q.len * 65536 / w) }

/-- The place of a waiting frame in the order of service: class 7; classes 0-5 with a reserved rate, by stamp; transit of classes 0-5 that takes
what they leave; class 6, by turns. None where it may not go now: its class is paused, its grant holds it, or its instance's bucket does (R266). -/
def State.service (s : State) (q : Queued) : Option (Nat × Nat) :=
  if s.paused q.port q.tc || s.grantHeld q || decide (s.now < q.start) then none
  else if 7 ≤ q.cls then (if s.mgmtRoom q.port q.len then some (0, 0) else none)
  else if q.cls = 6 then some (3, s.wrrStart q)
  else if q.transit ∧ s.rd F.PRT_TRANSIT_transit_share (q.port / 8) = 0 then some (2, 0)
  else some (1, q.stamp)

/-- The index of the frame a port sends next: the first of the least in the order of service. -/
def State.nextFrame (s : State) (port : Nat) : Option Nat :=
  (s.egress.zipIdx.foldl (fun (best : Option (Nat × Nat × Nat)) q =>
    if q.1.port ≠ port then best
    else match s.service q.1, best with
    | none, b => b
    | some (a, t), none => some (a, t, q.2)
    | some (a, t), some (a', t', i) => if a < a' ∨ (a = a' ∧ t < t') then some (a, t, q.2) else some (a', t', i)) none).map fun b => b.2.2

/-- The frame of a queued packet as it leaves a port: MACs of R289, the tag of R292, zero padding to 64 bytes (R288). One of the device's own has the
path's flow label or DF set, the path's source port and a UDP checksum of 0 (R202); a transit packet keeps what it came with (R203). -/
def State.frameOf (s : State) (q : Queued) (shim : Option Shim) : Frame :=
  let tag := if q.transit then q.tag
    else if s.rd F.PRT_LP_tagged q.port = 1 then some (q.tc * 8192 + s.rd F.PRT_LP_vlan_id q.port) else none
  let v4 := q.pkt.dstIp / 2 ^ 32 == 0xFFFF
  let len := max 64 (q.len + (if !q.transit && tag.isSome then 4 else 0) + (if shim.isSome then 8 else 0))
  { len := len, fcsOk := !q.stomp, fecCorr := 0, fecBad := 0, dstMac := s.rd F.PRT_LP_nh_mac q.port, srcMac := s.rd F.PRT_LP_mac q.port,
    tag := tag, shim := shim, ethType := if v4 then 0x0800 else 0x86DD, dscp := q.pkt.dscp,
    ecn := if q.pkt.ce then 3 else if q.pkt.ect then 2 else 0, proto := 17, srcIp := q.pkt.srcIp, dstIp := q.pkt.dstIp,
    sport := if q.transit then q.pkt.sport else 0xC000 + q.pkt.pathId % 2 ^ 14
    flow := if q.transit then q.pkt.flow else if v4 then 0 else q.pkt.pathId
    dontFrag := if q.transit then q.pkt.dontFrag else v4
    udpSum := if q.transit then q.pkt.udpSum else 0
    dport := if q.roce.isSome then 4791 else s.rd F.BXT_CFG_udp_port,
    body := match q.roce with | some r => .roce r | none => .bxt q.pkt }

/-- The EtherType of a queued packet's IP version. -/
def ipType (q : Queued) : Nat := if q.pkt.dstIp / 2 ^ 32 = 0xFFFF then 0x0800 else 0x86DD

/-- Sends the next frame to be replayed (R304), counting it: pause does not hold it, and a stomped one goes as a FILLER. -/
def State.sendReplay (s : State) (p hsn : Nat) : State :=
  let s := s.modLport p fun l => { l with
    again := l.again.drop 1, toAck := 0, unacked := l.unacked.map fun x => if x.hsn == hsn then { x with replays := x.replays + 1 } else x }
  match (s.lport p).unacked.find? fun x => x.hsn == hsn with
  | none => s
  | some x => match x.frame, x.ctl with
    | some q, _ => s.sendFrame p (s.frameOf q (s.dataShim p 0 hsn (ipType q)))
    | none, some f => s.sendFrame p { f with shim := s.dataShim p 0 hsn ((f.shim.map (·.innerType)).getD 0) }
    | none, none => s.sendFrame p (s.ctlFrame p (s.rd F.PRT_LP_nh_mac p) 0x88B6 (s.dataShim p 5 hsn 0) .hop)

/-- Sends the frame at an index of the queue. -/
def State.sendQueued (s : State) (i : Nat) (q : Queued) : State :=
  let p := q.port
  let q := q.depart s.now
  let hsn := (s.lport p).txHsn
  let f := s.frameOf q (s.dataShim p 0 hsn (ipType q))
  let s := (s.measure p).paceOut q
  let s := { s with egress := s.egress.eraseIdx i }
  let s := s.keepSent p (if q.stomp then none else some q) none
  let s := if 7 ≤ q.cls then
      s.modLport p fun l => { l with sent7 := (l.sent7.filter fun x => decide (s.now < x.1 + 10 * us)) ++ [(s.now, q.len)] } else s
  let s := if q.cls = 6 then s.wrrServed q else s
  (s.sendFrame p f).timerOf q (some p)

/-- A waiting frame that its port's `max_frame` has come to shut out is not sent, as no frame above it is (R288): a packet of the device's own is left to
its timer. -/
def State.dropOversize (s : State) (i : Nat) (q : Queued) : State :=
  ({ s.measure q.port with egress := s.egress.eraseIdx i }).timerOf q none

/-- A logical port is free to send (R265): frames to be replayed first, then the next in the order of service. -/
def State.transmit (s : State) (p : Nat) : State :=
  if !s.portUp p then s
  else match (s.lport p).again with
  | hsn :: _ => s.sendReplay p hsn
  | [] =>
    match s.nextFrame p with
    | none => s
    | some i =>
      match s.egress[i]? with
      | some q =>
        if s.rd F.PRT_LP_max_frame p < (s.frameOf q (s.dataShim p 0 0 0)).len then s.dropOversize i q
        else if s.replayRoom p q.len then s.sendQueued i q else s
      | none => s

/-- FRAME_TRANSMIT: a logical port. -/
def execFrameTransmit (port : Nat) (s : State) : Host.Outcome State Fault Refusal :=
  actOn (s.lportExists port) s fun s => s.transmit port

/-! ### Reception (R286-R289, R303, R304) -/

/-- A NAK naming the HSN expected, not twice for one HSN within 2 us (R304). -/
def State.hopNakOut (s : State) (p : Nat) : State :=
  let l := s.lport p
  if s.rd F.PRT_LP_replay_on p = 0 then s
  else
    let fresh := match l.nak with
      | some (h, t) => h != l.rxHsn || decide (t + 2 * us ≤ s.now)
      | none => true
    if fresh then ((s.modLport p fun l => { l with nak := some (l.rxHsn, s.now) }).sendHop p 2 l.rxHsn).bump F.HOP_NAK_SENT else s

/-- Whether the shim of a frame keeps R303. -/
def shimOk (h : Shim) : Bool :=
  h.ethType == 0x88B6 && decide (h.kind < 6) && h.resv == 0 && (if h.kind = 0 then h.innerType != 0 else h.innerType == 0)

/-- A frame without its shim (R303). -/
def unshim (f : Frame) : Frame :=
  match f.shim with
  | some h => { f with shim := none, ethType := h.innerType, len := f.len - 8 }
  | none => f

/-- A frame with a good shim: control frames act; a data or FILLER frame is accepted in HSN order (R304). Answers the frame without its shim. -/
def State.rxShim (s : State) (p : Nat) (f : Frame) (h : Shim) : Option Frame × State :=
  if h.kind = 3 then (none, s.hopStart p)
  else if h.kind = 4 then (none, s.hopStartAck p)
  else if s.rd F.PRT_LP_replay_on p = 0 then (none, s.bump F.HOP_SHIM_BAD)
  else
    let s := if h.ackValid then s.hopAck p h.ackHsn else s
    if h.kind = 1 then (none, s)
    else if h.kind = 2 then (none, (s.hopAck p ((h.hsn + 4095) % 4096)).hopReplay p h.hsn)
    else
      let (hit, s) := if h.kind = 0 then s.inject 0x0801 0 64 Status.ok else (false, s)
      if hit ∨ h.hsn ≠ (s.lport p).rxHsn then (none, s.hopNakOut p) else
      let s := s.modLport p fun l => { l with rxHsn := (l.rxHsn + 1) % 4096, toAck := l.toAck + 1, nak := none }
      let s := if 64 ≤ (s.lport p).toAck then s.sendHop p 1 0 else s
      (if h.kind = 5 then none else some (unshim f), s)

/-- The packet of a frame on its UDP port: its IP fields are the frame's; a body on another port is neither BXT nor RoCEv2 (R202, R227). -/
def State.portBody (s : State) (f : Frame) : Frame :=
  match f.body with
  | .bxt p =>
    if f.dport = s.rd F.BXT_CFG_udp_port then
      { f with body := .bxt { p with
          srcIp := f.srcIp, dstIp := f.dstIp, dscp := f.dscp, ce := f.ecn == 3, ect := f.ecn != 0, sport := f.sport, flow := f.flow,
          dontFrag := f.dontFrag, udpSum := f.udpSum } }
    else { f with body := .other [] }
  | .roce p => if f.dport = 4791 then { f with body := .roce { p with srcIp := f.srcIp, ce := f.ecn == 3 } } else { f with body := .other [] }
  | _ => f

/-- Whether an IP address is the device's own (R289, R309): an address of 0 is none. -/
def State.ownAddr (s : State) (ip : Nat) : Bool :=
  let v6 := s.rd F.HOP_IP6_hi_ip6 * 2 ^ 64 + s.rd F.HOP_IP6_lo_ip6
  let v4 := s.rd F.HOP_IP4_ip4
  (v6 != 0 && ip == v6) || (v4 != 0 && ip == 0xFFFF * 2 ^ 32 + v4)

/-- A BXT packet is noted for the weather report (R305). -/
def State.noteRx (s : State) (p : Nat) (ce : Bool) : State :=
  s.modLport p fun l => { l with wxRx := l.wxRx + 1, wxCe := l.wxCe + b2n ce }

/-- A transit packet (R296): classified, then forwarded. -/
def State.rxTransit (s : State) (port : Nat) (f : Frame) (p : Packet) (stomp : Bool) : State :=
  match s.classifyFrame port f true with
  | (.pass _, s) => s.transit port f p stomp
  | (_, s) => s

/-- A frame whose FCS fails or that an uncorrectable codeword follows: where it is transit that the relay had begun to forward, from the classification of
its first 128 bytes on, it leaves stomped (R297); under replay it is asked for again (R304). -/
def State.badFrame (s : State) (port : Nat) (f : Frame) : State :=
  let inOrder := match f.shim with
    | some h => s.rd F.PRT_LP_replay_on port == 1 && h.kind == 0 && h.hsn == (s.lport port).rxHsn
    | none => s.rd F.PRT_LP_replay_on port == 0
  let g := s.portBody (unshim f)
  let s := match g.body with
    | .bxt p => if 128 ≤ f.len ∧ inOrder ∧ p.dstDev ≠ s.devAddr ∧ f.dstMac = s.rd F.PRT_LP_mac port then s.rxTransit port g p true else s
    | _ => s
  s.hopNakOut port

/-- A frame for this device, or transit, once any shim is off (R289, R293, R296, R277-R279): the frame to deliver, if any. -/
def State.rxPlain (s : State) (port : Nat) (f : Frame) : Option Frame × State :=
  let f := s.portBody f
  match f.body with
  | .pfc en q => (none, s.pfcFrame port en q)
  | .pause => (none, s.bump F.PRT_PAUSE_DROP 1 port)
  | _ =>
  if f.dstMac ≠ s.rd F.PRT_LP_mac port ∧ f.dstMac ≠ lldpMac ∧ f.dstMac ≠ 0xFFFFFFFFFFFF then (none, s)
  else match f.body with
  | .lldp d => (none, s.lldpdu port d)
  | .bxt p =>
    let s := s.noteRx port p.ce
    if p.dstDev ≠ s.devAddr then (none, s.rxTransit port f p false) else mine s f
  | _ => mine s f
where
  /-- A frame for this device. -/
  mine (s : State) (f : Frame) : Option Frame × State :=
    if isTransport f ∧ !s.ownAddr f.dstIp then (none, s.bump F.PRT_ADDR_DROP 1 port)
    else match s.classifyFrame port f false with
    | (.pass set, s) =>
      match set with
      | some (_, p, _) =>
        if s.rd F.PTN_PART_state p = ptnDisabled then (none, s.bump F.POL_UNCLASSIFIED)
        else if ptnFencing ≤ s.rd F.PTN_PART_state p ∧ !isTransport f then (none, s.bump F.PTN_FENCE_DROP)
        else s.police f set
      | none => s.police f set
    | (_, s) => (none, s)

/-- A frame arrives at a logical port (R286, R287): judged in the order of R287, then taken by what it is. Answers the frame to deliver. -/
def State.rxFrame (s : State) (port : Nat) (f : Frame) : Option Frame × State :=
  if !s.portUp port then (none, s)
  else
    let (fec, s) := s.inject 0x0701 port 64 Status.ok
    let (fcs, s) := s.inject 0x0702 0 64 Status.ok
    let f := { f with fecBad := if fec then max 1 f.fecBad else f.fecBad, fcsOk := f.fcsOk && !fcs }
    let s := (s.bump F.PRT_FEC_CORR f.fecCorr port).bump F.PRT_FEC_UNCORR f.fecBad port
    let s := (List.range f.fecBad).foldl (fun s _ => s.evt 5) s
    if f.fecBad ≠ 0 then (none, ((s.bump F.PRT_FEC_DISCARD 1 port).badFrame port f).fecAlarm port f.fecBad)
    else if f.len < 64 then (none, s.bump F.PRT_RUNT 1 port)
    else if s.rd F.PRT_LP_max_frame port < f.len then (none, s.bump F.PRT_OVERSIZE 1 port)
    else if !f.fcsOk then (none, (s.bump F.PRT_FCS_ERR 1 port).badFrame port f)
    else
      let s := (s.bump F.PRT_RX_FRAMES 1 port).bump F.PRT_RX_BYTES f.len port
      match f.shim with
      | some h =>
        if !shimOk h then (none, s.bump F.HOP_SHIM_BAD)
        else match s.rxShim port f h with
        | (some f, s) => s.rxPlain port f
        | (none, s) => (none, s)
      | none => if s.rd F.PRT_LP_replay_on port = 1 then (none, s.bump F.HOP_SHIM_BAD) else s.rxPlain port f

/-! ### Weather (R305, R306) -/

/-- The 16-byte record of a logical port in a report. -/
def State.wxRecord (s : State) (dt p : Nat) : List Byte :=
  let l := s.lport p
  let avg := (l.wxInt + s.portQueue p * (s.now - l.wxAt)) / max 1 dt
  leBytes 1 p ++ leBytes 1 (s.rd F.PRT_LP_state p) ++ leBytes 2 (min 65535 (l.wxPeak / 1024)) ++ leBytes 2 (min 65535 (avg / 1024))
    ++ leBytes 2 (min 65535 (l.wxTx * 1000 / max 1 (s.portRate p * dt))) ++ leBytes 2 (if l.wxRx = 0 then 0 else l.wxCe * 1000 / l.wxRx)
    ++ leBytes 4 (if l.wxAcks = 0 then 0 else l.wxRtt / l.wxAcks) ++ leBytes 2 0

/-- A weather report, and the state with a new interval begun. -/
def State.wxReport (s : State) : List Byte × State :=
  let ports := (List.range 64).filter s.lportExists
  let dt := s.now - s.wxs.since
  let body := leBytes 4 s.devAddr ++ leBytes 4 s.wxs.seq ++ leBytes 4 dt ++ leBytes 1 ports.length ++ leBytes 3 0 ++ ports.flatMap (s.wxRecord dt)
  let s := ports.foldl (fun s p =>
    let n := s.portQueue p
    s.modLport p fun l => { l with wxPeak := n, wxInt := 0, wxAt := s.now, wxTx := 0, wxRx := 0, wxCe := 0, wxRtt := 0, wxAcks := 0 }) s
  (body, ({ s with wxs := { s.wxs with seq := (s.wxs.seq + 1) % 2 ^ 32, since := s.now } }).bump F.WX_REPORT_SENT)

/-- One entry of a merged update: its destination and its 64 levels (R306). -/
def State.wxEntry (s : State) (e : List Byte) : State :=
  let dst := fieldLE e 0 4 % 2 ^ 20
  let levels := fieldLE e 4 32
  let bad := (List.range 64).any fun j => bitsOf levels (4 * j) 4 != 0 && !s.lportExists j
  if bad ∨ (dst ≠ 0xFFFFF ∧ (Tbl.get? s.routes dst).isNone) then s.bump F.WX_IGNORED
  else { s with wx := Tbl.set s.wx dst (levels, s.now) }

/-- Applies the entries of an update. -/
def State.wxEntries (s : State) (b : List Byte) (n : Nat) : State :=
  (List.range n).foldl (fun s i => s.wxEntry (slice b (16 + 36 * i) 36)) s

/-- A merged update of a SEND: its length is that its count states (R306, R483). -/
def State.wxUpdate (s : State) (b : List Byte) : State :=
  let n := fieldLE b 4 4
  if b.length < 16 ∨ 16384 < n ∨ b.length ≠ 16 + 36 * n then (s.bump F.WX_IGNORED).logRefused .HOP 0 (fieldLE b 0 4)
  else s.wxEntries b n

/-- HOP_WX_CMD `go`: the entries of HOP_WX_WINDOW. -/
def State.wxGo (s : State) : State :=
  let n := s.rd F.HOP_WX_CMD_entries
  s.wxEntries ((List.range (16 + 36 * n)).map fun i => Tbl.getD s.wxs.window i 0) n

/-- WEATHER_WINDOW_GO. -/
def execWeatherWindowGo (s : State) : Host.Outcome State Fault Refusal := act s (asManager false State.wxGo)

/-- The levels of a destination have not been refreshed within `ttl_us`: each returns to 0 and is counted. -/
def State.wxExpire (s : State) (dst : Nat) : State :=
  match Tbl.get? s.wx dst with
  | some (l, _) =>
    ({ s with wx := Tbl.erase s.wx dst }).bump F.WX_EXPIRED ((List.range 64).filter fun j => bitsOf l (4 * j) 4 != 0).length
  | none => s

/-- WEATHER_LEVEL_EXPIRY: a destination. -/
def execWeatherLevelExpiry (dst : Nat) (s : State) : Host.Outcome State Fault Refusal := act s fun s => s.wxExpire dst

end Sys2Proof.Machine
end

