-- ==== Sys2Proof/Machine/Tiers.lean ====
section
/-!
DEFINITION. The memory tiers (R352-R374): granules and their zeroing, recalibration, repair and FENCED channels, the larder's banks and
spares with the shortfall of R40, scrub, and the wipe of the cellar (R370).
-/

namespace Sys2Proof.Machine

/-! ### Granules (R354, R355) -/

/-- Whether a granule of a tier is held: by the device (granule 0), by a partition, or by the zeroing of R355. -/
def State.granuleTaken (s : State) (tier g : Nat) : Bool :=
  g == 0 || s.tier.zeroing.any (fun z => z.1 == tier * 4096 + g)
    || s.tier.granules.any fun q => q.1 / 64 == tier && q.2.contains g

/-- Shows how many granules of each tier are free and zeroed (R374). -/
def State.showFree (s : State) : State :=
  let n (t : Nat) := ((List.range (s.tierGib t)).filter fun g => !s.granuleTaken t g).length
  (s.wr F.HBM_CAP_zeroed_free (n 0)).wr F.DDR_CAP_zeroed_free (n 1)

/-- The bytes of a granule become zero and lose their poison. -/
def State.zeroGranule (s : State) (tier g : Nat) : State :=
  s.zeroRange (tierBase tier + g * 2 ^ 30) (2 ^ 30)

/-- The zeroed bytes of MGT_BOOT's progress: granules of partitions still being zeroed. -/
def State.zeroingFor (s : State) (p : Nat) : Bool := s.tier.zeroing.any fun z => z.2 == p

/-- A partition all of whose granules are zeroed becomes LIVE, if it waits for that (R495). -/
def State.partLive (s : State) (p : Nat) : State :=
  if s.enabled p ∧ s.rd F.PTN_PART_state p = ptnDisabled ∧ !s.zeroingFor p ∧ s.rd F.RST_STATUS_retired = 0 then
    let s := s.wr F.MGT_BOOT_live_upto (max p (s.rd F.MGT_BOOT_live_upto))
    (s.wr F.PTN_PART_state ptnLive p).logEv .PTN .stateChange ptnLive p p
  else s

/-- MGT_BOOT shows how much of the partitions' granules is zeroed (R495). -/
def State.showZeroing (s : State) : State :=
  let total := sumNat (s.tier.granules.map fun q => q.2.length)
  let left := (s.tier.zeroing.filter fun z => decide (z.2 < 64)).length
  s.wr F.MGT_BOOT_permille (1000 * (total - left) / max 1 total)

/-- A granule has been zeroed (R355, R495). -/
def State.granuleZeroed (s : State) (tier g : Nat) : State :=
  match s.tier.zeroing.find? fun z => z.1 == tier * 4096 + g with
  | none => s
  | some z =>
    let s := s.zeroGranule tier g
    let s := ({ s with tier := { s.tier with zeroing := s.tier.zeroing.filter fun y => y.1 != z.1 } }).showFree
    if z.2 < 64 then s.showZeroing.partLive z.2 else s

/-- GRANULE_ZEROED (R495). -/
def execGranuleZeroed (tier granule : Nat) (s : State) : Host.Outcome State Fault Refusal :=
  actOn (decide (tier < 2) && decide (granule < 4096)) s fun s => s.granuleZeroed tier granule

/-! ### Recalibration and repair (R357, R371) -/

/-- Records cause 7 on the operations that a stall delays (R273, R357). -/
def State.stalled (s : State) (ops : List Nat) : State := ops.foldl (fun s i => s.recordCause i 7) s

/-- HBM_RECAL_TIMER: a channel in service recalibrates (R357). -/
def execHbmRecalTimer (channel : Nat) (delayed : List Nat) (s : State) : Host.Outcome State Fault Refusal :=
  actOn (decide (channel < 128)) s fun s =>
    if bitAt (s.rd F.HBM_STACK_in_service (channel / 32)) (channel % 32) then (s.bump F.HBM_RECAL).stalled delayed else s

/-- DDR_RECAL_TIMER: an ACTIVE channel recalibrates (R357). -/
def execDdrRecalTimer (channel : Nat) (delayed : List Nat) (s : State) : Host.Outcome State Fault Refusal :=
  actOn (decide (channel < 8)) s fun s =>
    if s.rd F.DDR_CH_state channel = 1 then (s.bump F.DDR_RECAL).stalled delayed else s

/-- A channel is FENCED (R371): 0-127 of HBM4, 128-135 of DDR5. -/
def State.fenceChannel (s : State) (c : Nat) : State :=
  if s.tier.fenced.contains c then s
  else
    let s := { s with tier := { s.tier with fenced := s.tier.fenced ++ [c] } }
    if c < 128 then s.logEv .HBM .stateChange 3 c c else s.logEv .DDR .stateChange 3 (c - 128) (c - 128)

/-- TEL_SPARE counts one more HBM4 lane out of service (R33, R480); its row knows no other number (log entry 10). -/
def State.laneGone (s : State) : State := s.spareCounts 3 0 0 (min 255 (s.rd F.TEL_SPARE_retired 3 + 1))

/-- A lane of a channel has persistent errors: it is repaired while the channel has a redundant lane, else the channel is FENCED (R371). -/
def State.laneRepair (s : State) (c : Nat) (spareLeft : Bool) : State :=
  if !bitAt (s.rd F.HBM_STACK_in_service (c / 32)) (c % 32) ∨ s.tier.fenced.contains c then s
  else if spareLeft then
    let s := { s with tier := { s.tier with lanes := Tbl.set s.tier.lanes c (Tbl.getD s.tier.lanes c 0 + 1) } }
    let s := (s.bump F.HBM_LANE_REPAIR).bumpSat F.HBM_STACK_lanes_repaired (c / 32)
    ((s.laneGone).logEv .HBM .retired 3 c c).logEv .HBM .spareMapped 3 c c
  else ((s.fenceChannel c).laneGone).logEv .HBM .retired 3 c c

/-- HBM_LANE_REPAIR (R371): the redundant lanes of a channel are JEDEC's, so the event says whether one is left. -/
def execHbmLaneRepair (channel : Nat) (spareLeft : Bool) (s : State) : Host.Outcome State Fault Refusal :=
  actOn (decide (channel < 128)) s fun s => s.laneRepair channel spareLeft

/-- DDR_CHANNEL_FAIL (R371). -/
def execDdrChannelFail (channel : Nat) (s : State) : Host.Outcome State Fault Refusal :=
  actOn (decide (channel < 8)) s fun s =>
    if s.rd F.DDR_CH_state channel = 1 then (s.wr F.DDR_CH_state 3 channel).fenceChannel (128 + channel) else s

/-! ### Larder banks (R366-R368) -/

/-- Takes a shortfall of `short` units from the partitions of a list, in order, each reduction logged (R40, R471). -/
def State.takeShort (s : State) : Nat → List Nat → State
  | _, [] => s
  | 0, _ => s
  | short, p :: t =>
    let have_ := s.rd F.TAL_PTN_POOL_share p
    let cut := min short have_
    if cut = 0 then s.takeShort short t
    else
      let s := s.wr F.TAL_PTN_POOL_share (have_ - cut) p
      (s.logEv .TAL .shareReduced 0 (p * 2 ^ 24 + cut * 2 ^ 12 + (have_ - cut))).takeShort (short - cut) t

/-- The pool's maximum changes; a shortfall is taken from the highest-numbered enabled partitions (R40, R103). -/
def State.setPoolMax (s : State) (n : Nat) : State :=
  let s := s.wr F.TAL_POOL_pool_max n
  let parts := (List.range 64).filter s.enabled
  let sum := sumNat (parts.map fun p => s.rd F.TAL_PTN_POOL_share p)
  (s.takeShort (sum - n) parts.reverse).showPool

/-- The larder's row of TEL_SPARE: banks served, spares free, physical banks out of service (R31, R480). -/
def State.showBanks (s : State) : State :=
  let active := ((List.range 256).filter fun b => s.rd F.LRD_BANK_state b != 3).length
  let free := ((List.range 8).filter fun k => bitAt (s.rd F.LRD_SPARE_STATE_free) k).length
  s.spareCounts 4 (min 255 active) free (264 - active - free)

/-- A bank is served by a spare from now on (R368); what it had lost of the pool returns (R101, R368). -/
def State.spareBank (s : State) (b k : Nat) : State :=
  let old := s.rd F.LRD_BANK_state b
  let s := s.wr F.LRD_BANK_phys (256 + k) b
  let s := s.wr F.LRD_SPARE_STATE_free (clearBit (s.rd F.LRD_SPARE_STATE_free) k)
  let s := { s with tier := { s.tier with retiring := s.tier.retiring.filter (· != b) } }
  let s := if 16 ≤ b ∧ (old = 2 ∨ old = 3) then (s.wr F.TAL_POOL_pool_max (s.rd F.TAL_POOL_pool_max + 12)).showPool else s
  let s := if old = 3 then s else s.logEv .LRD .retired 4 b b
  ((s.setBank b 4).logEv .LRD .spareMapped 4 (k * 256 + b) b).showBanks

/-- A general bank enters FAILING: the pool's maximum drops by 768 KiB at once (R367 step 1). -/
def State.failGeneral (s : State) (b : Nat) : State :=
  let s := { s with tier := { s.tier with retiring := s.tier.retiring ++ [b] } }
  (s.setBank b 2).setPoolMax (s.rd F.TAL_POOL_pool_max - 12)

/-- A bank enters FAILING (R367). A special bank with no spare free takes the spare of the highest-numbered general bank that has one, which
enters FAILING on its own cells; with none mapped anywhere the larder can no longer be repaired, which is logged. -/
def State.failBank (s : State) (b : Nat) : State :=
  if 16 ≤ b then s.failGeneral b
  else
    let s := s.setBank b 2
    if s.rd F.LRD_SPARE_STATE_free ≠ 0 then s
    else match lastBelow 256 fun g => decide (16 ≤ g) && s.rd F.LRD_BANK_state g == 4 with
    | none => s.logEv .LRD .retired 4 b b
    | some g =>
      let k := s.rd F.LRD_BANK_phys g - 256
      ((s.wr F.LRD_BANK_phys g g).failGeneral g).spareBank b k

/-- A write of LRD_RETIRE with `go` (R367, R373). -/
def State.retireBank (s : State) (b : Nat) : State :=
  if 256 ≤ b ∨ 2 ≤ s.rd F.LRD_BANK_state b then s.refuseWrite .LRD 0x14 else s.failBank b

/-- LRD_RETIRE (R367). -/
def execLrdRetire (bank : Nat) (s : State) : Host.Outcome State Fault Refusal :=
  actOn (decide (bank < 256)) s (asManager false fun s => s.retireBank bank)

/-- Units of the pool reserved now (R102, R103). -/
def State.poolReserved (s : State) : Nat := sumNat ((List.range 64).map fun p => s.rd F.TAL_PTN_POOL_used p + s.rd F.TAL_PTN_POOL_borrowed p)

/-- The failing bank is copied into the pool's freed top and becomes RETIRED, once no slot is reserved there (R367 steps 2, 3). -/
def State.bankRetired (s : State) (b : Nat) : State :=
  if !s.tier.retiring.contains b ∨ s.rd F.TAL_POOL_pool_max < s.poolReserved then s
  else
    let s := { s with tier := { s.tier with retiring := s.tier.retiring.filter (· != b) } }
    ((s.setBank b 3).logEv .LRD .retired 4 b b).showBanks

/-- BANK_RETIRE_COPY (R367). -/
def execBankRetireCopy (bank : Nat) (s : State) : Host.Outcome State Fault Refusal :=
  actOn (decide (bank < 256)) s fun s => s.bankRetired bank

/-- A write of LRD_SPARE_MAP with `go` (R368). -/
def State.mapBank (s : State) (b k : Nat) : State :=
  let st := s.rd F.LRD_BANK_state b
  if s.rd F.LRD_SPARE_MAP_go = 1 ∨ 256 ≤ b ∨ 8 ≤ k ∨ st = 0 ∨ st = 4 ∨ !bitAt (s.rd F.LRD_SPARE_STATE_free) k then s.refuseWrite .LRD 0x10
  else
    let s := { s with tier := { s.tier with mapping := some (b, k) } }
    ((s.wr F.LRD_SPARE_MAP_bank b).wr F.LRD_SPARE_MAP_spare k).wr F.LRD_SPARE_MAP_go 1

/-- LRD_SPARE_MAP (R368). -/
def execLrdSpareMap (bank spare : Nat) (s : State) : Host.Outcome State Fault Refusal :=
  actOn (decide (bank < 256) && decide (spare < 8)) s (asManager false fun s => s.mapBank bank spare)

/-- LARDER_SPARE_SWITCH: the copy ends and the bank switches in one cycle (R368). -/
def State.spareSwitch (s : State) : State :=
  match s.tier.mapping with
  | none => s
  | some (b, k) =>
    let s := ({ s with tier := { s.tier with mapping := none } }).wr F.LRD_SPARE_MAP_go 0
    if bitAt (s.rd F.LRD_SPARE_STATE_free) k then s.spareBank b k else s

def execLarderSpareSwitch (s : State) : Host.Outcome State Fault Refusal := act s fun s => s.spareSwitch

/-! ### Scrub (R372, R358) -/

/-- Larder banks with a confirmed poisoned word enter FAILING (R366). -/
def State.failPoisoned (s : State) : State :=
  let bs := ((s.tier.poison.filter fun w => decide (larderBase ≤ w) && decide (w < ctlBase)).map bankOfAddr).eraseDups
  bs.foldl (fun s b => if s.rd F.LRD_BANK_state b < 2 then s.failBank b else s) s

/-- A pass of scrub over a tier (0 HBM4, 1 DDR5, 2 larder) reads every word (R372): words already poisoned are logged and counted, and nothing is
written for them (R359); words in error are handled as any read handles them, and the pass has found the offsets of others with corrected errors, errors
that repeat clean, and uncorrectable ones (R358). The injection points of the tier's ECC are examined (R484). -/
def State.scrubPass (s : State) (t : Nat) (fixed clean bad : List Nat) : State :=
  let old := s.tier.poison.filter fun w => tierOf w == t && decide (w < ctlBase)
  let s := old.foldl (fun s w => (s.bump (poisonFld t)).logEv (tierBlk t) .uncorrectable t (w - tierBase t)) s
  let s := (s.tier.flaws.filter fun q => tierOf q.1 == t).foldl State.eccWord s
  let s := (s.eccPoint t 64 none).2
  let s := fixed.foldl (fun s a => s.corrected t a) s
  let s := clean.foldl (fun s _ => s.transientAt t) s
  let s := bad.foldl (fun s a => s.poisonAt t a) s
  if t = 2 then (s.bump F.LRD_SCRUB_PASS).failPoisoned else s

/-- SCRUB_PASS (R372). -/
def execScrubPass (tier : Nat) (fixed clean bad : List Nat) (s : State) : Host.Outcome State Fault Refusal :=
  actOn (decide (tier < 3)) s fun s => s.scrubPass tier fixed clean bad

/-! ### Accesses that meet in a bank (R365) -/

/-- The writers of a larder word in order of priority (R365). In a dual-port row the lower number is port A. -/
inductive LarderWriter where
  | tally | mover | mill | bxt | steward | scrub
  deriving DecidableEq, Repr

/-- A write of a larder word: the bytes it enables, as a mask, and its 64 bytes. -/
structure WordWrite where
  by_ : LarderWriter
  enables : Nat
  data : List Byte
  deriving DecidableEq, Repr

/-- The writes that take effect: a scrub write-back that meets another write is dropped whole. -/
def liveWrites (ws : List WordWrite) : List WordWrite := if ws.any fun w => w.by_ != .scrub then ws.filter fun w => w.by_ != .scrub else ws

/-- The word that writes of one cycle leave: each byte is that of the enabling writer of the highest priority, else the old one. -/
def meetWrites (old : List Byte) (ws : List WordWrite) : List Byte :=
  let live := liveWrites ws
  old.zipIdx.map fun q =>
    match [LarderWriter.tally, .mover, .mill, .bxt, .steward, .scrub].findSome? fun p =>
        live.find? fun w => w.by_ == p && bitAt w.enables q.2 with
    | some w => w.data.getD q.2 q.1
    | none => q.1

/-- Whether a writer reaches the region of a larder word (R363): tally units and DMA movers the pool; DMA movers, the mill and BXT staging; engines and
firmware the dual-port region; none of these the cellar, which is the Fegen root's. Scrub reads and writes every word (R372). -/
def larderMay (by_ : LarderWriter) (word : Nat) : Bool :=
  let off := 64 * word
  by_ == .scrub ||
    (if off < 0x08000000 then by_ == .tally || by_ == .mover
     else if off < 0x0B400000 then by_ == .mover || by_ == .mill || by_ == .bxt
     else decide (off < 0x0B800000))

/-- One cycle of a larder word: `n` reads and some writes meet; the reads return the word as the writes leave it, each counted when it is served with
new data. A writer that does not reach the word's region writes nothing. The commands of the table carry out their accesses one after the other (log entry 55). -/
def State.larderCycle (s : State) (word n : Nat) (ws : List WordWrite) : List Byte × State :=
  let ws := ws.filter fun w => larderMay w.by_ word
  let new := meetWrites (s.memRead (larderBase + 64 * word) 64) ws
  (new, (s.memWrite (larderBase + 64 * word) new).bump F.LRD_RW_FORWARD (if ws.isEmpty then 0 else n))

/-! ### The cellar (R369, R370) -/

/-- Starts the wipe of the cellar, or starts it again from its first pass (R370): READY 0, WIPING 1, FAILED 2. -/
def State.wipeCellar (s : State) : State :=
  let s := { s with tier := { s.tier with wipe := some 0 } }
  let s := (s.wr F.TRU_LC_cellar_failed 0).wr F.LRD_CELLAR_permille 0
  if s.rd F.LRD_CELLAR_state = 1 then s else (s.wr F.LRD_CELLAR_state 1).logEv .LRD .stateChange 1 0

/-- Where the cellar lies in the larder, and its size (R363). -/
abbrev cellarOff : Nat := 0x0B800000
abbrev cellarBytes : Nat := 0x00800000

/-- CELLAR_WIPE_DONE: the read-back ends; every word is zero, or the cellar has FAILED (R370). -/
def State.cellarWiped (s : State) (ok : Bool) : State :=
  if s.tier.wipe.isNone then s
  else
    let s := { s with tier := { s.tier with wipe := none } }
    let s := (s.bumpSat F.LRD_CELLAR_wipes).wr F.LRD_CELLAR_permille 0
    let s := if ok then s.zeroRange (larderBase + cellarOff) cellarBytes else s
    let st := if ok then 0 else 2
    let s := s.wr F.TRU_LC_cellar_failed (b2n !ok)
    (s.wr F.LRD_CELLAR_state st).logEv .LRD .stateChange st 0

def execCellarWipeDone (ok : Bool) (s : State) : Host.Outcome State Fault Refusal := act s fun s => s.cellarWiped ok

end Sys2Proof.Machine
end

