-- ==== Sys2Proof/Machine/Cipher.lean ====
section
/-!
DEFINITION. Key slots (R392-R400): staging and loading keys, the wipes of the key-slot store, the hardware random source's health (R78).
-/

namespace Sys2Proof.Machine

/-! ### Which slots are what (R392, R393) -/

/-- Whether a wipe covers a tenant slot. -/
def covers (w : KeyWipe) (n : Nat) (k : Option KeySlot) : Bool :=
  match w.what with
  | .slot m => n == m
  | .inst vf => k.any fun k => k.vf == vf
  | .all => true
  | .mgt _ => false

/-- The state CPH_SLOT_INFO shows (R400, R415): 0 FREE, 1 LOADED, 2 RETIRED, 3 WIPING. -/
def State.slotState (s : State) (n : Nat) : Nat :=
  match Tbl.get? s.slots n with
  | some k => (match k.state with
    | .loaded => 1
    | .retired => 2
    | .wiping => 3)
  | none => if s.cph.wipes.any fun w => covers w n none then 3 else 0

/-- Slots an instance owns: LOADED or RETIRED (R393). -/
def State.slotsHeld (s : State) (vf : Nat) : Nat := (s.slots.filter fun q => q.2.vf == vf && q.2.state != .wiping).length

/-- Whether a manager path is a management connection whose packets are not encrypted (R396 reason 5). -/
def State.clearPath (s : State) (p : Path) : Bool :=
  match p with
  | .conn => !(s.mgt.session.bind fun z => z.conn.bind fun k => s.conn? (0xFFFF8 + k)).any (·.enc)
  | _ => false

/-- Whether staged words are claimed by another path. -/
def State.claimedElse (s : State) (p : Path) : Bool := s.cph.claim.any fun q => q != p

/-! ### Staging (R396) -/

/-- Clears the staged key words. -/
def State.clearStaged (s : State) : State :=
  ({ s with cph := { s.cph with words := [], claim := none } }).wr F.CPH_KEY_STATUS_staged 0

/-- A write of CPH_KEY_LOAD[k] over a manager path. -/
def State.stageWord (s : State) (path : Path) (k w : Nat) : State :=
  if s.clearPath path ∨ s.claimedElse path then s.refuseWrite .CPH (0x10 + 4 * k)
  else
    let s := { s with cph := { s.cph with words := Tbl.set s.cph.words k (w % 2 ^ 32), claim := some path, touched := s.now } }
    s.wr F.CPH_KEY_STATUS_staged (setBit (s.rd F.CPH_KEY_STATUS_staged) k)

/-- KEY_WORD_WRITE (R396). -/
def execKeyWordWrite (path : Path) (k w : Nat) (s : State) : Host.Outcome State Fault Refusal :=
  actOn (decide (k < 8)) s (asManagerBy path false fun s => s.stageWord path k w)

/-- KEY_STAGE_TIMEOUT: 1 ms passes without a write (R396). -/
def execKeyStageTimeout (s : State) : Host.Outcome State Fault Refusal := act s State.clearStaged

/-! ### Commands (R396, R399) -/

/-- Whether a wipe that CPH_KEY_CMD started is running. -/
def State.keyCmdRuns (s : State) : Bool := s.cph.wipes.any (·.cmd)

/-- Ends a key command. -/
def State.keyResult (s : State) (reason : Nat) : State :=
  ((s.wr F.CPH_KEY_STATUS_done (b2n (reason == 0))).wr F.CPH_KEY_STATUS_refused (b2n (reason != 0))).wr F.CPH_KEY_STATUS_reason reason

/-- The first reason of R396 that refuses a LOAD, in row order; 0 where none does. -/
def State.loadRefusal (s : State) (path : Path) (ctrLog2 : Nat) : Nat :=
  let n := s.rd F.CPH_KEY_CTL_slot
  let vf := s.rd F.CPH_KEY_CTL_vf
  let enc := s.rd F.CPH_KEY_CTL_dir == 0
  let urgent := s.cph.wipes.any (·.urgent)
  let lc := s.rd F.TRU_LC_state
  if urgent then 7
  else if s.slotState n ≠ 0 then 1
  else if s.rd F.PTN_INST_state vf = instAbsent ∨ s.rd F.PTN_INST_state vf = instResetting then 2
  else if s.rd F.PTN_INST_key_slots vf < s.slotsHeld vf + 1 then 3
  else if s.cph.words.length < 8 then 4
  else if s.clearPath path ∨ s.claimedElse path then 5
  else if enc ∧ s.rd F.TRU_LC_rng_failed = 1 then 6
  else if lc = 3 ∨ lc = 4 ∨ s.rd F.LRD_CELLAR_state = 2 ∨ s.cph.failed then 7
  else if s.keyCmdRuns then 8
  else if ctrLog2 < 20 ∨ 64 < ctrLog2 then 9
  else if enc ∧ s.rd F.CPH_KEY_CTL_dev_salt = 1 ∧ s.devAddr = 0xFFFFF then 10
  else 0

/-- The key the staged words spell (R396 step 1). -/
def State.stagedKey (s : State) : List Byte := (List.range 8).flatMap fun k => leBytes 4 (Tbl.getD s.cph.words k 0)

/-- LOAD (R394, R396): the staged words are cleared whatever comes of it. A `ctr_log2` outside 20-64 is refused and logged as any write is, and
CPH_KEY_CMD keeps its value (R10). -/
def State.loadKey (s : State) (path : Path) (ctrLog2 : Nat) : State :=
  let s := if 20 ≤ ctrLog2 ∧ ctrLog2 ≤ 64 then s.wr F.CPH_KEY_CMD_ctr_log2 ctrLog2 else s.refuseWrite .CPH 0x38
  let r := s.loadRefusal path ctrLog2
  if r ≠ 0 then s.clearStaged.keyResult r
  else
    let dec := s.rd F.CPH_KEY_CTL_dir == 1
    let dev := s.rd F.CPH_KEY_CTL_dev_salt == 1
    let (z, s) := if !dec ∧ !dev then s.drawBelow (2 ^ 32 - 1) else (0, s)
    let salt := if dec then (if dev then 0 else s.rd F.CPH_KEY_SALT_salt) else if dev then 0x80000000 + s.devAddr else z + 1
    let k : KeySlot := { state := .loaded, key := s.stagedKey, decrypt := dec, salt := salt, devSalt := dev, next := 0, ctrLog2 := ctrLog2,
                         vf := s.rd F.CPH_KEY_CTL_vf, low := false, tagFail := 0 }
    ({ s with slots := Tbl.set s.slots (s.rd F.CPH_KEY_CTL_slot) k }).clearStaged.keyResult 0

/-- LOAD (R396). -/
def execLoad (path : Path) (ctrLog2 : Nat) (s : State) : Host.Outcome State Fault Refusal := act s (asManagerBy path false fun s => s.loadKey path ctrLog2)

/-- Marks every slot a wipe covers WIPING. -/
def State.markWiping (s : State) (w : KeyWipe) : State :=
  let s := { s with slots := Tbl.mapVals s.slots fun n (k : KeySlot) => if covers w n (some k) then { k with state := .wiping } else k }
  match w.what with
  | .all => { s with mslots := Tbl.mapVals s.mslots fun _ (k : KeySlot) => { k with state := .wiping } }
  | .mgt c => { s with mslots := Tbl.mapVals s.mslots fun n (k : KeySlot) => if n / 2 = c then { k with state := .wiping } else k }
  | _ => s

/-- Starts a wipe, or joins one of the same slots that runs (R399, R414); while the random source is failed, all ones stand for the random
pattern, which is logged. -/
def State.startWipe (s : State) (what : WipeOf) (cmd urgent : Bool) : State :=
  let w : KeyWipe := ⟨what, cmd, urgent, 0⟩
  let s := s.markWiping w
  let ws := if s.cph.wipes.any (fun x => x.what == what) then
      s.cph.wipes.map fun (x : KeyWipe) => if x.what = what then { x with cmd := x.cmd || cmd, urgent := x.urgent || urgent, fails := 0 } else x
    else s.cph.wipes ++ [w]
  let s : State := State.wr { s with cph := { s.cph with wipes := ws } } F.CPH_KEY_STATUS_busy 1
  let s := s.wr F.CPH_KEY_STATUS_permille 0
  if s.rd F.TRU_LC_rng_failed = 1 then s.logEv .CPH .stateChange 3 0 else s

/-- A wipe by CPH_KEY_CMD; reason 8 while a key command runs (R396). -/
def State.wipeCmd (s : State) (what : WipeOf) : State := if s.keyCmdRuns then s.keyResult 8 else s.startWipe what true false

/-- WIPE_SLOT, WIPE_INSTANCE, WIPE_ALL (R399). -/
def execWipeSlot (s : State) : Host.Outcome State Fault Refusal := act s (asManager false fun s => s.wipeCmd (.slot (s.rd F.CPH_KEY_CTL_slot)))
def execWipeInstance (s : State) : Host.Outcome State Fault Refusal := act s (asManager false fun s => s.wipeCmd (.inst (s.rd F.CPH_KEY_CTL_vf)))
def execWipeAll (s : State) : Host.Outcome State Fault Refusal := act s (asManager false fun s => s.wipeCmd .all)

/-- The slots of a finished wipe are FREE: those of its kind that are WIPING and that no other running wipe covers. -/
def State.freeWiped (s : State) (w : KeyWipe) (rest : List KeyWipe) : State :=
  let s := { s with slots := Tbl.keep s.slots fun n k => !(covers w n (some k) && k.state == .wiping) || rest.any fun x => covers x n (some k) }
  match w.what with
  | .all => { s with mslots := Tbl.keep s.mslots fun _ k => k.state != .wiping }
  | .mgt c => { s with mslots := Tbl.keep s.mslots fun n k => n / 2 != c || k.state != .wiping }
  | _ => s

/-- KEY_WIPE_DONE: the oldest running wipe's read-back ends; a word that is not zero runs it again, and a third such fails the store (R399). -/
def State.wipeDone (s : State) (ok : Bool) : State :=
  match s.cph.wipes with
  | [] => s
  | w :: rest =>
    if !ok ∧ w.fails < 2 then { s with cph := { s.cph with wipes := { w with fails := w.fails + 1 } :: rest } }
    else
      let s := { s with cph := { s.cph with wipes := rest, failed := s.cph.failed || !ok } }
      let s := (s.wr F.CPH_KEY_STATUS_busy (b2n (!rest.isEmpty))).wr F.CPH_KEY_STATUS_permille 1000
      let s := if ok then (s.freeWiped w rest).bump F.CPH_WIPES else s.logEv .CPH .stateChange 3 1
      if w.cmd then s.keyResult (if ok then 0 else 7) else s

def execKeyWipeDone (ok : Bool) (s : State) : Host.Outcome State Fault Refusal := act s fun s => s.wipeDone ok

/-! ### The random source (R78) -/

/-- The random source fails, or passes again, its health tests. -/
def State.rngHealth (s : State) (failed inj : Bool) : State :=
  if s.rd F.TRU_LC_rng_failed = b2n failed then s
  else (s.wr F.TRU_LC_rng_failed (b2n failed)).logEv .TRU .stateChange (b2n failed) 0 0 inj

def execRngHealthFail (s : State) : Host.Outcome State Fault Refusal := act s fun s => s.rngHealth true false
def execRngHealthRestored (s : State) : Host.Outcome State Fault Refusal := act s fun s => s.rngHealth false false

end Sys2Proof.Machine
end

