-- ==== Sys2Proof/Machine/Entries.lean ====
section
/-!
DEFINITION. The work entries that move data between devices and manage connections: NOP, WRITE, READ, SEND, ATOMIC, RECV (R238-R240,
R217, R218) and CONN_CREATE, CONN_MODIFY, CONN_CLOSE (R245, R211, R224).
-/

namespace Sys2Proof.Machine

/-! ### Local data -/

/-- Sends one message of an operation. -/
def State.sendOne (s : State) (id : Nat) (o : Op) (ext : Ext) (data : List Byte) : State :=
  match s.openMsg o.target (some id) data.length with
  | (msn, s) =>
    let s := s.modOp id fun o => { o with msgs := o.msgs ++ [msn] }
    match s.conn? o.target with
    | some k => s.queuePkts o.target (s.msgPkts k o.cls msn ext (bitAt o.flags 1) data) (some id)
    | none => s

/-- Sends the whole data of a WRITE or SEND as messages (R218: a WRITE is split at `max_msg_log2`, a SEND never is). -/
def State.sendData (s : State) (id : Nat) (o : Op) (data : List Byte) : State :=
  match s.conn? o.target with
  | none => s.endOp id Status.contextReset 0
  | some k =>
    let s := s.modOp id fun o => { o with phase := .running, moved := o.length }
    if k.roce then
      let w := if o.opcode = 2 then some (fieldLE o.desc 24 8, fieldLE o.desc 32 4) else none
      (s.modOp id fun o => { o with msgs := [0] }).roceQueuePkts o.target (s.roceMsg k id w data)
    else if o.opcode = 4 then
      s.sendOne id o (.send 0 (fieldLE o.desc 40 4)) data
    else
      (cutPayload (2 ^ s.rd F.BXT_CFG_max_msg_log2) data).foldl
        (fun s q => if (s.op? id).isSome then s.sendOne id o (.write (fieldLE o.desc 24 8 + q.1) (fieldLE o.desc 32 4)) q.2 else s) s

/-- A WRITE's or SEND's local data stops (R339, R340): on an absent page it is held; otherwise what has been sent of it is carried to its end, and it
completes then with the first failure in MSN order, this one being the last (R218). A link lost ends it at once (R323). -/
def State.stopSend (s : State) (id : Nat) (o : Op) (e : Stop) : State :=
  let later := fun (s : State) (st : Nat) =>
    let msn := ((s.conn? o.target).map (·.nextForm)).getD 0
    (s.modOp id fun o => firstFail { o with moved := o.length } msn st 0 false).finishMsgs id
  if o.msgs.isEmpty then s.stopOp id o .read e
  else match e with
  | .viol va reason level => later (s.raiseViolation (localRec o.part o.vf o.tag va reason level .read)) Status.accessLocal
  | .detached _ => later s Status.detached
  | e => s.stopOp id o .read e

/-- What reading a stretch of an operation's local data gives. -/
inductive LocalRead where
  | data (d : List Byte)
  | stopped (e : Stop)
  | poison
  | reading
  deriving DecidableEq, Repr

/-- Reads `n` bytes of the local data of an operation from an offset on: pages translated as they are touched (R336), poison found (R359), host pages
read over their links first (R312). `ready` says that those reads have come back. -/
def State.readLocal (s : State) (id : Nat) (o : Op) (off n : Nat) (ready : Bool) : LocalRead × State :=
  match s.lookupFor id o.part o.vf o.tag (fieldLE o.desc 16 8 + off) n .read ready with
  | (.error e, s) => (.stopped e, s)
  | (.ok locs, s) =>
    match s.badFor o.part (some id) locs with
    | (true, s) => (.poison, s)
    | (false, s) =>
      let hosts := hostLocs locs
      if !ready ∧ !hosts.isEmpty then (.reading, (s.modOp id fun o => { o with phase := .reading }).issueReads (.op id) o.vf o.tag hosts)
      else (.data (s.readLocs locs), s)

/-- The messages of a WRITE over BXT from where it stands, one after the other (R218, R340): a message's data is read before its first packet goes
(log entry 69). -/
def State.writeOn (s : State) (id : Nat) (ready : Bool) : Nat → State
  | 0 => s
  | fuel + 1 =>
    match s.op? id with
    | none => s
    | some o =>
      let n := min (2 ^ s.rd F.BXT_CFG_max_msg_log2) (o.length - o.moved)
      if n = 0 then s.finishMsgs id
      else match s.readLocal id o o.moved n ready with
        | (.stopped e, s) => s.stopSend id o e
        | (.poison, s) => if o.msgs.isEmpty then s.endOp id Status.checkFailed 0
          else (s.modOp id fun o => firstFail { o with moved := o.length } (((s.conn? o.target).map (·.nextForm)).getD 0) Status.checkFailed 0
            false).finishMsgs id
        | (.reading, s) => s
        | (.data d, s) =>
          let s := s.modOp id fun o => { o with phase := .running, moved := o.moved + n }
          (s.sendOne id o (.write (fieldLE o.desc 24 8 + o.moved) (fieldLE o.desc 32 4)) d).writeOn id false fuel

/-- Sends the data of a WRITE or SEND: inline data, a SEND's, and what RoCEv2 carries as one message. -/
def State.readAndSend (s : State) (id : Nat) (o : Op) (ready : Bool) : State :=
  if bitAt o.flags 2 then s.sendData id o (o.inl.take o.length)
  else if o.opcode = 2 ∧ o.length ≠ 0 ∧ !(s.conn? o.target).any (·.roce) then s.writeOn id ready (o.length / 2 ^ 16 + 2)
  else match s.readLocal id o 0 o.length ready with
  | (.stopped e, s) => s.stopOp id o .read e
  | (.poison, s) => s.endOp id Status.checkFailed 0
  | (.reading, s) => s
  | (.data d, s) => s.sendData id o d

/-- Issues the READ_REQ messages of a READ, one each MiB (R218). -/
def State.sendReads (s : State) (id : Nat) (o : Op) (k : Conn) : State :=
  let raddr := fieldLE o.desc 24 8
  let rkey := fieldLE o.desc 32 4
  let laddr := fieldLE o.desc 16 8
  if k.roce then
    let s := s.modOp id fun o => { o with msgs := [0] }
    let s := s.modConn o.target fun k => { k with reads := k.reads ++ [⟨2 ^ 32, 0, id, laddr, raddr, rkey, o.length, []⟩] }
    s.roceQueuePkts o.target
      [⟨s.roceOf k 0 true (.readReq raddr rkey o.length) [], max 1 (ceilDiv o.length k.mtu), some id, true, 0, false, o.length, 0⟩]
  else
    let n := max 1 (ceilDiv o.length (2 ^ 20))
    (List.range n).foldl (fun s i =>
      if (s.op? id).isNone then s
      else
        let off := i * 2 ^ 20
        let len := min (2 ^ 20) (o.length - off)
        match s.openMsg o.target (some id) 0 with
        | (msn, s) =>
          let s := s.modOp id fun o => { o with msgs := o.msgs ++ [msn] }
          let s := s.modConn o.target fun k => { k with reads := k.reads ++ [⟨2 ^ 32, msn, id, laddr + off, raddr + off, rkey, len, []⟩] }
          match s.conn? o.target with
          | some k => s.queuePkts o.target [s.mkPkt k (.readReq (raddr + off) rkey len) o.cls 0 msn len 0 []] (some id)
          | none => s) s

/-- Sends an ATOMIC (R217). -/
def State.sendAtomic (s : State) (id : Nat) (o : Op) (k : Conn) : State :=
  match s.openMsg o.target (some id) 0 with
  | (msn, s) =>
    let s := s.modOp id fun o => { o with msgs := [msn] }
    let s := s.modConn o.target fun k => { k with openAtomics := k.openAtomics ++ [⟨2 ^ 32, id⟩] }
    let d := o.desc
    s.queuePkts o.target [s.mkPkt k (.atomic (fieldLE d 16 8) (fieldLE d 24 4) (fieldLE d 28 1) (fieldLE d 32 8) (fieldLE d 40 8))
      o.cls 0 msn 0 0 []] (some id)

/-- Begins, or begins again after a hold, the data movement of a connection operation (R340, R344). -/
def State.startOp (s : State) (id : Nat) (ready : Bool) : State :=
  match s.op? id with
  | none => s
  | some o =>
    if o.phase = .ending ∨ o.phase = .flushing ∨ o.phase = .done then s
    else match s.conn? o.target with
    | none => s
    | some k =>
      if o.opcode = 2 ∨ o.opcode = 4 then s.readAndSend id o ready
      else if o.opcode = 3 then (s.setOp id { o with phase := .running }).sendReads id o k
      else if o.opcode = 5 then (s.setOp id { o with phase := .running }).sendAtomic id o k
      else s

/-! ### NOP and the connection operations -/

/-- NOP (R238): completes with no effect; class 7 and the control ring are the manager's (R237). -/
def execNop (key count : Nat) (s : State) : Host.Outcome State Fault Refusal :=
  onEntry key count 1 s fun s f h =>
    s.endEntry f (if key ≠ ctlKey ∧ !s.tenantOk (ringVf key) h false then Status.accessLocal else Status.ok) 0

/-- Admits a connection operation: ownership, the end's state, the frames it would send, the gatekeeper; then starts it (R211, R237, R261, R270, R288). -/
def State.admitConn (s : State) (f : Fetched) (h : DescHdr) (needsTag : Bool) (moved length : Nat)
    (charge : State → Nat → Nat → Conn → Charge) : State :=
  let vf := ringVf f.key
  let p := s.rd F.PTN_INST_partition vf
  if h.cls = 0 ∧ 192 < moved then s.endEntry f Status.formatUnsupported 0
  else if !s.tenantOk vf h needsTag then s.endEntry f Status.accessLocal 0
  else match s.ownConn vf h.target with
  | none => s.endEntry f Status.accessLocal 0
  | some k =>
    if k.state = .error then s.endEntry f k.errStatus 0
    else if k.state = .closing then s.endEntry f Status.aborted 0
    else if !s.frameFits k.peerDev k.largestFrame then s.endEntry f Status.lengthExceeded 0
    else match s.gateIn vf p h.cls (charge s vf p k) with
    | (.error st, s) => s.endEntry f st 0
    | (.ok a, s) =>
      match s.newOp f a .running length with
      | (id, s) => s.startOp id false

/-- WRITE (R239, R240). -/
def execWrite (key count : Nat) (s : State) : Host.Outcome State Fault Refusal :=
  onEntry key count 2 s fun s f h =>
    let n := fieldLE f.desc 36 4
    let inl := bitAt h.flags 2
    s.admitConn f h (!inl) n n fun s vf p k =>
      s.connCharge h.target k h.cls n (some n) n (if inl then [] else s.linkCharge vf p h.tag (fieldLE f.desc 16 8) n 1)

/-- READ (R239, R218). -/
def execRead (key count : Nat) (s : State) : Host.Outcome State Fault Refusal :=
  onEntry key count 3 s fun s f h =>
    let n := fieldLE f.desc 36 4
    s.admitConn f h true n n fun s vf p k =>
      s.connCharge h.target k h.cls 64 none n (s.linkCharge vf p h.tag (fieldLE f.desc 16 8) n 0)

/-- SEND (R239): at most 2^30 bytes. -/
def execSend (key count : Nat) (s : State) : Host.Outcome State Fault Refusal :=
  onEntry key count 4 s fun s f h =>
    let n := fieldLE f.desc 36 4
    let inl := bitAt h.flags 2
    if 2 ^ 30 < n then s.endEntry f Status.formatUnsupported 0
    else s.admitConn f h (!inl) n n fun s vf p k =>
      s.connCharge h.target k h.cls n (some n) n (if inl then [] else s.linkCharge vf p h.tag (fieldLE f.desc 16 8) n 1)

/-- ATOMIC (R239, R217): a misaligned address or an `aop` above 2 completes FORMAT_UNSUPPORTED before it is sent; a 17th outstanding atomic
of a connection waits; the RoCEv2 subset has none. -/
def execAtomic (key count : Nat) (s : State) : Host.Outcome State Fault Refusal :=
  act s fun s =>
    match s.fetched? key count 5 with
    | none => s
    | some f =>
      if (s.conn? (descHdr f.desc).target).any (fun k => decide (16 ≤ k.openAtomics.length)) then s
      else s.runEntry key count 5 fun s f h =>
        if fieldLE f.desc 16 8 % 8 ≠ 0 ∨ 2 < fieldLE f.desc 28 1 ∨ (s.conn? h.target).any (·.roce) then
          s.endEntry f Status.formatUnsupported 0
        else s.admitConn f h false 8 8 fun s _ _ k => s.connCharge h.target k h.cls 64 (some 64) 64 []

/-- RECV (R239): a buffer for the next SSN of the connection that the ring serves (R229, R245). A SEND that was refused before its entry was
posted takes it at once (R534 step 2). -/
def State.postRecv (s : State) (f : Fetched) (h : DescHdr) : State :=
  let vf := ringVf f.key
  if 2 ^ 30 < fieldLE f.desc 24 4 then s.endEntry f Status.formatUnsupported 0
  else if !s.tenantOk vf h true then s.endEntry f Status.accessLocal 0
  else match s.ownConn vf h.target, s.ring? f.key with
  | some k, some r =>
    if k.recvKey ≠ some f.key then s.endEntry f Status.accessLocal 0
    else if k.state = .error then s.endEntry f k.errStatus 0
    else if k.state = .closing then s.endEntry f Status.aborted 0
    else match s.newOp f .free .running (fieldLE f.desc 24 4) with
    | (id, s) =>
      let ssn := r.nextSsn
      let s := s.modRing f.key fun r => { r with recvs := Tbl.set r.recvs ssn id, nextSsn := (ssn + 1) % 2 ^ 32 }
      match k.msgs.find? fun m => m.isSend && m.refused.isSome && m.ssn == ssn && m.recvOp.isNone with
      | some m => ((s.takeRecv k ssn).2).endRecv id Status.lengthExceeded m.len m.imm ssn
      | none => s
  | _, _ => s.endEntry f Status.accessLocal 0

/-- RECV. -/
def execRecv (key count : Nat) (s : State) : Host.Outcome State Fault Refusal :=
  onEntry key count 6 s fun s f h => s.postRecv f h

/-! ### Connection entries (R245) -/

/-- The fields of a CONN_CREATE or CONN_MODIFY body. -/
structure ConnBody where
  ip : Nat
  peerConn : Nat
  peerDev : Nat
  epoch : Nat
  spray : Nat
  enc : Bool
  pin : Bool
  roce : Bool
  mtuCode : Nat
  retry : Nat
  rto : Nat
  armMs : Nat
  keepalive : Nat
  tx : Nat
  rx : Nat
  recv : Nat
  resv : Bool
  deriving DecidableEq, Repr

/-- Reads the body of R245. -/
def connBody (d : List Byte) : ConnBody :=
  let b := fieldLE d 42 1
  let r := fieldLE d 43 1
  { ip := fieldBE d 16 16, peerConn := fieldLE d 32 4 % 2 ^ 20, peerDev := fieldLE d 36 4 % 2 ^ 20, epoch := fieldLE d 40 2,
    spray := b % 4, enc := bitAt b 2, pin := bitAt b 3, roce := bitAt b 4, mtuCode := b / 32, retry := r % 16, rto := fieldLE d 44 2,
    armMs := fieldLE d 46 2, keepalive := fieldLE d 48 4, tx := fieldLE d 52 2, rx := fieldLE d 54 2, recv := fieldLE d 56 2,
    resv := fieldLE d 32 4 / 2 ^ 20 != 0 || fieldLE d 36 4 / 2 ^ 20 != 0 || r / 16 != 0 }

/-- Whether a number is 0 or lies in a range. -/
def zeroOr (v lo hi : Nat) : Bool := v == 0 || (decide (lo ≤ v) && decide (v ≤ hi))

/-- The field ranges of R245; a connection with `roce` 1 names no key slot (R227; log entry 14). -/
def ConnBody.inRange (b : ConnBody) (roceEnable : Bool) : Bool :=
  !b.resv && b.peerConn != 0 && b.spray != 3 && decide (b.mtuCode ≤ 3) && (!b.roce || decide (b.mtuCode ≤ 2))
    && (b.roce || b.retry == 0 || decide (b.retry ≤ 15)) && (!b.roce || decide (b.retry ≤ 7))
    && zeroOr b.rto 2 1000 && zeroOr b.armMs 1 60000 && zeroOr b.keepalive 10 1000000
    && (b.recv == 0xFFFF || decide (b.recv < 4096)) && !(b.roce && (b.enc || b.tx != 0 || b.rx != 0)) && (!b.roce || roceEnable)

/-- Whether an instance owns a key slot (R393). -/
def State.ownsSlot (s : State) (vf n : Nat) : Bool := (Tbl.get? s.slots n).any fun k => k.vf == vf

/-- Whether the slots and the receive ring of a body are the instance's and free to name (R245). -/
def State.bodyOwned (s : State) (vf c : Nat) (b : ConnBody) : Bool :=
  (!b.enc || (s.ownsSlot vf b.tx && s.ownsSlot vf b.rx))
    && (b.recv == 0xFFFF ||
      ((s.ring? (vf * 4096 + b.recv)).any (·.kind == .receive)
        && !s.bxt.conns.any fun q => q.1 != c && q.2.recvKey == some (vf * 4096 + b.recv)))

/-- Puts a body's fields into an end. -/
def State.applyBody (s : State) (k : Conn) (b : ConnBody) : Conn :=
  { k with
    peerIp := b.ip, peerConn := b.peerConn, peerDev := b.peerDev, epoch := b.epoch, spray := if b.roce then 0 else b.spray, enc := b.enc,
    pin := b.pin, roce := b.roce, mtu := 1024 * 2 ^ b.mtuCode,
    retryLimit := if b.retry = 0 then (if b.roce then 7 else s.rd F.BXT_TIMER_retry_limit) else b.retry,
    rtoUs := if b.rto = 0 then s.rd F.BXT_TIMER_rto_init_us else b.rto, armTimeoutMs := if b.armMs = 0 then 1000 else b.armMs,
    keepaliveUs := b.keepalive, txSlot := b.tx, rxSlot := b.rx, recvRing := b.recv,
    cwnd := clampCwnd (1024 * 2 ^ b.mtuCode) k.cwnd }

/-- The connection IDs that management connections hold (R500). -/
def mgtConnId (c : Nat) : Bool := decide (0xFFFF8 ≤ c)

/-- CONN_CREATE: refused as R245 gives, else the end is ARMED and probes (R211). A RoCEv2 end has no PROBE and is OPEN at once. -/
def State.connCreate (s : State) (f : Fetched) (h : DescHdr) : State :=
  let vf := ringVf f.key
  let p := s.rd F.PTN_INST_partition vf
  let c := h.target
  let b := connBody f.desc
  if !s.tenantOk vf h false then s.endEntry f Status.accessLocal 0
  else if !b.inRange (s.rd F.BXT_CFG_roce_enable == 1) then s.endEntry f Status.formatUnsupported 0
  else if !s.bodyOwned vf c b ∨ (s.conn? c).isSome ∨ c = 0 ∨ mgtConnId c then s.endEntry f Status.accessLocal 0
  else if !s.mayBack vf p ∨ (b.pin ∧ !s.mayPin vf p c) then s.endEntry f Status.refusedCapacity 0
  else
    let k := s.applyBody (s.newConn vf p 0 (1024 * 2 ^ b.mtuCode)) b
    let k := { k with state := if b.roce then .open_ else .armed, cwnd := clampCwnd k.mtu (s.rd F.BXT_CC_cwnd_init_kib * 1024) }
    let s := s.addConn c k
    let s := match k.recvKey with
      | some r => s.modRing r fun g => { g with recvs := [], nextSsn := 0 }
      | none => s
    let s := match s.conn? c with
      | some k => if b.roce then s.settlePort c else s.sendProbe c k
      | none => s
    s.endEntry f Status.ok 0 (leBytes 2 b.epoch)

/-- CONN_CREATE. -/
def execConnCreate (key count : Nat) (s : State) : Host.Outcome State Fault Refusal :=
  onEntry key count 0x20 s fun s f h => s.connCreate f h

/-- The old epoch of a tenant connection ends by CONN_MODIFY: its operations complete STALE_EPOCH and RECVs start again from SSN 0 (R225,
R245). -/
def State.modifyEpoch (s : State) (c epoch : Nat) : State :=
  let s := s.endOpsOfConn c Status.staleEpoch 0 false
  let s := s.advanceEpoch c
  match s.conn? c with
  | some k =>
    let s := s.setConn c { k with epoch := epoch, state := if k.roce then .open_ else .armed }
    let s := match k.recvKey with
      | some r => s.modRing r fun g => { g with recvs := [], nextSsn := 0 }
      | none => s
    match s.conn? c with
    | some k => if k.roce then s else s.sendProbe c k
    | none => s
  | none => s

/-- CONN_MODIFY: refused as CONN_CREATE is, but for an ID in use, with the epoch in force (R251); an epoch that differs goes through ARMED (R211, R245). -/
def State.connModify (s : State) (f : Fetched) (h : DescHdr) : State :=
  let vf := ringVf f.key
  let p := s.rd F.PTN_INST_partition vf
  let c := h.target
  let b := connBody f.desc
  let own := if mgtConnId c then none else s.ownConn vf c
  if !s.tenantOk vf h false then s.endEntry f Status.accessLocal 0
  else if !b.inRange (s.rd F.BXT_CFG_roce_enable == 1) then s.endEntry f Status.formatUnsupported 0
  else match own with
  | none => s.endEntry f Status.accessLocal 0
  | some k =>
    if !s.bodyOwned vf c b then s.endEntry f Status.accessLocal 0
    else if b.pin ∧ !k.pin ∧ !s.mayPin vf p c then s.endEntry f Status.refusedCapacity 0
    else
      let s := s.setConn c { s.applyBody k b with epoch := k.epoch }
      let s := if b.epoch ≠ k.epoch then s.modifyEpoch c b.epoch else s
      (s.showCtx p).endEntry f Status.ok 0 (leBytes 2 b.epoch)

/-- CONN_MODIFY. -/
def execConnModify (key count : Nat) (s : State) : Host.Outcome State Fault Refusal :=
  onEntry key count 0x21 s fun s f h => s.connModify f h

/-- CONN_CLOSE (R211): an OPEN end moves to CLOSING, an ARMED or ERROR one to FREE at once. -/
def State.connClose (s : State) (f : Fetched) (h : DescHdr) : State :=
  let c := h.target
  match s.ownConn (ringVf f.key) c with
  | none => s.endEntry f Status.accessLocal 0
  | some k =>
    if !s.tenantOk (ringVf f.key) h false then s.endEntry f Status.accessLocal 0
    else
      let s := match k.state with
        | .open_ => (s.setConn c { k with state := .closing }).tryClose c
        | .closing => s
        | .armed => s.freeConn c (some Status.aborted)
        | .error => s.freeConn c (some k.errStatus)
      s.endEntry f Status.ok 0

/-- CONN_CLOSE. -/
def execConnClose (key count : Nat) (s : State) : Host.Outcome State Fault Refusal :=
  onEntry key count 0x22 s fun s f h => s.connClose f h

end Sys2Proof.Machine
end

