-- ==== Sys2Proof/Machine/Translate.lean ====
section
/-!
DEFINITION. The translation entries (R337): address spaces, invalidation (R345), RESOLVE (R344), the fault and error queues (R341-R343),
pinned pages (R348).
-/

namespace Sys2Proof.Machine

/-! ### Entries -/

/-- The instance of an entry. -/
abbrev Fetched.vf (f : Fetched) : Nat := ringVf f.key

/-- Carries out a translation entry after the checks it shares: its own fields, then ownership (R337). -/
def State.xltEntry (s : State) (f : Fetched) (h : DescHdr) (fieldsOk ownTag : Bool) (k : State → State) : State :=
  if !fieldsOk then s.endEntry f Status.formatUnsupported 0
  else if h.cls = 7 ∨ (ownTag ∧ !s.ownsTag f.vf h.tag) then s.endEntry f Status.accessLocal 0
  else k s

/-- The tags that are FREE. -/
def State.freeTags (s : State) : List Nat := (List.range 4096).filter fun t => t != 0 && s.rd F.XLT_TAG_state t == 0

/-- Allocates a tag to an instance with a fresh nonce (R328, R338). -/
def State.makeTag (s : State) (vf p t root : Nat) (ddr remote : Bool) : Nat × State :=
  let s := ((((s.wr F.XLT_TAG_state 1 t).wr F.XLT_TAG_vf vf t).wr F.XLT_TAG_partition p t).wr F.XLT_TAG_remote_ok (b2n remote) t)
  let s := s.bump F.XLT_PTN_CFG_tags_held 1 p
  let (n, s) := s.drawNonce
  (n, { s with xlt := { s.xlt with roots := Tbl.set s.xlt.roots t (root, ddr), nonces := Tbl.set s.xlt.nonces t n } })

/-- AS_CREATE (R337): which free tag it takes is the device's choice. -/
def State.asCreate (s : State) (f : Fetched) (h : DescHdr) : State :=
  let p := s.rd F.PTN_INST_partition f.vf
  let root := fieldLE f.desc 16 8
  let b := fieldLE f.desc 24 1
  let ddr := bitAt b 0
  let ok := b / 4 == 0 && zeroBytes f.desc 25 38 && h.tag == 0 && root % 4096 == 0 && decide (root + 4096 ≤ s.shareBytes p (b2n ddr))
  s.xltEntry f h ok false fun s =>
    let free := s.freeTags
    if free.isEmpty ∨ s.rd F.XLT_PTN_CFG_tag_limit p ≤ s.rd F.XLT_PTN_CFG_tags_held p then s.endEntry f Status.refusedCapacity 0
    else
      let (i, s) := s.drawBelow free.length
      let t := free.getD i 0
      match s.makeTag f.vf p t root ddr (bitAt b 1) with
      | (n, s) => s.endEntry f Status.ok 0 (leBytes 2 t ++ leBytes 2 0 ++ leBytes 4 n)

/-- AS_CREATE. -/
def execAsCreate (key count : Nat) (s : State) : Host.Outcome State Fault Refusal :=
  onEntry key count 0x50 s fun s f h => s.asCreate f h

/-! ### Invalidation (R345) -/

/-- Accesses of a tag under an older generation that are still in use (R336). -/
def State.oldInUse (s : State) (tag : Nat) : Nat :=
  (s.hpt.reads.filter fun r => r.tag == tag && r.gen != s.gen tag).length
    + (s.hpt.posted.filter fun w => w.tag == tag && w.gen != s.gen tag).length

/-- Drops every cache entry of a tag (R345). -/
def State.uncache (s : State) (tag : Nat) : State :=
  let c := s.xlt.cache.filter fun l => l.tag != tag
  let p := s.xlt.ptrs.filter fun q => q.tag != tag
  (({ s with xlt := { s.xlt with cache := c, ptrs := p } }).wr F.XLT_CACHE_leaf_resident c.length).wr F.XLT_CACHE_ptr_resident p.length

/-- Steps 1 to 4 of an invalidation. -/
def State.startInval (s : State) (tag : Nat) (rekey : Bool) : State :=
  let s := s.wr F.XLT_TAG_generation (s.gen tag + 1) tag
  let s := if rekey then (match s.drawNonce with
      | (n, s) => { s with xlt := { s.xlt with nonces := Tbl.set s.xlt.nonces tag n } }) else s
  let s := (s.uncache tag).wr F.XLT_TAG_draining 1 tag
  let links := (s.hpt.posted.filter fun w => w.tag == tag).foldl
    (fun t w => Tbl.set t w.link (Tbl.set (Tbl.getD t w.link []) (Config.completer w.link w.addr) w.addr)) ([] : Tbl (Tbl Nat))
  s.flushLinks links (.inval tag)

/-- Opens an invalidation: it starts, or waits behind the one that drains (R347). -/
def State.openInval (s : State) (tag op : Nat) (rekey destroy : Bool) : State :=
  let busy := s.xlt.invals.any fun i => i.tag == tag
  let s := { s with xlt := { s.xlt with invals := s.xlt.invals ++ [⟨tag, op, rekey, !busy, destroy⟩] } }
  if busy then s else s.startInval tag rekey

/-- INVALIDATE (R337, R345). -/
def State.invalidate (s : State) (f : Fetched) (h : DescHdr) : State :=
  let p := s.rd F.PTN_INST_partition f.vf
  let b := fieldLE f.desc 16 1
  s.xltEntry f h (b / 2 == 0 && zeroBytes f.desc 17 46) true fun s =>
    if 64 ≤ s.rd F.XLT_PTN_CFG_inval_open p then s.endEntry f Status.refusedCapacity 0
    else match s.newOp f .free .running 0 with
    | (id, s) => (s.bump F.XLT_PTN_CFG_inval_open 1 p).openInval h.tag id (bitAt b 0) false

/-- INVALIDATE. -/
def execInvalidate (key count : Nat) (s : State) : Host.Outcome State Fault Refusal :=
  onEntry key count 0x52 s fun s f h => s.invalidate f h

/-- Whether something still names a tag (R349): a ring pair, an enabled aperture, a valid requester entry, the bound queues, a bound mill
table, an open operation. -/
def State.tagNamed (s : State) (tag : Nat) : Bool :=
  s.rings.any (fun q => q.1 != ctlKey && q.2.tag == tag)
    || (List.range 1024).any (fun v => s.rd F.HPT_APERTURE_ap_enable v == 1 && s.rd F.HPT_APERTURE_ap_tag v == tag)
    || (List.range 512).any (fun i => s.rd F.HPT_RP_RID_valid i == 1 && s.rd F.HPT_RP_RID_tag i == tag)
    || s.xlt.queues.any (fun q => q.2.tag == tag)
    || s.mill.binds.any (fun b => b.tag == tag)
    || s.ops.any (fun p => p.2.tag == tag && p.2.opcode != 0x51 && p.2.opcode != 0x52)

/-- AS_DESTROY (R349): QUIESCE_REQUIRED while the tag is named; else an invalidation with `rekey` 1, and the tag is freed at its end. -/
def State.asDestroy (s : State) (f : Fetched) (h : DescHdr) : State :=
  s.xltEntry f h (zeroBytes f.desc 16 47) true fun s =>
    if s.tagNamed h.tag then s.endEntry f Status.quiesceRequired 0
    else match s.newOp f .free .running 0 with
    | (id, s) => (s.wr F.XLT_TAG_state 2 h.tag).openInval h.tag id true true

/-- AS_DESTROY. -/
def execAsDestroy (key count : Nat) (s : State) : Host.Outcome State Fault Refusal :=
  onEntry key count 0x51 s fun s f h => s.asDestroy f h

/-- Frees a tag (R349, R384). -/
def State.freeTag (s : State) (tag : Nat) : State :=
  let p := s.rd F.XLT_TAG_partition tag
  let s := (s.lower F.XLT_PTN_CFG_tags_held 1 p).wr F.XLT_TAG_state 0 tag
  let s := (((s.wr F.XLT_TAG_vf 0 tag).wr F.XLT_TAG_partition 0 tag).wr F.XLT_TAG_remote_ok 0 tag).wr F.XLT_TAG_draining 0 tag
  ({ s with xlt := { s.xlt with roots := Tbl.erase s.xlt.roots tag, nonces := Tbl.erase s.xlt.nonces tag } }).uncache tag

/-! ### Pinned pages (R348) -/

/-- Walks a range's pages again: the places, or none where one fails (R348). -/
def State.rewalk (s : State) (part vf tag base bytes : Nat) (acc : AccKind) : Option (List Loc) × State :=
  pinPages (fun va s => s.walkNow part vf tag va acc) (pageVas base bytes) s

/-- A ring that lost a pin: it fetches nothing more, owned entries that have not started end without completions, started ones wind down,
their completions are discarded. -/
def State.losePin (s : State) (key : Nat) : State :=
  let lost := (s.fetched.filter fun f => f.key == key).map (·.count)
  let s := { s with fetched := s.fetched.filter fun f => f.key != key }
  let s := s.modRing key fun r => { r with
    state := .stopping, pinLost := true, open_ := r.open_.filter fun c => !lost.contains c, recvs := [], waiting := false }
  let s := (s.opsOfRing key).foldl (fun s id => s.windDown id Status.aborted 0) s
  (s.bump F.XLT_PIN_LOST).logEv .XLT .stateChange 2 key

/-- Walks the pins of a tag again at the end of an invalidation. -/
def State.checkPins (s : State) (tag : Nat) : State :=
  let s := (s.rings.filter fun q => q.1 != ctlKey && q.2.tag == tag && q.2.state != .stopped && !q.2.pinLost).foldl (fun s q =>
    let vf := ringVf q.1
    let p := s.rd F.PTN_INST_partition vf
    let r := q.2
    match s.rewalk p vf tag r.sqBase (2 ^ r.sqLog * r.esz) .read with
    | (none, s) => s.losePin q.1
    | (some a, s) => match s.rewalk p vf tag r.cqBase (2 ^ r.cqLog * 32) .write with
      | (some b, s) => s.modRing q.1 fun r => { r with sqPages := a, cqPages := b }
      | (none, s) => s.losePin q.1) s
  (s.xlt.queues.filter fun q => q.2.tag == tag).foldl (fun s q =>
    let x := q.2
    let unbound := fun (s : State) =>
      let s := ({ s with xlt := { s.xlt with queues := Tbl.erase s.xlt.queues q.1 } }).wr F.XLT_PTN_CFG_q_bound 0 q.1
      (s.bump F.XLT_PIN_LOST).logEv .XLT .stateChange 0 (2 ^ 32 + q.1)
    match s.rewalk q.1 x.vf tag x.fqBase (2 ^ 17) .write with
    | (none, s) => unbound s
    | (some a, s) => match s.rewalk q.1 x.vf tag x.eqBase (2 ^ 17) .write with
      | (some b, s) => { s with xlt := { s.xlt with queues := Tbl.set s.xlt.queues q.1 { x with fqPages := a, eqPages := b } } }
      | (none, s) => unbound s) s

/-- Ends an invalidation: its operation completes with the nonce in force; AS_DESTROY frees the tag. -/
def State.closeInval (s : State) (i : Inval) : State :=
  let s := s.bump F.XLT_INVAL
  let n := Tbl.getD s.xlt.nonces i.tag 0
  let s := if i.destroy then s.freeTag i.tag
    else s.lower F.XLT_PTN_CFG_inval_open 1 (s.rd F.XLT_TAG_partition i.tag)
  (s.modOp i.op fun o => { o with cqe := { o.cqe with result := if i.destroy then [] else leBytes 4 0 ++ leBytes 4 n } }).endOp i.op Status.ok 0

/-- The invalidations of a tag that waited for the one that completed (R347): the first of them starts, and with a plain INVALIDATE every
other one queued by now, which will complete with it; AS_DESTROY starts alone. -/
def State.nextInval (s : State) (tag : Nat) : State :=
  match s.xlt.invals.find? fun i => i.tag == tag with
  | none => s
  | some first =>
    let joins := fun (i : Inval) => i.tag == tag && (i.op == first.op || (!first.destroy && !i.destroy))
    let rekey := s.xlt.invals.any fun i => joins i && i.rekey
    let s := { s with xlt := { s.xlt with invals := s.xlt.invals.map fun i => if joins i then { i with started := true } else i } }
    s.startInval tag rekey

/-- Completes an invalidation whose retries have all walked, with those that started with it; those that waited then have their turn
(R345, R347). -/
def State.completeInval (s : State) (tag : Nat) : State :=
  let mine := s.xlt.invals.filter fun i => i.tag == tag && i.started
  let s := { s with xlt := { s.xlt with invals := s.xlt.invals.filter fun i => !(i.tag == tag && i.started) } }
  let s := (s.wr F.XLT_TAG_draining 0 tag).checkPins tag
  (mine.foldl State.closeInval s).nextInval tag

/-- Marks held transfers of a range for their retry under an operation; answers how many. -/
def State.markRetry (s : State) (tag lo n op : Nat) : Nat × State :=
  let hit := fun (h : Hold) => h.tag == tag && (n == 0 || (decide (lo ≤ h.va) && decide (h.va < lo + n))) && h.retry.isNone
  let covered := fun (f : OpenFault) => f.tag == tag && (n == 0 || (decide (lo < f.page * 4096 + 4096) && decide (f.page * 4096 < lo + n)))
  ((s.xlt.holds.filter hit).length,
    { s with xlt := { s.xlt with
        holds := s.xlt.holds.map fun h => if hit h then { h with retry := some op } else h
        faults := s.xlt.faults.filter fun f => !covered f } })

/-- No access under an old generation is left (R345 steps 5 and 6): held transfers are retried, and with none the invalidation completes. -/
def State.drainInval (s : State) (tag : Nat) : State :=
  match s.xlt.invals.find? fun i => i.tag == tag && i.started with
  | none => s
  | some i =>
    if s.oldInUse tag ≠ 0 ∨ s.xlt.holds.any (fun h => h.retry == some i.op) then s
    else match s.markRetry tag 0 0 i.op with
    | (0, s) => s.completeInval tag
    | (_, s) => s

/-- INVALIDATE_DRAIN_DONE. -/
def execInvalidateDrainDone (tag : Nat) (s : State) : Host.Outcome State Fault Refusal :=
  act s fun s => s.drainInval tag

/-! ### RESOLVE (R344) -/

/-- RESOLVE: marks the held transfers it covers; with none it completes at once with a count of 0. -/
def State.resolve (s : State) (f : Fetched) (h : DescHdr) : State :=
  s.xltEntry f h (zeroBytes f.desc 32 31) true fun s =>
    match s.newOp f .free .running 0 with
    | (id, s) =>
      match s.markRetry h.tag (fieldLE f.desc 16 8) (fieldLE f.desc 24 8) id with
      | (n, s) =>
        let s := s.modOp id fun o => { o with cqe := { o.cqe with result := leBytes 4 n } }
        if n = 0 then (s.bump F.XLT_RESOLVE).endOp id Status.ok 0 else s

/-- RESOLVE. -/
def execResolve (key count : Nat) (s : State) : Host.Outcome State Fault Refusal :=
  onEntry key count 0x53 s fun s f h => s.resolve f h

/-- After a retried walk: where none of its operation's retries is left, the invalidation completes; a RESOLVE does as the device settles. -/
def State.retriesDone (s : State) (op : Nat) : State :=
  if s.xlt.holds.any fun h => h.retry == some op then s
  else match s.xlt.invals.find? fun i => i.op == op with
  | some i => s.completeInval i.tag
  | none => s

/-! ### Queues (R337, R341) -/

/-- FQ_BIND. -/
def State.fqBind (s : State) (f : Fetched) (h : DescHdr) : State :=
  let p := s.rd F.PTN_INST_partition f.vf
  let fq := fieldLE f.desc 16 8
  let eq := fieldLE f.desc 24 8
  let tag := fieldLE f.desc 32 2
  let vec := fieldLE f.desc 34 2
  let ok := fq % 4096 == 0 && eq % 4096 == 0 && decide (tag < 4096) && decide (vec < 2048) && zeroBytes f.desc 36 27
  s.xltEntry f h ok true fun s =>
    if !s.ownsTag f.vf tag ∨ (s.rd F.XLT_PTN_CFG_q_bound p = 1 ∧ s.rd F.XLT_PTN_CFG_q_vf p ≠ f.vf) then s.endEntry f Status.accessLocal 0
    else match s.pinRange f.vf p tag fq (2 ^ 17) .write with
    | (none, s) => s.endEntry f Status.formatUnsupported 0
    | (some a, s) =>
      match s.pinRange f.vf p tag eq (2 ^ 17) .write with
      | (none, s) => s.endEntry f Status.formatUnsupported 0
      | (some b, s) =>
        let q : XQueues := ⟨f.vf, tag, fq, eq, vec, 0, 0, 0, 0, a, b⟩
        let s := { s with xlt := { s.xlt with queues := Tbl.set s.xlt.queues p q } }
        (((s.wr F.XLT_PTN_CFG_q_vf f.vf p).wr F.XLT_PTN_CFG_q_bound 1 p).wr F.XLT_PTN_CFG_overflow 0 p).endEntry f Status.ok 0

/-- FQ_BIND. -/
def execFqBind (key count : Nat) (s : State) : Host.Outcome State Fault Refusal :=
  onEntry key count 0x54 s fun s f h => s.fqBind f h

/-- The count of records that a 32-bit head stands for, given the posted count and the head held; none where it lies beyond the posted
count. A head behind the one held changes nothing. -/
def ackHead (posted head v : Nat) : Option Nat :=
  let d := cdiff v head
  if d ≤ posted - head then some (head + d)
  else if serialOlder 32 v head then some head else none

/-- QUEUE_ACK. -/
def State.queueAck (s : State) (f : Fetched) (h : DescHdr) : State :=
  let p := s.rd F.PTN_INST_partition f.vf
  let q := (Tbl.get? s.xlt.queues p).getD ⟨f.vf, 0, 0, 0, 0, 0, 0, 0, 0, [], []⟩
  match ackHead q.fqPosted q.fqHead (fieldLE f.desc 16 4), ackHead q.eqPosted q.eqHead (fieldLE f.desc 20 4) with
  | some a, some b =>
    s.xltEntry f h (zeroBytes f.desc 24 39) true fun s =>
      if q.vf ≠ f.vf then s.endEntry f Status.accessLocal 0
      else
        let s := if (Tbl.get? s.xlt.queues p).isSome then
            { s with xlt := { s.xlt with queues := Tbl.set s.xlt.queues p { q with fqHead := a, eqHead := b } } } else s
        s.endEntry f Status.ok 0
  | _, _ => s.endEntry f Status.formatUnsupported 0

/-- QUEUE_ACK. -/
def execQueueAck (key count : Nat) (s : State) : Host.Outcome State Fault Refusal :=
  onEntry key count 0x55 s fun s f h => s.queueAck f h

/-- The batch timer of a partition's records (R342). -/
def execFaultBatchTimer (part : Nat) (s : State) : Host.Outcome State Fault Refusal :=
  actOn (decide (part < 64)) s fun s => s.writeBatch part

end Sys2Proof.Machine
end

