-- ==== Sys2Proof/Machine/Instances.lean ====
section
/-!
DEFINITION. Partitions and instances (15_partitions_instances.md): the manager entries 0x60 to 0x69 (R388, R389), allowances (R378, R379),
drains (R380), context-level resets (R381), reset and removal (R384-R386), tokens (R387).
-/

namespace Sys2Proof.Machine

/-! ### What the registers show (R391) -/

/-- The instances of a partition and the sums of their allowances. -/
def State.showPart (s : State) (p : Nat) : State :=
  let vs := s.instsOf p
  let sum := fun (f : Fld) => sumNat (vs.map fun v => s.rd f v)
  ((((s.wr F.PTN_PART_instances vs.length p).wr F.PTN_PART_rings_alloc (sum F.PTN_INST_rings) p).wr F.PTN_PART_pin_alloc
    (sum F.PTN_INST_ctx_pin) p).wr F.PTN_PART_ctx_alloc (sum F.PTN_INST_ctx_backed) p).wr F.PTN_PART_key_alloc (sum F.PTN_INST_key_slots) p

/-! ### Entries and their refusals (R388, R389) -/

/-- The allowance body (R388). -/
structure Allow where
  rings : Nat
  ctxPin : Nat
  ctxBacked : Nat
  keySlots : Nat
  poolCap : Nat
  stagingCap : Nat
  weight : Nat
  rate : Nat
  burst : Nat
  classMask : Nat
  hostMask : Nat
  deriving DecidableEq, Repr

/-- Reads the allowance body. -/
def allowOf (d : List Byte) : Allow :=
  { rings := fieldLE d 16 2, ctxPin := fieldLE d 18 2, ctxBacked := fieldLE d 20 4, keySlots := fieldLE d 24 4, poolCap := fieldLE d 28 2,
    stagingCap := fieldLE d 30 2, weight := fieldLE d 32 2, rate := fieldLE d 34 4, burst := fieldLE d 38 4, classMask := fieldLE d 42 1,
    hostMask := fieldLE d 43 1 }

/-- The ranges of R378. -/
def Allow.inRange (a : Allow) : Bool :=
  decide (a.rings ≤ 4096) && decide (a.ctxPin ≤ 16384) && decide (a.ctxBacked ≤ 1048567) && decide (a.keySlots ≤ 65536) && decide (a.poolCap ≤ 2048)
    && decide (a.stagingCap ≤ 832) && decide (a.rate ≤ 12800000) && (a.burst == 0 || (decide (4 ≤ a.burst) && decide (a.burst ≤ 65536)))
    && decide (a.classMask < 128) && decide (a.hostMask < 16)

/-- The allowances in force with a modification: a field of 0 stays as it is, but for the masks (R388). -/
def State.merged (s : State) (vf : Nat) (a : Allow) : Allow :=
  let keep := fun (f : Fld) v => if v = 0 then s.rd f vf else v
  { a with
    rings := keep F.PTN_INST_rings a.rings, ctxPin := keep F.PTN_INST_ctx_pin a.ctxPin, ctxBacked := keep F.PTN_INST_ctx_backed a.ctxBacked
    keySlots := keep F.PTN_INST_key_slots a.keySlots, poolCap := keep F.PTN_INST_pool_cap a.poolCap
    stagingCap := keep F.PTN_INST_staging_cap a.stagingCap, weight := keep F.PTN_INST_wfq_weight a.weight
    rate := keep F.PTN_INST_rate_mbps a.rate, burst := keep F.PTN_INST_burst_kib a.burst }

/-- Whether the sums of R378 hold with an instance's new allowances. -/
def State.sumsOk (s : State) (p vf : Nat) (a : Allow) : Bool :=
  let others := (s.instsOf p).filter (· != vf)
  let sum := fun (f : Fld) => sumNat (others.map fun v => s.rd f v)
  let sh := s.shares p
  decide (sum F.PTN_INST_rings + a.rings ≤ sh.rings) && decide (sum F.PTN_INST_ctx_pin + a.ctxPin ≤ sh.ctxHot)
    && decide (sum F.PTN_INST_ctx_backed + a.ctxBacked ≤ sh.ctxBacked) && decide (sum F.PTN_INST_key_slots + a.keySlots ≤ sh.keySlots)

/-- Whether an instance holds no more than its new allowances (R379). -/
def State.holdsWithin (s : State) (vf : Nat) (a : Allow) : Bool :=
  decide (s.ringsOf vf ≤ a.rings) && decide (s.pinsOfInst vf ≤ a.ctxPin) && decide (s.connsOfInst vf ≤ a.ctxBacked) && decide (s.slotsHeld vf ≤ a.keySlots)

/-- Writes an instance's allowances. -/
def State.setAllow (s : State) (vf : Nat) (a : Allow) : State :=
  let s := ((s.wr F.PTN_INST_class_mask a.classMask vf).wr F.PTN_INST_host_mask a.hostMask vf).wr F.PTN_INST_rings a.rings vf
  let s := ((s.wr F.PTN_INST_ctx_pin a.ctxPin vf).wr F.PTN_INST_ctx_backed a.ctxBacked vf).wr F.PTN_INST_key_slots a.keySlots vf
  let s := ((s.wr F.PTN_INST_pool_cap a.poolCap vf).wr F.PTN_INST_staging_cap a.stagingCap vf).wr F.PTN_INST_wfq_weight a.weight vf
  (s.wr F.PTN_INST_rate_mbps a.rate vf).wr F.PTN_INST_burst_kib a.burst vf

/-- Whether a command runs on an instance, or on a partition (R389); a partition's QUIESCE does not stand in the way of an instance's (R390). -/
def State.instBusy (s : State) (vf : Nat) : Bool :=
  let i := s.inst vf
  i.resetting.isSome || i.drains.any (·.op.isSome)

/-- A partition's record. -/
def State.part (s : State) (p : Nat) : Part := Tbl.getD s.parts p ⟨[], none⟩

/-- Changes a partition's record. -/
def State.setPart (s : State) (p : Nat) (r : Part) : State := { s with parts := Tbl.set s.parts p r }

/-- A command runs on a partition: its own, a slice load, or the reset of one of its instances. -/
def State.partBusy (s : State) (p : Nat) : Bool :=
  let r := s.part p
  r.resetting.isSome || !r.drains.isEmpty || s.lay.slicePart == some p || (s.instsOf p).any fun v => (s.inst v).resetting.isSome

/-- The checks every manager entry meets in the row order of R389 up to running commands: its partition, or the status it is refused with. -/
def State.instCheck (s : State) (h : DescHdr) (fieldsOk create : Bool) (hostOk : PartDef → Bool) : Except Nat Nat :=
  let vf := h.target
  if h.tag ≠ 0 ∨ 1024 ≤ vf ∨ !fieldsOk then .error Status.formatUnsupported
  else match s.partOf vf with
  | none => .error Status.accessLocal
  | some p =>
    if !((s.partDef p).map hostOk).getD true then .error Status.formatUnsupported
    else if s.rd F.PTN_PART_state p = ptnDisabled ∨ create ≠ (s.rd F.PTN_INST_state vf == instAbsent) then .error Status.accessLocal
    else if s.instBusy vf then .error Status.refusedCapacity
    else .ok p

/-- Carries out an instance entry once it has passed its checks. -/
def onInst (key count opcode : Nat) (s : State) (fieldsOk : List Byte → Bool) (create : Bool) (hostOk : List Byte → PartDef → Bool)
    (k : State → Fetched → Nat → Nat → State) : Host.Outcome State Fault Refusal :=
  onEntry key count opcode s fun s f h => match s.instCheck h (fieldsOk f.desc) create (hostOk f.desc) with
    | .error st => s.endEntry f st 0
    | .ok p => k s f h.target p

/-- An entry that has no body. -/
def noBody (d : List Byte) : Bool := zeroBytes d 16 47

/-- `drain_ms` alone: 0 or 1 to 10,000. -/
def drainBody (d : List Byte) : Bool := decide (fieldLE d 16 2 ≤ 10000) && zeroBytes d 18 45

/-- The allowance body is in range, its reserved bytes 0. -/
def allowBody (d : List Byte) : Bool := (allowOf d).inRange && zeroBytes d 44 19

/-- `host_mask` is a subset of the partition's `host_port_mask`. -/
def hostBody (d : List Byte) (p : PartDef) : Bool := fieldLE d 43 1 &&& p.hostPortMask == fieldLE d 43 1

/-- A subject of which no mask is asked. -/
def anyHost (_ : List Byte) (_ : PartDef) : Bool := true

/-! ### Creation, allowances, tokens (R377-R379, R387) -/

/-- Draws an instance's attach token, which voids the old one (R321). -/
def State.newToken (s : State) (vf : Nat) : Word × State :=
  let (t, s) := s.drawToken
  (t, s.setInst vf { s.inst vf with token := t })

/-- INST_CREATE: the instance is LIVE and NEW with its allowances, a full bucket and a token. -/
def State.instCreate (s : State) (f : Fetched) (vf p : Nat) : State :=
  let a := allowOf f.desc
  if !s.sumsOk p vf a then s.endEntry f Status.refusedCapacity 0
  else
    let s := ((s.setAllow vf a).wr F.PTN_INST_partition p vf).wr F.PTN_INST_state instLive vf
    let (t, s) := (s.setInst vf ⟨0, [], [], false, false, [], [], [], none, s.now, 0, 0, []⟩).newToken vf
    let s := ((s.setBucket vf (s.bucketBurst vf p : Int)).showPart p).bump F.PTN_CREATED
    s.endEntry f Status.ok 0 (leBytes 8 t.toNat)

/-- INST_CREATE. -/
def execInstCreate (key count : Nat) (s : State) : Host.Outcome State Fault Refusal :=
  onInst key count 0x60 s allowBody true hostBody State.instCreate

/-- INST_MODIFY (R379): the bucket keeps its level, clamped to the new burst. -/
def State.instModify (s : State) (f : Fetched) (vf p : Nat) : State :=
  let a := s.merged vf (allowOf f.desc)
  if !s.sumsOk p vf a ∨ !s.holdsWithin vf a then s.endEntry f Status.refusedCapacity 0
  else
    let k := s.bucketNow vf p
    let frac := s.bucketFrac vf p
    let s := s.setAllow vf a
    let s := s.setBucket vf (min k (s.bucketBurst vf p : Int)) frac
    (s.showPart p).endEntry f Status.ok 0

/-- INST_MODIFY. -/
def execInstModify (key count : Nat) (s : State) : Host.Outcome State Fault Refusal :=
  onInst key count 0x61 s allowBody false hostBody State.instModify

/-- INST_TOKEN (R387). -/
def execInstToken (key count : Nat) (s : State) : Host.Outcome State Fault Refusal :=
  onInst key count 0x66 s noBody false anyHost fun s f vf _ =>
    let (t, s) := s.newToken vf
    s.endEntry f Status.ok 0 (leBytes 8 t.toNat)

/-! ### Drains (R380, R386) -/

/-- The admitted operations of an instance; receive entries waiting for a message are not among them (log entry 30). -/
def State.admittedOf (s : State) (vf : Nat) : List Nat := (s.ops.filter fun q => q.2.vf == vf && q.2.opcode != 6).map Prod.fst

/-- The result of a QUIESCE: what drained and what was ended. -/
def drainResult (d : Drain) : List Byte := leBytes 4 d.drained ++ leBytes 4 d.ended

/-- A QUIESCE command completes. -/
def State.quiesceDone (s : State) (d : Drain) : State :=
  match d.op with
  | some id => ((s.modOp id fun o => { o with cqe := { o.cqe with result := drainResult d } }).endOp id Status.ok 0).bump F.PTN_QUIESCE
  | none => s

/-- A FENCING partition of which no instance is FENCING any more is QUIESCED (R386). -/
def State.partQuiesced (s : State) (p : Nat) : State :=
  if s.rd F.PTN_PART_state p = ptnFencing ∧ (s.instsOf p).all (fun v => s.rd F.PTN_INST_state v != instFencing) then
    let r := s.part p
    r.drains.foldl State.quiesceDone ((s.setPart p { r with drains := [] }).wr F.PTN_PART_state ptnQuiesced p)
  else s

/-- An instance's drain is over: it is QUIESCED, and the commands that wait for it learn of it. -/
def State.quiesced (s : State) (vf ended : Nat) (ds : List Drain) : State :=
  let p := s.rd F.PTN_INST_partition vf
  let s := (s.setInst vf { s.inst vf with drains := [] }).wr F.PTN_INST_state instQuiesced vf
  let s := ds.foldl (fun (s : State) (d : Drain) => match d.op with
    | some _ => s.quiesceDone { d with ended := ended }
    | none => s.setPart p { s.part p with drains := (s.part p).drains.map fun (q : Drain) =>
        { q with drained := q.drained + d.drained, ended := q.ended + ended } }) s
  s.partQuiesced p

/-- Begins to drain an instance (R380 step 1): what is fetched and not admitted completes PARTITION_FENCED. -/
def State.fenceInst (s : State) (vf : Nat) (d : Drain) : State :=
  let i := s.inst vf
  let s := (s.setInst vf { i with drains := i.drains ++ [d] }).wr F.PTN_INST_state instFencing vf
  s.dropFetched (fun k => k != ctlKey && ringVf k == vf) Status.fencedOrMalformed 1

/-- The drain timeout of an entry (R380). -/
def State.drainNs (s : State) (p : Nat) (d : List Byte) : Nat :=
  let m := fieldLE d 16 2
  (if m = 0 then ((s.partDef p).map (·.drainMs)).getD 0 else m) * ms

/-- INST_QUIESCE: LIVE begins to drain, QUIESCED completes at once; FENCING under its partition's QUIESCE drains for this one too (R390). -/
def State.instQuiesce (s : State) (f : Fetched) (vf p : Nat) : State :=
  let st := s.rd F.PTN_INST_state vf
  if st = instQuiesced then (s.endEntry f Status.ok 0 (leBytes 8 0)).bump F.PTN_QUIESCE
  else if st ≠ instLive ∧ st ≠ instFencing then s.endEntry f Status.quiesceRequired 0
  else
    let d := s.drainNs p f.desc
    match s.newOp f .free .running 0 with
    | (id, s) => s.fenceInst vf ⟨s.now, d, 0, 0, some id⟩

/-- INST_QUIESCE. -/
def execInstQuiesce (key count : Nat) (s : State) : Host.Outcome State Fault Refusal :=
  onInst key count 0x62 s drainBody false anyHost State.instQuiesce

/-- The last admitted operation of a FENCING instance has ended (R380 step 3). -/
def State.drainEnd (s : State) (vf : Nat) : State :=
  if s.rd F.PTN_INST_state vf = instFencing ∧ s.admittedOf vf = [] then s.quiesced vf 0 (s.inst vf).drains else s

/-- DRAIN_END. -/
def execDrainEnd (vf : Nat) (s : State) : Host.Outcome State Fault Refusal :=
  actOn (decide (vf < 1024)) s fun s => s.drainEnd vf

/-! ### Context-level resets (R381) -/

/-- A host read whose access a reset has ended: it is nobody's, and counts as drained (R346). -/
def HostRead.drained (r : HostRead) : HostRead := { r with who := .inbound, tag := 0 }

/-- The host reads of packets of a connection are drained. -/
def State.drainConn (s : State) (c : Nat) : State :=
  { s with hpt := { s.hpt with reads := s.hpt.reads.map fun r => if waitsFor c r.who then r.drained else r } }

/-- Ends one operation at once with CONTEXT_RESET, in the engine that holds it (R142, R430, R381). -/
def State.resetOp (s : State) (id : Nat) : State :=
  let s := match s.coll? id, s.streamOf id with
    | some _, _ => s.endLocally id Status.contextReset 0
    | none, some n => s.endStream n Status.contextReset 0 0 none true
    | none, none => s
  let s := { s with hpt := { s.hpt with
    reads := s.hpt.reads.map fun (r : HostRead) => if r.who == Waiter.op id then r.drained else r
    posted := s.hpt.posted.filter fun w => w.op != some id } }
  s.killOp id Status.contextReset 0

/-- A context-level reset of operations (R381). -/
def State.ctxReset (s : State) (ids : List Nat) : State :=
  let vf := ((ids.head?.bind s.op?).map (·.vf)).getD 0
  (((ids.foldl State.resetOp s).bump F.RST_CTX_RESETS).logEv .RST .reset 0 vf).cmnRun

/-- The receive entries that the messages being received on an end have taken. -/
def Conn.matched (k : Conn) : List Nat := k.msgs.filterMap (·.recvOp) ++ k.roceRx.recvOp.toList

/-- A context-level reset at one connection (R226): nothing of it stays outstanding, a RECV that a dropped message had taken included, and its epoch
advances. A CLOSING end has nothing left to wait for and sends its CLOSE in the new epoch. -/
def State.resetConn (s : State) (c : Nat) : State :=
  match s.conn? c with
  | some k =>
    let s := k.matched.foldl (fun (s : State) id => (s.showRecv c id).killOp id Status.contextReset 0) (s.drainConn c)
    if k.roce then (s.dropHolds c).setConn c { k.clearSent with roceRx := { k.roceRx with active := false, recvOp := none, wrote := [], off := 0, behind := [] } }
    else ((s.advanceEpoch c).modConn c fun k => { k with closeSent := false }).tryClose c
  | none => s

/-- The connections of an instance, those of the commons included, which belong to it (R118, R226; log entry 63). -/
def State.instConns (s : State) (vf : Nat) : List Nat := (s.bxt.conns.filter fun q => q.2.vf == vf && q.2.svc != 1).map Prod.fst

/-- D passes with operations left (R380 steps 4 and 5). -/
def State.drainTimeout (s : State) (vf : Nat) : State :=
  if s.rd F.PTN_INST_state vf ≠ instFencing then s
  else
    let ids := s.admittedOf vf
    if ids = [] then s.drainEnd vf
    else
      let ds := (s.inst vf).drains
      let s := s.setInst vf { s.inst vf with drains := [] }
      let s := (s.instConns vf).foldl State.resetConn (s.ctxReset ids)
      ((s.bump F.PTN_CTX_RESET_OPS ids.length).bump F.PTN_DRAIN_TIMEOUT).quiesced vf ids.length ds

/-- DRAIN_TIMEOUT. -/
def execDrainTimeout (vf : Nat) (s : State) : Host.Outcome State Fault Refusal :=
  actOn (decide (vf < 1024)) s fun s => s.drainTimeout vf

/-! ### Resuming (R383) -/

/-- An instance goes back to LIVE; its rings fetch again from their next doorbell. -/
def State.goLive (s : State) (vf : Nat) : State :=
  let s := s.wr F.PTN_INST_state instLive vf
  { s with rings := Tbl.mapVals s.rings fun k r => if k != ctlKey && ringVf k == vf then { r with parked := true } else r }

/-- INST_RESUME: QUIESCED alone, in a partition that is not halted (R383). -/
def State.instResume (s : State) (f : Fetched) (vf p : Nat) : State :=
  if s.rd F.PTN_INST_state vf ≠ instQuiesced ∨ s.rd F.PTN_PART_halted p = 1 then s.endEntry f Status.quiesceRequired 0
  else (s.goLive vf).endEntry f Status.ok 0

/-- INST_RESUME. -/
def execInstResume (key count : Nat) (s : State) : Host.Outcome State Fault Refusal :=
  onInst key count 0x63 s noBody false anyHost State.instResume

/-! ### Reset and removal (R384, R385) -/

/-- Steps 1 to 5 of R384. -/
def State.clearInst (s : State) (vf : Nat) : State :=
  let keys := ((s.rings.map Prod.fst).filter fun k => k != ctlKey && ringVf k == vf)
  let s := keys.foldl State.ringStop s
  let s := ((s.ops.filter fun q => q.2.vf == vf).map Prod.fst).foldl (fun (s : State) id => s.killOp id Status.aborted 0) s
  let s := keys.foldl (fun (s : State) k => State.wr { s with rings := Tbl.erase s.rings k } F.WQE_DB_arm 0 k) s
  let s := ((s.bxt.conns.filter fun q => q.2.vf == vf && q.2.svc != 1).map Prod.fst).foldl (fun (s : State) c => s.freeConn c none) s
  let tags := (List.range 4096).filter fun t => t != 0 && s.rd F.XLT_TAG_state t != 0 && s.rd F.XLT_TAG_vf t == vf
  let s := tags.foldl (fun (s : State) t =>
    let s := s.lower F.XLT_PTN_CFG_inval_open (s.xlt.invals.filter fun i => i.tag == t && !i.destroy).length (s.rd F.XLT_TAG_partition t)
    let s := { s with xlt := { s.xlt with invals := s.xlt.invals.filter (fun i => i.tag != t), holds := s.xlt.holds.filter (fun h => h.tag != t) } }
    (s.freeTag t).checkPins t) s
  let s := s.setReg .HPT_APERTURE vf 0
  let s := (List.range 512).foldl (fun (s : State) j =>
    if s.rd F.HPT_RP_RID_valid j = 1 ∧ s.rd F.HPT_RP_RID_vf j = vf then s.wr F.HPT_RP_RID_valid 0 j else s) s
  let s := (s.cmn.groups.filter fun q => q.2.vf == vf).foldl (fun (s : State) (q : Nat × Group) =>
    let s := (s.cmn.colls.filter fun c => c.slot == q.1).foldl State.dropColl s
    s.dissolveGroup q.1) s
  s.startWipe (.inst vf) false false

/-- A reset or removal is carried out: the instance is RESETTING. -/
def State.beginReset (s : State) (vf : Nat) : State := ((s.wr F.PTN_INST_state instResetting vf).clearInst vf).cmnRun

/-- INST_RESET and INST_REMOVE: accepted in QUIESCED alone; held while a slice load of the partition runs (R54). -/
def State.instReset (s : State) (f : Fetched) (vf p : Nat) (remove : Bool) : State :=
  if s.rd F.PTN_INST_state vf ≠ instQuiesced then (s.endEntry f Status.quiesceRequired 0).bump F.PTN_RESET_REFUSED
  else match s.newOp f .free .running 0 with
  | (id, s) =>
    let s := s.setInst vf { s.inst vf with resetting := some (id, remove) }
    if s.lay.slicePart = some p then { s with lay := { s.lay with heldResets := s.lay.heldResets ++ [id] } } else ((s.beginReset vf).bump F.RST_CTX_RESETS).logEv .RST .reset 0 vf

/-- INST_RESET. -/
def execInstReset (key count : Nat) (s : State) : Host.Outcome State Fault Refusal :=
  onInst key count 0x64 s noBody false anyHost fun s f vf p => s.instReset f vf p false

/-- INST_REMOVE. -/
def execInstRemove (key count : Nat) (s : State) : Host.Outcome State Fault Refusal :=
  onInst key count 0x65 s noBody false anyHost fun s f vf p => s.instReset f vf p true

/-- Steps 6 to 8 of R384: the held store is empty, the attachment NEW, the bucket full, the instance LIVE, with a new token. -/
def State.renewInst (s : State) (vf : Nat) : Word × State :=
  let p := s.rd F.PTN_INST_partition vf
  let s := (s.setReg .HPT_INST_STATE vf 0).setReg .HPT_TOKEN vf 0
  let (t, s) := (s.setInst vf { s.inst vf with held := [], resetting := none, drains := [] }).newToken vf
  (t, (s.setBucket vf (s.bucketBurst vf p : Int)).wr F.PTN_INST_state instLive vf)

/-- An instance is ABSENT and holds nothing (R385). -/
def State.absentInst (s : State) (vf : Nat) : State :=
  let p := s.rd F.PTN_INST_partition vf
  let s := (s.setBucket vf (s.bucketBurst vf p : Int)).setAllow vf ⟨0, 0, 0, 0, 0, 0, 0, 0, 0, 0, 0⟩
  let s := ((s.setReg .HPT_INST_STATE vf 0).setReg .HPT_TOKEN vf 0).wr F.PTN_INST_state instAbsent vf
  State.showPart { s with insts := Tbl.erase s.insts vf } p

/-- The reset or removal of an instance finishes, once its key slots are wiped. -/
def State.instResetDone (s : State) (vf : Nat) : State :=
  if s.rd F.PTN_INST_state vf ≠ instResetting ∨ s.cph.wipes.any (fun w => w.what == .inst vf) then s
  else match (s.inst vf).resetting with
  | none => s
  | some (id, true) => (s.absentInst vf).endOp id Status.ok 0
  | some (id, false) =>
    let (t, s) := s.renewInst vf
    (s.modOp id fun o => { o with cqe := { o.cqe with result := leBytes 8 t.toNat } }).endOp id Status.ok 0

/-- INST_RESET_DONE. -/
def execInstResetDone (vf : Nat) (s : State) : Host.Outcome State Fault Refusal :=
  actOn (decide (vf < 1024)) s fun s => s.instResetDone vf

/-! ### Partition entries (R383, R386) -/

/-- The checks of a partition entry in the row order of R389. -/
def State.partCheck (s : State) (h : DescHdr) (fieldsOk : Bool) : Option Nat :=
  let p := h.target
  if h.tag ≠ 0 ∨ 64 ≤ p ∨ !fieldsOk then some Status.formatUnsupported
  else if !s.enabled p ∨ s.rd F.PTN_PART_state p = ptnDisabled then some Status.accessLocal
  else if s.partBusy p then some Status.refusedCapacity
  else none

/-- Carries out a partition entry once it has passed its checks. -/
def onPart (key count opcode : Nat) (s : State) (fieldsOk : List Byte → Bool) (k : State → Fetched → Nat → State) :
    Host.Outcome State Fault Refusal :=
  onEntry key count opcode s fun s f h => match s.partCheck h (fieldsOk f.desc) with
    | some st => s.endEntry f st 0
    | none => k s f h.target

/-- PTN_QUIESCE (R386): every LIVE instance fences at once; those that drain already drain for this one too. -/
def State.ptnQuiesce (s : State) (f : Fetched) (p : Nat) : State :=
  if s.rd F.PTN_PART_state p = ptnQuiesced then (s.endEntry f Status.ok 0 (leBytes 8 0)).bump F.PTN_QUIESCE
  else if s.rd F.PTN_PART_state p ≠ ptnLive then s.endEntry f Status.quiesceRequired 0
  else
    let d := s.drainNs p f.desc
    match s.newOp f .free .running 0 with
    | (id, s) =>
      let s := (s.setPart p { s.part p with drains := [⟨s.now, d, 0, 0, some id⟩] }).wr F.PTN_PART_state ptnFencing p
      let vs := (s.instsOf p).filter fun v => s.rd F.PTN_INST_state v == instLive || s.rd F.PTN_INST_state v == instFencing
      (vs.foldl (fun (s : State) v => s.fenceInst v ⟨s.now, d, 0, 0, none⟩) s).partQuiesced p

/-- PTN_QUIESCE. -/
def execPtnQuiesce (key count : Nat) (s : State) : Host.Outcome State Fault Refusal :=
  onPart key count 0x67 s drainBody State.ptnQuiesce

/-- PTN_RESUME (R383). -/
def State.ptnResume (s : State) (f : Fetched) (p : Nat) : State :=
  if s.rd F.PTN_PART_state p ≠ ptnQuiesced ∨ s.rd F.PTN_PART_halted p = 1 then s.endEntry f Status.quiesceRequired 0
  else
    let vs := (s.instsOf p).filter fun v => s.rd F.PTN_INST_state v == instQuiesced
    (vs.foldl State.goLive (s.wr F.PTN_PART_state ptnLive p)).endEntry f Status.ok 0

/-- PTN_RESUME. -/
def execPtnResume (key count : Nat) (s : State) : Host.Outcome State Fault Refusal :=
  onPart key count 0x68 s noBody State.ptnResume

/-- A partition reset is carried out (R386 step 1): the partition and its instances are RESETTING. -/
def State.beginPtnReset (s : State) (p : Nat) : State :=
  (s.instsOf p).foldl State.beginReset (((s.wr F.PTN_PART_state ptnResetting p).bump F.RST_PTN_RESETS).logEv .RST .reset 2 p)

/-- PTN_RESET: accepted in QUIESCED alone; held while a slice load of the partition runs (R54), which alone may run beside it. -/
def State.ptnReset (s : State) (f : Fetched) (p : Nat) : State :=
  if s.rd F.PTN_PART_state p ≠ ptnQuiesced then (s.endEntry f Status.quiesceRequired 0).bump F.PTN_RESET_REFUSED
  else match s.newOp f .free .running 0 with
  | (id, s) =>
    let s := s.setPart p { s.part p with resetting := some id }
    if s.lay.slicePart = some p then { s with lay := { s.lay with heldResets := s.lay.heldResets ++ [id] } } else s.beginPtnReset p

/-- PTN_RESET. A slice load of the partition holds it and does not refuse it (R54, R390). -/
def execPtnReset (key count : Nat) (s : State) : Host.Outcome State Fault Refusal :=
  onEntry key count 0x69 s fun s f h =>
    let t : State := if s.lay.slicePart = some h.target then { s with lay := { s.lay with slicePart := none } } else s
    match t.partCheck h (noBody f.desc) with
    | some st => s.endEntry f st 0
    | none => s.ptnReset f h.target

/-- Fills the meters of a partition (R386 step 4); its counters stay. -/
def State.fillMeters (s : State) (p : Nat) : State :=
  { s with meters := Tbl.mapVals s.meters fun m q => if m / 64 = p then { q with tc := q.cbs * meterUnit, tp := q.pbs * meterUnit, at_ := s.now } else q }

/-- A partition reset finishes (R386): halt cleared, queues unbound, meters full, pool free, instances and partition LIVE; each instance's token
waits in PTN_TOKEN_READ. -/
def State.ptnResetDone (s : State) (p : Nat) : State :=
  match (s.part p).resetting with
  | none => s
  | some id =>
    if s.rd F.PTN_PART_state p ≠ ptnResetting ∨ s.cph.wipes.any (fun w => (s.instsOf p).any fun v => w.what == .inst v) then s
    else
      let s := (s.instsOf p).foldl (fun (s : State) v =>
        let (t, s) := s.renewInst v
        s.setInst v { s.inst v with ptnToken := t }) s
      let s := (s.setReg .WQE_PTN_HALT p 0).wr F.PTN_PART_halted 0 p
      let s : State := State.wr { s with xlt := { s.xlt with queues := Tbl.erase s.xlt.queues p } } F.XLT_PTN_CFG_q_bound 0 p
      let s := (((s.fillMeters p).wr F.TAL_PTN_POOL_used 0 p).wr F.TAL_PTN_POOL_borrowed 0 p).showPool
      let s := (s.setPart p { s.part p with resetting := none }).wr F.PTN_PART_state ptnLive p
      s.endOp id Status.ok 0

/-- The resets that waited for a slice load are carried out (R54). -/
def State.runHeldResets (s : State) : State :=
  let ids := s.lay.heldResets
  let s := { s with lay := { s.lay with heldResets := [] } }
  ids.foldl (fun (s : State) id =>
    match (s.insts.find? fun q => q.2.resetting.map Prod.fst == some id), (s.parts.find? fun q => q.2.resetting == some id) with
    | some q, _ => ((s.beginReset q.1).bump F.RST_CTX_RESETS).logEv .RST .reset 0 q.1
    | none, some q => s.beginPtnReset q.1
    | none, none => s) s

end Sys2Proof.Machine
end

