-- ==== Sys2Proof/Machine/KlnBase.lean ====
section
/-!
DEFINITION. The two ends of the Kilmet link between the dies (R19-R28): flits, sequence numbers, replay, credits, what a register access sends, and
how a module leaves service. Both ends are in the device. Direction 0 runs from gate to hearth, 1 from hearth to gate.
-/

namespace Sys2Proof.Machine

/-! ### Flits (R20, R21) -/

/-- The header of a flit as a number: byte 0 holds bits 7 to 0. -/
def flitHdr (f : List Byte) : Nat := ofLE (f.take 16)

/-- Header fields (R21). -/
def flitKind (f : List Byte) : Nat := bitsOf (flitHdr f) 125 3
def flitChan (f : List Byte) : Nat := bitsOf (flitHdr f) 122 3
def flitSeq (f : List Byte) : Nat := bitsOf (flitHdr f) 110 12
def flitAck (f : List Byte) : Nat := bitsOf (flitHdr f) 98 12
def flitAckValid (f : List Byte) : Bool := bitAt (flitHdr f) 97
def flitTag (f : List Byte) : Nat := bitsOf (flitHdr f) 80 17
def flitPart (f : List Byte) : Nat := bitsOf (flitHdr f) 74 6
def flitSub (f : List Byte) : Nat := bitsOf (flitHdr f) 64 10
def flitLen (f : List Byte) : Nat := bitsOf (flitHdr f) 55 9
def flitBlk (f : List Byte) : Nat := bitsOf (flitHdr f) 40 15
def flitAux (f : List Byte) : Nat := bitsOf (flitHdr f) 0 40

/-- A flit of 288 bytes whose flit CRC-64 is right (R20). -/
def flitGood (f : List Byte) : Bool := f.length == 288 && fieldLE f 280 8 == crc64 (f.take 280)

/-- Whether a data flit's block CRC-32C is that of its valid bytes (R20, R360). -/
def flitBlockGood (f : List Byte) : Bool := fieldLE f 272 4 == crc32c (slice f 16 (flitLen f))

/-- The control types in the order R22 names them, DESIGN CHOICE (log entry 40): 0 ACK, 1 NAK, 2 IDLE, 3 FENCE, 4 UNFENCE, 5 RETRAIN. -/
abbrev ctlNak : Nat := 1
abbrev ctlFence : Nat := 3
abbrev ctlUnfence : Nat := 4
abbrev ctlRetrain : Nat := 5

/-- A flit whose encoding is neither reserved nor unknown (R21, R23): a completion's `sub` is a status code of R257, a control flit's a control
type. A completion of more than 64 bytes and a credit flit with a payload are none of R22's kinds (log entry 40). The spec lists no request opcodes:
whether a request's `sub` is one of them the command says. -/
def flitKnown (f : List Byte) (known : Bool) : Bool :=
  decide (flitKind f < 5) && decide (flitChan f < 7) && decide (flitLen f ≤ 256) && (match flitKind f with
    | 0 => known
    | 2 => decide (flitSub f < 32) && decide (flitLen f ≤ 64)
    | 3 => flitLen f == 0
    | 4 => decide (flitSub f < 6)
    | _ => true)

/-- What a flit that the device builds says. -/
structure FlitBody where
  kind : Nat
  chan : Nat
  tag : Nat
  part : Nat
  sub : Nat
  blk : Nat
  aux : Nat
  payload : List Byte

/-- A flit (R20-R22), with the acknowledgement it carries. -/
def FlitBody.bytes (b : FlitBody) (fseq ack : Nat) : List Byte :=
  let n := b.payload.length
  let h := leBytes 16 (b.aux + b.blk * 2 ^ 40 + n * 2 ^ 55 + b.sub * 2 ^ 64 + b.part * 2 ^ 74 + b.tag * 2 ^ 80 + 2 ^ 97 + ack * 2 ^ 98
    + fseq * 2 ^ 110 + b.chan * 2 ^ 122 + b.kind * 2 ^ 125)
  let body := h ++ padTo 256 b.payload ++ leBytes 4 (if b.kind = 1 then crc32c b.payload else 0) ++ leBytes 4 0
  body ++ leBytes 8 (crc64 body)

/-- A flit sent again on another module, under another `fseq`: the header's field and the CRC are made anew, and the acknowledgement, which was of the
first module's flits, is not meaningful any more (R21, R27). -/
def reflit (f : List Byte) (n : Nat) : List Byte :=
  let h := leBytes 16 (putBits (putBits (flitHdr f) 97 13 0) 110 12 n) ++ slice f 16 264
  h ++ leBytes 8 (crc64 h)

/-! ### The two ends (R23-R25) -/

/-- A direction of a module, and changing it. -/
def klnDir0 : KlnDir := ⟨0, none, [], 0, 0, 0, false, 0⟩
def State.klnDir (s : State) (m d : Nat) : KlnDir := Tbl.getD s.kln.dirs (m * 2 + d) klnDir0
def State.setKln (s : State) (m d : Nat) (k : KlnDir) : State := { s with kln := { s.kln with dirs := Tbl.set s.kln.dirs (m * 2 + d) k } }

/-- A module in service that is not retraining. -/
def State.klnRuns (s : State) (m : Nat) : Bool := s.rd F.KLN_MOD_state m == 0

/-- Flits of retired modules that found no room go into the replay buffers that have room now (R24, R27); those are sent from there in order. -/
def State.klnDrain (s : State) : State :=
  s.kln.held.foldl (fun (s : State) q =>
    match (List.range 8).find? fun m => s.rd F.KLN_MOD_state m != 2 && decide ((s.klnDir m q.1).unacked.length < 512) with
    | none => { s with kln := { s.kln with held := s.kln.held ++ [q] } }
    | some m =>
      let k := s.klnDir m q.1
      s.setKln m q.1 { k with
        txSeq := (k.txSeq + 1) % 4096
        unacked := k.unacked ++ [(k.txSeq, reflit q.2 k.txSeq)]
        replay := some (k.replay.getD k.txSeq) })
    { s with kln := { s.kln with held := [] } }

/-- Everything up to an `fseq` is acknowledged: it leaves the replay buffer, a replay goes on with what is left, and flits that wait for room find
it (R24). -/
def State.klnAcked (s : State) (m d n : Nat) : State :=
  let k := s.klnDir m d
  let rest := k.unacked.filter fun q => serialOlder 12 n q.1
  if rest.length = k.unacked.length then s
  else
    let replay := k.replay.bind fun f => if serialOlder 12 n f then some f else rest.head?.map Prod.fst
    (s.setKln m d { k with unacked := rest, times := 0, replay := replay }).klnDrain

/-- The receiver acknowledges what it has taken in order (R24). -/
def State.klnAckNow (s : State) (m d : Nat) : State :=
  let k := s.klnDir m d
  (s.setKln m d { k with toAck := 0 }).klnAcked m d ((k.rxSeq + 4095) % 4096)

/-- Starts the retraining of a module (R27). -/
def State.klnRetrain (s : State) (m : Nat) : State :=
  if s.klnRuns m then ((s.wr F.KLN_MOD_state 1 m).bump F.KLN_MOD_retrains 1 m).logEv .KLN .stateChange 1 m m else s

/-- The sender replays every flit from an `fseq` on, in order and before any new one (R23, R24); the eighth replay of one flit in succession
retrains the module (R27). -/
def State.klnReplay (s : State) (m d n : Nat) : State :=
  let k := s.klnDir m d
  let l := k.unacked.filter fun q => !serialOlder 12 q.1 n
  match l with
  | [] => s.setKln m d { k with replay := none }
  | (f, _) :: _ =>
    let times := if k.replayed = f then k.times + 1 else 1
    let s := (s.setKln m d { k with replay := some f, replayed := f, times := if times = 8 then 0 else times }).bump F.KLN_MOD_replays l.length m
    if times = 8 then s.klnRetrain m else s

/-- The receiver discards a flit: counted where its CRC or its encoding is at fault, and a NAK for the `fseq` expected, which makes the sender
replay (R21, R23). -/
def State.klnDiscard (s : State) (m d : Nat) (bad : Bool) : State :=
  let k := s.klnDir m d
  let s := if bad then s.bump (if d = 0 then F.KLN_MOD_crc_g2h else F.KLN_MOD_crc_h2g) 1 m else s
  (s.setKln m d { k with discards := true }).klnReplay m d k.rxSeq

/-- The credit left on a channel of a direction (R25). -/
def State.klnCredit (s : State) (d ch : Nat) : Nat := cdiff (Tbl.getD s.kln.granted (d * 8 + ch) 0) (Tbl.getD s.kln.sent (d * 8 + ch) 0)

/-- Whether a data flit of an operation awaits its acknowledgement on any module of a direction (R26). -/
def State.klnDataOut (s : State) (d tag : Nat) : Bool :=
  ((List.range 8).any fun m => (s.klnDir m d).unacked.any fun q => flitKind q.2 == 1 && flitTag q.2 == tag)
    || s.kln.held.any fun q => q.1 == d && flitKind q.2 == 1 && flitTag q.2 == tag

/-- The number of a block in transfer across the link: direction, operation tag, index of the block. -/
def flitBlock (d : Nat) (f : List Byte) : Nat := (d * 131072 + flitTag f) * 32768 + flitBlk f

/-- The sending end of a flit that crosses a module. While a replay runs, the flit whose turn it is goes, as it stands in the buffer. Otherwise a new
one goes, and enters the buffer, where that holds fewer than 512, where a flit that carries traffic has credit, and where a completion has no data
flit of its operation left to acknowledge (R24, R25, R26). The source keeps a data flit's block until it is accepted (R361). None where nothing is
sent. -/
def State.klnSend (s : State) (m d : Nat) (f : List Byte) : Option State :=
  let k := s.klnDir m d
  let seq := flitSeq f
  match k.replay with
  | some n =>
    if seq = n ∧ k.unacked.any (fun q => q.1 == n && slice q.2 16 256 == slice f 16 256) then
      some (s.setKln m d { k with replay := (k.unacked.find? fun q => serialOlder 12 n q.1).map Prod.fst })
    else none
  | none =>
    let traffic := decide (flitKind f < 3)
    let key := d * 8 + flitChan f
    if seq ≠ k.txSeq ∨ 512 ≤ k.unacked.length ∨ (traffic ∧ s.klnCredit d (flitChan f) = 0) ∨ (flitKind f = 2 ∧ flitChan f ≠ 4 ∧ s.klnDataOut d (flitTag f)) then none
    else
      let s := s.setKln m d { k with txSeq := (k.txSeq + 1) % 4096, unacked := k.unacked ++ [(k.txSeq, f)] }
      let s : State := if flitKind f = 1 then { s with tier := { s.tier with kept := Tbl.set s.tier.kept (flitBlock d f) f } } else s
      some (if traffic then { s with kln := { s.kln with sent := Tbl.set s.kln.sent key ((Tbl.getD s.kln.sent key 0 + 1) % 2 ^ 32) } } else s)

/-- Completions that the link owes for requests of fenced partitions: each goes into a replay buffer once its channel has credit, which it uses (R25). -/
def State.klnOwed (s : State) : State :=
  let l := s.kln.owed
  (l.foldl (fun (s : State) q =>
    let key := q.1 * 8 + flitChan q.2
    if s.klnCredit q.1 (flitChan q.2) = 0 then { s with kln := { s.kln with owed := s.kln.owed ++ [q] } }
    else { s with kln := { s.kln with
      held := s.kln.held ++ [q]
      sent := Tbl.set s.kln.sent key ((Tbl.getD s.kln.sent key 0 + 1) % 2 ^ 32) } }) { s with kln := { s.kln with owed := [] } }).klnDrain

/-- A cumulative count of credits; one that is not newer grants nothing (R25). -/
def State.klnGrant (s : State) (d ch count : Nat) : State :=
  let key := d * 8 + ch
  if serialOlder 32 (Tbl.getD s.kln.granted key 0) count then
    State.klnOwed { s with kln := { s.kln with granted := Tbl.set s.kln.granted key (count % 2 ^ 32) } }
  else s

/-- A control flit (R22, R23, R27): NAK names the `fseq` expected in `aux`; FENCE and UNFENCE name their partition in the header's field. -/
def State.klnControl (s : State) (m d : Nat) (f : List Byte) : State :=
  let sub := flitSub f
  let fence := d * 64 + flitPart f
  if sub = ctlNak then s.klnReplay m (1 - d) (flitAux f % 4096)
  else if sub = ctlFence then { s with kln := { s.kln with fenced := if s.kln.fenced.contains fence then s.kln.fenced else s.kln.fenced ++ [fence] } }
  else if sub = ctlUnfence then { s with kln := { s.kln with fenced := s.kln.fenced.filter (· != fence) } }
  else if sub = ctlRetrain then s.klnRetrain m
  else s

/-- Whether a FENCE control flit holds a flit's partition fenced at the receiving end; register and management flits are no partition's. A partition
that PTN_QUIESCE fences is fenced by the units its flits go to, each as R382 says of what arrives there, which a flit's header does not tell (log
entry 40). -/
def State.klnFenced (s : State) (d : Nat) (f : List Byte) : Bool :=
  s.kln.fenced.contains (d * 64 + flitPart f) && flitChan f != 4 && flitChan f != 6

/-- What becomes of a flit received in order (R21, R22): credit and control flits are the link's own; a request for a fenced partition is answered by a
completion of ABORTED, other traffic of it is dropped and counted, and a block so dropped is kept no longer (log entry 40); a block that fails its
check is discarded and asked for again (R361, R362); the rest is passed to its unit. -/
def State.klnTake (s : State) (m d : Nat) (f : List Byte) : State :=
  let kind := flitKind f
  if kind = 3 then s.klnGrant (1 - d) (bitsOf (flitAux f) 32 3) (bitsOf (flitAux f) 0 32)
  else if kind = 4 then s.klnControl m d f
  else if s.klnFenced d f then
    (if kind = 0 then
      let b : FlitBody := ⟨2, flitChan f, flitTag f, flitPart f, Status.aborted, 0, 0, []⟩
      ({ s with kln := { s.kln with owed := s.kln.owed ++ [(1 - d, b.bytes 0 0)] } } : State).klnOwed
    else
      let s := s.bump F.PTN_FENCE_DROP
      if kind = 1 then { s with tier := { s.tier with kept := Tbl.erase s.tier.kept (flitBlock d f) } } else s)
  else if kind = 1 then
    (if flitBlockGood f then State.emit { s with tier := { s.tier with kept := Tbl.erase s.tier.kept (flitBlock d f) } } (.flit d f)
    else { s with tier := { s.tier with resends := Tbl.set s.tier.resends (flitBlock d f) 0 } })
  else s.emit (.flit d f)

/-- The receiving end (R23, R24): a flit in order is taken, and its acknowledgement of the other direction. -/
def State.klnReceive (s : State) (m d : Nat) (f : List Byte) (known : Bool) : State :=
  let (hit, s) := s.inject 0x0D01 m 64 0
  let k := s.klnDir m d
  if hit ∨ !flitGood f ∨ !flitKnown f known then s.klnDiscard m d true
  else if flitSeq f ≠ k.rxSeq then s.klnDiscard m d false
  else
    let s := s.setKln m d { k with rxSeq := (k.rxSeq + 1) % 4096, discards := false, toAck := k.toAck + 1 }
    let s := s.klnTake m d f
    let s := if flitAckValid f then s.klnAcked m (1 - d) (flitAck f) else s
    if 64 ≤ k.toAck + 1 then s.klnAckNow m d else s

/-! ### Register accesses (R19) -/

/-- Whether a block stands on the gate die (R18, R511). -/
def Blk.onGate : Blk → Bool
  | .TEL | .PRT | .HOP | .BXT | .CTX | .ADM | .POL | .KLN => true
  | _ => false

/-- The module that a register access passes over: the first that runs, replays nothing, and has room and credit both ways. -/
def State.klnFree (s : State) : Option Nat :=
  (List.range 8).find? fun m => s.klnRuns m && (List.range 2).all fun d =>
    (s.klnDir m d).replay.isNone && decide ((s.klnDir m d).unacked.length < 512) && decide (s.klnCredit d 4 ≠ 0)

/-- A flit goes over until it is taken: one whose CRC fails is replayed, unless the module retrains for it. Whether it has been taken. -/
def State.klnUntil (s : State) (m d : Nat) (f : List Byte) : Nat → Bool × State
  | 0 => (false, s)
  | n + 1 =>
    let want := (s.klnDir m d).rxSeq
    if !s.klnRuns m then (false, s)
    else match s.klnSend m d f with
    | none => (false, s)
    | some t =>
      let t := t.klnReceive m d f true
      if (t.klnDir m d).rxSeq = want then t.klnUntil m d f n else (true, t)

/-- A flit that the device builds passes over a module, with the acknowledgement of the other direction. -/
def State.klnOver (s : State) (m d : Nat) (b : FlitBody) : Bool × State :=
  s.klnUntil m d (b.bytes (s.klnDir m d).txSeq (((s.klnDir m (1 - d)).rxSeq + 4095) % 4096)) 8

/-- The credit flit that grants a channel of a direction one flit more than before: it goes the other way (R22, R25). -/
def State.creditFlit (s : State) (d ch : Nat) : FlitBody :=
  ⟨3, ch, 0, 0, 0, 0, (Tbl.getD s.kln.granted (d * 8 + ch) 0 + 1) % 2 ^ 32 + ch * 2 ^ 32, []⟩

/-- A flit of a register access passes over a module; its unit takes it at once, and a credit flit grants its place anew. Whether it has arrived. -/
def State.klnPass (s : State) (m d : Nat) (b : FlitBody) : Bool × State :=
  match s.klnOver m d b with
  | (false, s) => (false, s)
  | (true, s) => (true, (s.klnOver m (1 - d) (s.creditFlit d 4)).2)

/-- The request flit of a register access (log entry 40): its descriptor holds the offset, the length and whether it writes; the data of a write
follows inline. -/
def accessRequest (off n : Nat) (data : Option (List Byte)) : FlitBody :=
  ⟨0, 4, 0, 0, 0, 0, 0, padTo 64 (leBytes 4 off ++ leBytes 4 n ++ leBytes 1 (b2n data.isSome)) ++ data.getD []⟩

/-- Its completion flit, with what a read returns. -/
def accessAnswer (data : List Byte) : FlitBody := ⟨2, 4, 0, 0, 0, 0, 0, data⟩

/-! ### Lanes and modules that leave service (R27, R28, R31) -/

/-- Shows how many lanes have been repaired in TEL_SPARE (R31, R480; log entry 10). -/
def State.klnLanes (s : State) : State :=
  let n := (List.range 8).foldl (fun n m => max n (max (s.rd F.KLN_MOD_rep_g2h m) (s.rd F.KLN_MOD_rep_h2g m))) 0
  if s.rd F.TEL_SPARE_retired 2 = n then s else s.spareCounts 2 64 (4 - n) n

/-- The records of the lanes a retraining repairs (R33): each failed lane's retirement and the redundant lane mapped in. -/
def State.klnRepairs (s : State) (m n : Nat) : State :=
  (List.range n).foldl (fun (s : State) _ => (s.logEv .KLN .retired 2 m m).logEv .KLN .spareMapped 2 m m) s

/-- The modules in service. -/
def State.klnModules (s : State) : List Nat := (List.range 8).filter fun m => s.rd F.KLN_MOD_state m != 2

/-- A module leaves service (R27, R28): the flits that its receiving end has not taken are issued again on the others, as their buffers have room. -/
def State.klnLeave (s : State) (m : Nat) : State :=
  let s := s.wr F.KLN_MOD_state 2 m
  let left := s.klnModules
  let s := (List.range 2).foldl (fun (s : State) d =>
    let k := s.klnDir m d
    let l := (k.unacked.filter fun q => !serialOlder 12 q.1 k.rxSeq).map fun q => (d, q.2)
    State.klnDrain { (s.setKln m d klnDir0) with kln := { (s.setKln m d klnDir0).kln with held := s.kln.held ++ l } }) s
  let s := (s.logEv .KLN .stateChange 2 m m).logEv .KLN .retired 2 m m
  let s := (s.wr F.TEL_KLN_modules left.length).wr F.TEL_KLN_retired_mask (setBit (s.rd F.TEL_KLN_retired_mask) m)
  s.logEv .TEL .stateChange left.length 11

/-- A lane of a direction of a module is retired by an override (R31, R47): a redundant lane serves in its place, or, with none left, the module
leaves service. -/
def State.klnLaneOut (s : State) (m d : Nat) : State :=
  let f := if d = 0 then F.KLN_MOD_rep_g2h else F.KLN_MOD_rep_h2g
  if s.rd F.KLN_MOD_state m = 2 then s
  else if s.rd f m < 4 then ((s.wr f (s.rd f m + 1) m).klnRepairs m 1).klnLanes
  else (s.logEv .KLN .retired 2 m m).klnLeave m

end Sys2Proof.Machine
end

