-- ==== Sys2Proof/Machine/Logbook.lean ====
section
/-!
DEFINITION. The logbook's pages and commands (R473-R477), telemetry snapshots (R479), the injection network's commands (R485, R486), of
20_logbook_counters_injection.md. Staging and merging stand in Ops.
-/

namespace Sys2Proof.Machine

/-! ### Pages (R473, R474) -/

/-- The records that can be read, by slot: programmed ones, and staged ones at the slots they count as (R476). -/
def LogSt.visible (l : LogSt) : Tbl LogRec :=
  let f : Tbl LogRec := l.flash.filterMap fun q => match q.2 with
    | .record r => some (q.1, r)
    | _ => none
  l.staged.zipIdx.foldl (fun (t : Tbl LogRec) (q : LogRec × Nat) => Tbl.set t (l.stagedSlot q.2) q.1) f

/-- A table's entries in ring order from a slot on. -/
def ringFrom {α : Type} (c : Nat) (t : Tbl α) : Tbl α :=
  (t.filter fun q => decide (c ≤ q.1)) ++ t.filter fun q => decide (q.1 < c)

/-- Shows the newest and the oldest visible record (R488). -/
def State.showLog (s : State) : State :=
  let v := s.log.visible
  let s := if s.log.staged.isEmpty then s else s.wr F.LOG_STATUS_newest (s.log.stagedSlot (s.log.staged.length - 1))
  match ringFrom (s.rd F.LOG_STATUS_newest + 1) v with
  | q :: _ => s.wr F.LOG_STATUS_oldest q.1
  | [] => s.wr F.LOG_STATUS_oldest s.log.clearPoint

/-- Erases the block after the one a slot lies in (R473). -/
def LogSt.eraseAhead (l : LogSt) (slot : Nat) : LogSt :=
  let b := slotBlock (nextGood l.bad 959 ((slot / 2048 + 1) * 2048 % logSlots))
  { l with flash := l.flash.filter fun q => slotBlock q.1 != b }

/-- A page has been programmed: its records stand in its slots, a short page padded (R473). -/
def State.pageDone (s : State) (p : PageProgram) : State :=
  let l := s.log
  let slots : List FlashSlot := p.recs.map FlashSlot.record ++ List.replicate (8 - p.recs.length) FlashSlot.pad
  let f := slots.zipIdx.foldl (fun (t : Tbl FlashSlot) (q : FlashSlot × Nat) => Tbl.set t (p.slot + q.2) q.1) l.flash
  let l := { l with flash := f, staged := l.staged.drop p.recs.length, page := none, nextSlot := nextGood l.bad 959 ((p.slot + 8) % logSlots) }
  let last := p.slot + p.recs.length - 1
  (((({ s with log := l.eraseAhead p.slot }).wr F.LOG_STATUS_newest last).showLog).pageIfFull)

/-- A page program or its verify-read has failed: it is written again in the next page; a block that fails three times is bad; with fewer than
64 good blocks left programming stops (R473). -/
def State.pageFailed (s : State) (p : PageProgram) : State :=
  let l := s.log
  let b := slotBlock p.slot
  let n := Tbl.getD l.fails b 0 + 1
  let bad := if n = 3 then l.bad ++ [b] else l.bad
  let f := (List.range 8).foldl (fun (t : Tbl FlashSlot) (k : Nat) => Tbl.set t (p.slot + k) FlashSlot.torn) l.flash
  let next := nextGood bad 959 ((p.slot + 8) % logSlots)
  let l := { l with flash := f, fails := Tbl.set l.fails b n, bad := bad, nextSlot := next, page := some { p with slot := next } }
  let s : State := State.bump { s with log := l.eraseAhead next } F.LOG_FLASH_ERR
  if 959 < bad.length + 64 then
    let s : State := State.wr { s with log := { s.log with page := none } } F.LOG_STATUS_stopped 1
    s.showLog.logRec (s.mkRec .LOG .stateChange 1 (959 - bad.length) 0 4 false)
  else s.showLog

/-- LOG_PAGE_DONE: a page program ends, well or not; the flash's injection point is examined (R473, R484). -/
def execLogPageDone (ok : Bool) (s : State) : Host.Outcome State Fault Refusal :=
  actOn0 s fun s => match s.log.page with
    | none => s
    | some p =>
      let (hit, s) := s.inject 0x0401 0 64 Status.ok
      if ok && !hit then s.pageDone p else s.pageFailed p

/-- LOG_FLUSH_TIMER: the oldest waiting record has waited `flush_ms` (R473). -/
def execLogFlushTimer (s : State) : Host.Outcome State Fault Refusal := actOn0 s State.startPage

/-- Closes the open record (R474). -/
def State.closeRecord (s : State) : State := ({ s with log := { s.log with isOpen := false } }).pageIfFull

/-- LOG_RECORD_CLOSE: a second has passed since the open record's tick (R474). -/
def execLogRecordClose (s : State) : Host.Outcome State Fault Refusal := actOn0 s State.closeRecord

/-- Programs everything staged before power may go (R475): pages of eight, the last one padded, as far as 50 ms allow, which is all of them. -/
def State.drainLog (s : State) : State :=
  let s := { s with log := { s.log with isOpen := false } }
  pages 257 s
where
  pages : Nat → State → State
    | 0, s => s
    | n + 1, s => match s.startPage.log.page with
      | some p => pages n (s.startPage.pageDone p)
      | none => s

/-! ### Commands (R476, R477) -/

/-- LOG_CMD READ: starts; a command while another runs is refused (log entry 32). -/
def State.logRead (s : State) : State :=
  if s.log.run.isSome then s.refuseWrite .LOG 0x14
  else State.wr { s with log := { s.log with run := some (.read (s.rd F.LOG_CURSOR_slot) (s.rd F.LOG_CURSOR_area == 1)) } } F.LOG_READ_STATUS_busy 1

/-- LOG_READ. -/
def execLogRead (s : State) : Host.Outcome State Fault Refusal := act s (asManager true State.logRead)

/-- The records a READ from a cursor fills, with the number of slots examined (R476): up to 128, up to the newest record. -/
def LogSt.readFrom (l : LogSt) (c newest : Nat) : List LogRec × Nat :=
  let dist (slot : Nat) : Nat := (slot + logSlots - c) % logSlots
  let v := ((ringFrom c l.visible).filter fun q => decide (dist q.1 ≤ dist newest)).take 128
  let seen := if v.length = 128 then (match v.getLast? with | some q => dist q.1 | none => 0) else dist newest
  (v.map Prod.snd, seen + 1)

/-- LOG_READ_DONE: the window and LOG_READ_STATUS show the outcome (R476). -/
def State.logReadDone (s : State) : State :=
  match s.log.run with
  | none => s
  | some (.read c sum) =>
    let s : State := State.wr { s with log := { s.log with run := none } } F.LOG_READ_STATUS_busy 0
    if sum then { s with log := { s.log with window := padTo 4096 (Tbl.getD s.log.summaries c []) } }
    else
      let (rs, n) := if s.log.bare then (([] : List LogRec), 0) else s.log.readFrom c (s.rd F.LOG_STATUS_newest)
      let s := { s with log := { s.log with window := padTo 4096 (rs.flatMap LogRec.bytes) } }
      let skipped := n - rs.length
      (((s.bump F.LOG_TORN skipped).wr F.LOG_READ_STATUS_count rs.length).wr F.LOG_READ_STATUS_skipped (min 2047 skipped)).wr
        F.LOG_READ_STATUS_next ((c + n) % logSlots)

/-- LOG_READ_DONE. -/
def execLogReadDone (s : State) : Host.Outcome State Fault Refusal := act s State.logReadDone

/-- LOG_CMD CLEAR (R477): everything before is hidden for good, and the staged records dropped; COMMAND_DONE is the first visible record. -/
def State.logClear (s : State) (sum : Bool) : State :=
  if s.log.run.isSome then s.refuseWrite .LOG 0x14
  else
    let l := s.log
    let next := match l.page with
      | some p => nextGood l.bad 959 ((p.slot + 8) % logSlots)
      | none => l.nextSlot
    let l := { l with staged := [], isOpen := false, page := none, nextSlot := next, flash := [], clearPoint := next }
    let l := if sum then { l with summaries := [], summaryClear := l.nextSummary } else l
    let s := { s with log := l }
    s.stageRec (s.mkRec .LOG .commandDone 2 0 0 0 false)

/-- LOG_CLEAR. -/
def execLogClear (summaries : Bool) (s : State) : Host.Outcome State Fault Refusal := act s (asManager true fun s => s.logClear summaries)

/-! ### Telemetry (R479) -/

/-- Copies of a family of counters, copy by copy. -/
def copies (n : Nat) (l : List Reg) : List (Reg × Nat) := (List.range n).flatMap fun k => l.map fun r => (r, k)

/-- Every 64-bit counter of the management space, in the order of the blocks of R470 and of their offsets (R479). -/
def snapRegs : List (Reg × Nat) :=
  copies 1 [.PWR_TICK] ++
  copies 16 [.PWR_EVT] ++
  copies 1 [.PWR_KINDLE, .PWR_HELD_PRIV, .PWR_THROTTLE_US, .PWR_XTAL_FAIL, .PWR_MERGED] ++
  copies 1 [.RST_CTX_RESETS, .RST_ENGINE_RESETS, .RST_PTN_RESETS, .RST_CHIP_RESETS, .RST_HANGS, .RST_GUILTY, .RST_NOT_REPLAYED,
    .RST_RETIRED_UNITS, .RST_DUMP_NORESP] ++
  copies 1 [.LOG_WRITTEN, .LOG_REPEATS, .LOG_DROPPED, .LOG_TORN, .LOG_FLASH_ERR] ++
  copies 1 [.INJ_FIRED] ++
  copies 64 [.PRT_RX_FRAMES, .PRT_RX_BYTES, .PRT_TX_FRAMES, .PRT_TX_BYTES, .PRT_RUNT, .PRT_OVERSIZE, .PRT_FCS_ERR, .PRT_FEC_CORR,
    .PRT_FEC_UNCORR, .PRT_FEC_DISCARD, .PRT_ADDR_DROP, .PRT_PFC_RX, .PRT_PFC_TX, .PRT_PFC_IGNORED, .PRT_PFC_WD, .PRT_PAUSE_DROP] ++
  copies 1 [.HOP_FWD, .HOP_DROP_NOROUTE, .HOP_DROP_HOPS, .HOP_DROP_AGE, .HOP_DROP_FULL, .HOP_DROP_DOWN, .HOP_DROP_OVERSIZE,
    .HOP_STOMP, .HOP_REPLAY, .HOP_NAK_SENT, .HOP_SHIM_BAD, .HOP_LINK_FAIL, .HOP_ECN_MARK, .WX_REPORT_SENT, .WX_IGNORED, .WX_EXPIRED]
    ++
  copies 1 [.BXT_RETX, .BXT_DUP, .BXT_STALE, .BXT_EPOCH_DROP, .BXT_INVALID, .BXT_DECRYPT_FAIL, .BXT_HELD, .BXT_HOLD_EXPIRED,
    .BXT_NR_SENT, .BXT_NR_RCVD, .BXT_PEER_LOST, .BXT_CE_RCVD, .BXT_REFUSED] ++
  copies 1 [.CTX_HIT, .CTX_MISS, .CTX_EVICT, .CTX_FETCH_NR] ++
  copies 1 [.ADM_ADMIT, .ADM_DELAYED, .ADM_REF_CAPACITY, .ADM_REF_RATE, .ADM_REF_POOL, .ADM_REF_GRANT, .ADM_MISSED,
    .ADM_GRANT_MISSED, .ADM_GRANT_SENT, .ADM_GRANT_RCVD] ++
  copies 16 [.ADM_MISS_CAUSE] ++
  copies 1 [.POL_RED, .POL_UNCLASSIFIED, .POL_CLS_DROP, .POL_MIRROR, .POL_STEWARD] ++
  copies 8 [.KLN_MOD_w08, .KLN_MOD_w10, .KLN_MOD_w18, .KLN_MOD_w20] ++
  copies 16 [.HPT_FENCE, .HPT_WR_DROP, .HPT_RD_LOST, .HPT_FLR, .HPT_UR, .HPT_CPL_TIMEOUT, .HPT_RETRAIN, .HPT_INBOUND_FAULT,
    .HPT_ATTACH_REFUSED] ++
  copies 1 [.WQE_MALFORMED, .WQE_REFETCH, .WQE_PUSH_DROP, .WQE_DB_REFUSED, .WQE_EVENT_DROP, .WQE_FLUSH, .WQE_HALTED] ++
  copies 1 [.XLT_LOOKUP, .XLT_HIT, .XLT_WALK, .XLT_FAULT, .XLT_VIOLATION, .XLT_FQ_OVERFLOW, .XLT_EQ_OVERFLOW, .XLT_HOLD_EXPIRED,
    .XLT_INVAL, .XLT_PIN_LOST, .XLT_RESOLVE] ++
  copies 1 [.DMV_HOST_RD_BYTES, .DMV_HOST_WR_BYTES, .DMV_CHECK_FAIL, .DMV_REPACK] ++
  copies 1 [.LRD_CE, .LRD_UE, .LRD_POISON_READ, .LRD_RW_FORWARD, .LRD_BLK_RESEND, .LRD_BLK_ESCALATE, .LRD_SCRUB_PASS] ++
  copies 1 [.HBM_CE, .HBM_UE, .HBM_REREAD_OK, .HBM_POISON_READ, .HBM_LANE_REPAIR, .HBM_RECAL, .HBM_WR_DROP] ++
  copies 1 [.DDR_CE, .DDR_UE, .DDR_REREAD_OK, .DDR_POISON_READ, .DDR_PPR, .DDR_RECAL, .DDR_WR_DROP] ++
  copies 1 [.TAL_CHECK_FAIL, .TAL_MISDIRECT, .TAL_STREAM_OPS] ++
  copies 1 [.CMN_VOIDS, .CMN_RERUNS, .CMN_CHECK_FAILED, .CMN_DEADLINE, .CMN_REFORMS, .CMN_STALE] ++
  copies 1 [.MIL_ELEMS, .MIL_DDR_ELEMS, .MIL_NONFINITE, .MIL_BLOCK_REPLAY] ++
  copies 1 [.CPH_ENC_PKTS, .CPH_DEC_PKTS, .CPH_TAG_FAIL, .CPH_EXHAUSTED, .CPH_CORE_ERR, .CPH_WIPES] ++
  copies 1 [.CKP_REC_WRITTEN, .CKP_REC_READ, .CKP_RETRY, .CKP_DIGEST_ERR, .CKP_TRAILER_ERR, .CKP_CONN_FAIL] ++
  copies 1 [.MGT_TX_FRAMES, .MGT_RX_FRAMES, .MGT_COLLISIONS, .MGT_EXCESS_COLL, .MGT_TX_DROP, .MGT_RX_DROP, .MGT_PROBE_REFUSED,
    .MGT_MSG_DROP] ++
  copies 1 [.PTN_CREATED, .PTN_QUIESCE, .PTN_DRAIN_TIMEOUT, .PTN_CTX_RESET_OPS, .PTN_FENCE_NAK, .PTN_FENCE_DROP, .PTN_RESET_REFUSED]

/-- The value of a counter: PWR_TICK is the ember clock's count (R443). -/
def State.counterNow (s : State) (r : Reg) (k : Nat) : Word := if r = .PWR_TICK then BitVec.ofNat 64 s.ticks else s.reg r k

/-- TEL_SNAP_CMD `go`: every counter is copied into the snapshot area, and `go` clears (R479). -/
def State.snapshot (s : State) : State := { s with snap := snapRegs.map fun q => s.counterNow q.1 q.2 }

/-- TEL_SNAPSHOT. -/
def execTelSnapshot (s : State) : Host.Outcome State Fault Refusal := act s (asManager false State.snapshot)

/-! ### The injection network (R484-R486, R489) -/

/-- The injection points of R484. -/
def injPoints : List Nat :=
  [0x0202, 0x0301, 0x0701, 0x0702, 0x0801, 0x0901, 0x0902, 0x0D01, 0x0E01, 0x1001, 0x1101, 0x1201, 0x1202, 0x1301, 0x1302, 0x1401, 0x1402,
    0x1501, 0x1502, 0x1801, 0x1901, 0x1902, 0x1A01, 0x0401]

/-- Life-cycle codes of TRU_LC. -/
abbrev lcManufacture : Nat := 0
abbrev lcProvisioned : Nat := 1
abbrev lcDeployed : Nat := 2
abbrev lcReturned : Nat := 3
abbrev lcScrapped : Nat := 4

/-- Whether injection is allowed (R485). -/
def State.injAllowed (s : State) : Bool :=
  let lc := s.rd F.TRU_LC_state
  lc == lcManufacture || lc == lcProvisioned || (lc == lcDeployed && s.rd F.INJ_UNLOCK_unlock == 1)

/-- Ends an injection command (R489). -/
def State.injResult (s : State) (reason : Nat) : State := (s.wr F.INJ_STATUS_reason reason).wr F.INJ_STATUS_refused (b2n (reason != 0))

/-- The unlock is set or ends (R485). -/
def State.setUnlock (s : State) (v : Nat) : State := (s.wr F.INJ_UNLOCK_unlock v).wr F.TRU_LC_inj_unlocked v

/-- Disarms the point (R489). -/
def State.disarm (s : State) : State := (({ s with inj := none }).wr F.INJ_STATUS_armed 0).wr F.INJ_STATUS_left 0

/-- A write of INJ_UNLOCK (R485). -/
def State.injUnlock (s : State) (unlock : Bool) (confirm : Nat) : State :=
  if !unlock then s.setUnlock 0
  else if confirm = 0xA7 ∧ (s.lay.running.map fun l => l.access.flags.testBit 1) = some true then s.setUnlock 1
  else (s.injResult 2).logRefused .INJ 2 0

/-- INJ_UNLOCK. -/
def execInjUnlock (unlock : Bool) (confirm : Nat) (s : State) : Host.Outcome State Fault Refusal := act s (asManager false fun s => s.injUnlock unlock confirm)

/-- INJ_CMD ARM (R485, R486): the selected point with its controls takes the place of any other. -/
def State.injArm (s : State) : State :=
  let p := s.rd F.INJ_SEL_point
  if !s.injAllowed then (s.injResult 1).logRefused .INJ 1 p
  else if !injPoints.contains p then (s.injResult 3).logRefused .INJ 3 p
  else
    let n := s.rd F.INJ_CTL_count
    let pt : InjPoint := ⟨p, s.rd F.INJ_SEL_index, s.rd F.INJ_CTL_every, n == 0,
      if s.rd F.INJ_CTL_ptn_en = 1 then some (s.rd F.INJ_CTL_ptn) else none, 0⟩
    ((({ s with inj := some pt }).wr F.INJ_STATUS_armed 1).wr F.INJ_STATUS_left n).injResult 0

/-- INJ_ARM. -/
def execInjArm (s : State) : Host.Outcome State Fault Refusal := act s (asManager false State.injArm)

/-- INJ_DISARM. -/
def execInjDisarm (s : State) : Host.Outcome State Fault Refusal := act s (asManager false fun s => s.disarm.injResult 0)

end Sys2Proof.Machine
end

