-- ==== Sys2Proof/Machine/Power.lean ====
section
/-!
DEFINITION. The power ladder (18_ember_power_clocks.md): stepping down and climbing (R434-R438), floors and pins (R439, R450), the power cap
(R440, R531), the device's own ladder (R441).
-/

namespace Sys2Proof.Machine

/-- The deepest floor of a domain (R432). -/
def deepestFloor (d : Nat) : Nat :=
  if d = 0 then 0
  else if d ≤ 16 then 1
  else if d ≤ 31 then 3
  else if d ≤ 42 then 1
  else if d = 43 then 2
  else if d ≤ 49 then 4
  else if d ≤ 72 then 3
  else if d ≤ 76 then 4
  else if d = 77 then 3
  else if d ≤ 83 then 4
  else if d = 84 then 3
  else if d = 85 then 4
  else if d ≤ 89 then 3
  else if d = 90 then 2
  else if d = 91 then 4
  else 1

/-- The privileged domains (R437). -/
def privileged (d : Nat) : Bool := d == 66 || d == 84 || d == 91

/-- The device's state is the shallowest among domains 1 to 95 (R441). -/
def State.showDev (s : State) : State :=
  s.wr F.PWR_STATUS_dev_state ((List.range 95).foldl (fun m k => min m (s.rd F.PWR_DOM_state (k + 1))) 4)

/-- Sets a domain's state. -/
def State.setDom (s : State) (d st : Nat) : State := (s.wr F.PWR_DOM_state st d).showDev

/-- Whether the trust controller keeps a privileged domain LIT: it has woken it, or a key slot is LOADED or RETIRED (R437, R438). -/
def State.heldLit (s : State) (d : Nat) : Bool :=
  s.pwr.woken.contains d || (d == 84 && ((s.slots.any fun q => q.2.state != .wiping) || s.mslots.any fun q => q.2.state != .wiping))

/-- Requests held at the crossing of a domain. -/
def State.heldAt (s : State) (d : Nat) : Nat := Tbl.getD s.pwr.held d 0

/-- A request is held at the crossing of a domain. -/
def State.holdRequest (s : State) (d : Nat) : State := { s with pwr := { s.pwr with held := Tbl.set s.pwr.held d (s.heldAt d + 1) } }

/-- The requests held at the crossing of a domain that is LIT again, or whose unit is back in service, are released (R435, R454). -/
def State.releaseHeld (s : State) (d : Nat) : State := { s with pwr := { s.pwr with held := Tbl.erase s.pwr.held d } }

/-- The crossing reset of a domain: both halves are cleared, and what is held is answered with the reset error of that domain (R449). -/
def State.crossReset (s : State) (d : Nat) : State := if s.heldAt d = 0 then s else (s.releaseHeld d).emit (.resetError d (s.heldAt d))

/-- The domain of a unit of a kind of R452. -/
def unitDomain (kind unit : Nat) : Nat :=
  if kind = 5 then 19 + unit
  else ([Blk.TAL, .MIL, .CPH, .XLT, .DMV, .BXT, .CKP, .CMN].getD kind .RST).domain unit

/-- Whether a hung unit that has no other to take its work is fenced, so that requests are held at its crossing (R454). -/
def State.soleFenced (s : State) (d : Nat) : Bool :=
  s.rst.replays.any fun r => (r.kind == 3 || 5 ≤ r.kind) && unitDomain r.kind r.unit == d

/-- Work that a domain is known to hold, so that it is not idle (R434). -/
def State.domBusy (s : State) (d : Nat) : Bool :=
  if s.heldAt d ≠ 0 then true
  else if 19 ≤ d ∧ d ≤ 22 then s.bxt.conns.any fun q => q.1 % 4 == d - 19 && (!q.2.sent.isEmpty || !q.2.queue.isEmpty)
  else if d = 43 then !s.fetched.isEmpty
  else if d = 44 ∨ d = 45 then !s.xlt.holds.isEmpty || !s.xlt.invals.isEmpty
  else if d = 66 then s.tier.wipe.isSome
  else if d = 77 then !s.cmn.colls.isEmpty
  else if 78 ≤ d ∧ d ≤ 81 then s.mill.engines.any fun q => Blk.domain .MIL q.1 == d
  else if d = 84 then !s.cph.wipes.isEmpty
  else if d = 85 then !s.ckp.streams.isEmpty
  else false

/-- A network or host port domain of which every logical port or link is DISABLED or does not exist (R434). -/
def State.portDark (s : State) (d : Nat) : Bool :=
  if 1 ≤ d ∧ d ≤ 16 then (List.range 8).all fun k => let p := (d - 1) % 8 * 8 + k; !s.lportExists p || s.rd F.PRT_LP_state p == lpDisabled
  else if 35 ≤ d ∧ d ≤ 42 then (List.range 4).all fun k => !s.linkExists ((d - 35) % 4 * 4 + k)
  else false

/-- A domain idle for its `idle_us` steps down one rung towards its floor; a dark port's domain goes to COLD (R434). -/
def State.stepDown (s : State) (d : Nat) : State :=
  let st := s.rd F.PWR_DOM_state d
  if d = 0 ∨ s.rd F.PWR_DOM_pinned d = 1 ∨ s.pwr.climbing.contains d ∨ (privileged d ∧ s.heldLit d) ∨ s.domBusy d then s
  else if s.portDark d then (s.setDom d 4).crossReset d
  else if st < s.rd F.PWR_DOM_floor d then s.setDom d (st + 1)
  else s

/-- DOMAIN_IDLE_STEP. -/
def execDomainIdleStep (domain : Nat) (s : State) : Host.Outcome State Fault Refusal :=
  actOn (decide (domain < 96)) s fun s => s.stepDown domain

/-- A kindle is raised and counted (R435); one for a domain that climbs already merges into the climb. -/
def State.kindle (s : State) (d : Nat) : State :=
  let s := ((s.bump F.PWR_KINDLE).evt 1).bumpSat F.PWR_DOM_kindles d
  if s.pwr.climbing.contains d then s else { s with pwr := { s.pwr with climbing := s.pwr.climbing ++ [d] } }

/-- A request that reaches a domain not LIT raises a kindle; at a privileged domain it is only counted (R435, R437). -/
def State.requestAt (s : State) (d : Nat) : State :=
  if s.rd F.PWR_DOM_state d = 0 then s else if privileged d then s.bump F.PWR_HELD_PRIV else s.kindle d

/-- A request or work item reaches a domain: where it is not LIT, or its unit fenced, the request is held at the crossing (R435, R437, R454). -/
def State.requestHeld (s : State) (d : Nat) : State :=
  if s.rd F.PWR_DOM_state d = 0 ∧ !s.soleFenced d then s else (s.requestAt d).holdRequest d

/-- KINDLE. -/
def execKindle (domain : Nat) (s : State) : Host.Outcome State Fault Refusal :=
  actOn (decide (domain < 96)) s fun s => s.requestHeld domain

/-- What a domain that leaves COLD has lost beside its registers, which the configuration shadow writes back (R436): the translation unit its
cached entries. An idle domain holds nothing else. -/
def State.coldExit (s : State) (d : Nat) : State :=
  if d = 44 ∨ d = 45 then
    (({ s with xlt := { s.xlt with cache := [], ptrs := [] } }).wr F.XLT_CACHE_leaf_resident 0).wr F.XLT_CACHE_ptr_resident 0
  else s

/-- A climbing domain reaches LIT, and what is held at its crossing is released (R435, R437). -/
def State.domainLit (s : State) (d : Nat) : State :=
  if !s.pwr.climbing.contains d then s
  else
    let s := if s.rd F.PWR_DOM_state d = 4 then s.coldExit d else s
    let s := State.setDom { s with pwr := { s.pwr with climbing := s.pwr.climbing.filter (· != d) } } d 0
    if s.soleFenced d then s else s.releaseHeld d

/-- DOMAIN_LIT. -/
def execDomainLit (domain : Nat) (s : State) : Host.Outcome State Fault Refusal :=
  actOn (decide (domain < 96)) s fun s => s.domainLit domain

/-- The trust controller wakes a privileged domain on purpose, and holds it LIT (R437). -/
def State.privWake (s : State) (d : Nat) : State :=
  let s := { s with pwr := { s.pwr with woken := if s.pwr.woken.contains d then s.pwr.woken else s.pwr.woken ++ [d] } }
  if s.rd F.PWR_DOM_state d = 0 ∨ s.pwr.climbing.contains d then s
  else { s with pwr := { s.pwr with climbing := s.pwr.climbing ++ [d] } }

/-- PRIV_WAKE. -/
def execPrivWake (domain : Nat) (s : State) : Host.Outcome State Fault Refusal :=
  actOn (privileged domain) s fun s => s.privWake domain

/-- PRIV_RELEASE. -/
def execPrivRelease (domain : Nat) (s : State) : Host.Outcome State Fault Refusal :=
  actOn (privileged domain) s fun s => { s with pwr := { s.pwr with woken := s.pwr.woken.filter (· != domain) } }

/-- A write to PWR_DOM (R439, R450, R451): a floor beyond the deepest, or an idle time out of range, is refused; a floor shallower than the
state, or `pinned`, makes the domain climb; nothing but the trust controller raises a privileged one. -/
def State.domWrite (s : State) (d floor : Nat) (pin : Bool) (idleUs : Nat) : State :=
  if deepestFloor d < floor ∨ 1000000 < idleUs then s.refuseWrite .PWR (0x1000 + 8 * d)
  else
    let s := ((s.wr F.PWR_DOM_floor floor d).wr F.PWR_DOM_pinned (b2n pin) d).wr F.PWR_DOM_idle_us idleUs d
    let st := s.rd F.PWR_DOM_state d
    if privileged d ∨ st = 0 then s
    else if pin then s.kindle d
    else if floor < st then (((s.bump F.PWR_KINDLE).evt 1).bumpSat F.PWR_DOM_kindles d).setDom d floor
    else s

/-- DOMAIN_FLOOR_WRITE. -/
def execDomainFloorWrite (domain floor : Nat) (pin : Bool) (idleUs : Nat) (s : State) : Host.Outcome State Fault Refusal :=
  actOn (decide (domain < 96)) s (asManager false fun s => s.domWrite domain floor pin idleUs)

/-! ### Power cap and temperature (R440, R531, R357) -/

/-- The temperature of a stack is shown; above 85 degrees it is `hot` (R357). -/
def State.showTemp (s : State) (k t : Nat) : State :=
  let hot := decide (85 < t)
  let was := s.rd F.HBM_STACK_hot k == 1
  let s := (s.wr F.HBM_STACK_temp_c (min 255 t) k).wr F.HBM_STACK_hot (b2n hot) k
  if hot ∧ !was then s.logEv .HBM .threshold 1 k k else s

/-- A millisecond of averaged power, with the hottest die sensor and the temperature of each stack: one sixteenth of throttle more or fewer. -/
def State.powerSample (s : State) (watts die : Nat) (hbmTemps : List Nat) : State :=
  let s := ((hbmTemps.take 4).zipIdx).foldl (fun (s : State) (q : Nat × Nat) => s.showTemp q.2 q.1) (s.wr F.PWR_STATUS_power_w (min 1023 watts))
  let cap := s.rd F.PWR_CFG_cap_w
  let isOver := decide (cap < watts) || decide (100 ≤ die) || hbmTemps.any fun t => decide (95 ≤ t)
  let under := decide (100 * watts < 95 * cap) && decide (die < 95) && hbmTemps.all fun t => decide (t < 90)
  let g := s.pwr.gate
  let s := if 0 < g then s.bump F.PWR_THROTTLE_US 1000 else s
  let g' := if isOver then min 15 (g + 1) else if under then g - 1 else g
  let s : State := State.wr { s with pwr := { s.pwr with gate := g' } } F.PWR_STATUS_throttled (b2n (0 < g'))
  if g = 0 ∧ 0 < g' then s.logEv .PWR .threshold 3 0 else if 0 < g ∧ g' = 0 then s.logEv .PWR .threshold 4 0 else s

/-- POWER_SAMPLE. -/
def execPowerSample (watts die : Nat) (hbmTemps : List Nat) (s : State) : Host.Outcome State Fault Refusal :=
  act s fun s => s.powerSample watts die hbmTemps

/-! ### The device ladder (R441) -/

/-- Ends a PWR_DEV_CMD. -/
def State.devResult (s : State) (reason : Nat) : State :=
  (((s.wr F.PWR_DEV_STATUS_busy 0).wr F.PWR_DEV_STATUS_done (b2n (reason == 0))).wr F.PWR_DEV_STATUS_refused (b2n (reason != 0))).wr
    F.PWR_DEV_STATUS_reason reason

/-- Every network logical port goes DISABLED, with its `admin` as it is (R441, R459). -/
def State.darkPorts (s : State) : State :=
  ((List.range 64).filter fun p => s.lportExists p && s.rd F.PRT_LP_state p != lpDisabled).foldl (fun (s : State) p => s.portOut p lpDisabled) s

/-- ENTER_EMBER (3) and ENTER_COLD (4): refused with the first reason that applies; accepted, ports and links go before the domains do. -/
def State.enterDev (s : State) (st : Nat) : State :=
  let refuse := fun r => ((s.wr F.PWR_DEV_STATUS_reason r).wr F.PWR_DEV_STATUS_refused 1).wr F.PWR_DEV_STATUS_done 0
  if (List.range 64).any fun p => s.enabled p && s.rd F.PTN_PART_state p != ptnQuiesced then refuse 1
  else if s.pwr.entry.isSome ∨ s.rd F.LAY_STATUS_busy = 1 then refuse 2
  else if s.rd F.TRU_TAMPER_STATE_latched ≠ 0 then refuse 3
  else
    let s := ((s.wr F.PWR_DEV_STATUS_busy 1).wr F.PWR_DEV_STATUS_done 0).wr F.PWR_DEV_STATUS_refused 0
    let s : State := ({ s with pwr := { s.pwr with entry := some st } }).darkPorts
    if st = 4 then ((List.range 16).filter fun x => s.linkUp x).foldl State.linkLoss s else s

/-- ENTER_EMBER. -/
def execEnterEmber (s : State) : Host.Outcome State Fault Refusal := act s (asManager false fun s => s.enterDev 3)

/-- ENTER_COLD. -/
def execEnterCold (s : State) : Host.Outcome State Fault Refusal := act s (asManager false fun s => s.enterDev 4)

/-- The domains have stepped to the state named (R441): in EMBER a privileged domain only once the trust controller does not hold it. -/
def State.devEntered (s : State) (st : Nat) : State :=
  let s := (List.range 95).foldl (fun (s : State) k =>
    let d := k + 1
    if st = 3 ∧ privileged d ∧ s.heldLit d then s
    else if st = 4 then (s.wr F.PWR_DOM_state st d).crossReset d
    else s.wr F.PWR_DOM_state st d) s
  let s := { s with pwr := { s.pwr with entry := none, asleep := some st, climbing := [], woken := if st = 4 then [] else s.pwr.woken } }
  s.showDev.devResult 0

end Sys2Proof.Machine
end

