-- ==== Sys2Proof/Machine/Layout.lean ====
section
/-!
DEFINITION. The layout image (02_layout_image.md): its checks in the order of R49, its sections (R34-R47), applying it whole or one partition
at a time (R52-R54, R354, R355, R375), and the commands of LAY_CMD. Where R41 to R47 name the fields of a record and not their bytes, the
packing is the model's (log entry 33).
-/

namespace Sys2Proof.Machine

/-- A check of the loader: the image is rejected with a reason unless it holds. -/
def need (ok : Bool) (reason : Nat) : Except Nat Unit := if ok then .ok () else .error reason

/-- Whether the fuses mark a unit or lane defective (R31). -/
def State.fuseDefect (s : State) (res unit : Nat) : Bool := s.built.defects.contains (res, unit)

/-! ### Header and directory (R34, R35) -/

/-- A directory entry (R35). -/
structure DirEntry where
  typ : Nat
  part : Nat
  off : Nat
  len : Nat
  digest : List Byte
  resv : Bool
  deriving DecidableEq, Repr

/-- The header fields (R34). -/
structure LayHdr where
  key : Nat
  isSlice : Bool
  slicePart : Nat
  len : Nat
  serial : Nat
  base : Nat
  rollback : Nat
  dir : List DirEntry
  deriving DecidableEq, Repr

/-- Entry `n` of the directory. -/
def dirEntry (img : List Byte) (n : Nat) : DirEntry :=
  let o := 64 + 48 * n
  { typ := fieldLE img o 2, part := fieldLE img (o + 2) 1, off := fieldLE img (o + 4) 4, len := fieldLE img (o + 8) 4,
    digest := slice img (o + 16) 32, resv := zeroBytes img (o + 3) 1 && zeroBytes img (o + 12) 4 }

/-- The header's checks, in the order of R34. `room` is how many bytes the place it stands in holds, `serial` that of the running full image. -/
def checkHdr (img : List Byte) (room : Nat) (serial : Option Nat) : Except Nat LayHdr := do
  let flags := fieldLE img 10 1
  let sp := fieldLE img 11 1
  let len := fieldLE img 12 4
  let base := fieldLE img 20 4
  let n := fieldLE img 24 2
  need (fieldLE img 0 4 == 0x4959414C) 1
  need (fieldLE img 4 2 == 1) 2
  need (fieldLE img 6 2 == 0x9080 && fieldLE img 8 1 == 0x0A) 3
  need (decide (fieldLE img 9 1 ≤ 3)) 5
  need (decide (flags ≤ 1) && (if flags = 1 then decide (sp ≤ 63) else sp == 0)) 9
  need (decide (4096 ≤ len) && decide (len ≤ 67108864) && len % 4096 == 0 && decide (len ≤ room)) 4
  need (fieldLE img 16 4 != 0) 9
  need (if flags = 1 then serial == some base else base == 0) 0x0C
  need (decide (1 ≤ n) && decide (n ≤ 32)) 4
  need (zeroBytes img 27 37) 9
  need (zeroBytes img (64 + 48 * n) (48 * (32 - n))) 4
  need (zeroBytes img 1664 2432) 9
  return { key := fieldLE img 9 1, isSlice := flags == 1, slicePart := sp, len := len, serial := fieldLE img 16 4, base := base,
           rollback := fieldLE img 26 1, dir := (List.range n).map (dirEntry img) }

/-- The length a section's type and its own count fields fix (R35); sections of entries alone may hold none of them (log entry 33). -/
def sectionLen (img : List Byte) (d : DirEntry) : Bool :=
  let b := fun (o n : Nat) => fieldLE img (d.off + o) n
  match d.typ with
  | 1 => d.len == 1024
  | 2 => d.len == 64
  | 3 => d.len == 192
  | 4 => stages 16 0
  | 5 => d.len % 12 == 0 && decide (d.len ≤ 65536 * 12)
  | 6 => d.len % 520 == 0 && decide (1 ≤ d.len) && decide (d.len ≤ 32 * 520)
  | 7 => d.len == 64
  | 8 => d.len == 776
  | 9 => decide (b 1 1 ≤ 4) && decide (b 2 1 ≤ 16) && d.len == 4 + 32 * b 1 1 + 20 * b 2 1
  | 10 => d.len % 8 == 0 && decide (d.len ≤ 256 * 8)
  | _ => true
where
  stages : Nat → Nat → Bool
    | 0, o => o == d.len
    | k + 1, o => stages k (o + 16 + fieldLE img (d.off + o + 2) 2 * (if fieldLE img (d.off + o) 1 = 1 then 136 else 72))

/-- Two sections do not overlap. -/
def apart (a b : DirEntry) : Bool := decide (a.off + a.len ≤ b.off) || decide (b.off + b.len ≤ a.off)

/-- No two entries of a list overlap. -/
def allApart : List DirEntry → Bool
  | [] => true
  | d :: t => t.all (apart d) && allApart t

/-- The layout of the directory (R49 step 2). -/
def checkDir (img : List Byte) (h : LayHdr) : Except Nat Unit :=
  need (h.dir.all (fun d => d.resv && d.off % 4096 == 0 && decide (4096 ≤ d.off) && decide (d.off + d.len ≤ h.len)
      && (decide (1 ≤ d.len) || d.typ == 5 || d.typ == 10)) && allApart h.dir
    && h.dir.all (sectionLen img)) 4

/-- Signature and key (R36, R406, R409; R49 step 3). -/
def State.checkSig (s : State) (img : List Byte) (h : LayHdr) : Except Nat Unit := do
  let lc := s.rd F.TRU_LC_state
  need (lc != lcScrapped && (h.key != 3 || lc == lcManufacture)) 0x12
  need (!bitAt (s.rd F.TRU_BOOT_revoked) (4 + h.key)) 5
  need (Config.ecdsaVerify (Config.fusedKey (4 + h.key)) (img.take 1600) (slice img 1600 64)) 5

/-- Section digests (R49 step 5). -/
def checkDigests (img : List Byte) (h : LayHdr) : Except Nat Unit :=
  need (h.dir.all fun d => Config.sha256 (slice img d.off d.len) == d.digest) 7

/-- The sections of a type for a partition (255 for a global one). -/
def LayHdr.find (h : LayHdr) (typ part : Nat) : List DirEntry := h.dir.filter fun d => d.typ == typ && d.part == part

/-- The bytes of the first section of a type; none listed reads empty. -/
def LayHdr.bytes (h : LayHdr) (img : List Byte) (typ part : Nat) : List Byte :=
  match h.find typ part with
  | d :: _ => slice img d.off d.len
  | [] => []

/-- Types of global sections (R37). -/
abbrev globalTypes : List Nat := [1, 3, 4, 5, 7, 8, 9, 10]

/-- Whether the partition table of an image enables a partition. -/
def tableEnables (table : List Byte) (p : Nat) : Bool := decide (p < 64) && fieldLE table (16 * p) 1 == 1

/-- Presence of the sections (R37; R49 step 6). -/
def checkPresent (img : List Byte) (h : LayHdr) : Except Nat Unit :=
  if h.isSlice then
    need (h.dir.all (fun d => d.part == h.slicePart && (d.typ == 2 || d.typ == 6)) && (h.find 2 h.slicePart).length == 1
      && decide ((h.find 6 h.slicePart).length ≤ 1)) 8
  else
    let on := tableEnables (h.bytes img 1 255)
    need (globalTypes.all (fun t => (h.find t 255).length == 1)
      && h.dir.all (fun d => if d.typ = 2 ∨ d.typ = 6 then on d.part else d.part == 255 && globalTypes.contains d.typ)
      && (List.range 64).all fun p => !on p || ((h.find 2 p).length == 1 && decide ((h.find 6 p).length ≤ 1))) 8

/-! ### Section contents (R38-R47; R49 step 7) -/

/-- A partition-table entry. -/
def parsePart (b : List Byte) : Except Nat PartDef := do
  let en := fieldLE b 0 1
  let mask := fieldLE b 1 1
  let base := fieldLE b 2 2
  let count := fieldLE b 4 2
  let drain := fieldLE b 6 2
  let sl := fieldLE b 8 1
  need (decide (en ≤ 1) && decide (mask < 16) && decide (base ≤ 1023) && decide (count ≤ 1024) && decide (base + count ≤ 1024)
    && decide (drain ≤ 10000) && decide (sl ≤ 1) && zeroBytes b 9 7 && (en == 0 || (count != 0 && mask != 0))) 9
  return ⟨en == 1, mask, base, count, drain, sl == 1⟩

/-- The partition table; ranges of enabled partitions do not overlap (R38). -/
def parseTable (b : List Byte) : Except Nat (List PartDef) := do
  let ps ← (List.range 64).mapM fun p => parsePart (slice b (16 * p) 16)
  let on := ps.filter (·.enabled)
  need (disjoint on) 9
  return ps
where
  disjoint : List PartDef → Bool
    | [] => true
    | d :: t => t.all (fun e => decide (d.vfBase + d.vfCount ≤ e.vfBase) || decide (e.vfBase + e.vfCount ≤ d.vfBase)) && disjoint t

/-- A pool-share record (R39). -/
def parsePool (b : List Byte) : Except Nat PoolShare := do
  let q : PoolShare :=
    { ctxHot := fieldLE b 0 2, ctxBacked := fieldLE b 4 4, rings := fieldLE b 8 2, poolShare := fieldLE b 10 2, stagingShare := fieldLE b 12 2,
      hbmShare := fieldLE b 14 2, ddrShare := fieldLE b 16 2, keySlots := fieldLE b 18 4, tallyWeight := fieldLE b 22 1,
      millWeight := fieldLE b 23 1, classShare := (List.range 6).map (fun k => fieldLE b (24 + k) 1), wfqWeight := fieldLE b 30 2,
      rateMbps := fieldLE b 32 4, burstKib := fieldLE b 36 4 }
  need (decide (q.ctxHot ≤ 16384) && zeroBytes b 2 2 && decide (q.ctxBacked ≤ 1048567) && decide (q.rings ≤ 32768)
    && decide (q.poolShare ≤ 2048) && decide (q.stagingShare ≤ 832) && decide (q.hbmShare ≤ 255) && decide (q.ddrShare ≤ 2047)
    && decide (q.keySlots ≤ 65536) && q.tallyWeight != 0 && q.millWeight != 0 && q.wfqWeight != 0
    && decide (1 ≤ q.rateMbps) && decide (q.rateMbps ≤ 12800000) && decide (4 ≤ q.burstKib) && decide (q.burstKib ≤ 65536)
    && zeroBytes b 40 24) 9
  return q

/-- The sums of R39 over the records of the enabled partitions. -/
def State.poolsFit (s : State) (l : List PoolShare) : Bool :=
  let sum := fun (f : PoolShare → Nat) => sumNat (l.map f)
  decide (sum (·.ctxHot) ≤ 16384) && decide (sum (·.ctxBacked) ≤ 1048567) && decide (sum (·.rings) ≤ 32768)
    && decide (sum (·.poolShare) ≤ s.rd F.TAL_POOL_pool_max) && decide (sum (·.stagingShare) ≤ 832)
    && decide (sum (·.hbmShare) ≤ s.rd F.HBM_CAP_gib - 1) && decide (sum (·.ddrShare) ≤ s.rd F.DDR_CAP_gib - 1)
    && decide (sum (·.keySlots) ≤ 65536) && (List.range 6).all fun k => decide (sum (fun q => q.classShare.getD k 0) ≤ 256)

/-- A network-port record (R41): nine different lanes, the active ones not defective. -/
def State.parseNet (s : State) (n : Nat) (b : List Byte) : Except Nat NetPortRec := do
  let order := (List.range 9).map fun k => bitsOf (fieldLE b 1 5) (4 * k) 4
  let tx := fieldLE b 6 2
  let rx := fieldLE b 8 2
  need (decide (fieldLE b 0 1 ≤ 3) && order.all (fun x => decide (x < 9)) && order.eraseDups.length == 9 && fieldLE b 5 1 / 16 == 0
    && decide (tx < 512) && decide (rx < 512) && zeroBytes b 10 6) 9
  need ((order.take 8).all fun x => !s.fuseDefect 0 (9 * n + x)) 0x0B
  return ⟨fieldLE b 0 1, order, tx, rx⟩

/-- A host-port record (R41, R310). -/
def parseHost (b : List Byte) : Except Nat HostPortRec := do
  let role := fieldLE b 0 1
  let fork := fieldLE b 1 1
  let gen := fieldLE b 2 1
  let tx := fieldLE b 4 3
  let rx := fieldLE b 7 3
  need (decide (role ≤ 1) && decide (fork ≤ 2) && decide (5 ≤ gen) && decide (gen ≤ 7) && decide (fieldLE b 3 1 ≤ 1)
    && decide (tx < 2 ^ 17) && decide (rx < 2 ^ 17) && zeroBytes b 10 6) 9
  return ⟨role, fork, gen, fieldLE b 3 1 == 1, tx + rx * 2 ^ 17⟩

/-- Bytes of the fields a key-field selector picks (R276). -/
def selectorLen (sel : Nat) : Nat :=
  sumNat (([1, 6, 6, 2, 2, 1, 1, 16, 16, 2, 2, 2, 3, 1, 3, 3, 3, 4].zipIdx.filter fun q => bitAt sel q.2).map Prod.fst)

/-- An entry's action (R42, R277): a go-to names a later stage, a partition set is enabled, a meter is the partition's or none. -/
def actionOk (parts : List PartDef) (stage kind keyLen : Nat) (a : List Byte) : Bool :=
  let code := fieldLE a 0 1
  let next := fieldLE a 1 1
  let p := fieldLE a 3 1
  let m := fieldLE a 4 2
  decide (code ≤ 5) && decide (fieldLE a 2 1 < 8) && decide (fieldLE a 6 1 ≤ 1)
    && (code != 1 || (decide (stage < next) && decide (next ≤ 15)))
    && (code != 3 || ((parts[p]?).any (·.enabled) && (m == 0xFFFF || (decide (64 * p ≤ m) && decide (m < 64 * p + 64)))))
    && (if kind = 2 then decide (fieldLE a 7 1 ≤ 8 * keyLen) else fieldLE a 7 1 == 0)

/-- The sixteen classification stages, stage by stage (R42, R276). -/
def parseStages (parts : List PartDef) : Nat → Nat → List Byte → Except Nat (List ClsStage)
  | 0, _, _ => .ok []
  | n + 1, k, b => do
    let kind := fieldLE b 0 1
    let keyLen := fieldLE b 1 1
    let count := fieldLE b 2 2
    let sel := fieldLE b 8 8
    let size := if kind = 1 then 136 else 72
    need (decide (kind ≤ 2) && decide (1 ≤ keyLen) && decide (keyLen ≤ 64) && decide (count ≤ 2048) && zeroBytes b 4 4
      && decide (sel < 2 ^ 18) && selectorLen sel == keyLen) 9
    let es := (List.range count).map fun i =>
      let e := slice b (16 + i * size) size
      (⟨e.take 64, if kind = 1 then slice e 64 64 else [], e.drop (size - 8)⟩ : ClsEntry)
    need (es.all fun e => actionOk parts k kind keyLen e.action) 9
    let rest ← parseStages parts n (k + 1) (b.drop (16 + count * size))
    return ⟨kind, keyLen, sel, es⟩ :: rest

/-- Whether a logical port exists under a lane map (R43, R282). -/
def netExists (ports : List NetPortRec) (p : Nat) : Bool := (ports[p / 8]?).any fun r => decide (p % 8 < 2 ^ r.split)

/-- The relay routes (R43). -/
def parseRoutes (ports : List NetPortRec) (b : List Byte) : Except Nat (Tbl Nat) := do
  let es := (List.range (b.length / 12)).map fun k => (fieldLE b (12 * k) 4, fieldLE b (12 * k + 4) 8)
  need (es.all (fun e => decide (e.1 < 2 ^ 20) && e.2 != 0 && (List.range 64).all fun p => !bitAt e.2 p || netExists ports p)
    && (es.map Prod.fst).eraseDups.length == es.length) 9
  return es.foldl (fun (t : Tbl Nat) (e : Nat × Nat) => Tbl.set t e.1 e.2) []

/-- A recipe record (R44, R160). -/
def parseRecipe (b : List Byte) : Except Nat Recipe := do
  let id := fieldLE b 0 1
  let n := fieldLE b 1 1
  let steps := (List.range n).map fun k => fieldLE b (8 + 8 * k) 8
  need (decide (0x20 ≤ id) && decide (id ≤ 0x3F) && decide (1 ≤ n) && decide (n ≤ 64) && zeroBytes b 2 6
    && zeroBytes b (8 + 8 * n) (8 * (64 - n)) && recipeOk (steps.map rstep)) 9
  return ⟨id, steps⟩

/-- The recipes of a partition, no identifier twice. -/
def parseRecipes (b : List Byte) : Except Nat (List Recipe) := do
  let rs ← (List.range (b.length / 520)).mapM fun k => parseRecipe (slice b (520 * k) 520)
  need ((rs.map (·.id)).eraseDups.length == rs.length) 9
  return rs

/-- The curfew mapping (R44). -/
def parseCurfew (b : List Byte) : Except Nat (List CurfewRec) :=
  (List.range 8).mapM fun k => do
    let tc := fieldLE b (8 * k) 1
    let dscp := fieldLE b (8 * k + 1) 1
    let pfc := fieldLE b (8 * k + 2) 1
    need (decide (tc ≤ 7) && decide (dscp ≤ 63) && decide (pfc ≤ 1) && zeroBytes b (8 * k + 3) 5) 9
    return (⟨tc, dscp, pfc == 1⟩ : CurfewRec)

/-- The power policy (R45, R439): the cap, and floor and idle time of each domain. -/
def parsePower (b : List Byte) : Except Nat (Nat × List (Nat × Nat)) := do
  let cap := fieldLE b 0 2
  need (decide (300 ≤ cap) && decide (cap ≤ 700) && zeroBytes b 2 6) 9
  let ds ← (List.range 96).mapM fun d => do
    let o := 8 + 8 * d
    let floor := fieldLE b o 1
    let idle := fieldLE b (o + 4) 4
    need (decide (floor ≤ 4) && decide (floor ≤ deepestFloor d) && zeroBytes b (o + 1) 3 && decide (idle ≤ 1000000)) 9
    return (floor, idle)
  return (cap, ds)

/-- Manager access (R45, R46): some manager path is left. The numbers of hashes and of prefixes, for which R46 names no field, stand in bytes 1 and
2, and byte 3 is 0: DESIGN CHOICE (log entry 33). -/
def parseAccess (b : List Byte) : Except Nat MgrAccess := do
  let flags := fieldLE b 0 1
  let nh := fieldLE b 1 1
  let np := fieldLE b 2 1
  let hs := (List.range nh).map fun k => slice b (4 + 32 * k) 32
  let ps := (List.range np).map fun k =>
    let o := 4 + 32 * nh + 20 * k
    (fieldBE b o 16, fieldLE b (o + 16) 1, zeroBytes b (o + 17) 3)
  need (decide (flags ≤ 3) && zeroBytes b 3 1 && ps.all (fun q => decide (q.2.1 ≤ 128) && q.2.2) && nh != 0 && (flags % 2 == 1 || np != 0)) 9
  return ⟨flags, hs, ps.map fun q => (q.1, q.2.1)⟩

/-- Units built of a resource, and the number of spares an override may choose from (R31). DESIGN CHOICE (log entry 33): R47 does not say how the
two indices number units and spares. Lanes and ways count through their ports, modules and directions, channels and sets (lane x of network port n is
9n + x, of host port n 17n + x, of module m and direction d (0 gate to hearth) 68(2m + d) + x; way w of set s is 18s + w; an HBM4 lane is named by its
channel); the spare of a network or host lane is its port's number, of a Kilmet lane 4(2m + d) + k for the redundant lane k, of an HBM4 lane 0, of a
bank LRD_SPARE_STATE's, of a way a way of its set; a tally unit, engine, core or firmware image is named by its own number, a spare as well. -/
def overrideUnits : List (Nat × Nat) :=
  [(72, 8), (68, 4), (1088, 64), (128, 1), (256, 8), (34, 34), (18, 18), (18, 18), (36, 36), (18432, 18), (2, 2)]

/-- Whether an override's spare is one that may replace its unit, under the image's lane map: a network lane's is the ninth of its own port's
`lane_order` (R41), a host lane's is of its own port, a Kilmet lane's of its own module and direction; a spare among the units is another unit. The
fuses do not mark it defective (R47). -/
def State.spareFits (s : State) (ports : List NetPortRec) (o : SpareOverride) : Bool :=
  match o.resource with
  | 0 => o.spare == o.unit / 9 && !s.fuseDefect 0 (9 * o.spare + ((ports[o.spare]?).map fun r => r.laneOrder.getD 8 8).getD 8)
  | 1 => o.spare == o.unit / 17 && !s.fuseDefect 1 (17 * o.spare + 16)
  | 2 => o.spare / 4 == o.unit / 68 && !s.fuseDefect 2 (68 * (o.spare / 4) + 64 + o.spare % 4)
  | 3 => !s.fuseDefect 3 (128 + o.unit)
  | 4 => !s.fuseDefect 4 (256 + o.spare)
  | 9 => o.spare != o.unit % 18 && !s.fuseDefect 9 (o.unit / 18 * 18 + o.spare)
  | _ => o.spare != o.unit && !s.fuseDefect o.resource o.spare

/-- Spare overrides (R47): a retirement, or a choice of the spare that replaces a unit. -/
def State.parseOverrides (s : State) (ports : List NetPortRec) (b : List Byte) : Except Nat (List SpareOverride) :=
  (List.range (b.length / 8)).mapM fun k => do
    let o : SpareOverride := ⟨fieldLE b (8 * k) 1, fieldLE b (8 * k + 2) 2, fieldLE b (8 * k + 4) 1, fieldLE b (8 * k + 6) 2⟩
    let (units, spares) := overrideUnits.getD o.resource (0, 0)
    need (decide (o.resource ≤ 10) && zeroBytes b (8 * k + 1) 1 && zeroBytes b (8 * k + 5) 1 && decide (o.unit < units)) 9
    need (decide (o.action ≤ 1) && (o.action == 0 || (decide (o.spare < spares) && s.spareFits ports o))) 0x0B
    return o

/-- The contents of a full image. -/
def State.parseFull (s : State) (img : List Byte) (h : LayHdr) : Except Nat Layout := do
  let parts ← parseTable (h.bytes img 1 255)
  let on := (List.range 64).filter fun p => (parts[p]?).any (·.enabled)
  let pools ← on.mapM fun p => do
    let q ← parsePool (h.bytes img 2 p)
    return (p, q)
  need (s.poolsFit (pools.map Prod.snd)) 0x0A
  let lanes := h.bytes img 3 255
  let ports ← (List.range 8).mapM fun n => s.parseNet n (slice lanes (16 * n) 16)
  let hosts ← (List.range 4).mapM fun n => parseHost (slice lanes (128 + 16 * n) 16)
  let stages ← parseStages parts 16 0 (h.bytes img 4 255)
  let routes ← parseRoutes ports (h.bytes img 5 255)
  let recipes ← on.mapM fun p => do
    let rs ← parseRecipes (h.bytes img 6 p)
    return (p, rs)
  let curfew ← parseCurfew (h.bytes img 7 255)
  let (cap, domains) ← parsePower (h.bytes img 8 255)
  let access ← parseAccess (h.bytes img 9 255)
  let overrides ← s.parseOverrides ports (h.bytes img 10 255)
  return { header := img.take 1600, serial := h.serial, rollback := h.rollback, parts := parts, pools := pools, ports := ports,
           hosts := hosts, stages := stages, routes := routes, recipes := recipes, curfew := curfew, capW := cap, domains := domains,
           access := access, overrides := overrides }

/-- The checks of R49 up to step 6. -/
def State.checkImage (s : State) (img : List Byte) (room : Nat) : Except Nat LayHdr := do
  let h ← checkHdr img room (s.lay.running.map (·.serial))
  checkDir img h
  s.checkSig img h
  need (decide (s.rd F.LAY_SOURCE_floor ≤ h.rollback)) 6
  checkDigests img h
  checkPresent img h
  return h

/-- A full image checked to the end (R49). A slice is not one: R56 gives that reason 0x08 for a program, and the model takes it for LOAD_FULL too
(DESIGN CHOICE, log entry 70). -/
def State.checkFull (s : State) (img : List Byte) (room : Nat) : Except Nat Layout := do
  let h ← s.checkImage img room
  need (!h.isSlice) 8
  s.parseFull img h

/-- The GiB of a tier below the end of the highest table or page that a table, its levels left to read, maps (R329, R330). -/
def State.tableEnd (s : State) (part tier : Nat) : List Nat → Nat → Nat → Nat
  | [], _, _ => 0
  | level :: rest, t, tab =>
    (List.range 512).foldl (fun m k =>
      let e := s.readPte part t (tab + 8 * k)
      let target := bitsOf e 6 2
      let addr := bitsOf e 12 44 * 4096
      if bitsOf e 0 1 = 0 ∨ !pteShape level e then m
      else if bitsOf e 1 1 = 1 then (if target = tier then max m (addr / 2 ^ 30 + 1) else m)
      else max m (s.tableEnd part tier rest target addr)) (if t = tier then tab / 2 ^ 30 + 1 else 0)

/-- What the partition's instances now hold, for the comparison of R53: pinned contexts, connections, ring pairs, key slots, and of each tier the
GiB below the end of the highest table, mapped page or pinned page (log entry 34). -/
def State.held (s : State) (p : Nat) : Nat × Nat × Nat × Nat × Nat × Nat :=
  let mine := fun (vf : Nat) => s.partOf vf == some p
  let conns := s.bxt.conns.filter fun q => q.2.svc != 1 && mine q.2.vf
  let tags := (s.xlt.roots.filter fun q => mine (s.rd F.XLT_TAG_vf q.1)).map Prod.snd
  let pins : List Loc := ((s.rings.filter fun q => q.1 != ctlKey && mine (ringVf q.1)).flatMap fun q => q.2.sqPages ++ q.2.cqPages)
    ++ (s.xlt.queues.filter fun q => q.1 == p).flatMap fun q => q.2.fqPages ++ q.2.eqPages
  let gib := fun (tier : Nat) =>
    let roots := tags.map fun r => s.tableEnd p tier [0, 1, 2, 3] (b2n r.2) r.1
    let gs := Tbl.getD s.tier.granules (tier * 64 + p) []
    let pinned := pins.filterMap fun l => match l with
      | .dev a => (firstBelow gs.length fun k => (if tier = 0 then hbmBase else ddrBase) + gs.getD k 0 * 2 ^ 30 == a / 2 ^ 30 * 2 ^ 30).map (· + 1)
      | .host _ _ => none
    (roots ++ pinned).foldl max 0
  ((conns.filter fun q => q.2.pin).length, conns.length, (s.rings.filter fun q => q.1 != ctlKey && mine (ringVf q.1)).length,
    (s.slots.filter fun q => mine q.2.vf).length, gib 0, gib 1)

/-- A slice checked to the end (R49, R53): its partition, shares and recipes. LOAD_SLICE of a staged full image has reason 0x08 (DESIGN CHOICE, log
entry 70). -/
def State.checkSlice (s : State) (img : List Byte) (room : Nat) : Except Nat (Nat × PoolShare × List Recipe) := do
  let h ← s.checkImage img room
  need h.isSlice 8
  let p := h.slicePart
  let q ← parsePool (h.bytes img 2 p)
  let others := (List.range 64).filter fun k => s.enabled k && k != p
  need (s.poolsFit (q :: others.map s.shares)) 0x0A
  let rs ← parseRecipes (h.bytes img 6 p)
  need ((s.partDef p).any fun d => d.enabled && d.sliceReload) 9
  need (s.rd F.PTN_PART_state p == ptnQuiesced) 0x0E
  let (pins, conns, rings, keys, hbm, ddr) := s.held p
  need (decide (pins ≤ q.ctxHot) && decide (conns ≤ q.ctxBacked) && decide (rings ≤ q.rings) && decide (keys ≤ q.keySlots)
    && decide (hbm ≤ q.hbmShare) && decide (ddr ≤ q.ddrShare)) 0x0D
  return (p, q, rs)

/-! ### Granules (R354, R355) -/

/-- The granules a full load gives the enabled partitions of a tier: in ascending order, the lowest-numbered not yet given. -/
def giveGranules (share : Nat → Nat) : List Nat → Nat → List (Nat × List Nat)
  | [], _ => []
  | p :: t, next => (p, (List.range (share p)).map (next + ·)) :: giveGranules share t (next + share p)

/-- The place of a granule in a tier's assignment: partition and k. -/
def granuleOwner (tier : Nat) (t : Tbl (List Nat)) (g : Nat) : Option (Nat × Nat) :=
  t.findSome? fun q => if q.1 / 64 = tier then (firstBelow q.2.length fun k => q.2[k]? == some g).map fun k => (q.1 % 64, k) else none

/-- Gives a tier's granules at a full load. Those whose owner or k changes are zeroed first: at a start from power-on while their partition waits
(R495), else within the load. Those that leave a partition are zeroed on. -/
def State.assignTier (s : State) (tier : Nat) (boot : Bool) : State :=
  let on := (List.range 64).filter s.enabled
  let give := giveGranules (fun p => if tier = 0 then (s.shares p).hbmShare else (s.shares p).ddrShare) on 1
  let old := s.tier.granules
  let new := give.foldl (fun (t : Tbl (List Nat)) (q : Nat × List Nat) => if q.2.isEmpty then t else Tbl.set t (tier * 64 + q.1) q.2)
    (old.filter fun q => q.1 / 64 != tier)
  let fresh := give.flatMap fun q => (q.2.filter fun g => granuleOwner tier old g != granuleOwner tier new g || boot).map fun g => (g, q.1)
  let left := ((old.filter fun q => q.1 / 64 == tier).flatMap Prod.snd).filter fun g => (granuleOwner tier new g).isNone
  let keys := fresh.map fun q => tier * 4096 + q.1
  let kept := s.tier.zeroing.filter fun z => !keys.contains z.1
  let s := { s with tier := { s.tier with
    granules := new
    zeroing := kept ++ (if boot then fresh.map fun q => (tier * 4096 + q.1, q.2) else []) ++ left.map fun g => (tier * 4096 + g, 64) } }
  if boot then s else fresh.foldl (fun (s : State) (q : Nat × Nat) => s.zeroGranule tier q.1) s

/-- A slice load grows or shrinks a partition's share of a tier at its highest k. -/
def State.resizeTier (s : State) (p tier n : Nat) : State :=
  let key := tier * 64 + p
  let have_ := Tbl.getD s.tier.granules key []
  if n ≤ have_.length then
    let gone := have_.drop n
    { s with tier := { s.tier with
      granules := Tbl.set s.tier.granules key (have_.take n)
      zeroing := s.tier.zeroing ++ gone.map fun g => (tier * 4096 + g, 64) } }
  else
    let free := (List.range (s.tierGib tier)).filter fun g => !s.granuleTaken tier g
    let waits := (s.tier.zeroing.filter fun z => z.2 == 64 && z.1 / 4096 == tier).map fun z => z.1 % 4096
    let more := (free ++ waits).take (n - have_.length)
    let s := (more.filter waits.contains).foldl (fun (s : State) g =>
      State.zeroGranule { s with tier := { s.tier with zeroing := s.tier.zeroing.filter fun z => z.1 != tier * 4096 + g } } tier g) s
    { s with tier := { s.tier with granules := Tbl.set s.tier.granules key (have_ ++ more) } }

/-! ### Applying (R52, R53) -/

/-- The spare of a network port serves a lane whose SerDes is retired, where it is free and sound (R31, R283). -/
def State.mapNetSpare (s : State) (n lane : Nat) : State :=
  if s.netSpareFree n then (s.wr F.PRT_PORT_STATE_spare_lane lane n).countMapped 0 (9 * n + lane) (s.serdesOf n 8) else s

/-- A SerDes of a network port is retired by an override, and the port's spare serves its lane where that is asked for, free and healthy (R31, R283);
the logical port of a lane that is left without one goes down. -/
def State.overrideLane (s : State) (o : SpareOverride) : State :=
  let n := o.unit / 9
  let x := o.unit % 9
  if (s.rd F.PRT_PORT_STATE_retired n).testBit x then s
  else match (List.range 8).find? fun lane => s.serdesOf n lane == x with
  | none => s.retireSerdes n x true
  | some lane =>
    let s := s.retireSerdes n x (s.rd F.PRT_PORT_STATE_spare_lane n == lane)
    if o.action = 1 ∧ s.netSpareFree n then s.mapNetSpare n lane
    else if s.portUp (s.laneOwner n lane) then s.portOut (s.laneOwner n lane) lpDown
    else s

/-- A spare chosen for a unit with a unit state (R31): it takes the place of the one that serves there, which is free again, or serves where the
active count is below that of R2, for a spare is never capacity beyond it (R2). -/
def State.chooseSpare (s : State) (res : Nat) (f : Fld) (unit spare : Nat) : State :=
  if s.rd f spare ≠ 1 then s
  else match s.servedBy res unit with
  | some old =>
    let s := ((s.wr f 1 old).logEv (resBlock res) .stateChange 1 old old).noteMapped res unit spare
    let s := (s.wr f 0 spare).logEv (resBlock res) .spareMapped res (spare % 256 * 256 + unit % 256) unit
    if res = 7 then s.assignEgress else s
  | none => if s.rd f unit = 2 ∧ s.unitsActive res f < activeFigure res then s.enterSpare res f unit spare else s

/-- A spare chosen for a unit that has no unit state, numbered as R31's resource numbers its units: it takes the place of the one that serves there, or
serves where nothing does. -/
def State.chooseCounted (s : State) (res unit spare : Nat) : State :=
  if !(sparesOf res unit).contains spare || !s.unitSound res spare || s.unitServes res spare then s
  else if (s.servedBy res unit).isSome then (s.noteMapped res unit spare).logEv (resBlock res) .spareMapped res (spare % 256 * 256 + unit % 256) unit
  else if s.unitMissing res unit then s.mapOne res unit spare
  else s

/-- The context cache gives up a context where fewer ways of a set serve than hold one (R31, R223). -/
def State.shedWay (s : State) (set : Nat) : State :=
  if (s.bxt.resident.filter fun r => ctxSet r == set).length ≤ s.ctxWays set then s
  else match s.victim set with
  | some r => State.showCtx { (s.bump F.CTX_EVICT) with bxt := { s.bxt with resident := s.bxt.resident.filter (· != r) } } (s.connPart r)
  | none => s

/-- An override of a resource without unit states (R31, R47): a host lane, steward core, context-cache way or firmware image leaves service, and the
spare chosen for it enters. -/
def State.overrideCounted (s : State) (o : SpareOverride) : State :=
  let s := if s.built.retired.contains (o.resource, o.unit) then s
    else if o.resource = 10 then s.retireCounted 10 o.unit (decide (0 < s.rd F.TEL_SPARE_spare 10))
    else s.retireSound o.resource o.unit
  let spare := if o.resource = 1 then 17 * o.spare + 16 else if o.resource = 9 then o.unit / 18 * 18 + o.spare else o.spare
  let s := if o.action = 1 then s.chooseCounted o.resource o.unit spare else s
  if o.resource = 8 then { s with rst := { s.rst with coresGone := if s.rst.coresGone.contains o.unit then s.rst.coresGone else s.rst.coresGone ++ [o.unit] } }
  else if o.resource = 9 then s.shedWay (o.unit / 18)
  else s

/-- A Kilmet or HBM4 lane that an override retires (R31): a redundant lane serves in its place, or there is none left; once for each. -/
def State.overrideRepair (s0 : State) (o : SpareOverride) : State :=
  if s0.built.retired.contains (o.resource, o.unit) then s0
  else
    let s : State := { s0 with built := { s0.built with retired := s0.built.retired ++ [(o.resource, o.unit)] } }
    if o.resource = 2 then s.klnLaneOut (o.unit / 136) (o.unit / 68 % 2) else s.laneRepair o.unit (o.action == 1)

/-- A spare override takes effect where it has not (R31, R47): a unit is retired, a spare of the same resource enters service. -/
def State.applyOverride (s : State) (o : SpareOverride) : State :=
  match unitField o.resource with
  | some f =>
    let s := s.retireUnit o.resource o.unit
    if o.action = 1 then s.chooseSpare o.resource f o.unit o.spare else s
  | none =>
    if o.resource = 4 then
      if o.action = 1 ∧ bitAt (s.rd F.LRD_SPARE_STATE_free) o.spare ∧ s.rd F.LRD_BANK_phys o.unit ≠ 256 + o.spare then s.spareBank o.unit o.spare
      else if o.action = 0 ∧ s.rd F.LRD_BANK_state o.unit < 2 then s.failBank o.unit
      else s
    else if o.resource = 0 then s.overrideLane o
    else if o.resource = 2 ∨ o.resource = 3 then s.overrideRepair o
    else s.overrideCounted o

/-- The network ports whose record of the lane map changed retrain (R52); logical ports that no longer exist are DISABLED. -/
def State.applyPorts (s : State) (old : Option Layout) (new : Layout) : State :=
  let changed := (List.range 8).filter fun n => (old.bind fun l => l.ports[n]?) != new.ports[n]?
  changed.foldl (fun (s : State) n =>
    let s := s.wr F.PRT_PORT_STATE_split ((new.ports[n]?.map (·.split)).getD 0) n
    (List.range 8).foldl (fun (s : State) k =>
      let p := 8 * n + k
      let s := if s.rd F.PRT_LP_state p ≠ lpDisabled then s.portOut p lpDisabled else s
      if s.lportExists p ∧ s.rd F.PRT_LP_admin p = 1 then s.setLp p lpTraining else s) s) s

/-- The host links whose port's record changed are lost and train as the new one says. -/
def State.applyHosts (s : State) (old : Option Layout) (new : Layout) : State :=
  let changed := (List.range 4).filter fun n => (old.bind fun l => l.hosts[n]?) != new.hosts[n]?
  changed.foldl (fun (s : State) n => (List.range 4).foldl (fun (s : State) k =>
    let x := 4 * n + k
    let s := s.linkLoss x
    let s := s.wr F.HPT_LINK_role (b2n (s.isRoot x)) x
    if s.linkExists x then s.setLink x 1 else if s.rd F.HPT_LINK_state x = 0 then s else s.setLink x 0) s) s

/-- Instances that belong to another partition than before, or to none, are removed with all they hold (R14; log entry 34). -/
def State.applyInsts (s : State) : State :=
  let gone := (List.range 1024).filter fun v =>
    s.rd F.PTN_INST_state v != instAbsent && s.partOf v != some (s.rd F.PTN_INST_partition v)
  let s := (gone.foldl (fun (s : State) v => (s.clearInst v).absentInst v) s).cmnRun
  (List.range 1024).foldl (fun (s : State) v => s.wr F.PTN_INST_partition ((s.partOf v).getD 0) v) s

/-- The state a partition has after a full load (R376): LIVE, or DISABLED where the image does not enable it or its granules are being zeroed
after power-on (R495), or the device is RETIRED (R464). -/
def State.applyParts (s : State) : State :=
  (List.range 64).foldl (fun (s : State) p =>
    let st := if s.enabled p ∧ !s.zeroingFor p ∧ s.rd F.RST_STATUS_retired = 0 then ptnLive else ptnDisabled
    let s := s.wr F.TAL_PTN_POOL_share (if s.enabled p then (s.shares p).poolShare else 0) p
    let s := if s.enabled p then s
      else ((s.setReg .WQE_PTN_HALT p 0).wr F.PTN_PART_halted 0 p)
    if s.rd F.PTN_PART_state p = st then s else (s.wr F.PTN_PART_state st p).logEv .PTN .stateChange st p p) s

/-- The power policy takes effect (R44, R439). -/
def State.applyPower (s : State) (l : Layout) : State :=
  (l.domains.zipIdx).foldl (fun (s : State) (q : (Nat × Nat) × Nat) =>
    s.domWrite q.2 q.1.1 (s.rd F.PWR_DOM_pinned q.2 == 1) q.1.2) (s.wr F.PWR_CFG_cap_w l.capW)

/-- A checked full image becomes the running configuration (R52). `src` is 1 slot A, 2 slot B, 3 staging; `boot` marks a start from power-on. -/
def State.applyFull (s : State) (l : Layout) (src : Nat) (boot : Bool) : State :=
  let old := s.lay.running
  let s := { s with lay := { s.lay with running := some l, fromSlot := if src = 1 then some 0 else if src = 2 then some 1 else none } }
  let s := ((s.wr F.LAY_ACTIVE_serial l.serial).wr F.LAY_SOURCE_src src).wr F.LAY_SOURCE_rollback_level l.rollback
  let s := s.applyInsts
  let s := ((s.assignTier 0 boot).assignTier 1 boot).showFree
  let s := s.applyParts.showPool
  let s := ({ s with routes := l.routes }).wr F.HOP_ROUTE_STATUS_entries l.routes.length
  let s := s.applyPower l
  l.overrides.foldl State.applyOverride ((s.applyPorts old l).applyHosts old l)

/-- A checked slice replaces its partition's shares and recipes (R53, R54). One without a Recipes section leaves the partition no recipe of its own:
DESIGN CHOICE (log entry 33). -/
def State.applySlice (s : State) (p : Nat) (q : PoolShare) (rs : List Recipe) : State :=
  let lay := s.lay.running.map fun l => { l with pools := Tbl.set l.pools p q, recipes := Tbl.set l.recipes p rs }
  let s := { s with lay := { s.lay with running := lay } }
  let s := ((s.wr F.TAL_PTN_POOL_share q.poolShare p).resizeTier p 0 q.hbmShare).resizeTier p 1 q.ddrShare
  s.showFree.showPool

/-! ### Commands (R51-R58) -/

/-- Codes of LAY_CMD (R59). -/
abbrev layFull : Nat := 1
abbrev laySlice : Nat := 2
abbrev layProgA : Nat := 3
abbrev layProgB : Nat := 4
abbrev layFloor : Nat := 5
abbrev layAbort : Nat := 6

/-- A layout command ends, with its record (R50, R59). -/
def State.layResult (s : State) (op reason : Nat) : State :=
  let s := (((s.wr F.LAY_STATUS_busy 0).wr F.LAY_STATUS_done (b2n (reason == 0))).wr F.LAY_STATUS_rejected (b2n (reason != 0))).wr
    F.LAY_STATUS_reason reason
  let s := ((s.wr F.LAY_STATUS_last_op op).wr F.LAY_PROGRESS_phase 0).wr F.LAY_PROGRESS_permille (if reason = 0 then 1000 else s.rd F.LAY_PROGRESS_permille)
  if reason = 0 then s.logDone .LAY op 0 else s.logRefused .LAY reason op

/-- A refusal that leaves the running command as it is (R55): `rejected` and reason 0x0F show until that one ends; the rest of LAY_STATUS stays the
running command's (R58; DESIGN CHOICE, log entry 70). -/
def State.layBusy (s : State) (op : Nat) : State :=
  ((s.wr F.LAY_STATUS_rejected 1).wr F.LAY_STATUS_reason 0x0F).logRefused .LAY 0x0F op

/-- `n` bytes of the staging buffer. -/
def State.stagedBytes (s : State) (n : Nat) : List Byte := (List.range n).map fun k => Tbl.getD s.lay.staging k 0

/-- The staged image: as many bytes as its header gives, at least the header region. -/
def State.stagedImage (s : State) : List Byte := s.stagedBytes (max 4096 (min 67108864 (fieldLE (s.stagedBytes 16) 12 4)))

/-- The milliseconds in thousandths by which each phase of a command on LAY_CMD has ended, and the whole: those of R52's table, for a slice shortened
to R53's 20 ms, with the flash program of R56 to its 60 s. DESIGN CHOICE (log entry 53): the spec's typical times are taken as they stand. -/
def layTimes (op : Nat) : List Nat × Nat :=
  if op = laySlice then ([40, 160, 13600, 16400, 19600], 20000)
  else if op = layProgA ∨ op = layProgB then ([100, 400, 34000, 41000, 41000], 60000000)
  else ([100, 400, 34000, 41000, 49000], 50000)

/-- The phase of the running command (R52, R59): 1 header, 2 signature, 3 digests, 4 contents, 5 apply, 6 flash program; 0 with none. -/
def State.layPhase (s : State) : Nat :=
  let op := s.rd F.LAY_STATUS_last_op
  let past := ((layTimes op).1.take 4).filter fun t => decide (s.lay.since + t * us < s.now)
  if s.rd F.LAY_STATUS_busy = 0 then 0
  else if past.length = 4 ∧ (op = layProgA ∨ op = layProgB) then 6
  else 1 + past.length

/-- The thousandths of the running command's time that have passed, short of its end (R481); of the last command without one. -/
def State.layPermille (s : State) : Nat :=
  if s.rd F.LAY_STATUS_busy = 0 then s.rd F.LAY_PROGRESS_permille
  else min 999 ((s.now - s.lay.since) * 1000 / ((layTimes (s.rd F.LAY_STATUS_last_op)).2 * us))

/-- A command starts: `busy`, phase 1 (R52). -/
def State.layStart (s0 : State) (op : Nat) : State :=
  let s : State := { s0 with lay := { s0.lay with since := s0.now } }
  ((((s.wr F.LAY_STATUS_busy 1).wr F.LAY_STATUS_done 0).wr F.LAY_STATUS_rejected 0).wr F.LAY_STATUS_last_op op).wr F.LAY_PROGRESS_phase 1 |>.wr
    F.LAY_PROGRESS_permille 0

/-- LAY_CMD while a firmware program runs is refused (R508), and a command other than ABORT while one runs (R55). -/
def State.layGate (s : State) (op : Nat) (f : State → State) : State :=
  if s.rd F.MGT_FW_STATUS_busy = 1 then s.refuseWrite .LAY 0
  else if s.rd F.LAY_STATUS_busy = 1 then s.layBusy op
  else f s

/-- LOAD_FULL (R52). -/
def State.loadFull (s : State) : State :=
  s.layGate layFull fun s =>
    if (List.range 64).any fun p => s.enabled p && s.rd F.PTN_PART_state p != ptnQuiesced then (s.layResult layFull 0x0E).emit (.cmdStatus Status.quiesceRequired)
    else s.layStart layFull

/-- LOAD_FULL. -/
def execLoadFull (s : State) : Host.Outcome State Fault Refusal := act s (asManager false State.loadFull)

/-- The partition that a staged slice with a sound header names. -/
def State.stagedSlice (s : State) : Option Nat :=
  match checkHdr s.stagedImage 67108864 (s.lay.running.map (·.serial)) with
  | .ok h => if h.isSlice then some h.slicePart else none
  | .error _ => none

/-- LOAD_SLICE (R53): refused at once where the partition it names is not quiesced; while it runs the partition stays fenced (R54). -/
def State.loadSlice (s : State) : State :=
  s.layGate laySlice fun s =>
    match s.stagedSlice with
    | some p =>
      if s.rd F.PTN_PART_state p ≠ ptnQuiesced then (s.layResult laySlice 0x0E).emit (.cmdStatus Status.quiesceRequired)
      else State.layStart { s with lay := { s.lay with slicePart := some p } } laySlice
    | none => s.layStart laySlice

/-- LOAD_SLICE. -/
def execLoadSlice (s : State) : Host.Outcome State Fault Refusal := act s (asManager false State.loadSlice)

/-- PROGRAM_A and PROGRAM_B: not the slot the running image came from (R56). -/
def State.layProgram (s : State) (slot : Nat) : State :=
  let op := layProgA + slot
  s.layGate op fun s => if s.lay.fromSlot = some slot then s.layResult op 9 else s.layStart op

/-- PROGRAM_A. -/
def execProgramA (s : State) : Host.Outcome State Fault Refusal := act s (asManager false fun s => s.layProgram 0)

/-- PROGRAM_B. -/
def execProgramB (s : State) : Host.Outcome State Fault Refusal := act s (asManager false fun s => s.layProgram 1)

/-- RAISE_FLOOR: the fused floor becomes the running image's level, and never falls (R57). In a bare start, where no image runs, it succeeds and the
floor stays: DESIGN CHOICE (log entry 54). -/
def State.raiseFloor (s : State) : State :=
  s.layGate layFloor fun s =>
    let floor := s.rd F.LAY_SOURCE_floor
    if floor = 255 then s.layResult layFloor 9
    else
      let level := (s.lay.running.map (·.rollback)).getD 0
      (s.wr F.LAY_SOURCE_floor (max floor level)).layResult layFloor 0

/-- RAISE_FLOOR. -/
def execRaiseFloor (s : State) : Host.Outcome State Fault Refusal := act s (asManager false State.raiseFloor)

/-- A slice load has ended: resets held for its partition are carried out (R54). -/
def State.sliceEnds (s : State) : State :=
  if s.lay.slicePart.isSome then (State.runHeldResets { s with lay := { s.lay with slicePart := none } }) else s

/-- A full load's checks end: rejected, or the image to apply (R49, R50). -/
def State.finishFull (s : State) : State :=
  match s.checkFull s.stagedImage 67108864 with
  | .error r => s.layResult layFull r
  | .ok l => (s.applyFull l 3 false).layResult layFull 0

/-- A slice load's checks end. -/
def State.finishSlice (s : State) : State :=
  match s.checkSlice s.stagedImage 67108864 with
  | .error r =>
    let t := (s.layResult laySlice r).sliceEnds
    if r = 0x0E then t.emit (.cmdStatus Status.quiesceRequired) else t
  | .ok (p, q, rs) => ((s.applySlice p q rs).layResult laySlice 0).sliceEnds

/-- The running command stops with reason 0x10 (R55): a load applies nothing, a program leaves its slot invalid. A load in phase 5 ends with its own
outcome first. -/
def State.layStop (s : State) : State :=
  if s.rd F.LAY_STATUS_busy = 0 then s
  else
    let op := s.rd F.LAY_STATUS_last_op
    if s.layPhase = 5 then (if op = laySlice then s.finishSlice else s.finishFull) else
    let s := if op = layProgA ∨ op = layProgB then { s with lay := { s.lay with slots := Tbl.erase s.lay.slots (op - layProgA) } } else s
    (s.layResult op 0x10).sliceEnds

/-- ABORT (R55): with nothing to stop it only sets `done`. -/
def State.layAbortCmd (s : State) : State :=
  if s.rd F.MGT_FW_STATUS_busy = 1 then s.refuseWrite .LAY 0
  else if s.rd F.LAY_STATUS_busy = 1 then s.layStop
  else s.wr F.LAY_STATUS_done 1

/-- ABORT. -/
def execAbort (s : State) : Host.Outcome State Fault Refusal := act s (asManager false State.layAbortCmd)

/-- A program's checks end, and where they pass the write to the slot, with its verify-read (R56). -/
def State.finishProgram (s : State) (slot : Nat) (flashOk : Bool) : State :=
  let img := s.stagedImage
  let op := layProgA + slot
  match s.checkFull img 67108864 with
  | .error r => s.layResult op r
  | .ok _ =>
    if flashOk then (State.layResult { s with lay := { s.lay with slots := Tbl.set s.lay.slots slot img } } op 0)
    else State.layResult { s with lay := { s.lay with slots := Tbl.erase s.lay.slots slot } } op 0x11

/-! ### Start-up (R48) -/

/-- The image of a slot as start-up checks it: rejections are logged (R50). A slot without one is erased, and reads ones (R34). Where both slots are
rejected LAY_STATUS keeps the reason of slot B, the one checked last, and `last_op` stays 0 (DESIGN CHOICE, log entry 70). -/
def State.slotImage (s : State) (slot : Nat) : Option Layout × State :=
  match s.checkFull (Tbl.getD s.lay.slots slot (List.replicate 4096 0xFF)) 67108864 with
  | .ok l => (some l, s)
  | .error r => (none, ((s.wr F.LAY_STATUS_rejected 1).wr F.LAY_STATUS_reason r).logRefused .LAY r slot)

/-- The layout that a start applies (R48): the valid image of the higher serial, slot A on a tie; none starts bare. -/
def State.startLayout (s : State) (boot : Bool) : State :=
  let (a, s) := s.slotImage 0
  let (b, s) := s.slotImage 1
  match a, b with
  | some x, some y => if x.serial < y.serial then s.applyFull y 2 boot else s.applyFull x 1 boot
  | some x, none => s.applyFull x 1 boot
  | none, some y => s.applyFull y 2 boot
  | none, none => (s.setLink 0 1).wr F.MGT_BOOT_mode 1

end Sys2Proof.Machine
end

