-- ==== Sys2Proof/Machine/Tray.lean ====
section
/-!
DEFINITION. The tray bus (21_boot_and_management.md, R503-R507): transmission and collisions, STATUS, ANNOUNCE and RETIRED messages, QUERY, and
the power-cycle request; the fault output (R523).
-/

namespace Sys2Proof.Machine

/-- FAULT_N is low while a tamper is latched (R413), the device is RETIRED (R464) or in RECOVERY (R493), has tripped (R531), waits for a power cycle
(R465) or has lost its crystal (R444). -/
def State.showFault (s : State) : State :=
  { s with pins := { s.pins with fault := s.rd F.TRU_TAMPER_STATE_latched != 0 || s.rd F.RST_STATUS_retired == 1 || s.rd F.MGT_BOOT_mode == 2
                                          || s.power == .tripped || s.mgt.cycle.isSome || s.rd F.PWR_STATUS_xtal_fail == 1 } }

/-! ### Transmission (R503, R504) -/

/-- The frame to send next: the oldest of the lowest queue number. -/
def State.trayNext (s : State) : State :=
  match (List.range 4).findSome? fun q => s.mgt.tray.find? fun f => f.queue == q with
  | none => { s with mgt := { s.mgt with sending := none, backoff := false } }
  | some f => { s with mgt := { s.mgt with sending := some f, backoff := false, tray := s.mgt.tray.filter fun g => g.seq != f.seq } }

/-- The frame in transmission leaves, unless it backs off (log entry 1: with the idle tick). -/
def State.traySend (s : State) : State :=
  match s.mgt.sending with
  | none => s
  | some f => if s.mgt.backoff then s
    else ((s.emit (.tray f.dst (s.rd F.MGT_MAC_mac) f.typ f.seq f.body)).bump F.MGT_TX_FRAMES).trayNext

/-- TRAY_COLLISION: counted; a back-off of a random length, or after 16 attempts the frame is discarded (R503). With PLCA none happens. -/
def State.trayCollision (s : State) : State :=
  match s.mgt.sending with
  | none => s
  | some f =>
    if s.mgt.backoff then s
    else
      let s := s.bump F.MGT_COLLISIONS
      if 16 ≤ f.tries + 1 then (s.bump F.MGT_EXCESS_COLL).trayNext
      else
        let (_, s) := s.drawBelow (2 ^ min (f.tries + 1) 10)
        { s with mgt := { s.mgt with sending := some { f with tries := f.tries + 1 }, backoff := true } }

/-- TRAY_COLLISION. -/
def execTrayCollision (s : State) : Host.Outcome State Fault Refusal := actOn0 s State.trayCollision

/-- MGT_BACKOFF_EXPIRY: the frame is tried again (R503). -/
def execMgtBackoffExpiry (s : State) : Host.Outcome State Fault Refusal :=
  actOn0 s fun s => { s with mgt := { s.mgt with backoff := false } }

/-! ### Messages (R505) -/

/-- The STATUS body. -/
def State.statusBody (s : State) : List Byte :=
  leBytes 2 0x9080 ++ leBytes 1 0xA0 ++ leBytes 1 (s.rd F.MGT_BOOT_mode) ++ leBytes 4 (s.rd F.HOP_DEV_dev_addr) ++ leBytes 1 (s.rd F.TRU_LC_state)
    ++ leBytes 1 (s.rd F.RST_LAST_cause) ++ leBytes 2 (s.rd F.PWR_STATUS_power_w)
    ++ leBytes 1 ((List.range 4).foldl (fun m k => max m (s.rd F.HBM_STACK_temp_c k)) 0)
    ++ leBytes 1 (b2n s.pins.fault + 2 * b2n s.mgt.session.isSome) ++ leBytes 2 0

/-- Broadcasts ANNOUNCE. -/
def State.announce (s : State) : State := s.trayPut 3 macAll 1 s.statusBody

/-- ANNOUNCE_TIMER. -/
def execAnnounceTimer (s : State) : Host.Outcome State Fault Refusal := actOn0 s State.announce

/-- Broadcasts RETIRED with the cause of the last reset. -/
def State.tellRetired (s : State) : State :=
  if s.rd F.RST_STATUS_retired = 1 then s.trayPut 0 macAll 4 (leBytes 1 (s.rd F.RST_LAST_cause)) else s

/-- RETIRED_MESSAGE_TIMER. -/
def execRetiredMessageTimer (s : State) : Host.Outcome State Fault Refusal := actOn0 s State.tellRetired

/-- A received frame that the MAC accepts and whose message has the length its format gives; any other is dropped and counted. -/
def State.trayIn (s : State) (f : TrayIn) (n : Nat) (k : State → State) : State :=
  let ok := f.fcsOk && decide (64 ≤ f.len) && decide (f.len ≤ s.rd F.MGT_CFG_max_frame) && (f.dst == s.rd F.MGT_MAC_mac || f.dst == macAll)
    && f.ethType == 0x88B5 && f.version == 1 && f.bodyLen == n && f.body.length == n
  if ok then k (s.bump F.MGT_RX_FRAMES) else s.bump F.MGT_RX_DROP

/-- QUERY: answered with STATUS; its source becomes `tc_mac`. -/
def State.query (s : State) (f : TrayIn) : State :=
  s.trayIn f 0 fun s => (s.wr F.MGT_TC_MAC_tc_mac f.src).trayPut 2 f.src 2 s.statusBody

/-- QUERY. -/
def execQuery (f : TrayIn) (s : State) : Host.Outcome State Fault Refusal := actOn0 s fun s => s.query f

/-! ### The power cycle (R465, R507) -/

/-- Sends a request and remembers its `seq`. -/
def State.askCycle (s : State) : State :=
  match s.mgt.cycle with
  | none => s
  | some c =>
    let q := s.mgt.traySeq
    State.trayPut { s with mgt := { s.mgt with cycle := some { c with seqs := c.seqs ++ [q] } } } 0 macAll 5 (leBytes 1 c.why)

/-- A power cycle is called for (R465, R507): the logbook is flushed, the fault output asserted, the device stays RETIRED. -/
def State.callCycle (s : State) (why : Nat) : State :=
  let s := s.drainLog
  let s := ({ s with mgt := { s.mgt with cycle := some ⟨why, s.now, [], false⟩ } }).wr F.RST_STATUS_retired 1
  s.showFault.askCycle

/-- POWER_CYCLE_REQ_TIMER: another request; TIMEOUT once 10 s have passed. -/
def State.cycleTimer (s : State) : State :=
  match s.mgt.cycle with
  | none => s
  | some c =>
    let s := if !c.late ∧ c.since + 10 * sec ≤ s.now then
        State.logEv { s with mgt := { s.mgt with cycle := some { c with late := true } } } .MGT .timeout 0 0
      else s
    s.askCycle

/-- POWER_CYCLE_REQ_TIMER. -/
def execPowerCycleReqTimer (s : State) : Host.Outcome State Fault Refusal := actOn0 s State.cycleTimer

/-- PC_ACK: one that names a request stops the repeats. -/
def State.pcAck (s : State) (f : TrayIn) : State :=
  s.trayIn f 2 fun s => match s.mgt.cycle with
    | none => s
    | some c => if c.seqs.contains (ofLE f.body) then { s with mgt := { s.mgt with cycle := none } } else s

/-- PC_ACK. -/
def execPcAck (f : TrayIn) (s : State) : Host.Outcome State Fault Refusal := actOn0 s fun s => s.pcAck f

end Sys2Proof.Machine
end

