-- ==== Sys2Proof/Machine/Start.lean ====
section
/-!
DEFINITION. Starting (R48, R405, R462-R464, R492-R495, R525-R527): the choice of the firmware, what a chip reset and a loss of power keep
(R461), RECOVERY and RETIRED, the crash dump (R466, R467). A start happens within the command that causes it; what its links and its zeroing do
afterwards are commands of their own (log entry 35).
-/

namespace Sys2Proof.Machine

/-! ### The firmware image (R405, R409, R492) -/

/-- The fields of a firmware header that are used after its checks (R405). -/
structure FwHdr where
  key : Nat
  rollback : Nat
  bodyLen : Nat
  serial : Nat
  deriving DecidableEq, Repr

/-- Whether the life-cycle state denies a firmware key (R409). -/
def fwKeyDenied (lc key : Nat) : Bool := decide (3 < key) || lc == lcScrapped || (key == 3 && lc != lcManufacture)

/-- The rows of R405 that need the header alone, in order, up to `serial`. -/
def State.fwHeader (s : State) (img : List Byte) : Except Nat FwHdr := do
  let key := fieldLE img 9 1
  let level := fieldLE img 10 1
  let n := fieldLE img 12 4
  need (fieldLE img 0 4 == 0x57464746) 1
  need (fieldLE img 4 2 == 1) 2
  need (fieldLE img 6 2 == 0x9080 && fieldLE img 8 1 == 0x0A) 3
  need (!fwKeyDenied (s.rd F.TRU_LC_state) key) 9
  need (!bitAt (s.rd F.TRU_BOOT_revoked) key) 8
  need (decide (s.rd F.TRU_BOOT_fw_floor ≤ level)) 6
  need (fieldLE img 11 1 == 0) 4
  need (decide (4096 ≤ n) && decide (n ≤ 33554432) && n % 4096 == 0) 4
  need (fieldLE img 16 4 != 0) 4
  return ⟨key, level, n, fieldLE img 16 4⟩

/-- Every check of R405, in row order. -/
def State.fwCheck (s : State) (img : List Byte) : Except Nat FwHdr := do
  let h ← s.fwHeader img
  need (img.length == 512 + h.bodyLen && Config.sha256 (img.drop 512) == slice img 20 32) 7
  need (Config.ecdsaVerify (Config.fusedKey h.key) (img.take 52) (slice img 52 64)) 5
  need (zeroBytes img 116 396) 4
  return h

/-- The bytes of a firmware slot; an erased one reads ones. -/
def State.fwSlot (s : State) (slot : Nat) : List Byte := Tbl.getD s.mgt.fw slot (List.replicate 512 0xFF)

/-- Whether a slot is marked `skip` (R492). -/
def State.fwSkip (s : State) (slot : Nat) : Bool := s.rd (if slot = 0 then F.MGT_BOOT_skip_a else F.MGT_BOOT_skip_b) == 1

/-- The order in which the slots are tried (R492): those whose header passes, the higher `serial` first, slot A on a tie, a skipped slot last; and the
state with the reason of a header that failed. A slot that a spare override has retired is none (R31). -/
def State.fwOrder (s : State) : List Nat × State :=
  let a := s.fwHeader (s.fwSlot 0)
  let b := s.fwHeader (s.fwSlot 1)
  let s := match a with
    | .error r => s.wr F.TRU_BOOT_fw_reason r
    | .ok _ => s
  let s := match b with
    | .error r => s.wr F.TRU_BOOT_fw_reason r
    | .ok _ => s
  let l := fwRank s a b
  (l.filter fun k => !s.built.retired.contains (10, k), s)
where
  fwRank (s : State) : Except Nat FwHdr → Except Nat FwHdr → List Nat
  | .ok x, .ok y =>
    let l := if x.serial < y.serial then [1, 0] else [0, 1]
    (l.filter fun k => !s.fwSkip k) ++ l.filter s.fwSkip
  | .ok _, .error _ => [0]
  | .error _, .ok _ => [1]
  | .error _, .error _ => []

/-- Tries slots in order; the first to pass runs, and TRU_BOOT records it and the last rejection (R492). -/
def State.tryFw (s : State) : List Nat → State
  | [] => s
  | k :: t =>
    match s.fwCheck (s.fwSlot k) with
    | .error r => (s.wr F.TRU_BOOT_fw_reason r).tryFw t
    | .ok h =>
      let s := { s with mgt := { s.mgt with fwRun := some k, fwHdr := (s.fwSlot k).take 512 } }
      (s.wr F.TRU_BOOT_fw_slot k).wr F.TRU_BOOT_fw_rollback h.rollback

/-- Chooses and verifies the firmware (R492). -/
def State.chooseFw (s : State) : State :=
  let s := State.wr { s with mgt := { s.mgt with fwRun := none, fwHdr := [] } } F.TRU_BOOT_fw_reason 0
  let (l, s) := s.fwOrder
  s.tryFw l

/-! ### What is kept (R461) -/

/-- The registers of domain 0 (R451, R469, R488, R489), with the tamper configuration and state (R412, R416). -/
def emberRegs : List Reg :=
  [.PWR_CFG, .PWR_STATUS, .PWR_DEV_CMD, .PWR_DEV_STATUS, .PWR_XING_MODE, .PWR_EVT_SEL, .PWR_EVT, .PWR_DOM, .PWR_KINDLE, .PWR_HELD_PRIV,
    .PWR_THROTTLE_US, .PWR_XTAL_FAIL, .PWR_MERGED, .RST_WD_FAST, .RST_WD_SLOW, .RST_CFG, .RST_CMD, .RST_STATUS, .RST_LAST, .RST_HIST,
    .RST_HANG_LAST, .RST_DUMP_STATUS, .RST_CTX_RESETS, .RST_ENGINE_RESETS, .RST_PTN_RESETS, .RST_CHIP_RESETS, .RST_HANGS, .RST_GUILTY,
    .RST_NOT_REPLAYED, .RST_RETIRED_UNITS, .RST_DUMP_NORESP, .LOG_CFG, .LOG_STATUS, .LOG_CURSOR, .LOG_CMD, .LOG_READ_STATUS, .LOG_WRITTEN,
    .LOG_REPEATS, .LOG_DROPPED, .LOG_TORN, .LOG_FLASH_ERR, .INJ_SEL, .INJ_CTL, .INJ_STATUS, .INJ_FIRED, .TRU_TAMPER_CFG, .TRU_TAMPER_STATE]

/-- The registers that show what fuses, training, retirement and spare mapping have made of the device (R31, R33, R353, R366, R404, R510): the
same at every start. -/
def builtRegs : List Reg :=
  [.TEL_SPARE, .TEL_KLN, .LRD_BANK, .LRD_SPARE_STATE, .HBM_CAP, .HBM_STACK, .DDR_CAP, .DDR_CH, .KLN_MOD_w00, .MGT_MAC]

/-- The listed copies of some registers. -/
def State.keepRegs (s : State) (l : List Reg) : Tbl Word := s.regs.filter fun q => l.any fun r => r.ctorIdx == q.1 % 512

/-- Copies fields of some register copies from an older state. -/
def State.copyFld (s old : State) (f : Fld) (n : Nat := 1) : State :=
  (List.range n).foldl (fun (s : State) i => if s.rd f i = old.rd f i then s else s.wr f (old.rd f i) i) s

/-- A unit's state as the next start finds it: one that was resetting is active again, but for a spare whose mapping ran, which is a spare again. -/
def State.copyUnits (s old : State) (res : Nat) (f : Fld) (n : Nat) : State :=
  let joins := fun (i : Nat) => old.rd (spareMapFields res).2.2 == 1 && old.rd (spareMapFields res).2.1 == i
  (List.range n).foldl (fun (s : State) i =>
    let v := if old.rd f i ≠ 3 then old.rd f i else if joins i then 1 else 0
    if s.rd f i = v then s else s.wr f v i) s

/-- What survives every start: fuses, floors, revocations, retirement and mapping of units (R31, R404). -/
def State.copyBuilt (s old : State) : State :=
  let s := (((s.copyFld old F.TRU_LC_state).copyFld old F.TRU_LC_returns).copyFld old F.TRU_BOOT_fw_floor).copyFld old F.TRU_BOOT_revoked
  let s := ((s.copyFld old F.LAY_SOURCE_floor).copyFld old F.PRT_PORT_STATE_retired 8).copyFld old F.PRT_PORT_STATE_spare_lane 8
  let s := s.copyFld old F.TAL_POOL_pool_max
  let s := (List.range 8).foldl (fun (s : State) m =>
    if s.rd F.KLN_MOD_state m = 1 then s.wr F.KLN_MOD_state 0 m else s) s
  (((s.copyUnits old 5 F.TAL_UNIT_STATE_state 34).copyUnits old 6 F.MIL_ENG_STATE_state 18).copyUnits old 7 F.CPH_CORE_STATE_state 18).assignEgress

/-- The resources whose spares a start maps in, so that the active count is the figure of R2 where enough healthy units are left (R31): network lanes,
units, the resources that are counted, and the larder's banks, cellar banks first. -/
def State.mapSpares (s : State) : State :=
  let s := [5, 6, 7].foldl (fun (s : State) res => match unitField res with
    | some f => s.mapUnits res f
    | none => s) s
  let s := [1, 8, 9].foldl State.mapCounted s.assignEgress
  let s := (List.range 8).foldl (fun (s : State) n =>
    match (List.range 8).find? fun lane => (s.rd F.PRT_PORT_STATE_retired n).testBit (s.serdesOf n lane) with
    | some lane => s.mapNetSpare n lane
    | none => s) s
  (List.range 256).foldl (fun (s : State) b =>
    if s.rd F.LRD_BANK_state b = 2 ∨ s.rd F.LRD_BANK_state b = 3 then
      (match (List.range 8).find? fun k => bitAt (s.rd F.LRD_SPARE_STATE_free) k && !s.built.defects.contains (4, 256 + k) with
      | some k => s.spareBank b k
      | none => s)
    else s) s

/-- The speeds that the device supports for a type of DIMM, in MT/s (R353). -/
def dimmSpeeds (mrdimm : Bool) : List Nat := if mrdimm then [8000, 8800] else [4800, 5600, 6400]

/-- DDR5 channels are trained (R353, R357): the lowest-numbered populated channel is the reference. A channel whose DIMM is unlike it, one that fails
training and one that left service after it was FENCED (R371) are excluded, each of which is logged; all others run at the highest of the device's
speeds that every one of their DIMMs supports. -/
def State.trainDdr (s : State) : State :=
  let at_ := fun (c : Nat) => (s.built.dimms[c]?).join
  match (List.range 8).findSome? at_ with
  | none => (List.range 8).foldl (fun (s : State) c => s.setReg .DDR_CH c 0) (s.wr F.DDR_CAP_gib 0)
  | some ref =>
    let like := fun (d : Dimm) => d.mrdimm == ref.mrdimm && d.gib == ref.gib && d.ranks == ref.ranks && d.org == ref.org
    let out := fun (c : Nat) => s.built.ddrOut.contains c || s.built.trainFails.contains (128 + c)
    let s := (List.range 8).foldl (fun (s : State) c =>
      match at_ c with
      | none => s.setReg .DDR_CH c 0
      | some d =>
        let s := (((s.wr F.DDR_CH_mrdimm (b2n d.mrdimm) c).wr F.DDR_CH_gib d.gib c).wr F.DDR_CH_ranks d.ranks c).wr F.DDR_CH_mts 0 c
        if like d && !out c then s.wr F.DDR_CH_state 1 c
        else (s.wr F.DDR_CH_state 2 c).logEv .DDR .stateChange 2 c c) s
    let on := (List.range 8).filter fun c => s.rd F.DDR_CH_state c == 1
    let mts := (((dimmSpeeds ref.mrdimm).filter fun v => on.all fun c => (at_ c).any fun d => d.speeds.contains v).foldl max 0)
    (on.foldl (fun (s : State) c => s.wr F.DDR_CH_mts mts c) s).wr F.DDR_CAP_gib (ref.gib * on.length)

/-- HBM4 channels are trained (R357): each failed lane is repaired, which is counted and logged once (R371), and a channel that still fails, or that
was FENCED, leaves service. -/
def State.trainHbm (s : State) : State :=
  (s.chansOf 0).foldl (fun (s : State) c =>
    if s.built.trainFails.contains c || s.tier.fenced.contains c then
      let s := s.wr F.HBM_STACK_in_service (clearBit (s.rd F.HBM_STACK_in_service (c / 32)) (c % 32)) (c / 32)
      (s.wr F.HBM_CAP_gib (s.rd F.HBM_CAP_gib - 2)).logEv .HBM .stateChange 2 c c
    else
      (List.range (Tbl.getD s.built.trainLanes c 0 - Tbl.getD s.tier.lanes c 0)).foldl (fun s _ => s.laneRepair c true) s) s

/-- Whether the dump area, and with it the layout staging buffer, lies in DDR5: in HBM4 with no DDR5 channel in service (R467, log entry 36). -/
def State.dumpInDdr (s : State) : Bool := (List.range 8).any fun c => s.rd F.DDR_CH_state c == 1

/-- Where the dump area lies: granule 0 of its tier (R467). -/
def State.dumpBase (s : State) : Nat := if s.dumpInDdr then ddrBase else hbmBase

/-- A whole tier is zeroed (R356) and given out anew, but for the dump area where `held` says that it lies there (R461). -/
def State.zeroTier (s : State) (t : Nat) (held : Bool) : State :=
  let lo := if held then 64 * 2 ^ 20 else 0
  let s := s.zeroRange (tierBase t + lo) (2 ^ 40 - lo)
  { s with
    lay := if held then { s.lay with staging := [] } else s.lay
    tier := { s.tier with
      granules := s.tier.granules.filter fun q => q.1 / 64 != t
      zeroing := s.tier.zeroing.filter fun z => z.1 / 4096 != t } }

/-- Trains both tiers (R357). Channels that were FENCED leave service (R371), and a tier whose channels in service have changed is zeroed, which is
logged (R356). -/
def State.trainTiers (s : State) : State :=
  let (hbm, ddr, inDdr) := (s.chansOf 0, s.chansOf 1, s.dumpInDdr)
  let gone := (s.tier.fenced.filter fun c => decide (128 ≤ c)).map (· - 128)
  let s := { s with built := { s.built with ddrOut := s.built.ddrOut ++ gone.filter fun c => !s.built.ddrOut.contains c } }
  let s := s.trainHbm.trainDdr
  let s := { s with tier := { s.tier with fenced := [] } }
  let s := if s.chansOf 0 = hbm then s else (s.zeroTier 0 !inDdr).logEv .HBM .stateChange 0 255
  if s.chansOf 1 = ddr then s else (s.zeroTier 1 inDdr).logEv .DDR .stateChange 0 255

/-- Rows of DDR5 with repeated uncorrectable errors are repaired at a start (R371); how many the rows of the poisoned words make is free. -/
def State.repairRows (s : State) : State :=
  let n := (s.tier.poison.filter fun w => tierOf w == 1).length
  if n = 0 then s
  else
    let (k, s) := s.drawBelow (n + 1)
    s.wr F.DDR_PPR k

/-- A firmware program that a reset interrupts leaves its slot invalid (R508), and a layout program its own (R56). -/
def State.cutPrograms (s : State) : State :=
  let s := match s.mgt.fwProg with
    | some (k, _) => { s with mgt := { s.mgt with fw := Tbl.erase s.mgt.fw k } }
    | none => s
  let op := s.rd F.LAY_STATUS_last_op
  if s.rd F.LAY_STATUS_busy = 1 ∧ (op = layProgA ∨ op = layProgB) then
    { s with lay := { s.lay with slots := Tbl.erase s.lay.slots (op - layProgA) } }
  else s

/-- The device with domains 1 to 95 reset (R461): HBM4 and DDR5, the flashes, domain 0 and what is built in are kept. -/
def State.stripChip (s0 : State) : State :=
  let s := s0.cutPrograms
  let r := State.reset
  let k : State := { r with
    pending := s.pending
    fresh := s.fresh
    outbox := s.outbox
    ticks := s.ticks
    now := s.now
    power := s.power
    regs := s.keepRegs (emberRegs ++ builtRegs)
    lay := { r.lay with staging := s.lay.staging, slots := s.lay.slots }
    built := s.built
    mem := s.mem.filter fun c => decide (c.1 < larderBase)
    tier := { r.tier with
      poison := s.tier.poison.filter fun w => decide (w < larderBase)
      flaws := s.tier.flaws.filter fun q => decide (q.1 < larderBase)
      granules := s.tier.granules
      zeroing := s.tier.zeroing
      lanes := s.tier.lanes
      fenced := s.tier.fenced
      retiring := s.tier.retiring }
    nextOp := s.nextOp
    pwr := { r.pwr with gate := s.pwr.gate }
    tru := { r.tru with fusedPolarity := s.tru.fusedPolarity }
    pins := s.pins
    rst := { s.rst with replays := [], booting := false }
    log := s.log
    mgt := { r.mgt with fw := s.mgt.fw, cycle := s.mgt.cycle, traySeq := s.mgt.traySeq } }
  let k := ((k.copyBuilt s).copyFld s F.MGT_BOOT_skip_a).copyFld s F.MGT_BOOT_skip_b
  let k := (List.range 96).foldl (fun (k : State) d => k.wr F.PWR_DOM_state 0 d) k
  let k := ((k.wr F.PWR_STATUS_dev_state 0).wr F.PWR_DEV_STATUS_busy 0).wr F.RST_STATUS_busy 0
  let k := (k.disarm).wr F.PWR_STATUS_pll_lock 15
  let k := k.repairRows
  if s.rd F.LRD_CELLAR_state ≠ 0 then k.wipeCellar else k

/-- The device after a loss of power, or of reset (R461, R525): the flashes, the fuses and what is built in are kept. -/
def State.stripPower (s0 : State) : State :=
  let s := s0.cutPrograms
  let r := State.reset
  let l := s.log
  let torn := (match l.page with
    | some p => (List.range 8).foldl (fun (t : Tbl FlashSlot) (k : Nat) => Tbl.set t (p.slot + k) FlashSlot.torn) l.flash
    | none => l.flash)
  let next := (match l.page with
    | some p => nextGood l.bad 959 ((p.slot + 8) % logSlots)
    | none => l.nextSlot)
  let k : State := { r with
    pending := s.pending
    fresh := s.fresh
    outbox := s.outbox
    now := s.now
    power := s.power
    regs := s.keepRegs builtRegs
    lay := { r.lay with slots := s.lay.slots }
    built := s.built
    tier := { r.tier with lanes := s.tier.lanes, fenced := s.tier.fenced, retiring := s.tier.retiring }
    nextOp := s.nextOp
    tru := { r.tru with fusedPolarity := s.tru.fusedPolarity }
    rst := { r.rst with dead := s.rst.dead, coresGone := s.rst.coresGone }
    log := { l with staged := [], isOpen := false, lost := 0, page := none, flash := torn, nextSlot := next, window := [], run := none }
    mgt := { r.mgt with fw := s.mgt.fw } }
  let k := (k.copyBuilt s).copyFld s F.TRU_TAMPER_STATE_count
  let k := k.wr F.TRU_TAMPER_CFG_polarity (s.tru.fusedPolarity.getD 0)
  let k := ((k.wr F.LOG_STATUS_stopped (s.rd F.LOG_STATUS_stopped)).wr F.LOG_STATUS_newest ((next + logSlots - 1) % logSlots)).showLog
  let k := k.wr F.PWR_STATUS_pll_lock 15
  if s.rd F.LRD_CELLAR_state ≠ 0 then k.wipeCellar else k

/-! ### Starts -/

/-- The boot count rises, before any record of the start (R472). -/
def State.countBoot (s : State) : State :=
  let n := (s.log.bootCount.getD 0 + 1) % 2 ^ 32
  ({ s with log := { s.log with bootCount := some n } }).wr F.RST_LAST_boot_count n

/-- From the choice of the firmware on (R462 events 5-8, R494 events 5-10): with no firmware RECOVERY (R493); else the layout of R48, in RETIRED with
no partition. Spares are mapped in before the layout and again after its overrides, so that the active counts are R2's where enough healthy units are
left (R31). `power` marks a start from power-on, where granules are zeroed first (R495). -/
def State.startUp (s : State) (power : Bool) : State :=
  let s := (s.trainTiers.mapSpares).chooseFw
  let s := if s.mgt.fwRun.isNone then ((s.wr F.MGT_BOOT_mode 2).setLink 0 1)
    else
      let s := (s.startLayout power).mapSpares
      let s := if s.rd F.RST_STATUS_retired = 1 then s.wr F.MGT_BOOT_mode 3 else s
      { s with rst := { s.rst with booting := true } }
  s.showFault.announce.tellRetired

/-- Whether a chip reset now is the fourth within 60 s (R464): of the history after it has been entered. -/
def State.tooMany (s : State) : Bool := s.rd F.RST_HIST_tick 3 != 0 && decide (s.ticks ≤ s.rd F.RST_HIST_tick 3 + 60 * tickSecond)

/-- Enters the present tick count into RST_HIST, newest first (R464). -/
def State.pushHist (s : State) : State :=
  let h (n : Nat) := s.rd F.RST_HIST_tick n
  (((s.wr F.RST_HIST_tick (h 2) 3).wr F.RST_HIST_tick (h 1) 2).wr F.RST_HIST_tick (h 0) 1).wr F.RST_HIST_tick s.ticks 0

/-! ### The crash dump (R466, R467) -/

/-- What a domain is dumped as: the kinds and indices of its unit records. -/
def dumpUnits (d : Nat) : List (Nat × Nat) :=
  if 19 ≤ d ∧ d ≤ 22 then [(5, d - 19)]
  else if d = 44 then [(6, 0)]
  else if 46 ≤ d ∧ d ≤ 49 then [(4, d - 46)]
  else if 73 ≤ d ∧ d ≤ 76 then ((List.range 34).filter fun i => Blk.domain .TAL i == d).map fun i => (1, i)
  else if d = 77 then [(6, 1)]
  else if 78 ≤ d ∧ d ≤ 81 then ((List.range 18).filter fun i => Blk.domain .MIL i == d).map fun i => (2, i)
  else if d = 82 ∨ d = 83 then ((List.range 18).filter fun i => Blk.domain .CPH i == d).map fun i => (3, i)
  else if d = 85 then [(6, 2)]
  else [(0, d)]

/-- The domain of a unit of a dump. -/
def dumpDomain (kind index : Nat) : Nat := ((List.range 96).find? fun d => (dumpUnits d).contains (kind, index)).getD 0

/-- The word of CPH_SLOT_INFO for a slot (R400, R415). -/
def KeySlot.info (k : KeySlot) : Nat :=
  (match k.state with | .loaded => 1 | .retired => 2 | .wiping => 3) + 4 * b2n k.decrypt + 8 * b2n k.low + 16 * k.vf + 2 ^ 14 * k.ctrLog2
    + 2 ^ 21 * b2n k.devSalt + 2 ^ 32 * k.salt

/-- The shadows dumped for the privileged domains (R466): the cellar's state, the key-slot shadow, the fuse shadow; never key material. -/
def State.shadowOf (s : State) (d : Nat) : List Byte :=
  if d = 66 then leBytes 8 (s.reg .LRD_CELLAR 0).toNat
  else if d = 84 then s.slots.flatMap fun q => leBytes 8 q.1 ++ leBytes 8 q.2.info
  else leBytes 8 (s.reg .TRU_LC 0).toNat ++ leBytes 8 (s.reg .TRU_BOOT 0).toNat

/-- The record of a unit: read live, or by retention scan; EMPTY in COLD; the shadow of a privileged domain (R466). -/
def State.dumpOne (s : State) (n d kind index : Nat) : DumpUnit :=
  let u := kind * 256 + index
  if privileged d then ⟨kind, index, 2, d, s.ticks, s.shadowOf d⟩
  else if s.rd F.PWR_DOM_state d = 4 then ⟨kind, index, 4, d, s.ticks, []⟩
  else ⟨kind, index, 0, d, s.ticks, (List.range (8 * (Config.debugLen (n * 4096 + u) % 1024))).map fun k => Config.debugByte (n * 4096 + u) k⟩

/-- The bytes of a unit record. -/
def DumpUnit.bytes (u : DumpUnit) : List Byte :=
  leBytes 1 u.kind ++ leBytes 1 u.index ++ leBytes 1 u.status ++ leBytes 1 u.domain ++ leBytes 4 u.data.length ++ leBytes 8 u.tick ++ u.data

/-- The header of a dump over the bytes that follow it. -/
def DumpRun.header (r : DumpRun) (rest : List Byte) : List Byte :=
  leBytes 4 0x504D4452 ++ leBytes 2 1 ++ leBytes 1 r.trigger ++ leBytes 1 r.cause ++ leBytes 4 r.boot ++ leBytes 8 r.tick
    ++ leBytes 4 r.units.length ++ leBytes 4 (64 + rest.length) ++ leBytes 4 (crc32c rest) ++ List.replicate 32 0

/-- Writes a dump into the dump area and its summary into the logbook: the header and the units that failed. -/
def State.putDump (s : State) (r : DumpRun) : State :=
  let rest := r.units.flatMap DumpUnit.bytes
  let h := r.header rest
  let sum := padTo 4096 ((h ++ (r.units.filter fun u => u.status == 1 || u.status == 3).flatMap DumpUnit.bytes).take 4096)
  let s := s.zeroRange s.dumpBase (64 * 2 ^ 20)
  let s := { s with rst := { s.rst with dump := some r },
                    log := { s.log with summaries := Tbl.set s.log.summaries r.slot sum } }
  (s.memWrite s.dumpBase (h ++ rest)).wr F.RST_DUMP_STATUS_valid 1

/-- Takes a crash dump of some units: trigger 0 chip reset, 1 engine reset, 2 RST_CMD DUMP. With the area `held` it is discarded and logged. -/
def State.takeDump (s : State) (trigger cause : Nat) (units : List (Nat × Nat)) : State :=
  if s.rd F.RST_DUMP_STATUS_held = 1 then s.logRefused .RST 4 trigger
  else
    let us := units.map fun q => s.dumpOne s.fresh (dumpDomain q.1 q.2) q.1 q.2
    let slot := s.log.nextSummary
    let r : DumpRun := ⟨trigger, cause, s.rd F.RST_LAST_boot_count, s.ticks, s.now, us, slot⟩
    let s := { s with fresh := s.fresh + 1, log := { s.log with nextSummary := (slot + 1) % 1024 } }
    (s.putDump r).logEv .RST .dumpSummary trigger slot

/-- Every unit, in domain order. -/
def allDumpUnits : List (Nat × Nat) := (List.range 95).flatMap fun k => dumpUnits (k + 1)

/-- DUMP_UNIT_TIMEOUT: a unit of the dump that is being taken has not answered; the dump takes at most 60 ms (R466). -/
def State.dumpTimeout (s : State) (kind index : Nat) : State :=
  match s.rst.dump with
  | none => s
  | some r =>
    if r.since + 60 * ms < s.now then s
    else match r.units.find? fun u => u.kind == kind && u.index == index && u.status == 0 with
    | none => s
    | some u =>
      let us := r.units.map fun v => if v = u then { v with status := 1, data := [] } else v
      (s.putDump { r with units := us }).bump F.RST_DUMP_NORESP

/-- DUMP_UNIT_TIMEOUT. -/
def execDumpUnitTimeout (kind index : Nat) (s : State) : Host.Outcome State Fault Refusal :=
  actOn (allDumpUnits.contains (kind, index)) s fun s => s.dumpTimeout kind index

/-! ### Chip resets and power (R460-R465, R494, R525-R527) -/

/-- A chip reset (R462): counted and entered into RST_HIST; dumped; everything but what R461 keeps is reset; a fourth within 60 s, or one of a
RETIRED device, starts into RETIRED (R464). -/
def State.chipReset (s : State) (cause : Nat) : State :=
  let s := s.darkPorts
  let s := if s.rd F.RST_CFG_dump_chip = 1 then s.takeDump 0 cause allDumpUnits else s
  let s := (s.bump F.RST_CHIP_RESETS).pushHist
  let s := if s.tooMany then s.wr F.RST_STATUS_retired 1 else s
  let s := (s.stripChip.wr F.RST_LAST_cause cause).countBoot
  (s.logEv .RST .reset cause 3).startUp false

/-- The device goes RETIRED to wait for a power cycle (R465, R507; log entry 37). -/
def State.powerCycle (s : State) (why : Nat) : State :=
  let s := s.darkPorts.callCycle why
  s.stripChip.startUp false

/-- A start from power-on (R494). -/
def State.powerOn (s : State) : State :=
  let s := { s with power := .run }
  (s.stripPower.countBoot).startUp true

/-- Ends a command of RST_CMD (R469). -/
def State.rstResult (s : State) (op reason : Nat) : State :=
  let s := ((s.wr F.RST_STATUS_done (b2n (reason == 0))).wr F.RST_STATUS_refused (b2n (reason != 0))).wr F.RST_STATUS_reason reason
  if reason = 0 then s.logDone .RST op 0 else s.logRefused .RST reason op

/-- A command while one is running is refused (R469). -/
def State.rstGate (s : State) (op : Nat) (f : State → State) : State := if s.rd F.RST_STATUS_busy = 1 then s.rstResult op 1 else f s

/-- CHIP_RESET: RST_CMD CHIP_RESET (R462). -/
def State.chipResetCmd (s : State) : State := s.rstGate 2 fun s => (s.chipReset 1).rstResult 2 0
def execChipReset (s : State) : Host.Outcome State Fault Refusal := act s (asManager true State.chipResetCmd)

/-- POWER_CYCLE: RST_CMD POWER_CYCLE (R465). -/
def State.powerCycleCmd (s : State) : State := s.rstGate 3 fun s => (s.powerCycle 0).rstResult 3 0
def execPowerCycle (s : State) : Host.Outcome State Fault Refusal := act s (asManager false State.powerCycleCmd)

/-- CLEAR_RETIRED (R464): the history is emptied, and the chip reset it takes is the first of the new one. -/
def State.clearRetired (s : State) : State :=
  s.rstGate 4 fun s =>
    if s.rd F.RST_STATUS_retired = 0 then s.rstResult 4 3
    else
      let s := (List.range 4).foldl (fun (s : State) n => s.wr F.RST_HIST_tick 0 n) (s.wr F.RST_STATUS_retired 0)
      (s.chipReset 1).rstResult 4 0

/-- CLEAR_RETIRED. -/
def execClearRetired (s : State) : Host.Outcome State Fault Refusal := act s (asManager false State.clearRetired)

/-- DUMP: RST_CMD DUMP (R466). -/
def State.dumpCmd (s : State) : State :=
  s.rstGate 5 fun s => if s.rd F.RST_DUMP_STATUS_held = 1 then s.rstResult 5 4 else (s.takeDump 2 0 allDumpUnits).rstResult 5 0

/-- DUMP. -/
def execDump (s : State) : Host.Outcome State Fault Refusal := act s (asManager false State.dumpCmd)

/-- FIRMWARE_READY: the boot watchdog stops (R463). -/
def execFirmwareReady (s : State) : Host.Outcome State Fault Refusal := act s fun s => { s with rst := { s.rst with booting := false } }

/-- BOOT_WATCHDOG_EXPIRY (R463, R465, R492): the slot whose firmware runs is marked `skip`; a chip reset of cause 6, or with three entries within 60 s a
request for a power cycle. -/
def State.bootExpired (s : State) : State :=
  if !s.rst.booting then s
  else
    let s := match s.mgt.fwRun with
      | some k => s.wr (if k = 0 then F.MGT_BOOT_skip_a else F.MGT_BOOT_skip_b) 1
      | none => s
    if s.rd F.RST_HIST_tick 2 ≠ 0 ∧ s.ticks ≤ s.rd F.RST_HIST_tick 2 + 60 * tickSecond then s.powerCycle 1 else s.chipReset 6

/-- BOOT_WATCHDOG_EXPIRY. -/
def execBootWatchdogExpiry (s : State) : Host.Outcome State Fault Refusal := act s State.bootExpired

/-- POWER_ON: RESET_N is released with the rails and the crystal stable (R494). -/
def execPowerOn (s : State) : Host.Outcome State Fault Refusal := .next (if s.power = .resetHeld then s.powerOn else s)

/-- FAULT_N is high-impedance while RESET_N is low (R523). -/
def State.faultOff (s : State) : State := { s with pins := { s.pins with fault := false } }

/-- RESET_N_ASSERT: the whole device is reset and held (R525). -/
def execResetNAssert (s : State) : Host.Outcome State Fault Refusal := .next (State.faultOff { s.stripPower with power := .resetHeld })

/-- RAIL_DEPARTURE (R527): a rail leaves tolerance; VDD_EMBER or VDDIO is a loss of power, after which the device waits for RESET_N to be released. -/
def execRailDeparture (core : Bool) (s : State) : Host.Outcome State Fault Refusal :=
  .next (State.faultOff { s.stripPower with power := if core || s.power == .resetHeld then .resetHeld else .railOut })

/-- RAIL_RESTORE: every rail has held for 1 ms with RESET_N high (R527). -/
def execRailRestore (s : State) : Host.Outcome State Fault Refusal := .next (if s.power = .railOut then s.powerOn else s)

/-- THERMAL_TRIP (R531): a fatal record, FAULT_N, and every domain but 0 and 92 stops; a wipe that runs completes first (R533). -/
def State.thermalTrip (s : State) : State :=
  let s := if s.tier.wipe.isSome then s.cellarWiped true else s
  let s := (List.range s.cph.wipes.length).foldl (fun (s : State) _ => s.wipeDone true) s
  let s := s.logRec (s.mkRec .PWR .stateChange 5 0 0 4 false)
  State.showFault { s with power := .tripped }

/-- THERMAL_TRIP. -/
def execThermalTrip (s : State) : Host.Outcome State Fault Refusal := act s State.thermalTrip

/-- CRYSTAL_FAIL (R444): the ember clock goes to the internal oscillator, and the device takes a chip reset. -/
def State.crystalFail (s : State) (inj : Bool) : State :=
  let s := ((s.wr F.PWR_STATUS_rc_clock 1).wr F.PWR_STATUS_xtal_fail 1).bump F.PWR_XTAL_FAIL
  let s := s.logRec (s.mkRec .PWR .stateChange 6 0 0 1 inj)
  s.showFault.chipReset 3

/-- CRYSTAL_FAIL: a crystal that has failed is used again only after a power cycle. -/
def execCrystalFail (s : State) : Host.Outcome State Fault Refusal :=
  act s fun s => if s.rd F.PWR_STATUS_rc_clock = 1 then s else s.crystalFail false

/-! ### The device ladder's ends (R441, R442) -/

/-- Every domain is LIT again, and logical ports with `admin` 1 train (R441, R290). -/
def State.relight (s : State) : State :=
  let s := (List.range 96).foldl (fun (s : State) d => s.wr F.PWR_DOM_state 0 d) { s with pwr := { s.pwr with held := [] } }
  let s := s.showDev.wr F.PWR_STATUS_pll_lock 15
  ((List.range 64).filter fun p => s.lportExists p && s.rd F.PRT_LP_admin p == 1 && s.rd F.PRT_LP_state p == lpDisabled).foldl
    (fun (s : State) p => s.setLp p lpTraining) s

/-- The device leaves device EMBER or COLD (R442): every domain LIT; from COLD everything is read from flash again. Ports and links train. -/
def State.wake (s : State) (cause : Nat) : State :=
  match s.pwr.asleep with
  | none => s
  | some st =>
    let s := if st = 4 then s.stripChip.startUp false else State.relight { s with pwr := { s.pwr with asleep := none } }
    s.wr F.PWR_DEV_STATUS_wake_cause cause

/-- DEVICE_ENTRY_DONE (R441): the domains have stepped; before COLD the logbook is programmed (R475). A WAKE pin held high ends it at once (R523). -/
def State.entryDone (s : State) : State :=
  match s.pwr.entry with
  | none => s
  | some st =>
    let s := if st = 4 then s.drainLog else s
    let s := (s.devEntered st).wr F.PWR_STATUS_pll_lock 0
    if s.pins.wake then s.wake 1 else s

/-- DEVICE_ENTRY_DONE. -/
def execDeviceEntryDone (s : State) : Host.Outcome State Fault Refusal := act s State.entryDone

/-- DEVICE_WAKE: the wake input (1) with its level, the timer (2), or a tamper (3). -/
def execDeviceWake (cause : Nat) (level : Bool) (s : State) : Host.Outcome State Fault Refusal :=
  act s fun s =>
    let s := if cause = 1 then { s with pins := { s.pins with wake := level } } else s
    if cause = 1 ∧ !level then s else s.wake cause

/-! ### Layout commands and partition resets that end (R52, R386) -/

/-- LAYOUT_COMMAND_DONE: the running command's checks, apply or flash program end. `ok` false: applying failed, or the flash did (R52, R56).
R52 gives the chip reset of cause 4 for a LOAD_FULL whose apply fails; the model takes it for a LOAD_SLICE too (DESIGN CHOICE, log entry 70). -/
def State.layoutDone (s : State) (ok : Bool) : State :=
  if s.rd F.LAY_STATUS_busy = 0 then s
  else
    let op := s.rd F.LAY_STATUS_last_op
    if op = layProgA ∨ op = layProgB then s.finishProgram (op - layProgA) ok
    else
      let good := (match (if op = layFull then (s.checkFull s.stagedImage 67108864).map fun _ => ()
                          else (s.checkSlice s.stagedImage 67108864).map fun _ => ()) with | .ok _ => true | .error _ => false)
      if good && !ok then s.chipReset 4
      else if op = layFull then (let s := s.finishFull; if s.klnModules.length < 4 then s.chipReset 2 else s)
      else s.finishSlice

/-- LAYOUT_COMMAND_DONE. -/
def execLayoutCommandDone (ok : Bool) (s : State) : Host.Outcome State Fault Refusal := act s fun s => s.layoutDone ok

/-- PTN_RESET_DONE (R386, R458): a reset that misses its bound becomes a chip reset of cause 5. -/
def execPtnResetDone (part : Nat) (ok : Bool) (s : State) : Host.Outcome State Fault Refusal :=
  actOn (decide (part < 64)) s fun s =>
    if (s.part part).resetting.isNone then s else if ok then s.ptnResetDone part else s.chipReset 5

end Sys2Proof.Machine
end

