-- ==== Sys2Proof/Machine/Firmware.lean ====
section
/-!
DEFINITION. Programming a firmware slot (R508).
-/

namespace Sys2Proof.Machine

/-- The operations of MGT_FW_CMD. -/
abbrev fwProgA : Nat := 1
abbrev fwProgB : Nat := 2

/-- Ends a firmware command: `done`, or `refused` with its reason; logged. -/
def State.fwResult (s : State) (op reason : Nat) : State :=
  let s := (s.wr F.MGT_FW_STATUS_done (b2n (reason == 0))).wr F.MGT_FW_STATUS_refused (b2n (reason != 0))
  let s := s.wr F.MGT_FW_STATUS_reason reason
  if reason = 0 then s.logDone .MGT op 0 else s.logRefused .MGT reason op

/-- The staged firmware image once its header passes: the header's length and the body's. -/
def State.stagedFw (s : State) : List Byte :=
  let h := s.stagedBytes 512
  match s.fwHeader h with
  | .ok w => s.stagedBytes (512 + w.bodyLen)
  | .error _ => h

/-- PROGRAM_A (slot 0) and PROGRAM_B (slot 1): the refusals of R508, else the write begins. -/
def State.fwProgram (s : State) (slot : Nat) : State :=
  let op := fwProgA + slot
  if s.mgt.fwProg.isSome then s.fwResult op 13
  else if s.rd F.LAY_STATUS_busy = 1 then s.fwResult op 11
  else if s.mgt.fwRun = some slot then s.fwResult op 10
  else
    let img := s.stagedFw
    match s.fwCheck img with
    | .error r => s.fwResult op r
    | .ok _ =>
      let s : State := { s with mgt := { s.mgt with fwProg := some (slot, img) } }
      let s := ((s.wr F.MGT_FW_STATUS_busy 1).wr F.MGT_FW_STATUS_done 0).wr F.MGT_FW_STATUS_refused 0
      (s.wr F.MGT_FW_STATUS_reason 0).wr F.MGT_FW_STATUS_permille 0

/-- FW_PROGRAM_A, FW_PROGRAM_B (R508). -/
def execFwProgramA (s : State) : Host.Outcome State Fault Refusal := act s (asManager true fun s => s.fwProgram 0)
def execFwProgramB (s : State) : Host.Outcome State Fault Refusal := act s (asManager true fun s => s.fwProgram 1)

/-- FW_PROGRAM_DONE (R508): the slot holds the image and is no longer skipped (R492), or is invalid and the reason is 12. -/
def State.fwProgrammed (s : State) (ok : Bool) : State :=
  match s.mgt.fwProg with
  | none => s
  | some (slot, img) =>
    let fw := if ok then Tbl.set s.mgt.fw slot img else Tbl.erase s.mgt.fw slot
    let s : State := { s with mgt := { s.mgt with fwProg := none, fw := fw } }
    let s := s.wr (if slot = 0 then F.MGT_BOOT_skip_a else F.MGT_BOOT_skip_b) 0
    ((s.wr F.MGT_FW_STATUS_busy 0).wr F.MGT_FW_STATUS_permille 1000).fwResult (fwProgA + slot) (if ok then 0 else 12)

def execFwProgramDone (ok : Bool) (s : State) : Host.Outcome State Fault Refusal := act s fun s => s.fwProgrammed ok

end Sys2Proof.Machine
end

