-- ==== Sys2Proof/Machine/Kilmet.lean ====
section
/-!
DEFINITION. The events of the Kilmet link (R19-R28): flits, NAKs, time-outs, credits, retraining and the retirement of a module.
-/

namespace Sys2Proof.Machine

/-! ### Flits and acknowledgements (R23-R25) -/

/-- KILMET_FLIT_RECEIVE (R23): the flit as it was sent and as it arrives. -/
def State.klnCross (s : State) (m d : Nat) (sent got : List Byte) (known : Bool) : State :=
  if !s.klnRuns m then s
  else match s.klnSend m d sent with
  | none => s
  | some s => s.klnReceive m d got known

/-- Whether a module and a direction exist. -/
def klnUnit (m d : Nat) : Bool := decide (m < 8) && decide (d < 2)

/-- KILMET_FLIT_RECEIVE. -/
def execKilmetFlitReceive (m d : Nat) (sent got : List Byte) (known : Bool) (s : State) : Host.Outcome State Fault Refusal :=
  actOn (klnUnit m d) s fun s => s.klnCross m d sent got known

/-- KILMET_NAK: the sender replays from the `fseq` it names (R23). -/
def execKilmetNak (m d fseq : Nat) (s : State) : Host.Outcome State Fault Refusal :=
  actOn (klnUnit m d) s fun s => if s.klnRuns m then s.klnReplay m d (fseq % 4096) else s

/-- KILMET_ACK_TIMEOUT: the sender replays from the oldest flit not acknowledged (R24). -/
def State.klnAckLate (s : State) (m d : Nat) : State :=
  match (s.klnDir m d).unacked with
  | [] => s
  | (f, _) :: _ => if s.klnRuns m then s.klnReplay m d f else s

def execKilmetAckTimeout (m d : Nat) (s : State) : Host.Outcome State Fault Refusal := actOn (klnUnit m d) s fun s => s.klnAckLate m d

/-- KILMET_ACK_TIMER: the receiver acknowledges (R24). -/
def execKilmetAckTimer (m d : Nat) (s : State) : Host.Outcome State Fault Refusal :=
  actOn (klnUnit m d) s fun s => if s.klnRuns m then s.klnAckNow m d else s

/-- KILMET_CREDIT (R25). -/
def execKilmetCredit (d ch count : Nat) (s : State) : Host.Outcome State Fault Refusal :=
  actOn (decide (d < 2) && decide (ch < 7)) s fun s => s.klnGrant d ch count

/-! ### Retraining and retirement (R27, R28) -/

/-- KILMET_RETRAIN. -/
def execKilmetRetrain (m : Nat) (s : State) : Host.Outcome State Fault Refusal := actOn (decide (m < 8)) s fun s => s.klnRetrain m

/-- Retires a module (R27): with fewer than 4 left, a chip reset. Every operation in flight records cause 8 (R273): the flits of each go over every module
(DEDUCED, log entry 73). -/
def State.klnRetire (s : State) (m : Nat) : State :=
  let s := s.ops.foldl (fun (s : State) q => s.recordCause q.1 8) (s.klnLeave m)
  if s.klnModules.length < 4 then s.chipReset 2 else s

/-- KILMET_RETRAIN_DONE (R27): the lanes mapped in, or a failure, the third of which within 1 s retires the module. -/
def State.klnTrained (s : State) (m : Nat) (ok : Bool) (g2h h2g : Nat) : State :=
  if s.rd F.KLN_MOD_state m ≠ 1 then s
  else
    let a := s.rd F.KLN_MOD_rep_g2h m + g2h
    let b := s.rd F.KLN_MOD_rep_h2g m + h2g
    if ok ∧ a ≤ 4 ∧ b ≤ 4 then
      let s := ((s.wr F.KLN_MOD_state 0 m).wr F.KLN_MOD_rep_g2h a m).wr F.KLN_MOD_rep_h2g b m
      (((s.klnRepairs m (g2h + h2g)).logEv .KLN .stateChange 0 m m).klnLanes.klnAckLate m 0).klnAckLate m 1
    else
      let t := ((Tbl.getD s.kln.fails m []).filter fun t => decide (s.now < t + sec)) ++ [s.now]
      let s : State := { s with kln := { s.kln with fails := Tbl.set s.kln.fails m t } }
      let s := s.wr F.KLN_MOD_fails_1s (min 3 t.length) m
      if 3 ≤ t.length then s.klnRetire m else s.bump F.KLN_MOD_retrains 1 m

def execKilmetRetrainDone (m : Nat) (ok : Bool) (g2h h2g : Nat) (s : State) : Host.Outcome State Fault Refusal :=
  actOn (decide (m < 8)) s fun s => s.klnTrained m ok g2h h2g

end Sys2Proof.Machine
end

