-- ==== Sys2Proof/Machine/Session.lean ====
section
/-!
DEFINITION. The manager role (R496-R501): challenges, proofs and their result codes, the session and its ends, the keys of a management
connection. The credential paths are numbered 0-7 for the management connections and 8 for path 2.
-/

namespace Sys2Proof.Machine

/-- The device's unique ID (R407). -/
def uniqueId : List Byte := Config.sha256 (Config.identity 1)

/-! ### Messages of a management connection (R501) -/

/-- Sends a management message: a SEND named by its `imm`. -/
def State.mgtSend (s : State) (k imm : Nat) (body : List Byte) : State :=
  let c := mgtConnBase + k
  match s.conn? c with
  | none => s
  | some _ => s.sendMsg c 7 (.send 0 imm) false body none

/-- Sends REG_RESP (R501, R502). -/
def State.regResp (s : State) (k seq status : Nat) (data : List Byte) : State :=
  s.mgtSend k 0x4D470012 (leBytes 4 seq ++ leBytes 1 status ++ leBytes 3 0 ++ data)

/-- Shows who holds the role (R510). -/
def State.showSession (s : State) : State :=
  let (holder, conn) := match s.mgt.session with
    | none => (0, 0)
    | some z => (match z.conn with
      | some k => (1, k)
      | none => (2, 0))
  let s := s.wr F.MGT_CRED_STATUS_granted (b2n (holder == 2))
  (s.wr F.MGT_CRED_STATUS_holder holder).wr F.MGT_CRED_STATUS_conn conn

/-! ### The end of a session (R499) -/

/-- Closes a management connection and wipes its two slots. An OPEN end sends CLOSE at once, before its key goes; an end in ERROR, which no
CONN_CLOSE can name (R500), is freed. -/
def State.closeMgt (s : State) (k : Nat) : State :=
  let c := mgtConnBase + k
  let s : State := { s with mgt := { s.mgt with granting := Tbl.erase s.mgt.granting k, challenges := Tbl.erase s.mgt.challenges k } }
  let s : State := match s.conn? c with
    | none => s
    | some e =>
      if e.state = .error then s.freeConn c none
      else if e.state = .open_ then
        (s.setConn c { e with state := .closing, closeSent := true }).queuePkts c [s.mkPkt e (.ctrl 4 0 1 0 0) 7 0 0 0 0 []] none
      else s
  if s.mslots.any fun q => q.1 / 2 == k && q.2.state != SlotState.wiping then s.startWipe (.mgt k) false false else s

/-- Ends the session (R499, R509): key words its path staged are cleared, early REG messages are answered with status 3; the connection of
path 1 is closed and its slots wiped. -/
def State.endSession (s : State) : State :=
  match s.mgt.session with
  | none => s
  | some z =>
    let path : Path := if z.conn.isSome then .conn else .pf0
    let s := if s.cph.claim = some path then s.clearStaged else s
    let s := State.showSession { s with mgt := { s.mgt with session := none } }
    match z.conn with
    | none => s
    | some k => (z.held.foldl (fun (s : State) q => s.regResp k q.1 3 []) s).closeMgt k

/-- What follows from changes to the management connections: the session ends when its connection leaves OPEN or advances its epoch (R499); an
end in ERROR is freed; slots and challenges of an ID that is FREE go. -/
def State.mgtSweep (s : State) : State :=
  let s : State := match s.mgt.session with
    | none => s
    | some z => (match z.conn with
      | none => s
      | some k => if (s.conn? (mgtConnBase + k)).any fun e => e.state == .open_ && e.epoch == z.epoch then s else s.endSession)
  (List.range 8).foldl (fun (s : State) k =>
    match s.conn? (mgtConnBase + k) with
    | some e => if e.state = .error then s.closeMgt k else s
    | none => if (Tbl.get? s.mgt.challenges k).isSome ∨ s.mslots.any (fun q => q.1 / 2 == k && q.2.state != .wiping) then s.closeMgt k else s) s

/-- A fence of link 0 of host port 0, or a function level reset of PF 0, ends a session of path 2 (R499). -/
def State.pf0Lost (s : State) : State := if s.pf0Holds then s.endSession else s

/-! ### Challenges and proofs (R496, R497) -/

/-- Draws 64-bit words from the hardware random source, as bytes. -/
def State.drawWords (s : State) : Nat → List Byte × State
  | 0 => ([], s)
  | n + 1 =>
    let (l, s) := s.drawWords n
    let (w, s) := s.draw
    (l ++ leBytes 8 w.toNat, s)

/-- Whether a path may be used (R496): a management connection from a listed source; path 2 under bit 0 of the manager-access flags, in bare
start and in RECOVERY. -/
def State.pathOpen (s : State) (path : Nat) : Bool :=
  if path = mgtPath2 then s.path2Open
  else (s.conn? (mgtConnBase + path)).any fun e => s.mgtPrefixes.any (inPrefix e.peerIp)

/-- Whether a key hash is accepted (R496). -/
def State.credListed (s : State) (key : List Byte) : Bool :=
  let h := Config.sha256 key
  Config.fusedCredHashes.contains h || s.lay.running.any fun l => l.access.hashes.contains h

/-- Whether a point lies on P-256: X then Y, each big-endian. -/
def onCurve (q : List Byte) : Bool :=
  let p := 2 ^ 256 - 2 ^ 224 + 2 ^ 192 + 2 ^ 96 - 1
  let b := 0x5ac635d8aa3a93e7b3ebbd55769886bc651d06b0cc53b0f63bce3c3e27d2604b
  let x := fieldBE q 0 32
  let y := fieldBE q 32 32
  decide (x < p) && decide (y < p) && (y * y + 3 * x) % p == (x * x * x + b) % p

/-- Tells a path its result code; one other than 0 is logged (R497). -/
def State.credResult (s : State) (path code : Nat) : State :=
  let s := if code = 0 then s else s.logRefused .MGT code path
  if path = mgtPath2 then s.wr F.MGT_CRED_STATUS_result code else s.mgtSend path 0x4D470004 (leBytes 1 code ++ leBytes 3 0)

/-- What stops a challenge or a proof before it is looked at: the path locked, not open, or the cellar or the random source failed. -/
def State.credStop (s : State) (path : Nat) : Nat :=
  if s.mgt.locked.contains path then 5
  else if !s.pathOpen path then 7
  else if s.rd F.LRD_CELLAR_state = 2 ∨ s.rd F.TRU_LC_rng_failed = 1 then 6
  else 0

/-- Issues a challenge on a path (R497); it voids the earlier one. -/
def State.challenge (s : State) (path : Nat) : State :=
  let r := s.credStop path
  if r ≠ 0 then s.credResult path r
  else
    let (nonce, s) := s.drawWords 4
    let (q, s) := if path = mgtPath2 then (List.replicate 64 0, s) else s.drawWords 8
    let (z, s) := if path = mgtPath2 then (0, s) else (let (z, s) := s.drawBelow (2 ^ 32 - 1); (z + 1, s))
    let body := nonce ++ q ++ padTo 32 (uniqueId.take 32) ++ leBytes 1 (if path = mgtPath2 then 2 else 1) ++ leBytes 3 0 ++ beBytes 4 z
      ++ List.replicate 56 0
    let b := body ++ padTo 64 ((Config.ecdsaSign body).take 64)
    let s : State := { s with mgt := { s.mgt with challenges := Tbl.set s.mgt.challenges path ⟨b, s.now⟩ } }
    if path = mgtPath2 then State.credResult { s with mgt := { s.mgt with chal := b } } path 0 else s.mgtSend path 0x4D470002 b

/-- The result code of a proof (R497), the challenge's bytes given. -/
def State.judgeProof (s : State) (path : Nat) (chal : Option Challenge) (proof : List Byte) : Nat :=
  let r := s.credStop path
  if r = 5 ∨ r = 7 then r
  else match chal with
  | none => 1
  | some h =>
    if h.since + 10 * sec ≤ s.now then 1
    else if r ≠ 0 then r
    else if !s.credListed (proof.take 64) then 2
    else if !Config.ecdsaVerify (proof.take 64) (h.bytes.take 192 ++ proof.take 192) (slice proof 192 64)
        ∨ (path ≠ mgtPath2 ∧ !onCurve (slice proof 64 64)) then 3
    else if s.mgt.session.isSome ∧ !bitAt (fieldLE proof 132 1) 0 then 4
    else 0

/-- A failure on a path: the third within 10 s locks it (R497). -/
def State.credFailed (s : State) (path : Nat) : State :=
  let t := ((Tbl.getD s.mgt.failures path []).filter fun t => decide (s.now < t + 10 * sec)) ++ [s.now]
  if 3 ≤ t.length then
    { s with mgt := { s.mgt with failures := Tbl.erase s.mgt.failures path, locked := path :: s.mgt.locked } }
  else { s with mgt := { s.mgt with failures := Tbl.set s.mgt.failures path t } }

/-- A management key slot (R498). -/
def mgtSlot (key : List Byte) (decrypt : Bool) (salt : Nat) : KeySlot :=
  { state := .loaded, key := key, decrypt := decrypt, salt := salt, devSalt := false, next := 0, ctrLog2 := 64, vf := 0, low := false, tagFail := 0 }

/-- Grants the role (R498, R499): the session in progress ends; on path 1 the connection's two slots are keyed and RESULT 0 goes out in the
clear. -/
def State.grant (s : State) (path : Nat) (chal proof : List Byte) : State :=
  let s := s.endSession
  if path = mgtPath2 then
    (State.showSession { s with mgt := { s.mgt with session := some ⟨none, 0, s.now, 0, []⟩ } }).credResult path 0
  else match s.conn? (mgtConnBase + path) with
  | none => s
  | some e =>
    let (up, down) := Config.deriveKeys chal proof
    let ms := Tbl.set s.mslots (2 * path) (mgtSlot up false (fieldBE chal 132 4))
    let ms := Tbl.set ms (2 * path + 1) (mgtSlot down true (fieldBE proof 128 4))
    let s : State := { s with
      mslots := ms
      mgt := { s.mgt with session := some ⟨some path, e.epoch, s.now, 0, []⟩, granting := Tbl.set s.mgt.granting path e.nextForm } }
    s.showSession.credResult path 0

/-- Judges a proof: a challenge serves one proof (R497). -/
def State.prove (s : State) (path : Nat) (proof : List Byte) : State :=
  let chal := Tbl.get? s.mgt.challenges path
  let code := s.judgeProof path chal proof
  let s : State := { s with mgt := { s.mgt with challenges := Tbl.erase s.mgt.challenges path } }
  match code, chal with
  | 0, some h => (s.grant path h.bytes proof).mgtSweep
  | _, _ => (if code = 5 then s else s.credFailed path).credResult path code

/-- RESULT 0 has been acknowledged: the connection advances to its encrypted epoch (R498). -/
def State.resultAcked (s : State) (k : Nat) : State :=
  match Tbl.get? s.mgt.granting k with
  | none => s
  | some _ =>
    let c := mgtConnBase + k
    let s : State := { s with mgt := { s.mgt with granting := Tbl.erase s.mgt.granting k } }
    let s := (s.advanceEpoch c).modConn c fun e => { e with enc := true }
    match s.mgt.session, s.conn? c with
    | some z, some e => if z.conn = some k then { s with mgt := { s.mgt with session := some { z with epoch := e.epoch } } } else s
    | _, _ => s

/-- After an ACK: every grant whose RESULT it covered. -/
def State.resultsAcked (s : State) : State :=
  s.mgt.granting.foldl (fun (s : State) q =>
    if (s.conn? (mgtConnBase + q.1)).any fun e => (Tbl.get? e.outMsgs q.2).isSome then s else s.resultAcked q.1) s

/-! ### The rows of MGT_CRED_CMD, of the messages and of the timers -/

/-- CREDENTIAL_CHALLENGE, CREDENTIAL_PROVE, CREDENTIAL_RELINQUISH: MGT_CRED_CMD on path 2 (R497, R499). -/
def execCredentialChallenge (s : State) : Host.Outcome State Fault Refusal := act s fun s => s.challenge mgtPath2
def execCredentialProve (s : State) : Host.Outcome State Fault Refusal :=
  act s fun s => s.prove mgtPath2 ((List.range 256).map fun i => Tbl.getD s.mgt.proof i 0)
def execCredentialRelinquish (s : State) : Host.Outcome State Fault Refusal := act s State.pf0Lost

/-- An OPEN management connection. -/
def State.mgtOpen (s : State) (k : Nat) : Bool := (s.conn? (mgtConnBase + k)).any fun e => e.state == .open_

/-- A management message of a wrong length: discarded, counted and logged (R483). -/
def State.mgtBadLen (s : State) (imm : Nat) : State := (s.bump F.MGT_MSG_DROP).logRefused .MGT 0 (imm % 2 ^ 16)

/-- A message on a management connection that does not hold the role: discarded and counted (R501). -/
def State.mgtDrop (s : State) : State := s.bump F.MGT_MSG_DROP

/-- CHALLENGE_REQ (R501). -/
def execChallengeReq (k : Nat) (s : State) : Host.Outcome State Fault Refusal :=
  actOn (decide (k < 8)) s fun s => if s.mgtOpen k then s.challenge k else s

/-- PROOF (R498, R501). -/
def State.proofMsg (s : State) (k : Nat) (body : List Byte) : State :=
  if !s.mgtOpen k then s else if body.length ≠ 256 then s.mgtBadLen 3 else s.prove k body

def execProof (k : Nat) (body : List Byte) (s : State) : Host.Outcome State Fault Refusal :=
  actOn (decide (k < 8)) s fun s => s.proofMsg k body

/-- RESULT_ACKNOWLEDGED (R498). -/
def execResultAcknowledged (k : Nat) (s : State) : Host.Outcome State Fault Refusal := actOn (decide (k < 8)) s fun s => s.resultAcked k

/-- RELINQUISH (R499). -/
def State.relinquish (s : State) (k : Nat) : State := if s.connHolds k then s.endSession else if s.mgtOpen k then s.mgtDrop else s

def execRelinquish (k : Nat) (s : State) : Host.Outcome State Fault Refusal := actOn (decide (k < 8)) s fun s => s.relinquish k

/-- SESSION_IDLE_TIMEOUT (R499); `idle_min` 0 turns it off. -/
def execSessionIdleTimeout (s : State) : Host.Outcome State Fault Refusal :=
  act s fun s => if s.rd F.MGT_CFG_idle_min = 0 then s else s.endSession

/-- CHALLENGE_EXPIRY and PATH_LOCK_EXPIRY (R497). -/
def execChallengeExpiry (path : Nat) (s : State) : Host.Outcome State Fault Refusal :=
  actOn (decide (path < 9)) s fun s => { s with mgt := { s.mgt with challenges := Tbl.erase s.mgt.challenges path } }
def execPathLockExpiry (path : Nat) (s : State) : Host.Outcome State Fault Refusal :=
  actOn (decide (path < 9)) s fun s => { s with mgt := { s.mgt with locked := s.mgt.locked.filter (· != path) } }

end Sys2Proof.Machine
end

