-- ==== Sys2Proof/Machine/Recover.lean ====
section
/-!
DEFINITION. Hangs and replays (R452-R458, R468), units retired in service (R457), re-sent blocks (R362), steward cores (R457), of
19_hangs_resets_recovery.md. What a unit does between two commands is not shown, so a replay repeats what the state holds of a context's work
in the unit: chunks, blocks, unacknowledged packets, storage commands (log entry 38).
-/

namespace Sys2Proof.Machine

/-! ### Units by kind (R452) -/

abbrev kTally : Nat := 0
abbrev kMill : Nat := 1
abbrev kCipher : Nat := 2
abbrev kWalker : Nat := 3
abbrev kDma : Nat := 4
abbrev kBxt : Nat := 5
abbrev kCkp : Nat := 6
abbrev kCmn : Nat := 7

/-- How many units a kind has. -/
def unitsOf (kind : Nat) : Nat := [34, 18, 18, 1, 4, 4, 1, 1].getD kind 0

/-- Kinds whose units have no other to take their work: never retired (R454, R457). -/
def soleKind (kind : Nat) : Bool := kind == kWalker || kind == kBxt || kind == kCkp || kind == kCmn

/-- The resource of R31 of a kind that has one. -/
def kindRes (kind : Nat) : Nat := 5 + kind

/-- The block that a kind's records name. -/
def kindBlk (kind : Nat) : Blk := [Blk.TAL, .MIL, .CPH, .XLT, .DMV, .BXT, .CKP, .CMN].getD kind .RST

/-- The kind and index under which a crash dump records a unit (R467). -/
def dumpKind (kind unit : Nat) : Nat × Nat := [(1, unit), (2, unit), (3, unit), (6, 0), (4, unit), (5, unit), (6, 2), (6, 1)].getD kind (0, 0)

/-- The key of a unit's histories. -/
def unitKey (kind unit : Nat) : Nat := kind * 64 + unit

/-- The replay of a unit, if one runs. -/
def State.replay? (s : State) (kind unit : Nat) : Option Replay := s.rst.replays.find? fun r => r.kind == kind && r.unit == unit

/-- Puts a replay back. -/
def State.setReplay (s : State) (r : Replay) : State :=
  { s with rst := { s.rst with replays := s.rst.replays.map fun q => if q.kind == r.kind && q.unit == r.unit then r else q } }

/-- Whether a unit is active. -/
def State.serving (s : State) (kind unit : Nat) : Bool :=
  decide (unit < unitsOf kind) && (s.replay? kind unit).isNone && (match kind with
    | 0 => s.rd F.TAL_UNIT_STATE_state unit == unitActive
    | 1 => s.rd F.MIL_ENG_STATE_state unit == unitActive
    | 2 => s.rd F.CPH_CORE_STATE_state unit == unitActive
    | 4 => !s.rst.dead.contains unit
    | _ => true)

/-- Whether a unit has been retired. -/
def State.unitGone (s : State) (kind unit : Nat) : Bool :=
  match kind with
  | 0 => s.rd F.TAL_UNIT_STATE_state unit == unitRetired
  | 1 => s.rd F.MIL_ENG_STATE_state unit == unitRetired
  | 2 => s.rd F.CPH_CORE_STATE_state unit == unitRetired
  | 4 => s.rst.dead.contains unit
  | _ => false

/-- Shows a unit's state: 0 active, 3 resetting; every change is logged. -/
def State.setUnit (s : State) (kind unit st : Nat) : State :=
  match unitField (kindRes kind) with
  | some f =>
    if kind ≤ 2 then
      let s := (s.wr f st unit).logEv (kindBlk kind) .stateChange st unit unit
      if kind = kCipher then s.assignEgress else s
    else s
  | none => if kind = kDma then (s.wr F.DMV_Q_state st unit).logEv .DMV .stateChange st unit unit else s

/-! ### Suspects (R454) -/

/-- The operations and, on the transport, the connections that a unit is known to hold work of. -/
def State.workIn (s : State) (kind unit : Nat) : List Nat :=
  match kind with
  | 0 => (s.cmn.colls.filter fun c => c.nodes.any fun n => n.unit == some unit).map (·.op)
  | 1 => ((Tbl.get? s.mill.engines unit).map fun m => [m.op]).getD []
  | 5 => (s.bxt.conns.filter fun q => q.1 % 4 == unit && (!q.2.sent.isEmpty || !q.2.queue.isEmpty)).map Prod.fst
  | 6 => (s.ckp.streams.filter fun q => !q.2.isOver).map fun q => q.2.op
  | 7 => s.cmn.colls.map (·.op)
  | _ => []

/-- Whether the sending half of a translation hold, a fenced host link or a fence is all that a context waits for, or every packet of a transport
connection waits out a NOT_READY or HELD delay or its receiver's grant, or a stream waits for its target (R453). -/
def State.waitsOut (s : State) (kind x : Nat) : Bool :=
  if kind = kBxt then (s.conn? x).any fun k => !k.sent.isEmpty && k.sent.all fun y =>
    y.waiting != 0 || s.egress.any fun q => q.conn == some x && q.pkt.psn == y.pkt.psn && s.grantHeld q
  else
    s.xlt.holds.any (fun h => h.who == .op x)
      || (s.op? x).any (fun o => o.phase == .fenced)
      || s.hpt.reads.any (fun r => r.who == .op x && !s.linkUp r.link)
      || s.hpt.flushes.any (fun f => f.who == .op x && !s.linkUp f.link)
      || (kind == kCkp && (s.streamOf x).any fun n => s.ckp.tgts.any fun t => t.2.cmds.any fun c => c.stream == n)

/-- Whether a context of which State shows work waits only for a report or chunk of another device (R453): the commons has handled all that has
come; a chunk is bound and holds no local input that is not folded. -/
def State.waitsPeer (s : State) (kind unit x : Nat) : Bool :=
  kind == kCmn || (kind == kTally && (s.coll? x).all fun c => c.nodes.all fun n => n.unit != some unit || n.waiting.isEmpty)

/-- Whether a suspect is still there to be judged (R468). -/
def State.suspectLives (s : State) (kind x : Nat) : Bool := if kind = kBxt then (s.conn? x).isSome else (s.op? x).isSome

/-- Whether a watchdog of the unit runs (R452, R453): some context has work in it and sits in no excluded wait. -/
def State.watched (s : State) (kind unit : Nat) (seen : List Nat) : Bool :=
  seen.any (fun x => s.suspectLives kind x && !s.waitsOut kind x)
    || (s.workIn kind unit).any fun x => s.suspectLives kind x && !s.waitsOut kind x && !s.waitsPeer kind unit x

/-- The suspects of a hang, oldest first: operations take their numbers in order of admission. -/
def State.suspectsOf (s : State) (kind unit : Nat) (seen : List Nat) : List Nat :=
  let all := ((s.workIn kind unit ++ seen).filter fun x => s.suspectLives kind x && (kind != kBxt || x % 4 == unit)).eraseDups
  all.foldr insertNat []

/-! ### Transport (R455) -/

/-- Whether a connection holds work that is never replayed: an ATOMIC without its ATOMIC_RESP, or a SEND of which a packet is acknowledged. -/
def Conn.unreplayable (k : Conn) : Bool :=
  !k.openAtomics.isEmpty || k.sent.any fun x => match x.pkt.ext with
    | .send _ _ =>
      let left := sumNat ((k.sent.filter fun y => y.pkt.msn == x.pkt.msn && y.waiting != 3).map fun y => y.pkt.payload.length)
        + sumNat ((k.queue.filter fun y => y.1.msn == x.pkt.msn).map fun y => y.1.payload.length)
      x.waiting == 3 || decide (left < x.pkt.msgLen)
    | _ => false

/-- A context-level reset of a connection (R456): its outstanding operations complete CONTEXT_RESET, its epoch advances. -/
def State.connReset (s : State) (c : Nat) : State :=
  let s := (s.opsOfConn c).foldl (fun (s : State) id => if (s.op? id).any (·.opcode != 6) then s.killOp id Status.contextReset 0 else s) s
  (s.resetConn c).mgtSweep

/-- Every unacknowledged packet of a connection is sent again with `retx` set. -/
def State.resendAll (s : State) (c : Nat) : State :=
  match s.conn? c with
  | none => s
  | some k =>
    (k.sent.filter fun x => x.waiting == 0).foldl (fun (s : State) (x : Sent) => match s.conn? c with
      | some k => ((s.bump F.BXT_RETX).evt 2).resend c k x x.pkt.ackReq
      | none => s) s

/-! ### Tally chunks and mill blocks (R106, R179) -/

/-- The chunks bound to a unit: operation and chunk. -/
def State.nodesOn (s : State) (unit : Nat) : List (Nat × Node) :=
  s.cmn.colls.flatMap fun c => (c.nodes.filter fun n => n.unit == some unit).map fun n => (c.op, n)

/-- A chunk leaves its unit with its accumulator empty, to be folded anew (R106). -/
def State.emptyNode (s : State) (id : Nat) (n : Node) : State :=
  match s.cop? id with
  | none => s
  | some x =>
    let ch := ((x.flow n.bundle false).chunk? n.chunk).getD ⟨0, 0, 0⟩
    (s.unbindNodes [n]).setNode id
      { n with unit := none, blks := emptyAcc ch.elems, contribs := 0, seen := [], waiting := x.localChunks n.rank n.bundle n.chunk ch }

/-- Asks every sender of a chunk for it again (R106). -/
def State.askAgain (s : State) (id : Nat) (n : Node) : State :=
  match s.cop? id with
  | none => s
  | some x =>
    match (x.flow n.bundle false).chunk? n.chunk with
    | none => s
    | some ch =>
      (((x.flow n.bundle false).rs ch.shard).filter fun e => e.dst == n.rank).foldl (fun (s : State) e =>
        s.sendFolded x.c.slot x.c.key n.rank e.src (x.hdr n.bundle n.chunk e.stage e.src 0 0 0 true false 1 []) true) s

/-- The work of a hung unit is taken from it: chunks and the block wait for their contexts to be judged. -/
def State.parkWork (s : State) (kind unit : Nat) : List (Nat × Nat × Nat × Nat) × State :=
  match kind with
  | 0 =>
    let l := s.nodesOn unit
    (l.map fun q => (q.1, q.2.rank, q.2.bundle, q.2.chunk), l.foldl (fun (s : State) (q : Nat × Node) => s.emptyNode q.1 q.2) s)
  | 1 => match Tbl.get? s.mill.engines unit with
    | some m => ([(m.op, m.copy, m.bundle, m.blk)], (s.freeEngine unit).modColl m.op fun c => { c with parked := c.parked ++ [m] })
    | none => ([], s)
  | _ => ([], s)

/-- A parked chunk runs on a unit. -/
def State.runNode (s : State) (unit : Nat) (q : Nat × Nat × Nat × Nat) : State :=
  match (s.coll? q.1).bind fun c => c.node? q.2.1 q.2.2.1 q.2.2.2 with
  | some n => (s.askAgain q.1 n).enterUnit q.1 q.2.1 q.2.2.1 q.2.2.2 unit
  | none => s

/-- A parked block runs again on an engine, from its kept values; where none is free it waits, and is dealt before any other (R179). -/
def State.runParkedBlock (s : State) (q : Nat × Nat × Nat × Nat) : Option Nat × State :=
  let s := s.bump F.MIL_BLOCK_REPLAY
  match s.idleEngine, (s.coll? q.1).bind fun c => c.parked.find? fun m => m.copy == q.2.1 && m.bundle == q.2.2.1 && m.blk == q.2.2.2 with
  | some e, some m =>
    let p := ((s.op? q.1).map (·.part)).getD 0
    (some e, (s.modColl q.1 fun c => { c with parked := c.parked.filter (· != m) }).giveEngine e p m)
  | _, _ => (none, s)

/-- Storage commands of a stream that are outstanding are issued again (R455). -/
def State.reissue (s : State) (op : Nat) : State :=
  match s.streamOf op with
  | none => s
  | some n =>
    match s.stream? n with
    | none => s
    | some t =>
      let mine := (s.tgt t.target).cmds.filter fun c => c.stream == n
      let s := mine.foldl (fun (s : State) (c : CkpCmd) => s.dropCmd t.target c) s
      (s.setStream n { t with jobs := mine.map (·.job) ++ t.jobs }).runStream n

/-! ### Judging (R454) -/

/-- The work of a suspect that is judged runs alone on the replay unit. -/
def State.runSuspect (s : State) (r : Replay) (x : Nat) : State :=
  let mine := r.parked.filter fun q => q.1 == x
  let r := { r with judging := some x, parked := r.parked.filter fun q => q.1 != x }
  let s := s.setReplay r
  match r.kind with
  | 0 => mine.foldl (fun (s : State) q => s.runNode r.on q) s
  | 1 => mine.foldl (fun (s : State) q => match s.runParkedBlock q with
    | (some e, s) => s.setReplay { r with on := e }
    | (none, s) => s) s
  | 5 => s.resendAll x
  | 6 => s.reissue x
  | _ => s

/-- The last suspect has been judged: the unit returns to service unless it was retired; HANG is logged, RST_HANG_LAST shows it (R454, R469). -/
def State.endReplay (s : State) (r : Replay) : State :=
  let gone := s.unitGone r.kind r.unit
  let s : State := { s with rst := { s.rst with replays := s.rst.replays.filter fun q => !(q.kind == r.kind && q.unit == r.unit) } }
  let d := unitDomain r.kind r.unit
  let s := if soleKind r.kind ∧ s.rd F.PWR_DOM_state d = 0 then s.releaseHeld d else s
  let s := if gone then s else
    State.setUnit { s with rst := { s.rst with back := Tbl.set s.rst.back (unitKey r.kind r.unit) s.now } } r.kind r.unit 0
  let s := if r.kind = kTally then r.parked.foldl (fun (s : State) q => match (s.coll? q.1).bind fun c => c.node? q.2.1 q.2.2.1 q.2.2.2 with
      | some n => (s.askAgain q.1 n).bindChunk q.1 q.2.1 q.2.2.1 q.2.2.2
      | none => s) s
    else s
  let s := s.logEv (kindBlk r.kind) .hang r.kind (min 65535 r.suspects + 65536 * min 65535 r.guilty) r.unit r.injected
  let s := ((((s.wr F.RST_HANG_LAST_kind r.kind).wr F.RST_HANG_LAST_unit r.unit).wr F.RST_HANG_LAST_suspects (min 255 r.suspects)).wr
    F.RST_HANG_LAST_guilty (min 255 r.guilty)).wr F.RST_HANG_LAST_outcome (b2n gone)
  if r.manager then (s.wr F.RST_STATUS_busy 0).rstResult 1 0 else s

/-- Goes on with the next suspect that is still there. -/
def State.judgeNext (s : State) (kind unit : Nat) : State :=
  match s.replay? kind unit with
  | none => s
  | some r =>
    let left := r.todo.dropWhile fun x => !s.suspectLives kind x
    match left with
    | x :: t => s.runSuspect { r with todo := t } x
    | [] => s.endReplay { r with todo := [], judging := none }

/-- A chip reset because no active unit of a kind is left (R457, R469). -/
def State.lastUnit (s : State) (kind unit suspects guilty : Nat) : State :=
  let s := ((((s.wr F.RST_HANG_LAST_kind kind).wr F.RST_HANG_LAST_unit unit).wr F.RST_HANG_LAST_suspects (min 255 suspects)).wr
    F.RST_HANG_LAST_guilty (min 255 guilty)).wr F.RST_HANG_LAST_outcome 2
  s.chipReset 8

/-- A unit is retired in service (R457): its work is replayed on another active unit of its kind; none left is a chip reset. -/
def State.retireHung (s : State) (r : Replay) : State :=
  let others := (List.range (unitsOf r.kind)).filter fun u => u != r.unit && s.serving r.kind u
  if soleKind r.kind then s.lastUnit r.kind r.unit r.suspects r.guilty
  else
    let s := s.bump F.RST_RETIRED_UNITS
    let s := if r.kind = kDma then
        (State.wr { s with rst := { s.rst with dead := s.rst.dead ++ [r.unit] } } F.DMV_Q_state 1 r.unit).logEv .DMV .retired 255 r.unit r.unit
      else s.retireUnit (kindRes r.kind) r.unit
    match others with
    | [] => s.lastUnit r.kind r.unit r.suspects r.guilty
    | u :: _ => (s.setReplay { r with on := u, resetting := false, judging := none }).judgeNext r.kind r.unit

/-- An engine reset of a unit begins (R458): counted, dumped where RST_CFG asks; the requests held in its crossing are answered (R449). -/
def State.engineReset (s : State) (r : Replay) : State :=
  let s := s.crossReset (unitDomain r.kind r.unit)
  let s := (s.bump F.RST_ENGINE_RESETS).logEv .RST .reset 1 (unitKey r.kind r.unit) r.unit
  let s := if s.rd F.RST_CFG_dump_engine = 1 then s.takeDump 1 0 [dumpKind r.kind r.unit] else s
  s.setReplay { r with resetting := true, judging := none }

/-- UNIT_LOSS is recorded for the suspects of a hung unit: operations, or those of its connections (R273, R449). -/
def State.lossCause (s : State) (kind : Nat) (todo : List Nat) : State :=
  (if kind = kBxt then todo.flatMap s.opsOfConn else todo).foldl (fun (s : State) id => s.recordCause id 8) s

/-- A unit is fenced and reset, and its suspects wait to be replayed (R454); contexts with work that is never replayed complete at once (R455). -/
def State.beginReplay (s : State) (kind unit : Nat) (seen : List Nat) (manager inj : Bool) : State :=
  let todo := s.suspectsOf kind unit seen
  let s := s.lossCause kind todo
  let lost := if kind = kBxt then todo.filter fun c => (s.conn? c).any Conn.unreplayable else []
  let (parked, s) := s.parkWork kind unit
  let s := s.setUnit kind unit unitResetting
  let s := lost.foldl (fun (s : State) c => (s.connReset c).bump F.RST_NOT_REPLAYED) s
  let r : Replay := ⟨kind, unit, unit, manager, true, none, todo.filter fun x => !lost.contains x, todo.length, 0, parked, inj⟩
  State.engineReset { s with rst := { s.rst with replays := s.rst.replays ++ [r] } } r

/-- A hang is declared (R454); within a second of the unit's return, or the third time in ten minutes, the unit is retired (R457). -/
def State.hang (s : State) (kind unit : Nat) (seen : List Nat) (manager inj : Bool) : State :=
  let k := unitKey kind unit
  let times := ((Tbl.getD s.rst.hangs k []).filter fun t => decide (s.now < t + 600 * sec)) ++ [s.now]
  let again := (Tbl.get? s.rst.back k).any fun t => decide (s.now < t + sec)
  let s := ({ s with rst := { s.rst with hangs := Tbl.set s.rst.hangs k times } }).bump F.RST_HANGS
  let s := s.beginReplay kind unit seen manager inj
  match s.replay? kind unit with
  | some r => if again ∨ 3 ≤ times.length then (s.retireHung r).cmnRun else s.cmnRun
  | none => s

/-- WATCHDOG_EXPIRY: the kind and number of the unit, and suspects beside those whose work the state shows in it. -/
def execWatchdogExpiry (kind unit : Nat) (suspects : List Nat) (s : State) : Host.Outcome State Fault Refusal :=
  actOn (decide (unit < unitsOf kind)) s fun s =>
    if s.serving kind unit ∧ s.watched kind unit suspects then s.hang kind unit suspects false false else s

/-- RST_CMD ENGINE_RESET (R454, R469): kinds 0 to 4 are tally, mill, cipher, DMA quarter, BXT quarter. -/
def State.engineResetCmd (s : State) (k unit : Nat) : State :=
  s.rstGate 1 fun s =>
    let kind := if k ≤ 2 then k else k + 1
    if 5 ≤ k ∨ !s.serving kind unit then s.rstResult 1 2
    else (s.wr F.RST_STATUS_busy 1).hang kind unit [] true false

/-- ENGINE_RESET. -/
def execEngineReset (kind unit : Nat) (s : State) : Host.Outcome State Fault Refusal := act s (asManager false fun s => s.engineResetCmd kind unit)

/-- ENGINE_RESET_DONE: the reset ends and the next suspect is judged, or it misses its bound and the unit is retired (R457, R458). -/
def execEngineResetDone (kind unit : Nat) (ok : Bool) (s : State) : Host.Outcome State Fault Refusal :=
  actOn (decide (unit < unitsOf kind)) s fun s => match s.replay? kind unit with
    | none => s
    | some r =>
      if !r.resetting then s
      else if ok then ((s.setReplay { r with resetting := false }).judgeNext kind unit).cmnRun
      else (s.retireHung r).cmnRun

/-- Chunks of a cleared operation move from the replay unit to another active one where there is one (R455). -/
def State.moveChunks (s : State) (unit x : Nat) : State :=
  ((s.nodesOn unit).filter fun q => q.1 == x).foldl (fun (s : State) (q : Nat × Node) => match s.cop? q.1 with
    | none => s
    | some c => match s.bindUnit c.g.id q.2.bundle q.2.chunk with
      | some u => ((s.unbindNodes [q.2]).bump F.TAL_UNIT_STATE_slots_bound 1 u).setNode q.1 { q.2 with unit := some u }
      | none => s) s

/-- SUSPECT_CLEARED: the suspect has made one unit of progress (R454 step 4). -/
def execSuspectCleared (kind unit : Nat) (s : State) : Host.Outcome State Fault Refusal :=
  actOn (decide (unit < unitsOf kind)) s fun s => match s.replay? kind unit with
    | none => s
    | some r => match r.judging with
      | none => s
      | some x =>
        let s := if kind = kTally then s.moveChunks r.on x else s
        ((s.setReplay { r with judging := none }).judgeNext kind unit).cmnRun

/-- A suspect is guilty (R454 step 5, R456): its context is reset, then the unit again; the seventeenth retires the unit (R457). -/
def State.guilty (s : State) (r : Replay) (x : Nat) : State :=
  let s := s.bump F.RST_GUILTY
  let s := if r.kind = kBxt then s.connReset x else s.ctxReset [x]
  let r := { r with judging := none, guilty := r.guilty + 1 }
  let s := s.setReplay r
  if s.unitGone r.kind r.unit then s.judgeNext r.kind r.unit
  else if 16 < r.guilty then s.retireHung r
  else s.engineReset r

/-- SUSPECT_WINDOW_EXPIRY. -/
def execSuspectWindowExpiry (kind unit : Nat) (s : State) : Host.Outcome State Fault Refusal :=
  actOn (decide (unit < unitsOf kind)) s fun s => match s.replay? kind unit with
    | none => s
    | some r => match r.judging with
      | none => s
      | some x => if s.waitsOut kind x then s else if s.suspectLives kind x then (s.guilty r x).cmnRun else ((s.setReplay { r with judging := none }).judgeNext kind unit).cmnRun

/-! ### Re-sent blocks (R359, R362) -/

/-- A block of an operation that is used up is what a poisoned word is to its consumer (R359). -/
def State.opBlockLost (s : State) (kind unit op : Nat) : State :=
  match s.op? op, s.cop? op, s.streamOf op with
  | some _, some x, _ =>
    if kind = kTally then
      match x.c.nodes.find? fun n => n.unit == some unit with
      | some n => s.checkFailed x .TAL 0 unit n.bundle n.chunk 0 n.rank false
      | none => s.endLocally op Status.checkFailed 0
    else s.endLocally op Status.checkFailed 0
  | some _, none, some n => s.endStream n Status.checkFailed 0 0 none true
  | some _, none, none => s.endOp op Status.checkFailed 0
  | none, _, _ => s

/-- A block for a READ_REQ being served is used up: NAK INVALID (R359). -/
def State.readBlockLost (s : State) (conn psn : Nat) : State :=
  let mine : Waiter → Option Packet
    | .served p _ => if p.dstConn = conn ∧ p.psn = psn then some p else none
    | _ => none
  match s.hpt.reads.findSome? fun r => mine r.who with
  | some p => State.refuse { s with hpt := { s.hpt with reads := s.hpt.reads.filter fun r => (mine r.who).isNone } } conn p Nak.invalid
  | none => s

/-- A block of a ring entry is used up: the entry completes CHECK_FAILED with its slot (R359), whether it is the next or has been read already. -/
def State.entryBlockLost (s : State) (key count : Nat) : State :=
  match s.ring? key with
  | none => s
  | some r =>
    if r.fetched = count then s.poisonEntry key r
    else if s.fetched.any fun f => f.key == key && f.count == count then
      State.lostEntry { s with fetched := s.fetched.filter fun f => !(f.key == key && f.count == count) } key count r
    else s

/-- A block used up is what a poisoned word is to its consumer (R359). -/
def State.blockLost (s : State) (kind unit : Nat) : BlockReader → State
  | .op id => s.opBlockLost kind unit id
  | .read conn psn => s.readBlockLost conn psn
  | .entry key count => s.entryBlockLost key count

/-- The times at which re-sends at a unit were used up within a second: the first resets the unit, the third retires it (R457). -/
def State.usedUp (s : State) (kind unit : Nat) : State :=
  let k := unitKey kind unit
  let times := ((Tbl.getD s.rst.exhaust k []).filter fun t => decide (s.now < t + sec)) ++ [s.now]
  let s := { s with rst := { s.rst with exhaust := Tbl.set s.rst.exhaust k times } }
  let s := if s.serving kind unit ∧ (times.length = 1 ∨ 3 ≤ times.length) then s.beginReplay kind unit [] false false else s
  match s.replay? kind unit with
  | some r => if 3 ≤ times.length then s.retireHung r else s
  | none => s

/-- The source drops a block it has kept (R361); a block of the link that is accepted goes to its unit. -/
def State.dropKept (s : State) (block : Nat) (accepted : Bool) : State :=
  match Tbl.get? s.tier.kept block with
  | none => s
  | some f =>
    let s : State := { s with tier := { s.tier with kept := Tbl.erase s.tier.kept block } }
    if accepted then s.emit (.flit (block / (131072 * 32768)) f) else s

/-- A re-send of a block reaches the consumer, whole or not; the third that fails is the last (R362). -/
def State.blockResend (s : State) (block kind unit : Nat) (op : BlockUse) (ok : Bool) : State :=
  let s := (s.bump F.LRD_BLK_RESEND).evt 13
  let n := Tbl.getD s.tier.resends block 0 + 1
  if ok then State.dropKept { s with tier := { s.tier with resends := Tbl.erase s.tier.resends block } } block true
  else if n < 3 then { s with tier := { s.tier with resends := Tbl.set s.tier.resends block n } }
  else
    let s := State.dropKept { s with tier := { s.tier with resends := Tbl.erase s.tier.resends block } } block false
    let s := s.blkExhausted op.source block false
    ((s.blockLost kind unit op.reader).usedUp kind unit).cmnRun

/-- BLOCK_RESEND: the block, the kind and number of its consumer, what it is for and where from, whether its CRC is right. -/
def execBlockResend (block kind unit : Nat) (op : BlockUse) (ok : Bool) (s : State) : Host.Outcome State Fault Refusal :=
  actOn (decide (unit < unitsOf kind)) s fun s => s.blockResend block kind unit op ok

/-! ### Steward cores (R457) -/

/-- A steward core misses its heartbeat: it is reset; the third time in 60 s it is retired, and below 16 active the device is reset. -/
def State.heartbeatMiss (s : State) (core : Nat) : State :=
  if s.rst.coresGone.contains core then s
  else
    let times := ((Tbl.getD s.rst.cores core []).filter fun t => decide (s.now < t + 60 * sec)) ++ [s.now]
    let s := { s with rst := { s.rst with cores := Tbl.set s.rst.cores core times } }
    if times.length < 3 then s
    else
      let s := ({ s with rst := { s.rst with coresGone := s.rst.coresGone ++ [core] } }).bump F.RST_RETIRED_UNITS
      let s := s.retireSound 8 core
      if s.rd F.TEL_SPARE_active 8 < 16 then s.chipReset 8 else s

/-- STEWARD_HEARTBEAT_MISS. -/
def execStewardHeartbeatMiss (core : Nat) (s : State) : Host.Outcome State Fault Refusal :=
  actOn (decide (core < 36)) s fun s => s.heartbeatMiss core

end Sys2Proof.Machine
end

