-- ==== Sys2Proof/Machine/Trust.lean ====
section
/-!
DEFINITION. The Fegen root's commands and the tamper inputs (R404-R413, R416) of 16_cipher_and_trust.md.
-/

namespace Sys2Proof.Machine

/-- Codes of TRU_CMD (R416). -/
abbrev truAttest : Nat := 1
abbrev truAdvance : Nat := 2
abbrev truScrap : Nat := 3
abbrev truRevoke : Nat := 4
abbrev truFloor : Nat := 5
abbrev truPolarity : Nat := 6

/-- Ends a TRU command, with its record (R416). -/
def State.truResult (s : State) (op reason subject : Nat) : State :=
  let s := (((s.wr F.TRU_STATUS_busy 0).wr F.TRU_STATUS_done (b2n (reason == 0))).wr F.TRU_STATUS_refused (b2n (reason != 0))).wr
    F.TRU_STATUS_reason reason
  if reason = 0 then s.logDone .TRU op subject else s.logRefused .TRU reason op

/-- A command while one runs is refused with reason 1, and the running one is undisturbed (R414). -/
def State.truGate (s : State) (op : Nat) (f : State → State) : State :=
  if s.rd F.TRU_STATUS_busy = 1 then ((s.wr F.TRU_STATUS_refused 1).wr F.TRU_STATUS_reason 1).logRefused .TRU 1 op else f s

/-! ### Keys and floors (R405, R406) -/

/-- REVOKE (R406): keys 0-3 are F0-F3, 4-7 L0-L3. -/
def State.revoke (s : State) (key : Nat) (ok : Bool) : State :=
  s.truGate truRevoke fun s =>
    let lc := s.rd F.TRU_LC_state
    let bits := setBit (s.rd F.TRU_BOOT_revoked) (key % 8)
    if lc ≠ lcProvisioned ∧ lc ≠ lcDeployed then s.truResult truRevoke 8 key
    else if bits % 8 = 7 ∨ bits / 16 % 8 = 7 then s.truResult truRevoke 5 key
    else if !ok then s.truResult truRevoke 7 key
    else (s.wr F.TRU_BOOT_revoked bits).truResult truRevoke 0 key

/-- REVOKE: the key, and whether the fuse reads back. -/
def execRevoke (key : Nat) (ok : Bool) (s : State) : Host.Outcome State Fault Refusal := actOn (decide (key < 8)) s (asManager true fun s => s.revoke key ok)

/-- RAISE_FW_FLOOR (R405): the floor never falls, and is refused after 255. -/
def State.raiseFwFloor (s : State) (ok : Bool) : State :=
  s.truGate truFloor fun s =>
    let floor := s.rd F.TRU_BOOT_fw_floor
    if floor = 255 then s.truResult truFloor 3 0
    else if !ok then s.truResult truFloor 7 0
    else (s.wr F.TRU_BOOT_fw_floor (max floor (s.rd F.TRU_BOOT_fw_rollback))).truResult truFloor 0 0

/-- RAISE_FW_FLOOR. -/
def execRaiseFwFloor (ok : Bool) (s : State) : Host.Outcome State Fault Refusal := act s (asManager true fun s => s.raiseFwFloor ok)

/-! ### Tamper (R412, R413) -/

/-- BURN_POLARITY (R412): once, in MANUFACTURE or PROVISIONED. -/
def State.burnPolarity (s : State) (ok : Bool) : State :=
  s.truGate truPolarity fun s =>
    if 1 < s.rd F.TRU_LC_state ∨ s.tru.fusedPolarity.isSome then s.truResult truPolarity 3 0
    else if !ok then s.truResult truPolarity 7 0
    else State.truResult { s with tru := { s.tru with fusedPolarity := some (s.rd F.TRU_TAMPER_CFG_polarity) } } truPolarity 0 0

/-- BURN_POLARITY. -/
def execBurnPolarity (ok : Bool) (s : State) : Host.Outcome State Fault Refusal := act s (asManager true fun s => s.burnPolarity ok)

/-- A write of TRU_TAMPER_CFG (R412): from DEPLOYED on enables can only be set (log entry 39); the polarity of an enabled input cannot change. -/
def State.tamperCfg (s : State) (enable polarity : Nat) : State :=
  let old := s.rd F.TRU_TAMPER_CFG_enable
  if (polarity ^^^ s.rd F.TRU_TAMPER_CFG_polarity) &&& old ≠ 0 then s.refuseWrite .TRU 0x20
  else
    let e := if s.rd F.TRU_LC_state ≤ 1 then enable else enable ||| old
    (s.wr F.TRU_TAMPER_CFG_enable e).wr F.TRU_TAMPER_CFG_polarity polarity

/-- TAMPER_CFG_WRITE. -/
def execTamperCfgWrite (enable polarity : Nat) (s : State) : Host.Outcome State Fault Refusal :=
  act s (asManager true fun s => s.tamperCfg (enable % 16) (polarity % 16))

/-- An enabled input has asserted (R413): the wipes, the latch and the count, the record, the fault output; a layout command stops (R55), the entry of
device EMBER or COLD stops (R450), and a sleeping device wakes (R442). -/
def State.tamper (s : State) (input : Nat) (inj : Bool) : State :=
  let s := s.wipeCellar.startWipe .all false true
  let s := s.wr F.TRU_TAMPER_STATE_latched (setBit (s.rd F.TRU_TAMPER_STATE_latched) input)
  let s := s.bumpSat F.TRU_TAMPER_STATE_count
  let s := (s.logEv .TRU .tamper input (s.rd F.TRU_TAMPER_STATE_count) 0 inj).showFault.layStop
  let s := if s.pwr.entry.isSome then (State.relight { s with pwr := { s.pwr with entry := none } }).devResult 3 else s
  s.wake 3

/-- TAMPER_ASSERT: a pulse at an input passes its filter, or is rejected and counted (R482). -/
def State.tamperPulse (s : State) (input : Nat) (passes inj : Bool) : State :=
  if !passes then s.evt 14
  else
    let s := s.wr F.TRU_TAMPER_STATE_level (setBit (s.rd F.TRU_TAMPER_STATE_level) input)
    if bitAt (s.rd F.TRU_TAMPER_CFG_enable) input then s.tamper input inj else s

/-- TAMPER_ASSERT. -/
def execTamperAssert (input : Nat) (passes : Bool) (s : State) : Host.Outcome State Fault Refusal :=
  if input < 4 then actOn0 s fun s => s.tamperPulse input passes false else .fault .noSuchUnit

/-! ### Attestation (R408) -/


/-- The firmware measurement (R405): of the running firmware's header; the one that runs at reset is the identity's (log entry 5). -/
def State.fwMeasure (s : State) : List Byte := Config.sha256 ((if s.mgt.fwHdr.isEmpty then Config.identity 9 else s.mgt.fwHdr).take 116)

/-- Bytes 0-191 of a report over a nonce. -/
def State.reportBody (s : State) (nonce : List Byte) : List Byte :=
  let flags := s.rd F.TRU_LC_inj_unlocked + 2 * s.rd F.TRU_LC_rng_failed + 4 * s.rd F.TRU_LC_cellar_failed + 8 * s.rd F.TRU_BOOT_fw_slot
    + 16 * b2n s.lay.running.isNone
  leBytes 4 0x52414746 ++ leBytes 2 1 ++ leBytes 2 0x9080 ++ leBytes 1 0xA0 ++ leBytes 1 (s.rd F.TRU_LC_state) ++ leBytes 1 flags ++ leBytes 1 0
    ++ leBytes 4 (s.rd F.RST_LAST_boot_count) ++ leBytes 8 s.ticks ++ padTo 32 (nonce.take 32) ++ padTo 32 (s.fwMeasure.take 32)
    ++ leBytes 1 (s.rd F.TRU_BOOT_fw_rollback) ++ leBytes 1 (s.rd F.TRU_BOOT_fw_floor) ++ leBytes 1 (s.rd F.LAY_SOURCE_rollback_level)
    ++ leBytes 1 (s.rd F.LAY_SOURCE_floor) ++ leBytes 4 (s.rd F.LAY_ACTIVE_serial)
    ++ (match s.lay.running with | some l => padTo 32 ((Config.sha256 l.header).take 32) | none => List.replicate 32 0)
    ++ leBytes 1 (s.rd F.TRU_BOOT_revoked) ++ leBytes 1 (s.rd F.TRU_LC_returns) ++ leBytes 2 (s.rd F.TRU_TAMPER_STATE_count)
    ++ padTo 32 (uniqueId.take 32) ++ List.replicate 28 0

/-- ATTEST (R408): refused with reason 6 while the cellar is FAILED. -/
def State.attest (s : State) : State :=
  s.truGate truAttest fun s =>
    if s.rd F.LRD_CELLAR_state = 2 then s.truResult truAttest 6 0
    else
      let nonce := (List.range 32).map fun k => Tbl.getD s.tru.nonce k 0
      ((State.wr { s with tru := { s.tru with attesting := some nonce } } F.TRU_STATUS_busy 1).wr F.TRU_STATUS_done 0).wr F.TRU_STATUS_refused 0

/-- ATTEST. -/
def execAttest (s : State) : Host.Outcome State Fault Refusal := act s (asManager true State.attest)

/-- ATTEST_DONE: the report is signed; while the cellar is being wiped and the key derived again it waits (R414). -/
def State.attestDone (s : State) : State :=
  match s.tru.attesting with
  | none => s
  | some n =>
    if s.rd F.LRD_CELLAR_state = 1 then s
    else if s.rd F.LRD_CELLAR_state = 2 then State.truResult { s with tru := { s.tru with attesting := none } } truAttest 6 0
    else
      let b := s.reportBody n
      State.truResult { s with tru := { s.tru with attesting := none, report := b ++ padTo 64 ((Config.ecdsaSign b).take 64) } } truAttest 0 0

/-- ATTEST_DONE. -/
def execAttestDone (s : State) : Host.Outcome State Fault Refusal := act s State.attestDone

/-! ### Life cycle (R409-R411) -/

/-- The state an LC_ADVANCE leads to, and whether it takes a token (R410). -/
def nextCycle (lc returns : Nat) : Option (Nat × Bool) :=
  if lc = lcManufacture then some (lcProvisioned, true)
  else if lc = lcProvisioned then some (lcDeployed, false)
  else if lc = lcDeployed then some (lcReturned, true)
  else if lc = lcReturned ∧ returns < 3 then some (lcProvisioned, true)
  else none

/-- Whether the token in TRU_TOKEN is one for a transition (R410). -/
def State.tokenOk (s : State) (lc nxt : Nat) : Bool :=
  let b := (List.range 128).map fun k => Tbl.getD s.tru.token k 0
  let key := fieldLE b 6 1
  fieldLE b 0 4 == 0x544C4746 && fieldLE b 4 1 == lc && fieldLE b 5 1 == nxt && zeroBytes b 7 1 && slice b 8 32 == padTo 32 (uniqueId.take 32)
    && zeroBytes b 40 24 && !fwKeyDenied lc key && !bitAt (s.rd F.TRU_BOOT_revoked) key
    && Config.ecdsaVerify (Config.fusedKey key) (b.take 64) (slice b 64 64)

/-- An accepted transition (R411): layout commands stop, the wipes, the burn, the record, the chip reset. -/
def State.transition (s : State) (op nxt : Nat) (ok : Bool) : State :=
  let lc := s.rd F.TRU_LC_state
  let s := s.layStop.wipeCellar.startWipe .all false true
  if !ok then s.truResult op 7 nxt
  else
    let s := s.wr F.TRU_LC_state nxt
    let s := if lc = lcReturned ∧ nxt = lcProvisioned then s.wr F.TRU_LC_returns (s.rd F.TRU_LC_returns + 1) else s
    ((s.setUnlock 0).logEv .TRU .lifecycle nxt lc).chipReset 7

/-- LC_ADVANCE (R410, R411): the transition exists, its token is good, every enabled partition is QUIESCED. -/
def State.lcAdvance (s : State) (ok : Bool) : State :=
  s.truGate truAdvance fun s =>
    let lc := s.rd F.TRU_LC_state
    match nextCycle lc (s.rd F.TRU_LC_returns) with
    | none => s.truResult truAdvance 3 lc
    | some (nxt, token) =>
      if token && !s.tokenOk lc nxt then s.truResult truAdvance 2 nxt
      else if (List.range 64).any fun p => s.enabled p && s.rd F.PTN_PART_state p != ptnQuiesced then s.truResult truAdvance 4 nxt
      else s.transition truAdvance nxt ok

/-- LC_ADVANCE: whether the burnt row reads back. -/
def execLcAdvance (ok : Bool) (s : State) : Host.Outcome State Fault Refusal := act s (asManager true fun s => s.lcAdvance ok)

/-- LC_SCRAP (R410, R411). -/
def State.lcScrap (s : State) (confirm : Nat) (ok : Bool) : State :=
  s.truGate truScrap fun s =>
    if confirm ≠ 0x5C then s.truResult truScrap 9 lcScrapped
    else if s.rd F.TRU_LC_state = lcScrapped then s.truResult truScrap 3 lcScrapped
    else s.transition truScrap lcScrapped ok

/-- LC_SCRAP. -/
def execLcScrap (confirm : Nat) (ok : Bool) (s : State) : Host.Outcome State Fault Refusal := act s (asManager true fun s => s.lcScrap confirm ok)

end Sys2Proof.Machine
end

