-- ==== Sys2Proof/Machine/AddrMap.lean ====
section
/-!
DEFINITION. The address map and register accesses (R9-R13, R448, R511-R517, R520 of 22_address_map.md): where a register lies, what a read
returns, what a write does or why it is refused, and which path reaches what.
-/

namespace Sys2Proof.Machine

/-! ### Places -/

/-- The first offset of the instance windows among the offsets of the register table. -/
abbrev winBase : Nat := 0x10000000

/-- Follows the dimensions of a register's copies: the copy and the offset in it. -/
def locateDims : List (Nat × Nat) → Nat → Nat → Option (Nat × Nat)
  | [], rel, i => some (i, rel)
  | (stride, count) :: t, rel, i => if rel / stride < count then locateDims t (rel % stride) (i * count + rel / stride) else none

/-- The copy of a register and the byte in it that an offset names. -/
def RegInfo.find (r : RegInfo) (off : Nat) : Option (Nat × Nat) :=
  if off < r.off then none
  else (locateDims r.dims (off - r.off) 0).bind fun q => if q.2 < r.bytes then some q else none

/-- The register that an offset names, its copy, the byte in it. DESIGN CHOICE (log entry 52): R363's LRD_BANK[b] and R372's counters LRD_ECC_DATA to
LRD_RW_FORWARD stand at the same offsets, 0x0200-0x0234; LRD_BANK answers there, and the counters are read in the counter snapshot alone. -/
def locate (off : Nat) : Option (RegInfo × Nat × Nat) := regTable.findSome? fun r => (r.find off).map fun q => (r, q.1, q.2)

/-- The bases of the blocks of the management space (R511), the port blocks apart. -/
def blkBases : List (Nat × Blk) :=
  [(0x0000000, .GLB), (0x0100000, .LAY), (0x0200000, .PWR), (0x0300000, .RST), (0x0400000, .LOG), (0x0500000, .INJ), (0x0600000, .TEL),
   (0x2000000, .HOP), (0x2100000, .BXT), (0x2200000, .CTX), (0x2300000, .ADM), (0x2400000, .POL), (0x2500000, .KLN), (0x3000000, .HPT),
   (0x3100000, .WQE), (0x3200000, .XLT), (0x3300000, .DMV), (0x4000000, .LRD), (0x4100000, .HBM), (0x4200000, .DDR), (0x5000000, .TAL),
   (0x5100000, .CMN), (0x5200000, .MIL), (0x6000000, .CPH), (0x6100000, .TRU), (0x6200000, .CKP), (0x7000000, .MGT), (0x8000000, .PTN)]

/-- The block of a management offset: its name, the unit its records name, the offset within it; none in a hole (R511). -/
def blkAt (off : Nat) : Option (Blk × Nat × Nat) :=
  if 0x1000000 ≤ off ∧ off < 0x1800000 then some (.PRT, (off - 0x1000000) / 0x100000 * 8, off % 0x100000)
  else (blkBases.find? fun b => decide (b.1 ≤ off) && decide (off < b.1 + 0x100000)).map fun b => (b.2, 0, off - b.1)

/-- The block, unit and offset that the record of a refused access names: in an instance window the chapter whose registers stand there. -/
def whereAt (off : Nat) : Blk × Nat × Nat :=
  if winBase ≤ off then
    let o := off % 0x100000
    (if o < 0x20000 ∨ (0x80000 ≤ o ∧ o < 0xC0000) then .WQE else .HPT, 0, o)
  else (blkAt off).getD (.GLB, 0, off)

/-- A refused write at an offset (R10, R514). -/
def State.refuseAt (s : State) (off : Nat) : State :=
  let w := whereAt off
  s.refuseWrite w.1 w.2.2 w.2.1

/-- A write to read-only fields is ignored and logged (R9). -/
def State.ignoreAt (s : State) (off : Nat) : State :=
  let w := whereAt off
  s.logEv w.1 .writeRefused 0 w.2.2 w.2.1

/-! ### What registers show -/

/-- Bits of a list of fields that a test accepts, as a mask. -/
def fieldMask (fs : List FieldInfo) (p : Acc → Bool) : Nat :=
  fs.foldl (fun m f => if p f.acc then m ||| ((2 ^ f.width - 1) <<< f.lo) else m) 0

/-- Keeps the bits of a mask. -/
def keepBits (v m : Nat) : Nat := v &&& m

/-- CMN_GRP_INFO of a slot (R150). -/
def State.grpInfo (s : State) (slot : Nat) : Nat :=
  match Tbl.get? s.cmn.groups slot with
  | none => 0
  | some g =>
    (match g.state with | .installed => 1 | .active => 2 | .voiding => 3 | .reforming => 4)
      + 8 * min 64 (s.cmn.colls.filter fun c => c.slot == slot).length + 2 ^ 16 * g.id + 2 ^ 32 * g.gen

/-- MIL_RECIPE_INFO of the selected recipe (R184): 0 where the partition does not exist (R376). -/
def State.recipeInfo (s : State) : Nat :=
  if s.rd F.PTN_PART_state (s.rd F.MIL_RECIPE_SEL_partition) = ptnDisabled then 0
  else match s.recipe? (s.rd F.MIL_RECIPE_SEL_partition) (s.rd F.MIL_RECIPE_SEL_recipe_id) with
  | none => 0
  | some r => 1 + 2 * b2n (syncOf r).isSome + 4 * b2n (syncOf r == some 1) + 2 ^ 8 * r.length + 2 ^ 16 * recipeClocks r

/-- The selected key slot (R400). -/
def State.selSlot (s : State) : Option KeySlot := Tbl.get? s.slots (s.rd F.CPH_SLOT_SEL_slot)

/-- The blocks that answer on a path, by the numbers of R470 (R512, R517): all, but in RECOVERY on path 2 those of R493. -/
def State.blocksOn (s : State) (path : Path) : Nat :=
  if path = .pf0 ∧ s.rd F.MGT_BOOT_mode = 2 then
    [Blk.GLB, Blk.LAY, Blk.RST, Blk.LOG, Blk.TRU, Blk.MGT].foldl (fun m b => setBit m b.num) 0
  else 2 ^ 29 - 1

/-- The copy of a register that an access reaches: CKP_TGT registers show the selected target (R431). -/
def State.copyOf (s : State) (r : Reg) (i : Nat) : Nat :=
  match r with
  | .CKP_TGT_CFG => s.rd F.CKP_TGT_SEL_target
  | .CKP_TGT_NSID => s.rd F.CKP_TGT_SEL_target
  | .CKP_TGT_PORTS => s.rd F.CKP_TGT_SEL_target
  | .CKP_TGT_IP_lo => s.rd F.CKP_TGT_SEL_target
  | .CKP_TGT_IP_hi => s.rd F.CKP_TGT_SEL_target
  | .CKP_TGT_STATUS => s.rd F.CKP_TGT_SEL_target
  | _ => i

/-- What a register's copy holds, seen from a path: values that other state gives are computed. -/
def State.viewReg (s : State) (path : Path) (r : Reg) (i : Nat) : Nat :=
  let part := s.rd F.PTN_INST_partition i
  let m := s.meter (s.rd F.POL_METER_SEL_meter)
  match r with
  | .PWR_TICK => s.ticks
  | .LAY_PROGRESS => putBits (putBits (s.reg r i).toNat 0 10 s.layPermille) 12 3 s.layPhase
  | .GLB_BLOCKS => s.blocksOn path
  | .MGT_CRED_STATUS =>
    putBits (s.reg r i).toNat 1 1 (b2n (s.mgt.session.any fun z => z.conn.isNone == (path == Path.pf0)))
  | .CMN_GRP_INFO => s.grpInfo (s.rd F.CMN_GRP_SEL_slot)
  | .CMN_GRP_STEP => ((Tbl.get? s.cmn.groups (s.rd F.CMN_GRP_SEL_slot)).map (·.lastStep)).getD 0
  | .MIL_RECIPE_INFO => s.recipeInfo
  | .CPH_SLOT_INFO =>
    (match s.selSlot with
    | some k => k.info
    | none => s.slotState (s.rd F.CPH_SLOT_SEL_slot))
  | .CPH_SLOT_CTR => (s.selSlot.map (·.next)).getD 0
  | .CPH_SLOT_FAIL => (s.selSlot.map (·.tagFail)).getD 0
  | .PTN_INST_w14 => if s.rd F.PTN_INST_state i = 0 then 0 else s.weight i part
  | .PTN_INST_w18 => if s.rd F.PTN_INST_state i = 0 then 0 else s.bucketRate i part
  | .PTN_INST_w1C => if s.rd F.PTN_INST_state i = 0 then 0 else s.bucketBurst i part / 1024
  | .XLT_TAG => putBits (s.reg r i).toNat 36 16 (min 65535 (s.oldInUse i))
  | .XLT_CACHE => putBits (s.reg r i).toNat 32 7 (min 64 (s.xlt.holds.filter (·.retry.isSome)).length)
  | .HPT_LINK_w00 => if s.linkExists i then (s.reg r i).toNat else 0
  | .HPT_LINK_w04 => if s.linkExists i then (s.reg r i).toNat else 0
  | .HPT_LINK_w08 => if s.linkExists i then (s.reg r i).toNat else 0
  | .POL_METER_GREEN_lo => m.green.1
  | .POL_METER_GREEN_hi => m.green.2
  | .POL_METER_YELLOW_lo => m.yellow.1
  | .POL_METER_YELLOW_hi => m.yellow.2
  | .POL_METER_RED_lo => m.red.1
  | .POL_METER_RED_hi => m.red.2
  | .ADM_INST => if s.rd F.PTN_INST_state i = 0 then (s.reg r i).toNat else tokensTo (s.bucketNow i part)
  | .WQE_RING_STATUS =>
    putBits (s.reg r i).toNat 12 3 (match s.ring? (i * 4096 + s.rd F.WQE_RING_SEL_ring i) with
      | none => 0
      | some g => (match g.state with | .active => 1 | .stopping => 2 | .stopped => 3))
  | .WQE_RING_INFO =>
    (match s.ring? (i * 4096 + s.rd F.WQE_RING_SEL_ring i) with
    | none => 0
    | some g => g.fetched % 2 ^ 32 + 2 ^ 32 * (g.posted % 2 ^ 32))
  | _ => (s.reg r i).toNat

/-- What a read of a register returns (R9, R11): write-only fields and reserved bits read 0. -/
def State.readReg (s : State) (path : Path) (r : RegInfo) (i : Nat) : Nat :=
  keepBits (s.viewReg path r.reg (s.copyOf r.reg i)) (fieldMask r.fields fun a => a != .WO)

/-- Reading an RC field clears it (R9): the tokens of R321 and R391. -/
def State.clearRead (s : State) (r : Reg) (i : Nat) : State :=
  match r with
  | .HPT_TOKEN => s.wr F.HPT_TOKEN_token 0 i
  | .PTN_TOKEN_READ => s.readPtnToken.2
  | _ => s

/-- A read of a whole register. -/
def State.readWhole (s : State) (path : Path) (r : RegInfo) (i : Nat) : Nat × State :=
  let v := if r.reg = .PTN_TOKEN_READ then s.readPtnToken.1 else s.readReg path r i
  (v, s.clearRead r.reg i)

/-- The 64-bit counters (R12, R448): read-only registers of one 64-bit field; RST_HIST, which holds no count, apart. DEDUCED (log entry 51). -/
def RegInfo.isCounter (r : RegInfo) : Bool := r.bytes == 8 && r.fields == [⟨0, 64, .RO, []⟩] && r.reg != .RST_HIST

/-- A 4-byte read of a half of a 64-bit register. Of a counter the low half latches the high half in the path's latch, and the next read of the
high half returns it (R448, R513); a half of another register is read as it stands (R12). An RC field is cleared only by a read that returns it
whole (R513). -/
def State.readHalf (s : State) (path : Path) (r : RegInfo) (i off : Nat) (high : Bool) : Nat × State :=
  let v := s.readReg path r i
  if !r.isCounter then (if high then v / 2 ^ 32 else v % 2 ^ 32, s)
  else if high then
    match s.latches.find? fun l => l.path == path && l.off + 4 == off with
    | some l => (l.high, s)
    | none => (v / 2 ^ 32, s)
  else
    (v % 2 ^ 32, { s with latches := ⟨path, off, v / 2 ^ 32⟩ :: s.latches.filter fun l => l.path != path })

/-! ### Windows -/

/-- Bytes of a list from an offset, zeros beyond its end. -/
def sliceZ (l : List Byte) (off n : Nat) : List Byte := padTo n (slice l off n)

/-- Bytes of a table of bytes. -/
def bytesOf (t : Tbl Byte) (off n : Nat) : List Byte := Memory.read t off n

/-- The larder, LAY, dump and other windows of the management space: what `n` bytes at an offset read; none outside every window. -/
def State.winRead (s : State) (off n : Nat) : Option (List Byte) :=
  let zeros := List.replicate n (0 : Byte)
  let at_ := fun (base size : Nat) => decide (base ≤ off) && decide (off < base + size)
  if at_ 0x180000 0x80000 then some (bytesOf s.lay.staging (s.rd F.LAY_WIN_BASE_index * 0x80000 + (off - 0x180000)) n)
  else if at_ 0x380000 0x80000 then some (s.memRead (s.dumpBase + s.rd F.RST_DUMP_STATUS_index * 0x80000 + (off - 0x380000)) n)
  else if at_ 0x401000 0x1000 then some (sliceZ s.log.window (off - 0x401000) n)
  else if at_ 0x680000 0x80000 then
    some (sliceZ (((s.snap.drop ((off - 0x680000) / 8)).take 2).flatMap fun w => leBytes 8 w.toNat) (off % 8) n)
  else if at_ 0x2080000 0x80000 then some (bytesOf s.wxs.window (off - 0x2080000) n)
  else if at_ 0x3180000 0x8000 then some (s.memRead (ctlBase + (off - 0x3180000)) n)
  else if at_ 0x3190000 0x4000 then some (s.memRead (ctlCqBase + (off - 0x3190000)) n)
  else if at_ 0x5180000 0x80000 then some (sliceZ (leBytes 8 (Tbl.getD s.cmn.window ((off - 0x5180000) / 8) 0)) (off % 8) n)
  else if at_ 0x6100100 32 then some (bytesOf s.tru.nonce (off - 0x6100100) n)
  else if at_ 0x6100200 128 then some (bytesOf s.tru.token (off - 0x6100200) n)
  else if at_ 0x6100400 256 then some (sliceZ s.tru.report (off - 0x6100400) n)
  else if at_ 0x6100500 64 then some (sliceZ (Config.identity 1) (off - 0x6100500) n)
  else if at_ 0x6101000 0x1000 then some (sliceZ (Config.identity 2) (off - 0x6101000) n)
  else if at_ 0x6200100 256 then some (bytesOf s.ckp.nqn (s.rd F.CKP_TGT_SEL_target * 256 + (off - 0x6200100)) n)
  else if at_ 0x7001000 256 then some (sliceZ s.mgt.chal (off - 0x7001000) n)
  else if at_ 0x7001100 256 then some zeros
  else if at_ 0x3008000 0x1000 then 
    some ((List.range (n / 4)).flatMap fun k => leBytes 4 (s.reg .HPT_INST_STATE ((off - 0x3008000) / 4 + k)).toNat)
  else none

/-- A write to a window; none outside every window. Read-only windows ignore it and log it (R9). -/
def State.winWrite (s : State) (off : Nat) (data : List Byte) : Option State :=
  let n := data.length
  let at_ := fun (base size : Nat) => decide (base ≤ off) && decide (off < base + size)
  let allow := fun (no : Bool) (t : State) => some (if no then s.refuseAt off else t)
  if at_ 0x180000 0x80000 then
    allow (s.rd F.LAY_STATUS_busy == 1 || s.rd F.MGT_FW_STATUS_busy == 1)
      { s with lay := { s.lay with staging := Memory.write s.lay.staging (s.rd F.LAY_WIN_BASE_index * 0x80000 + (off - 0x180000)) data } }
  else if at_ 0x2080000 0x80000 then
    allow (s.rd F.HOP_WX_CMD_go == 1) { s with wxs := { s.wxs with window := Memory.write s.wxs.window (off - 0x2080000) data } }
  else if at_ 0x3180000 0x8000 then some (s.memWrite (ctlBase + (off - 0x3180000)) data)
  else if at_ 0x5180000 0x80000 then
    let k := (off - 0x5180000) / 8
    allow (s.rd F.CMN_GRP_STATUS_busy == 1)
      { s with cmn := { s.cmn with window := Tbl.set s.cmn.window k (putBits (Tbl.getD s.cmn.window k 0) (8 * (off % 8)) (8 * n) (ofLE data)) } }
  else if at_ 0x6100100 32 then
    allow (s.rd F.TRU_STATUS_busy == 1) { s with tru := { s.tru with nonce := Memory.write s.tru.nonce (off - 0x6100100) data } }
  else if at_ 0x6100200 128 then
    allow (s.rd F.TRU_STATUS_busy == 1) { s with tru := { s.tru with token := Memory.write s.tru.token (off - 0x6100200) data } }
  else if at_ 0x6200100 256 then
    let t := s.rd F.CKP_TGT_SEL_target
    allow (s.tgtState t != tgtIdle) { s with ckp := { s.ckp with nqn := Memory.write s.ckp.nqn (t * 256 + (off - 0x6200100)) data } }
  else if at_ 0x7001100 256 then
    allow (s.rd F.MGT_CRED_STATUS_busy == 1) { s with mgt := { s.mgt with proof := Memory.write s.mgt.proof (off - 0x7001100) data } }
  else if (s.winRead off 4).isSome then some (s.ignoreAt off)
  else none

/-! ### Writes -/

/-- Whether a value lies in a field's ranges (R10); a field without one takes every value. -/
def FieldInfo.inRange (f : FieldInfo) (v : Nat) : Bool := f.ranges.isEmpty || f.ranges.any fun r => decide (r.1 ≤ v) && decide (v ≤ r.2)

/-- Refusal conditions that are more than a field's range (R10): of the registers whose chapters give them. `v` is the register's new value. -/
def State.writeOk (s : State) (r : Reg) (i v : Nat) : Bool :=
  let idle := s.tgtState (s.rd F.CKP_TGT_SEL_target) == tgtIdle
  match r with
  | .LAY_CMD => s.rd F.MGT_FW_STATUS_busy == 0
  | .LAY_WIN_BASE => s.rd F.LAY_STATUS_busy == 0 && s.rd F.MGT_FW_STATUS_busy == 0
  | .ADM_CLASS_FRAC => decide (sumNat ((List.range 6).map fun c => bitsOf v (8 * c) 8) ≤ 256)
  | .PRT_PFC => decide (bitsOf v 12 12 + 32 ≤ bitsOf v 0 12)
  | .PRT_LP_w00 =>
    let old := (s.reg r i).toNat
    s.lportExists i && (s.rd F.PRT_LP_state i == lpDisabled || (bitsOf v 1 2 == bitsOf old 1 2 && bitsOf v 18 14 == bitsOf old 18 14))
  | .PRT_LP_w08 => s.lportExists i
  | .PRT_LP_w10 => s.lportExists i
  | .HPT_RP_RID =>
    let vf := bitsOf v 16 10
    s.isRoot (i / 32) && (!bitAt v 38 || (s.portNamed (i / 32) vf && s.ownsTag vf (bitsOf v 26 12)))
  | .HPT_APERTURE => (!bitAt v 12 && bitsOf v 0 12 == 0) || s.ownsTag i (bitsOf v 0 12)
  | .XLT_PTN_CFG => decide (s.rd F.XLT_PTN_CFG_tags_held i ≤ bitsOf v 0 12)
  | .CKP_TGT_CFG => idle
  | .CKP_TGT_NSID => idle
  | .CKP_TGT_PORTS => idle
  | .CKP_TGT_IP_lo => idle
  | .CKP_TGT_IP_hi => idle
  | .LOG_CURSOR => !bitAt v 21 || decide (bitsOf v 0 21 < 1024)
  | .MGT_PLCA => !bitAt v 0 || (s.mgt.tray.isEmpty && s.mgt.sending.isNone)
  | .CMN_GRP_CMD => true
  | _ => true

/-- LAY_CMD (R58). -/
def State.layCmd (s : State) (op : Nat) : State :=
  match op with
  | 1 => s.loadFull
  | 2 => s.loadSlice
  | 3 => s.layProgram 0
  | 4 => s.layProgram 1
  | 5 => s.raiseFloor
  | _ => s.layAbortCmd

/-- CPH_KEY_CMD (R396, R415). -/
def State.keyCmd (s : State) (path : Path) (op ctr : Nat) : State :=
  match op with
  | 1 => s.loadKey path ctr
  | 2 => s.wipeCmd (.slot (s.rd F.CPH_KEY_CTL_slot))
  | 3 => s.wipeCmd (.inst (s.rd F.CPH_KEY_CTL_vf))
  | _ => s.wipeCmd .all

/-- TRU_CMD (R416). -/
def State.truCmd (s : State) (op key confirm : Nat) : State :=
  match op with
  | 1 => s.attest
  | 2 => s.lcAdvance true
  | 3 => s.lcScrap confirm true
  | 4 => s.revoke key true
  | 5 => s.raiseFwFloor true
  | _ => s.burnPolarity true

/-- RST_CMD (R469). -/
def State.rstCmd (s : State) (op kind unit : Nat) : State :=
  match op with
  | 1 => s.engineResetCmd kind unit
  | 2 => s.chipResetCmd
  | 3 => s.powerCycleCmd
  | 4 => s.clearRetired
  | _ => s.dumpCmd

/-- HPT_ATTACH_CMD (R325), over a link. -/
def State.attachCmd (s : State) (link vf op : Nat) : State :=
  match op with
  | 1 => s.attach link vf
  | 2 => s.detachCmd link vf
  | 3 => s.leavePaused link vf true
  | _ => s.leavePaused link vf false

/-- WQE_RING_CMD (R258). -/
def State.ringCmd (s : State) (vf op : Nat) : State :=
  match op with
  | 1 => s.ringCreate vf
  | 2 => s.stopCmd vf
  | _ => s.ringDestroy vf

/-- CPH_KEY_CMD with a value out of its fields' ranges: refused (R10), and to a LOAD, or to an `op` that is none, the refusal is reason 9 unless
an earlier row of R396 holds. -/
def State.keyCmdRange (s : State) (path : Path) (off op ctr : Nat) : State :=
  if op = 1 then s.loadKey path ctr
  else if 2 ≤ op ∧ op ≤ 4 then s.refuseAt off
  else (s.refuseAt off).keyResult 9

/-- What a write of a register does beyond setting its fields. `v` is the register's new value, `m` the bits the access covers; `t` is the
state with the RW fields set. -/
def State.onWrite (s t : State) (path : Path) (link : Nat) (r : Reg) (i v m : Nat) : State :=
  match r with
  | .LAY_CMD => t.layCmd (bitsOf v 0 4)
  | .TAL_SPARE_MAP => if bitAt v 31 then t.mapSpare 5 (bitsOf v 0 6) (bitsOf v 8 6) else t
  | .MIL_SPARE_MAP => if bitAt v 31 then t.mapSpare 6 (bitsOf v 0 5) (bitsOf v 8 5) else t
  | .CPH_SPARE_MAP => if bitAt v 31 then t.mapSpare 7 (bitsOf v 0 5) (bitsOf v 8 5) else t
  | .LRD_SPARE_MAP => if bitAt v 31 then t.mapBank (bitsOf v 0 8) (bitsOf v 8 3) else t
  | .LRD_RETIRE => if bitAt v 31 then t.retireBank (bitsOf v 0 8) else t
  | .CMN_GRP_CMD => (match bitsOf v 0 3 with | 1 => t.install | 2 => t.activate | _ => t.dissolve)
  | .POL_METER_CMD => if bitsOf v 0 2 = 1 then t.meterApply else t.meterRead
  | .PRT_LP_w00 =>
    let t := if bitsOf v 3 1 = 0 ∧ s.rd F.PRT_LP_hop_replay i = 1 then t.stopReplay i else t
    if bitsOf v 0 1 = s.rd F.PRT_LP_admin i then t else (t.wr F.PRT_LP_admin (s.rd F.PRT_LP_admin i) i).portAdminWrite i (bitsOf v 0 1)
  | .PRT_LP_w10 => t.wr F.PRT_LP_nh_learned 0 i
  | .HOP_ROUTE_CMD => (match bitsOf v 0 2 with | 1 => t.routeWrite | 2 => t.routeDelete | _ => t.routeRead)
  | .HOP_WX_CMD => if bitAt v 31 then t.wxGo else t
  | .CPH_CFG => t.assignEgress
  | .CPH_KEY_LOAD => t.stageWord path i (bitsOf v 0 32)
  | .CPH_KEY_CMD => t.keyCmd path (bitsOf v 8 3) (bitsOf v 0 7)
  | .TRU_CMD => t.truCmd (bitsOf v 0 4) (bitsOf v 4 3) (bitsOf v 8 8)
  | .TRU_TAMPER_CFG => s.tamperCfg (bitsOf v 0 4) (bitsOf v 4 4)
  | .TRU_TAMPER_STATE =>
    let gone := bitsOf v 8 4
    (t.wr F.TRU_TAMPER_STATE_level (s.rd F.TRU_TAMPER_STATE_level &&& (15 ^^^ gone))).showFault
  | .CKP_TGT_CMD => if bitsOf v 0 2 = 1 then t.tgtConnect else t.tgtDisconnect.deal 18
  | .PWR_DEV_CMD => t.enterDev (if bitsOf v 0 2 = 1 then 3 else 4)
  | .PWR_DOM => s.domWrite i (bitsOf v 3 3) (bitAt v 6) (bitsOf v 8 20)
  | .RST_CMD => t.rstCmd (bitsOf v 0 3) (bitsOf v 4 3) (bitsOf v 8 6)
  | .LOG_CMD => if bitsOf v 0 2 = 1 then t.logRead else t.logClear (bitAt v 2)
  | .INJ_UNLOCK => s.injUnlock (bitAt v 0) (bitsOf v 8 8)
  | .INJ_CMD => if bitsOf v 0 2 = 1 then t.injArm else t.disarm.injResult 0
  | .TEL_SNAP_CMD => if bitAt v 0 then t.snapshot else t
  | .MGT_CRED_CMD =>
    (match bitsOf v 0 2 with
    | 1 => t.challenge mgtPath2
    | 2 => t.prove mgtPath2 ((List.range 256).map fun k => Tbl.getD t.mgt.proof k 0)
    | _ => t.pf0Lost)
  | .MGT_FW_CMD => t.fwProgram (if bitsOf v 0 2 = 1 then 0 else 1)
  | .HPT_ATTACH_TOKEN => t.wr F.HPT_ATTACH_TOKEN_token v i
  | .HPT_ATTACH_CMD => t.attachCmd link i (bitsOf v 0 3)
  | .WQE_RING_CMD => t.ringCmd i (bitsOf v 0 2)
  | .WQE_DB_w0 => t.ringTail i (bitsOf v 0 32) (dbOff (i % 4096) 0)
  | .WQE_DB_w4 => t.ringHead i (bitsOf v 0 32) (dbOff (i % 4096) 4)
  | .WQE_DB_w8 => if bitAt v 0 then t.ringArm i else t
  | .WQE_CTL_DB =>
    let t := if bitAt m 0 then t.ringTail ctlKey (bitsOf v 0 32) 0x10 else t
    if bitAt m 32 then t.ringHead ctlKey (bitsOf v 32 32) 0x10 else t
  | _ => t

/-- A write to a register's copy (R9, R10, R11): the bits `m` of `v`. Reserved bits, ranges and the conditions of the register's chapter are
judged first; then RW fields take their values, W1C bits clear, and the rest is the register's own. A value other than 0 or its own for a
read-only field is ignored and logged (log entry 42). -/
def State.writeReg (s : State) (path : Path) (link off : Nat) (r : RegInfo) (i v m : Nat) : State :=
  let i := s.copyOf r.reg i
  let w := keepBits v m
  let old := s.viewReg path r.reg i
  let all := fieldMask r.fields fun _ => true
  let ro := keepBits (fieldMask r.fields fun a => a == .RO) m
  let live := r.fields.filter fun f => f.acc != .RO && f.acc != .RC && decide (keepBits m ((2 ^ f.width - 1) <<< f.lo) ≠ 0)
  let rw := keepBits (fieldMask r.fields fun a => a == .RW) m
  let other := fieldMask r.fields fun a => a == .WO || a == .W1S || a == .W1C
  let now := keepBits (s.reg r.reg i).toNat (fieldMask r.fields fun a => a == .RW || a == .RO || (r.reg == .HPT_ATTACH_TOKEN && a == .WO))
  let new := keepBits (now ^^^ keepBits now (rw ||| (if r.reg == .HPT_ATTACH_TOKEN then m else 0))) all ||| keepBits w (rw ||| other)
  if keepBits w all ≠ w then s.refuseAt off
  else if live.isEmpty then (if ro = 0 then s else s.ignoreAt off)
  else if live.any fun f => (f.acc == .RW || f.acc == .WO) && !f.inRange (bitsOf new f.lo f.width) then
    (if r.reg = .CPH_KEY_CMD then s.keyCmdRange path off (bitsOf new 8 3) (bitsOf new 0 7) else s.refuseAt off)
  else if !s.writeOk r.reg i new then s.refuseAt off
  else
    let kept := keepBits (s.reg r.reg i).toNat ((2 ^ 64 - 1) ^^^ (rw ||| keepBits w (fieldMask r.fields fun a => a == .W1C)))
    let t := s.setReg r.reg i (BitVec.ofNat 64 (kept ||| keepBits w rw))
    let t := s.onWrite t path link r.reg i new m
    let touched := r.fields.any fun f => f.acc == .RO && bitsOf w f.lo f.width != 0 && bitsOf w f.lo f.width != bitsOf old f.lo f.width
    if touched then t.ignoreAt off else t

/-! ### The push area, the MSI-X table and the PBA of an instance window (R234, R316, R318) -/

/-- The four words of an MSI-X entry. -/
def MsixEntry.words (e : MsixEntry) : Nat := e.addr % 2 ^ 64 + 2 ^ 64 * (e.data % 2 ^ 32) + 2 ^ 96 * b2n e.masked + 2 ^ 112 * (e.st % 2 ^ 16)

/-- An instance's MSI-X entry; one never written is masked. -/
def State.msixEntry (s : State) (vf k : Nat) : MsixEntry := Tbl.getD (s.inst vf).msix k ⟨0, 0, true, 0⟩

/-- A write into the MSI-X table: the entry takes it, MSI-X counts as enabled (log entry 41), and unmasking sends what is pending. -/
def State.msixWrite (s : State) (vf o : Nat) (data : List Byte) : State :=
  let k := o / 16
  let e := s.msixEntry vf k
  let w := putBits e.words (8 * (o % 16)) (8 * data.length) (ofLE data)
  let masked := bitAt w 96
  let e' : MsixEntry := ⟨bitsOf w 0 64, bitsOf w 64 32, masked, bitsOf w 112 16⟩
  let s := s.setInst vf { s.inst vf with msixOn := true, msix := Tbl.set (s.inst vf).msix k e' }
  if masked then s else s.msixUnmask vf k

/-- Bytes of the pending-bit array. -/
def State.pbaBytes (s : State) (vf o n : Nat) : List Byte :=
  let p := (s.inst vf).pba
  (List.range n).map fun b => BitVec.ofNat 8 (sumNat ((List.range 8).map fun k => if p.contains (8 * (o + b) + k) then 2 ^ k else 0))

/-- What an area of an instance window reads that holds no register of the table; none elsewhere. -/
def State.areaRead (s : State) (vf o n : Nat) : Option (List Byte) :=
  if 0x80000 ≤ o ∧ o < 0xC0000 then some (List.replicate n 0)
  else if 0xC0000 ≤ o ∧ o < 0xC8000 then some (sliceZ (leBytes 16 (s.msixEntry vf ((o - 0xC0000) / 16)).words) (o % 16) n)
  else if 0xC8000 ≤ o ∧ o < 0xC8100 then some (s.pbaBytes vf (o - 0xC8000) n)
  else none

/-- A write to such an area: a push slot gathers its entry (R234); the PBA is read-only. -/
def State.areaWrite (s : State) (vf o : Nat) (data : List Byte) : Option State :=
  if 0x80000 ≤ o ∧ o < 0xC0000 then some (s.pushBytes vf ((o - 0x80000) / 256) (o % 256) data)
  else if 0xC0000 ≤ o ∧ o < 0xC8000 then some (s.msixWrite vf (o - 0xC0000) data)
  else if 0xC8000 ≤ o ∧ o < 0xC8100 then some (s.ignoreAt (winBase + o))
  else none

/-! ### Accesses of 4 and 8 bytes (R513) -/

/-- An access kindles the domain of its unit, and is served when that is LIT (R516; log entry 41). -/
def State.touchDomain (s : State) (off : Nat) : State :=
  let w := whereAt off
  s.requestAt (w.1.domain w.2.1)

/-- Whether a range of offsets takes in registers of the gate die (R18, R511). -/
def onGateDie (off n : Nat) : Bool := decide (off < winBase) && ((whereAt off).1.onGate || (whereAt (off + n - 1)).1.onGate)

/-- Whether an access is answered now (R19): one of the gate die's registers only where the link carries it. Otherwise nothing happens, and
REG_ACCESS_TIMEOUT ends it (R516). -/
def State.reaches (s : State) (off n : Nat) : Bool := !onGateDie off n || s.klnFree.isSome

/-- An access of a gate-die register passes as a request flit and is answered by a completion flit (R19). A flit that does not arrive, as its module
retrains, leaves the access unanswered: it reads as ones (R516). -/
def State.overLink (s : State) (off n : Nat) (data : Option (List Byte)) (f : State → List Byte × State) : List Byte × State :=
  if !onGateDie off n then f s
  else match s.klnFree with
  | none => (List.replicate n 0xFF, s)
  | some m =>
    match s.klnPass m 1 (accessRequest off n data) with
    | (false, s) => (List.replicate n 0xFF, s)
    | (true, s) =>
      let q := f s
      let r := q.2.klnPass m 0 (accessAnswer (if data.isSome then [] else q.1))
      (if r.1 then q.1 else List.replicate n 0xFF, r.2)

/-- A read of 4 or 8 bytes at an aligned offset: registers of 4 bytes are read one by one. -/
def State.readUnit (s : State) (path : Path) (off n : Nat) : List Byte × State :=
  let one := fun (s : State) (off n : Nat) =>
    let area := if winBase ≤ off then s.areaRead ((off - winBase) / 0x100000) (off % 0x100000) n else s.winRead off n
    match area, locate off with
    | some b, _ => (b, s)
    | none, none => (List.replicate n (0 : Byte), s)
    | none, some (r, i, b) =>
      if r.bytes = 4 then (leBytes n (s.readReg path r i), s)
      else if n = 8 then (let q := s.readWhole path r i; (leBytes 8 q.1, q.2))
      else (let q := s.readHalf path r i off (b == 4); (leBytes 4 q.1, q.2))
  let wide := (locate off).all fun q => q.1.bytes == 8
  if n = 8 ∧ !wide ∧ (s.winRead off 8).isNone then
    let lo := one s off 4
    let hi := one lo.2 (off + 4) 4
    (lo.1 ++ hi.1, hi.2)
  else one s off n

/-- The aligned units of a range: 8-byte pairs it covers whole, other words alone (R502). -/
def accessUnits : Nat → Nat → Nat → List (Nat × Nat)
  | 0, _, _ => []
  | k + 1, off, n =>
    if n = 0 then []
    else if off % 8 = 0 ∧ 8 ≤ n then (off, 8) :: accessUnits k (off + 8) (n - 8)
    else (off, 4) :: accessUnits k (off + 4) (n - 4)

/-- A read of a range of bytes: of the words that hold it. -/
def State.readRange (s : State) (path : Path) (off n : Nat) : List Byte × State :=
  let first := off / 4 * 4
  let len := (off + n + 3) / 4 * 4 - first
  let q := (accessUnits (len / 4) first len).foldl (fun (a : List Byte × State) u =>
    let r := (a.2.touchDomain u.1).overLink u.1 u.2 none fun s => s.readUnit path u.1 u.2
    (a.1 ++ r.1, r.2)) ([], s)
  (slice q.1 (off - first) n, q.2)

/-- A write of 4 or 8 bytes at an aligned offset; two registers of 4 bytes are written one after the other. -/
def State.writeUnit (s : State) (path : Path) (link off : Nat) (data : List Byte) : State :=
  let n := data.length
  let one := fun (s : State) (off : Nat) (d : List Byte) =>
    let area := if winBase ≤ off then s.areaWrite ((off - winBase) / 0x100000) (off % 0x100000) d else s.winWrite off d
    match area, locate off with
    | some t, _ => t
    | none, none => if winBase ≤ off then s.bump F.HPT_UR 1 link else s.refuseAt off
    | none, some (r, i, b) => s.writeReg path link off r i (ofLE d <<< (8 * b)) ((2 ^ (8 * d.length) - 1) <<< (8 * b))
  let wide := (locate off).all fun q => q.1.bytes == 8
  if n = 8 ∧ !wide ∧ (s.winRead off 8).isNone then one (one s off (data.take 4)) (off + 4) (data.drop 4)
  else one s off data

/-- A write of 4 or 8 bytes reaches its register. -/
def State.writeAt (s : State) (path : Path) (link off : Nat) (data : List Byte) : State :=
  ((s.touchDomain off).overLink off data.length (some data) fun s => ([], s.writeUnit path link off data)).2

/-! ### Paths (R315, R493, R510, R512) -/

/-- Path 2 before a grant: the credential registers (R510). -/
def credOffset (off : Nat) : Bool :=
  (decide (0x7000100 ≤ off) && decide (off < 0x7000108)) || (decide (0x7001000 ≤ off) && decide (off < 0x7001200))

/-- Path 2 in RECOVERY after a grant (R493). -/
def recoveryOffset (off : Nat) : Bool :=
  (match blkAt off with
    | some (b, _, _) => b == .GLB || b == .LOG || b == .TRU || b == .MGT
    | none => false)
    || off / 4 == 0x10000C / 4 || (decide (0x180000 ≤ off) && decide (off < 0x200000)) || off / 4 == 0x300018 / 4

/-- Whether path 2 answers an offset at all. -/
def State.pf0Answers (s : State) (off : Nat) : Bool :=
  s.pathOpen mgtPath2 && decide (off < winBase)
    && (credOffset off || (s.pf0Holds && (s.rd F.MGT_BOOT_mode != 2 || recoveryOffset off)))

/-- Registers of an instance window that answer on every link that may attach it (R315). -/
def attachOffset (o : Nat) : Bool := decide (0x20000 ≤ o) && decide (o < 0x20018)

/-- Whether an instance window answers an offset on a link (R315, R377). -/
def State.winAnswers (s : State) (link vf o : Nat) : Bool :=
  s.barAnswers link vf && (if attachOffset o then s.rd F.PTN_INST_state vf != instAbsent else s.onLink link vf) && decide (o < 0x100000)

/-- In RECOVERY only CHIP_RESET of RST_CMD is reached (R493). -/
def State.recoveryWrite (s : State) (off : Nat) (data : List Byte) : Bool :=
  s.rd F.MGT_BOOT_mode != 2 || off / 4 != 0x300018 / 4 || ofLE data % 8 == 2

/-- Whether an access on a path is one that the path's alignment rule takes (R513). -/
def alignedWrite (off n : Nat) : Bool := (n == 4 || n == 8) && off % n == 0

/-- A write on a path, with the link it comes by for an instance window. -/
def State.regWrite (s : State) (path : Path) (link off : Nat) (data : List Byte) : State :=
  let go := fun (s : State) (base : Nat) =>
    if !s.reaches (base + off) data.length then s
    else if alignedWrite off data.length then s.writeAt path link (base + off) data
    else s.refuseAt (base + off)
  match path with
  | .conn => if s.mgt.session.any fun z => z.conn.isSome then go s.touchSession 0 else s
  | .pf0 =>
    if !s.linkUp 0 ∨ s.isRoot 0 then s
    else if !s.pf0Answers off ∨ !s.recoveryWrite off data then s.unsupported 0 none
    else go (if s.pf0Holds then s.touchSession else s) 0
  | .pf l => if s.linkUp l && !s.isRoot l then s.unsupported l none else s
  | .inst vf =>
    if !s.linkUp link then s
    else if s.winAnswers link vf off then go s (winBase + vf * 0x100000) else s.unsupported link none

/-- A read on a path that a completion answers; `none` where no completion is due. -/
def State.regRead (s : State) (path : Path) (link off n : Nat) : State :=
  let go := fun (s : State) (base link : Nat) =>
    if !s.reaches (base + off) n then s
    else (let q := s.readRange path (base + off) n; q.2.emit (.tlpCpl link 0 q.1))
  match path with
  | .conn => if s.mgt.session.any fun z => z.conn.isSome then (if s.reaches off n then (s.touchSession.readRange path off n).2 else s) else s
  | .pf0 =>
    if !s.linkUp 0 ∨ s.isRoot 0 then s
    else if !s.pf0Answers off then s.unsupported 0 (some n)
    else go (if s.pf0Holds then s.touchSession else s) 0 0
  | .pf l => if s.linkUp l && !s.isRoot l then s.unsupported l (some n) else s
  | .inst vf =>
    if !s.linkUp link then s
    else if s.winAnswers link vf off then go s (winBase + vf * 0x100000) link else s.unsupported link (some n)

/-- Operands of an access are of the device: links 0-15, instances 0-1,023. -/
def pathOk (path : Path) (link : Nat) : Bool :=
  decide (link < 16) && (match path with
    | .inst vf => decide (vf < 1024)
    | .pf l => decide (l < 16)
    | _ => true)

/-- REGISTER_WRITE (R10): a write on a path. -/
def execRegisterWrite (path : Path) (link off : Nat) (data : List Byte) (s : State) : Host.Outcome State Fault Refusal :=
  actOn (pathOk path link) s fun s => s.regWrite path link off data

/-- COUNTER_LOW_HALF_READ (R448): a 4-byte read on a path. -/
def execCounterLowHalfRead (path : Path) (link off : Nat) (s : State) : Host.Outcome State Fault Refusal :=
  actOn (pathOk path link) s fun s => s.regRead path link off 4

/-! ### Messages of the manager (R501, R502) -/

/-- Whether a REG message's range is sound (R502). -/
def regRangeOk (off n : Nat) : Bool :=
  off % 4 == 0 && n % 4 == 0 && decide (4 ≤ n) && decide (n ≤ 4096) && decide (off + n ≤ winBase)

/-- Runs a REG message, write or read by whether it carries data: its status and what it read. -/
def State.runReg (s : State) (off n : Nat) (data : Option (List Byte)) : Nat × List Byte × State :=
  if !regRangeOk off n then (1, [], s)
  else match data with
  | none => let q := s.readRange .conn off n; (0, q.1, q.2)
  | some d =>
    let before := s.wrefused
    let t := (accessUnits (n / 4) off n).foldl (fun (s : State) u => s.writeAt .conn 0 u.1 (slice d (u.1 - off) u.2)) s
    (if t.wrefused = before then 0 else 2, [], t)

/-- A REG message's own body: offset, length, and the data of a write. -/
def regBody (b : Nat × List Byte) : Nat × Nat × Option (List Byte) :=
  (b.1, fieldLE b.2 0 4, if fieldLE b.2 4 1 = 1 then some (b.2.drop 5) else none)

/-- Runs the REG message whose turn it is, and those held behind it (R502); one whose registers do not answer stops them. -/
def State.runRegs (s : State) (k : Nat) : Nat → State
  | 0 => s
  | n + 1 =>
    match s.mgt.session with
    | none => s
    | some z =>
      match Tbl.get? z.held z.seq with
      | none => s
      | some b =>
        let q := regBody b
        if regRangeOk q.1 q.2.1 && !s.reaches q.1 q.2.1 then s else
        let s : State := { s with mgt := { s.mgt with session := some { z with seq := (z.seq + 1) % 2 ^ 32, held := Tbl.erase z.held z.seq } } }
        let r := s.runReg q.1 q.2.1 q.2.2
        ((r.2.2.regResp k z.seq r.1 r.2.1).mgtSweep).runRegs k n

/-- A REG message reaches the device (R499, R501, R502): on the connection that holds the role it runs in `seq` order, early ones held up to
64; on another it is discarded, or answered status 3 where that connection's session has ended. -/
def State.regMsg (s : State) (k seq off n : Nat) (data : Option (List Byte)) : State :=
  if !s.mgtOpen k then s
  else if !s.connHolds k then
    (if (s.conn? (mgtConnBase + k)).any (·.enc) then s.regResp k seq 3 [] else s.mgtDrop)
  else match s.touchSession.mgt.session with
  | none => s
  | some z =>
    let ahead := (seq + 2 ^ 32 - z.seq) % 2 ^ 32
    if 2 ^ 31 ≤ ahead ∨ (Tbl.get? z.held seq).isSome ∨ (ahead ≠ 0 ∧ 64 ≤ z.held.length) then s.touchSession.mgtDrop
    else
      let body := (off, leBytes 4 n ++ (match data with
        | some d => leBytes 1 1 ++ d
        | none => leBytes 1 0))
      State.runRegs { s with mgt := { s.mgt with session := some { z with held := Tbl.set z.held seq body } } } k 66

/-- REG_READ. -/
def execRegRead (k seq off len : Nat) (s : State) : Host.Outcome State Fault Refusal :=
  actOn (decide (k < 8)) s fun s => s.regMsg k (seq % 2 ^ 32) (off % 2 ^ 32) (len % 2 ^ 32) none

/-- REG_WRITE. -/
def execRegWrite (k seq off : Nat) (data : List Byte) (s : State) : Host.Outcome State Fault Refusal :=
  actOn (decide (k < 8)) s fun s => s.regMsg k (seq % 2 ^ 32) (off % 2 ^ 32) data.length (some data)

/-- REG_ACCESS_TIMEOUT (R516): an access is not answered within 1 ms. A read returns all ones, a write is lost, TIMEOUT is logged with the
offset; on path 1 the message being run is answered so. -/
def State.regTimeout (s : State) (path : Path) (link off n : Nat) (write : Bool) : State :=
  let ones := List.replicate n (0xFF : Byte)
  let b := match path with
    | .inst vf => whereAt (winBase + vf * 0x100000 + off)
    | _ => whereAt off
  let s := s.logEv b.1 .timeout 0 off b.2.1
  match path with
  | .conn =>
    (match s.mgt.session with
    | some z => (match z.conn with
      | some k =>
        let z' : Session := { z with seq := (z.seq + 1) % 2 ^ 32, held := Tbl.erase z.held z.seq }
        (State.regResp { s with mgt := { s.mgt with session := some z' } } k z.seq 0 (if write then [] else ones)).runRegs k 66
      | none => s)
    | none => s)
  | .pf0 => if write then s else s.emit (.tlpCpl 0 0 ones)
  | .pf l => if write then s else s.emit (.tlpCpl l 0 ones)
  | .inst _ => if write then s else s.emit (.tlpCpl link 0 ones)

/-- REG_ACCESS_TIMEOUT. -/
def execRegAccessTimeout (path : Path) (link off len : Nat) (write : Bool) (s : State) : Host.Outcome State Fault Refusal :=
  actOn (pathOk path link) s fun s => s.regTimeout path link off len write

end Sys2Proof.Machine
end

