-- ==== Sys2Proof/Machine/Copy.lean ====
section
/-!
DEFINITION. COPY (R241): a local conversion of `count` elements between formats (R61, R70, R71, R73, R79), with its admission (R263).
-/

namespace Sys2Proof.Machine

/-- The body of a COPY (R241). -/
structure CopyBody where
  src : Nat
  dst : Nat
  srcScale : Nat
  dstScale : Nat
  count : Nat
  fw : Fmtw
  deriving DecidableEq, Repr

/-- Reads the body of a COPY. -/
def copyBody (d : List Byte) : CopyBody :=
  ⟨fieldLE d 16 8, fieldLE d 24 8, fieldLE d 32 8, fieldLE d 40 8, fieldLE d 48 4, fmtwOf (fieldLE d 52 3)⟩

/-- The ranges that elements of a format take: one, or with `split` the elements and the scales (R67). -/
def fmtRanges (fmt side addr scale n : Nat) : List (Nat × Nat) :=
  if isMx fmt ∧ bitAt side 1 then [(addr, elemBytes fmt n), (scale, scaleBytes fmt n)] else [(addr, wireBytes fmt n)]

/-- The ranges read and written. -/
def CopyBody.ins (b : CopyBody) : List (Nat × Nat) := fmtRanges b.fw.fmtIn b.fw.sideIn b.src b.srcScale b.count
def CopyBody.outs (b : CopyBody) : List (Nat × Nat) := fmtRanges b.fw.fmtOut b.fw.sideOut b.dst b.dstScale b.count

/-- Bytes that 32 elements of a format take in their main range. -/
def blockStep (fmt side : Nat) : Nat := if isMx fmt ∧ bitAt side 1 then elemBytes fmt 32 else wireBytes fmt 32

/-- The part of a COPY from an element on, a multiple of 32 (R336): as many blocks of 32 elements as lie in one page of the input and one of the output, at
least one, and no more than are left. -/
def CopyBody.piece (b : CopyBody) (m : Nat) : CopyBody :=
  let bi := blockStep b.fw.fmtIn b.fw.sideIn
  let bo := blockStep b.fw.fmtOut b.fw.sideOut
  let src := b.src + m / 32 * bi
  let dst := b.dst + m / 32 * bo
  let blocks := max 1 (min ((4096 - src % 4096) / bi) ((4096 - dst % 4096) / bo))
  { b with src := src, dst := dst, srcScale := b.srcScale + m / 32, dstScale := b.dstScale + m / 32, count := min (32 * blocks) (b.count - m) }

/-- The format rules of R61 and R67, and `acc_fmt` 0 (R241). -/
def CopyBody.bad (b : CopyBody) : Bool :=
  b.fw.bad || b.fw.accFmt != 0 || b.fw.badCount b.count || (!(isMx b.fw.fmtIn && bitAt b.fw.sideIn 1) && b.srcScale != 0)
    || (!(isMx b.fw.fmtOut && bitAt b.fw.sideOut 1) && b.dstScale != 0)

/-- Whether two places overlap. -/
def placesMeet (a b : Loc × Nat) : Bool :=
  match a.1, b.1 with
  | .dev x, .dev y => decide (x < y + b.2) && decide (y < x + a.2)
  | .host l x, .host m y => l == m && decide (x < y + b.2) && decide (y < x + a.2)
  | _, _ => false

/-- Whether the output is left open (R79): the whole ranges overlap, or the places of the part in hand do, and they do not start at the same address
with an output element no larger than the input's. -/
def CopyBody.openOut (b : CopyBody) (ins outs : List (Loc × Nat)) : Bool :=
  (ins.any (fun i => outs.any (placesMeet i))
      || b.ins.any (fun i => b.outs.any fun o => decide (i.1 < o.1 + o.2) && decide (o.1 < i.1 + i.2))) &&
    !(b.src == b.dst && decide (fmtWidth b.fw.fmtOut (sideKind b.fw.fmtOut b.fw.sideOut) ≤ fmtWidth b.fw.fmtIn (sideKind b.fw.fmtIn b.fw.sideIn)))

/-- Draws `n` free bytes. -/
def State.drawBytes (s : State) (n : Nat) : List Byte × State :=
  ((List.range n).map fun i => BitVec.ofNat 8 (Config.free (s.fresh + i)).toNat, { s with fresh := s.fresh + n })

/-- Writes data at several places of an operation and notes the links it wrote. -/
def State.writeParts2 (s : State) (id : Nat) (o : Op) : List (List (Loc × Nat) × List Byte) → State
  | [] => s
  | (ls, d) :: t =>
    (((s.writeLocs o.vf o.tag (some id) ls d).modOp id fun o => { o with wrote := lastWrites ls o.wrote })).writeParts2 id o t

/-- Converts and writes a part `b` of the COPY `whole`, once its input is at hand. -/
def State.convert (s : State) (id : Nat) (o : Op) (whole b : CopyBody) (ins outs : List (List (Loc × Nat))) : State :=
  let got := ins.map s.readLocs
  let data := match got with
    | [el, sc] => joinMx b.fw.fmtIn el sc
    | l => l.flatten
  let vals := decodeRun b.fw.fmtIn (sideKind b.fw.fmtIn b.fw.sideIn) b.count data
  match s.opRoundings id b.fw.rnd b.count with
  | (r, s) =>
    let e := encodeRun b.fw.fmtOut (sideKind b.fw.fmtOut b.fw.sideOut) (b.fw.sat == 1) r vals
    let special := (vals.zip e.2).any fun q => q.2.special q.1.isNan q.1.isInf
    let parts := if isMx b.fw.fmtOut ∧ bitAt b.fw.sideOut 1 then (let q := splitMx b.fw.fmtOut e.1; [q.1, q.2]) else [e.1]
    let (parts, s) := if whole.openOut ins.flatten outs.flatten then
        parts.foldl (fun (acc : List (List Byte) × State) p => match acc.2.drawBytes p.length with
          | (d, s) => (acc.1 ++ [d], s)) ([], s)
      else (parts, s)
    let s := (s.writeParts2 id o (outs.zip parts)).markSpecial id special
    s.modOp id fun o => { o with moved := o.moved + b.count }

/-- Translates several ranges of an operation, each page once (R336). -/
def State.lookupEach (s : State) (id : Nat) (o : Op) (acc : AccKind) (begun : Bool) :
    List (Nat × Nat) → Except Stop (List (List (Loc × Nat))) × State
  | [] => (.ok [], s)
  | (va, n) :: t =>
    match s.lookupFor id o.part o.vf o.tag va n acc begun with
    | (.error e, s) => (.error e, s)
    | (.ok l, s) => match s.lookupEach id o acc begun t with
      | (.ok ls, s) => (.ok (l :: ls), s)
      | (.error e, s) => (.error e, s)

/-- One part of a COPY: its pages are translated as it touches them (R336), its input read, over host links first where it lies there, and its output
written. Whether the part was moved: else it is held, waits for its reads, or has ended the operation. -/
def State.copyPiece (s : State) (id : Nat) (o : Op) (whole b : CopyBody) (ready : Bool) : Bool × State :=
  match s.lookupEach id o .read ready b.ins with
  | (.error e, s) => (false, s.stopOp id o .read e)
  | (.ok ins, s) =>
    let hosts := hostLocs ins.flatten
    match s.badFor o.part (some id) ins.flatten with
    | (true, s) => (false, s.endOp id Status.checkFailed 0)
    | (false, s) =>
      if !ready ∧ !hosts.isEmpty then (false, (s.modOp id fun o => { o with phase := .reading }).issueReads (.op id) o.vf o.tag hosts)
      else match s.lookupEach id o .write false b.outs with
        | (.error e, s) => (false, s.stopOp id o .write e)
        | (.ok outs, s) => (true, s.convert id o whole b ins outs)

/-- The parts of a COPY one after the other, from where it stands (R340); at the end its completion. -/
def State.copyOn (s : State) (id : Nat) (ready : Bool) : Nat → State
  | 0 => s
  | n + 1 =>
    match s.op? id with
    | none => s
    | some o =>
      let b := copyBody o.desc
      if b.count ≤ o.moved then (s.modOp id fun o => { o with cqe := { o.cqe with result := leBytes 4 b.count } }).endOp id Status.ok 0
      else match s.copyPiece id o b (b.piece o.moved) ready with
        | (true, s) => s.copyOn id false n
        | (false, s) => s

/-- Begins, or goes on with after a hold or a read, the data movement of a COPY. -/
def State.startCopy (s : State) (id : Nat) (ready : Bool) : State :=
  match s.op? id with
  | none => s
  | some o =>
    if o.phase = .ending ∨ o.phase = .flushing ∨ o.phase = .done then s else s.copyOn id ready (o.length + 2)

/-- Adds up what falls on the same link and direction. -/
def mergeLinks (l : List (Nat × Nat × Nat)) : List (Nat × Nat × Nat) :=
  l.foldl (fun acc q =>
    if acc.any fun r => r.1 == q.1 && r.2.1 == q.2.1 then acc.map fun r => if r.1 = q.1 ∧ r.2.1 = q.2.1 then (r.1, r.2.1, r.2.2 + q.2.2) else r
    else acc ++ [q]) []

/-- COPY (R241, R61, R261, R270): its operations move the larger of the bytes read and written (log entry 26). -/
def State.copyEntry (s : State) (f : Fetched) (h : DescHdr) : State :=
  let b := copyBody f.desc
  let vf := ringVf f.key
  let p := s.rd F.PTN_INST_partition vf
  let bytes := fun (l : List (Nat × Nat)) => sumNat (l.map Prod.snd)
  if !s.tenantOk vf h true then s.endEntry f Status.accessLocal 0
  else if b.bad ∨ (h.cls = 0 ∧ 192 < max (bytes b.ins) (bytes b.outs)) then s.endEntry f Status.formatUnsupported 0
  else
    let links := (b.ins.map fun q => s.linkCharge vf p h.tag q.1 q.2 1).flatten ++ (b.outs.map fun q => s.linkCharge vf p h.tag q.1 q.2 0).flatten
    match s.gateIn vf p h.cls { Charge.none with links := mergeLinks links } with
    | (.error st, s) => s.endEntry f st 0
    | (.ok a, s) =>
      match s.newOp f a .running b.count with
      | (id, s) => s.startCopy id false

/-- COPY. -/
def execCopy (key count : Nat) (s : State) : Host.Outcome State Fault Refusal :=
  onEntry key count 7 s fun s f h => s.copyEntry f h

end Sys2Proof.Machine
end

