-- ==== Sys2Proof/Machine/Receive.lean ====
section
/-!
DEFINITION. Arriving packets and frames (R203-R227, R286-R309): each BXT and RoCEv2 packet to what takes it, the messages of the management
connections (R501), the rows of packet types, of frames, of weather and of host-link loss.
-/

namespace Sys2Proof.Machine

/-! ### What follows every arrival -/

/-- No cipher core is active any more (R457): a chip reset of cause 8. -/
def State.coresOut (s : State) : State :=
  if s.rd F.RST_STATUS_retired = 0 ∧ (List.range 18).all (fun c => s.rd F.CPH_CORE_STATE_state c == 2) then s.lastUnit kCipher 0 0 0 else s

/-- What a change may have set going elsewhere: the commons' messages between ranks, the ends of management sessions, results acknowledged. -/
def State.settle (s : State) : State := (s.resultsAcked.cmnRun.mgtSweep).coresOut

/-! ### Management messages (R501) -/

/-- A whole message on management connection k, named by its `imm`. -/
def State.mgtMessage (s : State) (k imm : Nat) (b : List Byte) : State :=
  let bad := s.mgtBadLen imm
  if imm = 0x4D470001 then (if b.isEmpty then s.challenge k else bad)
  else if imm = 0x4D470003 then s.proofMsg k b
  else if imm = 0x4D470010 then (if b.length = 12 then s.regMsg k (fieldLE b 0 4) (fieldLE b 4 4) (fieldLE b 8 4) none else bad)
  else if imm = 0x4D470011 then
    (if 12 ≤ b.length ∧ b.length = 12 + fieldLE b 8 4 then s.regMsg k (fieldLE b 0 4) (fieldLE b 4 4) (fieldLE b 8 4) (some (b.drop 12)) else bad)
  else if imm = 0x4D470013 then (if b.isEmpty then s.relinquish k else bad)
  else if imm = 0x57580002 then (if s.connHolds k then s.touchSession.wxUpdate b else s.mgtDrop)
  else s.mgtDrop

/-! ### BXT packets (R203-R221) -/

/-- A packet that judging has let through, on its connection: each type to what takes it. Requests to memory on a connection that is not a
tenant's are answered ACCESS (log entry 43). Answers the connections that moved to ERROR. -/
def State.takePkt (s : State) (c : Nat) (k : Conn) (p : Packet) : State :=
  let tenant := fun (s : State) => if k.svc = 0 then s.placePkt c p none else s.refuse c p Nak.access
  match p.ext with
  | .write .. => tenant s
  | .readReq .. => tenant s
  | .atomic .. => tenant s
  | .send _ imm =>
    if k.svc = 0 then s.placePkt c p none
    else if k.svc ≠ 1 then s.refuse c p Nak.access
    else
      match s.takeMsgBytes c k p with
      | (some b, s) => s.mgtMessage (c - mgtConnBase) imm b
      | (none, s) => s
  | .readResp req => s.onReadResp c p req none
  | .atomicResp r => s.onAtomicResp c k p.psn r
  | .ack cum sp sm ce ts => s.onAck c k p cum sp sm ce ts
  | .nak code reason _ psn epoch _ => s.onNak c k p code reason psn epoch
  | .grant mask valid budget => s.onGrant c k mask valid budget
  | .ctrl n _ _ _ msn => s.takeCtrl c k p n msn
  | .chunk hdr => s.takeChunkPkt c k p hdr
  | .coord kind gen nseq group rank key => s.takeCoordPkt c k p kind gen nseq group rank key
  | .reserved _ => s.bump F.BXT_INVALID

/-- Whether a RETIRED device admits a packet (R464): those of management connections and their PROBEs. -/
def State.admitsPkt (s : State) (p : Packet) : Bool :=
  s.rd F.RST_STATUS_retired == 0 || (match p.ext with
    | .ctrl 1 _ svc _ _ => svc == 1
    | _ => (s.conn? p.dstConn).any fun k => k.svc == 1)

/-- A BXT packet for this device arrives. -/
def State.rxPkt (s : State) (p : Packet) : State :=
  if !s.admitsPkt p then s
  else if (s.conn? p.dstConn).any (·.roce) then s.bump F.BXT_INVALID
  else match p.ext with
  | .ctrl 1 src svc group _ => s.onProbe p src svc group
  | .ctrl 2 src svc group _ => s.onProbeAck p src svc group
  | .nak 7 _ _ psn _ unk =>
    if p.dstConn = 0 then (let q := s.rxUnknown p psn unk; q.2.lostCmn q.1) else s.bump F.BXT_INVALID
  | _ =>
    match s.judge p with
    | (.gone, s) => s
    | (.take c k p, s) => s.takePkt c k p

/-- The row of a packet type: a packet with its extension. -/
def pktRow (p : Packet) (e : Ext) (s : State) : Host.Outcome State Fault Refusal :=
  act s fun s => (s.rxPkt { p with ext := e }).settle

/-- BXT_WRITE. -/
def execBxtWrite (raddr rkey : Nat) (p : Packet) (s : State) : Host.Outcome State Fault Refusal := pktRow p (.write raddr rkey) s

/-- BXT_SEND. -/
def execBxtSend (ssn imm : Nat) (p : Packet) (s : State) : Host.Outcome State Fault Refusal := pktRow p (.send ssn imm) s

/-- READ_REQ. -/
def execReadReq (raddr rkey rdLen : Nat) (p : Packet) (s : State) : Host.Outcome State Fault Refusal := pktRow p (.readReq raddr rkey rdLen) s

/-- READ_RESP. -/
def execReadResp (reqPsn : Nat) (p : Packet) (s : State) : Host.Outcome State Fault Refusal := pktRow p (.readResp reqPsn) s

/-- BXT_ATOMIC. -/
def execBxtAtomic (raddr rkey aop opnd0 opnd1 : Nat) (p : Packet) (s : State) : Host.Outcome State Fault Refusal :=
  pktRow p (.atomic raddr rkey aop opnd0 opnd1) s

/-- ATOMIC_RESP. -/
def execAtomicResp (result : Nat) (p : Packet) (s : State) : Host.Outcome State Fault Refusal := pktRow p (.atomicResp result) s

/-- ACK. -/
def execAck (cumPsn sackPsn sackMap ceCount echoTs : Nat) (p : Packet) (s : State) : Host.Outcome State Fault Refusal :=
  pktRow p (.ack cumPsn sackPsn sackMap ceCount echoTs) s

/-- NAK. -/
def execNak (code nrReason retryUs nakPsn respEpoch unkConn : Nat) (p : Packet) (s : State) : Host.Outcome State Fault Refusal :=
  pktRow p (.nak code nrReason retryUs nakPsn respEpoch unkConn) s

/-- GRANT. -/
def execGrant (classMask validUs : Nat) (budget : List Nat) (p : Packet) (s : State) : Host.Outcome State Fault Refusal :=
  pktRow p (.grant classMask validUs budget) s

/-- PROBE. -/
def execProbe (srcConn svc group : Nat) (p : Packet) (s : State) : Host.Outcome State Fault Refusal := pktRow p (.ctrl 1 srcConn svc group 0) s

/-- PROBE_ACK. -/
def execProbeAck (srcConn svc group : Nat) (p : Packet) (s : State) : Host.Outcome State Fault Refusal := pktRow p (.ctrl 2 srcConn svc group 0) s

/-- KEEPALIVE. -/
def execKeepalive (svc group : Nat) (p : Packet) (s : State) : Host.Outcome State Fault Refusal := pktRow p (.ctrl 3 0 svc group 0) s

/-- CLOSE. -/
def execClose (svc group : Nat) (p : Packet) (s : State) : Host.Outcome State Fault Refusal := pktRow p (.ctrl 4 0 svc group 0) s

/-- CLOSE_ACK. -/
def execCloseAck (svc group : Nat) (p : Packet) (s : State) : Host.Outcome State Fault Refusal := pktRow p (.ctrl 5 0 svc group 0) s

/-- REFUSAL_SEEN (R534). -/
def execRefusalSeen (svc group refMsn : Nat) (p : Packet) (s : State) : Host.Outcome State Fault Refusal := pktRow p (.ctrl 6 0 svc group refMsn) s

/-- CHUNK (R100). -/
def execChunk (hdr : List Byte) (p : Packet) (s : State) : Host.Outcome State Fault Refusal := pktRow p (.chunk hdr) s

/-- The COORD messages of R206, by kind. -/
def execStart (gen nseq group rank op : Nat) (p : Packet) (s : State) : Host.Outcome State Fault Refusal := pktRow p (.coord 1 gen nseq group rank op) s
/-- GO. -/
def execGo (gen nseq group rank op : Nat) (p : Packet) (s : State) : Host.Outcome State Fault Refusal := pktRow p (.coord 2 gen nseq group rank op) s
/-- DONE. -/
def execDone (gen nseq group rank op : Nat) (p : Packet) (s : State) : Host.Outcome State Fault Refusal := pktRow p (.coord 3 gen nseq group rank op) s
/-- REDUCED. -/
def execReduced (gen nseq group rank op : Nat) (p : Packet) (s : State) : Host.Outcome State Fault Refusal := pktRow p (.coord 4 gen nseq group rank op) s
/-- REDUCE_COMMIT. -/
def execReduceCommit (gen nseq group rank op : Nat) (p : Packet) (s : State) : Host.Outcome State Fault Refusal :=
  pktRow p (.coord 5 gen nseq group rank op) s
/-- PUBLISHED. -/
def execPublished (gen nseq group rank op : Nat) (p : Packet) (s : State) : Host.Outcome State Fault Refusal :=
  pktRow p (.coord 6 gen nseq group rank op) s
/-- COMMIT. -/
def execCommit (gen nseq group rank op : Nat) (p : Packet) (s : State) : Host.Outcome State Fault Refusal := pktRow p (.coord 7 gen nseq group rank op) s
/-- VOID. -/
def execVoid (gen nseq group rank op : Nat) (p : Packet) (s : State) : Host.Outcome State Fault Refusal := pktRow p (.coord 8 gen nseq group rank op) s
/-- VOID_ACK. -/
def execVoidAck (gen nseq group rank op : Nat) (p : Packet) (s : State) : Host.Outcome State Fault Refusal := pktRow p (.coord 9 gen nseq group rank op) s
/-- RERUN. -/
def execRerun (gen nseq group rank op : Nat) (p : Packet) (s : State) : Host.Outcome State Fault Refusal := pktRow p (.coord 10 gen nseq group rank op) s
/-- ABANDON. -/
def execAbandon (gen nseq group rank op : Nat) (p : Packet) (s : State) : Host.Outcome State Fault Refusal := pktRow p (.coord 11 gen nseq group rank op) s
/-- RECONCILE. -/
def execReconcile (gen nseq group rank op : Nat) (p : Packet) (s : State) : Host.Outcome State Fault Refusal :=
  pktRow p (.coord 12 gen nseq group rank op) s
/-- FOLDED. -/
def execFolded (gen nseq group rank op : Nat) (p : Packet) (s : State) : Host.Outcome State Fault Refusal := pktRow p (.coord 13 gen nseq group rank op) s
/-- COORD_KEEPALIVE. -/
def execCoordKeepalive (gen nseq group rank op : Nat) (p : Packet) (s : State) : Host.Outcome State Fault Refusal :=
  pktRow p (.coord 14 gen nseq group rank op) s
/-- LOSS. -/
def execLoss (gen nseq group rank op : Nat) (p : Packet) (s : State) : Host.Outcome State Fault Refusal := pktRow p (.coord 15 gen nseq group rank op) s

/-- ROCE_PACKET (R227); a RETIRED device takes none. -/
def execRocePacket (p : RocePacket) (s : State) : Host.Outcome State Fault Refusal :=
  act s fun s => if s.rd F.RST_STATUS_retired = 1 then s else (s.rxRoce p).settle

/-- CONTEXT_FETCH_DONE (R222): the packets that waited for the context proceed in order. Where no way of its set is eligible they wait on (R223),
until one is or the fetch's time is over; where the end is gone they are answered as late. -/
def State.contextCame (s : State) (c : Nat) : State :=
  if (s.conn? c).isNone then s.fetchTimeout c
  else match s.bringIn c with
  | (false, s) => s
  | (true, s) =>
    let mine := s.bxt.fetching.filter fun p => p.dstConn == c
    let roce := s.bxt.roceFetching.filter fun p => p.qp == c
    let s := roce.foldl State.takeRoce { s with bxt := { s.bxt with
      fetching := s.bxt.fetching.filter fun p => p.dstConn != c, roceFetching := s.bxt.roceFetching.filter fun p => p.qp != c } }
    mine.foldl (fun (s : State) p => match s.conn? c with
    | none => s
    | some k => (match p.ext with
      | .ctrl 1 src svc _ _ => s.probeEnd p src svc c k
      | .ctrl 2 src svc group _ => s.probeAcked p src svc group c k
      | _ => (match s.judgeOn c k p with
        | (.gone, s) => s
        | (.take c k p, s) => s.takePkt c k p))) s

def execContextFetchDone (conn : Nat) (s : State) : Host.Outcome State Fault Refusal := act s fun s => (s.contextCame conn).settle

/-- RETRANSMIT_TIMEOUT (R213): of a PSN, or of a RoCEv2 connection's oldest request. -/
def State.retransmitTimer (s : State) (c psn : Nat) : State :=
  match s.conn? c with
  | none => s
  | some k => let q := if k.roce then s.roceTimeout c k else s.retransmit c psn; q.2.lostCmn q.1

def execRetransmitTimeout (conn psn : Nat) (s : State) : Host.Outcome State Fault Refusal := act s fun s => (s.retransmitTimer conn psn).settle

/-- ARM_TIMEOUT (R211). -/
def State.armTimer (s : State) (c : Nat) : State :=
  match s.conn? c with
  | some k => if k.state = .armed then ((s.bump F.BXT_PEER_LOST).errorConn c Status.peerLost).lostCmn [c] else s
  | none => s

def execArmTimeout (conn : Nat) (s : State) : Host.Outcome State Fault Refusal := act s fun s => (s.armTimer conn).settle

/-! ### Frames -/

/-- A frame to be delivered: a BXT or RoCEv2 packet to the transport; of other frames the spec says nothing more here. A RETIRED device
carries class 7 only (R464). -/
def State.deliverFrame (s : State) (f : Frame) : State :=
  match f.body with
  | .bxt p => s.rxPkt p
  | .roce p => if s.rd F.RST_STATUS_retired = 1 then s else s.rxRoce p
  | _ => s

/-- Whether a RETIRED device's ports carry a frame (R464). -/
def State.portCarries (s : State) (f : Frame) : Bool :=
  s.rd F.RST_STATUS_retired == 0 || (match f.body with
    | .bxt p => p.cls == 7
    | .roce _ => false
    | _ => true)

/-- A frame arrives at a logical port and is delivered where it is for this device. -/
def State.receiveFrame (s : State) (port : Nat) (f : Frame) : State :=
  if !s.portCarries f then s
  else match s.rxFrame port f with
  | (some f, s) => (s.deliverFrame f).settle
  | (none, s) => s.settle

/-- FRAME_RECEIVE (R287). -/
def execFrameReceive (port : Nat) (f : Frame) (s : State) : Host.Outcome State Fault Refusal :=
  actOn (decide (port < 64)) s fun s => s.receiveFrame port f

/-- HOP_DATA_FRAME (R304): a frame with a data or FILLER shim. -/
def execHopDataFrame (port : Nat) (shim : Shim) (f : Frame) (s : State) : Host.Outcome State Fault Refusal :=
  actOn (decide (port < 64)) s fun s => s.receiveFrame port { f with shim := some shim }

/-! ### Weather (R305, R306) -/

/-- WEATHER_REPORT_TIMER: on the management connection that holds the role; without one nothing is sent. -/
def State.sendWeather (s : State) : State :=
  match s.mgt.session.bind (·.conn) with
  | some k => if s.mgtOpen k then (let q := s.wxReport; q.2.mgtSend k 0x57580001 q.1) else s
  | none => s

def execWeatherReportTimer (s : State) : Host.Outcome State Fault Refusal := act s State.sendWeather

/-- WEATHER_UPDATE: a merged update on a management connection (R306, R501). -/
def execWeatherUpdate (k : Nat) (body : List Byte) (s : State) : Host.Outcome State Fault Refusal :=
  actOn (decide (k < 8)) s fun s => if s.mgtOpen k then s.mgtMessage k 0x57580002 body else s

/-! ### Host links (R322) -/

/-- A host link is lost, and on link 0 path 2's session with it (R499). -/
def State.hostLinkLost (s : State) (link : Nat) : State :=
  let s := s.linkLoss link
  (if link = 0 then s.pf0Lost else s).settle

/-- HOST_LINK_LOSS: a hot reset, a secondary bus reset, DL_Down or the loss of a link. -/
def execHostLinkLoss (link : Nat) (s : State) : Host.Outcome State Fault Refusal :=
  actOn (decide (link < 16) && s.linkExists link) s fun s => s.hostLinkLost link

/-- A link changes width or speed in service, lanes of it having failed perhaps (R311): nothing is lost, and the operations it slows record cause 6.
Where the lanes left do not carry the width, it trains as wide as they do (R31), and is lost where they carry none. -/
def State.linkChange (s : State) (x gen width : Nat) (failed : List Nat) : State :=
  if !s.linkUp x then s
  else
    let s := (failed.filter (· < 17)).foldl (fun s k => s.hostLaneFails (x / 4) k) s
    match [16, 8, 4].find? fun w => decide (w ≤ width) && s.lanesFor x w with
    | none => s.hostLinkLost x
    | some w =>
      let slower := decide (linkRate gen w < s.rd F.HPT_LINK_rate_mbs x)
      let s := (s.showLink x gen w).bump F.HPT_RETRAIN 1 x
      if slower then (s.ops.filter fun q => s.usesLink x q.1).foldl (fun s q => s.recordCause q.1 6) s else s

/-- HOST_LINK_CHANGE: a link, its speed and width, and the lanes of its port that have failed (16 is the spare). -/
def execHostLinkChange (link gen : Nat) (width : LinkLanes) (s : State) : Host.Outcome State Fault Refusal :=
  actOn (s.linkFits link gen width.width) s fun s => s.linkChange link gen width.width width.failed

/-- PF_FLR: a function level reset of the PF of a link. -/
def execPfFlr (link : Nat) (s : State) : Host.Outcome State Fault Refusal :=
  actOn (decide (link < 16) && s.linkExists link && !s.isRoot link) s fun s =>
    let s := s.pfFlr link
    (if link = 0 then s.pf0Lost else s).settle

/-- VF_FLR: a function level reset of a VF. -/
def execVfFlr (link vf : Nat) (s : State) : Host.Outcome State Fault Refusal :=
  actOn (decide (link < 16) && s.linkExists link && decide (vf < 1024)) s fun s => (s.vfFlr link vf).settle

end Sys2Proof.Machine
end

