-- ==== Sys2Proof/Machine/Resume.lean ====
section
/-!
DEFINITION. What goes on when something it waited for has come: host reads (R312), walks tried again and holds that run out (R340, R344, R345,
R220).
-/

namespace Sys2Proof.Machine

/-! ### Waiters -/

/-- An operation goes on: `ready` where the host data it asked for has been delivered. -/
def State.resumeOp (s : State) (id : Nat) (ready : Bool) : State :=
  match s.op? id with
  | none => s
  | some o =>
    if o.opcode = 7 then s.startCopy id ready
    else if o.opcode = 0x10 ∨ o.opcode = 0x11 then s.resumeColl id ready
    else if o.opcode = 0x40 ∨ o.opcode = 0x41 then s.resumeStream id ready
    else s.startOp id ready

/-- A waiter whose host data has come, and whether the device has written there meanwhile. -/
def State.dataCame (s : State) (w : Waiter) (stale : Bool) : State :=
  match w with
  | .op id => s.resumeOp id true
  | .ring key => s.ringData key
  | .packet _ => s
  | .served p locs => s.serve p locs stale
  | .roce p locs => s.roceServed p locs
  | .aperture link vf tag va n => s.inboundReady link ((s.partOf vf).getD 64) vf tag va n
  | .inbound => s

/-- A waiter whose page is walked again. -/
def State.walkAgain (s : State) (h : Hold) : State :=
  match h.who with
  | .op id => s.resumeOp id false
  | .ring key => s.fetchRing key
  | .packet p =>
    (match p.ext with
    | .readResp req => s.onReadResp p.dstConn p req (some h.since)
    | _ => s.placePkt p.dstConn p (some h.since))
  | .served .. => s
  | .roce .. => s
  | .aperture .. => s
  | .inbound => s

/-! ### Host reads (R312) -/

/-- Delivers bytes of host memory (log entry 7). -/
def viewPut (v : Tbl Byte) (key : Nat) : List Byte → Tbl Byte
  | [] => v
  | b :: t => viewPut (Tbl.set v key b) (key + 1) t

/-- Takes the read at an index off the list of those outstanding. -/
def State.dropRead (s : State) (n : Nat) : State :=
  { s with hpt := { s.hpt with reads := s.hpt.reads.take n ++ s.hpt.reads.drop (n + 1) } }

/-- A host read has failed: its waiter fails, and what else it waits for is for nobody any more. -/
def State.readFailed (s : State) (n : Nat) (r : HostRead) : State :=
  let s := (s.dropRead n).issueWaiting r.link
  let s : State := { s with hpt := { s.hpt with reads := s.hpt.reads.map fun q => if q.who == r.who then { q with who := .inbound } else q } }
  s.failWaiter r.who

/-- A completion for the read at an index: with data, or with an error status. -/
def State.hostReadDone (s : State) (n : Nat) (ok : Bool) (data : List Byte) : State :=
  match s.hpt.reads[n]? with
  | none => s
  | some r =>
    if !r.sent then s
    else
      let (late, s) := s.inject 0x0E01 0 (s.rd F.PTN_INST_partition r.vf) Status.targetLost
      if late then (s.bump F.HPT_CPL_TIMEOUT 1 r.link).readFailed n r
      else if !ok then s.readFailed n r
      else
        let s := ((s.dropRead n).issueWaiting r.link).bump F.DMV_HOST_RD_BYTES r.len
        let s : State := { s with hpt := { s.hpt with view := viewPut s.hpt.view (hostKey r.link r.addr) (padTo r.len (data.take r.len)) } }
        if s.readsOf r.who then s else s.dataCame r.who r.stale

/-- HOST_READ_COMPLETION. -/
def execHostReadCompletion (n : Nat) (ok : Bool) (data : List Byte) (s : State) : Host.Outcome State Fault Refusal :=
  act s fun s => (s.hostReadDone n ok data).settle

/-- CPL_TIMEOUT: a read request has not completed within `cpl_timeout_ms`: the read at an index, or beyond those the flush read. -/
def State.cplTimeout (s : State) (n : Nat) : State :=
  match s.hpt.reads[n]? with
  | some r => if r.sent then (s.bump F.HPT_CPL_TIMEOUT 1 r.link).readFailed n r else s
  | none =>
    let k := n - s.hpt.reads.length
    match s.hpt.flushes[k]? with
    | some f => if f.sent then (s.bump F.HPT_CPL_TIMEOUT 1 f.link).flushDone k false else s
    | none => s

def execCplTimeout (n : Nat) (s : State) : Host.Outcome State Fault Refusal := act s fun s => (s.cplTimeout n).settle

/-! ### Walks tried again (R344, R345) -/

/-- Takes the hold at an index off the list. -/
def State.dropHold (s : State) (i : Nat) : State :=
  State.showMiss { s with xlt := { s.xlt with holds := s.xlt.holds.take i ++ s.xlt.holds.drop (i + 1) } }

/-- WALK_DONE: the retried walk of the hold at an index ends. The transfer goes on, ends, or is held again from when it first faulted; where
no retry of the RESOLVE or INVALIDATE is left, that completes. -/
def State.walkDone (s : State) (i : Nat) : State :=
  match s.xlt.holds[i]? with
  | none => s
  | some h =>
    match h.retry with
    | none => s
    | some op =>
      let s := (s.dropHold i).walkAgain h
      let s : State := { s with xlt := { s.xlt with
        holds := s.xlt.holds.map fun q => if q.who == h.who && q.retry.isNone then { q with since := min q.since h.since } else q } }
      s.retriesDone op

def execWalkDone (i : Nat) (s : State) : Host.Outcome State Fault Refusal := act s fun s => (s.walkDone i).settle

/-! ### Holds that run out (R340, R220) -/

/-- TRANSLATION_HOLD_EXPIRY: a local transfer has been held for `hold_us` and completes TRANSLATION_FAULT. Where a RESOLVE or an invalidation has
marked it the retry wins (R347). -/
def State.localExpired (s : State) (i : Nat) : State :=
  match s.xlt.holds[i]? with
  | none => s
  | some h =>
    if h.remote ∨ h.retry.isSome then s
    else
      let s := (s.dropHold i).bump F.XLT_HOLD_EXPIRED
      match h.who with
      | .op id => s.failOp id Status.translationFault
      | .packet p =>
        (match p.ext, s.conn? p.dstConn with
        | .readResp req, some k =>
          (match k.reads.find? fun (r : OpenRead) => r.psn == req with
          | some r => s.msgFail p.dstConn r.msn Status.translationFault 0 false
          | none => s)
        | _, _ => s)
      | _ => s

def execTranslationHoldExpiry (i : Nat) (s : State) : Host.Outcome State Fault Refusal := act s fun s => (s.localExpired i).settle

/-- FAULT_HOLD_EXPIRY: a packet held at the responder for `fault_hold_us` is discarded and answered NAK FAULT (R220), unless its retry is marked
(R347). -/
def State.remoteExpired (s : State) (i : Nat) : State :=
  match s.xlt.holds[i]? with
  | none => s
  | some h =>
    if !h.remote ∨ h.retry.isSome then s
    else
      let s := (s.dropHold i).bump F.BXT_HOLD_EXPIRED
      match h.who with
      | .packet p => s.refuse p.dstConn p Nak.fault
      | _ => s

def execFaultHoldExpiry (i : Nat) (s : State) : Host.Outcome State Fault Refusal := act s fun s => (s.remoteExpired i).settle

end Sys2Proof.Machine
end

