-- ==== Sys2Proof/Machine/Dispatch.lean ====
section
/-!
DEFINITION. The dispatch of every command to its meaning, one arm a row of spec/opcode_table.json.
-/

namespace Sys2Proof.Machine

/-- The effect of a command on everything but the queue of waiting commands. -/
def exec (i : Instr) (s : State) : Host.Outcome State Fault Refusal :=
  match i with
  | .registerWrite path link off data => Sys2Proof.Machine.execRegisterWrite path link off data s
  | .counterLowHalfRead path link off => Sys2Proof.Machine.execCounterLowHalfRead path link off s
  | .regAccessTimeout path link off len write => Sys2Proof.Machine.execRegAccessTimeout path link off len write s
  | .kilmetFlitReceive m d sent got known => Sys2Proof.Machine.execKilmetFlitReceive m d sent got known s
  | .kilmetNak m d fseq => Sys2Proof.Machine.execKilmetNak m d fseq s
  | .kilmetAckTimeout m d => Sys2Proof.Machine.execKilmetAckTimeout m d s
  | .kilmetAckTimer m d => Sys2Proof.Machine.execKilmetAckTimer m d s
  | .kilmetCredit d ch count => Sys2Proof.Machine.execKilmetCredit d ch count s
  | .kilmetRetrain m => Sys2Proof.Machine.execKilmetRetrain m s
  | .kilmetRetrainDone m ok g2h h2g => Sys2Proof.Machine.execKilmetRetrainDone m ok g2h h2g s
  | .loadFull => Sys2Proof.Machine.execLoadFull s
  | .loadSlice => Sys2Proof.Machine.execLoadSlice s
  | .programA => Sys2Proof.Machine.execProgramA s
  | .programB => Sys2Proof.Machine.execProgramB s
  | .raiseFloor => Sys2Proof.Machine.execRaiseFloor s
  | .abort => Sys2Proof.Machine.execAbort s
  | .layoutCommandDone ok => Sys2Proof.Machine.execLayoutCommandDone ok s
  | .chunk hdr p => Sys2Proof.Machine.execChunk hdr p s
  | .chunkBind op rank bundle chunk => Sys2Proof.Machine.execChunkBind op rank bundle chunk s
  | .tallySpareMap retired spare => Sys2Proof.Machine.execTallySpareMap retired spare s
  | .spareMapDone res => Sys2Proof.Machine.execSpareMapDone res s
  | .install => Sys2Proof.Machine.execInstall s
  | .activate => Sys2Proof.Machine.execActivate s
  | .activateComplete slot => Sys2Proof.Machine.execActivateComplete slot s
  | .activateTimeout slot => Sys2Proof.Machine.execActivateTimeout slot s
  | .dissolve => Sys2Proof.Machine.execDissolve s
  | .chunkConnTimeout conn => Sys2Proof.Machine.execChunkConnTimeout conn s
  | .start gen nseq group rank op p => Sys2Proof.Machine.execStart gen nseq group rank op p s
  | .go gen nseq group rank op p => Sys2Proof.Machine.execGo gen nseq group rank op p s
  | .done gen nseq group rank op p => Sys2Proof.Machine.execDone gen nseq group rank op p s
  | .reduced gen nseq group rank op p => Sys2Proof.Machine.execReduced gen nseq group rank op p s
  | .reduceCommit gen nseq group rank op p => Sys2Proof.Machine.execReduceCommit gen nseq group rank op p s
  | .published gen nseq group rank op p => Sys2Proof.Machine.execPublished gen nseq group rank op p s
  | .commit gen nseq group rank op p => Sys2Proof.Machine.execCommit gen nseq group rank op p s
  | .void gen nseq group rank op p => Sys2Proof.Machine.execVoid gen nseq group rank op p s
  | .voidAck gen nseq group rank op p => Sys2Proof.Machine.execVoidAck gen nseq group rank op p s
  | .rerun gen nseq group rank op p => Sys2Proof.Machine.execRerun gen nseq group rank op p s
  | .abandon gen nseq group rank op p => Sys2Proof.Machine.execAbandon gen nseq group rank op p s
  | .reconcile gen nseq group rank op p => Sys2Proof.Machine.execReconcile gen nseq group rank op p s
  | .folded gen nseq group rank op p => Sys2Proof.Machine.execFolded gen nseq group rank op p s
  | .loss gen nseq group rank op p => Sys2Proof.Machine.execLoss gen nseq group rank op p s
  | .coordKeepalive gen nseq group rank op p => Sys2Proof.Machine.execCoordKeepalive gen nseq group rank op p s
  | .coordKeepaliveTimer conn => Sys2Proof.Machine.execCoordKeepaliveTimer conn s
  | .straggleExpiry slot op => Sys2Proof.Machine.execStraggleExpiry slot op s
  | .reformWaitExpiry slot => Sys2Proof.Machine.execReformWaitExpiry slot s
  | .millBlockDone engine => Sys2Proof.Machine.execMillBlockDone engine s
  | .normSync op copy bundle => Sys2Proof.Machine.execNormSync op copy bundle s
  | .normSyncResult op scope bundle n0 n1 n2 n3 => Sys2Proof.Machine.execNormSyncResult op scope bundle n0 n1 n2 n3 s
  | .millSpareMap retired spare => Sys2Proof.Machine.execMillSpareMap retired spare s
  | .bxtWrite raddr rkey p => Sys2Proof.Machine.execBxtWrite raddr rkey p s
  | .bxtSend ssn imm p => Sys2Proof.Machine.execBxtSend ssn imm p s
  | .readReq raddr rkey rdLen p => Sys2Proof.Machine.execReadReq raddr rkey rdLen p s
  | .readResp reqPsn p => Sys2Proof.Machine.execReadResp reqPsn p s
  | .bxtAtomic raddr rkey aop opnd0 opnd1 p => Sys2Proof.Machine.execBxtAtomic raddr rkey aop opnd0 opnd1 p s
  | .atomicResp result p => Sys2Proof.Machine.execAtomicResp result p s
  | .ack cumPsn sackPsn sackMap ceCount echoTs p => Sys2Proof.Machine.execAck cumPsn sackPsn sackMap ceCount echoTs p s
  | .nak code nrReason retryUs nakPsn respEpoch unkConn p => Sys2Proof.Machine.execNak code nrReason retryUs nakPsn respEpoch unkConn p s
  | .grant classMask validUs budget p => Sys2Proof.Machine.execGrant classMask validUs budget p s
  | .probe srcConn svc group p => Sys2Proof.Machine.execProbe srcConn svc group p s
  | .probeAck srcConn svc group p => Sys2Proof.Machine.execProbeAck srcConn svc group p s
  | .keepalive svc group p => Sys2Proof.Machine.execKeepalive svc group p s
  | .close svc group p => Sys2Proof.Machine.execClose svc group p s
  | .closeAck svc group p => Sys2Proof.Machine.execCloseAck svc group p s
  | .refusalSeen svc group refMsn p => Sys2Proof.Machine.execRefusalSeen svc group refMsn p s
  | .rocePacket p => Sys2Proof.Machine.execRocePacket p s
  | .retransmitTimeout conn psn => Sys2Proof.Machine.execRetransmitTimeout conn psn s
  | .probeResend conn => Sys2Proof.Machine.execProbeResend conn s
  | .armTimeout conn => Sys2Proof.Machine.execArmTimeout conn s
  | .closeTimeout conn => Sys2Proof.Machine.execCloseTimeout conn s
  | .keepaliveTimer conn => Sys2Proof.Machine.execKeepaliveTimer conn s
  | .ackCoalesceTimer conn => Sys2Proof.Machine.execAckCoalesceTimer conn s
  | .faultHoldExpiry h => Sys2Proof.Machine.execFaultHoldExpiry h s
  | .contextFetchDone conn => Sys2Proof.Machine.execContextFetchDone conn s
  | .contextFetchTimeout conn => Sys2Proof.Machine.execContextFetchTimeout conn s
  | .nakDelayExpiry conn psn => Sys2Proof.Machine.execNakDelayExpiry conn psn s
  | .readTimeout conn msn => Sys2Proof.Machine.execReadTimeout conn msn s
  | .sqDoorbell link vf ring tail => Sys2Proof.Machine.execSqDoorbell link vf ring tail s
  | .cqDoorbell link vf ring head => Sys2Proof.Machine.execCqDoorbell link vf ring head s
  | .arm link vf ring => Sys2Proof.Machine.execArm link vf ring s
  | .push link vf ring entry => Sys2Proof.Machine.execPush link vf ring entry s
  | .entryFetch key => Sys2Proof.Machine.execEntryFetch key s
  | .fetchRecheckTimer key => Sys2Proof.Machine.execFetchRecheckTimer key s
  | .ctlSqDoorbell tail => Sys2Proof.Machine.execCtlSqDoorbell tail s
  | .ctlCqDoorbell head => Sys2Proof.Machine.execCtlCqDoorbell head s
  | .ringCreate link vf => Sys2Proof.Machine.execRingCreate link vf s
  | .ringStop link vf => Sys2Proof.Machine.execRingStop link vf s
  | .ringStopDone key => Sys2Proof.Machine.execRingStopDone key s
  | .ringDestroy link vf => Sys2Proof.Machine.execRingDestroy link vf s
  | .flushComplete n ok => Sys2Proof.Machine.execFlushComplete n ok s
  | .nop key count => Sys2Proof.Machine.execNop key count s
  | .write key count => Sys2Proof.Machine.execWrite key count s
  | .read key count => Sys2Proof.Machine.execRead key count s
  | .send key count => Sys2Proof.Machine.execSend key count s
  | .atomic key count => Sys2Proof.Machine.execAtomic key count s
  | .recv key count => Sys2Proof.Machine.execRecv key count s
  | .copy key count => Sys2Proof.Machine.execCopy key count s
  | .coll key count => Sys2Proof.Machine.execColl key count s
  | .step key count => Sys2Proof.Machine.execStep key count s
  | .millBind key count => Sys2Proof.Machine.execMillBind key count s
  | .connCreate key count => Sys2Proof.Machine.execConnCreate key count s
  | .connModify key count => Sys2Proof.Machine.execConnModify key count s
  | .connClose key count => Sys2Proof.Machine.execConnClose key count s
  | .asCreate key count => Sys2Proof.Machine.execAsCreate key count s
  | .asDestroy key count => Sys2Proof.Machine.execAsDestroy key count s
  | .invalidate key count => Sys2Proof.Machine.execInvalidate key count s
  | .invalidateDrainDone tag => Sys2Proof.Machine.execInvalidateDrainDone tag s
  | .resolve key count => Sys2Proof.Machine.execResolve key count s
  | .fqBind key count => Sys2Proof.Machine.execFqBind key count s
  | .queueAck key count => Sys2Proof.Machine.execQueueAck key count s
  | .walkDone n => Sys2Proof.Machine.execWalkDone n s
  | .translationHoldExpiry n => Sys2Proof.Machine.execTranslationHoldExpiry n s
  | .faultBatchTimer part => Sys2Proof.Machine.execFaultBatchTimer part s
  | .deadlineExpiry op => Sys2Proof.Machine.execDeadlineExpiry op s
  | .grantPeriodTimer => Sys2Proof.Machine.execGrantPeriodTimer s
  | .grantExpiry conn cls => Sys2Proof.Machine.execGrantExpiry conn cls s
  | .meterApply => Sys2Proof.Machine.execMeterApply s
  | .meterRead => Sys2Proof.Machine.execMeterRead s
  | .frameReceive port f => Sys2Proof.Machine.execFrameReceive port f s
  | .transitAgeExpiry n => Sys2Proof.Machine.execTransitAgeExpiry n s
  | .laneFault port lane => Sys2Proof.Machine.execLaneFault port lane s
  | .loopbackTestDone port lane pass => Sys2Proof.Machine.execLoopbackTestDone port lane pass s
  | .portAdminWrite port admin => Sys2Proof.Machine.execPortAdminWrite port admin s
  | .trainingDone port ok => Sys2Proof.Machine.execTrainingDone port ok s
  | .trainingRetryTimer port => Sys2Proof.Machine.execTrainingRetryTimer port s
  | .alignmentLoss port => Sys2Proof.Machine.execAlignmentLoss port s
  | .downRetrainTimer port => Sys2Proof.Machine.execDownRetrainTimer port s
  | .pfcFrame port enable quanta => Sys2Proof.Machine.execPfcFrame port enable quanta s
  | .pfcQuantaExpiry port tc => Sys2Proof.Machine.execPfcQuantaExpiry port tc s
  | .pfcRefreshTimer port tc kib => Sys2Proof.Machine.execPfcRefreshTimer port tc kib s
  | .pfcWatchdog port tc => Sys2Proof.Machine.execPfcWatchdog port tc s
  | .lldpTimer port => Sys2Proof.Machine.execLldpTimer port s
  | .lldpdu port pdu => Sys2Proof.Machine.execLldpdu port pdu s
  | .lldpTtlExpiry port => Sys2Proof.Machine.execLldpTtlExpiry port s
  | .routeWrite => Sys2Proof.Machine.execRouteWrite s
  | .routeDelete => Sys2Proof.Machine.execRouteDelete s
  | .routeRead => Sys2Proof.Machine.execRouteRead s
  | .hopStart port => Sys2Proof.Machine.execHopStart port s
  | .hopStartAck port => Sys2Proof.Machine.execHopStartAck port s
  | .hopDataFrame port shim f => Sys2Proof.Machine.execHopDataFrame port shim f s
  | .hopAck port ack => Sys2Proof.Machine.execHopAck port ack s
  | .hopNak port hsn => Sys2Proof.Machine.execHopNak port hsn s
  | .hopAckTimeout port => Sys2Proof.Machine.execHopAckTimeout port s
  | .hopAckTimer port => Sys2Proof.Machine.execHopAckTimer port s
  | .weatherReportTimer => Sys2Proof.Machine.execWeatherReportTimer s
  | .weatherUpdate k body => Sys2Proof.Machine.execWeatherUpdate k body s
  | .weatherWindowGo => Sys2Proof.Machine.execWeatherWindowGo s
  | .weatherLevelExpiry dst => Sys2Proof.Machine.execWeatherLevelExpiry dst s
  | .hostLinkUp link gen width => Sys2Proof.Machine.execHostLinkUp link gen width s
  | .hostLinkChange link gen width => Sys2Proof.Machine.execHostLinkChange link gen width s
  | .hostLinkLoss link => Sys2Proof.Machine.execHostLinkLoss link s
  | .pfFlr link => Sys2Proof.Machine.execPfFlr link s
  | .vfFlr link vf => Sys2Proof.Machine.execVfFlr link vf s
  | .hostReadCompletion n ok data => Sys2Proof.Machine.execHostReadCompletion n ok data s
  | .cplTimeout n => Sys2Proof.Machine.execCplTimeout n s
  | .apertureRead link vf off len => Sys2Proof.Machine.execApertureRead link vf off len s
  | .apertureWrite link vf off data => Sys2Proof.Machine.execApertureWrite link vf off data s
  | .downstreamRequest link rid addr len data => Sys2Proof.Machine.execDownstreamRequest link rid addr len data s
  | .msixUnmask link vf vector => Sys2Proof.Machine.execMsixUnmask link vf vector s
  | .attach link vf => Sys2Proof.Machine.execAttach link vf s
  | .detach link vf => Sys2Proof.Machine.execDetach link vf s
  | .resume link vf => Sys2Proof.Machine.execResume link vf s
  | .discard link vf => Sys2Proof.Machine.execDiscard link vf s
  | .attachLockExpiry vf => Sys2Proof.Machine.execAttachLockExpiry vf s
  | .hptTokenRead link vf => Sys2Proof.Machine.execHptTokenRead link vf s
  | .ptnTokenRead => Sys2Proof.Machine.execPtnTokenRead s
  | .blockResend block kind unit op ok => Sys2Proof.Machine.execBlockResend block kind unit op ok s
  | .hbmRecalTimer channel delayed => Sys2Proof.Machine.execHbmRecalTimer channel delayed s
  | .ddrRecalTimer channel delayed => Sys2Proof.Machine.execDdrRecalTimer channel delayed s
  | .scrubPass tier fixed clean bad => Sys2Proof.Machine.execScrubPass tier fixed clean bad s
  | .hbmLaneRepair channel spareLeft => Sys2Proof.Machine.execHbmLaneRepair channel spareLeft s
  | .lrdRetire bank => Sys2Proof.Machine.execLrdRetire bank s
  | .bankRetireCopy bank => Sys2Proof.Machine.execBankRetireCopy bank s
  | .lrdSpareMap bank spare => Sys2Proof.Machine.execLrdSpareMap bank spare s
  | .larderSpareSwitch => Sys2Proof.Machine.execLarderSpareSwitch s
  | .granuleZeroed tier granule => Sys2Proof.Machine.execGranuleZeroed tier granule s
  | .instCreate key count => Sys2Proof.Machine.execInstCreate key count s
  | .instModify key count => Sys2Proof.Machine.execInstModify key count s
  | .instQuiesce key count => Sys2Proof.Machine.execInstQuiesce key count s
  | .drainEnd vf => Sys2Proof.Machine.execDrainEnd vf s
  | .drainTimeout vf => Sys2Proof.Machine.execDrainTimeout vf s
  | .instResume key count => Sys2Proof.Machine.execInstResume key count s
  | .instReset key count => Sys2Proof.Machine.execInstReset key count s
  | .instRemove key count => Sys2Proof.Machine.execInstRemove key count s
  | .instToken key count => Sys2Proof.Machine.execInstToken key count s
  | .ptnQuiesce key count => Sys2Proof.Machine.execPtnQuiesce key count s
  | .ptnResume key count => Sys2Proof.Machine.execPtnResume key count s
  | .ptnReset key count => Sys2Proof.Machine.execPtnReset key count s
  | .keyWordWrite path k w => Sys2Proof.Machine.execKeyWordWrite path k w s
  | .keyStageTimeout => Sys2Proof.Machine.execKeyStageTimeout s
  | .load path ctrLog2 => Sys2Proof.Machine.execLoad path ctrLog2 s
  | .wipeSlot => Sys2Proof.Machine.execWipeSlot s
  | .wipeInstance => Sys2Proof.Machine.execWipeInstance s
  | .wipeAll => Sys2Proof.Machine.execWipeAll s
  | .cphSpareMap retired spare => Sys2Proof.Machine.execCphSpareMap retired spare s
  | .attest => Sys2Proof.Machine.execAttest s
  | .attestDone => Sys2Proof.Machine.execAttestDone s
  | .lcAdvance ok => Sys2Proof.Machine.execLcAdvance ok s
  | .lcScrap confirm ok => Sys2Proof.Machine.execLcScrap confirm ok s
  | .revoke key ok => Sys2Proof.Machine.execRevoke key ok s
  | .raiseFwFloor ok => Sys2Proof.Machine.execRaiseFwFloor ok s
  | .burnPolarity ok => Sys2Proof.Machine.execBurnPolarity ok s
  | .tamperCfgWrite enable polarity => Sys2Proof.Machine.execTamperCfgWrite enable polarity s
  | .tamperAssert input passes => Sys2Proof.Machine.execTamperAssert input passes s
  | .rngHealthFail => Sys2Proof.Machine.execRngHealthFail s
  | .targetConnect => Sys2Proof.Machine.execTargetConnect s
  | .targetDisconnect => Sys2Proof.Machine.execTargetDisconnect s
  | .targetReconnectTimer target => Sys2Proof.Machine.execTargetReconnectTimer target s
  | .nvmePduReceive target pdu => Sys2Proof.Machine.execNvmePduReceive target pdu s
  | .ckpCmdTimeout target held => Sys2Proof.Machine.execCkpCmdTimeout target held s
  | .ckpKeepaliveTimer => Sys2Proof.Machine.execCkpKeepaliveTimer s
  | .ckpSave key count => Sys2Proof.Machine.execCkpSave key count s
  | .ckpRestore key count => Sys2Proof.Machine.execCkpRestore key count s
  | .domainIdleStep domain => Sys2Proof.Machine.execDomainIdleStep domain s
  | .kindle domain => Sys2Proof.Machine.execKindle domain s
  | .domainLit domain => Sys2Proof.Machine.execDomainLit domain s
  | .privWake domain => Sys2Proof.Machine.execPrivWake domain s
  | .privRelease domain => Sys2Proof.Machine.execPrivRelease domain s
  | .domainFloorWrite domain floor pin idleUs => Sys2Proof.Machine.execDomainFloorWrite domain floor pin idleUs s
  | .enterEmber => Sys2Proof.Machine.execEnterEmber s
  | .enterCold => Sys2Proof.Machine.execEnterCold s
  | .deviceWake cause level => Sys2Proof.Machine.execDeviceWake cause level s
  | .powerSample watts die hbmTemps => Sys2Proof.Machine.execPowerSample watts die hbmTemps s
  | .crystalFail => Sys2Proof.Machine.execCrystalFail s
  | .watchdogExpiry kind unit suspects => Sys2Proof.Machine.execWatchdogExpiry kind unit suspects s
  | .suspectWindowExpiry kind unit => Sys2Proof.Machine.execSuspectWindowExpiry kind unit s
  | .suspectCleared kind unit => Sys2Proof.Machine.execSuspectCleared kind unit s
  | .engineReset kind unit => Sys2Proof.Machine.execEngineReset kind unit s
  | .engineResetDone kind unit ok => Sys2Proof.Machine.execEngineResetDone kind unit ok s
  | .stewardHeartbeatMiss core => Sys2Proof.Machine.execStewardHeartbeatMiss core s
  | .chipReset => Sys2Proof.Machine.execChipReset s
  | .firmwareReady => Sys2Proof.Machine.execFirmwareReady s
  | .bootWatchdogExpiry => Sys2Proof.Machine.execBootWatchdogExpiry s
  | .powerCycle => Sys2Proof.Machine.execPowerCycle s
  | .clearRetired => Sys2Proof.Machine.execClearRetired s
  | .dump => Sys2Proof.Machine.execDump s
  | .dumpUnitTimeout kind index => Sys2Proof.Machine.execDumpUnitTimeout kind index s
  | .logRead => Sys2Proof.Machine.execLogRead s
  | .logClear summaries => Sys2Proof.Machine.execLogClear summaries s
  | .logFlushTimer => Sys2Proof.Machine.execLogFlushTimer s
  | .logPageDone ok => Sys2Proof.Machine.execLogPageDone ok s
  | .logRecordClose => Sys2Proof.Machine.execLogRecordClose s
  | .telSnapshot => Sys2Proof.Machine.execTelSnapshot s
  | .injUnlock unlock confirm => Sys2Proof.Machine.execInjUnlock unlock confirm s
  | .injArm => Sys2Proof.Machine.execInjArm s
  | .injDisarm => Sys2Proof.Machine.execInjDisarm s
  | .powerOn => Sys2Proof.Machine.execPowerOn s
  | .resetNAssert => Sys2Proof.Machine.execResetNAssert s
  | .railDeparture core => Sys2Proof.Machine.execRailDeparture core s
  | .thermalTrip => Sys2Proof.Machine.execThermalTrip s
  | .credentialChallenge => Sys2Proof.Machine.execCredentialChallenge s
  | .credentialProve => Sys2Proof.Machine.execCredentialProve s
  | .credentialRelinquish => Sys2Proof.Machine.execCredentialRelinquish s
  | .challengeReq k => Sys2Proof.Machine.execChallengeReq k s
  | .proof k body => Sys2Proof.Machine.execProof k body s
  | .resultAcknowledged k => Sys2Proof.Machine.execResultAcknowledged k s
  | .regRead k seq off len => Sys2Proof.Machine.execRegRead k seq off len s
  | .regWrite k seq off data => Sys2Proof.Machine.execRegWrite k seq off data s
  | .relinquish k => Sys2Proof.Machine.execRelinquish k s
  | .sessionIdleTimeout => Sys2Proof.Machine.execSessionIdleTimeout s
  | .challengeExpiry path => Sys2Proof.Machine.execChallengeExpiry path s
  | .pathLockExpiry path => Sys2Proof.Machine.execPathLockExpiry path s
  | .query f => Sys2Proof.Machine.execQuery f s
  | .pcAck f => Sys2Proof.Machine.execPcAck f s
  | .announceTimer => Sys2Proof.Machine.execAnnounceTimer s
  | .retiredMessageTimer => Sys2Proof.Machine.execRetiredMessageTimer s
  | .powerCycleReqTimer => Sys2Proof.Machine.execPowerCycleReqTimer s
  | .mgtBackoffExpiry => Sys2Proof.Machine.execMgtBackoffExpiry s
  | .fwProgramA => Sys2Proof.Machine.execFwProgramA s
  | .fwProgramB => Sys2Proof.Machine.execFwProgramB s
  | .fwProgramDone ok => Sys2Proof.Machine.execFwProgramDone ok s
  | .ddrChannelFail channel => Sys2Proof.Machine.execDdrChannelFail channel s
  | .rngHealthRestored => Sys2Proof.Machine.execRngHealthRestored s
  | .keyWipeDone ok => Sys2Proof.Machine.execKeyWipeDone ok s
  | .cellarWipeDone ok => Sys2Proof.Machine.execCellarWipeDone ok s
  | .instResetDone vf => Sys2Proof.Machine.execInstResetDone vf s
  | .ptnResetDone part ok => Sys2Proof.Machine.execPtnResetDone part ok s
  | .logReadDone => Sys2Proof.Machine.execLogReadDone s
  | .railRestore => Sys2Proof.Machine.execRailRestore s
  | .trayCollision => Sys2Proof.Machine.execTrayCollision s
  | .frameTransmit port => Sys2Proof.Machine.execFrameTransmit port s
  | .deviceEntryDone => Sys2Proof.Machine.execDeviceEntryDone s

end Sys2Proof.Machine
end

