-- ==== Sys2Proof/Machine/Idle.lean ====
section
/-!
DEFINITION. What passes while no command waits: one ember clock of 80 ns (log entry 1), the tray frame in transmission, and the detectors that watch all
the time, at which an armed injection fires (R486).
-/

namespace Sys2Proof.Machine

/-- The unit that an `index` of injection point 0x0301 names: the units of R452 in the order of its table (log entry 44). -/
def watchdogUnit (index : Nat) : Option (Nat × Nat) :=
  let starts := [(0, 0), (34, 1), (52, 2), (70, 3), (71, 4), (75, 5), (79, 6), (80, 7)]
  if 81 ≤ index then none else (starts.reverse.find? fun q => decide (q.1 ≤ index)).map fun q => (q.2, index - q.1)

/-- The progress watchdogs (R452): one that runs, its unit serving and with work, expires where an armed point fires (R484). -/
def State.watchdogTick (s : State) : State :=
  match s.inj with
  | none => s
  | some p =>
    match watchdogUnit p.index with
    | none => s
    | some (kind, unit) =>
      if s.serving kind unit ∧ s.watched kind unit (s.workIn kind unit) then
        let (hit, s) := s.inject 0x0301 p.index 64 0
        if hit then s.hang kind unit [] false true else s
      else s

/-- The detectors of the privileged domains look at the crystal, the random source and the tamper inputs (R78, R413, R444, R484). -/
def State.watch (s : State) : State :=
  let (x, s) := if s.rd F.PWR_STATUS_rc_clock = 1 then (false, s) else s.inject 0x0202 0 64 0
  let s := if x then s.crystalFail true else s
  let (x, s) := s.inject 0x1901 0 64 0
  let s := if x then s.rngHealth true true else s
  (List.range 4).foldl (fun (s : State) i =>
    let (x, s) := s.inject 0x1902 i 64 0
    if x then s.tamperPulse i true true else s) s

/-- One ember clock (R444, R451): PWR_TICK counts while the device runs or has tripped, at either source. -/
def State.clock (s : State) : State := { s with now := s.now + 80, ticks := if s.power = .run ∨ s.power = .tripped then s.ticks + 1 else s.ticks }

/-- What passes while no command waits. -/
def idle (s : State) : State :=
  let s := s.clock
  if s.power = .run then s.traySend.watch.watchdogTick else if s.power = .tripped then s.traySend else s

end Sys2Proof.Machine
end

