-- ==== Sys2Proof/Safety.lean ====
section
/-!
DEFINITION. What counts as a safe run: no step stops the machine, which is so when every command names parts that the device has; and the memory
keeps its canonical form.
-/

namespace Sys2Proof.Machine

/-- Whether the parts that a command names by number exist in the device as it stands (R2, R31, R282, R310, R452): ports as their split creates
them, host links as the layout sets them. -/
def State.has (s : State) : Instr → Bool
  | .registerWrite path link _ _ => pathOk path link
  | .counterLowHalfRead path link _ => pathOk path link
  | .regAccessTimeout path link _ _ _ => pathOk path link
  | .kilmetFlitReceive m d _ _ _ => klnUnit m d
  | .kilmetNak m d _ => klnUnit m d
  | .kilmetAckTimeout m d => klnUnit m d
  | .kilmetAckTimer m d => klnUnit m d
  | .kilmetCredit d ch _ => decide (d < 2) && decide (ch < 7)
  | .kilmetRetrain m => decide (m < 8)
  | .kilmetRetrainDone m _ _ _ => decide (m < 8)
  | .loadFull => true
  | .loadSlice => true
  | .programA => true
  | .programB => true
  | .raiseFloor => true
  | .abort => true
  | .layoutCommandDone _ => true
  | .chunk _ _ => true
  | .chunkBind _ _ _ _ => true
  | .tallySpareMap _ _ => true
  | .spareMapDone _ => true
  | .install => true
  | .activate => true
  | .activateComplete _ => true
  | .activateTimeout _ => true
  | .dissolve => true
  | .chunkConnTimeout _ => true
  | .start _ _ _ _ _ _ => true
  | .go _ _ _ _ _ _ => true
  | .done _ _ _ _ _ _ => true
  | .reduced _ _ _ _ _ _ => true
  | .reduceCommit _ _ _ _ _ _ => true
  | .published _ _ _ _ _ _ => true
  | .commit _ _ _ _ _ _ => true
  | .void _ _ _ _ _ _ => true
  | .voidAck _ _ _ _ _ _ => true
  | .rerun _ _ _ _ _ _ => true
  | .abandon _ _ _ _ _ _ => true
  | .reconcile _ _ _ _ _ _ => true
  | .folded _ _ _ _ _ _ => true
  | .loss _ _ _ _ _ _ => true
  | .coordKeepalive _ _ _ _ _ _ => true
  | .coordKeepaliveTimer _ => true
  | .straggleExpiry _ _ => true
  | .reformWaitExpiry _ => true
  | .millBlockDone engine => decide (engine < 18)
  | .normSync _ _ _ => true
  | .normSyncResult _ _ _ _ _ _ _ => true
  | .millSpareMap _ _ => true
  | .bxtWrite _ _ _ => true
  | .bxtSend _ _ _ => true
  | .readReq _ _ _ _ => true
  | .readResp _ _ => true
  | .bxtAtomic _ _ _ _ _ _ => true
  | .atomicResp _ _ => true
  | .ack _ _ _ _ _ _ => true
  | .nak _ _ _ _ _ _ _ => true
  | .grant _ _ _ _ => true
  | .probe _ _ _ _ => true
  | .probeAck _ _ _ _ => true
  | .keepalive _ _ _ => true
  | .close _ _ _ => true
  | .closeAck _ _ _ => true
  | .refusalSeen _ _ _ _ => true
  | .rocePacket _ => true
  | .retransmitTimeout _ _ => true
  | .probeResend _ => true
  | .armTimeout _ => true
  | .closeTimeout _ => true
  | .keepaliveTimer _ => true
  | .ackCoalesceTimer _ => true
  | .faultHoldExpiry _ => true
  | .contextFetchDone _ => true
  | .contextFetchTimeout _ => true
  | .nakDelayExpiry _ _ => true
  | .readTimeout _ _ => true
  | .sqDoorbell link vf _ _ => decide (link < 16) && decide (vf < 1024)
  | .cqDoorbell link vf _ _ => decide (link < 16) && decide (vf < 1024)
  | .arm link vf _ => decide (link < 16) && decide (vf < 1024)
  | .push link vf _ _ => decide (link < 16) && decide (vf < 1024)
  | .entryFetch _ => true
  | .fetchRecheckTimer _ => true
  | .ctlSqDoorbell _ => true
  | .ctlCqDoorbell _ => true
  | .ringCreate link vf => decide (link < 16) && decide (vf < 1024)
  | .ringStop link vf => decide (link < 16) && decide (vf < 1024)
  | .ringStopDone _ => true
  | .ringDestroy link vf => decide (link < 16) && decide (vf < 1024)
  | .flushComplete _ _ => true
  | .nop _ _ => true
  | .write _ _ => true
  | .read _ _ => true
  | .send _ _ => true
  | .atomic _ _ => true
  | .recv _ _ => true
  | .copy _ _ => true
  | .coll _ _ => true
  | .step _ _ => true
  | .millBind _ _ => true
  | .connCreate _ _ => true
  | .connModify _ _ => true
  | .connClose _ _ => true
  | .asCreate _ _ => true
  | .asDestroy _ _ => true
  | .invalidate _ _ => true
  | .invalidateDrainDone _ => true
  | .resolve _ _ => true
  | .fqBind _ _ => true
  | .queueAck _ _ => true
  | .walkDone _ => true
  | .translationHoldExpiry _ => true
  | .faultBatchTimer part => decide (part < 64)
  | .deadlineExpiry _ => true
  | .grantPeriodTimer => true
  | .grantExpiry _ _ => true
  | .meterApply => true
  | .meterRead => true
  | .frameReceive port _ => decide (port < 64)
  | .transitAgeExpiry _ => true
  | .laneFault port lane => decide (port < 8) && decide (lane < 8) && s.lay.running.isSome
  | .loopbackTestDone port lane _ => decide (port < 8) && decide (lane < 8) && s.lay.running.isSome
  | .portAdminWrite port _ => decide (port < 64)
  | .trainingDone port _ => s.lportExists port
  | .trainingRetryTimer port => s.lportExists port
  | .alignmentLoss port => s.lportExists port
  | .downRetrainTimer port => s.lportExists port
  | .pfcFrame port _ _ => s.lportExists port
  | .pfcQuantaExpiry port tc => s.lportExists port && decide (tc < 8)
  | .pfcRefreshTimer port tc _ => s.lportExists port && decide (tc < 8)
  | .pfcWatchdog port tc => s.lportExists port && decide (tc < 8)
  | .lldpTimer port => s.lportExists port
  | .lldpdu port _ => s.lportExists port
  | .lldpTtlExpiry port => s.lportExists port
  | .routeWrite => true
  | .routeDelete => true
  | .routeRead => true
  | .hopStart port => s.lportExists port
  | .hopStartAck port => s.lportExists port
  | .hopDataFrame port _ _ => decide (port < 64)
  | .hopAck port _ => s.lportExists port
  | .hopNak port _ => s.lportExists port
  | .hopAckTimeout port => s.lportExists port
  | .hopAckTimer port => s.lportExists port
  | .weatherReportTimer => true
  | .weatherUpdate k _ => decide (k < 8)
  | .weatherWindowGo => true
  | .weatherLevelExpiry _ => true
  | .hostLinkUp link gen width => s.linkFits link gen width
  | .hostLinkChange link gen width => s.linkFits link gen width.width
  | .hostLinkLoss link => decide (link < 16) && s.linkExists link
  | .pfFlr link => decide (link < 16) && s.linkExists link && !s.isRoot link
  | .vfFlr link vf => decide (link < 16) && s.linkExists link && decide (vf < 1024)
  | .hostReadCompletion _ _ _ => true
  | .cplTimeout _ => true
  | .apertureRead link vf _ _ => decide (link < 16) && decide (vf < 1024)
  | .apertureWrite link vf _ _ => decide (link < 16) && decide (vf < 1024)
  | .downstreamRequest link _ _ _ _ => decide (link < 16) && s.isRoot link
  | .msixUnmask link vf _ => decide (link < 16) && decide (vf < 1024)
  | .attach link vf => decide (link < 16) && decide (vf < 1024)
  | .detach link vf => decide (link < 16) && decide (vf < 1024)
  | .resume link vf => decide (link < 16) && decide (vf < 1024)
  | .discard link vf => decide (link < 16) && decide (vf < 1024)
  | .attachLockExpiry vf => decide (vf < 1024)
  | .hptTokenRead link vf => decide (link < 16) && decide (vf < 1024)
  | .ptnTokenRead => true
  | .blockResend _ kind unit _ _ => decide (unit < unitsOf kind)
  | .hbmRecalTimer channel _ => decide (channel < 128)
  | .ddrRecalTimer channel _ => decide (channel < 8)
  | .scrubPass tier _ _ _ => decide (tier < 3)
  | .hbmLaneRepair channel _ => decide (channel < 128)
  | .lrdRetire bank => decide (bank < 256)
  | .bankRetireCopy bank => decide (bank < 256)
  | .lrdSpareMap bank spare => decide (bank < 256) && decide (spare < 8)
  | .larderSpareSwitch => true
  | .granuleZeroed tier granule => decide (tier < 2) && decide (granule < 4096)
  | .instCreate _ _ => true
  | .instModify _ _ => true
  | .instQuiesce _ _ => true
  | .drainEnd vf => decide (vf < 1024)
  | .drainTimeout vf => decide (vf < 1024)
  | .instResume _ _ => true
  | .instReset _ _ => true
  | .instRemove _ _ => true
  | .instToken _ _ => true
  | .ptnQuiesce _ _ => true
  | .ptnResume _ _ => true
  | .ptnReset _ _ => true
  | .keyWordWrite _ k _ => decide (k < 8)
  | .keyStageTimeout => true
  | .load _ _ => true
  | .wipeSlot => true
  | .wipeInstance => true
  | .wipeAll => true
  | .cphSpareMap _ _ => true
  | .attest => true
  | .attestDone => true
  | .lcAdvance _ => true
  | .lcScrap _ _ => true
  | .revoke key _ => decide (key < 8)
  | .raiseFwFloor _ => true
  | .burnPolarity _ => true
  | .tamperCfgWrite _ _ => true
  | .tamperAssert input _ => decide (input < 4)
  | .rngHealthFail => true
  | .targetConnect => true
  | .targetDisconnect => true
  | .targetReconnectTimer target => decide (target < 64)
  | .nvmePduReceive target _ => decide (target < 64)
  | .ckpCmdTimeout target _ => decide (target < 64)
  | .ckpKeepaliveTimer => true
  | .ckpSave _ _ => true
  | .ckpRestore _ _ => true
  | .domainIdleStep domain => decide (domain < 96)
  | .kindle domain => decide (domain < 96)
  | .domainLit domain => decide (domain < 96)
  | .privWake domain => privileged domain
  | .privRelease domain => privileged domain
  | .domainFloorWrite domain _ _ _ => decide (domain < 96)
  | .enterEmber => true
  | .enterCold => true
  | .deviceWake _ _ => true
  | .powerSample _ _ _ => true
  | .crystalFail => true
  | .watchdogExpiry kind unit _ => decide (unit < unitsOf kind)
  | .suspectWindowExpiry kind unit => decide (unit < unitsOf kind)
  | .suspectCleared kind unit => decide (unit < unitsOf kind)
  | .engineReset _ _ => true
  | .engineResetDone kind unit _ => decide (unit < unitsOf kind)
  | .stewardHeartbeatMiss core => decide (core < 36)
  | .chipReset => true
  | .firmwareReady => true
  | .bootWatchdogExpiry => true
  | .powerCycle => true
  | .clearRetired => true
  | .dump => true
  | .dumpUnitTimeout kind index => allDumpUnits.contains (kind, index)
  | .logRead => true
  | .logClear _ => true
  | .logFlushTimer => true
  | .logPageDone _ => true
  | .logRecordClose => true
  | .telSnapshot => true
  | .injUnlock _ _ => true
  | .injArm => true
  | .injDisarm => true
  | .powerOn => true
  | .resetNAssert => true
  | .railDeparture _ => true
  | .thermalTrip => true
  | .credentialChallenge => true
  | .credentialProve => true
  | .credentialRelinquish => true
  | .challengeReq k => decide (k < 8)
  | .proof k _ => decide (k < 8)
  | .resultAcknowledged k => decide (k < 8)
  | .regRead k _ _ _ => decide (k < 8)
  | .regWrite k _ _ _ => decide (k < 8)
  | .relinquish k => decide (k < 8)
  | .sessionIdleTimeout => true
  | .challengeExpiry path => decide (path < 9)
  | .pathLockExpiry path => decide (path < 9)
  | .query _ => true
  | .pcAck _ => true
  | .announceTimer => true
  | .retiredMessageTimer => true
  | .powerCycleReqTimer => true
  | .mgtBackoffExpiry => true
  | .fwProgramA => true
  | .fwProgramB => true
  | .fwProgramDone _ => true
  | .ddrChannelFail channel => decide (channel < 8)
  | .rngHealthRestored => true
  | .keyWipeDone _ => true
  | .cellarWipeDone _ => true
  | .instResetDone vf => decide (vf < 1024)
  | .ptnResetDone part _ => decide (part < 64)
  | .logReadDone => true
  | .railRestore => true
  | .trayCollision => true
  | .frameTransmit port => s.lportExists port
  | .deviceEntryDone => true

/-- The registers that logging may change: the logbook's own, and the count of dropped tray messages. -/
def Reg.isLog (r : Reg) : Bool :=
  r == .LOG_STATUS || r == .LOG_WRITTEN || r == .LOG_DROPPED || r == .LOG_REPEATS || r == .MGT_TX_DROP

/-- A step that the machine survives: it answers a next state. -/
def State.stepsOn (s : State) : Prop := ∃ t, step s = .next t

/-- A command completes from a state, in one of which something holds. -/
def Completes (c : Instr) (s : State) (P : State → Prop) : Prop := ∃ t, exec c s = .next t ∧ P t

/-- No operation of the commons is open here, no message between ranks of this device waits, and the device has no commons connection: what a
command leaves the commons to do is then nothing. No RESOLVE is open either. -/
def State.Calm (s : State) : Prop :=
  s.cmn.colls = [] ∧ s.cmn.inbox = [] ∧ (∀ q ∈ s.bxt.conns, q.2.svc < 2) ∧ ∀ q ∈ s.ops, q.2.opcode ≠ 0x53

/-- A command does what P says, and then the device settles: the commons' messages between its ranks, the ends of management sessions, results
that have been acknowledged. -/
def Settles (c : Instr) (s : State) (P : State → Prop) : Prop := Completes c s fun t => ∃ v, t = v.settle.requeue s.pending ∧ P v

/-- A command does what P says, and then the commons takes the messages between the ranks of this device and deals its work. -/
def Deals (c : Instr) (s : State) (P : State → Prop) : Prop := Completes c s fun t => ∃ v, t = v.cmnRun.requeue s.pending ∧ P v

/-- The device runs and admits the packet p with extension e; its connection c, held as k, is none of RoCEv2; and judging lets the packet through
as q, leaving u (R205 to R210). -/
def State.Takes (s : State) (p : Packet) (e : Ext) (c : Nat) (k : Conn) (q : Packet) (u : State) : Prop :=
  s.power = .run ∧ s.admitsPkt { p with ext := e } = true ∧ (s.conn? p.dstConn).any (·.roce) = false ∧
    s.judge { p with ext := e } = (.take c k q, u) ∧ q.ext = e

/-- The packet p is a whole COORD message of a kind, and reaches the group g of its connection, in its generation, with body b (R206, R207). -/
def State.Coord (s : State) (p : Packet) (kind gen nseq group rank key : Nat) (k : Conn) (g : Group) (b : CBody) (u : State) : Prop :=
  ∃ (c : Nat) (q : Packet) (v : State) (d : List Byte), s.Takes p (.coord kind gen nseq group rank key) c k q v ∧ 2 ≤ k.svc ∧
    v.takeMsgBytes c k q = (some d, u) ∧ coordLenOk kind d.length = true ∧ cbody kind d = some b ∧
    u.group? k.slot = some g ∧ g.id = group ∧ g.gen = gen

/-- Opcode n of ring `key` at `count` is fetched as e, its fence is clear, its instance is not fenced and its body has no reserved bit set: the
device takes it from the fetched entries, leaving u (R232, R237, R247, R382). Where its own checks do not meet the limit of operations in flight, there
is room under it (R270). -/
def State.Entry (s : State) (key count n : Nat) (e : Fetched) (u : State) : Prop :=
  s.power = .run ∧ s.fetched? key count n = some e ∧ s.fenceClear e = true ∧ u = s.unfetch e ∧
    (key = ctlKey ∨ u.fencedInst (ringVf key) (u.rd F.PTN_INST_partition (ringVf key)) = false) ∧ bodyZero n e.desc = true ∧
    (judgedLater n = true ∨ u.flightFull = false)

/-- A window of a host link that answers for an instance attached there (R317, R320). -/
def State.Window (s : State) (link vf : Nat) : Prop :=
  s.power = .run ∧ link < 16 ∧ vf < 1024 ∧ s.linkUp link = true ∧ s.barAnswers link vf = true ∧ s.onLink link vf = true

end Sys2Proof.Machine
end

