-- ==== Sys2Proof/WellFormed.lean ====
section
/-!
DEFINITION. Which commands are well formed: every operand has a value that its field can hold and numbers a part that the device has (the
register tables and message layouts of spec/; R2, R31, R203-R206, R282, R303, R310, R452).
-/

namespace Sys2Proof

/-- A number fits in so many bits. -/
def fits (w n : Nat) : Bool := decide (n < 2 ^ w)

/-- The units of the kinds of R452: tally, mill, cipher, walker, DMA quarters, BXT quarters, checkpoint, commons. -/
def unitOk (kind unit : Nat) : Bool := decide (unit < ([34, 18, 18, 1, 4, 4, 1, 1].getD kind 0))

/-- An access path of R512 and R520 names a link of R310 or an instance of R376. -/
def Path.wf : Path → Bool
  | .conn => true
  | .pf0 => true
  | .pf link => decide (link < 16)
  | .inst vf => decide (vf < 1024)

/-- The fields of a type extension fit their bytes (R205, R206). -/
def Ext.wf : Ext → Bool
  | .write raddr rkey => fits 64 raddr && fits 32 rkey
  | .send ssn imm => fits 32 ssn && fits 32 imm
  | .readReq raddr rkey rdLen => fits 64 raddr && fits 32 rkey && fits 32 rdLen
  | .readResp reqPsn => fits 32 reqPsn
  | .atomic raddr rkey aop opnd0 opnd1 => fits 64 raddr && fits 32 rkey && fits 8 aop && fits 64 opnd0 && fits 64 opnd1
  | .atomicResp result => fits 64 result
  | .ack cumPsn sackPsn sackMap ceCount echoTs => fits 32 cumPsn && fits 32 sackPsn && fits 64 sackMap && fits 16 ceCount && fits 32 echoTs
  | .nak code nrReason retryUs nakPsn respEpoch unkConn =>
    fits 8 code && fits 8 nrReason && fits 24 retryUs && fits 32 nakPsn && fits 16 respEpoch && fits 20 unkConn
  | .grant classMask validUs budget => fits 8 classMask && fits 16 validUs && decide (budget.length = 6) && budget.all (fits 32)
  | .ctrl c srcConn svc group refMsn => fits 8 c && fits 20 srcConn && fits 8 svc && fits 16 group && fits 32 refMsn
  | .chunk hdr => decide (hdr.length = 32)
  | .coord kind generation nseq group rank opOrStep =>
    fits 8 kind && fits 16 generation && fits 32 nseq && fits 16 group && fits 16 rank && fits 32 opOrStep
  | .reserved typ => decide (12 ≤ typ) && decide (typ < 16)

/-- The fields of a BXT packet fit their bytes (R202, R203). -/
def Packet.wf (p : Packet) : Bool :=
  fits 128 p.srcIp && fits 128 p.dstIp && fits 6 p.dscp && fits 4 p.ver && fits 4 p.flagsResv && fits 16 p.epoch && fits 20 p.dstConn && fits 3 p.cls
    && fits 5 p.hops && fits 32 p.psn && fits 32 p.msn && fits 32 p.msgLen && fits 32 p.msgOff && fits 20 p.dstDev && fits 20 p.srcDev
    && fits 24 p.devResv && fits 32 p.ts && fits 16 p.pathId && fits 16 p.hdrResv && p.ext.wf && fits 64 p.iv && decide (p.payload.length ≤ 8192)
    && decide (p.trailer.length ≤ 16)

/-- The fields of a RoCEv2 opcode's headers (R227). -/
def RoceOp.wf : RoceOp → Bool
  | .send _ _ => true
  | .write _ _ raddr rkey len => fits 64 raddr && fits 32 rkey && fits 32 len
  | .readReq raddr rkey len => fits 64 raddr && fits 32 rkey && fits 32 len
  | .readResp _ _ => true
  | .ack syndrome msn => fits 8 syndrome && fits 24 msn
  | .cnp => true
  | .other => true

/-- The fields of a RoCEv2 packet (R227). -/
def RocePacket.wf (p : RocePacket) : Bool := fits 128 p.srcIp && fits 24 p.qp && fits 24 p.psn && fits 16 p.pkey && p.op.wf && decide (p.payload.length ≤ 4096)

/-- The fields of a hop shim (R303). -/
def Shim.wf (h : Shim) : Bool := fits 16 h.ethType && fits 4 h.kind && fits 16 h.resv && fits 12 h.hsn && fits 12 h.ackHsn && fits 16 h.innerType

/-- The fields of an LLDPDU (R295). -/
def Lldp.wf (l : Lldp) : Bool :=
  fits 48 l.chassis && fits 16 l.ttl && (match l.rymus with
    | none => true
    | some t => fits 20 t.dev && fits 8 t.lport)

/-- The body of a frame (R286-R304). -/
def FrameBody.wf : FrameBody → Bool
  | .bxt p => p.wf
  | .roce p => p.wf
  | .pfc enable quanta => fits 8 enable && decide (quanta.length = 8) && quanta.all (fits 16)
  | .pause => true
  | .lldp l => l.wf
  | .hop => true
  | .other _ => true

/-- The fields of an Ethernet frame (R276, R286-R293). -/
def Frame.wf (f : Frame) : Bool :=
  fits 16 f.len && fits 48 f.dstMac && fits 48 f.srcMac && f.tag.all (fits 16) && (match f.shim with
    | none => true
    | some h => h.wf) && fits 16 f.ethType && fits 6 f.dscp && fits 2 f.ecn && fits 8 f.proto && fits 128 f.srcIp && fits 128 f.dstIp && fits 16 f.sport
    && fits 16 f.dport && f.body.wf

/-- The fields of an NVMe/TCP PDU from a target (R417). -/
def NvmePdu.wf (p : NvmePdu) : Bool :=
  fits 16 p.queue && (match p.body with
    | .resp cid status result => fits 16 cid && fits 15 status && fits 64 result
    | .r2t cid ttag off len => fits 16 cid && fits 16 ttag && fits 32 off && fits 32 len
    | .c2hData cid off _ => fits 16 cid && fits 32 off
    | _ => true)

/-- The fields of a frame on the tray bus (R503, R505). -/
def TrayIn.wf (f : TrayIn) : Bool := fits 48 f.dst && fits 48 f.src && fits 16 f.ethType && fits 8 f.version && fits 16 f.bodyLen && decide (f.len ≤ 1518)

/-- Whether a command is well formed. -/
def Instr.wf : Instr → Bool
  | .registerWrite path link off _ => path.wf && decide (link < 16) && decide (off < 2 ^ 32)
  | .counterLowHalfRead path link off => path.wf && decide (link < 16) && decide (off < 2 ^ 32)
  | .regAccessTimeout path link off _ _ => path.wf && decide (link < 16) && decide (off < 2 ^ 32)
  | .kilmetFlitReceive m d sent got _ => decide (m < 8) && decide (d < 2) && decide (sent.length = 288) && decide (got.length = 288)
  | .kilmetNak m d fseq => decide (m < 8) && decide (d < 2) && decide (fseq < 2 ^ 12)
  | .kilmetAckTimeout m d => decide (m < 8) && decide (d < 2)
  | .kilmetAckTimer m d => decide (m < 8) && decide (d < 2)
  | .kilmetCredit d ch count => decide (d < 2) && decide (ch < 7) && decide (count < 2 ^ 32)
  | .kilmetRetrain m => decide (m < 8)
  | .kilmetRetrainDone m _ _ _ => decide (m < 8)
  | .loadFull => true
  | .loadSlice => true
  | .programA => true
  | .programB => true
  | .raiseFloor => true
  | .abort => true
  | .layoutCommandDone _ => true
  | .chunk hdr p => decide (hdr.length = 32) && p.wf
  | .chunkBind _ rank bundle chunkNo => decide (rank < 2 ^ 16) && decide (bundle < 2 ^ 16) && decide (chunkNo < 2 ^ 32)
  | .tallySpareMap retired spare => decide (retired < 2 ^ 6) && decide (spare < 2 ^ 6)
  | .spareMapDone res => decide (res < 20)
  | .install => true
  | .activate => true
  | .activateComplete slot => decide (slot < 2 ^ 12)
  | .activateTimeout slot => decide (slot < 2 ^ 12)
  | .dissolve => true
  | .chunkConnTimeout conn => decide (conn < 2 ^ 20)
  | .start gen nseq group rank _ p => decide (gen < 2 ^ 16) && decide (nseq < 2 ^ 32) && decide (group < 2 ^ 16) && decide (rank < 2 ^ 16) && p.wf
  | .go gen nseq group rank _ p => decide (gen < 2 ^ 16) && decide (nseq < 2 ^ 32) && decide (group < 2 ^ 16) && decide (rank < 2 ^ 16) && p.wf
  | .done gen nseq group rank _ p => decide (gen < 2 ^ 16) && decide (nseq < 2 ^ 32) && decide (group < 2 ^ 16) && decide (rank < 2 ^ 16) && p.wf
  | .reduced gen nseq group rank _ p => decide (gen < 2 ^ 16) && decide (nseq < 2 ^ 32) && decide (group < 2 ^ 16) && decide (rank < 2 ^ 16) && p.wf
  | .reduceCommit gen nseq group rank _ p => decide (gen < 2 ^ 16) && decide (nseq < 2 ^ 32) && decide (group < 2 ^ 16) && decide (rank < 2 ^ 16) && p.wf
  | .published gen nseq group rank _ p => decide (gen < 2 ^ 16) && decide (nseq < 2 ^ 32) && decide (group < 2 ^ 16) && decide (rank < 2 ^ 16) && p.wf
  | .commit gen nseq group rank _ p => decide (gen < 2 ^ 16) && decide (nseq < 2 ^ 32) && decide (group < 2 ^ 16) && decide (rank < 2 ^ 16) && p.wf
  | .void gen nseq group rank _ p => decide (gen < 2 ^ 16) && decide (nseq < 2 ^ 32) && decide (group < 2 ^ 16) && decide (rank < 2 ^ 16) && p.wf
  | .voidAck gen nseq group rank _ p => decide (gen < 2 ^ 16) && decide (nseq < 2 ^ 32) && decide (group < 2 ^ 16) && decide (rank < 2 ^ 16) && p.wf
  | .rerun gen nseq group rank _ p => decide (gen < 2 ^ 16) && decide (nseq < 2 ^ 32) && decide (group < 2 ^ 16) && decide (rank < 2 ^ 16) && p.wf
  | .abandon gen nseq group rank _ p => decide (gen < 2 ^ 16) && decide (nseq < 2 ^ 32) && decide (group < 2 ^ 16) && decide (rank < 2 ^ 16) && p.wf
  | .reconcile gen nseq group rank _ p => decide (gen < 2 ^ 16) && decide (nseq < 2 ^ 32) && decide (group < 2 ^ 16) && decide (rank < 2 ^ 16) && p.wf
  | .folded gen nseq group rank _ p => decide (gen < 2 ^ 16) && decide (nseq < 2 ^ 32) && decide (group < 2 ^ 16) && decide (rank < 2 ^ 16) && p.wf
  | .loss gen nseq group rank _ p => decide (gen < 2 ^ 16) && decide (nseq < 2 ^ 32) && decide (group < 2 ^ 16) && decide (rank < 2 ^ 16) && p.wf
  | .coordKeepalive gen nseq group rank _ p => decide (gen < 2 ^ 16) && decide (nseq < 2 ^ 32) && decide (group < 2 ^ 16) && decide (rank < 2 ^ 16) && p.wf
  | .coordKeepaliveTimer conn => decide (conn < 2 ^ 20)
  | .straggleExpiry slot _ => decide (slot < 2 ^ 12)
  | .reformWaitExpiry slot => decide (slot < 2 ^ 12)
  | .millBlockDone engine => decide (engine < 18)
  | .normSync _ copyNo bundle => decide (copyNo < 2 ^ 17) && decide (bundle < 2 ^ 16)
  | .normSyncResult _ _ bundle n0 n1 n2 n3 => decide (bundle < 2 ^ 16) && decide (n0 < 2 ^ 64) && decide (n1 < 2 ^ 64) && decide (n2 < 2 ^ 64) && decide (n3 < 2 ^ 64)
  | .millSpareMap retired spare => decide (retired < 2 ^ 5) && decide (spare < 2 ^ 5)
  | .bxtWrite raddr rkey p => decide (raddr < 2 ^ 64) && decide (rkey < 2 ^ 32) && p.wf
  | .bxtSend ssn imm p => decide (ssn < 2 ^ 32) && decide (imm < 2 ^ 32) && p.wf
  | .readReq raddr rkey rdLen p => decide (raddr < 2 ^ 64) && decide (rkey < 2 ^ 32) && decide (rdLen < 2 ^ 32) && p.wf
  | .readResp reqPsn p => decide (reqPsn < 2 ^ 32) && p.wf
  | .bxtAtomic raddr rkey aop opnd0 opnd1 p => decide (raddr < 2 ^ 64) && decide (rkey < 2 ^ 32) && decide (aop < 2 ^ 8) && decide (opnd0 < 2 ^ 64) && decide (opnd1 < 2 ^ 64) && p.wf
  | .atomicResp result p => decide (result < 2 ^ 64) && p.wf
  | .ack cumPsn sackPsn sackMap ceCount echoTs p => decide (cumPsn < 2 ^ 32) && decide (sackPsn < 2 ^ 32) && decide (sackMap < 2 ^ 64) && decide (ceCount < 2 ^ 16) && decide (echoTs < 2 ^ 32) && p.wf
  | .nak code nrReason retryUs nakPsn respEpoch unkConn p => decide (code < 2 ^ 8) && decide (nrReason < 2 ^ 8) && decide (retryUs < 2 ^ 24) && decide (nakPsn < 2 ^ 32) && decide (respEpoch < 2 ^ 16) && decide (unkConn < 2 ^ 20) && p.wf
  | .grant classMask validUs budget p => decide (classMask < 2 ^ 8) && decide (validUs < 2 ^ 16) && decide (budget.length = 6) && budget.all (fits 32) && p.wf
  | .probe srcConn svc group p => decide (srcConn < 2 ^ 20) && decide (svc < 2 ^ 8) && decide (group < 2 ^ 16) && p.wf
  | .probeAck srcConn svc group p => decide (srcConn < 2 ^ 20) && decide (svc < 2 ^ 8) && decide (group < 2 ^ 16) && p.wf
  | .keepalive svc group p => decide (svc < 2 ^ 8) && decide (group < 2 ^ 16) && p.wf
  | .close svc group p => decide (svc < 2 ^ 8) && decide (group < 2 ^ 16) && p.wf
  | .closeAck svc group p => decide (svc < 2 ^ 8) && decide (group < 2 ^ 16) && p.wf
  | .refusalSeen svc group refMsn p => decide (svc < 2 ^ 8) && decide (group < 2 ^ 16) && decide (refMsn < 2 ^ 32) && p.wf
  | .rocePacket p => p.wf
  | .retransmitTimeout conn psn => decide (conn < 2 ^ 20) && decide (psn < 2 ^ 32)
  | .probeResend conn => decide (conn < 2 ^ 20)
  | .armTimeout conn => decide (conn < 2 ^ 20)
  | .closeTimeout conn => decide (conn < 2 ^ 20)
  | .keepaliveTimer conn => decide (conn < 2 ^ 20)
  | .ackCoalesceTimer conn => decide (conn < 2 ^ 20)
  | .faultHoldExpiry _ => true
  | .contextFetchDone conn => decide (conn < 2 ^ 20)
  | .contextFetchTimeout conn => decide (conn < 2 ^ 20)
  | .nakDelayExpiry conn psn => decide (conn < 2 ^ 20) && decide (psn < 2 ^ 32)
  | .readTimeout conn msn => decide (conn < 2 ^ 20) && decide (msn < 2 ^ 32)
  | .sqDoorbell link vf ring tail => decide (link < 16) && decide (vf < 1024) && decide (ring < 4096) && decide (tail < 2 ^ 32)
  | .cqDoorbell link vf ring head => decide (link < 16) && decide (vf < 1024) && decide (ring < 4096) && decide (head < 2 ^ 32)
  | .arm link vf ring => decide (link < 16) && decide (vf < 1024) && decide (ring < 4096)
  | .push link vf ring entry => decide (link < 16) && decide (vf < 1024) && decide (ring < 4096) && (entry.length == 64 || entry.length == 256)
  | .entryFetch _ => true
  | .fetchRecheckTimer _ => true
  | .ctlSqDoorbell tail => decide (tail < 2 ^ 32)
  | .ctlCqDoorbell head => decide (head < 2 ^ 32)
  | .ringCreate link vf => decide (link < 16) && decide (vf < 1024)
  | .ringStop link vf => decide (link < 16) && decide (vf < 1024)
  | .ringStopDone _ => true
  | .ringDestroy link vf => decide (link < 16) && decide (vf < 1024)
  | .flushComplete _ _ => true
  | .nop _ count => decide (count < 2 ^ 32)
  | .write _ count => decide (count < 2 ^ 32)
  | .read _ count => decide (count < 2 ^ 32)
  | .send _ count => decide (count < 2 ^ 32)
  | .atomic _ count => decide (count < 2 ^ 32)
  | .recv _ count => decide (count < 2 ^ 32)
  | .copy _ count => decide (count < 2 ^ 32)
  | .coll _ count => decide (count < 2 ^ 32)
  | .step _ count => decide (count < 2 ^ 32)
  | .millBind _ count => decide (count < 2 ^ 32)
  | .connCreate _ count => decide (count < 2 ^ 32)
  | .connModify _ count => decide (count < 2 ^ 32)
  | .connClose _ count => decide (count < 2 ^ 32)
  | .asCreate _ count => decide (count < 2 ^ 32)
  | .asDestroy _ count => decide (count < 2 ^ 32)
  | .invalidate _ count => decide (count < 2 ^ 32)
  | .invalidateDrainDone tag => decide (tag < 2 ^ 16)
  | .resolve _ count => decide (count < 2 ^ 32)
  | .fqBind _ count => decide (count < 2 ^ 32)
  | .queueAck _ count => decide (count < 2 ^ 32)
  | .walkDone _ => true
  | .translationHoldExpiry _ => true
  | .faultBatchTimer part => decide (part < 64)
  | .deadlineExpiry _ => true
  | .grantPeriodTimer => true
  | .grantExpiry conn cls => decide (conn < 2 ^ 20) && decide (cls < 2 ^ 3)
  | .meterApply => true
  | .meterRead => true
  | .frameReceive port f => decide (port < 64) && f.wf
  | .transitAgeExpiry _ => true
  | .laneFault port lane => decide (port < 8) && decide (lane < 8)
  | .loopbackTestDone port lane _ => decide (port < 8) && decide (lane < 8)
  | .portAdminWrite port admin => decide (port < 64) && decide (admin < 2 ^ 1)
  | .trainingDone port _ => decide (port < 64)
  | .trainingRetryTimer port => decide (port < 64)
  | .alignmentLoss port => decide (port < 64)
  | .downRetrainTimer port => decide (port < 64)
  | .pfcFrame port enable quanta => decide (port < 64) && decide (enable < 2 ^ 8) && decide (quanta.length = 8) && quanta.all (fits 16)
  | .pfcQuantaExpiry port tc => decide (port < 64) && decide (tc < 8)
  | .pfcRefreshTimer port tc _ => decide (port < 64) && decide (tc < 8)
  | .pfcWatchdog port tc => decide (port < 64) && decide (tc < 8)
  | .lldpTimer port => decide (port < 64)
  | .lldpdu port pdu => decide (port < 64) && pdu.wf
  | .lldpTtlExpiry port => decide (port < 64)
  | .routeWrite => true
  | .routeDelete => true
  | .routeRead => true
  | .hopStart port => decide (port < 64)
  | .hopStartAck port => decide (port < 64)
  | .hopDataFrame port shim f => decide (port < 64) && shim.wf && f.wf
  | .hopAck port ackNo => decide (port < 64) && decide (ackNo < 2 ^ 12)
  | .hopNak port hsn => decide (port < 64) && decide (hsn < 2 ^ 12)
  | .hopAckTimeout port => decide (port < 64)
  | .hopAckTimer port => decide (port < 64)
  | .weatherReportTimer => true
  | .weatherUpdate k _ => decide (k < 8)
  | .weatherWindowGo => true
  | .weatherLevelExpiry dst => decide (dst < 2 ^ 20)
  | .hostLinkUp link gen width => decide (link < 16) && decide (5 ≤ gen) && decide (gen ≤ 7) && (width == 4 || width == 8 || width == 16)
  | .hostLinkChange link gen l =>
    decide (link < 16) && decide (5 ≤ gen) && decide (gen ≤ 7) && (l.width == 4 || l.width == 8 || l.width == 16) && l.failed.all (· < 17)
  | .hostLinkLoss link => decide (link < 16)
  | .pfFlr link => decide (link < 16)
  | .vfFlr link vf => decide (link < 16) && decide (vf < 1024)
  | .hostReadCompletion _ _ _ => true
  | .cplTimeout _ => true
  | .apertureRead link vf off _ => decide (link < 16) && decide (vf < 1024) && decide (off < 2 ^ 32)
  | .apertureWrite link vf off _ => decide (link < 16) && decide (vf < 1024) && decide (off < 2 ^ 32)
  | .downstreamRequest link rid addr _ _ => decide (link < 16) && decide (rid < 2 ^ 16) && decide (addr < 2 ^ 64)
  | .msixUnmask link vf vector => decide (link < 16) && decide (vf < 1024) && decide (vector < 2 ^ 16)
  | .attach link vf => decide (link < 16) && decide (vf < 1024)
  | .detach link vf => decide (link < 16) && decide (vf < 1024)
  | .resume link vf => decide (link < 16) && decide (vf < 1024)
  | .discard link vf => decide (link < 16) && decide (vf < 1024)
  | .attachLockExpiry vf => decide (vf < 1024)
  | .hptTokenRead link vf => decide (link < 16) && decide (vf < 1024)
  | .ptnTokenRead => true
  | .blockResend _ kind unit op _ => decide (kind < 8) && unitOk kind unit && fits 8 op.source
  | .hbmRecalTimer channel _ => decide (channel < 128)
  | .ddrRecalTimer channel _ => decide (channel < 8)
  | .scrubPass tier _ _ _ => decide (tier < 3)
  | .hbmLaneRepair channel _ => decide (channel < 128)
  | .lrdRetire bank => decide (bank < 256)
  | .bankRetireCopy bank => decide (bank < 256)
  | .lrdSpareMap bank spare => decide (bank < 256) && decide (spare < 8)
  | .larderSpareSwitch => true
  | .granuleZeroed tier granule => decide (tier < 2) && decide (granule < 2 ^ 12)
  | .instCreate _ count => decide (count < 2 ^ 32)
  | .instModify _ count => decide (count < 2 ^ 32)
  | .instQuiesce _ count => decide (count < 2 ^ 32)
  | .drainEnd vf => decide (vf < 1024)
  | .drainTimeout vf => decide (vf < 1024)
  | .instResume _ count => decide (count < 2 ^ 32)
  | .instReset _ count => decide (count < 2 ^ 32)
  | .instRemove _ count => decide (count < 2 ^ 32)
  | .instToken _ count => decide (count < 2 ^ 32)
  | .ptnQuiesce _ count => decide (count < 2 ^ 32)
  | .ptnResume _ count => decide (count < 2 ^ 32)
  | .ptnReset _ count => decide (count < 2 ^ 32)
  | .keyWordWrite path k w => path.wf && decide (k < 8) && decide (w < 2 ^ 32)
  | .keyStageTimeout => true
  | .load path _ => path.wf
  | .wipeSlot => true
  | .wipeInstance => true
  | .wipeAll => true
  | .cphSpareMap retired spare => decide (retired < 2 ^ 5) && decide (spare < 2 ^ 5)
  | .attest => true
  | .attestDone => true
  | .lcAdvance _ => true
  | .lcScrap confirm _ => decide (confirm < 2 ^ 8)
  | .revoke key _ => decide (key < 8)
  | .raiseFwFloor _ => true
  | .burnPolarity _ => true
  | .tamperCfgWrite enable polarity => decide (enable < 16) && decide (polarity < 2 ^ 4)
  | .tamperAssert input _ => decide (input < 4)
  | .rngHealthFail => true
  | .targetConnect => true
  | .targetDisconnect => true
  | .targetReconnectTimer target => decide (target < 64)
  | .nvmePduReceive target pdu => decide (target < 64) && pdu.wf
  | .ckpCmdTimeout target _ => decide (target < 64)
  | .ckpKeepaliveTimer => true
  | .ckpSave _ count => decide (count < 2 ^ 32)
  | .ckpRestore _ count => decide (count < 2 ^ 32)
  | .domainIdleStep domain => decide (domain < 96)
  | .kindle domain => decide (domain < 96)
  | .domainLit domain => decide (domain < 96)
  | .privWake domain => (domain == 66 || domain == 84 || domain == 91)
  | .privRelease domain => (domain == 66 || domain == 84 || domain == 91)
  | .domainFloorWrite domain floor _ idleUs => decide (domain < 96) && decide (floor < 2 ^ 3) && decide (idleUs < 2 ^ 20)
  | .enterEmber => true
  | .enterCold => true
  | .deviceWake cause _ => decide (cause < 2 ^ 2)
  | .powerSample _ die hbmTemps => decide (die < 256) && decide (hbmTemps.length ≤ 4) && hbmTemps.all (fits 8)
  | .crystalFail => true
  | .watchdogExpiry kind unit _ => decide (kind < 8) && unitOk kind unit
  | .suspectWindowExpiry kind unit => decide (kind < 8) && unitOk kind unit
  | .suspectCleared kind unit => decide (kind < 8) && unitOk kind unit
  | .engineReset kind _ => decide (kind < 8)
  | .engineResetDone kind unit _ => decide (kind < 8) && unitOk kind unit
  | .stewardHeartbeatMiss core => decide (core < 36)
  | .chipReset => true
  | .firmwareReady => true
  | .bootWatchdogExpiry => true
  | .powerCycle => true
  | .clearRetired => true
  | .dump => true
  | .dumpUnitTimeout kind _ => decide (kind < 16)
  | .logRead => true
  | .logClear _ => true
  | .logFlushTimer => true
  | .logPageDone _ => true
  | .logRecordClose => true
  | .telSnapshot => true
  | .injUnlock _ confirm => decide (confirm < 2 ^ 8)
  | .injArm => true
  | .injDisarm => true
  | .powerOn => true
  | .resetNAssert => true
  | .railDeparture _ => true
  | .thermalTrip => true
  | .credentialChallenge => true
  | .credentialProve => true
  | .credentialRelinquish => true
  | .challengeReq k => decide (k < 8)
  | .proof k _ => decide (k < 8)
  | .resultAcknowledged k => decide (k < 8)
  | .regRead k seq off _ => decide (k < 8) && decide (seq < 2 ^ 32) && decide (off < 2 ^ 32)
  | .regWrite k seq off _ => decide (k < 8) && decide (seq < 2 ^ 32) && decide (off < 2 ^ 32)
  | .relinquish k => decide (k < 8)
  | .sessionIdleTimeout => true
  | .challengeExpiry path => decide (path < 9)
  | .pathLockExpiry path => decide (path < 9)
  | .query f => f.wf
  | .pcAck f => f.wf
  | .announceTimer => true
  | .retiredMessageTimer => true
  | .powerCycleReqTimer => true
  | .mgtBackoffExpiry => true
  | .fwProgramA => true
  | .fwProgramB => true
  | .fwProgramDone _ => true
  | .ddrChannelFail channel => decide (channel < 8)
  | .rngHealthRestored => true
  | .keyWipeDone _ => true
  | .cellarWipeDone _ => true
  | .instResetDone vf => decide (vf < 1024)
  | .ptnResetDone part _ => decide (part < 64)
  | .logReadDone => true
  | .railRestore => true
  | .trayCollision => true
  | .frameTransmit port => decide (port < 64)
  | .deviceEntryDone => true

end Sys2Proof
end

