-- ==== Sys2Proof/Certificates/Slice0/Obligations.lean ====
section
/-!
DEFINITION. What the model is to be shown to do: one definition for each statement. `Completes c s P` says that the command c, from the state s,
ends in a next state of which P holds. A statement about a value that the spec leaves open holds for every such value.
-/

open Sys2Proof
open Sys2Proof.Machine

/-- A step takes the command at the front of the queue and carries it out on the state with the rest of the queue (log entry 2). -/
def Obligations.StepTakesTheFrontCommand : Prop :=
  ∀ (s : State) (c : Instr) (rest : List Instr), step { s with pending := c :: rest } = exec c { s with pending := rest }

/-- Where every part that a command names by number exists, it ends in a next state; where one does not, in the fault `noSuchUnit`, and in nothing else. -/
def Obligations.EveryCommandEndsInAStateOrNamesAMissingUnit : Prop :=
  ∀ (c : Instr) (s : State), (s.has c = true → ∃ t, exec c s = .next t) ∧ (s.has c = false → exec c s = .fault .noSuchUnit)

/-- An invariant that every step keeps: where all waiting commands are well formed they still are after a step, and the step has taken exactly the first; no command changes the queue (log entry 2). -/
def Obligations.WaitingCommandsStayWellFormed : Prop :=
  (∀ (c : Instr) (s t : State), exec c s = .next t → t.pending = s.pending) ∧
    ∀ (s t : State), step s = .next t → t.pending = s.pending.tail ∧ ((∀ c ∈ s.pending, c.wf = true) → ∀ c ∈ t.pending, c.wf = true)

/-- The invariants hold at reset. -/
def Obligations.ResetQueueIsEmpty : Prop :=
  State.reset.pending = [] ∧ (∀ c ∈ State.reset.pending, c.wf = true) ∧ Memory.wf State.reset.mem = true ∧ State.reset.power = .run

/-- An invariant that every step with a waiting command keeps: a device held in reset or without power stays so, every field but the queue as it was, under every command but the four that bring power and reset (R525, R527). -/
def Obligations.DeviceOutOfPowerIsInert : Prop :=
  ∀ (s t : State), s.power = .resetHeld ∨ s.power = .railOut → s.pending ≠ [] →
    (∀ c ∈ s.pending, c ≠ .powerOn ∧ c ≠ .resetNAssert ∧ (∀ b, c ≠ .railDeparture b) ∧ c ≠ .railRestore) →
    step s = .next t →
    t = { s with pending := s.pending.tail } ∧ (t.power = .resetHeld ∨ t.power = .railOut) ∧
      (∀ c ∈ t.pending, c ≠ .powerOn ∧ c ≠ .resetNAssert ∧ (∀ b, c ≠ .railDeparture b) ∧ c ≠ .railRestore)

/-- REGISTER_WRITE, COUNTER_LOW_HALF_READ and REG_ACCESS_TIMEOUT complete so, on every path (R1, R9, R10, R15, R19, R448, R512, R513, R516): an access
in its path's form and reach is the register's own, over the link where its register stands on the gate die; a write out of form is refused. The last
clause is R1's: a row of the manager's does nothing where no session holds the role by a path that reaches the register. -/
def Obligations.RegisterAccess : Prop :=
  ∀ (s : State) (link off : Nat), s.power = .run → link < 16 →
    ((s.isRoot 0 = false → s.functionId .pf0 = some (0x1F3B, 0x9080)) ∧
      (∀ x : Nat, s.linkExists x = true → s.isRoot x = false → s.functionId (.pf x) = some (0x1F3B, 0x9080)) ∧
      (∀ x : Nat, s.isRoot x = true → s.functionId (.pf x) = none) ∧
      (s.lay.running.isSome = true → ∀ vf < 1024, s.functionId (.inst vf) = some (0x1F3B, 0x9081)) ∧
      (s.lay.running = none → ∀ vf : Nat, s.functionId (.inst vf) = none)) ∧
    (∀ data : List Byte, s.managesBy .conn false = true → s.touchSession.reaches off data.length = true →
      (alignedWrite off data.length = true → Completes (.registerWrite .conn link off data) s fun t =>
        t = (s.touchSession.writeAt .conn link off data).requeue s.pending) ∧
      (alignedWrite off data.length = false → Completes (.registerWrite .conn link off data) s fun t =>
        t = (s.touchSession.refuseAt off).requeue s.pending)) ∧
    (∀ data : List Byte, s.linkUp 0 = true → s.pf0Holds = true → s.pf0Answers off = true → s.rd F.MGT_BOOT_mode ≠ 2 →
        s.touchSession.reaches off data.length = true → alignedWrite off data.length = true →
      Completes (.registerWrite .pf0 link off data) s fun t => t = (s.touchSession.writeAt .pf0 link off data).requeue s.pending) ∧
    (∀ (vf : Nat) (data : List Byte), vf < 1024 → s.linkUp link = true → s.winAnswers link vf off = true → alignedWrite off data.length = true →
      Completes (.registerWrite (.inst vf) link off data) s fun t =>
        t = (s.writeAt (.inst vf) link (winBase + vf * 0x100000 + off) data).requeue s.pending) ∧
    (∀ data : List Byte, s.managesBy .conn false = true → data.length = 8 →
      Completes (.registerWrite .conn link 0x8 data) s fun t => t.rd F.GLB_SCRATCH_value = ofLE data ∧ t.mem = s.mem ∧ t.bxt = s.bxt) ∧
    (∀ data : List Byte, s.managesBy .conn false = true → data.length = 4 → s.rd F.PWR_DOM_state 17 = 0 → s.klnFree.isSome = true → s.inj = none →
      Completes (.registerWrite .conn link 0x2000004 data) s fun t => t.rd F.HOP_IP4_ip4 = ofLE data) ∧
    (∀ (r : RegInfo) (i : Nat), locate off = some (r, i, 0) → r.isCounter = true → off % 8 = 0 → off < winBase → onGateDie off 4 = false →
        s.winRead off 4 = none →
      (s.managesBy .conn false = true → let u := s.touchSession.touchDomain off
        Completes (.counterLowHalfRead .conn link off) s fun t => t.latches.head? = some ⟨.conn, off, u.readReg .conn r i / 2 ^ 32⟩ ∧ t.regs = u.regs) ∧
      (s.linkUp 0 = true → s.pf0Holds = true → s.pf0Answers off = true → let u := s.touchSession.touchDomain off
        Completes (.counterLowHalfRead .pf0 link off) s fun t => t.latches.head? = some ⟨.pf0, off, u.readReg .pf0 r i / 2 ^ 32⟩
          ∧ t.outbox = u.outbox ++ [.tlpCpl 0 0 (leBytes 4 (u.readReg .pf0 r i % 2 ^ 32))])) ∧
    (s.managesBy .conn false = true → s.touchSession.reaches off 4 = true → Completes (.counterLowHalfRead .conn link off) s fun t =>
      t = (s.touchSession.readRange .conn off 4).2.requeue s.pending) ∧
    (∀ vf : Nat, vf < 1024 → s.linkUp link = true → s.winAnswers link vf off = true → Completes (.counterLowHalfRead (.inst vf) link off) s fun t =>
      let q := s.readRange (.inst vf) (winBase + vf * 0x100000 + off) 4
      t = (q.2.emit (.tlpCpl link 0 q.1)).requeue s.pending) ∧
    (∀ len : Nat, let ones := List.replicate len (0xFF : Byte)
      Completes (.regAccessTimeout .pf0 link off len false) s (fun t => t.outbox = s.outbox ++ [.tlpCpl 0 0 ones] ∧ t.mem = s.mem) ∧
      Completes (.regAccessTimeout .pf0 link off len true) s (fun t => t.outbox = s.outbox ∧ t.mem = s.mem) ∧
      (∀ l < 16, Completes (.regAccessTimeout (.pf l) link off len false) s fun t => t.outbox = s.outbox ++ [.tlpCpl l 0 ones]) ∧
      (∀ l < 16, Completes (.regAccessTimeout (.pf l) link off len true) s fun t => t.outbox = s.outbox) ∧
      (∀ vf < 1024, Completes (.regAccessTimeout (.inst vf) link off len false) s fun t => t.outbox = s.outbox ++ [.tlpCpl link 0 ones]) ∧
      (∀ vf < 1024, Completes (.regAccessTimeout (.inst vf) link off len true) s fun t => t.outbox = s.outbox) ∧
      (∀ (write : Bool) (z : Session) (k : Nat), s.mgt.session = some z → z.conn = some k →
        let u := s.logEv (whereAt off).1 .timeout 0 off (whereAt off).2.1
        Completes (.regAccessTimeout .conn link off len write) s fun t => t = ((State.regResp { u with mgt := { u.mgt with
          session := some { z with seq := (z.seq + 1) % 2 ^ 32, held := Tbl.erase z.held z.seq } } } k z.seq 0
          (if write then [] else ones)).runRegs k 66).requeue s.pending)) ∧
    (s.manages true = false → ∀ (a b d e : Nat) (ok : Bool), ∀ c ∈ ([.loadFull, .loadSlice, .programA, .programB, .raiseFloor, .abort, .tallySpareMap a b,
        .millSpareMap a b, .cphSpareMap a b, .install, .activate, .dissolve, .wipeSlot, .wipeInstance, .wipeAll, .targetConnect, .targetDisconnect,
        .ptnTokenRead, .telSnapshot, .injUnlock ok a, .injArm, .injDisarm, .meterApply, .meterRead, .portAdminWrite a b, .domainFloorWrite a b ok d,
        .enterEmber, .enterCold, .engineReset a b, .routeWrite, .routeDelete, .routeRead, .weatherWindowGo, .powerCycle, .clearRetired, .dump,
        .lrdRetire a, .lrdSpareMap a b, .ctlSqDoorbell a, .ctlCqDoorbell a, .fwProgramA, .fwProgramB, .logRead, .logClear ok, .chipReset, .revoke a ok,
        .raiseFwFloor ok, .burnPolarity ok, .tamperCfgWrite a b, .attest, .lcAdvance ok, .lcScrap a ok, .load .conn e, .load .pf0 e] : List Instr),
      s.has c = true → Completes c s fun t => t = s)

/-- The seven Kilmet rows complete so (R19, R21 to R27). -/
def Obligations.KilmetLink : Prop :=
  ∀ (s : State) (m d : Nat), s.power = .run → m < 8 → d < 2 →
    (∀ (sent got : List Byte) (known : Bool), Completes (.kilmetFlitReceive m d sent got known) s fun t => t = (s.klnCross m d sent got known).requeue s.pending) ∧
    (∀ n : Nat, s.klnRuns m = true → Completes (.kilmetNak m d n) s fun t => t = (s.klnReplay m d (n % 4096)).requeue s.pending) ∧
    (Completes (.kilmetAckTimeout m d) s fun t => t = (s.klnAckLate m d).requeue s.pending) ∧
    (∀ ch n : Nat, ch < 7 → Completes (.kilmetCredit d ch n) s fun t => t = (s.klnGrant d ch n).requeue s.pending) ∧
    ((Completes (.kilmetRetrain m) s fun t => t = (s.klnRetrain m).requeue s.pending) ∧ (∀ (ok : Bool) (g2h h2g : Nat), Completes (.kilmetRetrainDone m ok g2h h2g) s fun t => t = (s.klnTrained m ok g2h h2g).requeue s.pending)) ∧
    (s.klnRuns m = false → ∀ n : Nat, (Completes (.kilmetNak m d n) s fun t => t = s) ∧ (Completes (.kilmetAckTimer m d) s fun t => t = s)) ∧
    (∀ f : List Byte, s.klnRuns m = true → s.inj = none → (s.klnDir m d).replay = none → (s.klnDir m d).unacked.length < 512 →
        flitSeq f = (s.klnDir m d).txSeq → flitSeq f = (s.klnDir m d).rxSeq → flitGood f = true → flitKnown f true = true →
        flitAckValid f = false → (s.klnDir m d).toAck < 63 →
      let moved := fun t : State =>
        (t.klnDir m d).rxSeq = ((s.klnDir m d).rxSeq + 1) % 4096 ∧ (t.klnDir m d).unacked = (s.klnDir m d).unacked ++ [((s.klnDir m d).txSeq, f)]
      let sends := s.klnCredit d (flitChan f) ≠ 0 ∧ s.klnFenced d f = false
      (sends → flitKind f = 0 → Completes (.kilmetFlitReceive m d f f true) s fun t => moved t ∧ t.outbox = s.outbox ++ [.flit d f]) ∧
      (sends → flitKind f = 1 → flitBlockGood f = true →
        Completes (.kilmetFlitReceive m d f f true) s fun t => moved t ∧ t.outbox = s.outbox ++ [.flit d f]) ∧
      (sends → flitKind f = 2 → flitChan f = 4 ∨ s.klnDataOut d (flitTag f) = false →
        Completes (.kilmetFlitReceive m d f f true) s fun t => moved t ∧ t.outbox = s.outbox ++ [.flit d f]) ∧
      (flitKind f = 3 → s.kln.owed = [] → s.kln.held = [] → serialOlder 32 (Tbl.getD s.kln.granted ((1 - d) * 8 + bitsOf (flitAux f) 32 3) 0) (bitsOf (flitAux f) 0 32) = true →
        Completes (.kilmetFlitReceive m d f f true) s fun t => moved t ∧ t.outbox = s.outbox ∧
          Tbl.getD t.kln.granted ((1 - d) * 8 + bitsOf (flitAux f) 32 3) 0 = bitsOf (flitAux f) 0 32) ∧
      (flitKind f = 4 → flitSub f = ctlFence →
        Completes (.kilmetFlitReceive m d f f true) s fun t => moved t ∧ t.outbox = s.outbox ∧ t.kln.fenced.contains (d * 64 + flitPart f) = true) ∧
      (sends → flitKind f = 0 → ∀ g : List Byte, flitGood g = false →
        Completes (.kilmetFlitReceive m d f g true) s fun t => (t.klnDir m d).discards = true ∧ (t.klnDir m d).rxSeq = (s.klnDir m d).rxSeq
          ∧ t.outbox = s.outbox)) ∧
    (∀ (n f : Nat) (g : List Byte) (l : List (Nat × List Byte)), s.klnRuns m = true →
        ((s.klnDir m d).unacked.filter fun q => !serialOlder 12 q.1 (n % 4096)) = (f, g) :: l →
      Completes (.kilmetNak m d n) s fun t => t.rd F.KLN_MOD_replays m = (s.rd F.KLN_MOD_replays m + (l.length + 1)) % 2 ^ F.KLN_MOD_replays.width
        ∧ (t.klnDir m d).replayed = f ∧ (t.klnDir m d).replay = some f) ∧
    (∀ (f : Nat) (g : List Byte) (l : List (Nat × List Byte)), s.klnRuns m = true → (s.klnDir m d).unacked = (f, g) :: l →
      Completes (.kilmetAckTimeout m d) s fun t => t.rd F.KLN_MOD_replays m =
        (s.rd F.KLN_MOD_replays m + (((f, g) :: l).filter fun q => !serialOlder 12 q.1 f).length) % 2 ^ F.KLN_MOD_replays.width) ∧
    (s.klnRuns m = true → Completes (.kilmetAckTimer m d) s fun t => (t.klnDir m d).toAck = 0) ∧
    (∀ ch n : Nat, ch < 7 → serialOlder 32 (Tbl.getD s.kln.granted (d * 8 + ch) 0) n = true →
      Completes (.kilmetCredit d ch n) s fun t => Tbl.getD t.kln.granted (d * 8 + ch) 0 = n % 2 ^ 32) ∧
    (s.klnRuns m = true → Completes (.kilmetRetrain m) s fun t => t.rd F.KLN_MOD_state m = 1
      ∧ t.rd F.KLN_MOD_retrains m = (s.rd F.KLN_MOD_retrains m + 1) % 2 ^ F.KLN_MOD_retrains.width) ∧
    (∀ g2h h2g : Nat, s.rd F.KLN_MOD_state m = 1 → s.rd F.KLN_MOD_rep_g2h m + g2h ≤ 4 → s.rd F.KLN_MOD_rep_h2g m + h2g ≤ 4 →
        (s.klnDir m 0).unacked = [] → (s.klnDir m 1).unacked = [] →
      Completes (.kilmetRetrainDone m true g2h h2g) s fun t => t.rd F.KLN_MOD_state m = 0
        ∧ t.rd F.KLN_MOD_rep_g2h m = s.rd F.KLN_MOD_rep_g2h m + g2h ∧ t.rd F.KLN_MOD_rep_h2g m = s.rd F.KLN_MOD_rep_h2g m + h2g)

/-- The six commands of LAY_CMD complete so where nothing runs (R52, R53, R55, R56, R57). -/
def Obligations.LayoutCommandsStart : Prop :=
  ∀ s : State, s.power = .run → s.manages false = true → s.rd F.MGT_FW_STATUS_busy = 0 → s.rd F.LAY_STATUS_busy = 0 →
    ((∀ p < 64, s.enabled p = true → s.rd F.PTN_PART_state p = ptnQuiesced) →
      Completes .loadFull s fun t => t.rd F.LAY_STATUS_busy = 1 ∧ t.rd F.LAY_STATUS_last_op = layFull) ∧
    (∀ p : Nat, s.stagedSlice = some p → s.rd F.PTN_PART_state p = ptnQuiesced →
      Completes .loadSlice s fun t => t.rd F.LAY_STATUS_busy = 1 ∧ t.rd F.LAY_STATUS_last_op = laySlice ∧ t.lay.slicePart = some p) ∧
    (s.lay.fromSlot ≠ some 0 → Completes .programA s fun t => t.rd F.LAY_STATUS_busy = 1 ∧ t.rd F.LAY_STATUS_last_op = layProgA) ∧
    (s.lay.fromSlot ≠ some 1 → Completes .programB s fun t => t.rd F.LAY_STATUS_busy = 1 ∧ t.rd F.LAY_STATUS_last_op = layProgA + 1) ∧
    (∀ l : Layout, s.lay.running = some l → l.rollback < 256 → s.rd F.LAY_SOURCE_floor ≠ 255 → Completes .raiseFloor s fun t =>
        t.rd F.LAY_SOURCE_floor = max (s.rd F.LAY_SOURCE_floor) l.rollback ∧ t.rd F.LAY_STATUS_done = 1 ∧ t.rd F.LAY_STATUS_last_op = layFloor) ∧
    Completes .abort s (fun t => t.rd F.LAY_STATUS_done = 1)

/-- LAYOUT_COMMAND_DONE completes so, where the checks pass and where one fails, and ABORT so where a command runs (R50, R52, R53, R54, R55, R56). -/
def Obligations.LayoutCommandsEnd : Prop :=
  ∀ s : State, s.power = .run → s.rd F.MGT_FW_STATUS_busy = 0 → s.rd F.LAY_STATUS_busy = 1 →
    (∀ ok : Bool, Completes (.layoutCommandDone ok) s fun t => t = (s.layoutDone ok).requeue s.pending) ∧
    let ends := fun (t : State) (reason : Nat) => t.rd F.LAY_STATUS_busy = 0 ∧ t.rd F.LAY_STATUS_done = b2n (reason == 0)
      ∧ t.rd F.LAY_STATUS_rejected = b2n (reason != 0) ∧ t.rd F.LAY_STATUS_reason = reason
    (∀ l : Layout, s.rd F.LAY_STATUS_last_op = layFull → s.checkFull s.stagedImage 67108864 = .ok l →
      Completes (.layoutCommandDone true) s (fun t => t = ((s.applyFull l 3 false).layResult layFull 0).requeue s.pending ∧ ends t 0) ∧
      Completes (.layoutCommandDone false) s (fun t => t = (s.chipReset 4).requeue s.pending)) ∧
    (∀ (p : Nat) (q : PoolShare) (rs : List Recipe), s.rd F.LAY_STATUS_last_op = laySlice → s.checkSlice s.stagedImage 67108864 = .ok (p, q, rs) →
      Completes (.layoutCommandDone true) s fun t => t = (((s.applySlice p q rs).layResult laySlice 0).sliceEnds).requeue s.pending) ∧
    (∀ (ok : Bool) (r : Nat), s.rd F.LAY_STATUS_last_op = laySlice → s.checkSlice s.stagedImage 67108864 = .error r → r ≠ 14 →
      Completes (.layoutCommandDone ok) s fun t => t = ((s.layResult laySlice r).sliceEnds).requeue s.pending) ∧
    (∀ (slot : Nat) (l : Layout), slot < 2 → s.rd F.LAY_STATUS_last_op = layProgA + slot → s.checkFull s.stagedImage 67108864 = .ok l →
      Completes (.layoutCommandDone true) s (fun t => ends t 0 ∧ Tbl.get? t.lay.slots slot = some s.stagedImage ∧ t.mem = s.mem) ∧
      Completes (.layoutCommandDone false) s (fun t => ends t 17 ∧ Tbl.get? t.lay.slots slot = none ∧ t.mem = s.mem)) ∧
    (∀ (ok : Bool) (slot r : Nat), slot < 2 → s.rd F.LAY_STATUS_last_op = layProgA + slot → s.checkFull s.stagedImage 67108864 = .error r →
        0 < r → r < 256 →
      Completes (.layoutCommandDone ok) s fun t => ends t r ∧ t.lay.slots = s.lay.slots ∧ t.mem = s.mem) ∧
    (∀ (ok : Bool) (r : Nat), s.rd F.LAY_STATUS_last_op = layFull → s.checkFull s.stagedImage 67108864 = .error r → 0 < r → r < 256 →
      Completes (.layoutCommandDone ok) s fun t => t.rd F.LAY_STATUS_busy = 0 ∧ t.rd F.LAY_STATUS_rejected = 1 ∧ t.rd F.LAY_STATUS_done = 0
        ∧ t.rd F.LAY_STATUS_reason = r ∧ t.mem = s.mem ∧ t.lay.running = s.lay.running) ∧
    (s.manages false = true → s.rd F.LAY_STATUS_last_op = layProgA → s.lay.slicePart = none →
      Completes .abort s fun t => t.rd F.LAY_STATUS_busy = 0 ∧ t.rd F.LAY_STATUS_rejected = 1 ∧ t.rd F.LAY_STATUS_reason = 16
        ∧ Tbl.get? t.lay.slots 0 = none)

/-- The mapping of spares completes so for the manager, and is refused so (R109, R182, R403). -/
def Obligations.SpareMapping : Prop :=
  ∀ s : State, s.power = .run →
    (∀ res : Nat, Completes (.spareMapDone res) s fun t => t = (((s.spareMapped res).deal 18).cmnRun).requeue s.pending) ∧
    (s.Calm → s.rd F.TAL_SPARE_MAP_go = 1 → Completes (.spareMapDone 5) s fun t =>
        t.rd F.TAL_SPARE_MAP_go = 0 ∧ t.rd F.TAL_UNIT_STATE_state (s.rd F.TAL_SPARE_MAP_spare_unit) = 0) ∧
    (s.Calm → s.rd F.MIL_SPARE_MAP_go = 1 → Completes (.spareMapDone 6) s fun t =>
        t.rd F.MIL_SPARE_MAP_go = 0 ∧ t.rd F.MIL_ENG_STATE_state (s.rd F.MIL_SPARE_MAP_spare_unit) = 0) ∧
    (s.Calm → s.rd F.CPH_SPARE_MAP_go = 1 → Completes (.spareMapDone 7) s fun t =>
        t.rd F.CPH_SPARE_MAP_go = 0 ∧ t.rd F.CPH_CORE_STATE_state (s.rd F.CPH_SPARE_MAP_spare_unit) = 0) ∧
    (s.manages false = true →
    let may := fun (res u p : Nat) (f : Fld) => s.rd f u = 2 ∧ s.rd f p = 1 ∧ s.built.defects.contains (res, p) = false ∧
      (s.servedBy res u).isSome = false ∧ s.unitsActive res f < activeFigure res
    (∀ u p : Nat, u < 34 → p < 34 → s.rd F.TAL_SPARE_MAP_go = 0 → may 5 u p F.TAL_UNIT_STATE_state →
      Completes (.tallySpareMap u p) s fun t => t.rd F.TAL_SPARE_MAP_go = 1 ∧ t.rd F.TAL_SPARE_MAP_retired_unit = u
        ∧ t.rd F.TAL_SPARE_MAP_spare_unit = p ∧ t.rd F.TAL_UNIT_STATE_state p = 3 ∧ t.mem = s.mem) ∧
    (∀ u p : Nat, u < 18 → p < 18 → s.rd F.MIL_SPARE_MAP_go = 0 → may 6 u p F.MIL_ENG_STATE_state →
      Completes (.millSpareMap u p) s fun t => t.rd F.MIL_SPARE_MAP_go = 1 ∧ t.rd F.MIL_SPARE_MAP_retired_unit = u
        ∧ t.rd F.MIL_SPARE_MAP_spare_unit = p ∧ t.rd F.MIL_ENG_STATE_state p = 3 ∧ t.mem = s.mem) ∧
    (∀ u p : Nat, u < 18 → p < 18 → s.rd F.CPH_SPARE_MAP_go = 0 → may 7 u p F.CPH_CORE_STATE_state →
      Completes (.cphSpareMap u p) s fun t => t.rd F.CPH_SPARE_MAP_go = 1 ∧ t.rd F.CPH_SPARE_MAP_retired_unit = u
        ∧ t.rd F.CPH_SPARE_MAP_spare_unit = p ∧ t.rd F.CPH_CORE_STATE_state p = 3 ∧ t.mem = s.mem) ∧
    (∀ u p : Nat,
      let same := fun t : State => (∀ (f : Fld) (i : Nat), f.reg.isLog = false → t.rd f i = s.rd f i) ∧ t.mem = s.mem ∧ t.outbox = s.outbox
      (s.rd F.TAL_SPARE_MAP_go = 1 ∨ ¬ may 5 u p F.TAL_UNIT_STATE_state → Completes (.tallySpareMap u p) s same) ∧
      (s.rd F.MIL_SPARE_MAP_go = 1 ∨ ¬ may 6 u p F.MIL_ENG_STATE_state → Completes (.millSpareMap u p) s same) ∧
      (s.rd F.CPH_SPARE_MAP_go = 1 ∨ ¬ may 7 u p F.CPH_CORE_STATE_state → Completes (.cphSpareMap u p) s same)))

/-- The group commands complete so (R113, R118, R150, R151). -/
def Obligations.GroupRecords : Prop :=
  ∀ (s : State) (slot : Nat), s.power = .run →
    (s.manages false = true → (Completes .install s fun t => t = (s.touchSession.install).requeue s.pending) ∧ (Completes .activate s fun t => t = (s.touchSession.activate).requeue s.pending) ∧ (Completes .dissolve s fun t => t = (s.touchSession.dissolve).requeue s.pending)) ∧
    ((Completes (.activateComplete slot) s fun t => t = ((s.activateDone slot).cmnRun).requeue s.pending) ∧ (Completes (.activateTimeout slot) s fun t => t = (s.activateTimeout slot).requeue s.pending)) ∧
    (s.rd F.CMN_GRP_STATUS_busy = 0 → s.rd F.CMN_GRP_SEL_slot = slot → s.group? slot = none →
      (s.cmn.groups.any fun q => q.1 != slot && q.2.id == s.rd F.CMN_GRP_ARG0_group_id) = false →
      s.rd F.CMN_GRP_ARG3_rank_b_valid = 0 → s.rd F.CMN_GRP_ARG3_enc = 0 →
      let raw := (List.range (s.rd F.CMN_GRP_ARG1_size)).map fun i => Tbl.getD s.cmn.window i 0
      let ms := raw.map memberOf
      let a := s.rd F.CMN_GRP_ARG2_rank_a
      0 < ms.length → ms.length ≤ 65536 → badTable ms raw = false →
      (ms[a]?).map (fun m => (m.dev, m.vf)) = some (s.devAddr, s.rd F.CMN_GRP_ARG3_vf) →
      ((List.range ms.length).filter fun r => (ms.getD r ⟨0, 0, 0, 0, false⟩).dev == s.devAddr).length = 1 →
      s.manages false = true →
      Completes .install s fun t => t.rd F.CMN_GRP_STATUS_done = 1 ∧ t.rd F.CMN_GRP_STATUS_refused = 0 ∧ t.rd F.CMN_GRP_STATUS_reason = 0
        ∧ (t.group? slot).map (fun g => (g.id, g.gen)) = some (s.rd F.CMN_GRP_ARG0_group_id, s.rd F.CMN_GRP_ARG0_generation)
        ∧ (t.group? slot).map (fun g => (g.members, g.local_, g.state)) = some (ms, [a], .installed) ∧ t.mem = s.mem) ∧
    (∀ (g : Group) (u : State), s.rd F.CMN_GRP_STATUS_busy = 0 → s.rd F.CMN_GRP_SEL_slot = slot → s.group? slot = some g → g.fresh = true →
        s.hasPrefix = true → s.manages false = true →
        let v := s.touchSession.closeCmn slot (some g.gen)
        v.openParents slot g (v.parentEdges g) = some u →
      Completes .activate s fun t => t.rd F.CMN_GRP_STATUS_busy = 1 ∧ (t.group? slot).map (·.activating) = some true) ∧
    (∀ g : Group, s.group? slot = some g → g.activating = true → s.coordOpen slot g = true → g.reformed = false →
      Deals (.activateComplete slot) s fun v => v.rd F.CMN_GRP_STATUS_done = 1 ∧ v.rd F.CMN_GRP_STATUS_busy = 0
        ∧ v.rd F.CMN_GRP_STATUS_reason = 0 ∧ (v.group? slot).map (fun h => (h.state, h.gen)) = some (.active, g.gen)) ∧
    (∀ g : Group, s.group? slot = some g → g.activating = true → s.coordOpen slot g = false →
      Completes (.activateTimeout slot) s fun t => t.rd F.CMN_GRP_STATUS_refused = 1 ∧ t.rd F.CMN_GRP_STATUS_busy = 0
        ∧ t.rd F.CMN_GRP_STATUS_reason = 8) ∧
    (∀ g : Group, s.rd F.CMN_GRP_STATUS_busy = 0 → s.rd F.CMN_GRP_SEL_slot = slot → s.group? slot = some g → s.opsOpen slot = 0 →
        s.manages false = true →
      Completes .dissolve s fun t => t.rd F.CMN_GRP_STATUS_done = 1 ∧ t.rd F.CMN_GRP_STATUS_reason = 0 ∧ t.group? slot = none) ∧
    (s.rd F.CMN_GRP_STATUS_busy = 1 → s.manages false = true →
      let refused := fun t : State => t.rd F.CMN_GRP_STATUS_refused = 1 ∧ t.rd F.CMN_GRP_STATUS_reason = 7 ∧ t.cmn = s.cmn ∧ t.bxt = s.bxt
      Completes .install s refused ∧ Completes .activate s refused ∧ Completes .dissolve s refused)

/-- The COORD messages complete so (R206, R116): their contents reach the commons with nothing lost. -/
def Obligations.CoordMessagesArrive : Prop :=
  ∀ (s u : State) (p : Packet) (gen nseq group rank op : Nat) (k : Conn) (g : Group) (b : CBody),
    let report := fun v : State =>
      v = u.inboxAdd (.report k.slot (match edgeUp g.local_ 8 rank with | some (_, parent) => parent | none => 0) rank (u.wireKey k.slot g op b) b)
    let notice := fun v : State => v = u.inboxAdd (.notice k.slot rank nseq (u.wireKey k.slot g op b) b)
    let taken := fun (kind n : Nat) => s.Coord p kind gen n group rank op k g b u
    (taken 1 0 → Settles (.start gen 0 group rank op p) s report) ∧
    (taken 2 nseq → nseq ≠ 0 → Settles (.go gen nseq group rank op p) s notice) ∧
    (taken 3 0 → Settles (.done gen 0 group rank op p) s report) ∧
    (taken 4 0 → Settles (.reduced gen 0 group rank op p) s report) ∧
    (taken 5 nseq → nseq ≠ 0 → Settles (.reduceCommit gen nseq group rank op p) s notice) ∧
    (taken 6 0 → Settles (.published gen 0 group rank op p) s report) ∧
    (taken 7 nseq → nseq ≠ 0 → Settles (.commit gen nseq group rank op p) s notice) ∧
    (taken 8 nseq → nseq ≠ 0 → Settles (.void gen nseq group rank op p) s notice) ∧
    (taken 9 0 → Settles (.voidAck gen 0 group rank op p) s report) ∧
    (taken 10 nseq → nseq ≠ 0 → Settles (.rerun gen nseq group rank op p) s notice) ∧
    (taken 11 0 → Settles (.abandon gen 0 group rank op p) s report) ∧
    (taken 11 nseq → nseq ≠ 0 → Settles (.abandon gen nseq group rank op p) s notice) ∧
    (taken 12 0 → Settles (.reconcile gen 0 group rank op p) s report) ∧
    (taken 12 nseq → nseq ≠ 0 → Settles (.reconcile gen nseq group rank op p) s notice) ∧
    (taken 13 0 → Settles (.folded gen 0 group rank op p) s fun v => v = u.inboxAdd (.folded k.slot rank (u.opKey k.slot op) b)) ∧
    (taken 14 0 → Settles (.coordKeepalive gen 0 group rank op p) s fun v => v = u) ∧
    (taken 15 0 → Settles (.loss gen 0 group rank op p) s report) ∧
    (taken 15 nseq → nseq ≠ 0 → Settles (.loss gen nseq group rank op p) s notice)

/-- The timers of the commons complete so (R108, R118, R141, R143, R195). -/
def Obligations.CommonsTimers : Prop :=
  ∀ s : State, s.power = .run →
    (∀ c : Nat, (Completes (.coordKeepaliveTimer c) s fun t => t = (s.keepCoord c).requeue s.pending) ∧ (Completes (.chunkConnTimeout c) s fun t => t = (s.chunkConnTimeout c).requeue s.pending)) ∧
    (∀ slot n : Nat, (Completes (.straggleExpiry slot n) s fun t => t = (s.straggle slot (s.opKey slot n)).requeue s.pending) ∧ (Completes (.reformWaitExpiry slot) s fun t => t = (s.reformExpired slot).requeue s.pending)) ∧
    (∀ op rank b chunk : Nat, Completes (.chunkBind op rank b chunk) s fun t => t = ((s.bindChunk op rank b chunk).cmnRun).requeue s.pending) ∧
    (∀ (c : Nat) (k : Conn) (g : Group), s.conn? c = some k → k.svc = 2 → k.state = .open_ → s.opsOpen k.slot ≠ 0 → s.group? k.slot = some g →
      Completes (.coordKeepaliveTimer c) s fun t =>
        t = (s.sendMsg c 0 (.coord 14 g.gen 0 g.id g.me 0) false [] none).requeue s.pending) ∧
    (∀ (slot n : Nat) (g : Group) (b : Bell), let key := s.opKey slot n
        s.group? slot = some g → Tbl.get? g.bells key = some b → b.isOver = false → g.state ≠ .reforming →
      Deals (.straggleExpiry slot n) s fun v =>
        v = ((s.modBell slot key fun b => { b with isOver := true }).modGroup slot fun g => { g with ended := Tbl.erase g.ended key }).notify slot key
          (.abandon Status.deadlineMissed 4 (s.missingRank slot key) b.commits)) ∧
    (∀ (slot : Nat) (g : Group), s.group? slot = some g → g.state = .reforming → g.fresh = false →
        (s.cmn.colls.filter fun c => c.slot == slot && c.phase == .held) = [] →
      Completes (.reformWaitExpiry slot) s fun t =>
        (t.group? slot).map (fun h => (h.state, h.lost, h.gen)) = some (.active, [], g.gen) ∧ t.mem = s.mem ∧ t.ops = s.ops) ∧
    (∀ (slot : Nat) (g : Group) (c : Coll), s.group? slot = some g → g.state = .reforming → g.fresh = false →
        (s.cmn.colls.filter fun c => c.slot == slot && c.phase == .held) = [c] →
      Completes (.reformWaitExpiry slot) s fun t => t = ((s.setGroup slot { g with state := .active, lost := [] }).endColl c Status.peerLost 0 5
        (g.lost.foldl min (g.lost.headD 0)) (if c.isStep then c.bundlesDone else 0)).requeue s.pending) ∧
    (∀ (c : Nat) (k : Conn) (g : Group), s.conn? c = some k → k.svc = 3 → k.state = .armed → s.group? k.slot = some g →
      Deals (.chunkConnTimeout c) s fun v => v = (s.freeConn c none).seeLoss k.slot (g.ranksOf k.peerDev)) ∧
    (∀ (op rank b chunk : Nat) (x : COp) (n : Node), s.cop? op = some x → x.c.node? rank b chunk = some n →
        (s.rst.replays.any fun r => r.kind == 0 && r.parked.contains (op, rank, b, chunk)) = false →
      (∀ u : Nat, s.bindUnit x.g.id b chunk = some u → x.c.slotFree n = true → n.finished = false → n.unit = none →
        let n' : Node := { n with unit := some u, waiting := [], slot := true }
        let v := (s.bump F.TAL_UNIT_STATE_slots_bound 1 u).setNode op n'
        (Deals (.chunkBind op rank b chunk) s fun w => w = s.enterUnit op rank b chunk u) ∧
        (n.waiting = [] → Deals (.chunkBind op rank b chunk) s fun w => w = v.closeNode op n') ∧
        (∀ (h : ChunkHdr) (d : List Byte), n.waiting = [(h, d)] → Deals (.chunkBind op rank b chunk) s fun w =>
          let y := v.offer op n' h d
          w = (match (y.coll? op).bind fun c => c.node? rank b chunk with
            | some m => y.closeNode op m
            | none => y))) ∧
      (s.bindUnit x.g.id b chunk = none ∨ x.c.slotFree n = false → Deals (.chunkBind op rank b chunk) s fun w => w = s))

/-- The mill's rows complete so (R164, R179). -/
def Obligations.MillBlocksAndNorms : Prop :=
  ∀ s : State, s.power = .run →
    (∀ e : Nat, e < 18 → Completes (.millBlockDone e) s fun t => t = ((s.blockDone e).cmnRun).requeue s.pending) ∧
    (∀ id copy b : Nat, Completes (.normSync id copy b) s fun t => t = ((s.normSync id copy b).cmnRun).requeue s.pending) ∧
    (∀ id scope b n0 n1 n2 n3 : Nat, Completes (.normSyncResult id scope b n0 n1 n2 n3) s fun t => t = ((s.normResult id scope b [n0, n1, n2, n3]).cmnRun).requeue s.pending) ∧
    (∀ (e : Nat) (m : MillBlk), e < 18 → Tbl.get? s.mill.engines e = some m → (s.freeEngine e).cop? m.op = none →
      Deals (.millBlockDone e) s fun v => v = (s.freeEngine e).deal 18 ∧ (s.freeEngine e).rd F.MIL_ENG_STATE_busy e = 0) ∧
    (∀ (e : Nat) (m : MillBlk) (x : COp), e < 18 → Tbl.get? s.mill.engines e = some m → (s.freeEngine e).cop? m.op = some x →
      let w := ((s.freeEngine e).millIdle x.o.part).commitBlock m
      let y := match m.took with
        | some h => w.sendFolded x.c.slot x.c.key (x.rankOf m.copy) h.src h false
        | none => w
      Deals (.millBlockDone e) s fun v => v = (if m.pass1 then y else y.bundleDone m.op m.copy m.bundle).deal 18) ∧
    (∀ (id copy b sc : Nat) (x : COp) (k : StepCopy), s.cop? id = some x → Tbl.get? x.c.copies copy = some k →
        syncOf (s.recipeOf x copy b) = some sc → x.c.phase = .running ∨ x.c.phase = .closing → b < x.c.committed → k.pass1.contains b = false →
        x.p.bStart ≤ b → b < x.p.bundles → (∀ i < x.blocksIn copy b, k.p1done.contains (blkKey b i) = true) →
      let k' := { k with pass1 := b :: k.pass1 }
      let u := s.modColl id fun c => { c with copies := Tbl.set c.copies copy k' }
      let v := ((u.wr F.MIL_PTN_STEP_step x.p.step x.o.part).wr F.MIL_PTN_STEP_bundle b x.o.part).wr F.MIL_PTN_STEP_pass 2 x.o.part
      Deals (.normSync id copy b) s fun w => w = (if x.sums copy then v.reportNorms x copy b sc k' else v)
        ∧ v.rd F.MIL_PTN_STEP_pass x.o.part = 2 ∧ v.rd F.MIL_PTN_STEP_bundle x.o.part = b % 2 ^ F.MIL_PTN_STEP_bundle.width ∧ v.mem = s.mem) ∧
    (∀ (id scope b n0 n1 n2 n3 : Nat) (c : Coll), s.coll? id = some c → Tbl.get? c.norms (if scope = 1 then 65536 else b) = none →
      let es := [n0, n1, n2, n3].map fun v => fp32.encode false none (fp64.decode v)
      let odd := (es.filter fun e => e.2.nan || e.2.inf).length
      Deals (.normSyncResult id scope b n0 n1 n2 n3) s fun v => ∃ w : State, v = w.deal 18 ∧ w.mem = s.mem
        ∧ w.rd F.MIL_NONFINITE = (s.rd F.MIL_NONFINITE + odd) % 2 ^ F.MIL_NONFINITE.width
        ∧ (w.coll? id).map (fun c => Tbl.get? c.norms (if scope = 1 then 65536 else b)) = some (some (es.map Prod.fst)))

/-- The packets that carry data complete so (R100, R214, R217, R534). -/
def Obligations.BxtDataArrives : Prop :=
  ∀ (s u w v : State) (c : Nat) (k : Conn) (p q : Packet) (m : OpenMsg) (locs : List (Loc × Nat)),
    (∀ raddr rkey : Nat, s.Takes p (.write raddr rkey) c k q u → k.svc = 0 → u.conn? c = some k → (k.msg? q.msn).bind (·.refused) = none →
        u.msgFor c k q = (some m, w) → w.remoteRange k rkey (raddr + q.msgOff) q.payload.length .write = (.ok locs, v) →
      Settles (.bxtWrite raddr rkey p) s fun z => z = (v.writeLocs k.vf (rkey / 2 ^ 20) none locs q.payload).placed c q m locs) ∧
    (∀ (ssn imm id : Nat) (o : Op) (x : State), s.Takes p (.send ssn imm) c k q u → k.svc = 0 → u.conn? c = some k →
        (k.msg? q.msn).bind (·.refused) = none → u.msgFor c k q = (some m, w) →
        (match m.recvOp with | some id => (some id, w) | none => w.takeRecv k ssn) = (some id, x) → x.op? id = some o →
        q.msgLen ≤ fieldLE o.desc 24 4 →
      let m' : OpenMsg := { m with recvOp := some id }
      (x.modConn c fun k => k.setMsg m').lookupRange k.part k.vf o.tag (fieldLE o.desc 16 8 + q.msgOff) q.payload.length .write = (.ok locs, v) →
      Settles (.bxtSend ssn imm p) s fun z => z = (v.writeLocs k.vf o.tag none locs q.payload).placed c q m' locs) ∧
    (∀ raddr rkey n : Nat, ∀ x : State, s.Takes p (.readReq raddr rkey n) c k q u → k.svc = 0 → k.state = .open_ → u.conn? c = some k →
        (k.msg? q.msn).bind (·.refused) = none → u.msgFor c k q = (some m, w) →
        w.remoteRange k rkey (raddr + q.msgOff) n .read = (.ok locs, v) → v.badFor k.part none locs = (false, x) → hostLocs locs = [] →
      Settles (.readReq raddr rkey n p) s fun z => z = ((x.takePsn c q).sendReadResp c k q ((x.takePsn c q).readLocs locs)).endMsg c q.msn) ∧
    (∀ raddr rkey n aop a b : Nat, ∀ x : State, k.svc = 0 → k.state = .open_ → u.conn? c = some k → (k.msg? q.msn).bind (·.refused) = none → u.msgFor c k q = (some m, w) →
        v.badFor k.part none locs = (false, x) → hostLocs locs ≠ [] →
      (s.Takes p (.readReq raddr rkey n) c k q u → w.remoteRange k rkey (raddr + q.msgOff) n .read = (.ok locs, v) →
        Settles (.readReq raddr rkey n p) s fun z => z = (x.takePsn c q).issueReads (.served q locs) k.vf (rkey / 2 ^ 20) (hostLocs locs)) ∧
      (s.Takes p (.atomic raddr rkey aop a b) c k q u → aop ≤ 2 → raddr % 8 = 0 → w.remoteRange k rkey raddr 8 .atomic = (.ok locs, v) →
        Settles (.bxtAtomic raddr rkey aop a b p) s fun z => z = x.issueReads (.served q locs) k.vf (rkey / 2 ^ 20) (hostLocs locs))) ∧
    (∀ raddr rkey aop a b : Nat, ∀ x : State, s.Takes p (.atomic raddr rkey aop a b) c k q u → k.svc = 0 → k.state = .open_ → u.conn? c = some k →
        (k.msg? q.msn).bind (·.refused) = none → u.msgFor c k q = (some m, w) → aop ≤ 2 → raddr % 8 = 0 →
        w.remoteRange k rkey raddr 8 .atomic = (.ok locs, v) → v.badFor k.part none locs = (false, x) → hostLocs locs = [] →
      let old := ofLE (x.readLocs locs)
      let done : OpenMsg := { m with fixed := true, complete := true, wrote := lastWrites locs m.wrote }
      let y := ((x.writeLocs k.vf (rkey / 2 ^ 20) none locs (leBytes 8 (atomicValue aop old a b))).modConn c fun k =>
        { k with atomics := ((q.psn, old) :: k.atomics).take 16 }).modConn c fun k => k.setMsg done
      Settles (.bxtAtomic raddr rkey aop a b p) s fun z => z = ((y.takePsn c q).sendAtomicResp c k q old).finishMsg c done) ∧
    (∀ raddr rkey n aop a b : Nat, k.svc ≠ 0 →
      (s.Takes p (.write raddr rkey) c k q u → Settles (.bxtWrite raddr rkey p) s fun z => z = u.refuse c q Nak.access) ∧
      (s.Takes p (.readReq raddr rkey n) c k q u → Settles (.readReq raddr rkey n p) s fun z => z = u.refuse c q Nak.access) ∧
      (s.Takes p (.atomic raddr rkey aop a b) c k q u → Settles (.bxtAtomic raddr rkey aop a b p) s fun z => z = u.refuse c q Nak.access)) ∧
    (∀ hdr d : List Byte, s.Takes p (.chunk hdr) c k q u → k.svc = 3 → u.takeMsgBytes c k q = (some d, v) →
        (chunkLenOk (chunkHdr hdr) d || !(chunkHdr hdr).good d) = true →
      Settles (.chunk hdr p) s fun z => z = v.inboxAdd (.chunk k.slot (chunkHdr hdr) d)) ∧
    (∀ svc group : Nat, s.Takes p (.ctrl 3 0 svc group 0) c k q u → Settles (.keepalive svc group p) s fun z => z = u.takePsn c q) ∧
    (∀ svc group msn : Nat, s.Takes p (.ctrl 6 0 svc group msn) c k q u → (k.msg? msn).any (·.refused.isSome) = true →
      Settles (.refusalSeen svc group msn p) s fun z => z = (u.takePsn c q).endMsg c msn)

/-- The packets that answer and control complete so (R209, R211, R217, R218, R219, R268). -/
def Obligations.BxtAnswersArrive : Prop :=
  ∀ (s u v : State) (c : Nat) (k : Conn) (p q : Packet),
    (∀ (req : Nat) (r : OpenRead) (o : Op) (locs : List (Loc × Nat)), s.Takes p (.readResp req) c k q u → u.conn? c = some k →
        k.reads.find? (fun r => r.psn == req) = some r → u.op? r.op = some o → q.msgOff % k.mtu = 0 → q.msgOff + q.payload.length ≤ r.len →
        r.got.contains q.msgOff = false → u.lookupRange o.part o.vf o.tag (r.laddr + q.msgOff) q.payload.length .write = (.ok locs, v) →
      let x := (v.writeLocs o.vf o.tag (some r.op) locs q.payload).modOp r.op fun o =>
        { o with wrote := lastWrites locs o.wrote, bytes := o.bytes + q.payload.length }
      let got := q.msgOff :: r.got
      Settles (.readResp req p) s fun z =>
        (readWhole k.mtu r.len got = true → z = ((x.modConn c fun k => { k with reads := k.reads.filter fun x => x.msn != r.msn }).msgOk r.op r.msn 0).tryClose c) ∧
        (readWhole k.mtu r.len got = false → z = x.modConn c fun k => { k with reads := k.reads.map fun x => if x.psn == req then { x with got := got } else x })) ∧
    (∀ (res : Nat) (a : OpenAtomic), s.Takes p (.atomicResp res) c k q u → k.openAtomics.find? (fun a => a.psn == q.psn) = some a →
      Settles (.atomicResp res p) s fun z => z = (((u.setConn c { k with openAtomics := k.openAtomics.filter fun b => b.psn != q.psn }).modOp a.op
        fun o => { o with msgs := [], cqe := { o.cqe with performed := true, result := leBytes 8 res } }).finishMsgs a.op).tryClose c) ∧
    (∀ cum sp sm ce ts : Nat, s.Takes p (.ack cum sp sm ce ts) c k q u → Settles (.ack cum sp sm ce ts p) s fun z => z = u.onAck c k q cum sp sm ce ts) ∧
    (∀ code reason us psn epoch unk : Nat, s.Takes p (.nak code reason us psn epoch unk) c k q u →
      (code = 3 ∨ code = 5 ∨ code = 6 ∨ code = 8 → Settles (.nak code reason us psn epoch unk p) s fun z => z = (u.onTerminal c k q code psn).tryClose c) ∧
      (code = Nak.notReady → Settles (.nak code reason us psn epoch unk p) s fun z => z = (u.onNotReady c k psn reason).tryClose c) ∧
      (code = Nak.held → Settles (.nak code reason us psn epoch unk p) s fun z =>
        let v := u.setConn c (k.modSent psn fun x => if x.waiting = 3 then x else { x with waiting := 2, timer := false })
        z = (match k.sent? psn with | some x => v.causeOf x 4 | none => v).tryClose c) ∧
      (code = Nak.staleEpoch → serialOlder 16 k.epoch epoch = true →
        Settles (.nak code reason us psn epoch unk p) s fun z => z = (u.errorEnd c Status.staleEpoch code).tryClose c) ∧
      (code = Nak.staleEpoch → serialOlder 16 k.epoch epoch = false →
        Settles (.nak code reason us psn epoch unk p) s fun z => z = u.tryClose c)) ∧
    (∀ (mask validUs : Nat) (budget : List Nat), s.Takes p (.grant mask validUs budget) c k q u → k.state = .open_ → k.roce = false →
      Settles (.grant mask validUs budget p) s fun z => z = (List.range 6).foldl (fun (v : State) cls =>
        if mask.testBit cls then v.storeGrant c cls (budget.getD cls 0) validUs else v) (u.bump F.ADM_GRANT_RCVD)) ∧
    (∀ (cls validUs : Nat) (budget : List Nat), s.Takes p (.grant (2 ^ cls) validUs budget) c k q u → cls < 6 → k.state = .open_ → k.roce = false →
      Settles (.grant (2 ^ cls) validUs budget p) s fun z =>
        Tbl.get? z.adm.grants (c * 8 + cls) = some (budget.getD cls 0, validUs, u.now + validUs * us)
          ∧ z.rd F.ADM_GRANT_RCVD = (u.rd F.ADM_GRANT_RCVD + 1) % 2 ^ F.ADM_GRANT_RCVD.width) ∧
    (∀ svc group : Nat, ∀ k' : Conn, s.Takes p (.ctrl 4 0 svc group 0) c k q u → k.state = .open_ →
        (((u.takePsn c q).sendAck c).endOpsOfConn c Status.aborted 0 false).conn? c = some k' →
      Settles (.close svc group p) s fun z => z = ((((u.takePsn c q).sendAck c).endOpsOfConn c Status.aborted 0 false).sendCtl c k'
        (.ctrl 5 0 k'.svc (if 2 ≤ k'.svc then k'.group else 0) 0) 0 0).freeConn c none) ∧
    (∀ svc group : Nat, s.Takes p (.ctrl 5 0 svc group 0) c k q u → k.state = .closing → k.closeSent = true →
      Settles (.closeAck svc group p) s fun z => z = u.freeConn c (some Status.aborted)) ∧
    (∀ (src svc group : Nat), s.power = .run → s.admitsPkt { p with ext := .ctrl 1 src svc group 0 } = true → (s.conn? p.dstConn).any (·.roce) = false →
        s.openPkt { p with ext := .ctrl 1 src svc group 0 } = (some q, u) → q.wellFormed = true → q.dstConn = c → c ≠ 0 →
        (u.hear q.srcDev).conn? c = some k → (u.hear q.srcDev).needCtx c k q = (true, v) →
        k.epoch = q.epoch → k.svc = svc → k.peerConn = src → k.peerDev = q.srcDev → k.roce = false →
      (∀ k' : Conn, k.state = .armed → (v.openConn c).conn? c = some k' → Settles (.probe src svc group p) s fun z => z = (v.openConn c).probeAck c k') ∧
      (k.state = .open_ → Settles (.probe src svc group p) s fun z => z = v.probeAck c k)) ∧
    (∀ (src group i : Nat), s.power = .run → s.admitsPkt { p with ext := .ctrl 1 src 1 group 0 } = true → (s.conn? p.dstConn).any (·.roce) = false →
        s.openPkt { p with ext := .ctrl 1 src 1 group 0 } = (some q, u) → q.wellFormed = true → q.dstConn = 0 → q.enc = false →
        (u.hear q.srcDev).probed q src 1 0 = none → (firstBelow 8 fun k => (u.conn? (mgtConnBase + k)).isNone) = some i →
        u.mgtPrefixes.any (inPrefix q.srcIp) = true →
      Settles (.probe src 1 group p) s fun z =>
        (z.conn? (mgtConnBase + i)).map (fun k => (k.state, k.svc, k.peerConn, k.peerDev, k.epoch)) = some (.open_, 1, src, q.srcDev, q.epoch)) ∧
    (∀ (src svc group : Nat), s.power = .run → s.admitsPkt { p with ext := .ctrl 2 src svc group 0 } = true → (s.conn? p.dstConn).any (·.roce) = false →
        s.openPkt { p with ext := .ctrl 2 src svc group 0 } = (some q, u) → q.wellFormed = true → q.dstConn = c →
        (u.hear q.srcDev).conn? c = some k → (u.hear q.srcDev).needCtx c k q = (true, v) →
        k.epoch = q.epoch → k.state = .armed → k.svc = svc → k.group = group → k.peerDev = q.srcDev → 2 ≤ svc ∨ k.peerConn = src →
      Settles (.probeAck src svc group p) s fun z => z = (if 2 ≤ svc
        then ((v.modConn c fun k => { k with peerConn := src }).openConn c).cmnFlushUnsent k.slot svc k.peerDev
        else (v.modConn c fun k => { k with peerConn := src }).openConn c))

/-- A packet whose epoch is not the connection's is stopped before it can place or complete anything (R210). -/
def Obligations.PacketsOfAnotherEpochAreDropped : Prop :=
  ∀ (s u v : State) (p q : Packet) (k : Conn), s.openPkt p = (some q, u) → q.wellFormed = true → (u.hear q.srcDev).conn? q.dstConn = some k →
    (u.hear q.srcDev).needCtx q.dstConn k q = (true, v) → q.epoch ≠ k.epoch → q.ext.isStaleNak = false →
    v.inj = none →
    ∃ w, s.judge p = (.gone, w) ∧ w.mem = v.mem ∧ w.rings = v.rings ∧ w.ops = v.ops ∧ w.cmn = v.cmn ∧
      (w.conn? q.dstConn).map (fun k => (k.base, k.win, k.done, k.ended, k.outMsgs)) = some (k.base, k.win, k.done, k.ended, k.outMsgs)

/-- ROCE_PACKET completes so, on every packet (R222, R227, R464): of no RoCEv2 connection it is counted; without its context it waits; unsound it is
counted; each kind otherwise goes to what takes it, and a request out of order is answered once. A RETIRED device takes none. -/
def Obligations.RocePackets : Prop :=
  ∀ (s : State) (p : RocePacket), s.power = .run →
    (s.rd F.RST_STATUS_retired = 1 → Completes (.rocePacket p) s fun t => t = s) ∧
    (s.rd F.RST_STATUS_retired = 0 → (s.conn? p.qp).any (·.roce) = false → Settles (.rocePacket p) s fun z => z = s.bump F.BXT_INVALID) ∧
    (∀ u : State, s.rd F.RST_STATUS_retired = 0 → (s.conn? p.qp).any (·.roce) = true → s.needRoceCtx p = (false, u) →
      Settles (.rocePacket p) s fun z => z = u) ∧
    (∀ (u : State) (k : Conn), s.rd F.RST_STATUS_retired = 0 → (s.conn? p.qp).any (·.roce) = true → s.needRoceCtx p = (true, u) →
        u.conn? p.qp = some k → k.roce = true →
      let v := (if p.ce then (u.bump F.BXT_CE_RCVD).sendCnp p.qp k else u).hear k.peerDev
      let sound := p.icrcOk = true ∧ p.pkey = 0xFFFF ∧ k.state ≠ .error
      let clear := (v.hpt.reads.any fun r => waitsFor p.qp r.who) = false
      let inOrder := clear ∧ p.psn = k.base ∧ serialOlder 24 p.psn k.base = false
      (p.icrcOk = false ∨ p.pkey ≠ 0xFFFF ∨ p.op = .other ∨ k.state = .error → Settles (.rocePacket p) s fun z => z = u.bump F.BXT_INVALID) ∧
      (∀ syn msn : Nat, sound → p.op = .ack syn msn → Settles (.rocePacket p) s fun z => z = v.onRoceAck p.qp k p.psn syn) ∧
      (sound → p.op = .cnp → Settles (.rocePacket p) s fun z => z = v.onCnp p.qp k) ∧
      (∀ f l : Bool, sound → p.op = .readResp f l → Settles (.rocePacket p) s fun z => z = v.onRoceResp p.qp k p) ∧
      (∀ (f l : Bool) (ra rk n : Nat), sound → inOrder → p.op = .write f l ra rk n →
        Settles (.rocePacket p) s fun z => z = v.roceWrite p.qp k p f l ra rk n) ∧
      (∀ f l : Bool, sound → inOrder → p.op = .send f l → Settles (.rocePacket p) s fun z => z = v.roceSend p.qp k p f l) ∧
      (∀ ra rk n : Nat, sound → clear → p.op = .readReq ra rk n → p.psn = k.base ∨ serialOlder 24 p.psn k.base = true →
        Settles (.rocePacket p) s fun z => z = v.roceRead p.qp k p ra rk n) ∧
      (∀ f l : Bool, sound → ¬ clear → p.op = .send f l → Settles (.rocePacket p) s fun z =>
        z = v.modConn p.qp fun k => { k with roceRx := { k.roceRx with behind := k.roceRx.behind ++ [p] } }) ∧
      (∀ f l : Bool, sound → clear → p.op = .send f l → serialOlder 24 p.psn k.base = true →
        Settles (.rocePacket p) s fun z => z = v.sendRoceAck p.qp k ((k.base + 2 ^ 24 - 1) % 2 ^ 24) synAck) ∧
      (∀ f l : Bool, sound → clear → p.op = .send f l → serialOlder 24 p.psn k.base = false → p.psn ≠ k.base → k.seqNak = false →
        Settles (.rocePacket p) s fun z => z = (v.modConn p.qp fun k => { k with seqNak := true }).sendRoceAck p.qp k k.base synSeq))

/-- The timers of connections complete so (R211, R213, R214, R218 to R220, R222). -/
def Obligations.ConnectionTimers : Prop :=
  ∀ (s : State) (c : Nat) (k : Conn), s.power = .run → s.conn? c = some k →
    (∀ psn : Nat, (Settles (.retransmitTimeout c psn) s fun z => z = s.retransmitTimer c psn) ∧ (Settles (.armTimeout c) s fun z => z = s.armTimer c) ∧
      (Settles (.faultHoldExpiry psn) s fun z => z = s.remoteExpired psn) ∧ (Settles (.contextFetchDone c) s fun z => z = s.contextCame c) ∧
      (Completes (.contextFetchTimeout c) s fun t => t = (s.fetchTimeout c).requeue s.pending) ∧
      (Completes (.readTimeout c psn) s fun t => t = (s.readAgain c psn).requeue s.pending)) ∧
    (∀ psn : Nat, k.roce = false → Completes (.nakDelayExpiry c psn) s fun t => t = (s.nakDelayOver c psn).requeue s.pending) ∧
    (∀ (psn : Nat) (x : Sent), k.roce = false → k.sent? psn = some x → x.timer = true → x.waiting = 0 ∨ x.waiting = 3 → k.asksLater x = false →
      let k' := (timeoutWindow k s.now).modSent psn fun x => { x with tries := x.tries + 1 }
      let u := s.setConn c (timeoutWindow k s.now)
      let v := match x.op with
        | some id => if 1 ≤ x.tries then u.recordCause id 1 else u
        | none => u
      (x.tries < k.retryLimit → Settles (.retransmitTimeout c psn) s fun z =>
        z = (((v.setConn c k').bump F.BXT_RETX).evt 2).resend c k' x (x.waiting == 3)) ∧
      (k.retryLimit ≤ x.tries → u.heardSince k.peerDev x.since = true → Settles (.retransmitTimeout c psn) s fun z =>
        z = (u.errorConn c Status.retryExhausted).lostCmn [c]) ∧
      (k.retryLimit ≤ x.tries → u.heardSince k.peerDev x.since = false → Settles (.retransmitTimeout c psn) s fun z =>
        z = (u.peerLost k.peerDev).2.lostCmn (u.peerLost k.peerDev).1)) ∧
    (∀ psn : Nat, k.roce = true → Settles (.retransmitTimeout c psn) s fun z => z = (s.roceTimeout c k).2.lostCmn (s.roceTimeout c k).1) ∧
    (k.state = .armed → k.roce = false → Completes (.probeResend c) s fun t => t = (s.sendProbe c k).requeue s.pending) ∧
    (k.state = .armed → Settles (.armTimeout c) s fun z => z = ((s.bump F.BXT_PEER_LOST).errorConn c Status.peerLost).lostCmn [c]) ∧
    (k.state = .closing → k.closeSent = true → Completes (.closeTimeout c) s fun t => t.conn? c = none) ∧
    (k.state = .open_ → k.roce = false → k.keepaliveUs ≠ 0 → k.svc < 2 →
      Completes (.keepaliveTimer c) s fun t => t = (s.queuePkts c [s.mkPkt k (.ctrl 3 0 k.svc 0 0) 7 0 0 0 0 []] none).requeue s.pending) ∧
    (0 < k.unacked → Completes (.ackCoalesceTimer c) s fun t => t = ((s.setConn c { k with unacked := 0, ceCount := 0 }).sendCtl c k
      (.ack k.base k.base k.sackMap (min k.ceCount 65535) k.echoTs) 0 k.doneMsn).requeue s.pending) ∧
    (∀ (i : Nat) (h : Hold) (p : Packet), s.xlt.holds[i]? = some h → h.remote = true → h.who = .packet p →
      (h.retry = none → Settles (.faultHoldExpiry i) s fun z => z = ((s.dropHold i).bump F.BXT_HOLD_EXPIRED).refuse p.dstConn p Nak.fault) ∧
      (h.retry ≠ none → Settles (.faultHoldExpiry i) s fun z => z = s)) ∧
    (s.bxt.fetching = [] → s.bxt.roceFetching = [] → s.bxt.resident.contains c = false → (s.bxt.resident.filter fun r => ctxSet r == ctxSet c).length < s.ctxWays (ctxSet c) →
      Settles (.contextFetchDone c) s fun z => z.bxt.resident = c :: s.bxt.resident ∧ z.bxt.conns = s.bxt.conns ∧ z.mem = s.mem) ∧
    (∀ (u v : State) (p : Packet), s.bringIn c = (true, u) → u.bxt.fetching = [p] → p.dstConn = c → u.bxt.roceFetching = [] →
        v = { u with bxt := { u.bxt with fetching := [], roceFetching := [] } } → v.conn? c = some k → (∀ n a b g m : Nat, p.ext ≠ .ctrl n a b g m) →
      Settles (.contextFetchDone c) s fun z => z = (match v.judgeOn c k p with
        | (.gone, w) => w
        | (.take c' k' q, w) => w.takePkt c' k' q)) ∧
    Completes (.contextFetchTimeout c) s (fun t => t = ((s.bxt.fetching.filter fun p => p.dstConn == c).foldl
      (fun (v : State) p => (v.bump F.CTX_FETCH_NR).sendNak c k p Nak.notReady 1 10) { s with bxt := { s.bxt with
        fetching := s.bxt.fetching.filter fun p => p.dstConn != c, roceFetching := s.bxt.roceFetching.filter fun p => p.qp != c } }).requeue s.pending) ∧
    (∀ (psn : Nat) (x : RoceSent) (l : List RoceSent), k.roce = true → k.rnrWait = true → k.roceSent = x :: l →
      Completes (.nakDelayExpiry c psn) s fun t => t = ((s.setConn c { k with rnr := k.rnr + 1 }).goBack c x.pkt.psn false).requeue s.pending) ∧
    (∀ (psn : Nat) (x : Sent), k.roce = false → k.sent? psn = some x → x.waiting = 1 →
      Completes (.nakDelayExpiry c psn) s fun t =>
        let k' := k.modSent psn fun x => { x with nrTries := x.nrTries + 1, waiting := 0 }
        t = ((s.setConn c k').resend c k' x false).requeue s.pending) ∧
    (∀ (psn : Nat) (x : Sent), k.roce = false → k.sent? psn = some x → x.waiting = 2 →
      Completes (.nakDelayExpiry c psn) s fun t => t = (s.setConn c (k.modSent psn fun x => { x with waiting := 0, timer := true })).requeue s.pending) ∧
    (∀ (msn : Nat) (r : OpenRead), k.reads.find? (fun r => r.msn == msn) = some r →
      let first := (firstBelow (ceilDiv r.len k.mtu) fun i => !r.got.contains (i * k.mtu)).getD 0 * k.mtu
      Completes (.readTimeout c msn) s fun t => t =
        (((s.setConn c { k with
            nextForm := k.nextForm + 1, outMsgs := Tbl.set k.outMsgs k.nextForm (some r.op, 0)
            reads := k.reads.map fun x => if x.msn == msn then { x with msn := k.nextForm } else x }).modOp r.op fun o =>
          { o with msgs := o.msgs.map fun m => if m == msn then k.nextForm else m }).queuePkts c
        [{ s.mkPkt k (.readReq r.raddr r.rkey (r.len - first)) (((s.op? r.op).map (·.cls)).getD 7) 0 k.nextForm r.len first [] with retx := true }]
        (some r.op)).requeue s.pending)

/-- Doorbells and pushes complete so (R233, R234, R236, R259). -/
def Obligations.DoorbellsAndPushes : Prop :=
  (∀ (s : State) (link vf ring n : Nat), s.Window link vf → let key := vf * 4096 + ring % 4096
    (Completes (.sqDoorbell link vf ring n) s fun t => t = (s.ringTail key (n % 2 ^ 32) (dbOff ring 0)).requeue s.pending) ∧
    (Completes (.cqDoorbell link vf ring n) s fun t => t = (s.ringHead key (n % 2 ^ 32) (dbOff ring 4)).requeue s.pending) ∧
    (Completes (.arm link vf ring) s fun t => t = (s.ringArm key).requeue s.pending) ∧
    (s.ring? key = none → Completes (.sqDoorbell link vf ring n) s fun t => t = (s.bump F.WQE_DB_REFUSED).requeue s.pending) ∧
    (∀ r : Ring, s.ring? key = some r → r.state = .active → s.halted key = true → n < 2 ^ 32 → serialOlder 32 r.tail n = true → n ≠ r.tail →
        cdiff n r.oldest ≤ 2 ^ r.sqLog →
      Completes (.sqDoorbell link vf ring n) s fun t => t.ring? key = some { r with tail := n, parked := false } ∧ t.mem = s.mem ∧
        t.rd F.WQE_DB_REFUSED = (s.rd F.WQE_DB_REFUSED + 1) % 2 ^ F.WQE_DB_REFUSED.width)) ∧
  ∀ (s : State) (link vf ring n : Nat) (r : Ring), s.Window link vf → ring < 4096 → n < 2 ^ 32 → s.ring? (vf * 4096 + ring) = some r →
      s.halted (vf * 4096 + ring) = false →
    let key := vf * 4096 + ring
    (r.state = .active → serialOlder 32 r.tail n = true → n ≠ r.tail → cdiff n r.oldest ≤ 2 ^ r.sqLog →
      Completes (.sqDoorbell link vf ring n) s fun t => t.ring? key = some { r with tail := n, parked := false } ∧ t.mem = s.mem ∧ t.regs = s.regs) ∧
    (r.state = .active → serialOlder 32 r.head n = true → serialOlder 32 r.posted n = false →
      Completes (.cqDoorbell link vf ring n) s fun t => t.ring? key = some { r with head := n } ∧ t.mem = s.mem ∧ t.regs = s.regs) ∧
    (r.state = .active → serialOlder 32 r.head n = false → Completes (.cqDoorbell link vf ring n) s fun t => t = s) ∧
    (r.state ≠ .active →
      let counted := fun t : State => t = (s.bump F.WQE_DB_REFUSED).requeue s.pending
      Completes (.sqDoorbell link vf ring n) s counted ∧ Completes (.cqDoorbell link vf ring n) s counted ∧ Completes (.arm link vf ring) s counted) ∧
    (r.state = .active → r.posted = r.head → Completes (.arm link vf ring) s fun t => t.ring? key = some { r with armed := true } ∧ t.rd F.WQE_DB_arm key = 1) ∧
    (r.state = .active → r.posted ≠ r.head → Completes (.arm link vf ring) s fun t => t = (s.interrupt vf r.vector).requeue s.pending) ∧
    (∀ e : List Byte, ring < 1024 → r.state = .active → e.length = (if r.entry256 then 256 else 64) → phaseOf e = phaseAt r.tail r.sqLog →
      Completes (.push link vf ring e) s fun t => t.ring? key =
        some { r with pushed := Tbl.set r.pushed r.tail e, tail := (r.tail + 1) % 2 ^ 32, parked := false } ∧ t.mem = s.mem ∧ t.regs = s.regs) ∧
    (∀ q : Ring, s.manages false = true → s.ring? ctlKey = some q → q.state = .active → s.halted ctlKey = false →
      (serialOlder 32 q.tail n = true → n ≠ q.tail → cdiff n q.oldest ≤ 2 ^ q.sqLog →
        Completes (.ctlSqDoorbell n) s fun t => t.ring? ctlKey = some { q with tail := n, parked := false } ∧ t.ring? key = some r) ∧
      (serialOlder 32 q.head n = true → serialOlder 32 q.posted n = false →
        Completes (.ctlCqDoorbell n) s fun t => t.ring? ctlKey = some { q with head := n } ∧ t.ring? key = some r))

/-- The rows of rings complete so (R232, R253, R255, R258, R348). -/
def Obligations.RingsComeAndGo : Prop :=
  ∀ (s : State) (link vf : Nat), s.Window link vf →
    ((Completes (.ringCreate link vf) s fun t => t = (s.ringCreate vf).requeue s.pending) ∧ (Completes (.ringStop link vf) s fun t => t = (s.stopCmd vf).requeue s.pending) ∧ (Completes (.ringDestroy link vf) s fun t => t = (s.ringDestroy vf).requeue s.pending)) ∧
    (∀ q : Nat, (Completes (.entryFetch q) s fun t => t = (s.fetchRing q).requeue s.pending) ∧ (Completes (.ringStopDone q) s fun t => t = (s.ringStopped q).requeue s.pending)) ∧
    (∀ (n : Nat) (ok : Bool), Completes (.flushComplete n ok) s fun t => t = ((s.flushDone n ok).cmnRun).requeue s.pending) ∧
    let key := vf * 4096 + s.rd F.WQE_RING_SEL_ring vf
    (∀ (sp cp : List Loc) (u v : State), s.ring? key = none →
        6 ≤ s.rd F.WQE_RING_ARG2_sq_log2 vf → s.rd F.WQE_RING_ARG2_sq_log2 vf ≤ 16 → 6 ≤ s.rd F.WQE_RING_ARG2_cq_log2 vf →
        s.rd F.WQE_RING_ARG2_cq_log2 vf ≤ 16 → s.rd F.WQE_RING_ARG2_entry256 vf = 0 →
        s.rd F.WQE_RING_ARG0_sq_base vf % 4096 = 0 → s.rd F.WQE_RING_ARG1_cq_base vf % 4096 = 0 →
        s.pinRange vf (s.rd F.PTN_INST_partition vf) (s.rd F.WQE_RING_ARG2_tag vf) (s.rd F.WQE_RING_ARG0_sq_base vf)
          (2 ^ s.rd F.WQE_RING_ARG2_sq_log2 vf * 64) .read = (some sp, u) →
        u.pinRange vf (s.rd F.PTN_INST_partition vf) (s.rd F.WQE_RING_ARG2_tag vf) (s.rd F.WQE_RING_ARG1_cq_base vf)
          (2 ^ s.rd F.WQE_RING_ARG2_cq_log2 vf * 32) .write = (some cp, v) →
        v.ring? key = none → v.ringsOf vf < v.rd F.PTN_INST_rings vf →
      Completes (.ringCreate link vf) s fun t => t.rd F.WQE_RING_STATUS_done vf = 1 ∧ t.rd F.WQE_RING_STATUS_refused vf = 0 ∧
        (t.ring? key).map (fun r => (r.state, r.tail, r.fetched, r.posted, r.head, r.sqLog)) =
          some (.active, 0, 0, 0, 0, s.rd F.WQE_RING_ARG2_sq_log2 vf) ∧
        (t.ring? key).map (fun r => (r.sqPages, r.cqPages, r.tag)) = some (sp, cp, s.rd F.WQE_RING_ARG2_tag vf)) ∧
    (∀ r : Ring, s.ring? key = some r → r.state ≠ .stopped →
      Completes (.ringStop link vf) s fun t => t = (((s.ringStop key).ringResult vf 0).cmnRun).requeue s.pending) ∧
    (∀ r : Ring, s.ring? key = some r → r.state = .stopped → s.recvNamed key = false →
      Completes (.ringDestroy link vf) s fun t => t.ring? key = none ∧ t.rd F.WQE_RING_STATUS_done vf = 1 ∧ t.rd F.WQE_DB_arm key = 0 ∧ t.mem = s.mem) ∧
    (∀ (q : Nat) (r : Ring), s.ring? q = some r →
      (serialOlder 32 r.fetched r.tail = true → Completes (.entryFetch q) s fun t =>
        t = ((s.setRing q { r with spec := 8, skip := 0 }).fetchLoop q (cdiff r.tail r.fetched + 9)).requeue s.pending) ∧
      (serialOlder 32 r.fetched r.tail = false → 0 < r.spec → Completes (.entryFetch q) s fun t => t = (s.fetchLoop q 9).requeue s.pending) ∧
      (serialOlder 32 r.fetched r.tail = false → r.spec = 0 → Completes (.entryFetch q) s fun t => t = s) ∧
      (serialOlder 32 r.fetched r.tail = true → r.waiting = true → Completes (.fetchRecheckTimer q) s fun t =>
        t = ((s.setRing q { r with spec := 8, skip := 0 }).fetchLoop q (cdiff r.tail r.fetched + 9)).requeue s.pending) ∧
      (r.state = .stopping → r.open_ = [] → r.aborting = false →
        Completes (.ringStopDone q) s fun t => t.ring? q = some { r with state := .stopped } ∧ t.regs = s.regs ∧ t.mem = s.mem)) ∧
    (∀ (n : Nat) (f : Flush), s.hpt.flushes[n]? = some f → f.sent = true →
        ((s.hpt.flushes.take n ++ s.hpt.flushes.drop (n + 1)).any fun g => g.who == f.who) = false →
      Deals (.flushComplete n true) s fun v => v = (State.flushed { s with hpt := { s.hpt with
        flushes := s.hpt.flushes.take n ++ s.hpt.flushes.drop (n + 1)
        posted := s.hpt.posted.filter fun w => !(w.link == f.link && decide (w.seq < f.seq)) } } f.who true).issueWaiting f.link) ∧
    (∀ (n : Nat) (f : Flush), s.hpt.flushes[n]? = some f → f.sent = true →
      Deals (.flushComplete n false) s fun v => v = (State.flushed { s with hpt := { s.hpt with
        flushes := (s.hpt.flushes.take n ++ s.hpt.flushes.drop (n + 1)).filter fun g => g.who != f.who
        posted := s.hpt.posted.filter fun w => !(w.link == f.link && decide (w.seq < f.seq)) } } f.who false).issueWaiting f.link)

/-- The entries that move data complete so (R238, R239, R241, R251, R261). -/
def Obligations.WorkEntriesThatMoveData : Prop :=
  ∀ (s u : State) (key count : Nat) (e : Fetched),
    let h := descHdr e.desc
    let vf := ringVf key
    let part := u.rd F.PTN_INST_partition vf
    let n := fieldLE e.desc 36 4
    (s.Entry key count 1 e u → key = ctlKey ∨ u.tenantOk vf h false = true → Completes (.nop key count) s fun t => t = (u.endEntry e Status.ok 0).requeue s.pending) ∧
    (∀ (k : Conn) (a : Admitted) (v : State), s.Entry key count 2 e u → h.cls ≠ 0 ∨ n ≤ 192 → u.tenantOk vf h (!bitAt h.flags 2) = true →
        u.ownConn vf h.target = some k → k.state = .open_ ∨ k.state = .armed →
        u.frameFits k.peerDev k.largestFrame = true → u.gateIn vf part h.cls (u.connCharge h.target k h.cls n (some n) n
          (if bitAt h.flags 2 then [] else u.linkCharge vf part h.tag (fieldLE e.desc 16 8) n 1)) = (.ok a, v) →
      Completes (.write key count) s fun t => t = ((v.newOp e a .running n).2.startOp (v.newOp e a .running n).1 false).requeue s.pending) ∧
    (∀ (k : Conn) (a : Admitted) (v : State), s.Entry key count 3 e u → h.cls ≠ 0 ∨ n ≤ 192 → u.tenantOk vf h true = true →
        u.ownConn vf h.target = some k → k.state = .open_ ∨ k.state = .armed →
        u.frameFits k.peerDev k.largestFrame = true → u.gateIn vf part h.cls (u.connCharge h.target k h.cls 64 none n (u.linkCharge vf part h.tag (fieldLE e.desc 16 8) n 0)) = (.ok a, v) →
      Completes (.read key count) s fun t => t = ((v.newOp e a .running n).2.startOp (v.newOp e a .running n).1 false).requeue s.pending) ∧
    (∀ (k : Conn) (a : Admitted) (v : State), s.Entry key count 4 e u → n ≤ 2 ^ 30 → h.cls ≠ 0 ∨ n ≤ 192 →
        u.tenantOk vf h (!bitAt h.flags 2) = true → u.ownConn vf h.target = some k → k.state = .open_ ∨ k.state = .armed →
        u.frameFits k.peerDev k.largestFrame = true → u.gateIn vf part h.cls (u.connCharge h.target k h.cls n (some n) n
          (if bitAt h.flags 2 then [] else u.linkCharge vf part h.tag (fieldLE e.desc 16 8) n 1)) = (.ok a, v) →
      Completes (.send key count) s fun t => t = ((v.newOp e a .running n).2.startOp (v.newOp e a .running n).1 false).requeue s.pending) ∧
    (∀ (k : Conn) (a : Admitted) (v : State), s.Entry key count 5 e u → fieldLE e.desc 16 8 % 8 = 0 → fieldLE e.desc 28 1 ≤ 2 → s.conn? h.target = some k → k.roce = false →
        k.openAtomics.length < 16 → u.tenantOk vf h false = true → k.vf = vf → k.svc = 0 → k.state = .open_ ∨ k.state = .armed →
        u.frameFits k.peerDev k.largestFrame = true → u.gateIn vf part h.cls (u.connCharge h.target k h.cls 64 (some 64) 64 []) = (.ok a, v) →
      Completes (.atomic key count) s fun t => t = ((v.newOp e a .running 8).2.startOp (v.newOp e a .running 8).1 false).requeue s.pending) ∧
    (∀ (k : Conn) (st : Nat) (v : State), s.Entry key count 2 e u → h.cls ≠ 0 ∨ n ≤ 192 → u.tenantOk vf h (!bitAt h.flags 2) = true →
        u.ownConn vf h.target = some k → k.state = .open_ ∨ k.state = .armed →
        u.frameFits k.peerDev k.largestFrame = true → u.gateIn vf part h.cls (u.connCharge h.target k h.cls n (some n) n
          (if bitAt h.flags 2 then [] else u.linkCharge vf part h.tag (fieldLE e.desc 16 8) n 1)) = (.error st, v) →
      Completes (.write key count) s fun t => t = (v.endEntry e st 0).requeue s.pending) ∧
    (∀ (k : Conn) (r : Ring), s.Entry key count 6 e u → fieldLE e.desc 24 4 ≤ 2 ^ 30 → u.tenantOk vf h true = true → u.ownConn vf h.target = some k →
        u.ring? key = some r → k.recvKey = some key → k.state = .open_ ∨ k.state = .armed →
      let op := u.newOp e .free .running (fieldLE e.desc 24 4)
      let v := op.2.modRing key fun r' => { r' with recvs := Tbl.set r'.recvs r.nextSsn op.1, nextSsn := (r.nextSsn + 1) % 2 ^ 32 }
      Completes (.recv key count) s fun t =>
        t = (match k.msgs.find? fun (m : OpenMsg) => m.isSend && m.refused.isSome && m.ssn == r.nextSsn && m.recvOp.isNone with
          | some m => ((v.takeRecv k r.nextSsn).2).endRecv op.1 Status.lengthExceeded m.len m.imm r.nextSsn
          | none => v).requeue s.pending) ∧
    (∀ (a : Admitted) (v : State), s.Entry key count 7 e u → u.tenantOk vf h true = true → (copyBody e.desc).bad = false →
        h.cls ≠ 0 ∨ max (sumNat ((copyBody e.desc).ins.map Prod.snd)) (sumNat ((copyBody e.desc).outs.map Prod.snd)) ≤ 192 →
        u.gateIn vf part h.cls { Charge.none with links := mergeLinks (((copyBody e.desc).ins.map fun q => u.linkCharge vf part h.tag q.1 q.2 1).flatten ++
          ((copyBody e.desc).outs.map fun q => u.linkCharge vf part h.tag q.1 q.2 0).flatten) } = (.ok a, v) →
      Completes (.copy key count) s fun t => t =
        ((v.newOp e a .running (copyBody e.desc).count).2.startCopy (v.newOp e a .running (copyBody e.desc).count).1 false).requeue s.pending)

/-- The entries of the commons complete so (R242, R243, R244). -/
def Obligations.WorkEntriesOfTheCommons : Prop :=
  ∀ (s u : State) (key count slot : Nat) (e : Fetched) (g : Group),
    let h := descHdr e.desc
    let vf := ringVf key
    (∀ n : Nat, s.power = .run → s.fetched? key count n = some e → s.fenceClear e = true → s.groupHolds e = false → u = s.unfetch e →
        h.target < 65536 → u.groupById h.target = some (slot, g) → g.vf = vf → g.state = .active → u.tenantOk vf h (needsTag n e h) = true →
        u.fencedInst vf (u.rd F.PTN_INST_partition vf) = false → h.cls ≠ 0 → bodyZero n e.desc = true →
        u.opsOpen slot < 64 →
      let y := u.setGroup slot { g with seq := g.seq + 1 }
      let p := cpOf e.desc
      let trays := g.members.map (·.tray)
      let opens := fun (c : Coll) (z w : State) => (∃ id : Nat, z.cmn.colls = w.cmn.colls ++ [{ c with op := id }]
        ∧ (z.op? id).map (fun o => (o.count, o.phase, o.inFlight)) = some (e.count, .running, true)) ∧ z.mem = w.mem
      (n = 0x10 → Deals (.coll key count) s fun v => v = y.collStart e h slot g) ∧
      (n = 0x11 → Deals (.step key count) s fun v => v = y.stepEntry e h slot g) ∧
      (∀ (c : Coll) (a : Admitted) (v w : State),
        let x := y.copOf e h g (coll0 slot g.seq g.seq false (y.chooseAlgo p.co p.algo trays) ((y.chunkLogOf h).getD 16))
        n = 0x10 → p.badPlain g (y.chunkLogOf h) = false → y.flightFull = false → y.chunksFit x = true →
            y.reserveColl x (slotsAsked h) = some (c, v) → v.gateIn x.o.vf x.o.part x.o.cls (v.collCharge x) = (.ok a, w) →
        Deals (.coll key count) s fun z => z = w.openColl e x c a p.count 0 ∧ opens c z w) ∧
      (∀ (tabs : List (Nat × Nat × Nat)) (planB scalB : List Byte) (ts : List (List Byte)) (plan : List PlanRec) (ds : Tbl (List MillDesc))
          (sc : List Nat) (c : Coll) (a : Admitted) (v₁ v₂ v₃ w : State),
        let x := y.copOf e h g (coll0 slot (stepKey p.step) g.seq true (y.chooseAlgo 8 p.algo trays) ((y.chunkLogOf h).getD 16))
        let r := { x with c := { x.c with plan := plan, descs := ds, scalars := sc, committed := p.bStart,
                                          copies := (v₂.copiesHeld g).foldl (fun t k => Tbl.set t k (copy0 p.bStart)) [] } }
        n = 0x11 → p.badStep g (y.chunkLogOf h) = false → y.tablesOf x = some tabs →
            y.readOperands e.key false [(h.tag, fieldLE e.desc 16 8, 256 * p.bundles), (h.tag, fieldLE e.desc 24 8, 128)] = (.ok [planB, scalB], v₁) →
            v₁.readOperands e.key true (tabs.map fun q => (q.2.1, q.2.2, 64 * p.bundles)) = (.ok ts, v₂) →
            allSome ((List.range p.bundles).map fun b => planRec (slice planB (256 * b) 256)) = some plan → fieldLE e.desc 16 8 % 4096 = 0 →
            plan.any (p.badBundle g) = false → v₂.stepTables x plan ((tabs.map Prod.fst).zip ts) scalB = some (ds, sc) →
            g.stepOk p.step p.bStart = true → v₂.flightFull = false → v₂.chunksFit r = true → v₂.reserveColl r (slotsAsked h) = some (c, v₃) →
            v₃.gateIn r.o.vf r.o.part r.o.cls (v₃.collCharge r) = (.ok a, w) →
        Deals (.step key count) s fun z =>
          let f := w.openColl e r c a p.bundles (crc32c scalB)
          let part := f.rd F.PTN_INST_partition (ringVf e.key)
          z = (f.forgetRange part (ringVf e.key) h.tag (fieldLE e.desc 16 8) (256 * p.bundles)).forgetRange part (ringVf e.key) h.tag
            (fieldLE e.desc 24 8) 128 ∧ opens c z w)) ∧
    (s.Entry key count 0x12 e u → h.target < 65536 → u.groupById h.target = some (slot, g) → g.vf = vf → u.tenantOk vf h true = true →
        u.holdsCopy g (fieldLE e.desc 24 2) (bitAt (fieldLE e.desc 28 1) 0) = true → (u.cmn.colls.any fun c => c.slot == slot && c.isStep) = false →
      Completes (.millBind key count) s fun t => ∃ v : State, t = (v.endEntry e Status.ok 0).requeue s.pending ∧ v.mem = s.mem ∧
        (v.bind? slot (fieldLE e.desc 24 2 * 2 + b2n (bitAt (fieldLE e.desc 28 1) 0))).map (fun b => (b.tag, b.table, b.count)) =
          some (h.tag, fieldLE e.desc 16 8, fieldLE e.desc 26 2 + 1))

/-- The connection entries complete so (R211, R245). -/
def Obligations.ConnectionEntries : Prop :=
  ∀ (s u : State) (key count : Nat) (e : Fetched),
    let h := descHdr e.desc
    let c := h.target
    let b := connBody e.desc
    let vf := ringVf e.key
    let part := u.rd F.PTN_INST_partition vf
    u.tenantOk vf h false = true →
    (s.Entry key count 0x20 e u → b.inRange (u.rd F.BXT_CFG_roce_enable == 1) = true → u.bodyOwned vf c b = true → u.conn? c = none → c ≠ 0 →
        mgtConnId c = false → u.mayBack vf part = true → b.pin = false ∨ u.mayPin vf part c = true → u.inj = none →
      Completes (.connCreate key count) s fun t => ∃ v : State, t = (v.endEntry e Status.ok 0 (leBytes 2 b.epoch)).requeue s.pending ∧
        (v.conn? c).map (fun k => (k.state, k.svc, k.vf, k.epoch)) = some (if b.roce then .open_ else .armed, 0, vf, b.epoch) ∧ v.mem = s.mem) ∧
    (∀ k : Conn, s.Entry key count 0x21 e u → b.inRange (u.rd F.BXT_CFG_roce_enable == 1) = true → mgtConnId c = false → u.ownConn vf c = some k →
        u.bodyOwned vf c b = true → b.pin = false ∨ k.pin = true ∨ u.mayPin vf part c = true →
      let v := u.setConn c { u.applyBody k b with epoch := k.epoch }
      Completes (.connModify key count) s fun t => t = (((if b.epoch ≠ k.epoch then v.modifyEpoch c b.epoch else v).showCtx part).endEntry
        e Status.ok 0 (leBytes 2 b.epoch)).requeue s.pending) ∧
    (∀ k : Conn, s.Entry key count 0x22 e u → u.ownConn vf c = some k →
      (k.state = .open_ → Completes (.connClose key count) s fun t =>
        t = (((u.setConn c { k with state := .closing }).tryClose c).endEntry e Status.ok 0).requeue s.pending) ∧
      (k.state = .closing → Completes (.connClose key count) s fun t => t = (u.endEntry e Status.ok 0).requeue s.pending) ∧
      (k.state = .armed → Completes (.connClose key count) s fun t =>
        t = ((u.freeConn c (some Status.aborted)).endEntry e Status.ok 0).requeue s.pending) ∧
      (k.state = .error → Completes (.connClose key count) s fun t =>
        t = ((u.freeConn c (some k.errStatus)).endEntry e Status.ok 0).requeue s.pending))

/-- The entries of translation complete so (R337, R344, R345, R349). -/
def Obligations.TranslationEntries : Prop :=
  ∀ (s u : State) (key count : Nat) (e : Fetched),
    let h := descHdr e.desc
    let p := u.rd F.PTN_INST_partition (ringVf e.key)
    let vf := ringVf e.key
    h.cls ≠ 7 →
    (s.Entry key count 0x50 e u → fieldLE e.desc 24 1 < 4 → zeroBytes e.desc 25 38 = true → h.tag = 0 → fieldLE e.desc 16 8 % 4096 = 0 →
        fieldLE e.desc 16 8 + 4096 ≤ u.shareBytes p (b2n (bitAt (fieldLE e.desc 24 1) 0)) → u.freeTags ≠ [] →
        u.rd F.XLT_PTN_CFG_tags_held p < u.rd F.XLT_PTN_CFG_tag_limit p → vf < 1024 → p < 64 →
      Completes (.asCreate key count) s fun t => ∃ (v : State) (tag nonce : Nat), tag ∈ u.freeTags ∧
        t = (v.endEntry e Status.ok 0 (leBytes 2 tag ++ leBytes 2 0 ++ leBytes 4 nonce)).requeue s.pending ∧
        v.rd F.XLT_TAG_state tag = 1 ∧ v.rd F.XLT_TAG_vf tag = vf ∧ v.rd F.XLT_TAG_partition tag = p ∧
        Tbl.get? v.xlt.roots tag = some (fieldLE e.desc 16 8, bitAt (fieldLE e.desc 24 1) 0) ∧ Tbl.get? v.xlt.nonces tag = some nonce) ∧
    (s.Entry key count 0x51 e u → zeroBytes e.desc 16 47 = true → u.ownsTag vf h.tag = true → u.tagNamed h.tag = false →
      let op := u.newOp e .free .running 0
      Completes (.asDestroy key count) s fun t => t = ((op.2.wr F.XLT_TAG_state 2 h.tag).openInval h.tag op.1 true true).requeue s.pending) ∧
    (s.Entry key count 0x52 e u → fieldLE e.desc 16 1 < 2 → zeroBytes e.desc 17 46 = true → u.ownsTag vf h.tag = true →
        u.rd F.XLT_PTN_CFG_inval_open p < 64 →
      let op := u.newOp e .free .running 0
      Completes (.invalidate key count) s fun t => t = ((op.2.bump F.XLT_PTN_CFG_inval_open 1 p).openInval h.tag op.1
        (bitAt (fieldLE e.desc 16 1) 0) false).requeue s.pending) ∧
    (∀ i : Inval, s.power = .run → s.xlt.invals.find? (fun i => i.tag == h.tag && i.started) = some i → s.oldInUse h.tag = 0 → s.xlt.holds = [] →
      Completes (.invalidateDrainDone h.tag) s fun t => ∃ v, v = s.markRetry h.tag 0 0 i.op ∧ t = (v.2.completeInval h.tag).requeue s.pending) ∧
    (∀ i : Inval, s.power = .run → s.xlt.invals.find? (fun i => i.tag == h.tag && i.started) = some i → s.oldInUse h.tag = 0 →
        (s.xlt.holds.any fun h => h.retry == some i.op) = false →
      let v := s.markRetry h.tag 0 0 i.op
      Completes (.invalidateDrainDone h.tag) s fun t => t = (if v.1 = 0 then v.2.completeInval h.tag else v.2).requeue s.pending) ∧
    (s.Entry key count 0x53 e u → zeroBytes e.desc 32 31 = true → u.ownsTag vf h.tag = true →
      let op := u.newOp e .free .running 0
      let v := op.2.markRetry h.tag (fieldLE e.desc 16 8) (fieldLE e.desc 24 8) op.1
      let w := v.2.modOp op.1 fun o => { o with cqe := { o.cqe with result := leBytes 4 v.1 } }
      Completes (.resolve key count) s fun t => t = (if v.1 = 0 then (w.bump F.XLT_RESOLVE).endOp op.1 Status.ok 0 else w).requeue s.pending) ∧
    (s.Entry key count 0x53 e u → zeroBytes e.desc 32 31 = true → u.ownsTag vf h.tag = true → u.xlt.holds = [] →
      Completes (.resolve key count) s fun t => ∃ (v : State) (id : Nat), t = (v.endOp id Status.ok 0).requeue s.pending ∧
        v.rd F.XLT_RESOLVE = (u.rd F.XLT_RESOLVE + 1) % 2 ^ F.XLT_RESOLVE.width ∧ (v.op? id).map (fun o => o.cqe.result) = some (leBytes 4 0)) ∧
    (∀ (a b : List Loc) (v w : State), s.Entry key count 0x54 e u →
      let fq := fieldLE e.desc 16 8
      let eq := fieldLE e.desc 24 8
      let tag := fieldLE e.desc 32 2
      fq % 4096 = 0 → eq % 4096 = 0 → tag < 4096 → fieldLE e.desc 34 2 < 2048 → zeroBytes e.desc 36 27 = true → u.ownsTag vf h.tag = true →
        u.ownsTag vf tag = true → u.rd F.XLT_PTN_CFG_q_bound p = 0 ∨ u.rd F.XLT_PTN_CFG_q_vf p = vf → vf < 1024 → u.pinRange vf p tag fq (2 ^ 17) .write = (some a, v) →
        v.pinRange vf p tag eq (2 ^ 17) .write = (some b, w) →
      Completes (.fqBind key count) s fun t => ∃ x : State, t = (x.endEntry e Status.ok 0).requeue s.pending ∧
        Tbl.get? x.xlt.queues p = some ⟨vf, tag, fq, eq, fieldLE e.desc 34 2, 0, 0, 0, 0, a, b⟩ ∧
        x.rd F.XLT_PTN_CFG_q_vf p = vf ∧ x.rd F.XLT_PTN_CFG_q_bound p = 1 ∧ x.rd F.XLT_PTN_CFG_overflow p = 0) ∧
    (∀ (q : XQueues) (a b : Nat), s.Entry key count 0x55 e u → zeroBytes e.desc 24 39 = true → u.ownsTag vf h.tag = true →
        Tbl.get? u.xlt.queues p = some q → q.vf = vf → ackHead q.fqPosted q.fqHead (fieldLE e.desc 16 4) = some a →
        ackHead q.eqPosted q.eqHead (fieldLE e.desc 20 4) = some b →
      Completes (.queueAck key count) s fun t => ∃ v : State, t = (v.endEntry e Status.ok 0).requeue s.pending ∧
        Tbl.get? v.xlt.queues p = some { q with fqHead := a, eqHead := b } ∧ v.mem = s.mem)

/-- The timers of translation and the deadline complete so (R262, R330, R340, R342). -/
def Obligations.TranslationTimers : Prop :=
  ∀ s : State, s.power = .run →
    (∀ i : Nat, (Settles (.walkDone i) s fun z => z = s.walkDone i) ∧ (Settles (.translationHoldExpiry i) s fun z => z = s.localExpired i) ∧
      Completes (.deadlineExpiry i) s fun t => t = (s.missDeadline i).requeue s.pending) ∧
    (∀ (i op : Nat) (h : Hold), s.xlt.holds[i]? = some h → h.retry = some op →
      let u := (s.dropHold i).walkAgain h
      Settles (.walkDone i) s fun z => z = State.retriesDone { u with xlt := { u.xlt with
        holds := u.xlt.holds.map fun q => if q.who == h.who && q.retry.isNone then { q with since := min q.since h.since } else q } } op) ∧
    (∀ (i id : Nat) (h : Hold), s.xlt.holds[i]? = some h → h.remote = false → h.retry = none → h.who = .op id →
      Settles (.translationHoldExpiry i) s fun z => z = ((s.dropHold i).bump F.XLT_HOLD_EXPIRED).failOp id Status.translationFault) ∧
    (∀ (i op : Nat) (h : Hold), s.xlt.holds[i]? = some h → h.retry = some op → Settles (.translationHoldExpiry i) s fun z => z = s) ∧
    (∀ part : Nat, part < 64 → (s.xlt.batch.filter fun r => r.part == part) ≠ [] →
      let v := (s.xlt.batch.filter fun r => r.part == part).foldl State.writeRec
        { s with xlt := { s.xlt with batch := s.xlt.batch.filter fun r => r.part != part } }
      (∀ q : XQueues, Tbl.get? v.xlt.queues part = some q →
        Completes (.faultBatchTimer part) s fun t => t = (v.interrupt q.vf q.vector).requeue s.pending) ∧
      (Tbl.get? v.xlt.queues part = none → Completes (.faultBatchTimer part) s fun t => t = v.requeue s.pending)) ∧
    (∀ (i : Nat) (h : Hold) (p : Packet) (req : Nat) (k : Conn) (r : OpenRead), s.xlt.holds[i]? = some h → h.remote = false → h.retry = none →
        h.who = .packet p → p.ext = .readResp req → s.conn? p.dstConn = some k → k.reads.find? (fun r => r.psn == req) = some r →
      Settles (.translationHoldExpiry i) s fun z => z = ((s.dropHold i).bump F.XLT_HOLD_EXPIRED).msgFail p.dstConn r.msn
        Status.translationFault 0 false) ∧
    (∀ (id : Nat) (o : Op), s.op? id = some o → o.deadline.isSome = true → o.opcode ≠ 0x10 → o.opcode ≠ 0x11 →
      (o.phase ≠ .flushing → Completes (.deadlineExpiry id) s fun t =>
        t = (s.windDown id Status.deadlineMissed (s.missCause id o)).requeue s.pending) ∧
      (o.phase = .flushing → Completes (.deadlineExpiry id) s fun t => t.op? id =
        some { o with cqe := { o.cqe with status := Status.deadlineMissed, sub := 6 } } ∧ t.mem = s.mem ∧ t.regs = s.regs))

/-- The rows of grants and meters complete so (R267, R268, R279, R281). -/
def Obligations.GrantsAndMeters : Prop :=
  ∀ s : State, s.power = .run →
    (s.inj = none → Completes .grantPeriodTimer s fun t => t.adm.active = [] ∧ t.adm.zeroNext = [] ∧
      t.rd F.ADM_GRANT_SENT = (s.rd F.ADM_GRANT_SENT + s.grantConns.length) % 2 ^ F.ADM_GRANT_SENT.width) ∧
    (Completes .grantPeriodTimer s fun t => t = s.grantPeriod.requeue s.pending) ∧
    (∀ c cls : Nat, Completes (.grantExpiry c cls) s fun t => t = (s.grantExpired c cls).requeue s.pending) ∧
    (∀ c cls units valid at_ : Nat, cls < 6 → Tbl.get? s.adm.grants (c * 8 + cls) = some (units, valid, at_) → valid ≠ 0 →
      Completes (.grantExpiry c cls) s fun t => Tbl.get? t.adm.grants (c * 8 + cls) = some (0, 0, at_) ∧
        t.rd F.ADM_GRANT_MISSED = (s.rd F.ADM_GRANT_MISSED + 1) % 2 ^ F.ADM_GRANT_MISSED.width ∧ t.mem = s.mem) ∧
    (s.manages false = true → s.rd F.POL_METER_RATE_cir_mbps ≤ s.rd F.POL_METER_RATE_pir_mbps → Completes .meterApply s fun t =>
      let m := s.meter (s.rd F.POL_METER_SEL_meter)
      Tbl.get? t.meters (s.rd F.POL_METER_SEL_meter) = some { m with
          cir := s.rd F.POL_METER_RATE_cir_mbps, pir := s.rd F.POL_METER_RATE_pir_mbps, cbs := s.rd F.POL_METER_BURST_cbs,
          pbs := s.rd F.POL_METER_BURST_pbs, tc := s.rd F.POL_METER_BURST_cbs * meterUnit, tp := s.rd F.POL_METER_BURST_pbs * meterUnit,
          at_ := s.now } ∧ t.regs = s.regs ∧ t.mem = s.mem) ∧
    (s.manages false = true → s.rd F.POL_METER_RATE_pir_mbps < s.rd F.POL_METER_RATE_cir_mbps → Completes .meterApply s fun t => t.meters = s.meters ∧ t.mem = s.mem) ∧
    (s.manages false = true → Completes .meterRead s fun t =>
      let m := s.meter (s.rd F.POL_METER_SEL_meter)
      t.rd F.POL_METER_RATE_cir_mbps = m.cir % 2 ^ F.POL_METER_RATE_cir_mbps.width ∧ t.rd F.POL_METER_RATE_pir_mbps = m.pir % 2 ^ F.POL_METER_RATE_pir_mbps.width ∧
        t.rd F.POL_METER_BURST_cbs = m.cbs % 2 ^ F.POL_METER_BURST_cbs.width ∧ t.rd F.POL_METER_BURST_pbs = m.pbs % 2 ^ F.POL_METER_BURST_pbs.width ∧
        t.meters = s.meters ∧ t.mem = s.mem)

/-- The rows of frames complete so (R286, R287, R299, R302, R304, R464). -/
def Obligations.FramesArrive : Prop :=
  ∀ (s : State) (port : Nat) (f : Frame), s.power = .run → port < 64 →
    (∀ h : Shim, (s.portCarries f = false → Completes (.frameReceive port f) s fun t => t = s) ∧
      (s.portCarries { f with shim := some h } = false → Completes (.hopDataFrame port h f) s fun t => t = s)) ∧
    (s.portCarries f = true → ∀ (g : Option Frame) (u : State), s.rxFrame port f = (g, u) →
      Settles (.frameReceive port f) s fun z => z = g.elim u fun x => u.deliverFrame x) ∧
    (∀ (g : Option Frame) (u : State) (h : Shim), s.portCarries { f with shim := some h } = true → s.rxFrame port { f with shim := some h } = (g, u) →
      Settles (.hopDataFrame port h f) s fun z => z = g.elim u fun x => u.deliverFrame x) ∧
    (s.rd F.RST_STATUS_retired = 0 →
    (∀ (g : Frame) (u : State), s.rxFrame port f = (some g, u) → Settles (.frameReceive port f) s fun z => z = u.deliverFrame g) ∧
    (∀ (g : Frame) (u : State) (h : Shim), s.rxFrame port { f with shim := some h } = (some g, u) →
      Settles (.hopDataFrame port h f) s fun z => z = u.deliverFrame g) ∧
    (s.portUp port = true → s.inj = none → f.fecBad = 0 → f.len < 64 → Settles (.frameReceive port f) s fun z =>
      z.rd F.PRT_RUNT port = (s.rd F.PRT_RUNT port + 1) % 2 ^ F.PRT_RUNT.width ∧ z.egress = s.egress ∧ z.mem = s.mem ∧ z.bxt = s.bxt ∧ z.outbox = s.outbox) ∧
    (s.portUp port = true → s.inj = none → f.fecBad = 0 → 64 ≤ f.len → s.rd F.PRT_LP_max_frame port < f.len → Settles (.frameReceive port f) s fun z =>
      z.rd F.PRT_OVERSIZE port = (s.rd F.PRT_OVERSIZE port + 1) % 2 ^ F.PRT_OVERSIZE.width ∧ z.egress = s.egress ∧ z.mem = s.mem ∧ z.bxt = s.bxt
        ∧ z.outbox = s.outbox) ∧
    (∀ (h : Shim) (p : Packet), s.portUp port = true → s.inj = none → f.fecBad = 0 → f.fcsOk = true → 64 ≤ f.len → f.len ≤ s.rd F.PRT_LP_max_frame port →
        f.body = .bxt p → shimOk h = true → h.ackValid = false → s.rd F.PRT_LP_replay_on port = 1 →
      (h.kind = 5 → h.hsn = (s.lport port).rxHsn → (s.lport port).toAck < 63 → Settles (.hopDataFrame port h f) s fun z =>
        (z.lport port).rxHsn = ((s.lport port).rxHsn + 1) % 4096 ∧ (z.lport port).toAck = (s.lport port).toAck + 1 ∧ z.mem = s.mem ∧ z.outbox = s.outbox) ∧
      (h.kind = 5 ∨ h.kind = 0 → h.hsn ≠ (s.lport port).rxHsn → (s.lport port).nak = none → Settles (.hopDataFrame port h f) s fun z =>
        (z.lport port).rxHsn = (s.lport port).rxHsn ∧ (z.lport port).nak = some ((s.lport port).rxHsn, s.now) ∧
          z.rd F.HOP_NAK_SENT = (s.rd F.HOP_NAK_SENT + 1) % 2 ^ F.HOP_NAK_SENT.width ∧ z.mem = s.mem))) ∧
    (∀ (n : Nat) (q : Queued), s.egress[n]? = some q → q.transit = true → Completes (.transitAgeExpiry n) s fun t =>
      t.egress = s.egress.eraseIdx n ∧ t.rd F.HOP_DROP_AGE = (s.rd F.HOP_DROP_AGE + 1) % 2 ^ F.HOP_DROP_AGE.width ∧ t.mem = s.mem) ∧
    (∀ n : Nat, (s.egress[n]?.any fun q => q.transit) = false → Completes (.transitAgeExpiry n) s fun t => t = s)

/-- The rows of port states complete so (R284, R290, R291). -/
def Obligations.PortStates : Prop :=
  ∀ (s : State) (p : Nat), s.power = .run → s.lportExists p = true →
    (∀ ok : Bool, Completes (.trainingDone p ok) s fun t => t = (s.trained p ok).requeue s.pending) ∧
    (Completes (.downRetrainTimer p) s fun t => t = (s.downRetrain p).requeue s.pending) ∧
    (s.portUp p = false → Completes (.alignmentLoss p) s fun t => t = s) ∧
    (∀ (n lane : Nat) (pass : Bool), n < 8 → lane < 8 → s.lay.running.isSome = true →
      (Completes (.laneFault n lane) s fun t => t = (s.laneFault n lane).requeue s.pending) ∧ (Completes (.loopbackTestDone n lane pass) s fun t => t = (s.loopbackDone n lane pass).requeue s.pending)) ∧
    (s.manages false = true → s.rd F.PRT_LP_state p = lpDisabled → Completes (.portAdminWrite p 1) s fun t =>
      t.rd F.PRT_LP_admin p = 1 ∧ t.rd F.PRT_LP_state p = lpTraining ∧ t.egress = s.egress ∧ t.mem = s.mem) ∧
    (s.manages false = true → s.rd F.PRT_LP_state p ≠ lpDisabled → Completes (.portAdminWrite p 0) s fun t =>
      t.rd F.PRT_LP_admin p = 0 ∧ t.rd F.PRT_LP_state p = lpDisabled ∧ t.egress = (s.egress.filter fun q => q.port != p) ∧ t.rd F.PRT_LP_nbr_rymus p = 0) ∧
    (s.rd F.PRT_LP_state p = lpTraining → (s.lport p).waiting = false →
      (s.portServed p = false → Completes (.trainingDone p true) s fun t => t.rd F.PRT_LP_state p = lpTraining ∧
        (t.lport p).fails = (s.lport p).fails + 1 ∧ (t.lport p).waiting = true ∧ t.mem = s.mem) ∧
      (s.portServed p = true → s.rd F.PRT_LP_lldp p = 1 → s.replayRoom p 56 = true → Completes (.trainingDone p true) s fun t =>
        t.rd F.PRT_LP_state p = lpUp ∧ ∃ f : Frame, t.outbox = s.outbox ++ [.frame p f] ∧ f.body = .lldp ⟨s.rd F.PRT_LP_mac p, p, 4,
          some ⟨s.rd F.GLB_ID_part_number, s.rd F.GLB_ID_stepping_major * 16 + s.rd F.GLB_ID_stepping_minor, s.devAddr, p,
            s.rd F.PRT_LP_hop_replay p == 1⟩⟩) ∧
      (s.portServed p = true → s.rd F.PRT_LP_lldp p = 0 → Completes (.trainingDone p true) s fun t =>
        t.rd F.PRT_LP_state p = lpUp ∧ t.rd F.PRT_LP_permille p = 1000 ∧ (t.lport p).fails = 0 ∧ t.mem = s.mem ∧ t.outbox = s.outbox) ∧
      (Completes (.trainingDone p false) s fun t =>
        t.rd F.PRT_LP_state p = lpTraining ∧ (t.lport p).fails = (s.lport p).fails + 1 ∧ (t.lport p).waiting = true ∧ t.mem = s.mem)) ∧
    (Completes (.trainingRetryTimer p) s fun t => t.lport p = { s.lport p with waiting := false } ∧ t.regs = s.regs ∧ t.mem = s.mem) ∧
    (s.portUp p = true → Completes (.alignmentLoss p) s fun t => t.rd F.PRT_LP_state p = lpDown ∧ t.egress = (s.egress.filter fun q => q.port != p)
      ∧ t.rd F.HOP_DROP_DOWN = (s.rd F.HOP_DROP_DOWN + (s.egress.filter fun q => q.port == p).length) % 2 ^ F.HOP_DROP_DOWN.width) ∧
    (s.rd F.PRT_LP_state p = lpDown → (s.lport p).testing = none → Completes (.downRetrainTimer p) s fun t =>
      t.rd F.PRT_LP_state p = lpTraining ∧ t.egress = s.egress ∧ t.mem = s.mem) ∧
    (∀ n lane : Nat, n < 8 → lane < 8 → s.laneOwner n lane = p →
      (s.portUp p = true → Completes (.laneFault n lane) s fun t => t.rd F.PRT_LP_state p = lpDown ∧ (t.lport p).testing = some lane ∧
        ∀ o : Nat, o ≠ p → t.rd F.PRT_LP_state o = s.rd F.PRT_LP_state o) ∧
      ((s.lport p).testing = some lane → s.rd F.PRT_LP_state p = lpDown → Completes (.loopbackTestDone n lane true) s fun t =>
        t.rd F.PRT_LP_state p = lpTraining ∧ (t.lport p).testing = none ∧ t.rd F.PRT_PORT_STATE_retired n = s.rd F.PRT_PORT_STATE_retired n) ∧
      ((s.lport p).testing = some lane → s.rd F.PRT_LP_state p = lpDown → s.rd F.PRT_PORT_STATE_spare_lane n = 15 →
          (setBit (s.rd F.PRT_PORT_STATE_retired n) (s.serdesOf n lane)).testBit (s.serdesOf n 8) = false →
          s.built.defects.contains (0, 9 * n + s.serdesOf n 8) = false →
          setBit (s.rd F.PRT_PORT_STATE_retired n) (s.serdesOf n lane) < 2 ^ F.PRT_PORT_STATE_retired.width →
        Completes (.loopbackTestDone n lane false) s fun t => t.rd F.PRT_PORT_STATE_spare_lane n = lane ∧ t.rd F.PRT_LP_state p = lpTraining ∧
          t.rd F.PRT_PORT_STATE_retired n = setBit (s.rd F.PRT_PORT_STATE_retired n) (s.serdesOf n lane)))

/-- The rows of PFC and LLDP complete so (R293 to R295). -/
def Obligations.PauseAndNeighbours : Prop :=
  ∀ (s : State) (p tc : Nat), s.power = .run → s.portUp p = true → tc < 8 →
    (∀ quanta : List Nat, s.pfcClass tc = true → 0 < quanta.getD tc 0 → (s.lport p).deaf.contains tc = false →
      Completes (.pfcFrame p (2 ^ tc) quanta) s fun t => Tbl.get? (t.lport p).paused tc =
        some (s.now + ceilDiv (quanta.getD tc 0 * 64) (max 1 (s.portRate p)), ((Tbl.get? (s.lport p).paused tc).map (·.2)).getD s.now) ∧
        t.rd F.PRT_PFC_RX p = (s.rd F.PRT_PFC_RX p + 1) % 2 ^ F.PRT_PFC_RX.width ∧ t.mem = s.mem) ∧
    (∀ quanta : List Nat, s.pfcClass tc = true → quanta.getD tc 0 = 0 →
      Completes (.pfcFrame p (2 ^ tc) quanta) s fun t => Tbl.get? (t.lport p).paused tc = none ∧ (t.lport p).deaf.contains tc = false) ∧
    (∀ (enable : Nat) (quanta : List Nat), ((List.range 8).filter fun i => enable.testBit i).any s.pfcClass = true →
      Completes (.pfcFrame p enable quanta) s fun t => t = (((List.range 8).filter fun i => enable.testBit i).foldl
        (fun (v : State) c => v.pfcOne p c (quanta.getD c 0)) ((s.bump F.PRT_PFC_RX 1 p).evt 15)).requeue s.pending) ∧
    (∀ quanta : List Nat, s.pfcClass tc = false → Completes (.pfcFrame p (2 ^ tc) quanta) s fun t =>
      t.rd F.PRT_PFC_IGNORED p = (s.rd F.PRT_PFC_IGNORED p + 1) % 2 ^ F.PRT_PFC_IGNORED.width ∧ t.lports = s.lports ∧ t.mem = s.mem) ∧
    (Completes (.pfcQuantaExpiry p tc) s fun t => Tbl.get? (t.lport p).paused tc = none ∧ t.regs = s.regs ∧ t.mem = s.mem) ∧
    (∀ kib : Nat, s.pfcClass tc = true → s.rd F.PRT_PFC_xoff_kib (p / 8) < kib → (s.lport p).xoff.contains tc = false → s.replayRoom p 56 = true →
      Completes (.pfcRefreshTimer p tc kib) s fun t => (t.lport p).xoff = (s.lport p).xoff ++ [tc] ∧
        t.rd F.PRT_PFC_TX p = (s.rd F.PRT_PFC_TX p + 1) % 2 ^ F.PRT_PFC_TX.width ∧
        ∃ f : Frame, t.outbox = s.outbox ++ [.frame p f] ∧ f.body = .pfc (1 <<< tc) ((List.range 8).map fun i => if i = tc then 0xFFFF else 0)) ∧
    (∀ kib : Nat, s.pfcClass tc = true → s.rd F.PRT_PFC_xon_kib (p / 8) < kib → (s.lport p).xoff.contains tc = true →
      Completes (.pfcRefreshTimer p tc kib) s fun t => t = ((s.modLport p fun l => l).sendPfc p tc 0xFFFF).requeue s.pending) ∧
    (∀ kib : Nat, s.pfcClass tc = true → kib ≤ s.rd F.PRT_PFC_xon_kib (p / 8) → kib ≤ s.rd F.PRT_PFC_xoff_kib (p / 8) →
        (s.lport p).xoff.contains tc = true → s.replayRoom p 56 = true →
      Completes (.pfcRefreshTimer p tc kib) s fun t => (t.lport p).xoff = ((s.lport p).xoff.filter (· != tc)) ∧
        ∃ f : Frame, t.outbox = s.outbox ++ [.frame p f] ∧ f.body = .pfc (1 <<< tc) ((List.range 8).map fun _ => 0)) ∧
    (∀ q : Nat × Nat, Tbl.get? (s.lport p).paused tc = some q → Completes (.pfcWatchdog p tc) s fun t =>
      Tbl.get? (t.lport p).paused tc = none ∧ tc ∈ (t.lport p).deaf ∧ t.rd F.PRT_PFC_WD p = (s.rd F.PRT_PFC_WD p + 1) % 2 ^ F.PRT_PFC_WD.width) ∧
    (s.rd F.PRT_LP_lldp p = 1 → s.replayRoom p 56 = true → Completes (.lldpTimer p) s fun t => ∃ f : Frame,
      t.outbox = s.outbox ++ [.frame p f] ∧ f.body = .lldp ⟨s.rd F.PRT_LP_mac p, p, 4, some ⟨s.rd F.GLB_ID_part_number,
        s.rd F.GLB_ID_stepping_major * 16 + s.rd F.GLB_ID_stepping_minor, s.devAddr, p, s.rd F.PRT_LP_hop_replay p == 1⟩⟩ ∧
      f.shim.isSome = (s.rd F.PRT_LP_replay_on p == 1) ∧ t.mem = s.mem) ∧
    (s.rd F.PRT_LP_lldp p = 1 → s.replayRoom p 56 = false → Completes (.lldpTimer p) s fun t => t = s) ∧
    (∀ d : Lldp, d.ttl = 0 → Completes (.lldpdu p d) s fun t => (t.lport p).nbr = false ∧ t.rd F.PRT_LP_replay_on p = 0
      ∧ t.rd F.PRT_LP_nbr_rymus p = 0 ∧ t.rd F.PRT_LP_nbr_dev p = 0 ∧ t.mem = s.mem) ∧
    (∀ d : Lldp, d.ttl ≠ 0 → d.rymus = none → s.rd F.PRT_LP_replay_on p = 0 → Completes (.lldpdu p d) s fun t => (t.lport p).nbr = true
      ∧ (t.lport p).nbrReplay = false ∧ t.rd F.PRT_LP_nbr_rymus p = 0 ∧ t.rd F.PRT_LP_nbr_dev p = 0 ∧ t.mem = s.mem ∧ t.outbox = s.outbox) ∧
    (∀ (d : Lldp) (y : RymusTlv), d.ttl ≠ 0 → d.rymus = some y → y.replay = false → y.dev < 2 ^ 20 → y.lport < 64 → d.chassis < 2 ^ 48 →
        s.rd F.PRT_LP_nh_mac p = 0 →
      Completes (.lldpdu p d) s fun t => t.rd F.PRT_LP_nbr_rymus p = 1 ∧ t.rd F.PRT_LP_nbr_dev p = y.dev ∧ t.rd F.PRT_LP_nbr_lport p = y.lport ∧
        t.rd F.PRT_LP_nh_mac p = d.chassis ∧ t.rd F.PRT_LP_nh_learned p = 1 ∧ (t.lport p).nbr = true) ∧
    (Completes (.lldpTtlExpiry p) s fun t => (t.lport p).nbr = false ∧ t.rd F.PRT_LP_replay_on p = 0 ∧ t.rd F.PRT_LP_nbr_rymus p = 0
      ∧ t.rd F.PRT_LP_nbr_dev p = 0 ∧ t.mem = s.mem)

/-- The rows of routes and weather complete so (R300, R305, R306, R309). -/
def Obligations.RoutesAndWeather : Prop :=
  ∀ s : State, s.power = .run →
    ((∀ k : Nat, s.mgt.session.bind (·.conn) = some k → s.mgtOpen k = false) → Completes .weatherReportTimer s fun t => t = s) ∧
    let d := s.rd F.HOP_ROUTE_DST_dst
    (s.manages false = true → d ≠ s.devAddr → s.routeMaskOk (s.rd F.HOP_ROUTE_MASK_mask) = true → s.routes.length < 65536 → Completes .routeWrite s fun t =>
      Tbl.get? t.routes d = some (s.rd F.HOP_ROUTE_MASK_mask) ∧ t.rd F.HOP_ROUTE_STATUS_done = 1 ∧ t.rd F.HOP_ROUTE_STATUS_reason = 0 ∧
        t.mem = s.mem ∧ ∀ e : Nat, e ≠ d → Tbl.get? t.routes e = Tbl.get? s.routes e) ∧
    (s.manages false = true → d = s.devAddr → Completes .routeWrite s fun t => t.routes = s.routes ∧ t.rd F.HOP_ROUTE_STATUS_refused = 1 ∧ t.rd F.HOP_ROUTE_STATUS_reason = 2) ∧
    (∀ m : Nat, s.manages false = true → Tbl.get? s.routes d = some m → Completes .routeDelete s fun t => Tbl.get? t.routes d = none ∧ t.rd F.HOP_ROUTE_STATUS_done = 1 ∧
      t.mem = s.mem ∧ ∀ e : Nat, e ≠ d → Tbl.get? t.routes e = Tbl.get? s.routes e) ∧
    (∀ m : Nat, s.manages false = true → Tbl.get? s.routes d = some m → m < 2 ^ 64 → Completes .routeRead s fun t => t.rd F.HOP_ROUTE_MASK_mask = m ∧
      t.rd F.HOP_ROUTE_STATUS_done = 1 ∧ t.routes = s.routes ∧ t.mem = s.mem) ∧
    (∀ (z : Session) (k : Nat), s.mgt.session = some z → z.conn = some k → s.mgtOpen k = true → Completes .weatherReportTimer s fun t =>
      t = (s.wxReport.2.mgtSend k 0x57580001 s.wxReport.1).requeue s.pending) ∧
    (∀ (k : Nat) (body : List Byte), k < 8 → s.mgtOpen k = true → s.connHolds k = true → 16 ≤ body.length → fieldLE body 4 4 ≤ 16384 →
        body.length = 16 + 36 * fieldLE body 4 4 →
      Completes (.weatherUpdate k body) s fun t => t = (s.touchSession.wxEntries body (fieldLE body 4 4)).requeue s.pending) ∧
    (∀ (k : Nat) (body : List Byte), k < 8 → s.mgtOpen k = true → s.connHolds k = true → body.length ≠ 16 + 36 * fieldLE body 4 4 →
      Completes (.weatherUpdate k body) s fun t => t.wx = s.wx ∧ t.mem = s.mem ∧
        t.rd F.WX_IGNORED = (s.rd F.WX_IGNORED + 1) % 2 ^ F.WX_IGNORED.width) ∧
    (∀ (z : Session) (k : Nat) (body : List Byte), k < 8 → s.mgt.session = some z → z.conn = some k → s.mgtOpen k = true → body.length = 16 →
        fieldLE body 4 4 = 0 → Completes (.weatherUpdate k body) s fun t => t.mgt.session = some { z with last := s.now } ∧ t.wx = s.wx ∧ t.regs = s.regs) ∧
    (s.manages false = true → Completes .weatherWindowGo s fun t => t = (s.touchSession.wxEntries ((List.range (16 + 36 * s.rd F.HOP_WX_CMD_entries)).map fun i => Tbl.getD s.wxs.window i 0)
      (s.rd F.HOP_WX_CMD_entries)).requeue s.pending) ∧
    (∀ dst levels at_ : Nat, Tbl.get? s.wx dst = some (levels, at_) → Completes (.weatherLevelExpiry dst) s fun t => Tbl.get? t.wx dst = none ∧
      t.rd F.WX_EXPIRED = (s.rd F.WX_EXPIRED + ((List.range 64).filter fun j => bitsOf levels (4 * j) 4 != 0).length) % 2 ^ F.WX_EXPIRED.width ∧ t.mem = s.mem)

/-- The rows of hop replay complete so (R302, R304). -/
def Obligations.HopReplay : Prop :=
  ∀ (s : State) (p : Nat), s.power = .run → s.lportExists p = true →
    (Completes (.hopStart p) s fun t => t = (s.hopStart p).requeue s.pending) ∧
    (Completes (.hopStartAck p) s fun t => t = (s.hopStartAck p).requeue s.pending) ∧
    (s.rd F.PRT_LP_replay_on p = 1 → Completes (.hopAckTimeout p) s fun t => t = (s.hopTimeout p).requeue s.pending) ∧
    (s.rd F.PRT_LP_replay_on p ≠ 1 → Completes (.hopAckTimeout p) s fun t => t = s) ∧
    (s.replayOk p = true → Completes (.hopStart p) s fun t => t.rd F.PRT_LP_replay_on p = 1 ∧ (t.lport p).txHsn = 0 ∧ (t.lport p).rxHsn = 0 ∧
      (t.lport p).unacked = [] ∧ ∃ f : Frame, t.outbox = s.outbox ++ [.frame p f] ∧ f.shim.map (·.kind) = some 4) ∧
    (s.replayOk p = true → s.rd F.PRT_LP_replay_on p = 0 → Completes (.hopStartAck p) s fun t => t.rd F.PRT_LP_replay_on p = 1 ∧
      (t.lport p).txHsn = 0 ∧ (t.lport p).rxHsn = 0 ∧ (t.lport p).unacked = [] ∧ t.outbox = s.outbox) ∧
    (s.rd F.PRT_LP_replay_on p = 1 →
      (∀ ack : Nat, Completes (.hopAck p ack) s fun t => (t.lport p).unacked = ((s.lport p).unacked.filter fun x => !hsnUpTo x.hsn ack) ∧
        t.regs = s.regs ∧ t.mem = s.mem) ∧
      (∀ hsn : Nat, let u := s.hopAck p ((hsn + 4095) % 4096)
        let left := (u.lport p).unacked.filter fun x => !(hsnUpTo x.hsn hsn && x.hsn != hsn)
        left ≠ [] → (left.any fun x => decide (8 ≤ x.replays)) = false → Completes (.hopNak p hsn) s fun t => (t.lport p).again = left.map (·.hsn) ∧
          (t.lport p).unacked = (u.lport p).unacked ∧ t.rd F.HOP_REPLAY = (s.rd F.HOP_REPLAY + left.length) % 2 ^ F.HOP_REPLAY.width) ∧
      (∀ (x : HopSent) (l : List HopSent), (s.lport p).unacked = x :: l → x.hsn < 4096 →
          (∀ y ∈ l, (hsnUpTo y.hsn x.hsn && y.hsn != x.hsn) = false) → (∀ y ∈ x :: l, y.replays < 8) →
        Completes (.hopAckTimeout p) s fun t => (t.lport p).again = (x :: l).map (·.hsn) ∧ (t.lport p).unacked = x :: l ∧
          t.rd F.HOP_REPLAY = (s.rd F.HOP_REPLAY + (x :: l).length) % 2 ^ F.HOP_REPLAY.width) ∧
      (∀ (x : HopSent) (l : List HopSent), (s.lport p).unacked = x :: l → 8 ≤ x.replays → x.hsn < 4096 → s.portUp p = true →
        Completes (.hopAckTimeout p) s fun t => t.rd F.PRT_LP_state p = lpDown ∧
          t.rd F.HOP_LINK_FAIL = (s.rd F.HOP_LINK_FAIL + 1) % 2 ^ F.HOP_LINK_FAIL.width) ∧
      (∀ hsn : Nat, Completes (.hopNak p hsn) s fun t => t = ((s.hopAck p ((hsn + 4095) % 4096)).hopReplay p hsn).requeue s.pending) ∧
      (0 < (s.lport p).toAck → Completes (.hopAckTimer p) s fun t => (t.lport p).toAck = 0 ∧ ∃ (f : Frame) (h : Shim),
        t.outbox = s.outbox ++ [.frame p f] ∧ f.shim = some h ∧ h.kind = 1 ∧ h.ackValid = true ∧ h.ackHsn = ((s.lport p).rxHsn + 4095) % 4096))

/-- The rows of host links complete so (R310, R311, R318, R322). -/
def Obligations.HostLinks : Prop :=
  ∀ (s : State) (x gen width : Nat), s.power = .run →
    (s.linkFits x gen width = true →
      (s.linkUp x = false → Completes (.hostLinkUp x gen width) s fun t => t.rd F.HPT_LINK_state x = 2 ∧ t.rd F.HPT_LINK_gen x = gen % 2 ^ F.HPT_LINK_gen.width ∧
        t.rd F.HPT_LINK_width x = width ∧ t.rd F.HPT_LINK_rate_mbs x = linkRate gen width % 2 ^ F.HPT_LINK_rate_mbs.width ∧ t.mem = s.mem) ∧
      (s.linkUp x = true → Completes (.hostLinkChange x gen ⟨width, []⟩) s fun t => t.rd F.HPT_LINK_state x = 2 ∧ t.rd F.HPT_LINK_width x = width ∧
        t.rd F.HPT_LINK_rate_mbs x = linkRate gen width % 2 ^ F.HPT_LINK_rate_mbs.width ∧
        t.rd F.HPT_RETRAIN x = (s.rd F.HPT_RETRAIN x + 1) % 2 ^ F.HPT_RETRAIN.width ∧ t.mem = s.mem) ∧
      (∀ failed : List Nat, s.linkUp x = true →
        let u := (failed.filter (· < 17)).foldl (fun (v : State) k => v.hostLaneFails (x / 4) k) s
        let served := [16, 8, 4].find? fun w => decide (w ≤ width) && u.lanesFor x w
        (served = none → Settles (.hostLinkChange x gen ⟨width, failed⟩) s fun z =>
          z = if x = 0 then (u.linkLoss x).pf0Lost else u.linkLoss x) ∧
        (∀ w : Nat, served = some w → Completes (.hostLinkChange x gen ⟨width, failed⟩) s fun t => t.rd F.HPT_LINK_width x = w ∧
          t.rd F.HPT_LINK_rate_mbs x = linkRate gen w % 2 ^ F.HPT_LINK_rate_mbs.width ∧
          t.rd F.HPT_RETRAIN x = (u.rd F.HPT_RETRAIN x + 1) % 2 ^ F.HPT_RETRAIN.width ∧ t.mem = u.mem))) ∧
    (x < 16 → s.linkExists x = true → Settles (.hostLinkLoss x) s fun z => z = if x = 0 then (s.linkLoss x).pf0Lost else s.linkLoss x) ∧
    (x < 16 → s.linkExists x = true → s.isRoot x = false →
      Settles (.pfFlr x) s fun z => z = if x = 0 then (s.pfFlr x).pf0Lost else s.pfFlr x) ∧
    (∀ vf : Nat, x < 16 → s.linkExists x = true → vf < 1024 → Settles (.vfFlr x vf) s fun z => z = s.vfFlr x vf) ∧
    (x < 16 → s.linkExists x = true → s.isRoot x = false → s.linkUp x = true → x ≠ 0 → s.attachedTo x = [] → s.hpt.reads = [] → s.hpt.posted = [] →
        s.hpt.flushes = [] →
      Settles (.hostLinkLoss x) s fun z => z.rd F.HPT_LINK_state x = 3 ∧ z.rd F.HPT_LINK_gen x = 0 ∧ z.rd F.HPT_LINK_width x = 0 ∧
        z.rd F.HPT_FENCE x = (s.rd F.HPT_FENCE x + 1) % 2 ^ F.HPT_FENCE.width ∧ z.mem = s.mem) ∧
    (x < 16 → s.linkExists x = true → s.isRoot x = false → x ≠ 0 →
      Settles (.pfFlr x) s fun z => let u := (s.attachedTo x).foldl State.detachAlone (s.bump F.HPT_FLR 1 x)
        z = ((u.insts.map Prod.fst).filter fun v => u.configuredBy x v).foldl State.clearMsix u) ∧
    (∀ vf : Nat, x < 16 → s.linkExists x = true → vf < 1024 →
      (s.onLink x vf = true → let u := (s.bump F.HPT_FLR 1 x).detachAlone vf
        Settles (.vfFlr x vf) s fun z => z = if u.configuredBy x vf then u.clearMsix vf else u) ∧
      (s.onLink x vf = false → s.configuredBy x vf = true → Settles (.vfFlr x vf) s fun z => z = (s.bump F.HPT_FLR 1 x).clearMsix vf) ∧
      (s.onLink x vf = false → s.configuredBy x vf = false → Settles (.vfFlr x vf) s fun z => z = s.bump F.HPT_FLR 1 x)) ∧
    (∀ (vf v : Nat) (e : MsixEntry), s.Window x vf → Tbl.get? (s.inst vf).msix v = some e → (s.inst vf).pba.contains v = true → (s.inst vf).msixOn = true →
      Completes (.msixUnmask x vf v) s fun t => t.outbox = s.outbox ++ [.msix (s.rd F.HPT_INST_STATE_link vf) e.addr e.data] ∧
        (t.inst vf).pba.contains v = false ∧ Tbl.get? (t.inst vf).msix v = some { e with masked := false } ∧ t.mem = s.mem ∧ t.regs = s.regs)

/-- The rows of host requests complete so (R312, R317, R319). -/
def Obligations.HostRequests : Prop :=
  ∀ s : State, s.power = .run → s.inj = none →
    (∀ (n : Nat) (r : HostRead) (data : List Byte), s.hpt.reads[n]? = some r → r.sent = true →
      let got := ((s.dropRead n).issueWaiting r.link).bump F.DMV_HOST_RD_BYTES r.len
      let seen : State := { got with hpt := { got.hpt with view := viewPut got.hpt.view (hostKey r.link r.addr) (padTo r.len (data.take r.len)) } }
      (Settles (.hostReadCompletion n true data) s fun z =>
        (seen.readsOf r.who = false → z = seen.dataCame r.who r.stale) ∧ (seen.readsOf r.who = true → z = seen)) ∧
      (Settles (.hostReadCompletion n false data) s fun z => z = s.readFailed n r) ∧
      (Settles (.cplTimeout n) s fun z => z = (s.bump F.HPT_CPL_TIMEOUT 1 r.link).readFailed n r)) ∧
    (∀ (n : Nat) (r : HostRead), s.hpt.reads[n]? = some r → r.sent = false → ∀ (ok : Bool) (data : List Byte),
      (Settles (.hostReadCompletion n ok data) s fun z => z = s) ∧ (Settles (.cplTimeout n) s fun z => z = s)) ∧
    (∀ (k : Nat) (f : Flush), s.hpt.flushes[k]? = some f → f.sent = true →
      Settles (.cplTimeout (s.hpt.reads.length + k)) s fun z => z = (s.bump F.HPT_CPL_TIMEOUT 1 f.link).flushDone k false) ∧
    (∀ (link vf off va len : Nat) (data : List Byte) (locs : List (Loc × Nat)) (u v : State), link < 16 → vf < 1024 → s.linkUp link = true →
        s.aperture link vf off = some va →
      (s.lookupRange ((s.partOf vf).getD 64) vf (s.rd F.HPT_APERTURE_ap_tag vf) va len .read = (.ok locs, u) →
          u.badFor ((s.partOf vf).getD 64) none locs = (false, v) → hostLocs locs = [] →
        Completes (.apertureRead link vf off len) s fun t => t.outbox = v.outbox ++ [.tlpCpl link 0 (v.readLocs locs)] ∧ t.mem = v.mem) ∧
      (s.lookupRange ((s.partOf vf).getD 64) vf (s.rd F.HPT_APERTURE_ap_tag vf) va len .read = (.ok locs, u) →
          u.badFor ((s.partOf vf).getD 64) none locs = (false, v) → hostLocs locs ≠ [] →
        Completes (.apertureRead link vf off len) s fun t =>
          t = (v.issueReads (.aperture link vf (s.rd F.HPT_APERTURE_ap_tag vf) va len) vf (s.rd F.HPT_APERTURE_ap_tag vf) (hostLocs locs)).requeue s.pending) ∧
      (s.lookupRange ((s.partOf vf).getD 64) vf (s.rd F.HPT_APERTURE_ap_tag vf) va len .read = (.ok locs, u) →
          u.badFor ((s.partOf vf).getD 64) none locs = (true, v) →
        Completes (.apertureRead link vf off len) s fun t => t.outbox = v.outbox ++ [.tlpCpl link 2 []] ∧ t.mem = v.mem) ∧
      (s.lookupRange ((s.partOf vf).getD 64) vf (s.rd F.HPT_APERTURE_ap_tag vf) va data.length .write = (.ok locs, u) →
        Completes (.apertureWrite link vf off data) s fun t => t = (u.writeLocs vf (s.rd F.HPT_APERTURE_ap_tag vf) none locs data).requeue s.pending)) ∧
    (∀ (link vf off va : Nat) (data : List Byte) (x : Stop) (u : State), link < 16 → vf < 1024 → s.linkUp link = true →
        s.aperture link vf off = some va →
      (∀ len : Nat, s.lookupRange ((s.partOf vf).getD 64) vf (s.rd F.HPT_APERTURE_ap_tag vf) va len .read = (.error x, u) →
        Completes (.apertureRead link vf off len) s fun t =>
          t = (u.inboundFail link ((s.partOf vf).getD 64) vf (s.rd F.HPT_APERTURE_ap_tag vf) .read x).requeue s.pending) ∧
      (s.lookupRange ((s.partOf vf).getD 64) vf (s.rd F.HPT_APERTURE_ap_tag vf) va data.length .write = (.error x, u) →
        Completes (.apertureWrite link vf off data) s fun t =>
          t = (u.inboundFail link ((s.partOf vf).getD 64) vf (s.rd F.HPT_APERTURE_ap_tag vf) .write x).requeue s.pending)) ∧
    (∀ (link vf off len : Nat) (data : List Byte), link < 16 → vf < 1024 → s.linkUp link = false →
      (Completes (.apertureRead link vf off len) s fun t => t = s) ∧ (Completes (.apertureWrite link vf off data) s fun t => t = s)) ∧
    (∀ (link vf off len : Nat) (data : List Byte), link < 16 → vf < 1024 → s.linkUp link = true → s.aperture link vf off = none →
      (Completes (.apertureRead link vf off len) s fun t => t.outbox = s.outbox ++ [.tlpCpl link 1 (List.replicate len 0xFF)] ∧ t.mem = s.mem ∧
        t.rd F.HPT_UR link = (s.rd F.HPT_UR link + 1) % 2 ^ F.HPT_UR.width) ∧
      (Completes (.apertureWrite link vf off data) s fun t => t.mem = s.mem ∧ t.rd F.HPT_UR link = (s.rd F.HPT_UR link + 1) % 2 ^ F.HPT_UR.width)) ∧
    (∀ (link rid addr len vf tag : Nat), link < 16 → s.isRoot link = true → s.linkUp link = true → s.ridEntry link rid = some (vf, tag) →
        s.fencedInst vf ((s.partOf vf).getD 64) = false →
      (∀ d : List Byte, Completes (.downstreamRequest link rid addr len (.write d)) s fun t =>
        t = (s.inboundWrite link ((s.partOf vf).getD 64) vf tag addr d).requeue s.pending) ∧
      (Completes (.downstreamRequest link rid addr len .read) s fun t =>
        t = (s.inboundRead link ((s.partOf vf).getD 64) vf tag addr len).requeue s.pending) ∧
      (Completes (.downstreamRequest link rid addr len .atomic) s fun t => t = (s.unsupported link (some 0)).requeue s.pending)) ∧
    (∀ (link rid addr len : Nat), link < 16 → s.isRoot link = true → s.linkUp link = true → s.ridEntry link rid = none →
      (∀ req : BelowRequest, req = .read ∨ req = .atomic → Completes (.downstreamRequest link rid addr len req) s fun t =>
        t.outbox = s.outbox ++ [.tlpCpl link 1 []] ∧ t.mem = s.mem) ∧
      (∀ d : List Byte, Completes (.downstreamRequest link rid addr len (.write d)) s fun t => t.outbox = s.outbox ∧ t.mem = s.mem))

/-- The rows of attachment complete so (R320 to R322, R391). -/
def Obligations.Attachment : Prop :=
  ∀ (s : State) (x vf : Nat), s.power = .run → x < 16 → vf < 1024 → s.linkUp x = true → s.barAnswers x vf = true → s.rd F.PTN_INST_state vf ≠ instAbsent →
    (Completes (.attach x vf) s fun t => t = (s.attach x vf).requeue s.pending) ∧
    (Completes (.detach x vf) s fun t => t = (s.detachCmd x vf).requeue s.pending) ∧
    (Completes (.resume x vf) s fun t => t = (s.leavePaused x vf true).requeue s.pending) ∧
    (Completes (.discard x vf) s fun t => t = (s.leavePaused x vf false).requeue s.pending) ∧
    ((s.inst vf).locked = false → s.portAllowed x vf = true → s.rd F.HPT_ATTACH_TOKEN_token vf = (s.inst vf).token.toNat →
        s.rd F.HPT_INST_STATE_state vf ≠ attAttached → s.rd F.HPT_INST_STATE_state vf ≠ attPaused →
      Completes (.attach x vf) s fun t => t.rd F.HPT_INST_STATE_state vf = (if s.rd F.HPT_INST_STATE_state vf = attNew then attAttached else attPaused) ∧
        t.rd F.HPT_INST_STATE_link vf = x ∧ t.rd F.HPT_TOKEN_token vf = (t.inst vf).token.toNat ∧ (t.inst vf).token ≠ 0 ∧
        t.rd F.HPT_ATTACH_STATUS_done vf = 1 ∧ t.rd F.HPT_ATTACH_STATUS_reason vf = 0 ∧ t.mem = s.mem) ∧
    ((s.inst vf).locked = false → s.portAllowed x vf = true → s.rd F.HPT_ATTACH_TOKEN_token vf ≠ (s.inst vf).token.toNat →
      Completes (.attach x vf) s fun t => t.rd F.HPT_INST_STATE_state vf = s.rd F.HPT_INST_STATE_state vf ∧ (t.inst vf).token = (s.inst vf).token ∧
        t.rd F.HPT_ATTACH_STATUS_refused vf = 1 ∧ t.rd F.HPT_ATTACH_STATUS_reason vf = 1 ∧
        t.rd F.HPT_ATTACH_REFUSED x = (s.rd F.HPT_ATTACH_REFUSED x + 1) % 2 ^ F.HPT_ATTACH_REFUSED.width ∧ t.mem = s.mem) ∧
    (s.rd F.HPT_INST_STATE_state vf = attAttached ∨ s.rd F.HPT_INST_STATE_state vf = attPaused → s.rd F.HPT_INST_STATE_link vf = x →
      Completes (.detach x vf) s fun t => t = ((s.detachAlone vf).attachResult vf 0).requeue s.pending ∧ t.rd F.HPT_ATTACH_STATUS_done vf = 1) ∧
    (s.rd F.HPT_INST_STATE_state vf = attPaused → s.rd F.HPT_INST_STATE_link vf = x →
      (Completes (.resume x vf) s fun t => ∃ u : State, t = ((u.postHeld vf).attachResult vf 0).requeue s.pending ∧ u.rd F.HPT_INST_STATE_state vf = attAttached ∧
        (u.inst vf).held = (s.inst vf).held ∧ u.mem = s.mem) ∧
      (Completes (.discard x vf) s fun t => t.rd F.HPT_INST_STATE_state vf = attAttached ∧ (t.inst vf).held = [] ∧ t.rd F.HPT_INST_STATE_held_count vf = 0 ∧
        t.rd F.HPT_INST_STATE_held_lost vf = 0 ∧ t.rd F.HPT_ATTACH_STATUS_done vf = 1 ∧ t.mem = s.mem ∧ t.outbox = s.outbox)) ∧
    (∀ i : Inst, Tbl.get? s.insts vf = some i →
      Completes (.attachLockExpiry vf) s fun t => t.inst vf = { i with locked := false, refusals := [] } ∧ t.regs = s.regs ∧ t.mem = s.mem) ∧
    (s.onLink x vf = true → Completes (.hptTokenRead x vf) s fun t =>
      t.outbox = s.outbox ++ [.tlpCpl x 0 (leBytes 8 (s.rd F.HPT_TOKEN_token vf))] ∧ t.rd F.HPT_TOKEN_token vf = 0 ∧ t.mem = s.mem) ∧
    (∀ i : Inst, s.manages false = true → s.rd F.PTN_TOKEN_SEL_vf = vf → Tbl.get? s.insts vf = some i →
      Completes .ptnTokenRead s fun t => t.outbox = s.outbox ++ [.tlpCpl 0 0 (leBytes 8 i.ptnToken.toNat)] ∧ (t.inst vf).ptnToken = 0 ∧ t.regs = s.regs)

/-- The rows of the memory tiers complete so (R357, R361, R362, R367, R368, R371, R372, R495). -/
def Obligations.MemoryTiers : Prop :=
  ∀ s : State, s.power = .run →
    (∀ tier g : Nat, tier < 2 → g < 4096 → Completes (.granuleZeroed tier g) s fun t => t = (s.granuleZeroed tier g).requeue s.pending) ∧
    (∀ b : Nat, b < 256 → Completes (.bankRetireCopy b) s fun t => t = (s.bankRetired b).requeue s.pending) ∧
    (Completes .larderSpareSwitch s fun t => t = (s.spareSwitch).requeue s.pending) ∧
    (∀ (c : Nat) (left : Bool), c < 128 → Completes (.hbmLaneRepair c left) s fun t => t = (s.laneRepair c left).requeue s.pending) ∧
    (∀ c : Nat, c < 128 → bitAt (s.rd F.HBM_STACK_in_service (c / 32)) (c % 32) = true →
      (Completes (.hbmRecalTimer c []) s fun t => t.rd F.HBM_RECAL = (s.rd F.HBM_RECAL + 1) % 2 ^ F.HBM_RECAL.width ∧ t.mem = s.mem ∧ t.ops = s.ops) ∧
      (∀ delayed : List Nat, Completes (.hbmRecalTimer c delayed) s fun t =>
        t = (delayed.foldl (fun v i => v.recordCause i 7) (s.bump F.HBM_RECAL)).requeue s.pending) ∧
      (s.tier.fenced.contains c = false →
        (Completes (.hbmLaneRepair c true) s fun t => Tbl.getD t.tier.lanes c 0 = Tbl.getD s.tier.lanes c 0 + 1 ∧
          t.rd F.HBM_LANE_REPAIR = (s.rd F.HBM_LANE_REPAIR + 1) % 2 ^ F.HBM_LANE_REPAIR.width ∧
          t.rd F.TEL_SPARE_retired 3 = min 255 (s.rd F.TEL_SPARE_retired 3 + 1) ∧ t.mem = s.mem) ∧
        (Completes (.hbmLaneRepair c false) s fun t => t.tier.fenced = s.tier.fenced ++ [c] ∧
          t.rd F.TEL_SPARE_retired 3 = min 255 (s.rd F.TEL_SPARE_retired 3 + 1) ∧ t.mem = s.mem))) ∧
    (∀ c : Nat, c < 8 → s.rd F.DDR_CH_state c = 1 →
      (Completes (.ddrRecalTimer c []) s fun t =>
        t.rd F.DDR_RECAL = (s.rd F.DDR_RECAL + 1) % 2 ^ F.DDR_RECAL.width ∧ t.mem = s.mem ∧ t.ops = s.ops) ∧
      (∀ delayed : List Nat, Completes (.ddrRecalTimer c delayed) s fun t =>
        t = (delayed.foldl (fun v i => v.recordCause i 7) (s.bump F.DDR_RECAL)).requeue s.pending)) ∧
    (∀ (k : Nat) (fixed clean bad : List Nat), k < 2 → s.inj = none → (s.tier.poison.filter fun w => tierOf w == k && decide (w < ctlBase)) = [] →
        (s.tier.flaws.filter fun q => tierOf q.1 == k) = [] →
      Completes (.scrubPass k fixed clean bad) s fun t => t = (bad.foldl (fun s a => s.poisonAt k a) (clean.foldl (fun s _ => s.transientAt k)
        (fixed.foldl (fun s a => s.corrected k a) s))).requeue s.pending) ∧
    (∀ (k : Nat) (fixed clean bad : List Nat), k < 3 → Completes (.scrubPass k fixed clean bad) s fun t =>
      t = (s.scrubPass k fixed clean bad).requeue s.pending) ∧
    (s.inj = none → s.tier.poison = [] → s.tier.flaws = [] → Completes (.scrubPass 2 [] [] []) s fun t => ∃ u : State, t = u.failPoisoned.requeue s.pending ∧
      u.rd F.LRD_SCRUB_PASS = (s.rd F.LRD_SCRUB_PASS + 1) % 2 ^ F.LRD_SCRUB_PASS.width ∧ u.tier = s.tier ∧ u.mem = s.mem) ∧
    (∀ b : Nat, b < 256 →
      (s.manages false = true → s.rd F.LRD_BANK_state b < 2 → Completes (.lrdRetire b) s fun t => t = (s.touchSession.failBank b).requeue s.pending) ∧
      (s.tier.retiring.contains b = true → s.poolReserved ≤ s.rd F.TAL_POOL_pool_max →
        Completes (.bankRetireCopy b) s fun t => t.tier.retiring.contains b = false ∧ t.rd F.LRD_BANK_state b = 3 ∧ t.mem = s.mem) ∧
      (∀ k : Nat, s.manages false = true → k < 8 → s.rd F.LRD_SPARE_MAP_go = 0 → s.rd F.LRD_BANK_state b ≠ 0 → s.rd F.LRD_BANK_state b ≠ 4 →
          bitAt (s.rd F.LRD_SPARE_STATE_free) k = true →
        Completes (.lrdSpareMap b k) s fun t => t.tier.mapping = some (b, k) ∧ t.rd F.LRD_SPARE_MAP_go = 1 ∧ t.rd F.LRD_SPARE_MAP_bank = b ∧
          t.rd F.LRD_SPARE_MAP_spare = k ∧ t.mem = s.mem) ∧
      (∀ k : Nat, k < 8 → s.tier.mapping = some (b, k) → bitAt (s.rd F.LRD_SPARE_STATE_free) k = true →
        Completes .larderSpareSwitch s fun t => t.tier.mapping = none ∧ t.rd F.LRD_SPARE_MAP_go = 0 ∧ t.rd F.LRD_BANK_state b = 4 ∧
          t.rd F.LRD_BANK_phys b = (256 + k) % 2 ^ F.LRD_BANK_phys.width ∧ t.mem = s.mem)) ∧
    (∀ (tier g part : Nat), tier < 2 → g < 4096 → s.tier.zeroing.find? (fun z => z.1 == tier * 4096 + g) = some (tier * 4096 + g, part) →
      Completes (.granuleZeroed tier g) s fun t => (t.tier.zeroing.any fun z => z.1 == tier * 4096 + g) = false ∧
        ∀ a : Nat, (if tier = 0 then hbmBase else ddrBase) + g * 2 ^ 30 ≤ a → a < (if tier = 0 then hbmBase else ddrBase) + (g + 1) * 2 ^ 30 →
          Memory.get t.mem a = 0) ∧
    (∀ (block kind unit : Nat) (use : BlockUse), unit < unitsOf kind →
      (∀ f : List Byte, Tbl.get? s.tier.kept block = some f →
        Completes (.blockResend block kind unit use true) s fun t => Tbl.get? t.tier.kept block = none ∧
          t.outbox = s.outbox ++ [.flit (block / (131072 * 32768)) f]) ∧
      (2 ≤ Tbl.getD s.tier.resends block 0 → Completes (.blockResend block kind unit use false) s fun t =>
        let v := (s.bump F.LRD_BLK_RESEND).evt 13
        let w := State.dropKept { v with tier := { v.tier with resends := Tbl.erase v.tier.resends block } } block false
        t = ((((w.blkExhausted use.source block false).blockLost kind unit use.reader).usedUp kind unit).cmnRun).requeue
          s.pending) ∧
      (Completes (.blockResend block kind unit use true) s fun t => Tbl.get? t.tier.resends block = none ∧
        t.rd F.LRD_BLK_RESEND = (s.rd F.LRD_BLK_RESEND + 1) % 2 ^ F.LRD_BLK_RESEND.width ∧ t.ops = s.ops ∧ t.mem = s.mem) ∧
      (Tbl.getD s.tier.resends block 0 < 2 → Completes (.blockResend block kind unit use false) s fun t =>
        Tbl.get? t.tier.resends block = some (Tbl.getD s.tier.resends block 0 + 1) ∧
        t.rd F.LRD_BLK_RESEND = (s.rd F.LRD_BLK_RESEND + 1) % 2 ^ F.LRD_BLK_RESEND.width ∧ t.ops = s.ops ∧ t.mem = s.mem))

/-- The instance entries complete so (R378 to R380, R383 to R385, R387). -/
def Obligations.InstanceEntries : Prop :=
  ∀ (s u : State) (key count p : Nat) (e : Fetched),
    let vf := (descHdr e.desc).target
    let h := descHdr e.desc
    let op := u.newOp e .free .running 0
    (∀ st : Nat,
      (s.Entry key count 0x60 e u → u.instCheck h (allowBody e.desc) true (hostBody e.desc) = .error st →
        Completes (.instCreate key count) s fun t => t = (u.endEntry e st 0).requeue s.pending) ∧
      (s.Entry key count 0x61 e u → u.instCheck h (allowBody e.desc) false (hostBody e.desc) = .error st →
        Completes (.instModify key count) s fun t => t = (u.endEntry e st 0).requeue s.pending) ∧
      (s.Entry key count 0x62 e u → u.instCheck h (drainBody e.desc) false (anyHost e.desc) = .error st →
        Completes (.instQuiesce key count) s fun t => t = (u.endEntry e st 0).requeue s.pending) ∧
      (s.Entry key count 0x63 e u → u.instCheck h (noBody e.desc) false (anyHost e.desc) = .error st →
        Completes (.instResume key count) s fun t => t = (u.endEntry e st 0).requeue s.pending) ∧
      (s.Entry key count 0x64 e u → u.instCheck h (noBody e.desc) false (anyHost e.desc) = .error st →
        Completes (.instReset key count) s fun t => t = (u.endEntry e st 0).requeue s.pending) ∧
      (s.Entry key count 0x65 e u → u.instCheck h (noBody e.desc) false (anyHost e.desc) = .error st →
        Completes (.instRemove key count) s fun t => t = (u.endEntry e st 0).requeue s.pending) ∧
      (s.Entry key count 0x66 e u → u.instCheck h (noBody e.desc) false (anyHost e.desc) = .error st →
        Completes (.instToken key count) s fun t => t = (u.endEntry e st 0).requeue s.pending)) ∧
    (s.Entry key count 0x60 e u → u.instCheck h (allowBody e.desc) true (hostBody e.desc) = .ok p → u.sumsOk p vf (allowOf e.desc) = true → p < 64 →
      Completes (.instCreate key count) s fun t => ∃ (v : State) (tok : Word), t = (v.endEntry e Status.ok 0 (leBytes 8 tok.toNat)).requeue s.pending ∧
        v.rd F.PTN_INST_state vf = instLive ∧ v.rd F.PTN_INST_partition vf = p ∧ (v.inst vf).token = tok ∧ tok ≠ 0 ∧
        v.rd F.PTN_CREATED = (u.rd F.PTN_CREATED + 1) % 2 ^ F.PTN_CREATED.width ∧ v.mem = s.mem) ∧
    (s.Entry key count 0x61 e u → u.instCheck h (allowBody e.desc) false (hostBody e.desc) = .ok p →
        u.sumsOk p vf (u.merged vf (allowOf e.desc)) = true → u.holdsWithin vf (u.merged vf (allowOf e.desc)) = true →
      Completes (.instModify key count) s fun t => t = ((((u.setAllow vf (u.merged vf (allowOf e.desc))).setBucket vf
        (min (u.bucketNow vf p) ((u.setAllow vf (u.merged vf (allowOf e.desc))).bucketBurst vf p : Int)) (u.bucketFrac vf p)).showPart p).endEntry e Status.ok 0).requeue s.pending) ∧
    (s.Entry key count 0x62 e u → u.instCheck h (drainBody e.desc) false (anyHost e.desc) = .ok p →
      (u.rd F.PTN_INST_state vf = instLive → Completes (.instQuiesce key count) s fun t =>
        t = (op.2.fenceInst vf ⟨u.now, u.drainNs p e.desc, 0, 0, some op.1⟩).requeue s.pending) ∧
      (u.rd F.PTN_INST_state vf = instQuiesced → Completes (.instQuiesce key count) s fun t =>
        t = ((u.endEntry e Status.ok 0 (leBytes 8 0)).bump F.PTN_QUIESCE).requeue s.pending)) ∧
    (s.Entry key count 0x63 e u → u.instCheck h (noBody e.desc) false (anyHost e.desc) = .ok p → u.rd F.PTN_INST_state vf = instQuiesced →
        u.rd F.PTN_PART_halted p = 0 →
      Completes (.instResume key count) s fun t => ∃ v : State, t = (v.endEntry e Status.ok 0).requeue s.pending ∧ v.rd F.PTN_INST_state vf = instLive ∧
        v.mem = s.mem ∧ v.ops = s.ops) ∧
    (s.Entry key count 0x64 e u → u.instCheck h (noBody e.desc) false (anyHost e.desc) = .ok p → u.rd F.PTN_INST_state vf = instQuiesced →
        u.lay.slicePart ≠ some p →
      Completes (.instReset key count) s fun t => t = ((((op.2.setInst vf { op.2.inst vf with resetting := some (op.1, false) }).beginReset vf).bump
        F.RST_CTX_RESETS).logEv .RST .reset 0 vf).requeue s.pending) ∧
    (s.Entry key count 0x65 e u → u.instCheck h (noBody e.desc) false (anyHost e.desc) = .ok p → u.rd F.PTN_INST_state vf = instQuiesced →
        u.lay.slicePart ≠ some p →
      Completes (.instRemove key count) s fun t => t = ((((op.2.setInst vf { op.2.inst vf with resetting := some (op.1, true) }).beginReset vf).bump
        F.RST_CTX_RESETS).logEv .RST .reset 0 vf).requeue s.pending) ∧
    (s.Entry key count 0x64 e u → u.instCheck h (noBody e.desc) false (anyHost e.desc) = .ok p →
      (u.rd F.PTN_INST_state vf ≠ instQuiesced → Completes (.instReset key count) s fun t =>
        t = ((u.endEntry e Status.quiesceRequired 0).bump F.PTN_RESET_REFUSED).requeue s.pending) ∧
      (u.rd F.PTN_INST_state vf = instQuiesced → op.2.lay.slicePart = some p → Completes (.instReset key count) s fun t => ∃ v : State,
        v = op.2.setInst vf { op.2.inst vf with resetting := some (op.1, false) } ∧
        t = State.requeue { v with lay := { v.lay with heldResets := v.lay.heldResets ++ [op.1] } } s.pending)) ∧
    (s.Entry key count 0x65 e u → u.instCheck h (noBody e.desc) false (anyHost e.desc) = .ok p →
      (u.rd F.PTN_INST_state vf ≠ instQuiesced → Completes (.instRemove key count) s fun t =>
        t = ((u.endEntry e Status.quiesceRequired 0).bump F.PTN_RESET_REFUSED).requeue s.pending) ∧
      (u.rd F.PTN_INST_state vf = instQuiesced → op.2.lay.slicePart = some p → Completes (.instRemove key count) s fun t => ∃ v : State,
        v = op.2.setInst vf { op.2.inst vf with resetting := some (op.1, true) } ∧
        t = State.requeue { v with lay := { v.lay with heldResets := v.lay.heldResets ++ [op.1] } } s.pending)) ∧
    (s.Entry key count 0x66 e u → u.instCheck h (noBody e.desc) false (anyHost e.desc) = .ok p →
      Completes (.instToken key count) s fun t => ∃ (v : State) (tok : Word), t = (v.endEntry e Status.ok 0 (leBytes 8 tok.toNat)).requeue s.pending ∧
        (v.inst vf).token = tok ∧ tok ≠ 0 ∧ v.regs = u.regs ∧ v.mem = s.mem) ∧
    (∀ v : Nat, s.power = .run → v < 1024 → s.rd F.PTN_INST_state v = instFencing →
      (s.admittedOf v = [] → Completes (.drainEnd v) s fun t => t = (s.quiesced v 0 (s.inst v).drains).requeue s.pending) ∧
      (s.admittedOf v ≠ [] → Completes (.drainTimeout v) s fun t => ∃ w : State, t = (w.quiesced v (s.admittedOf v).length (s.inst v).drains).requeue s.pending ∧
        w = ((((s.setInst v { s.inst v with drains := [] }).instConns v).foldl State.resetConn ((s.setInst v { s.inst v with drains := [] }).ctxReset
          (s.admittedOf v))).bump F.PTN_CTX_RESET_OPS (s.admittedOf v).length).bump F.PTN_DRAIN_TIMEOUT))

/-- The partition entries and the ends of resets complete so (R383, R384, R386). -/
def Obligations.PartitionEntries : Prop :=
  ∀ (s u : State) (key count : Nat) (e : Fetched),
    let h := descHdr e.desc
    let p := h.target
    let op := u.newOp e .free .running 0
    (s.Entry key count 0x67 e u → u.partCheck h (drainBody e.desc) = none → Completes (.ptnQuiesce key count) s fun t => t = (u.ptnQuiesce e p).requeue s.pending) ∧
    (s.Entry key count 0x68 e u → u.partCheck h (noBody e.desc) = none → Completes (.ptnResume key count) s fun t => t = (u.ptnResume e p).requeue s.pending) ∧
    (∀ st : Nat,
      (s.Entry key count 0x67 e u → u.partCheck h (drainBody e.desc) = some st → Completes (.ptnQuiesce key count) s fun t => t = (u.endEntry e st 0).requeue s.pending) ∧
      (s.Entry key count 0x68 e u → u.partCheck h (noBody e.desc) = some st → Completes (.ptnResume key count) s fun t => t = (u.endEntry e st 0).requeue s.pending) ∧
      (s.Entry key count 0x69 e u → u.lay.slicePart ≠ some p → u.partCheck h (noBody e.desc) = some st → Completes (.ptnReset key count) s fun t => t = (u.endEntry e st 0).requeue s.pending)) ∧
    (∀ n : Nat, s.power = .run → n < 1024 → Completes (.instResetDone n) s fun t => t = (s.instResetDone n).requeue s.pending) ∧
    (∀ n : Nat, s.power = .run → n < 64 → (s.part n).resetting.isSome = true → Completes (.ptnResetDone n true) s fun t => t = (s.ptnResetDone n).requeue s.pending) ∧
    (∀ n : Nat, s.power = .run → n < 1024 → (Completes (.drainEnd n) s fun t => t = (s.drainEnd n).requeue s.pending) ∧ (Completes (.drainTimeout n) s fun t => t = (s.drainTimeout n).requeue s.pending)) ∧
    (s.Entry key count 0x67 e u → u.partCheck h (drainBody e.desc) = none →
      (u.rd F.PTN_PART_state p = ptnLive → u.instsOf p = [] → Completes (.ptnQuiesce key count) s fun t => ∃ v : State,
        t = (v.quiesceDone ⟨u.now, u.drainNs p e.desc, 0, 0, some op.1⟩).requeue s.pending ∧ v.rd F.PTN_PART_state p = ptnQuiesced ∧ v.mem = s.mem) ∧
      (u.rd F.PTN_PART_state p = ptnQuiesced → Completes (.ptnQuiesce key count) s fun t =>
        t = ((u.endEntry e Status.ok 0 (leBytes 8 0)).bump F.PTN_QUIESCE).requeue s.pending)) ∧
    (s.Entry key count 0x68 e u → u.partCheck h (noBody e.desc) = none → u.rd F.PTN_PART_state p = ptnQuiesced → u.rd F.PTN_PART_halted p = 0 →
      Completes (.ptnResume key count) s fun t => ∃ v : State, t = (v.endEntry e Status.ok 0).requeue s.pending ∧ v.rd F.PTN_PART_state p = ptnLive ∧
        (∀ vf ∈ u.instsOf p, u.rd F.PTN_INST_state vf = instQuiesced → v.rd F.PTN_INST_state vf = instLive) ∧ v.mem = s.mem ∧ v.ops = s.ops) ∧
    (s.Entry key count 0x69 e u → (u.partCheck h (noBody e.desc) = none) → u.rd F.PTN_PART_state p = ptnQuiesced → u.lay.slicePart ≠ some p →
      Completes (.ptnReset key count) s fun t => t = (((op.2.setPart p { op.2.part p with resetting := some op.1 }).instsOf p).foldl State.beginReset
        ((((op.2.setPart p { op.2.part p with resetting := some op.1 }).wr F.PTN_PART_state ptnResetting p).bump F.RST_PTN_RESETS).logEv .RST .reset 2 p)).requeue s.pending) ∧
    (∀ vf id : Nat, s.power = .run → vf < 1024 → s.rd F.PTN_INST_state vf = instResetting → s.cph.wipes = [] →
      ((s.inst vf).resetting = some (id, true) → Completes (.instResetDone vf) s fun t => t = ((s.absentInst vf).endOp id Status.ok 0).requeue s.pending) ∧
      ((s.inst vf).resetting = some (id, false) → Completes (.instResetDone vf) s fun t => t = (((s.renewInst vf).2.modOp id fun o =>
        { o with cqe := { o.cqe with result := leBytes 8 (s.renewInst vf).1.toNat } }).endOp id Status.ok 0).requeue s.pending)) ∧
    (∀ part id : Nat, s.power = .run → part < 64 → (s.part part).resetting = some id →
      (s.rd F.PTN_PART_state part = ptnResetting → s.cph.wipes = [] → s.instsOf part = [] → Completes (.ptnResetDone part true) s fun t =>
        ∃ v : State, t = (v.endOp id Status.ok 0).requeue s.pending ∧ v.rd F.PTN_PART_state part = ptnLive ∧ v.rd F.PTN_PART_halted part = 0 ∧
          v.rd F.XLT_PTN_CFG_q_bound part = 0 ∧ v.rd F.TAL_PTN_POOL_used part = 0) ∧
      (Completes (.ptnResetDone part false) s fun t => t = (s.chipReset 5).requeue s.pending))

/-- The rows of key loading complete so (R10, R396, R397). -/
def Obligations.KeysAreStagedAndLoaded : Prop :=
  ∀ (s : State) (path : Path), s.power = .run →
    (∀ k w : Nat, s.managesBy path false = true → k < 8 → s.clearPath path = false → s.claimedElse path = false →
      Completes (.keyWordWrite path k w) s fun t => Tbl.get? t.cph.words k = some (w % 2 ^ 32) ∧ t.cph.claim = some path ∧
        t.rd F.CPH_KEY_STATUS_staged = setBit (s.rd F.CPH_KEY_STATUS_staged) k % 2 ^ F.CPH_KEY_STATUS_staged.width ∧
        (∀ j : Nat, j ≠ k → Tbl.get? t.cph.words j = Tbl.get? s.cph.words j) ∧ t.slots = s.slots ∧ t.mem = s.mem) ∧
    (∀ k w : Nat, s.managesBy path false = true → k < 8 → s.clearPath path = true ∨ s.claimedElse path = true →
      Completes (.keyWordWrite path k w) s fun t => t.cph = s.cph ∧ t.slots = s.slots ∧ t.mem = s.mem) ∧
    (Completes .keyStageTimeout s fun t => t.cph.words = [] ∧ t.cph.claim = none ∧ t.rd F.CPH_KEY_STATUS_staged = 0 ∧ t.slots = s.slots ∧ t.mem = s.mem) ∧
    (∀ n : Nat, s.managesBy path false = true → s.loadRefusal path n = 0 →
      Completes (.load path n) s fun t =>
        (∃ salt : Nat, t.slots = Tbl.set s.slots (s.rd F.CPH_KEY_CTL_slot)
            { state := .loaded, key := s.stagedKey, decrypt := s.rd F.CPH_KEY_CTL_dir == 1, salt := salt, devSalt := s.rd F.CPH_KEY_CTL_dev_salt == 1,
              next := 0, ctrLog2 := n, vf := s.rd F.CPH_KEY_CTL_vf, low := false, tagFail := 0 } ∧
          (s.rd F.CPH_KEY_CTL_dir = 1 → salt = if s.rd F.CPH_KEY_CTL_dev_salt = 1 then 0 else s.rd F.CPH_KEY_SALT_salt) ∧
          (s.rd F.CPH_KEY_CTL_dir ≠ 1 → s.rd F.CPH_KEY_CTL_dev_salt = 1 → salt = 0x80000000 + s.devAddr) ∧
          (s.rd F.CPH_KEY_CTL_dir ≠ 1 → s.rd F.CPH_KEY_CTL_dev_salt ≠ 1 → 1 ≤ salt ∧ salt < 2 ^ 32)) ∧
        t.cph.words = [] ∧ t.rd F.CPH_KEY_STATUS_done = 1 ∧ t.rd F.CPH_KEY_STATUS_refused = 0 ∧ t.mem = s.mem) ∧
    (∀ n : Nat, s.managesBy path false = true → s.loadRefusal path n ≠ 0 →
      Completes (.load path n) s fun t => t.slots = s.slots ∧ t.cph.words = [] ∧ t.rd F.CPH_KEY_STATUS_done = 0 ∧ t.rd F.CPH_KEY_STATUS_refused = 1 ∧
        t.rd F.CPH_KEY_STATUS_reason = s.loadRefusal path n ∧ (n < 20 ∨ 64 < n → t.rd F.CPH_KEY_CMD_ctr_log2 = s.rd F.CPH_KEY_CMD_ctr_log2) ∧ t.mem = s.mem)

/-- The rows of key wipes and of the random source complete so (R78, R399). -/
def Obligations.KeysAreWiped : Prop :=
  ∀ s : State, s.power = .run →
    (∀ (c : Instr) (what : WipeOf), (c, what) ∈ [(.wipeSlot, .slot (s.rd F.CPH_KEY_CTL_slot)), (.wipeInstance, .inst (s.rd F.CPH_KEY_CTL_vf)), (.wipeAll, .all)] →
      (s.manages false = true → s.keyCmdRuns = false → Completes c s fun t =>
        t.slots = Tbl.mapVals s.slots (fun n (k : KeySlot) => if covers ⟨what, true, false, 0⟩ n (some k) then { k with state := .wiping } else k) ∧
          t.rd F.CPH_KEY_STATUS_busy = 1 ∧ t.rd F.CPH_KEY_STATUS_permille = 0 ∧ t.keyCmdRuns = true ∧ t.mem = s.mem) ∧
      (s.manages false = true → s.keyCmdRuns = true → Completes c s fun t => t.slots = s.slots ∧ t.cph = s.cph ∧ t.rd F.CPH_KEY_STATUS_refused = 1 ∧
        t.rd F.CPH_KEY_STATUS_reason = 8 ∧ t.mem = s.mem)) ∧
    (∀ (w : KeyWipe) (rest : List KeyWipe), s.cph.wipes = w :: rest →
      (Completes (.keyWipeDone true) s fun t => t.cph.wipes = rest ∧ t.slots = (s.freeWiped w rest).slots ∧ t.mslots = (s.freeWiped w rest).mslots ∧
        t.rd F.CPH_KEY_STATUS_busy = b2n (!rest.isEmpty) ∧ t.rd F.CPH_KEY_STATUS_permille = 1000 ∧ (w.cmd = true → t.rd F.CPH_KEY_STATUS_done = 1) ∧
        t.rd F.CPH_WIPES = (s.rd F.CPH_WIPES + 1) % 2 ^ F.CPH_WIPES.width ∧ t.mem = s.mem) ∧
      (w.fails < 2 → Completes (.keyWipeDone false) s fun t => t.cph.wipes = { w with fails := w.fails + 1 } :: rest ∧ t.slots = s.slots ∧
        t.regs = s.regs ∧ t.mem = s.mem) ∧
      (∀ ok : Bool, Completes (.keyWipeDone ok) s fun t => t = (s.wipeDone ok).requeue s.pending)) ∧
    (Completes .rngHealthFail s fun t => t.rd F.TRU_LC_rng_failed = 1 ∧ t.mem = s.mem ∧ t.slots = s.slots) ∧
    (Completes .rngHealthRestored s fun t => t.rd F.TRU_LC_rng_failed = 0 ∧ t.mem = s.mem ∧ t.slots = s.slots)

/-- The rows of the trust controller that need no start complete so (R405, R406, R408, R412). -/
def Obligations.TrustCommands : Prop :=
  ∀ s : State, s.power = .run →
    (Completes .attestDone s fun t => t = (s.attestDone).requeue s.pending) ∧
    (∀ n : List Byte, s.tru.attesting = some n → s.rd F.LRD_CELLAR_state = 0 →
      Completes .attestDone s fun t => t.tru.attesting = none ∧ t.tru.report = s.reportBody n ++ padTo 64 ((Config.ecdsaSign (s.reportBody n)).take 64) ∧
        t.rd F.TRU_STATUS_done = 1 ∧ t.rd F.TRU_STATUS_busy = 0 ∧ t.mem = s.mem) ∧
    (s.manages true = true → s.rd F.TRU_STATUS_busy = 0 →
      (s.rd F.LRD_CELLAR_state ≠ 2 → Completes .attest s fun t => t.tru.attesting = some ((List.range 32).map fun k => Tbl.getD s.tru.nonce k 0) ∧
        t.rd F.TRU_STATUS_busy = 1 ∧ t.rd F.TRU_STATUS_done = 0 ∧ t.rd F.TRU_STATUS_refused = 0 ∧ t.mem = s.mem) ∧
      (s.rd F.LRD_CELLAR_state = 2 → Completes .attest s fun t => t.tru = s.tru ∧ t.rd F.TRU_STATUS_refused = 1 ∧ t.rd F.TRU_STATUS_reason = 6 ∧ t.mem = s.mem) ∧
      (∀ key : Nat, key < 8 → (s.rd F.TRU_LC_state = lcProvisioned ∨ s.rd F.TRU_LC_state = lcDeployed) →
        ((setBit (s.rd F.TRU_BOOT_revoked) key % 8 ≠ 7 ∧ setBit (s.rd F.TRU_BOOT_revoked) key / 16 % 8 ≠ 7) →
          Completes (.revoke key true) s fun t => t.rd F.TRU_BOOT_revoked = setBit (s.rd F.TRU_BOOT_revoked) key % 2 ^ F.TRU_BOOT_revoked.width ∧
            t.rd F.TRU_STATUS_done = 1 ∧ t.mem = s.mem) ∧
        (¬(setBit (s.rd F.TRU_BOOT_revoked) key % 8 ≠ 7 ∧ setBit (s.rd F.TRU_BOOT_revoked) key / 16 % 8 ≠ 7) → ∀ ok : Bool,
          Completes (.revoke key ok) s fun t => t.rd F.TRU_BOOT_revoked = s.rd F.TRU_BOOT_revoked ∧ t.rd F.TRU_STATUS_refused = 1 ∧
            t.rd F.TRU_STATUS_reason = 5 ∧ t.mem = s.mem)) ∧
      (s.rd F.TRU_BOOT_fw_floor < 255 → Completes (.raiseFwFloor true) s fun t =>
        t.rd F.TRU_BOOT_fw_floor = max (s.rd F.TRU_BOOT_fw_floor) (s.rd F.TRU_BOOT_fw_rollback) % 2 ^ F.TRU_BOOT_fw_floor.width ∧
          t.rd F.TRU_STATUS_done = 1 ∧ t.mem = s.mem) ∧
      (s.rd F.TRU_BOOT_fw_floor = 255 → ∀ ok : Bool, Completes (.raiseFwFloor ok) s fun t => t.rd F.TRU_BOOT_fw_floor = 255 ∧
        t.rd F.TRU_STATUS_refused = 1 ∧ t.rd F.TRU_STATUS_reason = 3 ∧ t.mem = s.mem) ∧
      (s.rd F.TRU_LC_state ≤ 1 → s.tru.fusedPolarity = none → Completes (.burnPolarity true) s fun t =>
        t.tru.fusedPolarity = some (s.rd F.TRU_TAMPER_CFG_polarity) ∧ t.rd F.TRU_STATUS_done = 1 ∧ t.mem = s.mem) ∧
      (s.tru.fusedPolarity.isSome = true → ∀ ok : Bool, Completes (.burnPolarity ok) s fun t => t.tru = s.tru ∧ t.rd F.TRU_STATUS_refused = 1 ∧
        t.rd F.TRU_STATUS_reason = 3 ∧ t.mem = s.mem))

/-- The rows of the life cycle and of tampering complete so (R370, R410 to R413). -/
def Obligations.LifeCycleAndTamper : Prop :=
  ∀ s : State, s.power = .run →
    (∀ (input : Nat) (passes : Bool), input < 4 → Completes (.tamperAssert input passes) s fun t => t = (s.tamperPulse input passes false).requeue s.pending) ∧
    (s.manages true = true → s.rd F.TRU_STATUS_busy = 0 →
      (∀ ok : Bool, nextCycle (s.rd F.TRU_LC_state) (s.rd F.TRU_LC_returns) = none → Completes (.lcAdvance ok) s fun t =>
        t.rd F.TRU_LC_state = s.rd F.TRU_LC_state ∧ t.rd F.TRU_STATUS_refused = 1 ∧ t.rd F.TRU_STATUS_reason = 3 ∧ t.mem = s.mem) ∧
      (∀ (nxt : Nat) (token : Bool), nextCycle (s.rd F.TRU_LC_state) (s.rd F.TRU_LC_returns) = some (nxt, token) →
          (token = true → s.tokenOk (s.rd F.TRU_LC_state) nxt = true) →
          (∀ p : Nat, p < 64 → s.enabled p = true → s.rd F.PTN_PART_state p = ptnQuiesced) →
        (Completes (.lcAdvance true) s fun t => ∃ v : State, t = (v.chipReset 7).requeue s.pending ∧ v.rd F.TRU_LC_state = nxt ∧ v.rd F.LRD_CELLAR_state = 1) ∧
        (Completes (.lcAdvance false) s fun t => (s.lay.slicePart = none → t.rd F.TRU_LC_state = s.rd F.TRU_LC_state) ∧ t.rd F.TRU_STATUS_refused = 1 ∧
          t.rd F.TRU_STATUS_reason = 7 ∧ t.rd F.LRD_CELLAR_state = 1)) ∧
      (s.rd F.TRU_LC_state ≠ lcScrapped →
        (Completes (.lcScrap 0x5C true) s fun t => ∃ v : State, t = (v.chipReset 7).requeue s.pending ∧ v.rd F.TRU_LC_state = lcScrapped ∧
          v.rd F.LRD_CELLAR_state = 1) ∧
        (Completes (.lcScrap 0x5C false) s fun t => (s.lay.slicePart = none → t.rd F.TRU_LC_state = s.rd F.TRU_LC_state) ∧ t.rd F.TRU_STATUS_refused = 1 ∧ t.rd F.TRU_STATUS_reason = 7)) ∧
      (∀ (c : Nat) (ok : Bool), c ≠ 0x5C → Completes (.lcScrap c ok) s fun t => t.rd F.TRU_LC_state = s.rd F.TRU_LC_state ∧
        t.rd F.TRU_STATUS_refused = 1 ∧ t.rd F.TRU_STATUS_reason = 9 ∧ t.mem = s.mem)) ∧
    (∀ input : Nat, input < 4 →
      (Completes (.tamperAssert input false) s fun t => t = (s.evt 14).requeue s.pending) ∧
      (bitAt (s.rd F.TRU_TAMPER_CFG_enable) input = false → Completes (.tamperAssert input true) s fun t =>
        t.rd F.TRU_TAMPER_STATE_level = setBit (s.rd F.TRU_TAMPER_STATE_level) input % 2 ^ F.TRU_TAMPER_STATE_level.width ∧
          t.rd F.TRU_TAMPER_STATE_latched = s.rd F.TRU_TAMPER_STATE_latched ∧ t.mem = s.mem) ∧
      (bitAt (s.rd F.TRU_TAMPER_CFG_enable) input = true → s.pwr.entry = none → s.pwr.asleep = none → s.lay.slicePart = none → Completes (.tamperAssert input true) s fun t =>
        t.tier.wipe = some 0 ∧ t.rd F.LRD_CELLAR_state = 1 ∧ t.rd F.CPH_KEY_STATUS_busy = 1 ∧
          t.rd F.TRU_TAMPER_STATE_latched = setBit (s.rd F.TRU_TAMPER_STATE_latched) input % 2 ^ F.TRU_TAMPER_STATE_latched.width ∧
          t.rd F.TRU_TAMPER_STATE_count = min 65535 (s.rd F.TRU_TAMPER_STATE_count + 1) ∧ t.mem = s.mem)) ∧
    (∀ enable polarity : Nat, s.manages true = true → enable < 16 → polarity < 16 →
      ((polarity ^^^ s.rd F.TRU_TAMPER_CFG_polarity) &&& s.rd F.TRU_TAMPER_CFG_enable ≠ 0 → Completes (.tamperCfgWrite enable polarity) s fun t =>
        t.rd F.TRU_TAMPER_CFG_enable = s.rd F.TRU_TAMPER_CFG_enable ∧ t.rd F.TRU_TAMPER_CFG_polarity = s.rd F.TRU_TAMPER_CFG_polarity ∧ t.mem = s.mem) ∧
      ((polarity ^^^ s.rd F.TRU_TAMPER_CFG_polarity) &&& s.rd F.TRU_TAMPER_CFG_enable = 0 → Completes (.tamperCfgWrite enable polarity) s fun t =>
        t.rd F.TRU_TAMPER_CFG_enable = (if s.rd F.TRU_LC_state ≤ 1 then enable else enable ||| s.rd F.TRU_TAMPER_CFG_enable) % 2 ^ F.TRU_TAMPER_CFG_enable.width ∧
          t.rd F.TRU_TAMPER_CFG_polarity = polarity % 2 ^ F.TRU_TAMPER_CFG_polarity.width ∧ t.mem = s.mem)) ∧
    (∀ ok : Bool, s.tier.wipe.isSome = true → Completes (.cellarWipeDone ok) s fun t => t.tier.wipe = none ∧ t.rd F.LRD_CELLAR_state = (if ok then 0 else 2) ∧
      t.rd F.TRU_LC_cellar_failed = b2n (!ok) ∧ t.rd F.LRD_CELLAR_wipes = min (2 ^ F.LRD_CELLAR_wipes.width - 1) (s.rd F.LRD_CELLAR_wipes + 1) ∧
      ∀ a : Nat, Memory.get t.mem a = if ok = true ∧ larderBase + cellarOff ≤ a ∧ a < larderBase + cellarOff + cellarBytes then 0 else Memory.get s.mem a)

/-- The rows of storage targets complete so (R417, R419, R428, R431); `deal` hands waiting blocks of the commons to idle engines. -/
def Obligations.StorageTargets : Prop :=
  ∀ (s : State) (x : Nat), s.power = .run → x < 64 →
    (∀ p : NvmePdu, Completes (.nvmePduReceive x p) s fun t => t = ((s.onNvme x p).deal 18).requeue s.pending) ∧
    (∀ held : Option Nat, Completes (.ckpCmdTimeout x held) s fun t => t = ((s.ckpTimeout x held).deal 18).requeue s.pending) ∧
    (Completes .ckpKeepaliveTimer s fun t => t = (((List.range 64).foldl State.keepAlive s).deal 18).requeue s.pending) ∧
    (Completes (.targetReconnectTimer x) s fun t => t = ((s.tgtReconnect x).deal 18).requeue s.pending) ∧
    (s.manages false = true → s.rd F.CKP_TGT_SEL_target = x → s.rd F.CKP_TGT_PORTS_port_mask x ≠ 0 → s.tgtState x ≠ tgtConnecting → s.tgtState x ≠ tgtReady →
      Completes .targetConnect s fun t => t.rd F.CKP_TGT_STATUS_state x = tgtConnecting ∧ t.rd F.CKP_TGT_STATUS_digests x = 0 ∧
        t.rd F.CKP_TGT_STATUS_lba4k x = 0 ∧ (t.tgt x).queue = 0 ∧ t.mem = s.mem) ∧
    (s.manages false = true → s.rd F.CKP_TGT_SEL_target = x → Completes .targetDisconnect s fun t => ∃ v : State, t = (v.deal 18).requeue s.pending ∧
      v.rd F.CKP_TGT_STATUS_state x = tgtIdle ∧ (v.tgt x).cmds = []) ∧
    (s.tgtState x = tgtFailed → (s.tgt x).attempts < s.rd F.CKP_CFG_reconnects → Completes (.targetReconnectTimer x) s fun t =>
      ∃ v : State, t = (v.deal 18).requeue s.pending ∧ v.rd F.CKP_TGT_STATUS_state x = tgtConnecting ∧ (v.tgt x).attempts = (s.tgt x).attempts + 1 ∧ v.mem = s.mem) ∧
    (s.inj = none →
      (∀ p : NvmePdu, s.tgtState x ≠ tgtConnecting → s.tgtState x ≠ tgtReady → Completes (.nvmePduReceive x p) s fun t => t = (s.deal 18).requeue s.pending) ∧
      (∀ q : Nat, s.tgtState x = tgtConnecting → q = (s.tgt x).queue → (s.tgt x).stage = 0 → Completes (.nvmePduReceive x ⟨q, true, .tcpOpened⟩) s fun t =>
        ∃ v : State, t = ((v.nvmeSend x q .icReq).deal 18).requeue s.pending ∧ v = s.modTgt x (fun k => { k with stage := 1 })) ∧
      (∀ q : Nat, s.tgtState x = tgtConnecting ∨ s.tgtState x = tgtReady → Completes (.nvmePduReceive x ⟨q, true, .tcpReset⟩) s fun t =>
        ∃ v : State, t = (v.deal 18).requeue s.pending ∧ v.rd F.CKP_TGT_STATUS_state x = tgtFailed ∧ v.rd F.CKP_TGT_STATUS_reason x = 1) ∧
      (∀ (q : Nat) (b : NvmeBody), s.tgtState x = tgtConnecting ∨ s.tgtState x = tgtReady → nvmeCid b = none →
        Completes (.nvmePduReceive x ⟨q, false, b⟩) s fun t => t = ((s.bump F.CKP_DIGEST_ERR).deal 18).requeue s.pending)) ∧
    (s.tgtState x = tgtConnecting ∨ (s.tgtState x = tgtReady ∧ (s.tgt x).cmds ≠ []) → Completes (.ckpCmdTimeout x none) s fun t =>
      ∃ v : State, t = (v.deal 18).requeue s.pending ∧ v.rd F.CKP_TGT_STATUS_state x = tgtFailed ∧ v.rd F.CKP_TGT_STATUS_reason x = 10) ∧
    (s.tgtState x = tgtReady → (∀ y : Nat, y < 64 → y ≠ x → s.tgtState y ≠ tgtReady) → Completes .ckpKeepaliveTimer s fun t =>
      ∃ v : State, t = (v.deal 18).requeue s.pending ∧
        if (s.tgt x).cmds.any (fun c => c.job.kind == .keepAlive) then ((∀ q ∈ s.ckp.streams, q.2.target ≠ x) → v = s.failTgt x 10)
        else v = s.nvmeCmd x 0 256 ⟨.keepAlive, 0, 0, 0, 0⟩ fun c => NvmeBody.keepAlive c)

/-- Checkpoint entries complete so (R420, R421); `startStream` runs a stream whose target is READY. -/
def Obligations.CheckpointEntries : Prop :=
  (∀ (s u : State) (key count : Nat) (e : Fetched), key ≠ ctlKey →
    (s.Entry key count 0x40 e u → Completes (.ckpSave key count) s fun t => t = (u.ckpEntry e (descHdr e.desc) false).requeue s.pending) ∧
    (s.Entry key count 0x41 e u → Completes (.ckpRestore key count) s fun t => t = (u.ckpEntry e (descHdr e.desc) true).requeue s.pending)) ∧
  ∀ (s u : State) (key count n : Nat) (e : Fetched), key ≠ ctlKey → (u.stream? n).isNone = true → n < 256 → (∀ m : Nat, m < n → (u.stream? m).isNone = false) →
    let h := descHdr e.desc
    let b := ckpBody e.desc
    let vf := ringVf e.key
    let fits := b.bad h e.desc = false ∧ b.table = false ∧ b.inFlight * b.z ≤ u.stagingFree vf (u.rd F.PTN_INST_partition vf) ∧
      (u.tgtState h.target = tgtConnecting ∨
        (u.tgtState h.target = tgtReady ∧ b.slba + ceilDiv (256 + b.length) (b.z - 64) * b.z / u.blockSize h.target ≤ (u.tgt h.target).blocks))
    let opened := fun (t : State) (restore : Bool) => ∃ v : State,
      t = (if u.tgtState h.target = tgtReady then v.startStream n else v).requeue s.pending ∧ v.rd F.CKP_STREAM_open n = 1 ∧
        v.rd F.CKP_STREAM_restore n = b2n restore ∧ v.rd F.CKP_STREAM_vf n = vf % 2 ^ F.CKP_STREAM_vf.width ∧ v.rd F.CKP_STREAM_target n = h.target ∧
        v.rd F.CKP_STREAM_stream_id n = b.streamId % 2 ^ F.CKP_STREAM_stream_id.width ∧ (v.op? u.nextOp).any (fun o => o.phase == .running) = true ∧ v.mem = s.mem
    (s.Entry key count 0x40 e u → fits → u.ckpOwned vf b h false = true → Completes (.ckpSave key count) s fun t => opened t false) ∧
    (s.Entry key count 0x41 e u → fits → u.ckpOwned vf b h true = true → Completes (.ckpRestore key count) s fun t => opened t true)

/-- The rows of the power domains complete so (R434 to R437, R439, R449, R450). -/
def Obligations.PowerDomains : Prop :=
  ∀ (s : State) (d : Nat), s.power = .run → d < 96 →
    (d ≠ 0 → s.rd F.PWR_DOM_pinned d = 0 → s.pwr.climbing.contains d = false → (privileged d && s.heldLit d) = false → s.domBusy d = false →
      Completes (.domainIdleStep d) s fun t => t.mem = s.mem ∧ t.pwr = s.pwr ∧
        t.rd F.PWR_DOM_state d = if s.portDark d then 4 else if s.rd F.PWR_DOM_state d < s.rd F.PWR_DOM_floor d then s.rd F.PWR_DOM_state d + 1 else s.rd F.PWR_DOM_state d) ∧
    (s.rd F.PWR_DOM_state d = 0 → s.soleFenced d = false → Completes (.kindle d) s fun t => t.regs = s.regs ∧ t.pwr = s.pwr ∧ t.mem = s.mem) ∧
    (s.rd F.PWR_DOM_state d = 0 → s.soleFenced d = true → Completes (.kindle d) s fun t => t.regs = s.regs ∧
      t.pwr = { s.pwr with held := Tbl.set s.pwr.held d (s.heldAt d + 1) } ∧ t.mem = s.mem) ∧
    (s.rd F.PWR_DOM_state d ≠ 0 → privileged d = false → Completes (.kindle d) s fun t => t.pwr.climbing.contains d = true ∧
      t.pwr.held = Tbl.set s.pwr.held d (s.heldAt d + 1) ∧
      t.rd F.PWR_KINDLE = (s.rd F.PWR_KINDLE + 1) % 2 ^ F.PWR_KINDLE.width ∧ t.rd F.PWR_DOM_state d = s.rd F.PWR_DOM_state d ∧ t.mem = s.mem) ∧
    (s.rd F.PWR_DOM_state d ≠ 0 → privileged d = true → Completes (.kindle d) s fun t =>
      t.pwr = { s.pwr with held := Tbl.set s.pwr.held d (s.heldAt d + 1) } ∧
      t.rd F.PWR_HELD_PRIV = (s.rd F.PWR_HELD_PRIV + 1) % 2 ^ F.PWR_HELD_PRIV.width ∧ t.rd F.PWR_DOM_state d = s.rd F.PWR_DOM_state d ∧ t.mem = s.mem) ∧
    (s.pwr.climbing.contains d = true → Completes (.domainLit d) s fun t => t.rd F.PWR_DOM_state d = 0 ∧ t.pwr.climbing.contains d = false ∧
      t.pwr.held = (if s.soleFenced d then s.pwr.held else Tbl.erase s.pwr.held d) ∧ t.mem = s.mem) ∧
    (s.pwr.climbing.contains d = false → Completes (.domainLit d) s fun t => t = s) ∧
    (d = 0 ∨ s.rd F.PWR_DOM_pinned d = 1 ∨ s.pwr.climbing.contains d = true ∨ s.domBusy d = true → Completes (.domainIdleStep d) s fun t => t = s) ∧
    (privileged d = true →
      (Completes (.privWake d) s fun t => t.pwr.woken.contains d = true ∧ (s.rd F.PWR_DOM_state d ≠ 0 → t.pwr.climbing.contains d = true) ∧
        t.regs = s.regs ∧ t.mem = s.mem) ∧
      (Completes (.privRelease d) s fun t => t.pwr.woken.contains d = false ∧ t.regs = s.regs ∧ t.mem = s.mem)) ∧
    (∀ (floor idleUs : Nat) (pin : Bool),
      (s.manages false = true → deepestFloor d < floor ∨ 1000000 < idleUs → Completes (.domainFloorWrite d floor pin idleUs) s fun t => t.rd F.PWR_DOM_floor d = s.rd F.PWR_DOM_floor d ∧
        t.rd F.PWR_DOM_pinned d = s.rd F.PWR_DOM_pinned d ∧ t.rd F.PWR_DOM_idle_us d = s.rd F.PWR_DOM_idle_us d ∧ t.pwr = s.pwr ∧ t.mem = s.mem) ∧
      (s.manages false = true → floor ≤ deepestFloor d → idleUs ≤ 1000000 → Completes (.domainFloorWrite d floor pin idleUs) s fun t => t.rd F.PWR_DOM_floor d = floor ∧
        t.rd F.PWR_DOM_pinned d = b2n pin ∧ t.rd F.PWR_DOM_idle_us d = idleUs ∧ t.mem = s.mem ∧
        (pin = true → privileged d = false → s.rd F.PWR_DOM_state d ≠ 0 → t.pwr.climbing.contains d = true)))

/-- The rows of the device's own ladder, of the cap and of the crystal complete so (R440 to R442, R444); `darkPorts`, `linkLoss`, `relight`, `startUp` and `chipReset` do what those rules say. -/
def Obligations.DeviceLadder : Prop :=
  ∀ s : State, s.power = .run →
    (Completes .deviceEntryDone s fun t => t = (s.entryDone).requeue s.pending) ∧
    (∀ (c : Instr) (st : Nat), s.manages false = true → (c, st) ∈ [(.enterEmber, 3), (.enterCold, 4)] →
      let r1 := (List.range 64).any fun p => s.enabled p && s.rd F.PTN_PART_state p != ptnQuiesced
      let r2 := s.pwr.entry.isSome || s.rd F.LAY_STATUS_busy == 1
      let r3 := s.rd F.TRU_TAMPER_STATE_latched != 0
      ((r1 || r2 || r3) = true → Completes c s fun t => t.rd F.PWR_DEV_STATUS_refused = 1 ∧ t.rd F.PWR_DEV_STATUS_done = 0 ∧
        t.rd F.PWR_DEV_STATUS_reason = (if r1 then 1 else if r2 then 2 else 3) ∧ t.pwr = s.pwr ∧ t.mem = s.mem) ∧
      ((r1 || r2 || r3) = false → Completes c s fun t => ∃ v : State, v.pwr.entry = some st ∧ v.rd F.PWR_DEV_STATUS_busy = 1 ∧ v.rd F.PWR_DEV_STATUS_done = 0 ∧
        v.mem = s.mem ∧ (st = 3 → t = v.darkPorts.requeue s.pending) ∧
        (st = 4 → t = (((List.range 16).filter fun x => v.darkPorts.linkUp x).foldl State.linkLoss v.darkPorts).requeue s.pending))) ∧
    (∀ st : Nat, (st = 3 ∨ st = 4) → s.pwr.entry = some st → s.pins.wake = false → Completes .deviceEntryDone s fun t => t.pwr.asleep = some st ∧ t.pwr.entry = none ∧
      t.rd F.PWR_DEV_STATUS_done = 1 ∧ t.rd F.PWR_DEV_STATUS_busy = 0 ∧
      ∀ d : Nat, 1 ≤ d → d < 96 → (st = 4 ∨ (privileged d && s.heldLit d) = false) → t.rd F.PWR_DOM_state d = st) ∧
    (∀ (cause : Nat) (level : Bool), (cause = 1 ∧ level = false) ∨ s.pwr.asleep = none → Completes (.deviceWake cause level) s fun t =>
      t.regs = s.regs ∧ t.mem = s.mem ∧ t.pwr = s.pwr ∧ t.pins.wake = if cause = 1 then level else s.pins.wake) ∧
    (∀ (cause : Nat) (level : Bool) (st : Nat), ¬(cause = 1 ∧ level = false) → s.pwr.asleep = some st → Completes (.deviceWake cause level) s fun t =>
      ∃ v w : State, (v = s ∨ v = { s with pins := { s.pins with wake := level } }) ∧
        (w = if st = 4 then v.stripChip.startUp false else State.relight { v with pwr := { v.pwr with asleep := none } }) ∧
        t = (w.wr F.PWR_DEV_STATUS_wake_cause cause).requeue s.pending) ∧
    (∀ (watts die : Nat) (temps : List Nat), Completes (.powerSample watts die temps) s fun t => t.rd F.PWR_STATUS_power_w = min 1023 watts ∧ t.mem = s.mem ∧
      t.pwr.gate = (if s.rd F.PWR_CFG_cap_w < watts ∨ 100 ≤ die ∨ temps.any (fun x => decide (95 ≤ x)) = true then min 15 (s.pwr.gate + 1)
        else if 100 * watts < 95 * s.rd F.PWR_CFG_cap_w ∧ die < 95 ∧ temps.all (fun x => decide (x < 90)) = true then s.pwr.gate - 1 else s.pwr.gate) ∧
      t.rd F.PWR_STATUS_throttled = b2n (decide (0 < t.pwr.gate)) ∧
      t.rd F.PWR_THROTTLE_US = (s.rd F.PWR_THROTTLE_US + if 0 < s.pwr.gate then 1000 else 0) % 2 ^ F.PWR_THROTTLE_US.width) ∧
    (s.rd F.PWR_STATUS_rc_clock = 1 → Completes .crystalFail s fun t => t.regs = s.regs ∧ t.mem = s.mem) ∧
    (s.rd F.PWR_STATUS_rc_clock ≠ 1 → Completes .crystalFail s fun t => ∃ v : State, t = (v.chipReset 3).requeue s.pending ∧ v.rd F.PWR_STATUS_rc_clock = 1 ∧
      v.rd F.PWR_STATUS_xtal_fail = 1 ∧ v.rd F.PWR_XTAL_FAIL = (s.rd F.PWR_XTAL_FAIL + 1) % 2 ^ F.PWR_XTAL_FAIL.width ∧ v.mem = s.mem)

/-- The rows of hangs complete so (R453 to R458, R469); `beginReplay`, `judgeNext` and `guilty` do what those rules say of a unit and its suspects. -/
def Obligations.Hangs : Prop :=
  ∀ (s : State) (kind unit : Nat), s.power = .run → unit < unitsOf kind →
    let k := unitKey kind unit
    let recent := (Tbl.getD s.rst.hangs k []).filter fun x => decide (s.now < x + 600 * sec)
    let calm := (∀ x : Nat, Tbl.get? s.rst.back k = some x → x + sec ≤ s.now) ∧ recent.length < 2
    let begun := fun (t : State) (xs : List Nat) (m : Bool) => ∃ v w : State, t = w.cmnRun.requeue s.pending ∧ w = v.beginReplay kind unit xs m false ∧
      Tbl.get? v.rst.hangs k = some (recent ++ [s.now]) ∧ v.rd F.RST_HANGS = (s.rd F.RST_HANGS + 1) % 2 ^ F.RST_HANGS.width ∧ v.mem = s.mem ∧
      (m = true → v.rd F.RST_STATUS_busy = 1) ∧ (w.replay? kind unit).any (fun r => r.resetting && r.judging.isNone && r.manager == m) = true
    (∀ xs : List Nat, (s.serving kind unit = true → s.watched kind unit xs = true → calm → Completes (.watchdogExpiry kind unit xs) s fun t => begun t xs false) ∧
      (s.serving kind unit = true → s.watched kind unit xs = true → Completes (.watchdogExpiry kind unit xs) s fun t =>
        t = (s.hang kind unit xs false false).requeue s.pending) ∧
      ((s.serving kind unit && s.watched kind unit xs) = false → Completes (.watchdogExpiry kind unit xs) s fun t => t = s.requeue s.pending)) ∧
    (∀ code : Nat, s.manages false = true → s.rd F.RST_STATUS_busy = 0 → code < 5 → (if code ≤ 2 then code else code + 1) = kind →
      (s.serving kind unit = true → calm → Completes (.engineReset code unit) s fun t => begun t [] true) ∧
      (s.serving kind unit = true → Completes (.engineReset code unit) s fun t =>
        t = ((s.touchSession.wr F.RST_STATUS_busy 1).hang kind unit [] true false).requeue s.pending) ∧
      (s.serving kind unit = false → Completes (.engineReset code unit) s fun t => t.rd F.RST_STATUS_refused = 1 ∧ t.rd F.RST_STATUS_reason = 2 ∧ t.rst = s.rst ∧ t.mem = s.mem)) ∧
    (∀ r : Replay, s.replay? kind unit = some r →
      (r.resetting = true → Deals (.engineResetDone kind unit true) s fun z => z = (s.setReplay { r with resetting := false }).judgeNext kind unit ∧
        (r.todo = [] → r.parked = [] → r.manager = false → z.replay? kind unit = none ∧ z.rd F.RST_HANG_LAST_kind = kind ∧ z.rd F.RST_HANG_LAST_unit = unit ∧
          z.rd F.RST_HANG_LAST_suspects = min 255 r.suspects ∧ z.mem = s.mem)) ∧
      (r.resetting = true → Deals (.engineResetDone kind unit false) s fun z => z = s.retireHung r) ∧
      (∀ x : Nat, r.judging = some x →
        (Deals (.suspectCleared kind unit) s fun z =>
          z = ((if kind = kTally then s.moveChunks r.on x else s).setReplay { r with judging := none }).judgeNext kind unit) ∧
        (s.waitsOut kind x = true → Completes (.suspectWindowExpiry kind unit) s fun t => t = s) ∧
        (s.waitsOut kind x = false → s.suspectLives kind x = true → Deals (.suspectWindowExpiry kind unit) s fun z => z = s.guilty r x) ∧
        (s.waitsOut kind x = false → s.suspectLives kind x = false → Deals (.suspectWindowExpiry kind unit) s fun z => z = (s.setReplay { r with judging := none }).judgeNext kind unit))) ∧
    (∀ core : Nat, core < 36 → s.rst.coresGone.contains core = false →
      let misses := (Tbl.getD s.rst.cores core []).filter fun x => decide (s.now < x + 60 * sec)
      (misses.length < 2 → Completes (.stewardHeartbeatMiss core) s fun t => Tbl.get? t.rst.cores core = some (misses ++ [s.now]) ∧ t.regs = s.regs ∧ t.mem = s.mem) ∧
      (2 ≤ misses.length → Completes (.stewardHeartbeatMiss core) s fun t => ∃ v : State, v.rst.coresGone = s.rst.coresGone ++ [core] ∧
        v.rd F.RST_RETIRED_UNITS = (s.rd F.RST_RETIRED_UNITS + 1) % 2 ^ F.RST_RETIRED_UNITS.width ∧
        t = (if v.rd F.TEL_SPARE_active 8 < 16 then v.chipReset 8 else v).requeue s.pending))

/-- The rows of resets and dumps complete so (R462 to R466, R469); `chipReset` and `powerCycle` do what those rules say. -/
def Obligations.ResetsAndDumps : Prop :=
  ∀ s : State, s.power = .run →
    (s.rd F.RST_STATUS_busy = 1 → ∀ q ∈ [(Instr.chipReset, true), (.powerCycle, false), (.clearRetired, false), (.dump, false)], s.manages q.2 = true →
      Completes q.1 s fun t =>
      t.rd F.RST_STATUS_refused = 1 ∧ t.rd F.RST_STATUS_reason = 1 ∧ t.rd F.RST_STATUS_retired = s.rd F.RST_STATUS_retired ∧ t.rst = s.rst ∧ t.mem = s.mem) ∧
    (s.manages true = true → s.rd F.RST_STATUS_busy = 0 → Completes .chipReset s fun t =>
      t = ((s.touchSession.chipReset 1).rstResult 2 0).requeue s.pending ∧ t.rd F.RST_STATUS_done = 1) ∧
    (s.manages false = true → s.rd F.RST_STATUS_busy = 0 →
      (Completes .powerCycle s fun t => t = ((s.touchSession.powerCycle 0).rstResult 3 0).requeue s.pending ∧ t.rd F.RST_STATUS_done = 1) ∧
      (s.rd F.RST_STATUS_retired = 0 → Completes .clearRetired s fun t => t.rd F.RST_STATUS_refused = 1 ∧ t.rd F.RST_STATUS_reason = 3 ∧ t.rst = s.rst ∧ t.mem = s.mem) ∧
      (s.rd F.RST_STATUS_retired ≠ 0 → Completes .clearRetired s fun t => t.rd F.RST_STATUS_done = 1 ∧ ∃ v : State,
        t = ((v.chipReset 1).rstResult 4 0).requeue s.pending ∧ v.rd F.RST_STATUS_retired = 0 ∧ (∀ n : Nat, n < 4 → v.rd F.RST_HIST_tick n = 0) ∧ v.mem = s.mem) ∧
      (s.rd F.RST_DUMP_STATUS_held = 1 → Completes .dump s fun t => t.rd F.RST_STATUS_refused = 1 ∧ t.rd F.RST_STATUS_reason = 4 ∧ t.rst = s.rst ∧ t.mem = s.mem) ∧
      (s.rd F.RST_DUMP_STATUS_held = 0 → Completes .dump s fun t => t.rd F.RST_DUMP_STATUS_valid = 1 ∧ t.rd F.RST_STATUS_done = 1 ∧
        t.rst.dump.any (fun r => r.trigger == 2 && r.units.length == allDumpUnits.length) = true)) ∧
    (∀ (r : DumpRun) (u : DumpUnit) (kind index : Nat), allDumpUnits.contains (kind, index) = true → s.rst.dump = some r → s.now ≤ r.since + 60 * ms →
        (r.units.find? fun v => v.kind == kind && v.index == index && v.status == 0) = some u →
      Completes (.dumpUnitTimeout kind index) s fun t => t.rst.dump = some { r with units := r.units.map fun v => if v = u then { v with status := 1, data := [] } else v } ∧
        t.rd F.RST_DUMP_NORESP = (s.rd F.RST_DUMP_NORESP + 1) % 2 ^ F.RST_DUMP_NORESP.width) ∧
    (Completes .firmwareReady s fun t => t.rst.booting = false ∧ t.regs = s.regs ∧ t.mem = s.mem) ∧
    (∀ kind index : Nat, allDumpUnits.contains (kind, index) = true →
      Completes (.dumpUnitTimeout kind index) s fun t => t = (s.dumpTimeout kind index).requeue s.pending) ∧
    (s.rst.booting = false → Completes .bootWatchdogExpiry s fun t => t.regs = s.regs ∧ t.mem = s.mem) ∧
    (s.rst.booting = true → Completes .bootWatchdogExpiry s fun t => ∃ v : State, v.mem = s.mem ∧ (s.mgt.fwRun = some 0 → v.rd F.MGT_BOOT_skip_a = 1) ∧
      (s.mgt.fwRun = some 1 → v.rd F.MGT_BOOT_skip_b = 1) ∧
      t = (if s.rd F.RST_HIST_tick 2 ≠ 0 ∧ s.ticks ≤ s.rd F.RST_HIST_tick 2 + 60 * tickSecond then v.powerCycle 1 else v.chipReset 6).requeue s.pending)

/-- The rows of power-on, rails and the trip complete so (R494, R523, R525, R527, R531, R533); `State.powerOn` is the start from power-on. -/
def Obligations.PowerAndRails : Prop :=
  ∀ s : State,
    (Completes .resetNAssert s fun t => t.power = .resetHeld ∧ t.pins.fault = false ∧ t.mem = [] ∧ t.slots = []) ∧
    (∀ core : Bool, Completes (.railDeparture core) s fun t => t.power = (if core || s.power == .resetHeld then .resetHeld else .railOut) ∧
      t.pins.fault = false ∧ t.mem = [] ∧ t.slots = []) ∧
    (s.power = .resetHeld → Completes .powerOn s fun t => t = s.powerOn) ∧
    (s.power ≠ .resetHeld → Completes .powerOn s fun t => t = s) ∧
    (s.power = .railOut → Completes .railRestore s fun t => t = s.powerOn) ∧
    (s.power ≠ .railOut → Completes .railRestore s fun t => t = s) ∧
    (s.power = .run → Completes .thermalTrip s fun t => t.power = .tripped ∧ t.pins.fault = true ∧ t.tier.wipe = none ∧ t.mem = s.mem)

/-- The rows of the logbook complete so (R473, R474, R476, R477). -/
def Obligations.LogbookRows : Prop :=
  ∀ s : State, s.power = .run →
    (Completes .logFlushTimer s fun t => t = (s.startPage).requeue s.pending) ∧
    (Completes .logReadDone s fun t => t = (s.logReadDone).requeue s.pending) ∧
    (∀ p : PageProgram, s.log.page = some p → (s.inject 0x0401 0 64 Status.ok).1 = false →
      (Completes (.logPageDone true) s fun t => t = ((s.inject 0x0401 0 64 Status.ok).2.pageDone p).requeue s.pending) ∧
      (Completes (.logPageDone false) s fun t => t = ((s.inject 0x0401 0 64 Status.ok).2.pageFailed p).requeue s.pending)) ∧
    (s.manages true = true → s.log.run = none → Completes .logRead s fun t => t.rd F.LOG_READ_STATUS_busy = 1 ∧ t.mem = s.mem ∧
      t.log = { s.log with run := some (.read (s.rd F.LOG_CURSOR_slot) (s.rd F.LOG_CURSOR_area == 1)) }) ∧
    (s.log.run.isSome = true → Completes .logRead s fun t => t.log.run = s.log.run ∧ t.log.window = s.log.window ∧ t.mem = s.mem) ∧
    (∀ c : Nat, s.log.run = some (.read c true) → Completes .logReadDone s fun t => t.log.run = none ∧ t.rd F.LOG_READ_STATUS_busy = 0 ∧
      t.log.window = padTo 4096 (Tbl.getD s.log.summaries c []) ∧ t.mem = s.mem) ∧
    (∀ c : Nat, s.log.run = some (.read c false) → s.log.bare = false →
      let q := s.log.readFrom c (s.rd F.LOG_STATUS_newest)
      Completes .logReadDone s fun t => t.log.run = none ∧ t.rd F.LOG_READ_STATUS_busy = 0 ∧ t.log.window = padTo 4096 (q.1.flatMap LogRec.bytes) ∧
        t.rd F.LOG_READ_STATUS_count = q.1.length % 2 ^ F.LOG_READ_STATUS_count.width ∧
        t.rd F.LOG_READ_STATUS_skipped = min 2047 (q.2 - q.1.length) % 2 ^ F.LOG_READ_STATUS_skipped.width ∧
        t.rd F.LOG_READ_STATUS_next = (c + q.2) % logSlots % 2 ^ F.LOG_READ_STATUS_next.width ∧ t.mem = s.mem) ∧
    (∀ sum : Bool, s.manages true = true → s.log.run = none → Completes (.logClear sum) s fun t => ∃ v : State, t = (v.stageRec (v.mkRec .LOG .commandDone 2 0 0 0 false)).requeue s.pending ∧
      v.log.flash = [] ∧ v.log.staged = [] ∧ v.log.page = none ∧ v.log.clearPoint = v.log.nextSlot ∧ (sum = true → v.log.summaries = []) ∧
      (sum = false → v.log.summaries = s.log.summaries) ∧ v.regs = s.regs ∧ v.mem = s.mem) ∧
    (s.log.page = none → s.rd F.LOG_STATUS_stopped = 0 → 0 < s.log.closedWaiting → Completes .logFlushTimer s fun t =>
      t.log.page = some ⟨s.log.staged.take (min 8 s.log.closedWaiting), s.log.nextSlot⟩ ∧ t.log.staged = s.log.staged ∧ t.regs = s.regs ∧ t.mem = s.mem) ∧
    (∀ p : PageProgram, s.inj = none → s.log.page = some p →
      (Completes (.logPageDone true) s fun t => t.log.staged = s.log.staged.drop p.recs.length ∧ t.mem = s.mem) ∧
      (s.log.bad.length + 65 ≤ 959 → Completes (.logPageDone false) s fun t => t.log.staged = s.log.staged ∧ t.log.page.isSome = true ∧
        t.rd F.LOG_FLASH_ERR = (s.rd F.LOG_FLASH_ERR + 1) % 2 ^ F.LOG_FLASH_ERR.width ∧ t.mem = s.mem)) ∧
    (Completes .logRecordClose s fun t => t.log.isOpen = false ∧ t.log.staged = s.log.staged ∧ t.regs = s.regs ∧ t.mem = s.mem)

/-- The rows of the snapshot and of injection complete so (R479, R485, R486, R489). -/
def Obligations.SnapshotAndInjection : Prop :=
  ∀ s : State, s.power = .run →
    (s.manages false = true → Completes .telSnapshot s fun t => t.snap = snapRegs.map (fun q => s.counterNow q.1 q.2) ∧ t.regs = s.regs ∧ t.mem = s.mem) ∧
    (∀ c : Nat, s.manages false = true → Completes (.injUnlock false c) s fun t => t.rd F.INJ_UNLOCK_unlock = 0 ∧ t.rd F.TRU_LC_inj_unlocked = 0 ∧ t.mem = s.mem) ∧
    (∀ c : Nat, s.manages false = true →
      let open_ := c = 0xA7 ∧ (s.lay.running.map fun l => l.access.flags.testBit 1) = some true
      (open_ → Completes (.injUnlock true c) s fun t => t.rd F.INJ_UNLOCK_unlock = 1 ∧ t.rd F.TRU_LC_inj_unlocked = 1 ∧ t.mem = s.mem) ∧
      (¬open_ → Completes (.injUnlock true c) s fun t => t.rd F.INJ_UNLOCK_unlock = s.rd F.INJ_UNLOCK_unlock ∧
        t.rd F.TRU_LC_inj_unlocked = s.rd F.TRU_LC_inj_unlocked ∧ t.rd F.INJ_STATUS_refused = 1 ∧ t.rd F.INJ_STATUS_reason = 2 ∧ t.mem = s.mem)) ∧
    (s.manages false = true → s.injAllowed = false → Completes .injArm s fun t => t.inj = s.inj ∧ t.rd F.INJ_STATUS_refused = 1 ∧ t.rd F.INJ_STATUS_reason = 1 ∧ t.mem = s.mem) ∧
    (s.manages false = true → s.injAllowed = true → injPoints.contains (s.rd F.INJ_SEL_point) = false → Completes .injArm s fun t => t.inj = s.inj ∧
      t.rd F.INJ_STATUS_refused = 1 ∧ t.rd F.INJ_STATUS_reason = 3 ∧ t.mem = s.mem) ∧
    (s.manages false = true → s.injAllowed = true → injPoints.contains (s.rd F.INJ_SEL_point) = true → Completes .injArm s fun t =>
      t.inj = some ⟨s.rd F.INJ_SEL_point, s.rd F.INJ_SEL_index, s.rd F.INJ_CTL_every, s.rd F.INJ_CTL_count == 0,
        if s.rd F.INJ_CTL_ptn_en = 1 then some (s.rd F.INJ_CTL_ptn) else none, 0⟩ ∧ t.rd F.INJ_STATUS_armed = 1 ∧
        t.rd F.INJ_STATUS_left = s.rd F.INJ_CTL_count % 2 ^ F.INJ_STATUS_left.width ∧ t.rd F.INJ_STATUS_refused = 0 ∧ t.mem = s.mem) ∧
    (s.manages false = true → Completes .injDisarm s fun t => t.inj = none ∧ t.rd F.INJ_STATUS_armed = 0 ∧ t.rd F.INJ_STATUS_left = 0 ∧ t.rd F.INJ_STATUS_refused = 0 ∧ t.mem = s.mem)

/-- The rows of the credential registers complete so (R496 to R499); `mgtSweep` then frees management connections in ERROR. -/
def Obligations.CredentialPathTwo : Prop :=
  ∀ s : State, s.power = .run →
    (Completes .credentialProve s fun t => t = (s.prove mgtPath2 ((List.range 256).map fun i => Tbl.getD s.mgt.proof i 0)).requeue s.pending) ∧
    (s.rd F.MGT_CFG_idle_min ≠ 0 → Completes .sessionIdleTimeout s fun t => t = (s.endSession).requeue s.pending) ∧
    (s.credStop mgtPath2 = 0 → Completes .credentialChallenge s fun t => t.rd F.MGT_CRED_STATUS_result = 0 ∧ t.mgt.session = s.mgt.session ∧ t.mem = s.mem ∧
      (Tbl.get? t.mgt.challenges mgtPath2).any (fun h => h.since == s.now && h.bytes == t.mgt.chal) = true) ∧
    (s.credStop mgtPath2 ≠ 0 → Completes .credentialChallenge s fun t => t.rd F.MGT_CRED_STATUS_result = s.credStop mgtPath2 ∧
      t.mgt.challenges = s.mgt.challenges ∧ t.mgt.session = s.mgt.session ∧ t.mem = s.mem) ∧
    (let proof := (List.range 256).map fun i => Tbl.getD s.mgt.proof i 0
     let code := s.judgeProof mgtPath2 (Tbl.get? s.mgt.challenges mgtPath2) proof
     (code = 0 → s.mgt.session = none → Completes .credentialProve s fun t => ∃ v : State, t = v.mgtSweep.requeue s.pending ∧
       v.mgt.session = some ⟨none, 0, s.now, 0, []⟩ ∧ v.rd F.MGT_CRED_STATUS_result = 0 ∧ v.rd F.MGT_CRED_STATUS_holder = 2 ∧
       v.rd F.MGT_CRED_STATUS_granted = 1 ∧ Tbl.get? v.mgt.challenges mgtPath2 = none ∧ v.mem = s.mem) ∧
     (code ≠ 0 → Completes .credentialProve s fun t => t.rd F.MGT_CRED_STATUS_result = code ∧ t.mgt.session = s.mgt.session ∧
       Tbl.get? t.mgt.challenges mgtPath2 = none ∧ t.mem = s.mem)) ∧
    (s.pf0Holds = true →
      (Completes .credentialRelinquish s fun t => t.mgt.session = none ∧ t.rd F.MGT_CRED_STATUS_holder = 0 ∧ t.rd F.MGT_CRED_STATUS_granted = 0 ∧ t.mem = s.mem) ∧
      (s.rd F.MGT_CFG_idle_min ≠ 0 → Completes .sessionIdleTimeout s fun t => t.mgt.session = none ∧ t.rd F.MGT_CRED_STATUS_holder = 0 ∧ t.mem = s.mem)) ∧
    (s.pf0Holds = false → Completes .credentialRelinquish s fun t => t = s.requeue s.pending) ∧
    (s.rd F.MGT_CFG_idle_min = 0 → Completes .sessionIdleTimeout s fun t => t = s.requeue s.pending) ∧
    (∀ path : Nat, path < 9 →
      (Completes (.challengeExpiry path) s fun t => Tbl.get? t.mgt.challenges path = none ∧
        (∀ q : Nat, q ≠ path → Tbl.get? t.mgt.challenges q = Tbl.get? s.mgt.challenges q) ∧ t.regs = s.regs ∧ t.mem = s.mem) ∧
      (Completes (.pathLockExpiry path) s fun t => t.mgt.locked.contains path = false ∧ t.regs = s.regs ∧ t.mem = s.mem))

/-- The rows of management messages complete so (R483, R497 to R499, R501, R502). -/
def Obligations.ManagementMessages : Prop :=
  ∀ (s : State) (k : Nat), s.power = .run → k < 8 →
    (∀ (seq off len : Nat) (body : List Byte),
      (Completes (.regRead k seq off len) s fun t => t = (s.regMsg k (seq % 2 ^ 32) (off % 2 ^ 32) (len % 2 ^ 32) none).requeue s.pending) ∧
      (Completes (.regWrite k seq off body) s fun t => t = (s.regMsg k (seq % 2 ^ 32) (off % 2 ^ 32) body.length (some body)).requeue s.pending) ∧
      (Completes (.proof k body) s fun t => t = (s.proofMsg k body).requeue s.pending)) ∧
    (s.mgtOpen k = false → ∀ (body : List Byte) (seq off len : Nat),
      (∀ c ∈ [Instr.challengeReq k, .proof k body, .regRead k seq off len, .regWrite k seq off body], Completes c s fun t => t = s.requeue s.pending)) ∧
    (s.mgtOpen k = true →
      (s.credStop k = 0 → Completes (.challengeReq k) s fun t => ∃ (v : State) (h : Challenge), Tbl.get? v.mgt.challenges k = some h ∧ h.since = s.now ∧
        v.mgt.session = s.mgt.session ∧ v.regs = s.regs ∧ v.mem = s.mem ∧ t = (v.mgtSend k 0x4D470002 h.bytes).requeue s.pending) ∧
      (s.credStop k ≠ 0 → Completes (.challengeReq k) s fun t =>
        t = ((s.logRefused .MGT (s.credStop k) k).mgtSend k 0x4D470004 (leBytes 1 (s.credStop k) ++ leBytes 3 0)).requeue s.pending) ∧
      (∀ body : List Byte, body.length ≠ 256 → Completes (.proof k body) s fun t => t.mgt.session = s.mgt.session ∧ t.mgt.challenges = s.mgt.challenges ∧
        t.rd F.MGT_MSG_DROP = (s.rd F.MGT_MSG_DROP + 1) % 2 ^ F.MGT_MSG_DROP.width ∧ t.mem = s.mem) ∧
      (∀ (body : List Byte) (e : Conn), body.length = 256 → s.conn? (mgtConnBase + k) = some e →
        let code := s.judgeProof k (Tbl.get? s.mgt.challenges k) body
        (code ≠ 0 → Completes (.proof k body) s fun t => ∃ v : State, t = (v.credResult k code).requeue s.pending ∧ v.mgt.session = s.mgt.session ∧
          Tbl.get? v.mgt.challenges k = none ∧ v.regs = s.regs ∧ v.mem = s.mem) ∧
        (code = 0 → s.mgt.session = none → Completes (.proof k body) s fun t => ∃ v : State,
          t = (v.mgtSend k 0x4D470004 (leBytes 1 0 ++ leBytes 3 0)).mgtSweep.requeue s.pending ∧ v.mgt.session = some ⟨some k, e.epoch, s.now, 0, []⟩ ∧
          Tbl.get? v.mgt.granting k = some e.nextMsn ∧ Tbl.get? v.mgt.challenges k = none ∧ v.rd F.MGT_CRED_STATUS_holder = 1 ∧
          v.rd F.MGT_CRED_STATUS_conn = k ∧ (Tbl.get? v.mslots (2 * k)).any (fun m => m.state == .loaded && !m.decrypt) = true ∧
          (Tbl.get? v.mslots (2 * k + 1)).any (fun m => m.state == .loaded && m.decrypt) = true ∧ v.mem = s.mem)) ∧
      (s.connHolds k = false → (s.conn? (mgtConnBase + k)).any (·.enc) = false → ∀ (body : List Byte) (seq off len : Nat),
        (∀ c ∈ [Instr.regRead k seq off len, .regWrite k seq off body, .relinquish k], Completes c s fun t =>
          t = (s.bump F.MGT_MSG_DROP).requeue s.pending)) ∧
      (∀ (z : Session) (off len : Nat) (data : List Byte), s.mgt.session = some z → z.conn = some k → z.held = [] → z.seq < 2 ^ 32 → off < 2 ^ 32 → len < 2 ^ 32 →
          data.length < 2 ^ 32 →
        let base : State := { s with mgt := { s.mgt with session := some { z with last := s.now, seq := (z.seq + 1) % 2 ^ 32 } } }
        let answered := fun (t v : State) (status : Nat) (got : List Byte) =>
          t = (((v.regResp k z.seq status got).mgtSweep).runRegs k 65).requeue s.pending
        let waits := fun (t : State) => (∃ b : Nat × List Byte, t.mgt.session = some { z with last := s.now, held := Tbl.set z.held z.seq b }) ∧
          t.regs = s.regs ∧ t.mem = s.mem ∧ t.outbox = s.outbox
        (regRangeOk off len = false → Completes (.regRead k z.seq off len) s fun t => answered t base 1 []) ∧
        (regRangeOk off data.length = false → Completes (.regWrite k z.seq off data) s fun t => answered t base 1 []) ∧
        (regRangeOk off len = true → s.reaches off len = false → Completes (.regRead k z.seq off len) s waits) ∧
        (regRangeOk off data.length = true → s.reaches off data.length = false → Completes (.regWrite k z.seq off data) s waits) ∧
        (regRangeOk off len = true → s.reaches off len = true → Completes (.regRead k z.seq off len) s fun t =>
          answered t (base.readRange .conn off len).2 0 (base.readRange .conn off len).1) ∧
        (regRangeOk off data.length = true → s.reaches off data.length = true → Completes (.regWrite k z.seq off data) s fun t => ∃ w : State,
          w = (accessUnits (data.length / 4) off data.length).foldl
            (fun (s : State) u => s.writeAt .conn 0 u.1 (slice data (u.1 - off) u.2)) base ∧
          answered t w (if w.wrefused = s.wrefused then 0 else 2) []))) ∧
    (∀ (z : Session) (seq off len : Nat) (data : List Byte), s.mgtOpen k = true → s.mgt.session = some z → z.conn = some k → z.seq < 2 ^ 32 → seq < 2 ^ 32 →
        2 ^ 31 ≤ (seq + 2 ^ 32 - z.seq) % 2 ^ 32 →
      ∀ c ∈ [Instr.regRead k seq off len, .regWrite k seq off data], Completes c s fun t => t = (s.touchSession.bump F.MGT_MSG_DROP).requeue s.pending) ∧
    (∀ (m : Nat) (z : Session) (e : Conn), Tbl.get? s.mgt.granting k = some m →
      let v := State.advanceEpoch { s with mgt := { s.mgt with granting := Tbl.erase s.mgt.granting k } } (mgtConnBase + k)
      v.conn? (mgtConnBase + k) = some e → v.mgt.session = some z → z.conn = some k → Completes (.resultAcknowledged k) s fun t =>
        Tbl.get? t.mgt.granting k = none ∧ t.conn? (mgtConnBase + k) = some { e with enc := true } ∧ t.mgt.session = some { z with epoch := e.epoch } ∧ t.mem = v.mem) ∧
    (∀ z : Session, s.mgt.session = some z → z.conn = some k → ∃ v : State, v.mgt.session = none ∧ v.rd F.MGT_CRED_STATUS_holder = 0 ∧ v.mem = s.mem ∧
      (Completes (.relinquish k) s fun t => t = ((z.held.foldl (fun (s : State) q => s.regResp k q.1 3 []) v).closeMgt k).requeue s.pending) ∧
      (s.rd F.MGT_CFG_idle_min ≠ 0 → Completes .sessionIdleTimeout s fun t =>
        t = ((z.held.foldl (fun (s : State) q => s.regResp k q.1 3 []) v).closeMgt k).requeue s.pending))

/-- The rows of the tray bus complete so (R464, R503 to R505, R507). -/
def Obligations.TrayBus : Prop :=
  ∀ s : State, s.power = .run →
    (Completes .announceTimer s fun t => t = (s.trayPut 3 macAll 1 s.statusBody).requeue s.pending) ∧
    (s.rd F.RST_STATUS_retired = 1 → Completes .retiredMessageTimer s fun t => t = (s.trayPut 0 macAll 4 (leBytes 1 (s.rd F.RST_LAST_cause))).requeue s.pending) ∧
    (s.mgt.sending = none ∨ s.mgt.backoff = true → Completes .trayCollision s fun t => t = s) ∧
    let fits := fun (f : TrayIn) (n : Nat) => f.fcsOk && decide (64 ≤ f.len) && decide (f.len ≤ s.rd F.MGT_CFG_max_frame) &&
      (f.dst == s.rd F.MGT_MAC_mac || f.dst == macAll) && f.ethType == 0x88B5 && f.version == 1 && f.bodyLen == n && f.body.length == n
    (∀ f : TrayIn,
      (fits f 0 = true → Completes (.query f) s fun t => t.rd F.MGT_RX_FRAMES = (s.rd F.MGT_RX_FRAMES + 1) % 2 ^ F.MGT_RX_FRAMES.width ∧
        t.rd F.MGT_TC_MAC_tc_mac = f.src % 2 ^ F.MGT_TC_MAC_tc_mac.width ∧ t.mgt.traySeq = (s.mgt.traySeq + 1) % 65536 ∧ t.mem = s.mem ∧
        (s.mgt.sending = none → t.mgt.sending = some ⟨2, f.src, 2, s.mgt.traySeq, s.statusBody, 0⟩)) ∧
      (fits f 0 = false → Completes (.query f) s fun t => t = (s.bump F.MGT_RX_DROP).requeue s.pending) ∧
      (fits f 2 = false → Completes (.pcAck f) s fun t => t = (s.bump F.MGT_RX_DROP).requeue s.pending) ∧
      (∀ c : CycleReq, fits f 2 = true → s.mgt.cycle = some c → Completes (.pcAck f) s fun t =>
        t.rd F.MGT_RX_FRAMES = (s.rd F.MGT_RX_FRAMES + 1) % 2 ^ F.MGT_RX_FRAMES.width ∧ t.mgt.cycle = (if c.seqs.contains (ofLE f.body) then none else some c) ∧
        t.mem = s.mem)) ∧
    (s.mgt.sending = none → Completes .announceTimer s fun t => t.mgt.sending = some ⟨3, macAll, 1, s.mgt.traySeq, s.statusBody, 0⟩ ∧ t.regs = s.regs ∧ t.mem = s.mem) ∧
    (s.rd F.RST_STATUS_retired = 1 → s.mgt.sending = none → Completes .retiredMessageTimer s fun t =>
      t.mgt.sending = some ⟨0, macAll, 4, s.mgt.traySeq, leBytes 1 (s.rd F.RST_LAST_cause), 0⟩ ∧ t.regs = s.regs ∧ t.mem = s.mem) ∧
    (s.rd F.RST_STATUS_retired = 0 → Completes .retiredMessageTimer s fun t => t = s.requeue s.pending) ∧
    (s.mgt.cycle = none → Completes .powerCycleReqTimer s fun t => t = s.requeue s.pending) ∧
    (∀ c : CycleReq, s.mgt.cycle = some c → Completes .powerCycleReqTimer s fun t => t.mgt.cycle.any (fun d => d.why == c.why && d.since == c.since &&
        d.late == (c.late || decide (c.since + 10 * sec ≤ s.now)) && d.seqs.length == c.seqs.length + 1) = true ∧ t.mem = s.mem) ∧
    (Completes .mgtBackoffExpiry s fun t => t.mgt.backoff = false ∧ t.regs = s.regs ∧ t.mem = s.mem) ∧
    (∀ f : TrayFrame, s.mgt.sending = some f → s.mgt.backoff = false →
      (f.tries < 15 → Completes .trayCollision s fun t => t.mgt.sending = some { f with tries := f.tries + 1 } ∧ t.mgt.backoff = true ∧
        t.rd F.MGT_COLLISIONS = (s.rd F.MGT_COLLISIONS + 1) % 2 ^ F.MGT_COLLISIONS.width ∧ t.mem = s.mem) ∧
      (15 ≤ f.tries → Completes .trayCollision s fun t => t.mgt.backoff = false ∧
        t.rd F.MGT_COLLISIONS = (s.rd F.MGT_COLLISIONS + 1) % 2 ^ F.MGT_COLLISIONS.width ∧
        t.rd F.MGT_EXCESS_COLL = (s.rd F.MGT_EXCESS_COLL + 1) % 2 ^ F.MGT_EXCESS_COLL.width ∧ t.mem = s.mem))

/-- The rows of firmware, of channel failures and of transmission complete so (R293, R358, R492, R508). -/
def Obligations.FirmwareSlotsAndTransmission : Prop :=
  ∀ s : State, s.power = .run →
    (∀ p : Nat, s.lportExists p = true → Completes (.frameTransmit p) s fun t => t = (s.transmit p).requeue s.pending) ∧
    (∀ (c : Instr) (slot : Nat), s.manages true = true → (c, slot) ∈ [(.fwProgramA, 0), (.fwProgramB, 1)] →
      let stop := if s.mgt.fwProg.isSome then 13 else if s.rd F.LAY_STATUS_busy = 1 then 11 else if s.mgt.fwRun = some slot then 10 else 0
      (stop ≠ 0 → Completes c s fun t => t.rd F.MGT_FW_STATUS_refused = 1 ∧ t.rd F.MGT_FW_STATUS_reason = stop ∧ t.mgt.fw = s.mgt.fw ∧
        t.mgt.fwProg = s.mgt.fwProg ∧ t.mem = s.mem) ∧
      (∀ r : Nat, stop = 0 → s.fwCheck s.stagedFw = .error r → Completes c s fun t => t.mgt.fwProg = s.mgt.fwProg ∧ t.mgt.fw = s.mgt.fw ∧
        t.rd F.MGT_FW_STATUS_reason = r % 2 ^ F.MGT_FW_STATUS_reason.width ∧ t.mem = s.mem) ∧
      (∀ h : FwHdr, stop = 0 → s.fwCheck s.stagedFw = .ok h → Completes c s fun t => t.mgt.fwProg = some (slot, s.stagedFw) ∧ t.mgt.fw = s.mgt.fw ∧
        t.rd F.MGT_FW_STATUS_busy = 1 ∧ t.rd F.MGT_FW_STATUS_refused = 0 ∧ t.mem = s.mem)) ∧
    (∀ (slot : Nat) (img : List Byte), slot < 2 → s.mgt.fwProg = some (slot, img) →
      (Completes (.fwProgramDone true) s fun t => t.mgt.fwProg = none ∧ Tbl.get? t.mgt.fw slot = some img ∧ t.rd F.MGT_FW_STATUS_busy = 0 ∧
        t.rd F.MGT_FW_STATUS_done = 1 ∧ t.rd (if slot = 0 then F.MGT_BOOT_skip_a else F.MGT_BOOT_skip_b) = 0 ∧ t.mem = s.mem) ∧
      (Completes (.fwProgramDone false) s fun t => t.mgt.fwProg = none ∧ Tbl.get? t.mgt.fw slot = none ∧ t.rd F.MGT_FW_STATUS_busy = 0 ∧
        t.rd F.MGT_FW_STATUS_refused = 1 ∧ t.rd F.MGT_FW_STATUS_reason = 12 ∧ t.mem = s.mem)) ∧
    (∀ x : Nat, x < 8 →
      (s.rd F.DDR_CH_state x = 1 → Completes (.ddrChannelFail x) s fun t => t.rd F.DDR_CH_state x = 3 ∧ t.tier.fenced.contains (128 + x) = true ∧ t.mem = s.mem) ∧
      (s.rd F.DDR_CH_state x ≠ 1 → Completes (.ddrChannelFail x) s fun t => t = s.requeue s.pending)) ∧
    (∀ p : Nat, s.lportExists p = true →
      (s.portUp p = false ∨ ((s.lport p).again = [] ∧ s.nextFrame p = none) → Completes (.frameTransmit p) s fun t => t = s.requeue s.pending) ∧
      (∀ (i : Nat) (q : Queued), s.portUp p = true → (s.lport p).again = [] → s.nextFrame p = some i → s.egress[i]? = some q →
        (s.rd F.PRT_LP_max_frame p < (s.frameOf q (s.dataShim p 0 0 0)).len → Completes (.frameTransmit p) s fun t =>
          t = (s.dropOversize i q).requeue s.pending) ∧
        ((s.frameOf q (s.dataShim p 0 0 0)).len ≤ s.rd F.PRT_LP_max_frame p → s.replayRoom p q.len = true →
          Completes (.frameTransmit p) s fun t => t = (s.sendQueued i q).requeue s.pending) ∧
        ((s.frameOf q (s.dataShim p 0 0 0)).len ≤ s.rd F.PRT_LP_max_frame p → s.replayRoom p q.len = false →
          Completes (.frameTransmit p) s fun t => t = s.requeue s.pending)) ∧
      (∀ (hsn : Nat) (l : List Nat), s.portUp p = true → (s.lport p).again = hsn :: l → Completes (.frameTransmit p) s fun t =>
        t = (s.sendReplay p hsn).requeue s.pending ∧ (t.lport p).again = l))

/-- On an empty queue one ember clock passes (R443, R444; that a step without a command is such a tick is the model's choice, log entry 1). -/
def Obligations.EmptyQueuePassesAClock : Prop :=
  ∀ s : State, s.pending = [] → ∃ t, step s = .next t ∧ (s.inj = none → t.pending = [] ∧ t.now = s.now + 80 ∧ (s.mgt.sending = none →
    t = { s with now := s.now + 80, ticks := if s.power = .run ∨ s.power = .tripped then s.ticks + 1 else s.ticks }))

/-- The rule that splits the elements of an operation among its ranks, stated of the model's `shard` (R120). -/
def Obligations.ShardsSplitTheElements : Prop :=
  ∀ n count : Nat, 0 < n →
    let b := ceilDiv count 32
    let owns := fun (r e : Nat) => (shard r n count).1 ≤ e ∧ e < (shard r n count).2
    (32 * b < count + 32 ∧ count ≤ 32 * b) ∧
    (∀ r e : Nat, r < n → e < count → (owns r e ↔ r * b / n ≤ e / 32 ∧ e / 32 < (r + 1) * b / n)) ∧
    (∀ e : Nat, e < count → ∃ r : Nat, r < n ∧ owns r e ∧ ∀ q : Nat, q < n → owns q e → q = r) ∧
    (∀ r : Nat, r < n → (shard r n count).1 % 32 = 0 ∧ ((shard r n count).2 % 32 = 0 ∨ (shard r n count).2 = count) ∧ (shard r n count).2 ≤ count)

/-- The rule of the transmit queues, stated of `trayPut`, which every message goes through, and `traySend`, the end of a transmission (R504). -/
def Obligations.TrayQueues : Prop :=
  (∀ (s : State) (q dst typ : Nat) (body : List Byte) (g : TrayFrame), q < 4 → s.mgt.sending = some g →
    let held := fun (z : State) (p : Nat) => (z.mgt.tray.filter fun f => f.queue == p).length
    let t := s.trayPut q dst typ body
    t.mgt.sending = some g ∧
      (held s q < 16 → t.mgt.tray = s.mgt.tray ++ [⟨q, dst, typ, s.mgt.traySeq, body, 0⟩] ∧ t.regs = s.regs) ∧
      (16 ≤ held s q → t.mgt.tray = s.mgt.tray ∧ t.rd F.MGT_TX_DROP = (s.rd F.MGT_TX_DROP + 1) % 2 ^ F.MGT_TX_DROP.width) ∧
      ((∀ p : Nat, p < 4 → held s p ≤ 16) → ∀ p : Nat, p < 4 → held t p ≤ 16)) ∧
  (∀ (s : State) (g : TrayFrame), s.mgt.sending = some g → s.mgt.backoff = false → (∀ f ∈ s.mgt.tray, f.queue < 4) →
    (s.mgt.tray = [] → s.traySend.mgt.sending = none) ∧
    (∀ f : TrayFrame, f ∈ s.mgt.tray → (∀ h ∈ s.mgt.tray, f.queue ≤ h.queue) → (s.mgt.tray.find? fun h => h.queue == f.queue) = some f →
      s.traySend.mgt.sending = some f ∧ s.traySend.mgt.tray = s.mgt.tray.filter fun h => h.seq != f.seq))

/-- The rule of what tray messages may do, over the two that the device receives (R506). -/
def Obligations.TrayMessagesGrantNothing : Prop :=
  ∀ (s t : State) (f : TrayIn), exec (.query f) s = .next t ∨ exec (.pcAck f) s = .next t →
    t.mgt.session = s.mgt.session ∧ t.mgt.challenges = s.mgt.challenges ∧ t.mgt.granting = s.mgt.granting ∧ t.mem = s.mem ∧ t.slots = s.slots ∧
      t.mslots = s.mslots ∧ t.insts = s.insts ∧ t.parts = s.parts ∧ t.lay = s.lay ∧ t.power = s.power ∧
      ∀ (r : Reg) (i : Nat), r ∉ [Reg.MGT_TC_MAC, .MGT_RX_FRAMES, .MGT_RX_DROP, .MGT_TX_DROP] → t.reg r i = s.reg r i

/-- The frames of the commands that work on registers alone (R396, R406, R408, R412, R435, R437, R450, R476, R485, R489, R508). -/
def Obligations.FramesOfRegisterCommands : Prop :=
  ∀ (s t : State) (path : Path) (a b c : Nat) (x : Bool) (cmd : Instr) (rs : List Reg),
    (cmd, rs) ∈ [(Instr.keyWordWrite path a b, [Reg.CPH_KEY_STATUS]), (.keyStageTimeout, [.CPH_KEY_STATUS]), (.attest, [.TRU_STATUS]),
      (.attestDone, [.TRU_STATUS]), (.revoke a x, [.TRU_STATUS, .TRU_BOOT]), (.raiseFwFloor x, [.TRU_STATUS, .TRU_BOOT]), (.burnPolarity x, [.TRU_STATUS]),
      (.tamperCfgWrite a b, [.TRU_TAMPER_CFG]), (.injUnlock x a, [.INJ_UNLOCK, .TRU_LC, .INJ_STATUS]), (.injArm, [.INJ_STATUS]),
      (.injDisarm, [.INJ_STATUS]), (.logRead, [.LOG_READ_STATUS]), (.telSnapshot, []), (.privWake a, []), (.privRelease a, []),
      (.kindle a, [.PWR_KINDLE, .PWR_EVT, .PWR_DOM, .PWR_HELD_PRIV]), (.domainFloorWrite a b x c, [.PWR_DOM, .PWR_KINDLE, .PWR_EVT, .PWR_STATUS]),
      (.fwProgramA, [.MGT_FW_STATUS]), (.fwProgramB, [.MGT_FW_STATUS]), (.challengeExpiry a, []), (.pathLockExpiry a, [])] →
    exec cmd s = .next t →
    t.mem = s.mem ∧ t.insts = s.insts ∧ t.parts = s.parts ∧ t.ops = s.ops ∧ t.bxt = s.bxt ∧ t.rings = s.rings ∧ t.slots = s.slots ∧ t.mslots = s.mslots ∧
      t.xlt = s.xlt ∧ t.pins = s.pins ∧ ∀ (r : Reg) (i : Nat), r.isLog = false → r ∉ rs → t.reg r i = s.reg r i
end

