-- ==== Sys2Proof/Laws/Table.lean ====
section
/-!
SUPPORT. Sparse tables: reading after listing or taking out, and the canonical form that both keep.
-/

namespace Sys2Proof.Machine

theorem Tbl.get?_set_self {α : Type} (t : Tbl α) (q : Nat) (v : α) : Tbl.get? (Tbl.set t q v) q = some v := by
  induction t with
  | nil => simp [Tbl.set, Tbl.get?]
  | cons x t ih =>
    obtain ⟨k, w⟩ := x
    by_cases h1 : q < k
    · simp [Tbl.set, Tbl.get?, h1]
    · by_cases h2 : q = k
      · simp [Tbl.set, Tbl.get?, h2]
      · simp [Tbl.set, Tbl.get?, h1, h2, Ne.symm h2, ih]

theorem Tbl.get?_set_ne {α : Type} (t : Tbl α) (p q : Nat) (v : α) (h : p ≠ q) : Tbl.get? (Tbl.set t q v) p = Tbl.get? t p := by
  induction t with
  | nil => simp [Tbl.set, Tbl.get?, Ne.symm h]
  | cons x t ih =>
    obtain ⟨k, w⟩ := x
    by_cases h1 : q < k
    · simp [Tbl.set, Tbl.get?, h1, Ne.symm h]
    · by_cases h2 : q = k
      · subst h2; simp [Tbl.set, Tbl.get?, Ne.symm h]
      · simp [Tbl.set, Tbl.get?, h1, h2, ih]

theorem Tbl.get?_set {α : Type} (t : Tbl α) (p q : Nat) (v : α) :
    Tbl.get? (Tbl.set t q v) p = if p = q then some v else Tbl.get? t p := by
  by_cases h : p = q
  · subst h; simp [Tbl.get?_set_self]
  · simp [h, Tbl.get?_set_ne]

theorem Tbl.get?_erase {α : Type} (t : Tbl α) (p q : Nat) :
    Tbl.get? (Tbl.erase t q) p = if p = q then none else Tbl.get? t p := by
  induction t with
  | nil => simp [Tbl.erase, Tbl.get?]
  | cons x t ih =>
    obtain ⟨k, w⟩ := x
    by_cases h1 : k = q
    · subst h1
      by_cases h2 : p = k
      · subst h2; rw [show Tbl.erase ((p, w) :: t) p = Tbl.erase t p by simp [Tbl.erase], ih]; simp
      · simp [Tbl.erase, Tbl.get?, ih, h2, Ne.symm h2]
    · by_cases h2 : k = p
      · subst h2; simp [Tbl.erase, Tbl.get?, h1]
      · simp [Tbl.erase, Tbl.get?, h1, h2, ih]

@[simp] theorem Tbl.getD_set_self {α : Type} (t : Tbl α) (q : Nat) (v d : α) : Tbl.getD (Tbl.set t q v) q d = v := by
  simp [Tbl.getD, Tbl.get?_set_self]

/-- Every listed key is above a bound. -/
def Tbl.above {α : Type} (b : Nat) (t : Tbl α) : Prop := ∀ x ∈ t, b < x.1

theorem Tbl.wf_cons {α : Type} (k : Nat) (w : α) (t : Tbl α) : Tbl.wf ((k, w) :: t) = true ↔ Tbl.above k t ∧ Tbl.wf t = true := by
  induction t generalizing k w with
  | nil => simp [Tbl.wf, Tbl.above]
  | cons x t ih =>
    obtain ⟨q, v⟩ := x
    have hq := ih q v
    simp only [Tbl.wf, Bool.and_eq_true, decide_eq_true_eq]
    constructor
    · rintro ⟨h, hw⟩
      refine ⟨?_, hw⟩
      intro y hy
      rcases List.mem_cons.1 hy with rfl | hy
      · exact h
      · exact Nat.lt_trans h ((hq.1 hw).1 y hy)
    · rintro ⟨h, hw⟩
      exact ⟨h (q, v) (by simp), hw⟩

theorem Tbl.above_set {α : Type} (b : Nat) (t : Tbl α) (q : Nat) (v : α) (h : Tbl.above b t) (hb : b < q) : Tbl.above b (Tbl.set t q v) := by
  induction t with
  | nil => intro y hy; simp [Tbl.set] at hy; simp [hy, hb]
  | cons x t ih =>
    obtain ⟨k, w⟩ := x
    have hk : b < k := h (k, w) (by simp)
    have ht : Tbl.above b t := fun y hy => h y (by simp [hy])
    intro y hy
    by_cases h1 : q < k
    · simp [Tbl.set, h1] at hy
      rcases hy with rfl | rfl | hy
      · exact hb
      · exact hk
      · exact ht y hy
    · by_cases h2 : q = k
      · simp [Tbl.set, h2] at hy
        rcases hy with rfl | hy
        · exact hk
        · exact ht y hy
      · simp [Tbl.set, h1, h2] at hy
        rcases hy with rfl | hy
        · exact hk
        · exact ih ht y hy

/-- Listing a value keeps the canonical form. -/
theorem Tbl.wf_set {α : Type} (t : Tbl α) (q : Nat) (v : α) (h : Tbl.wf t = true) : Tbl.wf (Tbl.set t q v) = true := by
  induction t with
  | nil => simp [Tbl.set, Tbl.wf]
  | cons x t ih =>
    obtain ⟨k, w⟩ := x
    have hk := (Tbl.wf_cons k w t).1 h
    by_cases h1 : q < k
    · rw [show Tbl.set ((k, w) :: t) q v = (q, v) :: (k, w) :: t by simp [Tbl.set, h1], Tbl.wf_cons]
      refine ⟨?_, h⟩
      intro y hy
      rcases List.mem_cons.1 hy with rfl | hy
      · exact h1
      · exact Nat.lt_trans h1 (hk.1 y hy)
    · by_cases h2 : q = k
      · rw [show Tbl.set ((k, w) :: t) q v = (k, v) :: t by simp [Tbl.set, h2], Tbl.wf_cons]
        exact hk
      · rw [show Tbl.set ((k, w) :: t) q v = (k, w) :: Tbl.set t q v by simp [Tbl.set, h1, h2], Tbl.wf_cons]
        exact ⟨Tbl.above_set k t q v hk.1 (by omega), ih hk.2⟩

theorem Tbl.above_sub {α : Type} (b : Nat) {t u : Tbl α} (h : Tbl.above b t) (hs : ∀ x ∈ u, x ∈ t) : Tbl.above b u := fun x hx => h x (hs x hx)

/-- Keeping some of the entries keeps the canonical form. -/
theorem Tbl.wf_filter {α : Type} (t : Tbl α) (p : Nat × α → Bool) (h : Tbl.wf t = true) : Tbl.wf (t.filter p) = true := by
  induction t with
  | nil => simp [Tbl.wf]
  | cons x t ih =>
    obtain ⟨k, w⟩ := x
    have hk := (Tbl.wf_cons k w t).1 h
    by_cases hp : p (k, w)
    · rw [List.filter_cons_of_pos hp, Tbl.wf_cons]
      exact ⟨Tbl.above_sub k hk.1 (fun y hy => (List.mem_filter.1 hy).1), ih hk.2⟩
    · rw [List.filter_cons_of_neg hp]
      exact ih hk.2

theorem Tbl.erase_eq_filter {α : Type} (t : Tbl α) (q : Nat) : Tbl.erase t q = t.filter fun x => x.1 != q := by
  induction t with
  | nil => rfl
  | cons x t ih =>
    obtain ⟨k, w⟩ := x
    by_cases h : k = q
    · simp [Tbl.erase, h, ih]
    · simp [Tbl.erase, h, ih]

/-- Taking a key out keeps the canonical form. -/
theorem Tbl.wf_erase {α : Type} (t : Tbl α) (q : Nat) (h : Tbl.wf t = true) : Tbl.wf (Tbl.erase t q) = true := by
  rw [Tbl.erase_eq_filter]; exact Tbl.wf_filter t _ h

end Sys2Proof.Machine
end

