-- ==== Sys2Proof/Laws/Regs.lean ====
section
/-!
SUPPORT. Registers and their fields: what a field reads as after a write of it, of another field of the same register, and of another
register.
-/

namespace Sys2Proof.Machine

theorem Reg.ctorIdx_lt (r : Reg) : r.ctorIdx < 512 := by cases r <;> decide

theorem Reg.ctorIdx_inj {a b : Reg} (h : a.ctorIdx = b.ctorIdx) : a = b := by
  have := congrArg Reg.ofNat h
  rwa [Reg.ofNat_ctorIdx, Reg.ofNat_ctorIdx] at this

/-- Two copies of registers share a key only when they are one. -/
theorem Reg.key_inj {a b : Reg} {i j : Nat} (h : a.key i = b.key j) : a = b ∧ i = j := by
  unfold Reg.key at h
  have ha := a.ctorIdx_lt
  have hb := b.ctorIdx_lt
  exact ⟨Reg.ctorIdx_inj (by omega), by omega⟩

@[simp] theorem State.reg_setReg_self (s : State) (r : Reg) (i : Nat) (v : Word) : (s.setReg r i v).reg r i = v := by
  simp [State.reg, State.setReg, Tbl.get?_set_self]

theorem State.reg_setReg_ne (s : State) (q r : Reg) (i j : Nat) (v : Word) (h : q ≠ r ∨ i ≠ j) : (s.setReg r j v).reg q i = s.reg q i := by
  have : q.key i ≠ r.key j := fun e => by obtain ⟨h1, h2⟩ := Reg.key_inj e; rcases h with h | h <;> contradiction
  simp [State.reg, State.setReg, Tbl.get?_set_ne _ _ _ _ this]

theorem putBits_lt (v lo w x : Nat) (hv : v < 2 ^ 64) (hw : lo + w ≤ 64) : putBits v lo w x < 2 ^ 64 := by
  unfold putBits
  have h1 : v % 2 ^ lo < 2 ^ lo := Nat.mod_lt _ (Nat.two_pow_pos lo)
  have h2 : x % 2 ^ w < 2 ^ w := Nat.mod_lt _ (Nat.two_pow_pos w)
  obtain ⟨k, hk⟩ : ∃ k, 64 = (lo + w) + k := ⟨64 - (lo + w), by omega⟩
  have h3 : v / 2 ^ (lo + w) < 2 ^ k := by
    rw [Nat.div_lt_iff_lt_mul (Nat.two_pow_pos _), ← pow_add, Nat.add_comm, ← hk]; exact hv
  have e1 : (2 : Nat) ^ (lo + w) = 2 ^ lo * 2 ^ w := by rw [pow_add]
  have e2 : (2 : Nat) ^ 64 = 2 ^ k * 2 ^ (lo + w) := by rw [← pow_add]; congr 1; omega
  rw [e2]
  have h4 : v % 2 ^ lo + x % 2 ^ w * 2 ^ lo < 2 ^ (lo + w) := by
    rw [e1]
    calc v % 2 ^ lo + x % 2 ^ w * 2 ^ lo < 2 ^ lo + x % 2 ^ w * 2 ^ lo := by omega
      _ = (x % 2 ^ w + 1) * 2 ^ lo := by ring
      _ ≤ 2 ^ w * 2 ^ lo := Nat.mul_le_mul_right _ h2
      _ = 2 ^ lo * 2 ^ w := Nat.mul_comm _ _
  calc v % 2 ^ lo + x % 2 ^ w * 2 ^ lo + v / 2 ^ (lo + w) * 2 ^ (lo + w)
      < 2 ^ (lo + w) + v / 2 ^ (lo + w) * 2 ^ (lo + w) := by omega
    _ = (v / 2 ^ (lo + w) + 1) * 2 ^ (lo + w) := by ring
    _ ≤ 2 ^ k * 2 ^ (lo + w) := Nat.mul_le_mul_right _ h3

theorem bitsOf_putBits_self (v lo w x : Nat) : bitsOf (putBits v lo w x) lo w = x % 2 ^ w := by
  unfold bitsOf putBits
  have h1 : v % 2 ^ lo < 2 ^ lo := Nat.mod_lt _ (Nat.two_pow_pos lo)
  have e1 : (2 : Nat) ^ (lo + w) = 2 ^ w * 2 ^ lo := by rw [pow_add, Nat.mul_comm]
  have : v % 2 ^ lo + x % 2 ^ w * 2 ^ lo + v / 2 ^ (lo + w) * 2 ^ (lo + w) = v % 2 ^ lo + (x % 2 ^ w + v / 2 ^ (lo + w) * 2 ^ w) * 2 ^ lo := by
    rw [e1]; ring
  rw [this, Nat.add_mul_div_right _ _ (Nat.two_pow_pos lo), Nat.div_eq_of_lt h1, Nat.zero_add, Nat.add_mul_mod_self_right, Nat.mod_mod]

theorem bitsOf_putBits_below (v lo w x l m : Nat) (h : l + m ≤ lo) : bitsOf (putBits v lo w x) l m = bitsOf v l m := by
  unfold bitsOf putBits
  obtain ⟨d, hd⟩ : ∃ d, lo = l + m + d := ⟨lo - (l + m), by omega⟩
  set y := x % 2 ^ w
  set z := v / 2 ^ (lo + w)
  have e : v = v % 2 ^ lo + v / 2 ^ lo * 2 ^ lo := by rw [Nat.mul_comm]; exact (Nat.mod_add_div v (2 ^ lo)).symm
  have key : ∀ a b : Nat, (a + b * 2 ^ lo) / 2 ^ l % 2 ^ m = a / 2 ^ l % 2 ^ m := by
    intro a b
    have : a + b * 2 ^ lo = a + (b * 2 ^ d * 2 ^ m) * 2 ^ l := by rw [hd, pow_add, pow_add]; ring
    rw [this, Nat.add_mul_div_right _ _ (Nat.two_pow_pos l), Nat.add_mul_mod_self_right]
  have : v % 2 ^ lo + y * 2 ^ lo + z * 2 ^ (lo + w) = v % 2 ^ lo + (y + z * 2 ^ w) * 2 ^ lo := by rw [pow_add]; ring
  rw [this, key]
  conv_rhs => rw [e]
  rw [key]

theorem bitsOf_putBits_above (v lo w x l m : Nat) (h : lo + w ≤ l) : bitsOf (putBits v lo w x) l m = bitsOf v l m := by
  unfold bitsOf putBits
  obtain ⟨d, hd⟩ : ∃ d, l = lo + w + d := ⟨l - (lo + w), by omega⟩
  have h1 : v % 2 ^ lo < 2 ^ lo := Nat.mod_lt _ (Nat.two_pow_pos lo)
  have h2 : x % 2 ^ w < 2 ^ w := Nat.mod_lt _ (Nat.two_pow_pos w)
  have h4 : v % 2 ^ lo + x % 2 ^ w * 2 ^ lo < 2 ^ (lo + w) := by
    rw [pow_add]
    calc v % 2 ^ lo + x % 2 ^ w * 2 ^ lo < 2 ^ lo + x % 2 ^ w * 2 ^ lo := by omega
      _ = (x % 2 ^ w + 1) * 2 ^ lo := by ring
      _ ≤ 2 ^ w * 2 ^ lo := Nat.mul_le_mul_right _ h2
      _ = 2 ^ lo * 2 ^ w := Nat.mul_comm _ _
  rw [hd, pow_add 2 (lo + w) d, ← Nat.div_div_eq_div_mul, ← Nat.div_div_eq_div_mul,
    Nat.add_mul_div_right _ _ (Nat.two_pow_pos _), Nat.div_eq_of_lt h4, Nat.zero_add]

/-- Every field lies within its register. -/
abbrev Fld.fits (f : Fld) : Prop := f.lo + f.width ≤ 64

/-- Two fields of one register that share no bit. -/
abbrev Fld.apart (f g : Fld) : Prop := f.lo + f.width ≤ g.lo ∨ g.lo + g.width ≤ f.lo

/-- A field reads as what was written last, within its width. -/
theorem State.rd_wr_self (s : State) (f : Fld) (v i : Nat) (h : f.fits) : (s.wr f v i).rd f i = v % 2 ^ f.width := by
  unfold State.rd State.wr
  rw [State.reg_setReg_self, BitVec.toNat_ofNat, Nat.mod_eq_of_lt (putBits_lt _ _ _ _ (s.reg f.reg i).isLt h), bitsOf_putBits_self]

/-- A write of a field leaves the fields of every other register, and of every other copy, as they were. -/
theorem State.rd_wr_ne (s : State) (f g : Fld) (v i j : Nat) (h : f.reg ≠ g.reg ∨ i ≠ j) : (s.wr g v j).rd f i = s.rd f i := by
  unfold State.rd State.wr
  rw [State.reg_setReg_ne _ _ _ _ _ _ h]

/-- A write of a field leaves the register's other fields as they were. -/
theorem State.rd_wr_apart (s : State) (f g : Fld) (v i : Nat) (h : f.reg = g.reg) (hg : g.fits) (ha : f.apart g) :
    (s.wr g v i).rd f i = s.rd f i := by
  unfold State.rd State.wr
  rw [h, State.reg_setReg_self, BitVec.toNat_ofNat, Nat.mod_eq_of_lt (putBits_lt _ _ _ _ (s.reg g.reg i).isLt hg)]
  rcases ha with ha | ha
  · exact bitsOf_putBits_below _ _ _ _ _ _ ha
  · exact bitsOf_putBits_above _ _ _ _ _ _ ha

theorem State.rd_lt (s : State) (f : Fld) (i : Nat) : s.rd f i < 2 ^ f.width := Nat.mod_lt _ (Nat.two_pow_pos _)

/-- Another register keeps its fields. -/
theorem State.rd_wr_reg (s : State) (f g : Fld) (v i j : Nat) (h : f.reg ≠ g.reg) : (s.wr g v j).rd f i = s.rd f i := s.rd_wr_ne f g v i j (.inl h)

/-- Another copy of a register keeps its fields. -/
theorem State.rd_wr_index (s : State) (f g : Fld) (v i j : Nat) (h : i ≠ j) : (s.wr g v j).rd f i = s.rd f i := s.rd_wr_ne f g v i j (.inr h)

/-- A counter field after an event. -/
theorem State.rd_bump_self (s : State) (f : Fld) (n i : Nat) (h : f.fits) : (s.bump f n i).rd f i = (s.rd f i + n) % 2 ^ f.width :=
  State.rd_wr_self s f _ i h

theorem State.rd_bump_ne (s : State) (f g : Fld) (n i j : Nat) (h : f.reg ≠ g.reg ∨ i ≠ j) : (s.bump g n j).rd f i = s.rd f i :=
  State.rd_wr_ne s f g _ i j h

end Sys2Proof.Machine
end

