-- ==== Sys2Proof/Laws/State.lean ====
section
/-!
SUPPORT. Each field of State after each of its basic updates: one lemma per field per update, true by definition.
-/

namespace Sys2Proof.Machine

/-! ### `State.requeue` -/

@[simp] theorem State.pending_requeue (s : State) (q : List Instr) : (s.requeue q).pending = q := rfl
@[simp] theorem State.fresh_requeue (s : State) (q : List Instr) : (s.requeue q).fresh = s.fresh := rfl
@[simp] theorem State.outbox_requeue (s : State) (q : List Instr) : (s.requeue q).outbox = s.outbox := rfl
@[simp] theorem State.ticks_requeue (s : State) (q : List Instr) : (s.requeue q).ticks = s.ticks := rfl
@[simp] theorem State.now_requeue (s : State) (q : List Instr) : (s.requeue q).now = s.now := rfl
@[simp] theorem State.power_requeue (s : State) (q : List Instr) : (s.requeue q).power = s.power := rfl
@[simp] theorem State.regs_requeue (s : State) (q : List Instr) : (s.requeue q).regs = s.regs := rfl
@[simp] theorem State.latches_requeue (s : State) (q : List Instr) : (s.requeue q).latches = s.latches := rfl
@[simp] theorem State.kln_requeue (s : State) (q : List Instr) : (s.requeue q).kln = s.kln := rfl
@[simp] theorem State.lay_requeue (s : State) (q : List Instr) : (s.requeue q).lay = s.lay := rfl
@[simp] theorem State.built_requeue (s : State) (q : List Instr) : (s.requeue q).built = s.built := rfl
@[simp] theorem State.cmn_requeue (s : State) (q : List Instr) : (s.requeue q).cmn = s.cmn := rfl
@[simp] theorem State.mill_requeue (s : State) (q : List Instr) : (s.requeue q).mill = s.mill := rfl
@[simp] theorem State.bxt_requeue (s : State) (q : List Instr) : (s.requeue q).bxt = s.bxt := rfl
@[simp] theorem State.mem_requeue (s : State) (q : List Instr) : (s.requeue q).mem = s.mem := rfl
@[simp] theorem State.tier_requeue (s : State) (q : List Instr) : (s.requeue q).tier = s.tier := rfl
@[simp] theorem State.hpt_requeue (s : State) (q : List Instr) : (s.requeue q).hpt = s.hpt := rfl
@[simp] theorem State.xlt_requeue (s : State) (q : List Instr) : (s.requeue q).xlt = s.xlt := rfl
@[simp] theorem State.rings_requeue (s : State) (q : List Instr) : (s.requeue q).rings = s.rings := rfl
@[simp] theorem State.fetched_requeue (s : State) (q : List Instr) : (s.requeue q).fetched = s.fetched := rfl
@[simp] theorem State.ops_requeue (s : State) (q : List Instr) : (s.requeue q).ops = s.ops := rfl
@[simp] theorem State.nextOp_requeue (s : State) (q : List Instr) : (s.requeue q).nextOp = s.nextOp := rfl
@[simp] theorem State.insts_requeue (s : State) (q : List Instr) : (s.requeue q).insts = s.insts := rfl
@[simp] theorem State.parts_requeue (s : State) (q : List Instr) : (s.requeue q).parts = s.parts := rfl
@[simp] theorem State.adm_requeue (s : State) (q : List Instr) : (s.requeue q).adm = s.adm := rfl
@[simp] theorem State.meters_requeue (s : State) (q : List Instr) : (s.requeue q).meters = s.meters := rfl
@[simp] theorem State.egress_requeue (s : State) (q : List Instr) : (s.requeue q).egress = s.egress := rfl
@[simp] theorem State.lports_requeue (s : State) (q : List Instr) : (s.requeue q).lports = s.lports := rfl
@[simp] theorem State.routes_requeue (s : State) (q : List Instr) : (s.requeue q).routes = s.routes := rfl
@[simp] theorem State.wx_requeue (s : State) (q : List Instr) : (s.requeue q).wx = s.wx := rfl
@[simp] theorem State.wxs_requeue (s : State) (q : List Instr) : (s.requeue q).wxs = s.wxs := rfl
@[simp] theorem State.slots_requeue (s : State) (q : List Instr) : (s.requeue q).slots = s.slots := rfl
@[simp] theorem State.mslots_requeue (s : State) (q : List Instr) : (s.requeue q).mslots = s.mslots := rfl
@[simp] theorem State.cph_requeue (s : State) (q : List Instr) : (s.requeue q).cph = s.cph := rfl
@[simp] theorem State.tru_requeue (s : State) (q : List Instr) : (s.requeue q).tru = s.tru := rfl
@[simp] theorem State.ckp_requeue (s : State) (q : List Instr) : (s.requeue q).ckp = s.ckp := rfl
@[simp] theorem State.pwr_requeue (s : State) (q : List Instr) : (s.requeue q).pwr = s.pwr := rfl
@[simp] theorem State.pins_requeue (s : State) (q : List Instr) : (s.requeue q).pins = s.pins := rfl
@[simp] theorem State.rst_requeue (s : State) (q : List Instr) : (s.requeue q).rst = s.rst := rfl
@[simp] theorem State.log_requeue (s : State) (q : List Instr) : (s.requeue q).log = s.log := rfl
@[simp] theorem State.inj_requeue (s : State) (q : List Instr) : (s.requeue q).inj = s.inj := rfl
@[simp] theorem State.snap_requeue (s : State) (q : List Instr) : (s.requeue q).snap = s.snap := rfl
@[simp] theorem State.mgt_requeue (s : State) (q : List Instr) : (s.requeue q).mgt = s.mgt := rfl
@[simp] theorem State.wrefused_requeue (s : State) (q : List Instr) : (s.requeue q).wrefused = s.wrefused := rfl
@[simp] theorem State.rd_requeue (s : State) (q : List Instr) (fl : Fld) (ix : Nat) : (s.requeue q).rd fl ix = s.rd fl ix := rfl

/-! ### `State.setReg` -/

@[simp] theorem State.pending_setReg (s : State) (r : Reg) (i : Nat) (v : Word) : (s.setReg r i v).pending = s.pending := rfl
@[simp] theorem State.fresh_setReg (s : State) (r : Reg) (i : Nat) (v : Word) : (s.setReg r i v).fresh = s.fresh := rfl
@[simp] theorem State.outbox_setReg (s : State) (r : Reg) (i : Nat) (v : Word) : (s.setReg r i v).outbox = s.outbox := rfl
@[simp] theorem State.ticks_setReg (s : State) (r : Reg) (i : Nat) (v : Word) : (s.setReg r i v).ticks = s.ticks := rfl
@[simp] theorem State.now_setReg (s : State) (r : Reg) (i : Nat) (v : Word) : (s.setReg r i v).now = s.now := rfl
@[simp] theorem State.power_setReg (s : State) (r : Reg) (i : Nat) (v : Word) : (s.setReg r i v).power = s.power := rfl
@[simp] theorem State.latches_setReg (s : State) (r : Reg) (i : Nat) (v : Word) : (s.setReg r i v).latches = s.latches := rfl
@[simp] theorem State.kln_setReg (s : State) (r : Reg) (i : Nat) (v : Word) : (s.setReg r i v).kln = s.kln := rfl
@[simp] theorem State.lay_setReg (s : State) (r : Reg) (i : Nat) (v : Word) : (s.setReg r i v).lay = s.lay := rfl
@[simp] theorem State.built_setReg (s : State) (r : Reg) (i : Nat) (v : Word) : (s.setReg r i v).built = s.built := rfl
@[simp] theorem State.cmn_setReg (s : State) (r : Reg) (i : Nat) (v : Word) : (s.setReg r i v).cmn = s.cmn := rfl
@[simp] theorem State.mill_setReg (s : State) (r : Reg) (i : Nat) (v : Word) : (s.setReg r i v).mill = s.mill := rfl
@[simp] theorem State.bxt_setReg (s : State) (r : Reg) (i : Nat) (v : Word) : (s.setReg r i v).bxt = s.bxt := rfl
@[simp] theorem State.mem_setReg (s : State) (r : Reg) (i : Nat) (v : Word) : (s.setReg r i v).mem = s.mem := rfl
@[simp] theorem State.tier_setReg (s : State) (r : Reg) (i : Nat) (v : Word) : (s.setReg r i v).tier = s.tier := rfl
@[simp] theorem State.hpt_setReg (s : State) (r : Reg) (i : Nat) (v : Word) : (s.setReg r i v).hpt = s.hpt := rfl
@[simp] theorem State.xlt_setReg (s : State) (r : Reg) (i : Nat) (v : Word) : (s.setReg r i v).xlt = s.xlt := rfl
@[simp] theorem State.rings_setReg (s : State) (r : Reg) (i : Nat) (v : Word) : (s.setReg r i v).rings = s.rings := rfl
@[simp] theorem State.fetched_setReg (s : State) (r : Reg) (i : Nat) (v : Word) : (s.setReg r i v).fetched = s.fetched := rfl
@[simp] theorem State.ops_setReg (s : State) (r : Reg) (i : Nat) (v : Word) : (s.setReg r i v).ops = s.ops := rfl
@[simp] theorem State.nextOp_setReg (s : State) (r : Reg) (i : Nat) (v : Word) : (s.setReg r i v).nextOp = s.nextOp := rfl
@[simp] theorem State.insts_setReg (s : State) (r : Reg) (i : Nat) (v : Word) : (s.setReg r i v).insts = s.insts := rfl
@[simp] theorem State.parts_setReg (s : State) (r : Reg) (i : Nat) (v : Word) : (s.setReg r i v).parts = s.parts := rfl
@[simp] theorem State.adm_setReg (s : State) (r : Reg) (i : Nat) (v : Word) : (s.setReg r i v).adm = s.adm := rfl
@[simp] theorem State.meters_setReg (s : State) (r : Reg) (i : Nat) (v : Word) : (s.setReg r i v).meters = s.meters := rfl
@[simp] theorem State.egress_setReg (s : State) (r : Reg) (i : Nat) (v : Word) : (s.setReg r i v).egress = s.egress := rfl
@[simp] theorem State.lports_setReg (s : State) (r : Reg) (i : Nat) (v : Word) : (s.setReg r i v).lports = s.lports := rfl
@[simp] theorem State.routes_setReg (s : State) (r : Reg) (i : Nat) (v : Word) : (s.setReg r i v).routes = s.routes := rfl
@[simp] theorem State.wx_setReg (s : State) (r : Reg) (i : Nat) (v : Word) : (s.setReg r i v).wx = s.wx := rfl
@[simp] theorem State.wxs_setReg (s : State) (r : Reg) (i : Nat) (v : Word) : (s.setReg r i v).wxs = s.wxs := rfl
@[simp] theorem State.slots_setReg (s : State) (r : Reg) (i : Nat) (v : Word) : (s.setReg r i v).slots = s.slots := rfl
@[simp] theorem State.mslots_setReg (s : State) (r : Reg) (i : Nat) (v : Word) : (s.setReg r i v).mslots = s.mslots := rfl
@[simp] theorem State.cph_setReg (s : State) (r : Reg) (i : Nat) (v : Word) : (s.setReg r i v).cph = s.cph := rfl
@[simp] theorem State.tru_setReg (s : State) (r : Reg) (i : Nat) (v : Word) : (s.setReg r i v).tru = s.tru := rfl
@[simp] theorem State.ckp_setReg (s : State) (r : Reg) (i : Nat) (v : Word) : (s.setReg r i v).ckp = s.ckp := rfl
@[simp] theorem State.pwr_setReg (s : State) (r : Reg) (i : Nat) (v : Word) : (s.setReg r i v).pwr = s.pwr := rfl
@[simp] theorem State.pins_setReg (s : State) (r : Reg) (i : Nat) (v : Word) : (s.setReg r i v).pins = s.pins := rfl
@[simp] theorem State.rst_setReg (s : State) (r : Reg) (i : Nat) (v : Word) : (s.setReg r i v).rst = s.rst := rfl
@[simp] theorem State.log_setReg (s : State) (r : Reg) (i : Nat) (v : Word) : (s.setReg r i v).log = s.log := rfl
@[simp] theorem State.inj_setReg (s : State) (r : Reg) (i : Nat) (v : Word) : (s.setReg r i v).inj = s.inj := rfl
@[simp] theorem State.snap_setReg (s : State) (r : Reg) (i : Nat) (v : Word) : (s.setReg r i v).snap = s.snap := rfl
@[simp] theorem State.mgt_setReg (s : State) (r : Reg) (i : Nat) (v : Word) : (s.setReg r i v).mgt = s.mgt := rfl
@[simp] theorem State.wrefused_setReg (s : State) (r : Reg) (i : Nat) (v : Word) : (s.setReg r i v).wrefused = s.wrefused := rfl

/-! ### `State.wr` -/

@[simp] theorem State.pending_wr (s : State) (f : Fld) (v i : Nat) : (s.wr f v i).pending = s.pending := rfl
@[simp] theorem State.fresh_wr (s : State) (f : Fld) (v i : Nat) : (s.wr f v i).fresh = s.fresh := rfl
@[simp] theorem State.outbox_wr (s : State) (f : Fld) (v i : Nat) : (s.wr f v i).outbox = s.outbox := rfl
@[simp] theorem State.ticks_wr (s : State) (f : Fld) (v i : Nat) : (s.wr f v i).ticks = s.ticks := rfl
@[simp] theorem State.now_wr (s : State) (f : Fld) (v i : Nat) : (s.wr f v i).now = s.now := rfl
@[simp] theorem State.power_wr (s : State) (f : Fld) (v i : Nat) : (s.wr f v i).power = s.power := rfl
@[simp] theorem State.latches_wr (s : State) (f : Fld) (v i : Nat) : (s.wr f v i).latches = s.latches := rfl
@[simp] theorem State.kln_wr (s : State) (f : Fld) (v i : Nat) : (s.wr f v i).kln = s.kln := rfl
@[simp] theorem State.lay_wr (s : State) (f : Fld) (v i : Nat) : (s.wr f v i).lay = s.lay := rfl
@[simp] theorem State.built_wr (s : State) (f : Fld) (v i : Nat) : (s.wr f v i).built = s.built := rfl
@[simp] theorem State.cmn_wr (s : State) (f : Fld) (v i : Nat) : (s.wr f v i).cmn = s.cmn := rfl
@[simp] theorem State.mill_wr (s : State) (f : Fld) (v i : Nat) : (s.wr f v i).mill = s.mill := rfl
@[simp] theorem State.bxt_wr (s : State) (f : Fld) (v i : Nat) : (s.wr f v i).bxt = s.bxt := rfl
@[simp] theorem State.mem_wr (s : State) (f : Fld) (v i : Nat) : (s.wr f v i).mem = s.mem := rfl
@[simp] theorem State.tier_wr (s : State) (f : Fld) (v i : Nat) : (s.wr f v i).tier = s.tier := rfl
@[simp] theorem State.hpt_wr (s : State) (f : Fld) (v i : Nat) : (s.wr f v i).hpt = s.hpt := rfl
@[simp] theorem State.xlt_wr (s : State) (f : Fld) (v i : Nat) : (s.wr f v i).xlt = s.xlt := rfl
@[simp] theorem State.rings_wr (s : State) (f : Fld) (v i : Nat) : (s.wr f v i).rings = s.rings := rfl
@[simp] theorem State.fetched_wr (s : State) (f : Fld) (v i : Nat) : (s.wr f v i).fetched = s.fetched := rfl
@[simp] theorem State.ops_wr (s : State) (f : Fld) (v i : Nat) : (s.wr f v i).ops = s.ops := rfl
@[simp] theorem State.nextOp_wr (s : State) (f : Fld) (v i : Nat) : (s.wr f v i).nextOp = s.nextOp := rfl
@[simp] theorem State.insts_wr (s : State) (f : Fld) (v i : Nat) : (s.wr f v i).insts = s.insts := rfl
@[simp] theorem State.parts_wr (s : State) (f : Fld) (v i : Nat) : (s.wr f v i).parts = s.parts := rfl
@[simp] theorem State.adm_wr (s : State) (f : Fld) (v i : Nat) : (s.wr f v i).adm = s.adm := rfl
@[simp] theorem State.meters_wr (s : State) (f : Fld) (v i : Nat) : (s.wr f v i).meters = s.meters := rfl
@[simp] theorem State.egress_wr (s : State) (f : Fld) (v i : Nat) : (s.wr f v i).egress = s.egress := rfl
@[simp] theorem State.lports_wr (s : State) (f : Fld) (v i : Nat) : (s.wr f v i).lports = s.lports := rfl
@[simp] theorem State.routes_wr (s : State) (f : Fld) (v i : Nat) : (s.wr f v i).routes = s.routes := rfl
@[simp] theorem State.wx_wr (s : State) (f : Fld) (v i : Nat) : (s.wr f v i).wx = s.wx := rfl
@[simp] theorem State.wxs_wr (s : State) (f : Fld) (v i : Nat) : (s.wr f v i).wxs = s.wxs := rfl
@[simp] theorem State.slots_wr (s : State) (f : Fld) (v i : Nat) : (s.wr f v i).slots = s.slots := rfl
@[simp] theorem State.mslots_wr (s : State) (f : Fld) (v i : Nat) : (s.wr f v i).mslots = s.mslots := rfl
@[simp] theorem State.cph_wr (s : State) (f : Fld) (v i : Nat) : (s.wr f v i).cph = s.cph := rfl
@[simp] theorem State.tru_wr (s : State) (f : Fld) (v i : Nat) : (s.wr f v i).tru = s.tru := rfl
@[simp] theorem State.ckp_wr (s : State) (f : Fld) (v i : Nat) : (s.wr f v i).ckp = s.ckp := rfl
@[simp] theorem State.pwr_wr (s : State) (f : Fld) (v i : Nat) : (s.wr f v i).pwr = s.pwr := rfl
@[simp] theorem State.pins_wr (s : State) (f : Fld) (v i : Nat) : (s.wr f v i).pins = s.pins := rfl
@[simp] theorem State.rst_wr (s : State) (f : Fld) (v i : Nat) : (s.wr f v i).rst = s.rst := rfl
@[simp] theorem State.log_wr (s : State) (f : Fld) (v i : Nat) : (s.wr f v i).log = s.log := rfl
@[simp] theorem State.inj_wr (s : State) (f : Fld) (v i : Nat) : (s.wr f v i).inj = s.inj := rfl
@[simp] theorem State.snap_wr (s : State) (f : Fld) (v i : Nat) : (s.wr f v i).snap = s.snap := rfl
@[simp] theorem State.mgt_wr (s : State) (f : Fld) (v i : Nat) : (s.wr f v i).mgt = s.mgt := rfl
@[simp] theorem State.wrefused_wr (s : State) (f : Fld) (v i : Nat) : (s.wr f v i).wrefused = s.wrefused := rfl

/-! ### `State.bump` -/

@[simp] theorem State.pending_bump (s : State) (f : Fld) (n i : Nat) : (s.bump f n i).pending = s.pending := rfl
@[simp] theorem State.fresh_bump (s : State) (f : Fld) (n i : Nat) : (s.bump f n i).fresh = s.fresh := rfl
@[simp] theorem State.outbox_bump (s : State) (f : Fld) (n i : Nat) : (s.bump f n i).outbox = s.outbox := rfl
@[simp] theorem State.ticks_bump (s : State) (f : Fld) (n i : Nat) : (s.bump f n i).ticks = s.ticks := rfl
@[simp] theorem State.now_bump (s : State) (f : Fld) (n i : Nat) : (s.bump f n i).now = s.now := rfl
@[simp] theorem State.power_bump (s : State) (f : Fld) (n i : Nat) : (s.bump f n i).power = s.power := rfl
@[simp] theorem State.latches_bump (s : State) (f : Fld) (n i : Nat) : (s.bump f n i).latches = s.latches := rfl
@[simp] theorem State.kln_bump (s : State) (f : Fld) (n i : Nat) : (s.bump f n i).kln = s.kln := rfl
@[simp] theorem State.lay_bump (s : State) (f : Fld) (n i : Nat) : (s.bump f n i).lay = s.lay := rfl
@[simp] theorem State.built_bump (s : State) (f : Fld) (n i : Nat) : (s.bump f n i).built = s.built := rfl
@[simp] theorem State.cmn_bump (s : State) (f : Fld) (n i : Nat) : (s.bump f n i).cmn = s.cmn := rfl
@[simp] theorem State.mill_bump (s : State) (f : Fld) (n i : Nat) : (s.bump f n i).mill = s.mill := rfl
@[simp] theorem State.bxt_bump (s : State) (f : Fld) (n i : Nat) : (s.bump f n i).bxt = s.bxt := rfl
@[simp] theorem State.mem_bump (s : State) (f : Fld) (n i : Nat) : (s.bump f n i).mem = s.mem := rfl
@[simp] theorem State.tier_bump (s : State) (f : Fld) (n i : Nat) : (s.bump f n i).tier = s.tier := rfl
@[simp] theorem State.hpt_bump (s : State) (f : Fld) (n i : Nat) : (s.bump f n i).hpt = s.hpt := rfl
@[simp] theorem State.xlt_bump (s : State) (f : Fld) (n i : Nat) : (s.bump f n i).xlt = s.xlt := rfl
@[simp] theorem State.rings_bump (s : State) (f : Fld) (n i : Nat) : (s.bump f n i).rings = s.rings := rfl
@[simp] theorem State.fetched_bump (s : State) (f : Fld) (n i : Nat) : (s.bump f n i).fetched = s.fetched := rfl
@[simp] theorem State.ops_bump (s : State) (f : Fld) (n i : Nat) : (s.bump f n i).ops = s.ops := rfl
@[simp] theorem State.nextOp_bump (s : State) (f : Fld) (n i : Nat) : (s.bump f n i).nextOp = s.nextOp := rfl
@[simp] theorem State.insts_bump (s : State) (f : Fld) (n i : Nat) : (s.bump f n i).insts = s.insts := rfl
@[simp] theorem State.parts_bump (s : State) (f : Fld) (n i : Nat) : (s.bump f n i).parts = s.parts := rfl
@[simp] theorem State.adm_bump (s : State) (f : Fld) (n i : Nat) : (s.bump f n i).adm = s.adm := rfl
@[simp] theorem State.meters_bump (s : State) (f : Fld) (n i : Nat) : (s.bump f n i).meters = s.meters := rfl
@[simp] theorem State.egress_bump (s : State) (f : Fld) (n i : Nat) : (s.bump f n i).egress = s.egress := rfl
@[simp] theorem State.lports_bump (s : State) (f : Fld) (n i : Nat) : (s.bump f n i).lports = s.lports := rfl
@[simp] theorem State.routes_bump (s : State) (f : Fld) (n i : Nat) : (s.bump f n i).routes = s.routes := rfl
@[simp] theorem State.wx_bump (s : State) (f : Fld) (n i : Nat) : (s.bump f n i).wx = s.wx := rfl
@[simp] theorem State.wxs_bump (s : State) (f : Fld) (n i : Nat) : (s.bump f n i).wxs = s.wxs := rfl
@[simp] theorem State.slots_bump (s : State) (f : Fld) (n i : Nat) : (s.bump f n i).slots = s.slots := rfl
@[simp] theorem State.mslots_bump (s : State) (f : Fld) (n i : Nat) : (s.bump f n i).mslots = s.mslots := rfl
@[simp] theorem State.cph_bump (s : State) (f : Fld) (n i : Nat) : (s.bump f n i).cph = s.cph := rfl
@[simp] theorem State.tru_bump (s : State) (f : Fld) (n i : Nat) : (s.bump f n i).tru = s.tru := rfl
@[simp] theorem State.ckp_bump (s : State) (f : Fld) (n i : Nat) : (s.bump f n i).ckp = s.ckp := rfl
@[simp] theorem State.pwr_bump (s : State) (f : Fld) (n i : Nat) : (s.bump f n i).pwr = s.pwr := rfl
@[simp] theorem State.pins_bump (s : State) (f : Fld) (n i : Nat) : (s.bump f n i).pins = s.pins := rfl
@[simp] theorem State.rst_bump (s : State) (f : Fld) (n i : Nat) : (s.bump f n i).rst = s.rst := rfl
@[simp] theorem State.log_bump (s : State) (f : Fld) (n i : Nat) : (s.bump f n i).log = s.log := rfl
@[simp] theorem State.inj_bump (s : State) (f : Fld) (n i : Nat) : (s.bump f n i).inj = s.inj := rfl
@[simp] theorem State.snap_bump (s : State) (f : Fld) (n i : Nat) : (s.bump f n i).snap = s.snap := rfl
@[simp] theorem State.mgt_bump (s : State) (f : Fld) (n i : Nat) : (s.bump f n i).mgt = s.mgt := rfl
@[simp] theorem State.wrefused_bump (s : State) (f : Fld) (n i : Nat) : (s.bump f n i).wrefused = s.wrefused := rfl

/-! ### `State.bumpSat` -/

@[simp] theorem State.pending_bumpSat (s : State) (f : Fld) (i : Nat) : (s.bumpSat f i).pending = s.pending := rfl
@[simp] theorem State.fresh_bumpSat (s : State) (f : Fld) (i : Nat) : (s.bumpSat f i).fresh = s.fresh := rfl
@[simp] theorem State.outbox_bumpSat (s : State) (f : Fld) (i : Nat) : (s.bumpSat f i).outbox = s.outbox := rfl
@[simp] theorem State.ticks_bumpSat (s : State) (f : Fld) (i : Nat) : (s.bumpSat f i).ticks = s.ticks := rfl
@[simp] theorem State.now_bumpSat (s : State) (f : Fld) (i : Nat) : (s.bumpSat f i).now = s.now := rfl
@[simp] theorem State.power_bumpSat (s : State) (f : Fld) (i : Nat) : (s.bumpSat f i).power = s.power := rfl
@[simp] theorem State.latches_bumpSat (s : State) (f : Fld) (i : Nat) : (s.bumpSat f i).latches = s.latches := rfl
@[simp] theorem State.kln_bumpSat (s : State) (f : Fld) (i : Nat) : (s.bumpSat f i).kln = s.kln := rfl
@[simp] theorem State.lay_bumpSat (s : State) (f : Fld) (i : Nat) : (s.bumpSat f i).lay = s.lay := rfl
@[simp] theorem State.built_bumpSat (s : State) (f : Fld) (i : Nat) : (s.bumpSat f i).built = s.built := rfl
@[simp] theorem State.cmn_bumpSat (s : State) (f : Fld) (i : Nat) : (s.bumpSat f i).cmn = s.cmn := rfl
@[simp] theorem State.mill_bumpSat (s : State) (f : Fld) (i : Nat) : (s.bumpSat f i).mill = s.mill := rfl
@[simp] theorem State.bxt_bumpSat (s : State) (f : Fld) (i : Nat) : (s.bumpSat f i).bxt = s.bxt := rfl
@[simp] theorem State.mem_bumpSat (s : State) (f : Fld) (i : Nat) : (s.bumpSat f i).mem = s.mem := rfl
@[simp] theorem State.tier_bumpSat (s : State) (f : Fld) (i : Nat) : (s.bumpSat f i).tier = s.tier := rfl
@[simp] theorem State.hpt_bumpSat (s : State) (f : Fld) (i : Nat) : (s.bumpSat f i).hpt = s.hpt := rfl
@[simp] theorem State.xlt_bumpSat (s : State) (f : Fld) (i : Nat) : (s.bumpSat f i).xlt = s.xlt := rfl
@[simp] theorem State.rings_bumpSat (s : State) (f : Fld) (i : Nat) : (s.bumpSat f i).rings = s.rings := rfl
@[simp] theorem State.fetched_bumpSat (s : State) (f : Fld) (i : Nat) : (s.bumpSat f i).fetched = s.fetched := rfl
@[simp] theorem State.ops_bumpSat (s : State) (f : Fld) (i : Nat) : (s.bumpSat f i).ops = s.ops := rfl
@[simp] theorem State.nextOp_bumpSat (s : State) (f : Fld) (i : Nat) : (s.bumpSat f i).nextOp = s.nextOp := rfl
@[simp] theorem State.insts_bumpSat (s : State) (f : Fld) (i : Nat) : (s.bumpSat f i).insts = s.insts := rfl
@[simp] theorem State.parts_bumpSat (s : State) (f : Fld) (i : Nat) : (s.bumpSat f i).parts = s.parts := rfl
@[simp] theorem State.adm_bumpSat (s : State) (f : Fld) (i : Nat) : (s.bumpSat f i).adm = s.adm := rfl
@[simp] theorem State.meters_bumpSat (s : State) (f : Fld) (i : Nat) : (s.bumpSat f i).meters = s.meters := rfl
@[simp] theorem State.egress_bumpSat (s : State) (f : Fld) (i : Nat) : (s.bumpSat f i).egress = s.egress := rfl
@[simp] theorem State.lports_bumpSat (s : State) (f : Fld) (i : Nat) : (s.bumpSat f i).lports = s.lports := rfl
@[simp] theorem State.routes_bumpSat (s : State) (f : Fld) (i : Nat) : (s.bumpSat f i).routes = s.routes := rfl
@[simp] theorem State.wx_bumpSat (s : State) (f : Fld) (i : Nat) : (s.bumpSat f i).wx = s.wx := rfl
@[simp] theorem State.wxs_bumpSat (s : State) (f : Fld) (i : Nat) : (s.bumpSat f i).wxs = s.wxs := rfl
@[simp] theorem State.slots_bumpSat (s : State) (f : Fld) (i : Nat) : (s.bumpSat f i).slots = s.slots := rfl
@[simp] theorem State.mslots_bumpSat (s : State) (f : Fld) (i : Nat) : (s.bumpSat f i).mslots = s.mslots := rfl
@[simp] theorem State.cph_bumpSat (s : State) (f : Fld) (i : Nat) : (s.bumpSat f i).cph = s.cph := rfl
@[simp] theorem State.tru_bumpSat (s : State) (f : Fld) (i : Nat) : (s.bumpSat f i).tru = s.tru := rfl
@[simp] theorem State.ckp_bumpSat (s : State) (f : Fld) (i : Nat) : (s.bumpSat f i).ckp = s.ckp := rfl
@[simp] theorem State.pwr_bumpSat (s : State) (f : Fld) (i : Nat) : (s.bumpSat f i).pwr = s.pwr := rfl
@[simp] theorem State.pins_bumpSat (s : State) (f : Fld) (i : Nat) : (s.bumpSat f i).pins = s.pins := rfl
@[simp] theorem State.rst_bumpSat (s : State) (f : Fld) (i : Nat) : (s.bumpSat f i).rst = s.rst := rfl
@[simp] theorem State.log_bumpSat (s : State) (f : Fld) (i : Nat) : (s.bumpSat f i).log = s.log := rfl
@[simp] theorem State.inj_bumpSat (s : State) (f : Fld) (i : Nat) : (s.bumpSat f i).inj = s.inj := rfl
@[simp] theorem State.snap_bumpSat (s : State) (f : Fld) (i : Nat) : (s.bumpSat f i).snap = s.snap := rfl
@[simp] theorem State.mgt_bumpSat (s : State) (f : Fld) (i : Nat) : (s.bumpSat f i).mgt = s.mgt := rfl
@[simp] theorem State.wrefused_bumpSat (s : State) (f : Fld) (i : Nat) : (s.bumpSat f i).wrefused = s.wrefused := rfl

/-! ### `State.lower` -/

@[simp] theorem State.pending_lower (s : State) (f : Fld) (n i : Nat) : (s.lower f n i).pending = s.pending := rfl
@[simp] theorem State.fresh_lower (s : State) (f : Fld) (n i : Nat) : (s.lower f n i).fresh = s.fresh := rfl
@[simp] theorem State.outbox_lower (s : State) (f : Fld) (n i : Nat) : (s.lower f n i).outbox = s.outbox := rfl
@[simp] theorem State.ticks_lower (s : State) (f : Fld) (n i : Nat) : (s.lower f n i).ticks = s.ticks := rfl
@[simp] theorem State.now_lower (s : State) (f : Fld) (n i : Nat) : (s.lower f n i).now = s.now := rfl
@[simp] theorem State.power_lower (s : State) (f : Fld) (n i : Nat) : (s.lower f n i).power = s.power := rfl
@[simp] theorem State.latches_lower (s : State) (f : Fld) (n i : Nat) : (s.lower f n i).latches = s.latches := rfl
@[simp] theorem State.kln_lower (s : State) (f : Fld) (n i : Nat) : (s.lower f n i).kln = s.kln := rfl
@[simp] theorem State.lay_lower (s : State) (f : Fld) (n i : Nat) : (s.lower f n i).lay = s.lay := rfl
@[simp] theorem State.built_lower (s : State) (f : Fld) (n i : Nat) : (s.lower f n i).built = s.built := rfl
@[simp] theorem State.cmn_lower (s : State) (f : Fld) (n i : Nat) : (s.lower f n i).cmn = s.cmn := rfl
@[simp] theorem State.mill_lower (s : State) (f : Fld) (n i : Nat) : (s.lower f n i).mill = s.mill := rfl
@[simp] theorem State.bxt_lower (s : State) (f : Fld) (n i : Nat) : (s.lower f n i).bxt = s.bxt := rfl
@[simp] theorem State.mem_lower (s : State) (f : Fld) (n i : Nat) : (s.lower f n i).mem = s.mem := rfl
@[simp] theorem State.tier_lower (s : State) (f : Fld) (n i : Nat) : (s.lower f n i).tier = s.tier := rfl
@[simp] theorem State.hpt_lower (s : State) (f : Fld) (n i : Nat) : (s.lower f n i).hpt = s.hpt := rfl
@[simp] theorem State.xlt_lower (s : State) (f : Fld) (n i : Nat) : (s.lower f n i).xlt = s.xlt := rfl
@[simp] theorem State.rings_lower (s : State) (f : Fld) (n i : Nat) : (s.lower f n i).rings = s.rings := rfl
@[simp] theorem State.fetched_lower (s : State) (f : Fld) (n i : Nat) : (s.lower f n i).fetched = s.fetched := rfl
@[simp] theorem State.ops_lower (s : State) (f : Fld) (n i : Nat) : (s.lower f n i).ops = s.ops := rfl
@[simp] theorem State.nextOp_lower (s : State) (f : Fld) (n i : Nat) : (s.lower f n i).nextOp = s.nextOp := rfl
@[simp] theorem State.insts_lower (s : State) (f : Fld) (n i : Nat) : (s.lower f n i).insts = s.insts := rfl
@[simp] theorem State.parts_lower (s : State) (f : Fld) (n i : Nat) : (s.lower f n i).parts = s.parts := rfl
@[simp] theorem State.adm_lower (s : State) (f : Fld) (n i : Nat) : (s.lower f n i).adm = s.adm := rfl
@[simp] theorem State.meters_lower (s : State) (f : Fld) (n i : Nat) : (s.lower f n i).meters = s.meters := rfl
@[simp] theorem State.egress_lower (s : State) (f : Fld) (n i : Nat) : (s.lower f n i).egress = s.egress := rfl
@[simp] theorem State.lports_lower (s : State) (f : Fld) (n i : Nat) : (s.lower f n i).lports = s.lports := rfl
@[simp] theorem State.routes_lower (s : State) (f : Fld) (n i : Nat) : (s.lower f n i).routes = s.routes := rfl
@[simp] theorem State.wx_lower (s : State) (f : Fld) (n i : Nat) : (s.lower f n i).wx = s.wx := rfl
@[simp] theorem State.wxs_lower (s : State) (f : Fld) (n i : Nat) : (s.lower f n i).wxs = s.wxs := rfl
@[simp] theorem State.slots_lower (s : State) (f : Fld) (n i : Nat) : (s.lower f n i).slots = s.slots := rfl
@[simp] theorem State.mslots_lower (s : State) (f : Fld) (n i : Nat) : (s.lower f n i).mslots = s.mslots := rfl
@[simp] theorem State.cph_lower (s : State) (f : Fld) (n i : Nat) : (s.lower f n i).cph = s.cph := rfl
@[simp] theorem State.tru_lower (s : State) (f : Fld) (n i : Nat) : (s.lower f n i).tru = s.tru := rfl
@[simp] theorem State.ckp_lower (s : State) (f : Fld) (n i : Nat) : (s.lower f n i).ckp = s.ckp := rfl
@[simp] theorem State.pwr_lower (s : State) (f : Fld) (n i : Nat) : (s.lower f n i).pwr = s.pwr := rfl
@[simp] theorem State.pins_lower (s : State) (f : Fld) (n i : Nat) : (s.lower f n i).pins = s.pins := rfl
@[simp] theorem State.rst_lower (s : State) (f : Fld) (n i : Nat) : (s.lower f n i).rst = s.rst := rfl
@[simp] theorem State.log_lower (s : State) (f : Fld) (n i : Nat) : (s.lower f n i).log = s.log := rfl
@[simp] theorem State.inj_lower (s : State) (f : Fld) (n i : Nat) : (s.lower f n i).inj = s.inj := rfl
@[simp] theorem State.snap_lower (s : State) (f : Fld) (n i : Nat) : (s.lower f n i).snap = s.snap := rfl
@[simp] theorem State.mgt_lower (s : State) (f : Fld) (n i : Nat) : (s.lower f n i).mgt = s.mgt := rfl
@[simp] theorem State.wrefused_lower (s : State) (f : Fld) (n i : Nat) : (s.lower f n i).wrefused = s.wrefused := rfl

/-! ### `State.emit` -/

@[simp] theorem State.pending_emit (s : State) (o : Output) : (s.emit o).pending = s.pending := rfl
@[simp] theorem State.fresh_emit (s : State) (o : Output) : (s.emit o).fresh = s.fresh := rfl
@[simp] theorem State.outbox_emit (s : State) (o : Output) : (s.emit o).outbox = s.outbox ++ [o] := rfl
@[simp] theorem State.ticks_emit (s : State) (o : Output) : (s.emit o).ticks = s.ticks := rfl
@[simp] theorem State.now_emit (s : State) (o : Output) : (s.emit o).now = s.now := rfl
@[simp] theorem State.power_emit (s : State) (o : Output) : (s.emit o).power = s.power := rfl
@[simp] theorem State.regs_emit (s : State) (o : Output) : (s.emit o).regs = s.regs := rfl
@[simp] theorem State.latches_emit (s : State) (o : Output) : (s.emit o).latches = s.latches := rfl
@[simp] theorem State.kln_emit (s : State) (o : Output) : (s.emit o).kln = s.kln := rfl
@[simp] theorem State.lay_emit (s : State) (o : Output) : (s.emit o).lay = s.lay := rfl
@[simp] theorem State.built_emit (s : State) (o : Output) : (s.emit o).built = s.built := rfl
@[simp] theorem State.cmn_emit (s : State) (o : Output) : (s.emit o).cmn = s.cmn := rfl
@[simp] theorem State.mill_emit (s : State) (o : Output) : (s.emit o).mill = s.mill := rfl
@[simp] theorem State.bxt_emit (s : State) (o : Output) : (s.emit o).bxt = s.bxt := rfl
@[simp] theorem State.mem_emit (s : State) (o : Output) : (s.emit o).mem = s.mem := rfl
@[simp] theorem State.tier_emit (s : State) (o : Output) : (s.emit o).tier = s.tier := rfl
@[simp] theorem State.hpt_emit (s : State) (o : Output) : (s.emit o).hpt = s.hpt := rfl
@[simp] theorem State.xlt_emit (s : State) (o : Output) : (s.emit o).xlt = s.xlt := rfl
@[simp] theorem State.rings_emit (s : State) (o : Output) : (s.emit o).rings = s.rings := rfl
@[simp] theorem State.fetched_emit (s : State) (o : Output) : (s.emit o).fetched = s.fetched := rfl
@[simp] theorem State.ops_emit (s : State) (o : Output) : (s.emit o).ops = s.ops := rfl
@[simp] theorem State.nextOp_emit (s : State) (o : Output) : (s.emit o).nextOp = s.nextOp := rfl
@[simp] theorem State.insts_emit (s : State) (o : Output) : (s.emit o).insts = s.insts := rfl
@[simp] theorem State.parts_emit (s : State) (o : Output) : (s.emit o).parts = s.parts := rfl
@[simp] theorem State.adm_emit (s : State) (o : Output) : (s.emit o).adm = s.adm := rfl
@[simp] theorem State.meters_emit (s : State) (o : Output) : (s.emit o).meters = s.meters := rfl
@[simp] theorem State.egress_emit (s : State) (o : Output) : (s.emit o).egress = s.egress := rfl
@[simp] theorem State.lports_emit (s : State) (o : Output) : (s.emit o).lports = s.lports := rfl
@[simp] theorem State.routes_emit (s : State) (o : Output) : (s.emit o).routes = s.routes := rfl
@[simp] theorem State.wx_emit (s : State) (o : Output) : (s.emit o).wx = s.wx := rfl
@[simp] theorem State.wxs_emit (s : State) (o : Output) : (s.emit o).wxs = s.wxs := rfl
@[simp] theorem State.slots_emit (s : State) (o : Output) : (s.emit o).slots = s.slots := rfl
@[simp] theorem State.mslots_emit (s : State) (o : Output) : (s.emit o).mslots = s.mslots := rfl
@[simp] theorem State.cph_emit (s : State) (o : Output) : (s.emit o).cph = s.cph := rfl
@[simp] theorem State.tru_emit (s : State) (o : Output) : (s.emit o).tru = s.tru := rfl
@[simp] theorem State.ckp_emit (s : State) (o : Output) : (s.emit o).ckp = s.ckp := rfl
@[simp] theorem State.pwr_emit (s : State) (o : Output) : (s.emit o).pwr = s.pwr := rfl
@[simp] theorem State.pins_emit (s : State) (o : Output) : (s.emit o).pins = s.pins := rfl
@[simp] theorem State.rst_emit (s : State) (o : Output) : (s.emit o).rst = s.rst := rfl
@[simp] theorem State.log_emit (s : State) (o : Output) : (s.emit o).log = s.log := rfl
@[simp] theorem State.inj_emit (s : State) (o : Output) : (s.emit o).inj = s.inj := rfl
@[simp] theorem State.snap_emit (s : State) (o : Output) : (s.emit o).snap = s.snap := rfl
@[simp] theorem State.mgt_emit (s : State) (o : Output) : (s.emit o).mgt = s.mgt := rfl
@[simp] theorem State.wrefused_emit (s : State) (o : Output) : (s.emit o).wrefused = s.wrefused := rfl
@[simp] theorem State.rd_emit (s : State) (o : Output) (fl : Fld) (ix : Nat) : (s.emit o).rd fl ix = s.rd fl ix := rfl

/-! ### `State.setConn` -/

@[simp] theorem State.pending_setConn (s : State) (c : Nat) (k : Conn) : (s.setConn c k).pending = s.pending := rfl
@[simp] theorem State.fresh_setConn (s : State) (c : Nat) (k : Conn) : (s.setConn c k).fresh = s.fresh := rfl
@[simp] theorem State.outbox_setConn (s : State) (c : Nat) (k : Conn) : (s.setConn c k).outbox = s.outbox := rfl
@[simp] theorem State.ticks_setConn (s : State) (c : Nat) (k : Conn) : (s.setConn c k).ticks = s.ticks := rfl
@[simp] theorem State.now_setConn (s : State) (c : Nat) (k : Conn) : (s.setConn c k).now = s.now := rfl
@[simp] theorem State.power_setConn (s : State) (c : Nat) (k : Conn) : (s.setConn c k).power = s.power := rfl
@[simp] theorem State.regs_setConn (s : State) (c : Nat) (k : Conn) : (s.setConn c k).regs = s.regs := rfl
@[simp] theorem State.latches_setConn (s : State) (c : Nat) (k : Conn) : (s.setConn c k).latches = s.latches := rfl
@[simp] theorem State.kln_setConn (s : State) (c : Nat) (k : Conn) : (s.setConn c k).kln = s.kln := rfl
@[simp] theorem State.lay_setConn (s : State) (c : Nat) (k : Conn) : (s.setConn c k).lay = s.lay := rfl
@[simp] theorem State.built_setConn (s : State) (c : Nat) (k : Conn) : (s.setConn c k).built = s.built := rfl
@[simp] theorem State.cmn_setConn (s : State) (c : Nat) (k : Conn) : (s.setConn c k).cmn = s.cmn := rfl
@[simp] theorem State.mill_setConn (s : State) (c : Nat) (k : Conn) : (s.setConn c k).mill = s.mill := rfl
@[simp] theorem State.bxt_setConn (s : State) (c : Nat) (k : Conn) : (s.setConn c k).bxt = { s.bxt with conns := Tbl.set s.bxt.conns c k } := rfl
@[simp] theorem State.mem_setConn (s : State) (c : Nat) (k : Conn) : (s.setConn c k).mem = s.mem := rfl
@[simp] theorem State.tier_setConn (s : State) (c : Nat) (k : Conn) : (s.setConn c k).tier = s.tier := rfl
@[simp] theorem State.hpt_setConn (s : State) (c : Nat) (k : Conn) : (s.setConn c k).hpt = s.hpt := rfl
@[simp] theorem State.xlt_setConn (s : State) (c : Nat) (k : Conn) : (s.setConn c k).xlt = s.xlt := rfl
@[simp] theorem State.rings_setConn (s : State) (c : Nat) (k : Conn) : (s.setConn c k).rings = s.rings := rfl
@[simp] theorem State.fetched_setConn (s : State) (c : Nat) (k : Conn) : (s.setConn c k).fetched = s.fetched := rfl
@[simp] theorem State.ops_setConn (s : State) (c : Nat) (k : Conn) : (s.setConn c k).ops = s.ops := rfl
@[simp] theorem State.nextOp_setConn (s : State) (c : Nat) (k : Conn) : (s.setConn c k).nextOp = s.nextOp := rfl
@[simp] theorem State.insts_setConn (s : State) (c : Nat) (k : Conn) : (s.setConn c k).insts = s.insts := rfl
@[simp] theorem State.parts_setConn (s : State) (c : Nat) (k : Conn) : (s.setConn c k).parts = s.parts := rfl
@[simp] theorem State.adm_setConn (s : State) (c : Nat) (k : Conn) : (s.setConn c k).adm = s.adm := rfl
@[simp] theorem State.meters_setConn (s : State) (c : Nat) (k : Conn) : (s.setConn c k).meters = s.meters := rfl
@[simp] theorem State.egress_setConn (s : State) (c : Nat) (k : Conn) : (s.setConn c k).egress = s.egress := rfl
@[simp] theorem State.lports_setConn (s : State) (c : Nat) (k : Conn) : (s.setConn c k).lports = s.lports := rfl
@[simp] theorem State.routes_setConn (s : State) (c : Nat) (k : Conn) : (s.setConn c k).routes = s.routes := rfl
@[simp] theorem State.wx_setConn (s : State) (c : Nat) (k : Conn) : (s.setConn c k).wx = s.wx := rfl
@[simp] theorem State.wxs_setConn (s : State) (c : Nat) (k : Conn) : (s.setConn c k).wxs = s.wxs := rfl
@[simp] theorem State.slots_setConn (s : State) (c : Nat) (k : Conn) : (s.setConn c k).slots = s.slots := rfl
@[simp] theorem State.mslots_setConn (s : State) (c : Nat) (k : Conn) : (s.setConn c k).mslots = s.mslots := rfl
@[simp] theorem State.cph_setConn (s : State) (c : Nat) (k : Conn) : (s.setConn c k).cph = s.cph := rfl
@[simp] theorem State.tru_setConn (s : State) (c : Nat) (k : Conn) : (s.setConn c k).tru = s.tru := rfl
@[simp] theorem State.ckp_setConn (s : State) (c : Nat) (k : Conn) : (s.setConn c k).ckp = s.ckp := rfl
@[simp] theorem State.pwr_setConn (s : State) (c : Nat) (k : Conn) : (s.setConn c k).pwr = s.pwr := rfl
@[simp] theorem State.pins_setConn (s : State) (c : Nat) (k : Conn) : (s.setConn c k).pins = s.pins := rfl
@[simp] theorem State.rst_setConn (s : State) (c : Nat) (k : Conn) : (s.setConn c k).rst = s.rst := rfl
@[simp] theorem State.log_setConn (s : State) (c : Nat) (k : Conn) : (s.setConn c k).log = s.log := rfl
@[simp] theorem State.inj_setConn (s : State) (c : Nat) (k : Conn) : (s.setConn c k).inj = s.inj := rfl
@[simp] theorem State.snap_setConn (s : State) (c : Nat) (k : Conn) : (s.setConn c k).snap = s.snap := rfl
@[simp] theorem State.mgt_setConn (s : State) (c : Nat) (k : Conn) : (s.setConn c k).mgt = s.mgt := rfl
@[simp] theorem State.wrefused_setConn (s : State) (c : Nat) (k : Conn) : (s.setConn c k).wrefused = s.wrefused := rfl
@[simp] theorem State.rd_setConn (s : State) (c : Nat) (k : Conn) (fl : Fld) (ix : Nat) : (s.setConn c k).rd fl ix = s.rd fl ix := rfl

/-! ### `State.setRing` -/

@[simp] theorem State.pending_setRing (s : State) (key : Nat) (r : Ring) : (s.setRing key r).pending = s.pending := rfl
@[simp] theorem State.fresh_setRing (s : State) (key : Nat) (r : Ring) : (s.setRing key r).fresh = s.fresh := rfl
@[simp] theorem State.outbox_setRing (s : State) (key : Nat) (r : Ring) : (s.setRing key r).outbox = s.outbox := rfl
@[simp] theorem State.ticks_setRing (s : State) (key : Nat) (r : Ring) : (s.setRing key r).ticks = s.ticks := rfl
@[simp] theorem State.now_setRing (s : State) (key : Nat) (r : Ring) : (s.setRing key r).now = s.now := rfl
@[simp] theorem State.power_setRing (s : State) (key : Nat) (r : Ring) : (s.setRing key r).power = s.power := rfl
@[simp] theorem State.regs_setRing (s : State) (key : Nat) (r : Ring) : (s.setRing key r).regs = s.regs := rfl
@[simp] theorem State.latches_setRing (s : State) (key : Nat) (r : Ring) : (s.setRing key r).latches = s.latches := rfl
@[simp] theorem State.kln_setRing (s : State) (key : Nat) (r : Ring) : (s.setRing key r).kln = s.kln := rfl
@[simp] theorem State.lay_setRing (s : State) (key : Nat) (r : Ring) : (s.setRing key r).lay = s.lay := rfl
@[simp] theorem State.built_setRing (s : State) (key : Nat) (r : Ring) : (s.setRing key r).built = s.built := rfl
@[simp] theorem State.cmn_setRing (s : State) (key : Nat) (r : Ring) : (s.setRing key r).cmn = s.cmn := rfl
@[simp] theorem State.mill_setRing (s : State) (key : Nat) (r : Ring) : (s.setRing key r).mill = s.mill := rfl
@[simp] theorem State.bxt_setRing (s : State) (key : Nat) (r : Ring) : (s.setRing key r).bxt = s.bxt := rfl
@[simp] theorem State.mem_setRing (s : State) (key : Nat) (r : Ring) : (s.setRing key r).mem = s.mem := rfl
@[simp] theorem State.tier_setRing (s : State) (key : Nat) (r : Ring) : (s.setRing key r).tier = s.tier := rfl
@[simp] theorem State.hpt_setRing (s : State) (key : Nat) (r : Ring) : (s.setRing key r).hpt = s.hpt := rfl
@[simp] theorem State.xlt_setRing (s : State) (key : Nat) (r : Ring) : (s.setRing key r).xlt = s.xlt := rfl
@[simp] theorem State.rings_setRing (s : State) (key : Nat) (r : Ring) : (s.setRing key r).rings = Tbl.set s.rings key r := rfl
@[simp] theorem State.fetched_setRing (s : State) (key : Nat) (r : Ring) : (s.setRing key r).fetched = s.fetched := rfl
@[simp] theorem State.ops_setRing (s : State) (key : Nat) (r : Ring) : (s.setRing key r).ops = s.ops := rfl
@[simp] theorem State.nextOp_setRing (s : State) (key : Nat) (r : Ring) : (s.setRing key r).nextOp = s.nextOp := rfl
@[simp] theorem State.insts_setRing (s : State) (key : Nat) (r : Ring) : (s.setRing key r).insts = s.insts := rfl
@[simp] theorem State.parts_setRing (s : State) (key : Nat) (r : Ring) : (s.setRing key r).parts = s.parts := rfl
@[simp] theorem State.adm_setRing (s : State) (key : Nat) (r : Ring) : (s.setRing key r).adm = s.adm := rfl
@[simp] theorem State.meters_setRing (s : State) (key : Nat) (r : Ring) : (s.setRing key r).meters = s.meters := rfl
@[simp] theorem State.egress_setRing (s : State) (key : Nat) (r : Ring) : (s.setRing key r).egress = s.egress := rfl
@[simp] theorem State.lports_setRing (s : State) (key : Nat) (r : Ring) : (s.setRing key r).lports = s.lports := rfl
@[simp] theorem State.routes_setRing (s : State) (key : Nat) (r : Ring) : (s.setRing key r).routes = s.routes := rfl
@[simp] theorem State.wx_setRing (s : State) (key : Nat) (r : Ring) : (s.setRing key r).wx = s.wx := rfl
@[simp] theorem State.wxs_setRing (s : State) (key : Nat) (r : Ring) : (s.setRing key r).wxs = s.wxs := rfl
@[simp] theorem State.slots_setRing (s : State) (key : Nat) (r : Ring) : (s.setRing key r).slots = s.slots := rfl
@[simp] theorem State.mslots_setRing (s : State) (key : Nat) (r : Ring) : (s.setRing key r).mslots = s.mslots := rfl
@[simp] theorem State.cph_setRing (s : State) (key : Nat) (r : Ring) : (s.setRing key r).cph = s.cph := rfl
@[simp] theorem State.tru_setRing (s : State) (key : Nat) (r : Ring) : (s.setRing key r).tru = s.tru := rfl
@[simp] theorem State.ckp_setRing (s : State) (key : Nat) (r : Ring) : (s.setRing key r).ckp = s.ckp := rfl
@[simp] theorem State.pwr_setRing (s : State) (key : Nat) (r : Ring) : (s.setRing key r).pwr = s.pwr := rfl
@[simp] theorem State.pins_setRing (s : State) (key : Nat) (r : Ring) : (s.setRing key r).pins = s.pins := rfl
@[simp] theorem State.rst_setRing (s : State) (key : Nat) (r : Ring) : (s.setRing key r).rst = s.rst := rfl
@[simp] theorem State.log_setRing (s : State) (key : Nat) (r : Ring) : (s.setRing key r).log = s.log := rfl
@[simp] theorem State.inj_setRing (s : State) (key : Nat) (r : Ring) : (s.setRing key r).inj = s.inj := rfl
@[simp] theorem State.snap_setRing (s : State) (key : Nat) (r : Ring) : (s.setRing key r).snap = s.snap := rfl
@[simp] theorem State.mgt_setRing (s : State) (key : Nat) (r : Ring) : (s.setRing key r).mgt = s.mgt := rfl
@[simp] theorem State.wrefused_setRing (s : State) (key : Nat) (r : Ring) : (s.setRing key r).wrefused = s.wrefused := rfl
@[simp] theorem State.rd_setRing (s : State) (key : Nat) (r : Ring) (fl : Fld) (ix : Nat) : (s.setRing key r).rd fl ix = s.rd fl ix := rfl

/-! ### `State.setOp` -/

@[simp] theorem State.pending_setOp (s : State) (id : Nat) (o : Op) : (s.setOp id o).pending = s.pending := rfl
@[simp] theorem State.fresh_setOp (s : State) (id : Nat) (o : Op) : (s.setOp id o).fresh = s.fresh := rfl
@[simp] theorem State.outbox_setOp (s : State) (id : Nat) (o : Op) : (s.setOp id o).outbox = s.outbox := rfl
@[simp] theorem State.ticks_setOp (s : State) (id : Nat) (o : Op) : (s.setOp id o).ticks = s.ticks := rfl
@[simp] theorem State.now_setOp (s : State) (id : Nat) (o : Op) : (s.setOp id o).now = s.now := rfl
@[simp] theorem State.power_setOp (s : State) (id : Nat) (o : Op) : (s.setOp id o).power = s.power := rfl
@[simp] theorem State.regs_setOp (s : State) (id : Nat) (o : Op) : (s.setOp id o).regs = s.regs := rfl
@[simp] theorem State.latches_setOp (s : State) (id : Nat) (o : Op) : (s.setOp id o).latches = s.latches := rfl
@[simp] theorem State.kln_setOp (s : State) (id : Nat) (o : Op) : (s.setOp id o).kln = s.kln := rfl
@[simp] theorem State.lay_setOp (s : State) (id : Nat) (o : Op) : (s.setOp id o).lay = s.lay := rfl
@[simp] theorem State.built_setOp (s : State) (id : Nat) (o : Op) : (s.setOp id o).built = s.built := rfl
@[simp] theorem State.cmn_setOp (s : State) (id : Nat) (o : Op) : (s.setOp id o).cmn = s.cmn := rfl
@[simp] theorem State.mill_setOp (s : State) (id : Nat) (o : Op) : (s.setOp id o).mill = s.mill := rfl
@[simp] theorem State.bxt_setOp (s : State) (id : Nat) (o : Op) : (s.setOp id o).bxt = s.bxt := rfl
@[simp] theorem State.mem_setOp (s : State) (id : Nat) (o : Op) : (s.setOp id o).mem = s.mem := rfl
@[simp] theorem State.tier_setOp (s : State) (id : Nat) (o : Op) : (s.setOp id o).tier = s.tier := rfl
@[simp] theorem State.hpt_setOp (s : State) (id : Nat) (o : Op) : (s.setOp id o).hpt = s.hpt := rfl
@[simp] theorem State.xlt_setOp (s : State) (id : Nat) (o : Op) : (s.setOp id o).xlt = s.xlt := rfl
@[simp] theorem State.rings_setOp (s : State) (id : Nat) (o : Op) : (s.setOp id o).rings = s.rings := rfl
@[simp] theorem State.fetched_setOp (s : State) (id : Nat) (o : Op) : (s.setOp id o).fetched = s.fetched := rfl
@[simp] theorem State.ops_setOp (s : State) (id : Nat) (o : Op) : (s.setOp id o).ops = Tbl.set s.ops id o := rfl
@[simp] theorem State.nextOp_setOp (s : State) (id : Nat) (o : Op) : (s.setOp id o).nextOp = s.nextOp := rfl
@[simp] theorem State.insts_setOp (s : State) (id : Nat) (o : Op) : (s.setOp id o).insts = s.insts := rfl
@[simp] theorem State.parts_setOp (s : State) (id : Nat) (o : Op) : (s.setOp id o).parts = s.parts := rfl
@[simp] theorem State.adm_setOp (s : State) (id : Nat) (o : Op) : (s.setOp id o).adm = s.adm := rfl
@[simp] theorem State.meters_setOp (s : State) (id : Nat) (o : Op) : (s.setOp id o).meters = s.meters := rfl
@[simp] theorem State.egress_setOp (s : State) (id : Nat) (o : Op) : (s.setOp id o).egress = s.egress := rfl
@[simp] theorem State.lports_setOp (s : State) (id : Nat) (o : Op) : (s.setOp id o).lports = s.lports := rfl
@[simp] theorem State.routes_setOp (s : State) (id : Nat) (o : Op) : (s.setOp id o).routes = s.routes := rfl
@[simp] theorem State.wx_setOp (s : State) (id : Nat) (o : Op) : (s.setOp id o).wx = s.wx := rfl
@[simp] theorem State.wxs_setOp (s : State) (id : Nat) (o : Op) : (s.setOp id o).wxs = s.wxs := rfl
@[simp] theorem State.slots_setOp (s : State) (id : Nat) (o : Op) : (s.setOp id o).slots = s.slots := rfl
@[simp] theorem State.mslots_setOp (s : State) (id : Nat) (o : Op) : (s.setOp id o).mslots = s.mslots := rfl
@[simp] theorem State.cph_setOp (s : State) (id : Nat) (o : Op) : (s.setOp id o).cph = s.cph := rfl
@[simp] theorem State.tru_setOp (s : State) (id : Nat) (o : Op) : (s.setOp id o).tru = s.tru := rfl
@[simp] theorem State.ckp_setOp (s : State) (id : Nat) (o : Op) : (s.setOp id o).ckp = s.ckp := rfl
@[simp] theorem State.pwr_setOp (s : State) (id : Nat) (o : Op) : (s.setOp id o).pwr = s.pwr := rfl
@[simp] theorem State.pins_setOp (s : State) (id : Nat) (o : Op) : (s.setOp id o).pins = s.pins := rfl
@[simp] theorem State.rst_setOp (s : State) (id : Nat) (o : Op) : (s.setOp id o).rst = s.rst := rfl
@[simp] theorem State.log_setOp (s : State) (id : Nat) (o : Op) : (s.setOp id o).log = s.log := rfl
@[simp] theorem State.inj_setOp (s : State) (id : Nat) (o : Op) : (s.setOp id o).inj = s.inj := rfl
@[simp] theorem State.snap_setOp (s : State) (id : Nat) (o : Op) : (s.setOp id o).snap = s.snap := rfl
@[simp] theorem State.mgt_setOp (s : State) (id : Nat) (o : Op) : (s.setOp id o).mgt = s.mgt := rfl
@[simp] theorem State.wrefused_setOp (s : State) (id : Nat) (o : Op) : (s.setOp id o).wrefused = s.wrefused := rfl
@[simp] theorem State.rd_setOp (s : State) (id : Nat) (o : Op) (fl : Fld) (ix : Nat) : (s.setOp id o).rd fl ix = s.rd fl ix := rfl

/-! ### `State.modOp` -/

@[simp] theorem State.pending_modOp (s : State) (id : Nat) (g : Op → Op) : (s.modOp id g).pending = s.pending := rfl
@[simp] theorem State.fresh_modOp (s : State) (id : Nat) (g : Op → Op) : (s.modOp id g).fresh = s.fresh := rfl
@[simp] theorem State.outbox_modOp (s : State) (id : Nat) (g : Op → Op) : (s.modOp id g).outbox = s.outbox := rfl
@[simp] theorem State.ticks_modOp (s : State) (id : Nat) (g : Op → Op) : (s.modOp id g).ticks = s.ticks := rfl
@[simp] theorem State.now_modOp (s : State) (id : Nat) (g : Op → Op) : (s.modOp id g).now = s.now := rfl
@[simp] theorem State.power_modOp (s : State) (id : Nat) (g : Op → Op) : (s.modOp id g).power = s.power := rfl
@[simp] theorem State.regs_modOp (s : State) (id : Nat) (g : Op → Op) : (s.modOp id g).regs = s.regs := rfl
@[simp] theorem State.latches_modOp (s : State) (id : Nat) (g : Op → Op) : (s.modOp id g).latches = s.latches := rfl
@[simp] theorem State.kln_modOp (s : State) (id : Nat) (g : Op → Op) : (s.modOp id g).kln = s.kln := rfl
@[simp] theorem State.lay_modOp (s : State) (id : Nat) (g : Op → Op) : (s.modOp id g).lay = s.lay := rfl
@[simp] theorem State.built_modOp (s : State) (id : Nat) (g : Op → Op) : (s.modOp id g).built = s.built := rfl
@[simp] theorem State.cmn_modOp (s : State) (id : Nat) (g : Op → Op) : (s.modOp id g).cmn = s.cmn := rfl
@[simp] theorem State.mill_modOp (s : State) (id : Nat) (g : Op → Op) : (s.modOp id g).mill = s.mill := rfl
@[simp] theorem State.bxt_modOp (s : State) (id : Nat) (g : Op → Op) : (s.modOp id g).bxt = s.bxt := rfl
@[simp] theorem State.mem_modOp (s : State) (id : Nat) (g : Op → Op) : (s.modOp id g).mem = s.mem := rfl
@[simp] theorem State.tier_modOp (s : State) (id : Nat) (g : Op → Op) : (s.modOp id g).tier = s.tier := rfl
@[simp] theorem State.hpt_modOp (s : State) (id : Nat) (g : Op → Op) : (s.modOp id g).hpt = s.hpt := rfl
@[simp] theorem State.xlt_modOp (s : State) (id : Nat) (g : Op → Op) : (s.modOp id g).xlt = s.xlt := rfl
@[simp] theorem State.rings_modOp (s : State) (id : Nat) (g : Op → Op) : (s.modOp id g).rings = s.rings := rfl
@[simp] theorem State.fetched_modOp (s : State) (id : Nat) (g : Op → Op) : (s.modOp id g).fetched = s.fetched := rfl
@[simp] theorem State.ops_modOp (s : State) (id : Nat) (g : Op → Op) : (s.modOp id g).ops = Tbl.modify s.ops id g := rfl
@[simp] theorem State.nextOp_modOp (s : State) (id : Nat) (g : Op → Op) : (s.modOp id g).nextOp = s.nextOp := rfl
@[simp] theorem State.insts_modOp (s : State) (id : Nat) (g : Op → Op) : (s.modOp id g).insts = s.insts := rfl
@[simp] theorem State.parts_modOp (s : State) (id : Nat) (g : Op → Op) : (s.modOp id g).parts = s.parts := rfl
@[simp] theorem State.adm_modOp (s : State) (id : Nat) (g : Op → Op) : (s.modOp id g).adm = s.adm := rfl
@[simp] theorem State.meters_modOp (s : State) (id : Nat) (g : Op → Op) : (s.modOp id g).meters = s.meters := rfl
@[simp] theorem State.egress_modOp (s : State) (id : Nat) (g : Op → Op) : (s.modOp id g).egress = s.egress := rfl
@[simp] theorem State.lports_modOp (s : State) (id : Nat) (g : Op → Op) : (s.modOp id g).lports = s.lports := rfl
@[simp] theorem State.routes_modOp (s : State) (id : Nat) (g : Op → Op) : (s.modOp id g).routes = s.routes := rfl
@[simp] theorem State.wx_modOp (s : State) (id : Nat) (g : Op → Op) : (s.modOp id g).wx = s.wx := rfl
@[simp] theorem State.wxs_modOp (s : State) (id : Nat) (g : Op → Op) : (s.modOp id g).wxs = s.wxs := rfl
@[simp] theorem State.slots_modOp (s : State) (id : Nat) (g : Op → Op) : (s.modOp id g).slots = s.slots := rfl
@[simp] theorem State.mslots_modOp (s : State) (id : Nat) (g : Op → Op) : (s.modOp id g).mslots = s.mslots := rfl
@[simp] theorem State.cph_modOp (s : State) (id : Nat) (g : Op → Op) : (s.modOp id g).cph = s.cph := rfl
@[simp] theorem State.tru_modOp (s : State) (id : Nat) (g : Op → Op) : (s.modOp id g).tru = s.tru := rfl
@[simp] theorem State.ckp_modOp (s : State) (id : Nat) (g : Op → Op) : (s.modOp id g).ckp = s.ckp := rfl
@[simp] theorem State.pwr_modOp (s : State) (id : Nat) (g : Op → Op) : (s.modOp id g).pwr = s.pwr := rfl
@[simp] theorem State.pins_modOp (s : State) (id : Nat) (g : Op → Op) : (s.modOp id g).pins = s.pins := rfl
@[simp] theorem State.rst_modOp (s : State) (id : Nat) (g : Op → Op) : (s.modOp id g).rst = s.rst := rfl
@[simp] theorem State.log_modOp (s : State) (id : Nat) (g : Op → Op) : (s.modOp id g).log = s.log := rfl
@[simp] theorem State.inj_modOp (s : State) (id : Nat) (g : Op → Op) : (s.modOp id g).inj = s.inj := rfl
@[simp] theorem State.snap_modOp (s : State) (id : Nat) (g : Op → Op) : (s.modOp id g).snap = s.snap := rfl
@[simp] theorem State.mgt_modOp (s : State) (id : Nat) (g : Op → Op) : (s.modOp id g).mgt = s.mgt := rfl
@[simp] theorem State.wrefused_modOp (s : State) (id : Nat) (g : Op → Op) : (s.modOp id g).wrefused = s.wrefused := rfl
@[simp] theorem State.rd_modOp (s : State) (id : Nat) (g : Op → Op) (fl : Fld) (ix : Nat) : (s.modOp id g).rd fl ix = s.rd fl ix := rfl

/-! ### `State.modLport` -/

@[simp] theorem State.pending_modLport (s : State) (p : Nat) (g : LPort → LPort) : (s.modLport p g).pending = s.pending := rfl
@[simp] theorem State.fresh_modLport (s : State) (p : Nat) (g : LPort → LPort) : (s.modLport p g).fresh = s.fresh := rfl
@[simp] theorem State.outbox_modLport (s : State) (p : Nat) (g : LPort → LPort) : (s.modLport p g).outbox = s.outbox := rfl
@[simp] theorem State.ticks_modLport (s : State) (p : Nat) (g : LPort → LPort) : (s.modLport p g).ticks = s.ticks := rfl
@[simp] theorem State.now_modLport (s : State) (p : Nat) (g : LPort → LPort) : (s.modLport p g).now = s.now := rfl
@[simp] theorem State.power_modLport (s : State) (p : Nat) (g : LPort → LPort) : (s.modLport p g).power = s.power := rfl
@[simp] theorem State.regs_modLport (s : State) (p : Nat) (g : LPort → LPort) : (s.modLport p g).regs = s.regs := rfl
@[simp] theorem State.latches_modLport (s : State) (p : Nat) (g : LPort → LPort) : (s.modLport p g).latches = s.latches := rfl
@[simp] theorem State.kln_modLport (s : State) (p : Nat) (g : LPort → LPort) : (s.modLport p g).kln = s.kln := rfl
@[simp] theorem State.lay_modLport (s : State) (p : Nat) (g : LPort → LPort) : (s.modLport p g).lay = s.lay := rfl
@[simp] theorem State.built_modLport (s : State) (p : Nat) (g : LPort → LPort) : (s.modLport p g).built = s.built := rfl
@[simp] theorem State.cmn_modLport (s : State) (p : Nat) (g : LPort → LPort) : (s.modLport p g).cmn = s.cmn := rfl
@[simp] theorem State.mill_modLport (s : State) (p : Nat) (g : LPort → LPort) : (s.modLport p g).mill = s.mill := rfl
@[simp] theorem State.bxt_modLport (s : State) (p : Nat) (g : LPort → LPort) : (s.modLport p g).bxt = s.bxt := rfl
@[simp] theorem State.mem_modLport (s : State) (p : Nat) (g : LPort → LPort) : (s.modLport p g).mem = s.mem := rfl
@[simp] theorem State.tier_modLport (s : State) (p : Nat) (g : LPort → LPort) : (s.modLport p g).tier = s.tier := rfl
@[simp] theorem State.hpt_modLport (s : State) (p : Nat) (g : LPort → LPort) : (s.modLport p g).hpt = s.hpt := rfl
@[simp] theorem State.xlt_modLport (s : State) (p : Nat) (g : LPort → LPort) : (s.modLport p g).xlt = s.xlt := rfl
@[simp] theorem State.rings_modLport (s : State) (p : Nat) (g : LPort → LPort) : (s.modLport p g).rings = s.rings := rfl
@[simp] theorem State.fetched_modLport (s : State) (p : Nat) (g : LPort → LPort) : (s.modLport p g).fetched = s.fetched := rfl
@[simp] theorem State.ops_modLport (s : State) (p : Nat) (g : LPort → LPort) : (s.modLport p g).ops = s.ops := rfl
@[simp] theorem State.nextOp_modLport (s : State) (p : Nat) (g : LPort → LPort) : (s.modLport p g).nextOp = s.nextOp := rfl
@[simp] theorem State.insts_modLport (s : State) (p : Nat) (g : LPort → LPort) : (s.modLport p g).insts = s.insts := rfl
@[simp] theorem State.parts_modLport (s : State) (p : Nat) (g : LPort → LPort) : (s.modLport p g).parts = s.parts := rfl
@[simp] theorem State.adm_modLport (s : State) (p : Nat) (g : LPort → LPort) : (s.modLport p g).adm = s.adm := rfl
@[simp] theorem State.meters_modLport (s : State) (p : Nat) (g : LPort → LPort) : (s.modLport p g).meters = s.meters := rfl
@[simp] theorem State.egress_modLport (s : State) (p : Nat) (g : LPort → LPort) : (s.modLport p g).egress = s.egress := rfl
@[simp] theorem State.lports_modLport (s : State) (p : Nat) (g : LPort → LPort) : (s.modLport p g).lports = Tbl.set s.lports p (g (s.lport p)) := rfl
@[simp] theorem State.routes_modLport (s : State) (p : Nat) (g : LPort → LPort) : (s.modLport p g).routes = s.routes := rfl
@[simp] theorem State.wx_modLport (s : State) (p : Nat) (g : LPort → LPort) : (s.modLport p g).wx = s.wx := rfl
@[simp] theorem State.wxs_modLport (s : State) (p : Nat) (g : LPort → LPort) : (s.modLport p g).wxs = s.wxs := rfl
@[simp] theorem State.slots_modLport (s : State) (p : Nat) (g : LPort → LPort) : (s.modLport p g).slots = s.slots := rfl
@[simp] theorem State.mslots_modLport (s : State) (p : Nat) (g : LPort → LPort) : (s.modLport p g).mslots = s.mslots := rfl
@[simp] theorem State.cph_modLport (s : State) (p : Nat) (g : LPort → LPort) : (s.modLport p g).cph = s.cph := rfl
@[simp] theorem State.tru_modLport (s : State) (p : Nat) (g : LPort → LPort) : (s.modLport p g).tru = s.tru := rfl
@[simp] theorem State.ckp_modLport (s : State) (p : Nat) (g : LPort → LPort) : (s.modLport p g).ckp = s.ckp := rfl
@[simp] theorem State.pwr_modLport (s : State) (p : Nat) (g : LPort → LPort) : (s.modLport p g).pwr = s.pwr := rfl
@[simp] theorem State.pins_modLport (s : State) (p : Nat) (g : LPort → LPort) : (s.modLport p g).pins = s.pins := rfl
@[simp] theorem State.rst_modLport (s : State) (p : Nat) (g : LPort → LPort) : (s.modLport p g).rst = s.rst := rfl
@[simp] theorem State.log_modLport (s : State) (p : Nat) (g : LPort → LPort) : (s.modLport p g).log = s.log := rfl
@[simp] theorem State.inj_modLport (s : State) (p : Nat) (g : LPort → LPort) : (s.modLport p g).inj = s.inj := rfl
@[simp] theorem State.snap_modLport (s : State) (p : Nat) (g : LPort → LPort) : (s.modLport p g).snap = s.snap := rfl
@[simp] theorem State.mgt_modLport (s : State) (p : Nat) (g : LPort → LPort) : (s.modLport p g).mgt = s.mgt := rfl
@[simp] theorem State.wrefused_modLport (s : State) (p : Nat) (g : LPort → LPort) : (s.modLport p g).wrefused = s.wrefused := rfl
@[simp] theorem State.rd_modLport (s : State) (p : Nat) (g : LPort → LPort) (fl : Fld) (ix : Nat) : (s.modLport p g).rd fl ix = s.rd fl ix := rfl

/-! ### `State.setPart` -/

@[simp] theorem State.pending_setPart (s : State) (p : Nat) (r : Part) : (s.setPart p r).pending = s.pending := rfl
@[simp] theorem State.fresh_setPart (s : State) (p : Nat) (r : Part) : (s.setPart p r).fresh = s.fresh := rfl
@[simp] theorem State.outbox_setPart (s : State) (p : Nat) (r : Part) : (s.setPart p r).outbox = s.outbox := rfl
@[simp] theorem State.ticks_setPart (s : State) (p : Nat) (r : Part) : (s.setPart p r).ticks = s.ticks := rfl
@[simp] theorem State.now_setPart (s : State) (p : Nat) (r : Part) : (s.setPart p r).now = s.now := rfl
@[simp] theorem State.power_setPart (s : State) (p : Nat) (r : Part) : (s.setPart p r).power = s.power := rfl
@[simp] theorem State.regs_setPart (s : State) (p : Nat) (r : Part) : (s.setPart p r).regs = s.regs := rfl
@[simp] theorem State.latches_setPart (s : State) (p : Nat) (r : Part) : (s.setPart p r).latches = s.latches := rfl
@[simp] theorem State.kln_setPart (s : State) (p : Nat) (r : Part) : (s.setPart p r).kln = s.kln := rfl
@[simp] theorem State.lay_setPart (s : State) (p : Nat) (r : Part) : (s.setPart p r).lay = s.lay := rfl
@[simp] theorem State.built_setPart (s : State) (p : Nat) (r : Part) : (s.setPart p r).built = s.built := rfl
@[simp] theorem State.cmn_setPart (s : State) (p : Nat) (r : Part) : (s.setPart p r).cmn = s.cmn := rfl
@[simp] theorem State.mill_setPart (s : State) (p : Nat) (r : Part) : (s.setPart p r).mill = s.mill := rfl
@[simp] theorem State.bxt_setPart (s : State) (p : Nat) (r : Part) : (s.setPart p r).bxt = s.bxt := rfl
@[simp] theorem State.mem_setPart (s : State) (p : Nat) (r : Part) : (s.setPart p r).mem = s.mem := rfl
@[simp] theorem State.tier_setPart (s : State) (p : Nat) (r : Part) : (s.setPart p r).tier = s.tier := rfl
@[simp] theorem State.hpt_setPart (s : State) (p : Nat) (r : Part) : (s.setPart p r).hpt = s.hpt := rfl
@[simp] theorem State.xlt_setPart (s : State) (p : Nat) (r : Part) : (s.setPart p r).xlt = s.xlt := rfl
@[simp] theorem State.rings_setPart (s : State) (p : Nat) (r : Part) : (s.setPart p r).rings = s.rings := rfl
@[simp] theorem State.fetched_setPart (s : State) (p : Nat) (r : Part) : (s.setPart p r).fetched = s.fetched := rfl
@[simp] theorem State.ops_setPart (s : State) (p : Nat) (r : Part) : (s.setPart p r).ops = s.ops := rfl
@[simp] theorem State.nextOp_setPart (s : State) (p : Nat) (r : Part) : (s.setPart p r).nextOp = s.nextOp := rfl
@[simp] theorem State.insts_setPart (s : State) (p : Nat) (r : Part) : (s.setPart p r).insts = s.insts := rfl
@[simp] theorem State.parts_setPart (s : State) (p : Nat) (r : Part) : (s.setPart p r).parts = Tbl.set s.parts p r := rfl
@[simp] theorem State.adm_setPart (s : State) (p : Nat) (r : Part) : (s.setPart p r).adm = s.adm := rfl
@[simp] theorem State.meters_setPart (s : State) (p : Nat) (r : Part) : (s.setPart p r).meters = s.meters := rfl
@[simp] theorem State.egress_setPart (s : State) (p : Nat) (r : Part) : (s.setPart p r).egress = s.egress := rfl
@[simp] theorem State.lports_setPart (s : State) (p : Nat) (r : Part) : (s.setPart p r).lports = s.lports := rfl
@[simp] theorem State.routes_setPart (s : State) (p : Nat) (r : Part) : (s.setPart p r).routes = s.routes := rfl
@[simp] theorem State.wx_setPart (s : State) (p : Nat) (r : Part) : (s.setPart p r).wx = s.wx := rfl
@[simp] theorem State.wxs_setPart (s : State) (p : Nat) (r : Part) : (s.setPart p r).wxs = s.wxs := rfl
@[simp] theorem State.slots_setPart (s : State) (p : Nat) (r : Part) : (s.setPart p r).slots = s.slots := rfl
@[simp] theorem State.mslots_setPart (s : State) (p : Nat) (r : Part) : (s.setPart p r).mslots = s.mslots := rfl
@[simp] theorem State.cph_setPart (s : State) (p : Nat) (r : Part) : (s.setPart p r).cph = s.cph := rfl
@[simp] theorem State.tru_setPart (s : State) (p : Nat) (r : Part) : (s.setPart p r).tru = s.tru := rfl
@[simp] theorem State.ckp_setPart (s : State) (p : Nat) (r : Part) : (s.setPart p r).ckp = s.ckp := rfl
@[simp] theorem State.pwr_setPart (s : State) (p : Nat) (r : Part) : (s.setPart p r).pwr = s.pwr := rfl
@[simp] theorem State.pins_setPart (s : State) (p : Nat) (r : Part) : (s.setPart p r).pins = s.pins := rfl
@[simp] theorem State.rst_setPart (s : State) (p : Nat) (r : Part) : (s.setPart p r).rst = s.rst := rfl
@[simp] theorem State.log_setPart (s : State) (p : Nat) (r : Part) : (s.setPart p r).log = s.log := rfl
@[simp] theorem State.inj_setPart (s : State) (p : Nat) (r : Part) : (s.setPart p r).inj = s.inj := rfl
@[simp] theorem State.snap_setPart (s : State) (p : Nat) (r : Part) : (s.setPart p r).snap = s.snap := rfl
@[simp] theorem State.mgt_setPart (s : State) (p : Nat) (r : Part) : (s.setPart p r).mgt = s.mgt := rfl
@[simp] theorem State.wrefused_setPart (s : State) (p : Nat) (r : Part) : (s.setPart p r).wrefused = s.wrefused := rfl
@[simp] theorem State.rd_setPart (s : State) (p : Nat) (r : Part) (fl : Fld) (ix : Nat) : (s.setPart p r).rd fl ix = s.rd fl ix := rfl

/-! ### `State.setInst` -/

@[simp] theorem State.pending_setInst (s : State) (vf : Nat) (i : Inst) : (s.setInst vf i).pending = s.pending := rfl
@[simp] theorem State.fresh_setInst (s : State) (vf : Nat) (i : Inst) : (s.setInst vf i).fresh = s.fresh := rfl
@[simp] theorem State.outbox_setInst (s : State) (vf : Nat) (i : Inst) : (s.setInst vf i).outbox = s.outbox := rfl
@[simp] theorem State.ticks_setInst (s : State) (vf : Nat) (i : Inst) : (s.setInst vf i).ticks = s.ticks := rfl
@[simp] theorem State.now_setInst (s : State) (vf : Nat) (i : Inst) : (s.setInst vf i).now = s.now := rfl
@[simp] theorem State.power_setInst (s : State) (vf : Nat) (i : Inst) : (s.setInst vf i).power = s.power := rfl
@[simp] theorem State.regs_setInst (s : State) (vf : Nat) (i : Inst) : (s.setInst vf i).regs = s.regs := rfl
@[simp] theorem State.latches_setInst (s : State) (vf : Nat) (i : Inst) : (s.setInst vf i).latches = s.latches := rfl
@[simp] theorem State.kln_setInst (s : State) (vf : Nat) (i : Inst) : (s.setInst vf i).kln = s.kln := rfl
@[simp] theorem State.lay_setInst (s : State) (vf : Nat) (i : Inst) : (s.setInst vf i).lay = s.lay := rfl
@[simp] theorem State.built_setInst (s : State) (vf : Nat) (i : Inst) : (s.setInst vf i).built = s.built := rfl
@[simp] theorem State.cmn_setInst (s : State) (vf : Nat) (i : Inst) : (s.setInst vf i).cmn = s.cmn := rfl
@[simp] theorem State.mill_setInst (s : State) (vf : Nat) (i : Inst) : (s.setInst vf i).mill = s.mill := rfl
@[simp] theorem State.bxt_setInst (s : State) (vf : Nat) (i : Inst) : (s.setInst vf i).bxt = s.bxt := rfl
@[simp] theorem State.mem_setInst (s : State) (vf : Nat) (i : Inst) : (s.setInst vf i).mem = s.mem := rfl
@[simp] theorem State.tier_setInst (s : State) (vf : Nat) (i : Inst) : (s.setInst vf i).tier = s.tier := rfl
@[simp] theorem State.hpt_setInst (s : State) (vf : Nat) (i : Inst) : (s.setInst vf i).hpt = s.hpt := rfl
@[simp] theorem State.xlt_setInst (s : State) (vf : Nat) (i : Inst) : (s.setInst vf i).xlt = s.xlt := rfl
@[simp] theorem State.rings_setInst (s : State) (vf : Nat) (i : Inst) : (s.setInst vf i).rings = s.rings := rfl
@[simp] theorem State.fetched_setInst (s : State) (vf : Nat) (i : Inst) : (s.setInst vf i).fetched = s.fetched := rfl
@[simp] theorem State.ops_setInst (s : State) (vf : Nat) (i : Inst) : (s.setInst vf i).ops = s.ops := rfl
@[simp] theorem State.nextOp_setInst (s : State) (vf : Nat) (i : Inst) : (s.setInst vf i).nextOp = s.nextOp := rfl
@[simp] theorem State.insts_setInst (s : State) (vf : Nat) (i : Inst) : (s.setInst vf i).insts = Tbl.set s.insts vf i := rfl
@[simp] theorem State.parts_setInst (s : State) (vf : Nat) (i : Inst) : (s.setInst vf i).parts = s.parts := rfl
@[simp] theorem State.adm_setInst (s : State) (vf : Nat) (i : Inst) : (s.setInst vf i).adm = s.adm := rfl
@[simp] theorem State.meters_setInst (s : State) (vf : Nat) (i : Inst) : (s.setInst vf i).meters = s.meters := rfl
@[simp] theorem State.egress_setInst (s : State) (vf : Nat) (i : Inst) : (s.setInst vf i).egress = s.egress := rfl
@[simp] theorem State.lports_setInst (s : State) (vf : Nat) (i : Inst) : (s.setInst vf i).lports = s.lports := rfl
@[simp] theorem State.routes_setInst (s : State) (vf : Nat) (i : Inst) : (s.setInst vf i).routes = s.routes := rfl
@[simp] theorem State.wx_setInst (s : State) (vf : Nat) (i : Inst) : (s.setInst vf i).wx = s.wx := rfl
@[simp] theorem State.wxs_setInst (s : State) (vf : Nat) (i : Inst) : (s.setInst vf i).wxs = s.wxs := rfl
@[simp] theorem State.slots_setInst (s : State) (vf : Nat) (i : Inst) : (s.setInst vf i).slots = s.slots := rfl
@[simp] theorem State.mslots_setInst (s : State) (vf : Nat) (i : Inst) : (s.setInst vf i).mslots = s.mslots := rfl
@[simp] theorem State.cph_setInst (s : State) (vf : Nat) (i : Inst) : (s.setInst vf i).cph = s.cph := rfl
@[simp] theorem State.tru_setInst (s : State) (vf : Nat) (i : Inst) : (s.setInst vf i).tru = s.tru := rfl
@[simp] theorem State.ckp_setInst (s : State) (vf : Nat) (i : Inst) : (s.setInst vf i).ckp = s.ckp := rfl
@[simp] theorem State.pwr_setInst (s : State) (vf : Nat) (i : Inst) : (s.setInst vf i).pwr = s.pwr := rfl
@[simp] theorem State.pins_setInst (s : State) (vf : Nat) (i : Inst) : (s.setInst vf i).pins = s.pins := rfl
@[simp] theorem State.rst_setInst (s : State) (vf : Nat) (i : Inst) : (s.setInst vf i).rst = s.rst := rfl
@[simp] theorem State.log_setInst (s : State) (vf : Nat) (i : Inst) : (s.setInst vf i).log = s.log := rfl
@[simp] theorem State.inj_setInst (s : State) (vf : Nat) (i : Inst) : (s.setInst vf i).inj = s.inj := rfl
@[simp] theorem State.snap_setInst (s : State) (vf : Nat) (i : Inst) : (s.setInst vf i).snap = s.snap := rfl
@[simp] theorem State.mgt_setInst (s : State) (vf : Nat) (i : Inst) : (s.setInst vf i).mgt = s.mgt := rfl
@[simp] theorem State.wrefused_setInst (s : State) (vf : Nat) (i : Inst) : (s.setInst vf i).wrefused = s.wrefused := rfl
@[simp] theorem State.rd_setInst (s : State) (vf : Nat) (i : Inst) (fl : Fld) (ix : Nat) : (s.setInst vf i).rd fl ix = s.rd fl ix := rfl

/-! ### `State.setGroup` -/

@[simp] theorem State.pending_setGroup (s : State) (slot : Nat) (g : Group) : (s.setGroup slot g).pending = s.pending := rfl
@[simp] theorem State.fresh_setGroup (s : State) (slot : Nat) (g : Group) : (s.setGroup slot g).fresh = s.fresh := rfl
@[simp] theorem State.outbox_setGroup (s : State) (slot : Nat) (g : Group) : (s.setGroup slot g).outbox = s.outbox := rfl
@[simp] theorem State.ticks_setGroup (s : State) (slot : Nat) (g : Group) : (s.setGroup slot g).ticks = s.ticks := rfl
@[simp] theorem State.now_setGroup (s : State) (slot : Nat) (g : Group) : (s.setGroup slot g).now = s.now := rfl
@[simp] theorem State.power_setGroup (s : State) (slot : Nat) (g : Group) : (s.setGroup slot g).power = s.power := rfl
@[simp] theorem State.regs_setGroup (s : State) (slot : Nat) (g : Group) : (s.setGroup slot g).regs = s.regs := rfl
@[simp] theorem State.latches_setGroup (s : State) (slot : Nat) (g : Group) : (s.setGroup slot g).latches = s.latches := rfl
@[simp] theorem State.kln_setGroup (s : State) (slot : Nat) (g : Group) : (s.setGroup slot g).kln = s.kln := rfl
@[simp] theorem State.lay_setGroup (s : State) (slot : Nat) (g : Group) : (s.setGroup slot g).lay = s.lay := rfl
@[simp] theorem State.built_setGroup (s : State) (slot : Nat) (g : Group) : (s.setGroup slot g).built = s.built := rfl
@[simp] theorem State.cmn_setGroup (s : State) (slot : Nat) (g : Group) : (s.setGroup slot g).cmn = { s.cmn with groups := Tbl.set s.cmn.groups slot g } := rfl
@[simp] theorem State.mill_setGroup (s : State) (slot : Nat) (g : Group) : (s.setGroup slot g).mill = s.mill := rfl
@[simp] theorem State.bxt_setGroup (s : State) (slot : Nat) (g : Group) : (s.setGroup slot g).bxt = s.bxt := rfl
@[simp] theorem State.mem_setGroup (s : State) (slot : Nat) (g : Group) : (s.setGroup slot g).mem = s.mem := rfl
@[simp] theorem State.tier_setGroup (s : State) (slot : Nat) (g : Group) : (s.setGroup slot g).tier = s.tier := rfl
@[simp] theorem State.hpt_setGroup (s : State) (slot : Nat) (g : Group) : (s.setGroup slot g).hpt = s.hpt := rfl
@[simp] theorem State.xlt_setGroup (s : State) (slot : Nat) (g : Group) : (s.setGroup slot g).xlt = s.xlt := rfl
@[simp] theorem State.rings_setGroup (s : State) (slot : Nat) (g : Group) : (s.setGroup slot g).rings = s.rings := rfl
@[simp] theorem State.fetched_setGroup (s : State) (slot : Nat) (g : Group) : (s.setGroup slot g).fetched = s.fetched := rfl
@[simp] theorem State.ops_setGroup (s : State) (slot : Nat) (g : Group) : (s.setGroup slot g).ops = s.ops := rfl
@[simp] theorem State.nextOp_setGroup (s : State) (slot : Nat) (g : Group) : (s.setGroup slot g).nextOp = s.nextOp := rfl
@[simp] theorem State.insts_setGroup (s : State) (slot : Nat) (g : Group) : (s.setGroup slot g).insts = s.insts := rfl
@[simp] theorem State.parts_setGroup (s : State) (slot : Nat) (g : Group) : (s.setGroup slot g).parts = s.parts := rfl
@[simp] theorem State.adm_setGroup (s : State) (slot : Nat) (g : Group) : (s.setGroup slot g).adm = s.adm := rfl
@[simp] theorem State.meters_setGroup (s : State) (slot : Nat) (g : Group) : (s.setGroup slot g).meters = s.meters := rfl
@[simp] theorem State.egress_setGroup (s : State) (slot : Nat) (g : Group) : (s.setGroup slot g).egress = s.egress := rfl
@[simp] theorem State.lports_setGroup (s : State) (slot : Nat) (g : Group) : (s.setGroup slot g).lports = s.lports := rfl
@[simp] theorem State.routes_setGroup (s : State) (slot : Nat) (g : Group) : (s.setGroup slot g).routes = s.routes := rfl
@[simp] theorem State.wx_setGroup (s : State) (slot : Nat) (g : Group) : (s.setGroup slot g).wx = s.wx := rfl
@[simp] theorem State.wxs_setGroup (s : State) (slot : Nat) (g : Group) : (s.setGroup slot g).wxs = s.wxs := rfl
@[simp] theorem State.slots_setGroup (s : State) (slot : Nat) (g : Group) : (s.setGroup slot g).slots = s.slots := rfl
@[simp] theorem State.mslots_setGroup (s : State) (slot : Nat) (g : Group) : (s.setGroup slot g).mslots = s.mslots := rfl
@[simp] theorem State.cph_setGroup (s : State) (slot : Nat) (g : Group) : (s.setGroup slot g).cph = s.cph := rfl
@[simp] theorem State.tru_setGroup (s : State) (slot : Nat) (g : Group) : (s.setGroup slot g).tru = s.tru := rfl
@[simp] theorem State.ckp_setGroup (s : State) (slot : Nat) (g : Group) : (s.setGroup slot g).ckp = s.ckp := rfl
@[simp] theorem State.pwr_setGroup (s : State) (slot : Nat) (g : Group) : (s.setGroup slot g).pwr = s.pwr := rfl
@[simp] theorem State.pins_setGroup (s : State) (slot : Nat) (g : Group) : (s.setGroup slot g).pins = s.pins := rfl
@[simp] theorem State.rst_setGroup (s : State) (slot : Nat) (g : Group) : (s.setGroup slot g).rst = s.rst := rfl
@[simp] theorem State.log_setGroup (s : State) (slot : Nat) (g : Group) : (s.setGroup slot g).log = s.log := rfl
@[simp] theorem State.inj_setGroup (s : State) (slot : Nat) (g : Group) : (s.setGroup slot g).inj = s.inj := rfl
@[simp] theorem State.snap_setGroup (s : State) (slot : Nat) (g : Group) : (s.setGroup slot g).snap = s.snap := rfl
@[simp] theorem State.mgt_setGroup (s : State) (slot : Nat) (g : Group) : (s.setGroup slot g).mgt = s.mgt := rfl
@[simp] theorem State.wrefused_setGroup (s : State) (slot : Nat) (g : Group) : (s.setGroup slot g).wrefused = s.wrefused := rfl
@[simp] theorem State.rd_setGroup (s : State) (slot : Nat) (g : Group) (fl : Fld) (ix : Nat) : (s.setGroup slot g).rd fl ix = s.rd fl ix := rfl

/-! ### `State.setStream` -/

@[simp] theorem State.pending_setStream (s : State) (n : Nat) (k : CkpStream) : (s.setStream n k).pending = s.pending := rfl
@[simp] theorem State.fresh_setStream (s : State) (n : Nat) (k : CkpStream) : (s.setStream n k).fresh = s.fresh := rfl
@[simp] theorem State.outbox_setStream (s : State) (n : Nat) (k : CkpStream) : (s.setStream n k).outbox = s.outbox := rfl
@[simp] theorem State.ticks_setStream (s : State) (n : Nat) (k : CkpStream) : (s.setStream n k).ticks = s.ticks := rfl
@[simp] theorem State.now_setStream (s : State) (n : Nat) (k : CkpStream) : (s.setStream n k).now = s.now := rfl
@[simp] theorem State.power_setStream (s : State) (n : Nat) (k : CkpStream) : (s.setStream n k).power = s.power := rfl
@[simp] theorem State.regs_setStream (s : State) (n : Nat) (k : CkpStream) : (s.setStream n k).regs = s.regs := rfl
@[simp] theorem State.latches_setStream (s : State) (n : Nat) (k : CkpStream) : (s.setStream n k).latches = s.latches := rfl
@[simp] theorem State.kln_setStream (s : State) (n : Nat) (k : CkpStream) : (s.setStream n k).kln = s.kln := rfl
@[simp] theorem State.lay_setStream (s : State) (n : Nat) (k : CkpStream) : (s.setStream n k).lay = s.lay := rfl
@[simp] theorem State.built_setStream (s : State) (n : Nat) (k : CkpStream) : (s.setStream n k).built = s.built := rfl
@[simp] theorem State.cmn_setStream (s : State) (n : Nat) (k : CkpStream) : (s.setStream n k).cmn = s.cmn := rfl
@[simp] theorem State.mill_setStream (s : State) (n : Nat) (k : CkpStream) : (s.setStream n k).mill = s.mill := rfl
@[simp] theorem State.bxt_setStream (s : State) (n : Nat) (k : CkpStream) : (s.setStream n k).bxt = s.bxt := rfl
@[simp] theorem State.mem_setStream (s : State) (n : Nat) (k : CkpStream) : (s.setStream n k).mem = s.mem := rfl
@[simp] theorem State.tier_setStream (s : State) (n : Nat) (k : CkpStream) : (s.setStream n k).tier = s.tier := rfl
@[simp] theorem State.hpt_setStream (s : State) (n : Nat) (k : CkpStream) : (s.setStream n k).hpt = s.hpt := rfl
@[simp] theorem State.xlt_setStream (s : State) (n : Nat) (k : CkpStream) : (s.setStream n k).xlt = s.xlt := rfl
@[simp] theorem State.rings_setStream (s : State) (n : Nat) (k : CkpStream) : (s.setStream n k).rings = s.rings := rfl
@[simp] theorem State.fetched_setStream (s : State) (n : Nat) (k : CkpStream) : (s.setStream n k).fetched = s.fetched := rfl
@[simp] theorem State.ops_setStream (s : State) (n : Nat) (k : CkpStream) : (s.setStream n k).ops = s.ops := rfl
@[simp] theorem State.nextOp_setStream (s : State) (n : Nat) (k : CkpStream) : (s.setStream n k).nextOp = s.nextOp := rfl
@[simp] theorem State.insts_setStream (s : State) (n : Nat) (k : CkpStream) : (s.setStream n k).insts = s.insts := rfl
@[simp] theorem State.parts_setStream (s : State) (n : Nat) (k : CkpStream) : (s.setStream n k).parts = s.parts := rfl
@[simp] theorem State.adm_setStream (s : State) (n : Nat) (k : CkpStream) : (s.setStream n k).adm = s.adm := rfl
@[simp] theorem State.meters_setStream (s : State) (n : Nat) (k : CkpStream) : (s.setStream n k).meters = s.meters := rfl
@[simp] theorem State.egress_setStream (s : State) (n : Nat) (k : CkpStream) : (s.setStream n k).egress = s.egress := rfl
@[simp] theorem State.lports_setStream (s : State) (n : Nat) (k : CkpStream) : (s.setStream n k).lports = s.lports := rfl
@[simp] theorem State.routes_setStream (s : State) (n : Nat) (k : CkpStream) : (s.setStream n k).routes = s.routes := rfl
@[simp] theorem State.wx_setStream (s : State) (n : Nat) (k : CkpStream) : (s.setStream n k).wx = s.wx := rfl
@[simp] theorem State.wxs_setStream (s : State) (n : Nat) (k : CkpStream) : (s.setStream n k).wxs = s.wxs := rfl
@[simp] theorem State.slots_setStream (s : State) (n : Nat) (k : CkpStream) : (s.setStream n k).slots = s.slots := rfl
@[simp] theorem State.mslots_setStream (s : State) (n : Nat) (k : CkpStream) : (s.setStream n k).mslots = s.mslots := rfl
@[simp] theorem State.cph_setStream (s : State) (n : Nat) (k : CkpStream) : (s.setStream n k).cph = s.cph := rfl
@[simp] theorem State.tru_setStream (s : State) (n : Nat) (k : CkpStream) : (s.setStream n k).tru = s.tru := rfl
@[simp] theorem State.ckp_setStream (s : State) (n : Nat) (k : CkpStream) : (s.setStream n k).ckp = { s.ckp with streams := Tbl.set s.ckp.streams n k } := rfl
@[simp] theorem State.pwr_setStream (s : State) (n : Nat) (k : CkpStream) : (s.setStream n k).pwr = s.pwr := rfl
@[simp] theorem State.pins_setStream (s : State) (n : Nat) (k : CkpStream) : (s.setStream n k).pins = s.pins := rfl
@[simp] theorem State.rst_setStream (s : State) (n : Nat) (k : CkpStream) : (s.setStream n k).rst = s.rst := rfl
@[simp] theorem State.log_setStream (s : State) (n : Nat) (k : CkpStream) : (s.setStream n k).log = s.log := rfl
@[simp] theorem State.inj_setStream (s : State) (n : Nat) (k : CkpStream) : (s.setStream n k).inj = s.inj := rfl
@[simp] theorem State.snap_setStream (s : State) (n : Nat) (k : CkpStream) : (s.setStream n k).snap = s.snap := rfl
@[simp] theorem State.mgt_setStream (s : State) (n : Nat) (k : CkpStream) : (s.setStream n k).mgt = s.mgt := rfl
@[simp] theorem State.wrefused_setStream (s : State) (n : Nat) (k : CkpStream) : (s.setStream n k).wrefused = s.wrefused := rfl
@[simp] theorem State.rd_setStream (s : State) (n : Nat) (k : CkpStream) (fl : Fld) (ix : Nat) : (s.setStream n k).rd fl ix = s.rd fl ix := rfl

/-! ### `State.setTgt` -/

@[simp] theorem State.pending_setTgt (s : State) (n : Nat) (k : CkpTgt) : (s.setTgt n k).pending = s.pending := rfl
@[simp] theorem State.fresh_setTgt (s : State) (n : Nat) (k : CkpTgt) : (s.setTgt n k).fresh = s.fresh := rfl
@[simp] theorem State.outbox_setTgt (s : State) (n : Nat) (k : CkpTgt) : (s.setTgt n k).outbox = s.outbox := rfl
@[simp] theorem State.ticks_setTgt (s : State) (n : Nat) (k : CkpTgt) : (s.setTgt n k).ticks = s.ticks := rfl
@[simp] theorem State.now_setTgt (s : State) (n : Nat) (k : CkpTgt) : (s.setTgt n k).now = s.now := rfl
@[simp] theorem State.power_setTgt (s : State) (n : Nat) (k : CkpTgt) : (s.setTgt n k).power = s.power := rfl
@[simp] theorem State.regs_setTgt (s : State) (n : Nat) (k : CkpTgt) : (s.setTgt n k).regs = s.regs := rfl
@[simp] theorem State.latches_setTgt (s : State) (n : Nat) (k : CkpTgt) : (s.setTgt n k).latches = s.latches := rfl
@[simp] theorem State.kln_setTgt (s : State) (n : Nat) (k : CkpTgt) : (s.setTgt n k).kln = s.kln := rfl
@[simp] theorem State.lay_setTgt (s : State) (n : Nat) (k : CkpTgt) : (s.setTgt n k).lay = s.lay := rfl
@[simp] theorem State.built_setTgt (s : State) (n : Nat) (k : CkpTgt) : (s.setTgt n k).built = s.built := rfl
@[simp] theorem State.cmn_setTgt (s : State) (n : Nat) (k : CkpTgt) : (s.setTgt n k).cmn = s.cmn := rfl
@[simp] theorem State.mill_setTgt (s : State) (n : Nat) (k : CkpTgt) : (s.setTgt n k).mill = s.mill := rfl
@[simp] theorem State.bxt_setTgt (s : State) (n : Nat) (k : CkpTgt) : (s.setTgt n k).bxt = s.bxt := rfl
@[simp] theorem State.mem_setTgt (s : State) (n : Nat) (k : CkpTgt) : (s.setTgt n k).mem = s.mem := rfl
@[simp] theorem State.tier_setTgt (s : State) (n : Nat) (k : CkpTgt) : (s.setTgt n k).tier = s.tier := rfl
@[simp] theorem State.hpt_setTgt (s : State) (n : Nat) (k : CkpTgt) : (s.setTgt n k).hpt = s.hpt := rfl
@[simp] theorem State.xlt_setTgt (s : State) (n : Nat) (k : CkpTgt) : (s.setTgt n k).xlt = s.xlt := rfl
@[simp] theorem State.rings_setTgt (s : State) (n : Nat) (k : CkpTgt) : (s.setTgt n k).rings = s.rings := rfl
@[simp] theorem State.fetched_setTgt (s : State) (n : Nat) (k : CkpTgt) : (s.setTgt n k).fetched = s.fetched := rfl
@[simp] theorem State.ops_setTgt (s : State) (n : Nat) (k : CkpTgt) : (s.setTgt n k).ops = s.ops := rfl
@[simp] theorem State.nextOp_setTgt (s : State) (n : Nat) (k : CkpTgt) : (s.setTgt n k).nextOp = s.nextOp := rfl
@[simp] theorem State.insts_setTgt (s : State) (n : Nat) (k : CkpTgt) : (s.setTgt n k).insts = s.insts := rfl
@[simp] theorem State.parts_setTgt (s : State) (n : Nat) (k : CkpTgt) : (s.setTgt n k).parts = s.parts := rfl
@[simp] theorem State.adm_setTgt (s : State) (n : Nat) (k : CkpTgt) : (s.setTgt n k).adm = s.adm := rfl
@[simp] theorem State.meters_setTgt (s : State) (n : Nat) (k : CkpTgt) : (s.setTgt n k).meters = s.meters := rfl
@[simp] theorem State.egress_setTgt (s : State) (n : Nat) (k : CkpTgt) : (s.setTgt n k).egress = s.egress := rfl
@[simp] theorem State.lports_setTgt (s : State) (n : Nat) (k : CkpTgt) : (s.setTgt n k).lports = s.lports := rfl
@[simp] theorem State.routes_setTgt (s : State) (n : Nat) (k : CkpTgt) : (s.setTgt n k).routes = s.routes := rfl
@[simp] theorem State.wx_setTgt (s : State) (n : Nat) (k : CkpTgt) : (s.setTgt n k).wx = s.wx := rfl
@[simp] theorem State.wxs_setTgt (s : State) (n : Nat) (k : CkpTgt) : (s.setTgt n k).wxs = s.wxs := rfl
@[simp] theorem State.slots_setTgt (s : State) (n : Nat) (k : CkpTgt) : (s.setTgt n k).slots = s.slots := rfl
@[simp] theorem State.mslots_setTgt (s : State) (n : Nat) (k : CkpTgt) : (s.setTgt n k).mslots = s.mslots := rfl
@[simp] theorem State.cph_setTgt (s : State) (n : Nat) (k : CkpTgt) : (s.setTgt n k).cph = s.cph := rfl
@[simp] theorem State.tru_setTgt (s : State) (n : Nat) (k : CkpTgt) : (s.setTgt n k).tru = s.tru := rfl
@[simp] theorem State.ckp_setTgt (s : State) (n : Nat) (k : CkpTgt) : (s.setTgt n k).ckp = { s.ckp with tgts := Tbl.set s.ckp.tgts n k } := rfl
@[simp] theorem State.pwr_setTgt (s : State) (n : Nat) (k : CkpTgt) : (s.setTgt n k).pwr = s.pwr := rfl
@[simp] theorem State.pins_setTgt (s : State) (n : Nat) (k : CkpTgt) : (s.setTgt n k).pins = s.pins := rfl
@[simp] theorem State.rst_setTgt (s : State) (n : Nat) (k : CkpTgt) : (s.setTgt n k).rst = s.rst := rfl
@[simp] theorem State.log_setTgt (s : State) (n : Nat) (k : CkpTgt) : (s.setTgt n k).log = s.log := rfl
@[simp] theorem State.inj_setTgt (s : State) (n : Nat) (k : CkpTgt) : (s.setTgt n k).inj = s.inj := rfl
@[simp] theorem State.snap_setTgt (s : State) (n : Nat) (k : CkpTgt) : (s.setTgt n k).snap = s.snap := rfl
@[simp] theorem State.mgt_setTgt (s : State) (n : Nat) (k : CkpTgt) : (s.setTgt n k).mgt = s.mgt := rfl
@[simp] theorem State.wrefused_setTgt (s : State) (n : Nat) (k : CkpTgt) : (s.setTgt n k).wrefused = s.wrefused := rfl
@[simp] theorem State.rd_setTgt (s : State) (n : Nat) (k : CkpTgt) (fl : Fld) (ix : Nat) : (s.setTgt n k).rd fl ix = s.rd fl ix := rfl

/-! ### `State.setKln` -/

@[simp] theorem State.pending_setKln (s : State) (m d : Nat) (k : KlnDir) : (s.setKln m d k).pending = s.pending := rfl
@[simp] theorem State.fresh_setKln (s : State) (m d : Nat) (k : KlnDir) : (s.setKln m d k).fresh = s.fresh := rfl
@[simp] theorem State.outbox_setKln (s : State) (m d : Nat) (k : KlnDir) : (s.setKln m d k).outbox = s.outbox := rfl
@[simp] theorem State.ticks_setKln (s : State) (m d : Nat) (k : KlnDir) : (s.setKln m d k).ticks = s.ticks := rfl
@[simp] theorem State.now_setKln (s : State) (m d : Nat) (k : KlnDir) : (s.setKln m d k).now = s.now := rfl
@[simp] theorem State.power_setKln (s : State) (m d : Nat) (k : KlnDir) : (s.setKln m d k).power = s.power := rfl
@[simp] theorem State.regs_setKln (s : State) (m d : Nat) (k : KlnDir) : (s.setKln m d k).regs = s.regs := rfl
@[simp] theorem State.latches_setKln (s : State) (m d : Nat) (k : KlnDir) : (s.setKln m d k).latches = s.latches := rfl
@[simp] theorem State.kln_setKln (s : State) (m d : Nat) (k : KlnDir) : (s.setKln m d k).kln = { s.kln with dirs := Tbl.set s.kln.dirs (m * 2 + d) k } := rfl
@[simp] theorem State.lay_setKln (s : State) (m d : Nat) (k : KlnDir) : (s.setKln m d k).lay = s.lay := rfl
@[simp] theorem State.built_setKln (s : State) (m d : Nat) (k : KlnDir) : (s.setKln m d k).built = s.built := rfl
@[simp] theorem State.cmn_setKln (s : State) (m d : Nat) (k : KlnDir) : (s.setKln m d k).cmn = s.cmn := rfl
@[simp] theorem State.mill_setKln (s : State) (m d : Nat) (k : KlnDir) : (s.setKln m d k).mill = s.mill := rfl
@[simp] theorem State.bxt_setKln (s : State) (m d : Nat) (k : KlnDir) : (s.setKln m d k).bxt = s.bxt := rfl
@[simp] theorem State.mem_setKln (s : State) (m d : Nat) (k : KlnDir) : (s.setKln m d k).mem = s.mem := rfl
@[simp] theorem State.tier_setKln (s : State) (m d : Nat) (k : KlnDir) : (s.setKln m d k).tier = s.tier := rfl
@[simp] theorem State.hpt_setKln (s : State) (m d : Nat) (k : KlnDir) : (s.setKln m d k).hpt = s.hpt := rfl
@[simp] theorem State.xlt_setKln (s : State) (m d : Nat) (k : KlnDir) : (s.setKln m d k).xlt = s.xlt := rfl
@[simp] theorem State.rings_setKln (s : State) (m d : Nat) (k : KlnDir) : (s.setKln m d k).rings = s.rings := rfl
@[simp] theorem State.fetched_setKln (s : State) (m d : Nat) (k : KlnDir) : (s.setKln m d k).fetched = s.fetched := rfl
@[simp] theorem State.ops_setKln (s : State) (m d : Nat) (k : KlnDir) : (s.setKln m d k).ops = s.ops := rfl
@[simp] theorem State.nextOp_setKln (s : State) (m d : Nat) (k : KlnDir) : (s.setKln m d k).nextOp = s.nextOp := rfl
@[simp] theorem State.insts_setKln (s : State) (m d : Nat) (k : KlnDir) : (s.setKln m d k).insts = s.insts := rfl
@[simp] theorem State.parts_setKln (s : State) (m d : Nat) (k : KlnDir) : (s.setKln m d k).parts = s.parts := rfl
@[simp] theorem State.adm_setKln (s : State) (m d : Nat) (k : KlnDir) : (s.setKln m d k).adm = s.adm := rfl
@[simp] theorem State.meters_setKln (s : State) (m d : Nat) (k : KlnDir) : (s.setKln m d k).meters = s.meters := rfl
@[simp] theorem State.egress_setKln (s : State) (m d : Nat) (k : KlnDir) : (s.setKln m d k).egress = s.egress := rfl
@[simp] theorem State.lports_setKln (s : State) (m d : Nat) (k : KlnDir) : (s.setKln m d k).lports = s.lports := rfl
@[simp] theorem State.routes_setKln (s : State) (m d : Nat) (k : KlnDir) : (s.setKln m d k).routes = s.routes := rfl
@[simp] theorem State.wx_setKln (s : State) (m d : Nat) (k : KlnDir) : (s.setKln m d k).wx = s.wx := rfl
@[simp] theorem State.wxs_setKln (s : State) (m d : Nat) (k : KlnDir) : (s.setKln m d k).wxs = s.wxs := rfl
@[simp] theorem State.slots_setKln (s : State) (m d : Nat) (k : KlnDir) : (s.setKln m d k).slots = s.slots := rfl
@[simp] theorem State.mslots_setKln (s : State) (m d : Nat) (k : KlnDir) : (s.setKln m d k).mslots = s.mslots := rfl
@[simp] theorem State.cph_setKln (s : State) (m d : Nat) (k : KlnDir) : (s.setKln m d k).cph = s.cph := rfl
@[simp] theorem State.tru_setKln (s : State) (m d : Nat) (k : KlnDir) : (s.setKln m d k).tru = s.tru := rfl
@[simp] theorem State.ckp_setKln (s : State) (m d : Nat) (k : KlnDir) : (s.setKln m d k).ckp = s.ckp := rfl
@[simp] theorem State.pwr_setKln (s : State) (m d : Nat) (k : KlnDir) : (s.setKln m d k).pwr = s.pwr := rfl
@[simp] theorem State.pins_setKln (s : State) (m d : Nat) (k : KlnDir) : (s.setKln m d k).pins = s.pins := rfl
@[simp] theorem State.rst_setKln (s : State) (m d : Nat) (k : KlnDir) : (s.setKln m d k).rst = s.rst := rfl
@[simp] theorem State.log_setKln (s : State) (m d : Nat) (k : KlnDir) : (s.setKln m d k).log = s.log := rfl
@[simp] theorem State.inj_setKln (s : State) (m d : Nat) (k : KlnDir) : (s.setKln m d k).inj = s.inj := rfl
@[simp] theorem State.snap_setKln (s : State) (m d : Nat) (k : KlnDir) : (s.setKln m d k).snap = s.snap := rfl
@[simp] theorem State.mgt_setKln (s : State) (m d : Nat) (k : KlnDir) : (s.setKln m d k).mgt = s.mgt := rfl
@[simp] theorem State.wrefused_setKln (s : State) (m d : Nat) (k : KlnDir) : (s.setKln m d k).wrefused = s.wrefused := rfl
@[simp] theorem State.rd_setKln (s : State) (m d : Nat) (k : KlnDir) (fl : Fld) (ix : Nat) : (s.setKln m d k).rd fl ix = s.rd fl ix := rfl

/-! ### `State.memWrite` -/

@[simp] theorem State.pending_memWrite (s : State) (a : Nat) (d : List Byte) : (s.memWrite a d).pending = s.pending := rfl
@[simp] theorem State.fresh_memWrite (s : State) (a : Nat) (d : List Byte) : (s.memWrite a d).fresh = s.fresh := rfl
@[simp] theorem State.outbox_memWrite (s : State) (a : Nat) (d : List Byte) : (s.memWrite a d).outbox = s.outbox := rfl
@[simp] theorem State.ticks_memWrite (s : State) (a : Nat) (d : List Byte) : (s.memWrite a d).ticks = s.ticks := rfl
@[simp] theorem State.now_memWrite (s : State) (a : Nat) (d : List Byte) : (s.memWrite a d).now = s.now := rfl
@[simp] theorem State.power_memWrite (s : State) (a : Nat) (d : List Byte) : (s.memWrite a d).power = s.power := rfl
@[simp] theorem State.regs_memWrite (s : State) (a : Nat) (d : List Byte) : (s.memWrite a d).regs = s.regs := rfl
@[simp] theorem State.latches_memWrite (s : State) (a : Nat) (d : List Byte) : (s.memWrite a d).latches = s.latches := rfl
@[simp] theorem State.kln_memWrite (s : State) (a : Nat) (d : List Byte) : (s.memWrite a d).kln = s.kln := rfl
@[simp] theorem State.lay_memWrite (s : State) (a : Nat) (d : List Byte) : (s.memWrite a d).lay = s.lay := rfl
@[simp] theorem State.built_memWrite (s : State) (a : Nat) (d : List Byte) : (s.memWrite a d).built = s.built := rfl
@[simp] theorem State.cmn_memWrite (s : State) (a : Nat) (d : List Byte) : (s.memWrite a d).cmn = s.cmn := rfl
@[simp] theorem State.mill_memWrite (s : State) (a : Nat) (d : List Byte) : (s.memWrite a d).mill = s.mill := rfl
@[simp] theorem State.bxt_memWrite (s : State) (a : Nat) (d : List Byte) : (s.memWrite a d).bxt = s.bxt := rfl
@[simp] theorem State.mem_memWrite (s : State) (a : Nat) (d : List Byte) : (s.memWrite a d).mem = Memory.write s.mem a d := rfl
@[simp] theorem State.hpt_memWrite (s : State) (a : Nat) (d : List Byte) : (s.memWrite a d).hpt = s.hpt := rfl
@[simp] theorem State.xlt_memWrite (s : State) (a : Nat) (d : List Byte) : (s.memWrite a d).xlt = s.xlt := rfl
@[simp] theorem State.rings_memWrite (s : State) (a : Nat) (d : List Byte) : (s.memWrite a d).rings = s.rings := rfl
@[simp] theorem State.fetched_memWrite (s : State) (a : Nat) (d : List Byte) : (s.memWrite a d).fetched = s.fetched := rfl
@[simp] theorem State.ops_memWrite (s : State) (a : Nat) (d : List Byte) : (s.memWrite a d).ops = s.ops := rfl
@[simp] theorem State.nextOp_memWrite (s : State) (a : Nat) (d : List Byte) : (s.memWrite a d).nextOp = s.nextOp := rfl
@[simp] theorem State.insts_memWrite (s : State) (a : Nat) (d : List Byte) : (s.memWrite a d).insts = s.insts := rfl
@[simp] theorem State.parts_memWrite (s : State) (a : Nat) (d : List Byte) : (s.memWrite a d).parts = s.parts := rfl
@[simp] theorem State.adm_memWrite (s : State) (a : Nat) (d : List Byte) : (s.memWrite a d).adm = s.adm := rfl
@[simp] theorem State.meters_memWrite (s : State) (a : Nat) (d : List Byte) : (s.memWrite a d).meters = s.meters := rfl
@[simp] theorem State.egress_memWrite (s : State) (a : Nat) (d : List Byte) : (s.memWrite a d).egress = s.egress := rfl
@[simp] theorem State.lports_memWrite (s : State) (a : Nat) (d : List Byte) : (s.memWrite a d).lports = s.lports := rfl
@[simp] theorem State.routes_memWrite (s : State) (a : Nat) (d : List Byte) : (s.memWrite a d).routes = s.routes := rfl
@[simp] theorem State.wx_memWrite (s : State) (a : Nat) (d : List Byte) : (s.memWrite a d).wx = s.wx := rfl
@[simp] theorem State.wxs_memWrite (s : State) (a : Nat) (d : List Byte) : (s.memWrite a d).wxs = s.wxs := rfl
@[simp] theorem State.slots_memWrite (s : State) (a : Nat) (d : List Byte) : (s.memWrite a d).slots = s.slots := rfl
@[simp] theorem State.mslots_memWrite (s : State) (a : Nat) (d : List Byte) : (s.memWrite a d).mslots = s.mslots := rfl
@[simp] theorem State.cph_memWrite (s : State) (a : Nat) (d : List Byte) : (s.memWrite a d).cph = s.cph := rfl
@[simp] theorem State.tru_memWrite (s : State) (a : Nat) (d : List Byte) : (s.memWrite a d).tru = s.tru := rfl
@[simp] theorem State.ckp_memWrite (s : State) (a : Nat) (d : List Byte) : (s.memWrite a d).ckp = s.ckp := rfl
@[simp] theorem State.pwr_memWrite (s : State) (a : Nat) (d : List Byte) : (s.memWrite a d).pwr = s.pwr := rfl
@[simp] theorem State.pins_memWrite (s : State) (a : Nat) (d : List Byte) : (s.memWrite a d).pins = s.pins := rfl
@[simp] theorem State.rst_memWrite (s : State) (a : Nat) (d : List Byte) : (s.memWrite a d).rst = s.rst := rfl
@[simp] theorem State.log_memWrite (s : State) (a : Nat) (d : List Byte) : (s.memWrite a d).log = s.log := rfl
@[simp] theorem State.inj_memWrite (s : State) (a : Nat) (d : List Byte) : (s.memWrite a d).inj = s.inj := rfl
@[simp] theorem State.snap_memWrite (s : State) (a : Nat) (d : List Byte) : (s.memWrite a d).snap = s.snap := rfl
@[simp] theorem State.mgt_memWrite (s : State) (a : Nat) (d : List Byte) : (s.memWrite a d).mgt = s.mgt := rfl
@[simp] theorem State.wrefused_memWrite (s : State) (a : Nat) (d : List Byte) : (s.memWrite a d).wrefused = s.wrefused := rfl
@[simp] theorem State.rd_memWrite (s : State) (a : Nat) (d : List Byte) (fl : Fld) (ix : Nat) : (s.memWrite a d).rd fl ix = s.rd fl ix := rfl

end Sys2Proof.Machine
end

