-- ==== Sys2Proof/Laws/Log.lean ====
section
/-!
SUPPORT. Logging: everything a record can change, said once (R470-R475, R505), and what follows for every field of State.
-/

namespace Sys2Proof.Machine

/-- What logging can do: the logbook, the tray queue and the registers of `isLog` may change, nothing else. -/
def LogOnly (s t : State) : Prop :=
  ∃ (rg : Tbl Word) (l : LogSt) (m : MgtSt), t = { s with regs := rg, log := l, mgt := { s.mgt with traySeq := m.traySeq, sending := m.sending, tray := m.tray } } ∧
    ∀ q i, Reg.isLog q = false → t.reg q i = s.reg q i

theorem LogOnly.refl (s : State) : LogOnly s s := ⟨s.regs, s.log, s.mgt, rfl, fun _ _ _ => rfl⟩

theorem LogOnly.trans {s t u : State} (h : LogOnly s t) (k : LogOnly t u) : LogOnly s u := by
  obtain ⟨rg, l, m, rfl, hr⟩ := h
  obtain ⟨rg', l', m', rfl, hr'⟩ := k
  exact ⟨rg', l', m', rfl, fun q i hq => (hr' q i hq).trans (hr q i hq)⟩

theorem LogOnly.wr (s : State) (f : Fld) (v i : Nat) (h : f.reg.isLog = true) : LogOnly s (s.wr f v i) := by
  refine ⟨_, s.log, s.mgt, rfl, fun q j hq => ?_⟩
  refine State.reg_setReg_ne s q f.reg j i _ (Or.inl ?_)
  rintro rfl
  rw [h] at hq
  contradiction

theorem LogOnly.bump (s : State) (f : Fld) (n i : Nat) (h : f.reg.isLog = true) : LogOnly s (s.bump f n i) := LogOnly.wr s f _ i h

theorem LogOnly.log (s : State) (l : LogSt) : LogOnly s { s with log := l } := ⟨s.regs, l, s.mgt, rfl, fun _ _ _ => rfl⟩

theorem State.stageRec_only (s : State) (r : LogRec) : LogOnly s (s.stageRec r) := by
  unfold State.stageRec
  dsimp only
  split
  · split
    · exact ((((LogOnly.wr s F.LOG_STATUS_oldest _ 0 rfl).trans (LogOnly.log _ _)).trans (LogOnly.bump _ F.LOG_WRITTEN 1 0 rfl))).trans
        (LogOnly.wr _ F.LOG_STATUS_newest _ 0 rfl)
    · exact ((LogOnly.log s _).trans (LogOnly.bump _ F.LOG_WRITTEN 1 0 rfl)).trans (LogOnly.wr _ F.LOG_STATUS_newest _ 0 rfl)
  · exact (LogOnly.log s _).trans (LogOnly.bump _ F.LOG_DROPPED 1 0 rfl)

theorem State.trayPut_only (s : State) (q dst typ : Nat) (body : List Byte) : LogOnly s (s.trayPut q dst typ body) := by
  unfold State.trayPut
  dsimp only
  have step : ∀ m : MgtSt, (m = { s.mgt with traySeq := m.traySeq, sending := m.sending, tray := m.tray }) → LogOnly s { s with mgt := m } :=
    fun m h => ⟨s.regs, s.log, m, by rw [← h], fun _ _ _ => rfl⟩
  split
  · exact step _ rfl
  · split
    · exact (step _ rfl).trans (LogOnly.bump _ F.MGT_TX_DROP 1 0 rfl)
    · exact step _ rfl

theorem State.trayEvent_only (s : State) (r : LogRec) : LogOnly s (s.trayEvent r) := by
  unfold State.trayEvent
  split
  · exact s.trayPut_only _ _ _ _
  · exact LogOnly.refl s

theorem State.startPage_only (s : State) : LogOnly s s.startPage := by
  unfold State.startPage
  dsimp only
  split
  · exact LogOnly.refl s
  · exact LogOnly.log s _

theorem State.pageIfFull_only (s : State) : LogOnly s s.pageIfFull := by
  unfold State.pageIfFull
  split
  · exact s.startPage_only
  · exact LogOnly.refl s

theorem State.logRec_fresh_only (s : State) (r : LogRec) : LogOnly s (State.logRec.fresh r s) := by
  unfold State.logRec.fresh
  dsimp only
  split
  · exact ((((LogOnly.log s _).trans (State.stageRec_only _ _)).trans (State.trayEvent_only _ _)).trans
      ((State.stageRec_only _ r).trans (State.trayEvent_only _ r))).trans (State.pageIfFull_only _)
  · exact ((State.stageRec_only s r).trans (State.trayEvent_only _ r)).trans (State.pageIfFull_only _)

/-- Logging a record changes the logbook, the tray queue and the registers of `isLog` only. -/
theorem State.logRec_only (s : State) (r : LogRec) : LogOnly s (s.logRec r) := by
  unfold State.logRec
  split
  · split
    · exact (LogOnly.log s _).trans (LogOnly.bump _ F.LOG_REPEATS 1 0 rfl)
    · exact State.logRec_fresh_only s r
  · exact State.logRec_fresh_only s r

theorem State.logEv_only (s : State) (b : Blk) (e : Ev) (d sub i : Nat) (inj : Bool) : LogOnly s (s.logEv b e d sub i inj) := s.logRec_only _
theorem State.logRefused_only (s : State) (b : Blk) (r sub : Nat) : LogOnly s (s.logRefused b r sub) := s.logRec_only _
theorem State.logDone_only (s : State) (b : Blk) (o sub : Nat) : LogOnly s (s.logDone b o sub) := s.logRec_only _

/-- A field of a register that logging does not own reads as before it. -/
theorem LogOnly.rd {s t : State} (h : LogOnly s t) (f : Fld) (i : Nat) (hf : f.reg.isLog = false) : t.rd f i = s.rd f i := by
  obtain ⟨_, _, _, _, hr⟩ := h
  unfold State.rd
  rw [hr f.reg i hf]

theorem LogOnly.pending {s t : State} (h : LogOnly s t) : t.pending = s.pending := by obtain ⟨_, _, _, rfl, _⟩ := h; rfl
theorem LogOnly.fresh {s t : State} (h : LogOnly s t) : t.fresh = s.fresh := by obtain ⟨_, _, _, rfl, _⟩ := h; rfl
theorem LogOnly.outbox {s t : State} (h : LogOnly s t) : t.outbox = s.outbox := by obtain ⟨_, _, _, rfl, _⟩ := h; rfl
theorem LogOnly.ticks {s t : State} (h : LogOnly s t) : t.ticks = s.ticks := by obtain ⟨_, _, _, rfl, _⟩ := h; rfl
theorem LogOnly.now {s t : State} (h : LogOnly s t) : t.now = s.now := by obtain ⟨_, _, _, rfl, _⟩ := h; rfl
theorem LogOnly.power {s t : State} (h : LogOnly s t) : t.power = s.power := by obtain ⟨_, _, _, rfl, _⟩ := h; rfl
theorem LogOnly.latches {s t : State} (h : LogOnly s t) : t.latches = s.latches := by obtain ⟨_, _, _, rfl, _⟩ := h; rfl
theorem LogOnly.kln {s t : State} (h : LogOnly s t) : t.kln = s.kln := by obtain ⟨_, _, _, rfl, _⟩ := h; rfl
theorem LogOnly.lay {s t : State} (h : LogOnly s t) : t.lay = s.lay := by obtain ⟨_, _, _, rfl, _⟩ := h; rfl
theorem LogOnly.cmn {s t : State} (h : LogOnly s t) : t.cmn = s.cmn := by obtain ⟨_, _, _, rfl, _⟩ := h; rfl
theorem LogOnly.mill {s t : State} (h : LogOnly s t) : t.mill = s.mill := by obtain ⟨_, _, _, rfl, _⟩ := h; rfl
theorem LogOnly.bxt {s t : State} (h : LogOnly s t) : t.bxt = s.bxt := by obtain ⟨_, _, _, rfl, _⟩ := h; rfl
theorem LogOnly.mem {s t : State} (h : LogOnly s t) : t.mem = s.mem := by obtain ⟨_, _, _, rfl, _⟩ := h; rfl
theorem LogOnly.tier {s t : State} (h : LogOnly s t) : t.tier = s.tier := by obtain ⟨_, _, _, rfl, _⟩ := h; rfl
theorem LogOnly.hpt {s t : State} (h : LogOnly s t) : t.hpt = s.hpt := by obtain ⟨_, _, _, rfl, _⟩ := h; rfl
theorem LogOnly.xlt {s t : State} (h : LogOnly s t) : t.xlt = s.xlt := by obtain ⟨_, _, _, rfl, _⟩ := h; rfl
theorem LogOnly.rings {s t : State} (h : LogOnly s t) : t.rings = s.rings := by obtain ⟨_, _, _, rfl, _⟩ := h; rfl
theorem LogOnly.fetched {s t : State} (h : LogOnly s t) : t.fetched = s.fetched := by obtain ⟨_, _, _, rfl, _⟩ := h; rfl
theorem LogOnly.ops {s t : State} (h : LogOnly s t) : t.ops = s.ops := by obtain ⟨_, _, _, rfl, _⟩ := h; rfl
theorem LogOnly.nextOp {s t : State} (h : LogOnly s t) : t.nextOp = s.nextOp := by obtain ⟨_, _, _, rfl, _⟩ := h; rfl
theorem LogOnly.insts {s t : State} (h : LogOnly s t) : t.insts = s.insts := by obtain ⟨_, _, _, rfl, _⟩ := h; rfl
theorem LogOnly.parts {s t : State} (h : LogOnly s t) : t.parts = s.parts := by obtain ⟨_, _, _, rfl, _⟩ := h; rfl
theorem LogOnly.adm {s t : State} (h : LogOnly s t) : t.adm = s.adm := by obtain ⟨_, _, _, rfl, _⟩ := h; rfl
theorem LogOnly.meters {s t : State} (h : LogOnly s t) : t.meters = s.meters := by obtain ⟨_, _, _, rfl, _⟩ := h; rfl
theorem LogOnly.egress {s t : State} (h : LogOnly s t) : t.egress = s.egress := by obtain ⟨_, _, _, rfl, _⟩ := h; rfl
theorem LogOnly.lports {s t : State} (h : LogOnly s t) : t.lports = s.lports := by obtain ⟨_, _, _, rfl, _⟩ := h; rfl
theorem LogOnly.routes {s t : State} (h : LogOnly s t) : t.routes = s.routes := by obtain ⟨_, _, _, rfl, _⟩ := h; rfl
theorem LogOnly.wx {s t : State} (h : LogOnly s t) : t.wx = s.wx := by obtain ⟨_, _, _, rfl, _⟩ := h; rfl
theorem LogOnly.wxs {s t : State} (h : LogOnly s t) : t.wxs = s.wxs := by obtain ⟨_, _, _, rfl, _⟩ := h; rfl
theorem LogOnly.slots {s t : State} (h : LogOnly s t) : t.slots = s.slots := by obtain ⟨_, _, _, rfl, _⟩ := h; rfl
theorem LogOnly.mslots {s t : State} (h : LogOnly s t) : t.mslots = s.mslots := by obtain ⟨_, _, _, rfl, _⟩ := h; rfl
theorem LogOnly.cph {s t : State} (h : LogOnly s t) : t.cph = s.cph := by obtain ⟨_, _, _, rfl, _⟩ := h; rfl
theorem LogOnly.tru {s t : State} (h : LogOnly s t) : t.tru = s.tru := by obtain ⟨_, _, _, rfl, _⟩ := h; rfl
theorem LogOnly.ckp {s t : State} (h : LogOnly s t) : t.ckp = s.ckp := by obtain ⟨_, _, _, rfl, _⟩ := h; rfl
theorem LogOnly.pwr {s t : State} (h : LogOnly s t) : t.pwr = s.pwr := by obtain ⟨_, _, _, rfl, _⟩ := h; rfl
theorem LogOnly.pins {s t : State} (h : LogOnly s t) : t.pins = s.pins := by obtain ⟨_, _, _, rfl, _⟩ := h; rfl
theorem LogOnly.rst {s t : State} (h : LogOnly s t) : t.rst = s.rst := by obtain ⟨_, _, _, rfl, _⟩ := h; rfl
theorem LogOnly.inj {s t : State} (h : LogOnly s t) : t.inj = s.inj := by obtain ⟨_, _, _, rfl, _⟩ := h; rfl
theorem LogOnly.snap {s t : State} (h : LogOnly s t) : t.snap = s.snap := by obtain ⟨_, _, _, rfl, _⟩ := h; rfl
theorem LogOnly.wrefused {s t : State} (h : LogOnly s t) : t.wrefused = s.wrefused := by obtain ⟨_, _, _, rfl, _⟩ := h; rfl

/-! ### `State.logEv` -/

@[simp] theorem State.pending_logEv (s : State) (b : Blk) (e : Ev) (d sub i : Nat) (inj : Bool) : (s.logEv b e d sub i inj).pending = s.pending := LogOnly.pending (s.logEv_only b e d sub i inj)
@[simp] theorem State.fresh_logEv (s : State) (b : Blk) (e : Ev) (d sub i : Nat) (inj : Bool) : (s.logEv b e d sub i inj).fresh = s.fresh := LogOnly.fresh (s.logEv_only b e d sub i inj)
@[simp] theorem State.outbox_logEv (s : State) (b : Blk) (e : Ev) (d sub i : Nat) (inj : Bool) : (s.logEv b e d sub i inj).outbox = s.outbox := LogOnly.outbox (s.logEv_only b e d sub i inj)
@[simp] theorem State.ticks_logEv (s : State) (b : Blk) (e : Ev) (d sub i : Nat) (inj : Bool) : (s.logEv b e d sub i inj).ticks = s.ticks := LogOnly.ticks (s.logEv_only b e d sub i inj)
@[simp] theorem State.now_logEv (s : State) (b : Blk) (e : Ev) (d sub i : Nat) (inj : Bool) : (s.logEv b e d sub i inj).now = s.now := LogOnly.now (s.logEv_only b e d sub i inj)
@[simp] theorem State.power_logEv (s : State) (b : Blk) (e : Ev) (d sub i : Nat) (inj : Bool) : (s.logEv b e d sub i inj).power = s.power := LogOnly.power (s.logEv_only b e d sub i inj)
@[simp] theorem State.latches_logEv (s : State) (b : Blk) (e : Ev) (d sub i : Nat) (inj : Bool) : (s.logEv b e d sub i inj).latches = s.latches := LogOnly.latches (s.logEv_only b e d sub i inj)
@[simp] theorem State.kln_logEv (s : State) (b : Blk) (e : Ev) (d sub i : Nat) (inj : Bool) : (s.logEv b e d sub i inj).kln = s.kln := LogOnly.kln (s.logEv_only b e d sub i inj)
@[simp] theorem State.lay_logEv (s : State) (b : Blk) (e : Ev) (d sub i : Nat) (inj : Bool) : (s.logEv b e d sub i inj).lay = s.lay := LogOnly.lay (s.logEv_only b e d sub i inj)
@[simp] theorem State.cmn_logEv (s : State) (b : Blk) (e : Ev) (d sub i : Nat) (inj : Bool) : (s.logEv b e d sub i inj).cmn = s.cmn := LogOnly.cmn (s.logEv_only b e d sub i inj)
@[simp] theorem State.mill_logEv (s : State) (b : Blk) (e : Ev) (d sub i : Nat) (inj : Bool) : (s.logEv b e d sub i inj).mill = s.mill := LogOnly.mill (s.logEv_only b e d sub i inj)
@[simp] theorem State.bxt_logEv (s : State) (b : Blk) (e : Ev) (d sub i : Nat) (inj : Bool) : (s.logEv b e d sub i inj).bxt = s.bxt := LogOnly.bxt (s.logEv_only b e d sub i inj)
@[simp] theorem State.mem_logEv (s : State) (b : Blk) (e : Ev) (d sub i : Nat) (inj : Bool) : (s.logEv b e d sub i inj).mem = s.mem := LogOnly.mem (s.logEv_only b e d sub i inj)
@[simp] theorem State.tier_logEv (s : State) (b : Blk) (e : Ev) (d sub i : Nat) (inj : Bool) : (s.logEv b e d sub i inj).tier = s.tier := LogOnly.tier (s.logEv_only b e d sub i inj)
@[simp] theorem State.hpt_logEv (s : State) (b : Blk) (e : Ev) (d sub i : Nat) (inj : Bool) : (s.logEv b e d sub i inj).hpt = s.hpt := LogOnly.hpt (s.logEv_only b e d sub i inj)
@[simp] theorem State.xlt_logEv (s : State) (b : Blk) (e : Ev) (d sub i : Nat) (inj : Bool) : (s.logEv b e d sub i inj).xlt = s.xlt := LogOnly.xlt (s.logEv_only b e d sub i inj)
@[simp] theorem State.rings_logEv (s : State) (b : Blk) (e : Ev) (d sub i : Nat) (inj : Bool) : (s.logEv b e d sub i inj).rings = s.rings := LogOnly.rings (s.logEv_only b e d sub i inj)
@[simp] theorem State.fetched_logEv (s : State) (b : Blk) (e : Ev) (d sub i : Nat) (inj : Bool) : (s.logEv b e d sub i inj).fetched = s.fetched := LogOnly.fetched (s.logEv_only b e d sub i inj)
@[simp] theorem State.ops_logEv (s : State) (b : Blk) (e : Ev) (d sub i : Nat) (inj : Bool) : (s.logEv b e d sub i inj).ops = s.ops := LogOnly.ops (s.logEv_only b e d sub i inj)
@[simp] theorem State.nextOp_logEv (s : State) (b : Blk) (e : Ev) (d sub i : Nat) (inj : Bool) : (s.logEv b e d sub i inj).nextOp = s.nextOp := LogOnly.nextOp (s.logEv_only b e d sub i inj)
@[simp] theorem State.insts_logEv (s : State) (b : Blk) (e : Ev) (d sub i : Nat) (inj : Bool) : (s.logEv b e d sub i inj).insts = s.insts := LogOnly.insts (s.logEv_only b e d sub i inj)
@[simp] theorem State.parts_logEv (s : State) (b : Blk) (e : Ev) (d sub i : Nat) (inj : Bool) : (s.logEv b e d sub i inj).parts = s.parts := LogOnly.parts (s.logEv_only b e d sub i inj)
@[simp] theorem State.adm_logEv (s : State) (b : Blk) (e : Ev) (d sub i : Nat) (inj : Bool) : (s.logEv b e d sub i inj).adm = s.adm := LogOnly.adm (s.logEv_only b e d sub i inj)
@[simp] theorem State.meters_logEv (s : State) (b : Blk) (e : Ev) (d sub i : Nat) (inj : Bool) : (s.logEv b e d sub i inj).meters = s.meters := LogOnly.meters (s.logEv_only b e d sub i inj)
@[simp] theorem State.egress_logEv (s : State) (b : Blk) (e : Ev) (d sub i : Nat) (inj : Bool) : (s.logEv b e d sub i inj).egress = s.egress := LogOnly.egress (s.logEv_only b e d sub i inj)
@[simp] theorem State.lports_logEv (s : State) (b : Blk) (e : Ev) (d sub i : Nat) (inj : Bool) : (s.logEv b e d sub i inj).lports = s.lports := LogOnly.lports (s.logEv_only b e d sub i inj)
@[simp] theorem State.routes_logEv (s : State) (b : Blk) (e : Ev) (d sub i : Nat) (inj : Bool) : (s.logEv b e d sub i inj).routes = s.routes := LogOnly.routes (s.logEv_only b e d sub i inj)
@[simp] theorem State.wx_logEv (s : State) (b : Blk) (e : Ev) (d sub i : Nat) (inj : Bool) : (s.logEv b e d sub i inj).wx = s.wx := LogOnly.wx (s.logEv_only b e d sub i inj)
@[simp] theorem State.wxs_logEv (s : State) (b : Blk) (e : Ev) (d sub i : Nat) (inj : Bool) : (s.logEv b e d sub i inj).wxs = s.wxs := LogOnly.wxs (s.logEv_only b e d sub i inj)
@[simp] theorem State.slots_logEv (s : State) (b : Blk) (e : Ev) (d sub i : Nat) (inj : Bool) : (s.logEv b e d sub i inj).slots = s.slots := LogOnly.slots (s.logEv_only b e d sub i inj)
@[simp] theorem State.mslots_logEv (s : State) (b : Blk) (e : Ev) (d sub i : Nat) (inj : Bool) : (s.logEv b e d sub i inj).mslots = s.mslots := LogOnly.mslots (s.logEv_only b e d sub i inj)
@[simp] theorem State.cph_logEv (s : State) (b : Blk) (e : Ev) (d sub i : Nat) (inj : Bool) : (s.logEv b e d sub i inj).cph = s.cph := LogOnly.cph (s.logEv_only b e d sub i inj)
@[simp] theorem State.tru_logEv (s : State) (b : Blk) (e : Ev) (d sub i : Nat) (inj : Bool) : (s.logEv b e d sub i inj).tru = s.tru := LogOnly.tru (s.logEv_only b e d sub i inj)
@[simp] theorem State.ckp_logEv (s : State) (b : Blk) (e : Ev) (d sub i : Nat) (inj : Bool) : (s.logEv b e d sub i inj).ckp = s.ckp := LogOnly.ckp (s.logEv_only b e d sub i inj)
@[simp] theorem State.pwr_logEv (s : State) (b : Blk) (e : Ev) (d sub i : Nat) (inj : Bool) : (s.logEv b e d sub i inj).pwr = s.pwr := LogOnly.pwr (s.logEv_only b e d sub i inj)
@[simp] theorem State.pins_logEv (s : State) (b : Blk) (e : Ev) (d sub i : Nat) (inj : Bool) : (s.logEv b e d sub i inj).pins = s.pins := LogOnly.pins (s.logEv_only b e d sub i inj)
@[simp] theorem State.rst_logEv (s : State) (b : Blk) (e : Ev) (d sub i : Nat) (inj : Bool) : (s.logEv b e d sub i inj).rst = s.rst := LogOnly.rst (s.logEv_only b e d sub i inj)
@[simp] theorem State.inj_logEv (s : State) (b : Blk) (e : Ev) (d sub i : Nat) (inj : Bool) : (s.logEv b e d sub i inj).inj = s.inj := LogOnly.inj (s.logEv_only b e d sub i inj)
@[simp] theorem State.snap_logEv (s : State) (b : Blk) (e : Ev) (d sub i : Nat) (inj : Bool) : (s.logEv b e d sub i inj).snap = s.snap := LogOnly.snap (s.logEv_only b e d sub i inj)
@[simp] theorem State.wrefused_logEv (s : State) (b : Blk) (e : Ev) (d sub i : Nat) (inj : Bool) : (s.logEv b e d sub i inj).wrefused = s.wrefused := LogOnly.wrefused (s.logEv_only b e d sub i inj)
theorem State.rd_logEv (s : State) (b : Blk) (e : Ev) (d sub i : Nat) (inj : Bool) (f : Fld) (k : Nat) (hf : f.reg.isLog = false) : (s.logEv b e d sub i inj).rd f k = s.rd f k := (s.logEv_only b e d sub i inj).rd f k hf

/-! ### `State.logRefused` -/

@[simp] theorem State.pending_logRefused (s : State) (b : Blk) (r sub : Nat) : (s.logRefused b r sub).pending = s.pending := LogOnly.pending (s.logRefused_only b r sub)
@[simp] theorem State.fresh_logRefused (s : State) (b : Blk) (r sub : Nat) : (s.logRefused b r sub).fresh = s.fresh := LogOnly.fresh (s.logRefused_only b r sub)
@[simp] theorem State.outbox_logRefused (s : State) (b : Blk) (r sub : Nat) : (s.logRefused b r sub).outbox = s.outbox := LogOnly.outbox (s.logRefused_only b r sub)
@[simp] theorem State.ticks_logRefused (s : State) (b : Blk) (r sub : Nat) : (s.logRefused b r sub).ticks = s.ticks := LogOnly.ticks (s.logRefused_only b r sub)
@[simp] theorem State.now_logRefused (s : State) (b : Blk) (r sub : Nat) : (s.logRefused b r sub).now = s.now := LogOnly.now (s.logRefused_only b r sub)
@[simp] theorem State.power_logRefused (s : State) (b : Blk) (r sub : Nat) : (s.logRefused b r sub).power = s.power := LogOnly.power (s.logRefused_only b r sub)
@[simp] theorem State.latches_logRefused (s : State) (b : Blk) (r sub : Nat) : (s.logRefused b r sub).latches = s.latches := LogOnly.latches (s.logRefused_only b r sub)
@[simp] theorem State.kln_logRefused (s : State) (b : Blk) (r sub : Nat) : (s.logRefused b r sub).kln = s.kln := LogOnly.kln (s.logRefused_only b r sub)
@[simp] theorem State.lay_logRefused (s : State) (b : Blk) (r sub : Nat) : (s.logRefused b r sub).lay = s.lay := LogOnly.lay (s.logRefused_only b r sub)
@[simp] theorem State.cmn_logRefused (s : State) (b : Blk) (r sub : Nat) : (s.logRefused b r sub).cmn = s.cmn := LogOnly.cmn (s.logRefused_only b r sub)
@[simp] theorem State.mill_logRefused (s : State) (b : Blk) (r sub : Nat) : (s.logRefused b r sub).mill = s.mill := LogOnly.mill (s.logRefused_only b r sub)
@[simp] theorem State.bxt_logRefused (s : State) (b : Blk) (r sub : Nat) : (s.logRefused b r sub).bxt = s.bxt := LogOnly.bxt (s.logRefused_only b r sub)
@[simp] theorem State.mem_logRefused (s : State) (b : Blk) (r sub : Nat) : (s.logRefused b r sub).mem = s.mem := LogOnly.mem (s.logRefused_only b r sub)
@[simp] theorem State.tier_logRefused (s : State) (b : Blk) (r sub : Nat) : (s.logRefused b r sub).tier = s.tier := LogOnly.tier (s.logRefused_only b r sub)
@[simp] theorem State.hpt_logRefused (s : State) (b : Blk) (r sub : Nat) : (s.logRefused b r sub).hpt = s.hpt := LogOnly.hpt (s.logRefused_only b r sub)
@[simp] theorem State.xlt_logRefused (s : State) (b : Blk) (r sub : Nat) : (s.logRefused b r sub).xlt = s.xlt := LogOnly.xlt (s.logRefused_only b r sub)
@[simp] theorem State.rings_logRefused (s : State) (b : Blk) (r sub : Nat) : (s.logRefused b r sub).rings = s.rings := LogOnly.rings (s.logRefused_only b r sub)
@[simp] theorem State.fetched_logRefused (s : State) (b : Blk) (r sub : Nat) : (s.logRefused b r sub).fetched = s.fetched := LogOnly.fetched (s.logRefused_only b r sub)
@[simp] theorem State.ops_logRefused (s : State) (b : Blk) (r sub : Nat) : (s.logRefused b r sub).ops = s.ops := LogOnly.ops (s.logRefused_only b r sub)
@[simp] theorem State.nextOp_logRefused (s : State) (b : Blk) (r sub : Nat) : (s.logRefused b r sub).nextOp = s.nextOp := LogOnly.nextOp (s.logRefused_only b r sub)
@[simp] theorem State.insts_logRefused (s : State) (b : Blk) (r sub : Nat) : (s.logRefused b r sub).insts = s.insts := LogOnly.insts (s.logRefused_only b r sub)
@[simp] theorem State.parts_logRefused (s : State) (b : Blk) (r sub : Nat) : (s.logRefused b r sub).parts = s.parts := LogOnly.parts (s.logRefused_only b r sub)
@[simp] theorem State.adm_logRefused (s : State) (b : Blk) (r sub : Nat) : (s.logRefused b r sub).adm = s.adm := LogOnly.adm (s.logRefused_only b r sub)
@[simp] theorem State.meters_logRefused (s : State) (b : Blk) (r sub : Nat) : (s.logRefused b r sub).meters = s.meters := LogOnly.meters (s.logRefused_only b r sub)
@[simp] theorem State.egress_logRefused (s : State) (b : Blk) (r sub : Nat) : (s.logRefused b r sub).egress = s.egress := LogOnly.egress (s.logRefused_only b r sub)
@[simp] theorem State.lports_logRefused (s : State) (b : Blk) (r sub : Nat) : (s.logRefused b r sub).lports = s.lports := LogOnly.lports (s.logRefused_only b r sub)
@[simp] theorem State.routes_logRefused (s : State) (b : Blk) (r sub : Nat) : (s.logRefused b r sub).routes = s.routes := LogOnly.routes (s.logRefused_only b r sub)
@[simp] theorem State.wx_logRefused (s : State) (b : Blk) (r sub : Nat) : (s.logRefused b r sub).wx = s.wx := LogOnly.wx (s.logRefused_only b r sub)
@[simp] theorem State.wxs_logRefused (s : State) (b : Blk) (r sub : Nat) : (s.logRefused b r sub).wxs = s.wxs := LogOnly.wxs (s.logRefused_only b r sub)
@[simp] theorem State.slots_logRefused (s : State) (b : Blk) (r sub : Nat) : (s.logRefused b r sub).slots = s.slots := LogOnly.slots (s.logRefused_only b r sub)
@[simp] theorem State.mslots_logRefused (s : State) (b : Blk) (r sub : Nat) : (s.logRefused b r sub).mslots = s.mslots := LogOnly.mslots (s.logRefused_only b r sub)
@[simp] theorem State.cph_logRefused (s : State) (b : Blk) (r sub : Nat) : (s.logRefused b r sub).cph = s.cph := LogOnly.cph (s.logRefused_only b r sub)
@[simp] theorem State.tru_logRefused (s : State) (b : Blk) (r sub : Nat) : (s.logRefused b r sub).tru = s.tru := LogOnly.tru (s.logRefused_only b r sub)
@[simp] theorem State.ckp_logRefused (s : State) (b : Blk) (r sub : Nat) : (s.logRefused b r sub).ckp = s.ckp := LogOnly.ckp (s.logRefused_only b r sub)
@[simp] theorem State.pwr_logRefused (s : State) (b : Blk) (r sub : Nat) : (s.logRefused b r sub).pwr = s.pwr := LogOnly.pwr (s.logRefused_only b r sub)
@[simp] theorem State.pins_logRefused (s : State) (b : Blk) (r sub : Nat) : (s.logRefused b r sub).pins = s.pins := LogOnly.pins (s.logRefused_only b r sub)
@[simp] theorem State.rst_logRefused (s : State) (b : Blk) (r sub : Nat) : (s.logRefused b r sub).rst = s.rst := LogOnly.rst (s.logRefused_only b r sub)
@[simp] theorem State.inj_logRefused (s : State) (b : Blk) (r sub : Nat) : (s.logRefused b r sub).inj = s.inj := LogOnly.inj (s.logRefused_only b r sub)
@[simp] theorem State.snap_logRefused (s : State) (b : Blk) (r sub : Nat) : (s.logRefused b r sub).snap = s.snap := LogOnly.snap (s.logRefused_only b r sub)
@[simp] theorem State.wrefused_logRefused (s : State) (b : Blk) (r sub : Nat) : (s.logRefused b r sub).wrefused = s.wrefused := LogOnly.wrefused (s.logRefused_only b r sub)
theorem State.rd_logRefused (s : State) (b : Blk) (r sub : Nat) (f : Fld) (k : Nat) (hf : f.reg.isLog = false) : (s.logRefused b r sub).rd f k = s.rd f k := (s.logRefused_only b r sub).rd f k hf

/-! ### `State.logDone` -/

@[simp] theorem State.pending_logDone (s : State) (b : Blk) (o sub : Nat) : (s.logDone b o sub).pending = s.pending := LogOnly.pending (s.logDone_only b o sub)
@[simp] theorem State.fresh_logDone (s : State) (b : Blk) (o sub : Nat) : (s.logDone b o sub).fresh = s.fresh := LogOnly.fresh (s.logDone_only b o sub)
@[simp] theorem State.outbox_logDone (s : State) (b : Blk) (o sub : Nat) : (s.logDone b o sub).outbox = s.outbox := LogOnly.outbox (s.logDone_only b o sub)
@[simp] theorem State.ticks_logDone (s : State) (b : Blk) (o sub : Nat) : (s.logDone b o sub).ticks = s.ticks := LogOnly.ticks (s.logDone_only b o sub)
@[simp] theorem State.now_logDone (s : State) (b : Blk) (o sub : Nat) : (s.logDone b o sub).now = s.now := LogOnly.now (s.logDone_only b o sub)
@[simp] theorem State.power_logDone (s : State) (b : Blk) (o sub : Nat) : (s.logDone b o sub).power = s.power := LogOnly.power (s.logDone_only b o sub)
@[simp] theorem State.latches_logDone (s : State) (b : Blk) (o sub : Nat) : (s.logDone b o sub).latches = s.latches := LogOnly.latches (s.logDone_only b o sub)
@[simp] theorem State.kln_logDone (s : State) (b : Blk) (o sub : Nat) : (s.logDone b o sub).kln = s.kln := LogOnly.kln (s.logDone_only b o sub)
@[simp] theorem State.lay_logDone (s : State) (b : Blk) (o sub : Nat) : (s.logDone b o sub).lay = s.lay := LogOnly.lay (s.logDone_only b o sub)
@[simp] theorem State.cmn_logDone (s : State) (b : Blk) (o sub : Nat) : (s.logDone b o sub).cmn = s.cmn := LogOnly.cmn (s.logDone_only b o sub)
@[simp] theorem State.mill_logDone (s : State) (b : Blk) (o sub : Nat) : (s.logDone b o sub).mill = s.mill := LogOnly.mill (s.logDone_only b o sub)
@[simp] theorem State.bxt_logDone (s : State) (b : Blk) (o sub : Nat) : (s.logDone b o sub).bxt = s.bxt := LogOnly.bxt (s.logDone_only b o sub)
@[simp] theorem State.mem_logDone (s : State) (b : Blk) (o sub : Nat) : (s.logDone b o sub).mem = s.mem := LogOnly.mem (s.logDone_only b o sub)
@[simp] theorem State.tier_logDone (s : State) (b : Blk) (o sub : Nat) : (s.logDone b o sub).tier = s.tier := LogOnly.tier (s.logDone_only b o sub)
@[simp] theorem State.hpt_logDone (s : State) (b : Blk) (o sub : Nat) : (s.logDone b o sub).hpt = s.hpt := LogOnly.hpt (s.logDone_only b o sub)
@[simp] theorem State.xlt_logDone (s : State) (b : Blk) (o sub : Nat) : (s.logDone b o sub).xlt = s.xlt := LogOnly.xlt (s.logDone_only b o sub)
@[simp] theorem State.rings_logDone (s : State) (b : Blk) (o sub : Nat) : (s.logDone b o sub).rings = s.rings := LogOnly.rings (s.logDone_only b o sub)
@[simp] theorem State.fetched_logDone (s : State) (b : Blk) (o sub : Nat) : (s.logDone b o sub).fetched = s.fetched := LogOnly.fetched (s.logDone_only b o sub)
@[simp] theorem State.ops_logDone (s : State) (b : Blk) (o sub : Nat) : (s.logDone b o sub).ops = s.ops := LogOnly.ops (s.logDone_only b o sub)
@[simp] theorem State.nextOp_logDone (s : State) (b : Blk) (o sub : Nat) : (s.logDone b o sub).nextOp = s.nextOp := LogOnly.nextOp (s.logDone_only b o sub)
@[simp] theorem State.insts_logDone (s : State) (b : Blk) (o sub : Nat) : (s.logDone b o sub).insts = s.insts := LogOnly.insts (s.logDone_only b o sub)
@[simp] theorem State.parts_logDone (s : State) (b : Blk) (o sub : Nat) : (s.logDone b o sub).parts = s.parts := LogOnly.parts (s.logDone_only b o sub)
@[simp] theorem State.adm_logDone (s : State) (b : Blk) (o sub : Nat) : (s.logDone b o sub).adm = s.adm := LogOnly.adm (s.logDone_only b o sub)
@[simp] theorem State.meters_logDone (s : State) (b : Blk) (o sub : Nat) : (s.logDone b o sub).meters = s.meters := LogOnly.meters (s.logDone_only b o sub)
@[simp] theorem State.egress_logDone (s : State) (b : Blk) (o sub : Nat) : (s.logDone b o sub).egress = s.egress := LogOnly.egress (s.logDone_only b o sub)
@[simp] theorem State.lports_logDone (s : State) (b : Blk) (o sub : Nat) : (s.logDone b o sub).lports = s.lports := LogOnly.lports (s.logDone_only b o sub)
@[simp] theorem State.routes_logDone (s : State) (b : Blk) (o sub : Nat) : (s.logDone b o sub).routes = s.routes := LogOnly.routes (s.logDone_only b o sub)
@[simp] theorem State.wx_logDone (s : State) (b : Blk) (o sub : Nat) : (s.logDone b o sub).wx = s.wx := LogOnly.wx (s.logDone_only b o sub)
@[simp] theorem State.wxs_logDone (s : State) (b : Blk) (o sub : Nat) : (s.logDone b o sub).wxs = s.wxs := LogOnly.wxs (s.logDone_only b o sub)
@[simp] theorem State.slots_logDone (s : State) (b : Blk) (o sub : Nat) : (s.logDone b o sub).slots = s.slots := LogOnly.slots (s.logDone_only b o sub)
@[simp] theorem State.mslots_logDone (s : State) (b : Blk) (o sub : Nat) : (s.logDone b o sub).mslots = s.mslots := LogOnly.mslots (s.logDone_only b o sub)
@[simp] theorem State.cph_logDone (s : State) (b : Blk) (o sub : Nat) : (s.logDone b o sub).cph = s.cph := LogOnly.cph (s.logDone_only b o sub)
@[simp] theorem State.tru_logDone (s : State) (b : Blk) (o sub : Nat) : (s.logDone b o sub).tru = s.tru := LogOnly.tru (s.logDone_only b o sub)
@[simp] theorem State.ckp_logDone (s : State) (b : Blk) (o sub : Nat) : (s.logDone b o sub).ckp = s.ckp := LogOnly.ckp (s.logDone_only b o sub)
@[simp] theorem State.pwr_logDone (s : State) (b : Blk) (o sub : Nat) : (s.logDone b o sub).pwr = s.pwr := LogOnly.pwr (s.logDone_only b o sub)
@[simp] theorem State.pins_logDone (s : State) (b : Blk) (o sub : Nat) : (s.logDone b o sub).pins = s.pins := LogOnly.pins (s.logDone_only b o sub)
@[simp] theorem State.rst_logDone (s : State) (b : Blk) (o sub : Nat) : (s.logDone b o sub).rst = s.rst := LogOnly.rst (s.logDone_only b o sub)
@[simp] theorem State.inj_logDone (s : State) (b : Blk) (o sub : Nat) : (s.logDone b o sub).inj = s.inj := LogOnly.inj (s.logDone_only b o sub)
@[simp] theorem State.snap_logDone (s : State) (b : Blk) (o sub : Nat) : (s.logDone b o sub).snap = s.snap := LogOnly.snap (s.logDone_only b o sub)
@[simp] theorem State.wrefused_logDone (s : State) (b : Blk) (o sub : Nat) : (s.logDone b o sub).wrefused = s.wrefused := LogOnly.wrefused (s.logDone_only b o sub)
theorem State.rd_logDone (s : State) (b : Blk) (o sub : Nat) (f : Fld) (k : Nat) (hf : f.reg.isLog = false) : (s.logDone b o sub).rd f k = s.rd f k := (s.logDone_only b o sub).rd f k hf

end Sys2Proof.Machine
end

