-- ==== Sys2Proof/Laws/Calm.lean ====
section
/-!
SUPPORT. Running a command, and the commons where no operation is open: nothing to take, to end or to deal.
-/

namespace Sys2Proof.Machine

theorem act_run {s : State} (h : s.power = .run) (f : State → State) : act s f = .next ((f s).requeue s.pending) := by
  simp [act, h]

theorem actOn_run {s : State} {b : Bool} (h : s.power = .run) (hb : b = true) (f : State → State) :
    actOn b s f = .next ((f s).requeue s.pending) := by
  simp [actOn, act, h, hb]

theorem actOn0_run {s : State} (h : s.power = .run) (f : State → State) : actOn0 s f = .next ((f s).requeue s.pending) := by
  simp [actOn0, h]

theorem act_idle {s : State} (h : s.power ≠ .run) (f : State → State) : act s f = .next s := by simp [act, h]

theorem act_pending {s t : State} {f : State → State} (h : act s f = .next t) : t.pending = s.pending := by
  unfold act at h
  split at h <;> cases h <;> rfl

theorem actOn_pending {s t : State} {b : Bool} {f : State → State} (h : actOn b s f = .next t) : t.pending = s.pending := by
  unfold actOn at h
  split at h
  · exact act_pending h
  · cases h

theorem actOn0_pending {s t : State} {f : State → State} (h : actOn0 s f = .next t) : t.pending = s.pending := by
  unfold actOn0 at h
  split at h <;> cases h <;> rfl

theorem State.chargeHeld_calm {s : State} (h : s.Calm) : s.chargeHeld = s := by simp [State.chargeHeld, h.1]

theorem State.readyBlocks_calm {s : State} (h : s.Calm) : s.readyBlocks = [] := by simp [State.readyBlocks, h.1]

theorem State.passEmpty_calm {s : State} (h : s.Calm) (n : Nat) : s.passEmpty n = s := by
  cases n with
  | zero => rfl
  | succ n => simp [State.passEmpty, State.emptyDue, h.1]

/-- With no operation open no block is dealt. -/
theorem State.dealBlocks_calm {s : State} (h : s.Calm) (n : Nat) : s.dealBlocks n = s := by
  cases n with
  | zero => exact s.chargeHeld_calm h
  | succ n =>
    unfold State.dealBlocks
    rw [s.readyBlocks_calm h]
    simp [State.fairest, s.chargeHeld_calm h]

theorem State.deal_calm {s : State} (h : s.Calm) (n : Nat) : s.deal n = s := by
  unfold State.deal
  rw [s.passEmpty_calm h, s.dealBlocks_calm h]

theorem State.runInbox_calm {s : State} (h : s.Calm) (n : Nat) : s.runInbox n = s := by
  cases n with
  | zero => rfl
  | succ n => simp [State.runInbox, h.2.1]

theorem State.endKeyless_calm {s : State} (h : s.Calm) : s.endKeyless = s := by
  unfold State.endKeyless
  have : (s.bxt.conns.filter fun q => decide (2 ≤ q.2.svc) && q.2.state == .open_ && q.2.errStatus == Status.keyExhausted) = [] := by
    rw [List.filter_eq_nil_iff]
    intro q hq
    have := h.2.2.1 q hq
    simp; omega
  rw [this]
  rfl

theorem State.cmnTurn_calm {s : State} (h : s.Calm) : s.cmnTurn = s := by
  unfold State.cmnTurn
  rw [s.runInbox_calm h, s.endKeyless_calm h, s.runInbox_calm h, s.deal_calm h]

theorem State.gatherWaiting_calm {s : State} (h : s.Calm) : s.gatherWaiting = s := by simp [State.gatherWaiting, h.1]

/-- With no RESOLVE open none completes. -/
theorem State.resolvesDone_calm {s : State} (h : s.Calm) : s.resolvesDone = s := by
  have : s.resolvesOver = [] := by
    unfold State.resolvesOver
    rw [List.filter_eq_nil_iff.mpr]
    · rfl
    · intro q hq
      have := h.2.2.2 q hq
      simp [this]
  simp [State.resolvesDone, this]

/-- With no operation open the commons has nothing to settle. -/
theorem State.cmnRun_calm {s : State} (h : s.Calm) : s.cmnRun = s := by
  unfold State.cmnRun
  rw [s.cmnTurn_calm h, s.gatherWaiting_calm h, s.cmnTurn_calm h, s.resolvesDone_calm h]

/-- Calm depends only on the commons, the connections and the operations. -/
theorem State.Calm.of_eq {s t : State} (h : s.Calm) (hc : t.cmn = s.cmn) (hb : t.bxt.conns = s.bxt.conns) (ho : t.ops = s.ops) : t.Calm := by
  unfold State.Calm
  rw [hc, hb, ho]
  exact h

end Sys2Proof.Machine
end

