-- ==== Sys2Proof/Laws/Exec.lean ====
section
/-!
SUPPORT. How each command runs: the one way in which its meaning reaches the state. From these follow, for every command at once, where it
completes, that it leaves the queue alone, and that a device out of power does not notice it.
-/

namespace Sys2Proof.Machine

theorem exec_registerWrite (s : State) (path : Path) (link off : Nat) (data : List Byte) : ∃ eff, exec (.registerWrite path link off data) s = actOn (s.has (.registerWrite path link off data)) s eff := by
  show ∃ eff, execRegisterWrite path link off data s = _
  unfold execRegisterWrite
  exact ⟨_, rfl⟩

theorem exec_counterLowHalfRead (s : State) (path : Path) (link off : Nat) : ∃ eff, exec (.counterLowHalfRead path link off) s = actOn (s.has (.counterLowHalfRead path link off)) s eff := by
  show ∃ eff, execCounterLowHalfRead path link off s = _
  unfold execCounterLowHalfRead
  exact ⟨_, rfl⟩

theorem exec_regAccessTimeout (s : State) (path : Path) (link off len : Nat) (write : Bool) : ∃ eff, exec (.regAccessTimeout path link off len write) s = actOn (s.has (.regAccessTimeout path link off len write)) s eff := by
  show ∃ eff, execRegAccessTimeout path link off len write s = _
  unfold execRegAccessTimeout
  exact ⟨_, rfl⟩

theorem exec_kilmetFlitReceive (s : State) (m d : Nat) (sent got : List Byte) (known : Bool) : ∃ eff, exec (.kilmetFlitReceive m d sent got known) s = actOn (s.has (.kilmetFlitReceive m d sent got known)) s eff := by
  show ∃ eff, execKilmetFlitReceive m d sent got known s = _
  unfold execKilmetFlitReceive
  exact ⟨_, rfl⟩

theorem exec_kilmetNak (s : State) (m d fseq : Nat) : ∃ eff, exec (.kilmetNak m d fseq) s = actOn (s.has (.kilmetNak m d fseq)) s eff := by
  show ∃ eff, execKilmetNak m d fseq s = _
  unfold execKilmetNak
  exact ⟨_, rfl⟩

theorem exec_kilmetAckTimeout (s : State) (m d : Nat) : ∃ eff, exec (.kilmetAckTimeout m d) s = actOn (s.has (.kilmetAckTimeout m d)) s eff := by
  show ∃ eff, execKilmetAckTimeout m d s = _
  unfold execKilmetAckTimeout
  exact ⟨_, rfl⟩

theorem exec_kilmetAckTimer (s : State) (m d : Nat) : ∃ eff, exec (.kilmetAckTimer m d) s = actOn (s.has (.kilmetAckTimer m d)) s eff := by
  show ∃ eff, execKilmetAckTimer m d s = _
  unfold execKilmetAckTimer
  exact ⟨_, rfl⟩

theorem exec_kilmetCredit (s : State) (d ch count : Nat) : ∃ eff, exec (.kilmetCredit d ch count) s = actOn (s.has (.kilmetCredit d ch count)) s eff := by
  show ∃ eff, execKilmetCredit d ch count s = _
  unfold execKilmetCredit
  exact ⟨_, rfl⟩

theorem exec_kilmetRetrain (s : State) (m : Nat) : ∃ eff, exec (.kilmetRetrain m) s = actOn (s.has (.kilmetRetrain m)) s eff := by
  show ∃ eff, execKilmetRetrain m s = _
  unfold execKilmetRetrain
  exact ⟨_, rfl⟩

theorem exec_kilmetRetrainDone (s : State) (m : Nat) (ok : Bool) (g2h h2g : Nat) : ∃ eff, exec (.kilmetRetrainDone m ok g2h h2g) s = actOn (s.has (.kilmetRetrainDone m ok g2h h2g)) s eff := by
  show ∃ eff, execKilmetRetrainDone m ok g2h h2g s = _
  unfold execKilmetRetrainDone
  exact ⟨_, rfl⟩

theorem exec_loadFull (s : State)  : ∃ eff, exec (.loadFull) s = act s eff := by
  show ∃ eff, execLoadFull s = _
  unfold execLoadFull
  exact ⟨_, rfl⟩

theorem exec_loadSlice (s : State)  : ∃ eff, exec (.loadSlice) s = act s eff := by
  show ∃ eff, execLoadSlice s = _
  unfold execLoadSlice
  exact ⟨_, rfl⟩

theorem exec_programA (s : State)  : ∃ eff, exec (.programA) s = act s eff := by
  show ∃ eff, execProgramA s = _
  unfold execProgramA
  exact ⟨_, rfl⟩

theorem exec_programB (s : State)  : ∃ eff, exec (.programB) s = act s eff := by
  show ∃ eff, execProgramB s = _
  unfold execProgramB
  exact ⟨_, rfl⟩

theorem exec_raiseFloor (s : State)  : ∃ eff, exec (.raiseFloor) s = act s eff := by
  show ∃ eff, execRaiseFloor s = _
  unfold execRaiseFloor
  exact ⟨_, rfl⟩

theorem exec_abort (s : State)  : ∃ eff, exec (.abort) s = act s eff := by
  show ∃ eff, execAbort s = _
  unfold execAbort
  exact ⟨_, rfl⟩

theorem exec_layoutCommandDone (s : State) (ok : Bool) : ∃ eff, exec (.layoutCommandDone ok) s = act s eff := by
  show ∃ eff, execLayoutCommandDone ok s = _
  unfold execLayoutCommandDone
  exact ⟨_, rfl⟩

theorem exec_chunk (s : State) (hdr : List Byte) (p : Packet) : ∃ eff, exec (.chunk hdr p) s = act s eff := by
  show ∃ eff, execChunk hdr p s = _
  unfold execChunk pktRow
  exact ⟨_, rfl⟩

theorem exec_chunkBind (s : State) (op rank bundle chunk : Nat) : ∃ eff, exec (.chunkBind op rank bundle chunk) s = act s eff := by
  show ∃ eff, execChunkBind op rank bundle chunk s = _
  unfold execChunkBind
  exact ⟨_, rfl⟩

theorem exec_tallySpareMap (s : State) (retired spare : Nat) : ∃ eff, exec (.tallySpareMap retired spare) s = act s eff := by
  show ∃ eff, execTallySpareMap retired spare s = _
  unfold execTallySpareMap
  exact ⟨_, rfl⟩

theorem exec_spareMapDone (s : State) (res : Nat) : ∃ eff, exec (.spareMapDone res) s = act s eff := by
  show ∃ eff, execSpareMapDone res s = _
  unfold execSpareMapDone
  exact ⟨_, rfl⟩

theorem exec_install (s : State)  : ∃ eff, exec (.install) s = act s eff := by
  show ∃ eff, execInstall s = _
  unfold execInstall
  exact ⟨_, rfl⟩

theorem exec_activate (s : State)  : ∃ eff, exec (.activate) s = act s eff := by
  show ∃ eff, execActivate s = _
  unfold execActivate
  exact ⟨_, rfl⟩

theorem exec_activateComplete (s : State) (slot : Nat) : ∃ eff, exec (.activateComplete slot) s = act s eff := by
  show ∃ eff, execActivateComplete slot s = _
  unfold execActivateComplete
  exact ⟨_, rfl⟩

theorem exec_activateTimeout (s : State) (slot : Nat) : ∃ eff, exec (.activateTimeout slot) s = act s eff := by
  show ∃ eff, execActivateTimeout slot s = _
  unfold execActivateTimeout
  exact ⟨_, rfl⟩

theorem exec_dissolve (s : State)  : ∃ eff, exec (.dissolve) s = act s eff := by
  show ∃ eff, execDissolve s = _
  unfold execDissolve
  exact ⟨_, rfl⟩

theorem exec_chunkConnTimeout (s : State) (conn : Nat) : ∃ eff, exec (.chunkConnTimeout conn) s = act s eff := by
  show ∃ eff, execChunkConnTimeout conn s = _
  unfold execChunkConnTimeout
  exact ⟨_, rfl⟩

theorem exec_start (s : State) (gen nseq group rank op : Nat) (p : Packet) : ∃ eff, exec (.start gen nseq group rank op p) s = act s eff := by
  show ∃ eff, execStart gen nseq group rank op p s = _
  unfold execStart pktRow
  exact ⟨_, rfl⟩

theorem exec_go (s : State) (gen nseq group rank op : Nat) (p : Packet) : ∃ eff, exec (.go gen nseq group rank op p) s = act s eff := by
  show ∃ eff, execGo gen nseq group rank op p s = _
  unfold execGo pktRow
  exact ⟨_, rfl⟩

theorem exec_done (s : State) (gen nseq group rank op : Nat) (p : Packet) : ∃ eff, exec (.done gen nseq group rank op p) s = act s eff := by
  show ∃ eff, execDone gen nseq group rank op p s = _
  unfold execDone pktRow
  exact ⟨_, rfl⟩

theorem exec_reduced (s : State) (gen nseq group rank op : Nat) (p : Packet) : ∃ eff, exec (.reduced gen nseq group rank op p) s = act s eff := by
  show ∃ eff, execReduced gen nseq group rank op p s = _
  unfold execReduced pktRow
  exact ⟨_, rfl⟩

theorem exec_reduceCommit (s : State) (gen nseq group rank op : Nat) (p : Packet) : ∃ eff, exec (.reduceCommit gen nseq group rank op p) s = act s eff := by
  show ∃ eff, execReduceCommit gen nseq group rank op p s = _
  unfold execReduceCommit pktRow
  exact ⟨_, rfl⟩

theorem exec_published (s : State) (gen nseq group rank op : Nat) (p : Packet) : ∃ eff, exec (.published gen nseq group rank op p) s = act s eff := by
  show ∃ eff, execPublished gen nseq group rank op p s = _
  unfold execPublished pktRow
  exact ⟨_, rfl⟩

theorem exec_commit (s : State) (gen nseq group rank op : Nat) (p : Packet) : ∃ eff, exec (.commit gen nseq group rank op p) s = act s eff := by
  show ∃ eff, execCommit gen nseq group rank op p s = _
  unfold execCommit pktRow
  exact ⟨_, rfl⟩

theorem exec_void (s : State) (gen nseq group rank op : Nat) (p : Packet) : ∃ eff, exec (.void gen nseq group rank op p) s = act s eff := by
  show ∃ eff, execVoid gen nseq group rank op p s = _
  unfold execVoid pktRow
  exact ⟨_, rfl⟩

theorem exec_voidAck (s : State) (gen nseq group rank op : Nat) (p : Packet) : ∃ eff, exec (.voidAck gen nseq group rank op p) s = act s eff := by
  show ∃ eff, execVoidAck gen nseq group rank op p s = _
  unfold execVoidAck pktRow
  exact ⟨_, rfl⟩

theorem exec_rerun (s : State) (gen nseq group rank op : Nat) (p : Packet) : ∃ eff, exec (.rerun gen nseq group rank op p) s = act s eff := by
  show ∃ eff, execRerun gen nseq group rank op p s = _
  unfold execRerun pktRow
  exact ⟨_, rfl⟩

theorem exec_abandon (s : State) (gen nseq group rank op : Nat) (p : Packet) : ∃ eff, exec (.abandon gen nseq group rank op p) s = act s eff := by
  show ∃ eff, execAbandon gen nseq group rank op p s = _
  unfold execAbandon pktRow
  exact ⟨_, rfl⟩

theorem exec_reconcile (s : State) (gen nseq group rank op : Nat) (p : Packet) : ∃ eff, exec (.reconcile gen nseq group rank op p) s = act s eff := by
  show ∃ eff, execReconcile gen nseq group rank op p s = _
  unfold execReconcile pktRow
  exact ⟨_, rfl⟩

theorem exec_folded (s : State) (gen nseq group rank op : Nat) (p : Packet) : ∃ eff, exec (.folded gen nseq group rank op p) s = act s eff := by
  show ∃ eff, execFolded gen nseq group rank op p s = _
  unfold execFolded pktRow
  exact ⟨_, rfl⟩

theorem exec_loss (s : State) (gen nseq group rank op : Nat) (p : Packet) : ∃ eff, exec (.loss gen nseq group rank op p) s = act s eff := by
  show ∃ eff, execLoss gen nseq group rank op p s = _
  unfold execLoss pktRow
  exact ⟨_, rfl⟩

theorem exec_coordKeepalive (s : State) (gen nseq group rank op : Nat) (p : Packet) : ∃ eff, exec (.coordKeepalive gen nseq group rank op p) s = act s eff := by
  show ∃ eff, execCoordKeepalive gen nseq group rank op p s = _
  unfold execCoordKeepalive pktRow
  exact ⟨_, rfl⟩

theorem exec_coordKeepaliveTimer (s : State) (conn : Nat) : ∃ eff, exec (.coordKeepaliveTimer conn) s = act s eff := by
  show ∃ eff, execCoordKeepaliveTimer conn s = _
  unfold execCoordKeepaliveTimer
  exact ⟨_, rfl⟩

theorem exec_straggleExpiry (s : State) (slot op : Nat) : ∃ eff, exec (.straggleExpiry slot op) s = act s eff := by
  show ∃ eff, execStraggleExpiry slot op s = _
  unfold execStraggleExpiry
  exact ⟨_, rfl⟩

theorem exec_reformWaitExpiry (s : State) (slot : Nat) : ∃ eff, exec (.reformWaitExpiry slot) s = act s eff := by
  show ∃ eff, execReformWaitExpiry slot s = _
  unfold execReformWaitExpiry
  exact ⟨_, rfl⟩

theorem exec_millBlockDone (s : State) (engine : Nat) : ∃ eff, exec (.millBlockDone engine) s = actOn (s.has (.millBlockDone engine)) s eff := by
  show ∃ eff, execMillBlockDone engine s = _
  unfold execMillBlockDone
  exact ⟨_, rfl⟩

theorem exec_normSync (s : State) (op copy bundle : Nat) : ∃ eff, exec (.normSync op copy bundle) s = act s eff := by
  show ∃ eff, execNormSync op copy bundle s = _
  unfold execNormSync
  exact ⟨_, rfl⟩

theorem exec_normSyncResult (s : State) (op scope bundle n0 n1 n2 n3 : Nat) : ∃ eff, exec (.normSyncResult op scope bundle n0 n1 n2 n3) s = act s eff := by
  show ∃ eff, execNormSyncResult op scope bundle n0 n1 n2 n3 s = _
  unfold execNormSyncResult
  exact ⟨_, rfl⟩

theorem exec_millSpareMap (s : State) (retired spare : Nat) : ∃ eff, exec (.millSpareMap retired spare) s = act s eff := by
  show ∃ eff, execMillSpareMap retired spare s = _
  unfold execMillSpareMap
  exact ⟨_, rfl⟩

theorem exec_bxtWrite (s : State) (raddr rkey : Nat) (p : Packet) : ∃ eff, exec (.bxtWrite raddr rkey p) s = act s eff := by
  show ∃ eff, execBxtWrite raddr rkey p s = _
  unfold execBxtWrite pktRow
  exact ⟨_, rfl⟩

theorem exec_bxtSend (s : State) (ssn imm : Nat) (p : Packet) : ∃ eff, exec (.bxtSend ssn imm p) s = act s eff := by
  show ∃ eff, execBxtSend ssn imm p s = _
  unfold execBxtSend pktRow
  exact ⟨_, rfl⟩

theorem exec_readReq (s : State) (raddr rkey rdLen : Nat) (p : Packet) : ∃ eff, exec (.readReq raddr rkey rdLen p) s = act s eff := by
  show ∃ eff, execReadReq raddr rkey rdLen p s = _
  unfold execReadReq pktRow
  exact ⟨_, rfl⟩

theorem exec_readResp (s : State) (reqPsn : Nat) (p : Packet) : ∃ eff, exec (.readResp reqPsn p) s = act s eff := by
  show ∃ eff, execReadResp reqPsn p s = _
  unfold execReadResp pktRow
  exact ⟨_, rfl⟩

theorem exec_bxtAtomic (s : State) (raddr rkey aop opnd0 opnd1 : Nat) (p : Packet) : ∃ eff, exec (.bxtAtomic raddr rkey aop opnd0 opnd1 p) s = act s eff := by
  show ∃ eff, execBxtAtomic raddr rkey aop opnd0 opnd1 p s = _
  unfold execBxtAtomic pktRow
  exact ⟨_, rfl⟩

theorem exec_atomicResp (s : State) (result : Nat) (p : Packet) : ∃ eff, exec (.atomicResp result p) s = act s eff := by
  show ∃ eff, execAtomicResp result p s = _
  unfold execAtomicResp pktRow
  exact ⟨_, rfl⟩

theorem exec_ack (s : State) (cumPsn sackPsn sackMap ceCount echoTs : Nat) (p : Packet) : ∃ eff, exec (.ack cumPsn sackPsn sackMap ceCount echoTs p) s = act s eff := by
  show ∃ eff, execAck cumPsn sackPsn sackMap ceCount echoTs p s = _
  unfold execAck pktRow
  exact ⟨_, rfl⟩

theorem exec_nak (s : State) (code nrReason retryUs nakPsn respEpoch unkConn : Nat) (p : Packet) : ∃ eff, exec (.nak code nrReason retryUs nakPsn respEpoch unkConn p) s = act s eff := by
  show ∃ eff, execNak code nrReason retryUs nakPsn respEpoch unkConn p s = _
  unfold execNak pktRow
  exact ⟨_, rfl⟩

theorem exec_grant (s : State) (classMask validUs : Nat) (budget : List Nat) (p : Packet) : ∃ eff, exec (.grant classMask validUs budget p) s = act s eff := by
  show ∃ eff, execGrant classMask validUs budget p s = _
  unfold execGrant pktRow
  exact ⟨_, rfl⟩

theorem exec_probe (s : State) (srcConn svc group : Nat) (p : Packet) : ∃ eff, exec (.probe srcConn svc group p) s = act s eff := by
  show ∃ eff, execProbe srcConn svc group p s = _
  unfold execProbe pktRow
  exact ⟨_, rfl⟩

theorem exec_probeAck (s : State) (srcConn svc group : Nat) (p : Packet) : ∃ eff, exec (.probeAck srcConn svc group p) s = act s eff := by
  show ∃ eff, execProbeAck srcConn svc group p s = _
  unfold execProbeAck pktRow
  exact ⟨_, rfl⟩

theorem exec_keepalive (s : State) (svc group : Nat) (p : Packet) : ∃ eff, exec (.keepalive svc group p) s = act s eff := by
  show ∃ eff, execKeepalive svc group p s = _
  unfold execKeepalive pktRow
  exact ⟨_, rfl⟩

theorem exec_close (s : State) (svc group : Nat) (p : Packet) : ∃ eff, exec (.close svc group p) s = act s eff := by
  show ∃ eff, execClose svc group p s = _
  unfold execClose pktRow
  exact ⟨_, rfl⟩

theorem exec_closeAck (s : State) (svc group : Nat) (p : Packet) : ∃ eff, exec (.closeAck svc group p) s = act s eff := by
  show ∃ eff, execCloseAck svc group p s = _
  unfold execCloseAck pktRow
  exact ⟨_, rfl⟩

theorem exec_refusalSeen (s : State) (svc group refMsn : Nat) (p : Packet) : ∃ eff, exec (.refusalSeen svc group refMsn p) s = act s eff := by
  show ∃ eff, execRefusalSeen svc group refMsn p s = _
  unfold execRefusalSeen pktRow
  exact ⟨_, rfl⟩

theorem exec_rocePacket (s : State) (p : RocePacket) : ∃ eff, exec (.rocePacket p) s = act s eff := by
  show ∃ eff, execRocePacket p s = _
  unfold execRocePacket
  exact ⟨_, rfl⟩

theorem exec_retransmitTimeout (s : State) (conn psn : Nat) : ∃ eff, exec (.retransmitTimeout conn psn) s = act s eff := by
  show ∃ eff, execRetransmitTimeout conn psn s = _
  unfold execRetransmitTimeout
  exact ⟨_, rfl⟩

theorem exec_probeResend (s : State) (conn : Nat) : ∃ eff, exec (.probeResend conn) s = act s eff := by
  show ∃ eff, execProbeResend conn s = _
  unfold execProbeResend
  exact ⟨_, rfl⟩

theorem exec_armTimeout (s : State) (conn : Nat) : ∃ eff, exec (.armTimeout conn) s = act s eff := by
  show ∃ eff, execArmTimeout conn s = _
  unfold execArmTimeout
  exact ⟨_, rfl⟩

theorem exec_closeTimeout (s : State) (conn : Nat) : ∃ eff, exec (.closeTimeout conn) s = act s eff := by
  show ∃ eff, execCloseTimeout conn s = _
  unfold execCloseTimeout
  exact ⟨_, rfl⟩

theorem exec_keepaliveTimer (s : State) (conn : Nat) : ∃ eff, exec (.keepaliveTimer conn) s = act s eff := by
  show ∃ eff, execKeepaliveTimer conn s = _
  unfold execKeepaliveTimer
  exact ⟨_, rfl⟩

theorem exec_ackCoalesceTimer (s : State) (conn : Nat) : ∃ eff, exec (.ackCoalesceTimer conn) s = act s eff := by
  show ∃ eff, execAckCoalesceTimer conn s = _
  unfold execAckCoalesceTimer
  exact ⟨_, rfl⟩

theorem exec_faultHoldExpiry (s : State) (i : Nat) : ∃ eff, exec (.faultHoldExpiry i) s = act s eff := by
  show ∃ eff, execFaultHoldExpiry i s = _
  unfold execFaultHoldExpiry
  exact ⟨_, rfl⟩

theorem exec_contextFetchDone (s : State) (conn : Nat) : ∃ eff, exec (.contextFetchDone conn) s = act s eff := by
  show ∃ eff, execContextFetchDone conn s = _
  unfold execContextFetchDone
  exact ⟨_, rfl⟩

theorem exec_contextFetchTimeout (s : State) (conn : Nat) : ∃ eff, exec (.contextFetchTimeout conn) s = act s eff := by
  show ∃ eff, execContextFetchTimeout conn s = _
  unfold execContextFetchTimeout
  exact ⟨_, rfl⟩

theorem exec_nakDelayExpiry (s : State) (conn psn : Nat) : ∃ eff, exec (.nakDelayExpiry conn psn) s = act s eff := by
  show ∃ eff, execNakDelayExpiry conn psn s = _
  unfold execNakDelayExpiry
  exact ⟨_, rfl⟩

theorem exec_readTimeout (s : State) (conn msn : Nat) : ∃ eff, exec (.readTimeout conn msn) s = act s eff := by
  show ∃ eff, execReadTimeout conn msn s = _
  unfold execReadTimeout
  exact ⟨_, rfl⟩

theorem exec_sqDoorbell (s : State) (link vf ring tail : Nat) : ∃ eff, exec (.sqDoorbell link vf ring tail) s = actOn (s.has (.sqDoorbell link vf ring tail)) s eff := by
  show ∃ eff, execSqDoorbell link vf ring tail s = _
  unfold execSqDoorbell winAct
  exact ⟨_, rfl⟩

theorem exec_cqDoorbell (s : State) (link vf ring head : Nat) : ∃ eff, exec (.cqDoorbell link vf ring head) s = actOn (s.has (.cqDoorbell link vf ring head)) s eff := by
  show ∃ eff, execCqDoorbell link vf ring head s = _
  unfold execCqDoorbell winAct
  exact ⟨_, rfl⟩

theorem exec_arm (s : State) (link vf ring : Nat) : ∃ eff, exec (.arm link vf ring) s = actOn (s.has (.arm link vf ring)) s eff := by
  show ∃ eff, execArm link vf ring s = _
  unfold execArm winAct
  exact ⟨_, rfl⟩

theorem exec_push (s : State) (link vf ring : Nat) (entry : List Byte) : ∃ eff, exec (.push link vf ring entry) s = actOn (s.has (.push link vf ring entry)) s eff := by
  show ∃ eff, execPush link vf ring entry s = _
  unfold execPush winAct
  exact ⟨_, rfl⟩

theorem exec_entryFetch (s : State) (key : Nat) : ∃ eff, exec (.entryFetch key) s = act s eff := by
  show ∃ eff, execEntryFetch key s = _
  unfold execEntryFetch
  exact ⟨_, rfl⟩

theorem exec_fetchRecheckTimer (s : State) (key : Nat) : ∃ eff, exec (.fetchRecheckTimer key) s = act s eff := by
  show ∃ eff, execFetchRecheckTimer key s = _
  unfold execFetchRecheckTimer
  exact ⟨_, rfl⟩

theorem exec_ctlSqDoorbell (s : State) (tail : Nat) : ∃ eff, exec (.ctlSqDoorbell tail) s = act s eff := by
  show ∃ eff, execCtlSqDoorbell tail s = _
  unfold execCtlSqDoorbell
  exact ⟨_, rfl⟩

theorem exec_ctlCqDoorbell (s : State) (head : Nat) : ∃ eff, exec (.ctlCqDoorbell head) s = act s eff := by
  show ∃ eff, execCtlCqDoorbell head s = _
  unfold execCtlCqDoorbell
  exact ⟨_, rfl⟩

theorem exec_ringCreate (s : State) (link vf : Nat) : ∃ eff, exec (.ringCreate link vf) s = actOn (s.has (.ringCreate link vf)) s eff := by
  show ∃ eff, execRingCreate link vf s = _
  unfold execRingCreate winAct
  exact ⟨_, rfl⟩

theorem exec_ringStop (s : State) (link vf : Nat) : ∃ eff, exec (.ringStop link vf) s = actOn (s.has (.ringStop link vf)) s eff := by
  show ∃ eff, execRingStop link vf s = _
  unfold execRingStop winAct
  exact ⟨_, rfl⟩

theorem exec_ringStopDone (s : State) (key : Nat) : ∃ eff, exec (.ringStopDone key) s = act s eff := by
  show ∃ eff, execRingStopDone key s = _
  unfold execRingStopDone
  exact ⟨_, rfl⟩

theorem exec_ringDestroy (s : State) (link vf : Nat) : ∃ eff, exec (.ringDestroy link vf) s = actOn (s.has (.ringDestroy link vf)) s eff := by
  show ∃ eff, execRingDestroy link vf s = _
  unfold execRingDestroy winAct
  exact ⟨_, rfl⟩

theorem exec_flushComplete (s : State) (n : Nat) (ok : Bool) : ∃ eff, exec (.flushComplete n ok) s = act s eff := by
  show ∃ eff, execFlushComplete n ok s = _
  unfold execFlushComplete
  exact ⟨_, rfl⟩

theorem exec_nop (s : State) (key count : Nat) : ∃ eff, exec (.nop key count) s = act s eff := by
  show ∃ eff, execNop key count s = _
  unfold execNop onEntry
  exact ⟨_, rfl⟩

theorem exec_write (s : State) (key count : Nat) : ∃ eff, exec (.write key count) s = act s eff := by
  show ∃ eff, execWrite key count s = _
  unfold execWrite onEntry
  exact ⟨_, rfl⟩

theorem exec_read (s : State) (key count : Nat) : ∃ eff, exec (.read key count) s = act s eff := by
  show ∃ eff, execRead key count s = _
  unfold execRead onEntry
  exact ⟨_, rfl⟩

theorem exec_send (s : State) (key count : Nat) : ∃ eff, exec (.send key count) s = act s eff := by
  show ∃ eff, execSend key count s = _
  unfold execSend onEntry
  exact ⟨_, rfl⟩

theorem exec_atomic (s : State) (key count : Nat) : ∃ eff, exec (.atomic key count) s = act s eff := by
  show ∃ eff, execAtomic key count s = _
  unfold execAtomic
  exact ⟨_, rfl⟩

theorem exec_recv (s : State) (key count : Nat) : ∃ eff, exec (.recv key count) s = act s eff := by
  show ∃ eff, execRecv key count s = _
  unfold execRecv onEntry
  exact ⟨_, rfl⟩

theorem exec_copy (s : State) (key count : Nat) : ∃ eff, exec (.copy key count) s = act s eff := by
  show ∃ eff, execCopy key count s = _
  unfold execCopy onEntry
  exact ⟨_, rfl⟩

theorem exec_coll (s : State) (key count : Nat) : ∃ eff, exec (.coll key count) s = act s eff := by
  show ∃ eff, execColl key count s = _
  unfold execColl onGroup
  exact ⟨_, rfl⟩

theorem exec_step (s : State) (key count : Nat) : ∃ eff, exec (.step key count) s = act s eff := by
  show ∃ eff, execStep key count s = _
  unfold execStep onGroup
  exact ⟨_, rfl⟩

theorem exec_millBind (s : State) (key count : Nat) : ∃ eff, exec (.millBind key count) s = act s eff := by
  show ∃ eff, execMillBind key count s = _
  unfold execMillBind onEntry
  exact ⟨_, rfl⟩

theorem exec_connCreate (s : State) (key count : Nat) : ∃ eff, exec (.connCreate key count) s = act s eff := by
  show ∃ eff, execConnCreate key count s = _
  unfold execConnCreate onEntry
  exact ⟨_, rfl⟩

theorem exec_connModify (s : State) (key count : Nat) : ∃ eff, exec (.connModify key count) s = act s eff := by
  show ∃ eff, execConnModify key count s = _
  unfold execConnModify onEntry
  exact ⟨_, rfl⟩

theorem exec_connClose (s : State) (key count : Nat) : ∃ eff, exec (.connClose key count) s = act s eff := by
  show ∃ eff, execConnClose key count s = _
  unfold execConnClose onEntry
  exact ⟨_, rfl⟩

theorem exec_asCreate (s : State) (key count : Nat) : ∃ eff, exec (.asCreate key count) s = act s eff := by
  show ∃ eff, execAsCreate key count s = _
  unfold execAsCreate onEntry
  exact ⟨_, rfl⟩

theorem exec_asDestroy (s : State) (key count : Nat) : ∃ eff, exec (.asDestroy key count) s = act s eff := by
  show ∃ eff, execAsDestroy key count s = _
  unfold execAsDestroy onEntry
  exact ⟨_, rfl⟩

theorem exec_invalidate (s : State) (key count : Nat) : ∃ eff, exec (.invalidate key count) s = act s eff := by
  show ∃ eff, execInvalidate key count s = _
  unfold execInvalidate onEntry
  exact ⟨_, rfl⟩

theorem exec_invalidateDrainDone (s : State) (tag : Nat) : ∃ eff, exec (.invalidateDrainDone tag) s = act s eff := by
  show ∃ eff, execInvalidateDrainDone tag s = _
  unfold execInvalidateDrainDone
  exact ⟨_, rfl⟩

theorem exec_resolve (s : State) (key count : Nat) : ∃ eff, exec (.resolve key count) s = act s eff := by
  show ∃ eff, execResolve key count s = _
  unfold execResolve onEntry
  exact ⟨_, rfl⟩

theorem exec_fqBind (s : State) (key count : Nat) : ∃ eff, exec (.fqBind key count) s = act s eff := by
  show ∃ eff, execFqBind key count s = _
  unfold execFqBind onEntry
  exact ⟨_, rfl⟩

theorem exec_queueAck (s : State) (key count : Nat) : ∃ eff, exec (.queueAck key count) s = act s eff := by
  show ∃ eff, execQueueAck key count s = _
  unfold execQueueAck onEntry
  exact ⟨_, rfl⟩

theorem exec_walkDone (s : State) (i : Nat) : ∃ eff, exec (.walkDone i) s = act s eff := by
  show ∃ eff, execWalkDone i s = _
  unfold execWalkDone
  exact ⟨_, rfl⟩

theorem exec_translationHoldExpiry (s : State) (i : Nat) : ∃ eff, exec (.translationHoldExpiry i) s = act s eff := by
  show ∃ eff, execTranslationHoldExpiry i s = _
  unfold execTranslationHoldExpiry
  exact ⟨_, rfl⟩

theorem exec_faultBatchTimer (s : State) (part : Nat) : ∃ eff, exec (.faultBatchTimer part) s = actOn (s.has (.faultBatchTimer part)) s eff := by
  show ∃ eff, execFaultBatchTimer part s = _
  unfold execFaultBatchTimer
  exact ⟨_, rfl⟩

theorem exec_deadlineExpiry (s : State) (op : Nat) : ∃ eff, exec (.deadlineExpiry op) s = act s eff := by
  show ∃ eff, execDeadlineExpiry op s = _
  unfold execDeadlineExpiry
  exact ⟨_, rfl⟩

theorem exec_grantPeriodTimer (s : State)  : ∃ eff, exec (.grantPeriodTimer) s = act s eff := by
  show ∃ eff, execGrantPeriodTimer s = _
  unfold execGrantPeriodTimer
  exact ⟨_, rfl⟩

theorem exec_grantExpiry (s : State) (conn cls : Nat) : ∃ eff, exec (.grantExpiry conn cls) s = act s eff := by
  show ∃ eff, execGrantExpiry conn cls s = _
  unfold execGrantExpiry
  exact ⟨_, rfl⟩

theorem exec_meterApply (s : State)  : ∃ eff, exec (.meterApply) s = act s eff := by
  show ∃ eff, execMeterApply s = _
  unfold execMeterApply
  exact ⟨_, rfl⟩

theorem exec_meterRead (s : State)  : ∃ eff, exec (.meterRead) s = act s eff := by
  show ∃ eff, execMeterRead s = _
  unfold execMeterRead
  exact ⟨_, rfl⟩

theorem exec_frameReceive (s : State) (port : Nat) (f : Frame) : ∃ eff, exec (.frameReceive port f) s = actOn (s.has (.frameReceive port f)) s eff := by
  show ∃ eff, execFrameReceive port f s = _
  unfold execFrameReceive
  exact ⟨_, rfl⟩

theorem exec_transitAgeExpiry (s : State) (n : Nat) : ∃ eff, exec (.transitAgeExpiry n) s = act s eff := by
  show ∃ eff, execTransitAgeExpiry n s = _
  unfold execTransitAgeExpiry
  exact ⟨_, rfl⟩

theorem exec_laneFault (s : State) (port lane : Nat) : ∃ eff, exec (.laneFault port lane) s = actOn (s.has (.laneFault port lane)) s eff := by
  show ∃ eff, execLaneFault port lane s = _
  unfold execLaneFault
  exact ⟨_, rfl⟩

theorem exec_loopbackTestDone (s : State) (port lane : Nat) (pass : Bool) : ∃ eff, exec (.loopbackTestDone port lane pass) s = actOn (s.has (.loopbackTestDone port lane pass)) s eff := by
  show ∃ eff, execLoopbackTestDone port lane pass s = _
  unfold execLoopbackTestDone
  exact ⟨_, rfl⟩

theorem exec_portAdminWrite (s : State) (port admin : Nat) : ∃ eff, exec (.portAdminWrite port admin) s = actOn (s.has (.portAdminWrite port admin)) s eff := by
  show ∃ eff, execPortAdminWrite port admin s = _
  unfold execPortAdminWrite
  exact ⟨_, rfl⟩

theorem exec_trainingDone (s : State) (port : Nat) (ok : Bool) : ∃ eff, exec (.trainingDone port ok) s = actOn (s.has (.trainingDone port ok)) s eff := by
  show ∃ eff, execTrainingDone port ok s = _
  unfold execTrainingDone
  exact ⟨_, rfl⟩

theorem exec_trainingRetryTimer (s : State) (port : Nat) : ∃ eff, exec (.trainingRetryTimer port) s = actOn (s.has (.trainingRetryTimer port)) s eff := by
  show ∃ eff, execTrainingRetryTimer port s = _
  unfold execTrainingRetryTimer
  exact ⟨_, rfl⟩

theorem exec_alignmentLoss (s : State) (port : Nat) : ∃ eff, exec (.alignmentLoss port) s = actOn (s.has (.alignmentLoss port)) s eff := by
  show ∃ eff, execAlignmentLoss port s = _
  unfold execAlignmentLoss
  exact ⟨_, rfl⟩

theorem exec_downRetrainTimer (s : State) (port : Nat) : ∃ eff, exec (.downRetrainTimer port) s = actOn (s.has (.downRetrainTimer port)) s eff := by
  show ∃ eff, execDownRetrainTimer port s = _
  unfold execDownRetrainTimer
  exact ⟨_, rfl⟩

theorem exec_pfcFrame (s : State) (port enable : Nat) (quanta : List Nat) : ∃ eff, exec (.pfcFrame port enable quanta) s = actOn (s.has (.pfcFrame port enable quanta)) s eff := by
  show ∃ eff, execPfcFrame port enable quanta s = _
  unfold execPfcFrame
  exact ⟨_, rfl⟩

theorem exec_pfcQuantaExpiry (s : State) (port tc : Nat) : ∃ eff, exec (.pfcQuantaExpiry port tc) s = actOn (s.has (.pfcQuantaExpiry port tc)) s eff := by
  show ∃ eff, execPfcQuantaExpiry port tc s = _
  unfold execPfcQuantaExpiry
  exact ⟨_, rfl⟩

theorem exec_pfcRefreshTimer (s : State) (port tc kib : Nat) : ∃ eff, exec (.pfcRefreshTimer port tc kib) s = actOn (s.has (.pfcRefreshTimer port tc kib)) s eff := by
  show ∃ eff, execPfcRefreshTimer port tc kib s = _
  unfold execPfcRefreshTimer
  exact ⟨_, rfl⟩

theorem exec_pfcWatchdog (s : State) (port tc : Nat) : ∃ eff, exec (.pfcWatchdog port tc) s = actOn (s.has (.pfcWatchdog port tc)) s eff := by
  show ∃ eff, execPfcWatchdog port tc s = _
  unfold execPfcWatchdog
  exact ⟨_, rfl⟩

theorem exec_lldpTimer (s : State) (port : Nat) : ∃ eff, exec (.lldpTimer port) s = actOn (s.has (.lldpTimer port)) s eff := by
  show ∃ eff, execLldpTimer port s = _
  unfold execLldpTimer
  exact ⟨_, rfl⟩

theorem exec_lldpdu (s : State) (port : Nat) (pdu : Lldp) : ∃ eff, exec (.lldpdu port pdu) s = actOn (s.has (.lldpdu port pdu)) s eff := by
  show ∃ eff, execLldpdu port pdu s = _
  unfold execLldpdu
  exact ⟨_, rfl⟩

theorem exec_lldpTtlExpiry (s : State) (port : Nat) : ∃ eff, exec (.lldpTtlExpiry port) s = actOn (s.has (.lldpTtlExpiry port)) s eff := by
  show ∃ eff, execLldpTtlExpiry port s = _
  unfold execLldpTtlExpiry
  exact ⟨_, rfl⟩

theorem exec_routeWrite (s : State)  : ∃ eff, exec (.routeWrite) s = act s eff := by
  show ∃ eff, execRouteWrite s = _
  unfold execRouteWrite
  exact ⟨_, rfl⟩

theorem exec_routeDelete (s : State)  : ∃ eff, exec (.routeDelete) s = act s eff := by
  show ∃ eff, execRouteDelete s = _
  unfold execRouteDelete
  exact ⟨_, rfl⟩

theorem exec_routeRead (s : State)  : ∃ eff, exec (.routeRead) s = act s eff := by
  show ∃ eff, execRouteRead s = _
  unfold execRouteRead
  exact ⟨_, rfl⟩

theorem exec_hopStart (s : State) (port : Nat) : ∃ eff, exec (.hopStart port) s = actOn (s.has (.hopStart port)) s eff := by
  show ∃ eff, execHopStart port s = _
  unfold execHopStart
  exact ⟨_, rfl⟩

theorem exec_hopStartAck (s : State) (port : Nat) : ∃ eff, exec (.hopStartAck port) s = actOn (s.has (.hopStartAck port)) s eff := by
  show ∃ eff, execHopStartAck port s = _
  unfold execHopStartAck
  exact ⟨_, rfl⟩

theorem exec_hopDataFrame (s : State) (port : Nat) (shim : Shim) (f : Frame) : ∃ eff, exec (.hopDataFrame port shim f) s = actOn (s.has (.hopDataFrame port shim f)) s eff := by
  show ∃ eff, execHopDataFrame port shim f s = _
  unfold execHopDataFrame
  exact ⟨_, rfl⟩

theorem exec_hopAck (s : State) (port ack : Nat) : ∃ eff, exec (.hopAck port ack) s = actOn (s.has (.hopAck port ack)) s eff := by
  show ∃ eff, execHopAck port ack s = _
  unfold execHopAck
  exact ⟨_, rfl⟩

theorem exec_hopNak (s : State) (port hsn : Nat) : ∃ eff, exec (.hopNak port hsn) s = actOn (s.has (.hopNak port hsn)) s eff := by
  show ∃ eff, execHopNak port hsn s = _
  unfold execHopNak
  exact ⟨_, rfl⟩

theorem exec_hopAckTimeout (s : State) (port : Nat) : ∃ eff, exec (.hopAckTimeout port) s = actOn (s.has (.hopAckTimeout port)) s eff := by
  show ∃ eff, execHopAckTimeout port s = _
  unfold execHopAckTimeout
  exact ⟨_, rfl⟩

theorem exec_hopAckTimer (s : State) (port : Nat) : ∃ eff, exec (.hopAckTimer port) s = actOn (s.has (.hopAckTimer port)) s eff := by
  show ∃ eff, execHopAckTimer port s = _
  unfold execHopAckTimer
  exact ⟨_, rfl⟩

theorem exec_weatherReportTimer (s : State)  : ∃ eff, exec (.weatherReportTimer) s = act s eff := by
  show ∃ eff, execWeatherReportTimer s = _
  unfold execWeatherReportTimer
  exact ⟨_, rfl⟩

theorem exec_weatherUpdate (s : State) (k : Nat) (body : List Byte) : ∃ eff, exec (.weatherUpdate k body) s = actOn (s.has (.weatherUpdate k body)) s eff := by
  show ∃ eff, execWeatherUpdate k body s = _
  unfold execWeatherUpdate
  exact ⟨_, rfl⟩

theorem exec_weatherWindowGo (s : State)  : ∃ eff, exec (.weatherWindowGo) s = act s eff := by
  show ∃ eff, execWeatherWindowGo s = _
  unfold execWeatherWindowGo
  exact ⟨_, rfl⟩

theorem exec_weatherLevelExpiry (s : State) (dst : Nat) : ∃ eff, exec (.weatherLevelExpiry dst) s = act s eff := by
  show ∃ eff, execWeatherLevelExpiry dst s = _
  unfold execWeatherLevelExpiry
  exact ⟨_, rfl⟩

theorem exec_hostLinkUp (s : State) (link gen width : Nat) : ∃ eff, exec (.hostLinkUp link gen width) s = actOn (s.has (.hostLinkUp link gen width)) s eff := by
  show ∃ eff, execHostLinkUp link gen width s = _
  unfold execHostLinkUp
  exact ⟨_, rfl⟩

theorem exec_hostLinkChange (s : State) (link gen : Nat) (width : LinkLanes) : ∃ eff, exec (.hostLinkChange link gen width) s = actOn (s.has (.hostLinkChange link gen width)) s eff := by
  show ∃ eff, execHostLinkChange link gen width s = _
  unfold execHostLinkChange
  exact ⟨_, rfl⟩

theorem exec_hostLinkLoss (s : State) (link : Nat) : ∃ eff, exec (.hostLinkLoss link) s = actOn (s.has (.hostLinkLoss link)) s eff := by
  show ∃ eff, execHostLinkLoss link s = _
  unfold execHostLinkLoss
  exact ⟨_, rfl⟩

theorem exec_pfFlr (s : State) (link : Nat) : ∃ eff, exec (.pfFlr link) s = actOn (s.has (.pfFlr link)) s eff := by
  show ∃ eff, execPfFlr link s = _
  unfold execPfFlr
  exact ⟨_, rfl⟩

theorem exec_vfFlr (s : State) (link vf : Nat) : ∃ eff, exec (.vfFlr link vf) s = actOn (s.has (.vfFlr link vf)) s eff := by
  show ∃ eff, execVfFlr link vf s = _
  unfold execVfFlr
  exact ⟨_, rfl⟩

theorem exec_hostReadCompletion (s : State) (n : Nat) (ok : Bool) (data : List Byte) : ∃ eff, exec (.hostReadCompletion n ok data) s = act s eff := by
  show ∃ eff, execHostReadCompletion n ok data s = _
  unfold execHostReadCompletion
  exact ⟨_, rfl⟩

theorem exec_cplTimeout (s : State) (n : Nat) : ∃ eff, exec (.cplTimeout n) s = act s eff := by
  show ∃ eff, execCplTimeout n s = _
  unfold execCplTimeout
  exact ⟨_, rfl⟩

theorem exec_apertureRead (s : State) (link vf off len : Nat) : ∃ eff, exec (.apertureRead link vf off len) s = actOn (s.has (.apertureRead link vf off len)) s eff := by
  show ∃ eff, execApertureRead link vf off len s = _
  unfold execApertureRead
  exact ⟨_, rfl⟩

theorem exec_apertureWrite (s : State) (link vf off : Nat) (data : List Byte) : ∃ eff, exec (.apertureWrite link vf off data) s = actOn (s.has (.apertureWrite link vf off data)) s eff := by
  show ∃ eff, execApertureWrite link vf off data s = _
  unfold execApertureWrite
  exact ⟨_, rfl⟩

theorem exec_downstreamRequest (s : State) (link rid addr len : Nat) (data : BelowRequest) : ∃ eff, exec (.downstreamRequest link rid addr len data) s = actOn (s.has (.downstreamRequest link rid addr len data)) s eff := by
  show ∃ eff, execDownstreamRequest link rid addr len data s = _
  unfold execDownstreamRequest
  exact ⟨_, rfl⟩

theorem exec_msixUnmask (s : State) (link vf vector : Nat) : ∃ eff, exec (.msixUnmask link vf vector) s = actOn (s.has (.msixUnmask link vf vector)) s eff := by
  show ∃ eff, execMsixUnmask link vf vector s = _
  unfold execMsixUnmask winAct
  exact ⟨_, rfl⟩

theorem exec_attach (s : State) (link vf : Nat) : ∃ eff, exec (.attach link vf) s = actOn (s.has (.attach link vf)) s eff := by
  show ∃ eff, execAttach link vf s = _
  unfold execAttach attAct
  exact ⟨_, rfl⟩

theorem exec_detach (s : State) (link vf : Nat) : ∃ eff, exec (.detach link vf) s = actOn (s.has (.detach link vf)) s eff := by
  show ∃ eff, execDetach link vf s = _
  unfold execDetach attAct
  exact ⟨_, rfl⟩

theorem exec_resume (s : State) (link vf : Nat) : ∃ eff, exec (.resume link vf) s = actOn (s.has (.resume link vf)) s eff := by
  show ∃ eff, execResume link vf s = _
  unfold execResume attAct
  exact ⟨_, rfl⟩

theorem exec_discard (s : State) (link vf : Nat) : ∃ eff, exec (.discard link vf) s = actOn (s.has (.discard link vf)) s eff := by
  show ∃ eff, execDiscard link vf s = _
  unfold execDiscard attAct
  exact ⟨_, rfl⟩

theorem exec_attachLockExpiry (s : State) (vf : Nat) : ∃ eff, exec (.attachLockExpiry vf) s = actOn (s.has (.attachLockExpiry vf)) s eff := by
  show ∃ eff, execAttachLockExpiry vf s = _
  unfold execAttachLockExpiry
  exact ⟨_, rfl⟩

theorem exec_hptTokenRead (s : State) (link vf : Nat) : ∃ eff, exec (.hptTokenRead link vf) s = actOn (s.has (.hptTokenRead link vf)) s eff := by
  show ∃ eff, execHptTokenRead link vf s = _
  unfold execHptTokenRead winAct
  exact ⟨_, rfl⟩

theorem exec_ptnTokenRead (s : State)  : ∃ eff, exec (.ptnTokenRead) s = act s eff := by
  show ∃ eff, execPtnTokenRead s = _
  unfold execPtnTokenRead
  exact ⟨_, rfl⟩

theorem exec_blockResend (s : State) (block kind unit : Nat) (op : BlockUse) (ok : Bool) : ∃ eff, exec (.blockResend block kind unit op ok) s = actOn (s.has (.blockResend block kind unit op ok)) s eff := by
  show ∃ eff, execBlockResend block kind unit op ok s = _
  unfold execBlockResend
  exact ⟨_, rfl⟩

theorem exec_hbmRecalTimer (s : State) (channel : Nat) (delayed : List Nat) : ∃ eff, exec (.hbmRecalTimer channel delayed) s = actOn (s.has (.hbmRecalTimer channel delayed)) s eff := by
  show ∃ eff, execHbmRecalTimer channel delayed s = _
  unfold execHbmRecalTimer
  exact ⟨_, rfl⟩

theorem exec_ddrRecalTimer (s : State) (channel : Nat) (delayed : List Nat) : ∃ eff, exec (.ddrRecalTimer channel delayed) s = actOn (s.has (.ddrRecalTimer channel delayed)) s eff := by
  show ∃ eff, execDdrRecalTimer channel delayed s = _
  unfold execDdrRecalTimer
  exact ⟨_, rfl⟩

theorem exec_scrubPass (s : State) (tier : Nat) (fixed clean bad : List Nat) : ∃ eff, exec (.scrubPass tier fixed clean bad) s = actOn (s.has (.scrubPass tier fixed clean bad)) s eff := by
  show ∃ eff, execScrubPass tier fixed clean bad s = _
  unfold execScrubPass
  exact ⟨_, rfl⟩

theorem exec_hbmLaneRepair (s : State) (channel : Nat) (spareLeft : Bool) : ∃ eff, exec (.hbmLaneRepair channel spareLeft) s = actOn (s.has (.hbmLaneRepair channel spareLeft)) s eff := by
  show ∃ eff, execHbmLaneRepair channel spareLeft s = _
  unfold execHbmLaneRepair
  exact ⟨_, rfl⟩

theorem exec_lrdRetire (s : State) (bank : Nat) : ∃ eff, exec (.lrdRetire bank) s = actOn (s.has (.lrdRetire bank)) s eff := by
  show ∃ eff, execLrdRetire bank s = _
  unfold execLrdRetire
  exact ⟨_, rfl⟩

theorem exec_bankRetireCopy (s : State) (bank : Nat) : ∃ eff, exec (.bankRetireCopy bank) s = actOn (s.has (.bankRetireCopy bank)) s eff := by
  show ∃ eff, execBankRetireCopy bank s = _
  unfold execBankRetireCopy
  exact ⟨_, rfl⟩

theorem exec_lrdSpareMap (s : State) (bank spare : Nat) : ∃ eff, exec (.lrdSpareMap bank spare) s = actOn (s.has (.lrdSpareMap bank spare)) s eff := by
  show ∃ eff, execLrdSpareMap bank spare s = _
  unfold execLrdSpareMap
  exact ⟨_, rfl⟩

theorem exec_larderSpareSwitch (s : State)  : ∃ eff, exec (.larderSpareSwitch) s = act s eff := by
  show ∃ eff, execLarderSpareSwitch s = _
  unfold execLarderSpareSwitch
  exact ⟨_, rfl⟩

theorem exec_granuleZeroed (s : State) (tier granule : Nat) : ∃ eff, exec (.granuleZeroed tier granule) s = actOn (s.has (.granuleZeroed tier granule)) s eff := by
  show ∃ eff, execGranuleZeroed tier granule s = _
  unfold execGranuleZeroed
  exact ⟨_, rfl⟩

theorem exec_instCreate (s : State) (key count : Nat) : ∃ eff, exec (.instCreate key count) s = act s eff := by
  show ∃ eff, execInstCreate key count s = _
  unfold execInstCreate onInst onEntry
  exact ⟨_, rfl⟩

theorem exec_instModify (s : State) (key count : Nat) : ∃ eff, exec (.instModify key count) s = act s eff := by
  show ∃ eff, execInstModify key count s = _
  unfold execInstModify onInst onEntry
  exact ⟨_, rfl⟩

theorem exec_instQuiesce (s : State) (key count : Nat) : ∃ eff, exec (.instQuiesce key count) s = act s eff := by
  show ∃ eff, execInstQuiesce key count s = _
  unfold execInstQuiesce onInst onEntry
  exact ⟨_, rfl⟩

theorem exec_drainEnd (s : State) (vf : Nat) : ∃ eff, exec (.drainEnd vf) s = actOn (s.has (.drainEnd vf)) s eff := by
  show ∃ eff, execDrainEnd vf s = _
  unfold execDrainEnd
  exact ⟨_, rfl⟩

theorem exec_drainTimeout (s : State) (vf : Nat) : ∃ eff, exec (.drainTimeout vf) s = actOn (s.has (.drainTimeout vf)) s eff := by
  show ∃ eff, execDrainTimeout vf s = _
  unfold execDrainTimeout
  exact ⟨_, rfl⟩

theorem exec_instResume (s : State) (key count : Nat) : ∃ eff, exec (.instResume key count) s = act s eff := by
  show ∃ eff, execInstResume key count s = _
  unfold execInstResume onInst onEntry
  exact ⟨_, rfl⟩

theorem exec_instReset (s : State) (key count : Nat) : ∃ eff, exec (.instReset key count) s = act s eff := by
  show ∃ eff, execInstReset key count s = _
  unfold execInstReset onInst onEntry
  exact ⟨_, rfl⟩

theorem exec_instRemove (s : State) (key count : Nat) : ∃ eff, exec (.instRemove key count) s = act s eff := by
  show ∃ eff, execInstRemove key count s = _
  unfold execInstRemove onInst onEntry
  exact ⟨_, rfl⟩

theorem exec_instToken (s : State) (key count : Nat) : ∃ eff, exec (.instToken key count) s = act s eff := by
  show ∃ eff, execInstToken key count s = _
  unfold execInstToken onInst onEntry
  exact ⟨_, rfl⟩

theorem exec_ptnQuiesce (s : State) (key count : Nat) : ∃ eff, exec (.ptnQuiesce key count) s = act s eff := by
  show ∃ eff, execPtnQuiesce key count s = _
  unfold execPtnQuiesce onPart onEntry
  exact ⟨_, rfl⟩

theorem exec_ptnResume (s : State) (key count : Nat) : ∃ eff, exec (.ptnResume key count) s = act s eff := by
  show ∃ eff, execPtnResume key count s = _
  unfold execPtnResume onPart onEntry
  exact ⟨_, rfl⟩

theorem exec_ptnReset (s : State) (key count : Nat) : ∃ eff, exec (.ptnReset key count) s = act s eff := by
  show ∃ eff, execPtnReset key count s = _
  unfold execPtnReset onEntry
  exact ⟨_, rfl⟩

theorem exec_keyWordWrite (s : State) (path : Path) (k w : Nat) : ∃ eff, exec (.keyWordWrite path k w) s = actOn (s.has (.keyWordWrite path k w)) s eff := by
  show ∃ eff, execKeyWordWrite path k w s = _
  unfold execKeyWordWrite
  exact ⟨_, rfl⟩

theorem exec_keyStageTimeout (s : State)  : ∃ eff, exec (.keyStageTimeout) s = act s eff := by
  show ∃ eff, execKeyStageTimeout s = _
  unfold execKeyStageTimeout
  exact ⟨_, rfl⟩

theorem exec_load (s : State) (path : Path) (ctrLog2 : Nat) : ∃ eff, exec (.load path ctrLog2) s = act s eff := by
  show ∃ eff, execLoad path ctrLog2 s = _
  unfold execLoad
  exact ⟨_, rfl⟩

theorem exec_wipeSlot (s : State)  : ∃ eff, exec (.wipeSlot) s = act s eff := by
  show ∃ eff, execWipeSlot s = _
  unfold execWipeSlot
  exact ⟨_, rfl⟩

theorem exec_wipeInstance (s : State)  : ∃ eff, exec (.wipeInstance) s = act s eff := by
  show ∃ eff, execWipeInstance s = _
  unfold execWipeInstance
  exact ⟨_, rfl⟩

theorem exec_wipeAll (s : State)  : ∃ eff, exec (.wipeAll) s = act s eff := by
  show ∃ eff, execWipeAll s = _
  unfold execWipeAll
  exact ⟨_, rfl⟩

theorem exec_cphSpareMap (s : State) (retired spare : Nat) : ∃ eff, exec (.cphSpareMap retired spare) s = act s eff := by
  show ∃ eff, execCphSpareMap retired spare s = _
  unfold execCphSpareMap
  exact ⟨_, rfl⟩

theorem exec_attest (s : State)  : ∃ eff, exec (.attest) s = act s eff := by
  show ∃ eff, execAttest s = _
  unfold execAttest
  exact ⟨_, rfl⟩

theorem exec_attestDone (s : State)  : ∃ eff, exec (.attestDone) s = act s eff := by
  show ∃ eff, execAttestDone s = _
  unfold execAttestDone
  exact ⟨_, rfl⟩

theorem exec_lcAdvance (s : State) (ok : Bool) : ∃ eff, exec (.lcAdvance ok) s = act s eff := by
  show ∃ eff, execLcAdvance ok s = _
  unfold execLcAdvance
  exact ⟨_, rfl⟩

theorem exec_lcScrap (s : State) (confirm : Nat) (ok : Bool) : ∃ eff, exec (.lcScrap confirm ok) s = act s eff := by
  show ∃ eff, execLcScrap confirm ok s = _
  unfold execLcScrap
  exact ⟨_, rfl⟩

theorem exec_revoke (s : State) (key : Nat) (ok : Bool) : ∃ eff, exec (.revoke key ok) s = actOn (s.has (.revoke key ok)) s eff := by
  show ∃ eff, execRevoke key ok s = _
  unfold execRevoke
  exact ⟨_, rfl⟩

theorem exec_raiseFwFloor (s : State) (ok : Bool) : ∃ eff, exec (.raiseFwFloor ok) s = act s eff := by
  show ∃ eff, execRaiseFwFloor ok s = _
  unfold execRaiseFwFloor
  exact ⟨_, rfl⟩

theorem exec_burnPolarity (s : State) (ok : Bool) : ∃ eff, exec (.burnPolarity ok) s = act s eff := by
  show ∃ eff, execBurnPolarity ok s = _
  unfold execBurnPolarity
  exact ⟨_, rfl⟩

theorem exec_tamperCfgWrite (s : State) (enable polarity : Nat) : ∃ eff, exec (.tamperCfgWrite enable polarity) s = act s eff := by
  show ∃ eff, execTamperCfgWrite enable polarity s = _
  unfold execTamperCfgWrite
  exact ⟨_, rfl⟩

theorem exec_rngHealthFail (s : State)  : ∃ eff, exec (.rngHealthFail) s = act s eff := by
  show ∃ eff, execRngHealthFail s = _
  unfold execRngHealthFail
  exact ⟨_, rfl⟩

theorem exec_targetConnect (s : State)  : ∃ eff, exec (.targetConnect) s = act s eff := by
  show ∃ eff, execTargetConnect s = _
  unfold execTargetConnect
  exact ⟨_, rfl⟩

theorem exec_targetDisconnect (s : State)  : ∃ eff, exec (.targetDisconnect) s = act s eff := by
  show ∃ eff, execTargetDisconnect s = _
  unfold execTargetDisconnect
  exact ⟨_, rfl⟩

theorem exec_targetReconnectTimer (s : State) (target : Nat) : ∃ eff, exec (.targetReconnectTimer target) s = actOn (s.has (.targetReconnectTimer target)) s eff := by
  show ∃ eff, execTargetReconnectTimer target s = _
  unfold execTargetReconnectTimer
  exact ⟨_, rfl⟩

theorem exec_nvmePduReceive (s : State) (target : Nat) (pdu : NvmePdu) : ∃ eff, exec (.nvmePduReceive target pdu) s = actOn (s.has (.nvmePduReceive target pdu)) s eff := by
  show ∃ eff, execNvmePduReceive target pdu s = _
  unfold execNvmePduReceive
  exact ⟨_, rfl⟩

theorem exec_ckpCmdTimeout (s : State) (target : Nat) (held : Option Nat) : ∃ eff, exec (.ckpCmdTimeout target held) s = actOn (s.has (.ckpCmdTimeout target held)) s eff := by
  show ∃ eff, execCkpCmdTimeout target held s = _
  unfold execCkpCmdTimeout
  exact ⟨_, rfl⟩

theorem exec_ckpKeepaliveTimer (s : State)  : ∃ eff, exec (.ckpKeepaliveTimer) s = act s eff := by
  show ∃ eff, execCkpKeepaliveTimer s = _
  unfold execCkpKeepaliveTimer
  exact ⟨_, rfl⟩

theorem exec_ckpSave (s : State) (key count : Nat) : ∃ eff, exec (.ckpSave key count) s = act s eff := by
  show ∃ eff, execCkpSave key count s = _
  unfold execCkpSave onEntry
  exact ⟨_, rfl⟩

theorem exec_ckpRestore (s : State) (key count : Nat) : ∃ eff, exec (.ckpRestore key count) s = act s eff := by
  show ∃ eff, execCkpRestore key count s = _
  unfold execCkpRestore onEntry
  exact ⟨_, rfl⟩

theorem exec_domainIdleStep (s : State) (domain : Nat) : ∃ eff, exec (.domainIdleStep domain) s = actOn (s.has (.domainIdleStep domain)) s eff := by
  show ∃ eff, execDomainIdleStep domain s = _
  unfold execDomainIdleStep
  exact ⟨_, rfl⟩

theorem exec_kindle (s : State) (domain : Nat) : ∃ eff, exec (.kindle domain) s = actOn (s.has (.kindle domain)) s eff := by
  show ∃ eff, execKindle domain s = _
  unfold execKindle
  exact ⟨_, rfl⟩

theorem exec_domainLit (s : State) (domain : Nat) : ∃ eff, exec (.domainLit domain) s = actOn (s.has (.domainLit domain)) s eff := by
  show ∃ eff, execDomainLit domain s = _
  unfold execDomainLit
  exact ⟨_, rfl⟩

theorem exec_privWake (s : State) (domain : Nat) : ∃ eff, exec (.privWake domain) s = actOn (s.has (.privWake domain)) s eff := by
  show ∃ eff, execPrivWake domain s = _
  unfold execPrivWake
  exact ⟨_, rfl⟩

theorem exec_privRelease (s : State) (domain : Nat) : ∃ eff, exec (.privRelease domain) s = actOn (s.has (.privRelease domain)) s eff := by
  show ∃ eff, execPrivRelease domain s = _
  unfold execPrivRelease
  exact ⟨_, rfl⟩

theorem exec_domainFloorWrite (s : State) (domain floor : Nat) (pin : Bool) (idleUs : Nat) : ∃ eff, exec (.domainFloorWrite domain floor pin idleUs) s = actOn (s.has (.domainFloorWrite domain floor pin idleUs)) s eff := by
  show ∃ eff, execDomainFloorWrite domain floor pin idleUs s = _
  unfold execDomainFloorWrite
  exact ⟨_, rfl⟩

theorem exec_enterEmber (s : State)  : ∃ eff, exec (.enterEmber) s = act s eff := by
  show ∃ eff, execEnterEmber s = _
  unfold execEnterEmber
  exact ⟨_, rfl⟩

theorem exec_enterCold (s : State)  : ∃ eff, exec (.enterCold) s = act s eff := by
  show ∃ eff, execEnterCold s = _
  unfold execEnterCold
  exact ⟨_, rfl⟩

theorem exec_deviceWake (s : State) (cause : Nat) (level : Bool) : ∃ eff, exec (.deviceWake cause level) s = act s eff := by
  show ∃ eff, execDeviceWake cause level s = _
  unfold execDeviceWake
  exact ⟨_, rfl⟩

theorem exec_powerSample (s : State) (watts die : Nat) (hbmTemps : List Nat) : ∃ eff, exec (.powerSample watts die hbmTemps) s = act s eff := by
  show ∃ eff, execPowerSample watts die hbmTemps s = _
  unfold execPowerSample
  exact ⟨_, rfl⟩

theorem exec_crystalFail (s : State)  : ∃ eff, exec (.crystalFail) s = act s eff := by
  show ∃ eff, execCrystalFail s = _
  unfold execCrystalFail
  exact ⟨_, rfl⟩

theorem exec_watchdogExpiry (s : State) (kind unit : Nat) (suspects : List Nat) : ∃ eff, exec (.watchdogExpiry kind unit suspects) s = actOn (s.has (.watchdogExpiry kind unit suspects)) s eff := by
  show ∃ eff, execWatchdogExpiry kind unit suspects s = _
  unfold execWatchdogExpiry
  exact ⟨_, rfl⟩

theorem exec_suspectWindowExpiry (s : State) (kind unit : Nat) : ∃ eff, exec (.suspectWindowExpiry kind unit) s = actOn (s.has (.suspectWindowExpiry kind unit)) s eff := by
  show ∃ eff, execSuspectWindowExpiry kind unit s = _
  unfold execSuspectWindowExpiry
  exact ⟨_, rfl⟩

theorem exec_suspectCleared (s : State) (kind unit : Nat) : ∃ eff, exec (.suspectCleared kind unit) s = actOn (s.has (.suspectCleared kind unit)) s eff := by
  show ∃ eff, execSuspectCleared kind unit s = _
  unfold execSuspectCleared
  exact ⟨_, rfl⟩

theorem exec_engineReset (s : State) (kind unit : Nat) : ∃ eff, exec (.engineReset kind unit) s = act s eff := by
  show ∃ eff, execEngineReset kind unit s = _
  unfold execEngineReset
  exact ⟨_, rfl⟩

theorem exec_engineResetDone (s : State) (kind unit : Nat) (ok : Bool) : ∃ eff, exec (.engineResetDone kind unit ok) s = actOn (s.has (.engineResetDone kind unit ok)) s eff := by
  show ∃ eff, execEngineResetDone kind unit ok s = _
  unfold execEngineResetDone
  exact ⟨_, rfl⟩

theorem exec_stewardHeartbeatMiss (s : State) (core : Nat) : ∃ eff, exec (.stewardHeartbeatMiss core) s = actOn (s.has (.stewardHeartbeatMiss core)) s eff := by
  show ∃ eff, execStewardHeartbeatMiss core s = _
  unfold execStewardHeartbeatMiss
  exact ⟨_, rfl⟩

theorem exec_chipReset (s : State)  : ∃ eff, exec (.chipReset) s = act s eff := by
  show ∃ eff, execChipReset s = _
  unfold execChipReset
  exact ⟨_, rfl⟩

theorem exec_firmwareReady (s : State)  : ∃ eff, exec (.firmwareReady) s = act s eff := by
  show ∃ eff, execFirmwareReady s = _
  unfold execFirmwareReady
  exact ⟨_, rfl⟩

theorem exec_bootWatchdogExpiry (s : State)  : ∃ eff, exec (.bootWatchdogExpiry) s = act s eff := by
  show ∃ eff, execBootWatchdogExpiry s = _
  unfold execBootWatchdogExpiry
  exact ⟨_, rfl⟩

theorem exec_powerCycle (s : State)  : ∃ eff, exec (.powerCycle) s = act s eff := by
  show ∃ eff, execPowerCycle s = _
  unfold execPowerCycle
  exact ⟨_, rfl⟩

theorem exec_clearRetired (s : State)  : ∃ eff, exec (.clearRetired) s = act s eff := by
  show ∃ eff, execClearRetired s = _
  unfold execClearRetired
  exact ⟨_, rfl⟩

theorem exec_dump (s : State)  : ∃ eff, exec (.dump) s = act s eff := by
  show ∃ eff, execDump s = _
  unfold execDump
  exact ⟨_, rfl⟩

theorem exec_dumpUnitTimeout (s : State) (kind index : Nat) : ∃ eff, exec (.dumpUnitTimeout kind index) s = actOn (s.has (.dumpUnitTimeout kind index)) s eff := by
  show ∃ eff, execDumpUnitTimeout kind index s = _
  unfold execDumpUnitTimeout
  exact ⟨_, rfl⟩

theorem exec_logRead (s : State)  : ∃ eff, exec (.logRead) s = act s eff := by
  show ∃ eff, execLogRead s = _
  unfold execLogRead
  exact ⟨_, rfl⟩

theorem exec_logClear (s : State) (summaries : Bool) : ∃ eff, exec (.logClear summaries) s = act s eff := by
  show ∃ eff, execLogClear summaries s = _
  unfold execLogClear
  exact ⟨_, rfl⟩

theorem exec_logFlushTimer (s : State)  : ∃ eff, exec (.logFlushTimer) s = actOn0 s eff := by
  show ∃ eff, execLogFlushTimer s = _
  unfold execLogFlushTimer
  exact ⟨_, rfl⟩

theorem exec_logPageDone (s : State) (ok : Bool) : ∃ eff, exec (.logPageDone ok) s = actOn0 s eff := by
  show ∃ eff, execLogPageDone ok s = _
  unfold execLogPageDone
  exact ⟨_, rfl⟩

theorem exec_logRecordClose (s : State)  : ∃ eff, exec (.logRecordClose) s = actOn0 s eff := by
  show ∃ eff, execLogRecordClose s = _
  unfold execLogRecordClose
  exact ⟨_, rfl⟩

theorem exec_telSnapshot (s : State)  : ∃ eff, exec (.telSnapshot) s = act s eff := by
  show ∃ eff, execTelSnapshot s = _
  unfold execTelSnapshot
  exact ⟨_, rfl⟩

theorem exec_injUnlock (s : State) (unlock : Bool) (confirm : Nat) : ∃ eff, exec (.injUnlock unlock confirm) s = act s eff := by
  show ∃ eff, execInjUnlock unlock confirm s = _
  unfold execInjUnlock
  exact ⟨_, rfl⟩

theorem exec_injArm (s : State)  : ∃ eff, exec (.injArm) s = act s eff := by
  show ∃ eff, execInjArm s = _
  unfold execInjArm
  exact ⟨_, rfl⟩

theorem exec_injDisarm (s : State)  : ∃ eff, exec (.injDisarm) s = act s eff := by
  show ∃ eff, execInjDisarm s = _
  unfold execInjDisarm
  exact ⟨_, rfl⟩

theorem exec_thermalTrip (s : State)  : ∃ eff, exec (.thermalTrip) s = act s eff := by
  show ∃ eff, execThermalTrip s = _
  unfold execThermalTrip
  exact ⟨_, rfl⟩

theorem exec_credentialChallenge (s : State)  : ∃ eff, exec (.credentialChallenge) s = act s eff := by
  show ∃ eff, execCredentialChallenge s = _
  unfold execCredentialChallenge
  exact ⟨_, rfl⟩

theorem exec_credentialProve (s : State)  : ∃ eff, exec (.credentialProve) s = act s eff := by
  show ∃ eff, execCredentialProve s = _
  unfold execCredentialProve
  exact ⟨_, rfl⟩

theorem exec_credentialRelinquish (s : State)  : ∃ eff, exec (.credentialRelinquish) s = act s eff := by
  show ∃ eff, execCredentialRelinquish s = _
  unfold execCredentialRelinquish
  exact ⟨_, rfl⟩

theorem exec_challengeReq (s : State) (k : Nat) : ∃ eff, exec (.challengeReq k) s = actOn (s.has (.challengeReq k)) s eff := by
  show ∃ eff, execChallengeReq k s = _
  unfold execChallengeReq
  exact ⟨_, rfl⟩

theorem exec_proof (s : State) (k : Nat) (body : List Byte) : ∃ eff, exec (.proof k body) s = actOn (s.has (.proof k body)) s eff := by
  show ∃ eff, execProof k body s = _
  unfold execProof
  exact ⟨_, rfl⟩

theorem exec_resultAcknowledged (s : State) (k : Nat) : ∃ eff, exec (.resultAcknowledged k) s = actOn (s.has (.resultAcknowledged k)) s eff := by
  show ∃ eff, execResultAcknowledged k s = _
  unfold execResultAcknowledged
  exact ⟨_, rfl⟩

theorem exec_regRead (s : State) (k seq off len : Nat) : ∃ eff, exec (.regRead k seq off len) s = actOn (s.has (.regRead k seq off len)) s eff := by
  show ∃ eff, execRegRead k seq off len s = _
  unfold execRegRead
  exact ⟨_, rfl⟩

theorem exec_regWrite (s : State) (k seq off : Nat) (data : List Byte) : ∃ eff, exec (.regWrite k seq off data) s = actOn (s.has (.regWrite k seq off data)) s eff := by
  show ∃ eff, execRegWrite k seq off data s = _
  unfold execRegWrite
  exact ⟨_, rfl⟩

theorem exec_relinquish (s : State) (k : Nat) : ∃ eff, exec (.relinquish k) s = actOn (s.has (.relinquish k)) s eff := by
  show ∃ eff, execRelinquish k s = _
  unfold execRelinquish
  exact ⟨_, rfl⟩

theorem exec_sessionIdleTimeout (s : State)  : ∃ eff, exec (.sessionIdleTimeout) s = act s eff := by
  show ∃ eff, execSessionIdleTimeout s = _
  unfold execSessionIdleTimeout
  exact ⟨_, rfl⟩

theorem exec_challengeExpiry (s : State) (path : Nat) : ∃ eff, exec (.challengeExpiry path) s = actOn (s.has (.challengeExpiry path)) s eff := by
  show ∃ eff, execChallengeExpiry path s = _
  unfold execChallengeExpiry
  exact ⟨_, rfl⟩

theorem exec_pathLockExpiry (s : State) (path : Nat) : ∃ eff, exec (.pathLockExpiry path) s = actOn (s.has (.pathLockExpiry path)) s eff := by
  show ∃ eff, execPathLockExpiry path s = _
  unfold execPathLockExpiry
  exact ⟨_, rfl⟩

theorem exec_query (s : State) (f : TrayIn) : ∃ eff, exec (.query f) s = actOn0 s eff := by
  show ∃ eff, execQuery f s = _
  unfold execQuery
  exact ⟨_, rfl⟩

theorem exec_pcAck (s : State) (f : TrayIn) : ∃ eff, exec (.pcAck f) s = actOn0 s eff := by
  show ∃ eff, execPcAck f s = _
  unfold execPcAck
  exact ⟨_, rfl⟩

theorem exec_announceTimer (s : State)  : ∃ eff, exec (.announceTimer) s = actOn0 s eff := by
  show ∃ eff, execAnnounceTimer s = _
  unfold execAnnounceTimer
  exact ⟨_, rfl⟩

theorem exec_retiredMessageTimer (s : State)  : ∃ eff, exec (.retiredMessageTimer) s = actOn0 s eff := by
  show ∃ eff, execRetiredMessageTimer s = _
  unfold execRetiredMessageTimer
  exact ⟨_, rfl⟩

theorem exec_powerCycleReqTimer (s : State)  : ∃ eff, exec (.powerCycleReqTimer) s = actOn0 s eff := by
  show ∃ eff, execPowerCycleReqTimer s = _
  unfold execPowerCycleReqTimer
  exact ⟨_, rfl⟩

theorem exec_mgtBackoffExpiry (s : State)  : ∃ eff, exec (.mgtBackoffExpiry) s = actOn0 s eff := by
  show ∃ eff, execMgtBackoffExpiry s = _
  unfold execMgtBackoffExpiry
  exact ⟨_, rfl⟩

theorem exec_fwProgramA (s : State)  : ∃ eff, exec (.fwProgramA) s = act s eff := by
  show ∃ eff, execFwProgramA s = _
  unfold execFwProgramA
  exact ⟨_, rfl⟩

theorem exec_fwProgramB (s : State)  : ∃ eff, exec (.fwProgramB) s = act s eff := by
  show ∃ eff, execFwProgramB s = _
  unfold execFwProgramB
  exact ⟨_, rfl⟩

theorem exec_fwProgramDone (s : State) (ok : Bool) : ∃ eff, exec (.fwProgramDone ok) s = act s eff := by
  show ∃ eff, execFwProgramDone ok s = _
  unfold execFwProgramDone
  exact ⟨_, rfl⟩

theorem exec_ddrChannelFail (s : State) (channel : Nat) : ∃ eff, exec (.ddrChannelFail channel) s = actOn (s.has (.ddrChannelFail channel)) s eff := by
  show ∃ eff, execDdrChannelFail channel s = _
  unfold execDdrChannelFail
  exact ⟨_, rfl⟩

theorem exec_rngHealthRestored (s : State)  : ∃ eff, exec (.rngHealthRestored) s = act s eff := by
  show ∃ eff, execRngHealthRestored s = _
  unfold execRngHealthRestored
  exact ⟨_, rfl⟩

theorem exec_keyWipeDone (s : State) (ok : Bool) : ∃ eff, exec (.keyWipeDone ok) s = act s eff := by
  show ∃ eff, execKeyWipeDone ok s = _
  unfold execKeyWipeDone
  exact ⟨_, rfl⟩

theorem exec_cellarWipeDone (s : State) (ok : Bool) : ∃ eff, exec (.cellarWipeDone ok) s = act s eff := by
  show ∃ eff, execCellarWipeDone ok s = _
  unfold execCellarWipeDone
  exact ⟨_, rfl⟩

theorem exec_instResetDone (s : State) (vf : Nat) : ∃ eff, exec (.instResetDone vf) s = actOn (s.has (.instResetDone vf)) s eff := by
  show ∃ eff, execInstResetDone vf s = _
  unfold execInstResetDone
  exact ⟨_, rfl⟩

theorem exec_ptnResetDone (s : State) (part : Nat) (ok : Bool) : ∃ eff, exec (.ptnResetDone part ok) s = actOn (s.has (.ptnResetDone part ok)) s eff := by
  show ∃ eff, execPtnResetDone part ok s = _
  unfold execPtnResetDone
  exact ⟨_, rfl⟩

theorem exec_logReadDone (s : State)  : ∃ eff, exec (.logReadDone) s = act s eff := by
  show ∃ eff, execLogReadDone s = _
  unfold execLogReadDone
  exact ⟨_, rfl⟩

theorem exec_trayCollision (s : State)  : ∃ eff, exec (.trayCollision) s = actOn0 s eff := by
  show ∃ eff, execTrayCollision s = _
  unfold execTrayCollision
  exact ⟨_, rfl⟩

theorem exec_frameTransmit (s : State) (port : Nat) : ∃ eff, exec (.frameTransmit port) s = actOn (s.has (.frameTransmit port)) s eff := by
  show ∃ eff, execFrameTransmit port s = _
  unfold execFrameTransmit
  exact ⟨_, rfl⟩

theorem exec_deviceEntryDone (s : State)  : ∃ eff, exec (.deviceEntryDone) s = act s eff := by
  show ∃ eff, execDeviceEntryDone s = _
  unfold execDeviceEntryDone
  exact ⟨_, rfl⟩

end Sys2Proof.Machine
end

