-- ==== Sys2Proof/Laws/Completes.lean ====
section
/-!
SUPPORT. To show that a command completes: its meaning runs on the state, and the queue is put back.
-/

namespace Sys2Proof.Machine

theorem completes_act {c : Instr} {s : State} {P : State → Prop} {f : State → State} (h : s.power = .run) (e : exec c s = act s f)
    (p : P ((f s).requeue s.pending)) : Completes c s P := ⟨_, e.trans (act_run h f), p⟩

theorem completes_actOn {c : Instr} {s : State} {P : State → Prop} {b : Bool} {f : State → State} (h : s.power = .run) (e : exec c s = actOn b s f)
    (hb : b = true) (p : P ((f s).requeue s.pending)) : Completes c s P := ⟨_, e.trans (actOn_run h hb f), p⟩

theorem completes_actOn0 {c : Instr} {s : State} {P : State → Prop} {f : State → State} (h : s.power = .run) (e : exec c s = actOn0 s f)
    (p : P ((f s).requeue s.pending)) : Completes c s P := ⟨_, e.trans (actOn0_run h f), p⟩

theorem Completes.mono {c : Instr} {s : State} {P Q : State → Prop} (h : Completes c s P) (i : ∀ t, P t → Q t) : Completes c s Q := by
  obtain ⟨t, h1, h2⟩ := h
  exact ⟨t, h1, i t h2⟩

/-- A command whose effect the commons then takes up. -/
theorem deals_act {c : Instr} {s : State} {P : State → Prop} {f : State → State} (h : s.power = .run) (e : exec c s = act s (fun s => (f s).cmnRun))
    (p : P (f s)) : Deals c s P := ⟨_, e.trans (act_run h _), _, rfl, p⟩

/-- A command after which the device settles. -/
theorem settles_act {c : Instr} {s : State} {P : State → Prop} {f : State → State} (h : s.power = .run) (e : exec c s = act s (fun s => (f s).settle))
    (p : P (f s)) : Settles c s P := ⟨_, e.trans (act_run h _), _, rfl, p⟩

/-- A packet that judging lets through goes to what takes its type, and the device settles. -/
theorem takes_settles {c : Instr} {s u : State} {P : State → Prop} {p q : Packet} {e : Ext} {n : Nat} {k : Conn} (h : s.Takes p e n k q u) (hc : exec c s = pktRow p e s)
    (h1 : ∀ a b g m, e ≠ .ctrl 1 a b g m) (h2 : ∀ a b g m, e ≠ .ctrl 2 a b g m) (h7 : ∀ a b d g m, e ≠ .nak 7 a b d g m) (hp : P (u.takePkt n k q)) : Settles c s P := by
  obtain ⟨hr, ha, hro, hj, he⟩ := h
  refine ⟨_, hc.trans (act_run hr _), _, rfl, ?_⟩
  have : s.rxPkt { p with ext := e } = u.takePkt n k q := by
    unfold State.rxPkt
    rw [ha]
    simp only [hro]
    simp only [Bool.not_true, Bool.false_eq_true, if_false]
    rw [hj]
  rw [this]; exact hp

/-- A refused register write changes nothing but the logbook and its own count (R10). -/
theorem State.rd_refuseWrite (s : State) (b : Blk) (o i : Nat) (f : Fld) (k : Nat) (h : f.reg.isLog = false) :
    (s.refuseWrite b o i).rd f k = s.rd f k := by
  unfold State.refuseWrite
  rw [State.rd_logEv _ _ _ _ _ _ _ _ _ h]
  rfl

end Sys2Proof.Machine
end

