-- ==== Sys2Proof/Laws/Manager.lean ====
section
/-!
SUPPORT. What the operations shared by a manager's rows, by the Kilmet link and by the crossings can do, each said once: an access of the session's
holder (R1, R499), the sending end of a flit (R24-R26), a crossing reset (R449).
-/

namespace Sys2Proof.Machine

/-! ### The manager (R1, R499) -/

/-- A manager's access changes the session's idle time alone. -/
theorem State.touchSession_cases (s : State) : s.touchSession = s ∨
    ∃ z, s.mgt.session = some z ∧ s.touchSession = { s with mgt := { s.mgt with session := some { z with last := s.now } } } := by
  unfold State.touchSession
  split
  · exact .inr ⟨_, ‹_›, rfl⟩
  · exact .inl rfl

@[simp] theorem State.touchSession_pending (s : State) : s.touchSession.pending = s.pending := by
  rcases s.touchSession_cases with h | ⟨_, _, h⟩ <;> rw [h]

@[simp] theorem State.touchSession_regs (s : State) : s.touchSession.regs = s.regs := by
  rcases s.touchSession_cases with h | ⟨_, _, h⟩ <;> rw [h]

@[simp] theorem State.touchSession_mem (s : State) : s.touchSession.mem = s.mem := by
  rcases s.touchSession_cases with h | ⟨_, _, h⟩ <;> rw [h]

@[simp] theorem State.touchSession_lay (s : State) : s.touchSession.lay = s.lay := by
  rcases s.touchSession_cases with h | ⟨_, _, h⟩ <;> rw [h]

@[simp] theorem State.touchSession_power (s : State) : s.touchSession.power = s.power := by
  rcases s.touchSession_cases with h | ⟨_, _, h⟩ <;> rw [h]

/-- A field of a register is not the session's. -/
@[simp] theorem State.touchSession_rd (s : State) (f : Fld) (i : Nat) : s.touchSession.rd f i = s.rd f i := by
  rcases s.touchSession_cases with h | ⟨_, _, h⟩
  · rw [h]
  · rw [h]; rfl

/-- A manager's row takes effect for the session's holder; without one nothing happens. -/
theorem asManager_eq (r : Bool) (f : State → State) (s : State) :
    (s.manages r = true ∧ asManager r f s = f s.touchSession) ∨ (s.manages r = false ∧ asManager r f s = s) := by
  cases h : s.manages r
  · exact .inr ⟨rfl, by simp [asManager, h]⟩
  · exact .inl ⟨rfl, by simp [asManager, h]⟩

/-! ### A flit that is sent (R24-R26) -/

/-- The sending end sends the flit whose turn it is in a replay, or, with room in the replay buffer, credit, and no data of its operation left to
acknowledge, a new one, which enters the buffer. -/
theorem State.klnSend_cases {s t : State} {m d : Nat} {f : List Byte} (h : s.klnSend m d f = some t) :
    (∃ n, (s.klnDir m d).replay = some n ∧ flitSeq f = n ∧ t.tier = s.tier ∧ t.kln.sent = s.kln.sent) ∨
    ((s.klnDir m d).replay = none ∧ flitSeq f = (s.klnDir m d).txSeq ∧ (s.klnDir m d).unacked.length < 512 ∧
      (flitKind f < 3 → s.klnCredit d (flitChan f) ≠ 0) ∧ (flitKind f = 2 → flitChan f ≠ 4 → s.klnDataOut d (flitTag f) = false)) := by
  unfold State.klnSend at h
  dsimp only at h
  split at h
  · rename_i n hn
    split at h
    · rename_i hc
      cases h
      exact .inl ⟨n, hn, hc.1, rfl, rfl⟩
    · cases h
  · rename_i hn
    split at h
    · cases h
    · rename_i hc
      simp only [not_or, not_and, not_le, ne_eq, not_not, decide_eq_true_eq, Bool.not_eq_true] at hc
      exact .inr ⟨hn, hc.1, hc.2.1, hc.2.2.1, hc.2.2.2⟩

/-! ### A crossing reset (R449) -/

/-- A crossing reset answers what is held, if anything, and leaves nothing held there. -/
theorem State.crossReset_cases (s : State) (d : Nat) :
    (s.heldAt d = 0 ∧ s.crossReset d = s) ∨ (s.heldAt d ≠ 0 ∧ s.crossReset d = (s.releaseHeld d).emit (.resetError d (s.heldAt d))) := by
  unfold State.crossReset
  split
  · exact .inl ⟨‹_›, rfl⟩
  · exact .inr ⟨‹_›, rfl⟩

end Sys2Proof.Machine
end

