-- ==== Sys2Proof/Laws/Memory.lean ====
section
/-!
SUPPORT. Device memory: every operation keeps the canonical form, and what a byte reads as after it.
-/

namespace Sys2Proof.Machine

theorem Memory.wf_iff (m : List Host.Cell) : Memory.wf m = true ↔ Tbl.wf m = true ∧ ∀ c ∈ m, c.2 ≠ 0 := by
  simp [Memory.wf]

theorem Tbl.mem_set {α : Type} (t : Tbl α) (q : Nat) (v : α) (x : Nat × α) (h : x ∈ Tbl.set t q v) : x.2 = v ∨ x ∈ t := by
  induction t with
  | nil => simp [Tbl.set] at h; simp [h]
  | cons y t ih =>
    obtain ⟨k, w⟩ := y
    by_cases h1 : q < k
    · simp [Tbl.set, h1] at h
      rcases h with rfl | rfl | h
      · simp
      · simp
      · simp [h]
    · by_cases h2 : q = k
      · simp [Tbl.set, h2] at h
        rcases h with rfl | h
        · simp
        · simp [h]
      · simp [Tbl.set, h1, h2] at h
        rcases h with rfl | h
        · simp
        · rcases ih h with h | h <;> simp [h]

/-- Storing a byte keeps the canonical form. -/
theorem Memory.wf_put (m : List Host.Cell) (a : Nat) (b : Byte) (h : Memory.wf m = true) : Memory.wf (Memory.put m a b) = true := by
  obtain ⟨h1, h2⟩ := (Memory.wf_iff m).1 h
  rw [Memory.wf_iff]
  unfold Memory.put
  split
  · refine ⟨Tbl.wf_erase m a h1, fun c hc => h2 c ?_⟩
    rw [Tbl.erase_eq_filter] at hc
    exact (List.mem_filter.1 hc).1
  · next hb =>
    refine ⟨Tbl.wf_set m a b h1, fun c hc => ?_⟩
    rcases Tbl.mem_set m a b c hc with hc | hc
    · rw [hc]; exact hb
    · exact h2 c hc

/-- Storing bytes keeps the canonical form. -/
theorem Memory.wf_write (m : List Host.Cell) (a : Nat) (l : List Byte) (h : Memory.wf m = true) : Memory.wf (Memory.write m a l) = true := by
  induction l generalizing m a with
  | nil => exact h
  | cons b t ih => exact ih _ _ (Memory.wf_put m a b h)

/-- Dropping bytes keeps the canonical form. -/
theorem Memory.wf_filter (m : List Host.Cell) (p : Host.Cell → Bool) (h : Memory.wf m = true) : Memory.wf (m.filter p) = true := by
  obtain ⟨h1, h2⟩ := (Memory.wf_iff m).1 h
  rw [Memory.wf_iff]
  exact ⟨Tbl.wf_filter m p h1, fun c hc => h2 c (List.mem_filter.1 hc).1⟩

/-- Zeroing a range keeps the canonical form. -/
theorem Memory.wf_clear (m : List Host.Cell) (lo n : Nat) (h : Memory.wf m = true) : Memory.wf (Memory.clear m lo n) = true :=
  Memory.wf_filter m _ h

/-- The one store of a state keeps the canonical form. -/
theorem State.memWrite_wf (s : State) (a : Nat) (d : List Byte) (h : Memory.wf s.mem = true) : Memory.wf (s.memWrite a d).mem = true :=
  Memory.wf_write s.mem a d h

/-- So does the one that takes a range back to zero. -/
theorem State.zeroRange_wf (s : State) (a n : Nat) (h : Memory.wf s.mem = true) : Memory.wf (s.zeroRange a n).mem = true :=
  Memory.wf_clear s.mem a n h

theorem State.reset_mem_wf : Memory.wf State.reset.mem = true := rfl

/-- A byte reads as what was stored last; every other byte as before. -/
theorem Memory.get_put (m : List Host.Cell) (a p : Nat) (b : Byte) : Memory.get (Memory.put m a b) p = if p = a then b else Memory.get m p := by
  unfold Memory.get Memory.put
  by_cases hb : b = 0
  · rw [if_pos hb, Tbl.get?_erase]
    by_cases hp : p = a <;> simp [hp, hb]
  · rw [if_neg hb, Tbl.get?_set]
    by_cases hp : p = a <;> simp [hp]

/-- After a store of bytes from `a` on: the bytes stored, and every other byte as before. -/
theorem Memory.get_write (m : List Host.Cell) (a p : Nat) (l : List Byte) :
    Memory.get (Memory.write m a l) p = if a ≤ p ∧ p < a + l.length then l.getD (p - a) 0 else Memory.get m p := by
  induction l generalizing m a with
  | nil => simp [Memory.write]
  | cons b t ih =>
    rw [Memory.write, ih, Memory.get_put]
    by_cases h1 : p = a
    · subst h1
      have : ¬ (p + 1 ≤ p ∧ p < p + 1 + t.length) := by omega
      simp
    · by_cases h2 : a + 1 ≤ p ∧ p < a + 1 + t.length
      · have h3 : a ≤ p ∧ p < a + (b :: t).length := by simp only [List.length_cons]; omega
        rw [if_pos h2, if_pos h3]
        obtain ⟨k, hk⟩ : ∃ k, p - a = k + 1 := ⟨p - a - 1, by omega⟩
        rw [hk, show p - (a + 1) = k by omega]
        simp
      · have h3 : ¬ (a ≤ p ∧ p < a + (b :: t).length) := by simp only [List.length_cons]; omega
        rw [if_neg h2, if_neg h3, if_neg h1]

/-- Memory after a store reads back the bytes stored. -/
theorem Memory.read_write_self (m : List Host.Cell) (a : Nat) (l : List Byte) : Memory.read (Memory.write m a l) a l.length = l := by
  apply List.ext_getElem
  · simp [Memory.read]
  · intro i h1 h2
    simp only [Memory.read, List.getElem_map, List.getElem_range, Memory.get_write]
    rw [if_pos (by omega)]
    simp [List.getD_eq_getElem?_getD, h2]

/-- A read outside the bytes stored is as before. -/
theorem Memory.read_write_other (m : List Host.Cell) (a b n : Nat) (l : List Byte) (h : b + n ≤ a ∨ a + l.length ≤ b) :
    Memory.read (Memory.write m a l) b n = Memory.read m b n := by
  unfold Memory.read
  apply List.map_congr_left
  intro k hk
  rw [List.mem_range] at hk
  rw [Memory.get_write, if_neg (by omega)]

end Sys2Proof.Machine
end

