-- ==== Sys2Proof/Tests/Slice0.lean ====
section
/-!
SUPPORT. Tests: for every statement with hypotheses a concrete state and operands that meet them, for every check of well-formedness a term that it
refuses, and single steps. Its theorems are elaborated one after another (`Elab.async false`): many kernel evaluations at once take more memory
than a check allows.
-/

namespace Sys2Proof.Machine

set_option Elab.async false

/-! ### Helpers -/

/-- Where a function's first answer is known, its whole answer is that one and some second one. -/
theorem answered {α β : Type} {p : α × β} {a : α} (h : p.1 = a) : p = (a, p.2) := by cases p; cases h; rfl

/-! ### Well-formedness: for every check a term that it refuses, and one that it lets through -/

/-- A packet whose every field fits. -/
def tPkt : Packet := { ext := .write 0 0 }

theorem test_wf_accepts : (List.all [Instr.registerWrite .conn 15 0 [], .registerWrite (.pf 15) 0 0 [], .registerWrite (.inst 1023) 0 0 [],
    .kilmetCredit 1 6 0, .sqDoorbell 15 1023 4095 (2 ^ 32 - 1), .hostLinkUp 15 7 16, .grant 0 0 [0, 0, 0, 0, 0, 0] tPkt, .privWake 66, .privRelease 91,
    .blockResend 0 0 33 ⟨.op 0, 0⟩ true, .domainFloorWrite 95 4 true 0, .rocePacket ⟨0, 0, 0, 0, false, .cnp, [], true, false⟩] Instr.wf) = true := by decide +kernel

theorem test_wf_refuses_paths : (List.any [Instr.registerWrite (.pf 16) 0 0 [], .registerWrite (.inst 1024) 0 0 [], .registerWrite .conn 16 0 [],
    .registerWrite .conn 0 (2 ^ 32) [], .counterLowHalfRead .conn 16 0, .counterLowHalfRead .pf0 0 (2 ^ 32), .regAccessTimeout (.inst 1024) 0 0 4 true,
    .keyWordWrite (.pf 16) 0 0, .keyWordWrite .conn 8 0, .keyWordWrite .conn 0 (2 ^ 32), .load (.inst 1024) 0] Instr.wf) = false := by decide +kernel

theorem test_wf_refuses_kilmet : (List.any [Instr.kilmetFlitReceive 8 0 [] [] true, .kilmetFlitReceive 0 0 [0] [0] true, .kilmetNak 0 2 0,
    .kilmetNak 0 0 4096, .kilmetAckTimeout 8 0, .kilmetAckTimer 0 2, .kilmetCredit 2 0 0, .kilmetCredit 0 7 0, .kilmetCredit 0 0 (2 ^ 32),
    .kilmetRetrain 8, .kilmetRetrainDone 8 true 0 0] Instr.wf) = false := by decide +kernel

theorem test_wf_refuses_packets : (List.any [Instr.bxtWrite 0 0 { tPkt with epoch := 65536 }, .bxtWrite 0 0 { tPkt with hops := 32 },
    .bxtWrite 0 0 { tPkt with dstConn := 2 ^ 20 }, .bxtWrite 0 0 { tPkt with cls := 8 }, .bxtWrite 0 0 { tPkt with ext := .write (2 ^ 64) 0 },
    .bxtWrite (2 ^ 64) 0 tPkt, .bxtWrite 0 (2 ^ 32) tPkt, .bxtSend (2 ^ 32) 0 tPkt, .bxtSend 0 (2 ^ 32) tPkt, .readReq 0 0 (2 ^ 32) tPkt,
    .readResp (2 ^ 32) tPkt, .bxtAtomic 0 0 256 0 0 tPkt, .atomicResp (2 ^ 64) tPkt, .ack 0 0 (2 ^ 64) 0 0 tPkt, .ack 0 0 0 65536 0 tPkt,
    .nak 256 0 0 0 0 0 tPkt, .nak 0 0 (2 ^ 24) 0 0 0 tPkt, .nak 0 0 0 0 0 (2 ^ 20) tPkt, .grant 0 0 [0] tPkt, .grant 0 65536 [0, 0, 0, 0, 0, 0] tPkt,
    .grant 0 0 [2 ^ 32, 0, 0, 0, 0, 0] tPkt, .probe (2 ^ 20) 0 0 tPkt, .probeAck 0 256 0 tPkt, .keepalive 256 0 tPkt, .close 0 65536 tPkt,
    .closeAck 256 0 tPkt, .refusalSeen 0 0 (2 ^ 32) tPkt, .chunk [] tPkt, .bxtWrite 0 0 { tPkt with ext := .reserved 16 },
    .bxtWrite 0 0 { tPkt with ext := .chunk [] }, .bxtWrite 0 0 { tPkt with ext := .coord 256 0 0 0 0 0 },
    .rocePacket ⟨0, 2 ^ 24, 0, 0, false, .cnp, [], true, false⟩, .rocePacket ⟨0, 0, 0, 0, false, .ack 256 0, [], true, false⟩] Instr.wf) = false := by decide +kernel

theorem test_wf_refuses_coord : (List.any (List.map (fun f : Nat → Nat → Nat → Nat → Nat → Packet → Instr => f 65536 0 0 0 0 tPkt)
      [.start, .go, .done, .reduced, .reduceCommit, .published, .commit, .void, .voidAck, .rerun, .abandon, .reconcile, .folded, .loss, .coordKeepalive]
    ++ [.start 0 (2 ^ 32) 0 0 0 tPkt, .go 0 0 65536 0 0 tPkt, .done 0 0 0 65536 0 tPkt]) Instr.wf) = false := by decide +kernel

theorem test_wf_refuses_commons : (List.any [Instr.chunkBind 0 65536 0 0, .chunkBind 0 0 65536 0, .tallySpareMap 64 0, .millSpareMap 0 32, .cphSpareMap 32 0,
    .spareMapDone 20, .activateComplete 4096, .activateTimeout 4096, .chunkConnTimeout (2 ^ 20), .coordKeepaliveTimer (2 ^ 20), .straggleExpiry 4096 0,
    .reformWaitExpiry 4096, .millBlockDone 18, .normSync 0 (2 ^ 17) 0, .normSync 0 0 65536, .normSyncResult 0 0 0 (2 ^ 64) 0 0 0] Instr.wf) = false := by
  decide +kernel

theorem test_wf_refuses_conn_timers : (List.any [Instr.retransmitTimeout (2 ^ 20) 0, .retransmitTimeout 0 (2 ^ 32), .probeResend (2 ^ 20), .armTimeout (2 ^ 20),
    .closeTimeout (2 ^ 20), .keepaliveTimer (2 ^ 20), .ackCoalesceTimer (2 ^ 20), .contextFetchDone (2 ^ 20), .contextFetchTimeout (2 ^ 20),
    .nakDelayExpiry 0 (2 ^ 32), .readTimeout (2 ^ 20) 0, .grantExpiry 0 8] Instr.wf) = false := by decide +kernel

theorem test_wf_refuses_rings : (List.any [Instr.sqDoorbell 16 0 0 0, .sqDoorbell 0 1024 0 0, .sqDoorbell 0 0 4096 0, .sqDoorbell 0 0 0 (2 ^ 32),
    .cqDoorbell 0 0 0 (2 ^ 32), .arm 0 0 4096, .push 0 0 0 [], .ctlSqDoorbell (2 ^ 32), .ctlCqDoorbell (2 ^ 32), .ringCreate 16 0, .ringStop 0 1024,
    .ringDestroy 16 0] Instr.wf) = false := by decide +kernel

theorem test_wf_refuses_entries : (List.any (List.map (fun f : Nat → Nat → Instr => f 0 (2 ^ 32)) [.nop, .write, .read, .send, .atomic, .recv, .copy, .coll, .step,
    .millBind, .connCreate, .connModify, .connClose, .asCreate, .asDestroy, .invalidate, .resolve, .fqBind, .queueAck, .instCreate, .instModify,
    .instQuiesce, .instResume, .instReset, .instRemove, .instToken, .ptnQuiesce, .ptnResume, .ptnReset, .ckpSave, .ckpRestore]) Instr.wf) = false := by
  decide +kernel

/-- A frame whose every field fits. -/
def tFrame : Frame :=
  { len := 64, fcsOk := true, fecCorr := 0, fecBad := 0, dstMac := 0, srcMac := 0, tag := none, shim := none, ethType := 0x0800, dscp := 0,
    ecn := 0, proto := 0, srcIp := 0, dstIp := 0, sport := 0, dport := 0, body := .other [] }

theorem test_wf_refuses_ports : (List.any [Instr.frameReceive 64 tFrame, .frameReceive 0 { tFrame with len := 65536 }, .frameReceive 0 { tFrame with ecn := 4 },
    .frameReceive 0 { tFrame with tag := some 65536 }, .frameReceive 0 { tFrame with shim := some ⟨0, 16, false, 0, 0, 0, 0⟩ },
    .frameReceive 0 { tFrame with body := .pfc 0 [0] }, .frameReceive 0 { tFrame with body := .lldp ⟨2 ^ 48, 0, 0, none⟩ }, .laneFault 8 0, .laneFault 0 8,
    .loopbackTestDone 8 0 true, .portAdminWrite 64 0, .portAdminWrite 0 2, .trainingDone 64 true, .trainingRetryTimer 64, .alignmentLoss 64,
    .downRetrainTimer 64, .pfcFrame 64 0 [], .pfcFrame 0 0 [0], .pfcQuantaExpiry 0 8, .pfcRefreshTimer 0 8 0, .pfcWatchdog 64 0, .lldpTimer 64,
    .lldpdu 64 ⟨0, 0, 0, none⟩, .lldpdu 0 ⟨0, 0, 65536, none⟩, .lldpTtlExpiry 64, .hopStart 64, .hopStartAck 64, .hopDataFrame 64 ⟨0, 0, false, 0, 0, 0, 0⟩ tFrame,
    .hopDataFrame 0 ⟨0, 0, false, 0, 4096, 0, 0⟩ tFrame, .hopAck 0 4096, .hopNak 0 4096, .hopAckTimeout 64, .hopAckTimer 64, .weatherUpdate 8 [],
    .weatherLevelExpiry (2 ^ 20), .frameTransmit 64] Instr.wf) = false := by decide +kernel

theorem test_wf_refuses_hosts : (List.any [Instr.hostLinkUp 16 7 16, .hostLinkUp 0 8 16, .hostLinkUp 0 4 16, .hostLinkUp 0 7 2, .hostLinkChange 0 7 ⟨3, []⟩, .hostLinkChange 0 7 ⟨16, [17]⟩, .hostLinkLoss 16,
    .pfFlr 16, .vfFlr 0 1024, .apertureRead 16 0 0 4, .apertureWrite 0 1024 0 [], .downstreamRequest 0 65536 0 0 .read, .downstreamRequest 0 0 (2 ^ 64) 0 .read,
    .msixUnmask 0 0 65536, .attach 16 0, .detach 0 1024, .resume 16 0, .discard 16 0, .attachLockExpiry 1024, .hptTokenRead 16 0] Instr.wf) = false := by
  decide +kernel

theorem test_wf_refuses_memory : (List.any [Instr.blockResend 0 8 0 ⟨.op 0, 0⟩ true, .blockResend 0 0 34 ⟨.op 0, 0⟩ true, .blockResend 0 0 0 ⟨.op 0, 256⟩ true, .hbmRecalTimer 128 [], .ddrRecalTimer 8 [], .scrubPass 3 [] [] [],
    .hbmLaneRepair 128 true, .lrdRetire 256, .bankRetireCopy 256, .lrdSpareMap 0 8, .granuleZeroed 2 0, .granuleZeroed 0 4096, .ddrChannelFail 8,
    .invalidateDrainDone 65536, .faultBatchTimer 64] Instr.wf) = false := by decide +kernel

theorem test_wf_refuses_system : (List.any [Instr.drainEnd 1024, .drainTimeout 1024, .instResetDone 1024, .ptnResetDone 64 true, .lcScrap 256 true, .revoke 8 true,
    .tamperCfgWrite 16 0, .tamperCfgWrite 0 16, .tamperAssert 4 true, .targetReconnectTimer 64, .nvmePduReceive 64 ⟨0, true, .icReq⟩,
    .nvmePduReceive 0 ⟨65536, true, .icReq⟩, .ckpCmdTimeout 64 none, .domainIdleStep 96, .kindle 96, .domainLit 96, .privWake 0, .privRelease 65,
    .domainFloorWrite 96 0 true 0, .domainFloorWrite 0 8 true 0, .domainFloorWrite 0 0 true (2 ^ 20), .deviceWake 4 true, .powerSample 0 256 [],
    .powerSample 0 0 [256], .watchdogExpiry 8 0 [], .watchdogExpiry 3 1 [], .suspectWindowExpiry 7 1, .suspectCleared 4 4, .engineReset 8 0,
    .engineResetDone 2 18 true, .stewardHeartbeatMiss 36, .dumpUnitTimeout 16 0, .injUnlock true 256, .challengeReq 8, .proof 8 [], .resultAcknowledged 8,
    .regRead 8 0 0 0, .regRead 0 (2 ^ 32) 0 0, .regWrite 0 0 (2 ^ 32) [], .relinquish 8, .challengeExpiry 9, .pathLockExpiry 9,
    .query ⟨true, 1519, 0, 0, 0, 0, 0, []⟩, .pcAck ⟨true, 64, 2 ^ 48, 0, 0, 0, 0, []⟩] Instr.wf) = false := by decide +kernel

/-! ### The queue, the parts of the device, and power -/

theorem witness_parts : State.reset.has .loadFull = true ∧ State.reset.has (.kilmetRetrain 7) = true ∧ State.reset.has (.kilmetRetrain 8) = false := by
  decide +kernel

theorem test_missing_unit_faults : execKilmetRetrain 8 State.reset = .fault .noSuchUnit := by rfl

/-- A device held in reset, to which a command waits. -/
def tHeld : State := { State.reset with power := .resetHeld, pending := [.loadFull] }

theorem witness_inert : tHeld.power = .resetHeld ∧ tHeld.pending ≠ [] ∧ (∀ c ∈ tHeld.pending, c.wf = true) ∧
    (∀ c ∈ tHeld.pending, c ≠ .powerOn ∧ c ≠ .resetNAssert ∧ (c ≠ .railDeparture true ∧ c ≠ .railDeparture false) ∧ c ≠ .railRestore) := by decide +kernel

theorem test_inert : (match step tHeld with
    | .next t => decide (t = { tHeld with pending := [] })
    | _ => false) = true := by decide +kernel

/-! ### Registers (R1, R9, R448, R512, R516) -/

/-- The manager's session by management connection 0; the same by path 2, link 0 up. -/
def State.managed (s : State) : State := { s with mgt := { s.mgt with session := some ⟨some 0, 0, 0, 0, []⟩ } }
def State.managedBy2 (s : State) : State := { s.wr F.HPT_LINK_state 2 0 with mgt := { s.mgt with session := some ⟨none, 0, 0, 0, []⟩ } }
def tSession : State := State.reset.managed
def tSession2 : State := State.reset.managedBy2

theorem witness_registers : tSession.power = .run ∧ tSession.managesBy .conn false = true ∧ tSession.touchSession.reaches 0x8 8 = true ∧
    alignedWrite 0x8 8 = true ∧ alignedWrite 0x9 4 = false ∧ tSession.linkExists 0 = true ∧
    tSession2.power = .run ∧ tSession2.linkUp 0 = true ∧ tSession2.pf0Holds = true ∧ tSession2.pf0Answers 0x8 = true ∧
    tSession2.rd F.MGT_BOOT_mode ≠ 2 ∧ tSession2.touchSession.reaches 0x8 8 = true ∧
    tSession.mgt.session = some ⟨some 0, 0, 0, 0, []⟩ ∧ State.reset.manages true = false := by decide +kernel

theorem witness_registers_gate_die : tSession.rd F.PWR_DOM_state 17 = 0 ∧ tSession.klnFree.isSome = true ∧ tSession.inj = none ∧
    tSession.touchSession.reaches 0x2000004 4 = true := by decide +kernel

/-- The counters of HBM stack 0 stand on the compute die. -/
theorem witness_counter_half : ((locate 0x4100100).map fun q => (q.1.isCounter, q.2)) = some (true, 0, 0) ∧ 0x4100100 % 8 = 0 ∧ 0x4100100 < winBase ∧
    onGateDie 0x4100100 4 = false ∧ tSession.winRead 0x4100100 4 = none ∧ tSession2.pf0Answers 0x4100100 = true := by decide +kernel

theorem witness_commands_of_no_manager : ∀ c ∈ ([.loadFull, .install, .telSnapshot, .meterApply, .engineReset 7 0, .ctlSqDoorbell 0, .revoke 7 true, .load .pf0 0] : List Instr),
    State.reset.has c = true := by decide +kernel

theorem test_register_write : (match execRegisterWrite .conn 0 0x8 [1, 2, 3, 4, 5, 6, 7, 8] tSession with
    | .next t => t.rd F.GLB_SCRATCH_value
    | _ => 0) = 0x0807060504030201 := by decide +kernel

/-! ### The Kilmet link (R20-R27) -/

/-- A function of a value that is evaluated first. -/
def forced {α : Type} (f : Nat → α) : Nat → α
  | 0 => f 0
  | n + 1 => f (n + 1)

theorem forced_eq {α : Type} (f : Nat → α) (n : Nat) : forced f n = f n := by cases n <;> rfl

/-- A CRC register run that evaluates byte by byte. -/
def crcSteps (p : Nat) : List Byte → Nat → Nat
  | [] => fun c => c
  | b :: l => fun c => forced (crcSteps p l) (crcByte p c b)

theorem crcSteps_eq (p : Nat) (l : List Byte) : ∀ c, crcRun p c l = crcSteps p l c := by
  induction l with
  | nil => exact fun c => rfl
  | cons b l ih => exact fun c => (ih _).trans (forced_eq (crcSteps p l) (crcByte p c b)).symm

/-- The CRC-64 of a list, so computed. -/
def crc64Steps (l : List Byte) : Nat := crcSteps 0xC96C5795D7870F42 l 0xFFFFFFFFFFFFFFFF ^^^ 0xFFFFFFFFFFFFFFFF

theorem crc64Steps_eq (l : List Byte) : crc64 l = crc64Steps l := congrArg (· ^^^ 0xFFFFFFFFFFFFFFFF) (crcSteps_eq _ _ _)

/-- A flit of nothing but a header, with its CRC-64. -/
def tFlitOf (hd : List Byte) : List Byte := let h := hd ++ List.replicate 264 (0 : Byte); h ++ leBytes 8 (crc64Steps h)

/-- Headers (R21): byte 15 holds kind and channel, byte 8 the lowest bits of `sub`, bytes 0 to 3 the count in `aux`. A request, a data flit of no
bytes, a completion, a credit flit that grants channel 0 a count of 600, the control flit FENCE of partition 0. -/
def tRequest : List Byte := tFlitOf (List.replicate 16 0)
def tData : List Byte := tFlitOf (List.replicate 15 0 ++ [0x20])
def tCompletion : List Byte := tFlitOf (List.replicate 15 0 ++ [0x40])
def tCredit : List Byte := tFlitOf ([0x58, 0x02] ++ List.replicate 13 0 ++ [0x60])
def tFence : List Byte := tFlitOf (List.replicate 8 0 ++ [3] ++ List.replicate 6 0 ++ [0x80])

theorem tFlits_good : ∀ f ∈ [tRequest, tData, tCompletion, tCredit, tFence], flitGood f = true := by
  have h : ∀ f ∈ [tRequest, tData, tCompletion, tCredit, tFence], (f.length == 288 && fieldLE f 280 8 == crc64Steps (f.take 280)) = true := by decide +kernel
  intro f hf
  rw [flitGood, crc64Steps_eq]
  exact h f hf

theorem tFlit_broken : flitGood (tRequest.set 20 1) = false := by
  have h : ((tRequest.set 20 1).length == 288 && fieldLE (tRequest.set 20 1) 280 8 == crc64Steps ((tRequest.set 20 1).take 280)) = false := by decide +kernel
  rw [flitGood, crc64Steps_eq]
  exact h

/-- A module with one flit not yet acknowledged. -/
def tKln : State := State.reset.setKln 7 1 { State.reset.klnDir 7 1 with txSeq := 1, unacked := [(0, tRequest)] }

theorem witness_flit : State.reset.klnRuns 7 = true ∧ State.reset.inj = none ∧ (State.reset.klnDir 7 1).replay = none ∧
    (State.reset.klnDir 7 1).unacked.length < 512 ∧ (State.reset.klnDir 7 1).toAck < 63 ∧ State.reset.kln.owed = [] ∧ State.reset.kln.held = [] := by decide +kernel

theorem witness_flits : ∀ f ∈ [tRequest, tData, tCompletion, tCredit, tFence], flitSeq f = (State.reset.klnDir 7 1).txSeq ∧
    flitSeq f = (State.reset.klnDir 7 1).rxSeq ∧ flitKnown f true = true ∧ flitAckValid f = false := by decide +kernel

theorem witness_flit_kinds : (∀ f ∈ [tRequest, tData, tCompletion], State.reset.klnCredit 1 (flitChan f) ≠ 0 ∧ State.reset.klnFenced 1 f = false) ∧
    flitKind tRequest = 0 ∧ flitKind tData = 1 ∧ flitBlockGood tData = true ∧ flitKind tCompletion = 2 ∧
    State.reset.klnDataOut 1 (flitTag tCompletion) = false ∧ flitKind tCredit = 3 ∧ bitsOf (flitAux tCredit) 32 3 = 0 ∧
    serialOlder 32 (Tbl.getD State.reset.kln.granted 0 0) (bitsOf (flitAux tCredit) 0 32) = true ∧ flitKind tFence = 4 ∧ flitSub tFence = ctlFence := by
  decide +kernel

theorem witness_kilmet : tKln.power = .run ∧ tKln.klnRuns 7 = true ∧ ((tKln.klnDir 7 1).unacked.filter fun q => !serialOlder 12 q.1 0) = [(0, tRequest)] ∧
    (tKln.klnDir 7 1).unacked = [(0, tRequest)] ∧ serialOlder 32 (Tbl.getD tKln.kln.granted (1 * 8 + 6) 0) 600 = true ∧
    (tKln.wr F.KLN_MOD_state 2 7).klnRuns 7 = false := by decide +kernel

theorem witness_kilmet_retrained : (State.reset.wr F.KLN_MOD_state 1 7).rd F.KLN_MOD_state 7 = 1 ∧
    (State.reset.wr F.KLN_MOD_state 1 7).rd F.KLN_MOD_rep_g2h 7 + 4 ≤ 4 ∧ (State.reset.wr F.KLN_MOD_state 1 7).rd F.KLN_MOD_rep_h2g 7 + 0 ≤ 4 ∧
    ((State.reset.wr F.KLN_MOD_state 1 7).klnDir 7 0).unacked = [] ∧ ((State.reset.wr F.KLN_MOD_state 1 7).klnDir 7 1).unacked = [] := by decide +kernel

theorem test_kilmet_credit : (match execKilmetCredit 1 6 600 State.reset with
    | .next t => Tbl.getD t.kln.granted 14 0
    | _ => 0) = 600 := by decide +kernel

/-- Where checks are known to fail for a reason, that is how they end. -/
theorem failed {α : Type} {x : Except Nat α} {r : Nat} (h : (match x with
    | .error e => some e
    | .ok _ => none) = some r) : x = .error r := by
  cases x <;> simp_all

/-- The value of a computation that may fail. -/
def okOf {ε α : Type} : Except ε α → Option α
  | .ok a => some a
  | .error _ => none

theorem okOf_eq {ε α : Type} {x : Except ε α} {a : α} (h : okOf x = some a) : x = .ok a := by
  cases x with
  | error e => cases h
  | ok b => exact congrArg Except.ok (Option.some.inj h)

theorem answeredOk {ε α β : Type} {p : Except ε α × β} {a : α} (h : okOf p.1 = some a) : p = (.ok a, p.2) := answered (okOf_eq h)

/-! ### The layout image (R34-R57) -/

/-- A layout image that runs: nothing enabled, rollback level 255. -/
def tLayout : Layout :=
  { header := [], serial := 1, rollback := 255, parts := [], pools := [], ports := [], hosts := [], stages := [], routes := [], recipes := [], curfew := [],
    capW := 700, domains := [], access := ⟨0, [], []⟩, overrides := [] }

/-- A slice for partition 63, as R34 and R39 lay it out: header, one directory entry, the pool-share record. -/
def tSliceBytes : List (Nat × Byte) :=
  [(0, 0x4C), (1, 0x41), (2, 0x59), (3, 0x49), (4, 1), (6, 0x80), (7, 0x90), (8, 0x0A), (10, 1), (11, 63), (13, 0x20), (16, 1), (20, 1), (24, 1),
   (64, 2), (66, 63), (69, 0x10), (72, 64), (4118, 1), (4119, 1), (4126, 1), (4128, 1), (4132, 4)]

/-- An image in which partition 63 may be loaded by slices. -/
def tSliced : Layout := { tLayout with parts := List.replicate 63 ⟨false, 0, 0, 0, 0, false⟩ ++ [⟨true, 1, 0, 1, 0, true⟩] }

/-- That slice staged, its partition quiesced. -/
def tStaged : State :=
  State.wr (State.managed { State.reset with lay := { State.reset.lay with staging := tSliceBytes, running := some tSliced } }) F.PTN_PART_state ptnQuiesced 63

theorem witness_layout_start : State.reset.managed.manages false = true ∧ State.reset.rd F.MGT_FW_STATUS_busy = 0 ∧ State.reset.rd F.LAY_STATUS_busy = 0 ∧
    (∀ p < 64, State.reset.enabled p = true → State.reset.rd F.PTN_PART_state p = ptnQuiesced) ∧ State.reset.lay.fromSlot ≠ some 0 ∧
    State.reset.lay.fromSlot ≠ some 1 := by decide +kernel

/-- The bytes that a sorted table lists from an offset on, read one after another: what a buffer of that many bytes holds. -/
def tBytes : Nat → Nat → Tbl Byte → List Byte
  | 0, _, _ => []
  | n + 1, o, [] => 0 :: tBytes n (o + 1) []
  | n + 1, o, q :: t => if q.1 = o then q.2 :: tBytes n (o + 1) t else 0 :: tBytes n (o + 1) (q :: t)

theorem Tbl.getD_of_absent {t : Tbl Byte} {o : Nat} (h : ∀ q ∈ t, q.1 ≠ o) : Tbl.getD t o 0 = 0 := by
  induction t with
  | nil => rfl
  | cons q t ih =>
    rw [Tbl.getD, Tbl.get?, if_neg (h q List.mem_cons_self)]
    exact ih fun p hp => h p (List.mem_cons_of_mem q hp)

theorem tBytes_eq (n : Nat) : ∀ (o : Nat) (t : Tbl Byte), (∀ q ∈ t, o ≤ q.1) → t.Pairwise (fun a b => a.1 < b.1) →
    (List.range' o n).map (fun k => Tbl.getD t k 0) = tBytes n o t := by
  induction n with
  | zero => exact fun _ _ _ _ => rfl
  | succ n ih =>
    intro o t ho hp
    rw [List.range'_succ, List.map_cons]
    match t with
    | [] => exact congrArg (0 :: ·) (ih (o + 1) [] (by simp) hp)
    | q :: t =>
      have hq := List.pairwise_cons.mp hp
      by_cases h : q.1 = o
      · rw [tBytes, if_pos h]
        congr 1
        · rw [Tbl.getD, Tbl.get?, if_pos h]; rfl
        · rw [← ih (o + 1) t (fun p hp => by have := hq.1 p hp; omega) hq.2]
          refine List.map_congr_left fun k hk => ?_
          have : q.1 ≠ k := by have := List.mem_range'_1.mp hk; omega
          rw [Tbl.getD, Tbl.get?, if_neg this, Tbl.getD]
      · rw [tBytes, if_neg h]
        congr 1
        · refine Tbl.getD_of_absent fun p hp => ?_
          rcases List.mem_cons.mp hp with rfl | hp
          · exact h
          · have := hq.1 p hp; have := ho q List.mem_cons_self; omega
        · refine ih (o + 1) (q :: t) (fun p hp => ?_) hp
          have := ho q List.mem_cons_self
          rcases List.mem_cons.mp hp with rfl | hp
          · omega
          · have := hq.1 p hp; omega

theorem stagedBytes_eq {s : State} (n : Nat) (h : s.lay.staging.Pairwise fun a b => a.1 < b.1) : s.stagedBytes n = tBytes n 0 s.lay.staging := by
  rw [State.stagedBytes, List.range_eq_range', tBytes_eq n 0 _ (fun _ _ => Nat.zero_le _) h]

theorem stagedImage_eq {s : State} {n : Nat} (hp : s.lay.staging.Pairwise fun a b => a.1 < b.1)
    (h : max 4096 (min 67108864 (fieldLE (tBytes 16 0 s.lay.staging) 12 4)) = n) : s.stagedImage = tBytes n 0 s.lay.staging := by
  rw [State.stagedImage, stagedBytes_eq 16 hp, h, stagedBytes_eq n hp]

theorem tStaged_image : tStaged.stagedImage = tBytes 8192 0 tSliceBytes :=
  stagedImage_eq (show tSliceBytes.Pairwise _ by decide +kernel) (show max 4096 (min 67108864 (fieldLE (tBytes 16 0 tSliceBytes) 12 4)) = 8192 by decide +kernel)

/-- The header of that slice. -/
def tSliceHdr : LayHdr := ⟨0, true, 63, 8192, 1, 1, 0, [⟨2, 63, 4096, 64, List.replicate 32 0, true⟩]⟩

theorem tSlice_hdr : checkHdr (tBytes 8192 0 tSliceBytes) 67108864 (some 1) = .ok tSliceHdr := okOf_eq (by decide +kernel)

theorem stagedSlice_of {s : State} {img : List Byte} {h : LayHdr} (hb : s.stagedImage = img)
    (hc : checkHdr img 67108864 (s.lay.running.map (·.serial)) = .ok h) : s.stagedSlice = if h.isSlice then some h.slicePart else none := by
  rw [State.stagedSlice, hb, hc]

theorem witness_layout_slice : tStaged.power = .run ∧ tStaged.manages false = true ∧ tStaged.rd F.MGT_FW_STATUS_busy = 0 ∧
    tStaged.rd F.LAY_STATUS_busy = 0 ∧ tStaged.stagedSlice = some 63 ∧ tStaged.rd F.PTN_PART_state 63 = ptnQuiesced := by
  refine ⟨by decide +kernel, by decide +kernel, by decide +kernel, by decide +kernel, ?_, by decide +kernel⟩
  exact stagedSlice_of tStaged_image tSlice_hdr

/-- An image of rollback level 255 runs, above the floor 254. -/
def tRunning : State := State.wr (State.managed { State.reset with lay := { State.reset.lay with running := some tLayout } }) F.LAY_SOURCE_floor 254

theorem witness_layout_floor : tRunning.manages false = true ∧ tRunning.rd F.MGT_FW_STATUS_busy = 0 ∧ tRunning.rd F.LAY_STATUS_busy = 0 ∧
    tRunning.lay.running = some tLayout ∧ tLayout.rollback < 256 ∧ tRunning.rd F.LAY_SOURCE_floor ≠ 255 := by decide +kernel

theorem test_raise_floor : (match execRaiseFloor tRunning with
    | .next t => t.rd F.LAY_SOURCE_floor
    | _ => 0) = 255 := by decide +kernel

/-- A command runs on what stands in the staging buffer. -/
def State.layRuns (s : State) (op : Nat) : State := (s.wr F.LAY_STATUS_busy 1).wr F.LAY_STATUS_last_op op

/-- A full load of an unwritten staging buffer; a slice load of one. -/
def tLoading : State := State.reset.managed.layRuns layFull

theorem witness_layout_end : tLoading.power = .run ∧ tLoading.rd F.MGT_FW_STATUS_busy = 0 ∧ tLoading.rd F.LAY_STATUS_busy = 1 ∧
    tLoading.rd F.LAY_STATUS_last_op = layFull ∧ (∃ e, tLoading.checkFull tLoading.stagedImage 67108864 = .error e ∧ 0 < e ∧ e < 256) := by
  refine ⟨by decide +kernel, by decide +kernel, by decide +kernel, by decide +kernel, 1, ?_, by decide, by decide⟩
  exact failed (by decide +kernel)

theorem witness_layout_slice_end : (tLoading.layRuns laySlice).rd F.LAY_STATUS_last_op = laySlice ∧
    (∃ e, (tLoading.layRuns laySlice).checkSlice (tLoading.layRuns laySlice).stagedImage 67108864 = .error e ∧ e ≠ 14) :=
  ⟨by decide +kernel, 1, failed (by decide +kernel), by decide⟩

theorem witness_layout_abort : (tLoading.layRuns layProgA).manages false = true ∧ (tLoading.layRuns layProgA).rd F.LAY_STATUS_busy = 1 ∧
    (tLoading.layRuns layProgA).rd F.LAY_STATUS_last_op = layProgA ∧ tLoading.lay.slicePart = none ∧
    (tLoading.layRuns (layProgA + 1)).rd F.LAY_STATUS_last_op = layProgA + 1 := by decide +kernel

/-- Bytes from an offset on. -/
def tAt (off : Nat) (l : List Byte) : List (Nat × Byte) := l.zipIdx.map fun q => (off + q.2, q.1)

/-- A full image, as R34 and R38 to R47 lay it out: eight sections, of which the routes and the overrides are empty. -/
def tFullBytes : List (Nat × Byte) :=
  [(0, 0x4C), (1, 0x41), (2, 0x59), (3, 0x49), (4, 1), (6, 0x80), (7, 0x90), (8, 0x0A), (13, 0x70), (16, 1), (24, 8), (26, 1)]
    ++ [(5, 1, 0), (10, 1, 0), (4, 1, 256), (9, 2, 36), (3, 3, 192), (7, 4, 64), (8, 5, 776), (1, 6, 1024)].zipIdx.flatMap (fun q =>
      tAt (64 + 48 * q.2) (leBytes 2 q.1.1 ++ [255, 0] ++ leBytes 4 (4096 * q.1.2.1) ++ leBytes 4 q.1.2.2))
    ++ (List.range 16).flatMap (fun n => [(4096 + 16 * n + 1, 1), (4096 + 16 * n + 8, 1)]) ++ [(8192, 1), (8193, 1)]
    ++ (List.range 8).flatMap (fun n => tAt (12288 + 16 * n) [0, 0x10, 0x32, 0x54, 0x76, 0x08])
    ++ (List.range 4).map (fun n => (12288 + 128 + 16 * n + 2, 5)) ++ [(20480, 0x2C), (20481, 1)]

/-- What is left of a check once signature and digests, which no rule computes here, are granted. -/
theorem checkImage_of {s : State} {img : List Byte} {room : Nat} {h : LayHdr} (h1 : okOf (checkHdr img room (s.lay.running.map (·.serial))) = some h)
    (h2 : okOf (checkDir img h) = some ()) (h3 : s.checkSig img h = .ok ()) (h4 : s.rd F.LAY_SOURCE_floor ≤ h.rollback)
    (h5 : checkDigests img h = .ok ()) (h6 : okOf (checkPresent img h) = some ()) : s.checkImage img room = .ok h := by
  simp [State.checkImage, okOf_eq h1, okOf_eq h2, h3, need, h4, h5, okOf_eq h6, bind, Except.bind, pure, Except.pure]

theorem checkSlice_of {s : State} {img : List Byte} {room : Nat} {h : LayHdr} {q : PoolShare} {rs : List Recipe} (hi : s.checkImage img room = .ok h)
    (h1 : h.isSlice = true) (h2 : okOf (parsePool (h.bytes img 2 h.slicePart)) = some q)
    (h3 : s.poolsFit (q :: ((List.range 64).filter fun k => s.enabled k && k != h.slicePart).map s.shares) = true)
    (h4 : okOf (parseRecipes (h.bytes img 6 h.slicePart)) = some rs) (h5 : ((s.partDef h.slicePart).any fun d => d.enabled && d.sliceReload) = true)
    (h6 : s.rd F.PTN_PART_state h.slicePart = ptnQuiesced) (h7 : s.held h.slicePart = (0, 0, 0, 0, 0, 0)) :
    s.checkSlice img room = .ok (h.slicePart, q, rs) := by
  simp [State.checkSlice, hi, h1, okOf_eq h2, h3, okOf_eq h4, h5, h6, h7, need, bind, Except.bind, pure, Except.pure]

theorem checkFull_of {s : State} {img : List Byte} {room : Nat} {h : LayHdr} (hi : s.checkImage img room = .ok h) (h1 : h.isSlice = false)
    (h2 : (okOf (s.parseFull img h)).isSome = true) : ∃ l, s.checkFull img room = .ok l := by
  obtain ⟨l, hl⟩ := Option.isSome_iff_exists.mp h2
  exact ⟨l, by simp [State.checkFull, hi, h1, okOf_eq hl, need, bind, Except.bind]⟩

theorem witness_layout_slice_good (hs : (tStaged.layRuns laySlice).checkSig (tBytes 8192 0 tSliceBytes) tSliceHdr = .ok ())
    (hd : checkDigests (tBytes 8192 0 tSliceBytes) tSliceHdr = .ok ()) : (tStaged.layRuns laySlice).rd F.LAY_STATUS_last_op = laySlice ∧
      ∃ q, (tStaged.layRuns laySlice).checkSlice (tStaged.layRuns laySlice).stagedImage 67108864 = .ok q := by
  have hb : (tStaged.layRuns laySlice).stagedImage = tBytes 8192 0 tSliceBytes := tStaged_image
  have hi := checkImage_of (s := tStaged.layRuns laySlice) (room := 67108864) (congrArg okOf tSlice_hdr) (by decide +kernel) hs (by decide +kernel) hd
    (by decide +kernel)
  rw [hb]
  refine ⟨by decide +kernel, _, checkSlice_of hi rfl (q := ⟨0, 0, 0, 0, 0, 0, 0, 0, 1, 1, [0, 0, 0, 0, 0, 0], 1, 1, 4⟩) (rs := []) ?_ ?_ ?_ ?_ ?_ ?_⟩ <;>
    decide +kernel

/-- That image staged; it is loaded whole, or programmed into slot B. -/
def tFull (op : Nat) : State := State.layRuns (State.managed { State.reset with lay := { State.reset.lay with staging := tFullBytes } }) op

/-- The header of that image. -/
def tFullHdr : LayHdr :=
  ⟨0, false, 0, 28672, 1, 0, 1, [(5, 1, 0), (10, 1, 0), (4, 1, 256), (9, 2, 36), (3, 3, 192), (7, 4, 64), (8, 5, 776), (1, 6, 1024)].map fun q =>
    ⟨q.1, 255, 4096 * q.2.1, q.2.2, List.replicate 32 0, true⟩⟩

theorem tFull_image (op : Nat) : (tFull op).stagedImage = tBytes 28672 0 tFullBytes :=
  stagedImage_eq (show tFullBytes.Pairwise _ by decide +kernel) (show max 4096 (min 67108864 (fieldLE (tBytes 16 0 tFullBytes) 12 4)) = 28672 by decide +kernel)

theorem tFull_contents : (okOf (State.reset.parseFull (tBytes 28672 0 tFullBytes) tFullHdr)).isSome = true := by decide +kernel

theorem tFull_parses (op : Nat) (img : List Byte) (h : LayHdr) : (tFull op).parseFull img h = State.reset.parseFull img h := by
  have h1 : (tFull op).parseNet = State.reset.parseNet := rfl
  have h2 : (tFull op).parseOverrides = State.reset.parseOverrides := rfl
  have h3 : (tFull op).poolsFit = State.reset.poolsFit := rfl
  simp only [State.parseFull, h1, h2, h3]

theorem witness_layout_full_good (hs : ∀ op, (tFull op).checkSig (tBytes 28672 0 tFullBytes) tFullHdr = .ok ())
    (hd : checkDigests (tBytes 28672 0 tFullBytes) tFullHdr = .ok ()) : ∀ op ∈ [layFull, layProgA + 1], (tFull op).rd F.LAY_STATUS_last_op = op ∧
      ∃ l, (tFull op).checkFull (tFull op).stagedImage 67108864 = .ok l := by
  intro op hop
  have hf : ∀ op ∈ [layFull, layProgA + 1], (tFull op).rd F.LAY_STATUS_last_op = op ∧ (tFull op).rd F.LAY_SOURCE_floor ≤ tFullHdr.rollback := by decide +kernel
  have hi := checkImage_of (s := tFull op) (room := 67108864) (img := tBytes 28672 0 tFullBytes) (h := tFullHdr)
    (show okOf (checkHdr (tBytes 28672 0 tFullBytes) 67108864 none) = _ by decide +kernel) (by decide +kernel) (hs op) (hf op hop).2 hd (by decide +kernel)
  rw [tFull_image]
  exact ⟨(hf op hop).1, checkFull_of hi rfl (by rw [tFull_parses]; exact tFull_contents)⟩

/-! ### Spares (R109, R182, R403) -/

/-- Unit 31 of the tally, 15 of the mill and of the cipher complex have been retired. -/
def tRetired : State := ((State.reset.managed.wr F.TAL_UNIT_STATE_state 2 31).wr F.MIL_ENG_STATE_state 2 15).wr F.CPH_CORE_STATE_state 2 15

theorem witness_spares : tRetired.power = .run ∧ tRetired.manages false = true ∧ tRetired.rd F.TAL_SPARE_MAP_go = 0 ∧
    tRetired.rd F.TAL_UNIT_STATE_state 31 = 2 ∧ tRetired.rd F.TAL_UNIT_STATE_state 33 = 1 ∧ tRetired.rd F.MIL_SPARE_MAP_go = 0 ∧
    tRetired.rd F.MIL_ENG_STATE_state 15 = 2 ∧ tRetired.rd F.MIL_ENG_STATE_state 17 = 1 ∧ tRetired.rd F.CPH_SPARE_MAP_go = 0 ∧
    tRetired.rd F.CPH_CORE_STATE_state 15 = 2 ∧ tRetired.rd F.CPH_CORE_STATE_state 17 = 1 ∧ tRetired.rd F.TAL_UNIT_STATE_state 0 ≠ 2 ∧
    (∀ q ∈ [(5, 31, 33, F.TAL_UNIT_STATE_state), (6, 15, 17, F.MIL_ENG_STATE_state), (7, 15, 17, F.CPH_CORE_STATE_state)],
      tRetired.built.defects.contains (q.1, q.2.2.1) = false ∧ (tRetired.servedBy q.1 q.2.1).isSome = false ∧
        tRetired.unitsActive q.1 q.2.2.2 < activeFigure q.1) := by decide +kernel

/-- All three mappings run. -/
def tMapping : State := ((State.reset.wr F.TAL_SPARE_MAP_go 1).wr F.MIL_SPARE_MAP_go 1).wr F.CPH_SPARE_MAP_go 1

theorem witness_spare_mapping : tMapping.Calm ∧ tMapping.rd F.TAL_SPARE_MAP_go = 1 ∧ tMapping.rd F.MIL_SPARE_MAP_go = 1 ∧ tMapping.rd F.CPH_SPARE_MAP_go = 1 := by
  refine ⟨⟨rfl, rfl, ?_⟩, by decide +kernel, by decide +kernel, by decide +kernel⟩
  simp [tMapping, State.wr, State.setReg, State.reset]

theorem test_spare_map : (match execTallySpareMap 31 33 tRetired with
    | .next t => (t.rd F.TAL_SPARE_MAP_go, t.rd F.TAL_UNIT_STATE_state 33)
    | _ => (0, 0)) = (1, 3) := by decide +kernel

/-! ### Groups (R113, R118, R150) -/

/-- A group of one rank, or of two, whose rank 0 is this device's. -/
def tGroup (n : Nat) : Group :=
  { id := 5, gen := 7, vf := 0, enc := false, txSlot := 0, rxSlot := 0,
    members := [⟨1, 0, 0, 0, false⟩, ⟨2, 0, 0, 1, false⟩].take n, local_ := [0], state := .installed, fresh := true, reformed := false, activating := false,
    lastStep := 0, seq := 0, nseq := 1, due := [], early := [], gaths := [], bells := [], ended := [], lost := [], since := 0, record := none, unsent := [],
    copies := [], probeRef := [], recon := [], expect := [] }

/-- Device 1 with a prefix and slot 4,095 selected. -/
def tDev : State := ((State.reset.managed.wr F.HOP_DEV_dev_addr 1).wr F.CMN_FABRIC_PFX_lo_pfx 1).wr F.CMN_GRP_SEL_slot 4095

/-- The member table and the arguments of a group of one. -/
def tInstall : State :=
  State.wr (State.wr { tDev with cmn := { tDev.cmn with window := [(0, 1)] } } F.CMN_GRP_ARG1_size 1) F.CMN_GRP_ARG0_group_id 5

theorem witness_install : tInstall.power = .run ∧ tInstall.manages false = true ∧ tInstall.rd F.CMN_GRP_STATUS_busy = 0 ∧ tInstall.rd F.CMN_GRP_SEL_slot = 4095 ∧
    tInstall.group? 4095 = none ∧ (tInstall.cmn.groups.any fun q => q.1 != 4095 && q.2.id == tInstall.rd F.CMN_GRP_ARG0_group_id) = false ∧
    tInstall.rd F.CMN_GRP_ARG3_rank_b_valid = 0 ∧ tInstall.rd F.CMN_GRP_ARG3_enc = 0 := by decide +kernel

theorem witness_install_table :
    let raw := (List.range (tInstall.rd F.CMN_GRP_ARG1_size)).map fun i => Tbl.getD tInstall.cmn.window i 0
    let ms := raw.map memberOf
    0 < ms.length ∧ ms.length ≤ 65536 ∧ badTable ms raw = false ∧
      (ms[tInstall.rd F.CMN_GRP_ARG2_rank_a]?).map (fun m => (m.dev, m.vf)) = some (tInstall.devAddr, tInstall.rd F.CMN_GRP_ARG3_vf) ∧
      ((List.range ms.length).filter fun r => (ms.getD r ⟨0, 0, 0, 0, false⟩).dev == tInstall.devAddr).length = 1 := by decide +kernel

theorem test_install : (match execInstall tInstall with
    | .next t => (t.group? 4095).map fun g => (g.id, g.state)
    | _ => none) = some (5, .installed) := by decide +kernel

/-- That group installed; the other one with its ACTIVATE running and no connection. -/
def tInstalled : State := tDev.setGroup 4095 (tGroup 1)
def tActivating (n : Nat) : State := tDev.setGroup 4095 { tGroup n with activating := true }

theorem witness_activate : tInstalled.power = .run ∧ tInstalled.manages false = true ∧ tInstalled.rd F.CMN_GRP_STATUS_busy = 0 ∧ tInstalled.rd F.CMN_GRP_SEL_slot = 4095 ∧
    tInstalled.group? 4095 = some (tGroup 1) ∧ (tGroup 1).fresh = true ∧ tInstalled.hasPrefix = true ∧ tInstalled.opsOpen 4095 = 0 ∧
    (∃ u, (tInstalled.touchSession.closeCmn 4095 (some (tGroup 1).gen)).openParents 4095 (tGroup 1)
      ((tInstalled.touchSession.closeCmn 4095 (some (tGroup 1).gen)).parentEdges (tGroup 1)) = some u) := by
  refine ⟨?_, ?_, ?_, ?_, ?_, ?_, ?_, ?_, tInstalled.touchSession.closeCmn 4095 (some (tGroup 1).gen), rfl⟩ <;> decide +kernel

theorem witness_activated : (tActivating 1).group? 4095 = some { tGroup 1 with activating := true } ∧
    (tActivating 1).coordOpen 4095 { tGroup 1 with activating := true } = true ∧ (tGroup 1).reformed = false ∧
    (tActivating 2).coordOpen 4095 { tGroup 2 with activating := true } = false := by decide +kernel

theorem witness_group_busy : (tInstalled.wr F.CMN_GRP_STATUS_busy 1).rd F.CMN_GRP_STATUS_busy = 1 := by decide +kernel

theorem test_activated : (match execActivateComplete 4095 (tActivating 1) with
    | .next t => (t.group? 4095).map (·.state)
    | _ => none) = some .active := by decide +kernel

/-! ### A device at work: partition 0 with instance 1, attached through link 0 -/

/-- Its image: partition 0 holds instances 0 to 15 and a granule of HBM4; every port is split in eight; host port 3 is a root port. -/
def tImage : Layout :=
  { tLayout with
    parts := [⟨true, 15, 0, 16, 100, true⟩]
    pools := [(0, ⟨64, 64, 8, 16, 1024, 1, 0, 64, 1, 1, [1000, 1000, 1000, 1000, 1000, 1000], 1, 100000, 64⟩)]
    ports := List.replicate 8 ⟨3, [0, 1, 2, 3, 4, 5, 6, 7], 0, 0⟩
    hosts := [⟨0, 2, 7, false, 0⟩, ⟨0, 2, 7, false, 0⟩, ⟨0, 2, 7, false, 0⟩, ⟨1, 2, 7, false, 0⟩]
    curfew := List.replicate 8 ⟨0, 0, true⟩
    access := ⟨3, [], [(0, 0)]⟩ }

/-- Writes a list of fields of copies. -/
def State.wrs (s : State) (l : List (Fld × Nat × Nat)) : State := l.foldl (fun s q => s.wr q.1 q.2.2 q.2.1) s

/-- The device, a manager's session open: tag 7 of instance 1 maps addresses below 1 GiB to granule 5; port 0 is UP and every packet leaves through it. -/
def tWorld : State :=
  State.wrs
    { State.reset.managed with
      lay := { State.reset.lay with running := some tImage }
      mem := [(5 * 2 ^ 30 + 0x1000, 0x01), (5 * 2 ^ 30 + 0x1001, 0x20), (5 * 2 ^ 30 + 0x2000, 0x1F)]
      tier := { State.reset.tier with granules := [(0, [5])] }
      xlt := { State.reset.xlt with roots := [(7, (0x1000, false))], nonces := [(7, 0x123)] }
      insts := [(1, { token := 9, held := [], refusals := [], locked := false, msixOn := true, msix := [(3, ⟨64, 77, true, 0⟩)], pba := [3], drains := [],
                      resetting := none, filled := 0, ptnToken := 8 })] }
    [(F.PTN_PART_state, 0, 1), (F.PTN_INST_state, 1, 1), (F.PTN_INST_class_mask, 1, 255), (F.PTN_INST_rings, 1, 8), (F.PTN_INST_ctx_backed, 1, 8),
     (F.HPT_INST_STATE_state, 1, attAttached), (F.HPT_LINK_state, 0, 2), (F.HPT_LINK_rate_mbs, 0, 100000), (F.XLT_TAG_state, 7, 1), (F.XLT_TAG_vf, 7, 1),
     (F.XLT_TAG_remote_ok, 7, 1), (F.HOP_DEV_dev_addr, 0, 1), (F.HOP_DEFAULT_mask, 0, 1), (F.PRT_LP_state, 0, lpUp), (F.CMN_FABRIC_PFX_lo_pfx, 0, 1)]

/-- Functions of links with a running image, root link 12 among them; without one. -/
theorem witness_function_ids : tWorld.lay.running.isSome = true ∧ State.reset.lay.running = none ∧ tWorld.isRoot 0 = false ∧ tWorld.linkExists 1 = true ∧
    tWorld.isRoot 1 = false ∧ tWorld.isRoot 12 = true := by decide +kernel

/-- A connection of a service to device 2, OPEN. -/
def tConn (svc : Nat) : Conn :=
  { State.reset.newConn 1 0 svc 4096 with state := .open_, peerDev := 2, peerConn := 9, peerIp := 2 ^ 20 + 2, slot := 4095, group := 5, peerRank := 1 }

/-- The device with an end of a connection, its context resident. -/
def State.withConn (s : State) (c : Nat) (k : Conn) : State :=
  { s with bxt := { s.bxt with conns := Tbl.set s.bxt.conns c k, resident := c :: s.bxt.resident } }

/-- A packet from device 2 on connection 100, with its trailer. -/
def tPacket (e : Ext) (len off : Nat) (data : List Byte) : Packet :=
  let p : Packet := { dstConn := 100, dstDev := 1, srcDev := 2, msgLen := len, msgOff := off, ext := e, payload := data }
  { p with trailer := p.crcTrailer }

/-- Whether the device takes a packet so. -/
def takesB (s : State) (p : Packet) (e : Ext) (c : Nat) (k : Conn) (q : Packet) : Bool :=
  decide (s.power = .run) && s.admitsPkt { p with ext := e } && !(s.conn? p.dstConn).any (·.roce)
    && decide ((s.judge { p with ext := e }).1 = .take c k q) && decide (q.ext = e)

theorem takes_of {s : State} {p : Packet} {e : Ext} {c : Nat} {k : Conn} {q : Packet} (h : takesB s p e c k q = true) :
    s.Takes p e c k q (s.judge { p with ext := e }).2 := by
  simp only [takesB, Bool.and_eq_true, Bool.not_eq_true', decide_eq_true_eq] at h
  exact ⟨h.1.1.1.1, h.1.1.1.2, h.1.1.2, answered h.1.2, h.2⟩

/-! ### COORD messages (R206) -/

/-- The group of two ranks, ACTIVE, with its coordination connection. -/
def tActive : Group := { tGroup 2 with state := .active, fresh := false }
def tCommons : State := State.withConn (tWorld.setGroup 4095 tActive) 100 (tConn 2)

/-- A message of each kind, with a number where it is a notice: its kind, its number, its body. -/
def tBodies : List (Nat × Nat × CBody) :=
  [(1, 0, .start ⟨1, 0, 0, 0, 0, 0, 0, 64, 0, 7, 0, []⟩), (2, 3, .go 1 []), (3, 0, .done 0 0 0), (4, 0, .reduced 0), (5, 3, .reduceCommit 0),
   (6, 0, .published 0 none []), (7, 3, .commit []), (8, 3, .void 0 0 0), (9, 0, .voidAck 0), (10, 3, .rerun 0), (11, 0, .abandon 0 0 0 0),
   (11, 3, .abandon 0 0 0 0), (12, 0, .reconUp 0 false), (12, 3, .reconDown 1), (13, 0, .folded 0 0 0 false), (14, 0, .keepalive), (15, 0, .loss 1), (15, 3, .loss 1)]

/-- Its packet. -/
def tCoord (x : Nat × Nat × CBody) : Packet := tPacket (.coord x.1 7 x.2.1 5 1 6) x.2.2.bytes.length 0 x.2.2.bytes

/-- Whether it reaches its group. -/
def coordB (s : State) (p : Packet) (kind gen nseq group rank key c : Nat) (k : Conn) (g : Group) (b : CBody) : Bool :=
  let v := (s.judge p).2
  takesB s p (.coord kind gen nseq group rank key) c k p && decide (2 ≤ k.svc) && decide ((v.takeMsgBytes c k p).1 = some p.payload)
    && coordLenOk kind p.payload.length && decide (cbody kind p.payload = some b) && decide ((v.takeMsgBytes c k p).2.group? k.slot = some g)
    && decide (g.id = group) && decide (g.gen = gen)

theorem coord_of {s : State} {p : Packet} {kind gen nseq group rank key c : Nat} {k : Conn} {g : Group} {b : CBody}
    (hp : p.ext = .coord kind gen nseq group rank key) (h : coordB s p kind gen nseq group rank key c k g b = true) :
    ∃ u, s.Coord p kind gen nseq group rank key k g b u := by
  simp only [coordB, Bool.and_eq_true, decide_eq_true_eq] at h
  obtain ⟨⟨⟨⟨⟨⟨⟨h1, h2⟩, h3⟩, h4⟩, h5⟩, h6⟩, h7⟩, h8⟩ := h
  have t := takes_of h1
  have e : ({ p with ext := .coord kind gen nseq group rank key } : Packet) = p := by rw [← hp]
  rw [e] at t
  exact ⟨_, c, p, _, _, t, h2, answered h3, h4, h5, h6, h7, h8⟩

theorem tCoord_reaches : ∀ x ∈ tBodies, coordB tCommons (tCoord x) x.1 7 x.2.1 5 1 6 100 (tConn 2) tActive x.2.2 = true := by decide +kernel

theorem witness_coord : ∀ x ∈ tBodies, ∃ u, tCommons.Coord (tCoord x) x.1 7 x.2.1 5 1 6 (tConn 2) tActive x.2.2 u := by
  intro x hx
  exact coord_of rfl (tCoord_reaches x hx)

/-! ### Operations of the commons and of the mill -/

/-- An entry of 64 bytes: its opcode, class, target and tag, and fields of its body by offset and length. -/
def putLE (d : List Byte) (off n v : Nat) : List Byte := d.take off ++ leBytes n v ++ d.drop (off + n)
def tEntry (op cls target tag : Nat) (body : List (Nat × Nat × Nat)) : List Byte :=
  body.foldl (fun d q => putLE d q.1 q.2.1 q.2.2)
    (putLE (putLE (putLE (List.replicate 64 0) 0 1 op) 2 1 cls) 4 4 (target + tag * 2 ^ 20))

/-- Ring 0 of instance 1; an entry of it. -/
abbrev tKey : Nat := 4096
def tFetched (d : List Byte) : Fetched := ⟨tKey, 0, d, []⟩

/-- A step of one bundle of one element on a group of one rank, its bundle committed; the copy's W lies at 0x100000. -/
def tStepDesc : List Byte := tEntry 0x11 2 5 7 [(32, 4, 6)]
def tCopy : StepCopy := ⟨0, [], [0], [], [0], [], [], [], 0, [], [], [], false⟩
def tMill (recipe : Nat) : MillDesc := ⟨recipe, 0, 0, 0, 1, 0x100000, 0x200000, 0x300000, 0x400000, 0x500000, 0x600000, 0x700000⟩
def tColl (recipe : Nat) : Coll :=
  { coll0 4095 6 0 true 0 12 with
    phase := .running, plan := [⟨1, [], [], []⟩], descs := [(0, [tMill recipe])], scalars := List.replicate 32 0, copies := [(0, tCopy)], committed := 1 }

/-- A block that an engine works on: it has nothing left to store. -/
def tBlk (op : Nat) : MillBlk := ⟨op, 0, 0, 0, false, [], [], [], 1, 0, 0, false, [], none⟩

/-- Operation 0 is that step; engine 4 works on its block, engine 5 on one of an operation that is gone. -/
def tStepState (recipe : Nat) : State :=
  let g : Group := { tGroup 1 with state := .active, fresh := false }
  let s := ((tWorld.setGroup 4095 g).newOp (tFetched tStepDesc) .free .running 0).2
  { s with cmn := { s.cmn with colls := [tColl recipe] }, mill := { s.mill with engines := [(4, tBlk 0), (5, tBlk 1)] } }

/-- An operation of which nothing is said, and its parts. -/
def tOp0 : Op :=
  { key := 0, count := 0, vf := 0, part := 0, opcode := 0, cls := 0, target := 0, tag := 0, desc := [], inl := [], phase := .done, admitted := 0,
    deadline := none, inFlight := false, cause := 0, cqe := eventCqe [], msgs := [], bytes := 0, failAt := none, vcs := [], length := 0, flags := 0,
    wrote := [], injected := false }
def tStepOp (recipe : Nat) : COp := ((tStepState recipe).cop? 0).getD ⟨coll0 0 0 0 false 0 0, tOp0, tGroup 1, cpOf []⟩

theorem witness_mill_gone : (tStepState 0).power = .run ∧ Tbl.get? (tStepState 0).mill.engines 5 = some (tBlk 1) ∧
    ((tStepState 0).freeEngine 5).cop? (tBlk 1).op = none := by decide +kernel

theorem witness_mill_block : Tbl.get? (tStepState 0).mill.engines 4 = some (tBlk 0) ∧
    ((tStepState 0).freeEngine 4).cop? (tBlk 0).op = some (tStepOp 0) := by decide +kernel

theorem witness_norm_sync : ((tStepState 7).cop? 0 = some (tStepOp 7) ∧ Tbl.get? (tStepOp 7).c.copies 0 = some tCopy ∧
    syncOf ((tStepState 7).recipeOf (tStepOp 7) 0 0) = some 1 ∧ (tStepOp 7).c.phase = .running) ∧
    (0 < (tStepOp 7).c.committed ∧ tCopy.pass1.contains 0 = false ∧ (tStepOp 7).p.bStart ≤ 0 ∧ 0 < (tStepOp 7).p.bundles) ∧
    (tStepOp 7).blocksIn 0 0 = 1 ∧ (∀ i < (tStepOp 7).blocksIn 0 0, tCopy.p1done.contains (blkKey 0 i) = true) ∧ (tStepOp 7).sums 0 = true := by
  decide +kernel

theorem witness_norm_result : (tStepState 7).coll? 0 = some (tColl 7) ∧ Tbl.get? (tColl 7).norms 65536 = none := by decide +kernel

theorem test_norm_result : (match execNormSyncResult 0 1 0 0x4010000000000000 0 0 0 (tStepState 7) with
    | .next t => (t.coll? 0).map fun c => Tbl.get? c.norms 65536
    | _ => none) = some (some [0x40800000, 0, 0, 0]) := by decide +kernel

/-! ### The timers of the commons -/

/-- A group at the bellwether with an operation not over; one that re-forms; an operation that was held there. -/
def tBell : Bell := ⟨true, 0, none, [], [], 0, [], 0, 0, false⟩
def tBells : State := tWorld.setGroup 4095 { tActive with bells := [(6, tBell)] }
def tReforming : State := tWorld.setGroup 4095 { tActive with state := .reforming, lost := [1] }
def tHeldColl : State := { tReforming with cmn := { tReforming.cmn with colls := [{ tColl 0 with phase := .held }] } }

theorem witness_commons_keepalive :
    let s : State := { tCommons with cmn := { tCommons.cmn with colls := [tColl 0] } }
    s.power = .run ∧ s.conn? 100 = some (tConn 2) ∧ (tConn 2).svc = 2 ∧ (tConn 2).state = .open_ ∧ s.opsOpen (tConn 2).slot ≠ 0 ∧
      s.group? (tConn 2).slot = some tActive := by decide +kernel

theorem witness_commons_straggle : tBells.opKey 4095 6 = 6 ∧ tBells.group? 4095 = some { tActive with bells := [(6, tBell)] } ∧ Tbl.get? [(6, tBell)] 6 = some tBell ∧
    tBell.isOver = false ∧ tActive.state ≠ .reforming := by decide +kernel

theorem witness_commons_reform_wait : tReforming.group? 4095 = some { tActive with state := .reforming, lost := [1] } ∧ tActive.fresh = false ∧
    (tReforming.cmn.colls.filter fun c => c.slot == 4095 && c.phase == .held) = [] ∧
    (tHeldColl.cmn.colls.filter fun c => c.slot == 4095 && c.phase == .held) = [{ tColl 0 with phase := .held }] ∧
    tHeldColl.group? 4095 = some { tActive with state := .reforming, lost := [1] } := by decide +kernel

theorem witness_chunk_timeout :
    let k : Conn := { tConn 3 with state := .armed }
    let s := (tWorld.setGroup 4095 tActive).withConn 100 k
    s.conn? 100 = some k ∧ k.svc = 3 ∧ k.state = .armed ∧ s.group? k.slot = some tActive := by decide +kernel

/-- That step with a chunk of bundle 0 that waits to be bound, where the operation has a number of slots. -/
def tNode (waiting : List (ChunkHdr × List Byte)) : Node := ⟨0, 0, 0, none, [], 0, [], 0, false, waiting, false⟩
def tBinding (slots : Nat) (waiting : List (ChunkHdr × List Byte)) : State :=
  let s := tStepState 0
  { s with cmn := { s.cmn with colls := [{ tColl 0 with nodes := [tNode waiting], slots := slots }] } }
def tBindOp (slots : Nat) (waiting : List (ChunkHdr × List Byte)) : COp := ((tBinding slots waiting).cop? 0).getD (tStepOp 0)

theorem witness_chunk_bind : ∀ q ∈ [(1, []), (1, [(chunkHdr (List.replicate 32 0), [1])]), (0, [])],
    (tBinding q.1 q.2).cop? 0 = some (tBindOp q.1 q.2) ∧ (tBindOp q.1 q.2).c.node? 0 0 0 = some (tNode q.2) ∧
    ((tBinding q.1 q.2).rst.replays.any fun r => r.kind == 0 && r.parked.contains (0, 0, 0, 0)) = false ∧
    (tBinding q.1 q.2).bindUnit (tBindOp q.1 q.2).g.id 0 0 = some 5 ∧ (tBindOp q.1 q.2).c.slotFree (tNode q.2) = decide (q.1 = 1) ∧
    (tNode q.2).finished = false ∧ (tNode q.2).unit = none := by decide +kernel

/-! ### Brixver Transport: packets that carry data (R209, R217) -/

/-- A state that judging leaves, and the end as it stands then. -/
abbrev tTaken (s : State) (p : Packet) : State := (s.judge p).2

/-- A tenant connection with a receive entry of 64 bytes at 0x20000, which is operation 0, and a grant for class 2. -/
def tRecvDesc : List Byte := tEntry 6 2 100 7 [(16, 8, 0x20000), (24, 4, 64)]
def tRing : Ring := { ctlRing0 with kind := .work, sqLog := 6, cqLog := 6, tag := 7, recvs := [(0, 0)], nextSsn := 1 }
def tTenant : Conn := { tConn 0 with recvRing := 0 }
def tBxt : State :=
  let s := (tWorld.newOp (tFetched tRecvDesc) .free .running 64).2
  let s : State := { s with adm := { s.adm with grants := [(802, (100000, 100, 1000000))] } }
  (s.setRing tKey tRing).withConn 100 tTenant

/-- Its operation. -/
def tRecvOp : Op := (tBxt.op? 0).getD tOp0

def tRkey : Nat := 7 * 2 ^ 20 + 0x123
def tWrite : Packet := tPacket (.write 0x10000 tRkey) 3 0 [1, 2, 3]
def tSend : Packet := tPacket (.send 0 5) 3 0 [1, 2, 3]
def tRead : Packet := tPacket (.readReq 0x10000 tRkey 8) 8 0 []
def tAtomic : Packet := tPacket (.atomic 0x10000 tRkey 0 1 0) 8 0 []

theorem witness_bxt_write : tBxt.Takes tWrite (.write 0x10000 tRkey) 100 tTenant tWrite (tTaken tBxt tWrite) ∧ tTenant.svc = 0 ∧
    (tTaken tBxt tWrite).conn? 100 = some tTenant ∧ (tTenant.msg? tWrite.msn).bind (·.refused) = none ∧
    (∃ m w v, (tTaken tBxt tWrite).msgFor 100 tTenant tWrite = (some m, w) ∧
      w.remoteRange tTenant tRkey (0x10000 + tWrite.msgOff) tWrite.payload.length .write = (.ok [(.dev (5 * 2 ^ 30 + 0x10000), 3)], v)) := by
  refine ⟨takes_of (by decide +kernel), rfl, by decide +kernel, rfl, newMsg tWrite, _, _, answered ?_, answeredOk ?_⟩ <;> decide +kernel

theorem test_bxt_write : (match execBxtWrite 0x10000 tRkey tWrite tBxt with
    | .next t => t.memRead (5 * 2 ^ 30 + 0x10000) 4
    | _ => []) = [1, 2, 3, 0] := by decide +kernel

theorem witness_bxt_send : tBxt.Takes tSend (.send 0 5) 100 tTenant tSend (tTaken tBxt tSend) ∧ (tTaken tBxt tSend).conn? 100 = some tTenant ∧
    (tTenant.msg? tSend.msn).bind (·.refused) = none ∧
    (∃ m w x o v, (tTaken tBxt tSend).msgFor 100 tTenant tSend = (some m, w) ∧
      (match m.recvOp with | some id => (some id, w) | none => w.takeRecv tTenant 0) = (some 0, x) ∧ x.op? 0 = some o ∧
      tSend.msgLen ≤ fieldLE o.desc 24 4 ∧
      (x.modConn 100 fun k => k.setMsg { m with recvOp := some 0 }).lookupRange tTenant.part tTenant.vf o.tag (fieldLE o.desc 16 8 + tSend.msgOff)
        tSend.payload.length .write = (.ok [(.dev (5 * 2 ^ 30 + 0x20000), 3)], v)) := by
  refine ⟨takes_of (by decide +kernel), by decide +kernel, rfl, newMsg tSend, _, _,
    tRecvOp, _, answered ?_, answered ?_, ?_, ?_, answeredOk ?_⟩ <;> decide +kernel

theorem witness_bxt_read : tBxt.Takes tRead (.readReq 0x10000 tRkey 8) 100 tTenant tRead (tTaken tBxt tRead) ∧ tTenant.state = .open_ ∧
    (∃ m w v x, (tTaken tBxt tRead).msgFor 100 tTenant tRead = (some m, w) ∧
      w.remoteRange tTenant tRkey (0x10000 + tRead.msgOff) 8 .read = (.ok [(.dev (5 * 2 ^ 30 + 0x10000), 8)], v) ∧
      v.badFor tTenant.part none [(.dev (5 * 2 ^ 30 + 0x10000), 8)] = (false, x) ∧ hostLocs [(.dev (5 * 2 ^ 30 + 0x10000), 8)] = []) := by
  refine ⟨takes_of (by decide +kernel), rfl, newMsg tRead, _, _, _, answered ?_, answeredOk ?_, answered ?_, ?_⟩ <;> decide +kernel

theorem witness_bxt_atomic : tBxt.Takes tAtomic (.atomic 0x10000 tRkey 0 1 0) 100 tTenant tAtomic (tTaken tBxt tAtomic) ∧
    (∃ m w v x, (tTaken tBxt tAtomic).msgFor 100 tTenant tAtomic = (some m, w) ∧
      w.remoteRange tTenant tRkey 0x10000 8 .atomic = (.ok [(.dev (5 * 2 ^ 30 + 0x10000), 8)], v) ∧
      v.badFor tTenant.part none [(.dev (5 * 2 ^ 30 + 0x10000), 8)] = (false, x)) := by
  refine ⟨takes_of (by decide +kernel), newMsg tAtomic, _, _, _, answered ?_, answeredOk ?_, answered ?_⟩ <;> decide +kernel

/-- A chunk connection; a chunk of the FILLING side, whose length no rule gives. -/
def tChunky : State := tWorld.withConn 100 (tConn 3)
def tHdr : List Byte := putLE (List.replicate 32 0) 12 2 0xFFFE
def tChunk : Packet := tPacket (.chunk tHdr) 4 0 [1, 2, 3, 4]

theorem witness_bxt_elsewhere : tChunky.Takes tWrite (.write 0x10000 tRkey) 100 (tConn 3) tWrite (tTaken tChunky tWrite) ∧
    tChunky.Takes tRead (.readReq 0x10000 tRkey 8) 100 (tConn 3) tRead (tTaken tChunky tRead) ∧
    tChunky.Takes tAtomic (.atomic 0x10000 tRkey 0 1 0) 100 (tConn 3) tAtomic (tTaken tChunky tAtomic) ∧ (tConn 3).svc ≠ 0 := by
  refine ⟨takes_of (by decide +kernel), takes_of (by decide +kernel), takes_of (by decide +kernel), by decide⟩

theorem witness_chunk : tChunky.Takes tChunk (.chunk tHdr) 100 (tConn 3) tChunk (tTaken tChunky tChunk) ∧ (tConn 3).svc = 3 ∧
    (∃ v, (tTaken tChunky tChunk).takeMsgBytes 100 (tConn 3) tChunk = (some [1, 2, 3, 4], v)) ∧
    (chunkLenOk (chunkHdr tHdr) [1, 2, 3, 4] || !(chunkHdr tHdr).good [1, 2, 3, 4]) = true := by
  refine ⟨takes_of (by decide +kernel), rfl, ⟨_, answered ?_⟩, ?_⟩ <;> decide +kernel

/-- A KEEPALIVE; a message refused at this end, and word that the peer has seen it. -/
def tKeep : Packet := tPacket (.ctrl 3 0 0 0 0) 0 0 []
def tSeen : Packet := tPacket (.ctrl 6 0 0 0 0) 0 0 []
def tRefusing : Conn := { tTenant with msgs := [{ newMsg tWrite with refused := some Nak.access }] }

theorem witness_bxt_control : tBxt.Takes tKeep (.ctrl 3 0 0 0 0) 100 tTenant tKeep (tTaken tBxt tKeep) ∧
    (tWorld.withConn 100 tRefusing).Takes tSeen (.ctrl 6 0 0 0 0) 100 tRefusing tSeen (tTaken (tWorld.withConn 100 tRefusing) tSeen) ∧
    (tRefusing.msg? 0).any (·.refused.isSome) = true := by
  refine ⟨takes_of (by decide +kernel), takes_of (by decide +kernel), by decide +kernel⟩

/-! ### Brixver Transport: packets that answer and control -/

/-- An end with a read of 8 bytes and an atomic open, for operation 0. -/
def tReading : Conn := { tTenant with reads := [⟨4, 0, 0, 0x20000, 0x30000, tRkey, 8, []⟩], openAtomics := [⟨0, 0⟩] }
def tReads : State := { tBxt with bxt := { tBxt.bxt with conns := [(100, tReading)] } }
def tReadResp : Packet := tPacket (.readResp 4) 8 0 [1, 2, 3, 4, 5, 6, 7, 8]
def tAtomicResp : Packet := tPacket (.atomicResp 6) 0 0 []

theorem witness_read_resp : tReads.Takes tReadResp (.readResp 4) 100 tReading tReadResp (tTaken tReads tReadResp) ∧
    (tTaken tReads tReadResp).conn? 100 = some tReading ∧
    tReading.reads.find? (fun r => r.psn == 4) = some ⟨4, 0, 0, 0x20000, 0x30000, tRkey, 8, []⟩ ∧ tReadResp.msgOff % tReading.mtu = 0 ∧
    (∃ o v, (tTaken tReads tReadResp).op? 0 = some o ∧
      (tTaken tReads tReadResp).lookupRange o.part o.vf o.tag (0x20000 + tReadResp.msgOff) tReadResp.payload.length .write =
        (.ok [(.dev (5 * 2 ^ 30 + 0x20000), 8)], v)) ∧ readWhole tReading.mtu 8 [0] = true ∧ readWhole tReading.mtu 5000 [0] = false := by
  refine ⟨takes_of (by decide +kernel), by decide +kernel, by decide +kernel, by decide +kernel,
    ⟨tRecvOp, _, ?_, answeredOk ?_⟩, ?_, ?_⟩ <;> decide +kernel

theorem witness_atomic_resp : tReads.Takes tAtomicResp (.atomicResp 6) 100 tReading tAtomicResp (tTaken tReads tAtomicResp) ∧
    tReading.openAtomics.find? (fun a => a.psn == tAtomicResp.psn) = some ⟨0, 0⟩ := ⟨takes_of (by decide +kernel), by decide +kernel⟩

/-- An ACK, a NAK of each code that the statement tells apart, a GRANT for class 5. -/
def tAck : Packet := tPacket (.ack 0 0 0 0 0) 0 0 []
def tNak (code epoch : Nat) : Packet := tPacket (.nak code 0 0 0 epoch 0) 0 0 []
def tGrantPkt : Packet := tPacket (.grant (2 ^ 5) 100 [0, 0, 0, 0, 0, 9]) 0 0 []

theorem witness_answers : tBxt.Takes tAck (.ack 0 0 0 0 0) 100 tTenant tAck (tTaken tBxt tAck) ∧
    (∀ code ∈ [1, 3, 4, 5, 6, 8], tBxt.Takes (tNak code 1) (.nak code 0 0 0 1 0) 100 tTenant (tNak code 1) (tTaken tBxt (tNak code 1))) ∧
    serialOlder 16 tTenant.epoch 1 = true ∧
    tBxt.Takes tGrantPkt (.grant (2 ^ 5) 100 [0, 0, 0, 0, 0, 9]) 100 tTenant tGrantPkt (tTaken tBxt tGrantPkt) ∧ tTenant.roce = false := by
  have h : ∀ code ∈ [1, 3, 4, 5, 6, 8], takesB tBxt (tNak code 1) (.nak code 0 0 0 1 0) 100 tTenant (tNak code 1) = true := by decide +kernel
  exact ⟨takes_of (by decide +kernel), fun code hc => takes_of (h code hc), by decide +kernel, takes_of (by decide +kernel), rfl⟩

/-- A CLOSE to an OPEN end, a CLOSE_ACK to one that has sent its own. -/
def tClose : Packet := tPacket (.ctrl 4 0 0 0 0) 0 0 []
def tCloseAck : Packet := tPacket (.ctrl 5 0 0 0 0) 0 0 []
def tClosing : Conn := { tTenant with state := .closing, closeSent := true }
def tIdleBxt : State := tWorld.withConn 100 tTenant

theorem witness_close : tIdleBxt.Takes tClose (.ctrl 4 0 0 0 0) 100 tTenant tClose (tTaken tIdleBxt tClose) ∧
    (∃ k, ((((tTaken tIdleBxt tClose).takePsn 100 tClose).sendAck 100).endOpsOfConn 100 Status.aborted 0 false).conn? 100 = some k) ∧
    (tWorld.withConn 100 tClosing).Takes tCloseAck (.ctrl 5 0 0 0 0) 100 tClosing tCloseAck (tTaken (tWorld.withConn 100 tClosing) tCloseAck) ∧
    tClosing.closeSent = true := ⟨takes_of (by decide +kernel), Option.isSome_iff_exists.mp (by decide +kernel), takes_of (by decide +kernel), rfl⟩

/-- PROBEs: of a tenant end, ARMED or OPEN; of a new management connection; and the answer to one's own. -/
def tProbe : Packet := tPacket (.ctrl 1 9 0 0 0) 0 0 []
def tMgtProbe : Packet := let p := { tPacket (.ctrl 1 9 1 0 0) 0 0 [] with dstConn := 0 }; { p with trailer := p.crcTrailer }
def tProbeAck : Packet := tPacket (.ctrl 2 9 0 0 0) 0 0 []
def tArmed : Conn := { tTenant with state := .armed, group := 0 }
def tProbed (k : Conn) : State := tWorld.withConn 100 k

theorem witness_probe : ∀ k ∈ [tTenant, tArmed], (tProbed k).power = .run ∧ (tProbed k).admitsPkt tProbe = true ∧
    ((tProbed k).conn? 100).any (·.roce) = false ∧ (tProbed k).openPkt tProbe = (some tProbe, ((tProbed k).openPkt tProbe).2) ∧ tProbe.wellFormed = true ∧
    (((tProbed k).openPkt tProbe).2.hear 2).conn? 100 = some k ∧
    ((((tProbed k).openPkt tProbe).2.hear 2).needCtx 100 k tProbe).1 = true ∧ k.epoch = tProbe.epoch ∧ k.svc = 0 ∧ k.peerConn = 9 ∧ k.peerDev = 2 ∧
    k.roce = false := by
  intro k hk
  have h : ∀ k ∈ [tTenant, tArmed], ((tProbed k).openPkt tProbe).1 = some tProbe := by decide +kernel
  have g : ∀ k ∈ [tTenant, tArmed], (tProbed k).power = .run ∧ (tProbed k).admitsPkt tProbe = true ∧
    ((tProbed k).conn? 100).any (·.roce) = false ∧ tProbe.wellFormed = true ∧
    (((tProbed k).openPkt tProbe).2.hear 2).conn? 100 = some k ∧
    ((((tProbed k).openPkt tProbe).2.hear 2).needCtx 100 k tProbe).1 = true ∧ k.epoch = tProbe.epoch ∧ k.svc = 0 ∧ k.peerConn = 9 ∧ k.peerDev = 2 ∧
    k.roce = false := by decide +kernel
  have f := g k hk
  exact ⟨f.1, f.2.1, f.2.2.1, answered (h k hk), f.2.2.2⟩

theorem witness_probe_opens : ((((((tProbed tArmed).openPkt tProbe).2.hear 2).needCtx 100 tArmed tProbe).2.openConn 100).conn? 100).isSome = true := by
  decide +kernel

theorem witness_probe_management : tWorld.admitsPkt tMgtProbe = true ∧ (tWorld.conn? 0).any (·.roce) = false ∧
    tWorld.openPkt tMgtProbe = (some tMgtProbe, (tWorld.openPkt tMgtProbe).2) ∧ tMgtProbe.wellFormed = true ∧ tMgtProbe.dstConn = 0 ∧ tMgtProbe.enc = false ∧
    ((tWorld.openPkt tMgtProbe).2.hear 2).probed tMgtProbe 9 1 0 = none ∧
    (firstBelow 8 fun k => ((tWorld.openPkt tMgtProbe).2.conn? (mgtConnBase + k)).isNone) = some 0 ∧
    (tWorld.openPkt tMgtProbe).2.mgtPrefixes.any (inPrefix tMgtProbe.srcIp) = true := by
  refine ⟨?_, ?_, answered ?_, ?_, ?_, ?_, ?_, ?_, ?_⟩ <;> decide +kernel

theorem witness_probe_ack : (tProbed tArmed).openPkt tProbeAck = (some tProbeAck, ((tProbed tArmed).openPkt tProbeAck).2) ∧ tProbeAck.wellFormed = true ∧
    (((tProbed tArmed).openPkt tProbeAck).2.hear 2).conn? 100 = some tArmed ∧
    ((((tProbed tArmed).openPkt tProbeAck).2.hear 2).needCtx 100 tArmed tProbeAck).1 = true ∧ tArmed.epoch = tProbeAck.epoch ∧ tArmed.state = .armed ∧
    tArmed.svc = 0 ∧ tArmed.group = 0 ∧ tArmed.peerDev = 2 ∧ tArmed.peerConn = 9 := by
  refine ⟨answered ?_, ?_, ?_, ?_, ?_, ?_, ?_, ?_, ?_, ?_⟩ <;> decide +kernel

/-- A packet of another epoch (R210). -/
def tStale : Packet := let p := { tWrite with epoch := 3 }; { p with trailer := p.crcTrailer }

theorem witness_other_epoch : tBxt.openPkt tStale = (some tStale, (tBxt.openPkt tStale).2) ∧ tStale.wellFormed = true ∧
    ((tBxt.openPkt tStale).2.hear tStale.srcDev).conn? 100 = some tTenant ∧
    ((tBxt.openPkt tStale).2.hear tStale.srcDev).needCtx 100 tTenant tStale =
      (true, (((tBxt.openPkt tStale).2.hear tStale.srcDev).needCtx 100 tTenant tStale).2) ∧
    tStale.epoch ≠ tTenant.epoch ∧ tStale.ext.isStaleNak = false ∧
    (((tBxt.openPkt tStale).2.hear tStale.srcDev).needCtx 100 tTenant tStale).2.inj = none := by
  refine ⟨answered ?_, ?_, ?_, answered ?_, ?_, ?_, ?_⟩ <;> decide +kernel

theorem okSome {ε α β : Type} {p : Except ε α × β} (h : (okOf p.1).isSome = true) : ∃ a v, p = (.ok a, v) := by
  obtain ⟨a, ha⟩ := Option.isSome_iff_exists.mp h
  exact ⟨a, _, answeredOk ha⟩

theorem errSome {ε α β : Type} {p : Except ε α × β} (h : (okOf p.1).isNone = true) : ∃ e v, p = (.error e, v) := by
  obtain ⟨x, v⟩ := p
  cases x with
  | error e => exact ⟨e, v, rfl⟩
  | ok a => cases h

/-! ### RoCEv2 (R227) -/

/-- A packet of an operation to queue pair 100. -/
def tRoceP (op : RoceOp) (psn : Nat) : RocePacket := ⟨0, 100, psn, 0xFFFF, false, op, [], true, false⟩
def tRoceConn : Conn := { tConn 0 with roce := true }
def tRoce : State := tWorld.withConn 100 tRoceConn

theorem witness_roce : tRoce.power = .run ∧ tRoce.rd F.RST_STATUS_retired = 0 ∧ tRoce.conn? 100 = some tRoceConn ∧ tRoce.conn? 99 = none ∧
    tBxt.conn? 100 = some tTenant ∧ tTenant.roce = false ∧
    (∀ op ∈ [RoceOp.ack 0 0, .cnp, .write true true 0x10000 tRkey 4, .send true true, .readReq 0x10000 tRkey 4], (tRoceP op 0).op = op ∧ (tRoceP op 0).qp = 100 ∧
      (tRoceP op 0).icrcOk = true ∧ (tRoceP op 0).pkey = 0xFFFF ∧ (tRoceP op 0).ce = false ∧ (tRoceP op 0).psn = tRoceConn.base ∧
      serialOlder 24 (tRoceP op 0).psn tRoceConn.base = false) ∧
    tRoceConn.roce = true ∧ tRoceConn.state ≠ .error ∧ serialOlder 24 (tRoceP .cnp 5).psn tRoceConn.base = false ∧ (tRoceP .cnp 5).psn ≠ tRoceConn.base ∧
    tRoceConn.seqNak = false ∧ serialOlder 24 0xFFFFFF tRoceConn.base = true := by decide +kernel

/-- The same with a READ taken whose host data is being read, behind which requests wait. -/
def tRoceBusy : State :=
  { tRoce with hpt := { tRoce.hpt with reads := [⟨0, 64, 4, 7, 0, 1, .roce (tRoceP (.readReq 0x10000 tRkey 4) 0) [], true, false⟩] } }

theorem witness_roce_order : (∀ s ∈ [tRoce, tRoceBusy], s.rd F.RST_STATUS_retired = 0 ∧ (s.conn? 100).any (·.roce) = true ∧
      (s.needRoceCtx (tRoceP (.send true true) 0)).1 = true ∧ (s.needRoceCtx (tRoceP (.send true true) 0)).2.conn? 100 = some tRoceConn) ∧
    (State.hpt ((tRoce.needRoceCtx (tRoceP (.send true true) 0)).2.hear 2)).reads = [] ∧
    ((State.hpt ((tRoceBusy.needRoceCtx (tRoceP (.send true true) 0)).2.hear 2)).reads.any fun r => waitsFor 100 r.who) = true := by decide +kernel

/-! ### The timers of connections -/

/-- A packet sent and not acknowledged, whose timer runs, or which waits out a NAK of a kind. -/
def tSent (waiting : Nat) : Sent := ⟨tWrite, 1, 0, true, waiting, 0, 0, 0, none⟩
def tSending (waiting : Nat) : Conn := { tTenant with sent := [tSent waiting], unacked := 3, keepaliveUs := 50 }
def tHeldPkt : Hold := ⟨7, 0x10000, .write, true, .packet tWrite, 0, none⟩

theorem witness_retransmit : tTenant.roce = false ∧ (tSending 0).sent? 0 = some (tSent 0) ∧ (tSent 0).timer = true ∧ (tSent 0).waiting = 0 ∧
    (tSending 0).asksLater (tSent 0) = false ∧ (tSent 0).tries < (tSending 0).retryLimit ∧ (tSent 0).op = none ∧
    (tProbed (tSending 0)).conn? 100 = some (tSending 0) := by decide +kernel

theorem witness_nak_delay : (tSending 1).sent? 0 = some (tSent 1) ∧ (tSent 1).waiting = 1 ∧ (tSending 2).sent? 0 = some (tSent 2) ∧ (tSent 2).waiting = 2 := by
  decide +kernel

theorem witness_conn_timers : (tProbed tArmed).conn? 100 = some tArmed ∧ tArmed.state = .armed ∧ tArmed.roce = false ∧
    (tProbed tClosing).conn? 100 = some tClosing ∧ tClosing.state = .closing ∧ tClosing.closeSent = true ∧
    (tSending 0).state = .open_ ∧ (tSending 0).keepaliveUs ≠ 0 ∧ (tSending 0).svc < 2 ∧ 0 < (tSending 0).unacked ∧
    tReads.conn? 100 = some tReading ∧ tReading.reads.find? (fun r => r.msn == 0) = some ⟨4, 0, 0, 0x20000, 0x30000, tRkey, 8, []⟩ := by decide +kernel

theorem witness_fault_hold :
    let s : State := { tBxt with xlt := { tBxt.xlt with holds := [tHeldPkt] } }
    s.xlt.holds[0]? = some tHeldPkt ∧ tHeldPkt.remote = true ∧ tHeldPkt.who = .packet tWrite ∧ tHeldPkt.retry = none := by decide +kernel

/-- The same hold once a command has marked it. -/
theorem witness_fault_hold_marked :
    let h : Hold := { tHeldPkt with retry := some 3 }
    let s : State := { tBxt with xlt := { tBxt.xlt with holds := [h] } }
    s.xlt.holds[0]? = some h ∧ h.remote = true ∧ h.who = .packet tWrite ∧ h.retry ≠ none := by decide +kernel

theorem witness_context_fetch :
    let s : State := { tBxt with bxt := { tBxt.bxt with resident := [] } }
    let t : State := { tBxt with bxt := { tBxt.bxt with resident := [], fetching := [tWrite] } }
    s.bxt.fetching = [] ∧ s.bxt.roceFetching = [] ∧ s.bxt.resident.contains 100 = false ∧
      (s.bxt.resident.filter fun r => ctxSet r == ctxSet 100).length < s.ctxWays (ctxSet 100) ∧
      s.conn? 100 = some tTenant ∧ t.bxt.fetching = [tWrite] ∧ tWrite.dstConn = 100 ∧ tWrite.ext.takesPsn = true := by decide +kernel

/-! ### Transport: host memory, timers that run out, RoCEv2 -/

/-- The device where tag 7 maps addresses below 1 GiB to host memory of link 0. -/
def tHostMem : State := { tBxt with mem := [(5 * 2 ^ 30 + 0x1000, 0x01), (5 * 2 ^ 30 + 0x1001, 0x20), (5 * 2 ^ 30 + 0x2000, 0x9F)] }

theorem witness_bxt_host : ∀ x ∈ [(tRead, AccKind.read), (tAtomic, .atomic)], tHostMem.Takes x.1 x.1.ext 100 tTenant x.1 (tTaken tHostMem x.1) ∧
    (tTaken tHostMem x.1).conn? 100 = some tTenant ∧
    (∃ m w v y, (tTaken tHostMem x.1).msgFor 100 tTenant x.1 = (some m, w) ∧
      w.remoteRange tTenant tRkey 0x10000 8 x.2 = (.ok [(.host 0 0x10000, 8)], v) ∧ v.badFor tTenant.part none [(.host 0 0x10000, 8)] = (false, y)) ∧
    hostLocs [(.host 0 0x10000, 8)] ≠ [] := by
  have h : ∀ x ∈ [(tRead, AccKind.read), (tAtomic, .atomic)], takesB tHostMem x.1 x.1.ext 100 tTenant x.1 = true ∧
      (tTaken tHostMem x.1).conn? 100 = some tTenant ∧ ((tTaken tHostMem x.1).msgFor 100 tTenant x.1).1 = some (newMsg x.1) ∧
      okOf (((tTaken tHostMem x.1).msgFor 100 tTenant x.1).2.remoteRange tTenant tRkey 0x10000 8 x.2).1 = some [(.host 0 0x10000, 8)] ∧
      (((((tTaken tHostMem x.1).msgFor 100 tTenant x.1).2.remoteRange tTenant tRkey 0x10000 8 x.2).2).badFor tTenant.part none
        [(.host 0 0x10000, 8)]).1 = false := by decide +kernel
  intro x hx
  have g := h x hx
  exact ⟨takes_of g.1, g.2.1, ⟨newMsg x.1, _, _, _, answered g.2.2.1, answeredOk g.2.2.2.1, answered g.2.2.2.2⟩, by decide⟩

theorem witness_stale_nak : tBxt.Takes (tNak 4 0) (.nak 4 0 0 0 0 0) 100 tTenant (tNak 4 0) (tTaken tBxt (tNak 4 0)) ∧
    serialOlder 16 tTenant.epoch 0 = false := ⟨takes_of (by decide +kernel), by decide +kernel⟩

/-- A packet sent as often as the limit allows; its peer heard since, or not. -/
def tSpent : Sent := { tSent 0 with tries := tTenant.retryLimit }
def tExhausted : Conn := { tTenant with sent := [tSpent] }

theorem witness_retransmit_ends : tExhausted.sent? 0 = some tSpent ∧ tExhausted.asksLater tSpent = false ∧ tExhausted.retryLimit ≤ tSpent.tries ∧
    State.heardSince { tBxt with bxt := { tBxt.bxt with heard := [(2, 5)] } } 2 tSpent.since = true ∧ tBxt.heardSince 2 tSpent.since = false := by
  decide +kernel

/-- A RoCEv2 end that waits out an RNR NAK, and one whose context is out. -/
def tRoceSent : RoceSent := { pkt := tRoceP .cnp 0, span := 1, op := none, last := true, tries := 0, timer := true }
def tRnr : Conn := { tRoceConn with rnrWait := true, roceSent := [tRoceSent] }
def tRoceOut : State := { tRoce with bxt := { tRoce.bxt with resident := [] } }

theorem witness_roce_timers : tRnr.roce = true ∧ tRnr.rnrWait = true ∧ tRnr.roceSent = [tRoceSent] ∧ (tRoce.needRoceCtx (tRoceP .cnp 0)).1 = true ∧
    (tRoce.needRoceCtx (tRoceP .cnp 0)).2.conn? 100 = some tRoceConn ∧ (tRoceOut.needRoceCtx (tRoceP .cnp 0)).1 = false ∧
    (tRoceP (.readResp true true) 0).op = .readResp true true ∧ (tRoceP .other 0).op = .other ∧ (tRoce.wr F.RST_STATUS_retired 1).rd F.RST_STATUS_retired = 1 := by
  decide +kernel

theorem witness_context_arrives :
    let s : State := { tBxt with bxt := { tBxt.bxt with resident := [], fetching := [tWrite] } }
    let u := (s.bringIn 100).2
    (s.bringIn 100).1 = true ∧ u.bxt.fetching = [tWrite] ∧ u.bxt.roceFetching = [] ∧
      State.conn? { u with bxt := { u.bxt with fetching := [], roceFetching := [] } } 100 = some tTenant := by decide +kernel

/-! ### Doorbells and rings -/

theorem witness_window : tBxt.Window 0 1 := ⟨rfl, by decide, by decide, by decide +kernel, by decide +kernel⟩

theorem witness_doorbells : tBxt.ring? (1 * 4096 + 0) = some tRing ∧ tBxt.halted (1 * 4096 + 0) = false ∧ tRing.state = .active ∧
    serialOlder 32 tRing.tail 64 = true ∧ 64 ≠ tRing.tail ∧ cdiff 64 tRing.oldest ≤ 2 ^ tRing.sqLog ∧ tRing.posted = tRing.head ∧
    serialOlder 32 tRing.head 0 = false ∧ (putLE (List.replicate 64 0) 63 1 0x80).length = (if tRing.entry256 then 256 else 64) ∧
    phaseOf (putLE (List.replicate 64 0) 63 1 0x80) = phaseAt tRing.tail tRing.sqLog := by decide +kernel

/-- The same ring with a completion that waits to be read; the control ring with one too. -/
def tPosted : Ring := { tRing with posted := 1, fetched := 1, tail := 1 }
def tCtl : Ring := { ctlRing0 with posted := 1, fetched := 1, tail := 1 }
def tPostedState : State := (tBxt.setRing tKey tPosted).setRing ctlKey tCtl

theorem witness_doorbells_posted : tPostedState.manages false = true ∧ tPostedState.ring? (1 * 4096 + 0) = some tPosted ∧ serialOlder 32 tPosted.head 1 = true ∧
    serialOlder 32 tPosted.posted 1 = false ∧ tPosted.posted ≠ tPosted.head ∧ tPostedState.ring? ctlKey = some tCtl ∧ tCtl.state = .active ∧
    tPostedState.halted ctlKey = false ∧ serialOlder 32 tCtl.tail 2 = true ∧ 2 ≠ tCtl.tail ∧ cdiff 2 tCtl.oldest ≤ 2 ^ tCtl.sqLog ∧
    serialOlder 32 tCtl.head 1 = true ∧ serialOlder 32 tCtl.posted 1 = false := by decide +kernel

theorem witness_doorbells_halted : (tBxt.wr F.WQE_DEV_HALT_halted 1).ring? (1 * 4096 + 0) = some tRing ∧
    (tBxt.wr F.WQE_DEV_HALT_halted 1).halted (1 * 4096 + 0) = true ∧ tBxt.ring? (1 * 4096 + 1) = none ∧
    (tBxt.setRing tKey { tRing with state := .stopping }).ring? (1 * 4096 + 0) = some { tRing with state := .stopping } := by decide +kernel

/-- A pair to be created at number 2, of 64 entries each. -/
def tCreate : State :=
  tWorld.wrs [(F.WQE_RING_SEL_ring, 1, 2), (F.WQE_RING_ARG0_sq_base, 1, 0x30000), (F.WQE_RING_ARG1_cq_base, 1, 0x40000), (F.WQE_RING_ARG2_sq_log2, 1, 6),
    (F.WQE_RING_ARG2_cq_log2, 1, 6), (F.WQE_RING_ARG2_tag, 1, 7)]

theorem witness_ring_create :
    let p := tCreate.pinRange 1 (tCreate.rd F.PTN_INST_partition 1) (tCreate.rd F.WQE_RING_ARG2_tag 1) (tCreate.rd F.WQE_RING_ARG0_sq_base 1)
      (2 ^ tCreate.rd F.WQE_RING_ARG2_sq_log2 1 * 64) .read
    let q := p.2.pinRange 1 (tCreate.rd F.PTN_INST_partition 1) (tCreate.rd F.WQE_RING_ARG2_tag 1) (tCreate.rd F.WQE_RING_ARG1_cq_base 1)
      (2 ^ tCreate.rd F.WQE_RING_ARG2_cq_log2 1 * 32) .write
    tCreate.ring? (1 * 4096 + tCreate.rd F.WQE_RING_SEL_ring 1) = none ∧ 6 ≤ tCreate.rd F.WQE_RING_ARG2_sq_log2 1 ∧
      tCreate.rd F.WQE_RING_ARG2_cq_log2 1 ≤ 16 ∧ tCreate.rd F.WQE_RING_ARG2_entry256 1 = 0 ∧ tCreate.rd F.WQE_RING_ARG0_sq_base 1 % 4096 = 0 ∧
      tCreate.rd F.WQE_RING_ARG1_cq_base 1 % 4096 = 0 ∧ p.1 = some [.dev (5 * 2 ^ 30 + 0x30000)] ∧ q.1 = some [.dev (5 * 2 ^ 30 + 0x40000)] ∧
      q.2.ring? (1 * 4096 + tCreate.rd F.WQE_RING_SEL_ring 1) = none ∧ q.2.ringsOf 1 < q.2.rd F.PTN_INST_rings 1 := by decide +kernel

/-- A pair that stops, a pair that has stopped, a pair with an entry to fetch, a flush that is outstanding. -/
def tWithRing (r : Ring) : State := tWorld.setRing tKey r
def tFlushing : State := { tWorld with hpt := { tWorld.hpt with flushes := [⟨0, 64, .op 0, 3, true⟩] } }

theorem witness_ring_life : (tWithRing tRing).ring? (1 * 4096 + (tWithRing tRing).rd F.WQE_RING_SEL_ring 1) = some tRing ∧ tRing.state ≠ .stopped ∧
    (tWithRing { tRing with state := .stopped }).ring? (1 * 4096 + (tWithRing tRing).rd F.WQE_RING_SEL_ring 1) = some { tRing with state := .stopped } ∧
    (tWithRing { tRing with state := .stopped }).recvNamed tKey = false ∧ serialOlder 32 tRing.fetched 5 = true ∧
    (tWithRing { tRing with tail := 5, waiting := true }).ring? tKey = some { tRing with tail := 5, waiting := true } ∧ tRing.open_ = [] ∧
    (tWithRing { tRing with state := .stopping }).ring? tKey = some { tRing with state := .stopping } ∧
    tFlushing.hpt.flushes[0]? = some ⟨0, 64, .op 0, 3, true⟩ ∧
    ((tFlushing.hpt.flushes.take 0 ++ tFlushing.hpt.flushes.drop 1).any fun g => g.who == .op 0) = false := by decide +kernel

/-! ### Work entries (R238 to R245) -/

/-- A state with one fetched entry of ring 0 of instance 1, and without it. -/
def State.fetch (s : State) (d : List Byte) : State := { s with fetched := [tFetched d] }

/-- Whether such an entry is taken. -/
def entryB (s : State) (key count n : Nat) (e : Fetched) : Bool :=
  decide (s.power = .run) && decide (s.fetched? key count n = some e) && s.fenceClear e
    && (decide (key = ctlKey) || !(s.unfetch e).fencedInst (ringVf key) ((s.unfetch e).rd F.PTN_INST_partition (ringVf key))) && bodyZero n e.desc
    && (judgedLater n || !(s.unfetch e).flightFull)

theorem entry_of {s : State} {key count n : Nat} {e : Fetched} (h : entryB s key count n e = true) : s.Entry key count n e (s.unfetch e) := by
  simp only [entryB, Bool.and_eq_true, Bool.or_eq_true, Bool.not_eq_true', decide_eq_true_eq] at h
  exact ⟨h.1.1.1.1.1, h.1.1.1.1.2, h.1.1.1.2, rfl, h.1.1.2, h.1.2, h.2⟩

/-- The state that is left when the one entry is taken. -/
abbrev tLeft (s : State) (d : List Byte) : State := (s.fetch d).unfetch (tFetched d)

theorem tEntryOf {s : State} {d : List Byte} {n : Nat} (h : entryB (s.fetch d) tKey 0 n (tFetched d) = true) :
    (s.fetch d).Entry tKey 0 n (tFetched d) (tLeft s d) := entry_of h

/-- An entry that reaches its meaning, and a fact beside it. -/
theorem tEntryAnd {s : State} {d : List Byte} {n : Nat} {P : Prop} (h : entryB (s.fetch d) tKey 0 n (tFetched d) = true ∧ P) :
    (s.fetch d).Entry tKey 0 n (tFetched d) (tLeft s d) ∧ P := ⟨tEntryOf h.1, h.2⟩

def tNopD : List Byte := tEntry 1 2 0 0 []
def tWriteD : List Byte := tEntry 2 2 100 7 [(16, 8, 0x10000), (24, 8, 0x50000), (36, 4, 8)]
def tReadD : List Byte := tEntry 3 2 100 7 [(16, 8, 0x10000), (24, 8, 0x50000), (36, 4, 8)]
def tSendD : List Byte := tEntry 4 2 100 7 [(16, 8, 0x10000), (36, 4, 8)]
def tAtomicD : List Byte := tEntry 5 2 100 7 [(16, 8, 0x10000)]
def tCopyD : List Byte := tEntry 7 2 0 7 [(16, 8, 0x10000), (24, 8, 0x20000), (48, 4, 4), (52, 3, 0x000101)]

theorem witness_nop : (tBxt.fetch tNopD).Entry tKey 0 1 (tFetched tNopD) (tLeft tBxt tNopD) ∧
    (tLeft tBxt tNopD).tenantOk (ringVf tKey) (descHdr tNopD) false = true := ⟨tEntryOf (by decide +kernel), by decide +kernel⟩

/-- A WRITE that the gatekeeper admits, and one that it refuses, since no port leads to its peer. -/
def tNoRoute : State := tBxt.wr F.HOP_DEFAULT_mask 0

theorem witness_write_entry : ∀ s ∈ [tBxt, tNoRoute], (s.fetch tWriteD).Entry tKey 0 2 (tFetched tWriteD) (tLeft s tWriteD) ∧ (descHdr tWriteD).cls ≠ 0 ∧
    (tLeft s tWriteD).tenantOk (ringVf tKey) (descHdr tWriteD) (!bitAt (descHdr tWriteD).flags 2) = true ∧
    (tLeft s tWriteD).ownConn (ringVf tKey) (descHdr tWriteD).target = some tTenant ∧ tTenant.state = .open_ ∧
    (tLeft s tWriteD).frameFits tTenant.peerDev tTenant.largestFrame = true := by
  intro s hs
  have h : ∀ s ∈ [tBxt, tNoRoute], entryB (s.fetch tWriteD) tKey 0 2 (tFetched tWriteD) = true ∧ (descHdr tWriteD).cls ≠ 0 ∧
    (tLeft s tWriteD).tenantOk (ringVf tKey) (descHdr tWriteD) (!bitAt (descHdr tWriteD).flags 2) = true ∧
    (tLeft s tWriteD).ownConn (ringVf tKey) (descHdr tWriteD).target = some tTenant ∧ tTenant.state = .open_ ∧
    (tLeft s tWriteD).frameFits tTenant.peerDev tTenant.largestFrame = true := by decide +kernel
  exact ⟨tEntryOf (h s hs).1, (h s hs).2⟩

/-- What admission charges them. -/
abbrev tWriteCharge (s : State) : Charge :=
  let u := tLeft s tWriteD
  let h := descHdr tWriteD
  let n := fieldLE tWriteD 36 4
  u.connCharge h.target tTenant h.cls n (some n) n
    (if bitAt h.flags 2 then [] else u.linkCharge (ringVf tKey) (u.rd F.PTN_INST_partition (ringVf tKey)) h.tag (fieldLE tWriteD 16 8) n 1)

theorem witness_write_admitted : ∃ a v, (tLeft tBxt tWriteD).gateIn (ringVf tKey) ((tLeft tBxt tWriteD).rd F.PTN_INST_partition (ringVf tKey))
    (descHdr tWriteD).cls (tWriteCharge tBxt) = (.ok a, v) := okSome (by decide +kernel)

theorem witness_write_refused : ∃ st v, (tLeft tNoRoute tWriteD).gateIn (ringVf tKey) ((tLeft tNoRoute tWriteD).rd F.PTN_INST_partition (ringVf tKey))
    (descHdr tWriteD).cls (tWriteCharge tNoRoute) = (.error st, v) := errSome (by decide +kernel)

theorem witness_read_entry :
    let u := tLeft tBxt tReadD
    let h := descHdr tReadD
    (tBxt.fetch tReadD).Entry tKey 0 3 (tFetched tReadD) u ∧ h.cls ≠ 0 ∧ u.tenantOk (ringVf tKey) h true = true ∧
      u.ownConn (ringVf tKey) h.target = some tTenant ∧ u.frameFits tTenant.peerDev tTenant.largestFrame = true ∧
      ∃ a v, u.gateIn (ringVf tKey) (u.rd F.PTN_INST_partition (ringVf tKey)) h.cls (u.connCharge h.target tTenant h.cls 64 none (fieldLE tReadD 36 4)
        (u.linkCharge (ringVf tKey) (u.rd F.PTN_INST_partition (ringVf tKey)) h.tag (fieldLE tReadD 16 8) (fieldLE tReadD 36 4) 0)) = (.ok a, v) :=
  ⟨tEntryOf (by decide +kernel), by decide +kernel, by decide +kernel, by decide +kernel, by decide +kernel, okSome (by decide +kernel)⟩

theorem witness_send_entry :
    let u := tLeft tBxt tSendD
    let h := descHdr tSendD
    let n := fieldLE tSendD 36 4
    (tBxt.fetch tSendD).Entry tKey 0 4 (tFetched tSendD) u ∧ n ≤ 2 ^ 30 ∧ h.cls ≠ 0 ∧ u.tenantOk (ringVf tKey) h (!bitAt h.flags 2) = true ∧
      u.ownConn (ringVf tKey) h.target = some tTenant ∧ u.frameFits tTenant.peerDev tTenant.largestFrame = true ∧
      ∃ a v, u.gateIn (ringVf tKey) (u.rd F.PTN_INST_partition (ringVf tKey)) h.cls (u.connCharge h.target tTenant h.cls n (some n) n
        (if bitAt h.flags 2 then [] else u.linkCharge (ringVf tKey) (u.rd F.PTN_INST_partition (ringVf tKey)) h.tag (fieldLE tSendD 16 8) n 1)) = (.ok a, v) :=
  ⟨tEntryOf (by decide +kernel), by decide +kernel, by decide +kernel, by decide +kernel, by decide +kernel, by decide +kernel, okSome (by decide +kernel)⟩

theorem witness_atomic_entry :
    let u := tLeft tBxt tAtomicD
    let h := descHdr tAtomicD
    (tBxt.fetch tAtomicD).Entry tKey 0 5 (tFetched tAtomicD) u ∧
      ((fieldLE tAtomicD 16 8 % 8 = 0 ∧ fieldLE tAtomicD 28 1 ≤ 2) ∧ ((tBxt.fetch tAtomicD).conn? h.target = some tTenant ∧ tTenant.roce = false) ∧
        tTenant.openAtomics.length < 16 ∧ u.tenantOk (ringVf tKey) h false = true ∧ tTenant.vf = ringVf tKey ∧ tTenant.svc = 0 ∧
        u.frameFits tTenant.peerDev tTenant.largestFrame = true) ∧
      ∃ a v, u.gateIn (ringVf tKey) (u.rd F.PTN_INST_partition (ringVf tKey)) h.cls (u.connCharge h.target tTenant h.cls 64 (some 64) 64 []) = (.ok a, v) :=
  ⟨tEntryOf (by decide +kernel), by decide +kernel, okSome (by decide +kernel)⟩

theorem witness_recv_entry :
    let u := tLeft tBxt tRecvDesc
    let h := descHdr tRecvDesc
    (tBxt.fetch tRecvDesc).Entry tKey 0 6 (tFetched tRecvDesc) u ∧ fieldLE tRecvDesc 24 4 ≤ 2 ^ 30 ∧ u.tenantOk (ringVf tKey) h true = true ∧
      u.ownConn (ringVf tKey) h.target = some tTenant ∧ u.ring? tKey = some tRing ∧ tTenant.recvKey = some tKey ∧
      (tTenant.msgs.any fun m => m.isSend && m.refused.isSome) = false :=
  tEntryAnd (by decide +kernel)

theorem witness_copy_entry :
    let u := tLeft tBxt tCopyD
    let h := descHdr tCopyD
    (tBxt.fetch tCopyD).Entry tKey 0 7 (tFetched tCopyD) u ∧ u.tenantOk (ringVf tKey) h true = true ∧ (copyBody tCopyD).bad = false ∧ h.cls ≠ 0 ∧
      ∃ a v, u.gateIn (ringVf tKey) (u.rd F.PTN_INST_partition (ringVf tKey)) h.cls { Charge.none with
        links := mergeLinks (((copyBody tCopyD).ins.map fun q => u.linkCharge (ringVf tKey) (u.rd F.PTN_INST_partition (ringVf tKey)) h.tag q.1 q.2 1).flatten ++
          ((copyBody tCopyD).outs.map fun q => u.linkCharge (ringVf tKey) (u.rd F.PTN_INST_partition (ringVf tKey)) h.tag q.1 q.2 0).flatten) } = (.ok a, v) :=
  ⟨tEntryOf (by decide +kernel), by decide +kernel, by decide +kernel, by decide +kernel, okSome (by decide +kernel)⟩

/-- A NOP completes: its completion is written to the ring. -/
theorem test_nop_posts : (match execNop tKey 0 ({ tBxt.fetch tNopD with rings := [(tKey, { tRing with open_ := [0], cqPages := [.dev 0x90000] })] }) with
    | .next t => (t.ring? tKey).map (·.posted)
    | _ => none) = some 1 := by decide +kernel

/-! ### Entries of the commons (R242 to R244) -/

/-- A group bound to instance 1. -/
def tBound : Group := { tActive with vf := 1 }

/-- Non-zero bytes from an address of tag 7 on, where they lie in granule 5. -/
def tCells (va : Nat) (l : List Byte) : List (Nat × Byte) := (tAt (5 * 2 ^ 30 + va) l).filter fun q => q.2 != 0

/-- A plan record of one bundle of 64 elements with one source and one destination, a scalar record whose step count is 1, a mill descriptor of
recipe 0. -/
def tPlanB : List Byte := putLE (putLE (putLE (putLE (putLE (List.replicate 256 0) 0 1 1) 1 1 1) 4 4 64) 64 8 0x40000) 128 8 0x50000
def tScalB : List Byte := putLE (List.replicate 128 0) 20 4 0x3F800000
def tDescB : List Byte := putLE (putLE (putLE (putLE (List.replicate 64 0) 3 1 1) 4 4 64) 8 8 0x60000) 40 8 0x70000

/-- The device with that group, and with a plan, a scalar record and the copy's table in memory. -/
def tCmn : State :=
  let s := tBxt.setGroup 4095 tBound
  { s with
    mem := s.mem ++ tCells 0x10000 tPlanB ++ tCells 0x20000 tScalB ++ tCells 0x30000 tDescB
    mill := { s.mill with binds := [⟨4095, 0, false, 7, 0x30000, 1, []⟩] } }
def tCollD : List Byte := tEntry 0x10 2 5 7 [(16, 8, 0x10000), (24, 8, 0x20000), (48, 4, 64), (52, 3, 0x000101), (59, 4, 0x3F800000)]
def tStepD : List Byte := tEntry 0x11 2 5 7 [(16, 8, 0x10000), (24, 8, 0x20000), (32, 4, 6), (40, 3, 0x000101), (45, 4, 0x3F800000)]
def tBindD : List Byte := tEntry 0x12 2 5 7 [(16, 8, 0x10000)]

theorem witness_commons_entries : ∀ x ∈ [(0x10, tCollD), (0x11, tStepD)],
    let s := tCmn.fetch x.2
    let u := tLeft tCmn x.2
    let h := descHdr x.2
    s.power = .run ∧ s.fetched? tKey 0 x.1 = some (tFetched x.2) ∧ s.fenceClear (tFetched x.2) = true ∧ s.groupHolds (tFetched x.2) = false ∧
      h.target < 65536 ∧ u.groupById h.target = some (4095, tBound) ∧ tBound.vf = ringVf tKey ∧ tBound.state = .active ∧
      u.tenantOk (ringVf tKey) h (needsTag x.1 (tFetched x.2) h) = true ∧ u.fencedInst (ringVf tKey) (u.rd F.PTN_INST_partition (ringVf tKey)) = false ∧
      h.cls ≠ 0 ∧ bodyZero x.1 x.2 = true ∧ u.opsOpen 4095 < 64 := by decide +kernel

theorem some_pair {α β : Type} {o : Option (α × β)} {p d : α × β} (h : o.isSome = true) (hp : p = o.getD d) : o = some (p.1, p.2) := by
  subst hp
  cases o with
  | none => cases h
  | some a => rfl

/-- The state in which an entry's operation is begun: its sequence number is taken. -/
def tTurn (d : List Byte) : State := (tLeft tCmn d).setGroup 4095 { tBound with seq := tBound.seq + 1 }

/-- The COLL as an operation, and what is reserved for it. -/
def tCollOp : COp :=
  (tTurn tCollD).copOf (tFetched tCollD) (descHdr tCollD) tBound (coll0 4095 tBound.seq tBound.seq false
    ((tTurn tCollD).chooseAlgo (cpOf tCollD).co (cpOf tCollD).algo (tBound.members.map (·.tray))) (((tTurn tCollD).chunkLogOf (descHdr tCollD)).getD 16))
def tCollKept : Coll × State := ((tTurn tCollD).reserveColl tCollOp (slotsAsked (descHdr tCollD))).getD (tColl 0, tWorld)

theorem witness_coll_admitted : (cpOf tCollD).badPlain tBound ((tTurn tCollD).chunkLogOf (descHdr tCollD)) = false ∧ (tTurn tCollD).flightFull = false ∧
    (tTurn tCollD).chunksFit tCollOp = true ∧
    (tTurn tCollD).reserveColl tCollOp (slotsAsked (descHdr tCollD)) = some (tCollKept.1, tCollKept.2) ∧
    ∃ a w, tCollKept.2.gateIn tCollOp.o.vf tCollOp.o.part tCollOp.o.cls (tCollKept.2.collCharge tCollOp) = (.ok a, w) :=
  ⟨by decide +kernel, by decide +kernel, by decide +kernel, some_pair (by decide +kernel) (by unfold tCollKept; rfl), okSome (by decide +kernel)⟩

/-- The STEP as an operation, what it reads, and what is reserved for it. -/
def tStepCop : COp :=
  (tTurn tStepD).copOf (tFetched tStepD) (descHdr tStepD) tBound (coll0 4095 (stepKey (cpOf tStepD).step) tBound.seq true
    ((tTurn tStepD).chooseAlgo 8 (cpOf tStepD).algo (tBound.members.map (·.tray))) (((tTurn tStepD).chunkLogOf (descHdr tStepD)).getD 16))
abbrev tStepRead : Except OperandRead (List (List Byte)) × State := (tTurn tStepD).readOperands tKey false [(7, 0x10000, 256), (7, 0x20000, 128)]
abbrev tTableRead : Except OperandRead (List (List Byte)) × State := tStepRead.2.readOperands tKey true [(7, 0x30000, 64)]
def tStepTables : Tbl (List MillDesc) × List Nat :=
  (tTableRead.2.stepTables tStepCop [⟨64, [0x40000], [0x50000], [0]⟩] [(0, tDescB)] tScalB).getD ([], [])
def tStepRan : COp :=
  { tStepCop with c := { tStepCop.c with
      plan := [⟨64, [0x40000], [0x50000], [0]⟩], descs := tStepTables.1, scalars := tStepTables.2, committed := 0,
      copies := (tTableRead.2.copiesHeld tBound).foldl (fun t k => Tbl.set t k (copy0 0)) [] } }
def tStepKept : Coll × State := (tTableRead.2.reserveColl tStepRan (slotsAsked (descHdr tStepD))).getD (tColl 0, tWorld)

theorem witness_step_reads : (cpOf tStepD).badStep tBound ((tTurn tStepD).chunkLogOf (descHdr tStepD)) = false ∧
    (tTurn tStepD).tablesOf tStepCop = some [(0, 7, 0x30000)] ∧
    (tTurn tStepD).readOperands tKey false [((descHdr tStepD).tag, fieldLE tStepD 16 8, 256 * (cpOf tStepD).bundles), ((descHdr tStepD).tag, fieldLE tStepD 24 8, 128)]
      = (.ok [tPlanB, tScalB], tStepRead.2) ∧
    tStepRead.2.readOperands tKey true ([(0, 7, 0x30000)].map fun q => (q.2.1, q.2.2, 64 * (cpOf tStepD).bundles)) = (.ok [tDescB], tTableRead.2) ∧
    allSome ((List.range (cpOf tStepD).bundles).map fun b => planRec (slice tPlanB (256 * b) 256)) = some [⟨64, [0x40000], [0x50000], [0]⟩] ∧
    fieldLE tStepD 16 8 % 4096 = 0 ∧ [⟨64, [0x40000], [0x50000], [0]⟩].any ((cpOf tStepD).badBundle tBound) = false ∧
    tBound.stepOk (cpOf tStepD).step (cpOf tStepD).bStart = true := by
  refine ⟨by decide +kernel, by decide +kernel, answeredOk (by decide +kernel), answeredOk (by decide +kernel), by decide +kernel, by decide +kernel,
    by decide +kernel, by decide +kernel⟩

theorem witness_step_admitted :
    tTableRead.2.stepTables tStepCop [⟨64, [0x40000], [0x50000], [0]⟩] (([(0, 7, 0x30000)].map Prod.fst).zip [tDescB]) tScalB
      = some (tStepTables.1, tStepTables.2) ∧
    tTableRead.2.flightFull = false ∧ tTableRead.2.chunksFit tStepRan = true ∧
    tTableRead.2.reserveColl tStepRan (slotsAsked (descHdr tStepD)) = some (tStepKept.1, tStepKept.2) ∧
    ∃ a w, tStepKept.2.gateIn tStepRan.o.vf tStepRan.o.part tStepRan.o.cls (tStepKept.2.collCharge tStepRan) = (.ok a, w) :=
  ⟨some_pair (by decide +kernel) (by unfold tStepTables; rfl), by decide +kernel, by decide +kernel, some_pair (by decide +kernel) (by unfold tStepKept; rfl), okSome (by decide +kernel)⟩

theorem witness_mill_bind :
    let u := tLeft tCmn tBindD
    let h := descHdr tBindD
    (tCmn.fetch tBindD).Entry tKey 0 0x12 (tFetched tBindD) u ∧ h.target < 65536 ∧ u.groupById h.target = some (4095, tBound) ∧
      u.tenantOk (ringVf tKey) h true = true ∧ u.holdsCopy tBound (fieldLE tBindD 24 2) (bitAt (fieldLE tBindD 28 1) 0) = true ∧
      (u.cmn.colls.any fun c => c.slot == 4095 && c.isStep) = false :=
  tEntryAnd (by decide +kernel)

/-! ### Connection entries (R211, R245) -/

/-- Entries for connection 101, which does not exist, and 100. -/
def tConnD (op c : Nat) : List Byte := tEntry op 2 c 7 [(32, 4, 9), (36, 4, 2), (56, 2, 0xFFFF)]

theorem witness_conn_create :
    let d := tConnD 0x20 101
    let u := tLeft tBxt d
    let b := connBody d
    (tBxt.fetch d).Entry tKey 0 0x20 (tFetched d) u ∧ (descHdr d).cls ≠ 7 ∧ b.inRange (u.rd F.BXT_CFG_roce_enable == 1) = true ∧
      u.bodyOwned (ringVf tKey) 101 b = true ∧ u.conn? 101 = none ∧ mgtConnId 101 = false ∧ u.mayBack (ringVf tKey) (u.rd F.PTN_INST_partition (ringVf tKey)) = true ∧
      b.pin = false ∧ b.roce = false ∧ u.inj = none :=
  tEntryAnd (by decide +kernel)

theorem witness_conn_modify :
    let d := tConnD 0x21 100
    let u := tLeft tBxt d
    let b := connBody d
    (tBxt.fetch d).Entry tKey 0 0x21 (tFetched d) u ∧ b.inRange (u.rd F.BXT_CFG_roce_enable == 1) = true ∧ mgtConnId 100 = false ∧
      u.ownConn (ringVf tKey) 100 = some tTenant ∧ u.bodyOwned (ringVf tKey) 100 b = true ∧ b.pin = tTenant.pin ∧ b.epoch = tTenant.epoch :=
  tEntryAnd (by decide +kernel)

/-- The bodies of a CONN_CLOSE and the states that it meets. -/
def tCloseD : List Byte := tEntry 0x22 2 100 0 []

theorem witness_conn_close : ∀ st ∈ [ConnState.open_, .armed, .error],
    let s := tWorld.withConn 100 { tTenant with state := st }
    (s.fetch tCloseD).Entry tKey 0 0x22 (tFetched tCloseD) (tLeft s tCloseD) ∧ (tLeft s tCloseD).ownConn (ringVf tKey) 100 = some { tTenant with state := st } := by
  intro st hst
  have h : ∀ st ∈ [ConnState.open_, .armed, .error],
      entryB ((tWorld.withConn 100 { tTenant with state := st }).fetch tCloseD) tKey 0 0x22 (tFetched tCloseD) = true ∧
      (tLeft (tWorld.withConn 100 { tTenant with state := st }) tCloseD).ownConn (ringVf tKey) 100 = some { tTenant with state := st } := by decide +kernel
  exact ⟨tEntryOf (h st hst).1, (h st hst).2⟩

/-! ### Translation entries (R337, R344, R345, R349) -/

/-- The device with room for tags; entries of translation. -/
def tXlt : State := tWorld.wr F.XLT_PTN_CFG_tag_limit 100 0
def tAsCreateD : List Byte := tEntry 0x50 2 0 0 [(16, 8, 0x8000), (24, 1, 2)]
def tAsDestroyD : List Byte := tEntry 0x51 2 0 7 []
def tInvalidateD : List Byte := tEntry 0x52 2 0 7 [(16, 1, 1)]
def tResolveD : List Byte := tEntry 0x53 2 0 7 [(16, 8, 0x10000), (24, 8, 4096)]
def tFqBindD : List Byte := tEntry 0x54 2 0 7 [(16, 8, 0x100000), (24, 8, 0x200000), (32, 2, 7), (34, 2, 5)]
def tQueueAckD : List Byte := tEntry 0x55 2 0 7 [(16, 4, 1), (20, 4, 0)]

theorem witness_as_create :
    let u := tLeft tXlt tAsCreateD
    (tXlt.fetch tAsCreateD).Entry tKey 0 0x50 (tFetched tAsCreateD) u ∧ (descHdr tAsCreateD).cls ≠ 7 ∧ fieldLE tAsCreateD 24 1 < 4 ∧
      zeroBytes tAsCreateD 25 38 = true ∧ (descHdr tAsCreateD).tag = 0 ∧ fieldLE tAsCreateD 16 8 % 4096 = 0 ∧
      fieldLE tAsCreateD 16 8 + 4096 ≤ u.shareBytes (u.rd F.PTN_INST_partition 1) (b2n (bitAt (fieldLE tAsCreateD 24 1) 0)) ∧ u.freeTags ≠ [] ∧
      u.rd F.XLT_PTN_CFG_tags_held (u.rd F.PTN_INST_partition 1) < u.rd F.XLT_PTN_CFG_tag_limit (u.rd F.PTN_INST_partition 1) ∧
      u.rd F.PTN_INST_partition 1 < 64 := by
  refine ⟨tEntryOf ?_, ?_, ?_, ?_, ?_, ?_, ?_, List.ne_nil_of_mem (a := 5) (List.mem_filter.mpr ⟨List.mem_range.mpr ?_, ?_⟩), ?_, ?_⟩ <;> decide +kernel

theorem witness_as_destroy : (tXlt.fetch tAsDestroyD).Entry tKey 0 0x51 (tFetched tAsDestroyD) (tLeft tXlt tAsDestroyD) ∧ zeroBytes tAsDestroyD 16 47 = true ∧
    (tLeft tXlt tAsDestroyD).ownsTag 1 7 = true ∧ (tLeft tXlt tAsDestroyD).tagNamed 7 = false :=
  ⟨tEntryOf (by decide +kernel), by decide +kernel, by decide +kernel, by decide +kernel⟩

theorem witness_invalidate : (tXlt.fetch tInvalidateD).Entry tKey 0 0x52 (tFetched tInvalidateD) (tLeft tXlt tInvalidateD) ∧ fieldLE tInvalidateD 16 1 < 2 ∧
    zeroBytes tInvalidateD 17 46 = true ∧ (tLeft tXlt tInvalidateD).ownsTag 1 7 = true ∧
    (tLeft tXlt tInvalidateD).rd F.XLT_PTN_CFG_inval_open ((tLeft tXlt tInvalidateD).rd F.PTN_INST_partition 1) < 64 :=
  ⟨tEntryOf (by decide +kernel), by decide +kernel, by decide +kernel, by decide +kernel, by decide +kernel⟩

theorem witness_invalidate_drained :
    let s : State := { tXlt with xlt := { tXlt.xlt with invals := [⟨7, 0, true, true, false⟩] } }
    s.power = .run ∧ s.xlt.invals.find? (fun i => i.tag == 7 && i.started) = some ⟨7, 0, true, true, false⟩ ∧ s.oldInUse 7 = 0 ∧ s.xlt.holds = [] := by
  decide +kernel

theorem witness_resolve : (tXlt.fetch tResolveD).Entry tKey 0 0x53 (tFetched tResolveD) (tLeft tXlt tResolveD) ∧ zeroBytes tResolveD 32 31 = true ∧
    (tLeft tXlt tResolveD).ownsTag 1 7 = true ∧ (tLeft tXlt tResolveD).xlt.holds = [] :=
  ⟨tEntryOf (by decide +kernel), by decide +kernel, by decide +kernel, by decide +kernel⟩

theorem pinSome {s : State} {vf part tag base bytes : Nat} {acc : AccKind} (h : (s.pinRange vf part tag base bytes acc).1.isSome = true) :
    ∃ a v, s.pinRange vf part tag base bytes acc = (some a, v) := by
  obtain ⟨a, ha⟩ := Option.isSome_iff_exists.mp h
  exact ⟨a, _, answered ha⟩

theorem witness_fq_bind :
    let u := tLeft tXlt tFqBindD
    let p := u.rd F.PTN_INST_partition 1
    (tXlt.fetch tFqBindD).Entry tKey 0 0x54 (tFetched tFqBindD) u ∧ fieldLE tFqBindD 16 8 % 4096 = 0 ∧ fieldLE tFqBindD 24 8 % 4096 = 0 ∧
      fieldLE tFqBindD 32 2 < 4096 ∧ fieldLE tFqBindD 34 2 < 2048 ∧ zeroBytes tFqBindD 36 27 = true ∧ u.ownsTag 1 7 = true ∧
      u.rd F.XLT_PTN_CFG_q_bound p = 0 ∧ (∃ a v, u.pinRange 1 p 7 0x100000 (2 ^ 17) .write = (some a, v)) ∧
      (∃ b w, (u.pinRange 1 p 7 0x100000 (2 ^ 17) .write).2.pinRange 1 p 7 0x200000 (2 ^ 17) .write = (some b, w)) :=
  by refine ⟨tEntryOf ?_, ?_, ?_, ?_, ?_, ?_, ?_, ?_, pinSome ?_, pinSome ?_⟩ <;> decide +kernel

/-- The queues of partition 0, with one fault record posted. -/
def tQueues : XQueues := ⟨1, 7, 0x100000, 0x200000, 5, 1, 0, 0, 0, List.replicate 32 (.dev 0x100000), List.replicate 32 (.dev 0x200000)⟩
def tQueued : State := { tXlt with xlt := { tXlt.xlt with queues := [(0, tQueues)] } }

theorem witness_queue_ack : (tQueued.fetch tQueueAckD).Entry tKey 0 0x55 (tFetched tQueueAckD) (tLeft tQueued tQueueAckD) ∧ zeroBytes tQueueAckD 24 39 = true ∧
    (tLeft tQueued tQueueAckD).ownsTag 1 7 = true ∧
    Tbl.get? (tLeft tQueued tQueueAckD).xlt.queues ((tLeft tQueued tQueueAckD).rd F.PTN_INST_partition 1) = some tQueues ∧ tQueues.vf = 1 ∧
    ackHead tQueues.fqPosted tQueues.fqHead (fieldLE tQueueAckD 16 4) = some 1 ∧ ackHead tQueues.eqPosted tQueues.eqHead (fieldLE tQueueAckD 20 4) = some 0 :=
  tEntryAnd (by decide +kernel)

/-! ### The timers of translation -/

/-- A walk that goes on for operation 3; a transfer of operation 0 that is held; a record that waits. -/
def tWalking : Hold := ⟨7, 0x10000, .write, false, .op 0, 0, some 3⟩
def tHolding : Hold := ⟨7, 0x10000, .write, false, .op 0, 0, none⟩
def tRec : XRec := ⟨0, false, 0x10000, 7, 1, .read, false, false, 3, 1, 0, 0, 0, 0⟩

theorem witness_translation_timers :
    let s : State := { tQueued with xlt := { tQueued.xlt with holds := [tWalking, tHolding], batch := [tRec] } }
    s.xlt.holds[0]? = some tWalking ∧ tWalking.retry = some 3 ∧ s.xlt.holds[1]? = some tHolding ∧ tHolding.remote = false ∧ tHolding.who = .op 0 ∧
      tHolding.retry = none ∧ (s.xlt.batch.filter fun r => r.part == 0) = [tRec] ∧ Tbl.get? s.xlt.queues 0 = some tQueues := by decide +kernel

/-- The data of a READ that waits for its page. -/
theorem witness_read_data_held :
    let h : Hold := ⟨7, 0x20000, .write, false, .packet tReadResp, 0, none⟩
    let s : State := { tReads with xlt := { tReads.xlt with holds := [h] } }
    s.xlt.holds[0]? = some h ∧ h.remote = false ∧ h.who = .packet tReadResp ∧ tReadResp.ext = .readResp 4 ∧ s.conn? tReadResp.dstConn = some tReading ∧
      tReading.reads.find? (fun r => r.psn == 4) = some ⟨4, 0, 0, 0x20000, 0x30000, tRkey, 8, []⟩ := by decide +kernel

theorem witness_deadline : tBxt.op? 0 = some tRecvOp ∧ tRecvOp.deadline.isSome = true ∧ tRecvOp.opcode ≠ 0x10 ∧ tRecvOp.opcode ≠ 0x11 ∧
    tRecvOp.phase ≠ .flushing ∧
    State.op? { tBxt with ops := [(0, { tRecvOp with phase := .flushing })] } 0 = some { tRecvOp with phase := .flushing } := by decide +kernel

/-! ### Grants and meters -/

theorem witness_grants : tBxt.manages false = true ∧ tBxt.inj = none ∧ Tbl.get? tBxt.adm.grants (100 * 8 + 2) = some (100000, 100, 1000000) ∧
    tBxt.rd F.POL_METER_RATE_cir_mbps ≤ tBxt.rd F.POL_METER_RATE_pir_mbps ∧
    (tBxt.wr F.POL_METER_RATE_cir_mbps (tBxt.rd F.POL_METER_RATE_pir_mbps + 1)).rd F.POL_METER_RATE_pir_mbps <
      (tBxt.wr F.POL_METER_RATE_cir_mbps (tBxt.rd F.POL_METER_RATE_pir_mbps + 1)).rd F.POL_METER_RATE_cir_mbps := by decide +kernel

theorem test_grant_expires : (match execGrantExpiry 100 2 tBxt with
    | .next t => Tbl.get? t.adm.grants (100 * 8 + 2)
    | _ => none) = some (0, 0, 1000000) := by decide +kernel

/-! ### Frames (R286, R287, R299, R304) -/

/-- A frame with a packet for this device, of a right length, of a short one, of a long one. -/
def tFramed : State := tBxt.wr F.HOP_IP6_lo_ip6 5
def tBxtFrame : Frame := { tFrame with len := 200, body := .bxt tWrite, proto := 17, dstIp := 5, dport := tBxt.rd F.BXT_CFG_udp_port }
def tShim (kind hsn : Nat) : Shim := ⟨0x88B6, kind, false, 0, hsn, 0, if kind = 0 then 0x86DD else 0⟩

/-- Hop replay runs on port 0, which expects frame 0. -/
def tHop : State := tFramed.wr F.PRT_LP_replay_on 1

theorem witness_frames : tFramed.rd F.RST_STATUS_retired = 0 ∧ (tFramed.rxFrame 0 tBxtFrame).1.isSome = true ∧
    (tHop.rxFrame 0 { tBxtFrame with shim := some (tShim 0 0) }).1.isSome = true ∧ tFramed.portUp 0 = true ∧ tFramed.inj = none ∧ tBxtFrame.fecBad = 0 ∧
    64 ≤ tBxtFrame.len ∧ tBxtFrame.len ≤ tFramed.rd F.PRT_LP_max_frame 0 ∧ tFramed.rd F.PRT_LP_max_frame 0 < 65535 := by decide +kernel

theorem witness_hop_frames : tHop.portUp 0 = true ∧ tHop.inj = none ∧ tBxtFrame.fcsOk = true ∧ tBxtFrame.body = .bxt tWrite ∧
    shimOk (tShim 5 0) = true ∧ (tShim 5 0).ackValid = false ∧ tHop.rd F.PRT_LP_replay_on 0 = 1 ∧ (tShim 5 0).hsn = (tHop.lport 0).rxHsn ∧
    (tHop.lport 0).toAck < 63 ∧ shimOk (tShim 0 4) = true ∧ shimOk (tShim 5 4) = true ∧ (tShim 0 4).hsn ≠ (tHop.lport 0).rxHsn ∧ (tHop.lport 0).nak = none := by
  decide +kernel

theorem witness_frames_retired : ((tFramed.wr F.RST_STATUS_retired 1).portCarries { tFrame with body := .roce (tRoceP .cnp 0) }) = false ∧
    tFramed.portCarries tBxtFrame = true ∧ tFramed.portCarries { tBxtFrame with shim := some (tShim 0 0) } = true ∧
    ((tFramed.wr F.RST_STATUS_retired 1).portCarries { tFrame with body := .roce (tRoceP .cnp 0), shim := some (tShim 0 0) }) = false := by decide +kernel

/-- A transit frame that waits at port 0. -/
def tTransit : Queued := ⟨0, 2, 0, 0, 200, tWrite, true, none, false, none, 0, none, none, none, 0⟩

theorem witness_transit : ({ tBxt with egress := [tTransit] } : State).egress[0]? = some tTransit ∧ tTransit.transit = true := ⟨rfl, rfl⟩

/-! ### Port states (R284, R290, R291) -/

/-- Port 0 in each state, with its lane 0 in its loopback test where one is wanted. -/
def tPort (st : Nat) (testing : Option Nat) : State :=
  let s := tWorld.wrs [(F.PRT_LP_state, 0, st), (F.PRT_PORT_STATE_spare_lane, 0, 15)]
  { s with lports := [(0, { s.lport 0 with testing := testing })] }

theorem witness_ports : (tPort lpDisabled none).manages false = true ∧ (tPort lpTraining none).portServed 0 = true ∧
    ((tPort lpTraining none).wr F.PRT_PORT_STATE_retired 511).portServed 0 = false ∧ (tPort lpTraining none).lay.running.isSome = true ∧
    (tPort lpDisabled none).lportExists 0 = true ∧ (tPort lpDisabled none).rd F.PRT_LP_state = lpDisabled ∧
    (tPort lpTraining none).rd F.PRT_LP_state = lpTraining ∧ (tPort lpTraining none).rd F.PRT_LP_state ≠ lpDisabled ∧
    ((tPort lpTraining none).lport 0).waiting = false ∧ ((tPort lpTraining none).wr F.PRT_LP_lldp 0).rd F.PRT_LP_lldp = 0 ∧
    (tPort lpTraining none).rd F.PRT_LP_lldp = 1 ∧ (tPort lpTraining none).replayRoom 0 56 = true ∧
    (tPort lpUp none).portUp 0 = true ∧ (tPort lpDown none).rd F.PRT_LP_state = lpDown ∧ ((tPort lpDown none).lport 0).testing = none := by decide +kernel

theorem witness_lanes : (tPort lpUp none).laneOwner 0 0 = 0 ∧ ((tPort lpDown (some 0)).lport 0).testing = some 0 ∧
    (tPort lpDown (some 0)).rd F.PRT_LP_state = lpDown ∧ (tPort lpDown (some 0)).rd F.PRT_PORT_STATE_spare_lane = 15 ∧
    (tPort lpDown (some 0)).built.defects.contains (0, 9 * 0 + (tPort lpDown (some 0)).serdesOf 0 8) = false ∧
    (setBit ((tPort lpDown (some 0)).rd F.PRT_PORT_STATE_retired) ((tPort lpDown (some 0)).serdesOf 0 0)).testBit ((tPort lpDown (some 0)).serdesOf 0 8) = false ∧
    setBit ((tPort lpDown (some 0)).rd F.PRT_PORT_STATE_retired) ((tPort lpDown (some 0)).serdesOf 0 0) < 2 ^ F.PRT_PORT_STATE_retired.width := by decide +kernel

/-! ### Pauses and neighbours (R293 to R295) -/

/-- Hop replay runs on port 0 and its buffer has no room: what it holds is as many bytes as the share of one port. -/
def tHopFull : State :=
  let s := tWorld.wr F.PRT_LP_replay_on 1
  { s with lports := [(0, { s.lport 0 with unacked := [{ hsn := 3, frame := some { tTransit with len := 2 ^ 21 } }] })] }

theorem witness_pause : tWorld.portUp 0 = true ∧ tWorld.pfcClass 0 = true ∧ 0 < [7, 0, 0, 0, 0, 0, 0, 0].getD 0 0 ∧
    (tWorld.lport 0).deaf.contains 0 = false ∧ [0, 0, 0, 0, 0, 0, 0, 0].getD 0 0 = 0 ∧ tWorld.pfcClass 1 = false ∧ tWorld.rd F.PRT_PFC_xoff_kib 0 < 1000000 ∧
    (tWorld.lport 0).xoff.contains 0 = false ∧ ((List.range 8).filter fun i => (3 : Nat).testBit i).any tWorld.pfcClass = true ∧
    ((tWorld.modLport 0 fun l => { l with xoff := [0] }).lport 0).xoff.contains 0 = true ∧ tWorld.rd F.PRT_PFC_xon_kib 0 < 1000000 ∧
    0 ≤ tWorld.rd F.PRT_PFC_xon_kib 0 ∧ 0 ≤ tWorld.rd F.PRT_PFC_xoff_kib 0 ∧
    (let s : State := { tWorld with lports := [(0, { tWorld.lport 0 with paused := [(0, (9, 3))] })] }
     Tbl.get? (s.lport 0).paused 0 = some (9, 3)) ∧
    (tWorld.wr F.PRT_LP_lldp 1).rd F.PRT_LP_lldp = 1 ∧ (⟨0xA, 0, 4, some ⟨0x9080, 1, 2, 3, false⟩⟩ : Lldp).rymus = some ⟨0x9080, 1, 2, 3, false⟩ ∧
    tWorld.replayRoom 0 56 = true ∧ (tHopFull.wr F.PRT_LP_lldp 1).rd F.PRT_LP_lldp = 1 ∧ (tHopFull.wr F.PRT_LP_lldp 1).portUp 0 = true ∧
    (tHopFull.wr F.PRT_LP_lldp 1).replayRoom 0 56 = false ∧
    tWorld.rd F.PRT_LP_nh_mac = 0 := by decide +kernel

/-! ### Routes and weather (R300, R305, R306, R309) -/

/-- A session of management connection 0, which is OPEN; a route and a weather entry for device 3. -/
def tRoutes : State :=
  let s : State := { tWorld with routes := [(3, 1)], wx := [(3, (5, 0))], mgt := { tWorld.mgt with session := some ⟨some 0, 0, 0, 0, []⟩ } }
  (s.wrs [(F.HOP_ROUTE_DST_dst, 0, 3), (F.HOP_ROUTE_MASK_mask, 0, 3)]).withConn mgtConnBase (tConn 1)

theorem witness_routes : tRoutes.manages false = true ∧ tRoutes.connHolds 0 = true ∧ tRoutes.rd F.HOP_ROUTE_DST_dst ≠ tRoutes.devAddr ∧ tRoutes.routeMaskOk (tRoutes.rd F.HOP_ROUTE_MASK_mask) = true ∧
    tRoutes.routes.length < 65536 ∧ (tRoutes.wr F.HOP_ROUTE_DST_dst 1).rd F.HOP_ROUTE_DST_dst = (tRoutes.wr F.HOP_ROUTE_DST_dst 1).devAddr ∧
    Tbl.get? tRoutes.routes (tRoutes.rd F.HOP_ROUTE_DST_dst) = some 1 ∧ tRoutes.mgt.session = some ⟨some 0, 0, 0, 0, []⟩ ∧ tRoutes.mgtOpen 0 = true ∧
    (List.replicate 16 (0 : Byte)).length = 16 ∧ fieldLE (List.replicate 16 0) 4 4 = 0 ∧ Tbl.get? tRoutes.wx 3 = some (5, 0) := by decide +kernel

theorem test_route_write : (match execRouteWrite tRoutes with
    | .next t => Tbl.get? t.routes 3
    | _ => none) = some 3 := by decide +kernel

/-! ### Hop replay (R302, R304) -/

/-- A neighbour that replays, and frames sent to it that it has not acknowledged, replayed so often. -/
def tHopSent (hsn n : Nat) : HopSent := { hsn := hsn, frame := none, replays := n }
def tReplays (n : Nat) : State :=
  let s := tWorld.wrs [(F.PRT_LP_hop_replay, 0, 1), (F.PRT_LP_replay_on, 0, 1)]
  { s with lports := [(0, { s.lport 0 with nbr := true, nbrReplay := true, unacked := [tHopSent 3 n, tHopSent 4 n], toAck := 2 })] }

theorem witness_hop_replay : (tReplays 0).lportExists 0 = true ∧ (tReplays 0).replayOk 0 = true ∧
    ((tReplays 0).wr F.PRT_LP_replay_on 0).replayOk 0 = true ∧ ((tReplays 0).wr F.PRT_LP_replay_on 0).rd F.PRT_LP_replay_on = 0 ∧
    (tReplays 0).rd F.PRT_LP_replay_on = 1 ∧
    (let u := (tReplays 0).hopAck 0 ((4 + 4095) % 4096)
     let left := (u.lport 0).unacked.filter fun x => !(hsnUpTo x.hsn 4 && x.hsn != 4)
     left ≠ [] ∧ (left.any fun x => decide (8 ≤ x.replays)) = false) ∧
    ((tReplays 7).lport 0).unacked = [tHopSent 3 7, tHopSent 4 7] ∧ (∀ y ∈ [tHopSent 3 7, tHopSent 4 7], y.replays < 8) ∧
    (∀ y ∈ [tHopSent 4 7], (hsnUpTo y.hsn 3 && y.hsn != 3) = false) ∧ ((tReplays 8).lport 0).unacked = [tHopSent 3 8, tHopSent 4 8] ∧
    8 ≤ (tHopSent 3 8).replays ∧ (tReplays 8).portUp 0 = true ∧ 0 < ((tReplays 0).lport 0).toAck := by decide +kernel

/-! ### Host links, requests and attachment -/

theorem witness_host_links : tWorld.linkFits 1 7 4 = true ∧ tWorld.linkUp 1 = false ∧ tWorld.linkFits 0 6 4 = true ∧ tWorld.linkUp 0 = true ∧
    (let s := tWorld.wr F.HPT_LINK_state 2 1
     s.linkExists 1 = true ∧ s.isRoot 1 = false ∧ s.linkUp 1 = true ∧ s.attachedTo 1 = [] ∧ s.hpt.reads = [] ∧ s.hpt.posted = [] ∧ s.hpt.flushes = []) ∧
    tWorld.linkExists 0 = true ∧ tWorld.onLink 0 1 = true ∧ Tbl.get? (tWorld.inst 1).msix 3 = some ⟨64, 77, true, 0⟩ ∧
    (tWorld.inst 1).pba.contains 3 = true ∧ (tWorld.inst 1).msixOn = true := by decide +kernel

/-- Lane 0 of host port 0 fails, and the port's spare takes its place; the spare has failed too, and nothing does. -/
theorem witness_host_lanes :
    (let u := ([0].filter (· < 17)).foldl (fun (v : State) k => v.hostLaneFails (0 / 4) k) tWorld
     ([16, 8, 4].find? fun w => decide (w ≤ 4) && u.lanesFor 0 w) = some 4) ∧
    (let u := ([0, 16].filter (· < 17)).foldl (fun (v : State) k => v.hostLaneFails (0 / 4) k) tWorld
     ([16, 8, 4].find? fun w => decide (w ≤ 4) && u.lanesFor 0 w) = none) := by decide +kernel

/-- An instance whose function a link's host has configured and left, and one that another link's host has. -/
theorem witness_vf_flr : (tWorld.bump F.HPT_FLR 1 0 |>.detachAlone 1).configuredBy 0 1 = true ∧
    (∀ x ∈ [(0, true), (1, false)], let s := tWorld.wrs [(F.HPT_INST_STATE_state, 1, attDetached), (F.HPT_INST_STATE_link, 1, 0)]
     s.linkExists x.1 = true ∧ s.onLink x.1 1 = false ∧ s.configuredBy x.1 1 = x.2) := by decide +kernel

theorem test_msix_unmask : (match execMsixUnmask 0 1 3 tWorld with
    | .next t => t.outbox
    | _ => []) = [.msix 0 64 77] := by decide +kernel

/-- A host read of operation 0 outstanding; an aperture of instance 1; a request from below root link 12. -/
def tHosts : State :=
  let s := tBxt.wrs [(F.HPT_APERTURE_ap_enable, 1, 1), (F.HPT_APERTURE_ap_tag, 1, 7), (F.HPT_LINK_state, 12, 2), (F.HPT_RP_RID_valid, 384, 1),
    (F.HPT_RP_RID_rid, 384, 5), (F.HPT_RP_RID_vf, 384, 1), (F.HPT_RP_RID_tag, 384, 7)]
  { s with hpt := { s.hpt with reads := [⟨0, 64, 4, 7, 0, 1, .op 0, true, false⟩, ⟨0, 64, 4, 7, 0, 1, .op 0, false, false⟩], flushes := [⟨0, 64, .op 0, 3, true⟩] } }

theorem witness_host_requests : tHosts.inj = none ∧ tHosts.hpt.reads[0]? = some ⟨0, 64, 4, 7, 0, 1, .op 0, true, false⟩ ∧
    tHosts.hpt.reads[1]? = some ⟨0, 64, 4, 7, 0, 1, .op 0, false, false⟩ ∧ tHosts.hpt.flushes[0]? = some ⟨0, 64, .op 0, 3, true⟩ ∧
    tHosts.linkUp 0 = true ∧ (tHosts.wr F.HPT_LINK_state 1 0).linkUp 0 = false ∧ tHosts.aperture 0 1 0x10000 = some 0x10000 ∧
    tWorld.aperture 0 1 0x10000 = none ∧ tHosts.isRoot 12 = true ∧ tHosts.linkUp 12 = true ∧ tHosts.ridEntry 12 5 = some (1, 7) ∧
    tHosts.fencedInst 1 ((tHosts.partOf 1).getD 64) = false ∧ tHosts.ridEntry 12 6 = none := by decide +kernel

theorem witness_aperture : ∃ u v w, tHosts.lookupRange ((tHosts.partOf 1).getD 64) 1 (tHosts.rd F.HPT_APERTURE_ap_tag 1) 0x10000 4 .read =
      (.ok [(.dev (5 * 2 ^ 30 + 0x10000), 4)], u) ∧
    u.badFor ((tHosts.partOf 1).getD 64) none [(.dev (5 * 2 ^ 30 + 0x10000), 4)] = (false, v) ∧ hostLocs [(.dev (5 * 2 ^ 30 + 0x10000), 4)] = [] ∧
    tHosts.lookupRange ((tHosts.partOf 1).getD 64) 1 (tHosts.rd F.HPT_APERTURE_ap_tag 1) 0x10000 4 .write = (.ok [(.dev (5 * 2 ^ 30 + 0x10000), 4)], w) := by
  refine ⟨_, _, _, answeredOk ?_, answered ?_, ?_, answeredOk ?_⟩ <;> decide +kernel

/-- The same where the aperture's tag maps host memory, where it maps nothing, and where what it maps is poisoned. -/
def tHostsHost : State := { tHosts with mem := tHostMem.mem }
def tHostsBad : State := { tHosts with tier := { tHosts.tier with poison := [5 * 2 ^ 30 + 0x10000] } }

theorem witness_aperture_ends :
    (∃ u v, tHostsHost.lookupRange ((tHosts.partOf 1).getD 64) 1 (tHosts.rd F.HPT_APERTURE_ap_tag 1) 0x10000 4 .read = (.ok [(.host 0 0x10000, 4)], u) ∧
      u.badFor ((tHosts.partOf 1).getD 64) none [(.host 0 0x10000, 4)] = (false, v)) ∧ hostLocs [(.host 0 0x10000, 4)] ≠ [] ∧
    (∃ u v, tHostsBad.lookupRange ((tHosts.partOf 1).getD 64) 1 (tHosts.rd F.HPT_APERTURE_ap_tag 1) 0x10000 4 .read = (.ok [(.dev (5 * 2 ^ 30 + 0x10000), 4)], u) ∧
      u.badFor ((tHosts.partOf 1).getD 64) none [(.dev (5 * 2 ^ 30 + 0x10000), 4)] = (true, v)) ∧
    tHostsHost.aperture 0 1 0x10000 = some 0x10000 ∧ tHostsBad.aperture 0 1 0x10000 = some 0x10000 := by
  refine ⟨⟨_, _, answeredOk ?_, answered ?_⟩, ?_, ⟨_, _, answeredOk ?_, answered ?_⟩, ?_, ?_⟩ <;> decide +kernel

theorem witness_aperture_fails : ∀ acc ∈ [AccKind.read, .write], ∃ x u,
    State.lookupRange { tHosts with mem := [] } ((tHosts.partOf 1).getD 64) 1 (tHosts.rd F.HPT_APERTURE_ap_tag 1) 0x10000 4 acc = (.error x, u) := by
  have h : ∀ acc ∈ [AccKind.read, .write], (okOf (State.lookupRange { tHosts with mem := [] } ((tHosts.partOf 1).getD 64) 1
    (tHosts.rd F.HPT_APERTURE_ap_tag 1) 0x10000 4 acc).1).isNone = true := by decide +kernel
  exact fun acc hacc => errSome (h acc hacc)

/-- Instance 1 in each state of attachment, a token offered. -/
def tAttach (st token : Nat) : State := tWorld.wrs [(F.HPT_INST_STATE_state, 1, st), (F.HPT_ATTACH_TOKEN_token, 1, token), (F.PTN_TOKEN_SEL_vf, 0, 1)]

theorem witness_attach : tWorld.manages false = true ∧ (∀ st ∈ [attNew, attDetached], (tAttach st 9).linkUp 0 = true ∧ (tAttach st 9).barAnswers 0 1 = true ∧
      (tAttach st 9).rd F.PTN_INST_state 1 ≠ instAbsent ∧ ((tAttach st 9).inst 1).locked = false ∧ (tAttach st 9).portAllowed 0 1 = true ∧
      (tAttach st 9).rd F.HPT_ATTACH_TOKEN_token 1 = ((tAttach st 9).inst 1).token.toNat ∧ (tAttach st 9).rd F.HPT_INST_STATE_state 1 ≠ attAttached ∧
      (tAttach st 9).rd F.HPT_INST_STATE_state 1 ≠ attPaused ∧ (tAttach st 8).rd F.HPT_ATTACH_TOKEN_token 1 ≠ ((tAttach st 8).inst 1).token.toNat) ∧
    (∀ st ∈ [attAttached, attPaused], (tAttach st 9).rd F.HPT_INST_STATE_state 1 = st ∧ (tAttach st 9).rd F.HPT_INST_STATE_link 1 = 0 ∧
      (tAttach st 9).onLink 0 1 = true ∧ (tAttach st 9).rd F.PTN_TOKEN_SEL_vf = 1 ∧
      Tbl.get? (tAttach st 9).insts 1 = some ((tAttach st 9).inst 1)) := by decide +kernel

theorem test_attach_refused : (match execAttach 0 1 (tAttach attNew 8) with
    | .next t => (t.rd F.HPT_ATTACH_STATUS_reason 1, t.rd F.HPT_INST_STATE_state 1)
    | _ => (0, 9)) = (1, 0) := by decide +kernel

/-! ### Memory tiers -/

/-- Larder bank 4 in FAILING, being retired; bank 5 RETIRED, being mapped to spare 2; a granule that is zeroed for partition 0. -/
def tBanks : State :=
  let s := tWorld.wrs [(F.LRD_BANK_state, 4, 2), (F.LRD_BANK_state, 5, 3)]
  { s with tier := { s.tier with retiring := [4], zeroing := [(9, 0)] } }

theorem witness_tiers : tBanks.manages false = true ∧ bitAt (tBanks.rd F.HBM_STACK_in_service (127 / 32)) (127 % 32) = true ∧ tBanks.tier.fenced.contains 127 = false ∧
    tBanks.rd F.DDR_CH_state 7 = 1 ∧ tBanks.inj = none ∧ tBanks.tier.flaws = [] ∧ (tBanks.tier.poison.filter fun w => tierOf w == 0 && decide (w < ctlBase)) = [] ∧ tBanks.tier.poison = [] ∧
    tBanks.rd F.LRD_BANK_state 0 < 2 ∧ tBanks.tier.retiring.contains 4 = true ∧ tBanks.poolReserved ≤ tBanks.rd F.TAL_POOL_pool_max ∧
    tBanks.rd F.LRD_SPARE_MAP_go = 0 ∧ tBanks.rd F.LRD_BANK_state 5 ≠ 0 ∧ tBanks.rd F.LRD_BANK_state 5 ≠ 4 ∧ bitAt (tBanks.rd F.LRD_SPARE_STATE_free) 2 = true ∧
    (let s : State := { tBanks with tier := { tBanks.tier with mapping := some (5, 2) } }
     s.tier.mapping = some (5, 2) ∧ bitAt (s.rd F.LRD_SPARE_STATE_free) 2 = true) ∧
    tBanks.tier.zeroing.find? (fun z => z.1 == 0 * 4096 + 9) = some (0 * 4096 + 9, 0) ∧ 33 < unitsOf 0 ∧ Tbl.getD tBanks.tier.resends 8 0 < 2 ∧
    (let s : State := { tBanks with tier := { tBanks.tier with resends := [(8, 2)], kept := [(8, tData)] } }
     2 ≤ Tbl.getD s.tier.resends 8 0 ∧ Tbl.get? s.tier.kept 8 = some tData) := by
  decide +kernel

theorem test_lane_repair : (match execHbmLaneRepair 127 false tBanks with
    | .next t => t.tier.fenced
    | _ => []) = [127] := by decide +kernel

/-! ### Instance and partition entries (R377 to R390) -/

/-- An entry of the control ring, a state that has fetched it, and the same without it. -/
def tCtlFetched (d : List Byte) : Fetched := ⟨ctlKey, 0, d, []⟩
def State.fetchCtl (s : State) (d : List Byte) : State := { s with fetched := [tCtlFetched d] }
abbrev tCtlLeft (s : State) (d : List Byte) : State := (s.fetchCtl d).unfetch (tCtlFetched d)

theorem tCtlEntryOf {s : State} {d : List Byte} {n : Nat} (h : entryB (s.fetchCtl d) ctlKey 0 n (tCtlFetched d) = true) :
    (s.fetchCtl d).Entry ctlKey 0 n (tCtlFetched d) (tCtlLeft s d) := entry_of h

/-- Entries of an opcode on an instance or a partition, with an allowance body where one is wanted; instance 1 in a state. -/
def tManage (op target : Nat) : List Byte := tEntry op 7 target 0 []
def tAllowD (op target : Nat) : List Byte := tEntry op 7 target 0 [(16, 2, 4), (20, 4, 4), (42, 1, 7)]
def tInst (st : Nat) : State := tBxt.wr F.PTN_INST_state st 1

/-- Whether an instance entry reaches its meaning. -/
def manageB (s : State) (d : List Byte) (op : Nat) (fields create : Bool) (host : PartDef → Bool) : Bool :=
  entryB (s.fetchCtl d) ctlKey 0 op (tCtlFetched d) && decide (okOf ((tCtlLeft s d).instCheck (descHdr d) fields create host) = some 0)

theorem manage_of {s : State} {d : List Byte} {op : Nat} {fields create : Bool} {host : PartDef → Bool} (h : manageB s d op fields create host = true) :
    (s.fetchCtl d).Entry ctlKey 0 op (tCtlFetched d) (tCtlLeft s d) ∧ (tCtlLeft s d).instCheck (descHdr d) fields create host = .ok 0 := by
  simp only [manageB, Bool.and_eq_true, decide_eq_true_eq] at h
  exact ⟨tCtlEntryOf h.1, okOf_eq h.2⟩

theorem witness_inst_create : manageB tBxt (tAllowD 0x60 2) 0x60 (allowBody (tAllowD 0x60 2)) true (hostBody (tAllowD 0x60 2)) = true ∧
    (tCtlLeft (tBxt.wr F.PTN_INST_ctx_backed 4 1 |>.wr F.PTN_INST_rings 4 1) (tAllowD 0x60 2)).sumsOk 0 2 (allowOf (tAllowD 0x60 2)) = true ∧
    manageB (tBxt.wr F.PTN_INST_ctx_backed 4 1 |>.wr F.PTN_INST_rings 4 1) (tAllowD 0x60 2) 0x60 (allowBody (tAllowD 0x60 2)) true
      (hostBody (tAllowD 0x60 2)) = true := by decide +kernel

theorem witness_inst_modify : manageB tBxt (tAllowD 0x61 1) 0x61 (allowBody (tAllowD 0x61 1)) false (hostBody (tAllowD 0x61 1)) = true ∧
    (tCtlLeft tBxt (tAllowD 0x61 1)).sumsOk 0 1 ((tCtlLeft tBxt (tAllowD 0x61 1)).merged 1 (allowOf (tAllowD 0x61 1))) = true ∧
    (tCtlLeft tBxt (tAllowD 0x61 1)).holdsWithin 1 ((tCtlLeft tBxt (tAllowD 0x61 1)).merged 1 (allowOf (tAllowD 0x61 1))) = true := by decide +kernel

theorem witness_inst_quiesce : ∀ st ∈ [instLive, instQuiesced],
    manageB (tInst st) (tManage 0x62 1) 0x62 (drainBody (tManage 0x62 1)) false (anyHost (tManage 0x62 1)) = true ∧
      (tCtlLeft (tInst st) (tManage 0x62 1)).rd F.PTN_INST_state 1 = st := by decide +kernel

theorem witness_inst_others : ∀ op ∈ [0x63, 0x64, 0x65, 0x66],
    manageB (tInst instQuiesced) (tManage op 1) op (noBody (tManage op 1)) false (anyHost (tManage op 1)) = true ∧
      (tCtlLeft (tInst instQuiesced) (tManage op 1)).rd F.PTN_INST_state 1 = instQuiesced ∧
      (tCtlLeft (tInst instQuiesced) (tManage op 1)).rd F.PTN_PART_halted 0 = 0 ∧ (tCtlLeft (tInst instQuiesced) (tManage op 1)).lay.slicePart ≠ some 0 := by
  decide +kernel

/-- An instance entry of a control ring that its checks turn away: it names instance 1023, of no partition. -/
theorem witness_inst_refused : ∀ op ∈ [0x60, 0x61, 0x62, 0x63, 0x64, 0x65, 0x66], let d := tManage op 1023
    entryB (tBxt.fetchCtl d) ctlKey 0 op (tCtlFetched d) = true ∧ ∃ st, (tCtlLeft tBxt d).instCheck (descHdr d) true false (anyHost d) = .error st := by
  have h : ∀ op ∈ [0x60, 0x61, 0x62, 0x63, 0x64, 0x65, 0x66], entryB (tBxt.fetchCtl (tManage op 1023)) ctlKey 0 op (tCtlFetched (tManage op 1023)) = true ∧
      (okOf ((tCtlLeft tBxt (tManage op 1023)).instCheck (descHdr (tManage op 1023)) true false (anyHost (tManage op 1023)))).isNone = true := by decide +kernel
  intro op hop
  refine ⟨(h op hop).1, ?_⟩
  have g := (h op hop).2
  revert g
  cases (tCtlLeft tBxt (tManage op 1023)).instCheck (descHdr (tManage op 1023)) true false (anyHost (tManage op 1023)) with
  | error e => exact fun _ => ⟨e, rfl⟩
  | ok a => exact fun g => by cases g

/-- Resets of an instance that is not quiesced, and of one whose partition a slice is loaded into. -/
theorem witness_resets_wait : ∀ op ∈ [0x64, 0x65],
    manageB (tInst instLive) (tManage op 1) op (noBody (tManage op 1)) false (anyHost (tManage op 1)) = true ∧
      (tCtlLeft (tInst instLive) (tManage op 1)).rd F.PTN_INST_state 1 ≠ instQuiesced ∧
      (let s : State := { tInst instQuiesced with lay := { (tInst instQuiesced).lay with slicePart := some 0 } }
       manageB s (tManage op 1) op (noBody (tManage op 1)) false (anyHost (tManage op 1)) = true ∧
         ((tCtlLeft s (tManage op 1)).newOp (tCtlFetched (tManage op 1)) .free .running 0).2.lay.slicePart = some 0) := by decide +kernel

theorem witness_drains : (tInst instFencing).rd F.PTN_INST_state 1 = instFencing ∧ (tInst instFencing).admittedOf 1 = [] ∧
    State.admittedOf { tInst instFencing with ops := [(0, { tRecvOp with opcode := 2 })] } 1 ≠ [] := by decide +kernel

/-- Partition 0 in a state, with no instance or with its instance 1 quiesced. -/
def tPart (st inst : Nat) : State := (tWorld.wr F.PTN_PART_state st 0).wr F.PTN_INST_state inst 1

/-- Whether a partition entry reaches its meaning. -/
def partB (s : State) (d : List Byte) (op : Nat) (fields : Bool) : Bool :=
  entryB (s.fetchCtl d) ctlKey 0 op (tCtlFetched d) && decide ((tCtlLeft s d).partCheck (descHdr d) fields = none)

theorem witness_partition_entries :
    partB (tPart ptnLive instAbsent) (tManage 0x67 0) 0x67 (drainBody (tManage 0x67 0)) = true ∧ (tPart ptnLive instAbsent).instsOf 0 = [] ∧
    (tPart ptnLive instAbsent).rd F.PTN_PART_state 0 = ptnLive ∧
    partB (tPart ptnQuiesced instQuiesced) (tManage 0x67 0) 0x67 (drainBody (tManage 0x67 0)) = true ∧
    (∀ op ∈ [0x68, 0x69], partB (tPart ptnQuiesced instQuiesced) (tManage op 0) op (noBody (tManage op 0)) = true) ∧
    (tPart ptnQuiesced instQuiesced).rd F.PTN_PART_state 0 = ptnQuiesced ∧ (tPart ptnQuiesced instQuiesced).rd F.PTN_PART_halted 0 = 0 ∧
    (tPart ptnQuiesced instQuiesced).lay.slicePart ≠ some 0 ∧ (tPart ptnQuiesced instQuiesced).instsOf 0 = [1] := by decide +kernel

theorem witness_partition_refused : ∀ op ∈ [0x67, 0x68, 0x69], let d := tManage op 64
    entryB (tWorld.fetchCtl d) ctlKey 0 op (tCtlFetched d) = true ∧ ((tCtlLeft tWorld d).partCheck (descHdr d) true).isSome = true ∧
      (tCtlLeft tWorld d).lay.slicePart ≠ some 64 := by decide +kernel

theorem partition_of {s : State} {d : List Byte} {op : Nat} {fields : Bool} (h : partB s d op fields = true) :
    (s.fetchCtl d).Entry ctlKey 0 op (tCtlFetched d) (tCtlLeft s d) ∧ (tCtlLeft s d).partCheck (descHdr d) fields = none := by
  simp only [partB, Bool.and_eq_true, decide_eq_true_eq] at h
  exact ⟨tCtlEntryOf h.1, h.2⟩

theorem witness_resets_end : (∀ remove ∈ [true, false],
      let s := (tInst instResetting).setInst 1 { tBxt.inst 1 with resetting := some (0, remove) }
      s.rd F.PTN_INST_state 1 = instResetting ∧ s.cph.wipes = [] ∧ (s.inst 1).resetting = some (0, remove)) ∧
    (let s := (tPart ptnResetting instAbsent).setPart 0 ⟨[], some 0⟩
     (s.part 0).resetting = some 0 ∧ s.rd F.PTN_PART_state 0 = ptnResetting ∧ s.cph.wipes = [] ∧ s.instsOf 0 = []) := by decide +kernel

/-! ### Keys and trust (R396 to R413) -/

/-- Eight key words staged for slot 0 of instance 1, which may hold a key. -/
def tKeyed : State :=
  let s := tWorld.wrs [(F.CPH_KEY_CTL_slot, 0, 0), (F.CPH_KEY_CTL_vf, 0, 1), (F.PTN_INST_key_slots, 1, 1)]
  State.managedBy2 { s with cph := { s.cph with words := (List.range 8).map fun k => (k, k + 1), claim := some .pf0 } }

theorem witness_key_words : tKeyed.managesBy .pf0 false = true ∧ tKeyed.clearPath .pf0 = false ∧ tKeyed.claimedElse .pf0 = false ∧ tWorld.managesBy .conn false = true ∧
    tWorld.clearPath .conn = true ∧ tKeyed.loadRefusal .pf0 20 = 0 ∧
    tKeyed.loadRefusal .pf0 19 ≠ 0 ∧ (∀ dir < 2, ∀ dev < 2,
      State.loadRefusal ((tKeyed.wr F.CPH_KEY_CTL_dir dir).wr F.CPH_KEY_CTL_dev_salt dev) .pf0 64 = 0 ∧
      ((tKeyed.wr F.CPH_KEY_CTL_dir dir).wr F.CPH_KEY_CTL_dev_salt dev).rd F.CPH_KEY_CTL_dir = dir ∧
      ((tKeyed.wr F.CPH_KEY_CTL_dir dir).wr F.CPH_KEY_CTL_dev_salt dev).rd F.CPH_KEY_CTL_dev_salt = dev) := by decide +kernel

theorem test_key_load : (match execLoad .pf0 20 tKeyed with
    | .next t => (t.slots.map Prod.fst, t.cph.words)
    | _ => ([], [])) = ([0], []) := by decide +kernel

/-- A wipe that a command started runs. -/
def tWiping : State := { tWorld with cph := { tWorld.cph with wipes := [⟨.all, true, false, 1⟩] } }

theorem witness_wipes : tWorld.manages false = true ∧ tWiping.manages false = true ∧ tWorld.keyCmdRuns = false ∧ tWiping.keyCmdRuns = true ∧ tWiping.cph.wipes = ⟨.all, true, false, 1⟩ :: [] ∧
    (⟨.all, true, false, 1⟩ : KeyWipe).fails < 2 := by decide +kernel

theorem witness_trust :
    (let s : State := { State.reset.managed with tru := { State.reset.tru with attesting := some [] } }
     s.tru.attesting = some [] ∧ s.rd F.LRD_CELLAR_state = 0) ∧
    State.reset.managed.manages true = true ∧ State.reset.managed.rd F.TRU_STATUS_busy = 0 ∧ State.reset.managed.rd F.LRD_CELLAR_state ≠ 2 ∧
    ((State.reset.managed.wr F.LRD_CELLAR_state 2).rd F.TRU_STATUS_busy = 0 ∧ (State.reset.managed.wr F.LRD_CELLAR_state 2).rd F.LRD_CELLAR_state = 2) := by decide +kernel

theorem witness_revoke : ∀ lc ∈ [lcProvisioned, lcDeployed],
    (let s := State.reset.managed.wr F.TRU_LC_state lc
     s.rd F.TRU_STATUS_busy = 0 ∧ s.rd F.TRU_LC_state = lc ∧ setBit (s.rd F.TRU_BOOT_revoked) 7 % 8 ≠ 7 ∧ setBit (s.rd F.TRU_BOOT_revoked) 7 / 16 % 8 ≠ 7) ∧
    (let s := (State.reset.managed.wr F.TRU_LC_state lc).wr F.TRU_BOOT_revoked 3
     s.rd F.TRU_STATUS_busy = 0 ∧ s.rd F.TRU_LC_state = lc ∧ ¬(setBit (s.rd F.TRU_BOOT_revoked) 2 % 8 ≠ 7 ∧ setBit (s.rd F.TRU_BOOT_revoked) 2 / 16 % 8 ≠ 7)) := by
  decide +kernel

theorem witness_floor_and_polarity : (State.reset.managed.wr F.TRU_BOOT_fw_floor 254).rd F.TRU_BOOT_fw_floor < 255 ∧
    (State.reset.managed.wr F.TRU_BOOT_fw_floor 255).rd F.TRU_BOOT_fw_floor = 255 ∧ (State.reset.managed.wr F.TRU_BOOT_fw_floor 255).rd F.TRU_STATUS_busy = 0 ∧
    (∀ lc ≤ 1, (State.reset.managed.wr F.TRU_LC_state lc).rd F.TRU_LC_state = lc) ∧ State.reset.managed.tru.fusedPolarity = none ∧
    (some 15 : Option Nat).isSome = true := by decide +kernel

/-- From SCRAPPED no transition leads on, from RETURNED none after three returns; from PROVISIONED one that takes no token. -/
theorem witness_life_cycle :
    (let s := State.reset.managed.wr F.TRU_LC_state lcScrapped
     s.rd F.TRU_STATUS_busy = 0 ∧ nextCycle (s.rd F.TRU_LC_state) (s.rd F.TRU_LC_returns) = none) ∧
    (let s := (State.reset.managed.wr F.TRU_LC_state lcReturned).wr F.TRU_LC_returns 3
     nextCycle (s.rd F.TRU_LC_state) (s.rd F.TRU_LC_returns) = none) ∧
    (let s := State.reset.managed.wr F.TRU_LC_state lcProvisioned
     s.rd F.TRU_STATUS_busy = 0 ∧ nextCycle (s.rd F.TRU_LC_state) (s.rd F.TRU_LC_returns) = some (lcDeployed, false) ∧
       (∀ p < 64, s.enabled p = true → s.rd F.PTN_PART_state p = ptnQuiesced) ∧ s.lay.slicePart = none ∧ s.rd F.TRU_LC_state ≠ lcScrapped) ∧
    (let s := State.reset.managed.wr F.TRU_LC_state lcReturned
     nextCycle (s.rd F.TRU_LC_state) (s.rd F.TRU_LC_returns) = some (lcProvisioned, true)) := by decide +kernel

/-- The token for the transition from RETURNED to PROVISIONED, signed by key 2. -/
def tToken : List Byte := [0x46, 0x47, 0x4C, 0x54, 3, 1, 2, 0] ++ List.replicate 120 0
def tTokened : State :=
  let s := State.reset.managed.wr F.TRU_LC_state lcReturned
  { s with tru := { s.tru with token := (List.range 128).zip tToken } }

/-- Where the device's identity is zeros and the signature verifies, the token is good. -/
theorem witness_token (hu : padTo 32 (uniqueId.take 32) = List.replicate 32 0)
    (h : Config.ecdsaVerify (Config.fusedKey 2) (tToken.take 64) (slice tToken 64 64) = true) : tTokened.tokenOk lcReturned lcProvisioned = true := by
  have hb : (List.range 128).map (fun k => Tbl.getD tTokened.tru.token k 0) = tToken := by decide +kernel
  have hk : fieldLE tToken 6 1 = 2 := by decide +kernel
  have hr : (fieldLE tToken 0 4 == 0x544C4746 && fieldLE tToken 4 1 == lcReturned && fieldLE tToken 5 1 == lcProvisioned && zeroBytes tToken 7 1 &&
    slice tToken 8 32 == List.replicate 32 0 && zeroBytes tToken 40 24 && !fwKeyDenied lcReturned 2 &&
    !bitAt (tTokened.rd F.TRU_BOOT_revoked) 2) = true := by decide +kernel
  simp only [State.tokenOk, hb, hk, hu, hr, h, Bool.and_self]

theorem witness_tamper : State.reset.managed.manages true = true ∧
    bitAt ((State.reset.wr F.TRU_TAMPER_CFG_enable 7).rd F.TRU_TAMPER_CFG_enable) 3 = false ∧ bitAt (State.reset.rd F.TRU_TAMPER_CFG_enable) 3 = true ∧
    State.reset.pwr.entry = none ∧ State.reset.pwr.asleep = none ∧ State.reset.lay.slicePart = none ∧
    ((8 ^^^ (State.reset.wr F.TRU_TAMPER_CFG_enable 7).rd F.TRU_TAMPER_CFG_polarity) &&& (State.reset.wr F.TRU_TAMPER_CFG_enable 7).rd F.TRU_TAMPER_CFG_enable) = 0 ∧
    ((8 ^^^ State.reset.rd F.TRU_TAMPER_CFG_polarity) &&& State.reset.rd F.TRU_TAMPER_CFG_enable) ≠ 0 := by decide +kernel

theorem witness_cellar_wipe : (State.tier { State.reset with tier := { State.reset.tier with wipe := some 0 } }).wipe.isSome = true := by decide +kernel

/-! ### Storage (R417 to R431) -/

/-- Target 63 in a state, of partition 0, with one path and a namespace of 100,000 blocks. -/
def tTarget (st : Nat) (cmds : List CkpCmd) : State :=
  let s := tBxt.wrs [(F.CKP_TGT_SEL_target, 0, 63), (F.CKP_TGT_PORTS_port_mask, 63, 1), (F.CKP_TGT_STATUS_state, 63, st), (F.CKP_TGT_CFG_partition, 63, 0),
    (F.CKP_CFG_reconnects, 0, 8)]
  { s with ckp := { s.ckp with tgts := [(63, ⟨0, 0, 0, 0, true, 100000, [], 0, 0, cmds⟩)] } }

def tAlive : CkpCmd := ⟨0, 1, 256, ⟨.keepAlive, 0, 0, 0, 0⟩, []⟩

theorem witness_targets : (tTarget tgtIdle []).manages false = true ∧ (tTarget tgtIdle []).rd F.CKP_TGT_SEL_target = 63 ∧ (tTarget tgtIdle []).rd F.CKP_TGT_PORTS_port_mask 63 ≠ 0 ∧
    (tTarget tgtIdle []).tgtState 63 = tgtIdle ∧ (tTarget tgtFailed []).tgtState 63 = tgtFailed ∧
    ((tTarget tgtFailed []).tgt 63).attempts < (tTarget tgtFailed []).rd F.CKP_CFG_reconnects ∧ (tTarget tgtIdle []).inj = none ∧
    (tTarget tgtConnecting []).tgtState 63 = tgtConnecting ∧ 0 = ((tTarget tgtConnecting []).tgt 63).queue ∧ ((tTarget tgtConnecting []).tgt 63).stage = 0 ∧
    nvmeCid .icReq = none ∧ (tTarget tgtReady [tAlive]).tgtState 63 = tgtReady ∧ ((tTarget tgtReady [tAlive]).tgt 63).cmds ≠ [] ∧
    (∀ y < 64, y ≠ 63 → (tTarget tgtReady [tAlive]).tgtState y ≠ tgtReady) ∧
    ((tTarget tgtReady [tAlive]).tgt 63).cmds.any (fun c => c.job.kind == .keepAlive) = true ∧
    (∀ q ∈ (tTarget tgtReady [tAlive]).ckp.streams, q.2.target ≠ 63) ∧
    ((tTarget tgtReady []).tgt 63).cmds.any (fun c => c.job.kind == .keepAlive) = false := by decide +kernel

def tCkpD (op : Nat) : List Byte := tEntry op 6 63 7 [(16, 8, 0x10000), (24, 8, 4096), (40, 4, 5), (46, 2, 0xFFFF)]

theorem witness_checkpoint : ∀ q ∈ [(0x40, tgtConnecting), (0x40, tgtReady), (0x41, tgtConnecting), (0x41, tgtReady)],
    let d := tCkpD q.1
    let u := tLeft (tTarget q.2 []) d
    let b := ckpBody d
    entryB ((tTarget q.2 []).fetch d) tKey 0 q.1 (tFetched d) = true ∧ tKey ≠ ctlKey ∧ (u.stream? 0).isNone = true ∧ b.bad (descHdr d) d = false ∧ b.table = false ∧
      b.inFlight * b.z ≤ u.stagingFree 1 (u.rd F.PTN_INST_partition 1) ∧ u.tgtState (descHdr d).target = q.2 ∧
      b.slba + ceilDiv (256 + b.length) (b.z - 64) * b.z / u.blockSize (descHdr d).target ≤ (u.tgt (descHdr d).target).blocks ∧
      u.ckpOwned 1 b (descHdr d) (q.1 == 0x41) = true := by decide +kernel

/-! ### Power and the device's ladder (R434 to R450) -/

theorem witness_domains : State.reset.managed.manages false = true ∧ State.reset.soleFenced 95 = false ∧ State.reset.rd F.PWR_DOM_pinned 95 = 0 ∧ State.reset.pwr.climbing.contains 95 = false ∧
    (privileged 95 && State.reset.heldLit 95) = false ∧ State.reset.domBusy 95 = false ∧ State.reset.rd F.PWR_DOM_state 95 = 0 ∧
    (State.reset.wr F.PWR_DOM_state 2 20).rd F.PWR_DOM_state 20 ≠ 0 ∧ privileged 20 = false ∧ (State.reset.wr F.PWR_DOM_state 2 84).rd F.PWR_DOM_state 84 ≠ 0 ∧
    privileged 84 = true ∧ (State.pwr { State.reset with pwr := { State.reset.pwr with climbing := [95] } }).climbing.contains 95 = true ∧
    deepestFloor 95 < 7 ∧ 0 ≤ deepestFloor 95 ∧ deepestFloor 16 < 2 ∧ 1 ≤ deepestFloor 16 := by decide +kernel

theorem witness_device_refused :
    (let s := tWorld
     ((List.range 64).any fun p => s.enabled p && s.rd F.PTN_PART_state p != ptnQuiesced) = true) ∧
    (State.reset.wr F.LAY_STATUS_busy 1).rd F.LAY_STATUS_busy = 1 ∧ (State.reset.wr F.TRU_TAMPER_STATE_latched 1).rd F.TRU_TAMPER_STATE_latched ≠ 0 := by
  decide +kernel

theorem witness_device_enters : State.reset.managed.manages false = true ∧ ((List.range 64).any fun p => State.reset.enabled p && State.reset.rd F.PTN_PART_state p != ptnQuiesced) = false ∧
    (State.reset.pwr.entry.isSome || State.reset.rd F.LAY_STATUS_busy == 1) = false ∧ (State.reset.rd F.TRU_TAMPER_STATE_latched != 0) = false ∧
    State.reset.pins.wake = false ∧ State.reset.rd F.PWR_STATUS_rc_clock ≠ 1 ∧ (State.reset.wr F.PWR_STATUS_rc_clock 1).rd F.PWR_STATUS_rc_clock = 1 := by
  decide +kernel

/-- The device asleep in a state of its own. -/
def tAsleep (st : Nat) : State := { State.reset with pwr := { State.reset.pwr with asleep := some st } }

theorem witness_device_sleeps : (∀ st ∈ [3, 4], (State.pwr { State.reset with pwr := { State.reset.pwr with entry := some st } }).entry = some st ∧
    (tAsleep st).pwr.asleep = some st) ∧ ¬((1 : Nat) = 1 ∧ true = false) ∧ ((1 : Nat) = 1 ∧ false = false) := by decide +kernel

/-! ### Hangs, resets and dumps (R454 to R469) -/

/-- Unit 0 of a kind hung once before, at 500 s; the device is at 1,000 s. -/
def tHung (kind : Nat) : State :=
  { tBxt with now := 1000 * sec, rst := { tBxt.rst with hangs := [(unitKey kind 0, [500 * sec])], back := [(unitKey kind 0, 999 * sec)] } }

/-- Of each kind, a context with work in its unit: operation 0, or connection 100. -/
def tSuspect (kind : Nat) : Nat := if kind = kBxt then 100 else 0

theorem witness_watched : ∀ kind < 8, (tHung kind).watched kind 0 [tSuspect kind] = true ∧ (tHung kind).waitsOut kind (tSuspect kind) = false ∧
    (tHung kind).manages false = true := by decide +kernel

theorem witness_waits : (tProbed (tSending 1)).waitsOut kBxt 100 = true ∧ ((tHung 0).serving 0 33 && (tHung 0).watched 0 33 []) = false := by decide +kernel

theorem witness_hangs : ∀ kind < 8, 0 < unitsOf kind ∧ (tHung kind).serving kind 0 = true ∧
    Tbl.get? (tHung kind).rst.back (unitKey kind 0) = some (999 * sec) ∧ 999 * sec + sec ≤ (tHung kind).now ∧
    (((Tbl.getD (tHung kind).rst.hangs (unitKey kind 0) []).filter fun x => decide ((tHung kind).now < x + 600 * sec))).length < 2 := by decide +kernel

theorem witness_unit_gone : (State.reset.wr F.TAL_UNIT_STATE_state 2 33).serving 0 33 = false ∧ 33 < unitsOf 0 ∧ State.reset.rd F.RST_STATUS_busy = 0 ∧
    ∀ code < 5, (if code ≤ 2 then code else code + 1) ∈ [0, 1, 2, 4, 5] := by decide +kernel

/-- The replay of unit 0 of a kind, in its reset or with operation 0 or connection 100 under judgement. -/
def tReplay (kind : Nat) (r : Bool) : Replay := ⟨kind, 0, 0, false, r, if r then none else some (if kind = kBxt then 100 else 0), [], 3, 0, [], false⟩
def tReplaying (kind : Nat) (r : Bool) : State := { tBxt with rst := { tBxt.rst with replays := [tReplay kind r] } }

theorem witness_replays : ∀ kind < 8, (tReplaying kind true).replay? kind 0 = some (tReplay kind true) ∧ (tReplay kind true).resetting = true ∧
    (tReplay kind true).todo = [] ∧ (tReplay kind true).parked = [] ∧ (tReplay kind true).manager = false ∧
    (tReplaying kind false).replay? kind 0 = some (tReplay kind false) ∧
    (tReplay kind false).judging = some (if kind = kBxt then 100 else 0) ∧ (tReplaying kind false).suspectLives kind (if kind = kBxt then 100 else 0) = true ∧
    (tReplaying kind false).suspectLives kind 99 = false := by decide +kernel

/-- Translation, of which there is one unit, is fenced for its replay: its domain holds what comes. -/
theorem witness_sole_fenced : (tReplaying kWalker true).soleFenced (unitDomain kWalker 0) = true ∧ (tReplaying kWalker true).rd F.PWR_DOM_state (unitDomain kWalker 0) = 0 := by
  decide +kernel

theorem witness_cores : State.reset.rst.coresGone.contains 35 = false ∧
    (((Tbl.getD State.reset.rst.cores 35 []).filter fun x => decide (State.reset.now < x + 60 * sec))).length < 2 ∧
    (let s : State := { State.reset with rst := { State.reset.rst with cores := [(35, [0, 0])] } }
     2 ≤ (((Tbl.getD s.rst.cores 35 []).filter fun x => decide (s.now < x + 60 * sec))).length) := by decide +kernel

/-- A dump of one unit that has not answered. -/
def tDumpUnit : DumpUnit := ⟨1, 0, 0, 1, 0, []⟩
def tDumpRun : DumpRun := ⟨2, 0, 1, 0, 0, [tDumpUnit], 0⟩
def tDumping : State := { State.reset with now := 60 * ms, rst := { State.reset.rst with dump := some tDumpRun } }

theorem witness_resets : State.reset.managed.manages true = true ∧ State.reset.managed.manages false = true ∧ (State.reset.wr F.RST_STATUS_busy 1).rd F.RST_STATUS_busy = 1 ∧ State.reset.rd F.RST_STATUS_busy = 0 ∧
    State.reset.rd F.RST_STATUS_retired = 0 ∧ (State.reset.wr F.RST_STATUS_retired 1).rd F.RST_STATUS_retired ≠ 0 ∧ State.reset.rd F.RST_DUMP_STATUS_held = 0 ∧
    (State.reset.wr F.RST_DUMP_STATUS_held 1).rd F.RST_DUMP_STATUS_held = 1 ∧ allDumpUnits.contains (1, 0) = true ∧ tDumping.rst.dump = some tDumpRun ∧
    tDumping.now ≤ tDumpRun.since + 60 * ms ∧ (tDumpRun.units.find? fun v => v.kind == 1 && v.index == 0 && v.status == 0) = some tDumpUnit := by decide +kernel

theorem witness_boot : State.reset.rst.booting = false ∧ (∀ slot < 2,
    let s : State := { State.reset with rst := { State.reset.rst with booting := true }, mgt := { State.reset.mgt with fwRun := some slot } }
    s.rst.booting = true ∧ s.mgt.fwRun = some slot) ∧
    ((State.reset.wr F.RST_HIST_tick 5 2).rd F.RST_HIST_tick 2 ≠ 0 ∧ State.reset.ticks ≤ (State.reset.wr F.RST_HIST_tick 5 2).rd F.RST_HIST_tick 2 + 60 * tickSecond) := by
  decide +kernel

theorem witness_power : tHeld.power = .resetHeld ∧ State.reset.power ≠ .resetHeld ∧ (State.power { State.reset with power := .railOut }) = .railOut ∧
    State.reset.power ≠ .railOut ∧ State.reset.power = .run := by decide +kernel

/-! ### The logbook, the snapshot and injection (R473 to R489) -/

def tLogRec : LogRec := ⟨.LOG, .commandDone, 2, 0, 1, 0, 0, 0, 0, 0, false⟩
def tLog (run : Option LogRun) (page : Option PageProgram) : State :=
  { State.reset with log := { State.reset.log with staged := [tLogRec, tLogRec], run := run, page := page } }

theorem witness_logbook : State.manages { tLog none none with mgt := State.reset.managed.mgt } true = true ∧ (tLog none none).log.run = none ∧ (tLog (some (.read 0 true)) none).log.run = some (.read 0 true) ∧
    (tLog (some (.read 5 false)) none).log.run = some (.read 5 false) ∧ (tLog none none).log.page = none ∧ (tLog none none).log.bare = false ∧
    (tLog none none).rd F.LOG_STATUS_stopped = 0 ∧ 0 < (tLog none none).log.closedWaiting ∧ (tLog none none).inj = none ∧
    (tLog none (some ⟨[tLogRec], 0⟩)).log.page = some ⟨[tLogRec], 0⟩ ∧ (tLog none none).log.bad.length + 65 ≤ 959 := by decide +kernel

theorem witness_injection : tWorld.manages false = true ∧ State.reset.managed.manages false = true ∧ (0xA7 = 0xA7 ∧ (tWorld.lay.running.map fun l => l.access.flags.testBit 1) = some true) ∧
    ¬(0xA7 = 0xA7 ∧ (State.reset.lay.running.map fun l => l.access.flags.testBit 1) = some true) ∧
    (State.reset.wr F.TRU_LC_state lcReturned).injAllowed = false ∧ State.reset.injAllowed = true ∧
    injPoints.contains ((State.reset.wr F.INJ_SEL_point 0x0203).rd F.INJ_SEL_point) = false ∧
    injPoints.contains ((State.reset.wr F.INJ_SEL_point 0x0202).rd F.INJ_SEL_point) = true := by decide +kernel

/-! ### Credentials and management messages (R496 to R502) -/

/-- A proof of zeros, the point at (0, 0) of its second half aside; a device whose running image lists its key's hash, and on which a challenge waits
on path 2 and on the management connection 7. -/
def tProof : List Byte := List.replicate 256 0
def tChallenge : Challenge := ⟨List.replicate 256 1, 0⟩
def tCred : State :=
  let s := tWorld.withConn (mgtConnBase + 7) (tConn 1)
  { s with
    lay := { s.lay with running := some { tImage with access := ⟨3, [Config.sha256 (tProof.take 64)], [(0, 0)]⟩ } }
    mgt := { s.mgt with session := none, challenges := [(7, tChallenge), (mgtPath2, tChallenge)] } }

theorem witness_credential_paths : State.reset.credStop mgtPath2 = 0 ∧ (State.reset.wr F.TRU_LC_rng_failed 1).credStop mgtPath2 = 6 ∧
    (tWorld.withConn (mgtConnBase + 7) (tConn 1)).mgtOpen 7 = true ∧ (tWorld.withConn (mgtConnBase + 7) (tConn 1)).credStop 7 = 0 ∧
    ((tWorld.withConn (mgtConnBase + 7) (tConn 1)).wr F.LRD_CELLAR_state 2).credStop 7 = 6 ∧ tWorld.mgtOpen 7 = false ∧
    (∀ path ∈ [7, mgtPath2], (tWorld.withConn (mgtConnBase + 7) (tConn 1)).judgeProof path none tProof ≠ 0) ∧ tProof.length = 256 ∧
    (tWorld.withConn (mgtConnBase + 7) (tConn 1)).conn? (mgtConnBase + 7) = some (tConn 1) ∧
    (tWorld.withConn (mgtConnBase + 7) (tConn 1)).connHolds 7 = false ∧ (tConn 1).enc = false := by decide +kernel

/-- Where its signature verifies, a proof is accepted on path 2. -/
theorem witness_proof (h : Config.ecdsaVerify (tProof.take 64) (tChallenge.bytes.take 192 ++ tProof.take 192) (slice tProof 192 64) = true) :
    tCred.judgeProof mgtPath2 (Tbl.get? tCred.mgt.challenges mgtPath2) tProof = 0 ∧ tCred.mgt.session = none := by
  have hs : tCred.credStop mgtPath2 = 0 := rfl
  have hc : Tbl.get? tCred.mgt.challenges mgtPath2 = some tChallenge := rfl
  have hl : tCred.credListed (tProof.take 64) = true := by simp [State.credListed, tCred]
  have hn : ¬tChallenge.since + 10 * sec ≤ tCred.now := by decide
  refine ⟨?_, rfl⟩
  have hz : tCred.mgt.session = none := rfl
  simp [State.judgeProof, hs, hc, hl, h, hn, hz]

/-- The device whose role a connection, or path 2, holds. -/
def tRole (conn : Option Nat) : State :=
  let s := (tWorld.withConn (mgtConnBase + 7) (tConn 1)).wr F.MGT_CFG_idle_min 5
  { s with mgt := { s.mgt with session := some ⟨conn, 0, 0, 2 ^ 32 - 1, []⟩, granting := [(7, 0)] } }

theorem witness_roles : (tRole none).pf0Holds = true ∧ (tRole none).rd F.MGT_CFG_idle_min ≠ 0 ∧ State.reset.pf0Holds = false ∧
    (State.reset.wr F.MGT_CFG_idle_min 0).rd F.MGT_CFG_idle_min = 0 ∧ (tRole (some 7)).mgtOpen 7 = true ∧
    (tRole (some 7)).mgt.session = some ⟨some 7, 0, 0, 2 ^ 32 - 1, []⟩ ∧ Tbl.get? (tRole (some 7)).mgt.granting 7 = some 0 := by decide +kernel

theorem witness_reg_ranges : regRangeOk 0 4 = true ∧ regRangeOk 0 4096 = true ∧ regRangeOk 2 4 = false ∧ regRangeOk 0 4100 = false ∧
    ([1, 2, 3, 4] : List Byte).length < 2 ^ 32 := by decide +kernel

def tNoLink : State := (List.range 8).foldl (fun s m => s.wr F.KLN_MOD_state 2 m) (tRole (some 7))

/-- A register of the gate die, which the link does not reach while no module runs. -/
theorem witness_reg_waits : let s := tNoLink
    s.mgtOpen 7 = true ∧ s.mgt.session = some ⟨some 7, 0, 0, 2 ^ 32 - 1, []⟩ ∧ regRangeOk 0x2000000 4 = true ∧ s.reaches 0x2000000 4 = false ∧
      (tRole (some 7)).reaches 0x2000000 4 = true := by decide +kernel

theorem witness_reg_stray : (tRole (some 7)).connHolds 6 = false ∧ ((tRole (some 7)).conn? (mgtConnBase + 6)).any (·.enc) = false ∧
    2 ^ 31 ≤ (0x7FFFFFFF + 2 ^ 32 - (2 ^ 32 - 1)) % 2 ^ 32 := by decide +kernel

theorem witness_result_acknowledged :
    let v := State.advanceEpoch { tRole (some 7) with mgt := { (tRole (some 7)).mgt with granting := Tbl.erase (tRole (some 7)).mgt.granting 7 } } (mgtConnBase + 7)
    (v.conn? (mgtConnBase + 7)).isSome = true ∧ v.mgt.session = some ⟨some 7, 0, 0, 2 ^ 32 - 1, []⟩ := by decide +kernel

/-! ### The tray bus, firmware and transmission (R120, R358, R503 to R508) -/

def tTray (n : Nat) : TrayIn := ⟨true, 64, macAll, 5, 0x88B5, 1, n, List.replicate n 0⟩

theorem witness_tray_in : ∀ n ∈ [0, 2], let f := tTray n
    (f.fcsOk && decide (64 ≤ f.len) && decide (f.len ≤ State.reset.rd F.MGT_CFG_max_frame) && (f.dst == State.reset.rd F.MGT_MAC_mac || f.dst == macAll) &&
      f.ethType == 0x88B5 && f.version == 1 && f.bodyLen == n && f.body.length == n) = true := by decide +kernel

def tTrayF (q tries : Nat) : TrayFrame := ⟨q, macAll, 1, q, [], tries⟩
def tBus (tray : List TrayFrame) (tries : Nat) : State :=
  { State.reset with mgt := { State.reset.mgt with sending := some (tTrayF 2 tries), tray := tray, cycle := some ⟨1, 0, [0], false⟩ } }

theorem witness_tray : (tBus [] 14).mgt.sending = some (tTrayF 2 14) ∧ (tTrayF 2 14).tries < 15 ∧ 15 ≤ (tTrayF 2 15).tries ∧ (tBus [] 14).mgt.backoff = false ∧
    (tBus [] 14).mgt.cycle = some ⟨1, 0, [0], false⟩ ∧ State.reset.mgt.cycle = none ∧ State.reset.mgt.sending = none ∧ (tBus [] 0).mgt.tray = [] ∧
    (State.reset.wr F.RST_STATUS_retired 1).rd F.RST_STATUS_retired = 1 ∧ State.reset.rd F.RST_STATUS_retired = 0 := by decide +kernel

theorem witness_tray_queues : (∀ f ∈ (tBus [tTrayF 3 0, tTrayF 1 0] 0).mgt.tray, f.queue < 4) ∧
    tTrayF 1 0 ∈ (tBus [tTrayF 3 0, tTrayF 1 0] 0).mgt.tray ∧ (∀ h ∈ (tBus [tTrayF 3 0, tTrayF 1 0] 0).mgt.tray, (tTrayF 1 0).queue ≤ h.queue) ∧
    ((tBus [tTrayF 3 0, tTrayF 1 0] 0).mgt.tray.find? fun h => h.queue == (tTrayF 1 0).queue) = some (tTrayF 1 0) ∧
    16 ≤ ((tBus (List.replicate 16 (tTrayF 3 0)) 0).mgt.tray.filter fun f => f.queue == 3).length ∧
    (∀ p < 4, ((tBus (List.replicate 16 (tTrayF 3 0)) 0).mgt.tray.filter fun f => f.queue == p).length ≤ 16) := by decide +kernel

theorem test_query : (match execQuery (tTray 0) State.reset with
    | .next t => (t.rd F.MGT_TC_MAC_tc_mac, t.mgt.session)
    | _ => (0, none)) = (5, none) := by decide +kernel

theorem witness_tray_grants_nothing : ∃ t, exec (.query (tTray 0)) State.reset = .next t ∨ exec (.pcAck (tTray 0)) State.reset = .next t :=
  ⟨_, Or.inl rfl⟩

theorem witness_firmware : State.reset.managed.manages true = true ∧ State.reset.mgt.fwProg = none ∧ State.reset.rd F.LAY_STATUS_busy = 0 ∧ State.reset.mgt.fwRun = none ∧
    (match State.reset.fwCheck State.reset.stagedFw with
      | .error e => some e
      | .ok _ => none) = some 1 ∧
    (State.mgt { State.reset with mgt := { State.reset.mgt with fwRun := some 1 } }).fwRun = some 1 ∧
    (State.mgt { State.reset with mgt := { State.reset.mgt with fwProg := some (1, [7]) } }).fwProg = some (1, [7]) := by decide +kernel

theorem witness_ddr : (State.reset.wr F.DDR_CH_state 1 7).rd F.DDR_CH_state 7 = 1 ∧ (State.reset.wr F.DDR_CH_state 0 7).rd F.DDR_CH_state 7 ≠ 1 := by decide +kernel

/-- A packet waits on port 0. -/
def tQueue : Queued := ⟨0, 2, 0, 0, 200, tPkt, false, none, false, none, 0, none, none, none, 0⟩
def tEgress : State := { tWorld with egress := [tQueue] }

theorem witness_transmit : tEgress.lportExists 0 = true ∧ tEgress.portUp 0 = true ∧ (tEgress.lport 0).again = [] ∧ tEgress.nextFrame 0 = some 0 ∧
    tEgress.egress[0]? = some tQueue ∧ tEgress.replayRoom 0 tQueue.len = true ∧ tWorld.portUp 0 = true ∧ tWorld.nextFrame 0 = none ∧
    (tEgress.frameOf tQueue (tEgress.dataShim 0 0 0 0)).len ≤ tEgress.rd F.PRT_LP_max_frame 0 := by decide +kernel

/-- The same frame where it is longer than the port lets out, where replay has no room for it, and where a frame is to be replayed. -/
theorem witness_transmit_else :
    (let s := tEgress.wr F.PRT_LP_max_frame 64
     s.portUp 0 = true ∧ (s.lport 0).again = [] ∧ s.nextFrame 0 = some 0 ∧ s.egress[0]? = some tQueue ∧
       s.rd F.PRT_LP_max_frame 0 < (s.frameOf tQueue (s.dataShim 0 0 0 0)).len) ∧
    (let s : State := { tHopFull with egress := [tQueue] }
     s.portUp 0 = true ∧ (s.lport 0).again = [] ∧ s.nextFrame 0 = some 0 ∧ s.egress[0]? = some tQueue ∧
       (s.frameOf tQueue (s.dataShim 0 0 0 0)).len ≤ s.rd F.PRT_LP_max_frame 0 ∧ s.replayRoom 0 tQueue.len = false) ∧
    (let s : State := { tReplays 1 with lports := [(0, { (tReplays 1).lport 0 with again := [3, 4] })] }
     s.portUp 0 = true ∧ (s.lport 0).again = [3, 4]) := by decide +kernel

theorem witness_idle : State.reset.pending = [] ∧ State.reset.inj = none ∧ State.reset.mgt.sending = none := by decide +kernel

/-- A command of registers answers a next state. -/
theorem witness_register_commands : ∃ t, exec .injDisarm State.reset = .next t := ⟨_, rfl⟩

theorem test_shard : (List.range 3).map (fun r => shard r 3 100) = [(0, 32), (32, 64), (64, 100)] := by decide +kernel


end Sys2Proof.Machine
end

section
/-!
PROOFS. Loading keys (R10, R394, R396, R397): what staging a word, the lapse of the staged words and a LOAD do.
-/

namespace Sys2Proof.Machine

/-! ### States in which a LOAD is judged alike -/

/-- What a LOAD is judged by and works on is the same in two states: they differ at most in CPH_KEY_CMD, in the session's idle time, in what logging
changes and in what no key command reads. -/
structure SameKeys (s t : State) : Prop where
  cph : t.cph = s.cph
  slots : t.slots = s.slots
  mem : t.mem = s.mem
  clearPath : ∀ p : Path, t.clearPath p = s.clearPath p
  rd : ∀ (f : Fld) (i : Nat), f.reg.isLog = false → f.reg ≠ .CPH_KEY_CMD → t.rd f i = s.rd f i

theorem SameKeys.refl (s : State) : SameKeys s s := ⟨rfl, rfl, rfl, fun _ => rfl, fun _ _ _ _ => rfl⟩

theorem SameKeys.trans {s t u : State} (h : SameKeys s t) (k : SameKeys t u) : SameKeys s u :=
  ⟨k.cph.trans h.cph, k.slots.trans h.slots, k.mem.trans h.mem, fun p => (k.clearPath p).trans (h.clearPath p),
    fun f i hl hc => (k.rd f i hl hc).trans (h.rd f i hl hc)⟩

theorem LogOnly.sameKeys {s t : State} (h : LogOnly s t) : SameKeys s t := by
  have hrd := h.rd
  obtain ⟨_, _, _, rfl, _⟩ := h
  exact ⟨rfl, rfl, rfl, fun _ => rfl, fun f i hl _ => hrd f i hl⟩

theorem State.sameKeys_refuseWrite (s : State) (b : Blk) (off i : Nat) : SameKeys s (s.refuseWrite b off i) :=
  SameKeys.trans (t := { s with wrefused := s.wrefused + 1 }) ⟨rfl, rfl, rfl, fun _ => rfl, fun _ _ _ _ => rfl⟩ (State.logEv_only _ _ _ _ _ _ _).sameKeys

/-- An access of the session's holder leaves the session on its connection. -/
theorem State.sameKeys_touchSession (s : State) : SameKeys s s.touchSession := by
  rcases s.touchSession_cases with h | ⟨z, hz, h⟩ <;> rw [h]
  · exact SameKeys.refl s
  · exact ⟨rfl, rfl, rfl, fun p => by cases p <;> simp [State.clearPath, hz, State.conn?], fun _ _ _ _ => rfl⟩

theorem State.sameKeys_draw (s : State) (n : Nat) : SameKeys s { s with fresh := n } := ⟨rfl, rfl, rfl, fun _ => rfl, fun _ _ _ _ => rfl⟩

theorem SameKeys.slotState {s t : State} (h : SameKeys s t) (n : Nat) : t.slotState n = s.slotState n := by simp only [State.slotState, h.cph, h.slots]

theorem SameKeys.devAddr {s t : State} (h : SameKeys s t) : t.devAddr = s.devAddr := h.rd _ _ rfl (by decide)

theorem SameKeys.loadRefusal {s t : State} (h : SameKeys s t) (p : Path) (n : Nat) : t.loadRefusal p n = s.loadRefusal p n := by
  unfold State.loadRefusal State.slotsHeld State.claimedElse State.keyCmdRuns
  dsimp only
  rw [h.cph, h.slots, h.clearPath, h.devAddr, h.rd F.CPH_KEY_CTL_slot _ rfl (by decide), h.slotState, h.rd F.CPH_KEY_CTL_vf _ rfl (by decide),
    h.rd F.CPH_KEY_CTL_dir _ rfl (by decide), h.rd F.CPH_KEY_CTL_dev_salt _ rfl (by decide), h.rd F.TRU_LC_state _ rfl (by decide),
    h.rd F.TRU_LC_rng_failed _ rfl (by decide), h.rd F.PTN_INST_state _ rfl (by decide), h.rd F.PTN_INST_key_slots _ rfl (by decide),
    h.rd F.LRD_CELLAR_state _ rfl (by decide)]

theorem SameKeys.stagedKey {s t : State} (h : SameKeys s t) : t.stagedKey = s.stagedKey := by simp only [State.stagedKey, h.cph]

/-! ### The end of a key command -/

theorem State.rd_keyResult_done (s : State) (r : Nat) : (s.keyResult r).rd F.CPH_KEY_STATUS_done = b2n (r == 0) := by
  unfold State.keyResult
  rw [State.rd_wr_apart _ F.CPH_KEY_STATUS_done F.CPH_KEY_STATUS_reason _ _ rfl (by decide) (by decide),
    State.rd_wr_apart _ F.CPH_KEY_STATUS_done F.CPH_KEY_STATUS_refused _ _ rfl (by decide) (by decide), State.rd_wr_self _ _ _ _ (by decide)]
  cases r == 0 <;> rfl

theorem State.rd_keyResult_refused (s : State) (r : Nat) : (s.keyResult r).rd F.CPH_KEY_STATUS_refused = b2n (r != 0) := by
  unfold State.keyResult
  rw [State.rd_wr_apart _ F.CPH_KEY_STATUS_refused F.CPH_KEY_STATUS_reason _ _ rfl (by decide) (by decide), State.rd_wr_self _ _ _ _ (by decide)]
  cases r != 0 <;> rfl

theorem State.rd_keyResult_reason (s : State) (r : Nat) : (s.keyResult r).rd F.CPH_KEY_STATUS_reason = r % 16 :=
  State.rd_wr_self _ _ _ _ (by decide)

theorem State.rd_keyResult_reg (s : State) (r : Nat) (f : Fld) (i : Nat) (h : f.reg ≠ .CPH_KEY_STATUS) : (s.keyResult r).rd f i = s.rd f i := by
  unfold State.keyResult
  rw [State.rd_wr_reg _ _ _ _ _ _ h, State.rd_wr_reg _ _ _ _ _ _ h, State.rd_wr_reg _ _ _ _ _ _ h]

theorem State.rd_clearStaged_reg (s : State) (f : Fld) (i : Nat) (h : f.reg ≠ .CPH_KEY_STATUS) : s.clearStaged.rd f i = s.rd f i :=
  State.rd_wr_reg _ _ _ _ _ _ h

/-- The reasons of R396 are the numbers 1 to 10. -/
theorem State.loadRefusal_le (s : State) (p : Path) (n : Nat) : s.loadRefusal p n ≤ 10 := by
  unfold State.loadRefusal
  dsimp only
  repeat' split
  all_goals decide

/-! ### LOAD -/

/-- The first step of a LOAD: `ctr_log2` is written, or refused and kept (R10). -/
def State.putCtr (s : State) (n : Nat) : State :=
  if 20 ≤ n ∧ n ≤ 64 then s.wr F.CPH_KEY_CMD_ctr_log2 n else s.refuseWrite .CPH 0x38

theorem State.sameKeys_putCtr (s : State) (n : Nat) : SameKeys s (s.putCtr n) := by
  unfold State.putCtr
  split
  · exact ⟨rfl, rfl, rfl, fun _ => rfl, fun f i _ hc => State.rd_wr_reg s f _ _ _ _ hc⟩
  · exact s.sameKeys_refuseWrite _ _ _

theorem State.rd_putCtr_outside (s : State) (n : Nat) (h : n < 20 ∨ 64 < n) (f : Fld) (i : Nat) (hl : f.reg.isLog = false) :
    (s.putCtr n).rd f i = s.rd f i := by
  rw [State.putCtr, if_neg (by omega), State.rd_refuseWrite _ _ _ _ _ _ hl]

/-- The key a LOAD puts in its slot, with its salt. -/
def State.loadedKey (s : State) (n salt : Nat) : KeySlot :=
  { state := .loaded, key := s.stagedKey, decrypt := s.rd F.CPH_KEY_CTL_dir == 1, salt := salt, devSalt := s.rd F.CPH_KEY_CTL_dev_salt == 1,
    next := 0, ctrLog2 := n, vf := s.rd F.CPH_KEY_CTL_vf, low := false, tagFail := 0 }

/-- The salts that R394 lets a LOAD give. -/
def State.saltOk (s : State) (salt : Nat) : Prop :=
  (s.rd F.CPH_KEY_CTL_dir = 1 → salt = if s.rd F.CPH_KEY_CTL_dev_salt = 1 then 0 else s.rd F.CPH_KEY_SALT_salt) ∧
    (s.rd F.CPH_KEY_CTL_dir ≠ 1 → s.rd F.CPH_KEY_CTL_dev_salt = 1 → salt = 0x80000000 + s.devAddr) ∧
    (s.rd F.CPH_KEY_CTL_dir ≠ 1 → s.rd F.CPH_KEY_CTL_dev_salt ≠ 1 → 1 ≤ salt ∧ salt < 2 ^ 32)

/-- The salt a LOAD gives, and the state with what it has drawn for it. -/
def State.drawSalt (s : State) : Nat × State :=
  if s.rd F.CPH_KEY_CTL_dir = 1 then (if s.rd F.CPH_KEY_CTL_dev_salt = 1 then 0 else s.rd F.CPH_KEY_SALT_salt, s)
  else if s.rd F.CPH_KEY_CTL_dev_salt = 1 then (0x80000000 + s.devAddr, s)
  else ((Config.free s.fresh).toNat % (2 ^ 32 - 1) + 1, { s with fresh := s.fresh + 1 })

theorem State.drawSalt_ok (s : State) : s.saltOk s.drawSalt.1 := by
  unfold State.saltOk State.drawSalt
  by_cases hd : s.rd F.CPH_KEY_CTL_dir = 1 <;> by_cases hv : s.rd F.CPH_KEY_CTL_dev_salt = 1 <;> simp [hd, hv]
  omega

theorem State.sameKeys_drawSalt (s : State) : SameKeys s s.drawSalt.2 := by
  unfold State.drawSalt
  split
  · exact SameKeys.refl s
  · split
    · exact SameKeys.refl s
    · exact s.sameKeys_draw _

/-- A key is loaded into the selected slot, and the command ends well. -/
def State.keyInto (s : State) (k : KeySlot) : State :=
  ({ s with slots := Tbl.set s.slots (s.rd F.CPH_KEY_CTL_slot) k }).clearStaged.keyResult 0

theorem State.loadKey_refused {s : State} {p : Path} {n : Nat} (h : s.loadRefusal p n ≠ 0) :
    s.loadKey p n = (s.putCtr n).clearStaged.keyResult (s.loadRefusal p n) := by
  have e := (s.sameKeys_putCtr n).loadRefusal p n
  unfold State.putCtr at e ⊢
  simp only [State.loadKey, e, if_pos h]

theorem State.loadKey_accepted {s : State} {p : Path} {n : Nat} (h : s.loadRefusal p n = 0) :
    s.loadKey p n = (s.putCtr n).drawSalt.2.keyInto ((s.putCtr n).loadedKey n (s.putCtr n).drawSalt.1) := by
  have e := (s.sameKeys_putCtr n).loadRefusal p n
  rw [h] at e
  unfold State.loadKey
  unfold State.putCtr at e ⊢
  generalize (if 20 ≤ n ∧ n ≤ 64 then s.wr F.CPH_KEY_CMD_ctr_log2 n else s.refuseWrite .CPH 0x38) = u at e ⊢
  unfold State.drawSalt
  by_cases hd : u.rd F.CPH_KEY_CTL_dir = 1
  · simp [e, hd, State.keyInto, State.loadedKey]
  · by_cases hv : u.rd F.CPH_KEY_CTL_dev_salt = 1
    · simp [e, hd, hv, State.keyInto, State.loadedKey]
    · simp [e, hd, hv, State.drawBelow, State.keyInto, State.loadedKey]
      rfl

theorem SameKeys.loadedKey {s t : State} (h : SameKeys s t) (n salt : Nat) : t.loadedKey n salt = s.loadedKey n salt := by
  simp only [State.loadedKey, h.stagedKey, h.rd F.CPH_KEY_CTL_dir _ rfl (by decide), h.rd F.CPH_KEY_CTL_dev_salt _ rfl (by decide),
    h.rd F.CPH_KEY_CTL_vf _ rfl (by decide)]

theorem SameKeys.saltOk {s t : State} (h : SameKeys s t) {salt : Nat} (ok : t.saltOk salt) : s.saltOk salt := by
  simpa only [State.saltOk, h.devAddr, h.rd F.CPH_KEY_CTL_dir _ rfl (by decide), h.rd F.CPH_KEY_CTL_dev_salt _ rfl (by decide),
    h.rd F.CPH_KEY_SALT_salt _ rfl (by decide)] using ok

/-- A LOAD that no row refuses puts the staged key in the selected slot, with a salt that R394 lets it give. -/
theorem State.loadKey_loads {s u : State} {p : Path} {n : Nat} (h : SameKeys s u) (h0 : s.loadRefusal p n = 0) :
    ∃ (v : State) (salt : Nat), SameKeys s v ∧ s.saltOk salt ∧ u.loadKey p n = v.keyInto (s.loadedKey n salt) := by
  have hc := h.trans (u.sameKeys_putCtr n)
  refine ⟨_, _, hc.trans (u.putCtr n).sameKeys_drawSalt, hc.saltOk (u.putCtr n).drawSalt_ok, ?_⟩
  rw [u.loadKey_accepted ((h.loadRefusal p n).trans h0), hc.loadedKey]

/-! ### The rows -/

theorem asManagerBy_of_managesBy {path : Path} {r : Bool} {s : State} (h : s.managesBy path r = true) (f : State → State) :
    asManagerBy path r f s = f s.touchSession := if_pos h

/-- A word that a path may stage is staged, for that path. -/
theorem keyWordWrite_stages {s : State} {path : Path} {k : Nat} (w : Nat) (hrun : s.power = .run) (hm : s.managesBy path false = true) (hk : k < 8)
    (hc : s.clearPath path = false) (hq : s.claimedElse path = false) :
    Completes (.keyWordWrite path k w) s fun t => Tbl.get? t.cph.words k = some (w % 2 ^ 32) ∧ t.cph.claim = some path ∧
      t.rd F.CPH_KEY_STATUS_staged = setBit (s.rd F.CPH_KEY_STATUS_staged) k % 2 ^ F.CPH_KEY_STATUS_staged.width ∧
      (∀ j : Nat, j ≠ k → Tbl.get? t.cph.words j = Tbl.get? s.cph.words j) ∧ t.slots = s.slots ∧ t.mem = s.mem := by
  refine completes_actOn hrun rfl (decide_eq_true hk) ?_
  have same := s.sameKeys_touchSession
  have free : ¬(s.touchSession.clearPath path = true ∨ s.touchSession.claimedElse path = true) := by
    rw [same.clearPath, State.claimedElse, same.cph, hc, ← State.claimedElse, hq]; decide
  rw [asManagerBy_of_managesBy hm, State.stageWord, if_neg free]
  refine ⟨Tbl.get?_set_self _ _ _, rfl, ?_, fun j hj => ?_, same.slots, same.mem⟩
  · exact (State.rd_wr_self _ _ _ _ (by decide)).trans (by rw [← s.touchSession_rd]; rfl)
  · exact (Tbl.get?_set_ne _ _ _ _ hj).trans (by rw [same.cph])

/-- A word on a path that may not stage it stages nothing. -/
theorem keyWordWrite_refused {s : State} {path : Path} {k : Nat} (w : Nat) (hrun : s.power = .run) (hm : s.managesBy path false = true) (hk : k < 8)
    (hno : s.clearPath path = true ∨ s.claimedElse path = true) :
    Completes (.keyWordWrite path k w) s fun t => t.cph = s.cph ∧ t.slots = s.slots ∧ t.mem = s.mem := by
  refine completes_actOn hrun rfl (decide_eq_true hk) ?_
  have same := s.sameKeys_touchSession
  have no : s.touchSession.clearPath path = true ∨ s.touchSession.claimedElse path = true := by
    rwa [same.clearPath, State.claimedElse, same.cph]
  rw [asManagerBy_of_managesBy hm, State.stageWord, if_pos no]
  have after := same.trans (s.touchSession.sameKeys_refuseWrite .CPH (0x10 + 4 * k) 0)
  exact ⟨after.cph, after.slots, after.mem⟩

/-- The staged words lapse. -/
theorem keyStageTimeout_clears {s : State} (hrun : s.power = .run) :
    Completes .keyStageTimeout s fun t =>
      t.cph.words = [] ∧ t.cph.claim = none ∧ t.rd F.CPH_KEY_STATUS_staged = 0 ∧ t.slots = s.slots ∧ t.mem = s.mem :=
  completes_act hrun rfl ⟨rfl, rfl, State.rd_wr_self _ _ _ _ (by decide), rfl, rfl⟩

/-- A LOAD that no row refuses. -/
theorem load_loads {s : State} {path : Path} {n : Nat} (hrun : s.power = .run) (hm : s.managesBy path false = true) (h0 : s.loadRefusal path n = 0) :
    Completes (.load path n) s fun t =>
      (∃ salt : Nat, t.slots = Tbl.set s.slots (s.rd F.CPH_KEY_CTL_slot) (s.loadedKey n salt) ∧ s.saltOk salt) ∧
      t.cph.words = [] ∧ t.rd F.CPH_KEY_STATUS_done = 1 ∧ t.rd F.CPH_KEY_STATUS_refused = 0 ∧ t.mem = s.mem := by
  refine completes_act hrun rfl ?_
  obtain ⟨v, salt, same, ok, e⟩ := State.loadKey_loads s.sameKeys_touchSession h0
  rw [asManagerBy_of_managesBy hm, e]
  refine ⟨⟨salt, ?_, ok⟩, rfl, State.rd_keyResult_done _ 0, State.rd_keyResult_refused _ 0, same.mem⟩
  rw [← same.slots, ← same.rd F.CPH_KEY_CTL_slot 0 rfl (by decide)]
  rfl

/-- A LOAD that a row refuses. -/
theorem load_refused {s : State} {path : Path} {n : Nat} (hrun : s.power = .run) (hm : s.managesBy path false = true) (h0 : s.loadRefusal path n ≠ 0) :
    Completes (.load path n) s fun t => t.slots = s.slots ∧ t.cph.words = [] ∧ t.rd F.CPH_KEY_STATUS_done = 0 ∧ t.rd F.CPH_KEY_STATUS_refused = 1 ∧
      t.rd F.CPH_KEY_STATUS_reason = s.loadRefusal path n ∧ (n < 20 ∨ 64 < n → t.rd F.CPH_KEY_CMD_ctr_log2 = s.rd F.CPH_KEY_CMD_ctr_log2) ∧
      t.mem = s.mem := by
  refine completes_act hrun rfl ?_
  have e := s.sameKeys_touchSession.loadRefusal path n
  have same := s.sameKeys_touchSession.trans (s.touchSession.sameKeys_putCtr n)
  rw [asManagerBy_of_managesBy hm, State.loadKey_refused (e ▸ h0), e]
  refine ⟨same.slots, rfl, ?_, ?_, ?_, fun hn => ?_, same.mem⟩
  · exact (State.rd_keyResult_done _ _).trans (by simp [h0, b2n])
  · exact (State.rd_keyResult_refused _ _).trans (by simp [h0, b2n])
  · have := s.loadRefusal_le path n
    exact (State.rd_keyResult_reason _ _).trans (Nat.mod_eq_of_lt (by omega))
  · calc _ = (s.touchSession.putCtr n).rd F.CPH_KEY_CMD_ctr_log2 :=
          (State.rd_keyResult_reg _ _ _ _ (by decide)).trans (State.rd_clearStaged_reg _ _ _ (by decide))
      _ = s.touchSession.rd F.CPH_KEY_CMD_ctr_log2 := State.rd_putCtr_outside _ _ hn _ _ rfl
      _ = s.rd F.CPH_KEY_CMD_ctr_log2 := s.touchSession_rd _ _

/-- Settles O39: each row on the state that the access of the session's holder leaves, which a LOAD judges as it judges the state before. -/
theorem keysAreStagedAndLoaded : Obligations.KeysAreStagedAndLoaded := fun _ _ hrun =>
  ⟨fun _ w hm hk hc hq => keyWordWrite_stages w hrun hm hk hc hq, fun _ w hm hk hno => keyWordWrite_refused w hrun hm hk hno,
    keyStageTimeout_clears hrun, fun _ hm h0 => load_loads hrun hm h0, fun _ hm h0 => load_refused hrun hm h0⟩

end Sys2Proof.Machine
end

section
/-!
PROOFS. Register accesses (R10, R315, R512): path 2 is BAR2 of physical function 0 on link 0, and a root link has no physical function (R313).
-/

namespace Sys2Proof.Machine

/-- On a root link 0 there is no path 2: a write by it changes nothing. -/
theorem State.regWrite_pf0_of_root {s : State} (h : s.isRoot 0 = true) (link off : Nat) (data : List Byte) :
    s.regWrite .pf0 link off data = s := by
  simp [State.regWrite, h]

/-- So a REGISTER_WRITE by path 2 ends there in the state it began in. -/
theorem exec_registerWrite_pf0_of_root {s t : State} (h : s.isRoot 0 = true) {link off : Nat} {data : List Byte}
    (e : exec (.registerWrite .pf0 link off data) s = .next t) : t = s := by
  change actOn (pathOk .pf0 link) s (fun s => s.regWrite .pf0 link off data) = .next t at e
  simp only [actOn, act, State.regWrite_pf0_of_root h] at e
  split at e
  · split at e <;> cases e <;> rfl
  · cases e

/-- A layout whose host port 0 is a root port and whose manager-access flags open path 2. -/
def rootLayout : Layout :=
  { header := [], serial := 1, rollback := 0, parts := [], pools := [], ports := [], hosts := [⟨1, 0, 5, false, 0⟩], stages := [], routes := [],
    recipes := [], curfew := [], capW := 700, domains := [], access := ⟨1, [], []⟩, overrides := [] }

/-- The device under that layout, its root link 0 up, path 2 holding the manager role. -/
def rootHeldByPath2 : State :=
  { (State.reset.wr F.HPT_LINK_state 2 0).wr F.HPT_LINK_role 1 0 with
    lay := { State.reset.lay with running := some rootLayout }
    mgt := { State.reset.mgt with session := some ⟨none, 0, 0, 0, []⟩ } }

/-- It meets every hypothesis of the statement's clause on path 2, for a write of 8 bytes of GLB_SCRATCH. -/
theorem rootHeldByPath2_meets : rootHeldByPath2.power = .run ∧ rootHeldByPath2.linkUp 0 = true ∧ rootHeldByPath2.pf0Holds = true ∧
    rootHeldByPath2.pf0Answers 0x8 = true ∧ rootHeldByPath2.rd F.MGT_BOOT_mode ≠ 2 ∧ rootHeldByPath2.touchSession.reaches 0x8 8 = true ∧
    alignedWrite 0x8 8 = true := by decide +kernel

theorem rootHeldByPath2_isRoot : rootHeldByPath2.isRoot 0 = true := by decide +kernel

/-- GLB_SCRATCH reads 0 there, and would read 1 if the register were written. -/
theorem rootHeldByPath2_scratch : rootHeldByPath2.rd F.GLB_SCRATCH_value = 0 ∧
    (rootHeldByPath2.touchSession.writeAt .pf0 0 0x8 [1, 0, 0, 0, 0, 0, 0, 0]).rd F.GLB_SCRATCH_value = 1 := by decide +kernel

/-- Refutes O6: its clause on path 2 does not ask that link 0 is an endpoint link. On a root link 0, up, with path 2 open and holding the role, the
device carries out no access by path 2, which is no function of its own there (R313, R512), and the write the clause promises is not made. -/
theorem not_registerAccess : ¬ Obligations.RegisterAccess := by
  intro h
  obtain ⟨hrun, hup, hholds, hanswers, hmode, hreaches, haligned⟩ := rootHeldByPath2_meets
  obtain ⟨-, -, path2, -⟩ := h rootHeldByPath2 0 0x8 hrun (by decide)
  obtain ⟨t, ht, written⟩ := path2 [1, 0, 0, 0, 0, 0, 0, 0] hup hholds hanswers hmode hreaches haligned
  have unchanged : t = rootHeldByPath2 := exec_registerWrite_pf0_of_root rootHeldByPath2_isRoot ht
  have reads : rootHeldByPath2.rd F.GLB_SCRATCH_value = 1 :=
    (congrArg (fun u : State => u.rd F.GLB_SCRATCH_value) (unchanged.symm.trans written)).trans rootHeldByPath2_scratch.2
  exact absurd (rootHeldByPath2_scratch.1.symm.trans reads) (by decide)

end Sys2Proof.Machine
end

section
/-!
PROOFS. What several operations share: changes that reach one register and the logbook alone (R33, R480), a row of the manager's that the role's
holder gives (R1, R499), causes recorded on operations (R273).
-/

namespace Sys2Proof.Machine

/-- What writing one register with its records can do: that register, the logbook, the tray queue and the registers of `isLog` may change, nothing else. -/
def RegOnly (r : Reg) (s t : State) : Prop :=
  ∃ (rg : Tbl Word) (l : LogSt) (m : MgtSt), t = { s with regs := rg, log := l, mgt := { s.mgt with traySeq := m.traySeq, sending := m.sending, tray := m.tray } } ∧
    ∀ q i, q.isLog = false → q ≠ r → t.reg q i = s.reg q i

theorem RegOnly.trans {r : Reg} {s t u : State} (h : RegOnly r s t) (k : RegOnly r t u) : RegOnly r s u := by
  obtain ⟨rg, l, m, rfl, hr⟩ := h
  obtain ⟨rg', l', m', rfl, hr'⟩ := k
  exact ⟨rg', l', m', rfl, fun q i hl hq => (hr' q i hl hq).trans (hr q i hl hq)⟩

theorem RegOnly.of_log {s t : State} (h : LogOnly s t) (r : Reg) : RegOnly r s t := by
  obtain ⟨rg, l, m, e, hr⟩ := h
  exact ⟨rg, l, m, e, fun q i hl _ => hr q i hl⟩

theorem RegOnly.refl (r : Reg) (s : State) : RegOnly r s s := .of_log (LogOnly.refl s) r

theorem RegOnly.wr (s : State) (f : Fld) (v i : Nat) : RegOnly f.reg s (s.wr f v i) :=
  ⟨_, s.log, s.mgt, rfl, fun q j _ hq => State.reg_setReg_ne s q f.reg j i _ (.inl hq)⟩

theorem RegOnly.logEv {r : Reg} {s t : State} (h : RegOnly r s t) (b : Blk) (e : Ev) (d sub i : Nat) (inj : Bool) :
    RegOnly r s (t.logEv b e d sub i inj) := h.trans (.of_log (t.logEv_only ..) r)

theorem RegOnly.rd {r : Reg} {s t : State} (h : RegOnly r s t) (f : Fld) (i : Nat) (hl : f.reg.isLog = false) (hr : f.reg ≠ r) : t.rd f i = s.rd f i := by
  obtain ⟨_, _, _, _, hrd⟩ := h
  unfold State.rd
  rw [hrd f.reg i hl hr]

theorem RegOnly.kln {r : Reg} {s t : State} (h : RegOnly r s t) : t.kln = s.kln := by obtain ⟨_, _, _, rfl, _⟩ := h; rfl
theorem RegOnly.lay {r : Reg} {s t : State} (h : RegOnly r s t) : t.lay = s.lay := by obtain ⟨_, _, _, rfl, _⟩ := h; rfl
theorem RegOnly.built {r : Reg} {s t : State} (h : RegOnly r s t) : t.built = s.built := by obtain ⟨_, _, _, rfl, _⟩ := h; rfl
theorem RegOnly.cmn {r : Reg} {s t : State} (h : RegOnly r s t) : t.cmn = s.cmn := by obtain ⟨_, _, _, rfl, _⟩ := h; rfl
theorem RegOnly.bxt {r : Reg} {s t : State} (h : RegOnly r s t) : t.bxt = s.bxt := by obtain ⟨_, _, _, rfl, _⟩ := h; rfl
theorem RegOnly.ops {r : Reg} {s t : State} (h : RegOnly r s t) : t.ops = s.ops := by obtain ⟨_, _, _, rfl, _⟩ := h; rfl
theorem RegOnly.mem {r : Reg} {s t : State} (h : RegOnly r s t) : t.mem = s.mem := by obtain ⟨_, _, _, rfl, _⟩ := h; rfl
theorem RegOnly.outbox {r : Reg} {s t : State} (h : RegOnly r s t) : t.outbox = s.outbox := by obtain ⟨_, _, _, rfl, _⟩ := h; rfl
theorem RegOnly.egress {r : Reg} {s t : State} (h : RegOnly r s t) : t.egress = s.egress := by obtain ⟨_, _, _, rfl, _⟩ := h; rfl
theorem RegOnly.lports {r : Reg} {s t : State} (h : RegOnly r s t) : t.lports = s.lports := by obtain ⟨_, _, _, rfl, _⟩ := h; rfl
theorem RegOnly.hpt {r : Reg} {s t : State} (h : RegOnly r s t) : t.hpt = s.hpt := by obtain ⟨_, _, _, rfl, _⟩ := h; rfl

/-- Every copy of a field of the same register that shares no bit with the one written reads as before. -/
theorem State.rd_wr_bits (s : State) (f g : Fld) (v i j : Nat) (h : f.reg = g.reg) (hg : g.fits) (ha : f.apart g) : (s.wr g v j).rd f i = s.rd f i := by
  by_cases hij : i = j
  · rw [hij]; exact s.rd_wr_apart f g v j h hg ha
  · exact s.rd_wr_index f g v i j hij

/-! ### The counts of spares (R31, R33, R480) -/

theorem State.spareCounts_only (s : State) (res active spare retired : Nat) : RegOnly .TEL_SPARE s (s.spareCounts res active spare retired) :=
  (((RegOnly.wr s F.TEL_SPARE_active _ _).trans (.wr _ F.TEL_SPARE_spare _ _)).trans (.wr _ F.TEL_SPARE_retired _ _)).logEv ..

theorem State.countRetired_only (s : State) (res unit : Nat) (wasSpare : Bool) : RegOnly .TEL_SPARE s (s.countRetired res unit wasSpare) :=
  (s.spareCounts_only ..).logEv ..

theorem State.countMapped_only (s : State) (res unit spare : Nat) : RegOnly .TEL_SPARE s (s.countMapped res unit spare) := (s.spareCounts_only ..).logEv ..

/-! ### The role's holder (R1, R499) -/

theorem asManager_of_manages {r : Bool} {s : State} (h : s.manages r = true) (f : State → State) : asManager r f s = f s.touchSession := if_pos h

@[simp] theorem State.touchSession_outbox (s : State) : s.touchSession.outbox = s.outbox := by
  rcases s.touchSession_cases with h | ⟨_, _, h⟩ <;> rw [h]

@[simp] theorem State.touchSession_egress (s : State) : s.touchSession.egress = s.egress := by
  rcases s.touchSession_cases with h | ⟨_, _, h⟩ <;> rw [h]

/-! ### Causes of operations (R273) -/

/-- From s to t the operations may have changed, and nothing else. -/
def OpsOnly (s t : State) : Prop := ∃ o : Tbl Op, t = { s with ops := o }

theorem OpsOnly.refl (s : State) : OpsOnly s s := ⟨s.ops, rfl⟩

theorem OpsOnly.rd {s t : State} (h : OpsOnly s t) (f : Fld) (i : Nat) : t.rd f i = s.rd f i := by obtain ⟨_, rfl⟩ := h; rfl
theorem OpsOnly.mem {s t : State} (h : OpsOnly s t) : t.mem = s.mem := by obtain ⟨_, rfl⟩ := h; rfl

theorem State.recordCauses_only {α : Type} (s : State) (l : List α) (id : α → Nat) (cause : Nat) :
    OpsOnly s (l.foldl (fun (s : State) q => s.recordCause (id q) cause) s) := by
  refine List.foldlRecOn l _ (motive := OpsOnly s) (OpsOnly.refl s) ?_
  rintro t ⟨o, rfl⟩ q -
  exact ⟨_, rfl⟩

end Sys2Proof.Machine
end

section
/-!
PROOFS. The Kilmet link (R19-R27): what a flit, a NAK, an acknowledgement, a credit and a retraining leave of the two ends.
-/

namespace Sys2Proof.Machine

/-! ### The two ends -/

@[simp] theorem State.klnDir_setKln_self (s : State) (m d : Nat) (k : KlnDir) : (s.setKln m d k).klnDir m d = k := Tbl.getD_set_self _ _ _ _

/-- What a direction of a module holds is read off the link's table alone. -/
theorem State.klnDir_of_dirs {s t : State} (h : t.kln.dirs = s.kln.dirs) (m d : Nat) : t.klnDir m d = s.klnDir m d := by
  rw [State.klnDir, h]; rfl

/-- From s to t no credit was granted, and each receiving end still owes an acknowledgement of as many flits. -/
structure KlnKept (s t : State) : Prop where
  granted : t.kln.granted = s.kln.granted
  toAck : ∀ m d : Nat, (t.klnDir m d).toAck = (s.klnDir m d).toAck

theorem KlnKept.refl (s : State) : KlnKept s s := ⟨rfl, fun _ _ => rfl⟩

theorem KlnKept.trans {s t u : State} (h : KlnKept s t) (k : KlnKept t u) : KlnKept s u :=
  ⟨k.granted.trans h.granted, fun m d => (k.toAck m d).trans (h.toAck m d)⟩

/-- A change of a direction that leaves what its receiving end owes. -/
theorem State.setKln_kept (s : State) (m d : Nat) (k : KlnDir) (h : k.toAck = (s.klnDir m d).toAck) : KlnKept s (s.setKln m d k) := by
  refine ⟨rfl, fun m' d' => ?_⟩
  unfold State.klnDir State.setKln Tbl.getD
  rw [Tbl.get?_set]
  split
  · next e => rw [e]; exact h
  · rfl

/-- Flits of retired modules that find room change what is sent, not what has been taken. -/
theorem State.klnDrain_kept (s : State) : KlnKept s s.klnDrain := by
  unfold State.klnDrain
  refine List.foldlRecOn _ _ (motive := KlnKept s) ⟨rfl, fun _ _ => rfl⟩ fun t ht q _ => ht.trans ?_
  split
  · exact ⟨rfl, fun _ _ => rfl⟩
  · exact t.setKln_kept _ _ _ rfl

theorem State.klnAcked_kept (s : State) (m d n : Nat) : KlnKept s (s.klnAcked m d n) := by
  unfold State.klnAcked
  dsimp only
  split
  · exact KlnKept.refl s
  · refine KlnKept.trans ?_ (State.klnDrain_kept _)
    exact s.setKln_kept _ _ _ rfl

theorem State.klnOwed_kept (s : State) : KlnKept s s.klnOwed := by
  unfold State.klnOwed
  refine KlnKept.trans ?_ (State.klnDrain_kept _)
  refine List.foldlRecOn _ _ (motive := KlnKept s) ⟨rfl, fun _ _ => rfl⟩ fun t ht q _ => ht.trans ?_
  dsimp only
  split <;> exact ⟨rfl, fun _ _ => rfl⟩

/-- The receiver's acknowledgement clears what it owed (R24). -/
theorem State.klnAckNow_toAck (s : State) (m d : Nat) : ((s.klnAckNow m d).klnDir m d).toAck = 0 := by
  unfold State.klnAckNow
  rw [(State.klnAcked_kept _ m d _).toAck, State.klnDir_setKln_self]

/-- A cumulative count of credits that is newer is granted, and what waits for credit goes on; an older one changes nothing (R25). -/
theorem State.klnGrant_eq (s : State) (d ch n : Nat) : s.klnGrant d ch n =
    if serialOlder 32 (Tbl.getD s.kln.granted (d * 8 + ch) 0) n then
      State.klnOwed { s with kln := { s.kln with granted := Tbl.set s.kln.granted (d * 8 + ch) (n % 2 ^ 32) } }
    else s := rfl

/-- A newer count stands. -/
theorem State.klnGrant_newer {s : State} {d ch n : Nat} (h : serialOlder 32 (Tbl.getD s.kln.granted (d * 8 + ch) 0) n = true) :
    Tbl.getD (s.klnGrant d ch n).kln.granted (d * 8 + ch) 0 = n % 2 ^ 32 := by
  rw [State.klnGrant_eq, if_pos h, (State.klnOwed_kept _).granted]
  exact Tbl.getD_set_self _ _ _ _

/-- Where no flit waits for credit or room, a count of credits changes nothing but the credits. -/
theorem State.klnOwed_none {s : State} (ho : s.kln.owed = []) (hh : s.kln.held = []) : s.klnOwed.kln.dirs = s.kln.dirs ∧ s.klnOwed.outbox = s.outbox := by
  simp [State.klnOwed, State.klnDrain, ho, hh]

/-! ### Retraining and replay (R23, R24, R27) -/

/-- A module that runs and retrains is shown retraining, and counted. -/
theorem State.klnRetrain_runs {s : State} {m : Nat} (h : s.klnRuns m = true) : (s.klnRetrain m).rd F.KLN_MOD_state m = 1 ∧
    (s.klnRetrain m).rd F.KLN_MOD_retrains m = (s.rd F.KLN_MOD_retrains m + 1) % 2 ^ F.KLN_MOD_retrains.width := by
  rw [State.klnRetrain, if_pos h]
  constructor
  · rw [State.rd_logEv _ _ _ _ _ _ _ _ _ rfl, State.rd_bump_ne _ _ _ _ _ _ (.inl (by decide)), State.rd_wr_self _ _ _ _ (by decide)]
    rfl
  · rw [State.rd_logEv _ _ _ _ _ _ _ _ _ rfl, State.rd_bump_self _ _ _ _ (by decide), State.rd_wr_reg _ _ _ _ _ _ (by decide)]

@[simp] theorem State.kln_klnRetrain (s : State) (m : Nat) : (s.klnRetrain m).kln = s.kln := by
  unfold State.klnRetrain; split <;> simp

@[simp] theorem State.outbox_klnRetrain (s : State) (m : Nat) : (s.klnRetrain m).outbox = s.outbox := by
  unfold State.klnRetrain; split <;> simp

theorem State.rd_klnRetrain_replays (s : State) (m : Nat) : (s.klnRetrain m).rd F.KLN_MOD_replays m = s.rd F.KLN_MOD_replays m := by
  unfold State.klnRetrain
  split
  · rw [State.rd_logEv _ _ _ _ _ _ _ _ _ rfl, State.rd_bump_ne _ _ _ _ _ _ (.inl (by decide)), State.rd_wr_reg _ _ _ _ _ _ (by decide)]
  · rfl

/-- The flits that a replay from an `fseq` on sends again. -/
def State.klnAgain (s : State) (m d n : Nat) : List (Nat × List Byte) := (s.klnDir m d).unacked.filter fun q => !serialOlder 12 q.1 n

/-- With nothing to send again a replay ends. -/
theorem State.klnReplay_none {s : State} {m d n : Nat} (h : s.klnAgain m d n = []) :
    s.klnReplay m d n = s.setKln m d { s.klnDir m d with replay := none } := by
  unfold State.klnAgain at h
  unfold State.klnReplay
  simp only [h]

/-- How often a replay has begun at one flit in succession, from this one on. -/
def KlnDir.timesAt (k : KlnDir) (f : Nat) : Nat := if k.replayed = f then k.times + 1 else 1

/-- The direction as a replay from the flit `f` leaves it. -/
def KlnDir.replayFrom (k : KlnDir) (f : Nat) : KlnDir :=
  { k with replay := some f, replayed := f, times := if k.timesAt f = 8 then 0 else k.timesAt f }

/-- A replay begins at the first flit to be sent again and counts all of them; the eighth in succession retrains the module. -/
theorem State.klnReplay_some {s : State} {m d n f : Nat} {g : List Byte} {l : List (Nat × List Byte)} (h : s.klnAgain m d n = (f, g) :: l) :
    let t := (s.setKln m d ((s.klnDir m d).replayFrom f)).bump F.KLN_MOD_replays (l.length + 1) m
    s.klnReplay m d n = if (s.klnDir m d).timesAt f = 8 then t.klnRetrain m else t := by
  unfold State.klnAgain at h
  unfold State.klnReplay
  simp only [h]
  rfl

theorem State.klnReplay_dir {s : State} {m d n f : Nat} {g : List Byte} {l : List (Nat × List Byte)} (h : s.klnAgain m d n = (f, g) :: l) :
    (s.klnReplay m d n).klnDir m d = (s.klnDir m d).replayFrom f := by
  rw [State.klnReplay_some h]
  split
  · rw [State.klnDir_of_dirs (congrArg KlnSt.dirs (State.kln_klnRetrain _ m))]; exact State.klnDir_setKln_self _ _ _ _
  · exact State.klnDir_setKln_self _ _ _ _

/-- Every flit sent again is counted. -/
theorem State.klnReplay_replays (s : State) (m d n : Nat) :
    (s.klnReplay m d n).rd F.KLN_MOD_replays m = (s.rd F.KLN_MOD_replays m + (s.klnAgain m d n).length) % 2 ^ F.KLN_MOD_replays.width := by
  cases h : s.klnAgain m d n with
  | nil =>
    rw [State.klnReplay_none h]
    exact (Nat.mod_eq_of_lt (s.rd_lt F.KLN_MOD_replays m)).symm
  | cons q l =>
    rw [State.klnReplay_some h]
    split
    · rw [State.rd_klnRetrain_replays]; exact State.rd_bump_self _ _ _ _ (by decide)
    · exact State.rd_bump_self _ _ _ _ (by decide)

/-- A replay is the sender's: what the receiving end expects and discards stays, and nothing is passed on. -/
theorem State.klnReplay_receiver (s : State) (m d n : Nat) : ((s.klnReplay m d n).klnDir m d).discards = (s.klnDir m d).discards ∧
    ((s.klnReplay m d n).klnDir m d).rxSeq = (s.klnDir m d).rxSeq ∧ (s.klnReplay m d n).outbox = s.outbox := by
  cases h : s.klnAgain m d n with
  | nil => rw [State.klnReplay_none h]; simp
  | cons q l =>
    rw [State.klnReplay_dir h]
    refine ⟨rfl, rfl, ?_⟩
    rw [State.klnReplay_some h]
    split <;> simp

/-! ### A flit that crosses (R21-R26) -/

/-- A new flit, good and in order at both ends of a module in service, without an acknowledgement, with no injection armed, no replay going on, and the
receiving end not yet at the 64 flits it acknowledges at once. -/
structure State.KlnInOrder (s : State) (m d : Nat) (f : List Byte) : Prop where
  runs : s.klnRuns m = true
  unarmed : s.inj = none
  idle : (s.klnDir m d).replay = none
  room : (s.klnDir m d).unacked.length < 512
  next : flitSeq f = (s.klnDir m d).txSeq
  expected : flitSeq f = (s.klnDir m d).rxSeq
  good : flitGood f = true
  known : flitKnown f true = true
  noAck : flitAckValid f = false
  few : (s.klnDir m d).toAck < 63

/-- What traffic needs to be sent: credit, and, for a completion, no data of its operation before it (R25, R26). -/
structure State.KlnMaySend (s : State) (d : Nat) (f : List Byte) : Prop where
  credit : flitKind f < 3 → s.klnCredit d (flitChan f) ≠ 0
  order : flitKind f = 2 → flitChan f ≠ 4 → s.klnDataOut d (flitTag f) = false

/-- The state u is s but for what a flit on its way uses: its place in the sender's direction, credit, the source's copy of a block. -/
structure KlnOnTheWay (s u : State) : Prop where
  outbox : u.outbox = s.outbox
  inj : u.inj = s.inj
  fenced : u.kln.fenced = s.kln.fenced
  granted : u.kln.granted = s.kln.granted
  owed : u.kln.owed = s.kln.owed
  held : u.kln.held = s.kln.held

theorem KlnOnTheWay.klnFenced {s u : State} (h : KlnOnTheWay s u) (d : Nat) (f : List Byte) : u.klnFenced d f = s.klnFenced d f := by
  rw [State.klnFenced, h.fenced]; rfl

/-- A new flit is sent and enters the sender's buffer. -/
theorem State.klnSend_new {s : State} {m d : Nat} {f : List Byte} (h : s.KlnInOrder m d f) (may : s.KlnMaySend d f) :
    ∃ u, s.klnSend m d f = some u ∧ KlnOnTheWay s u ∧ u.klnDir m d =
      { s.klnDir m d with txSeq := ((s.klnDir m d).txSeq + 1) % 4096, unacked := (s.klnDir m d).unacked ++ [((s.klnDir m d).txSeq, f)] } := by
  have pass : ¬(flitSeq f ≠ (s.klnDir m d).txSeq ∨ 512 ≤ (s.klnDir m d).unacked.length ∨
      (decide (flitKind f < 3) = true ∧ s.klnCredit d (flitChan f) = 0) ∨ (flitKind f = 2 ∧ flitChan f ≠ 4 ∧ s.klnDataOut d (flitTag f) = true)) := by
    rintro (e | e | ⟨k, e⟩ | ⟨k, c, e⟩)
    · exact e h.next
    · exact absurd h.room (Nat.not_lt.mpr e)
    · exact may.credit (of_decide_eq_true k) e
    · rw [may.order k c] at e; cases e
  unfold State.klnSend
  simp only [h.idle, if_neg pass]
  refine ⟨_, rfl, ?_, ?_⟩
  · split <;> split <;> exact ⟨rfl, rfl, rfl, rfl, rfl, rfl⟩
  · split <;> split <;> exact State.klnDir_setKln_self _ _ _ _

/-- The receiving end takes a flit in order, and expects the next (R23, R24). -/
theorem State.klnCross_takes {s : State} {m d : Nat} {f : List Byte} (h : s.KlnInOrder m d f) (may : s.KlnMaySend d f) :
    ∃ u, s.klnCross m d f f true = u.klnTake m d f ∧ KlnOnTheWay s u ∧ (u.klnDir m d).rxSeq = ((s.klnDir m d).rxSeq + 1) % 4096 ∧
      (u.klnDir m d).unacked = (s.klnDir m d).unacked ++ [((s.klnDir m d).txSeq, f)] := by
  obtain ⟨v, hv, way, hdir⟩ := s.klnSend_new h may
  have few : ¬ 64 ≤ (s.klnDir m d).toAck + 1 := by have := h.few; omega
  refine ⟨v.setKln m d { v.klnDir m d with rxSeq := ((v.klnDir m d).rxSeq + 1) % 4096, discards := false, toAck := (v.klnDir m d).toAck + 1 }, ?_,
    ⟨way.outbox, way.inj, way.fenced, way.granted, way.owed, way.held⟩, ?_, ?_⟩
  · simp [State.klnCross, State.klnReceive, State.inject, h.runs, hv, way.inj, h.unarmed, h.good, h.known, hdir, h.expected, h.noAck, few]
  · simp [hdir]
  · simp [hdir]

/-- A flit that arrives broken makes the receiving end discard, and nothing is passed on (R23). -/
theorem State.klnCross_broken {s : State} {m d : Nat} {f g : List Byte} (h : s.KlnInOrder m d f) (may : s.KlnMaySend d f) (bad : flitGood g = false) :
    let t := s.klnCross m d f g true
    (t.klnDir m d).discards = true ∧ (t.klnDir m d).rxSeq = (s.klnDir m d).rxSeq ∧ t.outbox = s.outbox := by
  obtain ⟨v, hv, way, hdir⟩ := s.klnSend_new h may
  have e : s.klnCross m d f g true = v.klnDiscard m d true := by
    simp [State.klnCross, State.klnReceive, State.inject, h.runs, hv, way.inj, h.unarmed, bad]
  obtain ⟨discards, rxSeq, outbox⟩ := State.klnReplay_receiver ((v.bump (if d = 0 then F.KLN_MOD_crc_g2h else F.KLN_MOD_crc_h2g) 1 m).setKln m d
    { v.klnDir m d with discards := true }) m d (v.klnDir m d).rxSeq
  rw [State.klnDir_setKln_self] at discards rxSeq
  rw [e]
  exact ⟨discards, rxSeq.trans (by rw [hdir]), outbox.trans way.outbox⟩

/-- Requests and completions of a partition not fenced here are passed on. -/
theorem State.klnTake_passes {s : State} {m d : Nat} {f : List Byte} (hk : flitKind f = 0 ∨ flitKind f = 2) (hf : s.klnFenced d f = false) :
    s.klnTake m d f = s.emit (.flit d f) := by
  rcases hk with hk | hk <;> simp [State.klnTake, hk, hf]

/-- A block whose CRC is good is passed on, and its source keeps it no longer (R361). -/
theorem State.klnTake_block {s : State} {m d : Nat} {f : List Byte} (hk : flitKind f = 1) (hf : s.klnFenced d f = false) (hb : flitBlockGood f = true) :
    s.klnTake m d f = State.emit { s with tier := { s.tier with kept := Tbl.erase s.tier.kept (flitBlock d f) } } (.flit d f) := by
  simp [State.klnTake, hk, hf, hb]

/-- A newer credit flit, where no flit waits for credit or room, grants what it carries and changes nothing else (R25). -/
theorem State.klnTake_credit {s : State} {m d : Nat} {f : List Byte} (hk : flitKind f = 3) (ho : s.kln.owed = []) (hh : s.kln.held = [])
    (hn : serialOlder 32 (Tbl.getD s.kln.granted ((1 - d) * 8 + bitsOf (flitAux f) 32 3) 0) (bitsOf (flitAux f) 0 32) = true) :
    Tbl.getD (s.klnTake m d f).kln.granted ((1 - d) * 8 + bitsOf (flitAux f) 32 3) 0 = bitsOf (flitAux f) 0 32 ∧
      (s.klnTake m d f).kln.dirs = s.kln.dirs ∧ (s.klnTake m d f).outbox = s.outbox := by
  have e : s.klnTake m d f = s.klnGrant (1 - d) (bitsOf (flitAux f) 32 3) (bitsOf (flitAux f) 0 32) := by simp [State.klnTake, hk]
  rw [e]
  refine ⟨(State.klnGrant_newer hn).trans (Nat.mod_mod _ _), ?_⟩
  rw [State.klnGrant_eq, if_pos hn]
  exact State.klnOwed_none ho hh

/-- A FENCE flit fences its partition, and changes nothing else (R21, R22). -/
theorem State.klnTake_fence {s : State} {m d : Nat} {f : List Byte} (hk : flitKind f = 4) (hs : flitSub f = ctlFence) :
    (s.klnTake m d f).kln.fenced.contains (d * 64 + flitPart f) = true ∧ (s.klnTake m d f).kln.dirs = s.kln.dirs ∧
      (s.klnTake m d f).outbox = s.outbox := by
  simp only [State.klnTake, State.klnControl, hk, hs]
  refine ⟨?_, rfl, rfl⟩
  show (if _ then _ else _ : List Nat).contains _ = true
  split
  · assumption
  · simp

/-! ### The end of a retraining (R27) -/

/-- Logging the lanes repaired changes the logbook alone. -/
theorem State.klnRepairs_only (s : State) (m n : Nat) : LogOnly s (s.klnRepairs m n) :=
  List.foldlRecOn _ _ (motive := LogOnly s) (LogOnly.refl s) fun _ ht _ _ => (ht.trans (State.logEv_only ..)).trans (State.logEv_only ..)

/-- Showing the lanes repaired changes TEL_SPARE and the logbook alone. -/
theorem State.klnLanes_only (s : State) : RegOnly .TEL_SPARE s s.klnLanes := by
  unfold State.klnLanes
  dsimp only
  split
  · exact RegOnly.refl _ s
  · exact s.spareCounts_only ..

theorem State.klnAckLate_empty {s : State} {m d : Nat} (h : (s.klnDir m d).unacked = []) : s.klnAckLate m d = s := by
  simp [State.klnAckLate, h]

/-- A retraining that ends well with lanes left, where nothing waits to be replayed, puts the module in service with its repaired lanes counted. -/
theorem State.klnTrained_well {s : State} {m g2h h2g : Nat} (hst : s.rd F.KLN_MOD_state m = 1) (ha : s.rd F.KLN_MOD_rep_g2h m + g2h ≤ 4)
    (hb : s.rd F.KLN_MOD_rep_h2g m + h2g ≤ 4) (h0 : (s.klnDir m 0).unacked = []) (h1 : (s.klnDir m 1).unacked = []) :
    let t := s.klnTrained m true g2h h2g
    t.rd F.KLN_MOD_state m = 0 ∧ t.rd F.KLN_MOD_rep_g2h m = s.rd F.KLN_MOD_rep_g2h m + g2h ∧ t.rd F.KLN_MOD_rep_h2g m = s.rd F.KLN_MOD_rep_h2g m + h2g := by
  set a := s.rd F.KLN_MOD_rep_g2h m + g2h with ea
  set b := s.rd F.KLN_MOD_rep_h2g m + h2g with eb
  let u := ((s.wr F.KLN_MOD_state 0 m).wr F.KLN_MOD_rep_g2h a m).wr F.KLN_MOD_rep_h2g b m
  let v := (u.klnRepairs m (g2h + h2g)).logEv .KLN .stateChange 0 m m
  have only : RegOnly .TEL_SPARE u v.klnLanes := ((RegOnly.of_log (u.klnRepairs_only _ _) _).logEv ..).trans v.klnLanes_only
  have dir (d : Nat) : v.klnLanes.klnDir m d = s.klnDir m d := State.klnDir_of_dirs (congrArg KlnSt.dirs only.kln) m d
  have e : s.klnTrained m true g2h h2g = v.klnLanes := by
    rw [State.klnTrained, if_neg (not_not.mpr hst)]
    show (if true = true ∧ a ≤ 4 ∧ b ≤ 4 then (v.klnLanes.klnAckLate m 0).klnAckLate m 1 else _) = _
    rw [if_pos ⟨rfl, ha, hb⟩, State.klnAckLate_empty ((congrArg KlnDir.unacked (dir 0)).trans h0),
      State.klnAckLate_empty ((congrArg KlnDir.unacked (dir 1)).trans h1)]
  rw [e]
  refine ⟨?_, ?_, ?_⟩
  · rw [only.rd _ _ rfl (by decide), State.rd_wr_apart _ F.KLN_MOD_state F.KLN_MOD_rep_h2g _ _ rfl (by decide) (by decide),
      State.rd_wr_apart _ F.KLN_MOD_state F.KLN_MOD_rep_g2h _ _ rfl (by decide) (by decide), State.rd_wr_self _ _ _ _ (by decide)]
    rfl
  · rw [only.rd _ _ rfl (by decide), State.rd_wr_apart _ F.KLN_MOD_rep_g2h F.KLN_MOD_rep_h2g _ _ rfl (by decide) (by decide), State.rd_wr_self _ _ _ _ (by decide)]
    exact Nat.mod_eq_of_lt (Nat.lt_of_le_of_lt ha (by decide))
  · rw [only.rd _ _ rfl (by decide), State.rd_wr_self _ _ _ _ (by decide)]
    exact Nat.mod_eq_of_lt (Nat.lt_of_le_of_lt hb (by decide))

/-! ### The rows -/

/-- The flit f has entered the sender's buffer, and the receiving end expects the next. -/
def KlnMoved (s t : State) (m d : Nat) (f : List Byte) : Prop :=
  (t.klnDir m d).rxSeq = ((s.klnDir m d).rxSeq + 1) % 4096 ∧ (t.klnDir m d).unacked = (s.klnDir m d).unacked ++ [((s.klnDir m d).txSeq, f)]

section
variable {s : State} {m d : Nat} {f : List Byte} (hrun : s.power = .run) (hm : m < 8) (hd : d < 2) (h : s.KlnInOrder m d f)
include hrun hm hd h

/-- A flit that is taken: both ends move on, and what taking it does holds. -/
theorem kilmetFlitReceive_takes {P : State → Prop} (may : s.KlnMaySend d f)
    (p : ∀ u, KlnOnTheWay s u → (u.klnTake m d f).kln.dirs = u.kln.dirs ∧ P ((u.klnTake m d f).requeue s.pending)) :
    Completes (.kilmetFlitReceive m d f f true) s fun t => KlnMoved s t m d f ∧ P t := by
  refine completes_actOn hrun rfl (by simp [klnUnit, hm, hd]) ?_
  obtain ⟨u, e, way, rxSeq, unacked⟩ := s.klnCross_takes h may
  obtain ⟨dirs, hp⟩ := p u way
  have dir : ((u.klnTake m d f).requeue s.pending).klnDir m d = u.klnDir m d := State.klnDir_of_dirs dirs m d
  rw [e]
  exact ⟨by rw [KlnMoved, dir]; exact ⟨rxSeq, unacked⟩, hp⟩

/-- Requests and completions, of a partition not fenced at the link, are passed on. -/
theorem kilmetFlitReceive_passes (may : s.KlnMaySend d f) (hk : flitKind f = 0 ∨ flitKind f = 2) (hf : s.klnFenced d f = false) :
    Completes (.kilmetFlitReceive m d f f true) s fun t => KlnMoved s t m d f ∧ t.outbox = s.outbox ++ [.flit d f] := by
  refine kilmetFlitReceive_takes hrun hm hd h may fun u way => ?_
  rw [State.klnTake_passes hk ((way.klnFenced d f).trans hf)]
  exact ⟨rfl, congrArg (· ++ [Output.flit d f]) way.outbox⟩

/-- So is a block whose CRC is good. -/
theorem kilmetFlitReceive_block (may : s.KlnMaySend d f) (hk : flitKind f = 1) (hf : s.klnFenced d f = false) (hb : flitBlockGood f = true) :
    Completes (.kilmetFlitReceive m d f f true) s fun t => KlnMoved s t m d f ∧ t.outbox = s.outbox ++ [.flit d f] := by
  refine kilmetFlitReceive_takes hrun hm hd h may fun u way => ?_
  rw [State.klnTake_block hk ((way.klnFenced d f).trans hf) hb]
  exact ⟨rfl, congrArg (· ++ [Output.flit d f]) way.outbox⟩

/-- A newer credit flit grants what it carries, where no flit waits for credit or room. -/
theorem kilmetFlitReceive_credit (may : s.KlnMaySend d f) (hk : flitKind f = 3) (ho : s.kln.owed = []) (hh : s.kln.held = [])
    (hn : serialOlder 32 (Tbl.getD s.kln.granted ((1 - d) * 8 + bitsOf (flitAux f) 32 3) 0) (bitsOf (flitAux f) 0 32) = true) :
    Completes (.kilmetFlitReceive m d f f true) s fun t => KlnMoved s t m d f ∧ t.outbox = s.outbox ∧
      Tbl.getD t.kln.granted ((1 - d) * 8 + bitsOf (flitAux f) 32 3) 0 = bitsOf (flitAux f) 0 32 := by
  refine kilmetFlitReceive_takes hrun hm hd h may fun u way => ?_
  obtain ⟨granted, dirs, outbox⟩ := State.klnTake_credit (m := m) hk (way.owed.trans ho) (way.held.trans hh) (way.granted.symm ▸ hn)
  exact ⟨dirs, outbox.trans way.outbox, granted⟩

/-- A FENCE flit fences its partition. -/
theorem kilmetFlitReceive_fence (may : s.KlnMaySend d f) (hk : flitKind f = 4) (hs : flitSub f = ctlFence) :
    Completes (.kilmetFlitReceive m d f f true) s fun t => KlnMoved s t m d f ∧ t.outbox = s.outbox ∧
      t.kln.fenced.contains (d * 64 + flitPart f) = true := by
  refine kilmetFlitReceive_takes hrun hm hd h may fun u way => ?_
  obtain ⟨fenced, dirs, outbox⟩ := State.klnTake_fence (s := u) (m := m) (d := d) hk hs
  exact ⟨dirs, outbox.trans way.outbox, fenced⟩

end

/-- A flit that is no completion keeps no order behind data; what is no traffic needs no credit either. -/
theorem State.klnMaySend_of_kind {s : State} {d k : Nat} {f : List Byte} (hk : flitKind f = k) (h2 : k ≠ 2)
    (credit : k < 3 → s.klnCredit d (flitChan f) ≠ 0) : s.KlnMaySend d f :=
  ⟨fun hlt => credit (hk ▸ hlt), fun e => absurd (hk.symm.trans e) h2⟩

/-- A NAK to a module in service begins the replay that it names. -/
theorem kilmetNak_replays {s : State} {m d : Nat} (n : Nat) (hrun : s.power = .run) (hm : m < 8) (hd : d < 2) (hruns : s.klnRuns m = true) :
    Completes (.kilmetNak m d n) s fun t => t = (s.klnReplay m d (n % 4096)).requeue s.pending :=
  completes_actOn hrun rfl (by simp [klnUnit, hm, hd]) (by rw [if_pos hruns])

/-- Settles O7: each row by what its operation of the link leaves. -/
theorem kilmetLink : Obligations.KilmetLink := by
  intro s m d hrun hm hd
  have unit : klnUnit m d = true := by simp [klnUnit, hm, hd]
  have moduleExists : decide (m < 8) = true := decide_eq_true hm
  have channel {ch : Nat} (hc : ch < 7) : (decide (d < 2) && decide (ch < 7)) = true := by simp [hd, hc]
  refine ⟨fun sent got known => completes_actOn hrun rfl unit rfl, fun n hr => kilmetNak_replays n hrun hm hd hr, completes_actOn hrun rfl unit rfl,
    fun ch n hc => completes_actOn hrun rfl (channel hc) rfl,
    ⟨completes_actOn hrun rfl moduleExists rfl, fun ok g2h h2g => completes_actOn hrun rfl moduleExists rfl⟩, fun hno n => ⟨?_, ?_⟩,
    fun f runs unarmed idle room next expected good known noAck few => ?_,
    fun n f g l hr hl => ?_, fun f g l hr hl => ?_, fun hr => ?_, fun ch n hc hn => ?_, fun hr => ?_, fun g2h h2g hst ha hb h0 h1 => ?_⟩
  · exact completes_actOn hrun rfl unit (by rw [if_neg (by simp [hno])]; rfl)
  · exact completes_actOn hrun rfl unit (by rw [if_neg (by simp [hno])]; rfl)
  · have h : s.KlnInOrder m d f := ⟨runs, unarmed, idle, room, next, expected, good, known, noAck, few⟩
    refine ⟨fun hs hk => ?_, fun hs hk hb => ?_, fun hs hk ho => ?_, fun hk ho hh hn => ?_, fun hk hsub => ?_, fun hs hk g hbad => ?_⟩
    · exact kilmetFlitReceive_passes hrun hm hd h (State.klnMaySend_of_kind hk (by decide) fun _ => hs.1) (.inl hk) hs.2
    · exact kilmetFlitReceive_block hrun hm hd h (State.klnMaySend_of_kind hk (by decide) fun _ => hs.1) hk hs.2 hb
    · exact kilmetFlitReceive_passes hrun hm hd h ⟨fun _ => hs.1, fun _ hc => ho.resolve_left hc⟩ (.inr hk) hs.2
    · exact kilmetFlitReceive_credit hrun hm hd h (State.klnMaySend_of_kind hk (by decide) fun hlt => absurd hlt (by decide)) hk ho hh hn
    · exact kilmetFlitReceive_fence hrun hm hd h (State.klnMaySend_of_kind hk (by decide) fun hlt => absurd hlt (by decide)) hk hsub
    · exact completes_actOn hrun rfl unit (s.klnCross_broken h (State.klnMaySend_of_kind hk (by decide) fun _ => hs.1) hbad)
  · refine (kilmetNak_replays n hrun hm hd hr).mono ?_
    rintro t rfl
    have dir : ((s.klnReplay m d (n % 4096)).requeue s.pending).klnDir m d = _ := State.klnReplay_dir hl
    refine ⟨(s.klnReplay_replays m d (n % 4096)).trans ?_, by rw [dir]; rfl, by rw [dir]; rfl⟩
    rw [State.klnAgain, hl, List.length_cons]
  · refine completes_actOn hrun rfl unit ?_
    have e : s.klnAckLate m d = s.klnReplay m d f := by simp [State.klnAckLate, hl, hr]
    rw [e]
    refine (s.klnReplay_replays m d f).trans ?_
    rw [State.klnAgain, hl]
  · refine completes_actOn hrun rfl unit ?_
    rw [if_pos hr]
    exact s.klnAckNow_toAck m d
  · refine completes_actOn hrun rfl (channel hc) ?_
    rw [State.kln_requeue]
    exact State.klnGrant_newer hn
  · exact completes_actOn hrun rfl moduleExists (State.klnRetrain_runs hr)
  · exact completes_actOn hrun rfl moduleExists (State.klnTrained_well hst ha hb h0 h1)

end Sys2Proof.Machine
end

section
/-!
PROOFS. Mapping a spare in a retired unit's place (R32, R109, R182, R403).
-/

namespace Sys2Proof.Machine

/-- The field of a resource's unit states and those of its mapping register: where they stand, that they do not meet, and that a unit's number fits. -/
structure SpareFields (res : Nat) (f fu fs fg : Fld) : Prop where
  unit : unitField res = some f
  map : spareMapFields res = (fu, fs, fg)
  fits : f.fits ∧ fu.fits ∧ fs.fits ∧ fg.fits
  oneReg : fu.reg = fg.reg ∧ fs.reg = fg.reg
  bits : fu.apart fs ∧ fu.apart fg ∧ fs.apart fg
  other : f.reg ≠ fg.reg ∧ f.reg ≠ .TEL_SPARE ∧ fg.reg ≠ .TEL_SPARE ∧ fg.reg ≠ .CPH_CORE_STATE
  noLog : f.reg.isLog = false ∧ fg.reg.isLog = false
  state : f.lo = 0 ∧ f.width = 2
  go : fg.width = 1
  number : unitsBuilt res ≤ 2 ^ fu.width ∧ unitsBuilt res ≤ 2 ^ fs.width

theorem tallySpareFields : SpareFields 5 F.TAL_UNIT_STATE_state F.TAL_SPARE_MAP_retired_unit F.TAL_SPARE_MAP_spare_unit F.TAL_SPARE_MAP_go := by
  constructor <;> decide

theorem millSpareFields : SpareFields 6 F.MIL_ENG_STATE_state F.MIL_SPARE_MAP_retired_unit F.MIL_SPARE_MAP_spare_unit F.MIL_SPARE_MAP_go := by
  constructor <;> decide

theorem cipherSpareFields : SpareFields 7 F.CPH_CORE_STATE_state F.CPH_SPARE_MAP_retired_unit F.CPH_SPARE_MAP_spare_unit F.CPH_SPARE_MAP_go := by
  constructor <;> decide

/-! ### The write of a mapping register -/

/-- Whether a spare may be mapped in a unit's place: the unit retired and not served for, the spare healthy, and fewer active than R2's figure. -/
def State.MayMap (s : State) (res u p : Nat) (f : Fld) : Prop :=
  s.rd f u = 2 ∧ s.rd f p = 1 ∧ s.built.defects.contains (res, p) = false ∧ (s.servedBy res u).isSome = false ∧ s.unitsActive res f < activeFigure res

/-- An access of the session's holder leaves what this depends on. -/
theorem State.mayMap_touchSession (s : State) (res u p : Nat) (f : Fld) : s.touchSession.MayMap res u p f ↔ s.MayMap res u p f := by
  rcases s.touchSession_cases with h | ⟨_, _, h⟩
  · rw [h]
  · rw [h]; rfl

section
variable {s : State} {res : Nat} {f fu fs fg : Fld} (hF : SpareFields res f fu fs fg)
include hF

/-- A mapping that may begin holds both numbers, sets `go` and resets the spare. -/
theorem State.mapSpare_maps {u p : Nat} (hu : u < unitsBuilt res) (hp : p < unitsBuilt res) (hgo : s.rd fg = 0) (may : s.MayMap res u p f) :
    let t := s.mapSpare res u p
    t.rd fg = 1 ∧ t.rd fu = u ∧ t.rd fs = p ∧ t.rd f p = 3 ∧ t.mem = s.mem := by
  obtain ⟨unit, map, ⟨ff, fuf, fsf, fgf⟩, ⟨ru, rs⟩, ⟨us, ug, sg⟩, ⟨other, -⟩, ⟨fl, gl⟩, ⟨-, two⟩, one, nu, np⟩ := hF
  obtain ⟨retired, healthy, sound, free, short⟩ := may
  let v := ((s.wr fu u).wr fs p).wr fg 1
  have e : s.mapSpare res u p = (v.wr f 3 p).logEv (resBlock res) .stateChange 3 p p := by
    unfold State.mapSpare
    simp only [unit, map]
    exact if_neg (by simpa [hgo, retired, healthy, Option.isSome_eq_false_iff.mp free, hu, hp, short] using sound)
  have rd {g : Fld} (hg : g.reg = fg.reg) : ((v.wr f 3 p).logEv (resBlock res) .stateChange 3 p p).rd g 0 = v.rd g 0 := by
    rw [State.rd_logEv _ _ _ _ _ _ _ _ _ (by rw [hg]; exact gl), State.rd_wr_reg _ _ _ _ _ _ (by rw [hg]; exact other.symm)]
  rw [e]
  refine ⟨?_, ?_, ?_, ?_, by simp [v]⟩
  · rw [rd rfl, State.rd_wr_self _ _ _ _ fgf, one]; rfl
  · rw [rd ru, State.rd_wr_apart _ fu fg _ _ ru fgf ug, State.rd_wr_apart _ fu fs _ _ (ru.trans rs.symm) fsf us, State.rd_wr_self _ _ _ _ fuf]
    exact Nat.mod_eq_of_lt (hu.trans_le nu)
  · rw [rd rs, State.rd_wr_apart _ fs fg _ _ rs fgf sg, State.rd_wr_self _ _ _ _ fsf]
    exact Nat.mod_eq_of_lt (hp.trans_le np)
  · rw [State.rd_logEv _ _ _ _ _ _ _ _ _ fl, State.rd_wr_self _ _ _ _ ff, two]; rfl

/-- While a mapping runs, and where a spare may not be mapped, the write is refused. -/
theorem State.mapSpare_refused {u p : Nat} (h : s.rd fg = 1 ∨ ¬ s.MayMap res u p f) :
    s.mapSpare res u p = s.refuseWrite (resBlock res) (if res = 7 then 0x60 else 0x10) := by
  unfold State.mapSpare
  simp only [hF.unit, hF.map]
  refine if_pos ?_
  rcases h with h | h
  · exact .inl h
  · by_contra hno
    simp only [not_or, not_le, not_not, Bool.not_eq_true] at hno
    obtain ⟨-, -, -, retired, healthy, sound, free, short⟩ := hno
    exact h ⟨retired, healthy, sound, free, short⟩

end

/-- The end of a refused write: what a program can read but the logbook's is as it was. -/
theorem State.refuseWrite_same (s : State) (b : Blk) (off : Nat) :
    (∀ (f : Fld) (i : Nat), f.reg.isLog = false → (s.refuseWrite b off).rd f i = s.rd f i) ∧ (s.refuseWrite b off).mem = s.mem ∧
      (s.refuseWrite b off).outbox = s.outbox :=
  ⟨fun f i h => s.rd_refuseWrite b off 0 f i h, by simp [State.refuseWrite], by simp [State.refuseWrite]⟩

/-! ### The end of a mapping -/

theorem State.assignEgress_only (s : State) : RegOnly .CPH_CORE_STATE s s.assignEgress := by
  unfold State.assignEgress
  exact List.foldlRecOn _ _ (motive := RegOnly .CPH_CORE_STATE s) (RegOnly.refl _ s) fun t ht c _ => ht.trans (.wr t F.CPH_CORE_STATE_egress _ c)

/-- The directions of the cores are no part of their states. -/
theorem State.rd_assignEgress (s : State) (f : Fld) (i : Nat) (h : f.apart F.CPH_CORE_STATE_egress) : s.assignEgress.rd f i = s.rd f i := by
  unfold State.assignEgress
  refine List.foldlRecOn _ _ (motive := fun t : State => t.rd f i = s.rd f i) rfl fun t ht c _ => Eq.trans ?_ ht
  by_cases hr : f.reg = F.CPH_CORE_STATE_egress.reg
  · exact t.rd_wr_bits f _ _ i c hr (by decide) h
  · exact t.rd_wr_reg f _ _ i c hr

/-- A mapping that runs ends: the spare serves and `go` clears; the commons and its connections are not touched. -/
theorem State.spareMapped_serves {s : State} {res : Nat} {f fu fs fg : Fld} (hF : SpareFields res f fu fs fg) (hgo : s.rd fg = 1) :
    let t := s.spareMapped res
    (t.rd fg = 0 ∧ t.rd f (s.rd fs) = 0) ∧ t.cmn = s.cmn ∧ t.bxt = s.bxt ∧ t.ops = s.ops := by
  obtain ⟨unit, map, ⟨ff, -, -, fgf⟩, -, -, ⟨other, fspare, gspare, gcore⟩, ⟨fl, gl⟩, ⟨lo, two⟩, -, -⟩ := hF
  let v := ((s.wr f 0 (s.rd fs)).wr fg 0).noteMapped res (s.rd fu) (s.rd fs)
  let w := if res = 7 then v.assignEgress else v
  have e : s.spareMapped res = (w.logEv (resBlock res) .stateChange 0 (s.rd fs) (s.rd fs)).countMapped res (s.rd fu) (s.rd fs) := by
    unfold State.spareMapped
    simp only [unit, map]
    exact if_neg (by omega)
  have only : RegOnly .CPH_CORE_STATE v w := by
    show RegOnly _ v (if res = 7 then v.assignEgress else v)
    split
    · exact v.assignEgress_only
    · exact RegOnly.refl _ v
  have state : w.rd f (s.rd fs) = v.rd f (s.rd fs) := by
    show (if res = 7 then v.assignEgress else v).rd f _ = _
    split
    · exact v.rd_assignEgress f _ (.inl (by rw [lo, two]; decide))
    · rfl
  have last : RegOnly .TEL_SPARE w (s.spareMapped res) := e ▸ ((RegOnly.refl _ w).logEv ..).trans (State.countMapped_only ..)
  refine ⟨⟨?_, ?_⟩, last.cmn.trans only.cmn, last.bxt.trans only.bxt, last.ops.trans only.ops⟩
  · calc (s.spareMapped res).rd fg = v.rd fg := (last.rd fg 0 gl gspare).trans (only.rd fg 0 gl gcore)
      _ = 0 := (State.rd_wr_self _ fg 0 0 fgf).trans (Nat.zero_mod _)
  · calc (s.spareMapped res).rd f (s.rd fs) = v.rd f (s.rd fs) := (last.rd f _ fl fspare).trans state
      _ = (s.wr f 0 (s.rd fs)).rd f (s.rd fs) := State.rd_wr_reg _ f fg _ _ _ other
      _ = 0 := (State.rd_wr_self _ f 0 _ ff).trans (Nat.zero_mod _)

/-! ### The rows -/

/-- SPARE_MAP_DONE: the mapping ends, and the mill and the commons go on. -/
theorem spareMapDone_ends {s : State} {P : State → Prop} {res : Nat} (hrun : s.power = .run)
    (p : P ((((s.spareMapped res).deal 18).cmnRun).requeue s.pending)) : Completes (.spareMapDone res) s P :=
  completes_act (f := fun s => ((s.spareMapped res).deal 18).cmnRun) hrun rfl p

/-- SPARE_MAP_DONE of a running mapping, with no operation of the commons open. -/
theorem spareMapDone_serves {s : State} {res : Nat} {f fu fs fg : Fld} (hF : SpareFields res f fu fs fg) (hrun : s.power = .run) (hc : s.Calm)
    (hgo : s.rd fg = 1) : Completes (.spareMapDone res) s fun t => t.rd fg = 0 ∧ t.rd f (s.rd fs) = 0 := by
  obtain ⟨ends, cmn, bxt, ops⟩ := State.spareMapped_serves hF hgo
  have calm : (s.spareMapped res).Calm := hc.of_eq cmn (congrArg BxtSt.conns bxt) ops
  refine spareMapDone_ends hrun ?_
  rw [State.deal_calm calm, State.cmnRun_calm calm]
  exact ends

section
variable {s : State} {res u p : Nat} {f fu fs fg : Fld} {c : Instr} (hF : SpareFields res f fu fs fg) (hrun : s.power = .run) (hm : s.manages false = true)
  (e : exec c s = act s (asManager false fun s => s.mapSpare res u p))
include hF hrun hm e

/-- A row that writes a resource's mapping register, where it may. -/
theorem spareMap_completes (hu : u < unitsBuilt res) (hp : p < unitsBuilt res) (hgo : s.rd fg = 0) (may : s.MayMap res u p f) :
    Completes c s fun t => t.rd fg = 1 ∧ t.rd fu = u ∧ t.rd fs = p ∧ t.rd f p = 3 ∧ t.mem = s.mem := by
  refine completes_act hrun e ?_
  rw [asManager_of_manages hm, ← s.touchSession_mem]
  exact State.mapSpare_maps hF hu hp ((s.touchSession_rd _ _).trans hgo) ((s.mayMap_touchSession _ _ _ _).mpr may)

/-- The same row where it may not. -/
theorem spareMap_refused (h : s.rd fg = 1 ∨ ¬ s.MayMap res u p f) :
    Completes c s fun t => (∀ (g : Fld) (i : Nat), g.reg.isLog = false → t.rd g i = s.rd g i) ∧ t.mem = s.mem ∧ t.outbox = s.outbox := by
  refine completes_act hrun e ?_
  rw [asManager_of_manages hm, State.mapSpare_refused hF (by rwa [State.touchSession_rd, State.mayMap_touchSession])]
  obtain ⟨rd, mem, outbox⟩ := s.touchSession.refuseWrite_same (resBlock res) (if res = 7 then 0x60 else 0x10)
  exact ⟨fun g i hl => (rd g i hl).trans (s.touchSession_rd g i), mem.trans s.touchSession_mem, outbox.trans s.touchSession_outbox⟩

end

/-- Settles O10: the three resources by the one lemma for each of the mapping's begin, refusal and end. -/
theorem spareMapping : Obligations.SpareMapping := by
  intro s hrun
  refine ⟨fun res => spareMapDone_ends hrun rfl, fun hc hgo => spareMapDone_serves tallySpareFields hrun hc hgo,
    fun hc hgo => spareMapDone_serves millSpareFields hrun hc hgo, fun hc hgo => spareMapDone_serves cipherSpareFields hrun hc hgo, fun hm =>
      ⟨fun _ _ hu hp hgo may => spareMap_completes tallySpareFields hrun hm rfl hu hp hgo may,
        fun _ _ hu hp hgo may => spareMap_completes millSpareFields hrun hm rfl hu hp hgo may,
        fun _ _ hu hp hgo may => spareMap_completes cipherSpareFields hrun hm rfl hu hp hgo may, fun _ _ =>
          ⟨fun h => spareMap_refused tallySpareFields hrun hm rfl h, fun h => spareMap_refused millSpareFields hrun hm rfl h,
            fun h => spareMap_refused cipherSpareFields hrun hm rfl h⟩⟩⟩

end Sys2Proof.Machine
end

section
/-!
PROOFS. Logical ports (R284, R290, R291, R295): what leaving UP, training, a lane fault and its test leave.
-/

namespace Sys2Proof.Machine

/-! ### A port's record and its state field -/

/-- A logical port that exists is one of the 64, and a layout runs. -/
theorem State.lportExists_bounds {s : State} {p : Nat} (h : s.lportExists p = true) : p < 64 ∧ s.lay.running.isSome = true := by
  unfold State.lportExists at h
  split at h
  · cases h
  · next running =>
    split at h
    · exact ⟨of_decide_eq_true (Bool.and_eq_true_iff.mp h).1, by rw [running]; rfl⟩
    · cases h

/-- What a port holds is read off the table of ports alone. -/
theorem State.lport_of_lports {s t : State} (h : t.lports = s.lports) (p : Nat) : t.lport p = s.lport p := by
  rw [State.lport, h]; rfl

theorem State.setLp_only (s : State) (p st : Nat) : RegOnly .PRT_LP_w18 s (s.setLp p st) := (RegOnly.wr s F.PRT_LP_state _ _).logEv ..

theorem State.rd_setLp_self (s : State) (p st : Nat) : (s.setLp p st).rd F.PRT_LP_state p = st % 4 :=
  (State.rd_logEv _ _ _ _ _ _ _ _ _ rfl).trans (State.rd_wr_self _ _ _ _ (by decide))

/-- The other fields of the register that holds a port's state stay. -/
theorem State.rd_setLp_apart (s : State) (p st : Nat) (f : Fld) (i : Nat) (hr : f.reg = .PRT_LP_w18) (ha : f.apart F.PRT_LP_state) :
    (s.setLp p st).rd f i = s.rd f i :=
  (State.rd_logEv _ _ _ _ _ _ _ _ _ (by rw [hr]; rfl)).trans (s.rd_wr_bits f _ _ i p hr (by decide) ha)

/-! ### Leaving UP (R290, R291) -/

/-- The timers of dropped packets are the connections'. -/
theorem State.timersOf_bxt (s : State) (l : List Queued) : ∃ b : BxtSt, l.foldl (fun (s : State) q => s.timerOf q none) s = { s with bxt := b } := by
  refine List.foldlRecOn l _ (motive := fun t : State => ∃ b : BxtSt, t = { s with bxt := b }) ⟨s.bxt, rfl⟩ ?_
  rintro t ⟨b, rfl⟩ q -
  unfold State.timerOf State.runRoceTimer State.runTimer State.modConn
  split
  · exact ⟨b, rfl⟩
  · split <;> split <;> exact ⟨_, rfl⟩

/-- What a port that leaves UP, or is disabled, leaves of the state s. -/
structure PortLeft (s t : State) (p st : Nat) : Prop where
  state : t.rd F.PRT_LP_state p = st % 4
  neighbour : t.rd F.PRT_LP_nbr_rymus p = 0
  rest : ∀ (f : Fld) (i : Nat), f.reg.isLog = false → f.reg ≠ .HOP_DROP_DOWN → f.reg ≠ .PRT_LP_w18 ∨ i ≠ p → t.rd f i = s.rd f i
  queue : t.egress = s.egress.filter fun q => q.port != p
  dropped : t.rd F.HOP_DROP_DOWN = (s.rd F.HOP_DROP_DOWN + (s.egress.filter fun q => q.port == p).length) % 2 ^ F.HOP_DROP_DOWN.width

theorem State.portOut_leaves (s : State) (p st : Nat) : PortLeft s (s.portOut p st) p st := by
  let u := (s.measure p).stopReplay p
  obtain ⟨b, timers⟩ := State.timersOf_bxt { u with egress := u.egress.filter fun q => q.port != p } (s.egress.filter fun q => q.port == p)
  let n := (s.egress.filter fun q => q.port == p).length
  let v : State := { u with egress := u.egress.filter fun q => q.port != p, bxt := b }
  let w := (((v.bump F.HOP_DROP_DOWN n).modLport p fun l =>
    { l with fails := 0, waiting := false, fecs := [], paused := [], deaf := [], xoff := [], nbr := false, nbrReplay := false }).wr F.PRT_LP_permille 0 p)
  let x := ((w.wr F.PRT_LP_nbr_rymus 0 p).wr F.PRT_LP_nbr_dev 0 p).wr F.PRT_LP_nbr_lport 0 p
  have e : s.portOut p st = x.setLp p st := by
    unfold State.portOut
    dsimp only
    rw [timers]
  have same (f : Fld) (i : Nat) (h : f.reg ≠ .PRT_LP_w18 ∨ i ≠ p) : x.rd f i = (v.bump F.HOP_DROP_DOWN n).rd f i := by
    rw [State.rd_wr_ne _ _ F.PRT_LP_nbr_lport _ _ _ h, State.rd_wr_ne _ _ F.PRT_LP_nbr_dev _ _ _ h, State.rd_wr_ne _ _ F.PRT_LP_nbr_rymus _ _ _ h,
      State.rd_wr_ne _ _ F.PRT_LP_permille _ _ _ h, State.rd_modLport]
  have before (f : Fld) (i : Nat) (h : f.reg ≠ .PRT_LP_w18 ∨ i ≠ p) : v.rd f i = s.rd f i := (s.measure p).rd_wr_ne f F.PRT_LP_replay_on 0 i p h
  rw [e]
  refine ⟨x.rd_setLp_self p st, ?_, fun f i hl hd h => ?_, (x.setLp_only p st).egress, ?_⟩
  · rw [x.rd_setLp_apart p st _ _ rfl (by decide), State.rd_wr_apart _ F.PRT_LP_nbr_rymus F.PRT_LP_nbr_lport _ _ rfl (by decide) (by decide),
      State.rd_wr_apart _ F.PRT_LP_nbr_rymus F.PRT_LP_nbr_dev _ _ rfl (by decide) (by decide), State.rd_wr_self _ _ _ _ (by decide)]
    rfl
  · calc (x.setLp p st).rd f i = x.rd f i := (State.rd_logEv _ _ _ _ _ _ _ _ _ hl).trans (State.rd_wr_ne _ f F.PRT_LP_state _ _ _ h)
      _ = v.rd f i := (same f i h).trans (State.rd_bump_ne _ _ _ _ _ _ (.inl hd))
      _ = s.rd f i := before f i h
  · have hr : F.HOP_DROP_DOWN.reg ≠ .PRT_LP_w18 := by decide
    calc (x.setLp p st).rd F.HOP_DROP_DOWN = x.rd F.HOP_DROP_DOWN := (x.setLp_only p st).rd _ _ rfl hr
      _ = (v.rd F.HOP_DROP_DOWN + n) % 2 ^ F.HOP_DROP_DOWN.width := (same _ _ (.inl hr)).trans (State.rd_bump_self _ _ _ _ (by decide))
      _ = (s.rd F.HOP_DROP_DOWN + n) % 2 ^ F.HOP_DROP_DOWN.width := by rw [before _ _ (.inl hr)]

/-! ### `admin` (R290) -/

/-- The manager's `admin` 1 on a DISABLED port. -/
theorem State.portAdminWrite_up {s : State} {p : Nat} (hp : s.lportExists p = true) (hst : s.rd F.PRT_LP_state p = lpDisabled) :
    s.portAdminWrite p 1 = (s.wr F.PRT_LP_admin 1 p).setLp p lpTraining := by
  have st : (s.wr F.PRT_LP_admin 1 p).rd F.PRT_LP_state p = lpDisabled := (State.rd_wr_reg _ _ _ _ _ _ (by decide)).trans hst
  rw [State.portAdminWrite, if_pos ⟨hp, by decide⟩]
  exact if_pos ⟨rfl, st⟩

/-- `admin` 0 on any other. -/
theorem State.portAdminWrite_down {s : State} {p : Nat} (hp : s.lportExists p = true) (hst : s.rd F.PRT_LP_state p ≠ lpDisabled) :
    s.portAdminWrite p 0 = (s.wr F.PRT_LP_admin 0 p).portOut p lpDisabled := by
  have st : (s.wr F.PRT_LP_admin 0 p).rd F.PRT_LP_state p ≠ lpDisabled := fun h => hst ((State.rd_wr_reg _ _ _ _ _ _ (by decide)).symm.trans h)
  rw [State.portAdminWrite, if_pos ⟨hp, by decide⟩]
  unfold State.portAdmin
  dsimp only
  rw [if_neg (by simp), if_pos ⟨rfl, st⟩]

/-- Whether a port exists is not the session's. -/
theorem State.lportExists_touchSession (s : State) (p : Nat) : s.touchSession.lportExists p = s.lportExists p := by
  rw [State.lportExists, s.touchSession_lay]; rfl

/-! ### Training (R290) -/

/-- A port whose training ends well, before its LLDPDU. -/
def State.portUpNow (s : State) (p : Nat) : State :=
  ((s.modLport p fun l => { l with fails := 0, waiting := false, wxAt := s.now }).wr F.PRT_LP_permille 1000 p).setLp p lpUp

/-- It is UP at its full rate, its failures forgotten; nothing of other registers, the frames kept or what has left changes. -/
theorem State.portUpNow_up (s : State) (p : Nat) : (s.portUpNow p).rd F.PRT_LP_state p = lpUp ∧ (s.portUpNow p).rd F.PRT_LP_permille p = 1000 ∧
    (s.portUpNow p).lport p = { s.lport p with fails := 0, waiting := false, wxAt := s.now } := by
  refine ⟨State.rd_setLp_self _ _ _, ?_, ?_⟩
  · exact (State.rd_setLp_apart _ _ _ _ _ rfl (by decide)).trans (State.rd_wr_self _ _ _ _ (by decide))
  · exact (State.lport_of_lports (State.setLp_only _ _ _).lports p).trans (Tbl.getD_set_self _ _ _ _)

/-- The state s with the port's record changed. -/
theorem State.portUpNow_only (s : State) (p : Nat) :
    RegOnly .PRT_LP_w18 (s.modLport p fun l => { l with fails := 0, waiting := false, wxAt := s.now }) (s.portUpNow p) :=
  (RegOnly.wr _ F.PRT_LP_permille _ _).trans (State.setLp_only ..)

theorem State.rd_portUpNow (s : State) (p : Nat) (f : Fld) (i : Nat) (hl : f.reg.isLog = false) (hr : f.reg ≠ .PRT_LP_w18) :
    (s.portUpNow p).rd f i = s.rd f i := (s.portUpNow_only p).rd f i hl hr

theorem State.portUpNow_replay_on (s : State) (p i : Nat) : (s.portUpNow p).rd F.PRT_LP_replay_on i = s.rd F.PRT_LP_replay_on i :=
  (State.rd_setLp_apart _ _ _ _ _ rfl (by decide)).trans (State.rd_wr_bits _ _ F.PRT_LP_permille _ _ _ rfl (by decide) (by decide))

/-- The room for a frame that replay keeps is as before. -/
theorem State.portUpNow_replayRoom (s : State) (p n : Nat) : (s.portUpNow p).replayRoom p n = s.replayRoom p n := by
  simp only [State.replayRoom, State.portUpNow_replay_on, (s.portUpNow_up p).2.2]

/-- Training that ends well on a port whose lanes are served. -/
theorem State.trained_well {s : State} {p : Nat} (hst : s.rd F.PRT_LP_state p = lpTraining) (hw : (s.lport p).waiting = false)
    (hs : s.portServed p = true) : s.trained p true = if s.rd F.PRT_LP_lldp p = 1 then (s.portUpNow p).sendLldp p else s.portUpNow p := by
  rw [← s.rd_portUpNow p F.PRT_LP_lldp p rfl (by decide)]
  unfold State.trained
  rw [if_neg (by simp [hst, hw]), if_pos (by simp [hs])]
  rfl

/-- An attempt that fails, or whose port no SerDes serves, counts and waits. -/
theorem State.trained_badly {s : State} {p : Nat} {ok : Bool} (hst : s.rd F.PRT_LP_state p = lpTraining) (hw : (s.lport p).waiting = false)
    (hs : (ok && s.portServed p) = false) :
    let t := s.trained p ok
    t.rd F.PRT_LP_state p = lpTraining ∧ (t.lport p).fails = (s.lport p).fails + 1 ∧ (t.lport p).waiting = true ∧ t.mem = s.mem := by
  have e : s.trained p ok = (s.modLport p fun l => { l with fails := l.fails + 1, waiting := true }).logEv .PRT .timeout 0 p p := by
    unfold State.trained
    rw [if_neg (by simp [hst, hw]), if_neg (by simp [hs])]
  have record : (s.trained p ok).lport p = { s.lport p with fails := (s.lport p).fails + 1, waiting := true } :=
    e ▸ (State.lport_of_lports (State.lports_logEv ..) p).trans (Tbl.getD_set_self _ _ _ _)
  dsimp only
  rw [record, e]
  exact ⟨(State.rd_logEv _ _ _ _ _ _ _ _ _ rfl).trans hst, rfl, rfl, State.mem_logEv ..⟩

/-- With room in the replay buffer the port's own frame leaves, and the registers change by the count of frames sent alone (R303, R304). -/
theorem State.sendOwn_sends {s : State} {p : Nat} (h : s.replayRoom p 56 = true) (dst ethType : Nat) (body : FrameBody) :
    (∃ f : Frame, (s.sendOwn p dst ethType body id).outbox = s.outbox ++ [.frame p f] ∧ f.body = body) ∧
      ∀ (g : Fld) (i : Nat), g.reg ≠ .PRT_TX_FRAMES → g.reg ≠ .PRT_TX_BYTES → (s.sendOwn p dst ethType body id).rd g i = s.rd g i := by
  let f := match s.dataShim p 0 (s.lport p).txHsn ethType with
    | some h => s.ctlFrame p dst 0x88B6 (some h) body
    | none => s.ctlFrame p dst ethType none body
  have fbody : f.body = body := by
    show (match s.dataShim p 0 (s.lport p).txHsn ethType with | some h => _ | none => _ : Frame).body = body
    split <;> rfl
  have e : s.sendOwn p dst ethType body id = (s.keepSent p none (some f)).sendFrame p f := by
    rw [State.sendOwn, if_neg (by simp [h])]; rfl
  have kept : (s.keepSent p none (some f)).outbox = s.outbox ∧ ∀ (g : Fld) (i : Nat), (s.keepSent p none (some f)).rd g i = s.rd g i := by
    unfold State.keepSent
    split <;> exact ⟨rfl, fun _ _ => rfl⟩
  rw [e]
  refine ⟨⟨f, congrArg (· ++ [Output.frame p f]) kept.1, fbody⟩, fun g i h1 h2 => ?_⟩
  calc ((s.keepSent p none (some f)).sendFrame p f).rd g i = (s.keepSent p none (some f)).rd g i :=
        (State.rd_bump_ne _ g F.PRT_TX_BYTES _ _ _ (.inl h2)).trans (State.rd_bump_ne _ g F.PRT_TX_FRAMES _ _ _ (.inl h1))
    _ = s.rd g i := kept.2 g i

/-- The LLDPDU of a port (R295): its MAC and number, a lifetime of 4, and the device's own part. -/
def State.ownLldp (s : State) (p : Nat) : Lldp :=
  ⟨s.rd F.PRT_LP_mac p, p, 4, some ⟨s.rd F.GLB_ID_part_number, s.rd F.GLB_ID_stepping_major * 16 + s.rd F.GLB_ID_stepping_minor, s.devAddr, p,
    s.rd F.PRT_LP_hop_replay p == 1⟩⟩

theorem State.sendLldp_eq (s : State) (p : Nat) : s.sendLldp p = s.sendOwn p lldpMac 0x88CC (.lldp (s.ownLldp p)) id := rfl

theorem State.ownLldp_portUpNow (s : State) (p : Nat) : (s.portUpNow p).ownLldp p = s.ownLldp p := by
  rw [State.ownLldp, State.devAddr, s.rd_portUpNow p F.PRT_LP_mac _ rfl (by decide), s.rd_portUpNow p F.GLB_ID_part_number _ rfl (by decide),
    s.rd_portUpNow p F.GLB_ID_stepping_major _ rfl (by decide), s.rd_portUpNow p F.GLB_ID_stepping_minor _ rfl (by decide),
    s.rd_portUpNow p F.HOP_DEV_dev_addr _ rfl (by decide), s.rd_portUpNow p F.PRT_LP_hop_replay _ rfl (by decide)]
  rfl

/-- A port that comes UP with LLDP on, and room in the replay buffer, sends its LLDPDU. -/
theorem State.portUpNow_announces {s : State} {p : Nat} (hr : s.replayRoom p 56 = true) :
    ((s.portUpNow p).sendLldp p).rd F.PRT_LP_state p = lpUp ∧
      ∃ f : Frame, ((s.portUpNow p).sendLldp p).outbox = s.outbox ++ [.frame p f] ∧ f.body = .lldp (s.ownLldp p) := by
  obtain ⟨⟨f, outbox, body⟩, rd⟩ := State.sendOwn_sends ((s.portUpNow_replayRoom p 56).trans hr) lldpMac 0x88CC (.lldp ((s.portUpNow p).ownLldp p))
  rw [s.ownLldp_portUpNow p] at body
  rw [State.sendLldp_eq]
  refine ⟨(rd F.PRT_LP_state p (by decide) (by decide)).trans (s.portUpNow_up p).1, f, outbox.trans ?_, body⟩
  rw [(s.portUpNow_only p).outbox]; rfl

/-! ### Lane faults (R284) -/

theorem State.downRetrain_trains {s : State} {p : Nat} (hst : s.rd F.PRT_LP_state p = lpDown) (ht : (s.lport p).testing = none) :
    s.downRetrain p = s.setLp p lpTraining := by
  rw [State.downRetrain, if_pos ⟨hst, by simp [ht]⟩]

/-- A fault of a lane of an UP port takes it DOWN and begins the lane's test; no other port changes state. -/
theorem State.laneFault_tests {s : State} {n lane : Nat} (hup : s.portUp (s.laneOwner n lane) = true) :
    let t := s.laneFault n lane
    t.rd F.PRT_LP_state (s.laneOwner n lane) = lpDown ∧ (t.lport (s.laneOwner n lane)).testing = some lane ∧
      ∀ o : Nat, o ≠ s.laneOwner n lane → t.rd F.PRT_LP_state o = s.rd F.PRT_LP_state o := by
  set p := s.laneOwner n lane with hp
  obtain ⟨o, causes⟩ := s.recordCauses_only (s.opsOverPort p) (fun id => id) 8
  have e : s.laneFault n lane = (State.portOut { s with ops := o } p lpDown).modLport p fun l => { l with testing := some lane } := by
    unfold State.laneFault
    simp only [← hp, if_pos hup, causes]
  have left := State.portOut_leaves { s with ops := o } p lpDown
  rw [e]
  exact ⟨left.state, congrArg LPort.testing (Tbl.getD_set_self _ _ _ _), fun o ho => left.rest F.PRT_LP_state o rfl (by decide) (.inr ho)⟩

/-- A test that passes takes the DOWN port to TRAINING; no SerDes is retired. -/
theorem State.loopbackDone_passes {s : State} {n lane : Nat} (ht : (s.lport (s.laneOwner n lane)).testing = some lane)
    (hst : s.rd F.PRT_LP_state (s.laneOwner n lane) = lpDown) :
    let t := s.loopbackDone n lane true
    t.rd F.PRT_LP_state (s.laneOwner n lane) = lpTraining ∧ (t.lport (s.laneOwner n lane)).testing = none ∧
      t.rd F.PRT_PORT_STATE_retired n = s.rd F.PRT_PORT_STATE_retired n := by
  set p := s.laneOwner n lane with hp
  let v := s.modLport p fun l => { l with testing := none }
  let u := v.logEv .PRT .timeout 1 p p
  have only : LogOnly v u := v.logEv_only ..
  have untested : (u.lport p).testing = none :=
    congrArg LPort.testing ((State.lport_of_lports only.lports p).trans (Tbl.getD_set_self _ _ _ _))
  have e : s.loopbackDone n lane true = u.setLp p lpTraining := by
    show (if (s.lport p).testing ≠ some lane then s else _) = _
    rw [if_neg (not_not.mpr ht)]
    exact State.downRetrain_trains ((only.rd F.PRT_LP_state p rfl).trans hst) untested
  rw [e]
  refine ⟨State.rd_setLp_self _ _ _, ?_, ?_⟩
  · exact (congrArg LPort.testing (State.lport_of_lports (u.setLp_only p lpTraining).lports p)).trans untested
  · exact ((u.setLp_only p lpTraining).rd F.PRT_PORT_STATE_retired n rfl (by decide)).trans (only.rd F.PRT_PORT_STATE_retired n rfl)

/-- A test that fails, with the port's spare free, sound and other than the SerDes that failed: the spare takes the lane, and the port trains. -/
theorem State.loopbackDone_maps {s : State} {n lane : Nat} (hlane : lane < 8) (ht : (s.lport (s.laneOwner n lane)).testing = some lane)
    (hst : s.rd F.PRT_LP_state (s.laneOwner n lane) = lpDown) (hfree : s.rd F.PRT_PORT_STATE_spare_lane n = 15)
    (hin : (setBit (s.rd F.PRT_PORT_STATE_retired n) (s.serdesOf n lane)).testBit (s.serdesOf n 8) = false)
    (hsound : s.built.defects.contains (0, 9 * n + s.serdesOf n 8) = false)
    (hfits : setBit (s.rd F.PRT_PORT_STATE_retired n) (s.serdesOf n lane) < 2 ^ F.PRT_PORT_STATE_retired.width) :
    let t := s.loopbackDone n lane false
    t.rd F.PRT_PORT_STATE_spare_lane n = lane ∧ t.rd F.PRT_LP_state (s.laneOwner n lane) = lpTraining ∧
      t.rd F.PRT_PORT_STATE_retired n = setBit (s.rd F.PRT_PORT_STATE_retired n) (s.serdesOf n lane) := by
  set p := s.laneOwner n lane with hp
  set mask := setBit (s.rd F.PRT_PORT_STATE_retired n) (s.serdesOf n lane) with hmask
  let u := s.modLport p fun l => { l with testing := none }
  let v := u.wr F.PRT_PORT_STATE_retired mask n
  let w := v.countRetired 0 (9 * n + s.serdesOf n lane) (s.rd F.PRT_PORT_STATE_spare_lane n == lane)
  have only : RegOnly .TEL_SPARE v w := v.countRetired_only ..
  have retired : w.rd F.PRT_PORT_STATE_retired n = mask :=
    (only.rd _ _ rfl (by decide)).trans ((State.rd_wr_self _ _ _ _ (by decide)).trans (Nat.mod_eq_of_lt hfits))
  have spare : w.rd F.PRT_PORT_STATE_spare_lane n = 15 :=
    (only.rd _ _ rfl (by decide)).trans ((State.rd_wr_apart _ F.PRT_PORT_STATE_spare_lane F.PRT_PORT_STATE_retired _ _ rfl (by decide) (by decide)).trans hfree)
  have ninth : w.serdesOf n 8 = s.serdesOf n 8 := by
    unfold State.serdesOf
    rw [spare, hfree, only.lay]; rfl
  have free : w.netSpareFree n = true := by
    rw [State.netSpareFree, spare, retired, ninth, only.built, hin]
    show (15 == 15 && !false && !s.built.defects.contains (0, 9 * n + s.serdesOf n 8)) = true
    rw [hsound]; rfl
  let x := (w.wr F.PRT_PORT_STATE_spare_lane lane n).countMapped 0 (9 * n + lane) (w.serdesOf n 8)
  have mapped : RegOnly .TEL_SPARE (w.wr F.PRT_PORT_STATE_spare_lane lane n) x := State.countMapped_only ..
  have down : x.rd F.PRT_LP_state p = lpDown :=
    calc x.rd F.PRT_LP_state p = w.rd F.PRT_LP_state p := (mapped.rd _ _ rfl (by decide)).trans (State.rd_wr_reg _ _ _ _ _ _ (by decide))
      _ = s.rd F.PRT_LP_state p := (only.rd _ _ rfl (by decide)).trans (State.rd_wr_reg u _ _ _ _ _ (by decide))
      _ = lpDown := hst
  have untested : (x.lport p).testing = none :=
    congrArg LPort.testing ((State.lport_of_lports (mapped.lports.trans only.lports) p).trans (Tbl.getD_set_self _ _ _ _))
  have e : s.loopbackDone n lane false = x.setLp p lpTraining := by
    rw [← State.downRetrain_trains down untested]
    show (if (s.lport p).testing ≠ some lane then s else if w.netSpareFree n then x.downRetrain p else _) = _
    rw [if_neg (not_not.mpr ht), if_pos free]
  have last {f : Fld} (h : f.reg = .PRT_PORT_STATE) : (x.setLp p lpTraining).rd f n = (w.wr F.PRT_PORT_STATE_spare_lane lane n).rd f n :=
    ((x.setLp_only ..).rd f n (by rw [h]; rfl) (by rw [h]; decide)).trans (mapped.rd f n (by rw [h]; rfl) (by rw [h]; decide))
  rw [e]
  refine ⟨?_, x.rd_setLp_self p lpTraining, ?_⟩
  · exact (last rfl).trans ((State.rd_wr_self _ _ _ _ (by decide)).trans (Nat.mod_eq_of_lt (hlane.trans (by decide))))
  · exact (last rfl).trans ((State.rd_wr_apart _ F.PRT_PORT_STATE_retired F.PRT_PORT_STATE_spare_lane _ _ rfl (by decide) (by decide)).trans retired)

/-! ### The rows -/

/-- PORT_ADMIN_WRITE by the role's holder. -/
theorem portAdminWrite_completes {s : State} {p admin : Nat} {P : State → Prop} (hrun : s.power = .run) (hp : s.lportExists p = true)
    (hm : s.manages false = true) (h : P ((s.touchSession.portAdminWrite p admin).requeue s.pending)) : Completes (.portAdminWrite p admin) s P := by
  refine completes_actOn hrun rfl (decide_eq_true (State.lportExists_bounds hp).1) ?_
  rw [asManager_of_manages hm]
  exact h

/-- Settles O29: each row by what its operation leaves of the port's record, its state and its queue. -/
theorem portStates : Obligations.PortStates := by
  intro s p hrun hp
  refine ⟨fun ok => completes_actOn hrun rfl hp rfl, completes_actOn hrun rfl hp rfl, fun hup => ?_, fun n lane pass hn hl hr => ?_, fun hm hst => ?_,
    fun hm hst => ?_, fun hst hw => ⟨fun hs => ?_, fun hs hl hr => ?_, fun hs hl => ?_, ?_⟩, ?_, fun hup => ?_, fun hst ht => ?_, fun n lane hn hl ho => ?_⟩
  · exact completes_actOn hrun rfl hp (by rw [if_neg (by simp [hup])]; rfl)
  · have lanes : (decide (n < 8) && decide (lane < 8) && s.lay.running.isSome) = true := by simp [hn, hl, hr]
    exact ⟨completes_actOn hrun rfl lanes rfl, completes_actOn hrun rfl lanes rfl⟩
  · refine portAdminWrite_completes hrun hp hm ?_
    rw [State.portAdminWrite_up ((s.lportExists_touchSession p).trans hp) ((s.touchSession_rd _ _).trans hst)]
    have only := (s.touchSession.wr F.PRT_LP_admin 1 p).setLp_only p lpTraining
    exact ⟨(only.rd F.PRT_LP_admin p rfl (by decide)).trans (State.rd_wr_self _ _ _ _ (by decide)), State.rd_setLp_self _ _ _,
      only.egress.trans s.touchSession_egress, only.mem.trans s.touchSession_mem⟩
  · refine portAdminWrite_completes hrun hp hm ?_
    rw [State.portAdminWrite_down ((s.lportExists_touchSession p).trans hp) (by rwa [State.touchSession_rd])]
    have left := State.portOut_leaves (s.touchSession.wr F.PRT_LP_admin 0 p) p lpDisabled
    refine ⟨(left.rest F.PRT_LP_admin p rfl (by decide) (.inl (by decide))).trans (State.rd_wr_self _ _ _ _ (by decide)), left.state,
      left.queue.trans ?_, left.neighbour⟩
    rw [State.egress_wr, State.touchSession_egress]
  · exact completes_actOn hrun rfl hp (State.trained_badly hst hw (by simp [hs]))
  · refine completes_actOn hrun rfl hp ?_
    rw [State.trained_well hst hw hs, if_pos hl]
    exact State.portUpNow_announces hr
  · refine completes_actOn hrun rfl hp ?_
    rw [State.trained_well hst hw hs, if_neg (by simp [hl])]
    obtain ⟨up, permille, record⟩ := s.portUpNow_up p
    exact ⟨up, permille, congrArg LPort.fails record, (s.portUpNow_only p).mem, (s.portUpNow_only p).outbox⟩
  · exact completes_actOn hrun rfl hp (State.trained_badly hst hw rfl)
  · exact completes_actOn hrun rfl hp ⟨Tbl.getD_set_self _ _ _ _, rfl, rfl⟩
  · refine completes_actOn hrun rfl hp ?_
    rw [if_pos hup]
    have left := s.portOut_leaves p lpDown
    exact ⟨left.state, left.queue, left.dropped⟩
  · refine completes_actOn hrun rfl hp ?_
    rw [State.downRetrain_trains hst ht]
    exact ⟨State.rd_setLp_self _ _ _, (s.setLp_only p lpTraining).egress, (s.setLp_only p lpTraining).mem⟩
  · subst ho
    have lanes : (decide (n < 8) && decide (lane < 8) && s.lay.running.isSome) = true := by simp [hn, hl, (State.lportExists_bounds hp).2]
    exact ⟨fun hup => completes_actOn hrun rfl lanes (State.laneFault_tests hup),
      fun ht hst => completes_actOn hrun rfl lanes (State.loopbackDone_passes ht hst),
      fun ht hst hfree hin hsound hfits => completes_actOn hrun rfl lanes (State.loopbackDone_maps hl ht hst hfree hin hsound hfits)⟩

end Sys2Proof.Machine
end

section
/-!
PROOFS. Host links and functions (R31, R310, R311, R318, R322, R323): what coming up, a change, a loss, a function level reset and an unmasking leave.
-/

namespace Sys2Proof.Machine

/-! ### A row after which the device settles -/

theorem settles_actOn {c : Instr} {s : State} {P : State → Prop} {b : Bool} {f : State → State} (h : s.power = .run)
    (e : exec c s = actOn b s (fun s => (f s).settle)) (hb : b = true) (p : P (f s)) : Settles c s P := ⟨_, e.trans (actOn_run h hb _), _, rfl, p⟩

theorem Settles.mono {c : Instr} {s : State} {P Q : State → Prop} (h : Settles c s P) (i : ∀ v, P v → Q v) : Settles c s Q :=
  Completes.mono h fun _ ⟨v, e, p⟩ => ⟨v, e, i v p⟩

/-! ### What a link shows (R310, R311) -/

/-- A link shows its speed, width and rate, the role and the state standing; the other registers stay. -/
structure LinkShown (s t : State) (x gen width : Nat) : Prop where
  speed : t.rd F.HPT_LINK_gen x = gen % 2 ^ F.HPT_LINK_gen.width
  lanes : t.rd F.HPT_LINK_width x = width % 2 ^ F.HPT_LINK_width.width
  rate : t.rd F.HPT_LINK_rate_mbs x = (if gen = 0 then 0 else linkRate gen width) % 2 ^ F.HPT_LINK_rate_mbs.width
  state : t.rd F.HPT_LINK_state x = s.rd F.HPT_LINK_state x

theorem State.showLink_shows (s : State) (x gen width : Nat) : LinkShown s (s.showLink x gen width) x gen width := by
  unfold State.showLink
  refine ⟨?_, ?_, State.rd_wr_self _ _ _ _ (by decide), ?_⟩
  · rw [State.rd_wr_reg _ F.HPT_LINK_gen F.HPT_LINK_rate_mbs _ _ _ (by decide),
      State.rd_wr_apart _ F.HPT_LINK_gen F.HPT_LINK_width _ _ rfl (by decide) (by decide), State.rd_wr_self _ _ _ _ (by decide)]
  · rw [State.rd_wr_reg _ F.HPT_LINK_width F.HPT_LINK_rate_mbs _ _ _ (by decide), State.rd_wr_self _ _ _ _ (by decide)]
  · rw [State.rd_wr_reg _ F.HPT_LINK_state F.HPT_LINK_rate_mbs _ _ _ (by decide),
      State.rd_wr_apart _ F.HPT_LINK_state F.HPT_LINK_width _ _ rfl (by decide) (by decide),
      State.rd_wr_apart _ F.HPT_LINK_state F.HPT_LINK_gen _ _ rfl (by decide) (by decide)]

theorem State.rd_showLink (s : State) (x gen width : Nat) (f : Fld) (i : Nat) (h0 : f.reg ≠ .HPT_LINK_w00) (h8 : f.reg ≠ .HPT_LINK_w08) :
    (s.showLink x gen width).rd f i = s.rd f i := by
  unfold State.showLink
  rw [State.rd_wr_reg _ f F.HPT_LINK_rate_mbs _ _ _ h8, State.rd_wr_reg _ f F.HPT_LINK_width _ _ _ h0, State.rd_wr_reg _ f F.HPT_LINK_gen _ _ _ h0]

theorem State.setLink_only (s : State) (x st : Nat) : RegOnly .HPT_LINK_w00 s (s.setLink x st) := (RegOnly.wr s F.HPT_LINK_state _ _).logEv ..

theorem State.rd_setLink_self (s : State) (x st : Nat) : (s.setLink x st).rd F.HPT_LINK_state x = st % 4 :=
  (State.rd_logEv _ _ _ _ _ _ _ _ _ rfl).trans (State.rd_wr_self _ _ _ _ (by decide))

theorem State.rd_setLink_apart (s : State) (x st : Nat) (f : Fld) (hr : f.reg = .HPT_LINK_w00) (ha : f.apart F.HPT_LINK_state) :
    (s.setLink x st).rd f x = s.rd f x :=
  (State.rd_logEv _ _ _ _ _ _ _ _ _ (by rw [hr]; rfl)).trans (s.rd_wr_apart f F.HPT_LINK_state _ _ hr (by decide) ha)

/-- A speed and width that a link can train at. -/
theorem State.linkFits_bounds {s : State} {x gen width : Nat} (h : s.linkFits x gen width = true) :
    gen ≠ 0 ∧ (width = 4 ∨ width = 8 ∨ width = 16) ∧ s.lanesFor x width = true := by
  simp only [State.linkFits, Bool.and_eq_true, Bool.or_eq_true, decide_eq_true_eq, beq_iff_eq] at h
  obtain ⟨⟨⟨⟨⟨-, slow⟩, -⟩, widths⟩, -⟩, lanes⟩ := h
  exact ⟨by omega, by omega, lanes⟩

theorem width_fits {w : Nat} (h : w = 4 ∨ w = 8 ∨ w = 16) : w % 2 ^ F.HPT_LINK_width.width = w := by
  rcases h with rfl | rfl | rfl <;> rfl

/-- A link that comes to L0 shows its speed, width and rate. -/
theorem State.linkUpNow_shows {s : State} {x gen width : Nat} (h : s.linkFits x gen width = true) :
    let t := s.linkUpNow x gen width
    t.rd F.HPT_LINK_state x = 2 ∧ t.rd F.HPT_LINK_gen x = gen % 2 ^ F.HPT_LINK_gen.width ∧ t.rd F.HPT_LINK_width x = width ∧
      t.rd F.HPT_LINK_rate_mbs x = linkRate gen width % 2 ^ F.HPT_LINK_rate_mbs.width ∧ t.mem = s.mem := by
  obtain ⟨fast, widths, -⟩ := State.linkFits_bounds h
  have shown := s.showLink_shows x gen width
  have only := (s.showLink x gen width).setLink_only x 2
  refine ⟨State.rd_setLink_self _ _ _, ?_, ?_, ?_, only.mem⟩
  · exact (State.rd_setLink_apart _ _ _ _ rfl (by decide)).trans shown.speed
  · exact (State.rd_setLink_apart _ _ _ _ rfl (by decide)).trans (shown.lanes.trans (width_fits widths))
  · exact (only.rd F.HPT_LINK_rate_mbs x rfl (by decide)).trans (shown.rate.trans (by rw [if_neg fast]))

/-! ### A change in service (R31, R311) -/

/-- The state after the lanes of a port named as failed have failed. -/
def State.lanesFailed (s : State) (x : Nat) (failed : List Nat) : State :=
  (failed.filter (· < 17)).foldl (fun (v : State) k => v.hostLaneFails (x / 4) k) s

/-- The widest width, up to one, that a link's lanes carry. -/
def State.widest (s : State) (x width : Nat) : Option Nat := [16, 8, 4].find? fun w => decide (w ≤ width) && s.lanesFor x w

/-- A width that the lanes carry is the widest up to itself. -/
theorem State.widest_self {s : State} {x width : Nat} (hw : width = 4 ∨ width = 8 ∨ width = 16) (h : s.lanesFor x width = true) :
    s.widest x width = some width := by
  rcases hw with rfl | rfl | rfl <;> simp [State.widest, h]

theorem State.widest_is_width {s : State} {x width w : Nat} (h : s.widest x width = some w) : w = 4 ∨ w = 8 ∨ w = 16 := by
  have := List.mem_of_find?_eq_some h
  simp at this
  omega

/-- A link goes on in service at a width: it shows it and counts a retraining, and the operations it slows record cause 6. -/
def State.goOnAt (s : State) (x gen w : Nat) : State :=
  let v := (s.showLink x gen w).bump F.HPT_RETRAIN 1 x
  if decide (linkRate gen w < s.rd F.HPT_LINK_rate_mbs x) then (v.ops.filter fun q => v.usesLink x q.1).foldl (fun (s : State) q => s.recordCause q.1 6) v
  else v

/-- With no lanes to carry any width the link is lost. -/
theorem State.linkChange_lost {s : State} {x gen width : Nat} {failed : List Nat} (hup : s.linkUp x = true)
    (hw : (s.lanesFailed x failed).widest x width = none) : s.linkChange x gen width failed = (s.lanesFailed x failed).hostLinkLost x := by
  unfold State.linkChange
  rw [if_neg (by simp [hup])]
  dsimp only
  split
  · rfl
  · next h => cases hw.symm.trans h

/-- Otherwise it goes on at the widest width they carry. -/
theorem State.linkChange_goesOn {s : State} {x gen width w : Nat} {failed : List Nat} (hup : s.linkUp x = true)
    (hw : (s.lanesFailed x failed).widest x width = some w) : s.linkChange x gen width failed = (s.lanesFailed x failed).goOnAt x gen w := by
  unfold State.linkChange
  rw [if_neg (by simp [hup])]
  dsimp only
  split
  · next h => cases hw.symm.trans h
  · next h => cases hw.symm.trans h; rfl

theorem State.goOnAt_shows (s : State) (x : Nat) {gen w : Nat} (fast : gen ≠ 0) (hw : w = 4 ∨ w = 8 ∨ w = 16) :
    let t := s.goOnAt x gen w
    t.rd F.HPT_LINK_state x = s.rd F.HPT_LINK_state x ∧ t.rd F.HPT_LINK_width x = w ∧
      t.rd F.HPT_LINK_rate_mbs x = linkRate gen w % 2 ^ F.HPT_LINK_rate_mbs.width ∧
      t.rd F.HPT_RETRAIN x = (s.rd F.HPT_RETRAIN x + 1) % 2 ^ F.HPT_RETRAIN.width ∧ t.mem = s.mem := by
  let u := s.showLink x gen w
  let v := u.bump F.HPT_RETRAIN 1 x
  have only : OpsOnly v (s.goOnAt x gen w) := by
    unfold State.goOnAt
    split
    · exact v.recordCauses_only _ (fun q : Nat × Op => q.1) 6
    · exact OpsOnly.refl v
  have link (f : Fld) (hf : f.reg ≠ .HPT_RETRAIN) : (s.goOnAt x gen w).rd f x = u.rd f x :=
    (only.rd f x).trans (u.rd_bump_ne f F.HPT_RETRAIN _ _ _ (.inl hf))
  have shown := s.showLink_shows x gen w
  refine ⟨(link _ (by decide)).trans shown.state, (link _ (by decide)).trans (shown.lanes.trans (width_fits hw)),
    (link _ (by decide)).trans (shown.rate.trans (by rw [if_neg fast])), ?_, only.mem⟩
  rw [only.rd, State.rd_bump_self _ _ _ _ (by decide), State.rd_showLink _ _ _ _ _ _ (by decide) (by decide)]

/-! ### The loss of a link (R322, R323) -/

/-- A fence with nothing under way on any host link loses nothing. -/
theorem State.fenceWork_bare {s : State} (hr : s.hpt.reads = []) (hp : s.hpt.posted = []) (hf : s.hpt.flushes = []) (mine : Nat → Nat → Bool) :
    ∃ h : HptSt, s.fenceWork mine = { s with hpt := h } := by
  refine ⟨{ s.hpt with reads := [], posted := [], flushes := [] }, ?_⟩
  simp [State.fenceWork, State.dropUnsent, State.failReads, hr, hp, hf]

/-- The loss of an endpoint link to which nothing is attached, with nothing under way: fenced, showing no speed and width, and counted. -/
theorem State.linkLoss_bare {s : State} {x : Nat} (hup : s.linkUp x = true) (hroot : s.isRoot x = false) (hat : s.attachedTo x = [])
    (hr : s.hpt.reads = []) (hp : s.hpt.posted = []) (hf : s.hpt.flushes = []) :
    let t := s.linkLoss x
    t.rd F.HPT_LINK_state x = 3 ∧ t.rd F.HPT_LINK_gen x = 0 ∧ t.rd F.HPT_LINK_width x = 0 ∧
      t.rd F.HPT_FENCE x = (s.rd F.HPT_FENCE x + 1) % 2 ^ F.HPT_FENCE.width ∧ t.mem = s.mem := by
  intro t
  let u := (s.showLink x 0 0).setLink x 3
  have only : RegOnly .HPT_LINK_w00 (s.showLink x 0 0) u := State.setLink_only _ _ _
  have hpt : (u.bump F.HPT_FENCE 1 x).hpt = s.hpt := only.hpt
  obtain ⟨h, work⟩ := (u.bump F.HPT_FENCE 1 x).fenceWork_bare (hpt ▸ hr) (hpt ▸ hp) (hpt ▸ hf) fun l _ => l == x
  have e : t = { u.bump F.HPT_FENCE 1 x with hpt := h } := by
    rw [← work]
    show s.linkLoss x = _
    unfold State.linkLoss
    rw [if_neg (by simp [hup])]
    simp only [hroot, hat, Bool.false_eq_true, if_false, List.foldl_nil]
    rfl
  have shown := s.showLink_shows x 0 0
  have rd (f : Fld) (hf : f.reg ≠ .HPT_FENCE) : t.rd f x = u.rd f x :=
    (congrArg (fun z : State => z.rd f x) e).trans (State.rd_bump_ne _ f F.HPT_FENCE _ _ _ (.inl hf))
  refine ⟨(rd _ (by decide)).trans (State.rd_setLink_self _ _ _), ?_, ?_, ?_, (congrArg State.mem e).trans only.mem⟩
  · exact (rd _ (by decide)).trans ((State.rd_setLink_apart _ _ _ _ rfl (by decide)).trans shown.speed)
  · exact (rd _ (by decide)).trans ((State.rd_setLink_apart _ _ _ _ rfl (by decide)).trans shown.lanes)
  · calc t.rd F.HPT_FENCE x = (u.rd F.HPT_FENCE x + 1) % 2 ^ F.HPT_FENCE.width :=
        (congrArg (fun z : State => z.rd F.HPT_FENCE x) e).trans (State.rd_bump_self _ _ _ _ (by decide))
      _ = (s.rd F.HPT_FENCE x + 1) % 2 ^ F.HPT_FENCE.width := by
        rw [only.rd _ _ rfl (by decide), State.rd_showLink _ _ _ _ _ _ (by decide) (by decide)]

/-! ### MSI-X (R318) -/

/-- Unmasking a vector whose pending bit is set, with MSI-X on, clears the bit and sends its message. -/
theorem State.msixUnmask_sends {s : State} {vf v : Nat} {e : MsixEntry} (he : Tbl.get? (s.inst vf).msix v = some e)
    (hpba : (s.inst vf).pba.contains v = true) (hon : (s.inst vf).msixOn = true) :
    let t := s.msixUnmask vf v
    t.outbox = s.outbox ++ [.msix (s.rd F.HPT_INST_STATE_link vf) e.addr e.data] ∧ (t.inst vf).pba.contains v = false ∧
      Tbl.get? (t.inst vf).msix v = some { e with masked := false } ∧ t.mem = s.mem ∧ t.regs = s.regs := by
  let i : Inst := { s.inst vf with msix := Tbl.set (s.inst vf).msix v { e with masked := false }, pba := (s.inst vf).pba.filter (· != v) }
  have sent : s.msixUnmask vf v = (s.setInst vf i).emit (.msix (s.rd F.HPT_INST_STATE_link vf) e.addr e.data) := by
    unfold State.msixUnmask
    simp only [he]
    exact if_pos ⟨hpba, hon⟩
  have record : ((s.setInst vf i).emit (.msix (s.rd F.HPT_INST_STATE_link vf) e.addr e.data)).inst vf = i := Tbl.getD_set_self _ _ _ _
  dsimp only
  rw [sent, record]
  exact ⟨rfl, by simp [i], Tbl.get?_set_self _ _ _, rfl, rfl⟩

/-! ### The rows -/

section
variable {s : State} {x : Nat} (hrun : s.power = .run)
include hrun

theorem hostLinkLoss_loses (hx : x < 16) (he : s.linkExists x = true) :
    Settles (.hostLinkLoss x) s fun z => z = if x = 0 then (s.linkLoss x).pf0Lost else s.linkLoss x :=
  settles_actOn (f := fun s => if x = 0 then (s.linkLoss x).pf0Lost else s.linkLoss x) hrun rfl (by simp [hx, he]) rfl

theorem pfFlr_resets (hx : x < 16) (he : s.linkExists x = true) (hroot : s.isRoot x = false) :
    Settles (.pfFlr x) s fun z => z = if x = 0 then (s.pfFlr x).pf0Lost else s.pfFlr x :=
  settles_actOn (f := fun s => if x = 0 then (s.pfFlr x).pf0Lost else s.pfFlr x) hrun rfl (by simp [hx, he, hroot]) rfl

theorem vfFlr_resets {vf : Nat} (hx : x < 16) (he : s.linkExists x = true) (hv : vf < 1024) : Settles (.vfFlr x vf) s fun z => z = s.vfFlr x vf :=
  settles_actOn (f := fun s => s.vfFlr x vf) hrun rfl (by simp [hx, he, hv]) rfl

end

/-- Counting a function level reset changes no attachment. -/
theorem State.onLink_countFlr (s : State) (x vf : Nat) : (s.bump F.HPT_FLR 1 x).onLink x vf = s.onLink x vf := by
  simp only [State.onLink, State.rd_bump_ne _ _ F.HPT_FLR _ _ _ (.inl (show F.HPT_INST_STATE_state.reg ≠ F.HPT_FLR.reg by decide)),
    State.rd_bump_ne _ _ F.HPT_FLR _ _ _ (.inl (show F.HPT_INST_STATE_link.reg ≠ F.HPT_FLR.reg by decide))]

theorem State.configuredBy_countFlr (s : State) (x vf : Nat) : (s.bump F.HPT_FLR 1 x).configuredBy x vf = s.configuredBy x vf := by
  simp only [State.configuredBy, State.rd_bump_ne _ _ F.HPT_FLR _ _ _ (.inl (show F.HPT_INST_STATE_state.reg ≠ F.HPT_FLR.reg by decide)),
    State.rd_bump_ne _ _ F.HPT_FLR _ _ _ (.inl (show F.HPT_INST_STATE_link.reg ≠ F.HPT_FLR.reg by decide))]

/-- A VF attached through the link is detached first. -/
theorem State.vfFlr_attached {s : State} {x vf : Nat} (h : s.onLink x vf = true) :
    s.vfFlr x vf = let u := (s.bump F.HPT_FLR 1 x).detachAlone vf; if u.configuredBy x vf then u.clearMsix vf else u := by
  simp only [State.vfFlr, State.onLink_countFlr, h, if_true]

/-- One that is not loses its configuration where the link's host wrote it. -/
theorem State.vfFlr_elsewhere {s : State} {x vf : Nat} (h : s.onLink x vf = false) :
    s.vfFlr x vf = if s.configuredBy x vf then (s.bump F.HPT_FLR 1 x).clearMsix vf else s.bump F.HPT_FLR 1 x := by
  simp [State.vfFlr, State.onLink_countFlr, h, State.configuredBy_countFlr]

/-- Settles O33: each row by what its operation of the link or the function leaves. -/
theorem hostLinks : Obligations.HostLinks := by
  intro s x gen width hrun
  refine ⟨fun h => ⟨fun hup => ?_, fun hup => ?_, fun failed hup => ⟨fun hw => ?_, fun w hw => ?_⟩⟩,
    fun hx he => hostLinkLoss_loses hrun hx he, fun hx he hroot => pfFlr_resets hrun hx he hroot, fun vf hx he hv => vfFlr_resets hrun hx he hv,
    fun hx he hroot hup h0 hat hr hp hf => ?_, fun hx he hroot h0 => ?_, fun vf hx he hv => ⟨fun on => ?_, fun off mine => ?_, fun off other => ?_⟩,
    fun vf v e hw he hpba hon => ?_⟩
  · refine completes_actOn hrun rfl h ?_
    rw [if_neg (by simp [hup])]
    exact State.linkUpNow_shows h
  · obtain ⟨fast, widths, lanes⟩ := State.linkFits_bounds h
    refine completes_actOn hrun rfl h ?_
    rw [State.linkChange_goesOn hup (State.widest_self (s := s.lanesFailed x []) widths lanes)]
    obtain ⟨state, rest⟩ := s.goOnAt_shows x fast widths
    exact ⟨state.trans (beq_iff_eq.mp hup), rest⟩
  · exact completes_actOn hrun rfl h ⟨_, congrArg (State.requeue · s.pending) (State.linkChange_lost hup hw), rfl⟩
  · refine completes_actOn hrun rfl h ?_
    rw [State.linkChange_goesOn hup hw]
    exact (State.goOnAt_shows _ x (State.linkFits_bounds h).1 (State.widest_is_width hw)).2
  · refine (hostLinkLoss_loses hrun hx he).mono ?_
    rintro _ rfl
    rw [if_neg h0]
    exact State.linkLoss_bare hup hroot hat hr hp hf
  · exact (pfFlr_resets hrun hx he hroot).mono fun z e => e.trans (if_neg h0)
  · exact (vfFlr_resets hrun hx he hv).mono fun z e => e.trans (State.vfFlr_attached on)
  · exact (vfFlr_resets hrun hx he hv).mono fun z e => e.trans ((State.vfFlr_elsewhere off).trans (if_pos mine))
  · exact (vfFlr_resets hrun hx he hv).mono fun z e => e.trans ((State.vfFlr_elsewhere off).trans (if_neg (by simp [other])))
  · obtain ⟨-, hx, hv, hup, hbar, hlink⟩ := hw
    refine completes_actOn hrun rfl (by simp [hx, hv]) ?_
    rw [if_neg (by simp [hup]), if_pos (by simp [hbar, hlink])]
    exact State.msixUnmask_sends he hpba hon

end Sys2Proof.Machine
end

section
/-!
PROOFS. Layout commands (R50-R57): what a command of LAY_CMD that starts, and one that ends, leave in LAY_STATUS; the rejection of an image on a device
whose Kilmet link has lost too many modules.
-/

namespace Sys2Proof.Machine

/-! ### What LAY_STATUS shows (R52, R59) -/

/-- A command that starts is shown busy, under its own code. -/
theorem State.layStart_shows (s : State) (op : Nat) :
    (s.layStart op).rd F.LAY_STATUS_busy = 1 ∧ (s.layStart op).rd F.LAY_STATUS_last_op = op % 16 := by
  unfold State.layStart
  dsimp only
  constructor
  · rw [State.rd_wr_reg _ _ _ _ _ _ (by decide), State.rd_wr_reg _ _ _ _ _ _ (by decide),
      State.rd_wr_apart _ F.LAY_STATUS_busy F.LAY_STATUS_last_op _ _ rfl (by decide) (by decide),
      State.rd_wr_apart _ F.LAY_STATUS_busy F.LAY_STATUS_rejected _ _ rfl (by decide) (by decide),
      State.rd_wr_apart _ F.LAY_STATUS_busy F.LAY_STATUS_done _ _ rfl (by decide) (by decide), State.rd_wr_self _ _ _ _ (by decide)]
    rfl
  · rw [State.rd_wr_reg _ _ _ _ _ _ (by decide), State.rd_wr_reg _ _ _ _ _ _ (by decide), State.rd_wr_self _ _ _ _ (by decide)]
    rfl

/-- The registers as a command that ends leaves them, before its record. -/
def State.layEnded (s : State) (op reason : Nat) : State :=
  let s := (((s.wr F.LAY_STATUS_busy 0).wr F.LAY_STATUS_done (b2n (reason == 0))).wr F.LAY_STATUS_rejected (b2n (reason != 0))).wr
    F.LAY_STATUS_reason reason
  ((s.wr F.LAY_STATUS_last_op op).wr F.LAY_PROGRESS_phase 0).wr F.LAY_PROGRESS_permille (if reason = 0 then 1000 else s.rd F.LAY_PROGRESS_permille)

theorem State.layResult_only (s : State) (op reason : Nat) : LogOnly (s.layEnded op reason) (s.layResult op reason) := by
  unfold State.layResult
  dsimp only
  split
  · next h => subst h; exact State.logDone_only ..
  · next h => simpa only [State.layEnded, if_neg h] using State.logRefused_only ..

/-- A command ends well, or with a reason, under its own code. -/
theorem State.layResult_shows (s : State) (op reason : Nat) : (s.layResult op reason).rd F.LAY_STATUS_done = b2n (reason == 0) ∧
    (s.layResult op reason).rd F.LAY_STATUS_last_op = op % 16 := by
  rw [(s.layResult_only op reason).rd _ _ rfl, (s.layResult_only op reason).rd _ _ rfl]
  unfold State.layEnded
  dsimp only
  constructor
  · rw [State.rd_wr_reg _ _ _ _ _ _ (by decide), State.rd_wr_reg _ _ _ _ _ _ (by decide),
      State.rd_wr_apart _ F.LAY_STATUS_done F.LAY_STATUS_last_op _ _ rfl (by decide) (by decide),
      State.rd_wr_apart _ F.LAY_STATUS_done F.LAY_STATUS_reason _ _ rfl (by decide) (by decide),
      State.rd_wr_apart _ F.LAY_STATUS_done F.LAY_STATUS_rejected _ _ rfl (by decide) (by decide), State.rd_wr_self _ _ _ _ (by decide)]
    cases reason == 0 <;> rfl
  · rw [State.rd_wr_reg _ _ _ _ _ _ (by decide), State.rd_wr_reg _ _ _ _ _ _ (by decide), State.rd_wr_self _ _ _ _ (by decide)]
    rfl

/-- Every register but LAY_STATUS, LAY_PROGRESS and those of `isLog` reads as before the end of a command. -/
theorem State.rd_layResult (s : State) (op reason : Nat) (f : Fld) (i : Nat) (hl : f.reg.isLog = false) (hs : f.reg ≠ .LAY_STATUS)
    (hp : f.reg ≠ .LAY_PROGRESS) : (s.layResult op reason).rd f i = s.rd f i := by
  rw [(s.layResult_only op reason).rd f i hl]
  unfold State.layEnded
  dsimp only
  rw [State.rd_wr_reg _ _ _ _ _ _ hp, State.rd_wr_reg _ _ _ _ _ _ hp, State.rd_wr_reg _ _ _ _ _ _ hs, State.rd_wr_reg _ _ _ _ _ _ hs,
    State.rd_wr_reg _ _ _ _ _ _ hs, State.rd_wr_reg _ _ _ _ _ _ hs, State.rd_wr_reg _ _ _ _ _ _ hs]

/-! ### The start of a command (R52-R57) -/

/-- What is staged is read off the layout's part of the state alone. -/
theorem State.stagedSlice_of_lay {s t : State} (h : t.lay = s.lay) : t.stagedSlice = s.stagedSlice := by
  simp only [State.stagedSlice, State.stagedImage, State.stagedBytes, h]

theorem State.enabled_of_lay {s t : State} (h : t.lay = s.lay) (p : Nat) : t.enabled p = s.enabled p := by
  simp only [State.enabled, State.partDef, h]

/-- With every enabled partition quiesced there is none that keeps a full load back. -/
theorem State.no_partition_runs {s : State} (h : ∀ p < 64, s.enabled p = true → s.rd F.PTN_PART_state p = ptnQuiesced) :
    ¬((List.range 64).any fun p => s.enabled p && s.rd F.PTN_PART_state p != ptnQuiesced) = true := by
  simpa [List.any_eq_true] using h

section
variable {s : State} {c : Instr} {op : Nat} {f : State → State} {P : State → Prop}

/-- A row of LAY_CMD takes effect for the manager where neither a layout command nor a firmware program runs. -/
theorem layRow_completes (hrun : s.power = .run) (hm : s.manages false = true) (hfw : s.rd F.MGT_FW_STATUS_busy = 0) (hlay : s.rd F.LAY_STATUS_busy = 0)
    (e : exec c s = act s (asManager false fun s => s.layGate op f)) (p : P ((f s.touchSession).requeue s.pending)) : Completes c s P := by
  refine completes_act hrun e ?_
  rw [asManager_of_manages hm, State.layGate, if_neg (by simp [hfw]), if_neg (by simp [hlay])]
  exact p

/-- PROGRAM_A and PROGRAM_B of a slot that the running image did not come from. -/
theorem layProgram_starts (hrun : s.power = .run) (hm : s.manages false = true) (hfw : s.rd F.MGT_FW_STATUS_busy = 0) (hlay : s.rd F.LAY_STATUS_busy = 0)
    {slot : Nat} (hslot : slot < 2) (e : exec c s = act s (asManager false fun s => s.layProgram slot)) (h : s.lay.fromSlot ≠ some slot) :
    Completes c s fun t => t.rd F.LAY_STATUS_busy = 1 ∧ t.rd F.LAY_STATUS_last_op = layProgA + slot := by
  refine layRow_completes hrun hm hfw hlay e ?_
  rw [if_neg (by rwa [State.touchSession_lay])]
  obtain ⟨busy, lastOp⟩ := s.touchSession.layStart_shows (layProgA + slot)
  exact ⟨busy, lastOp.trans (Nat.mod_eq_of_lt (show 3 + slot < 16 by omega))⟩

end

/-- RAISE_FLOOR below the top floor (R57). -/
theorem State.raised_shows (s : State) {level : Nat} (hl : level < 256) :
    let t := (s.wr F.LAY_SOURCE_floor (max (s.rd F.LAY_SOURCE_floor) level)).layResult layFloor 0
    t.rd F.LAY_SOURCE_floor = max (s.rd F.LAY_SOURCE_floor) level ∧ t.rd F.LAY_STATUS_done = 1 ∧ t.rd F.LAY_STATUS_last_op = layFloor := by
  refine ⟨?_, State.layResult_shows _ _ _⟩
  have hf : s.rd F.LAY_SOURCE_floor < 256 := s.rd_lt _ _
  rw [State.rd_layResult _ _ _ _ _ rfl (by decide) (by decide), State.rd_wr_self _ _ _ _ (by decide)]
  exact Nat.mod_eq_of_lt (max_lt hf hl)

/-- Settles O8: no row is kept back, and each ends as what LAY_STATUS shows of a start or of an end says. -/
theorem layoutCommandsStart : Obligations.LayoutCommandsStart := by
  intro s hrun hm hfw hlay
  have lay : s.touchSession.lay = s.lay := s.touchSession_lay
  refine ⟨fun quiesced => ?_, fun p staged quiesced => ?_, layProgram_starts hrun hm hfw hlay (by decide) rfl,
    layProgram_starts hrun hm hfw hlay (by decide) rfl, fun l running level below => ?_, ?_⟩
  · refine layRow_completes hrun hm hfw hlay rfl ?_
    rw [if_neg (State.no_partition_runs fun p hp on => by rw [State.touchSession_rd]; exact quiesced p hp (by rwa [State.enabled_of_lay lay] at on))]
    exact State.layStart_shows _ _
  · refine layRow_completes hrun hm hfw hlay rfl ?_
    simp only [State.stagedSlice_of_lay lay, staged]
    rw [if_neg (by simp [quiesced])]
    obtain ⟨busy, lastOp⟩ := State.layStart_shows { s.touchSession with lay := { s.touchSession.lay with slicePart := some p } } laySlice
    exact ⟨busy, lastOp, rfl⟩
  · refine layRow_completes hrun hm hfw hlay rfl ?_
    simp only [State.touchSession_rd, lay, running, if_neg below]
    have := s.touchSession.raised_shows level
    rwa [State.touchSession_rd] at this
  · refine completes_act hrun rfl ?_
    rw [asManager_of_manages hm, State.layAbortCmd, if_neg (by simp [hfw]), if_neg (by simp [hlay])]
    exact State.rd_wr_self _ _ _ _ (by decide)

/-! ### A rejected full load with three modules in service (R27, R50) -/

/-- An image that does not begin with the magic word is rejected with reason 1 (R34). -/
theorem State.checkFull_bad_magic (s : State) {img : List Byte} (h : fieldLE img 0 4 ≠ 0x4959414C) (room : Nat) : s.checkFull img room = .error 1 := by
  simp [State.checkFull, State.checkImage, checkHdr, need, h, bind, Except.bind]

/-- LOAD_FULL runs on an unwritten staging buffer of a device in which five of the eight Kilmet modules are retired. The device runs so after the chip
reset that the fifth retirement takes (R27), for a retired module stays retired over it. -/
def loadingOnThreeModules : State :=
  (((List.range 5).foldl (fun s m => s.wr F.KLN_MOD_state 2 m) State.reset).wr F.LAY_STATUS_busy 1).wr F.LAY_STATUS_last_op layFull

/-- It meets every hypothesis of the statement's clause on a rejected full load. -/
theorem loadingOnThreeModules_meets : loadingOnThreeModules.power = .run ∧ loadingOnThreeModules.rd F.MGT_FW_STATUS_busy = 0 ∧
    loadingOnThreeModules.rd F.LAY_STATUS_busy = 1 ∧ loadingOnThreeModules.rd F.LAY_STATUS_last_op = layFull ∧
    fieldLE loadingOnThreeModules.stagedImage 0 4 ≠ 0x4959414C := by decide +kernel

/-- The load's end takes the chip reset of a link with fewer than four modules, and LAY_STATUS, which a chip reset clears, shows no rejection. -/
theorem loadingOnThreeModules_forgets : (loadingOnThreeModules.layoutDone true).rd F.LAY_STATUS_rejected = 0 := by decide +kernel

/-- What the statement's clause on a rejected full load says of the end of one. -/
theorem layoutCommandsEnd_rejects (h : Obligations.LayoutCommandsEnd) {s : State} {r : Nat} (hrun : s.power = .run) (hfw : s.rd F.MGT_FW_STATUS_busy = 0)
    (hbusy : s.rd F.LAY_STATUS_busy = 1) (hop : s.rd F.LAY_STATUS_last_op = layFull) (bad : s.checkFull s.stagedImage 67108864 = .error r)
    (h0 : 0 < r) (hr : r < 256) : (s.layoutDone true).rd F.LAY_STATUS_rejected = 1 := by
  obtain ⟨ends, -, -, -, -, -, rejects, -⟩ := h s hrun hfw hbusy
  obtain ⟨t, ht, rfl⟩ := ends true
  obtain ⟨u, hu, -, rejected, -⟩ := rejects true r hop bad h0 hr
  obtain rfl : _ = u := Host.Outcome.next.inj (ht.symm.trans hu)
  exact rejected

/-- Refutes O9: its clause on a rejected full load does not ask that four Kilmet modules are in service. With fewer, LAYOUT_COMMAND_DONE of a LOAD_FULL
takes a chip reset also where the image was rejected, and `rejected` does not show. -/
theorem not_layoutCommandsEnd : ¬ Obligations.LayoutCommandsEnd := by
  intro h
  obtain ⟨hrun, hfw, hbusy, hop, hmagic⟩ := loadingOnThreeModules_meets
  have shows := layoutCommandsEnd_rejects h hrun hfw hbusy hop (State.checkFull_bad_magic _ hmagic _) (by decide) (by decide)
  exact absurd (loadingOnThreeModules_forgets.symm.trans shows) (by decide)

end Sys2Proof.Machine
end

section
/-!
PROOFS. Wipes of key slots and the random source (R78, R396, R399): how a wipe starts and ends, and what the failure and the recovery of the random
source show.
-/

namespace Sys2Proof.Machine

/-! ### The slots of a wipe -/

/-- The key slots may change, tenant and management ones, nothing else. -/
def SlotsOnly (s t : State) : Prop := ∃ k m : Tbl KeySlot, t = { s with slots := k, mslots := m }

theorem SlotsOnly.cph {s t : State} (h : SlotsOnly s t) : t.cph = s.cph := by obtain ⟨_, _, rfl⟩ := h; rfl
theorem SlotsOnly.mem {s t : State} (h : SlotsOnly s t) : t.mem = s.mem := by obtain ⟨_, _, rfl⟩ := h; rfl
theorem SlotsOnly.rd {s t : State} (h : SlotsOnly s t) (f : Fld) (i : Nat) : t.rd f i = s.rd f i := by obtain ⟨_, _, rfl⟩ := h; rfl

theorem State.markWiping_only (s : State) (w : KeyWipe) : SlotsOnly s (s.markWiping w) := by
  unfold State.markWiping
  cases w.what <;> exact ⟨_, _, rfl⟩

theorem State.markWiping_slots (s : State) (w : KeyWipe) :
    (s.markWiping w).slots = Tbl.mapVals s.slots fun n (k : KeySlot) => if covers w n (some k) then { k with state := .wiping } else k := by
  unfold State.markWiping
  cases w.what <;> rfl

theorem State.freeWiped_only (s : State) (w : KeyWipe) (rest : List KeyWipe) : SlotsOnly s (s.freeWiped w rest) := by
  unfold State.freeWiped
  cases w.what <;> exact ⟨_, _, rfl⟩

/-- The slots that a wipe frees depend on the slots alone. -/
theorem State.freeWiped_congr {s t : State} (hs : t.slots = s.slots) (hm : t.mslots = s.mslots) (w : KeyWipe) (rest : List KeyWipe) :
    (t.freeWiped w rest).slots = (s.freeWiped w rest).slots ∧ (t.freeWiped w rest).mslots = (s.freeWiped w rest).mslots := by
  unfold State.freeWiped
  cases w.what <;> simp only [hs, hm, and_self]

/-! ### The start of a wipe -/

/-- The wipes that run once one has started, or has joined one of the same slots. -/
def wipesWith (ws : List KeyWipe) (what : WipeOf) (cmd urgent : Bool) : List KeyWipe :=
  if ws.any (fun x => x.what == what) then
    ws.map fun (x : KeyWipe) => if x.what = what then { x with cmd := x.cmd || cmd, urgent := x.urgent || urgent, fails := 0 } else x
  else ws ++ [⟨what, cmd, urgent, 0⟩]

/-- A key command's wipe runs whether it has joined another or not. -/
theorem any_cmd_wipesWith (ws : List KeyWipe) (what : WipeOf) (urgent : Bool) : (wipesWith ws what true urgent).any (·.cmd) = true := by
  unfold wipesWith
  split
  next joins =>
    obtain ⟨x, hx, same⟩ := List.any_eq_true.1 joins
    exact List.any_eq_true.2 ⟨_, List.mem_map_of_mem hx, by simp [eq_of_beq same]⟩
  next => simp

/-- The start of a wipe before it is logged that no random pattern was to be had. -/
def State.wipeStarted (s : State) (what : WipeOf) (cmd urgent : Bool) : State :=
  let s := s.markWiping ⟨what, cmd, urgent, 0⟩
  (({ s with cph := { s.cph with wipes := wipesWith s.cph.wipes what cmd urgent } }).wr F.CPH_KEY_STATUS_busy 1).wr F.CPH_KEY_STATUS_permille 0

theorem State.startWipe_eq (s : State) (what : WipeOf) (cmd urgent : Bool) : s.startWipe what cmd urgent =
    if (s.wipeStarted what cmd urgent).rd F.TRU_LC_rng_failed = 1 then (s.wipeStarted what cmd urgent).logEv .CPH .stateChange 3 0
    else s.wipeStarted what cmd urgent := rfl

theorem State.startWipe_only (s : State) (what : WipeOf) (cmd urgent : Bool) :
    LogOnly (s.wipeStarted what cmd urgent) (s.startWipe what cmd urgent) := by
  rw [State.startWipe_eq]
  split
  · exact State.logEv_only ..
  · exact LogOnly.refl _

theorem State.startWipe_slots (s : State) (what : WipeOf) (cmd urgent : Bool) : (s.startWipe what cmd urgent).slots =
    Tbl.mapVals s.slots fun n (k : KeySlot) => if covers ⟨what, cmd, urgent, 0⟩ n (some k) then { k with state := .wiping } else k :=
  (s.startWipe_only what cmd urgent).slots.trans (s.markWiping_slots _)

theorem State.startWipe_mem (s : State) (what : WipeOf) (cmd urgent : Bool) : (s.startWipe what cmd urgent).mem = s.mem :=
  (s.startWipe_only what cmd urgent).mem.trans (s.markWiping_only _).mem

theorem State.startWipe_runs (s : State) (what : WipeOf) (urgent : Bool) : (s.startWipe what true urgent).keyCmdRuns = true := by
  rw [State.keyCmdRuns, (s.startWipe_only what true urgent).cph]
  exact any_cmd_wipesWith _ _ _

/-- CPH_KEY_STATUS shows the wipe. -/
theorem State.startWipe_shows (s : State) (what : WipeOf) (cmd urgent : Bool) : (s.startWipe what cmd urgent).rd F.CPH_KEY_STATUS_busy = 1 ∧
    (s.startWipe what cmd urgent).rd F.CPH_KEY_STATUS_permille = 0 := by
  have only := s.startWipe_only what cmd urgent
  rw [only.rd _ _ rfl, only.rd _ _ rfl]
  exact ⟨(State.rd_wr_apart _ F.CPH_KEY_STATUS_busy F.CPH_KEY_STATUS_permille _ _ rfl (by decide) (by decide)).trans
    (State.rd_wr_self _ _ _ _ (by decide)), State.rd_wr_self _ _ _ _ (by decide)⟩

/-! ### The end of a wipe -/

/-- The end of a key command leaves the register's other fields as they were. -/
theorem State.rd_keyResult_apart (s : State) (r : Nat) (f : Fld) (h : f.reg = .CPH_KEY_STATUS) (hd : f.apart F.CPH_KEY_STATUS_done)
    (hf : f.apart F.CPH_KEY_STATUS_refused) (hr : f.apart F.CPH_KEY_STATUS_reason) : (s.keyResult r).rd f = s.rd f := by
  unfold State.keyResult
  rw [State.rd_wr_apart _ f F.CPH_KEY_STATUS_reason _ _ h (by decide) hr, State.rd_wr_apart _ f F.CPH_KEY_STATUS_refused _ _ h (by decide) hf,
    State.rd_wr_apart _ f F.CPH_KEY_STATUS_done _ _ h (by decide) hd]

/-- The wipe at the front is over, and CPH_KEY_STATUS shows so, before its slots are freed. -/
def State.wipeOver (s : State) (rest : List KeyWipe) : State :=
  (({ s with cph := { s.cph with wipes := rest } }).wr F.CPH_KEY_STATUS_busy (b2n (!rest.isEmpty))).wr
    F.CPH_KEY_STATUS_permille 1000

theorem State.wipeOver_shows (s : State) (rest : List KeyWipe) : (s.wipeOver rest).rd F.CPH_KEY_STATUS_busy = b2n (!rest.isEmpty) ∧
    (s.wipeOver rest).rd F.CPH_KEY_STATUS_permille = 1000 := by
  refine ⟨?_, State.rd_wr_self _ _ _ _ (by decide)⟩
  calc _ = b2n (!rest.isEmpty) % 2 := (State.rd_wr_apart _ F.CPH_KEY_STATUS_busy F.CPH_KEY_STATUS_permille _ _ rfl (by decide) (by decide)).trans
        (State.rd_wr_self _ _ _ _ (by decide))
    _ = b2n (!rest.isEmpty) := by cases rest.isEmpty <;> rfl

theorem State.rd_wipeOver (s : State) (rest : List KeyWipe) (f : Fld) (i : Nat) (h : f.reg ≠ .CPH_KEY_STATUS) :
    (s.wipeOver rest).rd f i = s.rd f i :=
  (State.rd_wr_reg _ _ _ _ _ _ h).trans (State.rd_wr_reg _ _ _ _ _ _ h)

/-- The wipe at the front has been read back, before a command that started it is answered. -/
def State.wipeReadBack (s : State) (w : KeyWipe) (rest : List KeyWipe) : State := ((s.wipeOver rest).freeWiped w rest).bump F.CPH_WIPES

theorem State.wipeDone_readBack {s : State} {w : KeyWipe} {rest : List KeyWipe} (h : s.cph.wipes = w :: rest) :
    s.wipeDone true = if w.cmd then (s.wipeReadBack w rest).keyResult 0 else s.wipeReadBack w rest := by
  simp only [State.wipeDone, h, Bool.not_true, Bool.false_eq_true, false_and, if_false, Bool.or_false]
  rfl

theorem State.wipeDone_fails {s : State} {w : KeyWipe} {rest : List KeyWipe} (h : s.cph.wipes = w :: rest) (few : w.fails < 2) :
    s.wipeDone false = { s with cph := { s.cph with wipes := { w with fails := w.fails + 1 } :: rest } } := by
  simp [State.wipeDone, h, few]

/-- What the end of a wipe shows: the wipe is gone, its slots are free, and it is counted. -/
structure WipeEnded (s : State) (w : KeyWipe) (rest : List KeyWipe) (t : State) : Prop where
  wipes : t.cph.wipes = rest
  slots : t.slots = (s.freeWiped w rest).slots
  mslots : t.mslots = (s.freeWiped w rest).mslots
  busy : t.rd F.CPH_KEY_STATUS_busy = b2n (!rest.isEmpty)
  permille : t.rd F.CPH_KEY_STATUS_permille = 1000
  count : t.rd F.CPH_WIPES = (s.rd F.CPH_WIPES + 1) % 2 ^ F.CPH_WIPES.width
  mem : t.mem = s.mem

theorem State.wipeReadBack_ends (s : State) (w : KeyWipe) (rest : List KeyWipe) : WipeEnded s w rest (s.wipeReadBack w rest) := by
  have only := (s.wipeOver rest).freeWiped_only w rest
  obtain ⟨slots, mslots⟩ := State.freeWiped_congr (s := s) (t := s.wipeOver rest) rfl rfl w rest
  obtain ⟨busy, permille⟩ := s.wipeOver_shows rest
  have status (f : Fld) (h : f.reg ≠ F.CPH_WIPES.reg) : (s.wipeReadBack w rest).rd f = (s.wipeOver rest).rd f :=
    (State.rd_bump_ne _ f F.CPH_WIPES 1 0 0 (.inl h)).trans (only.rd f 0)
  refine ⟨congrArg CphSt.wipes only.cph, slots, mslots, (status _ (by decide)).trans busy, (status _ (by decide)).trans permille, ?_, only.mem⟩
  rw [State.wipeReadBack, State.rd_bump_self _ _ _ _ (by decide), only.rd, State.rd_wipeOver _ _ _ _ (by decide)]

/-- The answer to the command that started the wipe takes nothing of that back. -/
theorem WipeEnded.keyResult {s t : State} {w : KeyWipe} {rest : List KeyWipe} (h : WipeEnded s w rest t) (r : Nat) :
    WipeEnded s w rest (t.keyResult r) where
  wipes := h.wipes
  slots := h.slots
  mslots := h.mslots
  busy := (t.rd_keyResult_apart r _ rfl (by decide) (by decide) (by decide)).trans h.busy
  permille := (t.rd_keyResult_apart r _ rfl (by decide) (by decide) (by decide)).trans h.permille
  count := (t.rd_keyResult_reg r _ _ (by decide)).trans h.count
  mem := h.mem

theorem State.wipeDone_ends {s : State} {w : KeyWipe} {rest : List KeyWipe} (h : s.cph.wipes = w :: rest) :
    WipeEnded s w rest (s.wipeDone true) ∧ (w.cmd = true → (s.wipeDone true).rd F.CPH_KEY_STATUS_done = 1) := by
  rw [State.wipeDone_readBack h]
  split
  next => exact ⟨(s.wipeReadBack_ends w rest).keyResult 0, fun _ => State.rd_keyResult_done _ 0⟩
  next other => exact ⟨s.wipeReadBack_ends w rest, fun cmd => absurd cmd other⟩

/-! ### The random source (R78) -/

theorem State.rngHealth_shows (s : State) (failed inj : Bool) : (s.rngHealth failed inj).rd F.TRU_LC_rng_failed = b2n failed ∧
    (s.rngHealth failed inj).mem = s.mem ∧ (s.rngHealth failed inj).slots = s.slots := by
  unfold State.rngHealth
  split
  next already => exact ⟨already, rfl, rfl⟩
  next =>
    refine ⟨?_, State.mem_logEv .., State.slots_logEv ..⟩
    rw [State.rd_logEv _ _ _ _ _ _ _ _ _ rfl, State.rd_wr_self _ _ _ _ (by decide)]
    cases failed <;> rfl

/-! ### The rows -/

/-- Each of the three wipe rows is its holder's, and wipes what CPH_KEY_CTL selects. -/
theorem wipeRow_exec {s : State} {c : Instr} {what : WipeOf}
    (h : (c, what) ∈ [(.wipeSlot, .slot (s.rd F.CPH_KEY_CTL_slot)), (.wipeInstance, .inst (s.rd F.CPH_KEY_CTL_vf)), (.wipeAll, .all)]) :
    ∃ f, exec c s = act s (asManager false f) ∧ f s.touchSession = s.touchSession.wipeCmd what := by
  simp only [List.mem_cons, Prod.mk.injEq, List.not_mem_nil, or_false] at h
  obtain ⟨rfl, rfl⟩ | ⟨rfl, rfl⟩ | ⟨rfl, rfl⟩ := h
  · exact ⟨_, rfl, by rw [s.touchSession_rd]⟩
  · exact ⟨_, rfl, by rw [s.touchSession_rd]⟩
  · exact ⟨_, rfl, rfl⟩

section
variable {s : State} {c : Instr} {what : WipeOf} (hrun : s.power = .run) (hm : s.manages false = true)
  (h : (c, what) ∈ [(.wipeSlot, .slot (s.rd F.CPH_KEY_CTL_slot)), (.wipeInstance, .inst (s.rd F.CPH_KEY_CTL_vf)), (.wipeAll, .all)])
include hrun hm h

/-- A wipe row takes effect for the session's holder. -/
theorem wipeRow_completes {P : State → Prop} (p : P ((s.touchSession.wipeCmd what).requeue s.pending)) : Completes c s P := by
  obtain ⟨f, e, wipes⟩ := wipeRow_exec h
  refine completes_act hrun e ?_
  rwa [asManager_of_manages hm, wipes]

/-- A wipe that no other key command keeps back. -/
theorem wipeRow_starts (idle : s.keyCmdRuns = false) : Completes c s fun t =>
    t.slots = Tbl.mapVals s.slots (fun n (k : KeySlot) => if covers ⟨what, true, false, 0⟩ n (some k) then { k with state := .wiping } else k) ∧
      t.rd F.CPH_KEY_STATUS_busy = 1 ∧ t.rd F.CPH_KEY_STATUS_permille = 0 ∧ t.keyCmdRuns = true ∧ t.mem = s.mem := by
  refine wipeRow_completes hrun hm h ?_
  have same := s.sameKeys_touchSession
  rw [State.wipeCmd, if_neg (by rw [State.keyCmdRuns, same.cph, ← State.keyCmdRuns, idle]; decide)]
  obtain ⟨busy, permille⟩ := s.touchSession.startWipe_shows what true false
  exact ⟨same.slots ▸ s.touchSession.startWipe_slots what true false, busy, permille, s.touchSession.startWipe_runs what false,
    (s.touchSession.startWipe_mem what true false).trans same.mem⟩

/-- A wipe while a key command runs (reason 8 of R396). -/
theorem wipeRow_refused (runs : s.keyCmdRuns = true) : Completes c s fun t => t.slots = s.slots ∧ t.cph = s.cph ∧
    t.rd F.CPH_KEY_STATUS_refused = 1 ∧ t.rd F.CPH_KEY_STATUS_reason = 8 ∧ t.mem = s.mem := by
  refine wipeRow_completes hrun hm h ?_
  have same := s.sameKeys_touchSession
  rw [State.wipeCmd, if_pos (by rwa [State.keyCmdRuns, same.cph])]
  exact ⟨same.slots, same.cph, State.rd_keyResult_refused _ 8, State.rd_keyResult_reason _ 8, same.mem⟩

end

/-- KEY_WIPE_DONE takes no manager. -/
theorem keyWipeDone_completes {s : State} {ok : Bool} {P : State → Prop} (hrun : s.power = .run) (p : P ((s.wipeDone ok).requeue s.pending)) :
    Completes (.keyWipeDone ok) s P :=
  completes_act (f := fun s => s.wipeDone ok) hrun rfl p

/-- Settles O40: the wipe rows on the state that the access of the session's holder leaves, and the end of the wipe at the front with and without a
command to answer. -/
theorem keysAreWiped : Obligations.KeysAreWiped := by
  intro s hrun
  refine ⟨fun c what h => ⟨fun hm idle => wipeRow_starts hrun hm h idle, fun hm runs => wipeRow_refused hrun hm h runs⟩,
    fun w rest front => ⟨?_, fun few => ?_, fun ok => keyWipeDone_completes hrun rfl⟩,
    completes_act (f := fun s => s.rngHealth true false) hrun rfl (s.rngHealth_shows true false),
    completes_act (f := fun s => s.rngHealth false false) hrun rfl (s.rngHealth_shows false false)⟩
  · obtain ⟨ended, done⟩ := State.wipeDone_ends front
    exact keyWipeDone_completes hrun ⟨ended.wipes, ended.slots, ended.mslots, ended.busy, ended.permille, done, ended.count, ended.mem⟩
  · refine keyWipeDone_completes hrun ?_
    rw [State.wipeDone_fails front few]
    exact ⟨rfl, rfl, rfl, rfl⟩

end Sys2Proof.Machine
end

section
/-!
PROOFS. The timers of the commons (R118, R141, R143, R195) and the binding of a chunk that waits (R104, R108).
-/

namespace Sys2Proof.Machine

/-! ### An operation of the commons and its chunks after a change -/

theorem State.coll?_of_cop? {s : State} {id : Nat} {x : COp} (h : s.cop? id = some x) : s.coll? id = some x.c := by
  unfold State.cop? at h
  split at h
  · next hc _ =>
    split at h
    · obtain rfl := Option.some.inj h
      exact hc
    · cases h
  · cases h

/-- Replacing every element that is searched for by one that is too replaces what the search finds. -/
theorem find?_replace {α : Type} {p : α → Bool} {f : α → α} (keeps : ∀ a, p a = true → p (f a) = true) (l : List α) :
    (l.map fun a => if p a then f a else a).find? p = (l.find? p).map f := by
  induction l with
  | nil => rfl
  | cons a l ih => by_cases ha : p a = true <;> simp [ha, keeps, ih]

/-- A change that leaves an operation's number shows in what is found under that number. -/
theorem State.coll?_modColl (s : State) (id : Nat) {f : Coll → Coll} (keeps : ∀ c, (f c).op = c.op) :
    (s.modColl id f).coll? id = (s.coll? id).map f :=
  find?_replace (p := fun c : Coll => c.op == id) (fun c h => by simpa [keeps] using h) s.cmn.colls

/-- A chunk's record that is set is the one found at its place. -/
theorem State.node?_setNode {s : State} {id rank b chunk : Nat} {c : Coll} {n m : Node} (hc : s.coll? id = some c) (hn : c.node? rank b chunk = some n)
    (hm : m.rank = n.rank ∧ m.bundle = n.bundle ∧ m.chunk = n.chunk) :
    (((s.setNode id m).coll? id).bind fun c => c.node? rank b chunk) = some m := by
  have place : (n.rank = rank ∧ n.bundle = b) ∧ n.chunk = chunk := by simpa using List.find?_some hn
  obtain ⟨⟨rfl, rfl⟩, rfl⟩ := place
  obtain ⟨hr, hb, hk⟩ := hm
  have set := find?_replace (p := fun x : Node => x.rank == n.rank && x.bundle == n.bundle && x.chunk == n.chunk) (f := fun _ => m)
    (fun _ _ => by simp [hr, hb, hk]) c.nodes
  rw [show c.nodes.find? _ = some n from hn] at set
  rw [State.setNode, State.coll?_modColl, hc, hr, hb, hk]
  · exact set
  · exact fun _ => rfl

/-! ### A chunk binds (R104, R108) -/

/-- A chunk enters the unit it binds to where its operation has a slot free. -/
theorem State.bindChunk_enters {s : State} {id rank b chunk u : Nat} {x : COp} {n : Node} (hx : s.cop? id = some x)
    (hn : x.c.node? rank b chunk = some n) (judged : (s.rst.replays.any fun r => r.kind == 0 && r.parked.contains (id, rank, b, chunk)) = false)
    (hu : s.bindUnit x.g.id b chunk = some u) (free : x.c.slotFree n = true) : s.bindChunk id rank b chunk = s.enterUnit id rank b chunk u := by
  simp only [State.bindChunk, hx, judged, hn, hu, free, Bool.false_eq_true, if_false, if_true]

/-- A chunk waits on where no unit, or no slot, is free. -/
theorem State.bindChunk_waits {s : State} {id rank b chunk : Nat} {x : COp} {n : Node} (hx : s.cop? id = some x)
    (hn : x.c.node? rank b chunk = some n) (full : s.bindUnit x.g.id b chunk = none ∨ x.c.slotFree n = false) : s.bindChunk id rank b chunk = s := by
  obtain noUnit | taken := full
  · simp only [State.bindChunk, hx, hn, noUnit, ite_self]
  · cases hu : s.bindUnit x.g.id b chunk <;> simp only [State.bindChunk, hx, hn, hu, taken, Bool.false_eq_true, if_false, ite_self]

section
variable {s : State} {id rank b chunk u : Nat} {c : Coll} {n : Node} (hc : s.coll? id = some c) (hn : c.node? rank b chunk = some n)
  (going : n.finished = false) (apart : n.unit = none)
include hc hn going apart

/-- A chunk with nothing in its arrival area is judged complete, or waits for more. -/
theorem State.enterUnit_of_empty (empty : n.waiting = []) : s.enterUnit id rank b chunk u =
    ((s.bump F.TAL_UNIT_STATE_slots_bound 1 u).setNode id { n with unit := some u, waiting := [], slot := true }).closeNode id
      { n with unit := some u, waiting := [], slot := true } := by
  have found := State.node?_setNode (s := s.bump F.TAL_UNIT_STATE_slots_bound 1 u) (m := { n with unit := some u, waiting := [], slot := true })
    hc hn ⟨rfl, rfl, rfl⟩
  simp only [State.enterUnit, hc, Option.bind_some, hn]
  rw [if_neg (by simp [going, apart])]
  simp only [empty, List.foldl_nil, found]

/-- A chunk with one contribution in its arrival area folds it first. -/
theorem State.enterUnit_of_one {h : ChunkHdr} {d : List Byte} (one : n.waiting = [(h, d)]) : s.enterUnit id rank b chunk u =
    let m : Node := { n with unit := some u, waiting := [], slot := true }
    let y := ((s.bump F.TAL_UNIT_STATE_slots_bound 1 u).setNode id m).offer id m h d
    match (y.coll? id).bind fun c => c.node? rank b chunk with
    | some m => y.closeNode id m
    | none => y := by
  have found := State.node?_setNode (s := s.bump F.TAL_UNIT_STATE_slots_bound 1 u) (m := { n with unit := some u, waiting := [], slot := true })
    hc hn ⟨rfl, rfl, rfl⟩
  simp only [State.enterUnit, hc, Option.bind_some, hn]
  rw [if_neg (by simp [going, apart])]
  simp only [one, List.foldl_cons, List.foldl_nil, found] <;> rfl

end

/-! ### The timers -/

/-- The keep-alive of a coordination connection whose group has an operation open (R195). -/
theorem State.keepCoord_sends {s : State} {c : Nat} {k : Conn} {g : Group} (hk : s.conn? c = some k) (svc : k.svc = 2) (st : k.state = .open_)
    (busy : s.opsOpen k.slot ≠ 0) (hg : s.group? k.slot = some g) :
    s.keepCoord c = s.sendMsg c 0 (.coord 14 g.gen 0 g.id g.me 0) false [] none := by
  simp [State.keepCoord, hk, svc, st, busy, hg]

/-- The abandonment that the bellwether announces: it has ended the operation and forgets the endings that waited for it. -/
theorem State.bellAbandon_of_bell {s : State} {slot key status cause culprit : Nat} {g : Group} {b : Bell} (hg : s.group? slot = some g)
    (hb : Tbl.get? g.bells key = some b) : s.bellAbandon slot key status cause culprit =
    ((s.modBell slot key fun b => { b with isOver := true }).modGroup slot fun g => { g with ended := Tbl.erase g.ended key }).notify slot key
      (.abandon status cause culprit b.commits) := by
  simp [State.bellAbandon, hg, hb]

/-- The budget of an operation that its bellwether has not ended (R141). -/
theorem State.straggle_abandons {s : State} {slot key : Nat} {g : Group} {b : Bell} (hg : s.group? slot = some g) (hb : Tbl.get? g.bells key = some b)
    (going : b.isOver = false) (whole : g.state ≠ .reforming) :
    s.straggle slot key = (s.bellAbandon slot key Status.deadlineMissed 4 (s.missingRank slot key)).cmnRun := by
  simp [State.straggle, hg, hb, going, whole]

/-- No INSTALL in time (R143 step 4): the group goes on with what it lost forgotten, and its held operations end. -/
theorem State.reformExpired_ends {s : State} {slot : Nat} {g : Group} (hg : s.group? slot = some g) (st : g.state = .reforming) (old : g.fresh = false) :
    s.reformExpired slot = (s.cmn.colls.filter fun c => c.slot == slot && c.phase == .held).foldl
      (fun s c => s.endColl c Status.peerLost 0 5 (g.lost.foldl min (g.lost.headD 0)) (if c.isStep then c.bundlesDone else 0))
      (s.setGroup slot { g with state := .active, lost := [] }) := by
  simp [State.reformExpired, hg, st, old]

theorem State.group?_setGroup_self (s : State) (slot : Nat) (g : Group) : (s.setGroup slot g).group? slot = some g := Tbl.get?_set_self _ _ _

/-- A chunk connection that is not open in time (R118). -/
theorem State.chunkConnTimeout_loses {s : State} {c : Nat} {k : Conn} {g : Group} (hk : s.conn? c = some k) (svc : k.svc = 3) (st : k.state = .armed)
    (hg : s.group? k.slot = some g) : s.chunkConnTimeout c = ((s.freeConn c none).seeLoss k.slot (g.ranksOf k.peerDev)).cmnRun := by
  simp [State.chunkConnTimeout, hk, svc, st, hg]

/-! ### The rows -/

theorem straggleExpiry_completes {s : State} {slot n : Nat} {P : State → Prop} (hrun : s.power = .run)
    (p : P ((s.straggle slot (s.opKey slot n)).requeue s.pending)) : Completes (.straggleExpiry slot n) s P :=
  completes_act (f := fun s => s.straggle slot (s.opKey slot n)) hrun rfl p

theorem reformWaitExpiry_completes {s : State} {slot : Nat} {P : State → Prop} (hrun : s.power = .run)
    (p : P ((s.reformExpired slot).requeue s.pending)) : Completes (.reformWaitExpiry slot) s P :=
  completes_act (f := fun s => s.reformExpired slot) hrun rfl p

theorem coordKeepaliveTimer_completes {s : State} {c : Nat} {P : State → Prop} (hrun : s.power = .run)
    (p : P ((s.keepCoord c).requeue s.pending)) : Completes (.coordKeepaliveTimer c) s P :=
  completes_act (f := fun s => s.keepCoord c) hrun rfl p

theorem chunkConnTimeout_completes {s : State} {c : Nat} {P : State → Prop} (hrun : s.power = .run)
    (p : P ((s.chunkConnTimeout c).requeue s.pending)) : Completes (.chunkConnTimeout c) s P :=
  completes_act (f := fun s => s.chunkConnTimeout c) hrun rfl p

theorem chunkBind_deals {s : State} {op rank b chunk : Nat} {P : State → Prop} (hrun : s.power = .run)
    (p : P (s.bindChunk op rank b chunk)) : Deals (.chunkBind op rank b chunk) s P :=
  deals_act (f := fun s => s.bindChunk op rank b chunk) hrun rfl p

/-- Settles O13: each row's own effect, and what that is in the states that the clauses name. -/
theorem commonsTimers : Obligations.CommonsTimers := by
  intro s hrun
  refine ⟨fun c => ⟨coordKeepaliveTimer_completes hrun rfl, chunkConnTimeout_completes hrun rfl⟩,
    fun slot n => ⟨straggleExpiry_completes hrun rfl, reformWaitExpiry_completes hrun rfl⟩,
    fun op rank b chunk => completes_act (f := fun s => (s.bindChunk op rank b chunk).cmnRun) hrun rfl rfl, ?keepalive, ?straggle, ?noneHeld, ?oneHeld,
    ?connTimeout, ?bind⟩
  case keepalive =>
    intro c k g hk svc st busy hg
    exact coordKeepaliveTimer_completes hrun (by rw [State.keepCoord_sends hk svc st busy hg])
  case straggle =>
    intro slot n g b key hg hb going whole
    refine straggleExpiry_completes hrun ?_
    rw [State.straggle_abandons hg hb going whole, State.bellAbandon_of_bell hg hb]
    exact ⟨_, rfl, rfl⟩
  case noneHeld =>
    intro slot g hg st old empty
    refine reformWaitExpiry_completes hrun ?_
    rw [State.reformExpired_ends hg st old, empty]
    exact ⟨congrArg (Option.map _) (State.group?_setGroup_self s slot _), rfl, rfl⟩
  case oneHeld =>
    intro slot g c hg st old one
    exact reformWaitExpiry_completes hrun (by rw [State.reformExpired_ends hg st old, one]; rfl)
  case connTimeout =>
    intro c k g hk svc st hg
    refine chunkConnTimeout_completes hrun ?_
    rw [State.chunkConnTimeout_loses hk svc st hg]
    exact ⟨_, rfl, rfl⟩
  case bind =>
    intro op rank b chunk x n hx hn judged
    have hc := State.coll?_of_cop? hx
    refine ⟨fun u hu free going apart => ?_, fun full => chunkBind_deals hrun (State.bindChunk_waits hx hn full)⟩
    have enters := State.bindChunk_enters hx hn judged hu free
    exact ⟨chunkBind_deals hrun enters, fun empty => chunkBind_deals hrun (enters.trans (State.enterUnit_of_empty hc hn going apart empty)),
      fun h d one => chunkBind_deals hrun (enters.trans (State.enterUnit_of_one hc hn going apart one))⟩

end Sys2Proof.Machine
end

section
/-!
PROOFS. The packets that carry data (R100, R209, R214, R217, R534): what takes each once judging lets it through, and what that leaves.
-/

namespace Sys2Proof.Machine

/-! ### What takes a packet -/

theorem State.Takes.ext {s u : State} {p q : Packet} {e : Ext} {c : Nat} {k : Conn} (h : s.Takes p e c k q u) : q.ext = e := by
  obtain ⟨_, _, _, _, he⟩ := h
  exact he

/-- A packet that names the memory to be reached itself: WRITE, READ_REQ, ATOMIC. -/
def namesMemory : Ext → Bool
  | .write .. => true
  | .readReq .. => true
  | .atomic .. => true
  | _ => false

/-- On a tenant's connection such a packet is placed. -/
theorem State.takePkt_tenant {s : State} {c : Nat} {k : Conn} {p : Packet} (tenant : k.svc = 0) (names : namesMemory p.ext = true) :
    s.takePkt c k p = s.placePkt c p none := by
  cases he : p.ext <;> simp [State.takePkt, he, namesMemory, tenant] at names ⊢

/-- On any other connection it is answered ACCESS (log entry 43). -/
theorem State.takePkt_noTenant {s : State} {c : Nat} {k : Conn} {p : Packet} (other : k.svc ≠ 0) (names : namesMemory p.ext = true) :
    s.takePkt c k p = s.refuse c p Nak.access := by
  cases he : p.ext <;> simp [State.takePkt, he, namesMemory, other] at names ⊢

theorem State.takePkt_send {s : State} {c ssn imm : Nat} {k : Conn} {p : Packet} (tenant : k.svc = 0) (he : p.ext = .send ssn imm) :
    s.takePkt c k p = s.placePkt c p none := by
  simp only [State.takePkt, he, tenant, if_true]

/-- A whole chunk on a chunk connection goes to the commons where its header is damaged, which the commons finds, or its length fits (R98, R100). -/
theorem State.takePkt_chunk {s v : State} {c : Nat} {k : Conn} {p : Packet} {hdr d : List Byte} (he : p.ext = .chunk hdr) (svc : k.svc = 3)
    (whole : s.takeMsgBytes c k p = (some d, v)) (fits : (chunkLenOk (chunkHdr hdr) d || !(chunkHdr hdr).good d) = true) :
    s.takePkt c k p = v.inboxAdd (.chunk k.slot (chunkHdr hdr) d) := by
  have taken : chunkLenOk (chunkHdr hdr) d ∨ !(chunkHdr hdr).good d := by simpa using fits
  simp only [State.takePkt, he, State.takeChunkPkt, svc, ne_eq, not_true_eq_false, if_false, whole, if_pos taken]

theorem State.takePkt_keepalive {s : State} {c src svc group msn : Nat} {k : Conn} {p : Packet} (he : p.ext = .ctrl 3 src svc group msn) :
    s.takePkt c k p = s.takePsn c p := by
  simp only [State.takePkt, he, State.takeCtrl, if_true]

/-- REFUSAL_SEEN of a message that was refused ends it (R534). -/
theorem State.takePkt_refusalSeen {s : State} {c src svc group msn : Nat} {k : Conn} {p : Packet} (he : p.ext = .ctrl 6 src svc group msn)
    (refused : (k.msg? msn).any (·.refused.isSome) = true) : s.takePkt c k p = (s.takePsn c p).endMsg c msn := by
  simp [State.takePkt, he, State.takeCtrl, State.onRefusalSeen, refused]

/-! ### Placing by type (R217) -/

theorem Conn.serves_of_open {k : Conn} (st : k.state = .open_) : k.serves = true := by simp [Conn.serves, st]

section
variable {s w : State} {c : Nat} {k : Conn} {p : Packet} {m : OpenMsg} {since : Option Nat} (hk : s.conn? c = some k)
  (fresh : (k.msg? p.msn).bind (·.refused) = none) (hm : s.msgFor c k p = (some m, w))
include hk fresh hm

theorem State.placePkt_write {raddr rkey : Nat} (he : p.ext = .write raddr rkey) : s.placePkt c p since = w.placeWrite c k p m since raddr rkey := by
  simp only [State.placePkt, hk, fresh, hm, he]

theorem State.placePkt_send {ssn imm : Nat} (he : p.ext = .send ssn imm) : s.placePkt c p since = w.placeSend c k p m since ssn := by
  simp only [State.placePkt, hk, fresh, hm, he]

theorem State.placePkt_readReq {raddr rkey n : Nat} (st : k.state = .open_) (he : p.ext = .readReq raddr rkey n) :
    s.placePkt c p since = w.placeRead c k p since raddr rkey n := by
  simp only [State.placePkt, hk, fresh, hm, he, Conn.serves_of_open st, if_true]

theorem State.placePkt_atomic {raddr rkey aop a b : Nat} (st : k.state = .open_) (he : p.ext = .atomic raddr rkey aop a b) :
    s.placePkt c p since = w.placeAtomic c k p m since raddr rkey aop a b := by
  simp only [State.placePkt, hk, fresh, hm, he, Conn.serves_of_open st, if_true]

end

/-- A WRITE whose range translates is stored there. -/
theorem State.placeWrite_stores {s v : State} {c raddr rkey : Nat} {k : Conn} {p : Packet} {m : OpenMsg} {since : Option Nat} {locs : List (Loc × Nat)}
    (range : s.remoteRange k rkey (raddr + p.msgOff) p.payload.length .write = (.ok locs, v)) :
    s.placeWrite c k p m since raddr rkey = (v.writeLocs k.vf (rkey / 2 ^ 20) none locs p.payload).placed c p m locs := by
  simp only [State.placeWrite, range]

/-- The receive entry that a SEND goes to: the one its message has, or the one of its SSN. -/
def State.recvFor (s : State) (k : Conn) (m : OpenMsg) (ssn : Nat) : Option Nat × State :=
  match m.recvOp with
  | some id => (some id, s)
  | none => s.takeRecv k ssn

/-- A SEND to a receive entry long enough whose buffer translates is stored there. -/
theorem State.placeSend_stores {s x v : State} {c ssn id : Nat} {k : Conn} {p : Packet} {m : OpenMsg} {since : Option Nat} {o : Op}
    {locs : List (Loc × Nat)} (entry : s.recvFor k m ssn = (some id, x)) (ho : x.op? id = some o) (room : p.msgLen ≤ fieldLE o.desc 24 4)
    (range : (x.modConn c fun k => k.setMsg { m with recvOp := some id }).lookupRange k.part k.vf o.tag (fieldLE o.desc 16 8 + p.msgOff)
      p.payload.length .write = (.ok locs, v)) :
    s.placeSend c k p m since ssn = (v.writeLocs k.vf o.tag none locs p.payload).placed c p { m with recvOp := some id } locs := by
  unfold State.recvFor at entry
  cases hr : m.recvOp with
  | none =>
    simp only [hr] at entry
    simp only [State.placeSend, hr, entry, Option.bind_some, ho, Option.map_some, if_neg (Nat.not_lt.mpr room), range]
  | some i =>
    simp only [hr, Prod.mk.injEq, Option.some.injEq] at entry
    obtain ⟨rfl, rfl⟩ := entry
    simp only [State.placeSend, hr, Option.bind_some, ho, Option.map_some, if_neg (Nat.not_lt.mpr room), range]

/-! ### Reads and atomics -/

section
variable {s v x : State} {c raddr rkey n : Nat} {k : Conn} {p : Packet} {since : Option Nat} {locs : List (Loc × Nat)}
  (range : s.remoteRange k rkey (raddr + p.msgOff) n .read = (.ok locs, v)) (clean : v.badFor k.part none locs = (false, x))
include range clean

/-- Device memory is answered at once. -/
theorem State.placeRead_answers (st : k.state = .open_) (here : hostLocs locs = []) : s.placeRead c k p since raddr rkey n =
    ((x.takePsn c p).sendReadResp c k p ((x.takePsn c p).readLocs locs)).endMsg c p.msn := by
  simp only [State.placeRead, range, clean, here, List.isEmpty_nil, if_true, State.serveRead, Conn.serves_of_open st]

/-- Host pages are read first (R312). -/
theorem State.placeRead_reads (there : hostLocs locs ≠ []) : s.placeRead c k p since raddr rkey n =
    (x.takePsn c p).issueReads (.served p locs) k.vf (rkey / 2 ^ 20) (hostLocs locs) := by
  simp [State.placeRead, range, clean, there]

end

section
variable {s v x : State} {c raddr rkey aop a b : Nat} {k : Conn} {p : Packet} {m : OpenMsg} {since : Option Nat} {locs : List (Loc × Nat)}
  (known : aop ≤ 2) (aligned : raddr % 8 = 0) (range : s.remoteRange k rkey raddr 8 .atomic = (.ok locs, v))
  (clean : v.badFor k.part none locs = (false, x))
include known aligned range clean

/-- A word of device memory changes at once. -/
theorem State.placeAtomic_performs (here : hostLocs locs = []) :
    s.placeAtomic c k p m since raddr rkey aop a b = x.performAtomic c k p m (rkey / 2 ^ 20) aop a b locs := by
  simp [State.placeAtomic, Nat.not_lt.mpr known, aligned, range, clean, here]

/-- A host word is read first. -/
theorem State.placeAtomic_reads (there : hostLocs locs ≠ []) :
    s.placeAtomic c k p m since raddr rkey aop a b = x.issueReads (.served p locs) k.vf (rkey / 2 ^ 20) (hostLocs locs) := by
  simp [State.placeAtomic, Nat.not_lt.mpr known, aligned, range, clean, there]

end

/-- An ATOMIC performed on an OPEN end: the new value stands, the old one is kept among the last 16 and answered, and its message is finished. -/
theorem State.performAtomic_answers {s : State} {c tag aop a b : Nat} {k : Conn} {p : Packet} {m : OpenMsg} {locs : List (Loc × Nat)}
    (st : k.state = .open_) : s.performAtomic c k p m tag aop a b locs =
      let old := ofLE (s.readLocs locs)
      let done : OpenMsg := { m with fixed := true, complete := true, wrote := lastWrites locs m.wrote }
      let y := ((s.writeLocs k.vf tag none locs (leBytes 8 (atomicValue aop old a b))).modConn c fun k =>
        { k with atomics := ((p.psn, old) :: k.atomics).take 16 }).modConn c fun k => k.setMsg done
      ((y.takePsn c p).sendAtomicResp c k p old).finishMsg c done := by
  simp only [State.performAtomic, Conn.serves_of_open st, if_true]

/-! ### The rows -/

section
variable {row : Instr} {s u : State} {P : State → Prop} {p q : Packet} {e : Ext} {c : Nat} {k : Conn} (h : s.Takes p e c k q u)
  (hrow : exec row s = pktRow p e s) (names : namesMemory e = true)
include h hrow names

theorem memoryRow_settles (hp : P (u.takePkt c k q)) : Settles row s P :=
  takes_settles h hrow (by rintro _ _ _ _ rfl; cases names) (by rintro _ _ _ _ rfl; cases names) (by rintro _ _ _ _ _ rfl; cases names) hp

/-- A row that names memory, on a tenant's connection. -/
theorem memoryRow_places (tenant : k.svc = 0) (hp : P (u.placePkt c q none)) : Settles row s P :=
  memoryRow_settles h hrow names (by rwa [State.takePkt_tenant tenant (h.ext ▸ names)])

/-- The same on a connection that is no tenant's. -/
theorem memoryRow_refused (other : k.svc ≠ 0) : Settles row s fun z => z = u.refuse c q Nak.access :=
  memoryRow_settles h hrow names (State.takePkt_noTenant other (h.ext ▸ names))

end

/-- Settles O15: each row takes its packet to what places it, on the state that judging and translation leave. -/
theorem bxtDataArrives : Obligations.BxtDataArrives := by
  intro s u w v c k p q m locs
  refine ⟨?write, ?send, ?read, ?host, ?atomic, ?noTenant, ?chunk, ?keepalive, ?refusalSeen⟩
  case write =>
    intro raddr rkey h tenant hk fresh hm range
    exact memoryRow_places h rfl rfl tenant (by rw [State.placePkt_write hk fresh hm h.ext, State.placeWrite_stores range])
  case send =>
    intro ssn imm id o x h tenant hk fresh hm entry ho room m' range
    have entry' : w.recvFor k m ssn = (some id, x) := entry
    refine takes_settles h rfl (by simp) (by simp) (by simp) ?_
    rw [State.takePkt_send tenant h.ext, State.placePkt_send hk fresh hm h.ext, State.placeSend_stores entry' ho room range]
  case read =>
    intro raddr rkey n x h tenant st hk fresh hm range clean here
    exact memoryRow_places h rfl rfl tenant (by rw [State.placePkt_readReq hk fresh hm st h.ext, State.placeRead_answers range clean st here])
  case host =>
    intro raddr rkey n aop a b x tenant st hk fresh hm clean there
    refine ⟨fun h range => ?_, fun h known aligned range => ?_⟩
    · exact memoryRow_places h rfl rfl tenant (by rw [State.placePkt_readReq hk fresh hm st h.ext, State.placeRead_reads range clean there])
    · exact memoryRow_places h rfl rfl tenant
        (by rw [State.placePkt_atomic hk fresh hm st h.ext, State.placeAtomic_reads known aligned range clean there])
  case atomic =>
    intro raddr rkey aop a b x h tenant st hk fresh hm known aligned range clean here old done y
    refine memoryRow_places h rfl rfl tenant ?_
    rw [State.placePkt_atomic hk fresh hm st h.ext, State.placeAtomic_performs known aligned range clean here, State.performAtomic_answers st]
  case noTenant =>
    intro raddr rkey n aop a b other
    exact ⟨fun h => memoryRow_refused h rfl rfl other, fun h => memoryRow_refused h rfl rfl other, fun h => memoryRow_refused h rfl rfl other⟩
  case chunk =>
    intro hdr d h svc whole fits
    exact takes_settles h rfl (by simp) (by simp) (by simp) (State.takePkt_chunk h.ext svc whole fits)
  case keepalive =>
    intro svc group h
    exact takes_settles h rfl (by simp) (by simp) (by simp) (State.takePkt_keepalive h.ext)
  case refusalSeen =>
    intro svc group msn h refused
    exact takes_settles h rfl (by simp) (by simp) (by simp) (State.takePkt_refusalSeen h.ext refused)

end Sys2Proof.Machine
end

section
/-!
PROOFS. The shards of the ranks (R120): runs of whole blocks of 32 elements that meet end to end.
-/

namespace Sys2Proof.Machine

/-- The blocks of 32 elements cover the elements, and one fewer would not. -/
theorem blocks_cover (count : Nat) : 32 * ceilDiv count 32 < count + 32 ∧ count ≤ 32 * ceilDiv count 32 := by
  unfold ceilDiv
  omega

theorem shard_fst (r n count : Nat) : (shard r n count).1 = min count (32 * (r * ceilDiv count 32 / n)) := rfl
theorem shard_snd (r n count : Nat) : (shard r n count).2 = min count (32 * ((r + 1) * ceilDiv count 32 / n)) := rfl

/-- A shard holds the elements of its own blocks (R120). -/
theorem mem_shard_iff {r n count e : Nat} (he : e < count) : ((shard r n count).1 ≤ e ∧ e < (shard r n count).2) ↔
    r * ceilDiv count 32 / n ≤ e / 32 ∧ e / 32 < (r + 1) * ceilDiv count 32 / n := by
  rw [shard_fst, shard_snd]
  generalize r * ceilDiv count 32 / n = first
  generalize (r + 1) * ceilDiv count 32 / n = past
  omega

/-- Every block has an owner: the last rank whose first block is not behind it. -/
theorem exists_block_owner {n b k : Nat} (hn : 0 < n) (hk : k < b) : ∃ r < n, r * b / n ≤ k ∧ k < (r + 1) * b / n := by
  have hb : 0 < b := Nat.zero_lt_of_lt hk
  have room : (k + 1) * n ≤ b * n := Nat.mul_le_mul_right n hk
  have positive : 0 < (k + 1) * n := Nat.mul_pos k.succ_pos hn
  refine ⟨((k + 1) * n - 1) / b, ?_, ?_, ?_⟩
  · rw [Nat.div_lt_iff_lt_mul hb, Nat.mul_comm n b]
    omega
  · have below := Nat.div_mul_le_self ((k + 1) * n - 1) b
    refine Nat.lt_succ_iff.mp ((Nat.div_lt_iff_lt_mul hn).mpr ?_)
    rw [Nat.succ_eq_add_one]
    omega
  · have above := Nat.lt_mul_div_succ ((k + 1) * n - 1) hb
    refine (Nat.le_div_iff_mul_le hn).mpr ?_
    rw [Nat.succ_eq_add_one, Nat.mul_comm _ b]
    omega

/-- No block has two owners: a later rank's blocks begin where an earlier one's are over. -/
theorem block_owner_unique {n b k q r : Nat} (hq : q * b / n ≤ k ∧ k < (q + 1) * b / n) (hr : r * b / n ≤ k ∧ k < (r + 1) * b / n) :
    q = r := by
  have later : ∀ i j : Nat, i < j → (i + 1) * b / n ≤ j * b / n := fun i j h => Nat.div_le_div_right (Nat.mul_le_mul_right b h)
  rcases Nat.lt_trichotomy q r with h | h | h
  · have := later q r h
    omega
  · exact h
  · have := later r q h
    omega

/-- A rank's first block is not behind the last one's end, so that its shard begins at a whole block. -/
theorem shard_starts_at_block {r n count : Nat} (hr : r < n) : (shard r n count).1 % 32 = 0 := by
  have hc := blocks_cover count
  have hfirst : r * ceilDiv count 32 / n = 0 ∨ r * ceilDiv count 32 / n < ceilDiv count 32 := by
    rcases Nat.eq_zero_or_pos (ceilDiv count 32) with h | h
    · exact .inl (by rw [h, Nat.mul_zero, Nat.zero_div])
    · exact .inr ((Nat.div_lt_iff_lt_mul (Nat.zero_lt_of_lt hr)).mpr (by rw [Nat.mul_comm]; exact Nat.mul_lt_mul_of_pos_left hr h))
  rw [shard_fst]
  generalize r * ceilDiv count 32 / n = first at hfirst ⊢
  generalize ceilDiv count 32 = b at hfirst hc ⊢
  rw [Nat.min_eq_right (by omega)]
  exact Nat.mul_mod_right 32 first

/-- It ends at a whole block or at the last element. -/
theorem shard_ends_at_block (r n count : Nat) : ((shard r n count).2 % 32 = 0 ∨ (shard r n count).2 = count) ∧ (shard r n count).2 ≤ count := by
  rw [shard_snd]
  generalize (r + 1) * ceilDiv count 32 / n = past
  omega

/-- Settles O57: membership in a shard is membership of the block, which has exactly one owner. -/
theorem shardsSplitTheElements : Obligations.ShardsSplitTheElements := by
  intro n count hn b owns
  refine ⟨blocks_cover count, fun r e _ he => mem_shard_iff he, fun e he => ?_,
    fun r hr => ⟨shard_starts_at_block hr, shard_ends_at_block r n count⟩⟩
  have inBlocks : e / 32 < b := by
    have : count ≤ 32 * b := (blocks_cover count).2
    omega
  obtain ⟨r, hr, mine⟩ := exists_block_owner hn inBlocks
  exact ⟨r, hr, (mem_shard_iff he).mpr mine, fun q _ theirs => block_owner_unique ((mem_shard_iff he).mp theirs) mine⟩

end Sys2Proof.Machine
end

section
/-!
PROOFS. The COORD messages (R116, R205, R206): what reaches the commons of a whole message of its group's generation.
-/

namespace Sys2Proof.Machine

/-- A body that goes to the rank above its sender as a report, or down the tree as a notice: every kind's but KEEPALIVE's and FOLDED's. -/
def CBody.climbs : CBody → Bool
  | .keepalive => false
  | .folded .. => false
  | _ => true

/-- The local rank above a rank, to which that rank's report goes (R116). -/
def Group.rankAbove (g : Group) (rank : Nat) : Nat :=
  match edgeUp g.local_ 8 rank with
  | some (_, parent) => parent
  | none => 0

/-- The bodies of all kinds but 13 and 14 climb (R206). -/
theorem climbs_of_cbody {kind : Nat} {d : List Byte} {b : CBody} (h : cbody kind d = some b) (other : kind ≠ 13 ∧ kind ≠ 14) :
    b.climbs = true := by
  unfold cbody at h
  split at h
  case h_13 => exact absurd rfl other.1
  case h_14 => exact absurd rfl other.2
  case h_16 => cases h
  all_goals obtain rfl := Option.some.inj h
  case h_3 | h_7 => split <;> rfl
  all_goals rfl

/-- A body that climbs is a notice where it has a number, else a report to the rank above its sender (R116). -/
theorem State.takeCoord_of_climbs {s : State} {slot nseq rank key : Nat} {g : Group} {b : CBody} (h : b.climbs = true) :
    s.takeCoord slot g nseq rank key b = if nseq ≠ 0 then s.inboxAdd (.notice slot rank nseq (s.wireKey slot g key b) b)
      else s.inboxAdd (.report slot (g.rankAbove rank) rank (s.wireKey slot g key b) b) := by
  unfold State.takeCoord
  split
  case h_1 | h_2 => cases h
  case h_3 => rfl

/-- A whole message of a kind, of its group and generation, is taken to the commons (R206). -/
theorem State.takeCoordPkt_takes {s u : State} {c kind gen nseq group rank key : Nat} {k : Conn} {p : Packet} {g : Group} {b : CBody} {d : List Byte}
    (svc : 2 ≤ k.svc) (known : 1 ≤ kind ∧ kind ≤ 15) (whole : s.takeMsgBytes c k p = (some d, u)) (len : coordLenOk kind d.length = true)
    (body : cbody kind d = some b) (hg : u.group? k.slot = some g) (hid : g.id = group) (hgen : g.gen = gen) :
    s.takeCoordPkt c k p kind gen nseq group rank key = u.takeCoord k.slot g nseq rank key b := by
  have taken : ¬ (k.svc < 2 ∨ kind = 0 ∨ 15 < kind) := by omega
  simp only [State.takeCoordPkt, if_neg taken, whole, len, Bool.not_true, Bool.false_eq_true, if_false, hg, body, hid, hgen, and_self, if_true]

section
variable {row : Instr} {s u : State} {p : Packet} {kind gen nseq group rank op : Nat} {k : Conn} {g : Group} {b : CBody}
  (h : s.Coord p kind gen nseq group rank op k g b u) (hrow : exec row s = pktRow p (.coord kind gen nseq group rank op) s)

include h in
/-- The kinds with a body are 1 to 15. -/
theorem State.Coord.kind_known : 1 ≤ kind ∧ kind ≤ 15 := by
  obtain ⟨_, _, _, d, _, _, _, _, body, _⟩ := h
  unfold cbody at body
  split at body
  case h_16 => cases body
  all_goals decide

include h in
theorem State.Coord.climbs (other : kind ≠ 13 ∧ kind ≠ 14) : b.climbs = true := by
  obtain ⟨_, _, _, _, _, _, _, _, body, _⟩ := h
  exact climbs_of_cbody body other

include h hrow

/-- The row of a COORD message does what the commons does with it, and the device settles. -/
theorem coordRow_settles {P : State → Prop} (hp : P (u.takeCoord k.slot g nseq rank op b)) : Settles row s P := by
  have known := h.kind_known
  obtain ⟨c, q, v, d, takes, svc, whole, len, body, hg, hid, hgen⟩ := h
  refine takes_settles takes hrow (by simp) (by simp) (by simp) ?_
  have toCommons : v.takePkt c k q = v.takeCoordPkt c k q kind gen nseq group rank op := by simp only [State.takePkt, takes.ext]
  rwa [toCommons, State.takeCoordPkt_takes svc known whole len body hg hid hgen]

theorem coordRow_notice (other : kind ≠ 13 ∧ kind ≠ 14) (numbered : nseq ≠ 0) :
    Settles row s fun v => v = u.inboxAdd (.notice k.slot rank nseq (u.wireKey k.slot g op b) b) :=
  coordRow_settles h hrow ((State.takeCoord_of_climbs (h.climbs other)).trans (if_pos numbered))

end

theorem coordRow_report {row : Instr} {s u : State} {p : Packet} {kind gen group rank op : Nat} {k : Conn} {g : Group} {b : CBody}
    (h : s.Coord p kind gen 0 group rank op k g b u) (hrow : exec row s = pktRow p (.coord kind gen 0 group rank op) s)
    (other : kind ≠ 13 ∧ kind ≠ 14) :
    Settles row s fun v => v = u.inboxAdd (.report k.slot (g.rankAbove rank) rank (u.wireKey k.slot g op b) b) :=
  coordRow_settles h hrow (State.takeCoord_of_climbs (h.climbs other))

/-- The producer's answer goes to it under the operation's number (R104). -/
theorem coordRow_folded {row : Instr} {s u : State} {p : Packet} {gen nseq group rank op : Nat} {k : Conn} {g : Group} {b : CBody}
    (h : s.Coord p 13 gen nseq group rank op k g b u) (hrow : exec row s = pktRow p (.coord 13 gen nseq group rank op) s) :
    Settles row s fun v => v = u.inboxAdd (.folded k.slot rank (u.opKey k.slot op) b) := by
  refine coordRow_settles h hrow ?_
  obtain ⟨_, _, _, d, _, _, _, _, body, _⟩ := h
  obtain rfl := Option.some.inj body
  rfl

theorem coordRow_keepalive {row : Instr} {s u : State} {p : Packet} {gen nseq group rank op : Nat} {k : Conn} {g : Group} {b : CBody}
    (h : s.Coord p 14 gen nseq group rank op k g b u) (hrow : exec row s = pktRow p (.coord 14 gen nseq group rank op) s) :
    Settles row s fun v => v = u := by
  refine coordRow_settles h hrow ?_
  obtain ⟨_, _, _, d, _, _, _, _, body, _⟩ := h
  obtain rfl := Option.some.inj body
  rfl

/-- Settles O12: a report of kinds 1, 3, 4, 6, 9, a notice of kinds 2, 5, 7, 8, 10, either of kinds 11, 12, 15, and the two that do not climb. -/
theorem coordMessagesArrive : Obligations.CoordMessagesArrive := by
  intro s u p gen nseq group rank op k g b report notice taken
  have up : ∀ {row : Instr} (kind : Nat), exec row s = pktRow p (.coord kind gen 0 group rank op) s → kind ≠ 13 ∧ kind ≠ 14 →
      taken kind 0 → Settles row s report := fun _ hrow other h => coordRow_report h hrow other
  have down : ∀ {row : Instr} (kind : Nat), exec row s = pktRow p (.coord kind gen nseq group rank op) s → kind ≠ 13 ∧ kind ≠ 14 →
      taken kind nseq → nseq ≠ 0 → Settles row s notice := fun _ hrow other h numbered => coordRow_notice h hrow other numbered
  exact ⟨up 1 rfl (by decide), down 2 rfl (by decide), up 3 rfl (by decide), up 4 rfl (by decide),
    down 5 rfl (by decide), up 6 rfl (by decide), down 7 rfl (by decide), down 8 rfl (by decide),
    up 9 rfl (by decide), down 10 rfl (by decide), up 11 rfl (by decide), down 11 rfl (by decide),
    up 12 rfl (by decide), down 12 rfl (by decide), fun h => coordRow_folded h rfl, fun h => coordRow_keepalive h rfl,
    up 15 rfl (by decide), down 15 rfl (by decide)⟩

end Sys2Proof.Machine
end

section
/-!
PROOFS. The group commands (R113, R118, R150, R151): how each ends, and what it leaves of the record it selects.
-/

namespace Sys2Proof.Machine

/-! ### The session's access, and how a command ends -/

@[simp] theorem State.touchSession_cmn (s : State) : s.touchSession.cmn = s.cmn := by
  rcases s.touchSession_cases with h | ⟨_, _, h⟩ <;> rw [h]

@[simp] theorem State.touchSession_bxt (s : State) : s.touchSession.bxt = s.bxt := by
  rcases s.touchSession_cases with h | ⟨_, _, h⟩ <;> rw [h]

@[simp] theorem State.touchSession_opsOpen (s : State) (slot : Nat) : s.touchSession.opsOpen slot = s.opsOpen slot := by
  simp only [State.opsOpen, State.touchSession_cmn]

@[simp] theorem State.touchSession_devAddr (s : State) : s.touchSession.devAddr = s.devAddr := s.touchSession_rd _ _

@[simp] theorem State.touchSession_hasPrefix (s : State) : s.touchSession.hasPrefix = s.hasPrefix := by
  simp only [State.hasPrefix, State.touchSession_rd]

/-- What CMN_GRP_STATUS shows of a command that has ended with a reason of R150. -/
theorem State.grpResult_shows (s : State) {reason : Nat} (small : reason < 16) :
    (s.grpResult reason).rd F.CMN_GRP_STATUS_done = b2n (reason == 0) ∧ (s.grpResult reason).rd F.CMN_GRP_STATUS_refused = b2n (reason != 0) ∧
      (s.grpResult reason).rd F.CMN_GRP_STATUS_reason = reason ∧ (s.grpResult reason).rd F.CMN_GRP_STATUS_busy = 0 := by
  have bit : ∀ b : Bool, b2n b % 2 = b2n b := by decide
  unfold State.grpResult
  refine ⟨?_, ?_, ?_, State.rd_wr_self _ _ _ _ (by decide)⟩
  · rw [State.rd_wr_apart _ F.CMN_GRP_STATUS_done F.CMN_GRP_STATUS_busy _ _ rfl (by decide) (by decide),
      State.rd_wr_apart _ F.CMN_GRP_STATUS_done F.CMN_GRP_STATUS_reason _ _ rfl (by decide) (by decide),
      State.rd_wr_apart _ F.CMN_GRP_STATUS_done F.CMN_GRP_STATUS_refused _ _ rfl (by decide) (by decide), State.rd_wr_self _ _ _ _ (by decide)]
    exact bit _
  · rw [State.rd_wr_apart _ F.CMN_GRP_STATUS_refused F.CMN_GRP_STATUS_busy _ _ rfl (by decide) (by decide),
      State.rd_wr_apart _ F.CMN_GRP_STATUS_refused F.CMN_GRP_STATUS_reason _ _ rfl (by decide) (by decide), State.rd_wr_self _ _ _ _ (by decide)]
    exact bit _
  · rw [State.rd_wr_apart _ F.CMN_GRP_STATUS_reason F.CMN_GRP_STATUS_busy _ _ rfl (by decide) (by decide), State.rd_wr_self _ _ _ _ (by decide)]
    exact Nat.mod_eq_of_lt small

@[simp] theorem State.cmn_grpResult (s : State) (reason : Nat) : (s.grpResult reason).cmn = s.cmn := rfl
@[simp] theorem State.mem_grpResult (s : State) (reason : Nat) : (s.grpResult reason).mem = s.mem := rfl

/-- The records are the commons'. -/
theorem State.group?_of_cmn {s t : State} (h : t.cmn = s.cmn) (slot : Nat) : t.group? slot = s.group? slot := by simp only [State.group?, h]

@[simp] theorem State.touchSession_group? (s : State) (slot : Nat) : s.touchSession.group? slot = s.group? slot :=
  State.group?_of_cmn s.touchSession_cmn slot

/-- What it shows of a command given while another runs (R150). -/
theorem State.grpBusy_shows (s : State) : s.grpBusy.rd F.CMN_GRP_STATUS_refused = 1 ∧ s.grpBusy.rd F.CMN_GRP_STATUS_reason = 7 :=
  ⟨(State.rd_wr_apart _ F.CMN_GRP_STATUS_refused F.CMN_GRP_STATUS_reason _ _ rfl (by decide) (by decide)).trans
      (State.rd_wr_self _ _ _ _ (by decide)),
    State.rd_wr_self _ _ _ _ (by decide)⟩

/-! ### INSTALL (R113, R150) -/

/-- The member table in the window, as words and as members. -/
def State.tableWords (s : State) : List Nat := (List.range (s.rd F.CMN_GRP_ARG1_size)).map fun i => Tbl.getD s.cmn.window i 0
def State.tableMembers (s : State) : List Member := s.tableWords.map memberOf

/-- The selected slot is free, and the table in the window is one that R113 accepts for one local rank of an unencrypted group. -/
structure State.Installable (s : State) (slot : Nat) : Prop where
  idle : s.rd F.CMN_GRP_STATUS_busy = 0
  sel : s.rd F.CMN_GRP_SEL_slot = slot
  vacant : s.group? slot = none
  unused : (s.cmn.groups.any fun q => q.1 != slot && q.2.id == s.rd F.CMN_GRP_ARG0_group_id) = false
  one : s.rd F.CMN_GRP_ARG3_rank_b_valid = 0
  clear : s.rd F.CMN_GRP_ARG3_enc = 0
  nonempty : 0 < s.tableMembers.length
  few : s.tableMembers.length ≤ 65536
  good : badTable s.tableMembers s.tableWords = false
  own : (s.tableMembers[s.rd F.CMN_GRP_ARG2_rank_a]?).map (fun m => (m.dev, m.vf)) = some (s.devAddr, s.rd F.CMN_GRP_ARG3_vf)
  only : ((List.range s.tableMembers.length).filter fun r => (s.tableMembers.getD r ⟨0, 0, 0, 0, false⟩).dev == s.devAddr).length = 1

/-- The record that INSTALL makes of such a table. -/
def State.newRecord (s : State) : Group :=
  { id := s.rd F.CMN_GRP_ARG0_group_id, gen := s.rd F.CMN_GRP_ARG0_generation, vf := s.rd F.CMN_GRP_ARG3_vf, enc := false,
    txSlot := s.rd F.CMN_GRP_KEYS_tx_slot, rxSlot := s.rd F.CMN_GRP_KEYS_rx_slot, members := s.tableMembers,
    local_ := [s.rd F.CMN_GRP_ARG2_rank_a], state := .installed, fresh := true, reformed := false, activating := false, lastStep := 0, seq := 0,
    nseq := 1, due := [], early := [], gaths := [], bells := [], ended := [], lost := [], since := 0, record := none, unsent := [], copies := [],
    probeRef := [], recon := [], expect := [] }

@[simp] theorem State.touchSession_tableWords (s : State) : s.touchSession.tableWords = s.tableWords := by
  simp only [State.tableWords, State.touchSession_rd, State.touchSession_cmn]

@[simp] theorem State.touchSession_tableMembers (s : State) : s.touchSession.tableMembers = s.tableMembers := by
  simp only [State.tableMembers, State.touchSession_tableWords]

@[simp] theorem State.touchSession_newRecord (s : State) : s.touchSession.newRecord = s.newRecord := by
  simp only [State.newRecord, State.touchSession_rd, State.touchSession_tableMembers]

/-- The access of the session's holder leaves what INSTALL judges. -/
theorem State.Installable.touchSession {s : State} {slot : Nat} (h : s.Installable slot) : s.touchSession.Installable slot := by
  obtain ⟨idle, sel, vacant, unused, one, clear, nonempty, few, good, own, only⟩ := h
  constructor <;> simpa only [State.touchSession_rd, State.touchSession_cmn, State.touchSession_group?, State.touchSession_devAddr,
    State.touchSession_tableMembers, State.touchSession_tableWords]

theorem State.install_records {s : State} {slot : Nat} (h : s.Installable slot) :
    s.install = (((s.setGroup slot s.newRecord).turnBinds slot).bump F.CMN_REFORMS).grpResult 0 := by
  obtain ⟨idle, sel, vacant, unused, one, clear, nonempty, few, good, own, only⟩ := h
  obtain ⟨m, hm, mine⟩ := Option.map_eq_some_iff.mp own
  obtain ⟨dev, vf⟩ := Prod.mk.inj mine
  have size : s.tableMembers.length = s.rd F.CMN_GRP_ARG1_size := by simp [State.tableMembers, State.tableWords]
  have inTable := (List.getElem?_eq_some_iff.mp hm).1
  have found : s.tableMembers.getD (s.rd F.CMN_GRP_ARG2_rank_a) ⟨0, 0, 0, 0, false⟩ = m := by simp [hm]
  rw [size] at nonempty few inTable only
  have table : ¬(s.rd F.CMN_GRP_ARG1_size = 0 ∨ 65536 < s.rd F.CMN_GRP_ARG1_size ∨ badTable s.tableMembers s.tableWords = true) := by
    simp only [good, Bool.false_eq_true, or_false]
    omega
  have words : (List.range (s.rd F.CMN_GRP_ARG1_size)).map (fun i => Tbl.getD s.cmn.window i 0) = s.tableWords := rfl
  have members : s.tableWords.map memberOf = s.tableMembers := rfl
  simp only [State.install, idle, sel, vacant, unused, one, clear, words, members, if_neg table, Nat.reduceBEq, Bool.false_eq_true, Nat.zero_ne_one,
    false_and, or_false, if_false, List.any_cons, List.any_nil, found, dev, vf, only, bne_self_eq_false, Bool.or_false, decide_eq_true_eq,
    Nat.not_le.mpr inTable, List.length_singleton, ne_eq, not_true_eq_false]
  rfl

/-- Turning the tables bound for a copy changes nothing but the mill. -/
theorem State.turnBinds_mill (s : State) (slot : Nat) : ∃ m : MillSt, s.turnBinds slot = { s with mill := m } := by
  unfold State.turnBinds
  split
  · exact ⟨s.mill, rfl⟩
  · exact ⟨_, rfl⟩

theorem State.install_leaves {s : State} {slot : Nat} (h : s.Installable slot) :
    s.install.group? slot = some s.newRecord ∧ s.install.mem = s.mem := by
  rw [State.install_records h]
  generalize s.newRecord = g
  obtain ⟨m, turned⟩ := (s.setGroup slot g).turnBinds_mill slot
  rw [turned]
  constructor
  · refine (State.group?_of_cmn (s := s.setGroup slot g) ?_ slot).trans (State.group?_setGroup_self s slot g)
    simp only [State.cmn_grpResult, State.cmn_bump]
  · simp only [State.mem_grpResult, State.mem_bump, State.mem_setGroup]

theorem State.install_shows {s : State} {slot : Nat} (h : s.Installable slot) : s.install.rd F.CMN_GRP_STATUS_done = 1 ∧
    s.install.rd F.CMN_GRP_STATUS_refused = 0 ∧ s.install.rd F.CMN_GRP_STATUS_reason = 0 := by
  rw [State.install_records h]
  obtain ⟨done, refused, reason, -⟩ := State.grpResult_shows (((s.setGroup slot s.newRecord).turnBinds slot).bump F.CMN_REFORMS) (reason := 0)
    (by decide)
  exact ⟨done, refused, reason⟩

/-! ### ACTIVATE and its two ends (R118) -/

/-- ACTIVATE of a record whose parents' connections can be opened runs. -/
theorem State.activate_runs {s u : State} {slot : Nat} {g : Group} (idle : s.rd F.CMN_GRP_STATUS_busy = 0) (sel : s.rd F.CMN_GRP_SEL_slot = slot)
    (hg : s.group? slot = some g) (fresh : g.fresh = true) (pfx : s.hasPrefix = true)
    (parents : (s.closeCmn slot (some g.gen)).openParents slot g ((s.closeCmn slot (some g.gen)).parentEdges g) = some u) :
    s.activate = (((u.setGroup slot { g with activating := true }).wr F.CMN_GRP_STATUS_busy 1).wr F.CMN_GRP_STATUS_done 0).wr
      F.CMN_GRP_STATUS_refused 0 := by
  simp only [State.activate, sel, idle, hg, fresh, pfx, parents, Nat.zero_ne_one, Bool.not_true, Bool.false_eq_true, and_false, if_false]

/-- ACTIVATE_COMPLETE of a group that is not re-formed: its record is ACTIVE. -/
theorem State.activateDone_completes {s : State} {slot : Nat} {g : Group} (hg : s.group? slot = some g) (runs : g.activating = true)
    (opened : s.coordOpen slot g = true) (first : g.reformed = false) : s.activateDone slot =
    (s.setGroup slot { g with state := .active, fresh := false, activating := false, reformed := false }).grpResult 0 := by
  simp [State.activateDone, hg, runs, opened, first]

/-- ACTIVATE_TIMEOUT of a group whose connections are not all open. -/
theorem State.activateTimeout_refuses {s : State} {slot : Nat} {g : Group} (hg : s.group? slot = some g) (runs : g.activating = true)
    (missing : s.coordOpen slot g = false) :
    s.activateTimeout slot = ((s.setGroup slot { g with activating := false }).closeCmn slot none).grpResult 8 := by
  simp [State.activateTimeout, hg, runs, missing]

/-! ### DISSOLVE (R151) -/

theorem State.dissolve_frees {s : State} {slot : Nat} {g : Group} (idle : s.rd F.CMN_GRP_STATUS_busy = 0) (sel : s.rd F.CMN_GRP_SEL_slot = slot)
    (hg : s.group? slot = some g) (noneOpen : s.opsOpen slot = 0) : s.dissolve = (s.dissolveGroup slot).grpResult 0 := by
  simp [State.dissolve, sel, idle, hg, noneOpen]

theorem State.group?_dissolveGroup_self (s : State) (slot : Nat) : (s.dissolveGroup slot).group? slot = none := by
  rw [State.group?, State.dissolveGroup, Tbl.get?_erase, if_pos rfl]

/-! ### The rows -/

/-- A command of the manager's, from a session that holds the role. -/
theorem managerRow_completes {c : Instr} {s : State} {f : State → State} {P : State → Prop} (hrun : s.power = .run) (hm : s.manages false = true)
    (hrow : exec c s = act s (asManager false f)) (p : P ((f s.touchSession).requeue s.pending)) : Completes c s P :=
  completes_act hrun hrow (by rwa [asManager_of_manages hm])

/-- A group command given while another runs is refused, and the records stay (R150 reason 7). -/
theorem grpRow_busy {c : Instr} {s : State} {f : State → State} (hrun : s.power = .run) (hm : s.manages false = true)
    (hrow : exec c s = act s (asManager false f)) (busy : f s.touchSession = s.touchSession.grpBusy) :
    Completes c s fun t => t.rd F.CMN_GRP_STATUS_refused = 1 ∧ t.rd F.CMN_GRP_STATUS_reason = 7 ∧ t.cmn = s.cmn ∧ t.bxt = s.bxt := by
  obtain ⟨refused, reason⟩ := s.touchSession.grpBusy_shows
  refine managerRow_completes hrun hm hrow ?_
  rw [busy]
  exact ⟨refused, reason, s.touchSession_cmn, s.touchSession_bxt⟩

/-- Settles O11: each command's own effect on the state that the access of the session's holder leaves, and what that shows. -/
theorem groupRecords : Obligations.GroupRecords := by
  intro s slot hrun
  refine ⟨fun hm => ⟨managerRow_completes hrun hm rfl rfl, managerRow_completes hrun hm rfl rfl, managerRow_completes hrun hm rfl rfl⟩,
    ⟨completes_act (f := fun s => (s.activateDone slot).cmnRun) hrun rfl rfl,
      completes_act (f := fun s => s.activateTimeout slot) hrun rfl rfl⟩,
    ?install, ?activate, ?complete, ?timeout, ?dissolve, ?busy⟩
  case install =>
    intro idle sel vacant unused one clear raw ms a nonempty few good own only hm
    have table : s.touchSession.Installable slot :=
      State.Installable.touchSession ⟨idle, sel, vacant, unused, one, clear, nonempty, few, good, own, only⟩
    obtain ⟨record, mem⟩ := State.install_leaves table
    obtain ⟨done, refused, reason⟩ := State.install_shows table
    rw [s.touchSession_newRecord] at record
    exact managerRow_completes hrun hm rfl
      ⟨done, refused, reason, congrArg (Option.map _) record, congrArg (Option.map _) record, mem.trans s.touchSession_mem⟩
  case activate =>
    intro g u idle sel hg fresh pfx hm v parents
    refine managerRow_completes hrun hm rfl ?_
    rw [State.activate_runs (by rwa [s.touchSession_rd]) (by rwa [s.touchSession_rd]) (by rwa [s.touchSession_group?]) fresh
      (by rwa [s.touchSession_hasPrefix]) parents]
    refine ⟨?_, congrArg (Option.map _) (State.group?_setGroup_self u slot _)⟩
    calc _ = ((u.setGroup slot { g with activating := true }).wr F.CMN_GRP_STATUS_busy 1).rd F.CMN_GRP_STATUS_busy :=
          (State.rd_wr_apart _ F.CMN_GRP_STATUS_busy F.CMN_GRP_STATUS_refused _ _ rfl (by decide) (by decide)).trans
            (State.rd_wr_apart _ F.CMN_GRP_STATUS_busy F.CMN_GRP_STATUS_done _ _ rfl (by decide) (by decide))
      _ = 1 := State.rd_wr_self _ _ _ _ (by decide)
  case complete =>
    intro g hg runs opened first
    refine deals_act (f := fun s => s.activateDone slot) hrun rfl ?_
    rw [State.activateDone_completes hg runs opened first]
    obtain ⟨done, -, reason, busy⟩ := State.grpResult_shows (s.setGroup slot _) (reason := 0) (by decide)
    refine ⟨done, busy, reason, ?_⟩
    rw [State.group?_of_cmn (State.cmn_grpResult _ _), State.group?_setGroup_self]
    rfl
  case timeout =>
    intro g hg runs missing
    refine completes_act (f := fun s => s.activateTimeout slot) hrun rfl ?_
    rw [State.activateTimeout_refuses hg runs missing]
    obtain ⟨-, refused, reason, busy⟩ := State.grpResult_shows ((s.setGroup slot _).closeCmn slot none) (reason := 8) (by decide)
    exact ⟨refused, busy, reason⟩
  case dissolve =>
    intro g idle sel hg noneOpen hm
    refine managerRow_completes hrun hm rfl ?_
    rw [State.dissolve_frees (slot := slot) (by rwa [s.touchSession_rd]) (by rwa [s.touchSession_rd]) (by rwa [s.touchSession_group?])
      (by rwa [s.touchSession_opsOpen])]
    obtain ⟨done, -, reason, -⟩ := (s.touchSession.dissolveGroup slot).grpResult_shows (reason := 0) (by decide)
    exact ⟨done, reason, s.touchSession.group?_dissolveGroup_self slot⟩
  case busy =>
    intro busy hm refused
    have runs : s.touchSession.rd F.CMN_GRP_STATUS_busy = 1 := by rwa [s.touchSession_rd]
    exact ⟨grpRow_busy hrun hm rfl (by simp [State.install, runs]), grpRow_busy hrun hm rfl (by simp [State.activate, runs]),
      grpRow_busy hrun hm rfl (by simp [State.dissolve, runs])⟩

end Sys2Proof.Machine
end

section
/-!
PROOFS. The entries of the commons (R125, R242-R244): COLL and STEP from the group's next operation to what opens, and MILL_BIND.
-/

namespace Sys2Proof.Machine

/-! ### What a fetched entry reaches -/

theorem State.key_of_fetched? {s : State} {key count n : Nat} {e : Fetched} (h : s.fetched? key count n = some e) : e.key = key := by
  have found := List.find?_some h
  simp only [Bool.and_eq_true, beq_iff_eq] at found
  obtain ⟨⟨hkey, -⟩, -⟩ := found
  exact hkey

/-- The entry e of a ring with opcode n may start as the next operation of the group g in slot `slot`, which is bound to its VF and ACTIVE;
taking it off the fetched entries leaves u (R112, R114, R151, R237, R261, R382). -/
structure State.GroupEntry (s : State) (key count n slot : Nat) (e : Fetched) (g : Group) (u : State) : Prop where
  run : s.power = .run
  waits : s.fetched? key count n = some e
  unfenced : s.fenceClear e = true
  free : s.groupHolds e = false
  taken : u = s.unfetch e
  target : (descHdr e.desc).target < 65536
  named : u.groupById (descHdr e.desc).target = some (slot, g)
  owned : g.vf = ringVf key
  active : g.state = .active
  tag : u.tenantOk (ringVf key) (descHdr e.desc) (needsTag n e (descHdr e.desc)) = true
  going : u.fencedInst (ringVf key) (u.rd F.PTN_INST_partition (ringVf key)) = false
  cls : (descHdr e.desc).cls ≠ 0
  body : bodyZero n e.desc = true
  room : u.opsOpen slot < 64

/-- The group has counted an operation that it starts (R125). -/
def State.counted (s : State) (slot : Nat) (g : Group) : State := s.setGroup slot { g with seq := g.seq + 1 }

theorem onGroup_starts {s u : State} {key count n slot : Nat} {e : Fetched} {g : Group} (h : s.GroupEntry key count n slot e g u)
    (k : State → Fetched → DescHdr → Nat → Group → State) :
    onGroup key count n s k = .next ((k (u.counted slot g) e (descHdr e.desc) slot g).requeue s.pending) := by
  obtain ⟨run, waits, unfenced, free, rfl, target, named, owned, active, tag, going, cls, body, room⟩ := h
  refine (act_run run _).trans ?_
  simp only [waits, unfenced, free, Nat.mod_eq_of_lt target, named, owned, active, tag, going, cls, body, Nat.not_le.mpr target, Nat.not_le.mpr room,
    Bool.not_true, Bool.false_eq_true, ne_eq, not_true_eq_false, false_and, or_self, if_false, decide_false, State.counted]

/-- An entry of a group starts, and the commons takes up what follows. -/
theorem groupRow_deals {row : Instr} {s u : State} {key count n slot : Nat} {e : Fetched} {g : Group} {P : State → Prop}
    {k : State → Fetched → DescHdr → Nat → Group → State} (h : s.GroupEntry key count n slot e g u)
    (hrow : exec row s = onGroup key count n s fun s f h slot g => (k s f h slot g).cmnRun)
    (p : P (k (u.counted slot g) e (descHdr e.desc) slot g)) : Deals row s P :=
  ⟨_, hrow.trans (onGroup_starts h _), _, rfl, p⟩

theorem State.runEntry_runs {s u : State} {key count n : Nat} {e : Fetched} (h : s.Entry key count n e u)
    (f : State → Fetched → DescHdr → State) : s.runEntry key count n f = f u e (descHdr e.desc) := by
  obtain ⟨_, waits, unfenced, rfl, going, body, room⟩ := h
  have fenced : ¬(key ≠ ctlKey ∧ (s.unfetch e).fencedInst (ringVf key) ((s.unfetch e).rd F.PTN_INST_partition (ringVf key)) = true) := by
    rintro ⟨tenant, fenced⟩
    exact going.elim tenant fun clear => by simp [clear] at fenced
  have full : ¬((!judgedLater n) = true ∧ (s.unfetch e).flightFull = true) := by
    rintro ⟨here, full⟩
    obtain later | empty := room
    · simp [later] at here
    · simp [empty] at full
  simp only [State.runEntry, waits, unfenced, body, Bool.not_true, Bool.false_eq_true, if_false, if_neg fenced, if_neg full, and_false]

/-! ### An operation opens (R125, R273) -/

theorem Tbl.get?_modify_self {α : Type} (t : Tbl α) (q : Nat) (f : α → α) : Tbl.get? (Tbl.modify t q f) q = (Tbl.get? t q).map f := by
  unfold Tbl.modify
  cases h : Tbl.get? t q with
  | none => simp [h]
  | some v => simp [Tbl.get?_set_self]

theorem State.op?_modOp_self (s : State) (id : Nat) (f : Op → Op) : (s.modOp id f).op? id = (s.op? id).map f := Tbl.get?_modify_self _ _ _

/-- What an operation holds of its place among those in flight. -/
def Op.place (o : Op) : Nat × OpPhase × Bool := (o.count, o.phase, o.inFlight)

theorem State.newOp_place (s : State) (f : Fetched) (a : Admitted) (phase : OpPhase) (length : Nat) :
    ((s.newOp f a phase length).2.op? (s.newOp f a phase length).1).map Op.place = some (f.count, phase, true) :=
  congrArg (Option.map Op.place) (Tbl.get?_set_self _ _ _)

theorem State.newOp_cmn (s : State) (f : Fetched) (a : Admitted) (phase : OpPhase) (length : Nat) : (s.newOp f a phase length).2.cmn = s.cmn := rfl
theorem State.newOp_mem (s : State) (f : Fetched) (a : Admitted) (phase : OpPhase) (length : Nat) : (s.newOp f a phase length).2.mem = s.mem := rfl

/-- An operation without pool slots streams, and says so (R102). -/
def State.noteStream (s : State) (id : Nat) : State :=
  ((s.bump F.TAL_STREAM_OPS).modOp id fun o => { o with cqe := { o.cqe with stream := true } }).recordCause id 7

theorem State.noteStream_place (s : State) (id : Nat) : ((s.noteStream id).op? id).map Op.place = (s.op? id).map Op.place := by
  rw [State.noteStream, State.recordCause, State.op?_modOp_self, State.op?_modOp_self, Option.map_map, Option.map_map]
  rfl

/-- A report of START adds to the messages between the ranks of this device, and to nothing else. -/
theorem State.reportStart_inbox (s : State) (slot : Nat) (g : Group) (key : Nat) (f : StartF) :
    ∃ l : List CMsg, s.reportStart slot g key f = { s with cmn := { s.cmn with inbox := l } } := by
  refine List.foldlRecOn g.local_ _ (motive := fun t => ∃ l : List CMsg, t = { s with cmn := { s.cmn with inbox := l } }) ⟨s.cmn.inbox, rfl⟩ ?_
  rintro _ ⟨l, rfl⟩ r -
  exact ⟨_, rfl⟩

/-- From w to z the collective c has opened for the entry e: a running operation in flight, and memory as it was. -/
def CollOpened (e : Fetched) (c : Coll) (w z : State) : Prop :=
  (∃ id : Nat, z.cmn.colls = w.cmn.colls ++ [{ c with op := id }] ∧ (z.op? id).map Op.place = some (e.count, .running, true)) ∧ z.mem = w.mem

theorem State.openColl_opens (s : State) (f : Fetched) (x : COp) (c : Coll) (a : Admitted) (count crc : Nat) :
    CollOpened f c s (s.openColl f x c a count crc) := by
  have cmn := s.newOp_cmn f a .running (s.collCharge x).tokens
  have mem := s.newOp_mem f a .running (s.collCharge x).tokens
  have place := s.newOp_place f a .running (s.collCharge x).tokens
  unfold State.openColl
  dsimp only
  generalize s.newOp f a .running (s.collCharge x).tokens = q at cmn mem place ⊢
  obtain ⟨id, w⟩ := q
  obtain ⟨l, reported⟩ := State.reportStart_inbox _ _ _ _ _
  rw [reported]
  split
  · exact ⟨⟨id, congrArg (·.colls ++ _) cmn, (w.noteStream_place id).trans place⟩, mem⟩
  · exact ⟨⟨id, congrArg (·.colls ++ _) cmn, place⟩, mem⟩

/-! ### COLL and STEP (R242, R243) -/

/-- An operation with a place in flight, chunks that fit, its slots and the gatekeeper's admission opens (R102, R263, R270, R288). -/
theorem State.admitColl_admits {s v w : State} {f : Fetched} {h : DescHdr} {x : COp} {c : Coll} {a : Admitted} (count crc : Nat)
    (room : s.flightFull = false) (fits : s.chunksFit x = true) (slots : s.reserveColl x (slotsAsked h) = some (c, v))
    (gate : v.gateIn x.o.vf x.o.part x.o.cls (v.collCharge x) = (.ok a, w)) : s.admitColl f h x count crc = w.openColl f x c a count crc := by
  simp only [State.admitColl, room, fits, slots, gate, Bool.not_true, Bool.false_eq_true, if_false]

theorem State.collStart_admits {s : State} {f : Fetched} {h : DescHdr} {slot : Nat} {g : Group}
    (good : (cpOf f.desc).badPlain g (s.chunkLogOf h) = false) : s.collStart f h slot g =
      s.admitColl f h (s.copOf f h g (coll0 slot g.seq g.seq false (s.chooseAlgo (cpOf f.desc).co (cpOf f.desc).algo (g.members.map (·.tray)))
        ((s.chunkLogOf h).getD 16))) (cpOf f.desc).count 0 := by
  simp only [State.collStart, good, Bool.false_eq_true, if_false]

/-- The operation of a STEP before its memory has been read. -/
def State.stepOp (s : State) (f : Fetched) (h : DescHdr) (slot : Nat) (g : Group) : COp :=
  s.copOf f h g (coll0 slot (stepKey (cpOf f.desc).step) g.seq true (s.chooseAlgo 8 (cpOf f.desc).algo (g.members.map (·.tray)))
    ((s.chunkLogOf h).getD 16))

/-- The operation of a STEP with the plan, the descriptors and the scalars read for it, and its copies at their first bundle. -/
def State.readStep (s : State) (x : COp) (plan : List PlanRec) (ds : Tbl (List MillDesc)) (sc : List Nat) (bStart : Nat) : COp :=
  { x with c := { x.c with plan := plan, descs := ds, scalars := sc, committed := bStart,
                           copies := (s.copiesHeld x.g).foldl (fun t k => Tbl.set t k (copy0 bStart)) [] } }

/-- What a STEP reads before it asks to be admitted, and that every check of it passes (R152, R165, R193, R243). -/
structure State.StepReads (s : State) (f : Fetched) (h : DescHdr) (slot : Nat) (g : Group) (plan : List PlanRec) (ds : Tbl (List MillDesc))
    (sc : List Nat) (scalB : List Byte) (v : State) : Prop where
  fields : (cpOf f.desc).badStep g (s.chunkLogOf h) = false
  reads : ∃ (tabs : List (Nat × Nat × Nat)) (planB : List Byte) (ts : List (List Byte)) (u : State),
    s.tablesOf (s.stepOp f h slot g) = some tabs ∧
    s.readOperands f.key false [(h.tag, fieldLE f.desc 16 8, 256 * (cpOf f.desc).bundles), (h.tag, fieldLE f.desc 24 8, 128)] =
      (.ok [planB, scalB], u) ∧
    u.readOperands f.key true (tabs.map fun q => (q.2.1, q.2.2, 64 * (cpOf f.desc).bundles)) = (.ok ts, v) ∧
    allSome ((List.range (cpOf f.desc).bundles).map fun b => planRec (slice planB (256 * b) 256)) = some plan ∧
    v.stepTables (s.stepOp f h slot g) plan ((tabs.map Prod.fst).zip ts) scalB = some (ds, sc)
  aligned : fieldLE f.desc 16 8 % 4096 = 0
  bundles : plan.any ((cpOf f.desc).badBundle g) = false
  next : g.stepOk (cpOf f.desc).step (cpOf f.desc).bStart = true

theorem State.stepStart_admits {s v : State} {f : Fetched} {h : DescHdr} {slot : Nat} {g : Group} {plan : List PlanRec} {ds : Tbl (List MillDesc)}
    {sc : List Nat} {scalB : List Byte} (r : s.StepReads f h slot g plan ds sc scalB v) : s.stepStart f h slot g =
      (false, v.admitColl f h (v.readStep (s.stepOp f h slot g) plan ds sc (cpOf f.desc).bStart) (cpOf f.desc).bundles (crc32c scalB)) := by
  obtain ⟨fields, ⟨tabs, planB, ts, u, tables, operands, tableBytes, planned, checked⟩, aligned, bundles, next⟩ := r
  unfold State.stepOp at tables checked ⊢
  simp only [State.stepStart, fields, tables, operands, tableBytes, planned, checked, aligned, bundles, next, List.headD_cons, Bool.false_eq_true,
    if_false, Bool.not_true, ne_eq, not_true_eq_false, List.getD_cons_succ, List.getD_cons_zero]
  rfl

/-- What host reads have delivered of a STEP's plan and scalars is forgotten. -/
def State.forgetStep (s : State) (f : Fetched) (h : DescHdr) : State :=
  let part := s.rd F.PTN_INST_partition (ringVf f.key)
  (s.forgetRange part (ringVf f.key) h.tag (fieldLE f.desc 16 8) (256 * (cpOf f.desc).bundles)).forgetRange part (ringVf f.key) h.tag
    (fieldLE f.desc 24 8) 128

theorem State.stepEntry_forgets {s w : State} {f : Fetched} {h : DescHdr} {slot : Nat} {g : Group} (started : s.stepStart f h slot g = (false, w)) :
    s.stepEntry f h slot g = w.forgetStep f h := by
  simp only [State.stepEntry, started, State.forgetStep]

/-- What is forgotten of host reads is the host ports' alone. -/
theorem CollOpened.forgetStep {e : Fetched} {c : Coll} {w z : State} (o : CollOpened e c w z) (f : Fetched) (h : DescHdr) :
    CollOpened e c w (z.forgetStep f h) := o

/-! ### MILL_BIND (R188, R244) -/

/-- The table of a copy that MILL_BIND names. -/
def bindOf (slot : Nat) (d : List Byte) (tag : Nat) : Bind :=
  ⟨slot, fieldLE d 24 2, bitAt (fieldLE d 28 1) 0, tag, fieldLE d 16 8, fieldLE d 26 2 + 1,
    if bitAt (fieldLE d 28 1) 1 then (List.range (fieldLE d 26 2 + 1)).map fun k => (k, 1) else []⟩

/-- A table takes the place of the one bound to its copy before. -/
def State.putBind (s : State) (b : Bind) : State :=
  { s with mill := { s.mill with binds := (s.mill.binds.filter fun k => !(k.slot == b.slot && k.rank == b.rank && k.twin == b.twin)) ++ [b] } }

theorem State.bind?_of_mill {s t : State} (h : t.mill = s.mill) (slot copy : Nat) : t.bind? slot copy = s.bind? slot copy := by
  simp only [State.bind?, h]

/-- It is then the one found for that copy. -/
theorem State.bind?_putBind (s : State) (b : Bind) : (s.putBind b).bind? b.slot (b.rank * 2 + b2n b.twin) = some b := by
  have rank : (b.rank * 2 + b2n b.twin) / 2 = b.rank := by cases b.twin <;> simp [b2n]; omega
  have twin : ((b.rank * 2 + b2n b.twin) % 2 == 1) = b.twin := by cases b.twin <;> simp [b2n]
  have gone : (s.mill.binds.filter fun k => !(k.slot == b.slot && k.rank == b.rank && k.twin == b.twin)).find?
      (fun k => k.slot == b.slot && k.rank == b.rank && k.twin == b.twin) = none :=
    List.find?_eq_none.mpr fun k hk same => by rw [List.mem_filter, same] at hk; exact absurd hk.2 (by decide)
  rw [State.bind?, rank, twin, State.putBind, List.find?_append, gone]
  simp

/-- MILL_BIND of a copy held here, while no step of the group runs: the table is bound, a change of state is logged, and the entry ends OK. -/
theorem State.millBind_binds {s : State} {f : Fetched} {h : DescHdr} {slot : Nat} {g : Group} (target : h.target < 65536)
    (named : s.groupById h.target = some (slot, g)) (owned : g.vf = ringVf f.key) (tag : s.tenantOk (ringVf f.key) h true = true)
    (held : s.holdsCopy g (fieldLE f.desc 24 2) (bitAt (fieldLE f.desc 28 1) 0) = true)
    (quiet : (s.cmn.colls.any fun c => c.slot == slot && c.isStep) = false) :
    ∃ v : State, s.millBind f h = v.endEntry f Status.ok 0 ∧ LogOnly (s.putBind (bindOf slot f.desc h.tag)) v := by
  simp only [State.millBind, Nat.mod_eq_of_lt target, named, owned, tag, held, quiet, Nat.not_le.mpr target, Bool.not_true, Bool.false_eq_true, ne_eq,
    not_true_eq_false, or_self, if_false]
  refine ⟨_, rfl, ?_⟩
  split
  · exact State.logEv_only ..
  · exact LogOnly.refl _

/-- Settles O23: each entry up to where it starts, admission by its lemmas, and what opening leaves. -/
theorem workEntriesOfTheCommons : Obligations.WorkEntriesOfTheCommons := by
  intro s u key count slot e g h vf
  refine ⟨?group, ?bind⟩
  case group =>
    intro n run waits unfenced free taken target named owned active tag going cls body room y p trays opens
    have entry : s.GroupEntry key count n slot e g u :=
      ⟨run, waits, unfenced, free, taken, target, named, owned, active, tag, going, cls, body, room⟩
    refine ⟨?coll, ?step, ?collOpens, ?stepOpens⟩
    case coll =>
      rintro rfl
      exact groupRow_deals entry rfl rfl
    case step =>
      rintro rfl
      exact groupRow_deals entry rfl rfl
    case collOpens =>
      rintro c a v w x rfl good hasPlace fits slots gate
      refine groupRow_deals entry rfl ?_
      have admits := (State.collStart_admits (slot := slot) good).trans (State.admitColl_admits p.count 0 hasPlace fits slots gate)
      refine ⟨admits, ?_⟩
      change CollOpened e c w (y.collStart e h slot g)
      rw [admits]
      exact w.openColl_opens ..
    case stepOpens =>
      rintro tabs planB scalB ts plan ds sc c a v₁ v₂ v₃ w x r rfl fields tables operands tableBytes planned aligned bundles checked next
        hasPlace fits slots gate
      refine groupRow_deals entry rfl ?_
      have reads : y.StepReads e h slot g plan ds sc scalB v₂ :=
        ⟨fields, ⟨tabs, planB, ts, v₁, tables, operands, tableBytes, planned, checked⟩, aligned, bundles, next⟩
      have starts := (State.stepStart_admits reads).trans
        (congrArg (false, ·) (State.admitColl_admits p.bundles (crc32c scalB) hasPlace fits slots gate))
      have ends := State.stepEntry_forgets starts
      refine ⟨ends, ?_⟩
      change CollOpened e c w (y.stepEntry e h slot g)
      rw [ends]
      exact (w.openColl_opens ..).forgetStep ..
  case bind =>
    intro entry target named owned tag held quiet
    have effect := State.runEntry_runs entry fun s f h => s.millBind f h
    obtain ⟨run, waits, -, rfl, -⟩ := entry
    obtain rfl := State.key_of_fetched? waits
    obtain ⟨v, ends, only⟩ := State.millBind_binds target named owned tag held quiet
    refine completes_act (f := fun s => s.runEntry e.key count 0x12 fun s f h => s.millBind f h) run rfl
      ⟨v, congrArg (State.requeue · s.pending) (effect.trans ends), only.mem, ?_⟩
    rw [State.bind?_of_mill only.mill]
    exact congrArg (Option.map _) (State.bind?_putBind _ (bindOf slot e.desc h.tag))

end Sys2Proof.Machine
end

section
/-!
PROOFS. The mill's blocks and norms (R163, R164, R168, R179, R184): a block whose stores stand, the end of pass 1 of a bundle, and the norms that a
scope agrees on.
-/

namespace Sys2Proof.Machine

/-! ### A block is stored (R179) -/

theorem State.rd_freeEngine_busy (s : State) (e : Nat) : (s.freeEngine e).rd F.MIL_ENG_STATE_busy e = 0 :=
  State.rd_wr_self _ F.MIL_ENG_STATE_busy 0 e (by decide)

/-- What the mill does with a stored block of the operation x that still runs: it commits, the producer of what it took is told (R190), and its bundle
counts it in the last pass. -/
def State.storeBlock (s : State) (x : COp) (m : MillBlk) : State :=
  let w := (s.millIdle x.o.part).commitBlock m
  let y := match m.took with
    | some h => w.sendFolded x.c.slot x.c.key (x.rankOf m.copy) h.src h false
    | none => w
  if m.pass1 then y else y.bundleDone m.op m.copy m.bundle

section
variable {s : State} {e : Nat} {m : MillBlk} (hm : Tbl.get? s.mill.engines e = some m)
include hm

/-- A block of an operation that has ended only frees its engine. -/
theorem State.blockDone_of_ended (gone : (s.freeEngine e).cop? m.op = none) : s.blockDone e = (s.freeEngine e).deal 18 := by
  simp only [State.blockDone, hm, gone]

theorem State.blockDone_of_running {x : COp} (hx : (s.freeEngine e).cop? m.op = some x) :
    s.blockDone e = ((s.freeEngine e).storeBlock x m).deal 18 := by
  simp only [State.blockDone, State.storeBlock, hm, hx] <;> rfl

end

/-! ### The end of pass 1 of a bundle (R164, R168) -/

/-- Operation x's copy has run pass 1 of a bundle, and its partition shows pass 2 of it (R184). -/
def State.endPass1 (s : State) (x : COp) (id copy b : Nat) (k : StepCopy) : State :=
  let u := s.modColl id fun c => { c with copies := Tbl.set c.copies copy { k with pass1 := b :: k.pass1 } }
  ((u.wr F.MIL_PTN_STEP_step x.p.step x.o.part).wr F.MIL_PTN_STEP_bundle b x.o.part).wr F.MIL_PTN_STEP_pass 2 x.o.part

section
variable (s : State) (x : COp) (id copy b : Nat) (k : StepCopy)

theorem State.mem_endPass1 : (s.endPass1 x id copy b k).mem = s.mem := rfl

theorem State.rd_endPass1_pass : (s.endPass1 x id copy b k).rd F.MIL_PTN_STEP_pass x.o.part = 2 :=
  State.rd_wr_self _ F.MIL_PTN_STEP_pass 2 _ (by decide)

theorem State.rd_endPass1_bundle : (s.endPass1 x id copy b k).rd F.MIL_PTN_STEP_bundle x.o.part = b % 2 ^ F.MIL_PTN_STEP_bundle.width :=
  (State.rd_wr_apart _ F.MIL_PTN_STEP_bundle F.MIL_PTN_STEP_pass 2 _ rfl (by decide) (by decide)).trans
    (State.rd_wr_self _ F.MIL_PTN_STEP_bundle b _ (by decide))

end

/-- A committed bundle of an operation that runs, all of whose blocks have run pass 1, and whose pass 1 has not ended before. -/
theorem State.normSync_ends {s : State} {id copy b sc : Nat} {x : COp} {k : StepCopy} (hx : s.cop? id = some x)
    (hk : Tbl.get? x.c.copies copy = some k) (scope : syncOf (s.recipeOf x copy b) = some sc) (going : x.c.phase = .running ∨ x.c.phase = .closing)
    (committed : b < x.c.committed) (fresh : k.pass1.contains b = false) (first : x.p.bStart ≤ b) (last : b < x.p.bundles)
    (ran : ∀ i < x.blocksIn copy b, k.p1done.contains (blkKey b i) = true) :
    s.normSync id copy b = if x.sums copy then (s.endPass1 x id copy b k).reportNorms x copy b sc { k with pass1 := b :: k.pass1 }
      else s.endPass1 x id copy b k := by
  have due : ¬ (x.c.phase ≠ .running ∧ x.c.phase ≠ .closing ∨ k.pass1.contains b = true ∨ b < x.p.bStart ∨ x.p.bundles ≤ b) := by
    rw [fresh]; rcases going with h | h <;> simp [h, first, last]
  have whole : ¬ (x.c.committed ≤ b ∨ ((List.range (x.blocksIn copy b)).any fun i => !k.p1done.contains (blkKey b i)) = true) := by
    rintro (early | waits)
    · omega
    · obtain ⟨i, hi, open_⟩ := List.any_eq_true.1 waits
      rw [ran i (List.mem_range.1 hi)] at open_
      cases open_
  simp only [State.normSync, hx, hk, scope, if_neg due, if_neg whole, State.endPass1]

/-! ### The norms agreed (R164, R176) -/

/-- An operation holds the norms of a scope, each with what rounding it to FP32 gave; those that are then not finite are counted. -/
def State.holdNorms (s : State) (id scope : Nat) (es : List (Nat × Wrote)) : State :=
  let odd := (es.filter fun e => e.2.nan || e.2.inf).length
  ((s.bump F.MIL_NONFINITE odd).markSpecial id (0 < odd)).modColl id fun c => { c with norms := Tbl.set c.norms scope (es.map Prod.fst) }

theorem State.markSpecial_only (s : State) (id : Nat) (yes : Bool) : OpsOnly s (s.markSpecial id yes) := by
  cases yes
  · exact OpsOnly.refl s
  · exact ⟨_, rfl⟩

theorem OpsOnly.coll? {s t : State} (h : OpsOnly s t) (id : Nat) : t.coll? id = s.coll? id := by obtain ⟨_, rfl⟩ := h; rfl

section
variable (s : State) (id scope : Nat) (es : List (Nat × Wrote))

theorem State.mem_holdNorms : (s.holdNorms id scope es).mem = s.mem := (State.markSpecial_only ..).mem

theorem State.rd_holdNorms_nonfinite : (s.holdNorms id scope es).rd F.MIL_NONFINITE =
    (s.rd F.MIL_NONFINITE + (es.filter fun e => e.2.nan || e.2.inf).length) % 2 ^ F.MIL_NONFINITE.width :=
  ((State.markSpecial_only ..).rd F.MIL_NONFINITE 0).trans (State.rd_bump_self s F.MIL_NONFINITE _ 0 (by decide))

theorem State.norms_holdNorms {c : Coll} (hc : s.coll? id = some c) :
    ((s.holdNorms id scope es).coll? id).map (fun c => Tbl.get? c.norms scope) = some (some (es.map Prod.fst)) := by
  have kept : ∀ n yes, ((s.bump F.MIL_NONFINITE n).markSpecial id yes).coll? id = some c :=
    fun _ _ => ((State.markSpecial_only ..).coll? id).trans hc
  rw [State.holdNorms, State.coll?_modColl, kept]
  · exact congrArg some (Tbl.get?_set_self ..)
  · exact fun _ => rfl

end

/-- The results of a scope whose norms are not held yet. -/
theorem State.normResult_holds {s : State} {id scope b : Nat} {c : Coll} (vals : List Nat) (hc : s.coll? id = some c)
    (fresh : Tbl.get? c.norms (if scope = 1 then 65536 else b) = none) : s.normResult id scope b vals =
    (s.holdNorms id (if scope = 1 then 65536 else b) ((vals.take 4).map fun v => fp32.encode false none (fp64.decode v))).deal 18 := by
  simp only [State.normResult, State.holdNorms, hc, fresh, Option.isSome_none, Bool.false_eq_true, if_false]

/-! ### The rows -/

theorem millBlockDone_deals {s : State} {e : Nat} {P : State → Prop} (hrun : s.power = .run) (he : e < 18) (p : P (s.blockDone e)) :
    Deals (.millBlockDone e) s P :=
  completes_actOn (f := fun s => (s.blockDone e).cmnRun) hrun rfl (decide_eq_true he) ⟨_, rfl, p⟩

theorem normSync_deals {s : State} {id copy b : Nat} {P : State → Prop} (hrun : s.power = .run) (p : P (s.normSync id copy b)) :
    Deals (.normSync id copy b) s P :=
  deals_act (f := fun s => s.normSync id copy b) hrun rfl p

theorem normSyncResult_deals {s : State} {id scope b n0 n1 n2 n3 : Nat} {P : State → Prop} (hrun : s.power = .run)
    (p : P (s.normResult id scope b [n0, n1, n2, n3])) : Deals (.normSyncResult id scope b n0 n1 n2 n3) s P :=
  deals_act (f := fun s => s.normResult id scope b [n0, n1, n2, n3]) hrun rfl p

/-- Settles O14: each row's own effect, and what that is in the states that the clauses name. -/
theorem millBlocksAndNorms : Obligations.MillBlocksAndNorms := by
  intro s hrun
  refine ⟨fun e he => completes_actOn (f := fun s => (s.blockDone e).cmnRun) hrun rfl (decide_eq_true he) rfl,
    fun id copy b => completes_act (f := fun s => (s.normSync id copy b).cmnRun) hrun rfl rfl,
    fun id scope b n0 n1 n2 n3 => completes_act (f := fun s => (s.normResult id scope b [n0, n1, n2, n3]).cmnRun) hrun rfl rfl,
    ?ended, ?running, ?pass1, ?norms⟩
  case ended =>
    intro e m he hm gone
    exact millBlockDone_deals hrun he ⟨State.blockDone_of_ended hm gone, s.rd_freeEngine_busy e⟩
  case running =>
    intro e m x he hm hx
    exact millBlockDone_deals hrun he (State.blockDone_of_running hm hx)
  case pass1 =>
    intro id copy b sc x k hx hk scope going committed fresh first last ran
    exact normSync_deals hrun ⟨State.normSync_ends hx hk scope going committed fresh first last ran, s.rd_endPass1_pass x id copy b k,
      s.rd_endPass1_bundle x id copy b k, s.mem_endPass1 x id copy b k⟩
  case norms =>
    intro id scope b n0 n1 n2 n3 c hc fresh
    exact normSyncResult_deals hrun ⟨_, State.normResult_holds _ hc fresh, s.mem_holdNorms ..,
      s.rd_holdNorms_nonfinite .., s.norms_holdNorms _ _ _ hc⟩

end Sys2Proof.Machine
end

section
/-!
PROOFS. What sending a packet leaves (R203, R212, R215, R265, R301): of a connection's end only the port that its next packet takes changes.
-/

namespace Sys2Proof.Machine

/-! ### Ends, and what sending moves of them -/

@[simp] theorem State.conn?_setConn_self (s : State) (c : Nat) (k : Conn) : (s.setConn c k).conn? c = some k := Tbl.get?_set_self _ _ _

theorem State.conn?_setConn_ne (s : State) {c d : Nat} (k : Conn) (h : d ≠ c) : (s.setConn c k).conn? d = s.conn? d := Tbl.get?_set_ne _ _ _ _ h

/-- The ends are the transport's. -/
theorem State.conn?_of_bxt {s t : State} (h : t.bxt.conns = s.bxt.conns) (c : Nat) : t.conn? c = s.conn? c := by rw [State.conn?, h]; rfl

theorem State.conn?_modConn_self (s : State) (c : Nat) (f : Conn → Conn) : (s.modConn c f).conn? c = (s.conn? c).map f := by
  unfold State.modConn
  cases h : s.conn? c <;> simp [h]

theorem State.conn?_modConn_ne (s : State) {c d : Nat} (f : Conn → Conn) (h : d ≠ c) : (s.modConn c f).conn? d = s.conn? d := by
  unfold State.modConn
  cases s.conn? c
  · rfl
  · exact s.conn?_setConn_ne _ h

/-- A change of an end changes the ends only. -/
theorem State.modConn_only (s : State) (c : Nat) (f : Conn → Conn) : ∃ t : Tbl Conn, s.modConn c f = { s with bxt := { s.bxt with conns := t } } := by
  unfold State.modConn
  cases s.conn? c
  · exact ⟨s.bxt.conns, rfl⟩
  · exact ⟨_, rfl⟩

/-- An end but for what its answers move: the port that they take and when an older epoch was last answered (R210, R301). -/
def Conn.core (k : Conn) : Conn := { k with rot := 0, port := none, epochNakAt := [] }

/-- From s to t, packets that belong to no operation may have been sent: memory, rings, operations and the commons stay, and each end's core. -/
structure Sends (s t : State) : Prop where
  mem : t.mem = s.mem
  rings : t.rings = s.rings
  ops : t.ops = s.ops
  cmn : t.cmn = s.cmn
  conns : ∀ c : Nat, (t.conn? c).map Conn.core = (s.conn? c).map Conn.core

theorem Sends.refl (s : State) : Sends s s := ⟨rfl, rfl, rfl, rfl, fun _ => rfl⟩

theorem Sends.trans {s t u : State} (h : Sends s t) (k : Sends t u) : Sends s u :=
  ⟨k.mem.trans h.mem, k.rings.trans h.rings, k.ops.trans h.ops, k.cmn.trans h.cmn, fun c => (k.conns c).trans (h.conns c)⟩

/-- What is read of an end's core stays. -/
theorem Sends.conn {s t : State} (h : Sends s t) {α : Type} (f : Conn → α) (apart : ∀ k, f k.core = f k) (c : Nat) :
    (t.conn? c).map f = (s.conn? c).map f := by
  have same : ∀ x : Option Conn, x.map f = (x.map Conn.core).map f := fun x => by cases x <;> simp [apart]
  rw [same, h.conns, ← same]

theorem LogOnly.sends {s t : State} (h : LogOnly s t) : Sends s t := ⟨h.mem, h.rings, h.ops, h.cmn, fun _ => by rw [State.conn?_of_bxt (congrArg (·.conns) h.bxt)]⟩

theorem State.bump_sends (s : State) (f : Fld) (n i : Nat) : Sends s (s.bump f n i) := ⟨rfl, rfl, rfl, rfl, fun _ => rfl⟩

theorem State.drawBelow_sends (s : State) (n : Nat) : Sends s (s.drawBelow n).2 := ⟨rfl, rfl, rfl, rfl, fun _ => rfl⟩

theorem State.setSlot_sends (s : State) (svc n : Nat) (k : KeySlot) : Sends s (s.setSlot svc n k) := by
  unfold State.setSlot
  split <;> exact ⟨rfl, rfl, rfl, rfl, fun _ => rfl⟩

/-! ### The steps of sending -/

/-- With no injection armed a core's self-check finds nothing (R403, R486). -/
theorem State.coreChecks_clear {s : State} (clear : s.inj = none) (part n : Nat) : s.coreChecks part n = (0, s) := by
  cases n <;> simp [State.coreChecks, State.inject, clear]

/-- Sealing a packet draws its counter: the key slot changes, and a threshold or the slot's end is logged (R212, R397). -/
theorem State.seal_sends {s t : State} {svc slot : Nat} {p q : Packet} {x : Option Seal} (quiet : p.enc = false ∨ s.inj = none)
    (h : s.seal svc slot p = some (q, x, t)) : Sends s t ∧ q.ext = p.ext := by
  unfold State.seal at h
  split at h
  · obtain ⟨rfl, rfl, rfl⟩ := by simpa using h
    exact ⟨Sends.refl _, rfl⟩
  next sealed =>
    have clear : s.inj = none := quiet.resolve_left fun h => sealed (by simp [h])
    split at h
    · cases h
    next k _ =>
      simp only [State.coreChecks_clear clear] at h
      split at h
      · cases h
      next ctr k' _ =>
        obtain ⟨rfl, rfl, rfl⟩ := by simpa using h
        refine ⟨((s.setSlot_sends svc slot k').trans (State.bump_sends _ F.CPH_ENC_PKTS 1 0)).trans ?_, rfl⟩
        split <;> split
        · exact (State.logEv_only ..).sends.trans (State.logEv_only ..).sends
        · exact (State.logEv_only ..).sends
        · exact (State.logEv_only ..).sends
        · exact Sends.refl _

/-- A change of an end that leaves its core is one that sending makes. -/
theorem State.modConn_sends (s : State) (c : Nat) {f : Conn → Conn} (kept : ∀ k, (f k).core = k.core) : Sends s (s.modConn c f) := by
  have conns : ∀ d : Nat, ((s.modConn c f).conn? d).map Conn.core = (s.conn? d).map Conn.core := by
    intro d
    by_cases here : d = c
    · subst here
      rw [State.conn?_modConn_self, Option.map_map]
      exact congrArg (Option.map · _) (funext kept)
    · rw [State.conn?_modConn_ne _ _ here]
  obtain ⟨t, h⟩ := s.modConn_only c f
  rw [h] at conns ⊢
  exact ⟨rfl, rfl, rfl, rfl, conns⟩

/-- Choosing a packet's port moves the end's pointer. -/
theorem State.connPort_sends (s : State) (c : Nat) (k : Conn) (cls : Nat) : Sends s (s.connPort c k cls).2 := by
  unfold State.connPort
  dsimp only
  split
  · exact Sends.refl s
  · split
    · exact s.modConn_sends c fun _ => rfl
    · exact Sends.refl s

theorem State.settlePort_sends (s : State) (c : Nat) : Sends s (s.settlePort c) := by
  unfold State.settlePort
  split
  · split
    · exact s.connPort_sends ..
    · exact Sends.refl s
  · exact Sends.refl s

theorem State.pushFrame_sends (s : State) (q : Queued) : Sends s (s.pushFrame q) := by
  unfold State.pushFrame
  dsimp only
  split <;> exact ⟨rfl, rfl, rfl, rfl, fun _ => rfl⟩

/-- Only a chunk's packet is counted for its operation. -/
theorem State.carry_plain (s : State) (k : Conn) {p : Packet} (plain : ∀ hdr, p.ext ≠ .chunk hdr) : s.carry k p = s := by
  unfold State.carry
  split
  next hdr h => exact absurd h (plain hdr)
  · rfl

/-- Sending a packet that starts no timer and is no chunk, where no injection spoils its sealing. -/
theorem State.sendPkt_sends (s : State) (c : Nat) (k : Conn) {p : Packet} (op : Option Nat) (quiet : p.enc = false ∨ s.inj = none)
    (plain : ∀ hdr, p.ext ≠ .chunk hdr) : Sends s (s.sendPkt c k p false op).2 := by
  unfold State.sendPkt
  generalize entropy : (if k.spray = 2 then s.drawBelow 65536 else (k.pathId, s)) = drawn
  obtain ⟨pid, u⟩ := drawn
  have first : Sends s u ∧ u.inj = s.inj := by
    split at entropy <;> obtain ⟨-, rfl⟩ := Prod.mk.inj entropy
    · exact ⟨s.drawBelow_sends 65536, rfl⟩
    · exact ⟨Sends.refl s, rfl⟩
  obtain ⟨hu, inj⟩ := first
  dsimp only
  split
  · exact hu
  next q x v sealed =>
    obtain ⟨hv, ext⟩ := State.seal_sends (p := { p with pathId := pid }) (quiet.imp id inj.trans) sealed
    have port := v.connPort_sends c k q.cls
    split
    next j w chosen =>
      rw [chosen] at port
      rw [w.carry_plain k (ext ▸ plain)]
      exact ((hu.trans hv).trans port).trans (State.pushFrame_sends ..)
    next w chosen =>
      rw [chosen] at port
      exact (hu.trans hv).trans port

/-- An answer of an end that is no chunk. -/
theorem State.sendCtl_sends (s : State) (c : Nat) (k : Conn) {ext : Ext} (psn msn : Nat) (quiet : k.enc = false ∨ s.inj = none)
    (plain : ∀ hdr, ext ≠ .chunk hdr) : Sends s (s.sendCtl c k ext psn msn) :=
  s.sendPkt_sends c k none quiet plain

/-- A NAK. -/
theorem State.sendNak_sends (s : State) (c : Nat) (k : Conn) (p : Packet) (code reason delay : Nat) (quiet : k.enc = false ∨ s.inj = none) :
    Sends s (s.sendNak c k p code reason delay) := by
  unfold State.sendNak
  dsimp only
  split
  · exact (s.bump_sends F.BXT_NR_SENT 1 0).trans (State.sendCtl_sends (s.bump F.BXT_NR_SENT) c k _ _ quiet (by simp))
  · exact s.sendCtl_sends c k _ _ quiet (by simp)

/-! ### A packet of another epoch (R210) -/

theorem State.modConn_inj (s : State) (c : Nat) (f : Conn → Conn) : (s.modConn c f).inj = s.inj := by
  obtain ⟨t, only⟩ := s.modConn_only c f
  rw [only]

theorem State.wrongEpoch_answer_sends {s : State} (c : Nat) (k : Conn) (p : Packet) (clear : s.inj = none) :
    Sends s (State.wrongEpoch.answer c k p s) := by
  unfold State.wrongEpoch.answer
  refine Sends.trans (s.modConn_sends c ?_) (State.sendNak_sends _ c k p _ _ _ (.inr ((s.modConn_inj c _).trans clear)))
  exact fun _ => rfl

/-- Such a packet is counted, and answered at most. -/
theorem State.wrongEpoch_sends {s : State} (c : Nat) (k : Conn) (p : Packet) (clear : s.inj = none) : Sends s (s.wrongEpoch c k p) := by
  have counted := s.bump_sends F.BXT_EPOCH_DROP 1 0
  have answered := counted.trans (State.wrongEpoch_answer_sends c k p (s := s.bump F.BXT_EPOCH_DROP) clear)
  unfold State.wrongEpoch
  dsimp only
  split
  · split
    · split
      · exact counted
      · exact answered
    · exact answered
  · exact counted

/-- An end's context at hand is used: the ends stay (R222, R223). -/
theorem State.needCtx_conns {s v : State} {c : Nat} {k : Conn} {p : Packet} (h : s.needCtx c k p = (true, v)) : v.bxt.conns = s.bxt.conns := by
  unfold State.needCtx at h
  split at h
  · obtain ⟨-, rfl⟩ := Prod.mk.inj h
    rfl
  · dsimp only at h
    split at h <;> cases h

/-- Settles O17: judging stops the packet at step 4, and the counting and the answer leave what the packet could have placed or completed. -/
theorem packetsOfAnotherEpochAreDropped : Obligations.PacketsOfAnotherEpochAreDropped := by
  intro s u v p q k opened sound hk ctx other noNak clear
  have stopped : s.judge p = (.gone, v.wrongEpoch q.dstConn k q) := by
    simp [State.judge, opened, sound, hk, ctx, State.judgeOn, other, noNak]
  have sends := State.wrongEpoch_sends q.dstConn k q clear
  have kept := sends.conn (fun k => (k.base, k.win, k.done, k.ended, k.outMsgs)) (fun _ => rfl) q.dstConn
  rw [State.conn?_of_bxt (State.needCtx_conns ctx), hk] at kept
  exact ⟨_, stopped, sends.mem, sends.rings, sends.ops, sends.cmn, kept⟩

end Sys2Proof.Machine
end

section
/-!
PROOFS. The packets that answer, grant and close (R209, R211, R213, R217 to R219, R268, R500): what each leaves of the state that judging, or the steps
before an end, leave.
-/

namespace Sys2Proof.Machine

/-! ### Responses (R217, R218) -/

theorem State.takePkt_readResp {s : State} {c req : Nat} {k : Conn} {p : Packet} (he : p.ext = .readResp req) :
    s.takePkt c k p = s.onReadResp c p req none := by
  simp only [State.takePkt, he]

theorem State.takePkt_atomicResp {s : State} {c res : Nat} {k : Conn} {p : Packet} (he : p.ext = .atomicResp res) :
    s.takePkt c k p = s.onAtomicResp c k p.psn res := by
  simp only [State.takePkt, he]

/-- A new piece of an open read is stored where it translates and counts for its operation; the read ends with its last one. -/
theorem State.onReadResp_places {s v : State} {c req : Nat} {k : Conn} {p : Packet} {since : Option Nat} {r : OpenRead} {o : Op} {locs : List (Loc × Nat)}
    (hk : s.conn? c = some k) (hr : (k.reads.find? fun r => r.psn == req) = some r) (ho : s.op? r.op = some o) (aligned : p.msgOff % k.mtu = 0)
    (within : p.msgOff + p.payload.length ≤ r.len) (fresh : r.got.contains p.msgOff = false)
    (range : s.lookupRange o.part o.vf o.tag (r.laddr + p.msgOff) p.payload.length .write = (.ok locs, v)) :
    s.onReadResp c p req since =
      let x := (v.writeLocs o.vf o.tag (some r.op) locs p.payload).modOp r.op fun o =>
        { o with wrote := lastWrites locs o.wrote, bytes := o.bytes + p.payload.length }
      let got := p.msgOff :: r.got
      if Machine.readWhole k.mtu r.len got then ((x.modConn c fun k => { k with reads := k.reads.filter fun x => x.msn != r.msn }).msgOk r.op r.msn 0).tryClose c
      else x.modConn c fun k => { k with reads := k.reads.map fun x => if x.psn == req then { x with got := got } else x } := by
  have new : ¬(p.msgOff % k.mtu ≠ 0 ∨ r.len < p.msgOff + p.payload.length ∨ r.got.contains p.msgOff = true) := by
    simp only [aligned, fresh, ne_eq, not_true_eq_false, Bool.false_eq_true, or_false, false_or]
    omega
  simp only [State.onReadResp, hk, hr, ho, if_neg new, range]

/-- The result of an open atomic ends it. -/
theorem State.onAtomicResp_ends {s : State} {c psn res : Nat} {k : Conn} {a : OpenAtomic} (ha : (k.openAtomics.find? fun a => a.psn == psn) = some a) :
    s.onAtomicResp c k psn res = (((s.setConn c { k with openAtomics := k.openAtomics.filter fun b => b.psn != psn }).modOp a.op
      fun o => { o with msgs := [], cqe := { o.cqe with performed := true, result := leBytes 8 res } }).finishMsgs a.op).tryClose c := by
  simp only [State.onAtomicResp, ha]

/-! ### NAK (R219, R534) -/

/-- A NAK of a connection, of any code but UNKNOWN_CONN, is its end's. -/
theorem nakRow_settles {s u : State} {P : State → Prop} {c code reason us psn epoch unk : Nat} {k : Conn} {p q : Packet}
    (h : s.Takes p (.nak code reason us psn epoch unk) c k q u) (known : code ≠ Nak.unknownConn) (hp : P (u.onNak c k q code reason psn epoch)) :
    Settles (.nak code reason us psn epoch unk p) s P := by
  have taken : u.takePkt c k q = u.onNak c k q code reason psn epoch := by simp only [State.takePkt, h.ext]
  exact takes_settles h rfl (by simp) (by simp) (by rintro _ _ _ _ _ e; exact known (Ext.nak.inj e).1) (by rwa [taken])

section
variable (s : State) (c : Nat) (k : Conn) (p : Packet) (reason psn epoch : Nat)

theorem State.onNak_terminal {code : Nat} (terminal : code = 3 ∨ code = 5 ∨ code = 6 ∨ code = 8) :
    s.onNak c k p code reason psn epoch = (s.onTerminal c k p code psn).tryClose c := by
  rcases terminal with rfl | rfl | rfl | rfl <;> rfl

theorem State.onNak_notReady : s.onNak c k p Nak.notReady reason psn epoch = (s.onNotReady c k psn reason).tryClose c := rfl

/-- HELD stops the timer of its packet, and its operation records the cause (R219, R273). -/
theorem State.onNak_held : s.onNak c k p Nak.held reason psn epoch =
    let v := s.setConn c (k.modSent psn fun x => if x.waiting = 3 then x else { x with waiting := 2, timer := false })
    (match k.sent? psn with | some x => v.causeOf x 4 | none => v).tryClose c :=
  rfl

theorem State.onNak_stale : s.onNak c k p Nak.staleEpoch reason psn epoch =
    (if serialOlder 16 k.epoch epoch then s.errorEnd c Status.staleEpoch Nak.staleEpoch else s).tryClose c := rfl

end

/-! ### GRANT (R268) -/

theorem State.takePkt_grant {s : State} {c mask validUs : Nat} {budget : List Nat} {k : Conn} {p : Packet} (he : p.ext = .grant mask validUs budget) :
    s.takePkt c k p = s.onGrant c k mask validUs budget := by
  simp only [State.takePkt, he]

/-- On an open end that is none of RoCEv2 a GRANT counts, and each class that its mask names takes its budget. -/
theorem State.onGrant_stores {s : State} {c mask validUs : Nat} {budget : List Nat} {k : Conn} (st : k.state = .open_) (bxt : k.roce = false) :
    s.onGrant c k mask validUs budget = (List.range 6).foldl (fun (v : State) cls =>
      if mask.testBit cls then v.storeGrant c cls (budget.getD cls 0) validUs else v) (s.bump F.ADM_GRANT_RCVD) := by
  simp [State.onGrant, st, bxt]

/-- A mask of one class visits that class alone. -/
theorem foldl_oneClass {α : Type} (f : α → Nat → α) (a : α) {cls : Nat} (h : cls < 6) :
    (List.range 6).foldl (fun v j => if (2 ^ cls).testBit j then f v j else v) a = f a cls := by
  interval_cases cls <;> rfl

theorem State.causeGrant_only (s : State) (c cls units validUs : Nat) : OpsOnly s (s.causeGrant c cls units validUs) := by
  refine List.foldlRecOn _ _ (motive := OpsOnly s) (OpsOnly.refl s) ?_
  rintro _ ⟨_, rfl⟩ _ -
  exact ⟨_, rfl⟩

/-- A stored budget stands until `valid_us` are over; no GRANT is counted for it. -/
theorem State.storeGrant_leaves (s : State) (c cls units validUs : Nat) :
    Tbl.get? (s.storeGrant c cls units validUs).adm.grants (c * 8 + cls) = some (units, validUs, s.now + validUs * us) ∧
      (s.storeGrant c cls units validUs).rd F.ADM_GRANT_RCVD = s.rd F.ADM_GRANT_RCVD := by
  have shown : ∀ t u : State, OpsOnly t u → u.adm = t.adm ∧ u.rd F.ADM_GRANT_RCVD = t.rd F.ADM_GRANT_RCVD := by
    rintro t _ ⟨_, rfl⟩
    exact ⟨rfl, rfl⟩
  unfold State.storeGrant
  dsimp only
  obtain ⟨adm, rd⟩ := shown _ _ (State.causeGrant_only _ c cls units validUs)
  rw [adm, rd]
  split
  · exact ⟨Tbl.get?_set_self .., State.rd_bump_ne _ _ _ _ _ _ (.inl (by decide))⟩
  · exact ⟨Tbl.get?_set_self .., rfl⟩

/-! ### CLOSE and CLOSE_ACK (R211) -/

theorem State.takePkt_close {s : State} {c src svc group msn : Nat} {k : Conn} {p : Packet} (he : p.ext = .ctrl 4 src svc group msn) :
    s.takePkt c k p = s.onClose c k p := by
  simp [State.takePkt, he, State.takeCtrl]

theorem State.takePkt_closeAck {s : State} {c src svc group msn : Nat} {k : Conn} {p : Packet} (he : p.ext = .ctrl 5 src svc group msn) :
    s.takePkt c k p = s.onCloseAck c k := by
  simp [State.takePkt, he, State.takeCtrl]

/-- A CLOSE on an open end, which is still there as k' once its work has ended. -/
theorem State.onClose_frees {s : State} {c : Nat} {k k' : Conn} {p : Packet} (st : k.state = .open_)
    (hk : (((s.takePsn c p).sendAck c).endOpsOfConn c Status.aborted 0 false).conn? c = some k') :
    s.onClose c k p = ((((s.takePsn c p).sendAck c).endOpsOfConn c Status.aborted 0 false).sendCtl c k'
      (.ctrl 5 0 k'.svc (if 2 ≤ k'.svc then k'.group else 0) 0) 0 0).freeConn c none := by
  simp only [State.onClose, st, true_or, if_true, hk]

theorem State.onCloseAck_frees {s : State} {c : Nat} {k : Conn} (st : k.state = .closing) (sent : k.closeSent = true) :
    s.onCloseAck c k = s.freeConn c (some Status.aborted) := by
  simp only [State.onCloseAck, st, sent, and_self, if_true]

/-! ### PROBE and PROBE_ACK (R211, R500) -/

/-- The packet p with extension e is admitted by a device that runs, names no RoCEv2 connection, and opens as the well-formed q, leaving u: steps 1 and 2
of R203. -/
structure State.Opens (s : State) (p : Packet) (e : Ext) (q : Packet) (u : State) : Prop where
  run : s.power = .run
  admitted : s.admitsPkt { p with ext := e } = true
  bxt : (s.conn? p.dstConn).any (·.roce) = false
  opened : s.openPkt { p with ext := e } = (some q, u)
  sound : q.wellFormed = true

section
variable {s u v : State} {P : State → Prop} {p q : Packet} {src svc group : Nat} {k : Conn}

theorem probeRow_settles (h : s.Opens p (.ctrl 1 src svc group 0) q u)
    (hp : P (s.onProbe { p with ext := .ctrl 1 src svc group 0 } src svc group)) : Settles (.probe src svc group p) s P := by
  refine settles_act (f := fun s => s.rxPkt { p with ext := .ctrl 1 src svc group 0 }) h.run rfl ?_
  simpa only [State.rxPkt, h.admitted, h.bxt, Bool.not_true, Bool.false_eq_true, if_false] using hp

theorem probeAckRow_settles (h : s.Opens p (.ctrl 2 src svc group 0) q u)
    (hp : P (s.onProbeAck { p with ext := .ctrl 2 src svc group 0 } src svc group)) : Settles (.probeAck src svc group p) s P := by
  refine settles_act (f := fun s => s.rxPkt { p with ext := .ctrl 2 src svc group 0 }) h.run rfl ?_
  simpa only [State.rxPkt, h.admitted, h.bxt, Bool.not_true, Bool.false_eq_true, if_false] using hp

/-- A PROBE to an end whose context is at hand. -/
theorem State.onProbe_end (h : s.Opens p (.ctrl 1 src svc group 0) q u) (hc : q.dstConn ≠ 0) (hk : (u.hear q.srcDev).conn? q.dstConn = some k)
    (ctx : (u.hear q.srcDev).needCtx q.dstConn k q = (true, v)) :
    s.onProbe { p with ext := .ctrl 1 src svc group 0 } src svc group = v.probeEnd q src svc q.dstConn k := by
  simp only [State.onProbe, h.opened, h.sound, Bool.not_true, Bool.false_eq_true, if_false, if_neg hc, hk, ctx]

theorem State.onProbeAck_end (h : s.Opens p (.ctrl 2 src svc group 0) q u) (hk : (u.hear q.srcDev).conn? q.dstConn = some k)
    (ctx : (u.hear q.srcDev).needCtx q.dstConn k q = (true, v)) :
    s.onProbeAck { p with ext := .ctrl 2 src svc group 0 } src svc group = v.probeAcked q src svc group q.dstConn k := by
  simp only [State.onProbeAck, h.opened, h.sound, Bool.not_true, Bool.false_eq_true, if_false, hk, ctx]

/-- A PROBE in the clear to the connection service, for management. -/
theorem State.onProbe_mgt (h : s.Opens p (.ctrl 1 src 1 group 0) q u) (hc : q.dstConn = 0) (plain : q.enc = false) :
    s.onProbe { p with ext := .ctrl 1 src 1 group 0 } src 1 group = (u.hear q.srcDev).probeMgt q src := by
  simp [State.onProbe, h.opened, h.sound, hc, State.probeService, plain]

end

/-- An end that a PROBE matches in epoch, service and peer. -/
structure Conn.Probed (k : Conn) (p : Packet) (src svc : Nat) : Prop where
  epoch : k.epoch = p.epoch
  svc : k.svc = svc
  peerConn : k.peerConn = src
  peerDev : k.peerDev = p.srcDev
  bxt : k.roce = false

theorem State.probeEnd_opens {s : State} {p : Packet} {src svc c : Nat} {k k' : Conn} (m : k.Probed p src svc) (st : k.state = .armed)
    (hk : (s.openConn c).conn? c = some k') : s.probeEnd p src svc c k = (s.openConn c).probeAck c k' := by
  simp [State.probeEnd, m.epoch, m.svc, m.peerConn, m.peerDev, m.bxt, st, hk]

theorem State.probeEnd_answers {s : State} {p : Packet} {src svc c : Nat} {k : Conn} (m : k.Probed p src svc) (st : k.state = .open_) :
    s.probeEnd p src svc c k = s.probeAck c k := by
  simp [State.probeEnd, m.epoch, m.svc, m.peerConn, m.peerDev, m.bxt, st]

/-- The answer of the peer opens an armed end, which learns the peer's connection. -/
theorem State.probeAcked_opens {s : State} {p : Packet} {src svc group c : Nat} {k : Conn} (epoch : k.epoch = p.epoch) (st : k.state = .armed)
    (hsvc : k.svc = svc) (hgroup : k.group = group) (dev : k.peerDev = p.srcDev) (peer : 2 ≤ svc ∨ k.peerConn = src) :
    s.probeAcked p src svc group c k = if 2 ≤ svc then ((s.modConn c fun k => { k with peerConn := src }).openConn c).cmnFlushUnsent k.slot svc k.peerDev
      else (s.modConn c fun k => { k with peerConn := src }).openConn c := by
  simp only [State.probeAcked, epoch, st, hsvc, hgroup, dev, peer, ne_eq, not_true_eq_false, if_false, and_self, if_true]

/-! ### A new end (R222, R500) -/

/-- From s to t contexts may have been cached or evicted, and the occupancy shown: nothing else changes. -/
def Cached (s t : State) : Prop := ∃ (rg : Tbl Word) (res : List Nat), t = { s with regs := rg, bxt := { s.bxt with resident := res } }

theorem Cached.refl (s : State) : Cached s s := ⟨s.regs, s.bxt.resident, rfl⟩

theorem Cached.trans {s t u : State} (h : Cached s t) (k : Cached t u) : Cached s u := by
  obtain ⟨_, _, rfl⟩ := h
  obtain ⟨rg, res, rfl⟩ := k
  exact ⟨rg, res, rfl⟩

theorem Cached.conn? {s t : State} (h : Cached s t) (c : Nat) : t.conn? c = s.conn? c := by obtain ⟨_, _, rfl⟩ := h; rfl
theorem Cached.mem {s t : State} (h : Cached s t) : t.mem = s.mem := by obtain ⟨_, _, rfl⟩ := h; rfl
theorem Cached.inj {s t : State} (h : Cached s t) : t.inj = s.inj := by obtain ⟨_, _, rfl⟩ := h; rfl

theorem Cached.resident (s : State) (res : List Nat) : Cached s { s with bxt := { s.bxt with resident := res } } := ⟨s.regs, res, rfl⟩

theorem State.wr_cached (s : State) (f : Fld) (v i : Nat) : Cached s (s.wr f v i) := ⟨_, s.bxt.resident, rfl⟩

theorem State.showCtx_cached (s : State) (p : Nat) : Cached s (s.showCtx p) := by
  have shown := (s.wr_cached F.CTX_OCC_resident s.bxt.resident.length 0).trans (State.wr_cached _ F.CTX_OCC_pinned
    ((s.wr F.CTX_OCC_resident s.bxt.resident.length).bxt.conns.filter fun q => q.2.pin).length 0)
  unfold State.showCtx
  dsimp only
  split
  · exact ((shown.trans (State.wr_cached ..)).trans (State.wr_cached ..)).trans (State.wr_cached ..)
  · exact shown

/-- A context comes in where its set has a way free, or in the place of one that may go (R223). -/
theorem State.bringIn_cached (s : State) (c : Nat) : Cached s (s.bringIn c).2 := by
  have add : ∀ t : State, Cached t (State.showCtx { t with bxt := { t.bxt with resident := c :: t.bxt.resident } } (t.connPart c)) :=
    fun t => (Cached.resident t _).trans (State.showCtx_cached _ _)
  unfold State.bringIn
  dsimp only
  split
  · exact Cached.refl s
  · split
    · exact add s
    · split
      next r _ =>
        have evicted : Cached s ((State.bump { s with bxt := { s.bxt with resident := s.bxt.resident.filter (· != r) } } F.CTX_EVICT)) :=
          (Cached.resident s _).trans (State.wr_cached ..)
        exact (evicted.trans (State.showCtx_cached _ _)).trans (add _)
      · exact Cached.refl s

/-- A new end stands as it is given, on a path of its own. -/
theorem State.addConn_leaves (s : State) (c : Nat) (k : Conn) :
    (∃ path : Nat, (s.addConn c k).conn? c = some { k with pathId := path }) ∧ (s.addConn c k).mem = s.mem ∧ (s.addConn c k).inj = s.inj := by
  have cached : Cached ((s.drawBelow 65536).2.setConn c { k with pathId := (s.drawBelow 65536).1 }) (s.addConn c k) :=
    (State.bringIn_cached _ c).trans (State.showCtx_cached _ _)
  exact ⟨⟨_, (cached.conn? c).trans (State.conn?_setConn_self ..)⟩, cached.mem, cached.inj⟩

/-- The management connection i that a PROBE opens (R500). -/
def State.mgtEnd (s : State) (p : Packet) (src i : Nat) : Conn :=
  { s.newConn 0 64 1 4096 with
    state := .open_, peerConn := src, peerIp := p.srcIp, peerDev := p.srcDev, epoch := p.epoch, spray := 2, pin := true, keepaliveUs := 1000,
    txSlot := 2 * i, rxSlot := 2 * i + 1 }

/-- A PROBE that no connection stands for yet, from a permitted address, makes one where one of the eight is free. -/
theorem State.probeMgt_creates {s : State} {p : Packet} {src i : Nat} (new : s.probed p src 1 0 = none)
    (free : (firstBelow 8 fun k => (s.conn? (mgtConnBase + k)).isNone) = some i) (permitted : s.mgtPrefixes.any (inPrefix p.srcIp) = true) :
    s.probeMgt p src = (s.addConn (mgtConnBase + i) (s.mgtEnd p src i)).probeAck (mgtConnBase + i) (s.mgtEnd p src i) := by
  simp only [State.probeMgt, new, free, permitted, if_true]
  rfl

/-- It is open to its peer. -/
theorem State.probeMgt_conn {s : State} {p : Packet} {src i : Nat} (new : s.probed p src 1 0 = none)
    (free : (firstBelow 8 fun k => (s.conn? (mgtConnBase + k)).isNone) = some i) (permitted : s.mgtPrefixes.any (inPrefix p.srcIp) = true) :
    ((s.probeMgt p src).conn? (mgtConnBase + i)).map (fun k => (k.state, k.svc, k.peerConn, k.peerDev, k.epoch)) =
      some (.open_, 1, src, p.srcDev, p.epoch) := by
  obtain ⟨⟨path, added⟩, -⟩ := s.addConn_leaves (mgtConnBase + i) (s.mgtEnd p src i)
  have answered := (s.addConn (mgtConnBase + i) (s.mgtEnd p src i)).sendCtl_sends (mgtConnBase + i) (s.mgtEnd p src i)
    (ext := .ctrl 2 (mgtConnBase + i) (s.mgtEnd p src i).svc (s.mgtEnd p src i).group 0) 0 0 (.inl rfl) (by simp)
  rw [State.probeMgt_creates new free permitted]
  refine (answered.conn _ (fun _ => rfl) _).trans ?_
  rw [added]
  rfl

/-- Settles O16: each row's packet goes to what takes it, on the state that judging, or the steps before an end, leave. -/
theorem bxtAnswersArrive : Obligations.BxtAnswersArrive := by
  intro s u v c k p q
  refine ⟨?readResp, ?atomicResp, ?ack, ?nak, ?grant, ?grantOne, ?close, ?closeAck, ?probe, ?probeMgt, ?probeAck⟩
  case readResp =>
    intro req r o locs h hk hr ho aligned within fresh range x got
    refine takes_settles h rfl (by simp) (by simp) (by simp) ?_
    have places := State.onReadResp_places (since := none) hk hr ho aligned within fresh range
    rw [State.takePkt_readResp h.ext, places]
    exact ⟨fun whole => if_pos whole, fun part => if_neg (by simp [got, part])⟩
  case atomicResp =>
    intro res a h ha
    exact takes_settles h rfl (by simp) (by simp) (by simp) (by rw [State.takePkt_atomicResp h.ext, State.onAtomicResp_ends ha])
  case ack =>
    intro cum sp sm ce ts h
    exact takes_settles h rfl (by simp) (by simp) (by simp) (by simp only [State.takePkt, h.ext])
  case nak =>
    intro code reason us psn epoch unk h
    refine ⟨fun terminal => nakRow_settles h (by rintro rfl; simp at terminal) (u.onNak_terminal c k q reason psn epoch terminal), ?_, ?_, ?_, ?_⟩
    · rintro rfl
      exact nakRow_settles h (by decide) rfl
    · rintro rfl
      exact nakRow_settles h (by decide) (u.onNak_held c k q reason psn epoch)
    · rintro rfl newer
      exact nakRow_settles h (by decide) (by rw [State.onNak_stale, if_pos newer])
    · rintro rfl old
      exact nakRow_settles h (by decide) (by rw [State.onNak_stale, old]; rfl)
  case grant =>
    intro mask validUs budget h st bxt
    exact takes_settles h rfl (by simp) (by simp) (by simp) (by rw [State.takePkt_grant h.ext, State.onGrant_stores st bxt])
  case grantOne =>
    intro cls validUs budget h hcls st bxt
    refine takes_settles h rfl (by simp) (by simp) (by simp) ?_
    rw [State.takePkt_grant h.ext, State.onGrant_stores st bxt, foldl_oneClass (fun (v : State) cls => v.storeGrant c cls (budget.getD cls 0) validUs) _ hcls]
    obtain ⟨stored, counted⟩ := (u.bump F.ADM_GRANT_RCVD).storeGrant_leaves c cls (budget.getD cls 0) validUs
    exact ⟨stored, counted.trans (State.rd_bump_self u _ _ _ (by decide))⟩
  case close =>
    intro svc group k' h st hk
    exact takes_settles h rfl (by simp) (by simp) (by simp) (by rw [State.takePkt_close h.ext, State.onClose_frees st hk])
  case closeAck =>
    intro svc group h st sent
    exact takes_settles h rfl (by simp) (by simp) (by simp) (by rw [State.takePkt_closeAck h.ext, State.onCloseAck_frees st sent])
  case probe =>
    rintro src svc group run admitted bxt opened sound rfl named hk ctx epoch hsvc peer dev roce
    have opens : s.Opens p (.ctrl 1 src svc group 0) q u := ⟨run, admitted, bxt, opened, sound⟩
    have reaches := State.onProbe_end opens named hk ctx
    have matched : k.Probed q src svc := ⟨epoch, hsvc, peer, dev, roce⟩
    exact ⟨fun k' st hk' => probeRow_settles opens (reaches.trans (State.probeEnd_opens matched st hk')),
      fun st => probeRow_settles opens (reaches.trans (State.probeEnd_answers matched st))⟩
  case probeMgt =>
    intro src group i run admitted bxt opened sound named plain new free permitted
    have opens : s.Opens p (.ctrl 1 src 1 group 0) q u := ⟨run, admitted, bxt, opened, sound⟩
    refine probeRow_settles opens ?_
    rw [State.onProbe_mgt opens named plain]
    exact State.probeMgt_conn new free permitted
  case probeAck =>
    rintro src svc group run admitted bxt opened sound rfl hk ctx epoch st hsvc hgroup dev peer
    have opens : s.Opens p (.ctrl 2 src svc group 0) q u := ⟨run, admitted, bxt, opened, sound⟩
    exact probeAckRow_settles opens ((State.onProbeAck_end opens hk ctx).trans (State.probeAcked_opens epoch st hsvc hgroup dev peer))

end Sys2Proof.Machine
end

section
/-!
PROOFS. The timers of a connection (R211, R213, R214, R218 to R220, R222, R227, R347): what each leaves of the end it is of.
-/

namespace Sys2Proof.Machine

/-! ### Retransmission (R213, R216) -/

@[simp] theorem timeoutWindow_retryLimit (k : Conn) (now : Nat) : (timeoutWindow k now).retryLimit = k.retryLimit := by
  unfold timeoutWindow
  split <;> rfl

@[simp] theorem timeoutWindow_peerDev (k : Conn) (now : Nat) : (timeoutWindow k now).peerDev = k.peerDev := by
  unfold timeoutWindow
  split <;> rfl

theorem State.retransmitTimer_bxt {s : State} {c psn : Nat} {k : Conn} (hk : s.conn? c = some k) (bxt : k.roce = false) :
    s.retransmitTimer c psn = (s.retransmit c psn).2.lostCmn (s.retransmit c psn).1 := by
  simp [State.retransmitTimer, hk, bxt]

theorem State.retransmitTimer_roce {s : State} {c psn : Nat} {k : Conn} (hk : s.conn? c = some k) (roce : k.roce = true) :
    s.retransmitTimer c psn = (s.roceTimeout c k).2.lostCmn (s.roceTimeout c k).1 := by
  simp [State.retransmitTimer, hk, roce]

/-- The packet x of the end k is sent and its timer runs: it waits for no delay of a NAK, and where it only asks for its message's end, nothing else of the
message is missing (R213, R534 step 6). -/
structure Conn.TimerRuns (k : Conn) (psn : Nat) (x : Sent) : Prop where
  sent : k.sent? psn = some x
  timer : x.timer = true
  waits : x.waiting = 0 ∨ x.waiting = 3
  asks : k.asksLater x = false

/-- The operation that sent a packet records its second try as the cause of its delay (R273). -/
def State.retryCause (s : State) (x : Sent) : State :=
  match x.op with
  | some id => if 1 ≤ x.tries then s.recordCause id 1 else s
  | none => s

section
variable {s : State} {c psn : Nat} {k : Conn} {x : Sent} (hk : s.conn? c = some k) (runs : k.TimerRuns psn x)
include hk runs

/-- With tries left the packet goes again, with one more of them used. -/
theorem State.retransmit_resends (left : x.tries < k.retryLimit) : s.retransmit c psn =
    ([], (((((s.setConn c (timeoutWindow k s.now)).retryCause x).setConn c
      ((timeoutWindow k s.now).modSent psn fun x => { x with tries := x.tries + 1 })).bump F.BXT_RETX).evt 2).resend c
      ((timeoutWindow k s.now).modSent psn fun x => { x with tries := x.tries + 1 }) x (x.waiting == 3)) := by
  obtain ⟨sent, timer, waits, asks⟩ := runs
  have due : ¬((!x.timer) = true ∨ x.waiting = 1 ∨ x.waiting = 2 ∨ k.asksLater x = true) := by
    rcases waits with h | h <;> simp [timer, asks, h]
  simp only [State.retransmit, hk, sent, if_neg due, timeoutWindow_retryLimit, if_pos left, State.retryCause] <;> rfl

/-- With none left the end, or where its peer is silent every end to that peer, moves to ERROR. -/
theorem State.retransmit_gives_up (spent : k.retryLimit ≤ x.tries) : s.retransmit c psn =
    if (s.setConn c (timeoutWindow k s.now)).heardSince k.peerDev x.since
      then ([c], (s.setConn c (timeoutWindow k s.now)).errorConn c Status.retryExhausted)
      else (s.setConn c (timeoutWindow k s.now)).peerLost k.peerDev := by
  obtain ⟨sent, timer, waits, asks⟩ := runs
  have due : ¬((!x.timer) = true ∨ x.waiting = 1 ∨ x.waiting = 2 ∨ k.asksLater x = true) := by
    rcases waits with h | h <;> simp [timer, asks, h]
  simp only [State.retransmit, hk, sent, if_neg due, timeoutWindow_retryLimit, if_neg (Nat.not_lt.mpr spent), timeoutWindow_peerDev]

end

/-! ### Contexts (R222, R223) -/

theorem State.showCtx_bxt (s : State) (p : Nat) : (s.showCtx p).bxt = s.bxt := by
  unfold State.showCtx
  dsimp only
  split <;> rfl

/-- A context that comes while a way of its set is free joins the resident ones. -/
theorem State.bringIn_free {s : State} {c : Nat} (away : s.bxt.resident.contains c = false)
    (room : (s.bxt.resident.filter fun r => ctxSet r == ctxSet c).length < s.ctxWays (ctxSet c)) :
    ∃ u : State, s.bringIn c = (true, u) ∧ u.bxt = { s.bxt with resident := c :: s.bxt.resident } ∧ u.mem = s.mem := by
  simp only [State.bringIn, away, Bool.false_eq_true, if_false, if_pos room]
  exact ⟨_, rfl, State.showCtx_bxt .., (State.showCtx_cached _ _).mem⟩

/-- A packet that has waited for its end's context proceeds (R222). -/
def State.takeFetched (s : State) (c : Nat) (p : Packet) : State :=
  match s.conn? c with
  | none => s
  | some k => match p.ext with
    | .ctrl 1 src svc _ _ => s.probeEnd p src svc c k
    | .ctrl 2 src svc group _ => s.probeAcked p src svc group c k
    | _ => match s.judgeOn c k p with
      | (.gone, s) => s
      | (.take c k p, s) => s.takePkt c k p

/-- One that is no CTRL is judged on the end. -/
theorem State.takeFetched_judged {s : State} {c : Nat} {k : Conn} {p : Packet} (hk : s.conn? c = some k) (noCtrl : ∀ n a b g m : Nat, p.ext ≠ .ctrl n a b g m) :
    s.takeFetched c p = match s.judgeOn c k p with
      | (.gone, w) => w
      | (.take c' k' q, w) => w.takePkt c' k' q := by
  unfold State.takeFetched
  rw [hk]
  dsimp only
  split
  next h => exact (noCtrl _ _ _ _ _ h).elim
  next h => exact (noCtrl _ _ _ _ _ h).elim
  · rfl

/-- The packets of BXT that waited for a context that may be had proceed in order, where none of RoCEv2 waited. -/
theorem State.contextCame_takes {s u : State} {c : Nat} {k : Conn} (hk : s.conn? c = some k) (came : s.bringIn c = (true, u))
    (noRoce : u.bxt.roceFetching = []) : s.contextCame c = (u.bxt.fetching.filter fun p => p.dstConn == c).foldl (fun v p => v.takeFetched c p)
      { u with bxt := { u.bxt with fetching := u.bxt.fetching.filter fun p => p.dstConn != c, roceFetching := [] } } := by
  simp only [State.contextCame, hk, came, noRoce, State.takeFetched] <;> rfl

/-- With nothing that waits for it a context that has a way free is resident then. -/
theorem State.contextCame_resident {s : State} {c : Nat} {k : Conn} (hk : s.conn? c = some k) (noBxt : s.bxt.fetching = [])
    (noRoce : s.bxt.roceFetching = []) (away : s.bxt.resident.contains c = false)
    (room : (s.bxt.resident.filter fun r => ctxSet r == ctxSet c).length < s.ctxWays (ctxSet c)) :
    (s.contextCame c).bxt.resident = c :: s.bxt.resident ∧ (s.contextCame c).bxt.conns = s.bxt.conns ∧ (s.contextCame c).mem = s.mem := by
  obtain ⟨u, came, bxt, mem⟩ := State.bringIn_free away room
  rw [State.contextCame_takes hk came (by rw [bxt]; exact noRoce), bxt]
  simp only [noBxt, List.filter_nil, List.foldl_nil, mem, and_self]

/-- One packet alone that has waited for a context is judged once that has come. -/
theorem State.contextCame_judges {s u v : State} {c : Nat} {k l : Conn} {p : Packet} (hk : s.conn? c = some k) (came : s.bringIn c = (true, u))
    (one : u.bxt.fetching = [p]) (dst : p.dstConn = c) (noRoce : u.bxt.roceFetching = [])
    (hv : v = { u with bxt := { u.bxt with fetching := [], roceFetching := [] } }) (hl : v.conn? c = some l)
    (noCtrl : ∀ n a b g m : Nat, p.ext ≠ .ctrl n a b g m) :
    s.contextCame c = match v.judgeOn c l p with
      | (.gone, w) => w
      | (.take c' k' q, w) => w.takePkt c' k' q := by
  rw [State.contextCame_takes hk came noRoce, one]
  simp only [dst, List.filter_cons, List.filter_nil, beq_self_eq_true, bne_self_eq_false, if_true, Bool.false_eq_true, if_false, List.foldl_cons, List.foldl_nil]
  rw [← hv, State.takeFetched_judged hl noCtrl]

/-- No packet waits for the context of an end any more. -/
def State.dropFetches (s : State) (c : Nat) : State :=
  { s with bxt := { s.bxt with
      fetching := s.bxt.fetching.filter fun p => p.dstConn != c
      roceFetching := s.bxt.roceFetching.filter fun p => p.qp != c } }

/-- A context that does not come in time is NOT_READY to the packets that waited for it; those of RoCEv2 are dropped. -/
theorem State.fetchTimeout_answers {s : State} {c : Nat} {k : Conn} (hk : s.conn? c = some k) :
    s.fetchTimeout c = (s.bxt.fetching.filter fun p => p.dstConn == c).foldl (fun (v : State) p => (v.bump F.CTX_FETCH_NR).sendNak c k p Nak.notReady 1 10)
      (s.dropFetches c) := by
  have still : (s.dropFetches c).conn? c = some k := hk
  simp only [State.dropFetches] at still
  simp only [State.fetchTimeout, still, State.fetchLate, State.dropFetches]

/-! ### Holds (R220, R347) -/

theorem State.remoteExpired_refuses {s : State} {i : Nat} {h : Hold} {p : Packet} (hh : s.xlt.holds[i]? = some h) (remote : h.remote = true)
    (who : h.who = .packet p) (unmarked : h.retry = none) :
    s.remoteExpired i = ((s.dropHold i).bump F.BXT_HOLD_EXPIRED).refuse p.dstConn p Nak.fault := by
  simp [State.remoteExpired, hh, remote, who, unmarked]

theorem State.remoteExpired_marked {s : State} {i : Nat} {h : Hold} (hh : s.xlt.holds[i]? = some h) (marked : h.retry ≠ none) :
    s.remoteExpired i = s := by
  simp [State.remoteExpired, hh, Option.isSome_iff_ne_none.mpr marked]

/-! ### An end is freed (R211) -/

theorem State.conn?_freeConn_self (s : State) (c : Nat) (status : Option Nat) : (s.freeConn c status).conn? c = none := by
  unfold State.freeConn
  split
  next h => exact h
  · dsimp only
    rw [(State.showCtx_cached _ _).conn?]
    exact (Tbl.get?_erase _ c c).trans (if_pos rfl)

/-! ### The delays of NAKs, and reads (R218, R219, R227) -/

theorem State.rnrOver_goes {s : State} {c : Nat} {k : Conn} {x : RoceSent} {l : List RoceSent} (hk : s.conn? c = some k) (waits : k.rnrWait = true)
    (sent : k.roceSent = x :: l) : s.rnrOver c = (s.setConn c { k with rnr := k.rnr + 1 }).goBack c x.pkt.psn false := by
  simp only [State.rnrOver, hk, waits, sent]

section
variable {s : State} {c psn : Nat} {k : Conn} {x : Sent} (hk : s.conn? c = some k) (sent : k.sent? psn = some x)
include hk sent

theorem State.nakDelayOver_notReady (waits : x.waiting = 1) : s.nakDelayOver c psn =
    let k' := k.modSent psn fun x => { x with nrTries := x.nrTries + 1, waiting := 0 }
    (s.setConn c k').resend c k' x false := by
  simp only [State.nakDelayOver, hk, sent, waits, if_true]

theorem State.nakDelayOver_held (waits : x.waiting = 2) :
    s.nakDelayOver c psn = s.setConn c (k.modSent psn fun x => { x with waiting := 0, timer := true }) := by
  simp [State.nakDelayOver, hk, sent, waits]

end

/-- The request of an open read goes again from its first missing piece, as a message of its own. -/
theorem State.readAgain_asks {s : State} {c msn : Nat} {k : Conn} {r : OpenRead} (hk : s.conn? c = some k)
    (hr : (k.reads.find? fun r => r.msn == msn) = some r) : s.readAgain c msn =
    let first := (firstBelow (ceilDiv r.len k.mtu) fun i => !r.got.contains (i * k.mtu)).getD 0 * k.mtu
    ((s.setConn c { k with
        nextForm := k.nextForm + 1, outMsgs := Tbl.set k.outMsgs k.nextForm (some r.op, 0)
        reads := k.reads.map fun x => if x.msn == msn then { x with msn := k.nextForm } else x }).modOp r.op fun o =>
      { o with msgs := o.msgs.map fun m => if m == msn then k.nextForm else m }).queuePkts c
    [{ s.mkPkt k (.readReq r.raddr r.rkey (r.len - first)) (((s.op? r.op).map (·.cls)).getD 7) 0 k.nextForm r.len first [] with retx := true }]
    (some r.op) := by
  simp only [State.readAgain, hk, hr]

/-! ### The rows -/

theorem State.sendAck_of_conn {s : State} {c : Nat} {k : Conn} (hk : s.conn? c = some k) : s.sendAck c =
    (s.setConn c { k with unacked := 0, ceCount := 0 }).sendCtl c k (.ack k.base k.base k.sackMap (min k.ceCount 65535) k.echoTs) 0 k.doneMsn := by
  simp only [State.sendAck, hk]

section
variable {s : State} {P : State → Prop} {c : Nat} {k : Conn} (hrun : s.power = .run)
include hrun

theorem retransmitTimeout_settles {psn : Nat} (p : P (s.retransmitTimer c psn)) : Settles (.retransmitTimeout c psn) s P :=
  settles_act (f := fun s => s.retransmitTimer c psn) hrun rfl p

theorem armTimeout_settles (p : P (s.armTimer c)) : Settles (.armTimeout c) s P := settles_act (f := fun s => s.armTimer c) hrun rfl p

theorem faultHoldExpiry_settles {i : Nat} (p : P (s.remoteExpired i)) : Settles (.faultHoldExpiry i) s P :=
  settles_act (f := fun s => s.remoteExpired i) hrun rfl p

theorem contextFetchDone_settles (p : P (s.contextCame c)) : Settles (.contextFetchDone c) s P := settles_act (f := fun s => s.contextCame c) hrun rfl p

theorem contextFetchTimeout_completes (p : P ((s.fetchTimeout c).requeue s.pending)) : Completes (.contextFetchTimeout c) s P :=
  completes_act (f := fun s => s.fetchTimeout c) hrun rfl p

theorem readTimeout_completes {msn : Nat} (p : P ((s.readAgain c msn).requeue s.pending)) : Completes (.readTimeout c msn) s P :=
  completes_act (f := fun s => s.readAgain c msn) hrun rfl p

variable (hk : s.conn? c = some k)
include hk

theorem nakDelayExpiry_bxt {psn : Nat} (bxt : k.roce = false) (p : P ((s.nakDelayOver c psn).requeue s.pending)) :
    Completes (.nakDelayExpiry c psn) s P := by
  refine completes_act hrun (rfl : _ = execNakDelayExpiry c psn s) ?_
  simpa [hk, bxt] using p

theorem nakDelayExpiry_roce {psn : Nat} (roce : k.roce = true) (p : P ((s.rnrOver c).requeue s.pending)) : Completes (.nakDelayExpiry c psn) s P := by
  refine completes_act hrun (rfl : _ = execNakDelayExpiry c psn s) ?_
  simpa [hk, roce] using p

theorem probeResend_completes (st : k.state = .armed) (bxt : k.roce = false) :
    Completes (.probeResend c) s fun t => t = (s.sendProbe c k).requeue s.pending := by
  refine completes_act hrun (rfl : _ = execProbeResend c s) ?_
  simp [hk, st, bxt]

theorem closeTimeout_completes (st : k.state = .closing) (sent : k.closeSent = true) : Completes (.closeTimeout c) s fun t => t.conn? c = none := by
  refine completes_act hrun (rfl : _ = execCloseTimeout c s) ?_
  simp only [hk, st, sent, and_self, if_true]
  exact s.conn?_freeConn_self c (some Status.aborted)

theorem keepaliveTimer_completes (st : k.state = .open_) (bxt : k.roce = false) (on : k.keepaliveUs ≠ 0) (svc : k.svc < 2) :
    Completes (.keepaliveTimer c) s fun t => t = (s.queuePkts c [s.mkPkt k (.ctrl 3 0 k.svc 0 0) 7 0 0 0 0 []] none).requeue s.pending := by
  refine completes_act hrun (rfl : _ = execKeepaliveTimer c s) ?_
  simp [hk, st, bxt, on, svc]

theorem ackCoalesceTimer_completes (placed : 0 < k.unacked) : Completes (.ackCoalesceTimer c) s fun t => t = (s.sendAck c).requeue s.pending := by
  refine completes_act hrun (rfl : _ = execAckCoalesceTimer c s) ?_
  simp [hk, placed]

end

/-- Settles O19: each row's own effect, and what that is in the states that the clauses name. -/
theorem connectionTimers : Obligations.ConnectionTimers := by
  intro s c k hrun hk
  refine ⟨fun psn => ⟨retransmitTimeout_settles hrun rfl, armTimeout_settles hrun rfl, faultHoldExpiry_settles hrun rfl, contextFetchDone_settles hrun rfl,
      contextFetchTimeout_completes hrun rfl, readTimeout_completes hrun rfl⟩, fun psn bxt => nakDelayExpiry_bxt hrun hk bxt rfl, ?retransmit,
    fun psn roce => retransmitTimeout_settles hrun (State.retransmitTimer_roce hk roce), fun st bxt => probeResend_completes hrun hk st bxt, ?arm,
    fun st sent => closeTimeout_completes hrun hk st sent, fun st bxt on svc => keepaliveTimer_completes hrun hk st bxt on svc, ?ack, ?hold, ?resident, ?judges,
    contextFetchTimeout_completes hrun (congrArg (State.requeue · s.pending) (State.fetchTimeout_answers hk)), ?rnr, ?notReady, ?held, ?read⟩
  case retransmit =>
    intro psn x bxt sent timer waits asks k' u v
    have runs : k.TimerRuns psn x := ⟨sent, timer, waits, asks⟩
    refine ⟨fun left => retransmitTimeout_settles hrun ?_, fun spent heard => retransmitTimeout_settles hrun ?_,
      fun spent silent => retransmitTimeout_settles hrun ?_⟩
    · rw [State.retransmitTimer_bxt hk bxt, State.retransmit_resends hk runs left]
      rfl
    · rw [State.retransmitTimer_bxt hk bxt, State.retransmit_gives_up hk runs spent, if_pos heard]
    · rw [State.retransmitTimer_bxt hk bxt, State.retransmit_gives_up hk runs spent, if_neg (by simp [u, silent])]
  case arm =>
    intro st
    exact armTimeout_settles hrun (by simp only [State.armTimer, hk, st, if_true])
  case ack =>
    intro placed
    rw [← State.sendAck_of_conn hk]
    exact ackCoalesceTimer_completes hrun hk placed
  case hold =>
    intro i h p hh remote who
    exact ⟨fun unmarked => faultHoldExpiry_settles hrun (State.remoteExpired_refuses hh remote who unmarked),
      fun marked => faultHoldExpiry_settles hrun (State.remoteExpired_marked hh marked)⟩
  case resident =>
    intro noBxt noRoce away room
    exact contextFetchDone_settles hrun (State.contextCame_resident hk noBxt noRoce away room)
  case judges =>
    intro u v p came one dst noRoce hv hl noCtrl
    exact contextFetchDone_settles hrun (State.contextCame_judges hk came one dst noRoce hv hl noCtrl)
  case rnr =>
    intro psn x l roce waits sent
    exact nakDelayExpiry_roce hrun hk roce (by rw [State.rnrOver_goes hk waits sent])
  case notReady =>
    intro psn x bxt sent waits
    exact nakDelayExpiry_bxt hrun hk bxt (by rw [State.nakDelayOver_notReady hk sent waits])
  case held =>
    intro psn x bxt sent waits
    exact nakDelayExpiry_bxt hrun hk bxt (by rw [State.nakDelayOver_held hk sent waits])
  case read =>
    intro msn r hr
    exact readTimeout_completes hrun (by rw [State.readAgain_asks hk hr])

end Sys2Proof.Machine
end

section
/-!
PROOFS. RoCEv2 packets (R222, R227, R464): what takes each, on an end whose context is at hand.
-/

namespace Sys2Proof.Machine

/-! ### Up to the end (R222, R464) -/

theorem rocePacket_settles {s : State} {P : State → Prop} {p : RocePacket} (hrun : s.power = .run) (inUse : s.rd F.RST_STATUS_retired = 0)
    (hp : P (s.rxRoce p)) : Settles (.rocePacket p) s P := by
  refine ⟨_, (rfl : _ = execRocePacket p s).trans (act_run hrun _), s.rxRoce p, ?_, hp⟩
  simp [inUse]

theorem State.rxRoce_unknown {s : State} {p : RocePacket} (unknown : (s.conn? p.qp).any (·.roce) = false) : s.rxRoce p = s.bump F.BXT_INVALID := by
  simp only [State.rxRoce, unknown, Bool.false_eq_true, if_false]

theorem State.rxRoce_waits {s u : State} {p : RocePacket} (known : (s.conn? p.qp).any (·.roce) = true) (ctx : s.needRoceCtx p = (false, u)) :
    s.rxRoce p = u := by
  simp only [State.rxRoce, known, if_true, ctx]

theorem State.rxRoce_taken {s u : State} {p : RocePacket} (known : (s.conn? p.qp).any (·.roce) = true) (ctx : s.needRoceCtx p = (true, u)) :
    s.rxRoce p = u.takeRoce p := by
  simp only [State.rxRoce, known, if_true, ctx]

/-! ### What an end takes (R227) -/

/-- What a sound packet finds: a congestion mark has been answered, and the peer is heard from. -/
def State.roceHeard (s : State) (p : RocePacket) (k : Conn) : State :=
  (if p.ce then (s.bump F.BXT_CE_RCVD).sendCnp p.qp k else s).hear k.peerDev

/-- Whether a packet asks something of the responder. -/
def asksMemory : RoceOp → Bool
  | .send .. => true
  | .write .. => true
  | .readReq .. => true
  | _ => false

/-- What the responder makes of a request (R227): it is put behind a READ that waits for host data; one of the past is a READ again, or acknowledged
again; one ahead of its turn is answered once; one in order acts. -/
def State.takeRoceReq (s : State) (p : RocePacket) (k : Conn) : State :=
  if s.hpt.reads.any fun r => waitsFor p.qp r.who then
    s.modConn p.qp fun k => { k with roceRx := { k.roceRx with behind := k.roceRx.behind ++ [p] } }
  else if serialOlder 24 p.psn k.base then
    match p.op with
    | .readReq ra rk n => s.roceRead p.qp k p ra rk n
    | _ => s.sendRoceAck p.qp k ((k.base + 2 ^ 24 - 1) % 2 ^ 24) synAck
  else if p.psn ≠ k.base then
    if k.seqNak then s else (s.modConn p.qp fun k => { k with seqNak := true }).sendRoceAck p.qp k k.base synSeq
  else match p.op with
    | .write f l ra rk n => s.roceWrite p.qp k p f l ra rk n
    | .send f l => s.roceSend p.qp k p f l
    | .readReq ra rk n => s.roceRead p.qp k p ra rk n
    | _ => s

/-- An end of RoCEv2 takes the packet p: it is sound, and the end is not in ERROR. -/
structure State.RoceSound (s : State) (p : RocePacket) (k : Conn) : Prop where
  conn : s.conn? p.qp = some k
  roce : k.roce = true
  icrc : p.icrcOk = true
  pkey : p.pkey = 0xFFFF
  state : k.state ≠ .error

section
variable {s : State} {p : RocePacket} {k : Conn}

theorem State.takeRoce_unsound (hk : s.conn? p.qp = some k) (bad : p.icrcOk = false ∨ p.pkey ≠ 0xFFFF ∨ p.op = .other ∨ k.state = .error) :
    s.takeRoce p = s.bump F.BXT_INVALID := by
  have counted : (!k.roce) = true ∨ (!p.icrcOk) = true ∨ p.pkey ≠ 0xFFFF ∨ p.op = .other ∨ k.state = .error :=
    .inr (bad.imp (by simp +contextual) id)
  simp only [State.takeRoce, hk, if_pos counted]

/-- A sound packet of a known operation meets no check. -/
theorem State.RoceSound.passes (h : s.RoceSound p k) (known : p.op ≠ .other) :
    ¬((!k.roce) = true ∨ (!p.icrcOk) = true ∨ p.pkey ≠ 0xFFFF ∨ p.op = .other ∨ k.state = .error) := by
  simp [h.roce, h.icrc, h.pkey, h.state, known]

variable (h : s.RoceSound p k)
include h

theorem State.takeRoce_ack {syn msn : Nat} (op : p.op = .ack syn msn) : s.takeRoce p = (s.roceHeard p k).onRoceAck p.qp k p.psn syn := by
  have passes := h.passes (by simp [op])
  simp only [State.takeRoce, h.conn]
  rw [if_neg passes, op] <;> rfl

theorem State.takeRoce_cnp (op : p.op = .cnp) : s.takeRoce p = (s.roceHeard p k).onCnp p.qp k := by
  have passes := h.passes (by simp [op])
  simp only [State.takeRoce, h.conn]
  rw [if_neg passes, op] <;> rfl

theorem State.takeRoce_readResp {f l : Bool} (op : p.op = .readResp f l) : s.takeRoce p = (s.roceHeard p k).onRoceResp p.qp k p := by
  have passes := h.passes (by simp [op])
  simp only [State.takeRoce, h.conn]
  rw [if_neg passes, op] <;> rfl

theorem State.takeRoce_request (asks : asksMemory p.op = true) : s.takeRoce p = (s.roceHeard p k).takeRoceReq p k := by
  have passes := h.passes (by rintro op; simp [op, asksMemory] at asks)
  simp only [State.takeRoce, h.conn]
  rw [if_neg passes]
  unfold State.takeRoceReq State.roceHeard
  cases op : p.op <;> simp only [op, asksMemory, Bool.false_eq_true] at asks ⊢

end

section
variable {s : State} {p : RocePacket} {k : Conn}

theorem State.takeRoceReq_waits (busy : (s.hpt.reads.any fun r => waitsFor p.qp r.who) = true) : s.takeRoceReq p k =
    s.modConn p.qp fun k => { k with roceRx := { k.roceRx with behind := k.roceRx.behind ++ [p] } } := by
  simp only [State.takeRoceReq, busy, if_true]

variable (clear : (s.hpt.reads.any fun r => waitsFor p.qp r.who) = false)
include clear

theorem State.takeRoceReq_write {f l : Bool} {ra rk n : Nat} (op : p.op = .write f l ra rk n) (inTurn : p.psn = k.base)
    (young : serialOlder 24 p.psn k.base = false) : s.takeRoceReq p k = s.roceWrite p.qp k p f l ra rk n := by
  rw [inTurn] at young
  simp only [State.takeRoceReq, clear, op, inTurn, young, Bool.false_eq_true, ne_eq, not_true_eq_false, if_false]

theorem State.takeRoceReq_send {f l : Bool} (op : p.op = .send f l) (inTurn : p.psn = k.base) (young : serialOlder 24 p.psn k.base = false) :
    s.takeRoceReq p k = s.roceSend p.qp k p f l := by
  rw [inTurn] at young
  simp only [State.takeRoceReq, clear, op, inTurn, young, Bool.false_eq_true, ne_eq, not_true_eq_false, if_false]

/-- A READ in its turn is served, and one of the past again. -/
theorem State.takeRoceReq_read {ra rk n : Nat} (op : p.op = .readReq ra rk n) (due : p.psn = k.base ∨ serialOlder 24 p.psn k.base = true) :
    s.takeRoceReq p k = s.roceRead p.qp k p ra rk n := by
  simp only [State.takeRoceReq, clear, op, Bool.false_eq_true, if_false]
  by_cases old : serialOlder 24 p.psn k.base = true
  · rw [if_pos old]
  · rw [if_neg old, if_neg (not_not.mpr (due.resolve_right old))]

theorem State.takeRoceReq_again {f l : Bool} (op : p.op = .send f l) (old : serialOlder 24 p.psn k.base = true) :
    s.takeRoceReq p k = s.sendRoceAck p.qp k ((k.base + 2 ^ 24 - 1) % 2 ^ 24) synAck := by
  simp only [State.takeRoceReq, clear, op, old, Bool.false_eq_true, if_false, if_true]

theorem State.takeRoceReq_ahead (young : serialOlder 24 p.psn k.base = false) (ahead : p.psn ≠ k.base) (first : k.seqNak = false) :
    s.takeRoceReq p k = (s.modConn p.qp fun k => { k with seqNak := true }).sendRoceAck p.qp k k.base synSeq := by
  simp only [State.takeRoceReq, clear, young, first, ahead, ne_eq, not_false_eq_true, Bool.false_eq_true, if_false, if_true]

end

/-- Settles O18: up to the end each refusal; then, of a sound packet, what answers a request of this device, and the responder's order of requests. -/
theorem rocePackets : Obligations.RocePackets := by
  intro s p hrun
  refine ⟨?retired, fun inUse unknown => rocePacket_settles hrun inUse (State.rxRoce_unknown unknown),
    fun u inUse known waits => rocePacket_settles hrun inUse (State.rxRoce_waits known waits), ?taken⟩
  case retired =>
    intro retired
    refine completes_act hrun (rfl : _ = execRocePacket p s) ?_
    rw [if_pos retired]
    rfl
  case taken =>
    intro u k inUse known ctx hk roce v sound clear inOrder
    have takes : ∀ {P : State → Prop}, P (u.takeRoce p) → Settles (.rocePacket p) s P :=
      fun hp => rocePacket_settles hrun inUse (State.rxRoce_taken known ctx ▸ hp)
    have passes : sound → u.RoceSound p k := fun ⟨icrc, pkey, st⟩ => ⟨hk, roce, icrc, pkey, st⟩
    have requests : ∀ {P : State → Prop}, sound → asksMemory p.op = true → P (v.takeRoceReq p k) → Settles (.rocePacket p) s P :=
      fun good asks hp => takes (State.takeRoce_request (passes good) asks ▸ hp)
    refine ⟨fun bad => takes (State.takeRoce_unsound hk bad), fun syn msn good op => takes (State.takeRoce_ack (passes good) op),
      fun good op => takes (State.takeRoce_cnp (passes good) op), fun f l good op => takes (State.takeRoce_readResp (passes good) op),
      ?write, ?send, ?read, ?behind, ?again, ?ahead⟩
    case write =>
      rintro f l ra rk n good ⟨free, inTurn, young⟩ op
      exact requests good (by rw [op]; rfl) (State.takeRoceReq_write free op inTurn young)
    case send =>
      rintro f l good ⟨free, inTurn, young⟩ op
      exact requests good (by rw [op]; rfl) (State.takeRoceReq_send free op inTurn young)
    case read =>
      intro ra rk n good free op due
      exact requests good (by rw [op]; rfl) (State.takeRoceReq_read free op due)
    case behind =>
      intro f l good busy op
      exact requests good (by rw [op]; rfl) (State.takeRoceReq_waits (Bool.not_eq_false _ ▸ busy))
    case again =>
      intro f l good free op old
      exact requests good (by rw [op]; rfl) (State.takeRoceReq_again free op old)
    case ahead =>
      intro f l good free op young ahead first
      exact requests good (by rw [op]; rfl) (State.takeRoceReq_ahead free young ahead first)

end Sys2Proof.Machine
end

section
/-!
PROOFS. The work entries that move data (R216, R238 to R241, R251, R270): each up to where the gatekeeper judges it, and where it starts.
-/

namespace Sys2Proof.Machine

/-! ### The row of an entry -/

section
variable {s u : State} {key count n : Nat} {e : Fetched} (entry : s.Entry key count n e u)
include entry

theorem State.Entry.run : s.power = .run := by
  obtain ⟨run, -⟩ := entry
  exact run

theorem State.Entry.waits : s.fetched? key count n = some e := by
  obtain ⟨-, waits, -⟩ := entry
  exact waits

theorem State.Entry.unfetched : u = s.unfetch e := by
  obtain ⟨-, -, -, taken, -⟩ := entry
  exact taken

theorem State.Entry.key_eq : e.key = key := State.key_of_fetched? entry.waits

end

/-- The row of an opcode does with its entry what the opcode does. -/
theorem entryRow_completes {row : Instr} {s u : State} {key count n : Nat} {e : Fetched} {P : State → Prop} {f : State → Fetched → DescHdr → State}
    (entry : s.Entry key count n e u) (hrow : exec row s = onEntry key count n s f) (hp : P ((f u e (descHdr e.desc)).requeue s.pending)) :
    Completes row s P := by
  exact completes_act (f := fun s => s.runEntry key count n f) entry.run hrow (by rwa [State.runEntry_runs entry])

/-! ### Connection operations (R211, R237, R261, R270, R288) -/

/-- The entry e may go to the gatekeeper: its class carries its size, its tag and its connection k are those of its ring's owner, the end takes work, and its largest
frame is one that the route's ports carry. -/
structure State.ConnWork (s : State) (e : Fetched) (needsTag : Bool) (moved : Nat) (k : Conn) : Prop where
  size : (descHdr e.desc).cls ≠ 0 ∨ moved ≤ 192
  tag : s.tenantOk (ringVf e.key) (descHdr e.desc) needsTag = true
  own : s.ownConn (ringVf e.key) (descHdr e.desc).target = some k
  state : k.state = .open_ ∨ k.state = .armed
  frame : s.frameFits k.peerDev k.largestFrame = true

/-- The gatekeeper's judgement of a connection operation. -/
def State.gateConn (s : State) (e : Fetched) (charge : Charge) : Except Nat Admitted × State :=
  s.gateIn (ringVf e.key) (s.rd F.PTN_INST_partition (ringVf e.key)) (descHdr e.desc).cls charge

section
variable {s v : State} {e : Fetched} {needsTag : Bool} {moved length : Nat} {k : Conn} {charge : State → Nat → Nat → Conn → Charge}
  (work : s.ConnWork e needsTag moved k)
include work

/-- The gatekeeper's answer decides: what it refuses ends with its status, what it admits starts as a running operation. -/
theorem State.admitConn_gated : s.admitConn e (descHdr e.desc) needsTag moved length charge =
    match s.gateConn e (charge s (ringVf e.key) (s.rd F.PTN_INST_partition (ringVf e.key)) k) with
    | (.error st, v) => v.endEntry e st 0
    | (.ok a, v) => (v.newOp e a .running length).2.startOp (v.newOp e a .running length).1 false := by
  obtain ⟨size, tag, own, state, frame⟩ := work
  have fits : ¬((descHdr e.desc).cls = 0 ∧ 192 < moved) := by omega
  have noError : k.state ≠ .error := by rcases state with h | h <;> simp [h]
  have noClosing : k.state ≠ .closing := by rcases state with h | h <;> simp [h]
  simp only [State.admitConn, if_neg fits, tag, own, if_neg noError, if_neg noClosing, frame, Bool.not_true, Bool.false_eq_true, if_false,
    State.gateConn] <;> rfl

theorem State.admitConn_starts {a : Admitted}
    (gate : s.gateConn e (charge s (ringVf e.key) (s.rd F.PTN_INST_partition (ringVf e.key)) k) = (.ok a, v)) :
    s.admitConn e (descHdr e.desc) needsTag moved length charge =
      (v.newOp e a .running length).2.startOp (v.newOp e a .running length).1 false := by
  rw [State.admitConn_gated work, gate]

theorem State.admitConn_refused {st : Nat}
    (gate : s.gateConn e (charge s (ringVf e.key) (s.rd F.PTN_INST_partition (ringVf e.key)) k) = (.error st, v)) :
    s.admitConn e (descHdr e.desc) needsTag moved length charge = v.endEntry e st 0 := by
  rw [State.admitConn_gated work, gate]

end

/-! ### ATOMIC (R217) -/

/-- An aligned ATOMIC of a known operation, on a connection of BXT with fewer than 16 atomics open, asks for admission. -/
theorem execAtomic_asks {s u : State} {key count : Nat} {e : Fetched} {k : Conn} {P : State → Prop} (entry : s.Entry key count 5 e u)
    (aligned : fieldLE e.desc 16 8 % 8 = 0) (known : fieldLE e.desc 28 1 ≤ 2) (hk : s.conn? (descHdr e.desc).target = some k) (bxt : k.roce = false)
    (few : k.openAtomics.length < 16)
    (hp : P ((u.admitConn e (descHdr e.desc) false 8 8 fun s _ _ k => s.connCharge (descHdr e.desc).target k (descHdr e.desc).cls 64 (some 64) 64 []).requeue
      s.pending)) : Completes (.atomic key count) s P := by
  have still : u.conn? (descHdr e.desc).target = some k := entry.unfetched ▸ hk
  have good : ¬(fieldLE e.desc 16 8 % 8 ≠ 0 ∨ 2 < fieldLE e.desc 28 1 ∨ (u.conn? (descHdr e.desc).target).any (·.roce) = true) := by
    simp [aligned, known, still, bxt]
  refine completes_act entry.run (rfl : _ = execAtomic key count s) ?_
  simp only [entry.waits, hk, Option.any_some, Nat.not_le.mpr few, decide_false, Bool.false_eq_true, if_false, State.runEntry_runs entry, if_neg good]
  exact hp

/-! ### RECV and COPY (R239, R241, R534) -/

/-- The buffer of a RECV stands under the ring's next SSN. -/
def State.recvPosted (s : State) (e : Fetched) (r : Ring) : Nat × State :=
  let op := s.newOp e .free .running (fieldLE e.desc 24 4)
  (op.1, op.2.modRing e.key fun r' => { r' with recvs := Tbl.set r'.recvs r.nextSsn op.1, nextSsn := (r.nextSsn + 1) % 2 ^ 32 })

/-- A RECV of a ring that its connection receives by is posted; a message that was refused before its entry came takes it at once. -/
theorem State.postRecv_posts {s : State} {e : Fetched} {k : Conn} {r : Ring} (size : fieldLE e.desc 24 4 ≤ 2 ^ 30)
    (tag : s.tenantOk (ringVf e.key) (descHdr e.desc) true = true) (own : s.ownConn (ringVf e.key) (descHdr e.desc).target = some k)
    (hr : s.ring? e.key = some r) (receives : k.recvKey = some e.key) (state : k.state = .open_ ∨ k.state = .armed) :
    s.postRecv e (descHdr e.desc) =
      match k.msgs.find? fun (m : OpenMsg) => m.isSend && m.refused.isSome && m.ssn == r.nextSsn && m.recvOp.isNone with
      | some m => (((s.recvPosted e r).2.takeRecv k r.nextSsn).2).endRecv (s.recvPosted e r).1 Status.lengthExceeded m.len m.imm r.nextSsn
      | none => (s.recvPosted e r).2 := by
  have noError : k.state ≠ .error := by rcases state with h | h <;> simp [h]
  have noClosing : k.state ≠ .closing := by rcases state with h | h <;> simp [h]
  simp only [State.postRecv, if_neg (Nat.not_lt.mpr size), tag, own, hr, receives, if_neg noError, if_neg noClosing, Bool.not_true, Bool.false_eq_true,
    if_false, ne_eq, not_true_eq_false, State.recvPosted] <;> rfl

/-- The charge of a COPY: the links of what it reads and of what it writes. -/
def State.copyCharge (s : State) (e : Fetched) : Charge :=
  let b := copyBody e.desc
  let part := s.rd F.PTN_INST_partition (ringVf e.key)
  { Charge.none with links := mergeLinks ((b.ins.map fun q => s.linkCharge (ringVf e.key) part (descHdr e.desc).tag q.1 q.2 1).flatten ++
      (b.outs.map fun q => s.linkCharge (ringVf e.key) part (descHdr e.desc).tag q.1 q.2 0).flatten) }

/-- A good COPY that the gatekeeper admits starts. -/
theorem State.copyEntry_starts {s v : State} {e : Fetched} {a : Admitted} (tag : s.tenantOk (ringVf e.key) (descHdr e.desc) true = true)
    (good : (copyBody e.desc).bad = false)
    (size : (descHdr e.desc).cls ≠ 0 ∨ max (sumNat ((copyBody e.desc).ins.map Prod.snd)) (sumNat ((copyBody e.desc).outs.map Prod.snd)) ≤ 192)
    (gate : s.gateConn e (s.copyCharge e) = (.ok a, v)) : s.copyEntry e (descHdr e.desc) =
      (v.newOp e a .running (copyBody e.desc).count).2.startCopy (v.newOp e a .running (copyBody e.desc).count).1 false := by
  have fits : ¬((copyBody e.desc).bad = true ∨ ((descHdr e.desc).cls = 0 ∧
      192 < max (sumNat ((copyBody e.desc).ins.map Prod.snd)) (sumNat ((copyBody e.desc).outs.map Prod.snd)))) := by
    rw [good]
    simp only [Bool.false_eq_true, false_or]
    omega
  unfold State.gateConn State.copyCharge at gate
  simp only [State.copyEntry, tag, if_neg fits, gate, Bool.not_true, Bool.false_eq_true, if_false]

/-- Settles O22: each entry up to the gatekeeper, whose answer decides; a NOP and a RECV ask it nothing. -/
theorem workEntriesThatMoveData : Obligations.WorkEntriesThatMoveData := by
  intro s u key count e h vf part n
  refine ⟨?nop, ?write, ?read, ?send, ?atomic, ?refused, ?recv, ?copy⟩
  case nop =>
    intro entry may
    have ok : ¬(key ≠ ctlKey ∧ (!u.tenantOk (ringVf key) (descHdr e.desc) false) = true) := by
      rintro ⟨tenant, bad⟩
      exact absurd (may.resolve_left tenant) (by simpa using bad)
    exact entryRow_completes entry rfl (by rw [if_neg ok])
  case write =>
    intro k a v entry size tag own state frame gate
    obtain rfl := entry.key_eq
    exact entryRow_completes entry rfl (congrArg (State.requeue · s.pending) (State.admitConn_starts ⟨size, tag, own, state, frame⟩ gate))
  case read =>
    intro k a v entry size tag own state frame gate
    obtain rfl := entry.key_eq
    exact entryRow_completes entry rfl (congrArg (State.requeue · s.pending) (State.admitConn_starts ⟨size, tag, own, state, frame⟩ gate))
  case send =>
    intro k a v entry short size tag own state frame gate
    obtain rfl := entry.key_eq
    refine entryRow_completes entry rfl (congrArg (State.requeue · s.pending) ((if_neg (Nat.not_lt.mpr short)).trans ?_))
    exact State.admitConn_starts ⟨size, tag, own, state, frame⟩ gate
  case atomic =>
    intro k a v entry aligned known hk bxt few tag hvf svc state frame gate
    obtain rfl := entry.key_eq
    have still : u.conn? h.target = some k := entry.unfetched ▸ hk
    have own : u.ownConn vf h.target = some k := by simp only [State.ownConn, still, hvf, svc, and_self, if_true]
    exact execAtomic_asks entry aligned known hk bxt few
      (congrArg (State.requeue · s.pending) (State.admitConn_starts ⟨.inr (by decide), tag, own, state, frame⟩ gate))
  case refused =>
    intro k st v entry size tag own state frame gate
    obtain rfl := entry.key_eq
    exact entryRow_completes entry rfl (congrArg (State.requeue · s.pending) (State.admitConn_refused ⟨size, tag, own, state, frame⟩ gate))
  case recv =>
    intro k r entry size tag own hr receives state op v
    obtain rfl := entry.key_eq
    exact entryRow_completes entry rfl (congrArg (State.requeue · s.pending) (State.postRecv_posts size tag own hr receives state))
  case copy =>
    intro a v entry tag good size gate
    obtain rfl := entry.key_eq
    exact entryRow_completes entry rfl (congrArg (State.requeue · s.pending) (State.copyEntry_starts tag good size gate))

end Sys2Proof.Machine
end

section
/-!
PROOFS. The connection entries (R211, R227, R245): what creating, changing and closing an end leaves.
-/

namespace Sys2Proof.Machine

/-! ### CONN_CREATE -/

/-- The receive ring that an end names begins again from SSN 0 (R245). -/
def State.restartRecvs (s : State) (k : Conn) : State :=
  match k.recvKey with
  | some r => s.modRing r fun g => { g with recvs := [], nextSsn := 0 }
  | none => s

/-- What a new end of c sends: its PROBE, or, where it is of RoCEv2 and open at once, nothing; it chooses its port then (R211, R227). -/
def State.greet (s : State) (c : Nat) (roce : Bool) : State :=
  match s.conn? c with
  | some k => if roce then s.settlePort c else s.sendProbe c k
  | none => s

/-- The end that CONN_CREATE makes of its body. -/
def State.createdConn (s : State) (e : Fetched) : Conn :=
  let b := connBody e.desc
  let vf := ringVf e.key
  let k := s.applyBody (s.newConn vf (s.rd F.PTN_INST_partition vf) 0 (1024 * 2 ^ b.mtuCode)) b
  { k with state := if b.roce then .open_ else .armed, cwnd := clampCwnd k.mtu (s.rd F.BXT_CC_cwnd_init_kib * 1024) }

/-- The entry e may create the end that it names: its body is in range, what that names is its ring's owner's, the identifier is free and a tenant's, and the
context may be backed and pinned as it asks. -/
structure State.MayCreate (s : State) (e : Fetched) : Prop where
  tag : s.tenantOk (ringVf e.key) (descHdr e.desc) false = true
  range : (connBody e.desc).inRange (s.rd F.BXT_CFG_roce_enable == 1) = true
  owned : s.bodyOwned (ringVf e.key) (descHdr e.desc).target (connBody e.desc) = true
  free : s.conn? (descHdr e.desc).target = none
  named : (descHdr e.desc).target ≠ 0
  tenant : mgtConnId (descHdr e.desc).target = false
  backed : s.mayBack (ringVf e.key) (s.rd F.PTN_INST_partition (ringVf e.key)) = true
  pinned : (connBody e.desc).pin = false ∨ s.mayPin (ringVf e.key) (s.rd F.PTN_INST_partition (ringVf e.key)) (descHdr e.desc).target = true

theorem State.connCreate_creates {s : State} {e : Fetched} (may : s.MayCreate e) : s.connCreate e (descHdr e.desc) =
    (((s.addConn (descHdr e.desc).target (s.createdConn e)).restartRecvs (s.createdConn e)).greet (descHdr e.desc).target
      (connBody e.desc).roce).endEntry e Status.ok 0 (leBytes 2 (connBody e.desc).epoch) := by
  obtain ⟨tag, range, owned, free, named, tenant, backed, pinned⟩ := may
  have room : ¬((!s.mayBack (ringVf e.key) (s.rd F.PTN_INST_partition (ringVf e.key))) = true ∨ ((connBody e.desc).pin = true ∧
      (!s.mayPin (ringVf e.key) (s.rd F.PTN_INST_partition (ringVf e.key)) (descHdr e.desc).target) = true)) := by
    rcases pinned with h | h <;> simp [backed, h]
  simp only [State.connCreate, tag, range, owned, free, named, tenant, if_neg room, Bool.not_true, Bool.false_eq_true, Option.isSome_none, or_self, if_false]
  rfl

theorem State.restartRecvs_leaves (s : State) (k : Conn) :
    (s.restartRecvs k).bxt = s.bxt ∧ (s.restartRecvs k).mem = s.mem ∧ (s.restartRecvs k).inj = s.inj := by
  unfold State.restartRecvs
  split
  · unfold State.modRing
    split <;> exact ⟨rfl, rfl, rfl⟩
  · exact ⟨rfl, rfl, rfl⟩

theorem State.sendProbe_sends {s : State} (c : Nat) (k : Conn) (clear : s.inj = none) : Sends s (s.sendProbe c k) := by
  unfold State.sendProbe
  dsimp only
  split
  · exact State.sendPkt_sends s c k none (.inr clear) (by simp [State.mkPkt])
  · exact State.sendPkt_sends s c k none (.inr clear) (by simp [State.mkPkt])

theorem State.greet_sends {s : State} (c : Nat) (roce : Bool) (clear : s.inj = none) : Sends s (s.greet c roce) := by
  unfold State.greet
  split
  · split
    · exact s.settlePort_sends c
    · exact State.sendProbe_sends c _ clear
  · exact Sends.refl s

/-- The end then stands as its body has it. -/
theorem State.created_stands {s : State} {e : Fetched} (clear : s.inj = none) :
    let c := (descHdr e.desc).target
    let b := connBody e.desc
    let v := ((s.addConn c (s.createdConn e)).restartRecvs (s.createdConn e)).greet c b.roce
    (v.conn? c).map (fun k => (k.state, k.svc, k.vf, k.epoch)) = some (if b.roce then .open_ else .armed, 0, ringVf e.key, b.epoch) ∧ v.mem = s.mem := by
  intro c b v
  obtain ⟨⟨path, added⟩, mem, inj⟩ := s.addConn_leaves c (s.createdConn e)
  obtain ⟨bxt, mem', inj'⟩ := (s.addConn c (s.createdConn e)).restartRecvs_leaves (s.createdConn e)
  have sends := State.greet_sends c b.roce (inj'.trans (inj.trans clear))
  refine ⟨(sends.conn _ (fun _ => rfl) c).trans ?_, sends.mem.trans (mem'.trans mem)⟩
  rw [State.conn?_of_bxt (congrArg (·.conns) bxt), added]
  rfl

/-! ### CONN_MODIFY and CONN_CLOSE -/

theorem State.connModify_applies {s : State} {e : Fetched} {k : Conn} (tag : s.tenantOk (ringVf e.key) (descHdr e.desc) false = true)
    (range : (connBody e.desc).inRange (s.rd F.BXT_CFG_roce_enable == 1) = true) (tenant : mgtConnId (descHdr e.desc).target = false)
    (own : s.ownConn (ringVf e.key) (descHdr e.desc).target = some k)
    (owned : s.bodyOwned (ringVf e.key) (descHdr e.desc).target (connBody e.desc) = true)
    (pinned : (connBody e.desc).pin = false ∨ k.pin = true ∨
      s.mayPin (ringVf e.key) (s.rd F.PTN_INST_partition (ringVf e.key)) (descHdr e.desc).target = true) :
    let c := (descHdr e.desc).target
    let b := connBody e.desc
    let v := s.setConn c { s.applyBody k b with epoch := k.epoch }
    s.connModify e (descHdr e.desc) = ((if b.epoch ≠ k.epoch then v.modifyEpoch c b.epoch else v).showCtx
      (s.rd F.PTN_INST_partition (ringVf e.key))).endEntry e Status.ok 0 (leBytes 2 b.epoch) := by
  have room : ¬((connBody e.desc).pin = true ∧ (!k.pin) = true ∧
      (!s.mayPin (ringVf e.key) (s.rd F.PTN_INST_partition (ringVf e.key)) (descHdr e.desc).target) = true) := by
    rcases pinned with h | h | h <;> simp [h]
  simp only [State.connModify, tag, range, tenant, own, owned, if_neg room, Bool.not_true, Bool.false_eq_true, if_false]

/-- What CONN_CLOSE does with an end by its state (R211). -/
def State.closeConn (s : State) (c : Nat) (k : Conn) : State :=
  match k.state with
  | .open_ => (s.setConn c { k with state := .closing }).tryClose c
  | .closing => s
  | .armed => s.freeConn c (some Status.aborted)
  | .error => s.freeConn c (some k.errStatus)

theorem State.connClose_closes {s : State} {e : Fetched} {k : Conn} (tag : s.tenantOk (ringVf e.key) (descHdr e.desc) false = true)
    (own : s.ownConn (ringVf e.key) (descHdr e.desc).target = some k) :
    s.connClose e (descHdr e.desc) = (s.closeConn (descHdr e.desc).target k).endEntry e Status.ok 0 := by
  simp only [State.connClose, tag, own, Bool.not_true, Bool.false_eq_true, if_false]
  rfl

/-- Settles O24: each entry's own effect; of a new end, what the first packet it sends leaves. -/
theorem connectionEntries : Obligations.ConnectionEntries := by
  intro s u key count e h c b vf part tag
  refine ⟨?create, ?modify, ?close⟩
  case create =>
    intro entry range owned free named tenant backed pinned clear
    have creates := State.connCreate_creates ⟨tag, range, owned, free, named, tenant, backed, pinned⟩
    obtain ⟨stands, mem⟩ := State.created_stands (e := e) clear
    refine entryRow_completes entry rfl ⟨_, congrArg (State.requeue · s.pending) creates, stands, ?_⟩
    rw [mem, entry.unfetched]
    rfl
  case modify =>
    intro k entry range tenant own owned pinned v
    exact entryRow_completes entry rfl (congrArg (State.requeue · s.pending) (State.connModify_applies tag range tenant own owned pinned))
  case close =>
    intro k entry own
    have closes : ∀ {t : State}, u.closeConn c k = t → Completes (.connClose key count) s fun z => z = (t.endEntry e Status.ok 0).requeue s.pending := by
      rintro _ rfl
      exact entryRow_completes entry rfl (congrArg (State.requeue · s.pending) (State.connClose_closes tag own))
    exact ⟨fun st => closes (by rw [State.closeConn, st]), fun st => closes (by rw [State.closeConn, st]),
      fun st => closes (by rw [State.closeConn, st]), fun st => closes (by rw [State.closeConn, st])⟩

end Sys2Proof.Machine
end

section
/-!
PROOFS. Doorbells and pushes (R233, R234, R236, R247, R255, R259): the table of rings, the row of a window that answers, and what each access does to its
ring.
-/

namespace Sys2Proof.Machine

/-! ### The table of rings -/

theorem State.ring?_setRing_self (s : State) (key : Nat) (r : Ring) : (s.setRing key r).ring? key = some r := by
  simp [State.ring?, State.setRing, Tbl.get?_set_self]

theorem State.ring?_setRing_ne {s : State} {p q : Nat} (r : Ring) (h : p ≠ q) : (s.setRing q r).ring? p = s.ring? p := by
  simp only [State.ring?, State.setRing, Tbl.get?_set_ne _ _ _ _ h]

/-- No ring of a tenant is the manager's. -/
theorem instRing_ne_ctlKey {vf ring : Nat} (hvf : vf < 1024) (hring : ring < 4096) : vf * 4096 + ring ≠ ctlKey := by
  simp only [ctlKey]
  omega

theorem ringVf_instRing {ring : Nat} (vf : Nat) (hring : ring < 4096) : ringVf (vf * 4096 + ring) = vf := by
  unfold ringVf
  omega

@[simp] theorem State.touchSession_ring? (s : State) (key : Nat) : s.touchSession.ring? key = s.ring? key := by
  rcases s.touchSession_cases with h | ⟨_, _, h⟩
  · rw [h]
  · rw [h]
    rfl

@[simp] theorem State.touchSession_halted (s : State) (key : Nat) : s.touchSession.halted key = s.halted key := by
  simp only [State.halted, State.touchSession_rd]

/-! ### The tail (R233) -/

/-- The tail n is a new one that the ring has room for. -/
structure Ring.TakesTail (r : Ring) (n : Nat) : Prop where
  newer : serialOlder 32 r.tail n = true
  other : n ≠ r.tail
  room : cdiff n r.oldest ≤ 2 ^ r.sqLog

/-- The state in which a doorbell of a ring takes effect: counted where fetching has halted (R247). -/
def State.atBell (s : State) (key : Nat) : State := if s.halted key then s.bump F.WQE_DB_REFUSED else s

theorem State.atBell_halted {s : State} {key : Nat} (halted : s.halted key = true) : s.atBell key = s.bump F.WQE_DB_REFUSED := if_pos halted

theorem State.atBell_free {s : State} {key : Nat} (free : s.halted key = false) : s.atBell key = s := if_neg (by simp [free])

section
variable {s : State} {key : Nat} (n off : Nat)

theorem State.ringTail_absent (hr : s.ring? key = none) : s.ringTail key n off = s.bump F.WQE_DB_REFUSED := by simp only [State.ringTail, hr]

theorem State.ringTail_idle {r : Ring} (hr : s.ring? key = some r) (idle : r.state ≠ .active) : s.ringTail key n off = s.bump F.WQE_DB_REFUSED := by
  simp only [State.ringTail, hr, if_pos idle]

theorem State.ringTail_takes {n : Nat} {r : Ring} (hr : s.ring? key = some r) (active : r.state = .active) (takes : r.TakesTail n) :
    s.ringTail key n off = (s.atBell key).setRing key { r with tail := n, parked := false } := by
  obtain ⟨newer, other, room⟩ := takes
  have fits : ¬(serialOlder 32 r.oldest n = true ∧ 2 ^ r.sqLog < cdiff n r.oldest) := fun h => Nat.not_lt.mpr room h.2
  simp only [State.ringTail, hr, active, newer, ne_eq, not_true_eq_false, if_false, if_neg other, if_neg fits, Bool.not_true, Bool.false_eq_true]
  rfl

/-! ### The head, and `arm` (R233, R236) -/

theorem State.ringBell_idle {r : Ring} (hr : s.ring? key = some r) (idle : r.state ≠ .active) : s.ringBell key = (none, s.bump F.WQE_DB_REFUSED) := by
  simp only [State.ringBell, hr, if_pos idle]

theorem State.ringBell_active {r : Ring} (hr : s.ring? key = some r) (active : r.state = .active) : s.ringBell key = (some r, s.atBell key) := by
  simp only [State.ringBell, hr, active, ne_eq, not_true_eq_false, if_false]
  rfl

theorem State.ringHead_idle {r : Ring} (hr : s.ring? key = some r) (idle : r.state ≠ .active) : s.ringHead key n off = s.bump F.WQE_DB_REFUSED := by
  simp only [State.ringHead, State.ringBell_idle hr idle]

theorem State.ringHead_behind {n : Nat} {r : Ring} (hr : s.ring? key = some r) (active : r.state = .active) (behind : serialOlder 32 r.head n = false) :
    s.ringHead key n off = s.atBell key := by
  simp only [State.ringHead, State.ringBell_active hr active, behind, Bool.not_false, if_true]

theorem State.ringHead_takes {n : Nat} {r : Ring} (hr : s.ring? key = some r) (active : r.state = .active) (newer : serialOlder 32 r.head n = true)
    (posted : serialOlder 32 r.posted n = false) : s.ringHead key n off = (s.atBell key).setRing key { r with head := n } := by
  simp only [State.ringHead, State.ringBell_active hr active, newer, posted, Bool.not_true, Bool.false_eq_true, if_false]

theorem State.ringArm_idle {r : Ring} (hr : s.ring? key = some r) (idle : r.state ≠ .active) : s.ringArm key = s.bump F.WQE_DB_REFUSED := by
  simp only [State.ringArm, State.ringBell_idle hr idle]

theorem State.ringArm_arms {r : Ring} (hr : s.ring? key = some r) (active : r.state = .active) (consumed : r.posted = r.head) :
    s.ringArm key = ((s.atBell key).setRing key { r with armed := true }).wr F.WQE_DB_arm 1 key := by
  simp only [State.ringArm, State.ringBell_active hr active, consumed, ne_eq, not_true_eq_false, if_false]

theorem State.ringArm_interrupts {r : Ring} (hr : s.ring? key = some r) (active : r.state = .active) (pending : r.posted ≠ r.head) :
    s.ringArm key = (s.atBell key).interrupt (ringVf key) r.vector := by
  simp only [State.ringArm, State.ringBell_active hr active, if_pos pending]

/-! ### A push (R234) -/

theorem State.pushEntry_takes {r : Ring} {e : List Byte} (hr : s.ring? key = some r) (active : r.state = .active)
    (current : phaseOf e = phaseAt r.tail r.sqLog) : s.pushEntry key e =
      (s.atBell key).setRing key { r with pushed := Tbl.set r.pushed r.tail e, tail := (r.tail + 1) % 2 ^ 32, parked := false } := by
  simp only [State.pushEntry, hr, active, current, ne_eq, not_true_eq_false, or_self, if_false]
  rfl

end

theorem padTo_take_of_length {n : Nat} {e : List Byte} (h : e.length = n) : padTo n (e.take n) = e := by
  subst h
  simp [padTo]

/-! ### The rows -/

/-- A row of a window that answers. -/
theorem windowRow_completes {c : Instr} {s : State} {link vf : Nat} {read : Option Nat} {f : State → State} {P : State → Prop} (w : s.Window link vf)
    (hrow : exec c s = winAct link vf read s f) (p : P ((f s).requeue s.pending)) : Completes c s P := by
  obtain ⟨run, hlink, hvf, up, answers, attached⟩ := w
  refine completes_actOn run hrow (by simp [hlink, hvf]) ?_
  simpa [up, answers, attached] using p

theorem State.Window.vf_lt {s : State} {link vf : Nat} (w : s.Window link vf) : vf < 1024 := by
  obtain ⟨_, _, hvf, _⟩ := w
  exact hvf

theorem State.Window.run {s : State} {link vf : Nat} (w : s.Window link vf) : s.power = .run := by
  obtain ⟨run, _⟩ := w
  exact run

section
variable {s t : State} {link vf ring n : Nat} {P : State → Prop} (w : s.Window link vf) (hring : ring < 4096)
include w hring

theorem sqDoorbell_completes (hn : n < 2 ^ 32) (e : s.ringTail (vf * 4096 + ring) n (dbOff ring 0) = t) (p : P (t.requeue s.pending)) :
    Completes (.sqDoorbell link vf ring n) s P := by
  refine windowRow_completes w (rfl : _ = execSqDoorbell link vf ring n s) ?_
  rwa [Nat.mod_eq_of_lt hring, Nat.mod_eq_of_lt hn, e]

theorem cqDoorbell_completes (hn : n < 2 ^ 32) (e : s.ringHead (vf * 4096 + ring) n (dbOff ring 4) = t) (p : P (t.requeue s.pending)) :
    Completes (.cqDoorbell link vf ring n) s P := by
  refine windowRow_completes w (rfl : _ = execCqDoorbell link vf ring n s) ?_
  rwa [Nat.mod_eq_of_lt hring, Nat.mod_eq_of_lt hn, e]

theorem arm_completes (e : s.ringArm (vf * 4096 + ring) = t) (p : P (t.requeue s.pending)) : Completes (.arm link vf ring) s P := by
  refine windowRow_completes w (rfl : _ = execArm link vf ring s) ?_
  rwa [Nat.mod_eq_of_lt hring, e]

end

/-- A whole entry pushed to a ring that has a push slot. -/
theorem push_completes {s t : State} {link vf ring : Nat} {r : Ring} {e : List Byte} {P : State → Prop} (w : s.Window link vf) (slot : ring < 1024)
    (hr : s.ring? (vf * 4096 + ring) = some r) (whole : e.length = if r.entry256 then 256 else 64) (h : s.pushEntry (vf * 4096 + ring) e = t)
    (p : P (t.requeue s.pending)) : Completes (.push link vf ring e) s P := by
  refine windowRow_completes w (rfl : _ = execPush link vf ring e s) ?_
  simp only [if_neg (Nat.not_le.mpr slot), hr, Option.any_some]
  rwa [padTo_take_of_length whole, h]

section
variable {s t : State} {n : Nat} {P : State → Prop} (hrun : s.power = .run) (hm : s.manages false = true) (hn : n < 2 ^ 32)
include hrun hm hn

theorem ctlSqDoorbell_completes (e : s.touchSession.ringTail ctlKey n 0x10 = t) (p : P (t.requeue s.pending)) : Completes (.ctlSqDoorbell n) s P := by
  refine managerRow_completes hrun hm (rfl : _ = execCtlSqDoorbell n s) ?_
  rwa [Nat.mod_eq_of_lt hn, e]

theorem ctlCqDoorbell_completes (e : s.touchSession.ringHead ctlKey n 0x10 = t) (p : P (t.requeue s.pending)) : Completes (.ctlCqDoorbell n) s P := by
  refine managerRow_completes hrun hm (rfl : _ = execCtlCqDoorbell n s) ?_
  rwa [Nat.mod_eq_of_lt hn, e]

end

/-- Settles O20: each access through a window that answers, by what its ring does with it. -/
theorem doorbellsAndPushes : Obligations.DoorbellsAndPushes := by
  refine ⟨fun s link vf ring n w => ⟨windowRow_completes w rfl rfl, windowRow_completes w rfl rfl, windowRow_completes w rfl rfl, ?absent, ?halted⟩,
    fun s link vf ring n r w hring hn hr free => ⟨?tail, ?head, ?behind, ?idle, ?arms, ?interrupts, ?push, ?ctl⟩⟩
  case absent =>
    intro absent
    exact windowRow_completes w (rfl : _ = execSqDoorbell link vf ring n s) (congrArg (State.requeue · s.pending) (s.ringTail_absent _ _ absent))
  case halted =>
    intro r hr active halted hn newer other room
    refine windowRow_completes w (rfl : _ = execSqDoorbell link vf ring n s) ?_
    rw [Nat.mod_eq_of_lt hn, State.ringTail_takes _ hr active ⟨newer, other, room⟩, State.atBell_halted halted]
    exact ⟨State.ring?_setRing_self _ _ _, rfl, s.rd_bump_self F.WQE_DB_REFUSED 1 0 (by decide)⟩
  case tail =>
    intro active newer other room
    refine sqDoorbell_completes w hring hn (State.ringTail_takes _ hr active ⟨newer, other, room⟩) ?_
    rw [State.atBell_free free]
    exact ⟨State.ring?_setRing_self _ _ _, rfl, rfl⟩
  case head =>
    intro active newer posted
    refine cqDoorbell_completes w hring hn (State.ringHead_takes _ hr active newer posted) ?_
    rw [State.atBell_free free]
    exact ⟨State.ring?_setRing_self _ _ _, rfl, rfl⟩
  case behind =>
    intro active behind
    refine cqDoorbell_completes w hring hn (State.ringHead_behind _ hr active behind) ?_
    rw [State.atBell_free free]
    rfl
  case idle =>
    intro idle counted
    exact ⟨sqDoorbell_completes w hring hn (State.ringTail_idle _ _ hr idle) rfl, cqDoorbell_completes w hring hn (State.ringHead_idle _ _ hr idle) rfl,
      arm_completes w hring (State.ringArm_idle hr idle) rfl⟩
  case arms =>
    intro active consumed
    exact arm_completes w hring (State.ringArm_arms hr active consumed) ⟨State.ring?_setRing_self _ _ _, State.rd_wr_self _ _ _ _ (by decide)⟩
  case interrupts =>
    intro active pending
    refine arm_completes w hring (State.ringArm_interrupts hr active pending) ?_
    rw [State.atBell_free free, ringVf_instRing vf hring]
  case push =>
    intro e slot active whole current
    refine push_completes w slot hr whole (State.pushEntry_takes hr active current) ?_
    rw [State.atBell_free free]
    exact ⟨State.ring?_setRing_self _ _ _, rfl, rfl⟩
  case ctl =>
    intro q hm hq active ctlFree
    have other : vf * 4096 + ring ≠ ctlKey := instRing_ne_ctlKey w.vf_lt hring
    have still : s.touchSession.ring? ctlKey = some q := (s.touchSession_ring? ctlKey).trans hq
    have bell : s.touchSession.atBell ctlKey = s.touchSession := State.atBell_free ((s.touchSession_halted ctlKey).trans ctlFree)
    have keeps : ∀ g : Ring, (s.touchSession.setRing ctlKey g).ring? (vf * 4096 + ring) = some r := fun g =>
      (State.ring?_setRing_ne g other).trans ((s.touchSession_ring? _).trans hr)
    refine ⟨fun newer isOther room => ctlSqDoorbell_completes w.run hm hn (State.ringTail_takes _ still active ⟨newer, isOther, room⟩) ?_,
      fun newer posted => ctlCqDoorbell_completes w.run hm hn (State.ringHead_takes _ still active newer posted) ?_⟩
    · rw [bell]
      exact ⟨State.ring?_setRing_self _ _ _, keeps _⟩
    · rw [bell]
      exact ⟨State.ring?_setRing_self _ _ _, keeps _⟩

end Sys2Proof.Machine
end

section
/-!
PROOFS. Rings come and go (R232, R253, R255, R258, R312, R348): what CREATE makes, STOP and DESTROY, what a run of the front end fetches, and what a flush that
is over leaves.
-/

namespace Sys2Proof.Machine

/-! ### The outcome of a ring command (R258) -/

theorem State.rd_ringResult_done (s : State) (vf reason : Nat) : (s.ringResult vf reason).rd F.WQE_RING_STATUS_done vf = b2n (reason == 0) := by
  unfold State.ringResult
  rw [State.rd_wr_apart _ F.WQE_RING_STATUS_done F.WQE_RING_STATUS_reason _ _ rfl (by decide) (by decide),
    State.rd_wr_apart _ F.WQE_RING_STATUS_done F.WQE_RING_STATUS_refused _ _ rfl (by decide) (by decide), State.rd_wr_self _ _ _ _ (by decide)]
  cases reason == 0 <;> rfl

theorem State.rd_ringResult_refused (s : State) (vf reason : Nat) : (s.ringResult vf reason).rd F.WQE_RING_STATUS_refused vf = b2n (reason != 0) := by
  unfold State.ringResult
  rw [State.rd_wr_apart _ F.WQE_RING_STATUS_refused F.WQE_RING_STATUS_reason _ _ rfl (by decide) (by decide), State.rd_wr_self _ _ _ _ (by decide)]
  cases reason != 0 <;> rfl

/-- The ring that WQE_RING_SEL names. -/
def State.selRing (s : State) (vf : Nat) : Nat := vf * 4096 + s.rd F.WQE_RING_SEL_ring vf

theorem State.selRing_ne_ctlKey {s : State} {vf : Nat} (hvf : vf < 1024) : s.selRing vf ≠ ctlKey :=
  instRing_ne_ctlKey hvf (s.rd_lt F.WQE_RING_SEL_ring vf)

/-! ### CREATE (R258, R348) -/

/-- The arguments of CREATE name permitted sizes of a pair of 64-byte entries, and aligned bases. -/
structure State.RingArgsOk (s : State) (vf : Nat) : Prop where
  sqMin : 6 ≤ s.rd F.WQE_RING_ARG2_sq_log2 vf
  sqMax : s.rd F.WQE_RING_ARG2_sq_log2 vf ≤ 16
  cqMin : 6 ≤ s.rd F.WQE_RING_ARG2_cq_log2 vf
  cqMax : s.rd F.WQE_RING_ARG2_cq_log2 vf ≤ 16
  entry64 : s.rd F.WQE_RING_ARG2_entry256 vf = 0
  sqAligned : s.rd F.WQE_RING_ARG0_sq_base vf % 4096 = 0
  cqAligned : s.rd F.WQE_RING_ARG1_cq_base vf % 4096 = 0

/-- Pins in u a range of addresses under the tag that the ring arguments of s name. -/
def State.pinRing (u s : State) (vf base bytes : Nat) (acc : AccKind) : Option (List Loc) × State :=
  u.pinRange vf (s.rd F.PTN_INST_partition vf) (s.rd F.WQE_RING_ARG2_tag vf) base bytes acc

/-- The pair that CREATE makes of the arguments of s, with its pages pinned, and the vector as v has it. -/
def State.createdRing (s v : State) (vf : Nat) (sp cp : List Loc) : Ring :=
  { kind := if s.rd F.WQE_RING_ARG2_receive vf == 1 then .receive else .work, state := .active
    sqBase := s.rd F.WQE_RING_ARG0_sq_base vf, cqBase := s.rd F.WQE_RING_ARG1_cq_base vf
    sqLog := s.rd F.WQE_RING_ARG2_sq_log2 vf, cqLog := s.rd F.WQE_RING_ARG2_cq_log2 vf, entry256 := false
    tag := s.rd F.WQE_RING_ARG2_tag vf, vector := v.rd F.WQE_RING_ARG3_vector vf, fetched := 0, tail := 0, posted := 0, head := 0, armed := false, pushed := []
    sqPages := sp, cqPages := cp, open_ := [], pinLost := false, recvs := [], nextSsn := 0, waiting := false, late := [], parked := false }

theorem State.ringCreate_creates {s u v : State} {vf : Nat} {sp cp : List Loc} (ok : s.RingArgsOk vf)
    (sqPins : s.pinRing s vf (s.rd F.WQE_RING_ARG0_sq_base vf) (2 ^ s.rd F.WQE_RING_ARG2_sq_log2 vf * 64) .read = (some sp, u))
    (cqPins : u.pinRing s vf (s.rd F.WQE_RING_ARG1_cq_base vf) (2 ^ s.rd F.WQE_RING_ARG2_cq_log2 vf * 32) .write = (some cp, v))
    (free : v.ring? (s.selRing vf) = none) (within : v.ringsOf vf < v.rd F.PTN_INST_rings vf) :
    s.ringCreate vf = (v.setRing (s.selRing vf) (s.createdRing v vf sp cp)).ringResult vf 0 := by
  obtain ⟨sqMin, sqMax, cqMin, cqMax, entry64, sqAligned, cqAligned⟩ := ok
  unfold State.pinRing at sqPins cqPins
  unfold State.selRing at free
  simp only [State.ringCreate, Nat.not_lt.mpr sqMin, Nat.not_lt.mpr sqMax, Nat.not_lt.mpr cqMin, Nat.not_lt.mpr cqMax, entry64, sqAligned, cqAligned, sqPins,
    cqPins, free, Nat.not_le.mpr within, Nat.reduceBEq, Bool.false_eq_true, and_false, or_self, ne_eq, not_true_eq_false, Option.isSome_none, if_false]
  rfl

/-! ### STOP and DESTROY (R255, R258) -/

section
variable {s : State} {vf key : Nat} {r : Ring}

theorem State.stopCmd_stops (hr : s.ring? (s.selRing vf) = some r) (live : r.state ≠ .stopped) :
    s.stopCmd vf = ((s.ringStop (s.selRing vf)).ringResult vf 0).cmnRun := by
  unfold State.selRing at hr
  simp only [State.stopCmd, hr, if_neg live]
  rfl

/-- A ring is no more. -/
def State.freeRing (s : State) (key : Nat) : State := { s with rings := Tbl.erase s.rings key }

theorem State.ring?_freeRing_self (other : key ≠ ctlKey) : (s.freeRing key).ring? key = none := by
  rw [State.ring?, if_neg other, State.freeRing, Tbl.get?_erase, if_pos rfl]

theorem State.ringDestroy_frees (hr : s.ring? (s.selRing vf) = some r) (stopped : r.state = .stopped) (unnamed : s.recvNamed (s.selRing vf) = false) :
    s.ringDestroy vf = ((s.freeRing (s.selRing vf)).ringResult vf 0).wr F.WQE_DB_arm 0 (s.selRing vf) := by
  unfold State.selRing at hr unnamed
  simp only [State.ringDestroy, hr, stopped, unnamed, ne_eq, not_true_eq_false, Bool.false_eq_true, or_self, if_false]
  rfl

/-- A freed ring's number is free, its arm bit is clear, and the command has answered done. -/
theorem State.destroyed_shows (s : State) (vf : Nat) (other : key ≠ ctlKey) :
    let v := ((s.freeRing key).ringResult vf 0).wr F.WQE_DB_arm 0 key
    v.ring? key = none ∧ v.rd F.WQE_RING_STATUS_done vf = 1 ∧ v.rd F.WQE_DB_arm key = 0 ∧ v.mem = s.mem := by
  have done : ((s.freeRing key).ringResult vf 0).rd F.WQE_RING_STATUS_done vf = 1 := State.rd_ringResult_done _ vf 0
  exact ⟨State.ring?_freeRing_self other, (State.rd_wr_reg _ _ _ _ _ _ (by decide)).trans done, State.rd_wr_self _ _ _ _ (by decide), rfl⟩

theorem State.ringStopped_stops (hr : s.ring? key = some r) (stopping : r.state = .stopping) (done : r.open_ = []) (read : r.aborting = false) :
    s.ringStopped key = s.setRing key { r with state := .stopped } := by
  simp only [State.ringStopped, hr, stopping, done, read, List.isEmpty_nil, Bool.not_false, and_self, if_true]

/-! ### Fetching (R232) -/

theorem State.fetchRing_covered (hr : s.ring? key = some r) (covered : serialOlder 32 r.fetched r.tail = true) :
    s.fetchRing key = (s.setRing key { r with spec := 8, skip := 0 }).fetchLoop key (cdiff r.tail r.fetched + 9) := by
  simp only [State.fetchRing, hr, covered, if_true]

theorem State.fetchRing_beyond (hr : s.ring? key = some r) (all : serialOlder 32 r.fetched r.tail = false) (left : 0 < r.spec) :
    s.fetchRing key = s.fetchLoop key 9 := by
  simp only [State.fetchRing, hr, all, Bool.false_eq_true, if_false, if_pos left]

theorem State.fetchRing_nothing (hr : s.ring? key = some r) (all : serialOlder 32 r.fetched r.tail = false) (spent : r.spec = 0) : s.fetchRing key = s := by
  simp only [State.fetchRing, hr, all, spent, Bool.false_eq_true, if_false, Nat.lt_irrefl]

end

/-! ### Flushes (R253, R312) -/

/-- The flushes that are out but the `n`th. -/
def State.otherFlushes (s : State) (n : Nat) : List Flush := s.hpt.flushes.take n ++ s.hpt.flushes.drop (n + 1)

/-- A flush is over: these are out yet, and the writes of its link before it have reached their targets. -/
def State.flushOver (s : State) (f : Flush) (left : List Flush) : State :=
  { s with hpt := { s.hpt with
      flushes := left
      posted := s.hpt.posted.filter fun w => !(w.link == f.link && decide (w.seq < f.seq)) } }

section
variable {s : State} {n : Nat} {f : Flush} (hf : s.hpt.flushes[n]? = some f) (sent : f.sent = true)
include hf sent

theorem State.flushDone_returned (alone : ((s.otherFlushes n).any fun g => g.who == f.who) = false) :
    s.flushDone n true = ((s.flushOver f (s.otherFlushes n)).flushed f.who true).issueWaiting f.link := by
  unfold State.otherFlushes at alone
  simp only [State.flushDone, hf, sent, alone, Bool.not_true, Bool.false_eq_true, if_false]
  rfl

theorem State.flushDone_failed : s.flushDone n false =
    ((s.flushOver f ((s.otherFlushes n).filter fun g => g.who != f.who)).flushed f.who false).issueWaiting f.link := by
  simp only [State.flushDone, hf, sent, Bool.not_true, Bool.not_false, Bool.false_eq_true, if_false, if_true]
  rfl

end

/-! ### The rows -/

section
variable {s t : State} {P : State → Prop} (hrun : s.power = .run)
include hrun

theorem entryFetch_completes {key : Nat} (e : s.fetchRing key = t) (p : P (t.requeue s.pending)) : Completes (.entryFetch key) s P :=
  completes_act (f := fun s => s.fetchRing key) hrun rfl (by rwa [e])

/-- The recheck of a ring that waits at an entry not owned is a run of the front end. -/
theorem fetchRecheckTimer_completes {key : Nat} {r : Ring} (hr : s.ring? key = some r) (waits : r.waiting = true) (e : s.fetchRing key = t)
    (p : P (t.requeue s.pending)) : Completes (.fetchRecheckTimer key) s P := by
  refine completes_act hrun (rfl : _ = execFetchRecheckTimer key s) ?_
  simpa [hr, waits, e] using p

theorem ringStopDone_completes {key : Nat} (e : s.ringStopped key = t) (p : P (t.requeue s.pending)) : Completes (.ringStopDone key) s P :=
  completes_act (f := fun s => s.ringStopped key) hrun rfl (by rwa [e])

theorem flushComplete_completes {n : Nat} {ok : Bool} (p : P ((s.flushDone n ok).cmnRun.requeue s.pending)) : Completes (.flushComplete n ok) s P :=
  completes_act (f := fun s => (s.flushDone n ok).cmnRun) hrun rfl p

theorem flushComplete_deals {n : Nat} {ok : Bool} (p : P (s.flushDone n ok)) : Deals (.flushComplete n ok) s P :=
  deals_act (f := fun s => s.flushDone n ok) hrun rfl p

end

section
variable {s t : State} {link vf : Nat} {P : State → Prop} (w : s.Window link vf)
include w

theorem ringCreate_completes (e : s.ringCreate vf = t) (p : P (t.requeue s.pending)) : Completes (.ringCreate link vf) s P :=
  windowRow_completes (f := fun s => s.ringCreate vf) w rfl (by rwa [e])

theorem ringStop_completes (e : s.stopCmd vf = t) (p : P (t.requeue s.pending)) : Completes (.ringStop link vf) s P :=
  windowRow_completes (f := fun s => s.stopCmd vf) w rfl (by rwa [e])

theorem ringDestroy_completes (e : s.ringDestroy vf = t) (p : P (t.requeue s.pending)) : Completes (.ringDestroy link vf) s P :=
  windowRow_completes (f := fun s => s.ringDestroy vf) w rfl (by rwa [e])

end

/-- Settles O21: each row's own effect, and what that is in the states that the clauses name. -/
theorem ringsComeAndGo : Obligations.RingsComeAndGo := by
  intro s link vf w
  refine ⟨⟨ringCreate_completes w rfl rfl, ringStop_completes w rfl rfl, ringDestroy_completes w rfl rfl⟩,
    fun q => ⟨entryFetch_completes w.run rfl rfl, ringStopDone_completes w.run rfl rfl⟩, fun n ok => flushComplete_completes w.run rfl,
    ?create, ?stop, ?destroy, ?rings, ?returned, ?failed⟩
  case create =>
    intro sp cp u v _ sqMin sqMax cqMin cqMax entry64 sqAligned cqAligned sqPins cqPins free within
    refine ringCreate_completes w
      (State.ringCreate_creates ⟨sqMin, sqMax, cqMin, cqMax, entry64, sqAligned, cqAligned⟩ sqPins cqPins free within) ?_
    have made : (((v.setRing (s.selRing vf) (s.createdRing v vf sp cp)).ringResult vf 0).requeue s.pending).ring? (s.selRing vf) =
        some (s.createdRing v vf sp cp) := State.ring?_setRing_self _ _ _
    unfold State.selRing at made ⊢
    rw [made]
    exact ⟨State.rd_ringResult_done _ vf 0, State.rd_ringResult_refused _ vf 0, rfl, rfl⟩
  case stop =>
    intro r hr live
    exact ringStop_completes w (State.stopCmd_stops hr live) rfl
  case destroy =>
    intro r hr stopped unnamed
    exact ringDestroy_completes w (State.ringDestroy_frees hr stopped unnamed) (s.destroyed_shows vf (State.selRing_ne_ctlKey w.vf_lt))
  case rings =>
    intro q r hr
    refine ⟨fun covered => entryFetch_completes w.run (State.fetchRing_covered hr covered) rfl,
      fun all left => entryFetch_completes w.run (State.fetchRing_beyond hr all left) rfl,
      fun all spent => entryFetch_completes w.run (State.fetchRing_nothing hr all spent) rfl,
      fun covered waits => fetchRecheckTimer_completes w.run hr waits (State.fetchRing_covered hr covered) rfl,
      fun stopping done read => ringStopDone_completes w.run (State.ringStopped_stops hr stopping done read) ?_⟩
    exact ⟨State.ring?_setRing_self _ _ _, rfl, rfl⟩
  case returned =>
    intro n f hf sent alone
    exact flushComplete_deals w.run (State.flushDone_returned hf sent alone)
  case failed =>
    intro n f hf sent
    exact flushComplete_deals w.run (State.flushDone_failed hf sent)

end Sys2Proof.Machine
end

section
/-!
PROOFS. The timers of translation (R330, R340, R342, R344, R347) and the deadline of an operation (R262, R273): what each leaves.
-/

namespace Sys2Proof.Machine

section
variable {s : State} {i : Nat} {h : Hold} (hh : s.xlt.holds[i]? = some h)
include hh

/-- A walk that is done for a transfer that a command retries starts it again; what is held of it again keeps the first fault's time (R347). -/
theorem State.walkDone_retries {op : Nat} (marked : h.retry = some op) : s.walkDone i =
    let u := (s.dropHold i).walkAgain h
    State.retriesDone { u with xlt := { u.xlt with
      holds := u.xlt.holds.map fun q => if q.who == h.who && q.retry.isNone then { q with since := min q.since h.since } else q } } op := by
  simp only [State.walkDone, hh, marked]

/-- A hold that a command has marked stays (R347). -/
theorem State.localExpired_marked (marked : h.retry.isSome = true) : s.localExpired i = s := by
  simp only [State.localExpired, hh, marked, or_true, if_true]

/-- A local hold that no command has marked is dropped and counted, and what waited fails (R340). -/
theorem State.localExpired_op {id : Nat} (here : h.remote = false) (unmarked : h.retry = none) (who : h.who = .op id) :
    s.localExpired i = ((s.dropHold i).bump F.XLT_HOLD_EXPIRED).failOp id Status.translationFault := by
  simp [State.localExpired, hh, here, unmarked, who]

theorem State.localExpired_readResp {p : Packet} {req : Nat} {k : Conn} {r : OpenRead} (here : h.remote = false) (unmarked : h.retry = none)
    (who : h.who = .packet p) (ext : p.ext = .readResp req) (hk : s.conn? p.dstConn = some k) (hr : k.reads.find? (fun r => r.psn == req) = some r) :
    s.localExpired i = ((s.dropHold i).bump F.XLT_HOLD_EXPIRED).msgFail p.dstConn r.msn Status.translationFault 0 false := by
  have stays : ((s.dropHold i).bump F.XLT_HOLD_EXPIRED).conn? p.dstConn = some k := hk
  simp only [State.localExpired, hh, here, unmarked, Option.isSome_none, Bool.false_eq_true, or_self, if_false, who]
  rw [ext, stays]
  simp only [hr]

end

/-! ### A partition's batch of records (R344) -/

/-- A partition's records in the batch are written to its queue, and are in the batch no more. -/
def State.batchWritten (s : State) (part : Nat) : State :=
  (s.xlt.batch.filter fun r => r.part == part).foldl State.writeRec
    { s with xlt := { s.xlt with batch := s.xlt.batch.filter fun r => r.part != part } }

section
variable {s : State} {part : Nat} (holds : (s.xlt.batch.filter fun r => r.part == part) ≠ [])
include holds

theorem State.writeBatch_interrupts {q : XQueues} (bound : Tbl.get? (s.batchWritten part).xlt.queues part = some q) :
    s.writeBatch part = (s.batchWritten part).interrupt q.vf q.vector := by
  unfold State.batchWritten at bound
  simp only [State.writeBatch, List.isEmpty_iff, if_neg holds, bound, State.batchWritten]

theorem State.writeBatch_unbound (unbound : Tbl.get? (s.batchWritten part).xlt.queues part = none) : s.writeBatch part = s.batchWritten part := by
  unfold State.batchWritten at unbound
  simp only [State.writeBatch, List.isEmpty_iff, if_neg holds, unbound, State.batchWritten]

end

/-! ### Deadlines (R262, R273) -/

section
variable {s : State} {id : Nat} {o : Op} (ho : s.op? id = some o) (due : o.deadline.isSome = true) (plain : o.opcode ≠ 0x10 ∧ o.opcode ≠ 0x11)
include ho due plain

theorem State.missDeadline_windsDown (running : o.phase ≠ .flushing) :
    s.missDeadline id = s.windDown id Status.deadlineMissed (s.missCause id o) := by
  simp [State.missDeadline, ho, Option.isNone_eq_false_iff.mpr due, plain, running]

theorem State.missDeadline_marks (flushes : o.phase = .flushing) :
    s.missDeadline id = s.modOp id fun o => { o with cqe := { o.cqe with status := Status.deadlineMissed, sub := 6 } } := by
  simp [State.missDeadline, ho, Option.isNone_eq_false_iff.mpr due, plain, flushes]

end

/-! ### The rows -/

section
variable {s : State} {P : State → Prop} (hrun : s.power = .run)
include hrun

theorem walkDone_settles {i : Nat} (p : P (s.walkDone i)) : Settles (.walkDone i) s P := settles_act (f := fun s => s.walkDone i) hrun rfl p

theorem translationHoldExpiry_settles {i : Nat} (p : P (s.localExpired i)) : Settles (.translationHoldExpiry i) s P :=
  settles_act (f := fun s => s.localExpired i) hrun rfl p

theorem deadlineExpiry_completes {id : Nat} (p : P ((s.missDeadline id).requeue s.pending)) : Completes (.deadlineExpiry id) s P :=
  completes_act (f := fun s => s.missDeadline id) hrun rfl p

theorem faultBatchTimer_completes {part : Nat} (within : part < 64) (p : P ((s.writeBatch part).requeue s.pending)) : Completes (.faultBatchTimer part) s P :=
  completes_actOn (f := fun s => s.writeBatch part) hrun rfl (decide_eq_true within) p

end

/-- Settles O26: each row's own effect, and what that is for the hold, the batch or the operation that the clause names. -/
theorem translationTimers : Obligations.TranslationTimers := by
  intro s hrun
  refine ⟨fun i => ⟨walkDone_settles hrun rfl, translationHoldExpiry_settles hrun rfl, deadlineExpiry_completes hrun rfl⟩,
    fun i op h hh marked => walkDone_settles hrun (State.walkDone_retries hh marked),
    fun i id h hh here unmarked who => translationHoldExpiry_settles hrun (State.localExpired_op hh here unmarked who),
    fun i op h hh marked => translationHoldExpiry_settles hrun (State.localExpired_marked hh (by rw [marked]; rfl)), ?batch,
    fun i h p req k r hh here unmarked who ext hk hr => translationHoldExpiry_settles hrun (State.localExpired_readResp hh here unmarked who ext hk hr), ?deadline⟩
  case batch =>
    intro part within holds v
    exact ⟨fun q bound => faultBatchTimer_completes hrun within (congrArg (State.requeue · s.pending) (State.writeBatch_interrupts holds bound)),
      fun unbound => faultBatchTimer_completes hrun within (congrArg (State.requeue · s.pending) (State.writeBatch_unbound holds unbound))⟩
  case deadline =>
    intro id o ho due noColl noStep
    refine ⟨fun running => deadlineExpiry_completes hrun ?_, fun flushes => deadlineExpiry_completes hrun ?_⟩
    · rw [State.missDeadline_windsDown ho due ⟨noColl, noStep⟩ running]
    · rw [State.missDeadline_marks ho due ⟨noColl, noStep⟩ flushes]
      refine ⟨?_, rfl, rfl⟩
      show (s.modOp id _).op? id = _
      rw [State.op?_modOp_self, ho]
      rfl

end Sys2Proof.Machine
end

section
/-!
PROOFS. Grants that are sent and that lapse (R267, R268), and meters that are set and read (R279, R281).
-/

namespace Sys2Proof.Machine

/-! ### What sending counts (R299, R397)

Where no injection is armed, a packet that is sent counts in two registers of its own, and besides in the logbook's. -/

/-- From s to t packets may have been sent: what is armed stays, and of the registers only the logbook's, the count of sealed packets and that of marked
ones may have changed. -/
structure CountsSent (s t : State) : Prop where
  inj : t.inj = s.inj
  reg : ∀ (q : Reg) (i : Nat), q.isLog = false → q ≠ .CPH_ENC_PKTS → q ≠ .HOP_ECN_MARK → t.reg q i = s.reg q i

/-- Where no register changes, nothing is counted. -/
theorem CountsSent.of_regs {s t : State} (inj : t.inj = s.inj) (regs : t.regs = s.regs) : CountsSent s t :=
  ⟨inj, fun q i _ _ _ => by rw [State.reg, regs]; rfl⟩

theorem CountsSent.refl (s : State) : CountsSent s s := .of_regs rfl rfl

theorem CountsSent.trans {s t u : State} (h : CountsSent s t) (k : CountsSent t u) : CountsSent s u :=
  ⟨k.inj.trans h.inj, fun q i log enc mark => (k.reg q i log enc mark).trans (h.reg q i log enc mark)⟩

theorem LogOnly.countsSent {s t : State} (h : LogOnly s t) : CountsSent s t := by
  obtain ⟨_, _, _, rfl, reg⟩ := h
  exact ⟨rfl, fun q i log _ _ => reg q i log⟩

theorem State.bump_countsSent (s : State) {f : Fld} (n i : Nat) (counter : f.reg = .CPH_ENC_PKTS ∨ f.reg = .HOP_ECN_MARK) :
    CountsSent s (s.bump f n i) := by
  refine ⟨rfl, fun q j _ enc mark => State.reg_setReg_ne _ _ _ _ _ _ (.inl ?_)⟩
  rcases counter with h | h <;> rw [h]
  · exact enc
  · exact mark

/-- What a field of another register reads. -/
theorem CountsSent.rd {s t : State} (h : CountsSent s t) {f : Fld} (i : Nat) (log : f.reg.isLog = false) (enc : f.reg ≠ .CPH_ENC_PKTS)
    (mark : f.reg ≠ .HOP_ECN_MARK) : t.rd f i = s.rd f i := by
  rw [State.rd, h.reg f.reg i log enc mark]
  rfl

theorem State.seal_countsSent {s t : State} {svc slot : Nat} {p q : Packet} {x : Option Seal} (clear : s.inj = none)
    (h : s.seal svc slot p = some (q, x, t)) : CountsSent s t := by
  unfold State.seal at h
  split at h
  · obtain ⟨-, -, rfl⟩ := by simpa using h
    exact .refl s
  · split at h
    · cases h
    · simp only [State.coreChecks_clear clear] at h
      split at h
      · cases h
      next ctr k' _ =>
        obtain ⟨-, -, rfl⟩ := by simpa using h
        have slots : CountsSent s (s.setSlot svc slot k') := by
          unfold State.setSlot
          split <;> exact .of_regs rfl rfl
        refine (slots.trans (State.bump_countsSent (f := F.CPH_ENC_PKTS) _ 1 0 (.inl rfl))).trans ?_
        split <;> split
        · exact (State.logEv_only ..).countsSent.trans (State.logEv_only ..).countsSent
        · exact (State.logEv_only ..).countsSent
        · exact (State.logEv_only ..).countsSent
        · exact .refl _

theorem State.connPort_countsSent (s : State) (c : Nat) (k : Conn) (cls : Nat) : CountsSent s (s.connPort c k cls).2 := by
  unfold State.connPort
  dsimp only
  split
  · exact .refl s
  · split
    · obtain ⟨t, only⟩ := s.modConn_only c _
      rw [only]
      exact .of_regs rfl rfl
    · exact .refl s

theorem State.pushFrame_countsSent (s : State) (q : Queued) : CountsSent s (s.pushFrame q) := by
  have measured : CountsSent s (s.measure q.port) := .of_regs rfl rfl
  unfold State.pushFrame
  dsimp only
  split
  · exact (measured.trans (State.bump_countsSent (f := F.HOP_ECN_MARK) _ 1 0 (.inr rfl))).trans (.of_regs rfl rfl)
  · exact measured.trans (.of_regs rfl rfl)

/-- A packet that starts no timer and is no chunk. -/
theorem State.sendPkt_countsSent {s : State} (c : Nat) (k : Conn) {p : Packet} (op : Option Nat) (clear : s.inj = none)
    (plain : ∀ hdr, p.ext ≠ .chunk hdr) : CountsSent s (s.sendPkt c k p false op).2 := by
  unfold State.sendPkt
  generalize entropy : (if k.spray = 2 then s.drawBelow 65536 else (k.pathId, s)) = drawn
  obtain ⟨pid, u⟩ := drawn
  have first : CountsSent s u := by
    split at entropy <;> obtain ⟨-, rfl⟩ := Prod.mk.inj entropy
    · exact .of_regs rfl rfl
    · exact .refl s
  dsimp only
  split
  · exact first
  next q x v sealed =>
    have counted := first.trans (State.seal_countsSent (first.inj.trans clear) sealed)
    have ext := (State.seal_sends (.inr (first.inj.trans clear)) sealed).2
    have port := counted.trans (v.connPort_countsSent c k q.cls)
    split
    next j w chosen =>
      rw [chosen] at port
      rw [w.carry_plain k (ext ▸ plain)]
      exact port.trans (State.pushFrame_countsSent ..)
    next w chosen =>
      rw [chosen] at port
      exact port

/-! ### The grant period (R268) -/

/-- A GRANT on a connection, with a budget per class. -/
def State.sendGrant (s : State) (b : (Nat × Conn) × List Nat) : State :=
  (s.sendCtl b.1.1 b.1.2 (.grant 63 (2 * s.rd F.ADM_GRANT_period_us) b.2) 0 0).bump F.ADM_GRANT_SENT

theorem State.sendGrant_counts {s : State} (b : (Nat × Conn) × List Nat) (clear : s.inj = none) :
    (s.sendGrant b).inj = none ∧ (s.sendGrant b).rd F.ADM_GRANT_SENT = (s.rd F.ADM_GRANT_SENT + 1) % 2 ^ F.ADM_GRANT_SENT.width := by
  have sent : CountsSent s (s.sendCtl b.1.1 b.1.2 (.grant 63 (2 * s.rd F.ADM_GRANT_period_us) b.2) 0 0) :=
    State.sendPkt_countsSent _ _ none clear (fun _ h => by cases h)
  refine ⟨sent.inj.trans clear, ?_⟩
  rw [State.sendGrant, State.rd_bump_self _ _ _ _ (by decide), sent.rd 0 rfl (by decide) (by decide)]

/-- Each GRANT counts once. -/
theorem State.sendGrants_count (l : List ((Nat × Conn) × List Nat)) {s : State} (clear : s.inj = none) :
    (l.foldl State.sendGrant s).rd F.ADM_GRANT_SENT = (s.rd F.ADM_GRANT_SENT + l.length) % 2 ^ F.ADM_GRANT_SENT.width := by
  induction l generalizing s with
  | nil => exact (Nat.mod_eq_of_lt (State.rd_lt s F.ADM_GRANT_SENT 0)).symm
  | cons b l ih =>
    obtain ⟨still, counted⟩ := State.sendGrant_counts b clear
    rw [List.foldl_cons, ih still, counted, Nat.mod_add_mod, List.length_cons, Nat.add_assoc, Nat.add_comm 1]

/-- The GRANTs go to the open connections that are not of RoCEv2, and a new period begins. -/
theorem State.grantPeriod_grants (s : State) : ∃ (l : List ((Nat × Conn) × List Nat)) (left : List Nat), l.length = s.grantConns.length ∧
    s.grantPeriod = { l.foldl State.sendGrant s with
      adm := { (l.foldl State.sendGrant s).adm with active := [], zeroNext := [], uncovered := left } } :=
  ⟨s.grantConns.map fun q => (q, (List.range 6).map fun cls => s.budgetOf q.1 q.2 cls), s.uncoveredNow, List.length_map _, rfl⟩

theorem State.grantPeriod_leaves {s : State} (clear : s.inj = none) : s.grantPeriod.adm.active = [] ∧ s.grantPeriod.adm.zeroNext = [] ∧
    s.grantPeriod.rd F.ADM_GRANT_SENT = (s.rd F.ADM_GRANT_SENT + s.grantConns.length) % 2 ^ F.ADM_GRANT_SENT.width := by
  obtain ⟨l, left, len, period⟩ := s.grantPeriod_grants
  rw [period, ← len]
  exact ⟨rfl, rfl, State.sendGrants_count l clear⟩

/-! ### A GRANT that lapses (R268) -/

/-- A class of a connection has no budget any more, from the time t on. -/
def State.lapse (c t : Nat) (s : State) (k : Nat) : State :=
  ({ s with adm := { s.adm with grants := Tbl.set s.adm.grants (c * 8 + k) (0, 0, t) } }).causeGrant c k 0 0

theorem State.lapse_leaves (s : State) (c t k : Nat) : (s.lapse c t k).adm.grants = Tbl.set s.adm.grants (c * 8 + k) (0, 0, t) ∧
    (s.lapse c t k).regs = s.regs ∧ (s.lapse c t k).mem = s.mem := by
  obtain ⟨o, only⟩ := State.causeGrant_only { s with adm := { s.adm with grants := Tbl.set s.adm.grants (c * 8 + k) (0, 0, t) } } c k 0 0
  rw [State.lapse, only]
  exact ⟨rfl, rfl, rfl⟩

/-- Of the classes that lapse together each has none then; registers and memory stay. -/
theorem State.lapses_leave (c t : Nat) (l : List Nat) (s : State) :
    (l.foldl (State.lapse c t) s).regs = s.regs ∧ (l.foldl (State.lapse c t) s).mem = s.mem ∧
    ∀ k : Nat, k ∈ l ∨ Tbl.get? s.adm.grants (c * 8 + k) = some (0, 0, t) →
      Tbl.get? (l.foldl (State.lapse c t) s).adm.grants (c * 8 + k) = some (0, 0, t) := by
  induction l generalizing s with
  | nil => exact ⟨rfl, rfl, fun k h => h.resolve_left (by simp)⟩
  | cons j l ih =>
    obtain ⟨regs, mem, grants⟩ := ih (s.lapse c t j)
    obtain ⟨grants', regs', mem'⟩ := s.lapse_leaves c t j
    refine ⟨regs.trans regs', mem.trans mem', fun k h => grants k ?_⟩
    rw [grants', Tbl.get?_set]
    by_cases same : k = j
    · exact .inr (if_pos (by rw [same]))
    · rw [if_neg (by omega)]
      exact h.imp (fun m => (List.mem_cons.mp m).resolve_left same) id

/-- A GRANT that lapses counts, and its classes lapse together. -/
theorem State.grantExpired_lapses {s : State} {c cls units valid t : Nat} (hg : Tbl.get? s.adm.grants (c * 8 + cls) = some (units, valid, t))
    (stands : valid ≠ 0) : s.grantExpired c cls =
      ((List.range 6).filter fun k => (Tbl.get? s.adm.grants (c * 8 + k)).any fun g => g.2.2 == t && g.2.1 != 0).foldl (State.lapse c t)
        (s.bump F.ADM_GRANT_MISSED) := by
  simp only [State.grantExpired, hg, if_neg stands]
  rfl

theorem State.grantExpired_leaves {s : State} {c cls units valid t : Nat} (hcls : cls < 6)
    (hg : Tbl.get? s.adm.grants (c * 8 + cls) = some (units, valid, t)) (stands : valid ≠ 0) :
    Tbl.get? (s.grantExpired c cls).adm.grants (c * 8 + cls) = some (0, 0, t) ∧
      (s.grantExpired c cls).rd F.ADM_GRANT_MISSED = (s.rd F.ADM_GRANT_MISSED + 1) % 2 ^ F.ADM_GRANT_MISSED.width ∧ (s.grantExpired c cls).mem = s.mem := by
  rw [State.grantExpired_lapses hg stands]
  obtain ⟨regs, mem, grants⟩ := State.lapses_leave c t
    ((List.range 6).filter fun k => (Tbl.get? s.adm.grants (c * 8 + k)).any fun g => g.2.2 == t && g.2.1 != 0) (s.bump F.ADM_GRANT_MISSED)
  refine ⟨grants cls (.inl ?_), ?_, mem⟩
  · simp [List.mem_filter, hcls, hg, stands]
  · rw [State.rd, State.reg, regs]
    exact State.rd_bump_self s F.ADM_GRANT_MISSED 1 0 (by decide)

/-! ### Meters (R279, R281) -/

theorem State.meterApply_refuses {s : State} (below : s.rd F.POL_METER_RATE_pir_mbps < s.rd F.POL_METER_RATE_cir_mbps) :
    s.meterApply = s.refuseWrite .POL 0x18 := if_pos below

/-- The selected meter takes the staged rates and bursts, with full buckets, and keeps its counters. -/
theorem State.meterApply_sets {s : State} (above : s.rd F.POL_METER_RATE_cir_mbps ≤ s.rd F.POL_METER_RATE_pir_mbps) :
    s.meterApply = { s with meters := Tbl.set s.meters (s.rd F.POL_METER_SEL_meter) { s.meter (s.rd F.POL_METER_SEL_meter) with
      cir := s.rd F.POL_METER_RATE_cir_mbps, pir := s.rd F.POL_METER_RATE_pir_mbps, cbs := s.rd F.POL_METER_BURST_cbs,
      pbs := s.rd F.POL_METER_BURST_pbs, tc := s.rd F.POL_METER_BURST_cbs * meterUnit, tp := s.rd F.POL_METER_BURST_pbs * meterUnit,
      at_ := s.now } } := if_neg (Nat.not_lt.mpr above)

/-- The staging registers take the selected meter's rates and bursts. -/
theorem State.meterRead_stages (s : State) :
    let m := s.meter (s.rd F.POL_METER_SEL_meter)
    s.meterRead.rd F.POL_METER_RATE_cir_mbps = m.cir % 2 ^ F.POL_METER_RATE_cir_mbps.width ∧
      s.meterRead.rd F.POL_METER_RATE_pir_mbps = m.pir % 2 ^ F.POL_METER_RATE_pir_mbps.width ∧
      s.meterRead.rd F.POL_METER_BURST_cbs = m.cbs % 2 ^ F.POL_METER_BURST_cbs.width ∧
      s.meterRead.rd F.POL_METER_BURST_pbs = m.pbs % 2 ^ F.POL_METER_BURST_pbs.width := by
  unfold State.meterRead
  dsimp only
  refine ⟨?_, ?_, ?_, State.rd_wr_self _ F.POL_METER_BURST_pbs _ _ (by decide)⟩
  · rw [State.rd_wr_reg _ _ F.POL_METER_BURST_pbs _ _ _ (by decide), State.rd_wr_reg _ _ F.POL_METER_BURST_cbs _ _ _ (by decide),
      State.rd_wr_bits _ F.POL_METER_RATE_cir_mbps F.POL_METER_RATE_pir_mbps _ _ _ rfl (by decide) (by decide), State.rd_wr_self _ _ _ _ (by decide)]
  · rw [State.rd_wr_reg _ _ F.POL_METER_BURST_pbs _ _ _ (by decide), State.rd_wr_reg _ _ F.POL_METER_BURST_cbs _ _ _ (by decide),
      State.rd_wr_self _ _ _ _ (by decide)]
  · rw [State.rd_wr_bits _ F.POL_METER_BURST_cbs F.POL_METER_BURST_pbs _ _ _ rfl (by decide) (by decide), State.rd_wr_self _ _ _ _ (by decide)]

theorem State.meterRead_leaves (s : State) : s.meterRead.meters = s.meters ∧ s.meterRead.mem = s.mem := by
  simp only [State.meterRead, State.meters_wr, State.mem_wr, and_self]

/-- A refused write leaves the meters and memory (R10). -/
theorem State.refuseWrite_leaves (s : State) (b : Blk) (off i : Nat) : (s.refuseWrite b off i).meters = s.meters ∧ (s.refuseWrite b off i).mem = s.mem :=
  ⟨State.meters_logEv .., State.mem_logEv ..⟩

@[simp] theorem State.touchSession_meters (s : State) : s.touchSession.meters = s.meters := by
  rcases s.touchSession_cases with h | ⟨_, _, h⟩ <;> rw [h]

@[simp] theorem State.touchSession_now (s : State) : s.touchSession.now = s.now := by
  rcases s.touchSession_cases with h | ⟨_, _, h⟩ <;> rw [h]

@[simp] theorem State.meter_touchSession (s : State) (n : Nat) : s.touchSession.meter n = s.meter n := by
  rw [State.meter, State.meter, s.touchSession_meters, s.touchSession_now]

/-! ### The rows -/

section
variable {s : State} {P : State → Prop} (hrun : s.power = .run)
include hrun

theorem grantPeriodTimer_completes (p : P (s.grantPeriod.requeue s.pending)) : Completes .grantPeriodTimer s P := completes_act hrun rfl p

theorem grantExpiry_completes {c cls : Nat} (p : P ((s.grantExpired c cls).requeue s.pending)) : Completes (.grantExpiry c cls) s P :=
  completes_act (f := fun s => s.grantExpired c cls) hrun rfl p

variable (hm : s.manages false = true)
include hm

theorem meterApply_completes (p : P (s.touchSession.meterApply.requeue s.pending)) : Completes .meterApply s P :=
  completes_act hrun rfl (by rwa [asManager_of_manages hm])

theorem meterRead_completes (p : P (s.touchSession.meterRead.requeue s.pending)) : Completes .meterRead s P :=
  completes_act hrun rfl (by rwa [asManager_of_manages hm])

end

/-- Settles O27: the period counts a GRANT for each connection that takes one; a class that lapses has no budget; a meter is what APPLY makes it. -/
theorem grantsAndMeters : Obligations.GrantsAndMeters := by
  intro s hrun
  refine ⟨fun clear => grantPeriodTimer_completes hrun (State.grantPeriod_leaves clear), grantPeriodTimer_completes hrun rfl,
    fun c cls => grantExpiry_completes hrun rfl,
    fun c cls units valid t hcls hg stands => grantExpiry_completes hrun (State.grantExpired_leaves hcls hg stands), ?apply, ?refuse, ?read⟩
  case apply =>
    intro hm above
    refine meterApply_completes hrun hm ?_
    rw [State.meterApply_sets (by simpa using above)]
    exact ⟨by simp [Tbl.get?_set_self], s.touchSession_regs, s.touchSession_mem⟩
  case refuse =>
    intro hm below
    refine meterApply_completes hrun hm ?_
    rw [State.meterApply_refuses (by simpa using below)]
    obtain ⟨meters, mem⟩ := s.touchSession.refuseWrite_leaves .POL 0x18 0
    exact ⟨(State.meters_requeue ..).trans (meters.trans s.touchSession_meters), (State.mem_requeue ..).trans (mem.trans s.touchSession_mem)⟩
  case read =>
    intro hm
    refine meterRead_completes hrun hm ?_
    have stages := s.touchSession.meterRead_stages
    simp only [State.touchSession_rd, State.meter_touchSession] at stages
    obtain ⟨cir, pir, cbs, pbs⟩ := stages
    obtain ⟨meters, mem⟩ := s.touchSession.meterRead_leaves
    exact ⟨(State.rd_requeue ..).trans cir, (State.rd_requeue ..).trans pir, (State.rd_requeue ..).trans cbs, (State.rd_requeue ..).trans pbs,
      (State.meters_requeue ..).trans (meters.trans s.touchSession_meters), (State.mem_requeue ..).trans (mem.trans s.touchSession_mem)⟩

end Sys2Proof.Machine
end

section
/-!
PROOFS. Firmware slots (R492, R508), channels of DDR that fail (R371), and what a port transmits (R265, R288, R304).
-/

namespace Sys2Proof.Machine

/-! ### The end of a firmware command (R508) -/

theorem State.fwResult_only (s : State) (op reason : Nat) : RegOnly .MGT_FW_STATUS s (s.fwResult op reason) := by
  have shown := ((RegOnly.wr s F.MGT_FW_STATUS_done (b2n (reason == 0)) 0).trans (.wr _ F.MGT_FW_STATUS_refused (b2n (reason != 0)) 0)).trans
    (.wr _ F.MGT_FW_STATUS_reason reason 0)
  unfold State.fwResult
  dsimp only
  split
  · exact shown.trans (.of_log (State.logDone_only ..) _)
  · exact shown.trans (.of_log (State.logRefused_only ..) _)

/-- Neither the slots nor the program that runs are a register's. -/
theorem RegOnly.firmware {r : Reg} {s t : State} (h : RegOnly r s t) : t.mgt.fw = s.mgt.fw ∧ t.mgt.fwProg = s.mgt.fwProg := by
  obtain ⟨_, _, _, rfl, _⟩ := h
  exact ⟨rfl, rfl⟩

/-- Logging the end leaves what MGT_FW_STATUS shows. -/
theorem State.rd_fwResult (s : State) (op reason : Nat) {f : Fld} (log : f.reg.isLog = false) : (s.fwResult op reason).rd f =
    (((s.wr F.MGT_FW_STATUS_done (b2n (reason == 0))).wr F.MGT_FW_STATUS_refused (b2n (reason != 0))).wr F.MGT_FW_STATUS_reason reason).rd f := by
  unfold State.fwResult
  dsimp only
  split
  · exact State.rd_logDone _ _ _ _ _ _ log
  · exact State.rd_logRefused _ _ _ _ _ _ log

theorem State.fwResult_reason (s : State) (op reason : Nat) :
    (s.fwResult op reason).rd F.MGT_FW_STATUS_reason = reason % 2 ^ F.MGT_FW_STATUS_reason.width := by
  rw [s.rd_fwResult op reason rfl, State.rd_wr_self _ _ _ _ (by decide)]

theorem State.fwResult_refused (s : State) (op reason : Nat) : (s.fwResult op reason).rd F.MGT_FW_STATUS_refused = b2n (reason != 0) := by
  rw [s.rd_fwResult op reason rfl, State.rd_wr_bits _ F.MGT_FW_STATUS_refused F.MGT_FW_STATUS_reason _ _ _ rfl (by decide) (by decide),
    State.rd_wr_self _ _ _ _ (by decide)]
  cases reason != 0 <;> rfl

theorem State.fwResult_done (s : State) (op reason : Nat) : (s.fwResult op reason).rd F.MGT_FW_STATUS_done = b2n (reason == 0) := by
  rw [s.rd_fwResult op reason rfl, State.rd_wr_bits _ F.MGT_FW_STATUS_done F.MGT_FW_STATUS_reason _ _ _ rfl (by decide) (by decide),
    State.rd_wr_bits _ F.MGT_FW_STATUS_done F.MGT_FW_STATUS_refused _ _ _ rfl (by decide) (by decide), State.rd_wr_self _ _ _ _ (by decide)]
  cases reason == 0 <;> rfl

theorem State.fwResult_busy (s : State) (op reason : Nat) : (s.fwResult op reason).rd F.MGT_FW_STATUS_busy = s.rd F.MGT_FW_STATUS_busy := by
  rw [s.rd_fwResult op reason rfl, State.rd_wr_bits _ F.MGT_FW_STATUS_busy F.MGT_FW_STATUS_reason _ _ _ rfl (by decide) (by decide),
    State.rd_wr_bits _ F.MGT_FW_STATUS_busy F.MGT_FW_STATUS_refused _ _ _ rfl (by decide) (by decide),
    State.rd_wr_bits _ F.MGT_FW_STATUS_busy F.MGT_FW_STATUS_done _ _ _ rfl (by decide) (by decide)]

/-! ### A slot is programmed (R508) -/

/-- The reason for which a program of a slot is refused before its image is looked at; 0 where there is none. -/
def State.fwStop (s : State) (slot : Nat) : Nat :=
  if s.mgt.fwProg.isSome then 13 else if s.rd F.LAY_STATUS_busy = 1 then 11 else if s.mgt.fwRun = some slot then 10 else 0

theorem State.fwStop_lt (s : State) (slot : Nat) : s.fwStop slot < 16 := by
  unfold State.fwStop
  split_ifs <;> decide

theorem State.fwProgram_stopped {s : State} {slot : Nat} (stop : s.fwStop slot ≠ 0) : s.fwProgram slot = s.fwResult (fwProgA + slot) (s.fwStop slot) := by
  by_cases prog : s.mgt.fwProg.isSome = true
  · simp only [State.fwProgram, State.fwStop, if_pos prog]
  by_cases lay : s.rd F.LAY_STATUS_busy = 1
  · simp only [State.fwProgram, State.fwStop, if_neg prog, if_pos lay]
  by_cases run : s.mgt.fwRun = some slot
  · simp only [State.fwProgram, State.fwStop, if_neg prog, if_neg lay, if_pos run]
  · exact absurd (by simp only [State.fwStop, if_neg prog, if_neg lay, if_neg run]) stop

/-- A program that nothing stops is the one of a slot that is not running, while no other program and no layout command runs. -/
theorem State.fwStop_eq_zero {s : State} {slot : Nat} (go : s.fwStop slot = 0) :
    s.mgt.fwProg.isSome = false ∧ s.rd F.LAY_STATUS_busy ≠ 1 ∧ s.mgt.fwRun ≠ some slot := by
  unfold State.fwStop at go
  split_ifs at go with prog lay run
  exact ⟨Bool.eq_false_iff.mpr prog, lay, run⟩

theorem State.fwProgram_rejects {s : State} {slot r : Nat} (go : s.fwStop slot = 0) (check : s.fwCheck s.stagedFw = .error r) :
    s.fwProgram slot = s.fwResult (fwProgA + slot) r := by
  obtain ⟨prog, lay, run⟩ := State.fwStop_eq_zero go
  simp [State.fwProgram, prog, lay, run, check]

/-- The write of an image to a slot runs, and MGT_FW_STATUS shows it. -/
def State.fwBegun (s : State) (slot : Nat) (img : List Byte) : State :=
  ((((State.wr { s with mgt := { s.mgt with fwProg := some (slot, img) } } F.MGT_FW_STATUS_busy 1).wr F.MGT_FW_STATUS_done 0).wr
    F.MGT_FW_STATUS_refused 0).wr F.MGT_FW_STATUS_reason 0).wr F.MGT_FW_STATUS_permille 0

theorem State.fwBegun_leaves (s : State) (slot : Nat) (img : List Byte) : (s.fwBegun slot img).mgt.fwProg = some (slot, img) ∧
    (s.fwBegun slot img).mgt.fw = s.mgt.fw ∧ (s.fwBegun slot img).mem = s.mem := by
  simp only [State.fwBegun, State.mgt_wr, State.mem_wr, and_self]

theorem State.fwBegun_shows (s : State) (slot : Nat) (img : List Byte) :
    (s.fwBegun slot img).rd F.MGT_FW_STATUS_busy = 1 ∧ (s.fwBegun slot img).rd F.MGT_FW_STATUS_refused = 0 := by
  unfold State.fwBegun
  constructor
  · rw [State.rd_wr_bits _ F.MGT_FW_STATUS_busy F.MGT_FW_STATUS_permille _ _ _ rfl (by decide) (by decide),
      State.rd_wr_bits _ F.MGT_FW_STATUS_busy F.MGT_FW_STATUS_reason _ _ _ rfl (by decide) (by decide),
      State.rd_wr_bits _ F.MGT_FW_STATUS_busy F.MGT_FW_STATUS_refused _ _ _ rfl (by decide) (by decide),
      State.rd_wr_bits _ F.MGT_FW_STATUS_busy F.MGT_FW_STATUS_done _ _ _ rfl (by decide) (by decide), State.rd_wr_self _ _ _ _ (by decide)]
    rfl
  · rw [State.rd_wr_bits _ F.MGT_FW_STATUS_refused F.MGT_FW_STATUS_permille _ _ _ rfl (by decide) (by decide),
      State.rd_wr_bits _ F.MGT_FW_STATUS_refused F.MGT_FW_STATUS_reason _ _ _ rfl (by decide) (by decide), State.rd_wr_self _ _ _ _ (by decide)]
    rfl

theorem State.fwProgram_begins {s : State} {slot : Nat} {h : FwHdr} (go : s.fwStop slot = 0) (check : s.fwCheck s.stagedFw = .ok h) :
    s.fwProgram slot = s.fwBegun slot s.stagedFw := by
  obtain ⟨prog, lay, run⟩ := State.fwStop_eq_zero go
  simp [State.fwProgram, prog, lay, run, check, State.fwBegun]

/-! ### The session's holder (R1): what a firmware command reads is not the session's -/

/-- What a manager's access leaves of the firmware's state. -/
theorem State.touchSession_firmware (s : State) :
    s.touchSession.mgt.fw = s.mgt.fw ∧ s.touchSession.mgt.fwProg = s.mgt.fwProg ∧ s.touchSession.mgt.fwRun = s.mgt.fwRun := by
  rcases s.touchSession_cases with h | ⟨_, _, h⟩ <;> rw [h] <;> exact ⟨rfl, rfl, rfl⟩

@[simp] theorem State.fwStop_touchSession (s : State) (slot : Nat) : s.touchSession.fwStop slot = s.fwStop slot := by
  obtain ⟨-, prog, run⟩ := s.touchSession_firmware
  simp only [State.fwStop, prog, run, State.touchSession_rd]

@[simp] theorem State.fwHeader_touchSession (s : State) (img : List Byte) : s.touchSession.fwHeader img = s.fwHeader img := by
  simp only [State.fwHeader, State.touchSession_rd]

@[simp] theorem State.fwCheck_touchSession (s : State) (img : List Byte) : s.touchSession.fwCheck img = s.fwCheck img := by
  simp only [State.fwCheck, State.fwHeader_touchSession]

@[simp] theorem State.stagedFw_touchSession (s : State) : s.touchSession.stagedFw = s.stagedFw := by
  have staged : ∀ n : Nat, s.touchSession.stagedBytes n = s.stagedBytes n := fun n => by
    rw [State.stagedBytes, State.touchSession_lay, State.stagedBytes]
  unfold State.stagedFw
  dsimp only
  rw [staged, State.fwHeader_touchSession]
  cases s.fwHeader (s.stagedBytes 512) with
  | error _ => rfl
  | ok w => exact staged _

theorem State.fwCheck_stagedFw_touchSession (s : State) : s.touchSession.fwCheck s.touchSession.stagedFw = s.fwCheck s.stagedFw := by
  rw [State.fwCheck_touchSession, State.stagedFw_touchSession]

/-- The refusal of a command of the session's holder. -/
theorem State.touchSession_fwResult (s : State) (op reason : Nat) : (s.touchSession.fwResult op reason).mgt.fw = s.mgt.fw ∧
    (s.touchSession.fwResult op reason).mgt.fwProg = s.mgt.fwProg ∧ (s.touchSession.fwResult op reason).mem = s.mem := by
  obtain ⟨fw, prog, -⟩ := s.touchSession_firmware
  have only := s.touchSession.fwResult_only op reason
  exact ⟨only.firmware.1.trans fw, only.firmware.2.trans prog, only.mem.trans s.touchSession_mem⟩

/-! ### The write of a slot ends (R492, R508) -/

section
variable {s : State} {slot : Nat} {img : List Byte} (runs : s.mgt.fwProg = some (slot, img)) (ok : Bool)
include runs

/-- The slots hold the image or not, and what ran is over, shown in MGT_FW_STATUS; MGT_BOOT skips the slot no longer. -/
theorem State.fwProgrammed_ends : s.fwProgrammed ok = (State.fwResult (((State.wr { s with mgt := { s.mgt with
      fwProg := none, fw := if ok then Tbl.set s.mgt.fw slot img else Tbl.erase s.mgt.fw slot } }
        (if slot = 0 then F.MGT_BOOT_skip_a else F.MGT_BOOT_skip_b) 0).wr F.MGT_FW_STATUS_busy 0).wr F.MGT_FW_STATUS_permille 1000)
      (fwProgA + slot) (if ok then 0 else 12)) := by
  simp only [State.fwProgrammed, runs]

theorem State.fwProgrammed_slots : (s.fwProgrammed ok).mgt.fwProg = none ∧
    (s.fwProgrammed ok).mgt.fw = (if ok then Tbl.set s.mgt.fw slot img else Tbl.erase s.mgt.fw slot) ∧ (s.fwProgrammed ok).mem = s.mem := by
  rw [State.fwProgrammed_ends runs]
  obtain ⟨fw, prog⟩ := (State.fwResult_only _ (fwProgA + slot) (if ok then 0 else 12)).firmware
  exact ⟨prog, fw, (State.fwResult_only ..).mem⟩

theorem State.fwProgrammed_idle : (s.fwProgrammed ok).rd F.MGT_FW_STATUS_busy = 0 := by
  rw [State.fwProgrammed_ends runs, State.fwResult_busy,
    State.rd_wr_bits _ F.MGT_FW_STATUS_busy F.MGT_FW_STATUS_permille _ _ _ rfl (by decide) (by decide), State.rd_wr_self _ _ _ _ (by decide)]
  rfl

theorem State.fwProgrammed_boots : (s.fwProgrammed ok).rd (if slot = 0 then F.MGT_BOOT_skip_a else F.MGT_BOOT_skip_b) = 0 := by
  have inBoot : (if slot = 0 then F.MGT_BOOT_skip_a else F.MGT_BOOT_skip_b).reg = .MGT_BOOT ∧
      (if slot = 0 then F.MGT_BOOT_skip_a else F.MGT_BOOT_skip_b).fits := by split <;> decide
  obtain ⟨reg, fits⟩ := inBoot
  rw [State.fwProgrammed_ends runs, (State.fwResult_only ..).rd _ 0 (by rw [reg]; rfl) (by rw [reg]; decide),
    State.rd_wr_reg _ _ F.MGT_FW_STATUS_permille _ _ _ (by rw [reg]; decide), State.rd_wr_reg _ _ F.MGT_FW_STATUS_busy _ _ _ (by rw [reg]; decide),
    State.rd_wr_self _ _ _ _ fits, Nat.zero_mod]

end

/-! ### A channel of DDR fails (R371) -/

/-- A channel that is fenced is among the fenced ones, and its state's register and memory stay. -/
theorem State.fenceChannel_fences (s : State) (c : Nat) : (s.fenceChannel c).tier.fenced.contains c = true ∧
    (∀ i : Nat, (s.fenceChannel c).rd F.DDR_CH_state i = s.rd F.DDR_CH_state i) ∧ (s.fenceChannel c).mem = s.mem := by
  have logged : ∀ {t u : State}, LogOnly t u → t.tier.fenced.contains c = true → (∀ i, t.rd F.DDR_CH_state i = s.rd F.DDR_CH_state i) → t.mem = s.mem →
      u.tier.fenced.contains c = true ∧ (∀ i, u.rd F.DDR_CH_state i = s.rd F.DDR_CH_state i) ∧ u.mem = s.mem := by
    intro t u only fenced state mem
    exact ⟨by rw [only.tier]; exact fenced, fun i => (only.rd _ i rfl).trans (state i), only.mem.trans mem⟩
  unfold State.fenceChannel
  split
  next fenced => exact ⟨fenced, fun _ => rfl, rfl⟩
  · dsimp only
    split
    · exact logged (State.logEv_only ..) (by simp) (fun _ => rfl) rfl
    · exact logged (State.logEv_only ..) (by simp) (fun _ => rfl) rfl

/-! ### A port transmits (R265, R288, R304) -/

theorem State.transmit_down {s : State} {p : Nat} (down : s.portUp p = false) : s.transmit p = s := if_pos (by simp [down])

section
variable {s : State} {p : Nat} (up : s.portUp p = true)
include up

/-- A frame to be replayed goes first (R304). -/
theorem State.transmit_replays {hsn : Nat} {l : List Nat} (again : (s.lport p).again = hsn :: l) : s.transmit p = s.sendReplay p hsn := by
  simp [State.transmit, up, again]

variable (again : (s.lport p).again = [])
include again

theorem State.transmit_idle (none_ : s.nextFrame p = none) : s.transmit p = s := by simp [State.transmit, up, again, none_]

/-- The frame next in order is dropped where it is too long, and is sent where replay has room for it. -/
theorem State.transmit_next {i : Nat} {q : Queued} (next : s.nextFrame p = some i) (hq : s.egress[i]? = some q) : s.transmit p =
    if s.rd F.PRT_LP_max_frame p < (s.frameOf q (s.dataShim p 0 0 0)).len then s.dropOversize i q
    else if s.replayRoom p q.len then s.sendQueued i q else s := by
  simp [State.transmit, up, again, next, hq]

end

theorem State.again_modLport (s : State) (p : Nat) (f : LPort → LPort) : ((s.modLport p f).lport p).again = (f (s.lport p)).again :=
  congrArg LPort.again (Tbl.getD_set_self _ _ _ _)

/-- A frame that leaves takes nothing from what is to be replayed. -/
theorem State.sendFrame_again (s : State) (p : Nat) (f : Frame) : ((s.sendFrame p f).lport p).again = (s.lport p).again := by
  unfold State.sendFrame
  rw [State.lport_of_lports (State.lports_emit ..), State.again_modLport, State.lport_of_lports ((State.lports_bump ..).trans (State.lports_bump ..))]

/-- The frame replayed is to be replayed no more (R304). -/
theorem State.sendReplay_again (s : State) (p hsn : Nat) : ((s.sendReplay p hsn).lport p).again = (s.lport p).again.drop 1 := by
  unfold State.sendReplay
  dsimp only
  split
  · exact s.again_modLport p _
  · split <;> exact (State.sendFrame_again ..).trans (s.again_modLport p _)

/-! ### The rows -/

section
variable {s : State} {P : State → Prop} (hrun : s.power = .run)
include hrun

theorem frameTransmit_completes {p : Nat} (hp : s.lportExists p = true) (h : P ((s.transmit p).requeue s.pending)) : Completes (.frameTransmit p) s P :=
  completes_actOn (f := fun s => s.transmit p) hrun rfl hp h

/-- A row of MGT_FW_CMD is the session's holder's. -/
theorem fwProgram_completes {c : Instr} {slot : Nat} (row : (c, slot) ∈ [(Instr.fwProgramA, 0), (.fwProgramB, 1)]) (hm : s.manages true = true)
    (h : P ((s.touchSession.fwProgram slot).requeue s.pending)) : Completes c s P := by
  have e : exec c s = act s (asManager true fun s => s.fwProgram slot) := by
    simp only [List.mem_cons, Prod.mk.injEq, List.not_mem_nil, or_false] at row
    rcases row with ⟨rfl, rfl⟩ | ⟨rfl, rfl⟩ <;> rfl
  exact completes_act hrun e (by rwa [asManager_of_manages hm])

section
variable {c : Instr} {slot : Nat} (hm : s.manages true = true) (row : (c, slot) ∈ [(Instr.fwProgramA, 0), (.fwProgramB, 1)])
include hm row

/-- What stops a program is shown as its refusal, and what is in the slots and in the program that runs stays. -/
theorem fwProgram_stops (stop : s.fwStop slot ≠ 0) : Completes c s fun t => t.rd F.MGT_FW_STATUS_refused = 1 ∧
    t.rd F.MGT_FW_STATUS_reason = s.fwStop slot ∧ t.mgt.fw = s.mgt.fw ∧ t.mgt.fwProg = s.mgt.fwProg ∧ t.mem = s.mem := by
  rw [← s.fwStop_touchSession slot] at stop ⊢
  refine fwProgram_completes hrun row hm ?_
  rw [State.fwProgram_stopped stop]
  obtain ⟨fw, prog, mem⟩ := s.touchSession_fwResult (fwProgA + slot) (s.touchSession.fwStop slot)
  exact ⟨(State.fwResult_refused ..).trans (by rw [bne_iff_ne.mpr stop]; rfl),
    (State.fwResult_reason ..).trans (Nat.mod_eq_of_lt (State.fwStop_lt _ slot)), fw, prog, mem⟩

variable (go : s.fwStop slot = 0)
include go

/-- So is the reason of the first check that the staged image fails. -/
theorem fwProgram_rejected {r : Nat} (check : s.fwCheck s.stagedFw = .error r) : Completes c s fun t => t.mgt.fwProg = s.mgt.fwProg ∧
    t.mgt.fw = s.mgt.fw ∧ t.rd F.MGT_FW_STATUS_reason = r % 2 ^ F.MGT_FW_STATUS_reason.width ∧ t.mem = s.mem := by
  refine fwProgram_completes hrun row hm ?_
  rw [State.fwProgram_rejects ((s.fwStop_touchSession slot).trans go) (s.fwCheck_stagedFw_touchSession.trans check)]
  obtain ⟨fw, prog, mem⟩ := s.touchSession_fwResult (fwProgA + slot) r
  exact ⟨prog, fw, State.fwResult_reason .., mem⟩

/-- The write of an image that passes begins. -/
theorem fwProgram_writes {h : FwHdr} (check : s.fwCheck s.stagedFw = .ok h) : Completes c s fun t => t.mgt.fwProg = some (slot, s.stagedFw) ∧
    t.mgt.fw = s.mgt.fw ∧ t.rd F.MGT_FW_STATUS_busy = 1 ∧ t.rd F.MGT_FW_STATUS_refused = 0 ∧ t.mem = s.mem := by
  have begun := State.fwProgram_begins ((s.fwStop_touchSession slot).trans go) (s.fwCheck_stagedFw_touchSession.trans check)
  rw [s.stagedFw_touchSession] at begun
  obtain ⟨prog, fw, mem⟩ := s.touchSession.fwBegun_leaves slot s.stagedFw
  obtain ⟨busy, refused⟩ := s.touchSession.fwBegun_shows slot s.stagedFw
  rw [← begun] at prog fw mem busy refused
  exact fwProgram_completes hrun row hm ⟨prog, fw.trans s.touchSession_firmware.1, busy, refused, mem.trans s.touchSession_mem⟩

end

theorem fwProgramDone_completes {ok : Bool} (h : P ((s.fwProgrammed ok).requeue s.pending)) : Completes (.fwProgramDone ok) s P :=
  completes_act (f := fun s => s.fwProgrammed ok) hrun rfl h

variable {x : Nat} (channel : x < 8)
include channel

theorem ddrChannelFail_inService (served : s.rd F.DDR_CH_state x = 1)
    (h : P (((s.wr F.DDR_CH_state 3 x).fenceChannel (128 + x)).requeue s.pending)) : Completes (.ddrChannelFail x) s P := by
  refine completes_actOn hrun (rfl : _ = execDdrChannelFail x s) (decide_eq_true channel) ?_
  rwa [if_pos served]

theorem ddrChannelFail_outOfService (out : s.rd F.DDR_CH_state x ≠ 1) (h : P (s.requeue s.pending)) : Completes (.ddrChannelFail x) s P := by
  refine completes_actOn hrun (rfl : _ = execDdrChannelFail x s) (decide_eq_true channel) ?_
  rwa [if_neg out]

end

/-- Settles O55: a firmware command by what stops it, its end by how the write went, a channel by its state, a port by what it has to send. -/
theorem firmwareSlotsAndTransmission : Obligations.FirmwareSlotsAndTransmission := by
  intro s hrun
  refine ⟨fun p hp => frameTransmit_completes hrun hp rfl, ?program, ?programmed, ?channel, ?port⟩
  case program =>
    intro c slot hm row stop
    exact ⟨fun stopped => fwProgram_stops hrun hm row stopped, fun r go check => fwProgram_rejected hrun hm row go check,
      fun h go check => fwProgram_writes hrun hm row go check⟩
  case programmed =>
    intro slot img _ runs
    refine ⟨fwProgramDone_completes hrun ?_, fwProgramDone_completes hrun ?_⟩
    · obtain ⟨prog, fw, mem⟩ := State.fwProgrammed_slots runs true
      refine ⟨prog, ?_, State.fwProgrammed_idle runs true, ?_, State.fwProgrammed_boots runs true, mem⟩
      · exact (congrArg (Tbl.get? · slot) fw).trans (Tbl.get?_set_self ..)
      · rw [State.rd_requeue, State.fwProgrammed_ends runs]
        exact State.fwResult_done ..
    · obtain ⟨prog, fw, mem⟩ := State.fwProgrammed_slots runs false
      refine ⟨prog, ?_, State.fwProgrammed_idle runs false, ?_, ?_, mem⟩
      · exact (congrArg (Tbl.get? · slot) fw).trans ((Tbl.get?_erase ..).trans (if_pos rfl))
      · rw [State.rd_requeue, State.fwProgrammed_ends runs]
        exact State.fwResult_refused ..
      · rw [State.rd_requeue, State.fwProgrammed_ends runs]
        exact State.fwResult_reason ..
  case channel =>
    intro x channel
    refine ⟨fun served => ddrChannelFail_inService hrun channel served ?_, fun out => ddrChannelFail_outOfService hrun channel out rfl⟩
    obtain ⟨fenced, state, mem⟩ := (s.wr F.DDR_CH_state 3 x).fenceChannel_fences (128 + x)
    exact ⟨(state x).trans (State.rd_wr_self s F.DDR_CH_state 3 x (by decide)), fenced, mem⟩
  case port =>
    intro p hp
    refine ⟨fun idle => frameTransmit_completes hrun hp (congrArg (State.requeue · s.pending) ?_), fun i q up again next hq => ?_,
      fun hsn l up again => frameTransmit_completes hrun hp ?_⟩
    · cases up : s.portUp p with
      | false => exact State.transmit_down up
      | true =>
        obtain ⟨again, none_⟩ := idle.resolve_left (by simp [up])
        exact State.transmit_idle up again none_
    · have sends := State.transmit_next up again next hq
      refine ⟨fun long => frameTransmit_completes hrun hp ?_, fun fits room => frameTransmit_completes hrun hp ?_,
        fun fits full => frameTransmit_completes hrun hp ?_⟩
      · rw [sends, if_pos long]
      · rw [sends, if_neg (Nat.not_lt.mpr fits), if_pos room]
      · rw [sends, if_neg (Nat.not_lt.mpr fits), if_neg (by simp [full])]
    · rw [State.transmit_replays up again]
      exact ⟨rfl, (s.sendReplay_again p hsn).trans (by rw [again]; rfl)⟩

end Sys2Proof.Machine
end

section
/-!
PROOFS. What a logical port holds and sends: its record after each change, a frame that leaves it (R288, R305, R308), hop replay's control frames and
its start and stop (R302, R303), events counted (R446).
-/

namespace Sys2Proof.Machine

/-! ### A port's record -/

section
variable (s : State) (p : Nat)

@[simp] theorem State.lport_modLport (f : LPort → LPort) : (s.modLport p f).lport p = f (s.lport p) := Tbl.getD_set_self ..

@[simp] theorem State.lport_wr (f : Fld) (v i : Nat) : (s.wr f v i).lport p = s.lport p := rfl

@[simp] theorem State.lport_bump (f : Fld) (n i : Nat) : (s.bump f n i).lport p = s.lport p := rfl

@[simp] theorem State.lport_requeue (q : List Instr) : (s.requeue q).lport p = s.lport p := rfl

@[simp] theorem State.lport_emit (o : Output) : (s.emit o).lport p = s.lport p := rfl

@[simp] theorem State.lport_logEv (b : Blk) (e : Ev) (d sub i : Nat) (inj : Bool) : (s.logEv b e d sub i inj).lport p = s.lport p :=
  State.lport_of_lports (State.lports_logEv ..) p

theorem State.portUp_exists {s : State} {p : Nat} (up : s.portUp p = true) : s.lportExists p = true := (Bool.and_eq_true_iff.mp up).1

/-! ### Events counted (R446) -/

theorem RegOnly.now {r : Reg} {s t : State} (h : RegOnly r s t) : t.now = s.now := by obtain ⟨_, _, _, rfl, _⟩ := h; rfl

theorem State.evt_only (src : Nat) : RegOnly .PWR_EVT s (s.evt src) := by
  refine List.foldlRecOn (List.range 16) _ (motive := RegOnly .PWR_EVT s) (.refl _ s) fun t only n _ => ?_
  split
  · exact only.trans (.wr t F.PWR_EVT _ n)
  · exact only

/-- An event counted once for each element of a list. -/
theorem State.evts_only {α : Type} (l : List α) (src : Nat) : RegOnly .PWR_EVT s (l.foldl (fun (s : State) _ => s.evt src) s) :=
  List.foldlRecOn l _ (motive := RegOnly .PWR_EVT s) (.refl _ s) fun t only _ _ => only.trans (t.evt_only src)

/-! ### A frame leaves (R305, R308) -/

@[simp] theorem State.outbox_sendFrame (f : Frame) : (s.sendFrame p f).outbox = s.outbox ++ [.frame p f] := rfl

@[simp] theorem State.mem_sendFrame (f : Frame) : (s.sendFrame p f).mem = s.mem := rfl

@[simp] theorem State.lport_sendFrame (f : Frame) : (s.sendFrame p f).lport p = { s.lport p with wxTx := (s.lport p).wxTx + f.len } := by
  rw [State.sendFrame, State.lport_emit, State.lport_modLport, State.lport_bump, State.lport_bump]

/-- Of the registers it changes the counts of frames and bytes sent alone. -/
theorem State.rd_sendFrame (f : Frame) (g : Fld) (i : Nat) (frames : g.reg ≠ .PRT_TX_FRAMES) (bytes : g.reg ≠ .PRT_TX_BYTES) :
    (s.sendFrame p f).rd g i = s.rd g i :=
  (State.rd_bump_ne _ g F.PRT_TX_BYTES _ _ _ (.inl bytes)).trans (State.rd_bump_ne _ g F.PRT_TX_FRAMES _ _ _ (.inl frames))

/-! ### Control frames of hop replay (R303) -/

/-- The control frame of a kind that a port sends: it acknowledges the last HSN in order where replay runs. -/
def State.hopFrame (kind hsn : Nat) : Frame :=
  let on := s.rd F.PRT_LP_replay_on p == 1
  s.ctlFrame p (s.rd F.PRT_LP_nh_mac p) 0x88B6 (some ⟨0x88B6, kind, on, 0, hsn, if on then ((s.lport p).rxHsn + 4095) % 4096 else 0, 0⟩) .hop

theorem State.sendHop_eq (kind hsn : Nat) :
    s.sendHop p kind hsn = (s.modLport p fun l => { l with toAck := 0 }).sendFrame p (s.hopFrame p kind hsn) := rfl

@[simp] theorem State.outbox_sendHop (kind hsn : Nat) : (s.sendHop p kind hsn).outbox = s.outbox ++ [.frame p (s.hopFrame p kind hsn)] := rfl

@[simp] theorem State.mem_sendHop (kind hsn : Nat) : (s.sendHop p kind hsn).mem = s.mem := rfl

/-- The frame carries what was to be acknowledged. -/
@[simp] theorem State.lport_sendHop (kind hsn : Nat) :
    (s.sendHop p kind hsn).lport p = { s.lport p with toAck := 0, wxTx := (s.lport p).wxTx + 64 } := by
  rw [State.sendHop_eq, State.lport_sendFrame, State.lport_modLport]
  rfl

theorem State.rd_sendHop (kind hsn : Nat) (g : Fld) (i : Nat) (frames : g.reg ≠ .PRT_TX_FRAMES) (bytes : g.reg ≠ .PRT_TX_BYTES) :
    (s.sendHop p kind hsn).rd g i = s.rd g i := State.rd_sendFrame _ p _ g i frames bytes

/-! ### Replay starts and stops (R302) -/

@[simp] theorem State.lport_stopReplay : (s.stopReplay p).lport p =
    { s.lport p with txHsn := 0, unacked := [], again := [], rxHsn := 0, nak := none, toAck := 0 } := State.lport_modLport ..

@[simp] theorem State.stopReplay_off : (s.stopReplay p).rd F.PRT_LP_replay_on p = 0 :=
  (State.rd_wr_self s F.PRT_LP_replay_on 0 p (by decide)).trans (Nat.zero_mod _)

@[simp] theorem State.lport_startReplay : (s.startReplay p).lport p =
    { s.lport p with txHsn := 0, unacked := [], again := [], rxHsn := 0, nak := none, toAck := 0 } := s.lport_stopReplay p

@[simp] theorem State.startReplay_on : (s.startReplay p).rd F.PRT_LP_replay_on p = 1 := State.rd_wr_self _ F.PRT_LP_replay_on 1 p (by decide)

@[simp] theorem State.outbox_startReplay : (s.startReplay p).outbox = s.outbox := rfl

end

end Sys2Proof.Machine
end

section
/-!
PROOFS. Frames arrive (R286, R287, R299, R303, R304, R464): what a port carries, the checks of R287 in order, FILLERs and data frames in and out of HSN
order, transit frames that age.
-/

namespace Sys2Proof.Machine

section
variable {s : State} {port : Nat} {f : Frame}

/-! ### What a RETIRED device's ports carry (R464) -/

theorem State.portCarries_running (running : s.rd F.RST_STATUS_retired = 0) (f : Frame) : s.portCarries f = true := by simp [State.portCarries, running]

theorem State.receiveFrame_refused (stray : s.portCarries f = false) : s.receiveFrame port f = s := if_pos (by simp [stray])

/-- What the checks let through is delivered, and the device settles. -/
theorem State.receiveFrame_settles (carries : s.portCarries f = true) {g : Option Frame} {u : State} (taken : s.rxFrame port f = (g, u)) :
    s.receiveFrame port f = (g.elim u fun x => u.deliverFrame x).settle := by
  rw [State.receiveFrame, if_neg (by simp [carries]), taken]
  cases g <;> rfl

/-! ### The checks of a frame in order (R287) -/

theorem State.inject_idle (idle : s.inj = none) (point index part status : Nat) : s.inject point index part status = (false, s) := by
  rw [State.inject, idle]

/-- The codewords of a frame are counted before it is judged (R286). -/
def State.fecCounted (s : State) (port : Nat) (f : Frame) : State := (s.bump F.PRT_FEC_CORR f.fecCorr port).bump F.PRT_FEC_UNCORR f.fecBad port

theorem State.rd_fecCounted (s : State) (port : Nat) (f : Frame) (g : Fld) (i : Nat) (corr : g.reg ≠ .PRT_FEC_CORR) (uncorr : g.reg ≠ .PRT_FEC_UNCORR) :
    (s.fecCounted port f).rd g i = s.rd g i :=
  (State.rd_bump_ne _ g F.PRT_FEC_UNCORR _ _ _ (.inl uncorr)).trans (State.rd_bump_ne _ g F.PRT_FEC_CORR _ _ _ (.inl corr))

/-- A frame of a right length and FCS counts before its shim is looked at. -/
def State.rxCounted (s : State) (port : Nat) (f : Frame) : State :=
  ((s.fecCounted port f).bump F.PRT_RX_FRAMES 1 port).bump F.PRT_RX_BYTES f.len port

theorem State.rd_rxCounted (s : State) (port : Nat) (f : Frame) (g : Fld) (i : Nat)
    (other : g.reg ∉ [Reg.PRT_FEC_CORR, .PRT_FEC_UNCORR, .PRT_RX_FRAMES, .PRT_RX_BYTES]) : (s.rxCounted port f).rd g i = s.rd g i := by
  simp only [List.mem_cons, List.not_mem_nil, or_false, not_or] at other
  obtain ⟨corr, uncorr, frames, bytes⟩ := other
  calc (s.rxCounted port f).rd g i = (s.fecCounted port f).rd g i :=
        (State.rd_bump_ne _ g F.PRT_RX_BYTES _ _ _ (.inl bytes)).trans (State.rd_bump_ne _ g F.PRT_RX_FRAMES _ _ _ (.inl frames))
    _ = s.rd g i := s.rd_fecCounted port f g i corr uncorr

section
variable (up : s.portUp port = true) (idle : s.inj = none) (sound : f.fecBad = 0)
include up idle sound

theorem State.rxFrame_runt (short : f.len < 64) : s.rxFrame port f = (none, (s.fecCounted port f).bump F.PRT_RUNT 1 port) := by
  simp [State.rxFrame, up, State.inject_idle idle, sound, short, State.fecCounted]

variable (enough : 64 ≤ f.len)
include enough

theorem State.rxFrame_oversize (long : s.rd F.PRT_LP_max_frame port < f.len) :
    s.rxFrame port f = (none, (s.fecCounted port f).bump F.PRT_OVERSIZE 1 port) := by
  have max_frame := s.rd_fecCounted port f F.PRT_LP_max_frame port (by decide) (by decide)
  rw [State.fecCounted, sound] at max_frame
  simp [State.rxFrame, up, State.inject_idle idle, sound, Nat.not_lt.mpr enough, max_frame, long, State.fecCounted]

/-- A frame with a good shim, of which nothing is left to deliver once its shim is judged. -/
theorem State.rxFrame_shim {h : Shim} {t : State} (fits : f.len ≤ s.rd F.PRT_LP_max_frame port) (fcs : f.fcsOk = true)
    (shim : f.shim = some h) (ok : shimOk h = true) (taken : (s.rxCounted port f).rxShim port f h = (none, t)) : s.rxFrame port f = (none, t) := by
  have max_frame := s.rd_fecCounted port f F.PRT_LP_max_frame port (by decide) (by decide)
  rw [State.fecCounted, sound] at max_frame
  rw [State.rxCounted, State.fecCounted, sound] at taken
  have whole : ({ f with fcsOk := true, fecBad := 0, shim := some h } : Frame) = f := by rw [← fcs, ← sound, ← shim]
  simp [State.rxFrame, up, State.inject_idle idle, sound, Nat.not_lt.mpr enough, max_frame, Nat.not_lt.mpr fits, fcs, whole, shim, ok, taken]

end

/-! ### HSN order (R304) -/

section
variable {h : Shim} (on : s.rd F.PRT_LP_replay_on port = 1) (silent : h.ackValid = false)
include on silent

/-- A FILLER in order advances the HSN expected, and is to be acknowledged; an ACK is not yet due. -/
theorem State.rxShim_filler (kind : h.kind = 5) (order : h.hsn = (s.lport port).rxHsn) (few : (s.lport port).toAck < 63) : s.rxShim port f h =
    (none, s.modLport port fun l => { l with rxHsn := (l.rxHsn + 1) % 4096, toAck := l.toAck + 1, nak := none }) := by
  have early : ¬64 ≤ (s.lport port).toAck + 1 := by omega
  simp [State.rxShim, kind, on, silent, order, early]

/-- A FILLER or data frame out of order is answered with a NAK. -/
theorem State.rxShim_gap (idle : s.inj = none) (kind : h.kind = 5 ∨ h.kind = 0) (gap : h.hsn ≠ (s.lport port).rxHsn) :
    s.rxShim port f h = (none, s.hopNakOut port) := by
  rcases kind with kind | kind <;> simp [State.rxShim, kind, on, silent, gap, State.inject_idle idle]

end

/-- The NAK names the HSN expected; it leaves at once where none was sent before it. -/
theorem State.hopNakOut_naks (on : s.rd F.PRT_LP_replay_on port = 1) (first : (s.lport port).nak = none) :
    ((s.hopNakOut port).lport port).rxHsn = (s.lport port).rxHsn ∧ ((s.hopNakOut port).lport port).nak = some ((s.lport port).rxHsn, s.now) ∧
      (s.hopNakOut port).rd F.HOP_NAK_SENT = (s.rd F.HOP_NAK_SENT + 1) % 2 ^ F.HOP_NAK_SENT.width ∧ (s.hopNakOut port).mem = s.mem := by
  have e : s.hopNakOut port = ((s.modLport port fun l => { l with nak := some (l.rxHsn, s.now) }).sendHop port 2 (s.lport port).rxHsn).bump
      F.HOP_NAK_SENT := by
    rw [State.hopNakOut, if_neg (by omega), first, if_pos rfl]
  rw [e, State.lport_bump, State.lport_sendHop, State.lport_modLport, State.rd_bump_self _ _ _ _ (by decide),
    State.rd_sendHop _ _ _ _ _ _ (by decide) (by decide), State.rd_modLport, State.mem_bump,
    State.mem_sendHop, State.mem_modLport]
  exact ⟨rfl, rfl, rfl, rfl⟩

/-! ### Transit frames that age (R299) -/

theorem State.transitAged_leaves {n : Nat} {q : Queued} (hq : s.egress[n]? = some q) (transit : q.transit = true) :
    s.transitAged n = State.bump { s.measure q.port with egress := s.egress.eraseIdx n } F.HOP_DROP_AGE := by
  simp only [State.transitAged, hq, if_pos transit]

theorem State.transitAged_none {n : Nat} (none_ : (s.egress[n]?.any fun q => q.transit) = false) : s.transitAged n = s := by
  unfold State.transitAged
  split
  next q hq =>
    rw [hq] at none_
    exact if_neg (by simpa using none_)
  next => rfl

/-! ### The rows -/

section
variable {P : State → Prop} (hrun : s.power = .run)
include hrun

theorem transitAgeExpiry_completes {n : Nat} (p : P ((s.transitAged n).requeue s.pending)) : Completes (.transitAgeExpiry n) s P :=
  completes_act (f := fun s => s.transitAged n) hrun rfl p

variable (hport : port < 64)
include hport

theorem frameReceive_refused (stray : s.portCarries f = false) : Completes (.frameReceive port f) s fun t => t = s :=
  completes_actOn hrun (rfl : _ = execFrameReceive port f s) (decide_eq_true hport) (by rw [State.receiveFrame_refused stray]; rfl)

/-- A frame that the port carries, by what its checks let through. -/
theorem frameReceive_settles (carries : s.portCarries f = true) {g : Option Frame} {u : State} (taken : s.rxFrame port f = (g, u))
    (p : P (g.elim u fun x => u.deliverFrame x)) : Settles (.frameReceive port f) s P :=
  completes_actOn hrun (rfl : _ = execFrameReceive port f s) (decide_eq_true hport) ⟨_, by rw [State.receiveFrame_settles carries taken], p⟩

variable (running : s.rd F.RST_STATUS_retired = 0)
include running

/-- In a device that is not RETIRED, one of which nothing is left to deliver. -/
theorem frameReceive_stops {u : State} (taken : s.rxFrame port f = (none, u)) (p : P u) : Settles (.frameReceive port f) s P :=
  frameReceive_settles hrun hport (State.portCarries_running running f) taken p

end

end

/-- HOP_DATA_FRAME is FRAME_RECEIVE of the frame with its shim. -/
theorem hopDataFrame_settles {s : State} {port : Nat} {f : Frame} {h : Shim} {P : State → Prop}
    (received : Settles (.frameReceive port { f with shim := some h }) s P) : Settles (.hopDataFrame port h f) s P := received

/-- Settles O28: a frame by what its port carries and what the checks of R287 and the HSN order let through, a transit frame by its place in the queue. -/
theorem framesArrive : Obligations.FramesArrive := by
  intro s port f hrun hport
  refine ⟨fun h => ⟨fun stray => frameReceive_refused hrun hport stray, fun stray => frameReceive_refused hrun hport stray⟩,
    fun carries g u taken => frameReceive_settles hrun hport carries taken rfl,
    fun g u h carries taken => hopDataFrame_settles (frameReceive_settles hrun hport carries taken rfl),
    fun running => ⟨fun g u taken => frameReceive_settles hrun hport (State.portCarries_running running f) taken rfl,
      fun g u h taken => hopDataFrame_settles (frameReceive_settles hrun hport (State.portCarries_running running _) taken rfl),
      fun up idle sound short => frameReceive_stops hrun hport running (State.rxFrame_runt up idle sound short) ?runt,
      fun up idle sound enough long => frameReceive_stops hrun hport running (State.rxFrame_oversize up idle sound enough long) ?oversize,
      fun h p up idle sound fcs enough fits body ok silent on => ?shim⟩,
    fun n q hq transit => transitAgeExpiry_completes hrun ?aged, fun n none_ => transitAgeExpiry_completes hrun ?young⟩
  case runt =>
    rw [State.rd_bump_self _ _ _ _ (by decide), State.rd_fecCounted _ _ _ _ _ (by decide) (by decide)]
    exact ⟨rfl, rfl, rfl, rfl, rfl⟩
  case oversize =>
    rw [State.rd_bump_self _ _ _ _ (by decide), State.rd_fecCounted _ _ _ _ _ (by decide) (by decide)]
    exact ⟨rfl, rfl, rfl, rfl, rfl⟩
  case shim =>
    let v := s.rxCounted port { f with shim := some h }
    have vOn : v.rd F.PRT_LP_replay_on port = 1 := (s.rd_rxCounted port _ F.PRT_LP_replay_on port (by decide)).trans on
    have checks {t : State} (taken : v.rxShim port { f with shim := some h } h = (none, t)) : s.rxFrame port { f with shim := some h } = (none, t) :=
      State.rxFrame_shim (f := { f with shim := some h }) up idle sound enough fits fcs rfl ok taken
    refine ⟨fun kind order few => hopDataFrame_settles (frameReceive_stops hrun hport running (checks (State.rxShim_filler vOn silent kind order few)) ?_),
      fun kind gap first => hopDataFrame_settles (frameReceive_stops hrun hport running (checks (State.rxShim_gap vOn silent idle kind gap)) ?_)⟩
    · rw [State.lport_modLport]
      exact ⟨rfl, rfl, rfl, rfl⟩
    · obtain ⟨rxHsn, nak, counted, mem⟩ := State.hopNakOut_naks vOn first
      rw [s.rd_rxCounted port _ F.HOP_NAK_SENT 0 (by decide)] at counted
      exact ⟨rxHsn, nak, counted, mem⟩
  case aged =>
    rw [State.transitAged_leaves hq transit, State.rd_requeue, State.rd_bump_self _ _ _ _ (by decide)]
    exact ⟨rfl, rfl, rfl⟩
  case young =>
    rw [State.transitAged_none none_]
    rfl

end Sys2Proof.Machine
end

section
/-!
PROOFS. Priority flow control and neighbours by LLDP (R293-R295): what a received class changes, the port's own frames, what a neighbour's LLDPDU leaves.
-/

namespace Sys2Proof.Machine

section
variable {s : State} {p tc : Nat}

/-! ### A PFC frame is received (R293) -/

theorem State.pfcClass_of_lay {t : State} (h : t.lay = s.lay) : t.pfcClass tc = s.pfcClass tc := by rw [State.pfcClass, h]; rfl

theorem State.portRate_of_lay {t : State} (h : t.lay = s.lay) : t.portRate p = s.portRate p := by rw [State.portRate, h]; rfl

/-- A class-enable vector that names one class. -/
theorem enabledClasses_single : ∀ tc < 8, ((List.range 8).filter fun i => (2 ^ tc).testBit i) = [tc] := by decide

/-- A PFC frame that names a flow-controlled class counts. -/
def State.pfcCounted (s : State) (p : Nat) : State := (s.bump F.PRT_PFC_RX 1 p).evt 15

theorem State.pfcCounted_only (s : State) (p : Nat) : RegOnly .PWR_EVT (s.bump F.PRT_PFC_RX 1 p) (s.pfcCounted p) := State.evt_only _ 15

theorem State.pfcCounted_lport (s : State) (p : Nat) : (s.pfcCounted p).lport p = s.lport p :=
  State.lport_of_lports (s.pfcCounted_only p).lports p

theorem State.pfcCounted_pfcClass (s : State) (p tc : Nat) : (s.pfcCounted p).pfcClass tc = s.pfcClass tc :=
  State.pfcClass_of_lay (s.pfcCounted_only p).lay

theorem State.pfcCounted_counts (s : State) (p : Nat) : (s.pfcCounted p).rd F.PRT_PFC_RX p = (s.rd F.PRT_PFC_RX p + 1) % 2 ^ F.PRT_PFC_RX.width :=
  ((s.pfcCounted_only p).rd F.PRT_PFC_RX p rfl (by decide)).trans (State.rd_bump_self _ _ _ _ (by decide))

/-- With a flow-controlled class among those named, each named class is taken in turn. -/
theorem State.pfcFrame_takes {enable : Nat} (quanta : List Nat) (some_ : ((List.range 8).filter fun i => enable.testBit i).any s.pfcClass = true) :
    s.pfcFrame p enable quanta = ((List.range 8).filter fun i => enable.testBit i).foldl (fun (v : State) c => v.pfcOne p c (quanta.getD c 0))
      (s.pfcCounted p) := if_pos some_

theorem State.pfcFrame_single (htc : tc < 8) (quanta : List Nat) (flow : s.pfcClass tc = true) :
    s.pfcFrame p (2 ^ tc) quanta = (s.pfcCounted p).pfcOne p tc (quanta.getD tc 0) := by
  rw [State.pfcFrame_takes quanta (by rw [enabledClasses_single tc htc]; simpa using flow), enabledClasses_single tc htc]
  rfl

theorem State.pfcFrame_ignores (htc : tc < 8) (quanta : List Nat) (plain : s.pfcClass tc = false) :
    s.pfcFrame p (2 ^ tc) quanta = s.bump F.PRT_PFC_IGNORED 1 p :=
  if_neg (by rw [enabledClasses_single tc htc]; simp [plain])

section
variable (flow : s.pfcClass tc = true)
include flow

/-- Quanta pause a class that is not deaf until they have run out; the pause keeps its beginning. -/
theorem State.pfcOne_pauses {quanta : Nat} (some_ : 0 < quanta) (hears : (s.lport p).deaf.contains tc = false) : s.pfcOne p tc quanta =
    s.modLport p fun l => { l with
      paused := Tbl.set l.paused tc (s.now + ceilDiv (quanta * 64) (max 1 (s.portRate p)), ((Tbl.get? l.paused tc).map (·.2)).getD s.now) } := by
  rw [State.pfcOne, if_neg (by simp [flow]), if_neg (by omega), if_neg (by rw [hears]; decide)]

theorem State.pfcOne_releases : s.pfcOne p tc 0 =
    s.modLport p fun l => { l with paused := Tbl.erase l.paused tc, deaf := l.deaf.filter (· != tc) } := by
  rw [State.pfcOne, if_neg (by simp [flow]), if_pos rfl]

theorem State.pfcFrame_pauses (htc : tc < 8) {quanta : List Nat} (some_ : 0 < quanta.getD tc 0) (hears : (s.lport p).deaf.contains tc = false) :
    Tbl.get? ((s.pfcFrame p (2 ^ tc) quanta).lport p).paused tc =
        some (s.now + ceilDiv (quanta.getD tc 0 * 64) (max 1 (s.portRate p)), ((Tbl.get? (s.lport p).paused tc).map (·.2)).getD s.now) ∧
      (s.pfcFrame p (2 ^ tc) quanta).rd F.PRT_PFC_RX p = (s.rd F.PRT_PFC_RX p + 1) % 2 ^ F.PRT_PFC_RX.width ∧
      (s.pfcFrame p (2 ^ tc) quanta).mem = s.mem := by
  have only := s.pfcCounted_only p
  rw [State.pfcFrame_single htc quanta flow, State.pfcOne_pauses ((s.pfcCounted_pfcClass p tc).trans flow) some_ (by rw [s.pfcCounted_lport]; exact hears),
    State.lport_modLport, State.rd_modLport, State.mem_modLport, s.pfcCounted_lport, s.pfcCounted_counts, only.now, only.mem,
    State.portRate_of_lay only.lay]
  exact ⟨Tbl.get?_set_self .., rfl, rfl⟩

theorem State.pfcFrame_releases (htc : tc < 8) {quanta : List Nat} (zero : quanta.getD tc 0 = 0) :
    Tbl.get? ((s.pfcFrame p (2 ^ tc) quanta).lport p).paused tc = none ∧ ((s.pfcFrame p (2 ^ tc) quanta).lport p).deaf.contains tc = false := by
  rw [State.pfcFrame_single htc quanta flow, zero, State.pfcOne_releases ((s.pfcCounted_pfcClass p tc).trans flow), State.lport_modLport]
  exact ⟨(Tbl.get?_erase ..).trans (if_pos rfl), by simp⟩

end

/-! ### A frame of the port itself (R303, R304) -/

/-- The frame of the port itself: with the shim of a data frame exactly where replay runs. -/
def State.ownFrame (s : State) (p dst ethType : Nat) (body : FrameBody) : Frame :=
  match s.dataShim p 0 (s.lport p).txHsn ethType with
  | some h => s.ctlFrame p dst 0x88B6 (some h) body
  | none => s.ctlFrame p dst ethType none body

theorem State.ownFrame_body (s : State) (p dst ethType : Nat) (body : FrameBody) : (s.ownFrame p dst ethType body).body = body := by
  unfold State.ownFrame
  split <;> rfl

theorem State.ownFrame_shim (s : State) (p dst ethType : Nat) (body : FrameBody) :
    (s.ownFrame p dst ethType body).shim.isSome = (s.rd F.PRT_LP_replay_on p == 1) := by
  by_cases on : s.rd F.PRT_LP_replay_on p = 1 <;> simp [State.ownFrame, State.dataShim, State.ctlFrame, on]

/-- With room in the replay buffer it leaves, kept where replay runs. -/
theorem State.sendOwn_eq (room : s.replayRoom p 56 = true) (dst ethType : Nat) (body : FrameBody) (counted : State → State) :
    s.sendOwn p dst ethType body counted =
      counted ((s.keepSent p none (some (s.ownFrame p dst ethType body))).sendFrame p (s.ownFrame p dst ethType body)) :=
  if_neg (by simp [room])

theorem State.sendOwn_full (full : s.replayRoom p 56 = false) (dst ethType : Nat) (body : FrameBody) (counted : State → State) :
    s.sendOwn p dst ethType body counted = s := if_pos (by simp [full])

/-- Keeping a frame changes nothing of the registers, the memory, what has left, and the classes held as paused. -/
theorem State.keepSent_leaves (s : State) (p : Nat) (q : Option Queued) (f : Option Frame) : (s.keepSent p q f).regs = s.regs ∧
    (s.keepSent p q f).mem = s.mem ∧ (s.keepSent p q f).outbox = s.outbox ∧ ((s.keepSent p q f).lport p).xoff = (s.lport p).xoff := by
  unfold State.keepSent
  split
  · exact ⟨rfl, rfl, rfl, by rw [State.lport_modLport]⟩
  · exact ⟨rfl, rfl, rfl, rfl⟩

theorem State.rd_of_regs {t : State} (h : t.regs = s.regs) (f : Fld) (i : Nat) : t.rd f i = s.rd f i := by
  rw [State.rd, State.reg, h]; rfl

/-! ### A class of the device is held (R293) -/

/-- A PFC frame of the device leaves and counts. -/
theorem State.sendPfc_sends (room : s.replayRoom p 56 = true) (quanta : Nat) : ((s.sendPfc p tc quanta).lport p).xoff = (s.lport p).xoff ∧
    (s.sendPfc p tc quanta).rd F.PRT_PFC_TX p = (s.rd F.PRT_PFC_TX p + 1) % 2 ^ F.PRT_PFC_TX.width ∧
    ∃ f : Frame, (s.sendPfc p tc quanta).outbox = s.outbox ++ [.frame p f] ∧
      f.body = .pfc (1 <<< tc) ((List.range 8).map fun i => if i = tc then quanta else 0) := by
  let f := s.ownFrame p pfcMac 0x8808 (.pfc (1 <<< tc) ((List.range 8).map fun i => if i = tc then quanta else 0))
  obtain ⟨regs, -, outbox, xoff⟩ := s.keepSent_leaves p none (some f)
  have e : s.sendPfc p tc quanta = ((s.keepSent p none (some f)).sendFrame p f).bump F.PRT_PFC_TX 1 p := State.sendOwn_eq room ..
  rw [e, State.lport_bump, State.lport_sendFrame, State.rd_bump_self _ _ _ _ (by decide), State.rd_sendFrame _ _ _ _ _ (by decide) (by decide),
    State.rd_of_regs regs, State.outbox_bump, State.outbox_sendFrame, outbox]
  exact ⟨xoff, rfl, f, rfl, State.ownFrame_body ..⟩

/-- The room for a frame does not depend on the classes held. -/
theorem State.replayRoom_xoff (s : State) (p n : Nat) (x : LPort → List Nat) :
    (s.modLport p fun l => { l with xoff := x l }).replayRoom p n = s.replayRoom p n := by
  simp only [State.replayRoom, State.rd_modLport, State.lport_modLport]

section
variable (up : s.portUp p = true) (flow : s.pfcClass tc = true) {kib : Nat}
include up flow

theorem State.pfcRefresh_holds (above : s.rd F.PRT_PFC_xoff_kib (p / 8) < kib) (new : (s.lport p).xoff.contains tc = false) :
    s.pfcRefresh p tc kib = (s.modLport p fun l => { l with xoff := l.xoff ++ [tc] }).sendPfc p tc 0xFFFF := by
  rw [State.pfcRefresh, if_neg (by simp [up, flow])]
  simp only [new]
  rw [if_pos (.inl above)]
  rfl

theorem State.pfcRefresh_repeats (above : s.rd F.PRT_PFC_xon_kib (p / 8) < kib) (held : (s.lport p).xoff.contains tc = true) :
    s.pfcRefresh p tc kib = (s.modLport p fun l => l).sendPfc p tc 0xFFFF := by
  rw [State.pfcRefresh, if_neg (by simp [up, flow])]
  simp only [held]
  rw [if_pos (.inr ⟨trivial, above⟩)]
  rfl

theorem State.pfcRefresh_frees (below : kib ≤ s.rd F.PRT_PFC_xon_kib (p / 8)) (under : kib ≤ s.rd F.PRT_PFC_xoff_kib (p / 8))
    (held : (s.lport p).xoff.contains tc = true) :
    s.pfcRefresh p tc kib = (s.modLport p fun l => { l with xoff := l.xoff.filter (· != tc) }).sendPfc p tc 0 := by
  rw [State.pfcRefresh, if_neg (by simp [up, flow])]
  simp only [held]
  rw [if_neg (by omega), if_pos ⟨trivial, below⟩]

end

/-! ### The watchdog (R294) -/

theorem State.pfcWatchdog_deafens {q : Nat × Nat} (paused : Tbl.get? (s.lport p).paused tc = some q) :
    Tbl.get? ((s.pfcWatchdog p tc).lport p).paused tc = none ∧ tc ∈ ((s.pfcWatchdog p tc).lport p).deaf ∧
      (s.pfcWatchdog p tc).rd F.PRT_PFC_WD p = (s.rd F.PRT_PFC_WD p + 1) % 2 ^ F.PRT_PFC_WD.width := by
  rw [State.pfcWatchdog, if_neg (by simp [paused]), State.lport_logEv, State.lport_bump, State.lport_modLport, State.rd_logEv _ _ _ _ _ _ _ _ _ rfl,
    State.rd_bump_self _ _ _ _ (by decide), State.rd_modLport]
  exact ⟨(Tbl.get?_erase ..).trans (if_pos rfl), by simp, rfl⟩

/-! ### A neighbour is shown, met and forgotten (R295) -/

/-- What the registers of a port show of its neighbour: whether it sent the Rymus TLV, and the device and port that this names. -/
def State.showNeighbour (s : State) (p rymus dev lport : Nat) : State :=
  ((s.wr F.PRT_LP_nbr_rymus rymus p).wr F.PRT_LP_nbr_dev dev p).wr F.PRT_LP_nbr_lport lport p

theorem State.showNeighbour_only (s : State) (p rymus dev lport : Nat) : RegOnly .PRT_LP_w18 s (s.showNeighbour p rymus dev lport) :=
  ((RegOnly.wr s F.PRT_LP_nbr_rymus _ _).trans (.wr _ F.PRT_LP_nbr_dev _ _)).trans (.wr _ F.PRT_LP_nbr_lport _ _)

theorem State.showNeighbour_shows (s : State) (p rymus dev lport : Nat) :
    (s.showNeighbour p rymus dev lport).rd F.PRT_LP_nbr_rymus p = rymus % 2 ∧ (s.showNeighbour p rymus dev lport).rd F.PRT_LP_nbr_dev p = dev % 2 ^ 20 ∧
    (s.showNeighbour p rymus dev lport).rd F.PRT_LP_nbr_lport p = lport % 2 ^ 6 := by
  simp (disch := decide) only [State.showNeighbour, State.rd_wr_bits, State.rd_wr_self]
  exact ⟨rfl, rfl, rfl⟩

/-- Whether replay runs does not depend on the neighbour that is shown. -/
theorem State.showNeighbour_replay_on (s : State) (p rymus dev lport i : Nat) :
    (s.showNeighbour p rymus dev lport).rd F.PRT_LP_replay_on i = s.rd F.PRT_LP_replay_on i := by
  simp (disch := decide) only [State.showNeighbour, State.rd_wr_bits]

theorem State.forget_forgets (s : State) (p : Nat) : ((State.lldpdu.forget s p).lport p).nbr = false ∧
    (State.lldpdu.forget s p).rd F.PRT_LP_replay_on p = 0 ∧ (State.lldpdu.forget s p).rd F.PRT_LP_nbr_rymus p = 0 ∧
    (State.lldpdu.forget s p).rd F.PRT_LP_nbr_dev p = 0 ∧ (State.lldpdu.forget s p).mem = s.mem := by
  let v := (s.stopReplay p).modLport p fun l => { l with nbr := false, nbrReplay := false }
  have e : State.lldpdu.forget s p = v.showNeighbour p 0 0 0 := rfl
  obtain ⟨rymus, dev, -⟩ := v.showNeighbour_shows p 0 0 0
  have only := v.showNeighbour_only p 0 0 0
  rw [e, State.lport_of_lports only.lports, State.lport_modLport, State.showNeighbour_replay_on, State.rd_modLport, State.stopReplay_off]
  exact ⟨rfl, rfl, rymus, dev, only.mem⟩

/-- The next-hop MAC is the neighbour's unless the manager has written one. -/
def State.learnMac (s : State) (p mac : Nat) : State :=
  if s.rd F.PRT_LP_nh_mac p = 0 ∨ s.rd F.PRT_LP_nh_learned p = 1 then (s.wr F.PRT_LP_nh_mac mac p).wr F.PRT_LP_nh_learned 1 p else s

theorem State.learnMac_only (s : State) (p mac : Nat) : RegOnly .PRT_LP_w10 s (s.learnMac p mac) := by
  unfold State.learnMac
  split
  · exact (RegOnly.wr s F.PRT_LP_nh_mac _ _).trans (.wr _ F.PRT_LP_nh_learned _ _)
  · exact .refl _ s

theorem State.learnMac_learns (mac : Nat) (none_ : s.rd F.PRT_LP_nh_mac p = 0) :
    (s.learnMac p mac).rd F.PRT_LP_nh_mac p = mac % 2 ^ 48 ∧ (s.learnMac p mac).rd F.PRT_LP_nh_learned p = 1 := by
  rw [State.learnMac, if_pos (.inl none_)]
  simp (disch := decide) only [State.rd_wr_bits, State.rd_wr_self]
  exact ⟨rfl, rfl⟩

/-- What is shown of the neighbour that sent an LLDPDU: the device and port of its Rymus TLV, or that it has none. -/
def shownNeighbour (d : Lldp) : Nat × Nat × Nat :=
  match d.rymus with
  | some y => (1, y.dev, y.lport)
  | none => (0, 0, 0)

/-- A neighbour whose LLDPDU has a lifetime: remembered with its replay bit, shown, its MAC learned. -/
def State.meetNeighbour (s : State) (p : Nat) (d : Lldp) : State :=
  ((s.modLport p fun l => { l with nbr := true, nbrReplay := (d.rymus.map (·.replay)).getD false }).showNeighbour p (shownNeighbour d).1
    (shownNeighbour d).2.1 (shownNeighbour d).2.2).learnMac p d.chassis

theorem State.meetNeighbour_leaves (s : State) (p : Nat) (d : Lldp) :
    (s.meetNeighbour p d).lport p = { s.lport p with nbr := true, nbrReplay := (d.rymus.map (·.replay)).getD false } ∧
    (s.meetNeighbour p d).rd F.PRT_LP_replay_on p = s.rd F.PRT_LP_replay_on p ∧
    (s.meetNeighbour p d).rd F.PRT_LP_nbr_rymus p = (shownNeighbour d).1 % 2 ∧
    (s.meetNeighbour p d).rd F.PRT_LP_nbr_dev p = (shownNeighbour d).2.1 % 2 ^ 20 ∧
    (s.meetNeighbour p d).rd F.PRT_LP_nbr_lport p = (shownNeighbour d).2.2 % 2 ^ 6 ∧
    (s.meetNeighbour p d).mem = s.mem ∧ (s.meetNeighbour p d).outbox = s.outbox := by
  let u := s.modLport p fun l => { l with nbr := true, nbrReplay := (d.rymus.map (·.replay)).getD false }
  let v := u.showNeighbour p (shownNeighbour d).1 (shownNeighbour d).2.1 (shownNeighbour d).2.2
  have shown : RegOnly .PRT_LP_w18 u v := u.showNeighbour_only ..
  have learned : RegOnly .PRT_LP_w10 v (s.meetNeighbour p d) := v.learnMac_only ..
  obtain ⟨rymus, dev, lport⟩ := u.showNeighbour_shows p (shownNeighbour d).1 (shownNeighbour d).2.1 (shownNeighbour d).2.2
  refine ⟨?_, ?_, (learned.rd _ _ rfl (by decide)).trans rymus, (learned.rd _ _ rfl (by decide)).trans dev,
    (learned.rd _ _ rfl (by decide)).trans lport, learned.mem.trans shown.mem, learned.outbox.trans shown.outbox⟩
  · exact (State.lport_of_lports (learned.lports.trans shown.lports) p).trans (State.lport_modLport ..)
  · exact (learned.rd _ _ rfl (by decide)).trans (u.showNeighbour_replay_on ..)

theorem State.meetNeighbour_learns (d : Lldp) (none_ : s.rd F.PRT_LP_nh_mac p = 0) :
    (s.meetNeighbour p d).rd F.PRT_LP_nh_mac p = d.chassis % 2 ^ 48 ∧ (s.meetNeighbour p d).rd F.PRT_LP_nh_learned p = 1 := by
  refine State.learnMac_learns d.chassis ?_
  exact ((State.showNeighbour_only ..).rd F.PRT_LP_nh_mac p rfl (by decide)).trans none_

/-- A neighbour that knows no hop replay is met, and replay stops where it ran. -/
theorem State.lldpdu_meets {d : Lldp} (lives : d.ttl ≠ 0) (plain : (d.rymus.map (·.replay)).getD false = false) :
    s.lldpdu p d = if s.rd F.PRT_LP_replay_on p = 1 then (s.meetNeighbour p d).stopReplay p else s.meetNeighbour p d := by
  obtain ⟨record, on, -⟩ := s.meetNeighbour_leaves p d
  have no : (s.meetNeighbour p d).replayOk p = false := by rw [State.replayOk, record, plain, Bool.and_false]
  have e : s.lldpdu p d = if (s.meetNeighbour p d).replayOk p then
        (if (s.meetNeighbour p d).rd F.PRT_LP_replay_on p = 1 then s.meetNeighbour p d else (s.meetNeighbour p d).sendHop p 3 0)
      else if (s.meetNeighbour p d).rd F.PRT_LP_replay_on p = 1 then (s.meetNeighbour p d).stopReplay p else s.meetNeighbour p d := by
    rw [State.lldpdu, if_neg lives]
    unfold State.meetNeighbour shownNeighbour
    cases d.rymus <;> rfl
  rw [e, no, on]
  rfl

theorem State.rd_stopReplay_bits (s : State) (p i : Nat) (f : Fld) (same : f.reg = .PRT_LP_w18) (apart : f.apart F.PRT_LP_replay_on) :
    (s.stopReplay p).rd f i = s.rd f i := s.rd_wr_bits f F.PRT_LP_replay_on 0 i p same (by decide) apart

theorem State.rd_stopReplay_reg (s : State) (p i : Nat) (f : Fld) (other : f.reg ≠ .PRT_LP_w18) : (s.stopReplay p).rd f i = s.rd f i :=
  s.rd_wr_reg f F.PRT_LP_replay_on 0 i p other

/-- Without the Rymus TLV. -/
theorem State.lldpdu_plain {d : Lldp} (lives : d.ttl ≠ 0) (plain : d.rymus = none) (off : s.rd F.PRT_LP_replay_on p = 0) :
    ((s.lldpdu p d).lport p).nbr = true ∧ ((s.lldpdu p d).lport p).nbrReplay = false ∧ (s.lldpdu p d).rd F.PRT_LP_nbr_rymus p = 0 ∧
      (s.lldpdu p d).rd F.PRT_LP_nbr_dev p = 0 ∧ (s.lldpdu p d).mem = s.mem ∧ (s.lldpdu p d).outbox = s.outbox := by
  have none_ : shownNeighbour d = (0, 0, 0) := by rw [shownNeighbour, plain]
  obtain ⟨record, -, rymus, dev, -, mem, outbox⟩ := s.meetNeighbour_leaves p d
  rw [none_] at rymus dev
  rw [State.lldpdu_meets lives (by rw [plain]; rfl), if_neg (by omega), record, plain]
  exact ⟨rfl, rfl, rymus, dev, mem, outbox⟩

/-- With it, and no replay of its own. -/
theorem State.lldpdu_rymus {d : Lldp} {y : RymusTlv} (lives : d.ttl ≠ 0) (tlv : d.rymus = some y) (plain : y.replay = false) (dev_lt : y.dev < 2 ^ 20)
    (lport_lt : y.lport < 64) (mac_lt : d.chassis < 2 ^ 48) (unset : s.rd F.PRT_LP_nh_mac p = 0) :
    (s.lldpdu p d).rd F.PRT_LP_nbr_rymus p = 1 ∧ (s.lldpdu p d).rd F.PRT_LP_nbr_dev p = y.dev ∧ (s.lldpdu p d).rd F.PRT_LP_nbr_lport p = y.lport ∧
      (s.lldpdu p d).rd F.PRT_LP_nh_mac p = d.chassis ∧ (s.lldpdu p d).rd F.PRT_LP_nh_learned p = 1 ∧ ((s.lldpdu p d).lport p).nbr = true := by
  have some_ : shownNeighbour d = (1, y.dev, y.lport) := by rw [shownNeighbour, tlv]
  obtain ⟨record, -, rymus, dev, lport, -, -⟩ := s.meetNeighbour_leaves p d
  obtain ⟨mac, learned⟩ := State.meetNeighbour_learns d unset
  rw [some_] at rymus dev lport
  rw [Nat.mod_eq_of_lt dev_lt] at dev
  rw [Nat.mod_eq_of_lt (show y.lport < 2 ^ 6 from lport_lt)] at lport
  rw [Nat.mod_eq_of_lt mac_lt] at mac
  rw [State.lldpdu_meets lives (by rw [tlv]; exact plain)]
  split
  · rw [State.rd_stopReplay_bits _ _ _ F.PRT_LP_nbr_rymus rfl (by decide), State.rd_stopReplay_bits _ _ _ F.PRT_LP_nbr_dev rfl (by decide),
      State.rd_stopReplay_bits _ _ _ F.PRT_LP_nbr_lport rfl (by decide), State.rd_stopReplay_reg _ _ _ F.PRT_LP_nh_mac (by decide),
      State.rd_stopReplay_reg _ _ _ F.PRT_LP_nh_learned (by decide), State.lport_stopReplay, record]
    exact ⟨rymus, dev, lport, mac, learned, rfl⟩
  · rw [record]
    exact ⟨rymus, dev, lport, mac, learned, rfl⟩

/-! ### The port's own LLDPDU (R295) -/

theorem State.sendLldp_sends (room : s.replayRoom p 56 = true) : ∃ f : Frame, (s.sendLldp p).outbox = s.outbox ++ [.frame p f] ∧
    f.body = .lldp (s.ownLldp p) ∧ f.shim.isSome = (s.rd F.PRT_LP_replay_on p == 1) ∧ (s.sendLldp p).mem = s.mem := by
  let f := s.ownFrame p lldpMac 0x88CC (.lldp (s.ownLldp p))
  obtain ⟨-, mem, outbox, -⟩ := s.keepSent_leaves p none (some f)
  have e : s.sendLldp p = (s.keepSent p none (some f)).sendFrame p f := State.sendOwn_eq room ..
  rw [e, State.outbox_sendFrame, State.mem_sendFrame, outbox]
  exact ⟨f, rfl, State.ownFrame_body .., State.ownFrame_shim .., mem⟩

theorem State.sendLldp_full (full : s.replayRoom p 56 = false) : s.sendLldp p = s := State.sendOwn_full full ..

/-! ### The rows -/

section
variable {P : State → Prop} (hrun : s.power = .run) (up : s.portUp p = true)
include hrun up

theorem pfcFrame_completes {enable : Nat} {quanta : List Nat} (h : P ((s.pfcFrame p enable quanta).requeue s.pending)) :
    Completes (.pfcFrame p enable quanta) s P :=
  completes_actOn hrun (rfl : _ = execPfcFrame p enable quanta s) (State.portUp_exists up) (by rwa [if_pos up])

theorem lldpdu_completes {d : Lldp} (h : P ((s.lldpdu p d).requeue s.pending)) : Completes (.lldpdu p d) s P :=
  completes_actOn hrun (rfl : _ = execLldpdu p d s) (State.portUp_exists up) (by rwa [if_pos up])

theorem lldpTtlExpiry_completes (h : P ((State.lldpdu.forget s p).requeue s.pending)) : Completes (.lldpTtlExpiry p) s P :=
  completes_actOn hrun (rfl : _ = execLldpTtlExpiry p s) (State.portUp_exists up) h

theorem lldpTimer_completes (on : s.rd F.PRT_LP_lldp p = 1) (h : P ((s.sendLldp p).requeue s.pending)) : Completes (.lldpTimer p) s P :=
  completes_actOn hrun (rfl : _ = execLldpTimer p s) (State.portUp_exists up) (by rwa [if_pos ⟨up, on⟩])

variable (htc : tc < 8)
include htc

theorem pfcQuantaExpiry_completes (h : P ((s.modLport p fun l => { l with paused := Tbl.erase l.paused tc }).requeue s.pending)) :
    Completes (.pfcQuantaExpiry p tc) s P :=
  completes_actOn hrun (rfl : _ = execPfcQuantaExpiry p tc s) (by simp [State.portUp_exists up, htc]) h

theorem pfcRefreshTimer_completes {kib : Nat} (h : P ((s.pfcRefresh p tc kib).requeue s.pending)) : Completes (.pfcRefreshTimer p tc kib) s P :=
  completes_actOn (f := fun s => s.pfcRefresh p tc kib) hrun rfl (by simp [State.portUp_exists up, htc]) h

theorem pfcWatchdog_completes (h : P ((s.pfcWatchdog p tc).requeue s.pending)) : Completes (.pfcWatchdog p tc) s P :=
  completes_actOn (f := fun s => s.pfcWatchdog p tc) hrun rfl (by simp [State.portUp_exists up, htc]) h

end

end

/-- Settles O30: a PFC frame by whether it names a flow-controlled class, a refresh by the use of the buffer, an LLDPDU by its lifetime and its TLV. -/
theorem pauseAndNeighbours : Obligations.PauseAndNeighbours := by
  intro s p tc hrun up htc
  refine ⟨fun quanta flow some_ hears => pfcFrame_completes hrun up ?pause, fun quanta flow zero => pfcFrame_completes hrun up ?release,
    fun enable quanta some_ => pfcFrame_completes hrun up ?classes, fun quanta plain => pfcFrame_completes hrun up ?ignored,
    pfcQuantaExpiry_completes hrun up htc ?expiry, fun kib flow above new room => pfcRefreshTimer_completes hrun up htc ?hold,
    fun kib flow above held => pfcRefreshTimer_completes hrun up htc ?repeat_,
    fun kib flow below under held room => pfcRefreshTimer_completes hrun up htc ?free, fun q paused => pfcWatchdog_completes hrun up htc ?watchdog,
    fun on room => lldpTimer_completes hrun up on ?send, fun on full => lldpTimer_completes hrun up on ?full,
    fun d gone => lldpdu_completes hrun up ?forget, fun d lives plain off => lldpdu_completes hrun up ?plain,
    fun d y lives tlv plain dev lport mac unset => lldpdu_completes hrun up ?rymus, lldpTtlExpiry_completes hrun up ?ttl⟩
  case pause =>
    rw [State.lport_requeue, State.rd_requeue, State.mem_requeue]
    exact State.pfcFrame_pauses flow htc some_ hears
  case release =>
    rw [State.lport_requeue]
    exact State.pfcFrame_releases flow htc zero
  case classes =>
    rw [State.pfcFrame_takes quanta some_]
    rfl
  case ignored =>
    rw [State.pfcFrame_ignores htc quanta plain]
    exact ⟨State.rd_bump_self _ _ _ _ (by decide), rfl, rfl⟩
  case expiry =>
    rw [State.lport_requeue, State.lport_modLport]
    exact ⟨(Tbl.get?_erase ..).trans (if_pos rfl), rfl, rfl⟩
  case hold =>
    rw [State.pfcRefresh_holds up flow above new, State.lport_requeue, State.rd_requeue, State.outbox_requeue]
    obtain ⟨xoff, counted, sent⟩ := State.sendPfc_sends (tc := tc) ((s.replayRoom_xoff p 56 fun l => l.xoff ++ [tc]).trans room) 0xFFFF
    rw [State.lport_modLport] at xoff
    exact ⟨xoff, counted, sent⟩
  case repeat_ => rw [State.pfcRefresh_repeats up flow above held]
  case free =>
    rw [State.pfcRefresh_frees up flow below under held, State.lport_requeue, State.outbox_requeue]
    obtain ⟨xoff, -, f, sent, body⟩ := State.sendPfc_sends (tc := tc) ((s.replayRoom_xoff p 56 fun l => l.xoff.filter (· != tc)).trans room) 0
    rw [State.lport_modLport] at xoff
    exact ⟨xoff, f, sent, body.trans (by simp only [ite_self])⟩
  case watchdog =>
    rw [State.lport_requeue, State.rd_requeue]
    exact State.pfcWatchdog_deafens paused
  case send =>
    rw [State.outbox_requeue, State.mem_requeue]
    exact State.sendLldp_sends room
  case full =>
    rw [State.sendLldp_full full]
    rfl
  case forget =>
    rw [State.lldpdu, if_pos gone, State.lport_requeue, State.rd_requeue, State.rd_requeue, State.rd_requeue, State.mem_requeue]
    exact s.forget_forgets p
  case plain =>
    rw [State.lport_requeue, State.rd_requeue, State.rd_requeue, State.mem_requeue, State.outbox_requeue]
    exact State.lldpdu_plain lives plain off
  case rymus =>
    rw [State.lport_requeue, State.rd_requeue, State.rd_requeue, State.rd_requeue, State.rd_requeue, State.rd_requeue]
    exact State.lldpdu_rymus lives tlv plain dev lport mac unset
  case ttl =>
    rw [State.lport_requeue, State.rd_requeue, State.rd_requeue, State.rd_requeue, State.mem_requeue]
    exact s.forget_forgets p

end Sys2Proof.Machine
end

section
/-!
PROOFS. Relay routes (R300, R309) and weather (R305, R306): what ends a route command, who sends a report, which updates are applied.
-/

namespace Sys2Proof.Machine

/-! ### The end of a route command (R300) -/

/-- Beside the routes themselves the end of a route command is shown in HOP_ROUTE_STATUS alone. -/
theorem State.routeResult_only (s : State) (reason : Nat) : RegOnly .HOP_ROUTE_STATUS s (s.routeResult reason) := by
  have shown := (((RegOnly.wr s F.HOP_ROUTE_STATUS_done (b2n (reason == 0)) 0).trans (.wr _ F.HOP_ROUTE_STATUS_refused (b2n (reason != 0)) 0)).trans
    (.wr _ F.HOP_ROUTE_STATUS_reason reason 0)).trans (.wr _ F.HOP_ROUTE_STATUS_entries s.routes.length 0)
  unfold State.routeResult
  dsimp only
  split
  · exact shown
  · exact shown.trans (.of_log (State.logRefused_only ..) _)

theorem RegOnly.routes {r : Reg} {s t : State} (h : RegOnly r s t) : t.routes = s.routes := by obtain ⟨_, _, _, rfl, _⟩ := h; rfl

/-- Logging a refusal leaves what HOP_ROUTE_STATUS shows. -/
theorem State.rd_routeResult (s : State) (reason : Nat) {f : Fld} (log : f.reg.isLog = false) : (s.routeResult reason).rd f =
    ((((s.wr F.HOP_ROUTE_STATUS_done (b2n (reason == 0))).wr F.HOP_ROUTE_STATUS_refused (b2n (reason != 0))).wr F.HOP_ROUTE_STATUS_reason reason).wr
      F.HOP_ROUTE_STATUS_entries s.routes.length).rd f := by
  unfold State.routeResult
  dsimp only
  split
  · rfl
  · exact State.rd_logRefused _ _ _ _ _ _ log

theorem State.routeResult_shows (s : State) (reason : Nat) : (s.routeResult reason).rd F.HOP_ROUTE_STATUS_done = b2n (reason == 0) ∧
    (s.routeResult reason).rd F.HOP_ROUTE_STATUS_refused = b2n (reason != 0) ∧ (s.routeResult reason).rd F.HOP_ROUTE_STATUS_reason = reason % 4 := by
  rw [s.rd_routeResult reason rfl, s.rd_routeResult reason rfl, s.rd_routeResult reason rfl]
  simp (disch := decide) only [State.rd_wr_bits, State.rd_wr_self]
  exact ⟨by cases reason == 0 <;> rfl, by cases reason != 0 <;> rfl, rfl⟩

/-! ### The three route commands, judged as the session's holder gives them (R1, R300) -/

@[simp] theorem State.touchSession_routes (s : State) : s.touchSession.routes = s.routes := by
  rcases s.touchSession_cases with h | ⟨_, _, h⟩ <;> rw [h]

@[simp] theorem State.routeMaskOk_touchSession (s : State) (m : Nat) : s.touchSession.routeMaskOk m = s.routeMaskOk m := by
  simp only [State.routeMaskOk, funext s.lportExists_touchSession]

section
variable {s : State}

theorem State.routeWrite_sets (other : s.rd F.HOP_ROUTE_DST_dst ≠ s.devAddr) (ports : s.routeMaskOk (s.rd F.HOP_ROUTE_MASK_mask) = true)
    (room : s.routes.length < 65536) : s.routeWrite =
      State.routeResult { s with routes := Tbl.set s.routes (s.rd F.HOP_ROUTE_DST_dst) (s.rd F.HOP_ROUTE_MASK_mask) } 0 := by
  rw [State.routeWrite, if_neg other, if_neg (by simp [ports]), if_neg (by omega)]

theorem State.routeWrite_own (own : s.rd F.HOP_ROUTE_DST_dst = s.devAddr) : s.routeWrite = s.routeResult 2 := if_pos own

theorem State.routeDelete_erases {m : Nat} (held : Tbl.get? s.routes (s.rd F.HOP_ROUTE_DST_dst) = some m) : s.routeDelete =
    State.routeResult { s with routes := Tbl.erase s.routes (s.rd F.HOP_ROUTE_DST_dst) } 0 := if_neg (by simp [held])

theorem State.routeRead_shows {m : Nat} (held : Tbl.get? s.routes (s.rd F.HOP_ROUTE_DST_dst) = some m) :
    s.routeRead = (s.wr F.HOP_ROUTE_MASK_mask m).routeResult 0 := by
  rw [State.routeRead, held]

/-! ### Who a report goes to (R305) -/

theorem State.sendWeather_unheard (unheard : ∀ k : Nat, s.mgt.session.bind (·.conn) = some k → s.mgtOpen k = false) : s.sendWeather = s := by
  unfold State.sendWeather
  split
  next k conn => exact if_neg (by simp [unheard k conn])
  next => rfl

theorem State.sendWeather_sends {z : Session} {k : Nat} (session : s.mgt.session = some z) (conn : z.conn = some k) (opened : s.mgtOpen k = true) :
    s.sendWeather = s.wxReport.2.mgtSend k 0x57580001 s.wxReport.1 := by
  simp [State.sendWeather, session, conn, opened]

/-! ### Updates (R306) -/

/-- The merged update of the role's holder. -/
theorem State.mgtMessage_weather {k : Nat} (holds : s.connHolds k = true) (body : List Byte) :
    s.mgtMessage k 0x57580002 body = s.touchSession.wxUpdate body := by
  simp [State.mgtMessage, holds]

theorem State.wxUpdate_applies {b : List Byte} (count : fieldLE b 4 4 ≤ 16384) (len : b.length = 16 + 36 * fieldLE b 4 4) :
    s.wxUpdate b = s.wxEntries b (fieldLE b 4 4) := if_neg (by omega)

/-- An update of another length than its count states is ignored, counted and logged. -/
theorem State.wxUpdate_ignores {b : List Byte} (len : b.length ≠ 16 + 36 * fieldLE b 4 4) :
    s.wxUpdate b = (s.bump F.WX_IGNORED).logRefused .HOP 0 (fieldLE b 0 4) := if_pos (.inr (.inr len))

theorem State.wxUpdate_ignored {b : List Byte} (len : b.length ≠ 16 + 36 * fieldLE b 4 4) : (s.wxUpdate b).wx = s.wx ∧ (s.wxUpdate b).mem = s.mem ∧
    (s.wxUpdate b).rd F.WX_IGNORED = (s.rd F.WX_IGNORED + 1) % 2 ^ F.WX_IGNORED.width := by
  rw [State.wxUpdate_ignores len]
  exact ⟨State.wx_logRefused .., State.mem_logRefused .., (State.rd_logRefused _ _ _ _ _ _ rfl).trans (State.rd_bump_self _ _ _ _ (by decide))⟩

@[simp] theorem State.touchSession_wx (s : State) : s.touchSession.wx = s.wx := by
  rcases s.touchSession_cases with h | ⟨_, _, h⟩ <;> rw [h]

/-- The window that the holder has filled is applied from its staged bytes. -/
theorem State.wxGo_touchSession (s : State) : s.touchSession.wxGo = s.touchSession.wxEntries
    ((List.range (16 + 36 * s.rd F.HOP_WX_CMD_entries)).map fun i => Tbl.getD s.wxs.window i 0) (s.rd F.HOP_WX_CMD_entries) := by
  have window : s.touchSession.wxs = s.wxs := by rcases s.touchSession_cases with h | ⟨_, _, h⟩ <;> rw [h]
  rw [State.wxGo, State.touchSession_rd, window]

/-- Levels that lapse are dropped, counted by the ports that had one. -/
theorem State.wxExpire_drops {dst levels t : Nat} (held : Tbl.get? s.wx dst = some (levels, t)) : s.wxExpire dst =
    State.bump { s with wx := Tbl.erase s.wx dst } F.WX_EXPIRED ((List.range 64).filter fun j => bitsOf levels (4 * j) 4 != 0).length := by
  rw [State.wxExpire, held]

/-! ### The rows -/

section
variable {P : State → Prop} (hrun : s.power = .run)
include hrun

theorem weatherReportTimer_completes (h : P (s.sendWeather.requeue s.pending)) : Completes .weatherReportTimer s P := completes_act hrun rfl h

theorem weatherUpdate_completes {k : Nat} {body : List Byte} (hk : k < 8) (opened : s.mgtOpen k = true) (holds : s.connHolds k = true)
    (h : P ((s.touchSession.wxUpdate body).requeue s.pending)) : Completes (.weatherUpdate k body) s P :=
  completes_actOn hrun (rfl : _ = execWeatherUpdate k body s) (decide_eq_true hk) (by rwa [if_pos opened, State.mgtMessage_weather holds])

theorem weatherLevelExpiry_completes {dst : Nat} (h : P ((s.wxExpire dst).requeue s.pending)) : Completes (.weatherLevelExpiry dst) s P :=
  completes_act (f := fun s => s.wxExpire dst) hrun rfl h

variable (hm : s.manages false = true)
include hm

/-- A route that is written holds its mask, and no other route changes. -/
theorem routeWrite_completes (other : s.rd F.HOP_ROUTE_DST_dst ≠ s.devAddr) (ports : s.routeMaskOk (s.rd F.HOP_ROUTE_MASK_mask) = true)
    (room : s.routes.length < 65536) : Completes .routeWrite s fun t =>
      Tbl.get? t.routes (s.rd F.HOP_ROUTE_DST_dst) = some (s.rd F.HOP_ROUTE_MASK_mask) ∧ t.rd F.HOP_ROUTE_STATUS_done = 1 ∧
      t.rd F.HOP_ROUTE_STATUS_reason = 0 ∧ t.mem = s.mem ∧ ∀ e : Nat, e ≠ s.rd F.HOP_ROUTE_DST_dst → Tbl.get? t.routes e = Tbl.get? s.routes e := by
  refine managerRow_completes hrun hm rfl ?_
  rw [State.routeWrite_sets (by simpa using other) (by simpa using ports) (by simpa using room), State.touchSession_rd, State.touchSession_rd,
    State.touchSession_routes, State.routes_requeue, State.rd_requeue, State.rd_requeue, State.mem_requeue]
  set u : State := { s.touchSession with routes := Tbl.set s.routes (s.rd F.HOP_ROUTE_DST_dst) (s.rd F.HOP_ROUTE_MASK_mask) }
  have only := u.routeResult_only 0
  obtain ⟨done, -, reason⟩ := u.routeResult_shows 0
  rw [only.routes, only.mem]
  exact ⟨Tbl.get?_set_self .., done, reason, s.touchSession_mem, fun e he => Tbl.get?_set_ne _ _ _ _ he⟩

theorem routeWrite_refused (own : s.rd F.HOP_ROUTE_DST_dst = s.devAddr) : Completes .routeWrite s fun t => t.routes = s.routes ∧
    t.rd F.HOP_ROUTE_STATUS_refused = 1 ∧ t.rd F.HOP_ROUTE_STATUS_reason = 2 := by
  refine managerRow_completes hrun hm rfl ?_
  rw [State.routeWrite_own (by simpa using own), State.routes_requeue, State.rd_requeue, State.rd_requeue]
  obtain ⟨-, refused, reason⟩ := s.touchSession.routeResult_shows 2
  exact ⟨(State.routeResult_only ..).routes.trans s.touchSession_routes, refused, reason⟩

theorem routeDelete_completes {m : Nat} (held : Tbl.get? s.routes (s.rd F.HOP_ROUTE_DST_dst) = some m) : Completes .routeDelete s fun t =>
    Tbl.get? t.routes (s.rd F.HOP_ROUTE_DST_dst) = none ∧ t.rd F.HOP_ROUTE_STATUS_done = 1 ∧ t.mem = s.mem ∧
      ∀ e : Nat, e ≠ s.rd F.HOP_ROUTE_DST_dst → Tbl.get? t.routes e = Tbl.get? s.routes e := by
  refine managerRow_completes hrun hm rfl ?_
  rw [State.routeDelete_erases (by simpa using held), State.touchSession_rd, State.touchSession_routes, State.routes_requeue, State.rd_requeue,
    State.mem_requeue]
  set u : State := { s.touchSession with routes := Tbl.erase s.routes (s.rd F.HOP_ROUTE_DST_dst) }
  have only := u.routeResult_only 0
  rw [only.routes, only.mem]
  exact ⟨(Tbl.get?_erase ..).trans (if_pos rfl), (u.routeResult_shows 0).1, s.touchSession_mem, fun e he => (Tbl.get?_erase ..).trans (if_neg he)⟩

theorem routeRead_completes {m : Nat} (held : Tbl.get? s.routes (s.rd F.HOP_ROUTE_DST_dst) = some m) (fits : m < 2 ^ 64) : Completes .routeRead s fun t =>
    t.rd F.HOP_ROUTE_MASK_mask = m ∧ t.rd F.HOP_ROUTE_STATUS_done = 1 ∧ t.routes = s.routes ∧ t.mem = s.mem := by
  refine managerRow_completes hrun hm rfl ?_
  rw [State.routeRead_shows (m := m) (by simpa using held), State.routes_requeue, State.rd_requeue, State.rd_requeue, State.mem_requeue]
  set u := s.touchSession.wr F.HOP_ROUTE_MASK_mask m
  have only := u.routeResult_only 0
  have mask : u.rd F.HOP_ROUTE_MASK_mask = m := (State.rd_wr_self _ F.HOP_ROUTE_MASK_mask _ _ (by decide)).trans (Nat.mod_eq_of_lt fits)
  exact ⟨(only.rd _ _ rfl (by decide)).trans mask, (u.routeResult_shows 0).1, only.routes.trans s.touchSession_routes, only.mem.trans s.touchSession_mem⟩

end

end

/-- Settles O31: each route command on the state that the access of the session's holder leaves, a report by who hears it, an update by its length. -/
theorem routesAndWeather : Obligations.RoutesAndWeather := by
  intro s hrun
  refine ⟨fun unheard => weatherReportTimer_completes hrun ?unheard, fun hm other ports room => routeWrite_completes hrun hm other ports room,
    fun hm own => routeWrite_refused hrun hm own, fun m hm held => routeDelete_completes hrun hm held,
    fun m hm held fits => routeRead_completes hrun hm held fits, fun z k session conn opened => weatherReportTimer_completes hrun ?report,
    fun k body hk opened holds _ count len => weatherUpdate_completes hrun hk opened holds ?applied,
    fun k body hk opened holds len => weatherUpdate_completes hrun hk opened holds ?ignored,
    fun z k body hk session conn opened len none_ => weatherUpdate_completes hrun hk opened ?holds ?empty,
    fun hm => managerRow_completes hrun hm rfl ?window, fun dst levels t held => weatherLevelExpiry_completes hrun ?lapsed⟩
  case unheard =>
    rw [State.sendWeather_unheard unheard]
    rfl
  case report => rw [State.sendWeather_sends session conn opened]
  case applied => rw [State.wxUpdate_applies count len]
  case ignored =>
    obtain ⟨wx, mem, counted⟩ := State.wxUpdate_ignored (s := s.touchSession) len
    rw [State.wx_requeue, State.mem_requeue, State.rd_requeue]
    exact ⟨wx.trans s.touchSession_wx, mem.trans s.touchSession_mem, counted.trans (by rw [State.touchSession_rd])⟩
  case holds => simp [State.connHolds, session, conn]
  case empty =>
    rw [State.wxUpdate_applies (by omega) (by omega), none_]
    exact ⟨by simp [State.wxEntries, State.touchSession, session], s.touchSession_wx, s.touchSession_regs⟩
  case window => rw [s.wxGo_touchSession]
  case lapsed =>
    rw [State.wxExpire_drops held]
    exact ⟨(Tbl.get?_erase ..).trans (if_pos rfl), State.rd_bump_self _ _ _ _ (by decide), rfl⟩

end Sys2Proof.Machine
end

section
/-!
PROOFS. Hop replay between neighbours (R302, R304): its start, what acknowledgements release, what is replayed and what ends the link.
-/

namespace Sys2Proof.Machine

section
variable (s : State) (p : Nat)

/-! ### What is kept from an HSN on (R304) -/

/-- The frames kept that lie at an HSN or behind it: those a replay from there sends again. -/
def State.keptFrom (hsn : Nat) : List HopSent := (s.lport p).unacked.filter fun x => !(hsnUpTo x.hsn hsn && x.hsn != hsn)

@[simp] theorem State.lport_hopAck (ack : Nat) : (s.hopAck p ack).lport p = { s.lport p with
    unacked := (s.lport p).unacked.filter fun x => !hsnUpTo x.hsn ack
    again := (s.lport p).again.filter fun h => !hsnUpTo h ack } := State.lport_modLport ..

variable {s p}

/-- Where none of the frames behind the oldest lies before it, a replay from it sends every frame again. -/
theorem State.keptFrom_oldest {x : HopSent} {l : List HopSent} (kept : (s.lport p).unacked = x :: l)
    (order : ∀ y ∈ l, (hsnUpTo y.hsn x.hsn && y.hsn != x.hsn) = false) : s.keptFrom p x.hsn = x :: l := by
  rw [State.keptFrom, kept, List.filter_eq_self]
  intro y hy
  rcases List.mem_cons.mp hy with rfl | hy
  · simp
  · rw [order y hy]; rfl

/-- The oldest frame is among them in every order. -/
theorem State.oldest_mem_keptFrom {x : HopSent} {l : List HopSent} (kept : (s.lport p).unacked = x :: l) : x ∈ s.keptFrom p x.hsn := by
  simp [State.keptFrom, kept]

theorem State.hopTimeout_replays {x : HopSent} {l : List HopSent} (kept : (s.lport p).unacked = x :: l) : s.hopTimeout p = s.hopReplay p x.hsn := by
  rw [State.hopTimeout, kept]

/-! ### Replay, or the end of the link (R304) -/

/-- Where each of the frames was replayed fewer than 8 times: they are to be sent again, in order, and count. -/
theorem State.hopReplay_again {hsn : Nat} (some_ : s.keptFrom p hsn ≠ []) (few : ((s.keptFrom p hsn).any fun x => decide (8 ≤ x.replays)) = false) :
    ((s.hopReplay p hsn).lport p).again = (s.keptFrom p hsn).map (·.hsn) ∧ ((s.hopReplay p hsn).lport p).unacked = (s.lport p).unacked ∧
      (s.hopReplay p hsn).rd F.HOP_REPLAY = (s.rd F.HOP_REPLAY + (s.keptFrom p hsn).length) % 2 ^ F.HOP_REPLAY.width := by
  let v := (s.modLport p fun l => { l with again := (s.keptFrom p hsn).map (·.hsn) }).bump F.HOP_REPLAY (s.keptFrom p hsn).length
  have e : s.hopReplay p hsn = (s.keptFrom p hsn).foldl (fun (s : State) _ => s.evt 4) v := by
    unfold State.hopReplay
    exact (if_neg (by simpa [State.keptFrom] using some_)).trans (if_neg (by simpa [State.keptFrom] using few))
  have only := v.evts_only (s.keptFrom p hsn) 4
  have record : (s.hopReplay p hsn).lport p = { s.lport p with again := (s.keptFrom p hsn).map (·.hsn) } := by
    rw [e, State.lport_of_lports only.lports]
    exact (State.lport_bump ..).trans (State.lport_modLport ..)
  rw [record, e]
  exact ⟨rfl, rfl, (only.rd F.HOP_REPLAY 0 rfl (by decide)).trans (State.rd_bump_self _ _ _ _ (by decide))⟩

/-- Where one of them was replayed 8 times: the port leaves UP, counted as a failure of the link. -/
theorem State.hopReplay_fails {hsn : Nat} {x : HopSent} (hx : x ∈ s.keptFrom p hsn) (often : 8 ≤ x.replays) :
    s.hopReplay p hsn = (s.bump F.HOP_LINK_FAIL).portOut p lpDown := by
  unfold State.hopReplay
  refine (if_neg ?_).trans (if_pos (List.any_eq_true.mpr ⟨x, hx, decide_eq_true often⟩))
  rw [List.isEmpty_iff]
  exact List.ne_nil_of_mem hx

/-! ### The exchange (R302) -/

theorem State.hopStart_starts (ok : s.replayOk p = true) : (s.hopStart p).rd F.PRT_LP_replay_on p = 1 ∧ ((s.hopStart p).lport p).txHsn = 0 ∧
    ((s.hopStart p).lport p).rxHsn = 0 ∧ ((s.hopStart p).lport p).unacked = [] ∧
    ∃ f : Frame, (s.hopStart p).outbox = s.outbox ++ [.frame p f] ∧ f.shim.map (·.kind) = some 4 := by
  rw [State.hopStart, if_pos ok, State.lport_sendHop, State.lport_startReplay, State.outbox_sendHop, State.outbox_startReplay,
    State.rd_sendHop _ _ _ _ F.PRT_LP_replay_on p (by decide) (by decide), State.startReplay_on]
  exact ⟨rfl, rfl, rfl, rfl, _, rfl, rfl⟩

theorem State.hopStartAck_starts (ok : s.replayOk p = true) (off : s.rd F.PRT_LP_replay_on p = 0) : (s.hopStartAck p).rd F.PRT_LP_replay_on p = 1 ∧
    ((s.hopStartAck p).lport p).txHsn = 0 ∧ ((s.hopStartAck p).lport p).rxHsn = 0 ∧ ((s.hopStartAck p).lport p).unacked = [] ∧
    (s.hopStartAck p).outbox = s.outbox := by
  rw [State.hopStartAck, if_pos ⟨ok, off⟩, State.lport_startReplay, State.startReplay_on]
  exact ⟨rfl, rfl, rfl, rfl, s.outbox_startReplay p⟩

/-- Where replay runs, an ACK frame acknowledges the last HSN in order. -/
theorem State.hopFrame_acks (on : s.rd F.PRT_LP_replay_on p = 1) (kind hsn : Nat) : (s.hopFrame p kind hsn).shim =
    some ⟨0x88B6, kind, true, 0, hsn, ((s.lport p).rxHsn + 4095) % 4096, 0⟩ := by
  simp [State.hopFrame, State.ctlFrame, on]

/-- Nothing is left to acknowledge once it has left. -/
theorem State.sendHop_acks (on : s.rd F.PRT_LP_replay_on p = 1) (kind hsn : Nat) : ((s.sendHop p kind hsn).lport p).toAck = 0 ∧
    ∃ (f : Frame) (h : Shim), (s.sendHop p kind hsn).outbox = s.outbox ++ [.frame p f] ∧ f.shim = some h ∧ h.kind = kind ∧ h.ackValid = true ∧
      h.ackHsn = ((s.lport p).rxHsn + 4095) % 4096 := by
  rw [State.lport_sendHop]
  exact ⟨rfl, _, _, s.outbox_sendHop p kind hsn, State.hopFrame_acks on kind hsn, rfl, rfl, rfl⟩

/-! ### The rows -/

section
variable {P : State → Prop} (hrun : s.power = .run) (hp : s.lportExists p = true)
include hrun hp

theorem hopStart_completes (h : P ((s.hopStart p).requeue s.pending)) : Completes (.hopStart p) s P :=
  completes_actOn (f := fun s => s.hopStart p) hrun rfl hp h

theorem hopStartAck_completes (h : P ((s.hopStartAck p).requeue s.pending)) : Completes (.hopStartAck p) s P :=
  completes_actOn (f := fun s => s.hopStartAck p) hrun rfl hp h

variable (on : s.rd F.PRT_LP_replay_on p = 1)
include on

theorem hopAck_completes {ack : Nat} (h : P ((s.hopAck p ack).requeue s.pending)) : Completes (.hopAck p ack) s P :=
  completes_actOn hrun (rfl : _ = execHopAck p ack s) hp (by rwa [if_pos on])

theorem hopNak_completes {hsn : Nat} (h : P (((s.hopAck p ((hsn + 4095) % 4096)).hopReplay p hsn).requeue s.pending)) : Completes (.hopNak p hsn) s P :=
  completes_actOn hrun (rfl : _ = execHopNak p hsn s) hp (by rwa [if_pos on])

theorem hopAckTimeout_completes (h : P ((s.hopTimeout p).requeue s.pending)) : Completes (.hopAckTimeout p) s P :=
  completes_actOn hrun (rfl : _ = execHopAckTimeout p s) hp (by rwa [if_pos on])

theorem hopAckTimer_completes (due : 0 < (s.lport p).toAck) (h : P ((s.sendHop p 1 0).requeue s.pending)) : Completes (.hopAckTimer p) s P :=
  completes_actOn hrun (rfl : _ = execHopAckTimer p s) hp (by rwa [if_pos ⟨on, due⟩])

end

end

/-- Settles O32: START and START_ACK by what a start of replay leaves, a NAK and a timeout by the frames they name, all of them replayed or one of them
replayed too often. -/
theorem hopReplay : Obligations.HopReplay := by
  intro s p hrun hp
  refine ⟨hopStart_completes hrun hp rfl, hopStartAck_completes hrun hp rfl, fun on => hopAckTimeout_completes hrun hp on rfl,
    fun off => completes_actOn hrun (rfl : _ = execHopAckTimeout p s) hp ?off, fun ok => hopStart_completes hrun hp (State.hopStart_starts ok),
    fun ok off => hopStartAck_completes hrun hp (State.hopStartAck_starts ok off), fun on => ⟨fun ack => hopAck_completes hrun hp on ?ack,
      fun hsn some_ few => hopNak_completes hrun hp on (State.hopReplay_again some_ few),
      fun x l kept _ order few => hopAckTimeout_completes hrun hp on ?timeout, fun x l kept often _ _ => hopAckTimeout_completes hrun hp on ?fails,
      fun hsn => hopNak_completes hrun hp on rfl, fun due => hopAckTimer_completes hrun hp on due ?ackTimer⟩⟩
  case off =>
    rw [if_neg off]
    rfl
  case ack =>
    rw [State.lport_requeue, State.lport_hopAck]
    exact ⟨rfl, rfl, rfl⟩
  case timeout =>
    have all := State.keptFrom_oldest kept order
    rw [State.hopTimeout_replays kept]
    obtain ⟨again, unacked, counted⟩ := State.hopReplay_again (s := s) (p := p) (hsn := x.hsn) (by simp [all]) (by simpa [all] using few)
    rw [all] at again counted
    exact ⟨again, unacked.trans kept, counted⟩
  case fails =>
    rw [State.hopTimeout_replays kept, State.hopReplay_fails (State.oldest_mem_keptFrom kept) often]
    have left := (s.bump F.HOP_LINK_FAIL).portOut_leaves p lpDown
    exact ⟨left.state, (left.rest F.HOP_LINK_FAIL 0 rfl (by decide) (.inl (by decide))).trans (State.rd_bump_self _ _ _ _ (by decide))⟩
  case ackTimer =>
    rw [State.lport_requeue, State.outbox_requeue]
    exact State.sendHop_acks on 1 0

end Sys2Proof.Machine
end

section
/-!
PROOFS. How every command reaches the state: on the parts that it names, while the device runs; for the rows of domains 0 and 92 also after a trip; and
the four rows of power whatever the power is (R525, R527, R531).
-/

namespace Sys2Proof.Machine

/-- The rows of domains 0 and 92, which act in a device that has tripped too (R531). -/
def staysAlive : Instr → Bool
  | .logFlushTimer | .logPageDone _ | .logRecordClose | .query _ | .pcAck _ | .announceTimer | .retiredMessageTimer | .powerCycleReqTimer
  | .mgtBackoffExpiry | .trayCollision | .tamperAssert _ _ => true
  | _ => false

/-- The rows that bring power and reset, which act whatever the power is (R525, R527). -/
def bringsPower : Instr → Bool
  | .powerOn | .resetNAssert | .railDeparture _ | .railRestore => true
  | _ => false

theorem exec_of_staysAlive {c : Instr} (h : staysAlive c = true) (s : State) :
    ∃ eff, exec c s = if s.has c then actOn0 s eff else .fault .noSuchUnit := by
  cases c with
  | tamperAssert i b =>
    refine ⟨fun s => s.tamperPulse i b false, ?_⟩
    show (if i < 4 then _ else _) = if decide (i < 4) then _ else _
    simp only [decide_eq_true_eq]
  | logFlushTimer => exact exec_logFlushTimer s
  | logPageDone ok => exact exec_logPageDone s ok
  | logRecordClose => exact exec_logRecordClose s
  | query f => exact exec_query s f
  | pcAck f => exact exec_pcAck s f
  | announceTimer => exact exec_announceTimer s
  | retiredMessageTimer => exact exec_retiredMessageTimer s
  | powerCycleReqTimer => exact exec_powerCycleReqTimer s
  | mgtBackoffExpiry => exact exec_mgtBackoffExpiry s
  | trayCollision => exact exec_trayCollision s
  | _ => cases h

theorem exec_of_bringsPower {c : Instr} (h : bringsPower c = true) (s : State) : s.has c = true ∧ ∃ t, exec c s = .next t := by
  cases c with
  | powerOn | resetNAssert | railDeparture | railRestore => exact ⟨rfl, _, rfl⟩
  | _ => cases h

theorem exec_of_plain {c : Instr} (h : staysAlive c = false) (h' : bringsPower c = false) (s : State) :
    ∃ eff, exec c s = actOn (s.has c) s eff := by
  cases c with
  | logFlushTimer | logPageDone | logRecordClose | query | pcAck | announceTimer | retiredMessageTimer | powerCycleReqTimer
  | mgtBackoffExpiry | trayCollision | tamperAssert => cases h
  | powerOn | resetNAssert | railDeparture | railRestore => cases h'
  | instCreate key n => exact exec_instCreate s key n
  | instModify key n => exact exec_instModify s key n
  | instQuiesce key n => exact exec_instQuiesce s key n
  | instResume key n => exact exec_instResume s key n
  | instReset key n => exact exec_instReset s key n
  | instRemove key n => exact exec_instRemove s key n
  | instToken key n => exact exec_instToken s key n
  | ptnQuiesce key n => exact exec_ptnQuiesce s key n
  | ptnResume key n => exact exec_ptnResume s key n
  | _ => exact ⟨_, rfl⟩

/-- Settles O1: a step with a command at the front is the command's own effect. -/
theorem stepTakesTheFrontCommand : Obligations.StepTakesTheFrontCommand := fun _ _ _ => rfl

/-- Settles O4: State.reset lists no command, and no byte of memory. -/
theorem resetQueueIsEmpty : Obligations.ResetQueueIsEmpty := ⟨rfl, fun _ h => (List.not_mem_nil h).elim, State.reset_mem_wf, rfl⟩

/-- Settles O2: a row of power always completes; every other one where the parts it names exist. -/
theorem everyCommandEndsInAStateOrNamesAMissingUnit : Obligations.EveryCommandEndsInAStateOrNamesAMissingUnit := by
  intro c s
  by_cases hp : bringsPower c = true
  · obtain ⟨has, next⟩ := exec_of_bringsPower hp s
    exact ⟨fun _ => next, fun no => absurd (has.symm.trans no) (by decide)⟩
  by_cases ha : staysAlive c = true
  · obtain ⟨eff, e⟩ := exec_of_staysAlive ha s
    exact ⟨fun has => ⟨_, by rw [e, if_pos has]; rfl⟩, fun no => by rw [e, if_neg (by simp [no])]⟩
  · obtain ⟨eff, e⟩ := exec_of_plain (Bool.eq_false_iff.mpr ha) (Bool.eq_false_iff.mpr hp) s
    exact ⟨fun has => ⟨_, by rw [e, actOn, if_pos has]; rfl⟩, fun no => by rw [e, actOn, if_neg (by simp [no])]⟩

/-- Out of power, a row that brings neither power nor reset ends in the state it began in (R525, R527). -/
theorem exec_out_of_power {c : Instr} {s t : State} (off : s.power = .resetHeld ∨ s.power = .railOut) (hp : bringsPower c = false)
    (h : exec c s = .next t) : t = s := by
  have run : s.power ≠ .run := by rcases off with e | e <;> simp [e]
  have tripped : s.power ≠ .tripped := by rcases off with e | e <;> simp [e]
  by_cases ha : staysAlive c = true
  · obtain ⟨eff, e⟩ := exec_of_staysAlive ha s
    rw [e] at h
    split at h
    · simpa [actOn0, run, tripped] using h.symm
    · cases h
  · obtain ⟨eff, e⟩ := exec_of_plain (Bool.eq_false_iff.mpr ha) hp s
    rw [e, actOn] at h
    split at h
    · simpa [act, run] using h.symm
    · cases h

theorem bringsPower_eq_false {c : Instr}
    (h : c ≠ .powerOn ∧ c ≠ .resetNAssert ∧ (∀ b, c ≠ .railDeparture b) ∧ c ≠ .railRestore) : bringsPower c = false := by
  obtain ⟨hon, hreset, hrail, hrestore⟩ := h
  cases c with
  | powerOn => exact absurd rfl hon
  | resetNAssert => exact absurd rfl hreset
  | railDeparture b => exact absurd rfl (hrail b)
  | railRestore => exact absurd rfl hrestore
  | _ => rfl

/-- Settles O5: the command a step takes is none of the four that bring power and reset, and no other is noticed out of power. -/
theorem deviceOutOfPowerIsInert : Obligations.DeviceOutOfPowerIsInert := by
  intro s t off some_ others h
  obtain ⟨c, rest, e⟩ := List.exists_cons_of_ne_nil some_
  have hc : exec c { s with pending := rest } = .next t := by rwa [step, e] at h
  have hp := bringsPower_eq_false (others c (by simp [e]))
  obtain rfl := exec_out_of_power (s := { s with pending := rest }) off hp hc
  exact ⟨by rw [e]; rfl, off, fun c hc => others c (by rw [e]; exact List.mem_cons_of_mem _ hc)⟩

end Sys2Proof.Machine
end

section
/-!
PROOFS. The tray bus (R464, R503 to R507): what a message put in its queue, the end of a transmission, a collision and a received frame leave; and the
ember clock that passes on an empty queue (R443, R444).
-/

namespace Sys2Proof.Machine

/-! ### A message is put in its queue (R504) -/

section
variable {s : State} {g : TrayFrame} (q dst typ : Nat) (body : List Byte)

/-- The frame that a message makes. -/
def State.trayFrame (s : State) (q dst typ : Nat) (body : List Byte) : TrayFrame := ⟨q, dst, typ, s.mgt.traySeq, body, 0⟩

/-- The frames that wait in a queue. -/
def State.trayHeld (s : State) (q : Nat) : Nat := (s.mgt.tray.filter fun f => f.queue == q).length

/-- With the bus idle a message is in transmission at once. -/
theorem State.trayPut_idle (idle : s.mgt.sending = none) : s.trayPut q dst typ body =
    { s with mgt := { s.mgt with traySeq := (s.mgt.traySeq + 1) % 65536, sending := some (s.trayFrame q dst typ body) } } := by
  simp [State.trayPut, idle, State.trayFrame]

/-- Behind another one it is the last of its queue, where that has room. -/
theorem State.trayPut_waits (busy : s.mgt.sending = some g) (room : s.trayHeld q < 16) : s.trayPut q dst typ body =
    { s with mgt := { s.mgt with traySeq := (s.mgt.traySeq + 1) % 65536, tray := s.mgt.tray ++ [s.trayFrame q dst typ body] } } := by
  unfold State.trayHeld at room
  simp [State.trayPut, busy, State.trayFrame, room]

/-- A full queue drops it. -/
theorem State.trayPut_drops (busy : s.mgt.sending = some g) (full : 16 ≤ s.trayHeld q) : s.trayPut q dst typ body =
    State.bump { s with mgt := { s.mgt with traySeq := (s.mgt.traySeq + 1) % 65536 } } F.MGT_TX_DROP := by
  unfold State.trayHeld at full
  simp [State.trayPut, busy, full]

theorem State.trayPut_traySeq (s : State) : (s.trayPut q dst typ body).mgt.traySeq = (s.mgt.traySeq + 1) % 65536 := by
  cases h : s.mgt.sending with
  | none => rw [s.trayPut_idle q dst typ body h]
  | some g => rcases Nat.lt_or_ge (s.trayHeld q) 16 with room | full
              · rw [State.trayPut_waits q dst typ body h room]
              · rw [State.trayPut_drops q dst typ body h full]; rfl

/-- Of the management MAC a message changes the number of the next one, the frame in transmission and the queues, nothing else. -/
theorem State.trayPut_mgt (s : State) : ∃ (n : Nat) (f : Option TrayFrame) (l : List TrayFrame),
    (s.trayPut q dst typ body).mgt = { s.mgt with traySeq := n, sending := f, tray := l } := by
  obtain ⟨_, _, m, e, _⟩ := s.trayPut_only q dst typ body
  exact ⟨m.traySeq, m.sending, m.tray, by rw [e]⟩

/-- No register but MGT_TX_DROP is written. -/
theorem State.trayPut_reg (s : State) (r : Reg) (i : Nat) (h : r ≠ .MGT_TX_DROP) : (s.trayPut q dst typ body).reg r i = s.reg r i := by
  cases e : s.mgt.sending with
  | none => rw [s.trayPut_idle q dst typ body e]; rfl
  | some g => rcases Nat.lt_or_ge (s.trayHeld q) 16 with room | full
              · rw [State.trayPut_waits q dst typ body e room]; rfl
              · rw [State.trayPut_drops q dst typ body e full]; exact State.reg_setReg_ne _ _ _ _ _ _ (.inl h)

/-- Every queue that held at most 16 frames still does. -/
theorem State.trayPut_bounded (busy : s.mgt.sending = some g) (p : Nat) (h : s.trayHeld p ≤ 16) : (s.trayPut q dst typ body).trayHeld p ≤ 16 := by
  rcases Nat.lt_or_ge (s.trayHeld q) 16 with room | full
  · rw [State.trayPut_waits q dst typ body busy room]
    unfold State.trayHeld State.trayFrame at *
    by_cases e : q = p
    · subst e; simp; omega
    · simpa [e] using h
  · rw [State.trayPut_drops q dst typ body busy full]; exact h

end

/-! ### The end of a transmission (R503, R504) -/

/-- Among the frames that wait, the oldest of the lowest queue that holds one. -/
theorem findSome_lowest {l : List TrayFrame} {f : TrayFrame} (queues : ∀ g ∈ l, g.queue < 4) (mem : f ∈ l) (lowest : ∀ g ∈ l, f.queue ≤ g.queue)
    (oldest : (l.find? fun g => g.queue == f.queue) = some f) : ((List.range 4).findSome? fun q => l.find? fun g => g.queue == q) = some f := by
  have below : ∀ q < f.queue, (l.find? fun g => g.queue == q) = none := fun q hq => by
    rw [List.find?_eq_none]
    intro g hg
    have := lowest g hg
    simp; omega
  have hf := queues f mem
  have cut : List.range 4 = List.range f.queue ++ f.queue :: (List.range' (f.queue + 1) (3 - f.queue)) := by
    interval_cases f.queue <;> rfl
  rw [cut, List.findSome?_append, List.findSome?_eq_none_iff.mpr (fun q hq => below q (List.mem_range.mp hq))]
  simp [oldest]

theorem State.trayNext_empty {s : State} (h : s.mgt.tray = []) : s.trayNext.mgt.sending = none := by
  simp [State.trayNext, h, List.range, List.range.loop]

theorem State.trayNext_lowest {s : State} {f : TrayFrame} (queues : ∀ g ∈ s.mgt.tray, g.queue < 4) (mem : f ∈ s.mgt.tray)
    (lowest : ∀ g ∈ s.mgt.tray, f.queue ≤ g.queue) (oldest : (s.mgt.tray.find? fun g => g.queue == f.queue) = some f) :
    s.trayNext.mgt.sending = some f ∧ s.trayNext.mgt.tray = s.mgt.tray.filter fun g => g.seq != f.seq := by
  simp [State.trayNext, findSome_lowest queues mem lowest oldest]

/-- The next frame is taken from the queues: nothing but the management MAC's own state changes, and it does not back off. -/
theorem State.trayNext_mgt (s : State) : ∃ m : MgtSt, s.trayNext = { s with mgt := m } ∧ m.backoff = false := by
  unfold State.trayNext
  split <;> exact ⟨_, rfl, rfl⟩

/-- A frame that does not back off has left, and the next one is taken. -/
theorem State.traySend_leaves {s : State} {g : TrayFrame} (busy : s.mgt.sending = some g) (go : s.mgt.backoff = false) :
    s.traySend = ((s.emit (.tray g.dst (s.rd F.MGT_MAC_mac) g.typ g.seq g.body)).bump F.MGT_TX_FRAMES).trayNext := by
  simp [State.traySend, busy, go]

theorem State.traySend_idle {s : State} (idle : s.mgt.sending = none) : s.traySend = s := by simp [State.traySend, idle]

/-- The end of a transmission leaves time, the queue of commands and the armed injection alone. -/
theorem State.traySend_keeps (s : State) : s.traySend.pending = s.pending ∧ s.traySend.now = s.now ∧ s.traySend.inj = s.inj := by
  unfold State.traySend
  split
  · exact ⟨rfl, rfl, rfl⟩
  · split
    · exact ⟨rfl, rfl, rfl⟩
    · obtain ⟨m, e, -⟩ := State.trayNext_mgt (State.bump (s.emit _) F.MGT_TX_FRAMES)
      rw [e]
      exact ⟨rfl, rfl, rfl⟩

/-- Settles O58: a message behind one in transmission, by the room in its queue; the end of a transmission, by the frames that wait. -/
theorem trayQueues : Obligations.TrayQueues := by
  refine ⟨fun s q dst typ body g _ busy => ?_, fun s g busy go queues => ⟨fun none_ => ?_, fun f mem lowest oldest => ?_⟩⟩
  · refine ⟨?_, fun room => ?_, fun full => ?_, fun bounded p hp => State.trayPut_bounded q dst typ body busy p (bounded p hp)⟩
    · rcases Nat.lt_or_ge (s.trayHeld q) 16 with room | full
      · rw [State.trayPut_waits q dst typ body busy room]; exact busy
      · rw [State.trayPut_drops q dst typ body busy full]; exact busy
    · rw [State.trayPut_waits q dst typ body busy room]; exact ⟨rfl, rfl⟩
    · rw [State.trayPut_drops q dst typ body busy full]; exact ⟨rfl, State.rd_bump_self _ _ _ _ (by decide)⟩
  · rw [State.traySend_leaves busy go]; exact State.trayNext_empty none_
  · rw [State.traySend_leaves busy go]; exact State.trayNext_lowest queues mem lowest oldest

/-! ### The ember clock (R443, R444) -/

theorem State.watch_unarmed {s : State} (idle : s.inj = none) : s.watch = s := by
  simp [State.watch, State.inject_idle idle, List.range, List.range.loop]

theorem State.watchdogTick_unarmed {s : State} (idle : s.inj = none) : s.watchdogTick = s := by simp [State.watchdogTick, idle]

/-- With no injection armed an idle tick is the clock and the end of a transmission. -/
theorem idle_unarmed {s : State} (h : s.inj = none) :
    idle s = if s.power = .run ∨ s.power = .tripped then s.clock.traySend else s.clock := by
  have unarmed : s.clock.traySend.inj = none := s.clock.traySend_keeps.2.2.trans h
  rw [idle, State.watch_unarmed unarmed, State.watchdogTick_unarmed unarmed]
  change (if s.power = .run then _ else if s.power = .tripped then _ else _) = _
  by_cases run : s.power = .run
  · simp [run]
  · by_cases tripped : s.power = .tripped <;> simp [run, tripped]

/-- Settles O56: with no injection armed the tick is the clock and the end of a transmission, which is nothing where none runs. -/
theorem emptyQueuePassesAClock : Obligations.EmptyQueuePassesAClock := by
  intro s empty
  refine ⟨idle s, by rw [step, empty], fun unarmed => ?_⟩
  rw [idle_unarmed unarmed]
  obtain ⟨pending, now, -⟩ := s.clock.traySend_keeps
  by_cases on : s.power = .run ∨ s.power = .tripped
  · rw [if_pos on]
    exact ⟨pending.trans empty, now, fun quiet => State.traySend_idle (s := s.clock) quiet⟩
  · rw [if_neg on]
    exact ⟨empty, rfl, fun _ => rfl⟩

end Sys2Proof.Machine
end

section
/-!
PROOFS. The messages of the tray bus (R464, R503 to R507): what is received, announced, asked for again and tried again, and that no message grants
anything (R506).
-/

namespace Sys2Proof.Machine

/-! ### A frame is received (R503, R505) -/

/-- What the MAC asks of a frame whose message has `n` bytes. -/
def State.trayFits (s : State) (f : TrayIn) (n : Nat) : Bool :=
  f.fcsOk && decide (64 ≤ f.len) && decide (f.len ≤ s.rd F.MGT_CFG_max_frame) && (f.dst == s.rd F.MGT_MAC_mac || f.dst == macAll)
    && f.ethType == 0x88B5 && f.version == 1 && f.bodyLen == n && f.body.length == n

theorem State.trayIn_eq (s : State) (f : TrayIn) (n : Nat) (k : State → State) :
    s.trayIn f n k = if s.trayFits f n then k (s.bump F.MGT_RX_FRAMES) else s.bump F.MGT_RX_DROP := rfl

/-- STATUS tells nothing of the count of frames. -/
theorem State.statusBody_counted (s : State) : (s.bump F.MGT_RX_FRAMES).statusBody = s.statusBody := by
  have rd : ∀ (f : Fld) (i : Nat), f.reg ≠ .MGT_RX_FRAMES → (s.bump F.MGT_RX_FRAMES).rd f i = s.rd f i := fun f i h =>
    State.rd_bump_ne _ f _ _ _ _ (.inl h)
  simp (disch := decide) only [State.statusBody, rd]
  rfl

theorem exec_query_eq (f : TrayIn) (s : State) : exec (.query f) s = actOn0 s fun s => s.query f := rfl
theorem exec_pcAck_eq (f : TrayIn) (s : State) : exec (.pcAck f) s = actOn0 s fun s => s.pcAck f := rfl

/-! ### No tray message grants anything (R506) -/

/-- What a tray message can do: the address of the last QUERY, the counts of frames, the frames of the bus and the request for a power cycle may
change, nothing else. -/
def TrayOnly (s t : State) : Prop :=
  ∃ (rg : Tbl Word) (n : Nat) (f : Option TrayFrame) (l : List TrayFrame) (c : Option CycleReq),
    t = { s with regs := rg, mgt := { s.mgt with traySeq := n, sending := f, tray := l, cycle := c } } ∧
    ∀ (r : Reg) (i : Nat), r ∉ [Reg.MGT_TC_MAC, .MGT_RX_FRAMES, .MGT_RX_DROP, .MGT_TX_DROP] → t.reg r i = s.reg r i

theorem TrayOnly.trans {s t u : State} (h : TrayOnly s t) (k : TrayOnly t u) : TrayOnly s u := by
  obtain ⟨_, _, _, _, _, rfl, hr⟩ := h
  obtain ⟨rg, n, f, l, c, rfl, kr⟩ := k
  exact ⟨rg, n, f, l, c, rfl, fun r i hl => (kr r i hl).trans (hr r i hl)⟩

theorem TrayOnly.wr (s : State) (f : Fld) (v i : Nat) (h : f.reg ∈ [Reg.MGT_TC_MAC, .MGT_RX_FRAMES, .MGT_RX_DROP, .MGT_TX_DROP]) :
    TrayOnly s (s.wr f v i) :=
  ⟨_, _, _, _, _, rfl, fun q j hq => State.reg_setReg_ne s q f.reg j i _ (.inl fun e => hq (e ▸ h))⟩

theorem TrayOnly.bump (s : State) (f : Fld) (n i : Nat) (h : f.reg ∈ [Reg.MGT_TC_MAC, .MGT_RX_FRAMES, .MGT_RX_DROP, .MGT_TX_DROP]) :
    TrayOnly s (s.bump f n i) := .wr s f _ i h

theorem TrayOnly.cycle (s : State) (c : Option CycleReq) : TrayOnly s { s with mgt := { s.mgt with cycle := c } } :=
  ⟨_, _, _, _, c, rfl, fun _ _ _ => rfl⟩

theorem State.trayPut_trayOnly (s : State) (q dst typ : Nat) (body : List Byte) : TrayOnly s (s.trayPut q dst typ body) := by
  cases e : s.mgt.sending with
  | none => rw [s.trayPut_idle q dst typ body e]; exact ⟨_, _, _, _, _, rfl, fun _ _ _ => rfl⟩
  | some g =>
    rcases Nat.lt_or_ge (s.trayHeld q) 16 with room | full
    · rw [State.trayPut_waits q dst typ body e room]; exact ⟨_, _, _, _, _, rfl, fun _ _ _ => rfl⟩
    · rw [State.trayPut_drops q dst typ body e full]
      exact TrayOnly.trans (t := { s with mgt := { s.mgt with traySeq := _ } }) ⟨_, _, _, _, _, rfl, fun _ _ _ => rfl⟩ (.bump _ _ _ _ (by decide))

theorem State.trayIn_trayOnly (s : State) (f : TrayIn) (n : Nat) {k : State → State} (h : ∀ u, TrayOnly u (k u)) : TrayOnly s (s.trayIn f n k) := by
  rw [State.trayIn_eq]
  split
  · exact (TrayOnly.bump s _ _ _ (by decide)).trans (h _)
  · exact .bump s _ _ _ (by decide)

theorem LogOnly.cycle {s t : State} (h : LogOnly s t) : t.mgt.cycle = s.mgt.cycle := by obtain ⟨_, _, _, rfl, _⟩ := h; rfl

theorem State.query_trayOnly (s : State) (f : TrayIn) : TrayOnly s (s.query f) :=
  s.trayIn_trayOnly f 0 fun u => (TrayOnly.wr u F.MGT_TC_MAC_tc_mac f.src 0 (by decide)).trans (State.trayPut_trayOnly _ _ _ _ _)

theorem State.pcAck_trayOnly (s : State) (f : TrayIn) : TrayOnly s (s.pcAck f) := by
  refine s.trayIn_trayOnly f 2 fun u => ?_
  split
  · exact .cycle u u.mgt.cycle
  · split
    · exact .cycle u none
    · exact .cycle u u.mgt.cycle

theorem actOn0_trayOnly {s t : State} {eff : State → State} (h : actOn0 s eff = .next t) (only : TrayOnly s (eff s)) : TrayOnly s t := by
  unfold actOn0 at h
  cases h
  split
  · obtain ⟨rg, n, f, l, c, e, hr⟩ := only
    exact ⟨rg, n, f, l, c, by rw [e]; rfl, hr⟩
  · exact .cycle s s.mgt.cycle

/-- Settles O59: either message changes only what TrayOnly names, which is none of what grants anything. -/
theorem trayMessagesGrantNothing : Obligations.TrayMessagesGrantNothing := by
  intro s t f h
  have only : TrayOnly s t := by
    rcases h with h | h
    · exact actOn0_trayOnly (exec_query_eq f s ▸ h) (s.query_trayOnly f)
    · exact actOn0_trayOnly (exec_pcAck_eq f s ▸ h) (s.pcAck_trayOnly f)
  obtain ⟨_, _, _, _, _, rfl, hr⟩ := only
  exact ⟨rfl, rfl, rfl, rfl, rfl, rfl, rfl, rfl, rfl, rfl, hr⟩

/-- A request is sent, and its number remembered. -/
theorem State.askCycle_asks {s : State} {c : CycleReq} (asked : s.mgt.cycle = some c) :
    (∃ n, s.askCycle.mgt.cycle = some { c with seqs := c.seqs ++ [n] }) ∧ s.askCycle.mem = s.mem := by
  have e : s.askCycle = State.trayPut { s with mgt := { s.mgt with cycle := some { c with seqs := c.seqs ++ [s.mgt.traySeq] } } } 0 macAll 5
    (leBytes 1 c.why) := by simp [State.askCycle, asked]
  rw [e]
  exact ⟨⟨_, (State.trayPut_only _ _ _ _ _).cycle⟩, (State.trayPut_only _ _ _ _ _).mem⟩

/-! ### The rows -/

section
variable {s : State} (hrun : s.power = .run)
include hrun

theorem query_accepted {f : TrayIn} (ok : s.trayFits f 0 = true) : Completes (.query f) s fun t =>
    t.rd F.MGT_RX_FRAMES = (s.rd F.MGT_RX_FRAMES + 1) % 2 ^ F.MGT_RX_FRAMES.width ∧ t.rd F.MGT_TC_MAC_tc_mac = f.src % 2 ^ F.MGT_TC_MAC_tc_mac.width ∧
    t.mgt.traySeq = (s.mgt.traySeq + 1) % 65536 ∧ t.mem = s.mem ∧
    (s.mgt.sending = none → t.mgt.sending = some ⟨2, f.src, 2, s.mgt.traySeq, s.statusBody, 0⟩) := by
  refine completes_actOn0 hrun (exec_query_eq f s) ?_
  rw [State.query, State.trayIn_eq, if_pos ok]
  have only := State.trayPut_only ((s.bump F.MGT_RX_FRAMES).wr F.MGT_TC_MAC_tc_mac f.src) 2 f.src 2
    (s.bump F.MGT_RX_FRAMES).statusBody
  refine ⟨(only.rd F.MGT_RX_FRAMES 0 rfl).trans ?_, (only.rd F.MGT_TC_MAC_tc_mac 0 rfl).trans (State.rd_wr_self _ _ _ _ (by decide)),
    State.trayPut_traySeq _ _ _ _ _, only.mem, fun idle => ?_⟩
  · exact (State.rd_wr_reg _ F.MGT_RX_FRAMES _ _ _ _ (by decide)).trans (State.rd_bump_self _ _ _ _ (by decide))
  · rw [State.trayPut_idle 2 f.src 2 _ (by exact idle), State.statusBody_counted]
    rfl

theorem pcAck_accepted {f : TrayIn} {c : CycleReq} (ok : s.trayFits f 2 = true) (asked : s.mgt.cycle = some c) : Completes (.pcAck f) s fun t =>
    t.rd F.MGT_RX_FRAMES = (s.rd F.MGT_RX_FRAMES + 1) % 2 ^ F.MGT_RX_FRAMES.width ∧
    t.mgt.cycle = (if c.seqs.contains (ofLE f.body) then none else some c) ∧ t.mem = s.mem := by
  refine completes_actOn0 hrun (exec_pcAck_eq f s) ?_
  have count := State.rd_bump_self s F.MGT_RX_FRAMES 1 0 (by decide)
  rw [State.pcAck, State.trayIn_eq, if_pos ok, State.mgt_bump, asked]
  dsimp only
  split
  · exact ⟨count, rfl, rfl⟩
  · exact ⟨count, asked, rfl⟩

theorem trayIn_refused {c : Instr} {f : TrayIn} {n : Nat} {k : State → State} (no : s.trayFits f n = false)
    (e : exec c s = actOn0 s fun s => s.trayIn f n k) : Completes c s fun t => t = (s.bump F.MGT_RX_DROP).requeue s.pending := by
  refine completes_actOn0 hrun e ?_
  rw [State.trayIn_eq, no]
  rfl

/-- With nothing in transmission a message begins at once. -/
theorem tray_begins {c : Instr} {q typ : Nat} {body : List Byte} {eff : State → State} (e : exec c s = actOn0 s eff)
    (puts : eff s = s.trayPut q macAll typ body) (idle : s.mgt.sending = none) :
    Completes c s fun t => t.mgt.sending = some ⟨q, macAll, typ, s.mgt.traySeq, body, 0⟩ ∧ t.regs = s.regs ∧ t.mem = s.mem := by
  refine completes_actOn0 hrun e ?_
  rw [puts, State.trayPut_idle q macAll typ body idle]
  exact ⟨rfl, rfl, rfl⟩

/-- The request timer sends another request, whose number is remembered, and notes when it is late. -/
theorem powerCycleReqTimer_asks {c : CycleReq} (asked : s.mgt.cycle = some c) : Completes .powerCycleReqTimer s fun t =>
    t.mgt.cycle.any (fun d => d.why == c.why && d.since == c.since && d.late == (c.late || decide (c.since + 10 * sec ≤ s.now)) &&
      d.seqs.length == c.seqs.length + 1) = true ∧ t.mem = s.mem := by
  refine completes_actOn0 hrun rfl ?_
  unfold State.cycleTimer
  simp only [asked]
  split
  next late =>
    set u : State := { s with mgt := { s.mgt with cycle := some { c with late := true } } }
    have only := u.logEv_only .MGT .timeout 0 0 0 false
    obtain ⟨⟨n, again⟩, mem⟩ := State.askCycle_asks (only.cycle : _ = some { c with late := true })
    exact ⟨by simp [again, late.2], mem.trans only.mem⟩
  next soon =>
    obtain ⟨⟨n, again⟩, mem⟩ := State.askCycle_asks asked
    refine ⟨?_, mem⟩
    cases h : c.late
    · simpa [again, h] using soon
    · simp [again, h]

theorem trayCollision_ignored (h : s.mgt.sending = none ∨ s.mgt.backoff = true) : Completes .trayCollision s fun t => t = s := by
  refine completes_actOn0 hrun rfl ?_
  have : s.trayCollision = s := by
    rcases h with h | h
    · simp [State.trayCollision, h]
    · cases e : s.mgt.sending <;> simp [State.trayCollision, e, h]
  rw [this]
  rfl

theorem trayCollision_backsOff {f : TrayFrame} (busy : s.mgt.sending = some f) (go : s.mgt.backoff = false) (few : f.tries < 15) :
    Completes .trayCollision s fun t => t.mgt.sending = some { f with tries := f.tries + 1 } ∧ t.mgt.backoff = true ∧
      t.rd F.MGT_COLLISIONS = (s.rd F.MGT_COLLISIONS + 1) % 2 ^ F.MGT_COLLISIONS.width ∧ t.mem = s.mem := by
  refine completes_actOn0 hrun rfl ?_
  have tries : ¬16 ≤ f.tries + 1 := by omega
  have e : s.trayCollision = { ((s.bump F.MGT_COLLISIONS).drawBelow (2 ^ min (f.tries + 1) 10)).2 with
      mgt := { ((s.bump F.MGT_COLLISIONS).drawBelow (2 ^ min (f.tries + 1) 10)).2.mgt with
        sending := some { f with tries := f.tries + 1 }, backoff := true } } := by
    simp [State.trayCollision, busy, go, tries]
  rw [e]
  exact ⟨rfl, rfl, State.rd_bump_self _ _ _ _ (by decide), rfl⟩

theorem mgtBackoffExpiry_ends : Completes .mgtBackoffExpiry s fun t => t.mgt.backoff = false ∧ t.regs = s.regs ∧ t.mem = s.mem :=
  completes_actOn0 (f := fun s => { s with mgt := { s.mgt with backoff := false } }) hrun rfl ⟨rfl, rfl, rfl⟩

theorem trayCollision_givesUp {f : TrayFrame} (busy : s.mgt.sending = some f) (go : s.mgt.backoff = false) (often : 15 ≤ f.tries) :
    Completes .trayCollision s fun t => t.mgt.backoff = false ∧
      t.rd F.MGT_COLLISIONS = (s.rd F.MGT_COLLISIONS + 1) % 2 ^ F.MGT_COLLISIONS.width ∧
      t.rd F.MGT_EXCESS_COLL = (s.rd F.MGT_EXCESS_COLL + 1) % 2 ^ F.MGT_EXCESS_COLL.width ∧ t.mem = s.mem := by
  refine completes_actOn0 hrun rfl ?_
  have e : s.trayCollision = ((s.bump F.MGT_COLLISIONS).bump F.MGT_EXCESS_COLL).trayNext := by
    simp [State.trayCollision, busy, go, often]
  obtain ⟨m, next, stops⟩ := ((s.bump F.MGT_COLLISIONS).bump F.MGT_EXCESS_COLL).trayNext_mgt
  rw [e, next]
  refine ⟨stops, ?_, ?_, rfl⟩
  · exact (State.rd_bump_ne _ F.MGT_COLLISIONS F.MGT_EXCESS_COLL _ _ _ (.inl (by decide))).trans (State.rd_bump_self _ _ _ _ (by decide))
  · exact (State.rd_bump_self _ _ _ _ (by decide)).trans (by rw [State.rd_bump_ne _ F.MGT_EXCESS_COLL F.MGT_COLLISIONS _ _ _ (.inl (by decide))])

end

/-- Settles O54: a frame by what the MAC asks of it, a message by what is in transmission, a collision by the attempts before it. -/
theorem trayBus : Obligations.TrayBus := by
  intro s hrun
  have retired : s.rd F.RST_STATUS_retired = 1 → s.tellRetired = s.trayPut 0 macAll 4 (leBytes 1 (s.rd F.RST_LAST_cause)) := fun h => if_pos h
  refine ⟨completes_actOn0 hrun rfl rfl, fun h => completes_actOn0 hrun rfl (by rw [retired h]), trayCollision_ignored hrun, fun f =>
    ⟨query_accepted hrun, fun no => trayIn_refused hrun no rfl, fun no => trayIn_refused hrun no rfl, fun c ok asked => pcAck_accepted hrun ok asked⟩,
    tray_begins hrun rfl rfl, fun h => tray_begins hrun rfl (retired h), fun h => completes_actOn0 hrun rfl ?serves,
    fun none_ => completes_actOn0 hrun rfl ?none_, fun c asked => powerCycleReqTimer_asks hrun asked, mgtBackoffExpiry_ends hrun,
    fun f busy go => ⟨trayCollision_backsOff hrun busy go, trayCollision_givesUp hrun busy go⟩⟩
  case serves => rw [State.tellRetired, if_neg (by omega)]
  case none_ => rw [State.cycleTimer, none_]

end Sys2Proof.Machine
end

section
/-!
PROOFS. What the commands that work on registers alone leave as it is (R396, R406, R408, R412, R435, R437, R450, R476, R485, R489, R508).
-/

namespace Sys2Proof.Machine

/-- From s to t only registers of a list, those that logging writes, and the device's own records of its controllers may have changed: memory, the
instances, the partitions, the operations, the connections, the rings, the key slots, the translations and the pins are the same. -/
structure RegFrame (rs : List Reg) (s t : State) : Prop where
  mem : t.mem = s.mem
  insts : t.insts = s.insts
  parts : t.parts = s.parts
  ops : t.ops = s.ops
  bxt : t.bxt = s.bxt
  rings : t.rings = s.rings
  slots : t.slots = s.slots
  mslots : t.mslots = s.mslots
  xlt : t.xlt = s.xlt
  pins : t.pins = s.pins
  reg : ∀ (r : Reg) (i : Nat), r.isLog = false → r ∉ rs → t.reg r i = s.reg r i

section
variable {rs : List Reg} {s t u : State}

theorem RegFrame.refl (rs : List Reg) (s : State) : RegFrame rs s s := ⟨rfl, rfl, rfl, rfl, rfl, rfl, rfl, rfl, rfl, rfl, fun _ _ _ _ => rfl⟩

theorem RegFrame.trans (h : RegFrame rs s t) (k : RegFrame rs t u) : RegFrame rs s u :=
  ⟨k.mem.trans h.mem, k.insts.trans h.insts, k.parts.trans h.parts, k.ops.trans h.ops, k.bxt.trans h.bxt, k.rings.trans h.rings, k.slots.trans h.slots,
    k.mslots.trans h.mslots, k.xlt.trans h.xlt, k.pins.trans h.pins, fun r i hl hr => (k.reg r i hl hr).trans (h.reg r i hl hr)⟩

theorem RegFrame.rd (h : RegFrame rs s t) (f : Fld) (i : Nat) (hl : f.reg.isLog = false) (hr : f.reg ∉ rs) : t.rd f i = s.rd f i := by
  unfold State.rd
  rw [h.reg f.reg i hl hr]

theorem RegFrame.of_log (h : LogOnly s t) : RegFrame rs s t := by
  obtain ⟨_, _, _, rfl, hr⟩ := h
  exact ⟨rfl, rfl, rfl, rfl, rfl, rfl, rfl, rfl, rfl, rfl, fun r i hl _ => hr r i hl⟩

theorem RegFrame.of_regOnly {r : Reg} (h : RegOnly r s t) (hr : r ∈ rs) : RegFrame rs s t := by
  obtain ⟨_, _, _, rfl, kept⟩ := h
  exact ⟨rfl, rfl, rfl, rfl, rfl, rfl, rfl, rfl, rfl, rfl, fun q i hl hq => kept q i hl fun e => hq (e ▸ hr)⟩

theorem RegFrame.wr (h : RegFrame rs s t) (f : Fld) (v i : Nat) (hf : f.reg ∈ rs) : RegFrame rs s (t.wr f v i) := h.trans (.of_regOnly (.wr t f v i) hf)

theorem RegFrame.bump (h : RegFrame rs s t) (f : Fld) (n i : Nat) (hf : f.reg ∈ rs) : RegFrame rs s (t.bump f n i) := h.wr f _ i hf

theorem RegFrame.logEv (h : RegFrame rs s t) (b : Blk) (e : Ev) (d sub i : Nat) (inj : Bool) : RegFrame rs s (t.logEv b e d sub i inj) :=
  h.trans (.of_log (t.logEv_only ..))

theorem RegFrame.refuseWrite (h : RegFrame rs s t) (b : Blk) (off i : Nat) : RegFrame rs s (t.refuseWrite b off i) :=
  (h.trans (t := t) (u := { t with wrefused := t.wrefused + 1 }) ⟨rfl, rfl, rfl, rfl, rfl, rfl, rfl, rfl, rfl, rfl, fun _ _ _ _ => rfl⟩).logEv ..

/-! What the controllers keep for themselves is no register's, and none of what a frame names. -/

theorem State.cph_frame (rs : List Reg) (s : State) (x : CphSt) : RegFrame rs s { s with cph := x } := ⟨rfl, rfl, rfl, rfl, rfl, rfl, rfl, rfl, rfl, rfl, fun _ _ _ _ => rfl⟩
theorem State.tru_frame (rs : List Reg) (s : State) (x : TruSt) : RegFrame rs s { s with tru := x } := ⟨rfl, rfl, rfl, rfl, rfl, rfl, rfl, rfl, rfl, rfl, fun _ _ _ _ => rfl⟩
theorem State.inj_frame (rs : List Reg) (s : State) (x : Option InjPoint) : RegFrame rs s { s with inj := x } := ⟨rfl, rfl, rfl, rfl, rfl, rfl, rfl, rfl, rfl, rfl, fun _ _ _ _ => rfl⟩
theorem State.log_frame (rs : List Reg) (s : State) (x : LogSt) : RegFrame rs s { s with log := x } := ⟨rfl, rfl, rfl, rfl, rfl, rfl, rfl, rfl, rfl, rfl, fun _ _ _ _ => rfl⟩
theorem State.pwr_frame (rs : List Reg) (s : State) (x : PwrSt) : RegFrame rs s { s with pwr := x } := ⟨rfl, rfl, rfl, rfl, rfl, rfl, rfl, rfl, rfl, rfl, fun _ _ _ _ => rfl⟩
theorem State.mgt_frame (rs : List Reg) (s : State) (x : MgtSt) : RegFrame rs s { s with mgt := x } := ⟨rfl, rfl, rfl, rfl, rfl, rfl, rfl, rfl, rfl, rfl, fun _ _ _ _ => rfl⟩
theorem State.snap_frame (rs : List Reg) (s : State) (x : List Word) : RegFrame rs s { s with snap := x } := ⟨rfl, rfl, rfl, rfl, rfl, rfl, rfl, rfl, rfl, rfl, fun _ _ _ _ => rfl⟩

theorem State.touchSession_frame (rs : List Reg) (s : State) : RegFrame rs s s.touchSession := by
  rcases s.touchSession_cases with h | ⟨z, _, h⟩ <;> rw [h]
  · exact .refl rs s
  · exact ⟨rfl, rfl, rfl, rfl, rfl, rfl, rfl, rfl, rfl, rfl, fun _ _ _ _ => rfl⟩

theorem asManager_frame {r : Bool} {f : State → State} (h : ∀ u, RegFrame rs u (f u)) : RegFrame rs s (asManager r f s) := by
  rcases asManager_eq r f s with ⟨_, e⟩ | ⟨_, e⟩ <;> rw [e]
  · exact (s.touchSession_frame rs).trans (h _)
  · exact .refl rs s

theorem asManagerBy_frame {path : Path} {r : Bool} {f : State → State} (h : ∀ u, RegFrame rs u (f u)) : RegFrame rs s (asManagerBy path r f s) := by
  unfold asManagerBy
  split
  · exact (s.touchSession_frame rs).trans (h _)
  · exact .refl rs s

theorem act_frame {f : State → State} (h : RegFrame rs s (f s)) (e : act s f = .next t) : RegFrame rs s t := by
  unfold act at e
  cases e
  split
  · exact ⟨h.mem, h.insts, h.parts, h.ops, h.bxt, h.rings, h.slots, h.mslots, h.xlt, h.pins, h.reg⟩
  · exact .refl rs s

theorem actOn_frame {b : Bool} {f : State → State} (h : RegFrame rs s (f s)) (e : actOn b s f = .next t) : RegFrame rs s t := by
  unfold actOn at e
  split at e
  · exact act_frame h e
  · cases e

end

/-! ### Keys and trust (R396, R405 to R416) -/

theorem State.stageWord_frame (s : State) (path : Path) (k w : Nat) : RegFrame [.CPH_KEY_STATUS] s (s.stageWord path k w) := by
  unfold State.stageWord
  split
  · exact (RegFrame.refl _ s).refuseWrite ..
  · exact RegFrame.wr (s.cph_frame [.CPH_KEY_STATUS] _) F.CPH_KEY_STATUS_staged _ _ (by decide)

theorem State.clearStaged_frame (s : State) : RegFrame [.CPH_KEY_STATUS] s s.clearStaged :=
  RegFrame.wr (s.cph_frame [.CPH_KEY_STATUS] _) F.CPH_KEY_STATUS_staged _ _ (by decide)

/-- The end of a command of the trust controller changes TRU_STATUS and the logbook. -/
theorem State.truResult_only (s : State) (op reason sub : Nat) : RegOnly .TRU_STATUS s (s.truResult op reason sub) := by
  have shown := (((RegOnly.wr s F.TRU_STATUS_busy 0 0).trans (.wr _ F.TRU_STATUS_done (b2n (reason == 0)) 0)).trans
    (.wr _ F.TRU_STATUS_refused (b2n (reason != 0)) 0)).trans (.wr _ F.TRU_STATUS_reason reason 0)
  unfold State.truResult
  dsimp only
  split
  · exact shown.trans (.of_log (State.logDone_only ..) _)
  · exact shown.trans (.of_log (State.logRefused_only ..) _)

section
variable {rs : List Reg} (h : Reg.TRU_STATUS ∈ rs)
include h

theorem State.truResult_frame {s t : State} (k : RegFrame rs s t) (op reason sub : Nat) : RegFrame rs s (t.truResult op reason sub) :=
  k.trans (.of_regOnly (t.truResult_only ..) h)

theorem State.truGate_frame {s : State} {f : State → State} (op : Nat) (k : RegFrame rs s (f s)) : RegFrame rs s (s.truGate op f) := by
  unfold State.truGate
  split
  · exact (((RegFrame.refl rs s).wr F.TRU_STATUS_refused 1 0 h).wr F.TRU_STATUS_reason 1 0 h).logEv ..
  · exact k

end

theorem State.attest_frame (s : State) : RegFrame [.TRU_STATUS] s s.attest := by
  refine State.truGate_frame (by decide) _ ?_
  dsimp only
  split
  · exact State.truResult_frame (by decide) (.refl _ s) ..
  · exact ((RegFrame.wr (s.tru_frame [.TRU_STATUS] _) F.TRU_STATUS_busy 1 0 (by decide)).wr F.TRU_STATUS_done 0 0 (by decide)).wr F.TRU_STATUS_refused 0 0 (by decide)

theorem State.attestDone_frame (s : State) : RegFrame [.TRU_STATUS] s s.attestDone := by
  unfold State.attestDone
  split
  · exact .refl _ s
  · split
    · exact .refl _ s
    · split
      · exact State.truResult_frame (by decide) (s.tru_frame [.TRU_STATUS] _) ..
      · exact State.truResult_frame (by decide) (s.tru_frame [.TRU_STATUS] _) ..

theorem State.revoke_frame (s : State) (key : Nat) (ok : Bool) : RegFrame [.TRU_STATUS, .TRU_BOOT] s (s.revoke key ok) := by
  have ends : ∀ {t : State} (reason : Nat), RegFrame [.TRU_STATUS, .TRU_BOOT] s t → RegFrame [.TRU_STATUS, .TRU_BOOT] s (t.truResult truRevoke reason key) :=
    fun reason k => State.truResult_frame (by decide) k ..
  refine State.truGate_frame (by decide) _ ?_
  dsimp only
  split_ifs
  · exact ends 8 (.refl _ s)
  · exact ends 5 (.refl _ s)
  · exact ends 7 (.refl _ s)
  · exact ends 0 ((RegFrame.refl _ s).wr F.TRU_BOOT_revoked _ 0 (by decide))

theorem State.raiseFwFloor_frame (s : State) (ok : Bool) : RegFrame [.TRU_STATUS, .TRU_BOOT] s (s.raiseFwFloor ok) := by
  have ends : ∀ {t : State} (reason : Nat), RegFrame [.TRU_STATUS, .TRU_BOOT] s t → RegFrame [.TRU_STATUS, .TRU_BOOT] s (t.truResult truFloor reason 0) :=
    fun reason k => State.truResult_frame (by decide) k ..
  refine State.truGate_frame (by decide) _ ?_
  dsimp only
  split_ifs
  · exact ends 3 (.refl _ s)
  · exact ends 7 (.refl _ s)
  · exact ends 0 ((RegFrame.refl _ s).wr F.TRU_BOOT_fw_floor _ 0 (by decide))

theorem State.burnPolarity_frame (s : State) (ok : Bool) : RegFrame [.TRU_STATUS] s (s.burnPolarity ok) := by
  have ends : ∀ {t : State} (reason : Nat), RegFrame [.TRU_STATUS] s t → RegFrame [.TRU_STATUS] s (t.truResult truPolarity reason 0) :=
    fun reason k => State.truResult_frame (by decide) k ..
  refine State.truGate_frame (by decide) _ ?_
  dsimp only
  split_ifs
  · exact ends 3 (.refl _ s)
  · exact ends 7 (.refl _ s)
  · exact ends 0 (s.tru_frame _ _)

theorem State.tamperCfg_frame (s : State) (enable polarity : Nat) : RegFrame [.TRU_TAMPER_CFG] s (s.tamperCfg enable polarity) := by
  unfold State.tamperCfg
  dsimp only
  split
  · exact (RegFrame.refl _ s).refuseWrite ..
  · exact ((RegFrame.refl _ s).wr F.TRU_TAMPER_CFG_enable _ 0 (by decide)).wr F.TRU_TAMPER_CFG_polarity _ 0 (by decide)

/-! ### Injection, the logbook and the snapshot (R476, R479, R485, R489) -/

theorem State.injResult_frame {rs : List Reg} {s t : State} (h : Reg.INJ_STATUS ∈ rs) (k : RegFrame rs s t) (reason : Nat) :
    RegFrame rs s (t.injResult reason) := (k.wr F.INJ_STATUS_reason _ 0 h).wr F.INJ_STATUS_refused _ 0 h

theorem State.injUnlock_frame (s : State) (unlock : Bool) (confirm : Nat) :
    RegFrame [.INJ_UNLOCK, .TRU_LC, .INJ_STATUS] s (s.injUnlock unlock confirm) := by
  have set_ : ∀ v, RegFrame [.INJ_UNLOCK, .TRU_LC, .INJ_STATUS] s (s.setUnlock v) := fun v =>
    ((RegFrame.refl _ s).wr F.INJ_UNLOCK_unlock v 0 (by decide)).wr F.TRU_LC_inj_unlocked v 0 (by decide)
  unfold State.injUnlock
  split_ifs
  · exact set_ 0
  · exact set_ 1
  · exact (State.injResult_frame (by decide) (.refl _ s) 2).logEv ..

theorem State.injArm_frame (s : State) : RegFrame [.INJ_STATUS] s s.injArm := by
  unfold State.injArm
  dsimp only
  split_ifs
  · exact (State.injResult_frame (by decide) (.refl _ s) 1).logEv ..
  · exact (State.injResult_frame (by decide) (.refl _ s) 3).logEv ..
  all_goals
    exact State.injResult_frame (by decide) ((RegFrame.wr (s.inj_frame [.INJ_STATUS] _)
      F.INJ_STATUS_armed _ 0 (by decide)).wr F.INJ_STATUS_left _ 0 (by decide)) 0

theorem State.disarm_frame (s : State) : RegFrame [.INJ_STATUS] s s.disarm :=
  (RegFrame.wr (s.inj_frame [.INJ_STATUS] none)
    F.INJ_STATUS_armed _ 0 (by decide)).wr F.INJ_STATUS_left _ 0 (by decide)

theorem State.logRead_frame (s : State) : RegFrame [.LOG_READ_STATUS] s s.logRead := by
  unfold State.logRead
  split
  · exact (RegFrame.refl _ s).refuseWrite ..
  · exact RegFrame.wr (s.log_frame [.LOG_READ_STATUS] _) F.LOG_READ_STATUS_busy 1 0 (by decide)

/-! ### Power domains (R435, R437, R450) -/

/-- A kindle is counted, as an event and for its domain (R435). -/
def State.kindleCounted (s : State) (d : Nat) : State := ((s.bump F.PWR_KINDLE).evt 1).bumpSat F.PWR_DOM_kindles d

section
variable {rs : List Reg} (hk : Reg.PWR_KINDLE ∈ rs) (he : Reg.PWR_EVT ∈ rs) (hd : Reg.PWR_DOM ∈ rs)
include hk he hd

theorem State.kindleCounted_frame (s : State) (d : Nat) : RegFrame rs s (s.kindleCounted d) :=
  (((RegFrame.refl rs s).bump F.PWR_KINDLE 1 0 hk).trans (.of_regOnly (State.evt_only _ 1) he)).wr F.PWR_DOM_kindles _ d hd

theorem State.kindle_frame (s : State) (d : Nat) : RegFrame rs s (s.kindle d) := by
  unfold State.kindle
  dsimp only
  split
  · exact s.kindleCounted_frame hk he hd d
  · exact (s.kindleCounted_frame hk he hd d).trans (State.pwr_frame rs _ _)

end

theorem State.requestHeld_frame (s : State) (d : Nat) : RegFrame [.PWR_KINDLE, .PWR_EVT, .PWR_DOM, .PWR_HELD_PRIV] s (s.requestHeld d) := by
  unfold State.requestHeld
  split
  · exact .refl _ s
  · refine RegFrame.trans ?_ (State.pwr_frame _ _ _)
    unfold State.requestAt
    split_ifs
    · exact .refl _ s
    · exact (RegFrame.refl _ s).bump F.PWR_HELD_PRIV 1 0 (by decide)
    · exact s.kindle_frame (by decide) (by decide) (by decide) d

theorem State.privWake_frame (s : State) (d : Nat) : RegFrame [] s (s.privWake d) := by
  unfold State.privWake
  dsimp only
  split_ifs
  all_goals exact s.pwr_frame [] _

theorem State.domWrite_frame (s : State) (d floor : Nat) (pin : Bool) (idleUs : Nat) :
    RegFrame [.PWR_DOM, .PWR_KINDLE, .PWR_EVT, .PWR_STATUS] s (s.domWrite d floor pin idleUs) := by
  have written := (((RegFrame.refl [Reg.PWR_DOM, .PWR_KINDLE, .PWR_EVT, .PWR_STATUS] s).wr F.PWR_DOM_floor floor d (by decide)).wr F.PWR_DOM_pinned
    (b2n pin) d (by decide)).wr F.PWR_DOM_idle_us idleUs d (by decide)
  unfold State.domWrite
  dsimp only
  split_ifs
  · exact (RegFrame.refl _ s).refuseWrite ..
  · exact written
  · exact written.trans (State.kindle_frame (by decide) (by decide) (by decide) _ d)
  · exact ((written.trans (State.kindleCounted_frame (by decide) (by decide) (by decide) _ d)).wr F.PWR_DOM_state _ d (by decide)).wr
      F.PWR_STATUS_dev_state _ 0 (by decide)
  · exact written

/-! ### Firmware slots (R508) -/

theorem State.fwProgram_frame (s : State) (slot : Nat) : RegFrame [.MGT_FW_STATUS] s (s.fwProgram slot) := by
  have ends : ∀ op reason, RegFrame [.MGT_FW_STATUS] s (s.fwResult op reason) := fun op reason => .of_regOnly (s.fwResult_only op reason) (by decide)
  by_cases stop : s.fwStop slot = 0
  · cases check : s.fwCheck s.stagedFw with
    | error r => rw [State.fwProgram_rejects stop check]; exact ends _ _
    | ok h =>
      rw [State.fwProgram_begins stop check]
      exact ((((RegFrame.wr (s.mgt_frame [.MGT_FW_STATUS] _)
        F.MGT_FW_STATUS_busy _ 0 (by decide)).wr F.MGT_FW_STATUS_done _ 0 (by decide)).wr F.MGT_FW_STATUS_refused _ 0 (by decide)).wr
        F.MGT_FW_STATUS_reason _ 0 (by decide)).wr F.MGT_FW_STATUS_permille _ 0 (by decide)
  · rw [State.fwProgram_stopped stop]; exact ends _ _

/-! ### The rows -/

/-- Settles O60: each row by what its operation can change. -/
theorem framesOfRegisterCommands : Obligations.FramesOfRegisterCommands := by
  intro s t path a b c x cmd rs row h
  have frame : RegFrame rs s t := by
    simp only [List.mem_cons, Prod.mk.injEq, List.not_mem_nil, or_false] at row
    rcases row with ⟨rfl, rfl⟩ | ⟨rfl, rfl⟩ | ⟨rfl, rfl⟩ | ⟨rfl, rfl⟩ | ⟨rfl, rfl⟩ | ⟨rfl, rfl⟩ | ⟨rfl, rfl⟩ | ⟨rfl, rfl⟩ | ⟨rfl, rfl⟩ | ⟨rfl, rfl⟩ |
      ⟨rfl, rfl⟩ | ⟨rfl, rfl⟩ | ⟨rfl, rfl⟩ | ⟨rfl, rfl⟩ | ⟨rfl, rfl⟩ | ⟨rfl, rfl⟩ | ⟨rfl, rfl⟩ | ⟨rfl, rfl⟩ | ⟨rfl, rfl⟩ | ⟨rfl, rfl⟩ | ⟨rfl, rfl⟩
    · exact actOn_frame (asManagerBy_frame fun u => u.stageWord_frame path a b) h
    · exact act_frame s.clearStaged_frame h
    · exact act_frame (asManager_frame State.attest_frame) h
    · exact act_frame s.attestDone_frame h
    · exact actOn_frame (asManager_frame fun u => u.revoke_frame a x) h
    · exact act_frame (asManager_frame fun u => u.raiseFwFloor_frame x) h
    · exact act_frame (asManager_frame fun u => u.burnPolarity_frame x) h
    · exact act_frame (asManager_frame fun u => u.tamperCfg_frame (a % 16) (b % 16)) h
    · exact act_frame (asManager_frame fun u => u.injUnlock_frame x a) h
    · exact act_frame (asManager_frame State.injArm_frame) h
    · exact act_frame (asManager_frame fun u => State.injResult_frame (by decide) u.disarm_frame 0) h
    · exact act_frame (asManager_frame State.logRead_frame) h
    · exact act_frame (f := asManager false State.snapshot)
        (asManager_frame fun u => u.snap_frame [] _) h
    · exact actOn_frame (s.privWake_frame a) h
    · exact actOn_frame (s.pwr_frame [] _) h
    · exact actOn_frame (s.requestHeld_frame a) h
    · exact actOn_frame (asManager_frame fun u => u.domWrite_frame a b x c) h
    · exact act_frame (asManager_frame fun u => u.fwProgram_frame 0) h
    · exact act_frame (asManager_frame fun u => u.fwProgram_frame 1) h
    · exact actOn_frame (f := fun s => { s with mgt := { s.mgt with challenges := Tbl.erase s.mgt.challenges a } })
        (s.mgt_frame [] _) h
    · exact actOn_frame (f := fun s => { s with mgt := { s.mgt with locked := s.mgt.locked.filter (· != a) } })
        (s.mgt_frame [] _) h
  exact ⟨frame.mem, frame.insts, frame.parts, frame.ops, frame.bxt, frame.rings, frame.slots, frame.mslots, frame.xlt, frame.pins, frame.reg⟩

end Sys2Proof.Machine
end

section
/-!
PROOFS. The snapshot of the counters and the injection network (R479, R485, R486, R489); the logbook's pages and commands (R473 to R477).
-/

namespace Sys2Proof.Machine

/-! ### The access of the session's holder (R1, R499) -/

/-- A command of the manager's, by whichever paths reach it, from a session that holds the role. -/
theorem heldRow_completes {c : Instr} {s : State} {r : Bool} {f : State → State} {P : State → Prop} (hrun : s.power = .run) (hm : s.manages r = true)
    (hrow : exec c s = act s (asManager r f)) (p : P ((f s.touchSession).requeue s.pending)) : Completes c s P :=
  completes_act hrun hrow (by rwa [asManager_of_manages hm])

/-- The same of a command that names parts by number. -/
theorem heldRow_completesOn {c : Instr} {s : State} {r b : Bool} {f : State → State} {P : State → Prop} (hrun : s.power = .run) (hb : b = true)
    (hm : s.manages r = true) (hrow : exec c s = actOn b s (asManager r f)) (p : P ((f s.touchSession).requeue s.pending)) : Completes c s P :=
  completes_actOn hrun hrow hb (by rwa [asManager_of_manages hm])

theorem State.touchSession_eq (s : State) : s.touchSession = { s with mgt := s.touchSession.mgt } := by
  rcases s.touchSession_cases with h | ⟨_, _, h⟩ <;> rw [h]

@[simp] theorem State.touchSession_tru (s : State) : s.touchSession.tru = s.tru := by rw [s.touchSession_eq]
@[simp] theorem State.touchSession_inj (s : State) : s.touchSession.inj = s.inj := by rw [s.touchSession_eq]
@[simp] theorem State.touchSession_log (s : State) : s.touchSession.log = s.log := by rw [s.touchSession_eq]
@[simp] theorem State.touchSession_pwr (s : State) : s.touchSession.pwr = s.pwr := by rw [s.touchSession_eq]
@[simp] theorem State.touchSession_rst (s : State) : s.touchSession.rst = s.rst := by rw [s.touchSession_eq]
@[simp] theorem State.touchSession_tier (s : State) : s.touchSession.tier = s.tier := by rw [s.touchSession_eq]
@[simp] theorem State.touchSession_insts (s : State) : s.touchSession.insts = s.insts := by rw [s.touchSession_eq]
@[simp] theorem State.touchSession_ticks (s : State) : s.touchSession.ticks = s.ticks := by rw [s.touchSession_eq]
@[simp] theorem State.touchSession_reg (s : State) (r : Reg) (i : Nat) : s.touchSession.reg r i = s.reg r i := by rw [s.touchSession_eq]; rfl

/-! ### Injection (R485, R486, R489) -/

theorem State.injResult_shows (s : State) (reason : Nat) : (s.injResult reason).rd F.INJ_STATUS_refused = b2n (reason != 0) ∧
    (s.injResult reason).rd F.INJ_STATUS_reason = reason % 2 ^ F.INJ_STATUS_reason.width := by
  unfold State.injResult
  refine ⟨?_, ?_⟩
  · simp (disch := decide) only [State.rd_wr_self]
    cases reason != 0 <;> rfl
  · simp (disch := decide) only [State.rd_wr_self, State.rd_wr_bits]

/-- The end of an injection command leaves the other fields of its register and the point that is armed. -/
theorem State.rd_injResult (s : State) (reason : Nat) (f : Fld) (h : f.reg ≠ .INJ_STATUS ∨ f = F.INJ_STATUS_armed ∨ f = F.INJ_STATUS_left) :
    (s.injResult reason).rd f = s.rd f := by
  unfold State.injResult
  rcases h with h | rfl | rfl
  · rw [State.rd_wr_reg _ f _ _ _ _ h, State.rd_wr_reg _ f _ _ _ _ h]
  · simp (disch := decide) only [State.rd_wr_bits]
  · simp (disch := decide) only [State.rd_wr_bits]

/-- A command that the network refuses shows its reason, and is logged. -/
theorem State.injRefused_shows (s : State) (reason sub : Nat) (h : 0 < reason ∧ reason < 16) :
    ((s.injResult reason).logRefused .INJ reason sub).rd F.INJ_STATUS_refused = 1 ∧
      ((s.injResult reason).logRefused .INJ reason sub).rd F.INJ_STATUS_reason = reason := by
  obtain ⟨refused, shown⟩ := s.injResult_shows reason
  obtain ⟨positive, small⟩ := h
  rw [State.rd_logRefused _ _ _ _ _ _ rfl, State.rd_logRefused _ _ _ _ _ _ rfl, refused, shown, show (reason != 0) = true from bne_iff_ne.mpr (by omega)]
  exact ⟨rfl, Nat.mod_eq_of_lt small⟩

theorem State.setUnlock_shows (s : State) {v : Nat} (h : v < 2) :
    (s.setUnlock v).rd F.INJ_UNLOCK_unlock = v ∧ (s.setUnlock v).rd F.TRU_LC_inj_unlocked = v := by
  unfold State.setUnlock
  simp (disch := decide) only [State.rd_wr_self, State.rd_wr_reg]
  exact ⟨Nat.mod_eq_of_lt h, Nat.mod_eq_of_lt h⟩

/-- Whether an unlock is allowed by its `confirm` and the layout's flags (R485). -/
def State.unlocks (s : State) (confirm : Nat) : Prop := confirm = 0xA7 ∧ (s.lay.running.map fun l => l.access.flags.testBit 1) = some true

theorem State.injUnlock_refused {s : State} {confirm : Nat} (no : ¬s.unlocks confirm) : s.injUnlock true confirm = (s.injResult 2).logRefused .INJ 2 0 :=
  (if_neg (by decide)).trans (if_neg no)

theorem State.injUnlock_opens {s : State} {confirm : Nat} (ok : s.unlocks confirm) : s.injUnlock true confirm = s.setUnlock 1 :=
  (if_neg (by decide)).trans (if_pos ok)

@[simp] theorem State.touchSession_unlocks (s : State) (confirm : Nat) : s.touchSession.unlocks confirm ↔ s.unlocks confirm := by
  rw [State.unlocks, State.touchSession_lay, State.unlocks]

@[simp] theorem State.touchSession_injAllowed (s : State) : s.touchSession.injAllowed = s.injAllowed := by
  simp only [State.injAllowed, State.touchSession_rd]

/-- The point that the selection registers describe. -/
def State.injSelected (s : State) : InjPoint :=
  ⟨s.rd F.INJ_SEL_point, s.rd F.INJ_SEL_index, s.rd F.INJ_CTL_every, s.rd F.INJ_CTL_count == 0,
    if s.rd F.INJ_CTL_ptn_en = 1 then some (s.rd F.INJ_CTL_ptn) else none, 0⟩

/-- A point is armed. -/
def State.armed (s : State) (p : InjPoint) (n : Nat) : State := ((({ s with inj := some p }).wr F.INJ_STATUS_armed 1).wr F.INJ_STATUS_left n).injResult 0

theorem State.injArm_arms {s : State} (allowed : s.injAllowed = true) (known : injPoints.contains (s.rd F.INJ_SEL_point) = true) :
    s.injArm = s.armed s.injSelected (s.rd F.INJ_CTL_count) := by
  simp only [State.injArm, allowed, known, Bool.not_true, Bool.false_eq_true, if_false]
  rfl

theorem State.armed_shows (s : State) (p : InjPoint) (n : Nat) : (s.armed p n).rd F.INJ_STATUS_armed = 1 ∧
    (s.armed p n).rd F.INJ_STATUS_left = n % 2 ^ F.INJ_STATUS_left.width ∧ (s.armed p n).rd F.INJ_STATUS_refused = 0 := by
  refine ⟨?_, ?_, (State.injResult_shows _ 0).1⟩
  · rw [State.armed, State.rd_injResult _ _ _ (by decide)]
    simp (disch := decide) only [State.rd_wr_self, State.rd_wr_bits]
    rfl
  · rw [State.armed, State.rd_injResult _ _ _ (by decide)]
    simp (disch := decide) only [State.rd_wr_self]

theorem State.disarm_shows (s : State) : (s.disarm.injResult 0).rd F.INJ_STATUS_armed = 0 ∧ (s.disarm.injResult 0).rd F.INJ_STATUS_left = 0 ∧
    (s.disarm.injResult 0).rd F.INJ_STATUS_refused = 0 := by
  refine ⟨?_, ?_, (State.injResult_shows _ 0).1⟩
  · rw [State.rd_injResult _ _ _ (by decide), State.disarm]
    simp (disch := decide) only [State.rd_wr_self, State.rd_wr_bits]
    rfl
  · rw [State.rd_injResult _ _ _ (by decide), State.disarm]
    simp (disch := decide) only [State.rd_wr_self]
    rfl

section
variable {s : State} (hrun : s.power = .run) (hm : s.manages false = true)
include hrun hm

theorem injArm_refused {reason sub : Nat} (small : 0 < reason ∧ reason < 16)
    (e : s.touchSession.injArm = (s.touchSession.injResult reason).logRefused .INJ reason sub) : Completes .injArm s fun t =>
    t.inj = s.inj ∧ t.rd F.INJ_STATUS_refused = 1 ∧ t.rd F.INJ_STATUS_reason = reason ∧ t.mem = s.mem := by
  refine heldRow_completes hrun hm rfl ?_
  obtain ⟨refused, shown⟩ := s.touchSession.injRefused_shows reason sub small
  rw [e]
  exact ⟨(State.inj_logRefused ..).trans s.touchSession_inj, refused, shown, (State.mem_logRefused ..).trans s.touchSession_mem⟩

theorem injUnlock_refused {confirm : Nat} (no : ¬s.unlocks confirm) : Completes (.injUnlock true confirm) s fun t =>
    t.rd F.INJ_UNLOCK_unlock = s.rd F.INJ_UNLOCK_unlock ∧ t.rd F.TRU_LC_inj_unlocked = s.rd F.TRU_LC_inj_unlocked ∧
    t.rd F.INJ_STATUS_refused = 1 ∧ t.rd F.INJ_STATUS_reason = 2 ∧ t.mem = s.mem := by
  refine heldRow_completes hrun hm rfl ?_
  obtain ⟨refused, shown⟩ := s.touchSession.injRefused_shows 2 0 (by decide)
  rw [State.injUnlock_refused (by rwa [State.touchSession_unlocks])]
  have kept : ∀ f : Fld, f.reg.isLog = false → f.reg ≠ .INJ_STATUS → ((s.touchSession.injResult 2).logRefused .INJ 2 0).rd f = s.rd f := fun f hl hr => by
    rw [State.rd_logRefused _ _ _ _ _ _ hl, State.rd_injResult _ _ _ (.inl hr), State.touchSession_rd]
  exact ⟨kept _ rfl (by decide), kept _ rfl (by decide), refused, shown, (State.mem_logRefused ..).trans s.touchSession_mem⟩

end

/-- Settles O51: each row on the state that the access of the session's holder leaves. -/
theorem snapshotAndInjection : Obligations.SnapshotAndInjection := by
  intro s hrun
  refine ⟨fun hm => heldRow_completes hrun hm rfl ⟨?snap, s.touchSession_regs, s.touchSession_mem⟩,
    fun c hm => heldRow_completes hrun hm rfl ?locks,
    fun c hm => ⟨fun ok => heldRow_completes hrun hm rfl ?opens, fun no => injUnlock_refused hrun hm no⟩,
    fun hm no => injArm_refused hrun hm (sub := s.rd F.INJ_SEL_point) (by decide) ?unallowed,
    fun hm ok no => injArm_refused hrun hm (sub := s.rd F.INJ_SEL_point) (by decide) ?unknown,
    fun hm ok known => heldRow_completes hrun hm rfl ?arms, fun hm => heldRow_completes hrun hm rfl ?disarms⟩
  case snap => exact List.map_congr_left fun q _ => by simp only [State.counterNow, State.touchSession_ticks, State.touchSession_reg]
  case locks => exact ⟨(s.touchSession.setUnlock_shows (by decide)).1, (s.touchSession.setUnlock_shows (by decide)).2, s.touchSession_mem⟩
  case opens =>
    rw [State.injUnlock_opens (by rwa [State.touchSession_unlocks])]
    exact ⟨(s.touchSession.setUnlock_shows (by decide)).1, (s.touchSession.setUnlock_shows (by decide)).2, s.touchSession_mem⟩
  case unallowed => simp [State.injArm, no]
  case unknown =>
    unfold State.injArm
    simp only [State.touchSession_injAllowed, ok, State.touchSession_rd, no]
    rfl
  case arms =>
    rw [State.injArm_arms (s.touchSession_injAllowed.trans ok) (by rwa [State.touchSession_rd])]
    obtain ⟨armed, left, refused⟩ := s.touchSession.armed_shows s.touchSession.injSelected (s.touchSession.rd F.INJ_CTL_count)
    refine ⟨?_, armed, left.trans (by rw [State.touchSession_rd]), refused, s.touchSession_mem⟩
    change some s.touchSession.injSelected = some s.injSelected
    simp only [State.injSelected, State.touchSession_rd]
  case disarms =>
    obtain ⟨armed, left, refused⟩ := s.touchSession.disarm_shows
    exact ⟨rfl, armed, left, refused, s.touchSession_mem⟩

/-! ### Pages of the logbook (R473, R474) -/

theorem State.startPage_begins {s : State} (none_ : s.log.page = none) (on : s.rd F.LOG_STATUS_stopped = 0) (some_ : 0 < s.log.closedWaiting) :
    s.startPage = { s with log := { s.log with page := some ⟨s.log.staged.take (min 8 s.log.closedWaiting), s.log.nextSlot⟩ } } := by
  have : s.log.closedWaiting ≠ 0 := by omega
  simp [State.startPage, none_, on, this]

/-- A page's beginning leaves what is staged and what is open, and writes no register. -/
theorem State.startPage_keeps (s : State) : s.startPage.log.staged = s.log.staged ∧ s.startPage.log.isOpen = s.log.isOpen ∧
    s.startPage.regs = s.regs ∧ s.startPage.mem = s.mem := by
  unfold State.startPage
  dsimp only
  split <;> exact ⟨rfl, rfl, rfl, rfl⟩

theorem State.pageIfFull_keeps (s : State) : s.pageIfFull.log.staged = s.log.staged ∧ s.pageIfFull.log.isOpen = s.log.isOpen ∧
    s.pageIfFull.regs = s.regs ∧ s.pageIfFull.mem = s.mem := by
  unfold State.pageIfFull
  split
  · exact s.startPage_keeps
  · exact ⟨rfl, rfl, rfl, rfl⟩

/-- The newest and the oldest visible record are shown. -/
theorem State.showLog_eq (s : State) : ∃ n : Nat, s.showLog =
    (if s.log.staged.isEmpty then s else s.wr F.LOG_STATUS_newest (s.log.stagedSlot (s.log.staged.length - 1))).wr F.LOG_STATUS_oldest n := by
  unfold State.showLog
  dsimp only
  split <;> exact ⟨_, rfl⟩

/-- That is all that showing the logbook writes. -/
theorem State.showLog_keeps (s : State) : s.showLog.log = s.log ∧ s.showLog.mem = s.mem ∧
    ∀ (f : Fld) (i : Nat), f.reg ≠ .LOG_STATUS → s.showLog.rd f i = s.rd f i := by
  obtain ⟨n, e⟩ := s.showLog_eq
  rw [e]
  split
  · exact ⟨rfl, rfl, fun f i hf => State.rd_wr_reg _ _ _ _ _ _ hf⟩
  · exact ⟨rfl, rfl, fun f i hf => (State.rd_wr_reg _ _ _ _ _ _ hf).trans (State.rd_wr_reg _ _ _ _ _ _ hf)⟩

/-- A page that programs well leaves the staging, but for the records behind it. -/
theorem State.pageDone_leaves (s : State) (p : PageProgram) :
    (s.pageDone p).log.staged = s.log.staged.drop p.recs.length ∧ (s.pageDone p).mem = s.mem := by
  unfold State.pageDone
  dsimp only
  obtain ⟨staged, -, -, mem⟩ := State.pageIfFull_keeps (State.showLog (State.wr { s with log := LogSt.eraseAhead _ _ } F.LOG_STATUS_newest _))
  obtain ⟨log, mem', -⟩ := State.showLog_keeps (State.wr { s with log := LogSt.eraseAhead _ _ } F.LOG_STATUS_newest _)
  exact ⟨staged.trans (by rw [log]; rfl), mem.trans mem'⟩

/-- A page that fails is programmed again elsewhere, while blocks are to spare. -/
theorem State.pageFailed_leaves {s : State} {p : PageProgram} (spare : s.log.bad.length + 65 ≤ 959) : (s.pageFailed p).log.staged = s.log.staged ∧
    (s.pageFailed p).log.page.isSome = true ∧ (s.pageFailed p).rd F.LOG_FLASH_ERR = (s.rd F.LOG_FLASH_ERR + 1) % 2 ^ F.LOG_FLASH_ERR.width ∧
    (s.pageFailed p).mem = s.mem := by
  have few : ¬959 < (if Tbl.getD s.log.fails (slotBlock p.slot) 0 + 1 = 3 then s.log.bad ++ [slotBlock p.slot] else s.log.bad).length + 64 := by
    split
    · rw [List.length_append, List.length_singleton]; omega
    · omega
  unfold State.pageFailed
  simp only [if_neg few]
  obtain ⟨log, mem, rd⟩ := State.showLog_keeps (State.bump { s with log := LogSt.eraseAhead _ _ } F.LOG_FLASH_ERR)
  exact ⟨by rw [log]; rfl, by rw [log]; rfl, (rd _ _ (by decide)).trans (State.rd_bump_self _ _ _ _ (by decide)), mem⟩

/-- The end of a page program, as its injection point lets it be (R473, R484). -/
def State.pageEnds (s : State) (ok : Bool) : State :=
  match s.log.page with
  | none => s
  | some p =>
    let (hit, s) := s.inject 0x0401 0 64 Status.ok
    if ok && !hit then s.pageDone p else s.pageFailed p

/-! ### The commands of the logbook (R476, R477) -/

/-- While a READ runs neither command begins. -/
theorem State.logRead_refused {s : State} (busy : s.log.run.isSome = true) : s.logRead = s.refuseWrite .LOG 0x14 := if_pos busy

/-- From s to t neither the command that runs nor the window of the logbook has changed. -/
def KeepsWindow (s t : State) : Prop := t.log.run = s.log.run ∧ t.log.window = s.log.window

theorem KeepsWindow.trans {s t u : State} (h : KeepsWindow s t) (k : KeepsWindow t u) : KeepsWindow s u := ⟨k.1.trans h.1, k.2.trans h.2⟩

theorem State.stageRec_window (s : State) (r : LogRec) : KeepsWindow s (s.stageRec r) := by
  unfold State.stageRec
  dsimp only
  split_ifs <;> exact ⟨rfl, rfl⟩

theorem State.trayEvent_window (s : State) (r : LogRec) : KeepsWindow s (s.trayEvent r) := by
  unfold State.trayEvent State.trayPut
  dsimp only
  split_ifs <;> exact ⟨rfl, rfl⟩

theorem State.pageIfFull_window (s : State) : KeepsWindow s s.pageIfFull := by
  unfold State.pageIfFull State.startPage
  dsimp only
  split_ifs <;> exact ⟨rfl, rfl⟩

theorem State.logRec_fresh_window (s : State) (r : LogRec) : KeepsWindow s (State.logRec.fresh r s) := by
  have told : ∀ (u : State) (q : LogRec), KeepsWindow u ((u.stageRec q).trayEvent q) := fun u q => (u.stageRec_window q).trans (State.trayEvent_window _ q)
  unfold State.logRec.fresh
  dsimp only
  split
  · exact (KeepsWindow.trans (t := { s with log := { s.log with lost := 0 } }) ⟨rfl, rfl⟩ (told _ _)).trans ((told _ r).trans (State.pageIfFull_window _))
  · exact (told s r).trans (State.pageIfFull_window _)

/-- Logging leaves the command that runs and the window as they are. -/
theorem State.logRec_window (s : State) (r : LogRec) : KeepsWindow s (s.logRec r) := by
  unfold State.logRec
  split
  · split
    · exact ⟨rfl, rfl⟩
    · exact s.logRec_fresh_window r
  · exact s.logRec_fresh_window r

/-- The logbook as a READ leaves it that has not filled the window yet. -/
def State.readEnded (s : State) : State := State.wr { s with log := { s.log with run := none } } F.LOG_READ_STATUS_busy 0

theorem State.readEnded_idle (s : State) : s.readEnded.rd F.LOG_READ_STATUS_busy = 0 := State.rd_wr_self _ F.LOG_READ_STATUS_busy 0 0 (by decide)

theorem State.logReadDone_summary {s : State} {c : Nat} (run : s.log.run = some (.read c true)) : s.logReadDone =
    { s.readEnded with log := { s.log with run := none, window := padTo 4096 (Tbl.getD s.log.summaries c []) } } := by
  simp [State.logReadDone, run, State.readEnded]

/-- The window filled with records, of which and of the slots examined LOG_READ_STATUS tells. -/
def State.readFilled (s : State) (c : Nat) (rs : List LogRec) (n : Nat) : State :=
  (((State.bump { s.readEnded with log := { s.log with run := none, window := padTo 4096 (rs.flatMap LogRec.bytes) } } F.LOG_TORN
    (n - rs.length)).wr F.LOG_READ_STATUS_count rs.length).wr F.LOG_READ_STATUS_skipped (min 2047 (n - rs.length))).wr F.LOG_READ_STATUS_next
      ((c + n) % logSlots)

/-- What a READ of records shows once it has ended, and the memory it leaves. -/
def State.Filled (s t : State) (c : Nat) (rs : List LogRec) (n : Nat) : Prop :=
  t.log.run = none ∧ t.rd F.LOG_READ_STATUS_busy = 0 ∧ t.log.window = padTo 4096 (rs.flatMap LogRec.bytes) ∧
    t.rd F.LOG_READ_STATUS_count = rs.length % 2 ^ F.LOG_READ_STATUS_count.width ∧
    t.rd F.LOG_READ_STATUS_skipped = min 2047 (n - rs.length) % 2 ^ F.LOG_READ_STATUS_skipped.width ∧
    t.rd F.LOG_READ_STATUS_next = (c + n) % logSlots % 2 ^ F.LOG_READ_STATUS_next.width ∧ t.mem = s.mem

theorem State.Filled.requeue {s t : State} {c n : Nat} {rs : List LogRec} (h : s.Filled t c rs n) (q : List Instr) : s.Filled (t.requeue q) c rs n := h

theorem State.readFilled_fills (s : State) (c : Nat) (rs : List LogRec) (n : Nat) : s.Filled (s.readFilled c rs n) c rs n := by
  unfold State.readFilled
  refine ⟨rfl, ?_, ?_, ?_, ?_, State.rd_wr_self _ F.LOG_READ_STATUS_next _ 0 (by decide), rfl⟩
  · simp (disch := decide) only [State.rd_wr_bits, State.rd_bump_ne]
    exact s.readEnded_idle
  · rw [State.log_wr, State.log_wr, State.log_wr, State.log_bump]
  · simp (disch := decide) only [State.rd_wr_bits, State.rd_wr_self]
  · simp (disch := decide) only [State.rd_wr_bits, State.rd_wr_self]

/-- A READ of records fills the window with them. -/
theorem State.logReadDone_records {s : State} {c : Nat} (run : s.log.run = some (.read c false)) (some_ : s.log.bare = false) :
    s.logReadDone = s.readFilled c (s.log.readFrom c (s.rd F.LOG_STATUS_newest)).1 (s.log.readFrom c (s.rd F.LOG_STATUS_newest)).2 := by
  have same : ({ s.log with run := none } : LogSt).bare = false := some_
  have newest : (State.wr { s with log := { s.log with run := none } } F.LOG_READ_STATUS_busy 0).rd F.LOG_STATUS_newest = s.rd F.LOG_STATUS_newest :=
    State.rd_wr_reg _ _ _ _ _ _ (by decide)
  simp only [State.logReadDone, run, Bool.false_eq_true, if_false, State.log_wr, same, newest]
  rfl

/-- The logbook after a CLEAR, before its record is staged. -/
def State.cleared (s : State) (sum : Bool) : State :=
  let next := match s.log.page with
    | some p => nextGood s.log.bad 959 ((p.slot + 8) % logSlots)
    | none => s.log.nextSlot
  let l := { s.log with staged := [], isOpen := false, page := none, nextSlot := next, flash := [], clearPoint := next }
  { s with log := if sum then { l with summaries := [], summaryClear := l.nextSummary } else l }

theorem State.cleared_summaries (s : State) (sum : Bool) : (s.cleared sum).log.summaries = if sum then [] else s.log.summaries := by
  cases sum <;> rfl

theorem State.logClear_eq {s : State} (idle : s.log.run = none) (sum : Bool) :
    s.logClear sum = (s.cleared sum).stageRec ((s.cleared sum).mkRec .LOG .commandDone 2 0 0 0 false) := by
  unfold State.logClear
  rw [if_neg (by simp [idle])]
  rfl

/-! ### The rows -/

theorem exec_logPageDone_eq (ok : Bool) (s : State) : exec (.logPageDone ok) s = actOn0 s fun s => s.pageEnds ok := rfl

section
variable {s : State} (hrun : s.power = .run)
include hrun

theorem logRead_starts (hm : s.manages true = true) (idle : s.log.run = none) : Completes .logRead s fun t =>
    t.rd F.LOG_READ_STATUS_busy = 1 ∧ t.mem = s.mem ∧ t.log = { s.log with run := some (.read (s.rd F.LOG_CURSOR_slot) (s.rd F.LOG_CURSOR_area == 1)) } := by
  refine heldRow_completes hrun hm rfl ?_
  rw [State.logRead, State.touchSession_log, idle, if_neg (by decide)]
  exact ⟨State.rd_wr_self _ _ _ _ (by decide), s.touchSession_mem, by simp [State.touchSession_rd]⟩

/-- A READ while one runs changes neither that one nor the window. -/
theorem logRead_refused (busy : s.log.run.isSome = true) : Completes .logRead s fun t =>
    t.log.run = s.log.run ∧ t.log.window = s.log.window ∧ t.mem = s.mem := by
  refine completes_act hrun rfl ?_
  rcases asManager_eq true State.logRead s with ⟨-, e⟩ | ⟨-, e⟩ <;> rw [e]
  · rw [State.logRead_refused (by rwa [State.touchSession_log])]
    obtain ⟨run, window⟩ := State.logRec_window { s.touchSession with wrefused := s.touchSession.wrefused + 1 }
      (State.mkRec { s.touchSession with wrefused := s.touchSession.wrefused + 1 } .LOG .writeRefused 0 0x14 0 2 false)
    exact ⟨run.trans (congrArg _ s.touchSession_log), window.trans (congrArg _ s.touchSession_log),
      (State.mem_logEv ..).trans s.touchSession_mem⟩
  · exact ⟨rfl, rfl, rfl⟩

/-- The flash's injection point lets the end of a page pass. -/
theorem logPageDone_completes {p : PageProgram} {ok : Bool} {P : State → Prop} (page : s.log.page = some p)
    (quiet : (s.inject 0x0401 0 64 Status.ok).1 = false)
    (h : P ((if ok then (s.inject 0x0401 0 64 Status.ok).2.pageDone p else (s.inject 0x0401 0 64 Status.ok).2.pageFailed p).requeue s.pending)) :
    Completes (.logPageDone ok) s P := by
  refine completes_actOn0 hrun (exec_logPageDone_eq ok s) ?_
  simp only [State.pageEnds, page, quiet, Bool.not_false, Bool.and_true]
  exact h

end

/-- Settles O50: each row's own effect; of a page by how it ends, of a READ by what is read. -/
theorem logbookRows : Obligations.LogbookRows := by
  intro s hrun
  refine ⟨completes_actOn0 hrun rfl rfl, completes_act hrun rfl rfl,
    fun p page quiet => ⟨logPageDone_completes hrun page quiet rfl, logPageDone_completes hrun page quiet rfl⟩,
    logRead_starts hrun, logRead_refused hrun, fun c run => completes_act hrun rfl ?summary, fun c run some_ => completes_act hrun rfl ?records,
    fun sum hm idle => heldRow_completes hrun hm rfl ?clears, fun none_ on some_ => completes_actOn0 hrun rfl ?flushes,
    fun p unarmed page => ?page, completes_actOn0 hrun rfl ?closes⟩
  case summary =>
    rw [State.logReadDone_summary run]
    generalize padTo 4096 _ = w
    exact ⟨rfl, s.readEnded_idle, rfl, rfl⟩
  case records =>
    rw [State.logReadDone_records run some_]
    exact State.Filled.requeue (s.readFilled_fills c _ _) s.pending
  case clears =>
    rw [State.logClear_eq (by rwa [State.touchSession_log])]
    refine ⟨_, rfl, ?_⟩
    have summaries := s.touchSession.cleared_summaries sum
    rw [State.touchSession_log] at summaries
    cases sum
    · exact ⟨rfl, rfl, rfl, rfl, fun no => (by cases no), fun _ => summaries, s.touchSession_regs, s.touchSession_mem⟩
    · exact ⟨rfl, rfl, rfl, rfl, fun _ => summaries, fun no => (by cases no), s.touchSession_regs, s.touchSession_mem⟩
  case flushes =>
    rw [State.startPage_begins none_ on some_]
    exact ⟨rfl, rfl, rfl, rfl⟩
  case page =>
    have quiet := congrArg Prod.fst (State.inject_idle unarmed 0x0401 0 64 Status.ok)
    have same := congrArg Prod.snd (State.inject_idle unarmed 0x0401 0 64 Status.ok)
    refine ⟨logPageDone_completes hrun page quiet ?_, fun spare => logPageDone_completes hrun page quiet ?_⟩
    · rw [if_pos rfl, same]; exact s.pageDone_leaves p
    · rw [if_neg (by decide), same]; exact State.pageFailed_leaves spare
  case closes =>
    obtain ⟨staged, closed, regs, mem⟩ := State.pageIfFull_keeps { s with log := { s.log with isOpen := false } }
    exact ⟨closed, staged, regs, mem⟩

end Sys2Proof.Machine
end

section
/-! PROOFS. The power domains (R434-R439, R449, R450): what steps down, what a kindle counts and holds, what lights, and the write of a floor. -/

namespace Sys2Proof.Machine

/-! ### The state of a domain (R441, R449) -/

theorem State.setDom_state (s : State) (d st : Nat) (h : st < 8) : (s.setDom d st).rd F.PWR_DOM_state d = st := by
  rw [State.setDom, State.showDev, State.rd_wr_reg _ _ _ _ _ _ (by decide), State.rd_wr_self _ _ _ _ (by decide)]
  exact Nat.mod_eq_of_lt h

theorem State.setDom_apart (s : State) (d st : Nat) (f : Fld) (i : Nat) (hr : f.reg = .PWR_DOM) (ha : f.apart F.PWR_DOM_state) :
    (s.setDom d st).rd f i = s.rd f i := by
  rw [State.setDom, State.showDev, State.rd_wr_reg _ _ _ _ _ _ (by rw [hr]; decide), State.rd_wr_bits _ _ _ _ _ _ hr (by decide) ha]

/-- Only work held at the crossing is answered with the reset error, and a domain that is not busy holds none. -/
theorem State.crossReset_idle {s : State} {d : Nat} (idle : s.heldAt d = 0) : s.crossReset d = s := if_pos idle

theorem State.heldAt_of_idle {s : State} {d : Nat} (h : s.domBusy d = false) : s.heldAt d = 0 := by
  unfold State.domBusy at h
  by_contra held
  rw [if_pos held] at h
  cases h

/-- The domain keeps where it is: domain 0, a pinned, climbing or busy one, and one the trust controller holds. -/
theorem State.stepDown_stays {s : State} {d : Nat}
    (h : d = 0 ∨ s.rd F.PWR_DOM_pinned d = 1 ∨ s.pwr.climbing.contains d = true ∨ (privileged d = true ∧ s.heldLit d = true) ∨ s.domBusy d = true) :
    s.stepDown d = s := if_pos h

/-- One rung down towards the floor, or COLD where all the ports it carries are dark (R434). -/
theorem State.stepDown_steps {s : State} {d : Nat} (idle : s.heldAt d = 0)
    (free : ¬(d = 0 ∨ s.rd F.PWR_DOM_pinned d = 1 ∨ s.pwr.climbing.contains d = true ∨ (privileged d = true ∧ s.heldLit d = true) ∨ s.domBusy d = true)) :
    (s.stepDown d).mem = s.mem ∧ (s.stepDown d).pwr = s.pwr ∧ (s.stepDown d).rd F.PWR_DOM_state d =
      if s.portDark d then 4 else if s.rd F.PWR_DOM_state d < s.rd F.PWR_DOM_floor d then s.rd F.PWR_DOM_state d + 1 else s.rd F.PWR_DOM_state d := by
  unfold State.stepDown
  rw [if_neg free]
  split_ifs with dark below
  · rw [State.crossReset_idle (s := s.setDom d 4) idle]
    exact ⟨rfl, rfl, s.setDom_state d 4 (by decide)⟩
  · exact ⟨rfl, rfl, s.setDom_state d _ (Nat.lt_of_le_of_lt below (s.rd_lt F.PWR_DOM_floor d))⟩
  · exact ⟨rfl, rfl, rfl⟩

/-! ### A kindle (R435, R437) -/

theorem State.kindleCounted_pwr (s : State) (d : Nat) : (s.kindleCounted d).pwr = s.pwr := by
  obtain ⟨_, _, _, e, _⟩ := (s.bump F.PWR_KINDLE).evt_only 1
  rw [State.kindleCounted, State.pwr_bumpSat, e]
  rfl

theorem State.kindleCounted_mem (s : State) (d : Nat) : (s.kindleCounted d).mem = s.mem :=
  (s.kindleCounted_frame (rs := [.PWR_KINDLE, .PWR_EVT, .PWR_DOM]) (by decide) (by decide) (by decide) d).mem

/-- The fields of a domain but its count of kindles are as before. -/
theorem State.kindleCounted_dom (s : State) (d : Nat) (f : Fld) (i : Nat) (hr : f.reg = .PWR_DOM) (ha : f.apart F.PWR_DOM_kindles) :
    (s.kindleCounted d).rd f i = s.rd f i := by
  rw [State.kindleCounted, State.bumpSat, State.rd_wr_bits _ _ _ _ _ _ hr (by decide) ha,
    ((s.bump F.PWR_KINDLE).evt_only 1).rd f i (by rw [hr]; rfl) (by rw [hr]; decide), State.rd_bump_ne _ _ _ _ _ _ (.inl (by rw [hr]; decide))]

theorem State.kindleCounted_count (s : State) (d : Nat) :
    (s.kindleCounted d).rd F.PWR_KINDLE = (s.rd F.PWR_KINDLE + 1) % 2 ^ F.PWR_KINDLE.width := by
  rw [State.kindleCounted, State.bumpSat, State.rd_wr_reg _ _ _ _ _ _ (by decide), ((s.bump F.PWR_KINDLE).evt_only 1).rd F.PWR_KINDLE 0 rfl (by decide),
    State.rd_bump_self _ _ _ _ (by decide)]

/-- A kindle is its count, and a domain that climbs. -/
theorem State.kindle_eq (s : State) (d : Nat) : ∃ l : List Nat, l.contains d = true ∧
    s.kindle d = { s.kindleCounted d with pwr := { s.pwr with climbing := l } } := by
  have eq : s.kindle d = if s.pwr.climbing.contains d then s.kindleCounted d
      else { s.kindleCounted d with pwr := { s.pwr with climbing := s.pwr.climbing ++ [d] } } := by
    rw [← s.kindleCounted_pwr d]
    rfl
  rw [eq]
  split_ifs with climbs
  · exact ⟨s.pwr.climbing, climbs, congrArg (fun p => { s.kindleCounted d with pwr := p }) (s.kindleCounted_pwr d)⟩
  · exact ⟨_, by simp, rfl⟩

/-- A request at the crossing of a domain that is LIT and in service passes. -/
theorem State.requestHeld_passes {s : State} {d : Nat} (lit : s.rd F.PWR_DOM_state d = 0) (serves : s.soleFenced d = false) : s.requestHeld d = s :=
  if_pos ⟨lit, by rw [serves]; rfl⟩

theorem State.requestHeld_holds {s : State} {d : Nat} (h : ¬(s.rd F.PWR_DOM_state d = 0 ∧ (!s.soleFenced d) = true)) :
    s.requestHeld d = (s.requestAt d).holdRequest d := if_neg h

/-! ### A domain lights (R435, R436) -/

/-- What a domain has lost in COLD leaves the ladder and memory as they are. -/
theorem State.coldExit_leaves (s : State) (d : Nat) : (s.coldExit d).mem = s.mem ∧ (s.coldExit d).pwr = s.pwr ∧ (s.coldExit d).rst = s.rst := by
  unfold State.coldExit
  split_ifs <;> exact ⟨rfl, rfl, rfl⟩

/-- A domain that is LIT and climbs no more. -/
def State.litDom (s : State) (d : Nat) : State := State.setDom { s with pwr := { s.pwr with climbing := s.pwr.climbing.filter (· != d) } } d 0

theorem State.litDom_lights (s : State) (d : Nat) : (s.litDom d).rd F.PWR_DOM_state d = 0 ∧ (s.litDom d).pwr.climbing.contains d = false ∧
    (s.litDom d).pwr.held = s.pwr.held ∧ (s.litDom d).rst = s.rst ∧ (s.litDom d).mem = s.mem := by
  refine ⟨State.setDom_state _ d 0 (by decide), ?_, rfl, rfl, rfl⟩
  show (s.pwr.climbing.filter (· != d)).contains d = false
  simp

theorem State.domainLit_lights {s : State} {d : Nat} (climbs : s.pwr.climbing.contains d = true) :
    (s.domainLit d).rd F.PWR_DOM_state d = 0 ∧ (s.domainLit d).pwr.climbing.contains d = false ∧
    (s.domainLit d).pwr.held = (if s.soleFenced d then s.pwr.held else Tbl.erase s.pwr.held d) ∧ (s.domainLit d).mem = s.mem := by
  obtain ⟨u, hu, eq⟩ : ∃ u : State, (u.mem = s.mem ∧ u.pwr = s.pwr ∧ u.rst = s.rst) ∧
      s.domainLit d = if (u.litDom d).soleFenced d then u.litDom d else (u.litDom d).releaseHeld d := by
    refine ⟨if s.rd F.PWR_DOM_state d = 4 then s.coldExit d else s, ?_, ?_⟩
    · split_ifs
      exacts [s.coldExit_leaves d, ⟨rfl, rfl, rfl⟩]
    · rw [State.domainLit, if_neg (by simpa using climbs)]
      rfl
  obtain ⟨mem, pwr, rst⟩ := hu
  obtain ⟨lit, climbing, held, units, umem⟩ := u.litDom_lights d
  have fenced : (u.litDom d).soleFenced d = s.soleFenced d := by rw [State.soleFenced, units, rst, State.soleFenced]
  rw [eq, fenced]
  rw [pwr] at held
  split_ifs
  · exact ⟨lit, climbing, held, umem.trans mem⟩
  · exact ⟨lit, climbing, congrArg (Tbl.erase · d) held, umem.trans mem⟩

/-! ### The trust controller's hold (R437) -/

theorem State.privWake_wakes (s : State) (d : Nat) : (s.privWake d).pwr.woken.contains d = true ∧
    (s.rd F.PWR_DOM_state d ≠ 0 → (s.privWake d).pwr.climbing.contains d = true) ∧ (s.privWake d).regs = s.regs ∧ (s.privWake d).mem = s.mem := by
  have woken : (if s.pwr.woken.contains d then s.pwr.woken else s.pwr.woken ++ [d]).contains d = true := by
    split_ifs with h
    · exact h
    · simp
  have eq : s.privWake d = if s.rd F.PWR_DOM_state d = 0 ∨ s.pwr.climbing.contains d = true
      then { s with pwr := { s.pwr with woken := if s.pwr.woken.contains d then s.pwr.woken else s.pwr.woken ++ [d] } }
      else { s with pwr := { s.pwr with woken := if s.pwr.woken.contains d then s.pwr.woken else s.pwr.woken ++ [d],
                                        climbing := s.pwr.climbing ++ [d] } } := rfl
  rw [eq]
  generalize (if s.pwr.woken.contains d then s.pwr.woken else s.pwr.woken ++ [d]) = w at woken
  split_ifs with quiet
  · exact ⟨woken, fun dark => quiet.resolve_left dark, rfl, rfl⟩
  · exact ⟨woken, fun _ => by simp, rfl, rfl⟩

/-! ### The write of a floor (R439, R450) -/

theorem deepestFloor_le : ∀ d < 96, deepestFloor d ≤ 4 := by decide

theorem State.domWrite_refuses {s : State} {d floor idleUs : Nat} (pin : Bool) (h : deepestFloor d < floor ∨ 1000000 < idleUs) :
    s.domWrite d floor pin idleUs = s.refuseWrite .PWR (0x1000 + 8 * d) := if_pos h

/-- A domain with its three fields written. -/
def State.domSet (s : State) (d floor : Nat) (pin : Bool) (idleUs : Nat) : State :=
  ((s.wr F.PWR_DOM_floor floor d).wr F.PWR_DOM_pinned (b2n pin) d).wr F.PWR_DOM_idle_us idleUs d

/-- The three fields of a domain, memory, and what a pin asks for. -/
def State.DomSet (s t : State) (d floor : Nat) (pin : Bool) (idleUs : Nat) : Prop :=
  t.rd F.PWR_DOM_floor d = floor ∧ t.rd F.PWR_DOM_pinned d = b2n pin ∧ t.rd F.PWR_DOM_idle_us d = idleUs ∧ t.mem = s.mem

theorem State.domSet_sets (s : State) {d floor idleUs : Nat} (pin : Bool) (hf : floor < 8) (hi : idleUs ≤ 1000000) :
    s.DomSet (s.domSet d floor pin idleUs) d floor pin idleUs := by
  unfold State.domSet
  refine ⟨?_, ?_, ?_, rfl⟩
  · simp (disch := decide) only [State.rd_wr_bits, State.rd_wr_self]
    exact Nat.mod_eq_of_lt hf
  · simp (disch := decide) only [State.rd_wr_bits, State.rd_wr_self]
    cases pin <;> rfl
  · rw [State.rd_wr_self _ _ _ _ (by decide)]
    exact Nat.mod_eq_of_lt (Nat.lt_of_le_of_lt hi (by decide))

/-- What neither writes memory nor those three fields keeps them set. -/
theorem State.DomSet.keep {s t u : State} {d floor idleUs : Nat} {pin : Bool} (h : s.DomSet t d floor pin idleUs) (mem : u.mem = t.mem)
    (k : ∀ f ∈ [F.PWR_DOM_floor, F.PWR_DOM_pinned, F.PWR_DOM_idle_us], u.rd f d = t.rd f d) : s.DomSet u d floor pin idleUs := by
  obtain ⟨hf, hp, hi, hm⟩ := h
  exact ⟨(k _ (by simp)).trans hf, (k _ (by simp)).trans hp, (k _ (by simp)).trans hi, mem.trans hm⟩

/-- The count of a kindle leaves the fields written by the manager. -/
theorem State.DomSet.counted {s t : State} {d floor idleUs : Nat} {pin : Bool} (h : s.DomSet t d floor pin idleUs) :
    s.DomSet (t.kindleCounted d) d floor pin idleUs := by
  refine h.keep (t.kindleCounted_mem d) fun f hf => ?_
  fin_cases hf <;> exact t.kindleCounted_dom d _ d rfl (by decide)

/-- An accepted write sets the three fields, and a pin makes a domain climb that is neither LIT nor privileged. -/
theorem State.domWrite_writes (s : State) {d floor idleUs : Nat} (pin : Bool) (hd : d < 96) (hf : floor ≤ deepestFloor d) (hi : idleUs ≤ 1000000) :
    s.DomSet (s.domWrite d floor pin idleUs) d floor pin idleUs ∧
    (pin = true → privileged d = false → s.rd F.PWR_DOM_state d ≠ 0 → (s.domWrite d floor pin idleUs).pwr.climbing.contains d = true) := by
  have set := s.domSet_sets (d := d) pin (Nat.lt_of_le_of_lt (hf.trans (deepestFloor_le d hd)) (by decide)) hi
  have same : (s.domSet d floor pin idleUs).rd F.PWR_DOM_state d = s.rd F.PWR_DOM_state d := by
    unfold State.domSet
    simp (disch := decide) only [State.rd_wr_bits]
  have eq : s.domWrite d floor pin idleUs = if privileged d ∨ s.rd F.PWR_DOM_state d = 0 then s.domSet d floor pin idleUs
      else if pin then (s.domSet d floor pin idleUs).kindle d
      else if floor < s.rd F.PWR_DOM_state d then ((s.domSet d floor pin idleUs).kindleCounted d).setDom d floor else s.domSet d floor pin idleUs := by
    rw [← same, State.domWrite, if_neg (by omega)]
    rfl
  rw [eq]
  split_ifs with quiet pinned climbs
  · exact ⟨set, fun _ np dark => absurd quiet (by simp [np, dark])⟩
  · obtain ⟨l, hl, e⟩ := (s.domSet d floor pin idleUs).kindle_eq d
    rw [e]
    exact ⟨set.counted, fun _ _ _ => hl⟩
  · refine ⟨set.counted.keep rfl fun f hf => ?_, fun p => absurd p pinned⟩
    fin_cases hf <;> exact State.setDom_apart _ d _ _ d rfl (by decide)
  · exact ⟨set, fun p => absurd p pinned⟩

/-! ### The rows -/

section
variable {s : State} {d : Nat} (hrun : s.power = .run) (hd : d < 96)
include hrun hd

/-- A request at a domain that is not LIT and not privileged is held, and the domain climbs. -/
theorem kindle_climbs (dark : s.rd F.PWR_DOM_state d ≠ 0) (np : privileged d = false) : Completes (.kindle d) s fun t =>
    t.pwr.climbing.contains d = true ∧ t.pwr.held = Tbl.set s.pwr.held d (s.heldAt d + 1) ∧
    t.rd F.PWR_KINDLE = (s.rd F.PWR_KINDLE + 1) % 2 ^ F.PWR_KINDLE.width ∧ t.rd F.PWR_DOM_state d = s.rd F.PWR_DOM_state d ∧ t.mem = s.mem := by
  refine completes_actOn hrun rfl (decide_eq_true hd) ?_
  obtain ⟨l, hl, e⟩ := s.kindle_eq d
  rw [State.requestHeld_holds (fun h => dark h.1), State.requestAt, if_neg dark, np, if_neg (by decide), e]
  exact ⟨hl, rfl, s.kindleCounted_count d, s.kindleCounted_dom d _ d rfl (by decide), s.kindleCounted_mem d⟩

/-- At a privileged one it is held, and counted as such. -/
theorem kindle_privileged (dark : s.rd F.PWR_DOM_state d ≠ 0) (p : privileged d = true) : Completes (.kindle d) s fun t =>
    t.pwr = { s.pwr with held := Tbl.set s.pwr.held d (s.heldAt d + 1) } ∧
    t.rd F.PWR_HELD_PRIV = (s.rd F.PWR_HELD_PRIV + 1) % 2 ^ F.PWR_HELD_PRIV.width ∧ t.rd F.PWR_DOM_state d = s.rd F.PWR_DOM_state d ∧ t.mem = s.mem := by
  refine completes_actOn hrun rfl (decide_eq_true hd) ?_
  rw [State.requestHeld_holds (fun h => dark h.1), State.requestAt, if_neg dark, if_pos p]
  exact ⟨rfl, State.rd_bump_self _ F.PWR_HELD_PRIV _ _ (by decide), State.rd_bump_ne _ F.PWR_DOM_state _ _ _ _ (.inl (by decide)), rfl⟩

end

/-- Settles O45: each row by the state of the domain it names. -/
theorem powerDomains : Obligations.PowerDomains := by
  intro s d hrun hd
  have here := decide_eq_true hd
  refine ⟨fun d0 unpinned still free idle => completes_actOn hrun rfl here ?steps, fun lit serves => completes_actOn hrun rfl here ?passes,
    fun lit fenced => completes_actOn hrun rfl here ?fenced, kindle_climbs hrun hd, kindle_privileged hrun hd,
    fun climbs => completes_actOn hrun rfl here (s.domainLit_lights climbs), fun still => completes_actOn hrun rfl here ?unlit,
    fun stays => completes_actOn hrun rfl here ?stays,
    fun p => ⟨completes_actOn hrun rfl p (s.privWake_wakes d), completes_actOn hrun rfl p ⟨by simp, rfl, rfl⟩⟩,
    fun floor idleUs pin => ⟨fun hm bad => heldRow_completesOn hrun here hm rfl ?refused, fun hm hf hi => heldRow_completesOn hrun here hm rfl ?written⟩⟩
  case steps =>
    refine State.stepDown_steps (State.heldAt_of_idle idle) ?_
    rw [unpinned, still, idle]
    simpa [d0] using free
  case passes => rw [State.requestHeld_passes lit serves]; exact ⟨rfl, rfl, rfl⟩
  case fenced =>
    rw [State.requestHeld_holds (by simp [fenced]), State.requestAt, if_pos lit]
    exact ⟨rfl, rfl, rfl⟩
  case unlit => rw [State.domainLit, if_pos (by rw [still]; rfl)]; rfl
  case stays =>
    rw [State.stepDown_stays]
    · rfl
    · obtain h | h | h | h := stays
      exacts [.inl h, .inr (.inl h), .inr (.inr (.inl h)), .inr (.inr (.inr (.inr h)))]
  case refused =>
    rw [State.domWrite_refuses pin bad]
    have same := fun (f : Fld) (h : f.reg.isLog = false) =>
      (State.rd_refuseWrite s.touchSession .PWR (0x1000 + 8 * d) 0 f d h).trans (s.touchSession_rd f d)
    exact ⟨same _ rfl, same _ rfl, same _ rfl, by simp [State.refuseWrite], by simp [State.refuseWrite]⟩
  case written =>
    obtain ⟨⟨floor', pinned, idle, mem⟩, climbs⟩ := s.touchSession.domWrite_writes pin hd hf hi
    rw [State.touchSession_rd] at climbs
    exact ⟨floor', pinned, idle, mem.trans s.touchSession_mem, climbs⟩

end Sys2Proof.Machine
end

section
/-! PROOFS. The commands of the trust controller (R405, R406, R408, R412, R416): what the end of one shows, and what each of them leaves. -/

namespace Sys2Proof.Machine

/-! ### The end of a command (R416) -/

/-- TRU_STATUS as a command that ends leaves it. -/
def State.truEnded (s : State) (reason : Nat) : State :=
  (((s.wr F.TRU_STATUS_busy 0).wr F.TRU_STATUS_done (b2n (reason == 0))).wr F.TRU_STATUS_refused (b2n (reason != 0))).wr F.TRU_STATUS_reason reason

theorem State.truResult_log (s : State) (op reason sub : Nat) : LogOnly (s.truEnded reason) (s.truResult op reason sub) := by
  unfold State.truResult
  dsimp only
  split
  next h => subst h; exact State.logDone_only ..
  next => exact State.logRefused_only ..

/-- What TRU_STATUS shows once a command has ended, for its reason. -/
structure TruEnded (reason : Nat) (s t : State) : Prop where
  busy : t.rd F.TRU_STATUS_busy = 0
  done : t.rd F.TRU_STATUS_done = b2n (reason == 0)
  refused : t.rd F.TRU_STATUS_refused = b2n (reason != 0)
  reason : t.rd F.TRU_STATUS_reason = reason
  mem : t.mem = s.mem
  tru : t.tru = s.tru
  rd : ∀ f i, f.reg.isLog = false → f.reg ≠ .TRU_STATUS → t.rd f i = s.rd f i

theorem b2n_mod_two (b : Bool) : b2n b % 2 = b2n b := by cases b <;> rfl

theorem State.truResult_ends (s : State) (op sub : Nat) {reason : Nat} (h : reason < 16) : TruEnded reason s (s.truResult op reason sub) := by
  have log := s.truResult_log op reason sub
  refine ⟨(log.rd _ _ rfl).trans ?_, (log.rd _ _ rfl).trans ?_, (log.rd _ _ rfl).trans ?_, (log.rd _ _ rfl).trans ?_, log.mem, log.tru,
    fun f i hl hr => (s.truResult_only op reason sub).rd f i hl hr⟩
  all_goals simp (disch := decide) only [State.truEnded, State.rd_wr_bits, State.rd_wr_self]
  · rfl
  · exact b2n_mod_two _
  · exact b2n_mod_two _
  · exact Nat.mod_eq_of_lt (Nat.lt_of_lt_of_le h (by decide))

/-- A command while none runs takes effect. -/
theorem State.truGate_passes {s : State} (idle : s.rd F.TRU_STATUS_busy = 0) (op : Nat) (f : State → State) : s.truGate op f = f s :=
  if_neg (by rw [idle]; decide)

/-! ### The commands -/

/-- The report stands, and no attestation runs. -/
def State.reported (s : State) (report : List Byte) : State := { s with tru := { s.tru with attesting := none, report := report } }

theorem State.attestDone_reports {s : State} {n : List Byte} (signs : s.tru.attesting = some n) (valid : s.rd F.LRD_CELLAR_state = 0) :
    s.attestDone.tru.attesting = none ∧ s.attestDone.tru.report = s.reportBody n ++ padTo 64 ((Config.ecdsaSign (s.reportBody n)).take 64) ∧
    s.attestDone.rd F.TRU_STATUS_done = 1 ∧ s.attestDone.rd F.TRU_STATUS_busy = 0 ∧ s.attestDone.mem = s.mem := by
  have eq : s.attestDone = (s.reported (s.reportBody n ++ padTo 64 ((Config.ecdsaSign (s.reportBody n)).take 64))).truResult truAttest 0 0 := by
    simp [State.attestDone, State.reported, signs, valid]
  generalize s.reportBody n ++ padTo 64 ((Config.ecdsaSign (s.reportBody n)).take 64) = report at eq ⊢
  have ends := (s.reported report).truResult_ends truAttest 0 (reason := 0) (by decide)
  rw [eq]
  exact ⟨congrArg TruSt.attesting ends.tru, congrArg TruSt.report ends.tru, ends.done, ends.busy, ends.mem⟩

/-- ATTEST takes the nonce as it stands. -/
theorem State.attest_takes {s : State} (idle : s.rd F.TRU_STATUS_busy = 0) (valid : s.rd F.LRD_CELLAR_state ≠ 2) :
    s.attest.tru.attesting = some ((List.range 32).map fun k => Tbl.getD s.tru.nonce k 0) ∧ s.attest.rd F.TRU_STATUS_busy = 1 ∧
    s.attest.rd F.TRU_STATUS_done = 0 ∧ s.attest.rd F.TRU_STATUS_refused = 0 ∧ s.attest.mem = s.mem := by
  have eq : s.attest = ((State.wr { s with tru := { s.tru with attesting := some ((List.range 32).map fun k => Tbl.getD s.tru.nonce k 0) } }
      F.TRU_STATUS_busy 1).wr F.TRU_STATUS_done 0).wr F.TRU_STATUS_refused 0 := by
    rw [State.attest, State.truGate_passes idle]
    exact if_neg valid
  rw [eq]
  refine ⟨rfl, ?_, ?_, ?_, rfl⟩
  all_goals simp (disch := decide) only [State.rd_wr_bits, State.rd_wr_self]
  all_goals rfl

theorem State.attest_refuses {s : State} (idle : s.rd F.TRU_STATUS_busy = 0) (failed : s.rd F.LRD_CELLAR_state = 2) :
    s.attest = s.truResult truAttest 6 0 := by
  rw [State.attest, State.truGate_passes idle]
  exact if_pos failed

section
variable {s : State} {key : Nat} (idle : s.rd F.TRU_STATUS_busy = 0) (hk : key < 8)
  (lc : s.rd F.TRU_LC_state = lcProvisioned ∨ s.rd F.TRU_LC_state = lcDeployed)
include idle hk lc

/-- REVOKE in the states that take it, by what the keys left are. -/
theorem State.revoke_eq (ok : Bool) : s.revoke key ok =
    if setBit (s.rd F.TRU_BOOT_revoked) key % 8 = 7 ∨ setBit (s.rd F.TRU_BOOT_revoked) key / 16 % 8 = 7 then s.truResult truRevoke 5 key
    else if !ok then s.truResult truRevoke 7 key
    else (s.wr F.TRU_BOOT_revoked (setBit (s.rd F.TRU_BOOT_revoked) key)).truResult truRevoke 0 key := by
  rw [State.revoke, State.truGate_passes idle]
  dsimp only
  rw [if_neg (by tauto), Nat.mod_eq_of_lt hk]

theorem State.revoke_revokes (left : setBit (s.rd F.TRU_BOOT_revoked) key % 8 ≠ 7 ∧ setBit (s.rd F.TRU_BOOT_revoked) key / 16 % 8 ≠ 7) :
    (s.revoke key true).rd F.TRU_BOOT_revoked = setBit (s.rd F.TRU_BOOT_revoked) key % 2 ^ F.TRU_BOOT_revoked.width ∧
    (s.revoke key true).rd F.TRU_STATUS_done = 1 ∧ (s.revoke key true).mem = s.mem := by
  rw [State.revoke_eq idle hk lc, if_neg (by tauto), if_neg (by decide)]
  have ends := State.truResult_ends (s.wr F.TRU_BOOT_revoked (setBit (s.rd F.TRU_BOOT_revoked) key)) truRevoke key (reason := 0) (by decide)
  exact ⟨(ends.rd _ _ rfl (by decide)).trans (State.rd_wr_self _ F.TRU_BOOT_revoked _ _ (by decide)), ends.done, ends.mem⟩

theorem State.revoke_refuses (none_ : ¬(setBit (s.rd F.TRU_BOOT_revoked) key % 8 ≠ 7 ∧ setBit (s.rd F.TRU_BOOT_revoked) key / 16 % 8 ≠ 7)) (ok : Bool) :
    s.revoke key ok = s.truResult truRevoke 5 key := by
  rw [State.revoke_eq idle hk lc, if_pos (by tauto)]

end

theorem State.raiseFwFloor_raises {s : State} (idle : s.rd F.TRU_STATUS_busy = 0) (below : s.rd F.TRU_BOOT_fw_floor < 255) :
    (s.raiseFwFloor true).rd F.TRU_BOOT_fw_floor = max (s.rd F.TRU_BOOT_fw_floor) (s.rd F.TRU_BOOT_fw_rollback) % 2 ^ F.TRU_BOOT_fw_floor.width ∧
    (s.raiseFwFloor true).rd F.TRU_STATUS_done = 1 ∧ (s.raiseFwFloor true).mem = s.mem := by
  have eq : s.raiseFwFloor true =
      (s.wr F.TRU_BOOT_fw_floor (max (s.rd F.TRU_BOOT_fw_floor) (s.rd F.TRU_BOOT_fw_rollback))).truResult truFloor 0 0 := by
    rw [State.raiseFwFloor, State.truGate_passes idle]
    exact (if_neg below.ne).trans (if_neg (by decide))
  rw [eq]
  have ends := State.truResult_ends (s.wr F.TRU_BOOT_fw_floor (max (s.rd F.TRU_BOOT_fw_floor) (s.rd F.TRU_BOOT_fw_rollback))) truFloor 0 (reason := 0)
    (by decide)
  exact ⟨(ends.rd _ _ rfl (by decide)).trans (State.rd_wr_self _ F.TRU_BOOT_fw_floor _ _ (by decide)), ends.done, ends.mem⟩

theorem State.raiseFwFloor_refuses {s : State} (idle : s.rd F.TRU_STATUS_busy = 0) (top : s.rd F.TRU_BOOT_fw_floor = 255) (ok : Bool) :
    s.raiseFwFloor ok = s.truResult truFloor 3 0 := by
  rw [State.raiseFwFloor, State.truGate_passes idle]
  exact if_pos top

theorem State.burnPolarity_burns {s : State} (idle : s.rd F.TRU_STATUS_busy = 0) (lc : s.rd F.TRU_LC_state ≤ 1) (unburnt : s.tru.fusedPolarity = none) :
    s.burnPolarity true = State.truResult { s with tru := { s.tru with fusedPolarity := some (s.rd F.TRU_TAMPER_CFG_polarity) } } truPolarity 0 0 := by
  rw [State.burnPolarity, State.truGate_passes idle]
  exact (if_neg (by simp [unburnt]; omega)).trans (if_neg (by decide))

theorem State.burnPolarity_refuses {s : State} (idle : s.rd F.TRU_STATUS_busy = 0) (burnt : s.tru.fusedPolarity.isSome = true) (ok : Bool) :
    s.burnPolarity ok = s.truResult truPolarity 3 0 := by
  rw [State.burnPolarity, State.truGate_passes idle]
  exact if_pos (.inr burnt)

/-! ### The rows -/

/-- Settles O41: each command ends by its reason. -/
theorem trustCommands : Obligations.TrustCommands := by
  intro s hrun
  refine ⟨completes_act hrun rfl rfl, fun n signs valid => completes_act hrun rfl (State.attestDone_reports signs valid), fun hm busy => ?_⟩
  have idle : s.touchSession.rd F.TRU_STATUS_busy = 0 := by rwa [State.touchSession_rd]
  have mem := s.touchSession_mem
  have tru := s.touchSession_tru
  have row {c : Instr} {f : State → State} {P : State → Prop} (e : exec c s = act s (asManager true f))
      (p : P ((f s.touchSession).requeue s.pending)) : Completes c s P := heldRow_completes hrun hm e p
  refine ⟨fun valid => row rfl ?attest, fun failed => row rfl ?attestRefused, fun key hk lc => ⟨fun left => heldRow_completesOn hrun (decide_eq_true hk) hm rfl ?revoke,
      fun none_ ok => heldRow_completesOn hrun (decide_eq_true hk) hm rfl ?revokeRefused⟩,
    fun below => row rfl ?floor, fun top ok => row rfl ?floorRefused, fun lc unburnt => row rfl ?burn, fun burnt ok => row rfl ?burnRefused⟩
  case attest =>
    obtain ⟨nonce, shown, done, refused, same⟩ := State.attest_takes idle (by rwa [State.touchSession_rd])
    rw [tru] at nonce
    exact ⟨nonce, shown, done, refused, same.trans mem⟩
  case attestRefused =>
    rw [State.attest_refuses idle (by rwa [State.touchSession_rd])]
    have ends := s.touchSession.truResult_ends truAttest 0 (reason := 6) (by decide)
    exact ⟨ends.tru.trans tru, ends.refused, ends.reason, ends.mem.trans mem⟩
  case revoke =>
    obtain ⟨revoked, done, same⟩ := State.revoke_revokes idle hk (by rwa [State.touchSession_rd]) (by rwa [State.touchSession_rd])
    rw [State.touchSession_rd] at revoked
    exact ⟨revoked, done, same.trans mem⟩
  case revokeRefused =>
    rw [State.revoke_refuses idle hk (by rwa [State.touchSession_rd]) (by rwa [State.touchSession_rd])]
    have ends := s.touchSession.truResult_ends truRevoke key (reason := 5) (by decide)
    exact ⟨(ends.rd _ _ rfl (by decide)).trans (State.touchSession_rd ..), ends.refused, ends.reason, ends.mem.trans mem⟩
  case floor =>
    obtain ⟨raised, done, same⟩ := State.raiseFwFloor_raises idle (by rwa [State.touchSession_rd])
    rw [State.touchSession_rd, State.touchSession_rd] at raised
    exact ⟨raised, done, same.trans mem⟩
  case floorRefused =>
    rw [State.raiseFwFloor_refuses idle (by rwa [State.touchSession_rd])]
    have ends := s.touchSession.truResult_ends truFloor 0 (reason := 3) (by decide)
    exact ⟨(ends.rd _ _ rfl (by decide)).trans ((State.touchSession_rd ..).trans top), ends.refused, ends.reason, ends.mem.trans mem⟩
  case burn =>
    rw [State.burnPolarity_burns idle (by rwa [State.touchSession_rd]) (by rwa [tru]), State.touchSession_rd]
    have ends := State.truResult_ends { s.touchSession with tru := { s.touchSession.tru with fusedPolarity := some (s.rd F.TRU_TAMPER_CFG_polarity) } }
      truPolarity 0 (reason := 0) (by decide)
    exact ⟨congrArg TruSt.fusedPolarity ends.tru, ends.done, ends.mem.trans mem⟩
  case burnRefused =>
    rw [State.burnPolarity_refuses idle (by rwa [tru])]
    have ends := s.touchSession.truResult_ends truPolarity 0 (reason := 3) (by decide)
    exact ⟨ends.tru.trans tru, ends.refused, ends.reason, ends.mem.trans mem⟩

end Sys2Proof.Machine
end

section
/-! PROOFS. Resets and crash dumps (R462-R466, R469): what the end of a command of RST_CMD shows, and what each row leaves. -/

namespace Sys2Proof.Machine

/-! ### The end of a command (R469) -/

/-- What RST_STATUS shows once a command has ended, for its reason. -/
structure RstEnded (reason : Nat) (s t : State) : Prop where
  done : t.rd F.RST_STATUS_done = b2n (reason == 0)
  refused : t.rd F.RST_STATUS_refused = b2n (reason != 0)
  reason : t.rd F.RST_STATUS_reason = reason
  retired : t.rd F.RST_STATUS_retired = s.rd F.RST_STATUS_retired
  mem : t.mem = s.mem
  rst : t.rst = s.rst
  rd : ∀ f i, f.reg.isLog = false → f.reg ≠ .RST_STATUS → t.rd f i = s.rd f i

/-- RST_STATUS as a command that ends leaves it. -/
def State.rstEnded (s : State) (reason : Nat) : State :=
  ((s.wr F.RST_STATUS_done (b2n (reason == 0))).wr F.RST_STATUS_refused (b2n (reason != 0))).wr F.RST_STATUS_reason reason

theorem State.rstResult_log (s : State) (op reason : Nat) : LogOnly (s.rstEnded reason) (s.rstResult op reason) := by
  unfold State.rstResult
  dsimp only
  split
  next h => subst h; exact State.logDone_only ..
  next => exact State.logRefused_only ..

theorem State.rstResult_ends (s : State) (op : Nat) {reason : Nat} (h : reason < 8) : RstEnded reason s (s.rstResult op reason) := by
  have log := s.rstResult_log op reason
  refine ⟨(log.rd _ _ rfl).trans ?_, (log.rd _ _ rfl).trans ?_, (log.rd _ _ rfl).trans ?_, (log.rd _ _ rfl).trans ?_, log.mem, log.rst,
    fun f i hl hr => (log.rd f i hl).trans ?_⟩
  · simp (disch := decide) only [State.rstEnded, State.rd_wr_bits, State.rd_wr_self]
    exact b2n_mod_two _
  · simp (disch := decide) only [State.rstEnded, State.rd_wr_bits, State.rd_wr_self]
    exact b2n_mod_two _
  · rw [State.rstEnded, State.rd_wr_self _ _ _ _ (by decide)]
    exact Nat.mod_eq_of_lt (Nat.lt_of_lt_of_le h (by decide))
  · simp (disch := decide) only [State.rstEnded, State.rd_wr_bits]
  · rw [State.rstEnded, State.rd_wr_reg _ _ _ _ _ _ hr, State.rd_wr_reg _ _ _ _ _ _ hr, State.rd_wr_reg _ _ _ _ _ _ hr]

theorem State.rstGate_passes {s : State} (idle : s.rd F.RST_STATUS_busy = 0) (op : Nat) (f : State → State) : s.rstGate op f = f s :=
  if_neg (by rw [idle]; decide)

/-! ### A dump (R466) -/

/-- A dump is put where the area lies, and is valid. -/
theorem State.putDump_puts (s : State) (r : DumpRun) : (s.putDump r).rst.dump = some r ∧ (s.putDump r).rd F.RST_DUMP_STATUS_valid = 1 ∧
    ∀ f i, f.reg ≠ .RST_DUMP_STATUS → (s.putDump r).rd f i = s.rd f i := by
  unfold State.putDump
  dsimp only
  exact ⟨rfl, State.rd_wr_self _ F.RST_DUMP_STATUS_valid _ _ (by decide), fun f i h => State.rd_wr_reg _ _ _ _ _ _ h⟩

/-- A dump that is taken has its trigger and a record of each unit. -/
theorem State.takeDump_takes {s : State} (free : s.rd F.RST_DUMP_STATUS_held = 0) (trigger cause : Nat) (units : List (Nat × Nat)) :
    ∃ r : DumpRun, (s.takeDump trigger cause units).rst.dump = some r ∧ r.trigger = trigger ∧ r.units.length = units.length ∧
      (s.takeDump trigger cause units).rd F.RST_DUMP_STATUS_valid = 1 := by
  unfold State.takeDump
  rw [if_neg (by rw [free]; decide)]
  dsimp only
  obtain ⟨dump, valid, -⟩ := State.putDump_puts
    { s with fresh := s.fresh + 1, log := { s.log with nextSummary := (s.log.nextSummary + 1) % 1024 } }
    ⟨trigger, cause, s.rd F.RST_LAST_boot_count, s.ticks, s.now, units.map (fun q => s.dumpOne s.fresh (dumpDomain q.1 q.2) q.1 q.2), s.log.nextSummary⟩
  exact ⟨_, (congrArg RstSt.dump (State.rst_logEv ..)).trans dump, rfl, List.length_map .., (State.rd_logEv _ _ _ _ _ _ _ _ _ rfl).trans valid⟩

/-- The unit that has not answered is marked, and counted. -/
theorem State.dumpTimeout_marks {s : State} {r : DumpRun} {u : DumpUnit} {kind index : Nat} (runs : s.rst.dump = some r) (inTime : s.now ≤ r.since + 60 * ms)
    (waits : (r.units.find? fun v => v.kind == kind && v.index == index && v.status == 0) = some u) :
    s.dumpTimeout kind index =
      (s.putDump { r with units := r.units.map fun v => if v = u then { v with status := 1, data := [] } else v }).bump F.RST_DUMP_NORESP := by
  simp [State.dumpTimeout, runs, waits, Nat.not_lt.2 inTime]

/-! ### A RETIRED device (R464) -/

/-- A device that is not RETIRED, its history empty. -/
def State.unretired (s : State) : State :=
  (List.range 4).foldl (fun (s : State) n => s.wr F.RST_HIST_tick 0 n) (s.wr F.RST_STATUS_retired 0)

theorem State.unretired_eq (s : State) : s.unretired = ((((s.wr F.RST_STATUS_retired 0).wr F.RST_HIST_tick 0 0).wr F.RST_HIST_tick 0 1).wr
    F.RST_HIST_tick 0 2).wr F.RST_HIST_tick 0 3 := rfl

theorem State.unretired_clears (s : State) : s.unretired.rd F.RST_STATUS_retired = 0 ∧ (∀ n : Nat, n < 4 → s.unretired.rd F.RST_HIST_tick n = 0) ∧
    s.unretired.mem = s.mem := by
  rw [State.unretired_eq]
  refine ⟨?_, fun n hn => ?_, rfl⟩
  · simp (disch := decide) only [State.rd_wr_reg, State.rd_wr_self, Nat.zero_mod]
  · interval_cases n
    all_goals simp (disch := decide) only [State.rd_wr_index, State.rd_wr_self, Nat.zero_mod]

theorem State.clearRetired_eq {s : State} (idle : s.rd F.RST_STATUS_busy = 0) : s.clearRetired =
    if s.rd F.RST_STATUS_retired = 0 then s.rstResult 4 3 else (s.unretired.chipReset 1).rstResult 4 0 := by
  rw [State.clearRetired, State.rstGate_passes idle]
  rfl

/-! ### The boot watchdog (R463) -/

/-- The slot whose firmware runs is marked. -/
def State.slotSkipped (s : State) : State := match s.mgt.fwRun with
  | some k => s.wr (if k = 0 then F.MGT_BOOT_skip_a else F.MGT_BOOT_skip_b) 1
  | none => s

theorem State.slotSkipped_marks (s : State) : s.slotSkipped.mem = s.mem ∧ s.slotSkipped.ticks = s.ticks ∧
    (∀ i, s.slotSkipped.rd F.RST_HIST_tick i = s.rd F.RST_HIST_tick i) ∧
    (s.mgt.fwRun = some 0 → s.slotSkipped.rd F.MGT_BOOT_skip_a = 1) ∧ (s.mgt.fwRun = some 1 → s.slotSkipped.rd F.MGT_BOOT_skip_b = 1) := by
  unfold State.slotSkipped
  cases s.mgt.fwRun with
  | none => exact ⟨rfl, rfl, fun _ => rfl, by simp, by simp⟩
  | some k =>
    refine ⟨rfl, rfl, fun i => State.rd_wr_reg _ _ _ _ _ _ (by split_ifs <;> decide), fun h => ?_, fun h => ?_⟩
    · cases h
      exact State.rd_wr_self _ F.MGT_BOOT_skip_a _ _ (by decide)
    · cases h
      exact State.rd_wr_self _ F.MGT_BOOT_skip_b _ _ (by decide)

theorem State.bootExpired_eq {s : State} (boots : s.rst.booting = true) : s.bootExpired =
    if s.slotSkipped.rd F.RST_HIST_tick 2 ≠ 0 ∧ s.slotSkipped.ticks ≤ s.slotSkipped.rd F.RST_HIST_tick 2 + 60 * tickSecond
    then s.slotSkipped.powerCycle 1 else s.slotSkipped.chipReset 6 := by
  rw [State.bootExpired, if_neg (by rw [boots]; decide)]
  rfl

/-! ### The rows -/

/-- While a command runs, each of them is refused with reason 1. -/
theorem rstCommand_refused {s : State} {c : Instr} {r : Bool} {op : Nat} {f : State → State} (hrun : s.power = .run) (hm : s.manages r = true)
    (busy : s.rd F.RST_STATUS_busy = 1) (e : exec c s = act s (asManager r fun s => s.rstGate op f)) : Completes c s fun t =>
    t.rd F.RST_STATUS_refused = 1 ∧ t.rd F.RST_STATUS_reason = 1 ∧ t.rd F.RST_STATUS_retired = s.rd F.RST_STATUS_retired ∧ t.rst = s.rst ∧ t.mem = s.mem := by
  refine heldRow_completes hrun hm e ?_
  rw [State.rstGate, if_pos (by rwa [State.touchSession_rd])]
  have ends := s.touchSession.rstResult_ends op (reason := 1) (by decide)
  exact ⟨ends.refused, ends.reason, ends.retired.trans (s.touchSession_rd _ _), ends.rst.trans s.touchSession_rst, ends.mem.trans s.touchSession_mem⟩

/-- Settles O48: each command by RST_STATUS's reason, a dump by what is put into the area. -/
theorem resetsAndDumps : Obligations.ResetsAndDumps := by
  intro s hrun
  have busy_rd := s.touchSession_rd F.RST_STATUS_busy 0
  refine ⟨fun busy q hq hm => ?refused, fun hm idle => heldRow_completes hrun hm rfl ?chip, fun hm idle => ?commands,
    fun r u kind index hu runs inTime waits => completes_actOn hrun rfl hu ?timeout, completes_act (f := fun s => { s with rst := { s.rst with booting := false } }) hrun rfl ⟨rfl, rfl, rfl⟩,
    fun kind index hu => completes_actOn hrun rfl hu rfl, fun ready => completes_act hrun rfl ?stopped, fun boots => completes_act hrun rfl ?expires⟩
  case refused =>
    simp only [List.mem_cons, List.not_mem_nil, or_false] at hq
    obtain rfl | rfl | rfl | rfl := hq
    · exact rstCommand_refused hrun hm busy rfl
    · exact rstCommand_refused hrun hm busy rfl
    · exact rstCommand_refused hrun hm busy rfl
    · exact rstCommand_refused hrun hm busy rfl
  case chip =>
    rw [State.chipResetCmd, State.rstGate_passes (busy_rd.trans idle)]
    exact ⟨rfl, (State.rstResult_ends _ 2 (reason := 0) (by decide)).done⟩
  case commands =>
    have idle' := busy_rd.trans idle
    refine ⟨heldRow_completes hrun hm rfl ?cycle, fun live => heldRow_completes hrun hm rfl ?live, fun retired => heldRow_completes hrun hm rfl ?clear,
      fun held => heldRow_completes hrun hm rfl ?held, fun free => heldRow_completes hrun hm rfl ?dump⟩
    case cycle =>
      rw [State.powerCycleCmd, State.rstGate_passes idle']
      exact ⟨rfl, (State.rstResult_ends _ 3 (reason := 0) (by decide)).done⟩
    case live =>
      rw [State.clearRetired_eq idle', if_pos (by rwa [State.touchSession_rd])]
      have ends := s.touchSession.rstResult_ends 4 (reason := 3) (by decide)
      exact ⟨ends.refused, ends.reason, ends.rst.trans s.touchSession_rst, ends.mem.trans s.touchSession_mem⟩
    case clear =>
      rw [State.clearRetired_eq idle', if_neg (by rwa [State.touchSession_rd])]
      obtain ⟨retired', hist, mem⟩ := s.touchSession.unretired_clears
      exact ⟨(State.rstResult_ends _ 4 (reason := 0) (by decide)).done, _, rfl, retired', hist, mem.trans s.touchSession_mem⟩
    case held =>
      rw [State.dumpCmd, State.rstGate_passes idle', if_pos (by rwa [State.touchSession_rd])]
      have ends := s.touchSession.rstResult_ends 5 (reason := 4) (by decide)
      exact ⟨ends.refused, ends.reason, ends.rst.trans s.touchSession_rst, ends.mem.trans s.touchSession_mem⟩
    case dump =>
      have free' := (s.touchSession_rd F.RST_DUMP_STATUS_held 0).trans free
      rw [State.dumpCmd, State.rstGate_passes idle', if_neg (by rw [free']; decide)]
      obtain ⟨r, dump, trigger, units, valid⟩ := State.takeDump_takes free' 2 0 allDumpUnits
      have ends := State.rstResult_ends (s.touchSession.takeDump 2 0 allDumpUnits) 5 (reason := 0) (by decide)
      refine ⟨(ends.rd _ _ rfl (by decide)).trans valid, ends.done, ?_⟩
      rw [State.rst_requeue, ends.rst, dump]
      simp [trigger, units]
  case timeout =>
    rw [State.dumpTimeout_marks runs inTime waits]
    obtain ⟨dump, -, rest⟩ := s.putDump_puts { r with units := r.units.map fun v => if v = u then { v with status := 1, data := [] } else v }
    refine ⟨dump, ?_⟩
    rw [State.rd_requeue, State.rd_bump_self _ _ _ _ (by decide), rest _ _ (by decide)]
  case stopped =>
    rw [State.bootExpired, if_pos (by rw [ready]; rfl)]
    exact ⟨rfl, rfl⟩
  case expires =>
    obtain ⟨mem, ticks, hist, skipA, skipB⟩ := s.slotSkipped_marks
    rw [State.bootExpired_eq boots, hist, ticks]
    exact ⟨s.slotSkipped, mem, skipA, skipB, rfl⟩

end Sys2Proof.Machine
end

section
/-! PROOFS. A thermal trip (R531, R533): a wipe of the cellar that runs completes first, and with it the cellar's bytes are gone. -/

namespace Sys2Proof.Machine

theorem State.cellarWiped_clears {s : State} (wipes : s.tier.wipe.isSome = true) :
    (s.cellarWiped true).mem = Memory.clear s.mem (larderBase + cellarOff) cellarBytes ∧ (s.cellarWiped true).cph = s.cph := by
  unfold State.cellarWiped
  rw [if_neg (by rw [Option.isNone_iff_eq_none]; exact Option.isSome_iff_ne_none.1 wipes)]
  dsimp only
  rw [State.mem_logEv, State.cph_logEv]
  exact ⟨rfl, rfl⟩

/-- A trip while the cellar is wiped, with no key wipe: memory as before but for the cellar. -/
theorem State.thermalTrip_clears {s : State} (wipes : s.tier.wipe.isSome = true) (keys : s.cph.wipes = []) :
    s.thermalTrip.mem = Memory.clear s.mem (larderBase + cellarOff) cellarBytes := by
  obtain ⟨mem, cph⟩ := State.cellarWiped_clears wipes
  unfold State.thermalTrip
  simp only [wipes, if_true, cph, keys, List.length_nil, List.range_zero, List.foldl_nil]
  exact (LogOnly.mem (State.logRec_only ..)).trans mem

/-- A running device in the middle of a wipe of the cellar, one byte of which is not zero yet. -/
def halfWiped : State :=
  { State.reset with power := .run, mem := [(larderBase + cellarOff, 1)], tier := { State.reset.tier with wipe := some 0 } }

theorem halfWiped_trips : halfWiped.thermalTrip.mem = [] := by
  rw [State.thermalTrip_clears rfl rfl]
  decide

/-- Refutes O49: the trip lets a wipe of the cellar complete, so a device with a byte left in the cellar does not keep its memory. -/
theorem not_powerAndRails : ¬ Obligations.PowerAndRails := by
  intro h
  obtain ⟨-, -, -, -, -, -, trips⟩ := h halfWiped
  obtain ⟨t, next, -, -, -, mem⟩ := trips rfl
  obtain rfl : (halfWiped.thermalTrip).requeue halfWiped.pending = t := by
    injection (act_run (rfl : halfWiped.power = .run) State.thermalTrip).symm.trans next
  rw [State.mem_requeue, halfWiped_trips] at mem
  cases mem

end Sys2Proof.Machine
end

section
/-! PROOFS. Attachment (R320-R322, R391): what ATTACH, DETACH, RESUME and DISCARD show, and the reads of the tokens. -/

namespace Sys2Proof.Machine

@[simp] theorem State.inst_setInst_self (s : State) (vf : Nat) (i : Inst) : (s.setInst vf i).inst vf = i := Tbl.getD_set_self _ _ _ _

@[simp] theorem State.inst_wr (s : State) (f : Fld) (v i vf : Nat) : (s.wr f v i).inst vf = s.inst vf := rfl

@[simp] theorem State.inst_requeue (s : State) (q : List Instr) (vf : Nat) : (s.requeue q).inst vf = s.inst vf := rfl

theorem State.inst_attachResult (s : State) (vf reason v : Nat) : (s.attachResult vf reason).inst v = s.inst v := by
  simp only [State.attachResult, State.inst_wr]

theorem LogOnly.inst {s t : State} (h : LogOnly s t) (vf : Nat) : t.inst vf = s.inst vf := by rw [State.inst, h.insts, State.inst]

/-! ### The end of a command (R327) -/

/-- What HPT_ATTACH_STATUS shows for a reason. -/
theorem State.attachResult_shows (s : State) (vf : Nat) {reason : Nat} (h : reason < 8) :
    (s.attachResult vf reason).rd F.HPT_ATTACH_STATUS_done vf = b2n (reason == 0) ∧
    (s.attachResult vf reason).rd F.HPT_ATTACH_STATUS_refused vf = b2n (reason != 0) ∧
    (s.attachResult vf reason).rd F.HPT_ATTACH_STATUS_reason vf = reason := by
  unfold State.attachResult
  refine ⟨?_, ?_, ?_⟩
  · simp (disch := decide) only [State.rd_wr_bits, State.rd_wr_self]
    exact b2n_mod_two _
  · simp (disch := decide) only [State.rd_wr_bits, State.rd_wr_self]
    exact b2n_mod_two _
  · rw [State.rd_wr_self _ _ _ _ (by decide)]
    exact Nat.mod_eq_of_lt (Nat.lt_of_lt_of_le h (by decide))

theorem State.attachResult_rd (s : State) (vf reason : Nat) (f : Fld) (i : Nat) (h : f.reg ≠ .HPT_ATTACH_STATUS) :
    (s.attachResult vf reason).rd f i = s.rd f i :=
  (State.rd_wr_reg _ _ _ _ _ _ h).trans ((State.rd_wr_reg _ _ _ _ _ _ h).trans (State.rd_wr_reg _ _ _ _ _ _ h))

/-! ### ATTACH (R320, R321) -/

section
variable {s : State} {x vf : Nat} (unlocked : (s.inst vf).locked = false) (port : s.portAllowed x vf = true)
include unlocked port

/-- What is attached anew, before the record of its state. -/
def State.attachedBy (s : State) (x vf st : Nat) : State :=
  ((State.setInst s.drawToken.2 vf { s.inst vf with token := s.drawToken.1 }).wr F.HPT_TOKEN_token s.drawToken.1.toNat vf).wr F.HPT_INST_STATE_link x vf
    |>.wr F.HPT_INST_STATE_state st vf

theorem State.attach_accepts (token : s.rd F.HPT_ATTACH_TOKEN_token vf = (s.inst vf).token.toNat)
    (away : s.rd F.HPT_INST_STATE_state vf ≠ attAttached) (left : s.rd F.HPT_INST_STATE_state vf ≠ attPaused) {st : Nat}
    (hst : st = if s.rd F.HPT_INST_STATE_state vf = attNew then attAttached else attPaused) :
    s.attach x vf = ((s.attachedBy x vf st).logEv .HPT .stateChange st vf).attachResult vf 0 := by
  subst hst
  unfold State.attach
  dsimp only
  rw [if_neg (by rw [unlocked]; decide), if_neg (by rw [port]; decide), if_neg (not_not.2 token), if_neg (not_or.2 ⟨away, left⟩)]
  rfl

theorem State.attach_wrongToken (token : s.rd F.HPT_ATTACH_TOKEN_token vf ≠ (s.inst vf).token.toNat) : s.attach x vf = s.refuseAttach x vf 1 := by
  unfold State.attach
  dsimp only
  rw [if_neg (by rw [unlocked]; decide), if_neg (by rw [port]; decide), if_pos token]

end

theorem State.drawToken_ne_zero (s : State) : s.drawToken.1 ≠ 0 := by
  unfold State.drawToken
  dsimp only
  split_ifs with h
  · decide
  · exact h

/-- What an attachment shows in the registers. -/
theorem State.attachedBy_shows (s : State) {x vf st : Nat} (hx : x < 16) (hst : st < 4) :
    (s.attachedBy x vf st).rd F.HPT_INST_STATE_state vf = st ∧ (s.attachedBy x vf st).rd F.HPT_INST_STATE_link vf = x ∧
    (s.attachedBy x vf st).rd F.HPT_TOKEN_token vf = ((s.attachedBy x vf st).inst vf).token.toNat ∧ ((s.attachedBy x vf st).inst vf).token ≠ 0 ∧
    (s.attachedBy x vf st).mem = s.mem := by
  have inst : (s.attachedBy x vf st).inst vf = { s.inst vf with token := s.drawToken.1 } := by
    simp only [State.attachedBy, State.inst_wr, State.inst_setInst_self]
  refine ⟨?_, ?_, ?_, ?_, rfl⟩
  · rw [State.attachedBy, State.rd_wr_self _ _ _ _ (by decide)]
    exact Nat.mod_eq_of_lt hst
  · rw [State.attachedBy, State.rd_wr_bits _ F.HPT_INST_STATE_link F.HPT_INST_STATE_state _ _ _ rfl (by decide) (by decide),
      State.rd_wr_self _ _ _ _ (by decide)]
    exact Nat.mod_eq_of_lt hx
  · rw [inst, State.attachedBy, State.rd_wr_reg _ _ _ _ _ _ (by decide), State.rd_wr_reg _ _ _ _ _ _ (by decide), State.rd_wr_self _ _ _ _ (by decide)]
    exact Nat.mod_eq_of_lt s.drawToken.1.isLt
  · rw [inst]
    exact s.drawToken_ne_zero

/-- A refused ATTACH as it is counted and shown. -/
def State.attachCounted (s : State) (x vf reason : Nat) : State := (s.attachResult vf reason).bump F.HPT_ATTACH_REFUSED 1 x

theorem State.attachCounted_inst (s : State) (x vf reason v : Nat) : (s.attachCounted x vf reason).inst v = s.inst v := by
  rw [State.attachCounted, State.bump, State.inst_wr, State.inst_attachResult]

/-- What a refused ATTACH leaves as it was. -/
theorem State.refuseAttach_keeps (s : State) (x vf reason : Nat) :
    ∃ t : State, LogOnly t (s.refuseAttach x vf reason) ∧ (t.inst vf).token = (s.inst vf).token ∧ t.mem = s.mem ∧
      ∀ f i, t.rd f i = (s.attachCounted x vf reason).rd f i := by
  have inst := s.attachCounted_inst x vf reason vf
  have mem : (s.attachCounted x vf reason).mem = s.mem := rfl
  unfold State.refuseAttach
  rw [← State.attachCounted]
  generalize s.attachCounted x vf reason = u at inst mem ⊢
  split
  next => exact ⟨u, LogOnly.refl _, congrArg Inst.token inst, mem, fun _ _ => rfl⟩
  next =>
    dsimp only
    split
    · exact ⟨_, State.logRefused_only .., by rw [State.inst_setInst_self, inst], mem, fun _ _ => State.rd_setInst ..⟩
    · exact ⟨_, LogOnly.refl _, by rw [State.inst_setInst_self, inst], mem, fun _ _ => State.rd_setInst ..⟩

theorem State.refuseAttach_shows (s : State) (x vf : Nat) :
    let t := s.refuseAttach x vf 1
    t.rd F.HPT_INST_STATE_state vf = s.rd F.HPT_INST_STATE_state vf ∧ (t.inst vf).token = (s.inst vf).token ∧
    t.rd F.HPT_ATTACH_STATUS_refused vf = 1 ∧ t.rd F.HPT_ATTACH_STATUS_reason vf = 1 ∧
    t.rd F.HPT_ATTACH_REFUSED x = (s.rd F.HPT_ATTACH_REFUSED x + 1) % 2 ^ F.HPT_ATTACH_REFUSED.width ∧ t.mem = s.mem := by
  obtain ⟨t, log, token, mem, rd⟩ := s.refuseAttach_keeps x vf 1
  obtain ⟨-, refused, reason⟩ := s.attachResult_shows vf (reason := 1) (by decide)
  refine ⟨(log.rd _ _ rfl).trans ((rd _ _).trans ?_), (congrArg Inst.token (log.inst vf)).trans token, (log.rd _ _ rfl).trans ((rd _ _).trans ?_),
    (log.rd _ _ rfl).trans ((rd _ _).trans ?_), (log.rd _ _ rfl).trans ((rd _ _).trans ?_), log.mem.trans mem⟩
  · rw [State.attachCounted, State.rd_bump_ne _ _ _ _ _ _ (.inl (by decide)), State.attachResult_rd _ _ _ _ _ (by decide)]
  · rw [State.attachCounted, State.rd_bump_ne _ _ _ _ _ _ (.inl (by decide)), refused]
    rfl
  · rw [State.attachCounted, State.rd_bump_ne _ _ _ _ _ _ (.inl (by decide)), reason]
  · rw [State.attachCounted, State.rd_bump_self _ _ _ _ (by decide), State.attachResult_rd _ _ _ _ _ (by decide)]

/-! ### DETACH, RESUME and DISCARD (R320, R322) -/

theorem State.detachCmd_detaches {s : State} {x vf : Nat}
    (on : s.rd F.HPT_INST_STATE_state vf = attAttached ∨ s.rd F.HPT_INST_STATE_state vf = attPaused) (link : s.rd F.HPT_INST_STATE_link vf = x) :
    s.detachCmd x vf = (s.detachAlone vf).attachResult vf 0 := by
  unfold State.detachCmd
  dsimp only
  rw [if_neg (by tauto), if_neg (not_not.2 link)]

/-- The end of a pause, before what is held is posted or dropped. -/
def State.unpaused (s : State) (vf : Nat) : State :=
  ((s.wr F.HPT_INST_STATE_state attAttached vf).logEv .HPT .stateChange attAttached vf).wr F.HPT_INST_STATE_held_lost 0 vf

theorem State.unpaused_shows (s : State) (vf : Nat) : (s.unpaused vf).rd F.HPT_INST_STATE_state vf = attAttached ∧
    (s.unpaused vf).rd F.HPT_INST_STATE_held_lost vf = 0 ∧ (s.unpaused vf).inst vf = s.inst vf ∧ (s.unpaused vf).mem = s.mem ∧
    (s.unpaused vf).outbox = s.outbox := by
  have log := (s.wr F.HPT_INST_STATE_state attAttached vf).logEv_only .HPT .stateChange attAttached vf 0 false
  refine ⟨?_, State.rd_wr_self _ F.HPT_INST_STATE_held_lost _ _ (by decide), log.inst vf, log.mem, log.outbox⟩
  rw [State.unpaused, State.rd_wr_bits _ F.HPT_INST_STATE_state F.HPT_INST_STATE_held_lost _ _ _ rfl (by decide) (by decide), log.rd _ _ rfl, State.rd_wr_self _ _ _ _ (by decide)]
  rfl

/-- The record with nothing held. -/
def State.heldDropped (s : State) (vf : Nat) : State := (s.setInst vf { s.inst vf with held := [] }).wr F.HPT_INST_STATE_held_count 0 vf

theorem State.leavePaused_leaves {s : State} {x vf : Nat} (paused : s.rd F.HPT_INST_STATE_state vf = attPaused)
    (link : s.rd F.HPT_INST_STATE_link vf = x) (keep : Bool) :
    s.leavePaused x vf keep = (if keep then (s.unpaused vf).postHeld vf else (s.unpaused vf).heldDropped vf).attachResult vf 0 := by
  unfold State.leavePaused
  rw [if_neg (not_not.2 paused), if_neg (not_not.2 link)]
  rfl

theorem State.heldDropped_shows (s : State) (vf : Nat) : (((s.unpaused vf).heldDropped vf).rd F.HPT_INST_STATE_state vf = attAttached) ∧
    (((s.unpaused vf).heldDropped vf).inst vf).held = [] ∧ ((s.unpaused vf).heldDropped vf).rd F.HPT_INST_STATE_held_count vf = 0 ∧
    ((s.unpaused vf).heldDropped vf).rd F.HPT_INST_STATE_held_lost vf = 0 := by
  obtain ⟨state, lost, -⟩ := s.unpaused_shows vf
  refine ⟨(State.rd_wr_bits _ F.HPT_INST_STATE_state F.HPT_INST_STATE_held_count _ _ _ rfl (by decide) (by decide)).trans state, ?_, State.rd_wr_self _ F.HPT_INST_STATE_held_count _ _ (by decide),
    (State.rd_wr_bits _ F.HPT_INST_STATE_held_lost F.HPT_INST_STATE_held_count _ _ _ rfl (by decide) (by decide)).trans lost⟩
  rw [State.heldDropped, State.inst_wr, State.inst_setInst_self]

/-! ### The rows -/

section
variable {s : State} {x vf : Nat} (hrun : s.power = .run) (hx : x < 16) (hv : vf < 1024) (hup : s.linkUp x = true)
include hrun hx hv hup

/-- A command of the attach window, where it answers for one of the instances. -/
theorem attAct_completes {c : Instr} {f : State → State} {P : State → Prop} (hbar : s.barAnswers x vf = true) (there : s.rd F.PTN_INST_state vf ≠ instAbsent)
    (e : exec c s = attAct x vf s f) (p : P ((f s).requeue s.pending)) : Completes c s P := by
  refine completes_actOn hrun e (by simp [hx, hv]) ?_
  rwa [if_neg (by simp [hup]), if_pos (by simp [hbar, there])]

/-- An access to the window of one of the instances on its link. -/
theorem winAct_completes {c : Instr} {n : Option Nat} {f : State → State} {P : State → Prop} (hbar : s.barAnswers x vf = true) (on : s.onLink x vf = true)
    (e : exec c s = winAct x vf n s f) (p : P ((f s).requeue s.pending)) : Completes c s P := by
  refine completes_actOn hrun e (by simp [hx, hv]) ?_
  rwa [if_neg (by simp [hup]), if_pos (by simp [hbar, on])]

end

theorem State.readPtnToken_reads {s : State} {vf : Nat} {i : Inst} (sel : s.rd F.PTN_TOKEN_SEL_vf = vf) (there : Tbl.get? s.insts vf = some i) :
    s.readPtnToken = (i.ptnToken.toNat, s.setInst vf { i with ptnToken := 0 }) := by
  simp [State.readPtnToken, sel, there]

/-- Settles O35: each command by the operation it is, the reads by what they leave of the token. -/
theorem attachment : Obligations.Attachment := by
  intro s x vf hrun hx hv hup hbar there
  have row {c : Instr} {f : State → State} {P : State → Prop} (e : exec c s = attAct x vf s f) (p : P ((f s).requeue s.pending)) : Completes c s P :=
    attAct_completes hrun hx hv hup hbar there e p
  refine ⟨row rfl rfl, row rfl rfl, row rfl rfl, row rfl rfl, fun unlocked port token away left => row rfl ?attach,
    fun unlocked port token => row rfl ?wrong, fun on link => row rfl ?detach, fun paused link => ⟨row rfl ?resume, row rfl ?discard⟩,
    fun i hi => completes_actOn hrun rfl (decide_eq_true hv) ?lock, fun on => winAct_completes hrun hx hv hup hbar on rfl ?token,
    fun i hm sel hi => heldRow_completes hrun hm rfl ?ptnToken⟩
  case attach =>
    rw [State.attach_accepts unlocked port token away left rfl]
    have hst : (if s.rd F.HPT_INST_STATE_state vf = attNew then attAttached else attPaused) < 4 := by split_ifs <;> decide
    generalize (if s.rd F.HPT_INST_STATE_state vf = attNew then attAttached else attPaused) = st at hst ⊢
    obtain ⟨state, link, shown, fresh, mem⟩ := s.attachedBy_shows (vf := vf) hx hst
    have log := (s.attachedBy x vf st).logEv_only .HPT .stateChange st vf 0 false
    obtain ⟨done, -, reason⟩ := ((s.attachedBy x vf st).logEv .HPT .stateChange st vf).attachResult_shows vf (reason := 0) (by decide)
    have rd := fun (f : Fld) (h : f.reg ≠ .HPT_ATTACH_STATUS) (hl : f.reg.isLog = false) =>
      (State.attachResult_rd ((s.attachedBy x vf st).logEv .HPT .stateChange st vf) vf 0 f vf h).trans (log.rd f vf hl)
    have inst := log.inst vf
    rw [State.inst_requeue, State.inst_attachResult, inst]
    refine ⟨(rd _ (by decide) rfl).trans state, (rd _ (by decide) rfl).trans link, (rd _ (by decide) rfl).trans shown, fresh, done, reason,
      log.mem.trans mem⟩
  case wrong =>
    rw [State.attach_wrongToken unlocked port token]
    exact s.refuseAttach_shows x vf
  case detach =>
    rw [State.detachCmd_detaches on link]
    exact ⟨rfl, (State.attachResult_shows _ vf (reason := 0) (by decide)).1⟩
  case resume =>
    rw [State.leavePaused_leaves paused link]
    obtain ⟨state, -, inst, mem, -⟩ := s.unpaused_shows vf
    exact ⟨s.unpaused vf, rfl, state, congrArg Inst.held inst, mem⟩
  case discard =>
    rw [State.leavePaused_leaves paused link, if_neg (by decide)]
    obtain ⟨-, -, -, mem, outbox⟩ := s.unpaused_shows vf
    obtain ⟨state, held, count, lost⟩ := s.heldDropped_shows vf
    have rd := State.attachResult_rd ((s.unpaused vf).heldDropped vf) vf 0
    rw [State.inst_requeue, State.inst_attachResult]
    refine ⟨(rd F.HPT_INST_STATE_state vf (by decide)).trans state, held, (rd F.HPT_INST_STATE_held_count vf (by decide)).trans count,
      (rd F.HPT_INST_STATE_held_lost vf (by decide)).trans lost,
      (State.attachResult_shows _ vf (reason := 0) (by decide)).1, ?_, ?_⟩
    · simpa [State.attachResult, State.heldDropped] using mem
    · simpa [State.attachResult, State.heldDropped] using outbox
  case lock =>
    rw [hi]
    exact ⟨(State.inst_requeue ..).trans (State.inst_setInst_self ..), rfl, rfl⟩
  case token => exact ⟨rfl, State.rd_wr_self _ F.HPT_TOKEN_token _ _ (by decide), rfl⟩
  case ptnToken =>
    rw [State.readPtnToken_reads ((s.touchSession_rd _ _).trans sel) (s.touchSession_insts ▸ hi)]
    rw [State.inst_requeue]
    refine ⟨?_, congrArg Inst.ptnToken (State.inst_setInst_self ..), s.touchSession_regs⟩
    exact congrArg (· ++ _) s.touchSession_outbox

end Sys2Proof.Machine
end

section
/-! PROOFS. The manager role over path 2 (R496-R499): challenges, proofs and their codes, what MGT_CRED_STATUS shows, and the ends of a session. -/

namespace Sys2Proof.Machine

/-! ### What MGT_CRED_STATUS shows (R510) -/

/-- MGT_CRED_STATUS with a holder of the role, and the connection that holds it. -/
def State.roleShown (s : State) (holder conn : Nat) : State :=
  ((s.wr F.MGT_CRED_STATUS_granted (b2n (holder == 2))).wr F.MGT_CRED_STATUS_holder holder).wr F.MGT_CRED_STATUS_conn conn

theorem State.roleShown_shows (s : State) {holder : Nat} (conn : Nat) (h : holder < 4) :
    (s.roleShown holder conn).rd F.MGT_CRED_STATUS_holder = holder ∧ (s.roleShown holder conn).rd F.MGT_CRED_STATUS_granted = b2n (holder == 2) := by
  unfold State.roleShown
  constructor
  · simp (disch := decide) only [State.rd_wr_bits, State.rd_wr_self]
    exact Nat.mod_eq_of_lt h
  · simp (disch := decide) only [State.rd_wr_bits, State.rd_wr_self]
    exact b2n_mod_two _

theorem State.showSession_none {s : State} (h : s.mgt.session = none) : s.showSession = s.roleShown 0 0 := by
  unfold State.showSession
  rw [h]
  rfl

theorem State.showSession_path2 {s : State} {z : Session} (h : s.mgt.session = some z) (hz : z.conn = none) : s.showSession = s.roleShown 2 0 := by
  unfold State.showSession
  rw [h]
  dsimp only
  rw [hz]
  rfl

/-! ### The end of a session of path 2 (R499, R509) -/

theorem State.pf0Holds_iff (s : State) : s.pf0Holds = true ↔ ∃ z, s.mgt.session = some z ∧ z.conn = none := by
  unfold State.pf0Holds
  cases s.mgt.session with
  | none => simp
  | some z => simp

/-- The role's holder gone, before MGT_CRED_STATUS shows it; the key words that its path staged are cleared. -/
def State.roleLeft (s : State) (path : Path) : State :=
  let s := if s.cph.claim = some path then s.clearStaged else s
  { s with mgt := { s.mgt with session := none } }

theorem State.roleLeft_leaves (s : State) (path : Path) : (s.roleLeft path).mgt.session = none ∧ (s.roleLeft path).mem = s.mem := by
  unfold State.roleLeft
  dsimp only
  split_ifs
  · exact ⟨rfl, rfl⟩
  · exact ⟨rfl, rfl⟩

theorem State.endSession_path2 {s : State} {z : Session} (h : s.mgt.session = some z) (hz : z.conn = none) :
    s.endSession = (s.roleLeft .pf0).roleShown 0 0 := by
  rw [← State.showSession_none (s.roleLeft_leaves .pf0).1]
  unfold State.endSession
  rw [h]
  dsimp only
  rw [hz]
  rfl

/-- No role, none shown, and memory as before. -/
theorem State.endSession_ends {s : State} (h : s.pf0Holds = true) : s.endSession.mgt.session = none ∧
    s.endSession.rd F.MGT_CRED_STATUS_holder = 0 ∧ s.endSession.rd F.MGT_CRED_STATUS_granted = 0 ∧ s.endSession.mem = s.mem := by
  obtain ⟨z, hs, hz⟩ := s.pf0Holds_iff.1 h
  obtain ⟨left, mem⟩ := s.roleLeft_leaves .pf0
  rw [State.endSession_path2 hs hz]
  generalize s.roleLeft .pf0 = u at left mem ⊢
  obtain ⟨holder, granted⟩ := u.roleShown_shows 0 (holder := 0) (by decide)
  exact ⟨left, holder, granted, mem⟩

theorem State.endSession_none {s : State} (h : s.mgt.session = none) : s.endSession = s := by
  unfold State.endSession
  rw [h]

/-! ### Result codes (R497) -/

/-- What logging leaves of the manager's state. -/
theorem LogOnly.role {s t : State} (h : LogOnly s t) : t.mgt.session = s.mgt.session ∧ t.mgt.challenges = s.mgt.challenges ∧ t.mgt.chal = s.mgt.chal := by
  obtain ⟨_, _, _, rfl, _⟩ := h
  exact ⟨rfl, rfl, rfl⟩

theorem State.credResult_path2 (s : State) (code : Nat) :
    ∃ u : State, LogOnly s u ∧ s.credResult mgtPath2 code = u.wr F.MGT_CRED_STATUS_result code := by
  unfold State.credResult
  dsimp only
  rw [if_pos rfl]
  split_ifs
  · exact ⟨s, .refl s, rfl⟩
  · exact ⟨_, State.logRefused_only .., rfl⟩

/-- The code is shown; the session, the challenges and the other fields are as before. -/
structure CredAnswered (code : Nat) (s t : State) : Prop where
  result : t.rd F.MGT_CRED_STATUS_result = code
  session : t.mgt.session = s.mgt.session
  challenges : t.mgt.challenges = s.mgt.challenges
  chal : t.mgt.chal = s.mgt.chal
  mem : t.mem = s.mem
  holder : t.rd F.MGT_CRED_STATUS_holder = s.rd F.MGT_CRED_STATUS_holder
  granted : t.rd F.MGT_CRED_STATUS_granted = s.rd F.MGT_CRED_STATUS_granted

theorem State.credResult_answers (s : State) {code : Nat} (h : code < 8) : CredAnswered code s (s.credResult mgtPath2 code) := by
  obtain ⟨u, log, eq⟩ := s.credResult_path2 code
  obtain ⟨session, challenges, chal⟩ := log.role
  rw [eq]
  refine ⟨?_, session, challenges, chal, log.mem, ?_, ?_⟩
  · rw [State.rd_wr_self _ _ _ _ (by decide)]
    exact Nat.mod_eq_of_lt (Nat.lt_of_lt_of_le h (by decide))
  · rw [State.rd_wr_bits _ F.MGT_CRED_STATUS_holder F.MGT_CRED_STATUS_result _ _ _ rfl (by decide) (by decide), log.rd _ _ rfl]
  · rw [State.rd_wr_bits _ F.MGT_CRED_STATUS_granted F.MGT_CRED_STATUS_result _ _ _ rfl (by decide) (by decide), log.rd _ _ rfl]

theorem State.credStop_lt (s : State) (path : Nat) : s.credStop path < 8 := by
  unfold State.credStop
  split_ifs <;> decide

theorem State.judgeProof_lt (s : State) (path : Nat) (chal : Option Challenge) (proof : List Byte) : s.judgeProof path chal proof < 8 := by
  have stop := s.credStop_lt path
  unfold State.judgeProof
  cases chal with
  | none => dsimp only; split_ifs <;> omega
  | some h => dsimp only; split_ifs <;> omega

/-- A proof is accepted over a challenge alone. -/
theorem State.judgeProof_challenged {s : State} {path : Nat} {chal : Option Challenge} {proof : List Byte} (h : s.judgeProof path chal proof = 0) :
    ∃ c, chal = some c := by
  cases chal with
  | some c => exact ⟨c, rfl⟩
  | none =>
    unfold State.judgeProof at h
    dsimp only at h
    split_ifs at h with stopped
    omega

/-! ### Challenges (R497) -/

/-- Drawing free values changes nothing but their count. -/
theorem State.drawWords_draws (s : State) (n : Nat) : ∃ f, (s.drawWords n).2 = { s with fresh := f } := by
  induction n with
  | zero => exact ⟨s.fresh, rfl⟩
  | succ n ih =>
    obtain ⟨f, hf⟩ := ih
    refine ⟨f + 1, ?_⟩
    simp only [State.drawWords, State.draw, hf]

/-- A challenge stands on path 2, and the register shows it. -/
def State.challenged (s : State) (b : List Byte) : State :=
  { s with mgt := { s.mgt with challenges := Tbl.set s.mgt.challenges mgtPath2 ⟨b, s.now⟩, chal := b } }

/-- The 256 bytes of a challenge of path 2 over a nonce, signed. -/
def chalBytes (nonce : List Byte) : List Byte :=
  let body := nonce ++ List.replicate 64 0 ++ padTo 32 (uniqueId.take 32) ++ leBytes 1 2 ++ leBytes 3 0 ++ beBytes 4 0 ++ List.replicate 56 0
  body ++ padTo 64 ((Config.ecdsaSign body).take 64)

theorem State.challenge_challenges {s : State} (free : s.credStop mgtPath2 = 0) :
    ∃ (f : Nat) (b : List Byte), s.challenge mgtPath2 = (State.challenged { s with fresh := f } b).credResult mgtPath2 0 := by
  obtain ⟨f, hf⟩ := s.drawWords_draws 4
  have eq : s.challenge mgtPath2 = (State.challenged (s.drawWords 4).2 (chalBytes (s.drawWords 4).1)).credResult mgtPath2 0 := if_neg (not_not.2 free)
  exact ⟨f, _, eq.trans (by rw [hf])⟩

theorem State.challenge_stopped {s : State} (stop : s.credStop mgtPath2 ≠ 0) : s.challenge mgtPath2 = s.credResult mgtPath2 (s.credStop mgtPath2) :=
  if_pos stop

/-! ### Proofs (R497, R499) -/

/-- A challenge serves one proof. -/
def State.unchallenged (s : State) (path : Nat) : State := { s with mgt := { s.mgt with challenges := Tbl.erase s.mgt.challenges path } }

/-- The role granted on path 2. -/
def State.granted2 (s : State) : State :=
  State.roleShown { s with mgt := { s.mgt with session := some ⟨none, 0, s.now, 0, []⟩ } } 2 0

theorem State.grant_path2 (s : State) (unheld : s.mgt.session = none) (chal proof : List Byte) :
    s.grant mgtPath2 chal proof = s.granted2.credResult mgtPath2 0 := by
  unfold State.grant
  rw [State.endSession_none unheld]
  dsimp only
  rw [if_pos (by decide), State.showSession_path2 rfl rfl]
  rfl

theorem State.prove_accepts {s : State} {proof : List Byte} (good : s.judgeProof mgtPath2 (Tbl.get? s.mgt.challenges mgtPath2) proof = 0)
    (unheld : s.mgt.session = none) : s.prove mgtPath2 proof = (((s.unchallenged mgtPath2).granted2).credResult mgtPath2 0).mgtSweep := by
  obtain ⟨c, hc⟩ := State.judgeProof_challenged good
  rw [hc] at good
  unfold State.prove
  rw [hc]
  dsimp only
  rw [good]
  exact congrArg State.mgtSweep ((s.unchallenged mgtPath2).grant_path2 unheld c.bytes proof)

/-- A failure on a path changes its own times and locks. -/
theorem State.credFailed_keeps (s : State) (path : Nat) : (s.credFailed path).mgt.session = s.mgt.session ∧
    (s.credFailed path).mgt.challenges = s.mgt.challenges ∧ (s.credFailed path).mem = s.mem := by
  unfold State.credFailed
  dsimp only
  split_ifs
  · exact ⟨rfl, rfl, rfl⟩
  · exact ⟨rfl, rfl, rfl⟩

theorem State.prove_refuses {s : State} {path : Nat} {proof : List Byte} {code : Nat}
    (hc : s.judgeProof path (Tbl.get? s.mgt.challenges path) proof = code) (bad : code ≠ 0) :
    ∃ u : State, u.mgt.session = s.mgt.session ∧ u.mgt.challenges = Tbl.erase s.mgt.challenges path ∧ u.mem = s.mem ∧
      s.prove path proof = u.credResult path code := by
  obtain ⟨session, challenges, mem⟩ := (s.unchallenged path).credFailed_keeps path
  have eq : s.prove path proof = (if code = 5 then s.unchallenged path else (s.unchallenged path).credFailed path).credResult path code := by
    unfold State.prove
    dsimp only
    rw [hc]
    split
    next => exact absurd rfl bad
    next => rfl
  refine ⟨_, ?_, ?_, ?_, eq⟩
  · split_ifs
    exacts [rfl, session]
  · split_ifs
    exacts [rfl, challenges]
  · split_ifs
    exacts [rfl, mem]

theorem Tbl.get?_erase_self {α : Type} (t : Tbl α) (q : Nat) : Tbl.get? (Tbl.erase t q) q = none := by rw [Tbl.get?_erase, if_pos rfl]

/-! ### The rows -/

theorem exec_sessionIdleTimeout_eq (s : State) :
    exec .sessionIdleTimeout s = act s fun s => if s.rd F.MGT_CFG_idle_min = 0 then s else s.endSession := rfl

theorem exec_credentialChallenge_eq (s : State) : exec .credentialChallenge s = act s fun s => s.challenge mgtPath2 := rfl

/-- The proof that MGT_CRED_PROOF holds. -/
theorem exec_credentialProve_eq (s : State) :
    exec .credentialProve s = act s fun s => s.prove mgtPath2 ((List.range 256).map fun i => Tbl.getD s.mgt.proof i 0) := rfl

/-- Settles O52: challenges and proofs by their code, the ends of a session by whether path 2 holds the role. -/
theorem credentialPathTwo : Obligations.CredentialPathTwo := by
  intro s hrun
  refine ⟨completes_act hrun (exec_credentialProve_eq s) rfl, fun on => completes_act hrun (exec_sessionIdleTimeout_eq s) ?idle, fun free => completes_act hrun (exec_credentialChallenge_eq s) ?challenge,
    fun stop => completes_act hrun (exec_credentialChallenge_eq s) ?stopped, ⟨fun good unheld => completes_act hrun (exec_credentialProve_eq s) ?proved, fun bad => completes_act hrun (exec_credentialProve_eq s) ?refused⟩,
    fun holds => ⟨completes_act hrun rfl ?relinquish, fun on => completes_act hrun (exec_sessionIdleTimeout_eq s) ?silent⟩, fun other => completes_act hrun rfl ?notHolder,
    fun off => completes_act hrun (exec_sessionIdleTimeout_eq s) ?off, fun path hp => ⟨completes_actOn hrun rfl (decide_eq_true hp) ?lapses, ?opens⟩⟩
  case idle => rw [if_neg on]
  case challenge =>
    obtain ⟨f, b, eq⟩ := State.challenge_challenges free
    have answered := (State.challenged { s with fresh := f } b).credResult_answers (code := 0) (by decide)
    rw [eq]
    refine ⟨answered.result, answered.session, answered.mem, ?_⟩
    rw [State.mgt_requeue, answered.challenges, answered.chal, State.challenged, Tbl.get?_set_self]
    simp
  case stopped =>
    have answered := s.credResult_answers (s.credStop_lt mgtPath2)
    rw [State.challenge_stopped stop]
    exact ⟨answered.result, answered.challenges, answered.session, answered.mem⟩
  case proved =>
    rw [State.prove_accepts good unheld]
    have answered := (s.unchallenged mgtPath2).granted2.credResult_answers (code := 0) (by decide)
    obtain ⟨holder, granted⟩ := State.roleShown_shows
      { s.unchallenged mgtPath2 with mgt := { (s.unchallenged mgtPath2).mgt with session := some ⟨none, 0, s.now, 0, []⟩ } } 0 (holder := 2) (by decide)
    refine ⟨_, rfl, answered.session, answered.result, answered.holder.trans holder, answered.granted.trans granted, ?_, answered.mem⟩
    rw [answered.challenges]
    exact Tbl.get?_erase_self ..
  case refused =>
    obtain ⟨u, session, challenges, mem, eq⟩ := State.prove_refuses rfl bad
    have answered := u.credResult_answers (s.judgeProof_lt mgtPath2 (Tbl.get? s.mgt.challenges mgtPath2)
      ((List.range 256).map fun i => Tbl.getD s.mgt.proof i 0))
    rw [eq]
    refine ⟨answered.result, answered.session.trans session, ?_, answered.mem.trans mem⟩
    rw [State.mgt_requeue, answered.challenges, challenges]
    exact Tbl.get?_erase_self ..
  case relinquish =>
    rw [State.pf0Lost, if_pos holds]
    exact State.endSession_ends holds
  case silent =>
    obtain ⟨session, holder, -, mem⟩ := State.endSession_ends holds
    rw [if_neg on]
    exact ⟨session, holder, mem⟩
  case notHolder => rw [State.pf0Lost, if_neg (by rw [other]; decide)]
  case off => rw [if_pos off]
  case lapses => exact ⟨Tbl.get?_erase_self .., fun q hq => (Tbl.get?_erase ..).trans (if_neg hq), rfl, rfl⟩
  case opens =>
    refine completes_actOn (f := fun s => { s with mgt := { s.mgt with locked := s.mgt.locked.filter (· != path) } }) hrun rfl (decide_eq_true hp)
      ⟨?_, rfl, rfl⟩
    simp

end Sys2Proof.Machine
end

section
/-! PROOFS. The device's own ladder, its power cap and its crystal (R440-R442, R444). -/

namespace Sys2Proof.Machine

/-! ### The logbook is programmed (R475) -/

theorem State.showLog_only (s : State) : LogOnly s s.showLog := by
  obtain ⟨n, e⟩ := s.showLog_eq
  rw [e]
  refine LogOnly.trans ?_ (.wr _ F.LOG_STATUS_oldest n 0 rfl)
  split
  · exact .refl s
  · exact .wr s F.LOG_STATUS_newest _ 0 rfl

theorem State.pageDone_only (s : State) (p : PageProgram) : LogOnly s (s.pageDone p) :=
  (((LogOnly.log s _).trans (.wr _ F.LOG_STATUS_newest _ 0 rfl)).trans (State.showLog_only _)).trans (State.pageIfFull_only _)

/-- Programming what is staged is the logbook's alone. -/
theorem State.drainLog_only (s : State) : LogOnly s s.drainLog := by
  have pages : ∀ (n : Nat) (u : State), LogOnly u (State.drainLog.pages n u) := by
    intro n
    induction n with
    | zero => exact .refl
    | succ n ih =>
      intro u
      unfold State.drainLog.pages
      split
      · exact (u.startPage_only.trans (State.pageDone_only _ _)).trans (ih _)
      · exact .refl u
  exact (LogOnly.log s _).trans (pages 257 _)

/-! ### The entry of device EMBER or COLD (R441) -/

/-- PWR_DEV_STATUS as a refusal leaves it. -/
def State.devRefused (s : State) (r : Nat) : State := ((s.wr F.PWR_DEV_STATUS_reason r).wr F.PWR_DEV_STATUS_refused 1).wr F.PWR_DEV_STATUS_done 0

theorem State.devRefused_shows (s : State) {r : Nat} (h : r < 8) : (s.devRefused r).rd F.PWR_DEV_STATUS_refused = 1 ∧
    (s.devRefused r).rd F.PWR_DEV_STATUS_done = 0 ∧ (s.devRefused r).rd F.PWR_DEV_STATUS_reason = r := by
  unfold State.devRefused
  refine ⟨?_, ?_, ?_⟩
  · simp (disch := decide) only [State.rd_wr_bits, State.rd_wr_self]
    rfl
  · simp (disch := decide) only [State.rd_wr_self, Nat.zero_mod]
  · simp (disch := decide) only [State.rd_wr_bits, State.rd_wr_self]
    exact Nat.mod_eq_of_lt (Nat.lt_of_lt_of_le h (by decide))

/-- An entry that has begun, before the ports go. -/
def State.entryBegun (s : State) (st : Nat) : State :=
  let s := ((s.wr F.PWR_DEV_STATUS_busy 1).wr F.PWR_DEV_STATUS_done 0).wr F.PWR_DEV_STATUS_refused 0
  { s with pwr := { s.pwr with entry := some st } }

theorem State.entryBegun_shows (s : State) (st : Nat) : (s.entryBegun st).pwr.entry = some st ∧ (s.entryBegun st).rd F.PWR_DEV_STATUS_busy = 1 ∧
    (s.entryBegun st).rd F.PWR_DEV_STATUS_done = 0 ∧ (s.entryBegun st).mem = s.mem := by
  have rd : ∀ f, (s.entryBegun st).rd f = (((s.wr F.PWR_DEV_STATUS_busy 1).wr F.PWR_DEV_STATUS_done 0).wr F.PWR_DEV_STATUS_refused 0).rd f := fun _ => rfl
  refine ⟨rfl, ?_, ?_, rfl⟩
  · rw [rd]
    simp (disch := decide) only [State.rd_wr_bits, State.rd_wr_self]
    rfl
  · rw [rd]
    simp (disch := decide) only [State.rd_wr_bits, State.rd_wr_self, Nat.zero_mod]

/-- The first reason that refuses an entry, as the command finds it. -/
def State.entryReason (s : State) : Nat :=
  if (List.range 64).any fun p => s.enabled p && s.rd F.PTN_PART_state p != ptnQuiesced then 1
  else if s.pwr.entry.isSome || s.rd F.LAY_STATUS_busy == 1 then 2
  else if s.rd F.TRU_TAMPER_STATE_latched != 0 then 3
  else 0

theorem State.entryReason_lt (s : State) : s.entryReason < 8 := by
  unfold State.entryReason
  split_ifs <;> decide

theorem State.enterDev_eq (s : State) (st : Nat) : s.enterDev st =
    if s.entryReason ≠ 0 then s.devRefused s.entryReason
    else if st = 4 then ((List.range 16).filter fun x => (s.entryBegun st).darkPorts.linkUp x).foldl State.linkLoss (s.entryBegun st).darkPorts
    else (s.entryBegun st).darkPorts := by
  unfold State.enterDev State.entryReason
  dsimp only
  simp only [Bool.or_eq_true, beq_iff_eq, bne_iff_ne]
  by_cases h1 : ((List.range 64).any fun p => s.enabled p && s.rd F.PTN_PART_state p != ptnQuiesced) = true
  · rw [if_pos h1, if_pos h1]
    rfl
  by_cases h2 : s.pwr.entry.isSome = true ∨ s.rd F.LAY_STATUS_busy = 1
  · rw [if_neg h1, if_pos h2, if_neg h1, if_pos h2]
    rfl
  by_cases h3 : s.rd F.TRU_TAMPER_STATE_latched ≠ 0
  · rw [if_neg h1, if_neg h2, if_pos h3, if_neg h1, if_neg h2, if_pos h3]
    rfl
  · rw [if_neg h1, if_neg h2, if_neg h3, if_neg h1, if_neg h2, if_neg h3]
    rfl

/-- The access itself changes nothing of what an entry looks at. -/
theorem State.entryReason_touch (s : State) : s.touchSession.entryReason = s.entryReason := by
  have enabled : ∀ p, s.touchSession.enabled p = s.enabled p := fun p => by
    simp only [State.enabled, State.partDef, State.touchSession_lay]
  simp only [State.entryReason, enabled, State.touchSession_rd, State.touchSession_pwr]

/-! ### The end of the entry (R441) -/

/-- A domain steps to the state named, but a privileged one that the trust controller holds in EMBER. -/
def State.domEntered (s : State) (st d : Nat) : State :=
  if st = 3 ∧ privileged d ∧ s.heldLit d then s
  else if st = 4 then (s.wr F.PWR_DOM_state st d).crossReset d
  else s.wr F.PWR_DOM_state st d

theorem State.crossReset_keeps (s : State) (d : Nat) : (s.crossReset d).regs = s.regs ∧ (s.crossReset d).pins = s.pins ∧
    (s.crossReset d).pwr.woken = s.pwr.woken ∧ (s.crossReset d).slots = s.slots ∧ (s.crossReset d).mslots = s.mslots := by
  unfold State.crossReset
  split
  · exact ⟨rfl, rfl, rfl, rfl, rfl⟩
  · exact ⟨rfl, rfl, rfl, rfl, rfl⟩

/-- What the steps of the domains leave: the pins, what the trust controller holds, and the other domains. -/
structure DomsStep (s t : State) : Prop where
  pins : t.pins = s.pins
  held : ∀ d, t.heldLit d = s.heldLit d

theorem State.domEntered_steps (s : State) (st d : Nat) : DomsStep s (s.domEntered st d) := by
  unfold State.domEntered
  split
  · exact ⟨rfl, fun _ => rfl⟩
  split
  · obtain ⟨-, pins, woken, slots, mslots⟩ := (s.wr F.PWR_DOM_state st d).crossReset_keeps d
    exact ⟨pins, fun k => by simp only [State.heldLit, woken, slots, mslots]; rfl⟩
  · exact ⟨rfl, fun _ => rfl⟩

theorem State.domEntered_other (s : State) (st d k : Nat) (h : k ≠ d) : (s.domEntered st d).rd F.PWR_DOM_state k = s.rd F.PWR_DOM_state k := by
  unfold State.domEntered
  split
  · rfl
  split
  · rw [State.rd_of_regs (State.crossReset_keeps _ d).1, State.rd_wr_index _ _ _ _ _ _ h]
  · rw [State.rd_wr_index _ _ _ _ _ _ h]

theorem State.domEntered_self (s : State) {st : Nat} (d : Nat) (h : st < 8) (free : st = 4 ∨ (privileged d && s.heldLit d) = false) :
    (s.domEntered st d).rd F.PWR_DOM_state d = st := by
  have written : (s.wr F.PWR_DOM_state st d).rd F.PWR_DOM_state d = st := (State.rd_wr_self _ _ _ _ (by decide)).trans (Nat.mod_eq_of_lt h)
  unfold State.domEntered
  rw [if_neg]
  · split
    · rw [State.rd_of_regs (State.crossReset_keeps _ d).1, written]
    · exact written
  · rintro ⟨rfl, p, l⟩
    rcases free with four | free
    · omega
    · rw [p, l] at free
      cases free

/-- The domains from 1 on have stepped. -/
theorem State.domsEntered (s : State) {st : Nat} (h : st < 8) (n : Nat) :
    DomsStep s ((List.range n).foldl (fun s k => s.domEntered st (k + 1)) s) ∧
    ∀ d, 1 ≤ d → d ≤ n → (st = 4 ∨ (privileged d && s.heldLit d) = false) →
      ((List.range n).foldl (fun s k => s.domEntered st (k + 1)) s).rd F.PWR_DOM_state d = st := by
  induction n with
  | zero => exact ⟨⟨rfl, fun _ => rfl⟩, fun d h1 h2 => by omega⟩
  | succ n ih =>
    obtain ⟨steps, done⟩ := ih
    rw [List.range_succ, List.foldl_append]
    generalize (List.range n).foldl (fun s k => s.domEntered st (k + 1)) s = u at steps done ⊢
    have last := u.domEntered_steps st (n + 1)
    refine ⟨⟨last.pins.trans steps.pins, fun d => (last.held d).trans (steps.held d)⟩, fun d h1 h2 free => ?_⟩
    by_cases hd : d = n + 1
    · subst hd
      exact u.domEntered_self (n + 1) h (by rwa [steps.held])
    · exact (u.domEntered_other st (n + 1) d hd).trans (done d h1 (by omega) free)

/-- The ladder's own state once every domain has stepped. -/
def State.slept (s : State) (st : Nat) : State :=
  { s with pwr := { s.pwr with entry := none, asleep := some st, climbing := [], woken := if st = 4 then [] else s.pwr.woken } }

theorem State.devEntered_eq (s : State) (st : Nat) :
    s.devEntered st = (((List.range 95).foldl (fun s k => s.domEntered st (k + 1)) s).slept st).showDev.devResult 0 := rfl

/-- An entry's end writes what PWR_DEV_STATUS and PWR_STATUS show, and no domain. -/
theorem State.devShown_shows (s : State) : let t := (s.showDev.devResult 0).wr F.PWR_STATUS_pll_lock 0
    t.rd F.PWR_DEV_STATUS_done = 1 ∧ t.rd F.PWR_DEV_STATUS_busy = 0 ∧ ∀ d, t.rd F.PWR_DOM_state d = s.rd F.PWR_DOM_state d := by
  refine ⟨?_, ?_, fun d => ?_⟩
  all_goals simp (disch := decide) only [State.devResult, State.showDev, State.rd_wr_reg, State.rd_wr_bits, State.rd_wr_self]
  all_goals rfl

/-- The device sleeps, and its domains are where the entry takes them. -/
theorem State.entryDone_sleeps {s : State} {st : Nat} (hst : st = 3 ∨ st = 4) (runs : s.pwr.entry = some st) (low : s.pins.wake = false) :
    s.entryDone.pwr.asleep = some st ∧ s.entryDone.pwr.entry = none ∧ s.entryDone.rd F.PWR_DEV_STATUS_done = 1 ∧
    s.entryDone.rd F.PWR_DEV_STATUS_busy = 0 ∧
    ∀ d, 1 ≤ d → d < 96 → (st = 4 ∨ (privileged d && s.heldLit d) = false) → s.entryDone.rd F.PWR_DOM_state d = st := by
  obtain ⟨u, pins, held, eq⟩ : ∃ u : State, u.pins = s.pins ∧ (st = 3 → u = s) ∧
      s.entryDone = (let t := (u.devEntered st).wr F.PWR_STATUS_pll_lock 0; if t.pins.wake then t.wake 1 else t) := by
    refine ⟨if st = 4 then s.drainLog else s, ?_, fun h => if_neg (by omega), ?_⟩
    · split_ifs
      exacts [s.drainLog_only.pins, rfl]
    · rw [State.entryDone, runs]
  obtain ⟨steps, doms⟩ := u.domsEntered (st := st) (by omega) 95
  have awake : ((u.devEntered st).wr F.PWR_STATUS_pll_lock 0).pins.wake = false := by
    change ((List.range 95).foldl (fun s k => s.domEntered st (k + 1)) u).pins.wake = false
    rw [steps.pins, pins, low]
  rw [eq]
  dsimp only
  rw [if_neg (by rw [awake]; decide), State.devEntered_eq]
  generalize (List.range 95).foldl (fun s k => s.domEntered st (k + 1)) u = v at doms ⊢
  obtain ⟨done, busy, same⟩ := (v.slept st).devShown_shows
  refine ⟨rfl, rfl, done, busy, fun d h1 h2 free => (same d).trans (doms d h1 (by omega) ?_)⟩
  obtain rfl | rfl := hst
  · rwa [held rfl]
  · exact .inl rfl

/-! ### The power cap (R440) -/

theorem State.showTemp_keeps (s : State) (k t : Nat) : (s.showTemp k t).pwr = s.pwr ∧ (s.showTemp k t).mem = s.mem ∧
    ∀ f i, f.reg.isLog = false → f.reg ≠ .HBM_STACK → (s.showTemp k t).rd f i = s.rd f i := by
  have written : ∀ (v w : Nat) (f : Fld) (i : Nat), f.reg ≠ .HBM_STACK →
      ((s.wr F.HBM_STACK_temp_c v k).wr F.HBM_STACK_hot w k).rd f i = s.rd f i := fun v w f i h =>
    (State.rd_wr_reg _ _ _ _ _ _ h).trans (State.rd_wr_reg _ _ _ _ _ _ h)
  unfold State.showTemp
  dsimp only
  split
  · exact ⟨State.pwr_logEv .., State.mem_logEv .., fun f i hl h => (State.rd_logEv _ _ _ _ _ _ _ _ _ hl).trans (written _ _ f i h)⟩
  · exact ⟨rfl, rfl, fun f i _ h => written _ _ f i h⟩

theorem State.showTemps_keep (s : State) (l : List (Nat × Nat)) :
    let t := l.foldl (fun (s : State) (q : Nat × Nat) => s.showTemp q.2 q.1) s
    t.pwr = s.pwr ∧ t.mem = s.mem ∧ ∀ f i, f.reg.isLog = false → f.reg ≠ .HBM_STACK → t.rd f i = s.rd f i := by
  induction l generalizing s with
  | nil => exact ⟨rfl, rfl, fun _ _ _ _ => rfl⟩
  | cons q l ih =>
    obtain ⟨pwr, mem, rd⟩ := s.showTemp_keeps q.2 q.1
    obtain ⟨pwr', mem', rd'⟩ := ih (s.showTemp q.2 q.1)
    exact ⟨pwr'.trans pwr, mem'.trans mem, fun f i hl h => (rd' f i hl h).trans (rd f i hl h)⟩

/-- The throttle a millisecond later: one sixteenth more above the cap or the limits, one fewer well below them. -/
def State.gateNext (s : State) (watts die : Nat) (temps : List Nat) : Nat :=
  let high := decide (s.rd F.PWR_CFG_cap_w < watts) || decide (100 ≤ die) || temps.any fun t => decide (95 ≤ t)
  let low := decide (100 * watts < 95 * s.rd F.PWR_CFG_cap_w) && decide (die < 95) && temps.all fun t => decide (t < 90)
  if high then min 15 (s.pwr.gate + 1) else if low then s.pwr.gate - 1 else s.pwr.gate

theorem State.gateNext_eq (s : State) (watts die : Nat) (temps : List Nat) : s.gateNext watts die temps =
    if s.rd F.PWR_CFG_cap_w < watts ∨ 100 ≤ die ∨ temps.any (fun x => decide (95 ≤ x)) = true then min 15 (s.pwr.gate + 1)
    else if 100 * watts < 95 * s.rd F.PWR_CFG_cap_w ∧ die < 95 ∧ temps.all (fun x => decide (x < 90)) = true then s.pwr.gate - 1 else s.pwr.gate := by
  simp only [State.gateNext, Bool.or_eq_true, Bool.and_eq_true, decide_eq_true_eq, or_assoc, and_assoc]

/-- A throttle is taken, before its start or its end is logged. -/
def State.gated (s : State) (g : Nat) : State :=
  let u := if 0 < s.pwr.gate then s.bump F.PWR_THROTTLE_US 1000 else s
  State.wr { u with pwr := { u.pwr with gate := g } } F.PWR_STATUS_throttled (b2n (0 < g))

theorem State.gated_shows (s : State) (g : Nat) : (s.gated g).rd F.PWR_STATUS_power_w = s.rd F.PWR_STATUS_power_w ∧ (s.gated g).mem = s.mem ∧
    (s.gated g).pwr.gate = g ∧ (s.gated g).rd F.PWR_STATUS_throttled = b2n (decide (0 < g)) ∧
    (s.gated g).rd F.PWR_THROTTLE_US = (s.rd F.PWR_THROTTLE_US + if 0 < s.pwr.gate then 1000 else 0) % 2 ^ F.PWR_THROTTLE_US.width := by
  obtain ⟨u, mem, power, count, eq⟩ : ∃ u : State, u.mem = s.mem ∧ u.rd F.PWR_STATUS_power_w = s.rd F.PWR_STATUS_power_w ∧
      u.rd F.PWR_THROTTLE_US = (s.rd F.PWR_THROTTLE_US + if 0 < s.pwr.gate then 1000 else 0) % 2 ^ F.PWR_THROTTLE_US.width ∧
      s.gated g = State.wr { u with pwr := { u.pwr with gate := g } } F.PWR_STATUS_throttled (b2n (0 < g)) := by
    refine ⟨if 0 < s.pwr.gate then s.bump F.PWR_THROTTLE_US 1000 else s, ?_, ?_, ?_, rfl⟩
    · split_ifs <;> rfl
    · split_ifs
      exacts [State.rd_bump_ne _ _ _ _ _ _ (.inl (by decide)), rfl]
    · split_ifs
      exacts [State.rd_bump_self _ _ _ _ (by decide), (Nat.mod_eq_of_lt (s.rd_lt F.PWR_THROTTLE_US 0)).symm]
  rw [eq]
  refine ⟨(State.rd_wr_bits _ F.PWR_STATUS_power_w F.PWR_STATUS_throttled _ _ _ rfl (by decide) (by decide)).trans power, mem, rfl, ?_,
    (State.rd_wr_reg _ F.PWR_THROTTLE_US F.PWR_STATUS_throttled _ _ _ (by decide)).trans count⟩
  rw [State.rd_wr_self _ _ _ _ (by decide)]
  exact b2n_mod_two _

theorem State.powerSample_only (s : State) (watts die : Nat) (temps : List Nat) : ∃ u : State, u.mem = s.mem ∧
    u.rd F.PWR_STATUS_power_w = min 1023 watts ∧ u.rd F.PWR_THROTTLE_US = s.rd F.PWR_THROTTLE_US ∧ u.pwr = s.pwr ∧
    LogOnly (u.gated (s.gateNext watts die temps)) (s.powerSample watts die temps) := by
  obtain ⟨pwr, mem, rd⟩ := (s.wr F.PWR_STATUS_power_w (min 1023 watts)).showTemps_keep ((temps.take 4).zipIdx)
  have shown : (s.wr F.PWR_STATUS_power_w (min 1023 watts)).rd F.PWR_STATUS_power_w = min 1023 watts :=
    (State.rd_wr_self _ _ _ _ (by decide)).trans (Nat.mod_eq_of_lt (Nat.lt_of_le_of_lt (Nat.min_le_left ..) (by decide)))
  have other : ∀ f : Fld, f.reg ≠ .PWR_STATUS → (s.wr F.PWR_STATUS_power_w (min 1023 watts)).rd f = s.rd f := fun f h => State.rd_wr_reg _ _ _ _ _ _ h
  refine ⟨_, mem, (rd _ _ rfl (by decide)).trans shown, (rd F.PWR_THROTTLE_US 0 rfl (by decide)).trans (other _ (by decide)), pwr, ?_⟩
  have gate : s.gateNext watts die temps =
      (((temps.take 4).zipIdx).foldl (fun (s : State) (q : Nat × Nat) => s.showTemp q.2 q.1) (s.wr F.PWR_STATUS_power_w (min 1023 watts))).gateNext
        watts die temps := by
    unfold State.gateNext
    rw [rd F.PWR_CFG_cap_w 0 rfl (by decide), other _ (by decide), pwr]
    rfl
  have told : ∀ (u : State) (g : Nat), LogOnly (u.gated g) (if u.pwr.gate = 0 ∧ 0 < g then (u.gated g).logEv .PWR .threshold 3 0
      else if 0 < u.pwr.gate ∧ g = 0 then (u.gated g).logEv .PWR .threshold 4 0 else u.gated g) := fun u g => by
    split_ifs
    exacts [State.logEv_only .., State.logEv_only .., LogOnly.refl _]
  rw [gate]
  exact told _ _

/-! ### The crystal (R444) -/

/-- The clock goes to the internal oscillator, which is logged. -/
theorem State.crystalFail_eq (s : State) (inj : Bool) : ∃ v : State, s.crystalFail inj = v.chipReset 3 ∧ v.rd F.PWR_STATUS_rc_clock = 1 ∧
    v.rd F.PWR_STATUS_xtal_fail = 1 ∧ v.rd F.PWR_XTAL_FAIL = (s.rd F.PWR_XTAL_FAIL + 1) % 2 ^ F.PWR_XTAL_FAIL.width ∧ v.mem = s.mem := by
  let u := ((s.wr F.PWR_STATUS_rc_clock 1).wr F.PWR_STATUS_xtal_fail 1).bump F.PWR_XTAL_FAIL
  have log := u.logRec_only (u.mkRec .PWR .stateChange 6 0 0 1 inj)
  have shown : ∀ f : Fld, f.reg.isLog = false → (u.logRec (u.mkRec .PWR .stateChange 6 0 0 1 inj)).showFault.rd f = u.rd f := fun f h =>
    (State.rd_of_regs rfl _ _).trans (log.rd f 0 h)
  refine ⟨_, rfl, (shown _ rfl).trans ?_, (shown _ rfl).trans ?_, (shown _ rfl).trans ?_, log.mem⟩
  all_goals simp (disch := decide) only [u, State.rd_bump_self, State.rd_bump_ne, State.rd_wr_reg, State.rd_wr_bits, State.rd_wr_self]
  all_goals rfl

/-! ### The rows -/

section
variable {s : State} {c : Instr} {st : Nat} (hrun : s.power = .run) (hm : s.manages false = true) (hc : (c, st) ∈ [(Instr.enterEmber, 3), (.enterCold, 4)])
include hrun hm hc

/-- Each entry is the manager's, to its own state. -/
theorem enterRow_completes {P : State → Prop} (p : P ((s.touchSession.enterDev st).requeue s.pending)) : Completes c s P := by
  simp only [List.mem_cons, Prod.mk.injEq, List.not_mem_nil, or_false] at hc
  obtain ⟨rfl, rfl⟩ | ⟨rfl, rfl⟩ := hc
  · exact heldRow_completes hrun hm rfl p
  · exact heldRow_completes hrun hm rfl p

theorem enterRow_refused (bad : s.entryReason ≠ 0) : Completes c s fun t => t.rd F.PWR_DEV_STATUS_refused = 1 ∧ t.rd F.PWR_DEV_STATUS_done = 0 ∧
    t.rd F.PWR_DEV_STATUS_reason = s.entryReason ∧ t.pwr = s.pwr ∧ t.mem = s.mem := by
  refine enterRow_completes hrun hm hc ?_
  rw [State.enterDev_eq, State.entryReason_touch, if_pos bad]
  obtain ⟨refused, done, reason⟩ := s.touchSession.devRefused_shows s.entryReason_lt
  exact ⟨refused, done, reason, s.touchSession_pwr, s.touchSession_mem⟩

theorem enterRow_begins (good : s.entryReason = 0) : Completes c s fun t => ∃ v : State, v.pwr.entry = some st ∧ v.rd F.PWR_DEV_STATUS_busy = 1 ∧
    v.rd F.PWR_DEV_STATUS_done = 0 ∧ v.mem = s.mem ∧ (st = 3 → t = v.darkPorts.requeue s.pending) ∧
    (st = 4 → t = (((List.range 16).filter fun x => v.darkPorts.linkUp x).foldl State.linkLoss v.darkPorts).requeue s.pending) := by
  refine enterRow_completes hrun hm hc ?_
  rw [State.enterDev_eq, State.entryReason_touch, if_neg (not_not.2 good)]
  obtain ⟨entry, busy, done, mem⟩ := s.touchSession.entryBegun_shows st
  refine ⟨s.touchSession.entryBegun st, entry, busy, done, mem.trans s.touchSession_mem, fun h => ?_, fun h => ?_⟩
  · rw [if_neg (by omega)]
  · rw [if_pos h]

end

/-- The pin, where the cause is the pin. -/
def State.wakePin (s : State) (cause : Nat) (level : Bool) : State := if cause = 1 then { s with pins := { s.pins with wake := level } } else s

theorem exec_deviceWake_eq (cause : Nat) (level : Bool) (s : State) : exec (.deviceWake cause level) s = act s fun s =>
    if cause = 1 ∧ !level then s.wakePin cause level else (s.wakePin cause level).wake cause := rfl

theorem State.wakePin_keeps (s : State) (cause : Nat) (level : Bool) : (s.wakePin cause level).regs = s.regs ∧ (s.wakePin cause level).mem = s.mem ∧
    (s.wakePin cause level).pwr = s.pwr ∧ (s.wakePin cause level).pins.wake = if cause = 1 then level else s.pins.wake := by
  unfold State.wakePin
  split_ifs
  · exact ⟨rfl, rfl, rfl, rfl⟩
  · exact ⟨rfl, rfl, rfl, rfl⟩

theorem State.wake_awake {s : State} (h : s.pwr.asleep = none) (cause : Nat) : s.wake cause = s := by rw [State.wake, h]

theorem exec_crystalFail_eq (s : State) :
    exec .crystalFail s = act s fun s => if s.rd F.PWR_STATUS_rc_clock = 1 then s else s.crystalFail false := rfl

/-- Settles O46: an entry by its first reason, its end by the steps of the domains, a wake by whether the device sleeps. -/
theorem deviceLadder : Obligations.DeviceLadder := by
  intro s hrun
  refine ⟨completes_act hrun rfl rfl, fun c st hm hc => ⟨fun bad => ?refused, fun good => enterRow_begins hrun hm hc ?begins⟩,
    fun st hst runs low => completes_act hrun rfl (State.entryDone_sleeps hst runs low),
    fun cause level quiet => completes_act hrun (exec_deviceWake_eq cause level s) ?quiet,
    fun cause level st wakes sleeps => completes_act hrun (exec_deviceWake_eq cause level s) ?wakes,
    fun watts die temps => completes_act (f := fun s => s.powerSample watts die temps) hrun rfl ?sample,
    fun failed => completes_act hrun (exec_crystalFail_eq s) ?failed, fun good => completes_act hrun (exec_crystalFail_eq s) ?crystal⟩
  case refused =>
    have reason : s.entryReason ≠ 0 ∧ s.entryReason = if (List.range 64).any fun p => s.enabled p && s.rd F.PTN_PART_state p != ptnQuiesced then 1
        else if s.pwr.entry.isSome || s.rd F.LAY_STATUS_busy == 1 then 2 else 3 := by
      unfold State.entryReason
      simp only [Bool.or_eq_true] at bad ⊢
      split_ifs with h1 h2 h3
      · exact ⟨by decide, rfl⟩
      · exact ⟨by decide, rfl⟩
      · exact ⟨by decide, rfl⟩
      · exact absurd bad (by tauto)
    have row := enterRow_refused hrun hm hc reason.1
    rw [reason.2] at row
    exact row
  case begins =>
    unfold State.entryReason
    simp only [Bool.or_eq_false_iff] at good
    obtain ⟨⟨h1, h2, h3⟩, h4⟩ := good
    rw [h1, h2, h3, h4]
    rfl
  case quiet =>
    obtain ⟨regs, mem, pwr, pin⟩ := s.wakePin_keeps cause level
    have same : (if cause = 1 ∧ !level then s.wakePin cause level else (s.wakePin cause level).wake cause) = s.wakePin cause level := by
      obtain ⟨rfl, rfl⟩ | awake := quiet
      · rfl
      · rw [State.wake_awake (by rw [pwr, awake]), ite_self]
    rw [same]
    exact ⟨regs, mem, pwr, pin⟩
  case wakes =>
    obtain ⟨-, -, pwr, -⟩ := s.wakePin_keeps cause level
    have still : (s.wakePin cause level).pwr.asleep = some st := by rw [pwr, sleeps]
    rw [if_neg (by simpa using wakes), State.wake, still]
    refine ⟨s.wakePin cause level, _, ?_, rfl, rfl⟩
    unfold State.wakePin
    split_ifs
    exacts [.inr rfl, .inl rfl]
  case sample =>
    obtain ⟨u, umem, upower, ucount, upwr, log⟩ := s.powerSample_only watts die temps
    obtain ⟨power, mem, gate, shown, count⟩ := u.gated_shows (s.gateNext watts die temps)
    have after : (s.powerSample watts die temps).pwr.gate = s.gateNext watts die temps := (congrArg PwrSt.gate log.pwr).trans gate
    rw [ucount, upwr] at count
    rw [State.pwr_requeue, after]
    exact ⟨(log.rd _ _ rfl).trans (power.trans upower), log.mem.trans (mem.trans umem), s.gateNext_eq watts die temps, (log.rd _ _ rfl).trans shown,
      (log.rd _ _ rfl).trans count⟩
  case failed =>
    rw [if_pos failed]
    exact ⟨rfl, rfl⟩
  case crystal =>
    obtain ⟨v, eq, rc, xtal, count, mem⟩ := s.crystalFail_eq false
    rw [if_neg good, eq]
    exact ⟨v, rfl, rc, xtal, count, mem⟩

end Sys2Proof.Machine
end

section
/-! PROOFS. The memory tiers (R357, R361, R362, R367, R368, R371, R372, R495): recalibration and repair, scrub, the larder's banks, granules, and
blocks sent again. -/

namespace Sys2Proof.Machine

theorem RegOnly.tier {r : Reg} {s t : State} (h : RegOnly r s t) : t.tier = s.tier := by obtain ⟨_, _, _, rfl, _⟩ := h; rfl

/-! ### Memory that is cleared (R355) -/

theorem Memory.get_clear (m : List Host.Cell) {lo n a : Nat} (h : lo ≤ a) (h' : a < lo + n) : Memory.get (Memory.clear m lo n) a = 0 := by
  refine Tbl.getD_of_absent (t := Memory.clear m lo n) fun q hq => ?_
  rintro rfl
  obtain ⟨-, outside⟩ := List.mem_filter.1 hq
  simp [h, h'] at outside

/-! ### Lanes of a channel (R371) -/

/-- One lane more is out of service in TEL_SPARE. -/
theorem State.laneGone_only (s : State) : RegOnly .TEL_SPARE s s.laneGone := s.spareCounts_only ..

theorem State.laneGone_counts (s : State) : s.laneGone.rd F.TEL_SPARE_retired 3 = min 255 (s.rd F.TEL_SPARE_retired 3 + 1) := by
  rw [State.laneGone, State.spareCounts, State.rd_logEv _ _ _ _ _ _ _ _ _ rfl, State.rd_wr_self _ _ _ _ (by decide)]
  exact Nat.mod_eq_of_lt (Nat.lt_of_le_of_lt (Nat.min_le_left ..) (by decide))

/-- A lane repaired, before it is counted in TEL_SPARE. -/
def State.laneTaken (s : State) (c : Nat) : State :=
  let s := { s with tier := { s.tier with lanes := Tbl.set s.tier.lanes c (Tbl.getD s.tier.lanes c 0 + 1) } }
  (s.bump F.HBM_LANE_REPAIR).bumpSat F.HBM_STACK_lanes_repaired (c / 32)

/-- A channel with no lane left is FENCED. -/
theorem State.fenceChannel_appends {s : State} {c : Nat} (live : s.tier.fenced.contains c = false) : ∃ u : State, u.tier.fenced = s.tier.fenced ++ [c] ∧ u.regs = s.regs ∧ u.mem = s.mem ∧ LogOnly u (s.fenceChannel c) := by
  refine ⟨{ s with tier := { s.tier with fenced := s.tier.fenced ++ [c] } }, rfl, rfl, rfl, ?_⟩
  rw [State.fenceChannel, if_neg (by rw [live]; decide)]
  dsimp only
  split
  · exact State.logEv_only ..
  · exact State.logEv_only ..

section
variable {s : State} {c : Nat} (on : bitAt (s.rd F.HBM_STACK_in_service (c / 32)) (c % 32) = true) (live : s.tier.fenced.contains c = false)
include on live

theorem State.laneRepair_eq (left : Bool) : s.laneRepair c left =
    if left then (((s.laneTaken c).laneGone).logEv .HBM .retired 3 c c).logEv .HBM .spareMapped 3 c c
    else ((s.fenceChannel c).laneGone).logEv .HBM .retired 3 c c := by
  rw [State.laneRepair, if_neg (by rw [on, live]; decide)]
  rfl

theorem State.laneRepair_repairs : Tbl.getD (s.laneRepair c true).tier.lanes c 0 = Tbl.getD s.tier.lanes c 0 + 1 ∧
    (s.laneRepair c true).rd F.HBM_LANE_REPAIR = (s.rd F.HBM_LANE_REPAIR + 1) % 2 ^ F.HBM_LANE_REPAIR.width ∧
    (s.laneRepair c true).rd F.TEL_SPARE_retired 3 = min 255 (s.rd F.TEL_SPARE_retired 3 + 1) ∧ (s.laneRepair c true).mem = s.mem := by
  have log := ((s.laneTaken c).laneGone.logEv_only .HBM .retired 3 c c false).trans (State.logEv_only _ .HBM .spareMapped 3 c c false)
  have gone := (s.laneTaken c).laneGone_only
  have taken : ∀ f i, f.reg ≠ .HBM_STACK → (s.laneTaken c).rd f i = (s.bump F.HBM_LANE_REPAIR).rd f i := fun f i h =>
    (State.rd_wr_reg _ _ _ _ _ _ h).trans (State.rd_of_regs rfl f i)
  rw [State.laneRepair_eq on live, if_pos rfl]
  refine ⟨?_, (log.rd _ _ rfl).trans ((gone.rd _ _ rfl (by decide)).trans ((taken _ _ (by decide)).trans (State.rd_bump_self _ _ _ _ (by decide)))),
    (log.rd _ _ rfl).trans (((s.laneTaken c).laneGone_counts).trans ?_), log.mem.trans gone.mem⟩
  · rw [log.tier, gone.tier]
    exact Tbl.getD_set_self ..
  · rw [taken _ _ (by decide), State.rd_bump_ne _ _ _ _ _ _ (.inl (by decide))]

theorem State.laneRepair_fences : (s.laneRepair c false).tier.fenced = s.tier.fenced ++ [c] ∧
    (s.laneRepair c false).rd F.TEL_SPARE_retired 3 = min 255 (s.rd F.TEL_SPARE_retired 3 + 1) ∧ (s.laneRepair c false).mem = s.mem := by
  obtain ⟨u, fenced, regs, mem, told⟩ := State.fenceChannel_appends live
  have log := (s.fenceChannel c).laneGone.logEv_only .HBM .retired 3 c c false
  have gone := (s.fenceChannel c).laneGone_only
  rw [State.laneRepair_eq on live, if_neg (by decide)]
  refine ⟨?_, (log.rd _ _ rfl).trans ((s.fenceChannel c).laneGone_counts.trans ?_), log.mem.trans (gone.mem.trans (told.mem.trans mem))⟩
  · rw [log.tier, gone.tier, told.tier, fenced]
  · rw [told.rd _ _ rfl, State.rd_of_regs regs]

end

/-! ### Scrub (R358, R372) -/

/-- The tiers' injection points let a pass by. -/
theorem State.eccPoint_idle {s : State} (idle : s.inj = none) (t part : Nat) (off : Option Nat) : s.eccPoint t part off = (false, s) := by
  simp [State.eccPoint, State.inject_idle idle]

/-- A pass over a tier with nothing poisoned and nothing in error handles what it finds. -/
theorem State.scrubPass_finds {s : State} {k : Nat} (idle : s.inj = none) (sound : (s.tier.poison.filter fun w => tierOf w == k && decide (w < ctlBase)) = [])
    (clear : (s.tier.flaws.filter fun q => tierOf q.1 == k) = []) (fixed clean bad : List Nat) : s.scrubPass k fixed clean bad =
      let u := bad.foldl (fun s a => s.poisonAt k a) (clean.foldl (fun s _ => s.transientAt k) (fixed.foldl (fun s a => s.corrected k a) s))
      if k = 2 then (u.bump F.LRD_SCRUB_PASS).failPoisoned else u := by
  unfold State.scrubPass
  simp only [sound, clear, List.foldl_nil, State.eccPoint_idle idle]

/-! ### Banks of the larder (R367, R368) -/

theorem State.setBank_only (s : State) (b st : Nat) : RegOnly .LRD_BANK s (s.setBank b st) := (RegOnly.wr s F.LRD_BANK_state st b).logEv ..

theorem State.setBank_state (s : State) (b : Nat) {st : Nat} (h : st < 8) : (s.setBank b st).rd F.LRD_BANK_state b = st := by
  rw [State.setBank, State.rd_logEv _ _ _ _ _ _ _ _ _ rfl, State.rd_wr_self _ _ _ _ (by decide)]
  exact Nat.mod_eq_of_lt h

theorem State.setBank_phys (s : State) (b st i : Nat) : (s.setBank b st).rd F.LRD_BANK_phys i = s.rd F.LRD_BANK_phys i := by
  rw [State.setBank, State.rd_logEv _ _ _ _ _ _ _ _ _ rfl, State.rd_wr_bits _ F.LRD_BANK_phys F.LRD_BANK_state _ _ _ rfl (by decide) (by decide)]

theorem State.showBanks_only (s : State) : RegOnly .TEL_SPARE s s.showBanks := s.spareCounts_only ..

theorem State.showPool_only (s : State) : RegOnly .TAL_POOL s s.showPool := RegOnly.wr s F.TAL_POOL_unreserved_free _ 0

theorem State.retireBank_fails {s : State} {b : Nat} (hb : b < 256) (serves : s.rd F.LRD_BANK_state b < 2) : s.retireBank b = s.failBank b :=
  if_neg (by omega)

/-- A failing bank with its slots free is RETIRED. -/
theorem State.bankRetired_retires {s : State} {b : Nat} (waits : s.tier.retiring.contains b = true) (free : s.poolReserved ≤ s.rd F.TAL_POOL_pool_max) :
    (s.bankRetired b).tier.retiring.contains b = false ∧ (s.bankRetired b).rd F.LRD_BANK_state b = 3 ∧ (s.bankRetired b).mem = s.mem := by
  let u : State := { s with tier := { s.tier with retiring := s.tier.retiring.filter (· != b) } }
  have eq : s.bankRetired b = ((u.setBank b 3).logEv .LRD .retired 4 b b).showBanks := if_neg (by simp [Nat.not_lt.2 free, List.contains_iff_mem.1 waits])
  have bank := u.setBank_only b 3
  have log := (u.setBank b 3).logEv_only .LRD .retired 4 b b false
  have shown := ((u.setBank b 3).logEv .LRD .retired 4 b b).showBanks_only
  rw [eq]
  refine ⟨?_, (shown.rd _ _ rfl (by decide)).trans ((log.rd _ _ rfl).trans (u.setBank_state b (by decide))), shown.mem.trans (log.mem.trans bank.mem)⟩
  rw [shown.tier, log.tier, bank.tier]
  show (s.tier.retiring.filter (· != b)).contains b = false
  simp

/-- A spare mapped to a bank that needs it: the copy begins. -/
theorem State.mapBank_copies {s : State} {b k : Nat} (hb : b < 256) (hk : k < 8) (idle : s.rd F.LRD_SPARE_MAP_go = 0) (serves : s.rd F.LRD_BANK_state b ≠ 0)
    (own : s.rd F.LRD_BANK_state b ≠ 4) (free : bitAt (s.rd F.LRD_SPARE_STATE_free) k = true) : (s.mapBank b k).tier.mapping = some (b, k) ∧
    (s.mapBank b k).rd F.LRD_SPARE_MAP_go = 1 ∧ (s.mapBank b k).rd F.LRD_SPARE_MAP_bank = b ∧ (s.mapBank b k).rd F.LRD_SPARE_MAP_spare = k ∧
    (s.mapBank b k).mem = s.mem := by
  have eq : s.mapBank b k = ((State.wr { s with tier := { s.tier with mapping := some (b, k) } } F.LRD_SPARE_MAP_bank b).wr F.LRD_SPARE_MAP_spare k).wr
      F.LRD_SPARE_MAP_go 1 := if_neg (by simp [idle, serves, own, free]; omega)
  rw [eq]
  refine ⟨rfl, State.rd_wr_self _ F.LRD_SPARE_MAP_go _ _ (by decide), ?_, ?_, rfl⟩
  · simp (disch := decide) only [State.rd_wr_bits, State.rd_wr_self]
    exact Nat.mod_eq_of_lt (Nat.lt_of_lt_of_le hb (by decide))
  · simp (disch := decide) only [State.rd_wr_bits, State.rd_wr_self]
    exact Nat.mod_eq_of_lt (Nat.lt_of_lt_of_le hk (by decide))

/-- A bank that a spare serves, with what it had lost of the pool back, before its own state is set. -/
def State.spareServes (s : State) (b k : Nat) : State :=
  let old := s.rd F.LRD_BANK_state b
  let s := s.wr F.LRD_BANK_phys (256 + k) b
  let s := s.wr F.LRD_SPARE_STATE_free (clearBit (s.rd F.LRD_SPARE_STATE_free) k)
  let s := { s with tier := { s.tier with retiring := s.tier.retiring.filter (· != b) } }
  let s := if 16 ≤ b ∧ (old = 2 ∨ old = 3) then (s.wr F.TAL_POOL_pool_max (s.rd F.TAL_POOL_pool_max + 12)).showPool else s
  if old = 3 then s else s.logEv .LRD .retired 4 b b

theorem State.spareServes_leaves (s : State) (b k : Nat) : (s.spareServes b k).rd F.LRD_BANK_phys b = (256 + k) % 2 ^ F.LRD_BANK_phys.width ∧
    (s.spareServes b k).rd F.LRD_SPARE_MAP_go = s.rd F.LRD_SPARE_MAP_go ∧ (s.spareServes b k).tier.mapping = s.tier.mapping ∧
    (s.spareServes b k).mem = s.mem := by
  let u : State := (s.wr F.LRD_BANK_phys (256 + k) b).wr F.LRD_SPARE_STATE_free (clearBit ((s.wr F.LRD_BANK_phys (256 + k) b).rd F.LRD_SPARE_STATE_free) k)
  let v : State := { u with tier := { u.tier with retiring := u.tier.retiring.filter (· != b) } }
  have pool : ∀ p : Prop, [Decidable p] → RegOnly .TAL_POOL v (if p then (v.wr F.TAL_POOL_pool_max (v.rd F.TAL_POOL_pool_max + 12)).showPool else v) := fun p _ => by
    split
    · exact (RegOnly.wr v F.TAL_POOL_pool_max _ 0).trans (State.showPool_only _)
    · exact .refl _ v
  have only : RegOnly .TAL_POOL v (s.spareServes b k) := by
    unfold State.spareServes
    dsimp only
    split
    · exact pool _
    · exact (pool _).logEv ..
  have rd : ∀ f i, f.reg.isLog = false → f.reg ≠ .TAL_POOL → f.reg ≠ .LRD_SPARE_STATE →
      (s.spareServes b k).rd f i = (s.wr F.LRD_BANK_phys (256 + k) b).rd f i := fun f i hl hp hs =>
    (only.rd f i hl hp).trans ((State.rd_of_regs (s := u) (t := v) rfl f i).trans (State.rd_wr_reg _ _ _ _ _ _ hs))
  refine ⟨(rd _ _ rfl (by decide) (by decide)).trans (State.rd_wr_self _ _ _ _ (by decide)),
    (rd _ _ rfl (by decide) (by decide)).trans (State.rd_wr_reg _ _ _ _ _ _ (by decide)), ?_, only.mem⟩
  rw [only.tier]
  rfl

theorem State.spareBank_eq (s : State) (b k : Nat) :
    s.spareBank b k = (((s.spareServes b k).setBank b 4).logEv .LRD .spareMapped 4 (k * 256 + b) b).showBanks := rfl

/-- The switch: `go` is cleared and the spare serves. -/
theorem State.spareSwitch_switches {s : State} {b k : Nat} (maps : s.tier.mapping = some (b, k)) (free : bitAt (s.rd F.LRD_SPARE_STATE_free) k = true) :
    s.spareSwitch.tier.mapping = none ∧ s.spareSwitch.rd F.LRD_SPARE_MAP_go = 0 ∧ s.spareSwitch.rd F.LRD_BANK_state b = 4 ∧
    s.spareSwitch.rd F.LRD_BANK_phys b = (256 + k) % 2 ^ F.LRD_BANK_phys.width ∧ s.spareSwitch.mem = s.mem := by
  let u : State := State.wr { s with tier := { s.tier with mapping := none } } F.LRD_SPARE_MAP_go 0
  have free' : bitAt (u.rd F.LRD_SPARE_STATE_free) k = true := by
    rwa [show u.rd F.LRD_SPARE_STATE_free = s.rd F.LRD_SPARE_STATE_free from State.rd_wr_reg _ F.LRD_SPARE_STATE_free F.LRD_SPARE_MAP_go _ _ _ (by decide)]
  have eq : s.spareSwitch = u.spareBank b k := by
    rw [State.spareSwitch, maps]
    exact if_pos free'
  obtain ⟨phys, go, mapping, mem⟩ := u.spareServes_leaves b k
  have bank := (u.spareServes b k).setBank_only b 4
  have log := ((u.spareServes b k).setBank b 4).logEv_only .LRD .spareMapped 4 (k * 256 + b) b false
  have shown := (((u.spareServes b k).setBank b 4).logEv .LRD .spareMapped 4 (k * 256 + b) b).showBanks_only
  have rd : ∀ f i, f.reg.isLog = false → f.reg ≠ .TEL_SPARE → s.spareSwitch.rd f i = ((u.spareServes b k).setBank b 4).rd f i := fun f i hl h => by
    rw [eq, State.spareBank_eq]
    exact (shown.rd f i hl h).trans (log.rd f i hl)
  refine ⟨?_, (rd _ _ rfl (by decide)).trans ((bank.rd _ _ rfl (by decide)).trans (go.trans (State.rd_wr_self _ _ _ _ (by decide)))),
    (rd _ _ rfl (by decide)).trans (State.setBank_state _ b (by decide)), (rd _ _ rfl (by decide)).trans ((State.setBank_phys ..).trans phys), ?_⟩
  · rw [eq, State.spareBank_eq, shown.tier, log.tier, bank.tier, mapping]
    rfl
  · rw [eq, State.spareBank_eq, shown.mem, log.mem, bank.mem, mem]
    rfl

/-! ### Granules (R355, R495) -/

/-- A granule's partition is told, which is registers alone. -/
theorem State.partLive_keeps (s : State) (p : Nat) : (s.partLive p).tier = s.tier ∧ (s.partLive p).mem = s.mem := by
  unfold State.partLive
  split
  · exact ⟨State.tier_logEv .., State.mem_logEv ..⟩
  · exact ⟨rfl, rfl⟩

theorem State.showZeroing_keeps (s : State) : s.showZeroing.tier = s.tier ∧ s.showZeroing.mem = s.mem := by
  unfold State.showZeroing
  exact ⟨State.tier_wr .., State.mem_wr ..⟩

/-- A granule's bytes are zero, and it waits no more. -/
def State.granuleFreed (s : State) (tier g z : Nat) : State :=
  let s := s.zeroGranule tier g
  { s with tier := { s.tier with zeroing := s.tier.zeroing.filter fun y => y.1 != z } }

theorem State.showFree_keeps (s : State) : s.showFree.tier = s.tier ∧ s.showFree.mem = s.mem := by
  unfold State.showFree
  dsimp only
  rw [State.tier_wr, State.tier_wr, State.mem_wr, State.mem_wr]
  exact ⟨rfl, rfl⟩

theorem State.granuleZeroed_zeroes {s : State} {tier g : Nat} (z : Nat × Nat) (hz : z.1 = tier * 4096 + g)
    (waits : s.tier.zeroing.find? (fun z => z.1 == tier * 4096 + g) = some z) :
    ((s.granuleZeroed tier g).tier.zeroing.any fun z => z.1 == tier * 4096 + g) = false ∧
    (s.granuleZeroed tier g).mem = Memory.clear s.mem (tierBase tier + g * 2 ^ 30) (2 ^ 30) := by
  have eq : s.granuleZeroed tier g =
      if z.2 < 64 then (s.granuleFreed tier g z.1).showFree.showZeroing.partLive z.2 else (s.granuleFreed tier g z.1).showFree := by
    rw [State.granuleZeroed, waits]
    rfl
  have same : ∀ u : State, ((if z.2 < 64 then u.showFree.showZeroing.partLive z.2 else u.showFree).tier = u.tier) ∧
      ((if z.2 < 64 then u.showFree.showZeroing.partLive z.2 else u.showFree).mem = u.mem) := fun u => by
    obtain ⟨tier1, mem1⟩ := u.showFree_keeps
    obtain ⟨tier2, mem2⟩ := u.showFree.showZeroing_keeps
    obtain ⟨tier3, mem3⟩ := u.showFree.showZeroing.partLive_keeps z.2
    split
    · exact ⟨tier3.trans (tier2.trans tier1), mem3.trans (mem2.trans mem1)⟩
    · exact ⟨tier1, mem1⟩
  rw [eq, (same _).1, (same _).2]
  refine ⟨?_, rfl⟩
  show ((s.tier.zeroing.filter fun y => y.1 != z.1).any fun z => z.1 == tier * 4096 + g) = false
  rw [hz, List.any_filter]
  simp

/-! ### Blocks sent again (R361, R362) -/

/-- A re-send, counted as a register and as an event. -/
def State.resent (s : State) : State := (s.bump F.LRD_BLK_RESEND).evt 13

theorem State.resent_keeps (s : State) : s.resent.rd F.LRD_BLK_RESEND = (s.rd F.LRD_BLK_RESEND + 1) % 2 ^ F.LRD_BLK_RESEND.width ∧
    s.resent.tier = s.tier ∧ s.resent.ops = s.ops ∧ s.resent.mem = s.mem ∧ s.resent.outbox = s.outbox := by
  have only := (s.bump F.LRD_BLK_RESEND).evt_only 13
  exact ⟨(only.rd _ _ rfl (by decide)).trans (State.rd_bump_self _ _ _ _ (by decide)), only.tier, only.ops, only.mem, only.outbox⟩

/-- The count of a block's failed re-sends. -/
def State.resendsSet (s : State) (t : Tbl Nat) : State := { s with tier := { s.tier with resends := t } }

theorem State.blockResend_eq (s : State) (block kind unit : Nat) (use : BlockUse) (ok : Bool) : s.blockResend block kind unit use ok =
    if ok then (s.resent.resendsSet (Tbl.erase s.tier.resends block)).dropKept block true
    else if Tbl.getD s.tier.resends block 0 + 1 < 3 then s.resent.resendsSet (Tbl.set s.tier.resends block (Tbl.getD s.tier.resends block 0 + 1))
    else ((((((s.resent.resendsSet (Tbl.erase s.tier.resends block)).dropKept block false).blkExhausted use.source block false).blockLost
      kind unit use.reader).usedUp kind unit).cmnRun) := by
  obtain ⟨-, tier, -⟩ := s.resent_keeps
  rw [← tier]
  rfl

/-- The copy that the sender kept is gone; passed on, it is sent. -/
theorem State.dropKept_drops {s : State} {block : Nat} {f : List Byte} (kept : Tbl.get? s.tier.kept block = some f) :
    Tbl.get? (s.dropKept block true).tier.kept block = none ∧ (s.dropKept block true).outbox = s.outbox ++ [.flit (block / (131072 * 32768)) f] := by
  unfold State.dropKept
  rw [kept]
  exact ⟨Tbl.get?_erase_self .., rfl⟩

theorem State.dropKept_keeps (s : State) (block : Nat) (accepted : Bool) : (s.dropKept block accepted).tier.resends = s.tier.resends ∧
    (s.dropKept block accepted).regs = s.regs ∧ (s.dropKept block accepted).ops = s.ops ∧ (s.dropKept block accepted).mem = s.mem := by
  unfold State.dropKept
  split
  · exact ⟨rfl, rfl, rfl, rfl⟩
  · cases accepted <;> exact ⟨rfl, rfl, rfl, rfl⟩

/-! ### The rows -/

section
variable {s : State} {block kind unit : Nat} {use : BlockUse} (hrun : s.power = .run) (hu : unit < unitsOf kind)
include hrun hu

theorem blockResend_completes {ok : Bool} {P : State → Prop} (p : P ((s.blockResend block kind unit use ok).requeue s.pending)) :
    Completes (.blockResend block kind unit use ok) s P := completes_actOn hrun rfl (decide_eq_true hu) p

/-- A block that arrives whole is passed on from the copy kept. -/
theorem blockResend_passes {f : List Byte} (kept : Tbl.get? s.tier.kept block = some f) : Completes (.blockResend block kind unit use true) s fun t =>
    Tbl.get? t.tier.kept block = none ∧ t.outbox = s.outbox ++ [.flit (block / (131072 * 32768)) f] := by
  refine blockResend_completes hrun hu ?_
  obtain ⟨-, tier, -, -, outbox⟩ := s.resent_keeps
  rw [State.blockResend_eq, if_pos rfl, ← outbox]
  exact State.dropKept_drops (s := s.resent.resendsSet (Tbl.erase s.tier.resends block)) (by rw [← kept, ← tier]; rfl)

/-- And its failures are forgotten. -/
theorem blockResend_forgets : Completes (.blockResend block kind unit use true) s fun t => Tbl.get? t.tier.resends block = none ∧
    t.rd F.LRD_BLK_RESEND = (s.rd F.LRD_BLK_RESEND + 1) % 2 ^ F.LRD_BLK_RESEND.width ∧ t.ops = s.ops ∧ t.mem = s.mem := by
  refine blockResend_completes hrun hu ?_
  obtain ⟨count, -, ops, mem, -⟩ := s.resent_keeps
  obtain ⟨resends, regs, ops', mem'⟩ := (s.resent.resendsSet (Tbl.erase s.tier.resends block)).dropKept_keeps block true
  rw [State.blockResend_eq, if_pos rfl]
  refine ⟨?_, (State.rd_of_regs regs _ _).trans count, ops'.trans ops, mem'.trans mem⟩
  rw [State.tier_requeue, resends]
  exact Tbl.get?_erase_self ..

/-- One of the first two failures is counted against the block. -/
theorem blockResend_counts (few : Tbl.getD s.tier.resends block 0 < 2) : Completes (.blockResend block kind unit use false) s fun t =>
    Tbl.get? t.tier.resends block = some (Tbl.getD s.tier.resends block 0 + 1) ∧
    t.rd F.LRD_BLK_RESEND = (s.rd F.LRD_BLK_RESEND + 1) % 2 ^ F.LRD_BLK_RESEND.width ∧ t.ops = s.ops ∧ t.mem = s.mem := by
  refine blockResend_completes hrun hu ?_
  obtain ⟨count, -, ops, mem, -⟩ := s.resent_keeps
  rw [State.blockResend_eq, if_neg (by decide), if_pos (by omega)]
  exact ⟨Tbl.get?_set_self .., count, ops, mem⟩

/-- The third is the last. -/
theorem blockResend_exhausts (many : 2 ≤ Tbl.getD s.tier.resends block 0) : Completes (.blockResend block kind unit use false) s fun t =>
    let v := (s.bump F.LRD_BLK_RESEND).evt 13
    let w := State.dropKept { v with tier := { v.tier with resends := Tbl.erase v.tier.resends block } } block false
    t = ((((w.blkExhausted use.source block false).blockLost kind unit use.reader).usedUp kind unit).cmnRun).requeue s.pending := by
  refine blockResend_completes hrun hu ?_
  obtain ⟨-, tier, -⟩ := s.resent_keeps
  rw [State.blockResend_eq, if_neg (by decide), if_neg (by omega), ← tier]
  rfl

end

theorem scrubRow_completes {s : State} {k : Nat} {fixed clean bad : List Nat} {P : State → Prop} (hrun : s.power = .run) (hk : k < 3)
    (p : P ((s.scrubPass k fixed clean bad).requeue s.pending)) : Completes (.scrubPass k fixed clean bad) s P :=
  completes_actOn hrun rfl (decide_eq_true hk) p

/-- A pass over a sound larder is only counted. -/
theorem scrubPass_larder {s : State} (hrun : s.power = .run) (idle : s.inj = none) (sound : s.tier.poison = []) (clear : s.tier.flaws = []) :
    Completes (.scrubPass 2 [] [] []) s fun t => ∃ u : State, t = u.failPoisoned.requeue s.pending ∧
      u.rd F.LRD_SCRUB_PASS = (s.rd F.LRD_SCRUB_PASS + 1) % 2 ^ F.LRD_SCRUB_PASS.width ∧ u.tier = s.tier ∧ u.mem = s.mem := by
  refine scrubRow_completes hrun (by decide) ?_
  rw [State.scrubPass_finds idle (by rw [sound]; rfl) (by rw [clear]; rfl)]
  exact ⟨s.bump F.LRD_SCRUB_PASS, rfl, State.rd_bump_self _ _ _ _ (by decide), State.tier_bump .., State.mem_bump ..⟩

/-- Settles O36: each row by the part of the tiers that it names. -/
theorem memoryTiers : Obligations.MemoryTiers := by
  intro s hrun
  refine ⟨fun tier g ht hg => completes_actOn hrun rfl (by simp [ht, hg]) rfl, fun b hb => completes_actOn hrun rfl (decide_eq_true hb) rfl,
    completes_act hrun rfl rfl, fun c left hc => completes_actOn hrun rfl (decide_eq_true hc) rfl, fun c hc on => ?hbm, fun c hc on => ?ddr,
    fun k fixed clean bad hk idle sound clear => completes_actOn hrun rfl (decide_eq_true (by omega)) ?scrub,
    fun k fixed clean bad hk => completes_actOn hrun rfl (decide_eq_true hk) rfl,
    fun idle sound clear => scrubPass_larder hrun idle sound clear, fun b hb => ?banks,
    fun tier g part ht hg waits => completes_actOn hrun rfl (by simp [ht, hg]) ?granule,
    fun block kind unit use hu => ⟨fun f kept => blockResend_passes hrun hu kept, blockResend_exhausts hrun hu, blockResend_forgets hrun hu,
      blockResend_counts hrun hu⟩⟩
  case hbm =>
    have here := decide_eq_true hc
    refine ⟨completes_actOn hrun rfl here ?_, fun delayed => completes_actOn hrun rfl here (by rw [if_pos on]; rfl),
      fun live => ⟨completes_actOn hrun rfl here (State.laneRepair_repairs on live), completes_actOn hrun rfl here (State.laneRepair_fences on live)⟩⟩
    rw [if_pos on]
    exact ⟨State.rd_bump_self _ F.HBM_RECAL _ _ (by decide), rfl, rfl⟩
  case ddr =>
    have here := decide_eq_true hc
    refine ⟨completes_actOn hrun rfl here ?_, fun delayed => completes_actOn hrun rfl here (by rw [if_pos on]; rfl)⟩
    rw [if_pos on]
    exact ⟨State.rd_bump_self _ F.DDR_RECAL _ _ (by decide), rfl, rfl⟩
  case scrub =>
    rw [State.scrubPass_finds idle sound clear]
    exact congrArg (State.requeue · s.pending) (if_neg (by omega))
  case banks =>
    have here := decide_eq_true hb
    refine ⟨fun hm serves => heldRow_completesOn hrun here hm rfl ?_, fun waits free => completes_actOn hrun rfl here (State.bankRetired_retires waits free),
      fun k hm hk idle serves own free => heldRow_completesOn hrun (by simp [hb, hk]) hm rfl ?_,
      fun k hk maps free => completes_act hrun rfl (State.spareSwitch_switches maps free)⟩
    · rw [State.retireBank_fails hb (by rwa [State.touchSession_rd])]
    · have rd := s.touchSession_rd
      obtain ⟨mapping, go, bank, spare, mem⟩ := State.mapBank_copies hb hk ((rd _ _).trans idle) (by rwa [rd]) (by rwa [rd]) (by rwa [rd])
      exact ⟨mapping, go, bank, spare, mem.trans s.touchSession_mem⟩
  case granule =>
    obtain ⟨zeroing, mem⟩ := State.granuleZeroed_zeroes _ rfl waits
    refine ⟨zeroing, fun a lo hi => ?_⟩
    rw [State.mem_requeue, mem]
    have base : tierBase tier = if tier = 0 then hbmBase else ddrBase := by
      obtain rfl | rfl : tier = 0 ∨ tier = 1 := by omega
      · rfl
      · rfl
    rw [← base] at lo hi
    exact Memory.get_clear _ lo (by omega)

end Sys2Proof.Machine
end

section
/-! PROOFS. Storage targets (R417, R419, R428, R431): what sending on a target's queue leaves, how a connection begins, fails and is kept. -/

namespace Sys2Proof.Machine

/-! ### Sending (R417, R418) -/

/-- A PDU may leave, and the ports of targets be chosen; nothing else of the device changes. -/
structure SentOn (s t : State) : Prop where
  only : ∃ (k : Tbl CkpTgt) (o : List Output), t = { s with ckp := { s.ckp with tgts := k }, outbox := o }
  tgt : ∀ y, ∃ (p : Tbl Nat) (r : Nat), t.tgt y = { s.tgt y with ports := p, rot := r }

section
variable {s t u : State}

theorem SentOn.refl (s : State) : SentOn s s := ⟨⟨s.ckp.tgts, s.outbox, rfl⟩, fun y => ⟨(s.tgt y).ports, (s.tgt y).rot, rfl⟩⟩

theorem SentOn.trans (h : SentOn s t) (k : SentOn t u) : SentOn s u := by
  obtain ⟨⟨_, _, rfl⟩, ht⟩ := h
  obtain ⟨⟨k', o', rfl⟩, hu⟩ := k
  refine ⟨⟨k', o', rfl⟩, fun y => ?_⟩
  obtain ⟨_, _, e⟩ := ht y
  obtain ⟨p, r, e'⟩ := hu y
  exact ⟨p, r, by rw [e', e]⟩

theorem SentOn.regs (h : SentOn s t) : t.regs = s.regs := by obtain ⟨_, _, rfl⟩ := h.only; rfl
theorem SentOn.mem (h : SentOn s t) : t.mem = s.mem := by obtain ⟨_, _, rfl⟩ := h.only; rfl
theorem SentOn.streams (h : SentOn s t) : t.ckp.streams = s.ckp.streams := by obtain ⟨_, _, rfl⟩ := h.only; rfl
theorem SentOn.rd (h : SentOn s t) (f : Fld) (i : Nat) : t.rd f i = s.rd f i := State.rd_of_regs h.regs f i

end

@[simp] theorem State.tgt_setTgt_self (s : State) (x : Nat) (k : CkpTgt) : (s.setTgt x k).tgt x = k := Tbl.getD_set_self _ _ _ _

theorem State.tgt_setTgt (s : State) (x y : Nat) (k : CkpTgt) : (s.setTgt x k).tgt y = if y = x then k else s.tgt y := by
  unfold State.tgt State.setTgt
  simp only [Tbl.getD, Tbl.get?_set]
  split_ifs <;> rfl

/-- The choice of a port changes the ports of its target alone. -/
theorem State.tgtPort_sends (s : State) (x q : Nat) : SentOn s (s.tgtPort x q).2 := by
  have chooses : ∀ up, SentOn s (State.tgtPort.choose s x q (s.tgt x) up).2 := fun up => by
    unfold State.tgtPort.choose
    split
    · refine ⟨⟨_, s.outbox, rfl⟩, fun y => ?_⟩
      dsimp only
      rw [State.tgt_setTgt]
      split_ifs with h
      · subst h
        exact ⟨_, _, rfl⟩
      · exact ⟨(s.tgt y).ports, (s.tgt y).rot, rfl⟩
    · exact .refl s
  unfold State.tgtPort
  dsimp only
  split
  · split
    · exact .refl s
    · exact chooses _
  · exact chooses _

theorem State.nvmeSend_sends (s : State) (x q : Nat) (b : NvmeBody) : SentOn s (s.nvmeSend x q b) := by
  have chosen := s.tgtPort_sends x q
  unfold State.nvmeSend
  split
  next u h =>
    rw [h] at chosen
    exact chosen.trans ⟨⟨u.ckp.tgts, _, rfl⟩, fun y => ⟨(u.tgt y).ports, (u.tgt y).rot, rfl⟩⟩
  next u h =>
    rw [h] at chosen
    exact chosen

theorem State.closeQueues_sends (s : State) (x : Nat) : SentOn s (s.closeQueues x) :=
  List.foldlRecOn (s.tgt x).ports _ (motive := SentOn s) (.refl s) fun _ h _ _ => h.trans (State.nvmeSend_sends ..)

/-! ### A connection begins (R419) -/

/-- The registers of a target that connects. -/
def State.connectShown (s : State) (x : Nat) : State :=
  ((s.wr F.CKP_TGT_STATUS_state tgtConnecting x).wr F.CKP_TGT_STATUS_digests 0 x).wr F.CKP_TGT_STATUS_lba4k 0 x

theorem State.connectShown_shows (s : State) (x : Nat) : (s.connectShown x).rd F.CKP_TGT_STATUS_state x = tgtConnecting ∧
    (s.connectShown x).rd F.CKP_TGT_STATUS_digests x = 0 ∧ (s.connectShown x).rd F.CKP_TGT_STATUS_lba4k x = 0 := by
  unfold State.connectShown
  refine ⟨?_, ?_, ?_⟩
  all_goals simp (disch := decide) only [State.rd_wr_bits, State.rd_wr_self]
  all_goals rfl

/-- A target that connects: its registers, its admin queue first, its attempts, and memory. -/
structure Connecting (x attempts : Nat) (s t : State) : Prop where
  state : t.rd F.CKP_TGT_STATUS_state x = tgtConnecting
  digests : t.rd F.CKP_TGT_STATUS_digests x = 0
  lba4k : t.rd F.CKP_TGT_STATUS_lba4k x = 0
  queue : (t.tgt x).queue = 0
  attempts : (t.tgt x).attempts = attempts
  mem : t.mem = s.mem

theorem State.connectTgt_connects (s : State) (x attempts : Nat) : Connecting x attempts s (s.connectTgt x attempts) := by
  let u := s.setTgt x { ckpTgt0 with attempts := attempts, rot := (s.tgt x).rot }
  let v := (u.connectShown x).modTgt x fun k => { k with queue := 0, stage := 0 }
  have sent : SentOn v (s.connectTgt x attempts) := State.nvmeSend_sends ..
  obtain ⟨state, digests, lba4k⟩ := u.connectShown_shows x
  obtain ⟨p, r, tgt⟩ := sent.tgt x
  have own : v.tgt x = { ckpTgt0 with attempts := attempts, rot := (s.tgt x).rot, queue := 0, stage := 0 } := by
    have same : (u.connectShown x).tgt x = u.tgt x := rfl
    rw [show v = (u.connectShown x).setTgt x { (u.connectShown x).tgt x with queue := 0, stage := 0 } from rfl, State.tgt_setTgt_self, same,
      State.tgt_setTgt_self]
  rw [own] at tgt
  exact ⟨(sent.rd _ _).trans state, (sent.rd _ _).trans digests, (sent.rd _ _).trans lba4k, congrArg CkpTgt.queue tgt, congrArg CkpTgt.attempts tgt, sent.mem⟩

theorem State.tgtConnect_connects {s : State} {x : Nat} (sel : s.rd F.CKP_TGT_SEL_target = x) (ports : s.rd F.CKP_TGT_PORTS_port_mask x ≠ 0)
    (idle : s.tgtState x ≠ tgtConnecting) (unready : s.tgtState x ≠ tgtReady) : s.tgtConnect = s.connectTgt x 0 := by
  unfold State.tgtConnect
  dsimp only
  rw [sel, if_neg (not_or.2 ⟨ports, not_or.2 ⟨idle, unready⟩⟩)]

/-! ### A connection ends (R419, R428) -/

theorem State.failTgt_fails (s : State) (x : Nat) {reason : Nat} (h : reason < 16) :
    (s.failTgt x reason).rd F.CKP_TGT_STATUS_state x = tgtFailed ∧ (s.failTgt x reason).rd F.CKP_TGT_STATUS_reason x = reason := by
  obtain ⟨u, eq⟩ : ∃ u : State, s.failTgt x reason = ((u.wr F.CKP_TGT_STATUS_state tgtFailed x).wr F.CKP_TGT_STATUS_reason reason x).bump F.CKP_CONN_FAIL := by
    unfold State.failTgt
    exact ⟨_, rfl⟩
  rw [eq, State.rd_bump_ne _ _ _ _ _ _ (.inl (by decide)), State.rd_bump_ne _ _ _ _ _ _ (.inl (by decide))]
  constructor
  · simp (disch := decide) only [State.rd_wr_bits, State.rd_wr_self]
    rfl
  · rw [State.rd_wr_self _ _ _ _ (by decide)]
    exact Nat.mod_eq_of_lt (Nat.lt_of_lt_of_le h (by decide))

/-- Without a stream open there, no other target sees it. -/
theorem State.failTgt_apart {s : State} {x y : Nat} (alone : ∀ q ∈ s.ckp.streams, q.2.target ≠ x) (hy : y ≠ x) :
    (s.failTgt x 10).tgtState y = s.tgtState y := by
  have sent := s.closeQueues_sends x
  have none_ : ((s.closeQueues x).ckp.streams.filter fun q => q.2.target == x) = [] := by
    rw [sent.streams]
    exact List.filter_eq_nil_iff.2 fun q hq => by simpa using alone q hq
  have eq : s.failTgt x 10 = ((((s.closeQueues x).modTgt x fun k => { k with cmds := [] }).wr F.CKP_TGT_STATUS_state tgtFailed x).wr
      F.CKP_TGT_STATUS_reason 10 x).bump F.CKP_CONN_FAIL := by
    unfold State.failTgt State.dropStreams
    rw [if_neg (by decide)]
    dsimp only
    rw [none_]
    rfl
  rw [eq, State.tgtState, State.rd_bump_ne _ _ _ _ _ _ (.inl (by decide)), State.rd_wr_index _ _ _ _ _ _ hy, State.rd_wr_index _ _ _ _ _ _ hy]
  exact sent.rd _ _

/-! ### Keep Alives (R419, R428) -/

theorem State.nvmeCmd_regs (s : State) (x q stream : Nat) (j : CkpJob) (body : Nat → NvmeBody) : (s.nvmeCmd x q stream j body).regs = s.regs :=
  (State.nvmeSend_sends _ x q _).regs

theorem State.keepAlive_idle {s : State} {y : Nat} (h : s.tgtState y ≠ tgtReady) : s.keepAlive y = s := if_pos h

theorem State.keepAlive_ready {s : State} {x : Nat} (h : s.tgtState x = tgtReady) : s.keepAlive x =
    if (s.tgt x).cmds.any (fun c => c.job.kind == .keepAlive) then s.failTgt x 10
    else s.nvmeCmd x 0 256 ⟨.keepAlive, 0, 0, 0, 0⟩ fun c => NvmeBody.keepAlive c := if_neg (not_not.2 h)

/-- Where one target alone is READY, before and after its own, the timer's round is its Keep Alive. -/
theorem State.keepAlives_one {s : State} {x : Nat} (before : ∀ y, y < 64 → y ≠ x → s.tgtState y ≠ tgtReady)
    (after : ∀ y, y < 64 → y ≠ x → (s.keepAlive x).tgtState y ≠ tgtReady) (n : Nat) (hn : n ≤ 64) :
    (List.range n).foldl State.keepAlive s = if n ≤ x then s else s.keepAlive x := by
  induction n with
  | zero => rfl
  | succ n ih =>
    rw [List.range_succ, List.foldl_append, ih (by omega)]
    show State.keepAlive (if n ≤ x then s else s.keepAlive x) n = _
    obtain below | rfl | above := Nat.lt_trichotomy n x
    · rw [if_pos (by omega), if_pos (by omega), State.keepAlive_idle (before n (by omega) (by omega))]
    · rw [if_pos (by omega), if_neg (by omega)]
    · rw [if_neg (by omega), if_neg (by omega), State.keepAlive_idle (after n (by omega) (by omega))]

/-- The round of the timer, by whether the one READY target's last Keep Alive has its answer. -/
theorem State.keepAlives_round {s : State} {x : Nat} (hx : x < 64) (ready : s.tgtState x = tgtReady) (others : ∀ y, y < 64 → y ≠ x → s.tgtState y ≠ tgtReady) :
    if (s.tgt x).cmds.any (fun c => c.job.kind == .keepAlive)
    then (∀ q ∈ s.ckp.streams, q.2.target ≠ x) → (List.range 64).foldl State.keepAlive s = s.failTgt x 10
    else (List.range 64).foldl State.keepAlive s = s.nvmeCmd x 0 256 ⟨.keepAlive, 0, 0, 0, 0⟩ fun c => NvmeBody.keepAlive c := by
  have own := State.keepAlive_ready ready
  split_ifs at own ⊢ with waits
  · intro alone
    rw [State.keepAlives_one others (fun y hy hne => ?_) 64 (by omega), if_neg (by omega), own]
    rw [own, State.failTgt_apart alone hne]
    exact others y hy hne
  · rw [State.keepAlives_one others (fun y hy hne => ?_) 64 (by omega), if_neg (by omega), own]
    rw [own, State.tgtState, State.rd_of_regs (State.nvmeCmd_regs ..)]
    exact others y hy hne

/-! ### PDUs (R417, R428) -/

section
variable {s : State} {x : Nat}

theorem State.onNvme_closed (p : NvmePdu) (idle : s.tgtState x ≠ tgtConnecting) (unready : s.tgtState x ≠ tgtReady) : s.onNvme x p = s :=
  if_pos ⟨idle, unready⟩

theorem State.onNvme_opened {q : Nat} (st : s.tgtState x = tgtConnecting) (hq : q = (s.tgt x).queue) (stage : (s.tgt x).stage = 0) :
    s.onNvme x ⟨q, true, .tcpOpened⟩ = (s.modTgt x fun k => { k with stage := 1 }).nvmeSend x q .icReq := by
  subst hq
  simp [State.onNvme, st, stage]

theorem State.onNvme_reset {q : Nat} (st : s.tgtState x = tgtConnecting ∨ s.tgtState x = tgtReady) : s.onNvme x ⟨q, true, .tcpReset⟩ = s.failTgt x 1 := by
  unfold State.onNvme
  rw [if_neg (by tauto)]
  rfl

theorem State.onNvme_badDigest {q : Nat} {b : NvmeBody} (st : s.tgtState x = tgtConnecting ∨ s.tgtState x = tgtReady) (other : nvmeCid b = none) :
    s.onNvme x ⟨q, false, b⟩ = s.bump F.CKP_DIGEST_ERR := by
  unfold State.onNvme
  rw [if_neg (by tauto)]
  simp [other, State.onBadDigest]

end

/-! ### The rows -/

theorem exec_ckpKeepaliveTimer_eq (s : State) : exec .ckpKeepaliveTimer s = act s fun s => ((List.range 64).foldl State.keepAlive s).deal 18 := rfl

theorem exec_targetDisconnect_eq (s : State) : exec .targetDisconnect s = act s (asManager false fun s => s.tgtDisconnect.deal 18) := rfl

/-- DISCONNECT leaves the target IDLE and no command of it. -/
theorem State.tgtDisconnect_idles {s : State} {x : Nat} (sel : s.rd F.CKP_TGT_SEL_target = x) :
    s.tgtDisconnect.rd F.CKP_TGT_STATUS_state x = tgtIdle ∧ (s.tgtDisconnect.tgt x).cmds = [] := by
  obtain ⟨u, eq⟩ : ∃ u : State, s.tgtDisconnect = (u.setTgt x { ckpTgt0 with rot := (u.tgt x).rot }).wr F.CKP_TGT_STATUS_state tgtIdle x := by
    unfold State.tgtDisconnect
    rw [sel]
    exact ⟨_, rfl⟩
  rw [eq]
  refine ⟨State.rd_wr_self _ F.CKP_TGT_STATUS_state _ _ (by decide), ?_⟩
  have own : ((u.setTgt x { ckpTgt0 with rot := (u.tgt x).rot }).wr F.CKP_TGT_STATUS_state tgtIdle x).tgt x =
      (u.setTgt x { ckpTgt0 with rot := (u.tgt x).rot }).tgt x := rfl
  rw [own, State.tgt_setTgt_self]
  rfl

theorem State.touchSession_tgtState (s : State) (x : Nat) : s.touchSession.tgtState x = s.tgtState x := s.touchSession_rd _ _

/-- Settles O43: each row by the state of its target. -/
theorem storageTargets : Obligations.StorageTargets := by
  intro s x hrun hx
  have here := decide_eq_true hx
  have pdu {p : NvmePdu} {P : State → Prop} (h : P (((s.onNvme x p).deal 18).requeue s.pending)) : Completes (.nvmePduReceive x p) s P :=
    completes_actOn hrun rfl here h
  have late {held : Option Nat} {P : State → Prop} (h : P (((s.ckpTimeout x held).deal 18).requeue s.pending)) : Completes (.ckpCmdTimeout x held) s P :=
    completes_actOn hrun rfl here h
  have timer {P : State → Prop} (h : P ((((List.range 64).foldl State.keepAlive s).deal 18).requeue s.pending)) : Completes .ckpKeepaliveTimer s P :=
    completes_act hrun (exec_ckpKeepaliveTimer_eq s) h
  have again {P : State → Prop} (h : P (((s.tgtReconnect x).deal 18).requeue s.pending)) : Completes (.targetReconnectTimer x) s P :=
    completes_actOn hrun rfl here h
  refine ⟨fun p => pdu rfl, fun held => late rfl, timer rfl, again rfl, fun hm sel ports idle unready => heldRow_completes hrun hm rfl ?connect,
    fun hm sel => heldRow_completes hrun hm (exec_targetDisconnect_eq s) ?disconnect, fun failed left => again ?reconnect, fun _ => ⟨fun p idle unready => pdu ?closed,
      fun q st hq stage => pdu ?opened, fun q st => pdu ?reset, fun q b st other => pdu ?digest⟩, fun st => late ?late, fun ready others => timer ?alive⟩
  case connect =>
    have st := s.touchSession_tgtState x
    rw [State.tgtConnect_connects (x := x) ((s.touchSession_rd _ _).trans sel) (fun h => ports ((s.touchSession_rd _ _).symm.trans h))
      (st ▸ idle) (st ▸ unready)]
    have made := s.touchSession.connectTgt_connects x 0
    exact ⟨made.state, made.digests, made.lba4k, made.queue, made.mem.trans s.touchSession_mem⟩
  case disconnect =>
    obtain ⟨idle, cmds⟩ := State.tgtDisconnect_idles (s := s.touchSession) (x := x) ((s.touchSession_rd _ _).trans sel)
    exact ⟨_, rfl, idle, cmds⟩
  case reconnect =>
    have made := s.connectTgt_connects x ((s.tgt x).attempts + 1)
    rw [State.tgtReconnect, if_pos ⟨failed, left⟩]
    exact ⟨_, rfl, made.state, made.attempts, made.mem⟩
  case closed => rw [State.onNvme_closed p idle unready]
  case opened =>
    rw [State.onNvme_opened st hq stage]
    exact ⟨_, rfl, rfl⟩
  case reset =>
    rw [State.onNvme_reset st]
    exact ⟨_, rfl, s.failTgt_fails x (by decide)⟩
  case digest => rw [State.onNvme_badDigest st other]
  case late =>
    have fails : s.ckpTimeout x none = s.failTgt x 10 := if_pos (by simpa using st)
    rw [fails]
    exact ⟨_, rfl, s.failTgt_fails x (by decide)⟩
  case alive => exact ⟨_, rfl, State.keepAlives_round hx ready others⟩

end Sys2Proof.Machine
end

section
/-! PROOFS. The entries of checkpoint streams (R420, R421): a stream of a range that opens. -/

namespace Sys2Proof.Machine

/-- The registers of a stream that has opened in slot n. -/
def State.streamShown (s : State) (n vf target streamId : Nat) (restore : Bool) : State :=
  (((((s.wr F.CKP_STREAM_open 1 n).wr F.CKP_STREAM_restore (b2n restore) n).wr F.CKP_STREAM_vf vf n).wr F.CKP_STREAM_target target n).wr
    F.CKP_STREAM_stream_id streamId n).bump F.CKP_TGT_STATUS_streams 1 target

section
variable (s : State) (n vf target streamId : Nat) (restore : Bool)

theorem State.rd_streamShown {f : Fld} (h : f.reg ≠ F.CKP_TGT_STATUS_streams.reg) : (s.streamShown n vf target streamId restore).rd f n =
    (((((s.wr F.CKP_STREAM_open 1 n).wr F.CKP_STREAM_restore (b2n restore) n).wr F.CKP_STREAM_vf vf n).wr F.CKP_STREAM_target target n).wr
      F.CKP_STREAM_stream_id streamId n).rd f n := State.rd_bump_ne _ _ _ _ _ _ (.inl h)

/-- What an open stream's registers show of it. -/
structure StreamShown (t : State) : Prop where
  open_ : t.rd F.CKP_STREAM_open n = 1
  restore : t.rd F.CKP_STREAM_restore n = b2n restore
  vf : t.rd F.CKP_STREAM_vf n = vf % 2 ^ F.CKP_STREAM_vf.width
  target : t.rd F.CKP_STREAM_target n = target
  streamId : t.rd F.CKP_STREAM_stream_id n = streamId % 2 ^ F.CKP_STREAM_stream_id.width

theorem State.streamShown_shows (inRange : target < 64) : StreamShown n vf target streamId restore (s.streamShown n vf target streamId restore) := by
  constructor
  all_goals rw [State.rd_streamShown _ _ _ _ _ _ (by decide)]
  all_goals simp (disch := decide) only [State.rd_wr_bits, State.rd_wr_self, State.rd_wr_reg]
  · rfl
  · exact b2n_mod_two restore
  · exact Nat.mod_eq_of_lt inRange

end

theorem State.mem_streamShown (s : State) (n vf target streamId : Nat) (restore : Bool) (k : CkpStream) :
    ((s.setStream n k).streamShown n vf target streamId restore).mem = s.mem := by
  unfold State.streamShown
  simp only [State.mem_bump, State.mem_wr]
  rfl

theorem State.op?_streamShown (s : State) (n vf target streamId : Nat) (restore : Bool) (k : CkpStream) (id : Nat) :
    ((s.setStream n k).streamShown n vf target streamId restore).op? id = s.op? id := by
  unfold State.streamShown State.op?
  simp only [State.ops_bump, State.ops_wr]
  rfl

theorem CkpBody.target_of_good {b : CkpBody} {h : DescHdr} {d : List Byte} (good : b.bad h d = false) : h.target < 64 := by
  simp only [CkpBody.bad, Bool.or_eq_false_iff, decide_eq_false_iff_not] at good
  omega

theorem State.firstFreeStream {s : State} {n : Nat} (free : (s.stream? n).isNone = true) (hn : n < 256)
    (taken : ∀ m, m < n → (s.stream? m).isNone = false) : (List.range 256).find? (fun m => (s.stream? m).isNone) = some n := by
  rw [List.find?_range_eq_some]
  exact ⟨free, List.mem_range.2 hn, fun m hm => by simp [taken m hm]⟩

/-- What a stream of a range wants of the device, and where it goes (R419, R421). -/
structure State.StreamFits (s : State) (e : Fetched) (n : Nat) (restore : Bool) : Prop where
  good : (ckpBody e.desc).bad (descHdr e.desc) e.desc = false
  range : (ckpBody e.desc).table = false
  owned : s.ckpOwned (ringVf e.key) (ckpBody e.desc) (descHdr e.desc) restore = true
  staging : (ckpBody e.desc).inFlight * (ckpBody e.desc).z ≤ s.stagingFree (ringVf e.key) (s.rd F.PTN_INST_partition (ringVf e.key))
  slot : (List.range 256).find? (fun m => (s.stream? m).isNone) = some n
  reached : s.tgtState (descHdr e.desc).target = tgtConnecting ∨ (s.tgtState (descHdr e.desc).target = tgtReady ∧
    (ckpBody e.desc).slba + ceilDiv (256 + (ckpBody e.desc).length) ((ckpBody e.desc).z - 64) * (ckpBody e.desc).z / s.blockSize (descHdr e.desc).target ≤
      (s.tgt (descHdr e.desc).target).blocks)

/-- A stream of a range that fits opens in the lowest free slot, and starts where its target is READY. -/
theorem State.ckpEntry_opens {s : State} {e : Fetched} {n : Nat} {restore : Bool} (h : s.StreamFits e n restore) :
    ∃ (k : CkpStream) (a : Admitted), s.ckpEntry e (descHdr e.desc) restore =
      let v := (((s.newOp e a .running (ckpBody e.desc).length).2.setStream n k).streamShown n (ringVf e.key) (descHdr e.desc).target
        (ckpBody e.desc).streamId restore)
      if s.tgtState (descHdr e.desc).target = tgtReady then v.startStream n else v := by
  obtain ⟨good, range, owned, staging, slot, reached⟩ := h
  have length : sumNat [(ckpBody e.desc).length] = (ckpBody e.desc).length := Nat.zero_add _
  have full : ¬(s.tgtState (descHdr e.desc).target = tgtReady ∧ (s.tgt (descHdr e.desc).target).blocks < (ckpBody e.desc).slba +
      ceilDiv (256 + sumNat [(ckpBody e.desc).length]) ((ckpBody e.desc).z - 64) * (ckpBody e.desc).z / s.blockSize (descHdr e.desc).target) := by
    rintro ⟨ready, short⟩
    obtain connecting | ⟨-, room⟩ := reached
    · rw [connecting] at ready
      exact absurd ready (by decide)
    · exact absurd short (length.symm ▸ Nat.not_lt.2 room)
  have away : ¬(s.tgtState (descHdr e.desc).target ≠ tgtReady ∧ s.tgtState (descHdr e.desc).target ≠ tgtConnecting) := by tauto
  have opens : ∃ k : CkpStream, s.openStream e (descHdr e.desc) (ckpBody e.desc) restore none [((ckpBody e.desc).addr, (ckpBody e.desc).length)] 0 0 =
      let v := ((s.newOp e .free .running (sumNat [(ckpBody e.desc).length])).2.setStream n k).streamShown n (ringVf e.key) (descHdr e.desc).target
        (ckpBody e.desc).streamId restore
      if s.tgtState (descHdr e.desc).target = tgtReady then v.startStream n else v := by
    unfold State.openStream
    dsimp only [List.map]
    rw [if_neg Bool.false_ne_true, if_neg (Nat.not_lt.2 staging), slot]
    dsimp only
    rw [if_neg full, if_neg away]
    exact ⟨_, rfl⟩
  obtain ⟨k, opens⟩ := opens
  refine ⟨k, .free, ?_⟩
  rw [length] at opens
  rw [← opens]
  simp only [State.ckpEntry, good, owned, range, Bool.false_eq_true, Bool.not_true, Bool.not_false, if_false, if_true]

/-- Settles O44: an entry does what the checks make of it; one for a range with a slot, staging and a target opens its stream. -/
theorem checkpointEntries : Obligations.CheckpointEntries := by
  refine ⟨fun s u key count e _ => ⟨fun entry => entryRow_completes entry rfl rfl, fun entry => entryRow_completes entry rfl rfl⟩, ?_⟩
  intro s u key count n e _ free hn taken h b vf fits opened
  have slot := State.firstFreeStream free hn taken
  have opens (restore : Bool) (hfits : fits) (owned : u.ckpOwned vf b h restore = true) (mem : u.mem = s.mem) :
      opened ((u.ckpEntry e h restore).requeue s.pending) restore := by
    obtain ⟨good, range, staging, reached⟩ := hfits
    obtain ⟨k, a, eq⟩ := State.ckpEntry_opens ⟨good, range, owned, staging, slot, reached⟩
    obtain ⟨open_, dir, vf, target, streamId⟩ := State.streamShown_shows ((u.newOp e a .running b.length).2.setStream n k) n vf h.target b.streamId restore
      (CkpBody.target_of_good good)
    have place := u.newOp_place e a .running b.length
    obtain ⟨o, found, runs⟩ := Option.map_eq_some_iff.1 place
    refine ⟨_, congrArg (State.requeue · s.pending) eq, open_, dir, vf, target, streamId, ?_, ?_⟩
    · rw [State.op?_streamShown, show u.nextOp = (u.newOp e a .running b.length).1 from rfl, found, Option.any_some]
      exact beq_iff_eq.2 (congrArg (fun q => q.2.1) runs)
    · rw [State.mem_streamShown, State.newOp_mem, mem]
  exact ⟨fun entry hfits owned => entryRow_completes entry rfl (opens false hfits owned (entry.unfetched ▸ rfl)),
    fun entry hfits owned => entryRow_completes entry rfl (opens true hfits owned (entry.unfetched ▸ rfl))⟩

end Sys2Proof.Machine
end

section
/-! PROOFS. Hangs (R452-R458, R469): what the declaration of a hang leaves, what the end of a replay shows, and the steward cores. -/

namespace Sys2Proof.Machine

/-! ### Units (R452) -/

theorem kind_lt_of_unit {kind unit : Nat} (h : unit < unitsOf kind) : kind < 8 := by
  by_contra big
  rw [unitsOf, List.getD_eq_default _ _ (by simpa using big)] at h
  omega

theorem unit_lt_of_kind {kind unit : Nat} (h : unit < unitsOf kind) : unit < 64 := by
  have hk := kind_lt_of_unit h
  refine Nat.lt_of_lt_of_le h ?_
  interval_cases kind
  all_goals decide

theorem State.serving_touchSession (s : State) (kind unit : Nat) : s.touchSession.serving kind unit = s.serving kind unit := by
  simp [State.serving, State.replay?]

theorem State.setUnit_keeps (s : State) (kind unit st : Nat) : (s.setUnit kind unit st).mem = s.mem ∧ (s.setUnit kind unit st).rst = s.rst := by
  unfold State.setUnit
  dsimp only
  split
  next f _ =>
    split
    · split
      · obtain ⟨_, _, _, eq, -⟩ := State.assignEgress_only ((s.wr f st unit).logEv (kindBlk kind) .stateChange st unit unit)
        rw [eq]
        exact ⟨State.mem_logEv .., State.rst_logEv ..⟩
      · exact ⟨State.mem_logEv .., State.rst_logEv ..⟩
    · exact ⟨rfl, rfl⟩
  next =>
    split
    · exact ⟨State.mem_logEv .., State.rst_logEv ..⟩
    · exact ⟨rfl, rfl⟩

/-! ### Replays (R454) -/

theorem State.replay?_setReplay {s : State} {r : Replay} (present : ∃ q ∈ s.rst.replays, q.kind = r.kind ∧ q.unit = r.unit) :
    (s.setReplay r).replay? r.kind r.unit = some r := by
  obtain ⟨q, mem, hk, hu⟩ := present
  unfold State.setReplay State.replay?
  dsimp only
  generalize s.rst.replays = l at mem
  induction l with
  | nil => exact absurd mem List.not_mem_nil
  | cons p l ih =>
    rw [List.map_cons]
    by_cases own : (p.kind == r.kind && p.unit == r.unit) = true
    · rw [if_pos own, List.find?_cons_of_pos (by simp)]
    · rw [if_neg own, List.find?_cons_of_neg (by simpa using own)]
      refine ih ((List.mem_cons.1 mem).resolve_left ?_)
      rintro rfl
      simp [hk, hu] at own

theorem State.present_of_replay? {s : State} {kind unit : Nat} {r : Replay} (h : s.replay? kind unit = some r) :
    r ∈ s.rst.replays ∧ r.kind = kind ∧ r.unit = unit := by
  have found := List.find?_some h
  simp only [Bool.and_eq_true, beq_iff_eq] at found
  exact ⟨List.mem_of_find?_eq_some h, found⟩

theorem State.takeDump_replays (s : State) (trigger cause : Nat) (units : List (Nat × Nat)) :
    (s.takeDump trigger cause units).rst.replays = s.rst.replays := by
  unfold State.takeDump
  split
  · rw [State.rst_logRefused]
  · dsimp only
    rw [State.rst_logEv]
    rfl

/-- A unit whose reset begins waits for its end, with no suspect judged. -/
theorem State.engineReset_resets {s : State} {r : Replay} (present : ∃ q ∈ s.rst.replays, q.kind = r.kind ∧ q.unit = r.unit) :
    (s.engineReset r).replay? r.kind r.unit = some { r with resetting := true, judging := none } := by
  have crossed : (s.crossReset (unitDomain r.kind r.unit)).rst = s.rst := by
    unfold State.crossReset
    split
    · rfl
    · rfl
  have kept : ∀ u : State, u.rst = s.rst →
      (if u.rd F.RST_CFG_dump_engine = 1 then u.takeDump 1 0 [dumpKind r.kind r.unit] else u).rst.replays = s.rst.replays := fun u h => by
    split
    · rw [State.takeDump_replays, h]
    · rw [h]
  unfold State.engineReset
  dsimp only
  refine State.replay?_setReplay (r := { r with resetting := true, judging := none }) ?_
  rw [kept _ (by rw [State.rst_logEv, State.rst_bump, crossed])]
  exact present

theorem State.beginReplay_begins (s : State) (kind unit : Nat) (xs : List Nat) (m inj : Bool) :
    ((s.beginReplay kind unit xs m inj).replay? kind unit).any (fun r => r.resetting && r.judging.isNone && r.manager == m) = true := by
  unfold State.beginReplay
  dsimp only
  rw [State.engineReset_resets ⟨_, List.mem_append_right _ (List.mem_singleton_self _), rfl, rfl⟩]
  simp

/-! ### Hangs (R454, R457) -/

/-- The hang is counted in its unit's history. -/
def State.hangNoted (s : State) (k : Nat) (recent : List Nat) : State :=
  State.bump { s with rst := { s.rst with hangs := Tbl.set s.rst.hangs k (recent ++ [s.now]) } } F.RST_HANGS

/-- The hangs of a unit in the last ten minutes. -/
def State.recentHangs (s : State) (k : Nat) : List Nat := (Tbl.getD s.rst.hangs k []).filter fun x => decide (s.now < x + 600 * sec)

/-- Within a second of the unit's return. -/
def State.backNow (s : State) (k : Nat) : Bool := (Tbl.get? s.rst.back k).any fun t => decide (s.now < t + sec)

/-- What follows the begin of a hang's reset: the unit is retired where it comes too often. -/
def State.hangEnd (u : State) (kind unit : Nat) (late : Bool) (times : Nat) : State :=
  match u.replay? kind unit with
  | some r => if late = true ∨ 3 ≤ times then (u.retireHung r).cmnRun else u.cmnRun
  | none => u

theorem State.hang_eq (s : State) (kind unit : Nat) (xs : List Nat) (m inj : Bool) : s.hang kind unit xs m inj =
    ((s.hangNoted (unitKey kind unit) (s.recentHangs (unitKey kind unit))).beginReplay kind unit xs m inj).hangEnd kind unit
      (s.backNow (unitKey kind unit)) (s.recentHangs (unitKey kind unit) ++ [s.now]).length := by
  unfold State.hang State.hangEnd State.hangNoted State.recentHangs State.backNow
  dsimp only <;> rfl

theorem State.hangEnd_early {u : State} {kind unit times : Nat} (replays : (u.replay? kind unit).isSome = true) (few : times < 3) :
    u.hangEnd kind unit false times = u.cmnRun := by
  unfold State.hangEnd
  obtain ⟨r, found⟩ := Option.isSome_iff_exists.1 replays
  rw [found]
  exact if_neg (by simpa using few)

/-- A hang of a unit that is long back, and not the third, begins its reset. -/
theorem State.hang_begins {s : State} {kind unit : Nat} (xs : List Nat) (m : Bool)
    (back : ∀ x, Tbl.get? s.rst.back (unitKey kind unit) = some x → x + sec ≤ s.now) (few : (s.recentHangs (unitKey kind unit)).length < 2) :
    s.hang kind unit xs m false =
      ((s.hangNoted (unitKey kind unit) (s.recentHangs (unitKey kind unit))).beginReplay kind unit xs m false).cmnRun := by
  have long : s.backNow (unitKey kind unit) = false := by
    unfold State.backNow
    cases found : Tbl.get? s.rst.back (unitKey kind unit) with
    | none => rfl
    | some x =>
      rw [Option.any_some]
      exact decide_eq_false (Nat.not_lt.2 (back x found))
  rw [State.hang_eq, long, State.hangEnd_early]
  · have begun := (s.hangNoted (unitKey kind unit) (s.recentHangs (unitKey kind unit))).beginReplay_begins kind unit xs m false
    exact Option.isSome_of_any begun
  · rw [List.length_append, List.length_singleton]
    omega

/-- What is seen of a hang that begins its unit's reset. -/
theorem State.hangNoted_counts (s : State) (k : Nat) (recent : List Nat) : Tbl.get? (s.hangNoted k recent).rst.hangs k = some (recent ++ [s.now]) ∧
    (s.hangNoted k recent).rd F.RST_HANGS = (s.rd F.RST_HANGS + 1) % 2 ^ F.RST_HANGS.width ∧ (s.hangNoted k recent).mem = s.mem ∧
    ∀ f i, f.reg ≠ .RST_HANGS → (s.hangNoted k recent).rd f i = s.rd f i := by
  exact ⟨Tbl.get?_set_self _ _ _, State.rd_bump_self _ F.RST_HANGS _ _ (by decide), rfl, fun f i h => State.rd_bump_ne _ _ _ _ _ _ (.inl h)⟩

/-! ### The end of a replay (R454, R469) -/

/-- RST_HANG_LAST as the end of a replay leaves it. -/
def State.hangShown (s : State) (r : Replay) (gone : Bool) : State :=
  ((((s.wr F.RST_HANG_LAST_kind r.kind).wr F.RST_HANG_LAST_unit r.unit).wr F.RST_HANG_LAST_suspects (min 255 r.suspects)).wr
    F.RST_HANG_LAST_guilty (min 255 r.guilty)).wr F.RST_HANG_LAST_outcome (b2n gone)

theorem State.hangShown_shows {s : State} {r : Replay} (h : r.unit < unitsOf r.kind) (gone : Bool) :
    (s.hangShown r gone).rd F.RST_HANG_LAST_kind = r.kind ∧ (s.hangShown r gone).rd F.RST_HANG_LAST_unit = r.unit ∧
      (s.hangShown r gone).rd F.RST_HANG_LAST_suspects = min 255 r.suspects := by
  unfold State.hangShown
  refine ⟨?_, ?_, ?_⟩
  all_goals simp (disch := decide) only [State.rd_wr_bits, State.rd_wr_self]
  · exact Nat.mod_eq_of_lt (kind_lt_of_unit h)
  · exact Nat.mod_eq_of_lt (unit_lt_of_kind h)
  · exact Nat.mod_eq_of_lt (Nat.lt_of_le_of_lt (min_le_left ..) (by decide))

/-- The replay of a unit is no more; its domain holds nothing, and the time of its return stands where it returns. -/
def State.replayOver (s : State) (r : Replay) : State :=
  let u : State := { s with rst := { s.rst with replays := s.rst.replays.filter fun q => !(q.kind == r.kind && q.unit == r.unit) } }
  let u := if soleKind r.kind ∧ u.rd F.PWR_DOM_state (unitDomain r.kind r.unit) = 0 then u.releaseHeld (unitDomain r.kind r.unit) else u
  if s.unitGone r.kind r.unit then u
  else State.setUnit { u with rst := { u.rst with back := Tbl.set u.rst.back (unitKey r.kind r.unit) u.now } } r.kind r.unit 0

theorem State.replayOver_keeps (s : State) (r : Replay) : (s.replayOver r).mem = s.mem ∧
    (s.replayOver r).rst.replays = s.rst.replays.filter fun q => !(q.kind == r.kind && q.unit == r.unit) := by
  have released : ∀ (u : State) (c : Prop) [Decidable c] (d : Nat), (if c then u.releaseHeld d else u).mem = u.mem ∧
      (if c then u.releaseHeld d else u).rst = u.rst := fun u c _ d => by
    split
    · exact ⟨rfl, rfl⟩
    · exact ⟨rfl, rfl⟩
  unfold State.replayOver
  dsimp only
  split
  · exact ⟨(released _ _ _).1, congrArg RstSt.replays (released _ _ _).2⟩
  · rw [(State.setUnit_keeps _ _ _ _).1, (State.setUnit_keeps _ _ _ _).2]
    exact ⟨(released _ _ _).1, congrArg RstSt.replays (released _ _ _).2⟩

theorem State.endReplay_eq (s : State) {r : Replay} (parked : r.parked = []) (manager : r.manager = false) : s.endReplay r =
    State.hangShown ((s.replayOver r).logEv (kindBlk r.kind) .hang r.kind (min 65535 r.suspects + 65536 * min 65535 r.guilty) r.unit r.injected) r
      (s.unitGone r.kind r.unit) := by
  unfold State.endReplay
  rw [parked, manager]
  dsimp only [List.foldl_nil]
  rw [ite_self, if_neg Bool.false_ne_true]
  rfl

theorem State.hangShown_keeps (s : State) (r : Replay) (gone : Bool) : (s.hangShown r gone).mem = s.mem ∧ (s.hangShown r gone).rst = s.rst := by
  unfold State.hangShown
  simp only [State.mem_wr, State.rst_wr, and_self]

theorem State.endReplay_ends (s : State) {r : Replay} (h : r.unit < unitsOf r.kind) (parked : r.parked = []) (manager : r.manager = false) :
    (s.endReplay r).replay? r.kind r.unit = none ∧ (s.endReplay r).rd F.RST_HANG_LAST_kind = r.kind ∧
      (s.endReplay r).rd F.RST_HANG_LAST_unit = r.unit ∧ (s.endReplay r).rd F.RST_HANG_LAST_suspects = min 255 r.suspects ∧
      (s.endReplay r).mem = s.mem := by
  rw [State.endReplay_eq s parked manager]
  obtain ⟨mem, replays⟩ := s.replayOver_keeps r
  rw [← State.mem_logEv (s.replayOver r) (kindBlk r.kind) .hang r.kind (min 65535 r.suspects + 65536 * min 65535 r.guilty) r.unit r.injected] at mem
  rw [← State.rst_logEv (s.replayOver r) (kindBlk r.kind) .hang r.kind (min 65535 r.suspects + 65536 * min 65535 r.guilty) r.unit r.injected] at replays
  generalize State.logEv (s.replayOver r) _ _ _ _ _ _ = u at mem replays ⊢
  obtain ⟨hk, hu, hs⟩ := State.hangShown_shows (s := u) h (s.unitGone r.kind r.unit)
  obtain ⟨umem, urst⟩ := u.hangShown_keeps r (s.unitGone r.kind r.unit)
  refine ⟨?_, hk, hu, hs, umem.trans mem⟩
  unfold State.replay?
  rw [urst, replays, List.find?_eq_none]
  intro q hq own
  have apart := (List.mem_filter.1 hq).2
  rw [own] at apart
  exact absurd apart Bool.false_ne_true

/-- The last suspect judged, nothing is parked: the replay is over, and RST_HANG_LAST shows it. -/
theorem State.judgeNext_ends {s : State} {kind unit : Nat} {r : Replay} (h : unit < unitsOf kind) (found : s.replay? kind unit = some r)
    (todo : r.todo = []) (parked : r.parked = []) (manager : r.manager = false) :
    (s.judgeNext kind unit).replay? kind unit = none ∧ (s.judgeNext kind unit).rd F.RST_HANG_LAST_kind = kind ∧
      (s.judgeNext kind unit).rd F.RST_HANG_LAST_unit = unit ∧ (s.judgeNext kind unit).rd F.RST_HANG_LAST_suspects = min 255 r.suspects ∧
      (s.judgeNext kind unit).mem = s.mem := by
  obtain ⟨-, rfl, rfl⟩ := State.present_of_replay? found
  have eq : s.judgeNext r.kind r.unit = s.endReplay { r with todo := [], judging := none } := by
    unfold State.judgeNext
    rw [found]
    dsimp only
    rw [todo]
    rfl
  rw [eq]
  exact State.endReplay_ends (r := { r with todo := [], judging := none }) s h parked manager

/-! ### Steward cores (R457) -/

theorem RegOnly.rst {r : Reg} {s t : State} (h : RegOnly r s t) : t.rst = s.rst := by obtain ⟨_, _, _, rfl, _⟩ := h; rfl

/-- Retirement of a unit without a unit state changes what is built, and the counts. -/
theorem State.retireSound_keeps (s : State) (res unit : Nat) : (s.retireSound res unit).rst = s.rst ∧
    ∀ f i, f.reg.isLog = false → f.reg ≠ .TEL_SPARE → (s.retireSound res unit).rd f i = s.rd f i := by
  unfold State.retireSound State.retireCounted
  split
  · exact ⟨rfl, fun _ _ _ _ => rfl⟩
  · unfold State.countRetired
    exact ⟨(State.rst_logEv ..).trans (State.spareCounts_only ..).rst,
      fun f i hl hr => (State.rd_logEv _ _ _ _ _ _ _ _ _ hl).trans ((State.spareCounts_only ..).rd f i hl hr)⟩

/-- The core's missed heartbeats. -/
def State.missNoted (s : State) (core : Nat) (misses : List Nat) : State :=
  { s with rst := { s.rst with cores := Tbl.set s.rst.cores core (misses ++ [s.now]) } }

/-- The core is gone, and counted. -/
def State.coreRetired (s : State) (core : Nat) : State :=
  (State.bump { s with rst := { s.rst with coresGone := s.rst.coresGone ++ [core] } } F.RST_RETIRED_UNITS).retireSound 8 core

theorem State.coreRetired_counts (s : State) (core : Nat) : (s.coreRetired core).rst.coresGone = s.rst.coresGone ++ [core] ∧
    (s.coreRetired core).rd F.RST_RETIRED_UNITS = (s.rd F.RST_RETIRED_UNITS + 1) % 2 ^ F.RST_RETIRED_UNITS.width := by
  obtain ⟨rst, rd⟩ := State.retireSound_keeps (State.bump { s with rst := { s.rst with coresGone := s.rst.coresGone ++ [core] } } F.RST_RETIRED_UNITS) 8 core
  unfold State.coreRetired
  exact ⟨congrArg RstSt.coresGone rst, (rd _ _ rfl (by decide)).trans (State.rd_bump_self _ F.RST_RETIRED_UNITS _ _ (by decide))⟩

theorem State.heartbeatMiss_eq {s : State} {core : Nat} (serves : s.rst.coresGone.contains core = false) : s.heartbeatMiss core =
    let misses := (Tbl.getD s.rst.cores core []).filter fun x => decide (s.now < x + 60 * sec)
    if (misses ++ [s.now]).length < 3 then s.missNoted core misses
    else if ((s.missNoted core misses).coreRetired core).rd F.TEL_SPARE_active 8 < 16 then ((s.missNoted core misses).coreRetired core).chipReset 8
    else (s.missNoted core misses).coreRetired core := by
  unfold State.heartbeatMiss State.missNoted State.coreRetired
  rw [serves, if_neg Bool.false_ne_true]

/-! ### The rows -/

section
variable {s : State} {kind unit : Nat} {P : State → Prop}

theorem exec_watchdogExpiry_eq (s : State) (kind unit : Nat) (xs : List Nat) : exec (.watchdogExpiry kind unit xs) s = actOn (decide (unit < unitsOf kind)) s
    fun s => if s.serving kind unit = true ∧ s.watched kind unit xs = true then s.hang kind unit xs false false else s := rfl

/-- The end of a unit's reset, by how it ended. -/
theorem engineResetDone_deals {ok : Bool} {r : Replay} (hrun : s.power = .run) (here : decide (unit < unitsOf kind) = true)
    (found : s.replay? kind unit = some r) (resets : r.resetting = true)
    (p : P (if ok then (s.setReplay { r with resetting := false }).judgeNext kind unit else s.retireHung r)) : Deals (.engineResetDone kind unit ok) s P := by
  refine completes_actOn hrun rfl here ?_
  rw [found]
  dsimp only
  rw [resets]
  cases ok with
  | true => exact ⟨_, rfl, p⟩
  | false => exact ⟨_, rfl, p⟩

/-- The judgement of a suspect that has made progress. -/
theorem suspectCleared_deals {r : Replay} {x : Nat} (hrun : s.power = .run) (here : decide (unit < unitsOf kind) = true)
    (found : s.replay? kind unit = some r) (judged : r.judging = some x)
    (p : P (((if kind = kTally then s.moveChunks r.on x else s).setReplay { r with judging := none }).judgeNext kind unit)) :
    Deals (.suspectCleared kind unit) s P := by
  refine completes_actOn hrun rfl here ?_
  rw [found]
  dsimp only
  rw [judged]
  exact ⟨_, rfl, p⟩

/-- The end of a suspect's window. -/
theorem suspectWindowExpiry_completes {r : Replay} {x : Nat} (hrun : s.power = .run) (here : decide (unit < unitsOf kind) = true)
    (found : s.replay? kind unit = some r) (judged : r.judging = some x)
    (p : P ((if s.waitsOut kind x then s else if s.suspectLives kind x then (s.guilty r x).cmnRun
      else ((s.setReplay { r with judging := none }).judgeNext kind unit).cmnRun).requeue s.pending)) : Completes (.suspectWindowExpiry kind unit) s P := by
  refine completes_actOn hrun rfl here ?_
  rw [found]
  dsimp only
  rw [judged]
  exact p

/-- The manager's reset of a unit, by whether the unit serves. -/
theorem engineReset_completes {code : Nat} (hrun : s.power = .run) (hm : s.manages false = true) (idle : s.rd F.RST_STATUS_busy = 0) (hcode : code < 5)
    (hkind : (if code ≤ 2 then code else code + 1) = kind)
    (p : P ((if s.serving kind unit then (s.touchSession.wr F.RST_STATUS_busy 1).hang kind unit [] true false
      else s.touchSession.rstResult 1 2).requeue s.pending)) : Completes (.engineReset code unit) s P := by
  refine heldRow_completes hrun hm rfl ?_
  rw [State.engineResetCmd, State.rstGate_passes ((s.touchSession_rd _ _).trans idle)]
  dsimp only
  rw [hkind, State.serving_touchSession]
  cases serves : s.serving kind unit with
  | true =>
    rw [serves] at p
    rw [if_neg (by simp; omega)]
    exact p
  | false =>
    rw [serves] at p
    rw [if_pos (by simp)]
    exact p

end

/-- Settles O47: each row by what its unit's replay and history hold. -/
theorem hangs : Obligations.Hangs := by
  intro s kind unit hrun hu k recent calm begun
  have here := decide_eq_true hu
  have begins (u : State) (xs : List Nat) (m : Bool) (rst : u.rst = s.rst) (now : u.now = s.now) (mem : u.mem = s.mem)
      (counted : u.rd F.RST_HANGS = s.rd F.RST_HANGS) (busy : m = true → u.rd F.RST_STATUS_busy = 1) (hcalm : calm) :
      begun ((u.hang kind unit xs m false).requeue s.pending) xs m := by
    obtain ⟨back, few⟩ := hcalm
    have recents : u.recentHangs k = recent := by rw [State.recentHangs, rst, now]
    obtain ⟨noted, count, kept, others⟩ := u.hangNoted_counts k (u.recentHangs k)
    rw [recents, now] at noted
    rw [recents, counted] at count
    rw [recents] at kept others
    refine ⟨u.hangNoted k recent, _, ?_, rfl, noted, count, kept.trans mem, fun h => (others _ _ (by decide)).trans (busy h),
      State.beginReplay_begins ..⟩
    rw [State.hang_begins xs m (by rwa [rst, now]) (by rwa [recents]), recents]
  refine ⟨fun xs => ⟨fun serves runs hcalm => ?watchdog, fun serves runs => ?declared, fun idle => ?idle⟩,
    fun code hm free hcode hkind => ⟨fun serves hcalm => ?reset, fun serves => ?manager, fun gone => ?refused⟩,
    fun r found => ⟨fun resets => ?returned, fun resets => engineResetDone_deals hrun here found resets rfl, fun x judged =>
      ⟨suspectCleared_deals hrun here found judged rfl, fun waits => ?waits, fun goes lives => ?guilty, fun goes dead => ?dead⟩⟩,
    fun core hcore serves => ⟨fun few => ?noted, fun many => ?gone⟩⟩
  case watchdog =>
    refine completes_actOn hrun (exec_watchdogExpiry_eq s kind unit xs) here ?_
    rw [if_pos ⟨serves, runs⟩]
    exact begins s xs false rfl rfl rfl rfl (fun h => absurd h Bool.false_ne_true) hcalm
  case declared =>
    refine completes_actOn hrun (exec_watchdogExpiry_eq s kind unit xs) here ?_
    rw [if_pos ⟨serves, runs⟩]
  case idle =>
    refine completes_actOn hrun (exec_watchdogExpiry_eq s kind unit xs) here ?_
    rw [if_neg (by simpa using idle)]
  case reset =>
    refine engineReset_completes hrun hm free hcode hkind ?_
    rw [if_pos serves]
    exact begins _ [] true s.touchSession_rst s.touchSession_now s.touchSession_mem
      ((State.rd_wr_reg _ _ _ _ _ _ (by decide)).trans (s.touchSession_rd _ _)) (fun _ => State.rd_wr_self _ F.RST_STATUS_busy _ _ (by decide)) hcalm
  case manager =>
    refine engineReset_completes hrun hm free hcode hkind ?_
    rw [if_pos serves]
  case refused =>
    refine engineReset_completes hrun hm free hcode hkind ?_
    rw [gone, if_neg Bool.false_ne_true]
    have ended := s.touchSession.rstResult_ends 1 (reason := 2) (by decide)
    exact ⟨ended.refused, ended.reason, ended.rst.trans s.touchSession_rst, ended.mem.trans s.touchSession_mem⟩
  case returned =>
    refine engineResetDone_deals hrun here found resets ⟨rfl, fun todo parked manager => ?_⟩
    obtain ⟨present, rfl, rfl⟩ := State.present_of_replay? found
    exact State.judgeNext_ends (s := s.setReplay { r with resetting := false }) (r := { r with resetting := false }) hu
      (State.replay?_setReplay (r := { r with resetting := false }) ⟨r, present, rfl, rfl⟩) todo parked manager
  case waits =>
    refine suspectWindowExpiry_completes hrun here found judged ?_
    rw [if_pos waits]
    rfl
  case guilty =>
    refine suspectWindowExpiry_completes hrun here found judged ?_
    rw [goes, lives, if_neg Bool.false_ne_true, if_pos rfl]
    exact ⟨_, rfl, rfl⟩
  case dead =>
    refine suspectWindowExpiry_completes hrun here found judged ?_
    rw [goes, dead, if_neg Bool.false_ne_true, if_neg Bool.false_ne_true]
    exact ⟨_, rfl, rfl⟩
  case noted =>
    refine completes_actOn (f := fun s => s.heartbeatMiss core) hrun rfl (decide_eq_true hcore) ?_
    rw [State.heartbeatMiss_eq serves]
    dsimp only
    rw [if_pos (by rw [List.length_append, List.length_singleton]; omega)]
    exact ⟨Tbl.get?_set_self _ _ _, rfl, rfl⟩
  case gone =>
    refine completes_actOn (f := fun s => s.heartbeatMiss core) hrun rfl (decide_eq_true hcore) ?_
    rw [State.heartbeatMiss_eq serves]
    dsimp only
    rw [if_neg (by rw [List.length_append, List.length_singleton]; omega)]
    obtain ⟨cores, count⟩ := (s.missNoted core ((Tbl.getD s.rst.cores core []).filter fun x => decide (s.now < x + 60 * sec))).coreRetired_counts core
    exact ⟨_, cores, count, rfl⟩

end Sys2Proof.Machine
end

section
/-! PROOFS. The entries of instances (R378-R387): what each does once its checks pass, and the end of a drain. -/

namespace Sys2Proof.Machine

/-! ### The rows of the entries on instances (R388, R389) -/

section
variable {s u : State} {row : Instr} {key count n : Nat} {e : Fetched} {P : State → Prop} {fields : List Byte → Bool} {create : Bool}
  {host : List Byte → PartDef → Bool} {k : State → Fetched → Nat → Nat → State} {p st : Nat}
  (hrow : exec row s = onInst key count n s fields create host k) (entry : s.Entry key count n e u)
include hrow entry

/-- An entry on instances that passes its checks is carried out. -/
theorem instRow_completes (good : u.instCheck (descHdr e.desc) (fields e.desc) create (host e.desc) = .ok p)
    (hp : P ((k u e (descHdr e.desc).target p).requeue s.pending)) : Completes row s P := by
  refine entryRow_completes entry hrow ?_
  rw [good]
  exact hp

/-- An entry on instances that fails its checks ends with the status of the first. -/
theorem instRow_refused (bad : u.instCheck (descHdr e.desc) (fields e.desc) create (host e.desc) = .error st) :
    Completes row s fun t => t = (u.endEntry e st 0).requeue s.pending := by
  refine entryRow_completes entry hrow ?_
  rw [bad]

end

/-! ### Tokens and creation (R377, R387) -/

/-- A new token is not 0, and only what holds it changes. -/
theorem State.newToken_draws (s : State) (vf : Nat) : ((s.newToken vf).2.inst vf).token = (s.newToken vf).1 ∧ (s.newToken vf).1 ≠ 0 ∧
    (s.newToken vf).2.regs = s.regs ∧ (s.newToken vf).2.mem = s.mem := by
  refine ⟨congrArg Inst.token (State.inst_setInst_self ..), ?_, rfl, rfl⟩
  unfold State.newToken State.drawToken
  dsimp only
  split
  · decide
  next h => exact h

/-- The allowances leave the state and the partition as they are. -/
theorem State.setAllow_keeps (s : State) (vf : Nat) (a : Allow) (i : Nat) : (s.setAllow vf a).rd F.PTN_INST_state i = s.rd F.PTN_INST_state i ∧
    (s.setAllow vf a).rd F.PTN_INST_partition i = s.rd F.PTN_INST_partition i ∧ (s.setAllow vf a).rd F.PTN_CREATED = s.rd F.PTN_CREATED ∧
    (s.setAllow vf a).mem = s.mem := by
  unfold State.setAllow
  simp (disch := decide) only [State.rd_wr_bits, State.rd_wr_reg, State.mem_wr, and_self]

/-- What PTN_PART shows of a partition's instances is all that changes. -/
theorem State.showPart_keeps (s : State) (p : Nat) : (s.showPart p).mem = s.mem ∧ (s.showPart p).insts = s.insts ∧
    (∀ i, (s.showPart p).rd F.PTN_INST_state i = s.rd F.PTN_INST_state i) ∧ (∀ i, (s.showPart p).rd F.PTN_INST_partition i = s.rd F.PTN_INST_partition i) ∧
    (s.showPart p).rd F.PTN_CREATED = s.rd F.PTN_CREATED := by
  unfold State.showPart
  dsimp only
  refine ⟨rfl, rfl, fun i => ?_, fun i => ?_, ?_⟩
  all_goals simp (disch := decide) only [State.rd_wr_reg]

/-- What INST_CREATE makes, before its token: LIVE, NEW, with its allowances. -/
def State.instMade (s : State) (vf p : Nat) (a : Allow) : State :=
  let t := ((s.setAllow vf a).wr F.PTN_INST_partition p vf).wr F.PTN_INST_state instLive vf
  t.setInst vf ⟨0, [], [], false, false, [], [], [], none, t.now, 0, 0, []⟩

/-- What INST_CREATE makes, with its token: its bucket full, its partition's sums shown, counted. -/
def State.instReady (s : State) (vf p : Nat) : State := ((s.setBucket vf (s.bucketBurst vf p : Int)).showPart p).bump F.PTN_CREATED

theorem State.instMade_makes (s : State) {vf p : Nat} (a : Allow) (hp : p < 64) : (s.instMade vf p a).rd F.PTN_INST_state vf = instLive ∧
    (s.instMade vf p a).rd F.PTN_INST_partition vf = p ∧ (s.instMade vf p a).rd F.PTN_CREATED = s.rd F.PTN_CREATED ∧ (s.instMade vf p a).mem = s.mem := by
  obtain ⟨-, -, created, mem⟩ := s.setAllow_keeps vf a vf
  unfold State.instMade
  dsimp only
  have rd : ∀ (t : State) (x : Inst) f i, (t.setInst vf x).rd f i = t.rd f i := fun t x f i => State.rd_of_regs (State.regs_setInst ..) f i
  refine ⟨(rd _ _ _ _).trans ?_, (rd _ _ _ _).trans ?_, (rd _ _ _ _).trans ?_, by rw [State.mem_setInst, State.mem_wr, State.mem_wr, mem]⟩
  · rw [State.rd_wr_self _ F.PTN_INST_state _ _ (by decide)]
    rfl
  · rw [State.rd_wr_bits _ F.PTN_INST_partition F.PTN_INST_state _ _ _ rfl (by decide) (by decide), State.rd_wr_self _ _ _ _ (by decide)]
    exact Nat.mod_eq_of_lt hp
  · rw [State.rd_wr_reg _ F.PTN_CREATED F.PTN_INST_state _ _ _ (by decide), State.rd_wr_reg _ F.PTN_CREATED F.PTN_INST_partition _ _ _ (by decide), created]

theorem State.setBucket_keeps (s : State) (vf : Nat) (k : Int) (frac : Nat) : (s.setBucket vf k frac).mem = s.mem ∧
    ((s.setBucket vf k frac).inst vf).token = (s.inst vf).token ∧ ∀ f i, f.reg ≠ F.ADM_INST_tokens.reg → (s.setBucket vf k frac).rd f i = s.rd f i := by
  unfold State.setBucket
  refine ⟨rfl, ?_, fun f i h => ?_⟩
  · rw [State.inst_wr, State.inst_setInst_self]
  · exact State.rd_wr_reg _ _ _ _ _ _ h

theorem State.instReady_shows (s : State) (vf p : Nat) : (s.instReady vf p).rd F.PTN_INST_state vf = s.rd F.PTN_INST_state vf ∧
    (s.instReady vf p).rd F.PTN_INST_partition vf = s.rd F.PTN_INST_partition vf ∧
    (s.instReady vf p).rd F.PTN_CREATED = (s.rd F.PTN_CREATED + 1) % 2 ^ F.PTN_CREATED.width ∧ ((s.instReady vf p).inst vf).token = (s.inst vf).token ∧
    (s.instReady vf p).mem = s.mem := by
  unfold State.instReady
  obtain ⟨mem, token, rd⟩ := s.setBucket_keeps vf (s.bucketBurst vf p : Int) 0
  generalize s.setBucket vf _ = t at mem token rd ⊢
  obtain ⟨pmem, pinsts, pstate, ppart, pcreated⟩ := t.showPart_keeps p
  have inst : (t.showPart p).inst vf = t.inst vf := by rw [State.inst, pinsts, State.inst]
  generalize t.showPart p = v at pmem pstate ppart pcreated inst ⊢
  refine ⟨?_, ?_, ?_, ?_, (State.mem_bump ..).trans (pmem.trans mem)⟩
  · rw [State.rd_bump_ne _ _ _ _ _ _ (.inl (by decide)), pstate, rd _ _ (by decide)]
  · rw [State.rd_bump_ne _ _ _ _ _ _ (.inl (by decide)), ppart, rd _ _ (by decide)]
  · rw [State.rd_bump_self _ _ _ _ (by decide), pcreated, rd _ _ (by decide)]
  · rw [State.inst, State.insts_bump, ← State.inst, inst, token]

theorem State.instCreate_eq {s : State} {e : Fetched} {vf p : Nat} (sums : s.sumsOk p vf (allowOf e.desc) = true) : s.instCreate e vf p =
    (((s.instMade vf p (allowOf e.desc)).newToken vf).2.instReady vf p).endEntry e Status.ok 0
      (leBytes 8 ((s.instMade vf p (allowOf e.desc)).newToken vf).1.toNat) := by
  unfold State.instCreate
  dsimp only
  rw [sums, if_neg (by decide)]
  rfl

theorem exec_instToken_eq (key count : Nat) (s : State) : exec (.instToken key count) s = onInst key count 0x66 s noBody false anyHost
    fun s f vf _ => (s.newToken vf).2.endEntry f Status.ok 0 (leBytes 8 (s.newToken vf).1.toNat) := rfl

/-! ### Resuming (R383) -/

theorem State.goLive_lives (s : State) (vf : Nat) : (s.goLive vf).rd F.PTN_INST_state vf = instLive ∧ (s.goLive vf).mem = s.mem ∧ (s.goLive vf).ops = s.ops ∧
    ∀ f i, (f.reg ≠ F.PTN_INST_state.reg ∨ i ≠ vf) → (s.goLive vf).rd f i = s.rd f i :=
  ⟨State.rd_wr_self _ F.PTN_INST_state _ _ (by decide), rfl, rfl, fun f i h => State.rd_wr_ne _ _ _ _ _ _ h⟩

/-! ### Reset and removal (R384, R385) -/

theorem exec_instReset_eq (key count : Nat) (s : State) : exec (.instReset key count) s = onInst key count 0x64 s noBody false anyHost
    fun s f vf p => s.instReset f vf p false := rfl

theorem exec_instRemove_eq (key count : Nat) (s : State) : exec (.instRemove key count) s = onInst key count 0x65 s noBody false anyHost
    fun s f vf p => s.instReset f vf p true := rfl

/-- An accepted reset or removal, before it begins. -/
def State.resetTaken (s : State) (e : Fetched) (vf : Nat) (remove : Bool) : Nat × State :=
  let op := s.newOp e .free .running 0
  (op.1, op.2.setInst vf { op.2.inst vf with resetting := some (op.1, remove) })

section
variable {s u : State} {row : Instr} {key count n p : Nat} {e : Fetched} {remove : Bool}
  (hrow : exec row s = onInst key count n s noBody false anyHost fun s f vf p => s.instReset f vf p remove) (entry : s.Entry key count n e u)
  (good : u.instCheck (descHdr e.desc) (noBody e.desc) false (anyHost e.desc) = .ok p)
include hrow entry good

/-- Outside QUIESCED it is refused, and counted. -/
theorem resetRow_refused (loud : u.rd F.PTN_INST_state (descHdr e.desc).target ≠ instQuiesced) :
    Completes row s fun t => t = ((u.endEntry e Status.quiesceRequired 0).bump F.PTN_RESET_REFUSED).requeue s.pending := by
  refine instRow_completes hrow entry good ?_
  rw [State.instReset, if_pos loud]

/-- During a slice reload of the partition it is held. -/
theorem resetRow_held (quiet : u.rd F.PTN_INST_state (descHdr e.desc).target = instQuiesced) (reloads : u.lay.slicePart = some p) :
    Completes row s fun t => ∃ v : State, v = (u.resetTaken e (descHdr e.desc).target remove).2 ∧
      t = State.requeue { v with lay := { v.lay with heldResets := v.lay.heldResets ++ [(u.newOp e .free .running 0).1] } } s.pending := by
  refine instRow_completes hrow entry good ⟨_, rfl, ?_⟩
  rw [State.instReset, if_neg (not_not.2 quiet)]
  dsimp only
  exact congrArg (State.requeue · s.pending) (if_pos reloads)

/-- Else it begins. -/
theorem resetRow_begins (quiet : u.rd F.PTN_INST_state (descHdr e.desc).target = instQuiesced) (stands : u.lay.slicePart ≠ some p) :
    Completes row s fun t => t = ((((u.resetTaken e (descHdr e.desc).target remove).2.beginReset (descHdr e.desc).target).bump
      F.RST_CTX_RESETS).logEv .RST .reset 0 (descHdr e.desc).target).requeue s.pending := by
  refine instRow_completes hrow entry good ?_
  rw [State.instReset, if_neg (not_not.2 quiet)]
  dsimp only
  exact congrArg (State.requeue · s.pending) (if_neg stands)

end

/-! ### The end of a drain (R380) -/

theorem State.drainEnd_ends {s : State} {v : Nat} (fencing : s.rd F.PTN_INST_state v = instFencing) (drained : s.admittedOf v = []) :
    s.drainEnd v = s.quiesced v 0 (s.inst v).drains := if_pos ⟨fencing, drained⟩

theorem State.drainTimeout_ends {s : State} {v : Nat} (fencing : s.rd F.PTN_INST_state v = instFencing) (left : s.admittedOf v ≠ []) :
    s.drainTimeout v = (((((s.setInst v { s.inst v with drains := [] }).instConns v).foldl State.resetConn
      ((s.setInst v { s.inst v with drains := [] }).ctxReset (s.admittedOf v))).bump F.PTN_CTX_RESET_OPS (s.admittedOf v).length).bump
        F.PTN_DRAIN_TIMEOUT).quiesced v (s.admittedOf v).length (s.inst v).drains := by
  unfold State.drainTimeout
  rw [if_neg (not_not.2 fencing)]
  dsimp only
  rw [if_neg left]

/-- Settles O37: an entry by its checks, then by the state it finds (R378). -/
theorem instanceEntries : Obligations.InstanceEntries := by
  intro s u key count p e vf h op
  have reset := exec_instReset_eq key count s
  have remove := exec_instRemove_eq key count s
  have token := exec_instToken_eq key count s
  refine ⟨fun st => ⟨instRow_refused rfl, instRow_refused rfl, instRow_refused rfl, instRow_refused rfl, instRow_refused reset, instRow_refused remove,
      instRow_refused token⟩, fun entry good sums hp => instRow_completes rfl entry good ?create,
    fun entry good sums holds => instRow_completes rfl entry good ?modify,
    fun entry good => ⟨fun lives => instRow_completes rfl entry good ?fence, fun quiet => instRow_completes rfl entry good ?quiet⟩,
    fun entry good quiet open_ => instRow_completes rfl entry good ?resume,
    fun entry good => resetRow_begins reset entry good, fun entry good => resetRow_begins remove entry good,
    fun entry good => ⟨resetRow_refused reset entry good, resetRow_held reset entry good⟩,
    fun entry good => ⟨resetRow_refused remove entry good, resetRow_held remove entry good⟩,
    fun entry good => instRow_completes token entry good ?token,
    fun v hrun hv fencing => ⟨fun drained => ?drained, fun left => ?timeout⟩⟩
  case create =>
    rw [State.instCreate_eq sums]
    obtain ⟨state, part, created, mem⟩ := u.instMade_makes (vf := vf) (allowOf e.desc) hp
    obtain ⟨token, fresh, regs, same⟩ := (u.instMade vf p (allowOf e.desc)).newToken_draws vf
    obtain ⟨rstate, rpart, rcreated, rtoken, rmem⟩ := ((u.instMade vf p (allowOf e.desc)).newToken vf).2.instReady_shows vf p
    have rd := State.rd_of_regs regs
    refine ⟨_, _, rfl, rstate.trans ((rd _ _).trans state), rpart.trans ((rd _ _).trans part), rtoken.trans token, fresh, ?_,
      rmem.trans (same.trans (mem.trans (entry.unfetched ▸ rfl)))⟩
    rw [rcreated, rd, created]
  case modify =>
    unfold State.instModify
    dsimp only
    rw [sums, holds, if_neg (by decide)]
  case fence =>
    unfold State.instQuiesce
    dsimp only
    rw [lives, if_neg (by decide), if_neg (by decide)]
    rfl
  case quiet => exact congrArg (State.requeue · s.pending) (if_pos quiet)
  case resume =>
    have goes : ¬(u.rd F.PTN_INST_state vf ≠ instQuiesced ∨ u.rd F.PTN_PART_halted p = 1) := by
      rw [open_]
      simpa using quiet
    obtain ⟨state, mem, ops, -⟩ := u.goLive_lives vf
    exact ⟨_, congrArg (State.requeue · s.pending) (if_neg goes), state, mem.trans (entry.unfetched ▸ rfl), ops.trans (entry.unfetched ▸ rfl)⟩
  case token =>
    obtain ⟨token, fresh, regs, mem⟩ := u.newToken_draws vf
    exact ⟨_, _, rfl, token, fresh, regs, mem.trans (entry.unfetched ▸ rfl)⟩
  case drained => exact completes_actOn hrun rfl (decide_eq_true hv) (congrArg (State.requeue · s.pending) (State.drainEnd_ends fencing drained))
  case timeout => exact completes_actOn hrun rfl (decide_eq_true hv) ⟨_, congrArg (State.requeue · s.pending) (State.drainTimeout_ends fencing left), rfl⟩

end Sys2Proof.Machine
end

section
/-! PROOFS. The entries of partitions (R383, R384, R386): what each does once its checks pass, and the ends of resets. -/

namespace Sys2Proof.Machine

/-! ### The rows of partition entries (R389) -/

section
variable {s u : State} {row : Instr} {key count n st : Nat} {e : Fetched} {P : State → Prop} {fields : List Byte → Bool} {k : State → Fetched → Nat → State}
  (hrow : exec row s = onPart key count n s fields k) (entry : s.Entry key count n e u)
include hrow entry

/-- An entry of a partition that passes its checks is carried out. -/
theorem partRow_completes (good : u.partCheck (descHdr e.desc) (fields e.desc) = none) (hp : P ((k u e (descHdr e.desc).target).requeue s.pending)) :
    Completes row s P := by
  refine entryRow_completes entry hrow ?_
  rw [good]
  exact hp

/-- An entry of a partition that fails its checks ends with the status of the first. -/
theorem partRow_refused (bad : u.partCheck (descHdr e.desc) (fields e.desc) = some st) :
    Completes row s fun t => t = (u.endEntry e st 0).requeue s.pending := by
  refine entryRow_completes entry hrow ?_
  rw [bad]

end

/-- A PTN_RESET outside a slice reload of its partition, by its checks. -/
theorem ptnReset_completes {s u : State} {key count : Nat} {e : Fetched} {P : State → Prop} (entry : s.Entry key count 0x69 e u)
    (stands : u.lay.slicePart ≠ some (descHdr e.desc).target)
    (hp : P ((match u.partCheck (descHdr e.desc) (noBody e.desc) with
      | some st => u.endEntry e st 0
      | none => u.ptnReset e (descHdr e.desc).target).requeue s.pending)) : Completes (.ptnReset key count) s P := by
  refine entryRow_completes entry rfl ?_
  dsimp only
  rw [if_neg stands]
  exact hp

/-! ### QUIESCE (R386) -/

/-- A partition that has begun to drain for the operation id. -/
def State.ptnDrains (s : State) (p : Nat) (d : Drain) : State := (s.setPart p { s.part p with drains := [d] }).wr F.PTN_PART_state ptnFencing p

/-- A partition whose drain is over. -/
def State.ptnDrained (s : State) (p : Nat) : State := (s.setPart p { s.part p with drains := [] }).wr F.PTN_PART_state ptnQuiesced p

theorem State.ptnDrains_drains (s : State) (p : Nat) (d : Drain) : (s.ptnDrains p d).rd F.PTN_PART_state p = ptnFencing ∧
    ((s.ptnDrains p d).part p).drains = [d] ∧ (s.ptnDrains p d).mem = s.mem ∧ (s.ptnDrains p d).lay = s.lay ∧
    ∀ i, (s.ptnDrains p d).rd F.PTN_INST_state i = s.rd F.PTN_INST_state i := by
  refine ⟨State.rd_wr_self _ F.PTN_PART_state _ _ (by decide), congrArg Part.drains (Tbl.getD_set_self _ _ _ _), rfl, rfl, fun i => ?_⟩
  rw [State.ptnDrains, State.rd_wr_reg _ _ _ _ _ _ (by decide)]
  exact State.rd_of_regs (State.regs_setPart ..) _ _

theorem State.ptnDrained_quiesces (s : State) (p : Nat) : (s.ptnDrained p).rd F.PTN_PART_state p = ptnQuiesced ∧ (s.ptnDrained p).mem = s.mem :=
  ⟨State.rd_wr_self _ F.PTN_PART_state _ _ (by decide), rfl⟩

/-- The instances of a partition are those of its layout that are not ABSENT. -/
theorem State.instsOf_congr {s t : State} (p : Nat) (lay : t.lay = s.lay) (state : ∀ i, t.rd F.PTN_INST_state i = s.rd F.PTN_INST_state i) :
    t.instsOf p = s.instsOf p := by
  unfold State.instsOf State.partDef
  rw [lay]
  simp only [state]

theorem State.partQuiesced_quiesces {s : State} {p : Nat} {d : Drain} (fencing : s.rd F.PTN_PART_state p = ptnFencing) (drains : (s.part p).drains = [d])
    (empty : s.instsOf p = []) : s.partQuiesced p = (s.ptnDrained p).quiesceDone d := by
  unfold State.partQuiesced
  rw [if_pos ⟨fencing, by rw [empty]; rfl⟩]
  dsimp only
  rw [drains]
  rfl

/-- A LIVE partition without instances is QUIESCED at once. -/
theorem State.ptnQuiesce_empty {s : State} {e : Fetched} {p : Nat} (lives : s.rd F.PTN_PART_state p = ptnLive) (empty : s.instsOf p = []) :
    s.ptnQuiesce e p = (((s.newOp e .free .running 0).2.ptnDrains p ⟨s.now, s.drainNs p e.desc, 0, 0, some (s.newOp e .free .running 0).1⟩).ptnDrained
      p).quiesceDone ⟨s.now, s.drainNs p e.desc, 0, 0, some (s.newOp e .free .running 0).1⟩ := by
  have kept : ∀ i, (s.newOp e .free .running 0).2.rd F.PTN_INST_state i = s.rd F.PTN_INST_state i := fun i => by
    have regs : (s.newOp e .free .running 0).2.regs = ((s.bump F.ADM_ADMIT).bump F.ADM_INFLIGHT_ops).regs := rfl
    rw [State.rd_of_regs regs, State.rd_bump_ne _ _ _ _ _ _ (.inl (by decide)), State.rd_bump_ne _ _ _ _ _ _ (.inl (by decide))]
  have now : (s.newOp e .free .running 0).2.now = s.now := rfl
  have lay : (s.newOp e .free .running 0).2.lay = s.lay := rfl
  unfold State.ptnQuiesce
  rw [lives, if_neg (by decide), if_neg (by decide)]
  dsimp only
  generalize s.newOp e .free .running 0 = op at kept now lay ⊢
  obtain ⟨id, u⟩ := op
  dsimp only at kept now lay ⊢
  obtain ⟨state, drains, -, dlay, insts⟩ := u.ptnDrains_drains p ⟨u.now, s.drainNs p e.desc, 0, 0, some id⟩
  have none_ : (u.ptnDrains p ⟨u.now, s.drainNs p e.desc, 0, 0, some id⟩).instsOf p = [] :=
    (State.instsOf_congr p (dlay.trans lay) fun i => (insts i).trans (kept i)).trans empty
  rw [← now, ← State.partQuiesced_quiesces state drains none_]
  change (List.foldl _ (u.ptnDrains p _) (((u.ptnDrains p _).instsOf p).filter _)).partQuiesced p = _
  rw [none_]
  rfl

/-! ### RESUME (R383) -/

/-- Instances that go LIVE, and what else their partition's RESUME leaves. -/
theorem State.goLives (vs : List Nat) (s : State) : (vs.foldl State.goLive s).mem = s.mem ∧ (vs.foldl State.goLive s).ops = s.ops ∧
    (∀ f i, f.reg ≠ F.PTN_INST_state.reg → (vs.foldl State.goLive s).rd f i = s.rd f i) ∧
    ∀ v, v ∈ vs ∨ s.rd F.PTN_INST_state v = instLive → (vs.foldl State.goLive s).rd F.PTN_INST_state v = instLive := by
  induction vs generalizing s with
  | nil => exact ⟨rfl, rfl, fun _ _ _ => rfl, fun v h => h.resolve_left List.not_mem_nil⟩
  | cons w vs ih =>
    obtain ⟨mem, ops, rd, live⟩ := ih (s.goLive w)
    obtain ⟨own, gmem, gops, grd⟩ := s.goLive_lives w
    rw [List.foldl_cons]
    refine ⟨mem.trans gmem, ops.trans gops, fun f i h => (rd f i h).trans (grd f i (.inl h)), fun v h => live v ?_⟩
    by_cases same : v = w
    · subst same
      exact .inr own
    · rcases h with h | h
      · exact .inl ((List.mem_cons.1 h).resolve_left same)
      · exact .inr ((grd _ _ (.inr same)).trans h)

/-- A QUIESCED partition that is not halted is LIVE again with its quiesced instances. -/
theorem State.ptnResume_resumes {s : State} {e : Fetched} {p : Nat} (quiet : s.rd F.PTN_PART_state p = ptnQuiesced)
    (unhalted : s.rd F.PTN_PART_halted p = 0) : s.ptnResume e p = ((((s.instsOf p).filter fun v => s.rd F.PTN_INST_state v == instQuiesced).foldl
      State.goLive (s.wr F.PTN_PART_state ptnLive p)).endEntry e Status.ok 0) := by
  unfold State.ptnResume
  rw [if_neg (by rw [quiet, unhalted]; decide)]

/-! ### The ends of resets (R384, R386) -/

theorem State.instResetDone_ends {s : State} {vf : Nat} (resets : s.rd F.PTN_INST_state vf = instResetting) (wiped : s.cph.wipes = []) :
    s.instResetDone vf = match (s.inst vf).resetting with
    | none => s
    | some (id, true) => (s.absentInst vf).endOp id Status.ok 0
    | some (id, false) => ((s.renewInst vf).2.modOp id fun o => { o with cqe := { o.cqe with result := leBytes 8 (s.renewInst vf).1.toNat } }).endOp id Status.ok 0 := by
  unfold State.instResetDone
  rw [wiped, if_neg (by simp [resets])] <;> rfl

/-- A partition that is reset: its halt cleared, its queues unbound, its meters full, its pool free. -/
def State.ptnRenewed (s : State) (p : Nat) : State :=
  let u := (s.setReg .WQE_PTN_HALT p 0).wr F.PTN_PART_halted 0 p
  let u : State := State.wr { u with xlt := { u.xlt with queues := Tbl.erase u.xlt.queues p } } F.XLT_PTN_CFG_q_bound 0 p
  let u := (((u.fillMeters p).wr F.TAL_PTN_POOL_used 0 p).wr F.TAL_PTN_POOL_borrowed 0 p).showPool
  (u.setPart p { u.part p with resetting := none }).wr F.PTN_PART_state ptnLive p

theorem State.ptnRenewed_renews (s : State) (p : Nat) : (s.ptnRenewed p).rd F.PTN_PART_state p = ptnLive ∧ (s.ptnRenewed p).rd F.PTN_PART_halted p = 0 ∧
    (s.ptnRenewed p).rd F.XLT_PTN_CFG_q_bound p = 0 ∧ (s.ptnRenewed p).rd F.TAL_PTN_POOL_used p = 0 := by
  have setPart : ∀ (t : State) (r : Part) (f : Fld), (t.setPart p r).rd f p = t.rd f p := fun t r f => State.rd_of_regs (State.regs_setPart ..) _ _
  have pool : ∀ (t : State) (f : Fld), f.reg.isLog = false → f.reg ≠ .TAL_POOL → t.showPool.rd f p = t.rd f p := fun t f hl hr => t.showPool_only.rd f p hl hr
  have meters : ∀ (t : State) (f : Fld), (t.fillMeters p).rd f p = t.rd f p := fun t f => State.rd_of_regs rfl _ _
  have queues : ∀ (t : State) (f : Fld), State.rd { t with xlt := { t.xlt with queues := Tbl.erase t.xlt.queues p } } f p = t.rd f p :=
    fun t f => State.rd_of_regs rfl _ _
  unfold State.ptnRenewed
  dsimp only
  refine ⟨State.rd_wr_self _ F.PTN_PART_state _ _ (by decide), ?_, ?_, ?_⟩
  all_goals simp (disch := decide) only [State.rd_wr_bits, State.rd_wr_reg, State.rd_wr_self, setPart, pool, meters, queues, Nat.zero_mod]

theorem State.ptnResetDone_ends {s : State} {p id : Nat} (taken : (s.part p).resetting = some id) (resets : s.rd F.PTN_PART_state p = ptnResetting)
    (wiped : s.cph.wipes = []) (empty : s.instsOf p = []) : s.ptnResetDone p = (s.ptnRenewed p).endOp id Status.ok 0 := by
  unfold State.ptnResetDone
  rw [taken]
  dsimp only
  rw [wiped, if_neg (by simp [resets]), empty]
  rfl

theorem exec_ptnResetDone_eq (s : State) (p : Nat) (ok : Bool) : exec (.ptnResetDone p ok) s = actOn (decide (p < 64)) s fun s =>
    if (s.part p).resetting.isNone then s else if ok then s.ptnResetDone p else s.chipReset 5 := rfl

/-- The row of a partition whose reset runs. -/
theorem ptnResetDone_completes {s : State} {p : Nat} {ok : Bool} {P : State → Prop} (hrun : s.power = .run) (hp : p < 64)
    (taken : (s.part p).resetting.isSome = true) (h : P ((if ok then s.ptnResetDone p else s.chipReset 5).requeue s.pending)) :
    Completes (.ptnResetDone p ok) s P := by
  refine completes_actOn hrun (exec_ptnResetDone_eq s p ok) (decide_eq_true hp) ?_
  rw [if_neg (by rw [Option.isNone_iff_eq_none]; intro none_; simp [none_] at taken)]
  exact h

/-- Settles O38: an entry by its checks, then by the state of its partition; an end by what is being reset. -/
theorem partitionEntries : Obligations.PartitionEntries := by
  intro s u key count e h p op
  refine ⟨fun entry good => partRow_completes rfl entry good rfl, fun entry good => partRow_completes rfl entry good rfl,
    fun st => ⟨partRow_refused rfl, partRow_refused rfl, fun entry stands bad => ptnReset_completes entry stands ?refused⟩,
    fun n hrun hn => completes_actOn hrun rfl (decide_eq_true hn) rfl, fun n hrun hn taken => ptnResetDone_completes hrun hn taken rfl,
    fun n hrun hn => ⟨completes_actOn hrun rfl (decide_eq_true hn) rfl, completes_actOn hrun rfl (decide_eq_true hn) rfl⟩,
    fun entry good => ⟨fun lives empty => partRow_completes rfl entry good ?empty, fun quiet => partRow_completes rfl entry good ?quiet⟩,
    fun entry good quiet unhalted => partRow_completes rfl entry good ?resume,
    fun entry good quiet stands => ptnReset_completes entry stands ?reset,
    fun vf id hrun hvf resets wiped => ⟨fun taken => completes_actOn hrun rfl (decide_eq_true hvf) ?absent,
      fun taken => completes_actOn hrun rfl (decide_eq_true hvf) ?renewed⟩,
    fun part id hrun hpart taken => ⟨fun resets wiped empty => ptnResetDone_completes hrun hpart (by rw [taken]; rfl) ?done,
      ptnResetDone_completes hrun hpart (by rw [taken]; rfl) rfl⟩⟩
  case refused => rw [bad]
  case empty =>
    obtain ⟨state, mem⟩ := (op.2.ptnDrains p ⟨u.now, u.drainNs p e.desc, 0, 0, some op.1⟩).ptnDrained_quiesces p
    obtain ⟨-, -, dmem, -, -⟩ := op.2.ptnDrains_drains p ⟨u.now, u.drainNs p e.desc, 0, 0, some op.1⟩
    exact ⟨_, congrArg (State.requeue · s.pending) (State.ptnQuiesce_empty lives empty), state,
      mem.trans (dmem.trans ((u.newOp_mem ..).trans (entry.unfetched ▸ rfl)))⟩
  case quiet => exact congrArg (State.requeue · s.pending) (if_pos quiet)
  case resume =>
    obtain ⟨mem, ops, rd, live⟩ := State.goLives ((u.instsOf p).filter fun v => u.rd F.PTN_INST_state v == instQuiesced) (u.wr F.PTN_PART_state ptnLive p)
    exact ⟨_, congrArg (State.requeue · s.pending) (State.ptnResume_resumes quiet unhalted),
      (rd _ _ (by decide)).trans (State.rd_wr_self _ F.PTN_PART_state _ _ (by decide)),
      fun vf own state => live vf (.inl (List.mem_filter.2 ⟨own, beq_iff_eq.2 state⟩)), mem.trans (entry.unfetched ▸ rfl), ops.trans (entry.unfetched ▸ rfl)⟩
  case reset =>
    rw [good]
    dsimp only
    rw [State.ptnReset, if_neg (not_not.2 quiet)]
    dsimp only
    exact congrArg (State.requeue · s.pending) (if_neg stands)
  case absent => rw [State.instResetDone_ends resets wiped, taken]
  case renewed => rw [State.instResetDone_ends resets wiped, taken]
  case done =>
    obtain ⟨state, halted, queues, pool⟩ := s.ptnRenewed_renews part
    exact ⟨_, congrArg (State.requeue · s.pending) (State.ptnResetDone_ends taken resets wiped empty), state, halted, queues, pool⟩

end Sys2Proof.Machine
end

section
/-! PROOFS. Reads of the hosts' memory and requests from outside (R312, R315, R317, R319, R323): one equation per outcome. -/

namespace Sys2Proof.Machine

/-! ### Completions (R312) -/

section
variable {s : State} {n : Nat} {r : HostRead} (found : s.hpt.reads[n]? = some r)
include found

theorem State.hostReadDone_unsent (unsent : r.sent = false) (ok : Bool) (data : List Byte) : s.hostReadDone n ok data = s := by
  rw [State.hostReadDone, found]
  dsimp only
  rw [unsent]
  rfl

theorem State.cplTimeout_unsent (unsent : r.sent = false) : s.cplTimeout n = s := by
  rw [State.cplTimeout, found]
  dsimp only
  rw [unsent]
  rfl

theorem State.cplTimeout_read (sent : r.sent = true) : s.cplTimeout n = (s.bump F.HPT_CPL_TIMEOUT 1 r.link).readFailed n r := by
  rw [State.cplTimeout, found]
  dsimp only
  rw [if_pos sent]

/-- The read has come: a read that waits may go out, and the device knows its bytes. -/
def State.readCame (s : State) (n : Nat) (r : HostRead) (data : List Byte) : State :=
  let got := ((s.dropRead n).issueWaiting r.link).bump F.DMV_HOST_RD_BYTES r.len
  { got with hpt := { got.hpt with view := viewPut got.hpt.view (hostKey r.link r.addr) (padTo r.len (data.take r.len)) } }

theorem State.hostReadDone_sent (idle : s.inj = none) (sent : r.sent = true) (ok : Bool) (data : List Byte) : s.hostReadDone n ok data =
    if ok then (if (s.readCame n r data).readsOf r.who then s.readCame n r data else (s.readCame n r data).dataCame r.who r.stale)
    else s.readFailed n r := by
  rw [State.hostReadDone, found]
  dsimp only
  rw [sent, State.inject_idle idle]
  cases ok with
  | true => rfl
  | false => rfl

end

theorem State.cplTimeout_flush {s : State} {k : Nat} {f : Flush} (found : s.hpt.flushes[k]? = some f) (sent : f.sent = true) :
    s.cplTimeout (s.hpt.reads.length + k) = (s.bump F.HPT_CPL_TIMEOUT 1 f.link).flushDone k false := by
  rw [State.cplTimeout, List.getElem?_eq_none (Nat.le_add_right ..)]
  dsimp only
  rw [Nat.add_sub_cancel_left, found]
  dsimp only
  rw [if_pos sent]

/-! ### The aperture (R315, R317) -/

/-- A window answers on no root port. -/
theorem State.isRoot_of_aperture {s : State} {link vf off va : Nat} (h : s.aperture link vf off = some va) : s.isRoot link = false := by
  unfold State.aperture at h
  dsimp only at h
  split at h
  next answers =>
    simp only [State.barAnswers, Bool.and_eq_true, Bool.not_eq_true'] at answers
    tauto
  next => exact absurd h (by simp)

section
variable {s u v : State} {link part vf tag va n : Nat} {locs : List (Loc × Nat)}

/-- A read that translates, by what is poisoned and where its places lie. -/
theorem State.inboundRead_translated {bad : Bool} (root : s.isRoot link = false) (walk : s.lookupRange part vf tag va n .read = (.ok locs, u))
    (check : u.badFor part none locs = (bad, v)) : s.inboundRead link part vf tag va n =
      if bad then v.emit (.tlpCpl link 2 []) else if (hostLocs locs).isEmpty then v.emit (.tlpCpl link 0 (v.readLocs locs))
        else v.issueReads (.aperture link vf tag va n) vf tag (hostLocs locs) := by
  unfold State.inboundRead
  rw [root, walk]
  dsimp only
  rw [Bool.false_and, if_neg Bool.false_ne_true, check]
  cases bad with
  | true => rfl
  | false => rfl

theorem State.inboundRead_stopped {x : Stop} (walk : s.lookupRange part vf tag va n .read = (.error x, u)) :
    s.inboundRead link part vf tag va n = u.inboundFail link part vf tag .read x := by
  unfold State.inboundRead
  rw [walk]

theorem State.inboundWrite_translated {data : List Byte} (root : s.isRoot link = false)
    (walk : s.lookupRange part vf tag va data.length .write = (.ok locs, u)) : s.inboundWrite link part vf tag va data = u.writeLocs vf tag none locs data := by
  unfold State.inboundWrite
  rw [root, walk]
  rfl

theorem State.inboundWrite_stopped {data : List Byte} {x : Stop} (walk : s.lookupRange part vf tag va data.length .write = (.error x, u)) :
    s.inboundWrite link part vf tag va data = u.inboundFail link part vf tag .write x := by
  unfold State.inboundWrite
  rw [walk]

end

/-! ### The rows -/

section
variable {s : State} {link vf off len : Nat} {data : List Byte} {P : State → Prop} (hrun : s.power = .run)
include hrun

section
variable (hl : link < 16) (hvf : vf < 1024)
include hl hvf

theorem apertureRead_completes (h : P ((if !s.linkUp link then s else match s.aperture link vf off with
      | some va => s.inboundRead link ((s.partOf vf).getD 64) vf (s.rd F.HPT_APERTURE_ap_tag vf) va len
      | none => s.unsupported link (some len)).requeue s.pending)) : Completes (.apertureRead link vf off len) s P :=
  completes_actOn hrun rfl (by simp [hl, hvf]) h

theorem apertureWrite_completes (h : P ((if !s.linkUp link then s else match s.aperture link vf off with
      | some va => s.inboundWrite link ((s.partOf vf).getD 64) vf (s.rd F.HPT_APERTURE_ap_tag vf) va data
      | none => s.unsupported link none).requeue s.pending)) : Completes (.apertureWrite link vf off data) s P :=
  completes_actOn hrun rfl (by simp [hl, hvf]) h

section
variable {va : Nat} (up : s.linkUp link = true) (window : s.aperture link vf off = some va)
include up window

theorem apertureRead_through (h : P ((s.inboundRead link ((s.partOf vf).getD 64) vf (s.rd F.HPT_APERTURE_ap_tag vf) va len).requeue s.pending)) :
    Completes (.apertureRead link vf off len) s P := by
  refine apertureRead_completes hrun hl hvf ?_
  rw [up, window]
  exact h

theorem apertureWrite_through (h : P ((s.inboundWrite link ((s.partOf vf).getD 64) vf (s.rd F.HPT_APERTURE_ap_tag vf) va data).requeue s.pending)) :
    Completes (.apertureWrite link vf off data) s P := by
  refine apertureWrite_completes hrun hl hvf ?_
  rw [up, window]
  exact h

end

end

/-- A request of a device below a root port through a link that is up. -/
theorem downstream_completes {rid addr : Nat} {req : BelowRequest} (hl : link < 16) (root : s.isRoot link = true) (up : s.linkUp link = true)
    (h : P ((s.downstream link rid addr len req).requeue s.pending)) : Completes (.downstreamRequest link rid addr len req) s P := by
  refine completes_actOn hrun rfl (by simp [hl, root]) ?_
  rw [if_pos up]
  exact h

end

theorem exec_hostReadCompletion_eq (n : Nat) (ok : Bool) (data : List Byte) (s : State) :
    exec (.hostReadCompletion n ok data) s = act s fun s => (s.hostReadDone n ok data).settle := rfl

theorem exec_cplTimeout_eq (n : Nat) (s : State) : exec (.cplTimeout n) s = act s fun s => (s.cplTimeout n).settle := rfl

theorem State.downstream_known {s : State} {link rid addr len vf tag : Nat} (entry : s.ridEntry link rid = some (vf, tag))
    (unfenced : s.fencedInst vf ((s.partOf vf).getD 64) = false) (req : BelowRequest) : s.downstream link rid addr len req = match req with
      | .write d => s.inboundWrite link ((s.partOf vf).getD 64) vf tag addr d
      | .read => s.inboundRead link ((s.partOf vf).getD 64) vf tag addr len
      | .atomic => s.unsupported link (some 0) := by
  unfold State.downstream
  rw [entry]
  dsimp only
  rw [unfenced, if_neg Bool.false_ne_true]
  cases req with
  | write d => rfl
  | read => rfl
  | atomic => rfl

/-- What a request is answered with where it is unsupported: of a write nothing. -/
def answerBelow : BelowRequest → Option Nat
  | .write _ => none
  | _ => some 0

theorem State.downstream_unknown {s : State} {link rid addr len : Nat} (entry : s.ridEntry link rid = none) (req : BelowRequest) :
    s.downstream link rid addr len req = (s.unsupported link (answerBelow req)).logRefused .HPT 0 rid := by
  unfold State.downstream
  rw [entry]
  cases req with
  | write d => rfl
  | read => rfl
  | atomic => rfl

/-- An Unsupported Request is counted on its link, and a read answered with all ones. -/
theorem State.unsupported_answers (s : State) (link : Nat) (read : Option Nat) : (s.unsupported link read).outbox = s.outbox ++ (match read with
      | some n => [.tlpCpl link 1 (List.replicate n 0xFF)]
      | none => []) ∧ (s.unsupported link read).mem = s.mem ∧
    (s.unsupported link read).rd F.HPT_UR link = (s.rd F.HPT_UR link + 1) % 2 ^ F.HPT_UR.width := by
  cases read with
  | some n => exact ⟨rfl, rfl, State.rd_bump_self _ F.HPT_UR _ _ (by decide)⟩
  | none => exact ⟨(List.append_nil _).symm, rfl, State.rd_bump_self _ F.HPT_UR _ _ (by decide)⟩

/-- Settles O34: completions by what the read at their index is; requests by their window or entry, and by how they translate. -/
theorem hostRequests : Obligations.HostRequests := by
  intro s hrun idle
  refine ⟨fun n r data found sent => ⟨settles_act hrun (exec_hostReadCompletion_eq n true data s) ?came, settles_act hrun (exec_hostReadCompletion_eq n false data s) ?failed,
      settles_act hrun (exec_cplTimeout_eq _ s) (State.cplTimeout_read found sent)⟩,
    fun n r found unsent ok data => ⟨settles_act hrun (exec_hostReadCompletion_eq n ok data s) (State.hostReadDone_unsent found unsent ok data),
      settles_act hrun (exec_cplTimeout_eq _ s) (State.cplTimeout_unsent found unsent)⟩,
    fun k f found sent => settles_act hrun (exec_cplTimeout_eq _ s) (State.cplTimeout_flush found sent),
    fun link vf off va len data locs u v hl hvf up window =>
      ⟨fun walk good dev => apertureRead_through hrun hl hvf up window ?served, fun walk good host => apertureRead_through hrun hl hvf up window ?host,
        fun walk bad => apertureRead_through hrun hl hvf up window ?bad,
        fun walk => apertureWrite_through hrun hl hvf up window
          (congrArg (State.requeue · s.pending) (State.inboundWrite_translated (State.isRoot_of_aperture window) walk))⟩,
    fun link vf off va data x u hl hvf up window =>
      ⟨fun len walk => apertureRead_through hrun hl hvf up window (congrArg (State.requeue · s.pending) (State.inboundRead_stopped walk)),
        fun walk => apertureWrite_through hrun hl hvf up window (congrArg (State.requeue · s.pending) (State.inboundWrite_stopped walk))⟩,
    fun link vf off len data hl hvf down => ⟨apertureRead_completes hrun hl hvf ?downRead, apertureWrite_completes hrun hl hvf ?downWrite⟩,
    fun link vf off len data hl hvf up shut => ⟨apertureRead_completes hrun hl hvf ?shutRead, apertureWrite_completes hrun hl hvf ?shutWrite⟩,
    fun link rid addr len vf tag hl root up entry unfenced =>
      ⟨fun d => downstream_completes hrun hl root up (congrArg (State.requeue · s.pending) (State.downstream_known entry unfenced (.write d))),
        downstream_completes hrun hl root up (congrArg (State.requeue · s.pending) (State.downstream_known entry unfenced .read)),
        downstream_completes hrun hl root up (congrArg (State.requeue · s.pending) (State.downstream_known entry unfenced .atomic))⟩,
    fun link rid addr len hl root up unknown =>
      ⟨fun req kind => downstream_completes hrun hl root up ?unknown, fun d => downstream_completes hrun hl root up ?dropped⟩⟩
  case came =>
    rw [State.hostReadDone_sent found idle sent, if_pos rfl]
    exact ⟨fun last => if_neg (ne_true_of_eq_false last), fun more => if_pos more⟩
  case failed =>
    rw [State.hostReadDone_sent found idle sent]
    rfl
  case served =>
    rw [State.inboundRead_translated (State.isRoot_of_aperture window) walk good, dev]
    exact ⟨rfl, rfl⟩
  case host =>
    rw [State.inboundRead_translated (State.isRoot_of_aperture window) walk good, if_neg Bool.false_ne_true, if_neg (by simpa using host)]
  case bad =>
    rw [State.inboundRead_translated (State.isRoot_of_aperture window) walk bad]
    exact ⟨rfl, rfl⟩
  case downRead =>
    rw [down]
    rfl
  case downWrite =>
    rw [down]
    rfl
  case shutRead =>
    rw [up, shut]
    exact s.unsupported_answers link (some len)
  case shutWrite =>
    rw [up, shut]
    obtain ⟨-, mem, count⟩ := s.unsupported_answers link none
    exact ⟨mem, count⟩
  case unknown =>
    rw [State.downstream_unknown unknown]
    have answered : answerBelow req = some 0 := by
      obtain rfl | rfl := kind
      · rfl
      · rfl
    rw [answered]
    obtain ⟨out, mem, -⟩ := s.unsupported_answers link (some 0)
    exact ⟨(State.outbox_logRefused ..).trans out, (State.mem_logRefused ..).trans mem⟩
  case dropped =>
    rw [State.downstream_unknown unknown]
    obtain ⟨out, mem, -⟩ := s.unsupported_answers link none
    exact ⟨(State.outbox_logRefused ..).trans (out.trans (List.append_nil _)), (State.mem_logRefused ..).trans mem⟩

end Sys2Proof.Machine
end

section
/-! PROOFS. The translation entries (R337, R344, R345, R347, R349): what each does once its checks pass. -/

namespace Sys2Proof.Machine

/-! ### The checks that the entries share (R337) -/

section
variable {s u : State} {row : Instr} {key count n : Nat} {e : Fetched} {P : State → Prop}

/-- An entry whose fields are sound, of a class other than 7 and of the own tag where it names one, is carried out. -/
theorem State.xltEntry_passes {s : State} {f : Fetched} {h : DescHdr} {fields own : Bool} (k : State → State) (good : fields = true) (cls : h.cls ≠ 7)
    (owned : own = true → s.ownsTag f.vf h.tag = true) : s.xltEntry f h fields own k = k s := by
  have passes : ¬(h.cls = 7 ∨ (own = true ∧ (!s.ownsTag f.vf h.tag) = true)) := by
    rintro (h7 | ⟨asked, other⟩)
    · exact cls h7
    · rw [owned asked] at other
      exact absurd other (by decide)
  rw [State.xltEntry, good, if_neg (by decide), if_neg passes]

end

/-! ### AS_CREATE (R328, R338) -/

/-- What XLT_TAG and the partition's count show of a tag that is made. -/
def State.tagShown (s : State) (vf p t : Nat) (remote : Bool) : State :=
  ((((s.wr F.XLT_TAG_state 1 t).wr F.XLT_TAG_vf vf t).wr F.XLT_TAG_partition p t).wr F.XLT_TAG_remote_ok (b2n remote) t).bump F.XLT_PTN_CFG_tags_held 1 p

theorem State.tagShown_shows (s : State) {vf p : Nat} (t : Nat) (remote : Bool) (hvf : vf < 1024) (hp : p < 64) :
    (s.tagShown vf p t remote).rd F.XLT_TAG_state t = 1 ∧ (s.tagShown vf p t remote).rd F.XLT_TAG_vf t = vf ∧
      (s.tagShown vf p t remote).rd F.XLT_TAG_partition t = p := by
  unfold State.tagShown
  refine ⟨?_, ?_, ?_⟩
  all_goals rw [State.rd_bump_ne _ _ _ _ _ _ (.inl (by decide))]
  all_goals simp (disch := decide) only [State.rd_wr_bits, State.rd_wr_self]
  · rfl
  · exact Nat.mod_eq_of_lt hvf
  · exact Nat.mod_eq_of_lt hp

/-- A tag has its root, and a nonce drawn. -/
def State.tagRooted (s : State) (t root : Nat) (ddr : Bool) : Nat × State :=
  (s.drawNonce.1, { s.drawNonce.2 with xlt := { s.drawNonce.2.xlt with
    roots := Tbl.set s.drawNonce.2.xlt.roots t (root, ddr), nonces := Tbl.set s.drawNonce.2.xlt.nonces t s.drawNonce.1 } })

theorem State.tagRooted_roots (s : State) (t root : Nat) (ddr : Bool) : (s.tagRooted t root ddr).2.regs = s.regs ∧
    Tbl.get? (s.tagRooted t root ddr).2.xlt.roots t = some (root, ddr) ∧ Tbl.get? (s.tagRooted t root ddr).2.xlt.nonces t = some (s.tagRooted t root ddr).1 := by
  have regs : s.drawNonce.2.regs = s.regs := rfl
  unfold State.tagRooted
  generalize s.drawNonce = d at regs ⊢
  exact ⟨regs, Tbl.get?_set_self _ _ _, Tbl.get?_set_self _ _ _⟩

theorem State.makeTag_eq (s : State) (vf p t root : Nat) (ddr remote : Bool) :
    s.makeTag vf p t root ddr remote = (s.tagShown vf p t remote).tagRooted t root ddr := by
  unfold State.makeTag State.tagRooted
  dsimp only
  rw [← State.tagShown]

/-- A tag that is made shows whose it is; its root and its nonce stand. -/
theorem State.makeTag_makes (s : State) {vf p : Nat} (t root : Nat) (ddr remote : Bool) (hvf : vf < 1024) (hp : p < 64) :
    (s.makeTag vf p t root ddr remote).2.rd F.XLT_TAG_state t = 1 ∧
    (s.makeTag vf p t root ddr remote).2.rd F.XLT_TAG_vf t = vf ∧ (s.makeTag vf p t root ddr remote).2.rd F.XLT_TAG_partition t = p ∧
    Tbl.get? (s.makeTag vf p t root ddr remote).2.xlt.roots t = some (root, ddr) ∧
    Tbl.get? (s.makeTag vf p t root ddr remote).2.xlt.nonces t = some (s.makeTag vf p t root ddr remote).1 := by
  rw [State.makeTag_eq]
  obtain ⟨state, ofVf, ofPart⟩ := s.tagShown_shows t remote hvf hp
  generalize s.tagShown vf p t remote = w at state ofVf ofPart ⊢
  obtain ⟨regs, root, nonce⟩ := w.tagRooted_roots t root ddr
  have rd := State.rd_of_regs regs
  exact ⟨(rd _ _).trans state, (rd _ _).trans ofVf, (rd _ _).trans ofPart, root, nonce⟩

/-- The tag that AS_CREATE takes: one of those that are free, by a number drawn. -/
def State.tagTaken (s : State) : Nat := s.freeTags.getD (s.drawBelow s.freeTags.length).1 0

theorem State.tagTaken_free {s : State} (some_ : s.freeTags ≠ []) : s.tagTaken ∈ s.freeTags := by
  have inRange : (s.drawBelow s.freeTags.length).1 < s.freeTags.length := Nat.mod_lt _ (List.length_pos_iff.2 some_)
  rw [State.tagTaken, List.getD_eq_getElem _ _ inRange]
  exact List.getElem_mem _

/-- The state in which AS_CREATE has made its tag, and the nonce. -/
def State.tagMade (s : State) (f : Fetched) : Nat × State :=
  (s.drawBelow s.freeTags.length).2.makeTag f.vf (s.rd F.PTN_INST_partition f.vf) s.tagTaken (fieldLE f.desc 16 8) (bitAt (fieldLE f.desc 24 1) 0)
    (bitAt (fieldLE f.desc 24 1) 1)

theorem State.asCreate_creates {s : State} {f : Fetched} {h : DescHdr} (cls : h.cls ≠ 7) (flags : fieldLE f.desc 24 1 < 4)
    (zero : zeroBytes f.desc 25 38 = true) (tag : h.tag = 0) (aligned : fieldLE f.desc 16 8 % 4096 = 0)
    (fits : fieldLE f.desc 16 8 + 4096 ≤ s.shareBytes (s.rd F.PTN_INST_partition f.vf) (b2n (bitAt (fieldLE f.desc 24 1) 0))) (some_ : s.freeTags ≠ [])
    (room : s.rd F.XLT_PTN_CFG_tags_held (s.rd F.PTN_INST_partition f.vf) < s.rd F.XLT_PTN_CFG_tag_limit (s.rd F.PTN_INST_partition f.vf)) :
    s.asCreate f h = (s.tagMade f).2.endEntry f Status.ok 0 (leBytes 2 s.tagTaken ++ leBytes 2 0 ++ leBytes 4 (s.tagMade f).1) := by
  unfold State.asCreate
  dsimp only
  rw [State.xltEntry_passes _ _ cls (by simp)]
  · rw [if_neg (by simpa using ⟨some_, room⟩)]
    rfl
  · simpa [zero, tag, aligned, fits] using Nat.div_eq_of_lt flags

/-! ### Invalidation and RESOLVE (R344, R345, R347, R349) -/

section
variable {s : State} {f : Fetched} {h : DescHdr} (cls : h.cls ≠ 7) (owned : s.ownsTag f.vf h.tag = true)
include cls owned

theorem State.asDestroy_opens (zero : zeroBytes f.desc 16 47 = true) (unnamed : s.tagNamed h.tag = false) : s.asDestroy f h =
    ((s.newOp f .free .running 0).2.wr F.XLT_TAG_state 2 h.tag).openInval h.tag (s.newOp f .free .running 0).1 true true := by
  unfold State.asDestroy
  rw [State.xltEntry_passes _ zero cls fun _ => owned, if_neg (ne_true_of_eq_false unnamed)]

theorem State.invalidate_opens (flags : fieldLE f.desc 16 1 < 2) (zero : zeroBytes f.desc 17 46 = true)
    (room : s.rd F.XLT_PTN_CFG_inval_open (s.rd F.PTN_INST_partition f.vf) < 64) : s.invalidate f h =
    ((s.newOp f .free .running 0).2.bump F.XLT_PTN_CFG_inval_open 1 (s.rd F.PTN_INST_partition f.vf)).openInval h.tag (s.newOp f .free .running 0).1
      (bitAt (fieldLE f.desc 16 1) 0) false := by
  unfold State.invalidate
  dsimp only
  rw [State.xltEntry_passes _ _ cls fun _ => owned]
  · rw [if_neg (Nat.not_le.2 room)]
  · simpa [zero] using Nat.div_eq_of_lt flags

/-- What a RESOLVE retries: how many transfers, the number its operation holds as its result. -/
def State.resolving (s : State) (f : Fetched) (h : DescHdr) : Nat × State :=
  let op := s.newOp f .free .running 0
  let v := op.2.markRetry h.tag (fieldLE f.desc 16 8) (fieldLE f.desc 24 8) op.1
  (v.1, v.2.modOp op.1 fun o => { o with cqe := { o.cqe with result := leBytes 4 v.1 } })

theorem State.resolve_resolves (zero : zeroBytes f.desc 32 31 = true) : s.resolve f h =
    if (s.resolving f h).1 = 0 then ((s.resolving f h).2.bump F.XLT_RESOLVE).endOp (s.newOp f .free .running 0).1 Status.ok 0 else (s.resolving f h).2 := by
  unfold State.resolve
  rw [State.xltEntry_passes _ zero cls fun _ => owned]
  rfl

end

theorem State.markRetry_keeps (s : State) (tag lo n op : Nat) : (s.markRetry tag lo n op).2.regs = s.regs ∧ (s.markRetry tag lo n op).2.ops = s.ops :=
  ⟨rfl, rfl⟩

theorem State.markRetry_empty {s : State} (holds : s.xlt.holds = []) (tag lo n op : Nat) : (s.markRetry tag lo n op).1 = 0 := by
  unfold State.markRetry
  rw [holds]
  rfl

theorem State.newOp_xlt (s : State) (f : Fetched) (a : Admitted) (phase : OpPhase) (length : Nat) : (s.newOp f a phase length).2.xlt = s.xlt := rfl

theorem State.newOp_regs (s : State) (f : Fetched) (a : Admitted) (phase : OpPhase) (length : Nat) :
    (s.newOp f a phase length).2.regs = ((s.bump F.ADM_ADMIT).bump F.ADM_INFLIGHT_ops).regs := rfl

/-- A RESOLVE where nothing is held: its operation, and what is counted so far. -/
theorem State.resolving_empty {s : State} (f : Fetched) (h : DescHdr) (holds : s.xlt.holds = []) : (s.resolving f h).1 = 0 ∧
    (s.resolving f h).2.rd F.XLT_RESOLVE = s.rd F.XLT_RESOLVE ∧
    ((s.resolving f h).2.op? (s.newOp f .free .running 0).1).map (fun o => o.cqe.result) = some (leBytes 4 0) := by
  have xlt := s.newOp_xlt f .free .running 0
  have regs := s.newOp_regs f .free .running 0
  have place := s.newOp_place f .free .running 0
  unfold State.resolving
  dsimp only
  generalize s.newOp f .free .running 0 = op at xlt regs place ⊢
  obtain ⟨id, u⟩ := op
  dsimp only at xlt regs place ⊢
  obtain ⟨mregs, mops⟩ := u.markRetry_keeps h.tag (fieldLE f.desc 16 8) (fieldLE f.desc 24 8) id
  have empty := State.markRetry_empty (s := u) (by rw [xlt, holds]) h.tag (fieldLE f.desc 16 8) (fieldLE f.desc 24 8) id
  obtain ⟨o, found, -⟩ := Option.map_eq_some_iff.1 place
  refine ⟨empty, ?_, ?_⟩
  · rw [State.rd_of_regs ((State.regs_modOp ..).trans (mregs.trans regs)), State.rd_bump_ne _ _ _ _ _ _ (.inl (by decide)),
      State.rd_bump_ne _ _ _ _ _ _ (.inl (by decide))]
  · rw [State.op?_modOp_self, empty, State.op?, mops, ← State.op?, found]
    rfl

/-- No access of the old generation is left: what is held of the tag is walked again, and with nothing the invalidation completes. -/
theorem State.drainInval_drains {s : State} {tag : Nat} {i : Inval} (found : s.xlt.invals.find? (fun i => i.tag == tag && i.started) = some i)
    (unused : s.oldInUse tag = 0) (unheld : (s.xlt.holds.any fun h => h.retry == some i.op) = false) : s.drainInval tag =
    if (s.markRetry tag 0 0 i.op).1 = 0 then (s.markRetry tag 0 0 i.op).2.completeInval tag else (s.markRetry tag 0 0 i.op).2 := by
  unfold State.drainInval
  rw [found]
  dsimp only
  rw [if_neg (by simp [unused, unheld])]
  generalize s.markRetry tag 0 0 i.op = v
  obtain ⟨n, v⟩ := v
  cases n with
  | zero => rfl
  | succ n => rfl

theorem exec_invalidateDrainDone_eq (tag : Nat) (s : State) : exec (.invalidateDrainDone tag) s = act s fun s => s.drainInval tag := rfl

/-! ### The queues (R337, R341) -/

/-- Both queues of a partition bound. -/
def State.queuesBound (s : State) (p vf : Nat) (q : XQueues) : State :=
  ((State.wr { s with xlt := { s.xlt with queues := Tbl.set s.xlt.queues p q } } F.XLT_PTN_CFG_q_vf vf p).wr F.XLT_PTN_CFG_q_bound 1 p).wr F.XLT_PTN_CFG_overflow 0 p

theorem State.queuesBound_binds (s : State) {p vf : Nat} (q : XQueues) (hvf : vf < 1024) : Tbl.get? (s.queuesBound p vf q).xlt.queues p = some q ∧
    (s.queuesBound p vf q).rd F.XLT_PTN_CFG_q_vf p = vf ∧ (s.queuesBound p vf q).rd F.XLT_PTN_CFG_q_bound p = 1 ∧
    (s.queuesBound p vf q).rd F.XLT_PTN_CFG_overflow p = 0 := by
  refine ⟨Tbl.get?_set_self _ _ _, ?_, ?_, ?_⟩
  all_goals simp (disch := decide) only [State.queuesBound, State.rd_wr_bits, State.rd_wr_self]
  · exact Nat.mod_eq_of_lt hvf
  · rfl
  · rfl

section
variable {s : State} {f : Fetched} {h : DescHdr} (cls : h.cls ≠ 7) (owned : s.ownsTag f.vf h.tag = true)
include cls owned

theorem State.fqBind_binds {a b : List Loc} {v w : State} (fq : fieldLE f.desc 16 8 % 4096 = 0) (eq : fieldLE f.desc 24 8 % 4096 = 0)
    (tag : fieldLE f.desc 32 2 < 4096) (vec : fieldLE f.desc 34 2 < 2048) (zero : zeroBytes f.desc 36 27 = true)
    (own : s.ownsTag f.vf (fieldLE f.desc 32 2) = true)
    (free : s.rd F.XLT_PTN_CFG_q_bound (s.rd F.PTN_INST_partition f.vf) = 0 ∨ s.rd F.XLT_PTN_CFG_q_vf (s.rd F.PTN_INST_partition f.vf) = f.vf)
    (pinF : s.pinRange f.vf (s.rd F.PTN_INST_partition f.vf) (fieldLE f.desc 32 2) (fieldLE f.desc 16 8) (2 ^ 17) .write = (some a, v))
    (pinE : v.pinRange f.vf (s.rd F.PTN_INST_partition f.vf) (fieldLE f.desc 32 2) (fieldLE f.desc 24 8) (2 ^ 17) .write = (some b, w)) :
    s.fqBind f h = (w.queuesBound (s.rd F.PTN_INST_partition f.vf) f.vf
      ⟨f.vf, fieldLE f.desc 32 2, fieldLE f.desc 16 8, fieldLE f.desc 24 8, fieldLE f.desc 34 2, 0, 0, 0, 0, a, b⟩).endEntry f Status.ok 0 := by
  have takes : ¬((!s.ownsTag f.vf (fieldLE f.desc 32 2)) = true ∨ (s.rd F.XLT_PTN_CFG_q_bound (s.rd F.PTN_INST_partition f.vf) = 1 ∧
      s.rd F.XLT_PTN_CFG_q_vf (s.rd F.PTN_INST_partition f.vf) ≠ f.vf)) := by
    rw [own]
    rintro (bad | ⟨bound, other⟩)
    · exact absurd bad (by decide)
    · rcases free with unbound | mine
      · omega
      · exact other mine
  unfold State.fqBind
  dsimp only
  rw [State.xltEntry_passes _ _ cls fun _ => owned]
  · rw [if_neg takes, pinF]
    dsimp only
    rw [pinE]
    rfl
  · simp [fq, eq, tag, vec, zero]

/-- The heads of a partition's queues as an acknowledgement leaves them. -/
def State.headsMoved (s : State) (p : Nat) (q : XQueues) (a b : Nat) : State :=
  { s with xlt := { s.xlt with queues := Tbl.set s.xlt.queues p { q with fqHead := a, eqHead := b } } }

omit cls owned in
theorem State.headsMoved_moves (p : Nat) (q : XQueues) (a b : Nat) : Tbl.get? (s.headsMoved p q a b).xlt.queues p = some { q with fqHead := a, eqHead := b } ∧
    (s.headsMoved p q a b).mem = s.mem := ⟨Tbl.get?_set_self _ _ _, rfl⟩

/- The body is put in place through the function's name: its match is on `ackHead`, whose numbers the kernel must not compute. -/
theorem State.queueAck_moves {q : XQueues} {a b : Nat} (zero : zeroBytes f.desc 24 39 = true)
    (bound : Tbl.get? s.xlt.queues (s.rd F.PTN_INST_partition f.vf) = some q) (mine : q.vf = f.vf)
    (fq : ackHead q.fqPosted q.fqHead (fieldLE f.desc 16 4) = some a) (eq : ackHead q.eqPosted q.eqHead (fieldLE f.desc 20 4) = some b) :
    s.queueAck f h = (s.headsMoved (s.rd F.PTN_INST_partition f.vf) q a b).endEntry f Status.ok 0 := by
  have body : State.queueAck = State.queueAck := rfl
  conv_rhs at body => delta State.queueAck
  rw [body]
  simp only [bound, Option.getD_some, fq, eq]
  rw [State.xltEntry_passes _ zero cls fun _ => owned, if_neg (not_not.2 mine), if_pos (by rw [bound]; rfl), State.headsMoved]

end

/-- Settles O25: each entry through the checks it shares, then by what it names. -/
theorem translationEntries : Obligations.TranslationEntries := by
  intro s u key count e h p vf cls
  have drain {P : State → Prop} (hrun : s.power = .run) (hp : P ((s.drainInval h.tag).requeue s.pending)) : Completes (.invalidateDrainDone h.tag) s P :=
    completes_act hrun (exec_invalidateDrainDone_eq h.tag s) hp
  refine ⟨fun entry flags zero tag aligned fits some_ room hvf hp => entryRow_completes entry rfl ?create,
    fun entry zero owned unnamed => entryRow_completes entry rfl (congrArg (State.requeue · s.pending) (State.asDestroy_opens cls owned zero unnamed)),
    fun entry flags zero owned room => entryRow_completes entry rfl (congrArg (State.requeue · s.pending) (State.invalidate_opens cls owned flags zero room)),
    fun i hrun found unused empty => drain hrun ⟨_, rfl, ?drained⟩,
    fun i hrun found unused unheld => drain hrun (congrArg (State.requeue · s.pending) (State.drainInval_drains found unused unheld)),
    fun entry zero owned => entryRow_completes entry rfl (congrArg (State.requeue · s.pending) (State.resolve_resolves cls owned zero)),
    fun entry zero owned empty => entryRow_completes entry rfl ?resolved,
    fun a b v w entry fqAligned eqAligned htag vec zero owned own free hvf pinF pinE => entryRow_completes entry rfl ?bound,
    fun q a b entry zero owned bound mine fq eq => entryRow_completes entry rfl ?moved⟩
  case create =>
    obtain ⟨state, ofVf, ofPart, root, nonce⟩ := (u.drawBelow u.freeTags.length).2.makeTag_makes u.tagTaken (fieldLE e.desc 16 8)
      (bitAt (fieldLE e.desc 24 1) 0) (bitAt (fieldLE e.desc 24 1) 1) hvf hp
    exact ⟨_, _, _, State.tagTaken_free some_,
      congrArg (State.requeue · s.pending) (State.asCreate_creates cls flags zero tag aligned fits some_ room), state, ofVf, ofPart, root, nonce⟩
  case drained =>
    rw [State.drainInval_drains found unused (by rw [empty]; rfl), if_pos (State.markRetry_empty empty ..)]
  case resolved =>
    obtain ⟨none_, counted, result⟩ := State.resolving_empty e h empty
    refine ⟨(u.resolving e h).2.bump F.XLT_RESOLVE, (u.newOp e .free .running 0).1, ?_, (State.rd_bump_self _ F.XLT_RESOLVE _ _ (by decide)).trans (by rw [counted]), ?_⟩
    · rw [State.resolve_resolves cls owned zero, if_pos none_]
    · rw [State.op?, State.ops_bump, ← State.op?, result]
  case bound =>
    exact ⟨_, congrArg (State.requeue · s.pending) (State.fqBind_binds cls owned fqAligned eqAligned htag vec zero own free pinF pinE),
      State.queuesBound_binds w _ hvf⟩
  case moved =>
    obtain ⟨heads, mem⟩ := u.headsMoved_moves p q a b
    exact ⟨_, congrArg (State.requeue · s.pending) (State.queueAck_moves cls owned zero bound mine fq eq), heads, mem.trans (entry.unfetched ▸ rfl)⟩

end Sys2Proof.Machine
end

section
/-! PROOFS. The queue of commands through what every block shares: the logbook, translation, completions, units and their spares.
Only a step takes a command from the queue (log entry 2), so every operation below leaves it as it is. Each is said once, in the order of the model,
by the operation's own equation and by the lemmas of the operations that it is made of. -/

namespace Sys2Proof.Machine

-- The proofs here are many and small, and share the equations of the model: one at a time they need far less memory.
set_option Elab.async false

/-! ### Two states with one queue -/

/-- `t` has the queue of `s`. -/
def State.SameQueue (s t : State) : Prop := t.pending = s.pending

section
variable {α β : Type} {s t : State}

theorem pending_of_pair {q : α × State} {r : α} (e : q = (r, t)) (h : q.2.pending = s.pending) : t.pending = s.pending := by
  rw [← h, e]

theorem pending_foldl (f : State → α → State) (l : List α) (s : State) (h : ∀ s a, (f s a).pending = s.pending) : (l.foldl f s).pending = s.pending :=
  List.foldlRecOn l f (motive := fun t => t.pending = s.pending) rfl fun t ht a _ => (h t a).trans ht

theorem pending_foldl_snd (f : β × State → α → β × State) (l : List α) (q : β × State) (h : ∀ q a, (f q a).2.pending = q.2.pending) :
    (l.foldl f q).2.pending = q.2.pending :=
  List.foldlRecOn l f (motive := fun p => p.2.pending = q.2.pending) rfl fun p hp a _ => (h p a).trans hp

theorem State.SameQueue.foldl {f : State → α → State} {l : List α} (h : s.SameQueue t) (hf : ∀ u a, State.SameQueue u (f u a)) :
    s.SameQueue (l.foldl f t) :=
  (pending_foldl f l t hf).trans h

/-- A match on what a walk found, whose case without a find is written first: stated for any matcher, so that no walk need be run. -/
theorem State.SameQueue.absentFirst {m : Option α × State → (State → State) → (α → State → State) → State} {w : Option α × State} {f : State → State}
    {g : α → State → State} (kept : t.SameQueue w.2) (hf : ∀ u, State.SameQueue u (f u)) (hg : ∀ a u, State.SameQueue u (g a u))
    (absent : ∀ u f g, m (none, u) f g = f u) (found : ∀ a u f g, m (some a, u) f g = g a u) : t.SameQueue (m w f g) := by
  obtain ⟨_ | a, u⟩ := w
  · rw [absent]
    exact (hf u).trans kept
  · rw [found]
    exact (hg a u).trans kept

/-- The same where the find is written first. -/
theorem State.SameQueue.foundFirst {m : Option α × State → (α → State → State) → (State → State) → State} {w : Option α × State} {f : State → State}
    {g : α → State → State} (kept : t.SameQueue w.2) (hf : ∀ u, State.SameQueue u (f u)) (hg : ∀ a u, State.SameQueue u (g a u))
    (absent : ∀ u g f, m (none, u) g f = f u) (found : ∀ a u g f, m (some a, u) g f = g a u) : t.SameQueue (m w g f) :=
  State.SameQueue.absentFirst (m := fun w f g => m w g f) kept hf hg (fun u f g => absent u g f) fun a u f g => found a u g f

end

/-! ### Time, the logbook and injections (R470-R475, R485, R505) -/

theorem State.pending_draw (s : State) : s.draw.2.pending = s.pending := rfl
theorem State.pending_drawBelow (s : State) (n : Nat) : (s.drawBelow n).2.pending = s.pending := rfl
theorem State.pending_zeroRange (s : State) (a n : Nat) : (s.zeroRange a n).pending = s.pending := rfl
theorem State.pending_evt (s : State) (src : Nat) : (s.evt src).pending = s.pending := by
  grind [State.evt, State.pending_bump, pending_foldl]
theorem State.pending_startPage (s : State) : s.startPage.pending = s.pending := by
  grind [State.startPage]
theorem State.pending_pageIfFull (s : State) : s.pageIfFull.pending = s.pending := by
  grind [State.pageIfFull, State.pending_startPage]
theorem State.pending_stageRec (s : State) (r : LogRec) : (s.stageRec r).pending = s.pending := by
  grind [State.stageRec, State.pending_wr, State.pending_bump]
theorem State.pending_trayPut (s : State) (queue dst typ : Nat) (body : List Byte) : (s.trayPut queue dst typ body).pending = s.pending := by
  grind [State.trayPut, State.pending_bump]
theorem State.pending_trayEvent (s : State) (r : LogRec) : (s.trayEvent r).pending = s.pending := by
  grind [State.trayEvent, State.pending_trayPut]
theorem State.pending_logRec_fresh (r : LogRec) (s : State) : (State.logRec.fresh r s).pending = s.pending := by
  grind [State.logRec.fresh, State.pending_trayEvent, State.pending_stageRec, State.pending_pageIfFull]
theorem State.pending_logRec (s : State) (r : LogRec) : (s.logRec r).pending = s.pending := by
  grind [State.logRec, State.pending_bump, State.pending_logRec_fresh]
theorem State.pending_logCheckFail (s : State) (b : Blk) (checker index : Nat) (subjects : List Nat) :
    (s.logCheckFail b checker index subjects).pending = s.pending := by
  grind [State.logCheckFail, State.pending_logEv, State.pending_bump, pending_foldl]
theorem State.pending_inject (s : State) (point index part status : Nat) : (s.inject point index part status).2.pending = s.pending := by
  grind [State.inject, State.pending_wr, State.pending_logEv, State.pending_bump]

/-! ### Translation and the accesses made under it (R328-R343, R358, R359, R362) -/

theorem State.pending_devWrite1 (s : State) (a : Nat) (data : List Byte) : (s.devWrite1 a data).pending = s.pending := by
  grind [State.devWrite1, State.pending_bump, State.pending_memWrite]
theorem State.pending_devWrite (s : State) (a : Nat) (data : List Byte) : (s.devWrite a data).pending = s.pending := by
  grind [State.devWrite, State.pending_memWrite, State.pending_devWrite1, pending_foldl]
theorem State.pending_cachePtrs (s : State) (part vf tag va : Nat) (old : Nat → Option Nat) :
    (s.cachePtrs part vf tag va old).pending = s.pending := by
  grind [State.cachePtrs, State.pending_wr]
theorem State.pending_cacheLeaf (s : State) (l : Leaf) : (s.cacheLeaf l).pending = s.pending := by
  grind [State.cacheLeaf, State.pending_wr]

theorem State.pending_endWalk (s : State) (vf va : Nat) (acc : AccKind) (x : Except (Nat × Nat) Leaf) :
    (s.endWalk vf va acc x).2.pending = s.pending := by
  unfold State.endWalk
  grind [State.pending_cacheLeaf]

theorem State.pending_walkPick (s : State) (part vf tag va : Nat) : (s.walkPick part vf tag va).2.pending = s.pending := by
  grind [State.walkPick, State.pending_draw]
theorem State.pending_walkNow (s : State) (part vf tag va : Nat) (acc : AccKind) : (s.walkNow part vf tag va acc).2.pending = s.pending := by
  grind [State.walkNow, State.pending_bump, State.pending_inject, State.pending_walkPick, State.pending_endWalk, State.pending_cachePtrs]
theorem State.pending_lookup (s : State) (part vf tag va : Nat) (acc : AccKind) : (s.lookup part vf tag va acc).2.pending = s.pending := by
  grind [State.lookup, State.pending_bump, State.pending_walkNow, State.pending_draw]

theorem pending_pinPages {look : Nat → State → XRes × State} (h : ∀ va s, (look va s).2.pending = s.pending) (l : List Nat) (s : State) :
    (pinPages look l s).2.pending = s.pending := by
  induction l generalizing s with
  | nil => rfl
  | cons va l ih => grind [pinPages]

theorem State.pending_lookupPages (s : State) (part vf tag va : Nat) (acc : AccKind) (l : List (Nat × Nat)) :
    (s.lookupPages part vf tag va acc l).2.pending = s.pending := by
  induction l generalizing s with
  | nil => rfl
  | cons a l ih => grind [State.lookupPages, State.pending_lookup]

theorem State.pending_lookupRange (s : State) (part vf tag va n : Nat) (acc : AccKind) :
    (s.lookupRange part vf tag va n acc).2.pending = s.pending := by
  grind [State.lookupRange, State.pending_lookupPages]
theorem State.pending_setBank (s : State) (b st : Nat) : (s.setBank b st).pending = s.pending := by
  grind [State.setBank, State.pending_logEv, State.pending_wr]
theorem State.pending_bankCe (s : State) (b : Nat) : (s.bankCe b).pending = s.pending := by
  grind [State.bankCe, State.pending_wr, State.pending_logEv, State.pending_setBank]
theorem State.pending_corrected (s : State) (t off : Nat) (inj : Bool) : (s.corrected t off inj).pending = s.pending := by
  grind [State.corrected, State.pending_logEv, State.pending_evt, State.pending_bump, State.pending_bankCe]
theorem State.pending_poisonAt (s : State) (t off : Nat) (inj : Bool) : (s.poisonAt t off inj).pending = s.pending := by
  grind [State.poisonAt, State.pending_logEv, State.pending_bump]
theorem State.pending_transientAt (s : State) (t : Nat) : (s.transientAt t).pending = s.pending := by
  grind [State.transientAt, State.pending_bump]
theorem State.pending_eccWord (s : State) (q : Nat × Nat) : (s.eccWord q).pending = s.pending := by
  grind [State.eccWord, State.pending_corrected, State.pending_transientAt, State.pending_poisonAt]
theorem State.pending_eccFind (s : State) (a n : Nat) : (s.eccFind a n).pending = s.pending := by
  grind [State.eccFind, State.pending_eccWord, pending_foldl]
theorem State.pending_eccPoint (s : State) (t part : Nat) (off : Option Nat) : (s.eccPoint t part off).2.pending = s.pending := by
  grind [State.eccPoint, State.pending_drawBelow, State.pending_inject, State.pending_corrected, State.pending_poisonAt]
theorem State.pending_eccRead (s : State) (part a n : Nat) : (s.eccRead part a n).2.pending = s.pending := by
  grind [State.eccRead, State.pending_eccPoint, State.pending_eccFind]
theorem State.pending_slotRead (s : State) (part : Nat) : (s.slotRead part).2.2.pending = s.pending := by
  grind [State.slotRead, State.pending_eccPoint, State.pending_drawBelow, State.pending_eccFind, State.pending_bump]
theorem State.pending_blkExhausted (s : State) (src addr : Nat) (inj : Bool) : (s.blkExhausted src addr inj).pending = s.pending := by
  grind [State.blkExhausted, State.pending_logEv, State.pending_bump]

theorem State.pending_blkCheck (s : State) (part src addr n : Nat) : (s.blkCheck part src addr n).2.pending = s.pending := by
  induction n generalizing s with
  | zero => grind [State.blkCheck, State.pending_blkExhausted, State.pending_inject, State.pending_evt, State.pending_bump]
  | succ n ih => grind [State.blkCheck, State.pending_blkExhausted, State.pending_inject, State.pending_evt, State.pending_bump]

theorem State.pending_badFor (s : State) (part : Nat) (op : Option Nat) (l : List (Loc × Nat)) : (s.badFor part op l).2.pending = s.pending := by
  unfold State.badFor
  grind [State.pending_eccRead, State.pending_blkCheck, State.pending_bump, pending_foldl, pending_foldl_snd]
theorem State.pending_issueReads (s : State) (who : Waiter) (vf tag : Nat) (l : List (Nat × Nat × Nat)) :
    (s.issueReads who vf tag l).pending = s.pending := by
  grind [State.issueReads, State.pending_emit, pending_foldl]
theorem State.pending_postWrite (s : State) (x a tag vf : Nat) (op : Option Nat) (st : Nat) (relaxed : Bool) (data : List Byte) :
    (s.postWrite x a tag vf op st relaxed data).pending = s.pending := by
  grind [State.postWrite, State.pending_bump, State.pending_emit]

theorem State.pending_writeLocs (s : State) (vf tag : Nat) (op : Option Nat) (l : List (Loc × Nat)) (d : List Byte) :
    (s.writeLocs vf tag op l d).pending = s.pending := by
  induction l generalizing s d with
  | nil => rfl
  | cons p l ih =>
    obtain ⟨loc, n⟩ := p
    cases loc with
    | dev a => grind [State.writeLocs, State.pending_devWrite]
    | host x a => grind [State.writeLocs, State.pending_postWrite, State.pending_bump]

theorem State.pending_flushLink (s : State) (link addr : Nat) (who : FlushFor) : (s.flushLink link addr who).pending = s.pending := by
  grind [State.flushLink, State.pending_bump, State.pending_emit]
theorem State.pending_flushLinks (s : State) (links : Tbl (Tbl Nat)) (who : FlushFor) : (s.flushLinks links who).pending = s.pending := by
  grind [State.flushLinks, State.pending_flushLink, pending_foldl]
theorem State.pending_interrupt (s : State) (vf vector : Nat) : (s.interrupt vf vector).pending = s.pending := by
  grind [State.interrupt, State.pending_setInst, State.pending_emit]
theorem State.pending_loseRec (s : State) (r : XRec) : (s.loseRec r).pending = s.pending := by
  grind [State.loseRec, State.pending_bumpSat, State.pending_bump]
theorem State.pending_writeRec (s : State) (r : XRec) : (s.writeRec r).pending = s.pending := by
  grind [State.writeRec, State.pending_loseRec, State.pending_devWrite, State.pending_postWrite]
theorem State.pending_writeBatch (s : State) (part : Nat) : (s.writeBatch part).pending = s.pending := by
  grind [State.writeBatch, State.pending_writeRec, State.pending_interrupt, pending_foldl]
theorem State.pending_gatherRec (s : State) (r : XRec) : (s.gatherRec r).pending = s.pending := by
  grind [State.gatherRec, State.pending_writeBatch]
theorem State.pending_raiseFault (s : State) (r : XRec) : (s.raiseFault r).pending = s.pending := by
  grind [State.raiseFault, State.pending_evt, State.pending_bump, State.pending_gatherRec]
theorem State.pending_raiseViolation (s : State) (r : XRec) : (s.raiseViolation r).pending = s.pending := by
  grind [State.raiseViolation, State.pending_gatherRec, State.pending_bump]
theorem State.pending_hold (s : State) (tag va : Nat) (acc : AccKind) (remote : Bool) (who : Waiter) :
    (s.hold tag va acc remote who).pending = s.pending := rfl

/-! ### Completions (R231, R235, R236, R249-R253, R324) -/

theorem State.pending_modRing (s : State) (key : Nat) (f : Ring → Ring) : (s.modRing key f).pending = s.pending := by
  grind [State.modRing, State.pending_setRing]
theorem State.pending_ringWrite (s : State) (key : Nat) (r : Ring) (off : Nat) (data : List Byte) :
    (s.ringWrite key r off data).pending = s.pending := by
  grind [State.ringWrite, State.pending_devWrite, State.pending_bump, State.pending_postWrite]
theorem State.pending_postNow (s : State) (key : Nat) (c : Cqe) : (s.postNow key c).pending = s.pending := by
  grind [State.postNow, State.pending_ringWrite, State.pending_interrupt, State.pending_wr, State.pending_setRing]
theorem State.pending_holdCqe (s : State) (key : Nat) (c : Cqe) : (s.holdCqe key c).pending = s.pending := by
  grind [State.holdCqe, State.pending_wr, State.pending_setInst]
theorem State.pending_postCqe (s : State) (key : Nat) (c : Cqe) : (s.postCqe key c).pending = s.pending := by
  grind [State.postCqe, State.pending_bump, State.pending_holdCqe, State.pending_postNow]
theorem State.pending_useSlot (s : State) (key count : Nat) (c : Cqe) : (s.useSlot key count c).pending = s.pending := by
  grind [State.useSlot, State.pending_postCqe, State.pending_modRing]
theorem State.pending_retireOp (s : State) (id : Nat) (o : Op) : (s.retireOp id o).pending = s.pending := by
  grind [State.retireOp, State.pending_lower, State.pending_evt, State.pending_bump, State.pending_setInst, State.pending_useSlot]

theorem State.pending_postInOrder (s : State) (key n : Nat) : (s.postInOrder key n).pending = s.pending := by
  induction n generalizing s with
  | zero => rfl
  | succ n ih =>
    unfold State.postInOrder
    split
    · split
      · split
        · rw [ih, State.pending_useSlot]
        · split
          · rw [ih, State.pending_retireOp]
          · rfl
      · rfl
    · rfl

theorem State.pending_completeEntry (s : State) (key count : Nat) (c : Cqe) : (s.completeEntry key count c).pending = s.pending := by
  grind [State.completeEntry, State.pending_postInOrder, State.pending_setRing, State.pending_useSlot]
theorem State.pending_postOp (s : State) (id : Nat) : (s.postOp id).pending = s.pending := by
  grind [State.postOp, State.pending_postInOrder, State.pending_setOp, State.pending_retireOp]
theorem State.pending_endOp (s : State) (id status sub : Nat) : (s.endOp id status sub).pending = s.pending := by
  grind [State.endOp, State.pending_postOp, State.pending_setOp, State.pending_flushLinks]
theorem State.pending_killOp (s : State) (id status sub : Nat) : (s.killOp id status sub).pending = s.pending := by
  grind [State.killOp, State.pending_postOp, State.pending_setOp]
theorem State.pending_resolvesDone (s : State) : s.resolvesDone.pending = s.pending := by
  grind [State.resolvesDone, State.pending_endOp, State.pending_bump, pending_foldl]
theorem State.pending_markRemote (s : State) (id code : Nat) : (s.markRemote id code).pending = s.pending := by
  grind [State.markRemote, State.pending_modOp]
theorem State.pending_recordCause (s : State) (id cause : Nat) : (s.recordCause id cause).pending = s.pending := by
  grind [State.recordCause, State.pending_modOp]

/-! ### The end of a checkpoint stream (R428-R430) -/

theorem State.pending_modTgt (s : State) (t : Nat) (f : CkpTgt → CkpTgt) : (s.modTgt t f).pending = s.pending := by
  grind [State.modTgt, State.pending_setTgt]
theorem State.pending_showStream (s : State) (n : Nat) : (s.showStream n).pending = s.pending := by
  grind [State.showStream, State.pending_wr]
theorem State.pending_releaseStream (s : State) (n : Nat) : (s.releaseStream n).pending = s.pending := by
  grind [State.releaseStream, State.pending_lower, State.pending_setReg]
theorem State.pending_endStream (s : State) (n status reason sf : Nat) (bad : Option Nat) (kill : Bool) :
    (s.endStream n status reason sf bad kill).pending = s.pending := by
  grind [State.endStream, State.pending_setStream, State.pending_modOp, State.pending_releaseStream, State.pending_killOp, State.pending_endOp]

/-! ### Units and their spares (R31-R33, R480) -/

theorem State.pending_spareCounts (s : State) (res active spare retired : Nat) : (s.spareCounts res active spare retired).pending = s.pending := by
  grind [State.spareCounts, State.pending_wr, State.pending_logEv]
theorem State.pending_countRetired (s : State) (res unit : Nat) (wasSpare : Bool) : (s.countRetired res unit wasSpare).pending = s.pending := by
  grind [State.countRetired, State.pending_spareCounts, State.pending_logEv]
theorem State.pending_assignEgress (s : State) : s.assignEgress.pending = s.pending := by
  grind [State.assignEgress, State.pending_wr, pending_foldl]
theorem State.pending_countMapped (s : State) (res unit spare : Nat) : (s.countMapped res unit spare).pending = s.pending := by
  grind [State.countMapped, State.pending_spareCounts, State.pending_logEv]
theorem State.pending_noteMapped (s : State) (res unit spare : Nat) : (s.noteMapped res unit spare).pending = s.pending := rfl
theorem State.pending_unmap (s : State) (res unit : Nat) : (s.unmap res unit).pending = s.pending := rfl
theorem State.pending_enterSpare (s : State) (res : Nat) (f : Fld) (unit spare : Nat) : (s.enterSpare res f unit spare).pending = s.pending := by
  grind [State.enterSpare, State.pending_countMapped, State.pending_noteMapped, State.pending_wr, State.pending_assignEgress]
theorem State.pending_mapUnits (s : State) (res : Nat) (f : Fld) : (s.mapUnits res f).pending = s.pending := by
  grind [State.mapUnits, State.pending_enterSpare, pending_foldl]
theorem State.pending_mapOne (s : State) (res unit spare : Nat) : (s.mapOne res unit spare).pending = s.pending := by
  grind [State.mapOne, State.pending_countMapped, State.pending_noteMapped]
theorem State.pending_mapCounted (s : State) (res : Nat) : (s.mapCounted res).pending = s.pending := by
  grind [State.mapCounted, State.pending_mapOne, pending_foldl]
theorem State.pending_retireCounted (s : State) (res unit : Nat) (wasSpare : Bool) : (s.retireCounted res unit wasSpare).pending = s.pending := by
  grind [State.retireCounted, State.pending_countRetired]
theorem State.pending_retireSound (s : State) (res unit : Nat) : (s.retireSound res unit).pending = s.pending := by
  grind [State.retireSound, State.pending_retireCounted, State.pending_unmap]
theorem State.pending_retireUnit (s : State) (res unit : Nat) : (s.retireUnit res unit).pending = s.pending := by
  grind [State.retireUnit, State.pending_countRetired, State.pending_logEv, State.pending_unmap, State.pending_wr, State.pending_assignEgress]

end Sys2Proof.Machine
end

section
/-! PROOFS. The queue of commands through the transport and the commons: packets, connections, groups and work queues. -/

namespace Sys2Proof.Machine

-- The proofs here are many and small, and share the equations of the model: one at a time they need far less memory.
set_option Elab.async false

/-! ### Sending on the fabric (R202, R207, R212, R215, R216, R296, R301, R397) -/

theorem State.pending_setSlot (s : State) (svc n : Nat) (k : KeySlot) : (s.setSlot svc n k).pending = s.pending := by
  grind [State.setSlot]
theorem State.pending_coreMismatch (s : State) : s.coreMismatch.pending = s.pending := by
  grind [State.coreMismatch, State.pending_bump, State.pending_drawBelow, State.pending_retireUnit]

theorem State.pending_coreChecks (s : State) (part n : Nat) : (s.coreChecks part n).2.pending = s.pending := by
  induction n generalizing s with
  | zero => rfl
  | succ n ih => grind [State.coreChecks, State.pending_inject, State.pending_coreMismatch]

theorem State.pending_seal (s : State) (svc slot : Nat) (p : Packet) {r : Packet × Option Seal × State} (h : s.seal svc slot p = some r) :
    r.2.2.pending = s.pending := by
  unfold State.seal at h
  grind [State.pending_coreChecks, State.pending_setSlot, State.pending_bump, State.pending_logEv]

theorem State.pending_modConn (s : State) (c : Nat) (f : Conn → Conn) : (s.modConn c f).pending = s.pending := by
  grind [State.modConn, State.pending_setConn]
theorem State.pending_connPort (s : State) (c : Nat) (k : Conn) (cls : Nat) : (s.connPort c k cls).2.pending = s.pending := by
  grind [State.connPort, State.pending_modConn]
theorem State.pending_measure (s : State) (p : Nat) : (s.measure p).pending = s.pending := by
  grind [State.measure, State.pending_modLport]
theorem State.pending_pushFrame (s : State) (q : Queued) : (s.pushFrame q).pending = s.pending := by
  grind [State.pushFrame, State.pending_measure, State.pending_bump, State.pending_modLport]
theorem State.pending_enqueue (s : State) (port stamp start : Nat) (p : Packet) (conn vf : Option Nat) (x : Option Seal) :
    (s.enqueue port stamp start p conn vf x).pending = s.pending := by
  grind [State.enqueue, State.pending_pushFrame]
theorem State.pending_runTimer (s : State) (c psn : Nat) (port : Option Nat) : (s.runTimer c psn port).pending = s.pending := by
  grind [State.runTimer, State.pending_modConn]
theorem State.pending_runRoceTimer (s : State) (c psn : Nat) : (s.runRoceTimer c psn).pending = s.pending := by
  grind [State.runRoceTimer, State.pending_modConn]
theorem State.pending_timerOf (s : State) (q : Queued) (port : Option Nat) : (s.timerOf q port).pending = s.pending := by
  grind [State.timerOf, State.pending_runRoceTimer, State.pending_runTimer]
theorem State.pending_carry (s : State) (k : Conn) (p : Packet) : (s.carry k p).pending = s.pending := by
  grind [State.carry, State.pending_modOp]

theorem State.pending_sendPkt (s : State) (c : Nat) (k : Conn) (p : Packet) (timer : Bool) (op : Option Nat) :
    (s.sendPkt c k p timer op).2.pending = s.pending := by
  unfold State.sendPkt
  split
  next pid t drawn =>
    have first : t.pending = s.pending := by grind [State.pending_drawBelow]
    clear drawn
    dsimp only
    split
    · exact first
    next p' x u sealed =>
      have kept := (State.pending_seal _ _ _ _ sealed).trans first
      grind [State.pending_connPort, State.pending_carry, State.pending_enqueue, State.pending_runTimer]

theorem State.pending_sendCtl (s : State) (c : Nat) (k : Conn) (ext : Ext) (psn msn : Nat) : (s.sendCtl c k ext psn msn).pending = s.pending := by
  grind [State.sendCtl, State.pending_sendPkt]
theorem State.pending_renumber (s : State) (c old new : Nat) (op : Option Nat) : (s.renumber c old new op).pending = s.pending := by
  unfold State.renumber
  grind [State.pending_modOp]
theorem State.pending_numbered (s : State) (c : Nat) (k : Conn) (p : Packet) (op : Option Nat) : (s.numbered c k p op).pending = s.pending := by
  grind [State.numbered, State.pending_renumber, State.pending_setConn]

theorem State.pending_pump (s : State) (c n : Nat) : (s.pump c n).pending = s.pending := by
  induction n generalizing s with
  | zero => rfl
  | succ n ih =>
    unfold State.pump
    split
    · rfl
    · dsimp only
      split
      · rfl
      next p op _ =>
        split
        · split
          next sent =>
            have kept := congrArg (fun q => q.2.pending) sent
            rw [ih, ← kept, State.pending_sendPkt, State.pending_setConn, State.pending_numbered]
          · split
            · rw [ih, State.pending_endOp, State.pending_setConn]
            · rw [ih, State.pending_modConn, State.pending_setConn]
        · grind [State.pending_recordCause]

theorem State.pending_queuePkts (s : State) (c : Nat) (ps : List Packet) (op : Option Nat) : (s.queuePkts c ps op).pending = s.pending := by
  grind [State.queuePkts, State.pending_pump, State.pending_setConn]
theorem State.pending_openMsg (s : State) (c : Nat) (op : Option Nat) (len : Nat) : (s.openMsg c op len).2.pending = s.pending := by
  grind [State.openMsg, State.pending_setConn]
theorem State.pending_sendMsg (s : State) (c cls : Nat) (ext : Ext) (solicit : Bool) (data : List Byte) (op : Option Nat) :
    (s.sendMsg c cls ext solicit data op).pending = s.pending := by
  grind [State.sendMsg, State.pending_openMsg, State.pending_queuePkts]

/-! ### Ends of connections and their contexts (R207, R211, R213, R222, R224, R225) -/

theorem State.pending_showCtx (s : State) (p : Nat) : (s.showCtx p).pending = s.pending := by
  grind [State.showCtx, State.pending_wr]
theorem State.pending_bringIn (s : State) (c : Nat) : (s.bringIn c).2.pending = s.pending := by
  grind [State.bringIn, State.pending_showCtx, State.pending_bump]
theorem State.pending_addConn (s : State) (c : Nat) (k : Conn) : (s.addConn c k).pending = s.pending := by
  grind [State.addConn, State.pending_drawBelow, State.pending_setConn, State.pending_bringIn, State.pending_showCtx]
theorem State.pending_sendProbe (s : State) (c : Nat) (k : Conn) : (s.sendProbe c k).pending = s.pending := by
  grind [State.sendProbe, State.pending_sendPkt]
theorem State.pending_showMiss (s : State) : s.showMiss.pending = s.pending := by
  grind [State.showMiss, State.pending_wr]
theorem State.pending_dropHolds (s : State) (c : Nat) : (s.dropHolds c).pending = s.pending := by
  grind [State.dropHolds, State.pending_showMiss]
theorem State.pending_showRecv (s : State) (c id : Nat) : (s.showRecv c id).pending = s.pending := by
  grind [State.showRecv, State.pending_modOp]
theorem State.pending_endOpsOfConn (s : State) (c status sub : Nat) (remote : Bool) : (s.endOpsOfConn c status sub remote).pending = s.pending := by
  grind [State.endOpsOfConn, State.pending_markRemote, State.pending_endOp, State.pending_showRecv, pending_foldl]
theorem State.pending_freeConn (s : State) (c : Nat) (status : Option Nat) : (s.freeConn c status).pending = s.pending := by
  unfold State.freeConn
  grind [State.pending_endOpsOfConn, State.pending_dropHolds, State.pending_showCtx]
theorem State.pending_advanceEpoch (s : State) (c : Nat) : (s.advanceEpoch c).pending = s.pending := by
  grind [State.advanceEpoch, State.pending_dropHolds, State.pending_setConn]
theorem State.pending_sendAck (s : State) (c : Nat) : (s.sendAck c).pending = s.pending := by
  grind [State.sendAck, State.pending_sendCtl, State.pending_setConn]
theorem State.pending_endMsg (s : State) (c msn : Nat) : (s.endMsg c msn).pending = s.pending := by
  grind [State.endMsg, State.pending_sendAck, State.pending_setConn]

/-! ### The receiving end of the transport (R203, R208, R210, R212, R534) -/

theorem State.pending_hear (s : State) (dev : Nat) : (s.hear dev).pending = s.pending := rfl
theorem State.pending_takeRecv (s : State) (k : Conn) (ssn : Nat) : (s.takeRecv k ssn).2.pending = s.pending := by
  grind [State.takeRecv, State.pending_setRing]
theorem State.pending_endRecv (s : State) (id st len imm ssn : Nat) : (s.endRecv id st len imm ssn).pending = s.pending := by
  grind [State.endRecv, State.pending_endOp, State.pending_modOp]
theorem State.pending_remoteRange (s : State) (k : Conn) (rkey va n : Nat) (acc : AccKind) :
    (s.remoteRange k rkey va n acc).2.pending = s.pending := by
  grind [State.remoteRange, State.pending_lookupRange]

theorem State.pending_receiveEvent (s : State) (k : Conn) (m : OpenMsg) : (s.receiveEvent k m).pending = s.pending := by
  unfold State.receiveEvent
  split
  · rfl
  · split
    · exact State.pending_bump ..
    · exact State.pending_postCqe ..

theorem State.pending_showMsg (s : State) (c msn : Nat) : (s.showMsg c msn).pending = s.pending := by
  grind [State.showMsg, State.pending_endRecv, State.pending_receiveEvent, State.pending_endMsg]

/-! ### The sending end of the transport (R209, R216, R217, R219, R534) -/

theorem State.pending_finishMsgs (s : State) (id : Nat) : (s.finishMsgs id).pending = s.pending := by
  grind [State.finishMsgs, State.pending_endOp, State.pending_markRemote]
theorem State.pending_msgOk (s : State) (id msn len : Nat) : (s.msgOk id msn len).pending = s.pending := by
  grind [State.msgOk, State.pending_finishMsgs, State.pending_modOp]
theorem State.pending_tryCloseRoce (s : State) (c : Nat) (k : Conn) : (s.tryCloseRoce c k).pending = s.pending := by
  grind [State.tryCloseRoce, State.pending_freeConn]
theorem State.pending_tryClose (s : State) (c : Nat) : (s.tryClose c).pending = s.pending := by
  grind [State.tryClose, State.pending_tryCloseRoce, State.pending_setConn, State.pending_queuePkts]
theorem State.pending_resend (s : State) (c : Nat) (k : Conn) (x : Sent) (ackReq : Bool) : (s.resend c k x ackReq).pending = s.pending := by
  grind [State.resend, State.pending_setConn, State.pending_sendPkt, State.pending_endOp]

/-! ### Tally units (R80-R95) -/

theorem State.pending_roundings (s : State) (rnd n : Nat) : (s.roundings rnd n).2.pending = s.pending := by
  grind [State.roundings]
theorem State.pending_showPool (s : State) : s.showPool.pending = s.pending := by
  grind [State.showPool, State.pending_wr]
theorem State.pending_releasePool (s : State) (p own borrowed : Nat) : (s.releasePool p own borrowed).pending = s.pending := by
  grind [State.releasePool, State.pending_showPool, State.pending_lower]

/-! ### Groups, their connections and their reports (R118) -/

theorem State.pending_modGroup (s : State) (slot : Nat) (f : Group → Group) : (s.modGroup slot f).pending = s.pending := by
  grind [State.modGroup, State.pending_setGroup]
theorem State.pending_modColl (s : State) (op : Nat) (f : Coll → Coll) : (s.modColl op f).pending = s.pending := rfl
theorem State.pending_inboxAdd (s : State) (m : CMsg) : (s.inboxAdd m).pending = s.pending := rfl
theorem State.pending_cmnEnd (s : State) (slot : Nat) (g : Group) (svc dev : Nat) {r : Nat × State} (h : (s.cmnEnd slot g svc dev) = some r) :
    r.2.pending = s.pending := by
  grind [State.cmnEnd, State.pending_addConn]

theorem State.pending_cmnOpen (s : State) (slot : Nat) (g : Group) (svc dev : Nat) {r : Nat × State} (h : s.cmnOpen slot g svc dev = some r) :
    r.2.pending = s.pending := by
  unfold State.cmnOpen at h
  split at h
  · cases h
  next ended =>
    have kept := State.pending_cmnEnd _ _ _ _ _ ended
    split at h
    · cases h
      exact (State.pending_sendProbe ..).trans kept
    · cases h

theorem State.pending_reportLoss (s : State) (slot rank : Nat) : (s.reportLoss slot rank).pending = s.pending := by
  grind [State.reportLoss, State.pending_emit]
theorem State.pending_seeLoss (s : State) (slot : Nat) (ranks : List Nat) : (s.seeLoss slot ranks).pending = s.pending := by
  grind [State.seeLoss, State.pending_setGroup, State.pending_inboxAdd, State.pending_reportLoss, pending_foldl]

theorem State.pending_cmnSend (s : State) (slot svc dev cls : Nat) (ext : Ext) (data : List Byte) :
    (s.cmnSend slot svc dev cls ext data).pending = s.pending := by
  unfold State.cmnSend
  split
  · rw [State.pending_sendMsg]
  · split
    · rfl
    · dsimp only
      split
      · rw [State.pending_setGroup]
      · split
        next opened => rw [State.pending_cmnOpen _ _ _ _ _ opened, State.pending_setGroup]
        · rw [State.pending_seeLoss, State.pending_setGroup]

theorem State.pending_coordTo (s : State) (slot rank concerns nseq key : Nat) (b : CBody) (notice tree : Bool) :
    (s.coordTo slot rank concerns nseq key b notice tree).pending = s.pending := by
  grind [State.coordTo, State.pending_inboxAdd, State.pending_cmnSend]
theorem State.pending_reportUp (s : State) (slot rank concerns key : Nat) (b : CBody) :
    (s.reportUp slot rank concerns key b).pending = s.pending := by
  grind [State.reportUp, State.pending_coordTo]
theorem State.pending_ownReport (s : State) (slot rank key : Nat) (b : CBody) : (s.ownReport slot rank key b).pending = s.pending := by
  grind [State.ownReport, State.pending_inboxAdd]
theorem State.pending_notify (s : State) (slot key : Nat) (b : CBody) : (s.notify slot key b).pending = s.pending := by
  grind [State.notify, State.pending_inboxAdd, State.pending_setGroup]
theorem State.pending_modBind (s : State) (slot copy : Nat) (f : Bind → Bind) : (s.modBind slot copy f).pending = s.pending := rfl
theorem State.pending_setCopy (s : State) (slot copy st : Nat) (bundles : List Nat) : (s.setCopy slot copy st bundles).pending = s.pending := by
  grind [State.setCopy, State.pending_logEv, State.pending_modBind, pending_foldl]
theorem State.pending_unbindNodes (s : State) (l : List Node) : (s.unbindNodes l).pending = s.pending := by
  grind [State.unbindNodes, State.pending_lower, pending_foldl]
theorem State.pending_commitBlock (s : State) (m : MillBlk) : (s.commitBlock m).pending = s.pending := by
  grind [State.commitBlock, State.pending_modColl, State.pending_modOp, State.pending_writeLocs, State.pending_bump, pending_foldl]
theorem State.pending_freeEngines (s : State) (op : Nat) : (s.freeEngines op).pending = s.pending := by
  grind [State.freeEngines, State.pending_commitBlock, State.pending_wr, State.pending_modColl, pending_foldl]
theorem State.pending_millIdle (s : State) (p : Nat) : (s.millIdle p).pending = s.pending := by
  grind [State.millIdle, State.pending_wr]
theorem State.pending_dropColl (s : State) (c : Coll) : (s.dropColl c).pending = s.pending := by
  grind [State.dropColl, State.pending_freeEngines, State.pending_unbindNodes, State.pending_millIdle, State.pending_releasePool]
theorem State.pending_countEnding (s : State) (status : Nat) : (s.countEnding status).pending = s.pending := by
  grind [State.countEnding, State.pending_bump]

theorem State.pending_endColl (s : State) (c : Coll) (status sub cause culprit bundles : Nat) :
    (s.endColl c status sub cause culprit bundles).pending = s.pending := by
  grind [State.endColl, State.pending_countEnding, State.pending_dropColl, State.pending_modGroup, State.pending_modOp, State.pending_wr,
    State.pending_endOp, pending_foldl]

theorem State.pending_spoilCopies (s : State) (c : Coll) : (s.spoilCopies c).pending = s.pending := by
  grind [State.spoilCopies, State.pending_setCopy, pending_foldl]
theorem State.pending_endLocally (s : State) (id status sub : Nat) : (s.endLocally id status sub).pending = s.pending := by
  grind [State.endLocally, State.pending_freeEngines, State.pending_endOp, State.pending_ownReport, State.pending_spoilCopies, State.pending_endColl,
    pending_foldl]

/-! ### Work queues (R233-R236, R315) -/

theorem State.pending_refuseWrite (s : State) (b : Blk) (off : Nat) (index : Nat) : (s.refuseWrite b off index).pending = s.pending := by
  grind [State.refuseWrite, State.pending_logEv]
theorem State.pending_forgetEntry (s : State) (r : Ring) (count : Nat) : (s.forgetEntry r count).pending = s.pending := by
  grind [State.forgetEntry]
theorem State.pending_dropFetched (s : State) (mine : Nat → Bool) (status sub : Nat) : (s.dropFetched mine status sub).pending = s.pending := by
  grind [State.dropFetched, State.pending_completeEntry, pending_foldl]

theorem State.pending_abortOwned (s : State) (key n : Nat) : (s.abortOwned key n).pending = s.pending := by
  induction n generalizing s with
  | zero => rw [State.abortOwned, State.pending_modRing]
  | succ n ih =>
    rw [State.abortOwned]
    rcases s.ring? key with _ | r
    · rfl
    · dsimp only
      split
      · rw [State.pending_modRing]
      · split
        · split
          · rw [ih, State.pending_completeEntry, State.pending_setRing, State.pending_forgetEntry]
          · rw [State.pending_modRing, State.pending_forgetEntry]
        · split
          · rw [State.pending_modRing]
          · split
            · rfl
            · rw [State.pending_issueReads]
        · rw [State.pending_modRing]

theorem State.pending_windDown (s : State) (id status sub : Nat) : (s.windDown id status sub).pending = s.pending := by
  grind [State.windDown, State.pending_setOp, State.pending_endLocally, State.pending_endStream, State.pending_setConn, State.pending_showRecv,
    State.pending_endOp]
theorem State.pending_ringStop (s : State) (key : Nat) : (s.ringStop key).pending = s.pending := by
  grind [State.ringStop, State.pending_modRing, State.pending_dropFetched, State.pending_abortOwned, State.pending_windDown, pending_foldl]

/-! ### The gatekeeper (R263-R266) -/

theorem State.pending_setBucket (s : State) (vf : Nat) (k : ℤ) (frac : Nat) : (s.setBucket vf k frac).pending = s.pending := by
  grind [State.setBucket, State.pending_wr, State.pending_setInst]

end Sys2Proof.Machine
end

section
/-! PROOFS. The queue of commands through collective operations, training steps and checkpoint streams. -/

namespace Sys2Proof.Machine

-- The proofs here are many and small, and share the equations of the model: one at a time they need far less memory.
set_option Elab.async false

/-! ### Chunks of collective operations (R94-R100, R124) -/

theorem State.pending_stopColl (s : State) (id : Nat) (o : Op) (job : CJob) (acc : AccKind) (x : Stop) :
    (s.stopColl id o job acc x).pending = s.pending := by
  unfold State.stopColl
  grind [State.pending_modColl, State.pending_recordCause, State.pending_hold, State.pending_raiseFault, State.pending_endLocally,
    State.pending_raiseViolation]

theorem State.pending_lookupParts (s : State) (o : Op) (acc : AccKind) (l : List (Nat × Nat)) : (s.lookupParts o acc l).2.pending = s.pending := by
  induction l generalizing s with
  | nil => rfl
  | cons a l ih => grind [State.lookupParts, State.pending_lookupRange]

theorem State.pending_markSpecial (s : State) (id : Nat) (yes : Bool) : (s.markSpecial id yes).pending = s.pending := by
  grind [State.markSpecial, State.pending_modOp]
theorem State.pending_opRoundings (s : State) (id rnd n : Nat) : (s.opRoundings id rnd n).2.pending = s.pending := by
  grind [State.opRoundings, State.pending_modOp, State.pending_roundings]
theorem State.pending_putChunk (s : State) (slot cls dst : Nat) (h : ChunkHdr) (data : List Byte) :
    (s.putChunk slot cls dst h data).pending = s.pending := by
  grind [State.putChunk, State.pending_inboxAdd, State.pending_cmnSend]
theorem State.pending_sendChunk (s : State) (id src dst : Nat) (h : ChunkHdr) (data : List Byte) :
    (s.sendChunk id src dst h data).pending = s.pending := by
  grind [State.sendChunk, State.pending_putChunk, State.pending_modColl]
theorem State.pending_sendFolded (s : State) (slot key consumer producer : Nat) (h : ChunkHdr) (again : Bool) :
    (s.sendFolded slot key consumer producer h again).pending = s.pending := by
  grind [State.sendFolded, State.pending_inboxAdd, State.pending_cmnSend]
theorem State.pending_finishClosing (s : State) (id : Nat) : (s.finishClosing id).pending = s.pending := by
  grind [State.finishClosing, State.pending_endColl]
theorem State.pending_reportFailure (s : State) (x : COp) (b : Nat) (ag : Bool) : (s.reportFailure x b ag).pending = s.pending := by
  grind [State.reportFailure, State.pending_endColl, State.pending_ownReport]
theorem State.pending_reportPhase (s : State) (x : COp) (rank b : Nat) (ag : Bool) : (s.reportPhase x rank b ag).pending = s.pending := by
  grind [State.reportPhase, State.pending_modColl, State.pending_ownReport, State.pending_finishClosing]
theorem State.pending_checkPhase (s : State) (id rank b : Nat) (ag : Bool) : (s.checkPhase id rank b ag).pending = s.pending := by
  grind [State.checkPhase, State.pending_reportPhase, State.pending_modColl, State.pending_flushLinks]
theorem State.pending_finishTodo (s : State) (id : Nat) (t : Todo) : (s.finishTodo id t).pending = s.pending := by
  grind [State.finishTodo, State.pending_finishClosing, State.pending_checkPhase, State.pending_modColl]
theorem State.pending_noteWrites (s : State) (id rank : Nat) (ls : List (List (Loc × Nat))) : (s.noteWrites id rank ls).pending = s.pending := by
  grind [State.noteWrites, State.pending_modColl, pending_foldl]

theorem State.pending_publishPages (s : State) (o : Op) (l : List (Nat × List Byte)) : (s.publishPages o l).2.pending = s.pending := by
  induction l generalizing s with
  | nil => rfl
  | cons p l ih =>
    unfold State.publishPages
    dsimp only
    rw [ih]
    exact pending_foldl_snd _ _ _ fun q a => State.pending_lookup ..

theorem State.pending_publishLost (s : State) (id : Nat) (t : Todo) (o : Op) (parts : List (Nat × List Byte)) :
    (s.publishLost id t o parts).pending = s.pending := by
  grind [State.publishLost, State.pending_publishPages, State.pending_stopColl, State.pending_noteWrites, State.pending_writeLocs, State.pending_bump,
    State.pending_finishTodo, State.pending_modOp, pending_foldl]

theorem State.pending_writeParts (s : State) (id : Nat) (t : Todo) (parts : List (Nat × List Byte)) :
    (s.writeParts id t parts).pending = s.pending := by
  grind [State.writeParts, State.pending_lookupParts, State.pending_publishLost, State.pending_stopColl, State.pending_writeLocs,
    State.pending_finishTodo, State.pending_noteWrites, pending_foldl]

theorem State.pending_deliver (s : State) (id rank b : Nat) (ag : Bool) (h : ChunkHdr) (data : List Byte) :
    (s.deliver id rank b ag h data).pending = s.pending := by
  grind [State.deliver, State.pending_sendChunk, State.pending_finishTodo, State.pending_opRoundings, State.pending_markSpecial, State.pending_bump,
    State.pending_writeParts, pending_foldl]

theorem State.pending_setNode (s : State) (id : Nat) (n : Node) : (s.setNode id n).pending = s.pending := by
  grind [State.setNode, State.pending_modColl]
theorem State.pending_keepG (s : State) (id copy b chunk : Nat) (data : List Byte) : (s.keepG id copy b chunk data).pending = s.pending := by
  grind [State.keepG, State.pending_modColl]
theorem State.pending_placeG (s : State) (x : COp) (t : Todo) (copy : Nat) (ch : ChunkAt) (data : List Byte) :
    (s.placeG x t copy ch data).pending = s.pending := by
  grind [State.placeG, State.pending_keepG, State.pending_finishTodo, State.pending_writeParts]
theorem State.pending_finishOwner (s : State) (x : COp) (n : Node) (ch : ChunkAt) : (s.finishOwner x n ch).pending = s.pending := by
  grind [State.finishOwner, State.pending_opRoundings, State.pending_markSpecial, State.pending_sendChunk, State.pending_placeG,
    State.pending_finishTodo, State.pending_deliver]
theorem State.pending_finishPartial (s : State) (x : COp) (n : Node) (ch : ChunkAt) (e : Edge) : (s.finishPartial x n ch e).pending = s.pending := by
  grind [State.finishPartial, State.pending_opRoundings, State.pending_markSpecial, State.pending_sendChunk]
theorem State.pending_closeNode (s : State) (id : Nat) (n : Node) : (s.closeNode id n).pending = s.pending := by
  grind [State.closeNode, State.pending_unbindNodes, State.pending_setNode, State.pending_finishTodo, State.pending_finishPartial,
    State.pending_finishOwner]
theorem State.pending_checkFailed (s : State) (x : COp) (blk : Blk) (checker unit b chunk stage src : Nat) (ag : Bool) :
    (s.checkFailed x blk checker unit b chunk stage src ag).pending = s.pending := by
  grind [State.checkFailed, State.pending_evt, State.pending_bump, State.pending_logCheckFail, State.pending_reportFailure]
theorem State.pending_offer (s : State) (id : Nat) (n : Node) (h : ChunkHdr) (data : List Byte) : (s.offer id n h data).pending = s.pending := by
  grind [State.offer, State.pending_inject, State.pending_modOp, State.pending_checkFailed, State.pending_bump, State.pending_endLocally,
    State.pending_slotRead, State.pending_setNode, State.pending_closeNode, State.pending_sendFolded]
theorem State.pending_enterUnit (s : State) (id rank b chunk u : Nat) : (s.enterUnit id rank b chunk u).pending = s.pending := by
  grind [State.enterUnit, State.pending_setNode, State.pending_bump, State.pending_offer, State.pending_closeNode, pending_foldl]
theorem State.pending_bindChunk (s : State) (id rank b chunk : Nat) : (s.bindChunk id rank b chunk).pending = s.pending := by
  grind [State.bindChunk, State.pending_enterUnit]
theorem State.pending_bindWaiting (s : State) (id : Nat) : (s.bindWaiting id).pending = s.pending := by
  grind [State.bindWaiting, State.pending_bindChunk, pending_foldl]
theorem State.pending_launchRs (s : State) (id rank b i : Nat) (ch : ChunkAt) : (s.launchRs id rank b i ch).pending = s.pending := by
  grind [State.launchRs, State.pending_sendChunk, State.pending_bindChunk, State.pending_modColl]
theorem State.pending_launchOwn (s : State) (id rank i : Nat) (ch : ChunkAt) : (s.launchOwn id rank i ch).pending = s.pending := by
  grind [State.launchOwn, State.pending_deliver, State.pending_sendChunk]
theorem State.pending_launch (s : State) (id b : Nat) : (s.launch id b).pending = s.pending := by
  grind [State.launch, State.pending_modColl, State.pending_launchRs, State.pending_launchOwn, State.pending_inboxAdd, State.pending_checkPhase,
    pending_foldl]
theorem State.pending_gathered (s : State) (id b : Nat) : (s.gathered id b).pending = s.pending := by
  grind [State.gathered, State.pending_modColl, State.pending_ownReport, State.pending_launch, pending_foldl]
theorem State.pending_gatherIn (s : State) (id b : Nat) (ready : Bool) : (s.gatherIn id b ready).pending = s.pending := by
  grind [State.gatherIn, State.pending_gathered, State.pending_modColl, State.pending_lookupParts, State.pending_stopColl, State.pending_badFor,
    State.pending_endLocally, State.pending_issueReads, State.pending_bump, pending_foldl]
theorem State.pending_gatherNext (s : State) (id : Nat) : (s.gatherNext id).pending = s.pending := by
  grind [State.gatherNext, State.pending_gatherIn, State.pending_modColl]

theorem State.pending_gatherAll (s : State) (id n : Nat) : (s.gatherAll id n).pending = s.pending := by
  induction n generalizing s with
  | zero => rfl
  | succ n ih => grind [State.gatherAll, State.pending_gatherNext]

/-! ### How an operation of the commons begins (R102, R105, R119, R125) -/

theorem State.pending_reportStart (s : State) (slot : Nat) (g : Group) (key : Nat) (f : StartF) :
    (s.reportStart slot g key f).pending = s.pending := by
  grind [State.reportStart, State.pending_ownReport, pending_foldl]

/-! ### Training steps (R152, R165, R193, R243) -/

theorem State.pending_modCopy (s : State) (id copy : Nat) (f : StepCopy → StepCopy) : (s.modCopy id copy f).pending = s.pending := by
  grind [State.modCopy, State.pending_modColl]
theorem State.pending_chargeHeld (s : State) : s.chargeHeld.pending = s.pending := by
  grind [State.chargeHeld, State.pending_recordCause, pending_foldl]
theorem State.pending_freeEngine (s : State) (e : Nat) : (s.freeEngine e).pending = s.pending := by
  grind [State.freeEngine, State.pending_wr]
theorem State.pending_sendFill (s : State) (x : COp) (copy b blk n : Nat) (whole : Bool) (data : List Byte) :
    (s.sendFill x copy b blk n whole data).pending = s.pending := by
  grind [State.sendFill, State.pending_sendChunk]

theorem State.pending_writeAll (s : State) (o : Op) (l : List (List (Loc × Nat) × List Byte)) : (s.writeAll o l).pending = s.pending := by
  induction l generalizing s with
  | nil => rfl
  | cons a l ih => grind [State.writeAll, State.pending_writeLocs]

theorem State.pending_loadBlock (s : State) (x : COp) (copy b blk : Nat) (pass1 : Bool) (k : StepCopy) (d : MillDesc) :
    (s.loadBlock x copy b blk pass1 k d).2.pending = s.pending := by
  grind [State.loadBlock, State.pending_lookupParts, State.pending_badFor, State.pending_sendFill, pending_foldl]
theorem State.pending_giveEngine (s : State) (e p : Nat) (m : MillBlk) : (s.giveEngine e p m).pending = s.pending := by
  grind [State.giveEngine, State.pending_wr]

theorem State.pending_takeBlock (s : State) (e : Nat) (q : ReadyBlk) : (s.takeBlock e q).pending = s.pending := by
  unfold State.takeBlock
  grind [State.pending_giveEngine, State.pending_modColl, State.pending_modCopy, State.pending_loadBlock, State.pending_stopColl,
    State.pending_endLocally]

theorem State.pending_publish (s : State) (id rank b : Nat) : (s.publish id rank b).pending = s.pending := by
  unfold State.publish
  split
  · rfl
  next x _ =>
    split
    · rfl
    · dsimp only
      split
      next looked => rw [State.pending_stopColl, pending_of_pair looked (State.pending_lookupParts ..)]
      next looked =>
        have read := pending_of_pair looked (State.pending_lookupParts ..)
        split
        next bad => rw [State.pending_endLocally, pending_of_pair bad (State.pending_badFor ..), read]
        next good =>
          have ok := (pending_of_pair good (State.pending_badFor ..)).trans read
          rw [pending_foldl _ _ _ fun t z => by grind [State.pending_deliver], State.pending_modColl]
          grind [State.pending_bump]

theorem State.pending_launchAg (s : State) (id b : Nat) : (s.launchAg id b).pending = s.pending := by
  grind [State.launchAg, State.pending_modColl, State.pending_inboxAdd, State.pending_checkPhase, pending_foldl]
theorem State.pending_checkLast (s : State) (id : Nat) : (s.checkLast id).pending = s.pending := by
  grind [State.checkLast, State.pending_checkPhase, pending_foldl]
theorem State.pending_bundleDone (s : State) (id copy b : Nat) : (s.bundleDone id copy b).pending = s.pending := by
  grind [State.bundleDone, State.pending_modColl, State.pending_setCopy, State.pending_publish, State.pending_checkLast, State.pending_finishClosing,
    State.pending_gatherAll]

theorem State.pending_passEmpty (s : State) (n : Nat) : (s.passEmpty n).pending = s.pending := by
  induction n generalizing s with
  | zero => rfl
  | succ n ih => grind [State.passEmpty, State.pending_bundleDone]

theorem State.pending_dealBlocks (s : State) (n : Nat) : (s.dealBlocks n).pending = s.pending := by
  induction n generalizing s with
  | zero => grind [State.dealBlocks, State.pending_chargeHeld, State.pending_takeBlock]
  | succ n ih => grind [State.dealBlocks, State.pending_chargeHeld, State.pending_takeBlock]

theorem State.pending_deal (s : State) (n : Nat) : (s.deal n).pending = s.pending := by
  grind [State.deal, State.pending_dealBlocks, State.pending_passEmpty]
theorem State.pending_reportNorms (s : State) (x : COp) (copy b sc : Nat) (k : StepCopy) : (s.reportNorms x copy b sc k).pending = s.pending := by
  grind [State.reportNorms, State.pending_ownReport, pending_foldl]
theorem State.pending_normResult (s : State) (id scope b : Nat) (vals : List Nat) : (s.normResult id scope b vals).pending = s.pending := by
  grind [State.normResult, State.pending_markSpecial, State.pending_bump, State.pending_deal, State.pending_modColl]

theorem State.pending_sendWholeBlk (s : State) (id copy b blk : Nat) : (s.sendWholeBlk id copy b blk).pending = s.pending := by
  unfold State.sendWholeBlk
  split
  · rfl
  · dsimp only
    split
    · rfl
    · split
      next looked => rw [State.pending_stopColl, pending_of_pair looked (State.pending_lookupParts ..)]
      next looked =>
        have read := pending_of_pair looked (State.pending_lookupParts ..)
        split
        next bad => rw [State.pending_endLocally, pending_of_pair bad (State.pending_badFor ..), read]
        next good => rw [State.pending_sendFill, pending_of_pair good (State.pending_badFor ..), read]

theorem State.pending_sendWhole (s : State) (x : COp) (copy b : Nat) : (s.sendWhole x copy b).pending = s.pending := by
  grind [State.sendWhole, State.pending_sendWholeBlk, pending_foldl]
theorem State.pending_republish (s : State) (id rank b : Nat) : (s.republish id rank b).pending = s.pending := by
  grind [State.republish, State.pending_publish]
theorem State.pending_placeWhole (s : State) (id copy b blk : Nat) : (s.placeWhole id copy b blk).pending = s.pending := by
  grind [State.placeWhole, State.pending_lookupParts, State.pending_stopColl, State.pending_sendFolded, State.pending_writeAll, State.pending_modCopy,
    State.pending_setCopy, State.pending_checkLast, State.pending_publish, pending_foldl]
theorem State.pending_failFill (s : State) (x : COp) (copy : Nat) (k : StepCopy) : (s.failFill x copy k).pending = s.pending := by
  grind [State.failFill, State.pending_modCopy, State.pending_setCopy, State.pending_sendFolded, State.pending_deal, State.pending_checkLast,
    State.pending_publish, pending_foldl]
theorem State.pending_takeFill (s : State) (x : COp) (h : ChunkHdr) (data : List Byte) : (s.takeFill x h data).pending = s.pending := by
  grind [State.takeFill, State.pending_bump, State.pending_logCheckFail, State.pending_modCopy, State.pending_sendFolded, State.pending_failFill,
    State.pending_placeWhole, State.pending_deal]
theorem State.pending_startRun (s : State) (id : Nat) : (s.startRun id).pending = s.pending := by
  grind [State.startRun, State.pending_gatherAll, State.pending_launchAg, State.pending_sendWhole, State.pending_republish, pending_foldl]

/-! ### Checkpoint streams (R417-R421) -/

theorem State.pending_tgtPort_choose (s : State) (t q : Nat) (k : CkpTgt) (up : List Nat) :
    (State.tgtPort.choose s t q k up).2.pending = s.pending := by
  grind [State.tgtPort.choose, State.pending_setTgt]
theorem State.pending_tgtPort (s : State) (t q : Nat) : (s.tgtPort t q).2.pending = s.pending := by
  grind [State.tgtPort, State.pending_tgtPort_choose]
theorem State.pending_nvmeSend (s : State) (t q : Nat) (b : NvmeBody) : (s.nvmeSend t q b).pending = s.pending := by
  grind [State.nvmeSend, State.pending_tgtPort, State.pending_emit]
theorem State.pending_nvmeCmd (s : State) (t q stream : Nat) (j : CkpJob) (body : Nat → NvmeBody) :
    (s.nvmeCmd t q stream j body).pending = s.pending := by
  grind [State.nvmeCmd, State.pending_nvmeSend, State.pending_setTgt]

theorem State.pending_formRecord (s : State) (t : CkpStream) (k : Nat) {r : List Byte × State} (h : s.formRecord t k = some r) :
    r.2.pending = s.pending := by
  unfold State.formRecord at h
  grind [State.pending_coreChecks, State.pending_setSlot, State.pending_bump, State.pending_logEv]

theorem State.pending_issueJob (s : State) (n : Nat) (t : CkpStream) (j : CkpJob) : (s.issueJob n t j).pending = s.pending := by
  grind [State.issueJob, State.pending_nvmeCmd]

theorem State.pending_pumpStream (s : State) (k n : Nat) : (s.pumpStream k n).pending = s.pending := by
  induction n generalizing s with
  | zero => rfl
  | succ n ih =>
    unfold State.pumpStream
    split
    · rfl
    · split
      · rfl
      · split
        · split
          · rw [ih, State.pending_issueJob, State.pending_setStream]
          · rfl
        · split
          · split
            · rw [ih, State.pending_setStream]
            · split
              · rw [State.pending_endStream]
              next formed => rw [ih, State.pending_setStream, State.pending_formRecord _ _ _ formed]
          · split
            · rw [ih, State.pending_setStream]
            · rfl

theorem State.pending_runStream (s : State) (n : Nat) : (s.runStream n).pending = s.pending := by
  grind [State.runStream, State.pending_showStream, State.pending_pumpStream]
theorem State.pending_dropCmd (s : State) (t : Nat) (c : CkpCmd) : (s.dropCmd t c).pending = s.pending := by
  grind [State.dropCmd, State.pending_modTgt]

end Sys2Proof.Machine
end

section
/-! PROOFS. The queue of commands through the notices of a group (R115-R144), RoCEv2 (R227) and the host links. -/

namespace Sys2Proof.Machine

-- The proofs here are many and small, and share the equations of the model: one at a time they need far less memory.
set_option Elab.async false

/-! ### The notice tree and the bellwether (R115-R117, R125-R144) -/

theorem State.pending_misdirected (s : State) (slot : Nat) (h : ChunkHdr) (data : List Byte) : (s.misdirected slot h data).pending = s.pending := by
  grind [State.misdirected, State.pending_checkFailed, State.pending_bump]
theorem State.pending_takeFinal (s : State) (x : COp) (h : ChunkHdr) (data : List Byte) (ag : Bool) :
    (s.takeFinal x h data ag).pending = s.pending := by
  grind [State.takeFinal, State.pending_checkFailed, State.pending_bump, State.pending_sendFolded, State.pending_deliver, State.pending_misdirected]
theorem State.pending_takeTwin (s : State) (x : COp) (h : ChunkHdr) (data : List Byte) (ch : ChunkAt) :
    (s.takeTwin x h data ch).pending = s.pending := by
  grind [State.takeTwin, State.pending_misdirected, State.pending_checkFailed, State.pending_sendFolded, State.pending_placeG]
theorem State.pending_keepEarly (s : State) (id : Nat) (h : ChunkHdr) (data : List Byte) : (s.keepEarly id h data).pending = s.pending := by
  grind [State.keepEarly, State.pending_modColl]
theorem State.pending_takeContribution (s : State) (x : COp) (h : ChunkHdr) (data : List Byte) :
    (s.takeContribution x h data).pending = s.pending := by
  grind [State.takeContribution, State.pending_misdirected, State.pending_bump, State.pending_checkFailed, State.pending_setNode, State.pending_offer]

theorem State.pending_takeChunk (s : State) (slot : Nat) (h : ChunkHdr) (data : List Byte) : (s.takeChunk slot h data).pending = s.pending := by
  unfold State.takeChunk
  split
  · rw [State.pending_misdirected]
  · dsimp only
    repeat' split
    all_goals simp only [State.pending_misdirected, State.pending_keepEarly, State.pending_takeFill, State.pending_takeTwin, State.pending_takeFinal,
      State.pending_takeContribution]

theorem State.pending_takeFolded (s : State) (slot consumer key bundle chunk stage : Nat) (again : Bool) :
    (s.takeFolded slot consumer key bundle chunk stage again).pending = s.pending := by
  grind [State.takeFolded, State.pending_putChunk, State.pending_modColl, State.pending_checkPhase, State.pending_republish,
    State.pending_bindWaiting]

theorem State.pending_modBell (s : State) (slot key : Nat) (f : Bell → Bell) : (s.modBell slot key f).pending = s.pending := by
  grind [State.modBell, State.pending_modGroup]
theorem State.pending_bellAbandon (s : State) (slot key status cause culprit : Nat) :
    (s.bellAbandon slot key status cause culprit).pending = s.pending := by
  grind [State.bellAbandon, State.pending_notify, State.pending_modGroup, State.pending_modBell]
theorem State.pending_bellStart (s : State) (slot seq culprit : Nat) (body : CBody) : (s.bellStart slot seq culprit body).pending = s.pending := by
  unfold State.bellStart
  grind [State.pending_bellAbandon, State.pending_setGroup, State.pending_notify, pending_foldl]

theorem State.pending_bellReduce (s : State) (slot key n : Nat) : (s.bellReduce slot key n).pending = s.pending := by
  induction n generalizing s with
  | zero => rfl
  | succ n ih => grind [State.bellReduce, State.pending_modBell, State.pending_notify]

theorem State.pending_compareHashes (s : State) (slot key : Nat) (hashes : List (Nat × Nat)) :
    (s.compareHashes slot key hashes).2.pending = s.pending := by
  unfold State.compareHashes
  grind [State.pending_logEv, pending_foldl_snd]

theorem State.pending_bellPublished (s : State) (slot key bundle : Nat) (hashes : List (Nat × Nat)) :
    (s.bellPublished slot key bundle hashes).pending = s.pending := by
  grind [State.bellPublished, State.pending_bump, State.pending_compareHashes, State.pending_notify, State.pending_modBell]
theorem State.pending_bellVoid (s : State) (slot key what : Nat) : (s.bellVoid slot key what).pending = s.pending := by
  grind [State.bellVoid, State.pending_bellAbandon, State.pending_notify, State.pending_modBell]
theorem State.pending_bellFailure (s : State) (slot key phase bundle attempt : Nat) :
    (s.bellFailure slot key phase bundle attempt).pending = s.pending := by
  grind [State.bellFailure, State.pending_bump, State.pending_modBell, State.pending_bellVoid]
theorem State.pending_bellRerun (s : State) (slot key : Nat) : (s.bellRerun slot key).pending = s.pending := by
  grind [State.bellRerun, State.pending_notify, State.pending_modBell, State.pending_bellVoid]
theorem State.pending_bellLate (s : State) (slot key culprit : Nat) : (s.bellLate slot key culprit).pending = s.pending := by
  grind [State.bellLate, State.pending_bump, State.pending_notify]
theorem State.pending_bellEnded (s : State) (slot key culprit : Nat) : (s.bellEnded slot key culprit).pending = s.pending := by
  grind [State.bellEnded, State.pending_bellLate, State.pending_bellAbandon, State.pending_setGroup]
theorem State.pending_endedUp (s : State) (slot rank concerns key culprit : Nat) :
    (s.endedUp slot rank concerns key culprit).pending = s.pending := by
  grind [State.endedUp, State.pending_setGroup, State.pending_reportUp]
theorem State.pending_reportStartUp (s : State) (slot rank concerns key : Nat) (b : CBody) :
    (s.reportStartUp slot rank concerns key b).pending = s.pending := by
  grind [State.reportStartUp, State.pending_reportUp, State.pending_setGroup]
theorem State.pending_bellLoss (s : State) (slot rank : Nat) : (s.bellLoss slot rank).pending = s.pending := by
  grind [State.bellLoss, State.pending_reportLoss, State.pending_setGroup, State.pending_notify]
theorem State.pending_takeRecon (s : State) (slot rank concerns key b tail : Nat) :
    (s.takeRecon slot rank concerns key b tail).pending = s.pending := by
  grind [State.takeRecon, State.pending_reportUp, State.pending_setGroup, State.pending_notify, pending_foldl]
theorem State.pending_scalarUp (s : State) (slot rank key scope bundle : Nat) (vals : List (List Nat)) :
    (s.scalarUp slot rank key scope bundle vals).pending = s.pending := by
  grind [State.scalarUp, State.pending_markSpecial, State.pending_reportUp, State.pending_notify, State.pending_opRoundings]
theorem State.pending_gathDone (s : State) (slot rank key : Nat) (a : Gath) : (s.gathDone slot rank key a).pending = s.pending := by
  grind [State.gathDone, State.pending_reportUp, State.pending_bellStart, State.pending_reportStartUp, State.pending_scalarUp, State.pending_bump,
    State.pending_bellReduce, State.pending_modBell, State.pending_bellPublished, State.pending_bellRerun, State.pending_notify, pending_foldl]
theorem State.pending_addReport (s : State) (slot rank child concerns key : Nat) (b : CBody) :
    (s.addReport slot rank child concerns key b).pending = s.pending := by
  grind [State.addReport, State.pending_bump, State.pending_gathDone, State.pending_setGroup]

theorem State.pending_fencedStart (s : State) (slot rank key : Nat) (b : CBody) : (s.fencedStart slot rank key b).pending = s.pending := by
  unfold State.fencedStart
  split
  · split
    · rw [State.pending_reportStart, State.pending_setGroup]
    · rfl
  · rfl

theorem State.pending_takeReport_folded (s : State) (slot rank concerns key : Nat) (g : Group) (b : CBody) :
    (State.takeReport.folded s slot rank concerns key g b).pending = s.pending := by
  grind [State.takeReport.folded, State.pending_bump, State.pending_addReport]

theorem State.pending_takeReport (s : State) (slot rank concerns key : Nat) (b : CBody) :
    (s.takeReport slot rank concerns key b).pending = s.pending := by
  grind [State.takeReport, State.pending_bellFailure, State.pending_reportUp, State.pending_bellEnded, State.pending_endedUp, State.pending_bellLoss,
    State.pending_takeRecon, State.pending_takeReport_folded, State.pending_fencedStart]

theorem State.pending_dropAttempt (s : State) (x : COp) (phase bundle : Nat) : (s.dropAttempt x phase bundle).pending = s.pending := by
  grind [State.dropAttempt, State.pending_unbindNodes, State.pending_modColl]
theorem State.pending_advanceChunks (s : State) (slot : Nat) : (s.advanceChunks slot).pending = s.pending := by
  grind [State.advanceChunks, State.pending_advanceEpoch, State.pending_putChunk, pending_foldl]
theorem State.pending_onVoid (s : State) (slot key phase bundle attempt : Nat) : (s.onVoid slot key phase bundle attempt).pending = s.pending := by
  grind [State.onVoid, State.pending_bump, State.pending_dropAttempt, State.pending_advanceChunks, State.pending_modGroup, State.pending_ownReport,
    pending_foldl]
theorem State.pending_onRerun (s : State) (slot key attempt : Nat) : (s.onRerun slot key attempt).pending = s.pending := by
  grind [State.onRerun, State.pending_modGroup, State.pending_modColl, State.pending_bump, State.pending_gatherAll, State.pending_launchAg,
    State.pending_republish, State.pending_publish, State.pending_inboxAdd, pending_foldl]
theorem State.pending_onGo (s : State) (slot seq algo : Nat) (states : List (Nat × Nat)) : (s.onGo slot seq algo states).pending = s.pending := by
  grind [State.onGo, State.pending_modGroup, State.pending_startRun, State.pending_modColl, State.pending_inboxAdd, pending_foldl]
theorem State.pending_onCommit (s : State) (slot key : Nat) (div : List (Nat × Nat)) : (s.onCommit slot key div).pending = s.pending := by
  grind [State.onCommit, State.pending_setCopy, State.pending_endColl, pending_foldl]

theorem State.pending_onAbandon (s : State) (slot key status cause culprit bundles : Nat) :
    (s.onAbandon slot key status cause culprit bundles).pending = s.pending := by
  grind [State.onAbandon, State.pending_endColl, State.pending_finishClosing, State.pending_modColl, State.pending_launchAg, State.pending_deal,
    pending_foldl]

theorem State.pending_settleGroup (s : State) (slot : Nat) : (s.settleGroup slot).pending = s.pending := by
  grind [State.settleGroup, State.pending_modGroup]
theorem State.pending_onLoss (s : State) (slot rank : Nat) : (s.onLoss slot rank).pending = s.pending := by
  grind [State.onLoss, State.pending_modGroup, State.pending_modColl, pending_foldl]
theorem State.pending_renewNorms (s : State) (id : Nat) : (s.renewNorms id).pending = s.pending := by
  grind [State.renewNorms, State.pending_reportNorms, pending_foldl]
theorem State.pending_onReconcile (s : State) (slot key u : Nat) : (s.onReconcile slot key u).pending = s.pending := by
  grind [State.onReconcile, State.pending_modColl, State.pending_finishClosing, State.pending_deal, State.pending_renewNorms, pending_foldl]
theorem State.pending_onScalarRes (s : State) (slot key scope bundle : Nat) (vals : List Nat) :
    (s.onScalarRes slot key scope bundle vals).pending = s.pending := by
  grind [State.onScalarRes, State.pending_normResult, State.pending_modColl, State.pending_writeParts, pending_foldl]

theorem State.pending_onNotice (s : State) (slot key : Nat) (b : CBody) : (s.onNotice slot key b).pending = s.pending := by
  unfold State.onNotice
  grind [State.pending_onGo, State.pending_deal, State.pending_launchAg, State.pending_modColl, State.pending_onCommit, State.pending_onScalarRes,
    State.pending_onVoid, State.pending_onRerun, State.pending_settleGroup, State.pending_onAbandon, State.pending_onLoss, State.pending_onReconcile]

theorem State.pending_takeNotice (s : State) (slot rank nseq key : Nat) (b : CBody) (n : Nat) :
    (s.takeNotice slot rank nseq key b n).pending = s.pending := by
  induction n generalizing s nseq key b with
  | zero => rfl
  | succ n ih =>
    have told := fun (t : State) (l : List Nat) (ranks : Nat → List Nat) (tree : Nat → Nat → Bool) =>
      pending_foldl (fun t c => (ranks c).foldl (fun t d => t.coordTo slot d rank nseq key b true (tree c d)) t) l t fun t c =>
        pending_foldl _ _ _ fun t d => State.pending_coordTo ..
    unfold State.takeNotice
    split
    · rfl
    · dsimp only
      split
      · rfl
      · split
        · rfl
        · split
          · rw [ih, State.pending_setGroup]
            split
            · rw [State.pending_onNotice, told, State.pending_setGroup]
            · rw [told, State.pending_setGroup]
          · split
            · rw [State.pending_onNotice, told, State.pending_setGroup]
            · rw [told, State.pending_setGroup]

theorem State.pending_takeMsg (s : State) (m : CMsg) : (s.takeMsg m).pending = s.pending := by
  unfold State.takeMsg
  grind [State.pending_takeReport, State.pending_onNotice, State.pending_takeNotice, State.pending_takeChunk, State.pending_takeFolded]

theorem State.pending_runInbox (s : State) (n : Nat) : (s.runInbox n).pending = s.pending := by
  induction n generalizing s with
  | zero => rfl
  | succ n ih => grind [State.runInbox, State.pending_takeMsg]

theorem State.pending_endKeyless (s : State) : s.endKeyless.pending = s.pending := by
  grind [State.endKeyless, State.pending_modConn, State.pending_endLocally, pending_foldl]
theorem State.pending_gatherWaiting (s : State) : s.gatherWaiting.pending = s.pending := by
  grind [State.gatherWaiting, State.pending_gatherAll, pending_foldl]
theorem State.pending_cmnTurn (s : State) : s.cmnTurn.pending = s.pending := by
  grind [State.cmnTurn, State.pending_deal, State.pending_runInbox, State.pending_endKeyless]
theorem State.pending_cmnRun (s : State) : s.cmnRun.pending = s.pending := by
  grind [State.cmnRun, State.pending_resolvesDone, State.pending_cmnTurn, State.pending_gatherWaiting]
theorem State.pending_closeCmn (s : State) (slot : Nat) (keep : Option Nat) : (s.closeCmn slot keep).pending = s.pending := by
  grind [State.closeCmn, State.pending_tryClose, State.pending_setConn, State.pending_freeConn, pending_foldl]
theorem State.pending_dissolveGroup (s : State) (slot : Nat) : (s.dissolveGroup slot).pending = s.pending := by
  grind [State.dissolveGroup, State.pending_closeCmn]

/-! ### RoCEv2 (R227) -/

theorem State.pending_sendRocePkt (s : State) (c : Nat) (k : Conn) (p : RocePacket) (timer : Bool) :
    (s.sendRocePkt c k p timer).pending = s.pending := by
  grind [State.sendRocePkt, State.pending_connPort, State.pending_pushFrame, State.pending_runRoceTimer]

theorem State.pending_rocePump (s : State) (c n : Nat) : (s.rocePump c n).pending = s.pending := by
  induction n generalizing s with
  | zero => rfl
  | succ n ih => grind [State.rocePump, State.pending_sendRocePkt, State.pending_setConn]

theorem State.pending_goBack (s : State) (c psn : Nat) (retx : Bool) : (s.goBack c psn retx).pending = s.pending := by
  grind [State.goBack, State.pending_setConn, State.pending_sendRocePkt, State.pending_evt, State.pending_bump, pending_foldl]
theorem State.pending_roceAcked (s : State) (c : Nat) (k : Conn) (psn : Nat) : (s.roceAcked c k psn).pending = s.pending := by
  grind [State.roceAcked, State.pending_setConn, State.pending_msgOk, State.pending_tryClose, State.pending_rocePump, pending_foldl]
theorem State.pending_roceFail (s : State) (c : Nat) (k : Conn) (psn st : Nat) : (s.roceFail c k psn st).pending = s.pending := by
  grind [State.roceFail, State.pending_setConn, State.pending_endOp, State.pending_markRemote, State.pending_rocePump]
theorem State.pending_onRoceAck (s : State) (c : Nat) (k : Conn) (psn syn : Nat) : (s.onRoceAck c k psn syn).pending = s.pending := by
  grind [State.onRoceAck, State.pending_roceAcked, State.pending_setConn, State.pending_recordCause, State.pending_goBack, State.pending_roceFail]

theorem State.pending_onRoceResp (s : State) (c : Nat) (k : Conn) (p : RocePacket) : (s.onRoceResp c k p).pending = s.pending := by
  unfold State.onRoceResp
  dsimp only
  split
  · rfl
  next r _ =>
    split
    · rfl
    next o _ =>
      split
      · rfl
      · have walk := State.pending_lookupRange s o.part o.vf o.tag (r.laddr + (p.psn + 2 ^ 24 - r.psn) % 2 ^ 24 * k.mtu) p.payload.length .write
        generalize State.lookupRange s o.part o.vf o.tag _ p.payload.length .write = q at walk ⊢
        clear * - walk
        generalize (p.psn + 2 ^ 24 - r.psn) % 2 ^ 24 = i
        grind [State.pending_raiseFault, State.pending_recordCause, State.pending_raiseViolation, State.pending_endOp, State.pending_killOp,
          State.pending_writeLocs, State.pending_modOp, State.pending_modConn, State.pending_msgOk, State.pending_rocePump, State.pending_tryClose]

theorem State.pending_onCnp (s : State) (c : Nat) (k : Conn) : (s.onCnp c k).pending = s.pending := by
  grind [State.onCnp, State.pending_drawBelow, State.pending_setConn, State.pending_recordCause, pending_foldl]
theorem State.pending_sendRoceAck (s : State) (c : Nat) (k : Conn) (psn syn : Nat) : (s.sendRoceAck c k psn syn).pending = s.pending := by
  grind [State.sendRoceAck, State.pending_sendRocePkt]
theorem State.pending_sendCnp_go (c : Nat) (k : Conn) (s : State) : (State.sendCnp.go c k s).pending = s.pending := by
  grind [State.sendCnp.go, State.pending_sendRocePkt, State.pending_modConn]
theorem State.pending_sendCnp (s : State) (c : Nat) (k : Conn) : (s.sendCnp c k).pending = s.pending := by
  grind [State.sendCnp, State.pending_sendCnp_go]

theorem State.pending_roceStop (s : State) (c : Nat) (k : Conn) (p : RocePacket) (tag rkey : Nat) (acc : AccKind) (x : Stop) :
    (s.roceStop c k p tag rkey acc x).pending = s.pending := by
  unfold State.roceStop
  grind [State.pending_sendRoceAck, State.pending_raiseFault, State.pending_raiseViolation]

theorem State.pending_rocePlaced (s : State) (c : Nat) (p : RocePacket) (x : RoceRx) (locs : List (Loc × Nat)) (last : Bool) :
    (s.rocePlaced c p x locs last).pending = s.pending := by
  grind [State.rocePlaced, State.pending_modConn, State.pending_sendRoceAck, State.pending_endRecv, State.pending_modOp, State.pending_flushLinks]

theorem State.pending_roceWrite (s : State) (c : Nat) (k : Conn) (p : RocePacket) (first last : Bool) (raddr rkey len : Nat) :
    (s.roceWrite c k p first last raddr rkey len).pending = s.pending := by
  grind [State.roceWrite, State.pending_sendRoceAck, State.pending_remoteRange, State.pending_rocePlaced, State.pending_writeLocs,
    State.pending_roceStop]

theorem State.pending_roceSend (s : State) (c : Nat) (k : Conn) (p : RocePacket) (first last : Bool) :
    (s.roceSend c k p first last).pending = s.pending := by
  grind [State.roceSend, State.pending_takeRecv, State.pending_sendRoceAck, State.pending_endRecv, State.pending_modConn, State.pending_lookupRange,
    State.pending_rocePlaced, State.pending_writeLocs, State.pending_modRing, State.pending_roceStop]

theorem State.pending_sendRoceResp (s : State) (c : Nat) (k : Conn) (p : RocePacket) (locs : List (Loc × Nat)) :
    (s.sendRoceResp c k p locs).pending = s.pending := by
  grind [State.sendRoceResp, State.pending_sendRocePkt, pending_foldl]

theorem State.pending_roceRead (s : State) (c : Nat) (k : Conn) (p : RocePacket) (raddr rkey len : Nat) :
    (s.roceRead c k p raddr rkey len).pending = s.pending := by
  grind [State.roceRead, State.pending_remoteRange, State.pending_roceStop, State.pending_badFor, State.pending_sendRoceAck, State.pending_modConn,
    State.pending_sendRoceResp, State.pending_issueReads]

theorem State.pending_takeRoce (s : State) (p : RocePacket) : (s.takeRoce p).pending = s.pending := by
  unfold State.takeRoce
  dsimp only
  repeat' split
  all_goals simp only [State.pending_bump, State.pending_sendCnp, State.pending_hear, State.pending_onRoceAck, State.pending_onCnp,
    State.pending_onRoceResp, State.pending_modConn, State.pending_roceRead, State.pending_sendRoceAck, State.pending_roceWrite,
    State.pending_roceSend]

theorem State.pending_takeBehind (s : State) (c : Nat) : (s.takeBehind c).pending = s.pending := by
  grind [State.takeBehind, State.pending_takeRoce, State.pending_modConn, pending_foldl]
theorem State.pending_roceFlushed (s : State) (c psn : Nat) : (s.roceFlushed c psn).pending = s.pending := by
  grind [State.roceFlushed, State.pending_sendRoceAck]

/-! ### Rows that end operations of every kind (R253, R255, R258) -/

theorem State.pending_flushed (s : State) (who : FlushFor) (ok : Bool) : (s.flushed who ok).pending = s.pending := by
  unfold State.flushed
  grind [State.pending_postOp, State.pending_modOp, State.pending_roceFlushed, State.pending_showMsg, State.pending_killOp, State.pending_modConn,
    State.pending_showRecv, State.pending_finishTodo, State.pending_endLocally]

/-! ### Host links and functions (R310-R314, R320-R325) -/

theorem State.pending_showLink (s : State) (x gen width : Nat) : (s.showLink x gen width).pending = s.pending := by
  grind [State.showLink, State.pending_wr]
theorem State.pending_setLink (s : State) (x st : Nat) : (s.setLink x st).pending = s.pending := by
  grind [State.setLink, State.pending_logEv, State.pending_wr]
theorem State.pending_failOp (s : State) (id status : Nat) : (s.failOp id status).pending = s.pending := by
  grind [State.failOp, State.pending_endLocally, State.pending_endStream, State.pending_killOp]
theorem State.pending_loseOp (s : State) (id : Nat) : (s.loseOp id).pending = s.pending := by
  grind [State.loseOp, State.pending_failOp]
theorem State.pending_failWaiter (s : State) (w : Waiter) : (s.failWaiter w).pending = s.pending := by
  unfold State.failWaiter
  grind [State.pending_loseOp, State.pending_endMsg, State.pending_takeBehind, State.pending_emit, State.pending_modRing]
theorem State.pending_failReads (s : State) (mine : HostRead → Bool) : (s.failReads mine).pending = s.pending := by
  grind [State.failReads, State.pending_failWaiter, pending_foldl]
theorem State.pending_dropUnsent (s : State) (ws : List Posted) : (s.dropUnsent ws).pending = s.pending := by
  unfold State.dropUnsent
  grind [State.pending_drawBelow, State.pending_bump]
theorem State.pending_fenceWork (s : State) (mine : Nat → Nat → Bool) : (s.fenceWork mine).pending = s.pending := by
  grind [State.fenceWork, State.pending_bump, State.pending_dropUnsent, State.pending_failReads, State.pending_loseOp, State.pending_killOp,
    State.pending_flushed, pending_foldl]
theorem State.pending_detach (s : State) (vf : Nat) : (s.detach vf).pending = s.pending := by
  grind [State.detach, State.pending_logEv, State.pending_wr]
theorem State.pending_linkLoss (s : State) (x : Nat) : (s.linkLoss x).pending = s.pending := by
  grind [State.linkLoss, State.pending_bump, State.pending_setLink, State.pending_showLink, State.pending_detach, State.pending_fenceWork,
    pending_foldl]

end Sys2Proof.Machine
end

section
/-! PROOFS. The queue of commands through ports, memory, partitions, the power ladder and the layout. -/

namespace Sys2Proof.Machine

-- The proofs here are many and small, and share the equations of the model: one at a time they need far less memory.
set_option Elab.async false

/-! ### Logical ports (R282-R295) -/

theorem State.pending_stopReplay (s : State) (p : Nat) : (s.stopReplay p).pending = s.pending := by
  grind [State.stopReplay, State.pending_modLport, State.pending_wr]
theorem State.pending_setLp (s : State) (p st : Nat) : (s.setLp p st).pending = s.pending := by
  grind [State.setLp, State.pending_logEv, State.pending_wr]
theorem State.pending_portOut (s : State) (p st : Nat) : (s.portOut p st).pending = s.pending := by
  grind [State.portOut, State.pending_stopReplay, State.pending_measure, State.pending_timerOf, State.pending_modLport, State.pending_bump,
    State.pending_wr, State.pending_setLp, pending_foldl]
theorem State.pending_retireSerdes (s : State) (n serdes : Nat) (wasSpare : Bool) : (s.retireSerdes n serdes wasSpare).pending = s.pending := by
  grind [State.retireSerdes, State.pending_countRetired, State.pending_wr]

/-! ### The memory tiers (R352-R374) -/

theorem State.pending_showFree (s : State) : s.showFree.pending = s.pending := by
  grind [State.showFree, State.pending_wr]
theorem State.pending_zeroGranule (s : State) (tier g : Nat) : (s.zeroGranule tier g).pending = s.pending := by
  grind [State.zeroGranule, State.pending_zeroRange]
theorem State.pending_fenceChannel (s : State) (c : Nat) : (s.fenceChannel c).pending = s.pending := by
  grind [State.fenceChannel, State.pending_logEv]
theorem State.pending_laneGone (s : State) : s.laneGone.pending = s.pending := by
  grind [State.laneGone, State.pending_spareCounts]
theorem State.pending_laneRepair (s : State) (c : Nat) (spareLeft : Bool) : (s.laneRepair c spareLeft).pending = s.pending := by
  grind [State.laneRepair, State.pending_bumpSat, State.pending_bump, State.pending_logEv, State.pending_laneGone, State.pending_fenceChannel]

theorem State.pending_takeShort (s : State) (k : Nat) (l : List Nat) : (s.takeShort k l).pending = s.pending := by
  induction l generalizing s k with
  | nil => grind [State.takeShort]
  | cons p l ih =>
    unfold State.takeShort
    split
    next absurd => cases absurd
    · rfl
    next same =>
      cases same
      dsimp only
      split
      · rw [ih]
      · rw [ih, State.pending_logEv, State.pending_wr]

theorem State.pending_setPoolMax (s : State) (n : Nat) : (s.setPoolMax n).pending = s.pending := by
  grind [State.setPoolMax, State.pending_wr, State.pending_showPool, State.pending_takeShort]
theorem State.pending_showBanks (s : State) : s.showBanks.pending = s.pending := by
  grind [State.showBanks, State.pending_spareCounts]
theorem State.pending_spareBank (s : State) (b k : Nat) : (s.spareBank b k).pending = s.pending := by
  grind [State.spareBank, State.pending_wr, State.pending_showPool, State.pending_logEv, State.pending_showBanks, State.pending_setBank]
theorem State.pending_failGeneral (s : State) (b : Nat) : (s.failGeneral b).pending = s.pending := by
  grind [State.failGeneral, State.pending_setPoolMax, State.pending_setBank]
theorem State.pending_failBank (s : State) (b : Nat) : (s.failBank b).pending = s.pending := by
  grind [State.failBank, State.pending_failGeneral, State.pending_setBank, State.pending_logEv, State.pending_spareBank, State.pending_wr]
theorem State.pending_wipeCellar (s : State) : s.wipeCellar.pending = s.pending := by
  grind [State.wipeCellar, State.pending_wr, State.pending_logEv]

/-! ### Key slots (R392-R400) -/

theorem State.pending_clearStaged (s : State) : s.clearStaged.pending = s.pending := by
  grind [State.clearStaged, State.pending_wr]
theorem State.pending_markWiping (s : State) (w : KeyWipe) : (s.markWiping w).pending = s.pending := by
  grind [State.markWiping]
theorem State.pending_startWipe (s : State) (what : WipeOf) (cmd urgent : Bool) : (s.startWipe what cmd urgent).pending = s.pending := by
  grind [State.startWipe, State.pending_markWiping, State.pending_wr, State.pending_logEv]
theorem State.pending_rngHealth (s : State) (failed inj : Bool) : (s.rngHealth failed inj).pending = s.pending := by
  grind [State.rngHealth, State.pending_logEv, State.pending_wr]

/-! ### Address spaces and pinned pages (R345, R348) -/

theorem State.pending_uncache (s : State) (tag : Nat) : (s.uncache tag).pending = s.pending := by
  grind [State.uncache, State.pending_wr]
theorem State.pending_freeTag (s : State) (tag : Nat) : (s.freeTag tag).pending = s.pending := by
  grind [State.freeTag, State.pending_wr, State.pending_lower, State.pending_uncache]
theorem State.pending_rewalk (s : State) (part vf tag base bytes : Nat) (acc : AccKind) :
    (s.rewalk part vf tag base bytes acc).2.pending = s.pending := by
  grind [State.rewalk, pending_pinPages, State.pending_walkNow]
theorem State.pending_losePin (s : State) (key : Nat) : (s.losePin key).pending = s.pending := by
  grind [State.losePin, State.pending_modRing, State.pending_windDown, State.pending_logEv, State.pending_bump, pending_foldl]

theorem State.pending_checkPins (s : State) (tag : Nat) : (s.checkPins tag).pending = s.pending := by
  suffices s.SameQueue (s.checkPins tag) from this
  unfold State.checkPins
  refine .foldl (.foldl rfl fun t q => ?_) fun t q => ?_
  · extract_lets vf p r
    exact .absentFirst (State.pending_rewalk ..) (fun u => State.pending_losePin ..)
      (fun a u => .foundFirst (State.pending_rewalk ..) (fun u => State.pending_losePin ..) (fun b u => State.pending_modRing ..) (fun _ _ _ => rfl)
        fun _ _ _ _ => rfl) (fun _ _ _ => rfl) fun _ _ _ _ => rfl
  · extract_lets x unbound
    have unbinds : ∀ u, State.SameQueue u (unbound u) := fun u => State.pending_logEv ..
    exact .absentFirst (State.pending_rewalk ..) unbinds
      (fun a u => .foundFirst (State.pending_rewalk ..) unbinds (fun b u => rfl) (fun _ _ _ => rfl) fun _ _ _ _ => rfl) (fun _ _ _ => rfl)
      fun _ _ _ _ => rfl

/-! ### Partitions and instances (R378-R391) -/

theorem State.pending_showPart (s : State) (p : Nat) : (s.showPart p).pending = s.pending := by
  grind [State.showPart, State.pending_wr]
theorem State.pending_setAllow (s : State) (vf : Nat) (a : Allow) : (s.setAllow vf a).pending = s.pending := by
  grind [State.setAllow, State.pending_wr]
theorem State.pending_drainConn (s : State) (c : Nat) : (s.drainConn c).pending = s.pending := rfl
theorem State.pending_resetConn (s : State) (c : Nat) : (s.resetConn c).pending = s.pending := by
  grind [State.resetConn, State.pending_killOp, State.pending_showRecv, State.pending_drainConn, State.pending_setConn, State.pending_dropHolds,
    State.pending_tryClose, State.pending_modConn, State.pending_advanceEpoch, pending_foldl]

theorem State.pending_clearInst (s : State) (vf : Nat) : (s.clearInst vf).pending = s.pending := by
  grind [State.clearInst, State.pending_ringStop, State.pending_killOp, State.pending_wr, State.pending_freeConn, State.pending_lower,
    State.pending_checkPins, State.pending_freeTag, State.pending_setReg, State.pending_dropColl, State.pending_dissolveGroup,
    State.pending_startWipe, pending_foldl]

theorem State.pending_beginReset (s : State) (vf : Nat) : (s.beginReset vf).pending = s.pending := by
  grind [State.beginReset, State.pending_cmnRun, State.pending_clearInst, State.pending_wr]
theorem State.pending_absentInst (s : State) (vf : Nat) : (s.absentInst vf).pending = s.pending := by
  grind [State.absentInst, State.pending_setAllow, State.pending_setBucket, State.pending_wr, State.pending_setReg, State.pending_showPart]
theorem State.pending_beginPtnReset (s : State) (p : Nat) : (s.beginPtnReset p).pending = s.pending := by
  grind [State.beginPtnReset, State.pending_beginReset, State.pending_logEv, State.pending_bump, State.pending_wr, pending_foldl]
theorem State.pending_runHeldResets (s : State) : s.runHeldResets.pending = s.pending := by
  grind [State.runHeldResets, State.pending_logEv, State.pending_bump, State.pending_beginReset, State.pending_beginPtnReset, pending_foldl]

/-! ### The Kilmet link (R19-R28) -/

theorem State.pending_klnDrain (s : State) : s.klnDrain.pending = s.pending := by
  grind [State.klnDrain, State.pending_setKln, pending_foldl]
theorem State.pending_klnLanes (s : State) : s.klnLanes.pending = s.pending := by
  grind [State.klnLanes, State.pending_spareCounts, pending_foldl]
theorem State.pending_klnRepairs (s : State) (m n : Nat) : (s.klnRepairs m n).pending = s.pending := by
  grind [State.klnRepairs, State.pending_logEv, pending_foldl]
theorem State.pending_klnLeave (s : State) (m : Nat) : (s.klnLeave m).pending = s.pending := by
  grind [State.klnLeave, State.pending_wr, State.pending_klnDrain, State.pending_setKln, State.pending_logEv, pending_foldl]
theorem State.pending_klnLaneOut (s : State) (m d : Nat) : (s.klnLaneOut m d).pending = s.pending := by
  grind [State.klnLaneOut, State.pending_klnLanes, State.pending_klnRepairs, State.pending_wr, State.pending_klnLeave, State.pending_logEv]

/-! ### The logbook's pages (R473-R477) -/

theorem State.pending_showLog (s : State) : s.showLog.pending = s.pending := by
  grind [State.showLog, State.pending_wr]
theorem State.pending_disarm (s : State) : s.disarm.pending = s.pending := by
  grind [State.disarm, State.pending_wr]

/-! ### The power ladder (R434-R442) -/

theorem State.pending_showDev (s : State) : s.showDev.pending = s.pending := by
  grind [State.showDev, State.pending_wr, pending_foldl]
theorem State.pending_setDom (s : State) (d st : Nat) : (s.setDom d st).pending = s.pending := by
  grind [State.setDom, State.pending_showDev, State.pending_wr]
theorem State.pending_releaseHeld (s : State) (d : Nat) : (s.releaseHeld d).pending = s.pending := rfl
theorem State.pending_crossReset (s : State) (d : Nat) : (s.crossReset d).pending = s.pending := by
  grind [State.crossReset, State.pending_emit, State.pending_releaseHeld]
theorem State.pending_kindle (s : State) (d : Nat) : (s.kindle d).pending = s.pending := by
  grind [State.kindle, State.pending_bumpSat, State.pending_evt, State.pending_bump]
theorem State.pending_domWrite (s : State) (d floor : Nat) (pin : Bool) (idleUs : Nat) : (s.domWrite d floor pin idleUs).pending = s.pending := by
  grind [State.domWrite, State.pending_refuseWrite, State.pending_wr, State.pending_kindle, State.pending_setDom, State.pending_bumpSat,
    State.pending_evt, State.pending_bump]
theorem State.pending_devResult (s : State) (reason : Nat) : (s.devResult reason).pending = s.pending := by
  grind [State.devResult, State.pending_wr]
theorem State.pending_darkPorts (s : State) : s.darkPorts.pending = s.pending := by
  grind [State.darkPorts, State.pending_portOut, pending_foldl]

/-! ### The layout image (R34-R57) -/

theorem State.pending_assignTier (s : State) (tier : Nat) (boot : Bool) : (s.assignTier tier boot).pending = s.pending := by
  grind [State.assignTier, State.pending_zeroGranule, pending_foldl]
theorem State.pending_resizeTier (s : State) (p tier n : Nat) : (s.resizeTier p tier n).pending = s.pending := by
  grind [State.resizeTier, State.pending_zeroGranule, pending_foldl]
theorem State.pending_mapNetSpare (s : State) (n lane : Nat) : (s.mapNetSpare n lane).pending = s.pending := by
  grind [State.mapNetSpare, State.pending_countMapped, State.pending_wr]
theorem State.pending_overrideLane (s : State) (o : SpareOverride) : (s.overrideLane o).pending = s.pending := by
  grind [State.overrideLane, State.pending_retireSerdes, State.pending_mapNetSpare, State.pending_portOut]
theorem State.pending_chooseSpare (s : State) (res : Nat) (f : Fld) (unit spare : Nat) : (s.chooseSpare res f unit spare).pending = s.pending := by
  grind [State.chooseSpare, State.pending_noteMapped, State.pending_logEv, State.pending_wr, State.pending_assignEgress, State.pending_enterSpare]
theorem State.pending_chooseCounted (s : State) (res unit spare : Nat) : (s.chooseCounted res unit spare).pending = s.pending := by
  grind [State.chooseCounted, State.pending_logEv, State.pending_noteMapped, State.pending_mapOne]
theorem State.pending_shedWay (s : State) (set : Nat) : (s.shedWay set).pending = s.pending := by
  grind [State.shedWay, State.pending_showCtx, State.pending_bump]
theorem State.pending_overrideCounted (s : State) (o : SpareOverride) : (s.overrideCounted o).pending = s.pending := by
  grind [State.overrideCounted, State.pending_retireCounted, State.pending_retireSound, State.pending_chooseCounted, State.pending_shedWay]
theorem State.pending_overrideRepair (s0 : State) (o : SpareOverride) : (State.overrideRepair s0 o).pending = s0.pending := by
  grind [State.overrideRepair, State.pending_klnLaneOut, State.pending_laneRepair]
theorem State.pending_applyOverride (s : State) (o : SpareOverride) : (s.applyOverride o).pending = s.pending := by
  grind [State.applyOverride, State.pending_retireUnit, State.pending_chooseSpare, State.pending_spareBank, State.pending_failBank,
    State.pending_overrideLane, State.pending_overrideRepair, State.pending_overrideCounted]
theorem State.pending_applyPorts (s : State) (old : Option Layout) (new : Layout) : (s.applyPorts old new).pending = s.pending := by
  grind [State.applyPorts, State.pending_wr, State.pending_portOut, State.pending_setLp, pending_foldl]
theorem State.pending_applyHosts (s : State) (old : Option Layout) (new : Layout) : (s.applyHosts old new).pending = s.pending := by
  grind [State.applyHosts, State.pending_linkLoss, State.pending_wr, State.pending_setLink, pending_foldl]
theorem State.pending_applyInsts (s : State) : s.applyInsts.pending = s.pending := by
  grind [State.applyInsts, State.pending_cmnRun, State.pending_absentInst, State.pending_clearInst, State.pending_wr, pending_foldl]
theorem State.pending_applyParts (s : State) : s.applyParts.pending = s.pending := by
  grind [State.applyParts, State.pending_wr, State.pending_setReg, State.pending_logEv, pending_foldl]
theorem State.pending_applyPower (s : State) (l : Layout) : (s.applyPower l).pending = s.pending := by
  grind [State.applyPower, State.pending_domWrite, State.pending_wr, pending_foldl]

theorem State.pending_applyFull (s : State) (l : Layout) (src : Nat) (boot : Bool) : (s.applyFull l src boot).pending = s.pending := by
  grind [State.applyFull, State.pending_wr, State.pending_applyInsts, State.pending_showFree, State.pending_assignTier, State.pending_showPool,
    State.pending_applyParts, State.pending_applyPower, State.pending_applyOverride, State.pending_applyHosts, State.pending_applyPorts,
    pending_foldl]

theorem State.pending_applySlice (s : State) (p : Nat) (q : PoolShare) (rs : List Recipe) : (s.applySlice p q rs).pending = s.pending := by
  grind [State.applySlice, State.pending_resizeTier, State.pending_wr, State.pending_showPool, State.pending_showFree]
theorem State.pending_layResult (s : State) (op reason : Nat) : (s.layResult op reason).pending = s.pending := by
  grind [State.layResult, State.pending_wr, State.pending_logDone, State.pending_logRefused]
theorem State.pending_sliceEnds (s : State) : s.sliceEnds.pending = s.pending := by
  grind [State.sliceEnds, State.pending_runHeldResets]

theorem State.pending_finishFull (s : State) : s.finishFull.pending = s.pending := by
  unfold State.finishFull
  split
  · rw [State.pending_layResult]
  · rw [State.pending_layResult, State.pending_applyFull]

theorem State.pending_finishSlice (s : State) : s.finishSlice.pending = s.pending := by
  unfold State.finishSlice
  split
  · dsimp only
    split
    · rw [State.pending_emit, State.pending_sliceEnds, State.pending_layResult]
    · rw [State.pending_sliceEnds, State.pending_layResult]
  · rw [State.pending_sliceEnds, State.pending_layResult, State.pending_applySlice]

theorem State.pending_layStop (s : State) : s.layStop.pending = s.pending := by
  grind [State.layStop, State.pending_finishSlice, State.pending_finishFull, State.pending_sliceEnds, State.pending_layResult]
theorem State.pending_slotImage (s : State) (slot : Nat) : (s.slotImage slot).2.pending = s.pending := by
  grind [State.slotImage, State.pending_logRefused, State.pending_wr]
theorem State.pending_startLayout (s : State) (boot : Bool) : (s.startLayout boot).pending = s.pending := by
  grind [State.startLayout, State.pending_slotImage, State.pending_applyFull, State.pending_wr, State.pending_setLink]

/-! ### The tray bus (R503-R507) -/

theorem State.pending_showFault (s : State) : s.showFault.pending = s.pending := rfl
theorem State.pending_trayNext (s : State) : s.trayNext.pending = s.pending := by
  grind [State.trayNext]
theorem State.pending_traySend (s : State) : s.traySend.pending = s.pending := by
  grind [State.traySend, State.pending_trayNext, State.pending_bump, State.pending_emit]
theorem State.pending_announce (s : State) : s.announce.pending = s.pending := by
  grind [State.announce, State.pending_trayPut]
theorem State.pending_tellRetired (s : State) : s.tellRetired.pending = s.pending := by
  grind [State.tellRetired, State.pending_trayPut]

end Sys2Proof.Machine
end

section
/-! PROOFS. The queue of commands through starting, the manager role, resets and the ember clock. -/

namespace Sys2Proof.Machine

-- The proofs here are many and small, and share the equations of the model: one at a time they need far less memory.
set_option Elab.async false

/-! ### Starting (R48, R405, R461-R464, R492-R495, R525-R527) -/

theorem State.pending_fwOrder (s : State) : s.fwOrder.2.pending = s.pending := by
  grind [State.fwOrder, State.pending_wr]

theorem State.pending_tryFw (s : State) (l : List Nat) : (s.tryFw l).pending = s.pending := by
  induction l generalizing s with
  | nil => rfl
  | cons a l ih => grind [State.tryFw, State.pending_wr]

theorem State.pending_chooseFw (s : State) : s.chooseFw.pending = s.pending := by
  grind [State.chooseFw, State.pending_wr, State.pending_fwOrder, State.pending_tryFw]
theorem State.pending_copyFld (s old : State) (f : Fld) (n : Nat) : (s.copyFld old f n).pending = s.pending := by
  grind [State.copyFld, State.pending_wr, pending_foldl]
theorem State.pending_copyUnits (s old : State) (res : Nat) (f : Fld) (n : Nat) : (s.copyUnits old res f n).pending = s.pending := by
  grind [State.copyUnits, State.pending_wr, pending_foldl]

theorem State.pending_copyBuilt (s old : State) : (s.copyBuilt old).pending = s.pending := by
  unfold State.copyBuilt
  simp only [State.pending_assignEgress, State.pending_copyUnits]
  rw [pending_foldl _ _ _ fun t m => by grind [State.pending_wr]]
  simp only [State.pending_copyFld]

theorem State.pending_mapSpares (s : State) : s.mapSpares.pending = s.pending := by
  grind [State.mapSpares, State.pending_mapUnits, State.pending_mapCounted, State.pending_assignEgress, State.pending_mapNetSpare,
    State.pending_spareBank, pending_foldl]
theorem State.pending_trainDdr (s : State) : s.trainDdr.pending = s.pending := by
  grind [State.trainDdr, State.pending_setReg, State.pending_wr, State.pending_logEv, pending_foldl]
theorem State.pending_trainHbm (s : State) : s.trainHbm.pending = s.pending := by
  grind [State.trainHbm, State.pending_wr, State.pending_logEv, State.pending_laneRepair, pending_foldl]
theorem State.pending_zeroTier (s : State) (t : Nat) (held : Bool) : (s.zeroTier t held).pending = s.pending := by
  grind [State.zeroTier, State.pending_zeroRange]
theorem State.pending_trainTiers (s : State) : s.trainTiers.pending = s.pending := by
  grind [State.trainTiers, State.pending_trainDdr, State.pending_trainHbm, State.pending_logEv, State.pending_zeroTier]
theorem State.pending_repairRows (s : State) : s.repairRows.pending = s.pending := by
  grind [State.repairRows, State.pending_drawBelow, State.pending_wr]
theorem State.pending_cutPrograms (s : State) : s.cutPrograms.pending = s.pending := by
  grind [State.cutPrograms]
theorem State.pending_stripChip (s0 : State) : (State.stripChip s0).pending = s0.pending := by
  grind [State.stripChip, State.pending_cutPrograms, State.pending_copyFld, State.pending_copyBuilt, State.pending_wr, State.pending_disarm,
    State.pending_repairRows, State.pending_wipeCellar, pending_foldl]
theorem State.pending_stripPower (s0 : State) : (State.stripPower s0).pending = s0.pending := by
  grind [State.stripPower, State.pending_cutPrograms, State.pending_copyFld, State.pending_copyBuilt, State.pending_wr, State.pending_showLog,
    State.pending_wipeCellar, pending_foldl]
theorem State.pending_countBoot (s : State) : s.countBoot.pending = s.pending := by
  grind [State.countBoot, State.pending_wr]

theorem State.pending_startUp (s : State) (power : Bool) : (s.startUp power).pending = s.pending := by
  have chosen : ((s.trainTiers.mapSpares).chooseFw).pending = s.pending := by
    rw [State.pending_chooseFw, State.pending_mapSpares, State.pending_trainTiers]
  unfold State.startUp
  generalize (s.trainTiers.mapSpares).chooseFw = u at chosen ⊢
  grind [State.pending_mapSpares, State.pending_setLink, State.pending_wr, State.pending_startLayout, State.pending_tellRetired,
    State.pending_announce, State.pending_showFault]

theorem State.pending_pushHist (s : State) : s.pushHist.pending = s.pending := by
  grind [State.pushHist, State.pending_wr]
theorem State.pending_putDump (s : State) (r : DumpRun) : (s.putDump r).pending = s.pending := by
  grind [State.putDump, State.pending_zeroRange, State.pending_wr, State.pending_memWrite]
theorem State.pending_takeDump (s : State) (trigger cause : Nat) (units : List (Nat × Nat)) :
    (s.takeDump trigger cause units).pending = s.pending := by
  grind [State.takeDump, State.pending_logRefused, State.pending_logEv, State.pending_putDump]
theorem State.pending_chipReset (s : State) (cause : Nat) : (s.chipReset cause).pending = s.pending := by
  grind [State.chipReset, State.pending_darkPorts, State.pending_takeDump, State.pending_pushHist, State.pending_bump, State.pending_wr,
    State.pending_countBoot, State.pending_stripChip, State.pending_startUp, State.pending_logEv]
theorem State.pending_powerOn (s : State) : s.powerOn.pending = s.pending := by
  grind [State.powerOn, State.pending_startUp, State.pending_countBoot, State.pending_stripPower]
theorem State.pending_rstResult (s : State) (op reason : Nat) : (s.rstResult op reason).pending = s.pending := by
  grind [State.rstResult, State.pending_wr, State.pending_logDone, State.pending_logRefused]
theorem State.pending_crystalFail (s : State) (inj : Bool) : (s.crystalFail inj).pending = s.pending := by
  grind [State.crystalFail, State.pending_bump, State.pending_wr, State.pending_logRec, State.pending_chipReset, State.pending_showFault]
theorem State.pending_relight (s : State) : s.relight.pending = s.pending := by
  grind [State.relight, State.pending_wr, State.pending_showDev, State.pending_setLp, pending_foldl]
theorem State.pending_wake (s : State) (cause : Nat) : (s.wake cause).pending = s.pending := by
  grind [State.wake, State.pending_startUp, State.pending_stripChip, State.pending_relight, State.pending_wr]

/-! ### The manager role (R496-R501) -/

theorem State.pending_mgtSend (s : State) (k imm : Nat) (body : List Byte) : (s.mgtSend k imm body).pending = s.pending := by
  grind [State.mgtSend, State.pending_sendMsg]
theorem State.pending_regResp (s : State) (k seq status : Nat) (data : List Byte) : (s.regResp k seq status data).pending = s.pending := by
  grind [State.regResp, State.pending_mgtSend]
theorem State.pending_showSession (s : State) : s.showSession.pending = s.pending := by
  grind [State.showSession, State.pending_wr]
theorem State.pending_closeMgt (s : State) (k : Nat) : (s.closeMgt k).pending = s.pending := by
  grind [State.closeMgt, State.pending_freeConn, State.pending_queuePkts, State.pending_setConn, State.pending_startWipe]
theorem State.pending_endSession (s : State) : s.endSession.pending = s.pending := by
  grind [State.endSession, State.pending_clearStaged, State.pending_showSession, State.pending_closeMgt, State.pending_regResp, pending_foldl]
theorem State.pending_mgtSweep (s : State) : s.mgtSweep.pending = s.pending := by
  grind [State.mgtSweep, State.pending_endSession, State.pending_closeMgt, pending_foldl]

/-! ### Hangs, replays and units retired in service (R452-R458, R468) -/

theorem State.pending_setReplay (s : State) (r : Replay) : (s.setReplay r).pending = s.pending := rfl
theorem State.pending_setUnit (s : State) (kind unit st : Nat) : (s.setUnit kind unit st).pending = s.pending := by
  grind [State.setUnit, State.pending_logEv, State.pending_wr, State.pending_assignEgress]
theorem State.pending_connReset (s : State) (c : Nat) : (s.connReset c).pending = s.pending := by
  grind [State.connReset, State.pending_killOp, State.pending_mgtSweep, State.pending_resetConn, pending_foldl]
theorem State.pending_resendAll (s : State) (c : Nat) : (s.resendAll c).pending = s.pending := by
  grind [State.resendAll, State.pending_resend, State.pending_evt, State.pending_bump, pending_foldl]
theorem State.pending_emptyNode (s : State) (id : Nat) (n : Node) : (s.emptyNode id n).pending = s.pending := by
  grind [State.emptyNode, State.pending_setNode, State.pending_unbindNodes]
theorem State.pending_askAgain (s : State) (id : Nat) (n : Node) : (s.askAgain id n).pending = s.pending := by
  grind [State.askAgain, State.pending_sendFolded, pending_foldl]
theorem State.pending_parkWork (s : State) (kind unit : Nat) : (s.parkWork kind unit).2.pending = s.pending := by
  unfold State.parkWork
  grind [State.pending_emptyNode, State.pending_modColl, State.pending_freeEngine, pending_foldl]
theorem State.pending_runNode (s : State) (unit : Nat) (q : Nat × Nat × Nat × Nat) : (s.runNode unit q).pending = s.pending := by
  grind [State.runNode, State.pending_enterUnit, State.pending_askAgain]
theorem State.pending_runParkedBlock (s : State) (q : Nat × Nat × Nat × Nat) : (s.runParkedBlock q).2.pending = s.pending := by
  grind [State.runParkedBlock, State.pending_bump, State.pending_giveEngine, State.pending_modColl]
theorem State.pending_reissue (s : State) (op : Nat) : (s.reissue op).pending = s.pending := by
  grind [State.reissue, State.pending_dropCmd, State.pending_runStream, State.pending_setStream, pending_foldl]
theorem State.pending_runSuspect (s : State) (r : Replay) (x : Nat) : (s.runSuspect r x).pending = s.pending := by
  grind [State.runSuspect, State.pending_setReplay, State.pending_runNode, State.pending_runParkedBlock, State.pending_resendAll,
    State.pending_reissue, pending_foldl]
theorem State.pending_endReplay (s : State) (r : Replay) : (s.endReplay r).pending = s.pending := by
  grind [State.endReplay, State.pending_releaseHeld, State.pending_setUnit, State.pending_bindChunk, State.pending_askAgain, State.pending_logEv,
    State.pending_wr, State.pending_rstResult, pending_foldl]
theorem State.pending_judgeNext (s : State) (kind unit : Nat) : (s.judgeNext kind unit).pending = s.pending := by
  grind [State.judgeNext, State.pending_runSuspect, State.pending_endReplay]
theorem State.pending_lastUnit (s : State) (kind unit suspects guilty : Nat) : (s.lastUnit kind unit suspects guilty).pending = s.pending := by
  grind [State.lastUnit, State.pending_wr, State.pending_chipReset]
theorem State.pending_retireHung (s : State) (r : Replay) : (s.retireHung r).pending = s.pending := by
  grind [State.retireHung, State.pending_lastUnit, State.pending_bump, State.pending_logEv, State.pending_wr, State.pending_retireUnit,
    State.pending_judgeNext, State.pending_setReplay]
theorem State.pending_engineReset (s : State) (r : Replay) : (s.engineReset r).pending = s.pending := by
  grind [State.engineReset, State.pending_crossReset, State.pending_logEv, State.pending_bump, State.pending_takeDump, State.pending_setReplay]
theorem State.pending_lossCause (s : State) (kind : Nat) (todo : List Nat) : (s.lossCause kind todo).pending = s.pending := by
  grind [State.lossCause, State.pending_recordCause, pending_foldl]

theorem State.pending_beginReplay (s : State) (kind unit : Nat) (seen : List Nat) (manager inj : Bool) :
    (s.beginReplay kind unit seen manager inj).pending = s.pending := by
  grind [State.beginReplay, State.pending_lossCause, State.pending_parkWork, State.pending_setUnit, State.pending_bump, State.pending_connReset,
    State.pending_engineReset, pending_foldl]

theorem State.pending_hang (s : State) (kind unit : Nat) (seen : List Nat) (manager inj : Bool) :
    (s.hang kind unit seen manager inj).pending = s.pending := by
  grind [State.hang, State.pending_bump, State.pending_beginReplay, State.pending_cmnRun, State.pending_retireHung]

/-! ### The trust controller and the tamper inputs (R404-R416) -/

theorem State.pending_tamper (s : State) (input : Nat) (inj : Bool) : (s.tamper input inj).pending = s.pending := by
  grind [State.tamper, State.pending_startWipe, State.pending_wipeCellar, State.pending_wr, State.pending_bumpSat, State.pending_layStop,
    State.pending_showFault, State.pending_logEv, State.pending_devResult, State.pending_relight, State.pending_wake]
theorem State.pending_tamperPulse (s : State) (input : Nat) (passes inj : Bool) : (s.tamperPulse input passes inj).pending = s.pending := by
  grind [State.tamperPulse, State.pending_evt, State.pending_wr, State.pending_tamper]

/-! ### One ember clock and what it watches (R443, log entry 1) -/

theorem State.pending_watchdogTick (s : State) : s.watchdogTick.pending = s.pending := by
  grind [State.watchdogTick, State.pending_inject, State.pending_hang]
theorem State.pending_watch (s : State) : s.watch.pending = s.pending := by
  grind [State.watch, State.pending_inject, State.pending_crystalFail, State.pending_rngHealth, State.pending_tamperPulse, pending_foldl]
theorem State.pending_clock (s : State) : s.clock.pending = s.pending := rfl
theorem pending_idle (s : State) : (idle s).pending = s.pending := by
  grind [idle, State.pending_clock, State.pending_watchdogTick, State.pending_watch, State.pending_traySend]

end Sys2Proof.Machine
end

section
/-! PROOFS. The queue of commands over one command and over one step (log entry 2). -/

namespace Sys2Proof.Machine

/-- A row of power keeps the queue through the loss of what power held and through the start. -/
theorem exec_pending_of_bringsPower {c : Instr} {s t : State} (hc : bringsPower c = true) (h : exec c s = .next t) : t.pending = s.pending := by
  cases c with
  | powerOn =>
    obtain rfl : (if s.power = .resetHeld then s.powerOn else s) = t := Host.Outcome.next.inj h
    split
    · exact State.pending_powerOn s
    · rfl
  | railRestore =>
    obtain rfl : (if s.power = .railOut then s.powerOn else s) = t := Host.Outcome.next.inj h
    split
    · exact State.pending_powerOn s
    · rfl
  | resetNAssert =>
    obtain rfl : State.faultOff { s.stripPower with power := .resetHeld } = t := Host.Outcome.next.inj h
    exact State.pending_stripPower s
  | railDeparture core =>
    obtain rfl : State.faultOff { s.stripPower with power := if core || s.power == .resetHeld then .resetHeld else .railOut } = t :=
      Host.Outcome.next.inj h
    exact State.pending_stripPower s
  | _ => cases hc

/-- No command, run by itself, changes the queue. -/
theorem exec_pending {c : Instr} {s t : State} (h : exec c s = .next t) : t.pending = s.pending := by
  by_cases hp : bringsPower c = true
  · exact exec_pending_of_bringsPower hp h
  by_cases ha : staysAlive c = true
  · obtain ⟨eff, e⟩ := exec_of_staysAlive ha s
    rw [e] at h
    split at h
    · exact actOn0_pending h
    · cases h
  · obtain ⟨eff, e⟩ := exec_of_plain (Bool.eq_false_iff.mpr ha) (Bool.eq_false_iff.mpr hp) s
    exact actOn_pending (e ▸ h)

/-- A step leaves of the queue all but its front. -/
theorem step_pending {s t : State} (h : step s = .next t) : t.pending = s.pending.tail := by
  unfold step at h
  split at h
  next empty =>
    obtain rfl := Host.Outcome.next.inj h
    rw [pending_idle, empty, List.tail_nil]
  next c rest front => rw [exec_pending h, front, List.tail_cons]

/-- Settles O3: a row of power keeps the queue in what it makes, every other row has it put back, and the idle tick leaves it. -/
theorem waitingCommandsStayWellFormed : Obligations.WaitingCommandsStayWellFormed :=
  ⟨fun _ _ _ h => exec_pending h, fun _ _ h => ⟨step_pending h, fun sound c hc => sound c (List.mem_of_mem_tail (step_pending h ▸ hc))⟩⟩

end Sys2Proof.Machine
end
